-- ==== Sys2Proof/Word.lean ====
section
/-!
DEFINITION. The widths the hub works in: the 40-bit word of R10 and R168, the 32-bit register of R445,
and the byte of R23.
-/

namespace Sys2Proof

/-- The 40-bit result word (R10, R168). -/
abbrev Word := BitVec 40

/-- A 32-bit register (R445), weave entry (R152) or mirrored code word (R384). -/
abbrev Reg := BitVec 32

/-- A byte of a frame or of an MRAM image (R23, R515). -/
abbrev Byte := BitVec 8

end Sys2Proof
end

