-- ==== Sys2Proof/Syntax.lean ====
section
/-!
DEFINITION. The commands of the SH512: one constructor of `Instr` per row of spec/opcode_table.json, with
the operands the row takes from outside the hub: what a host writes, what arrives on a pin, a line or the
pairing link, and what an analogue measurement gave.
-/

namespace Sys2Proof

/-- The two line ports (R334). -/
inductive Port | a | b
deriving DecidableEq, Repr

/-- The two access paths to the registers (R173, R447). -/
inductive Path | qspi | inband
deriving DecidableEq, Repr

/-- The two arbiters (R320). -/
inductive Arbiter | mem | tx
deriving DecidableEq, Repr

/-- An instant of hub time (R49). -/
structure HubTime where
  sec : Nat
  ns : Nat
deriving DecidableEq, Repr

/-- An instant of hub time at 125 ps resolution: an even nanoseconds count and a FRAC of 0 to 15 (R77, R175). -/
structure Stamp where
  sec : Nat
  ns : Nat
  frac : Nat
deriving DecidableEq, Repr

/-- A PTP source port identity: clockIdentity and portNumber (R69). -/
structure PortId where
  clock : Nat
  port : Nat
deriving DecidableEq, Repr

/-- A Sync as it arrives: its domain, identity and sequenceId, its Sync interval as log2 s, its twoStepFlag, originTimestamp,
correction field in 2^-16 ns, ingress time stamp t2, and whether the stamp could be queued (R67, R71, R75). -/
structure SyncMsg where
  domain : Nat
  src : PortId
  seq : Nat
  logInterval : Int
  twoStep : Bool
  origin : HubTime
  corr : Int
  rx : HubTime
  stampOk : Bool
deriving DecidableEq, Repr

/-- A Follow_Up: preciseOriginTimestamp and correction field (R71). -/
structure FollowUpMsg where
  domain : Nat
  src : PortId
  seq : Nat
  origin : HubTime
  corr : Int
deriving DecidableEq, Repr

/-- An Announce: identity, UTC fields and its announce interval as log2 s (R67, R69, R81). -/
structure AnnounceMsg where
  domain : Nat
  src : PortId
  logInterval : Int
  utcOffset : Nat
  utcValid : Bool
  leap61 : Bool
  leap59 : Bool
deriving DecidableEq, Repr

/-- A Pdelay_Resp: the sequenceId it answers, the responder's turnaround t3 - t2 with the response corrections
applied in 2^-16 ns, the ingress stamp t4, and whether that stamp could be queued (R72, R75). -/
structure PdelayRespMsg where
  seq : Nat
  turnaround : Int
  rx : HubTime
  stampOk : Bool
deriving DecidableEq, Repr

/-- A Pdelay_Req received: requester, sequenceId, ingress stamp t2, egress stamp t3 of the response and whether both
stamps could be queued (R73, R75). -/
structure PdelayReqMsg where
  src : PortId
  seq : Nat
  rx : HubTime
  tx : HubTime
  stampOk : Bool
deriving DecidableEq, Repr

/-- A Pdelay message as it stands on the line: whether it is a Pdelay_Resp, its source port identity and sequenceId, its correction
field in 2^-16 ns, and in a Pdelay_Resp the requestReceiptTimestamp and the identity of the requester (R72, R73). -/
structure PdelayMsg where
  resp : Bool
  src : PortId
  seq : Nat
  corr : Int
  receipt : Option HubTime
  requester : Option PortId
deriving DecidableEq, Repr

/-- The PTP messages a ring frame can carry (R67, R68). `other` is a message of an unsupported kind. -/
inductive PtpMsg
  | sync (m : SyncMsg)
  | followUp (m : FollowUpMsg)
  | announce (m : AnnounceMsg)
  | pdelay (m : PdelayMsg)
  | other
deriving DecidableEq, Repr

/-- The 24-byte hub header of R349 (VERSION is always 1 and the reserved bytes 0). -/
structure HubHdr where
  stream : Nat
  pair : Bool
  ctrl : Bool
  ftype : Nat
  wcount : Nat
  hubId : Nat
  seq : Nat
  tickLo : Nat
  ns32 : Nat
  lost16 : Nat
deriving DecidableEq, Repr

/-- What a frame carries after its addresses and tag. -/
inductive Body
  | hub (etherType : Nat) (h : HubHdr) (words : List Word)
  | ptp (m : PtpMsg)
  | pause
  | foreign
deriving DecidableEq, Repr

/-- An HSR tag after its EtherType 0x892F: path identifier, LSDU size and sequence number (R348). -/
structure HsrTag where
  path : Nat
  size : Nat
  seq : Nat
deriving DecidableEq, Repr

/-- An Ethernet frame (R10, R68, R348): addresses as 48-bit numbers, the PCP of its priority tag and its HSR tag where it has them,
its content, its length from destination address to FCS, and whether its FCS is right. -/
structure Frame where
  dst : Nat
  src : Nat
  prio : Option Nat := none
  hsr : Option HsrTag := none
  body : Body
  bytes : Nat
  fcsOk : Bool
deriving DecidableEq, Repr

/-- The sequence number of a frame's HSR tag, if it has one. -/
def Frame.hsrSeq (f : Frame) : Option Nat := f.hsr.map HsrTag.seq

/-- What a receiver of the wale bus makes of a pulse (R365, R366): asserted for less than 200 ns, still asserted at 200 ns, or a pulse of the
hub's own that its receiver has not seen within 20 ns. -/
inductive WaleClass | short | wide | unseen
deriving DecidableEq, Repr

/-- What one conversion of a slice delivers: the raw 24-bit code, the time it took in ns, whether the hold failed
the common-mode window, whether the excitation sense check failed at some time in the conversion's window, whether the codes of
the shadowing spares (duty and idle) were completed, and whether its stage was parked (R148, R135, R191). -/
structure ConvIn where
  raw : BitVec 24
  ns : Nat
  cmFail : Bool
  excFail : Bool
  duty : Option (BitVec 24)
  idle : Option (BitVec 24)
  dutyNs : Nat := 0
  idleNs : Nat := 0
deriving DecidableEq, Repr

/-- The results of a slice self-test (R208): mean and standard deviation in LSB at the levels 0, +1/2 and -1/2 of the
span, and whether any conversion exceeded 600 ns. -/
structure SelfTest where
  meanZero : Int
  meanPos : Int
  meanNeg : Int
  sdMax : Nat
  slow : Bool
deriving DecidableEq, Repr

/-- A decision of the active as a DECISION record carries it (R387, R481). -/
inductive Decision
  | trigger (ctx : Fin 256) (recNo : Nat) (t : Stamp) (tickIdx : Nat) (src srcId : Nat) (late : List Nat)
  | arm (ctx : Fin 256) (refused : Nat)
  | rearm (ctx : Fin 256)
  | abort (ctx : Fin 256)
  | release (ctx : Fin 256)
  | flush (q : Fin 64)
  | dumpNow (g : Fin 32) (mask : BitVec 16)
  | qreset (g : Fin 32) (mask : BitVec 16)
  | timeCmd (v : BitVec 3)
  | sleep (lastIdx : Nat)
  | wake (at_ : HubTime)
deriving DecidableEq, Repr

/-- One decision of the active about a queue, in the order it took them (R317, R389, R427). An interrupt packet of the active carries its
words; every other packet, and the control markers, stand for the next ones of the standby's staging. -/
inductive Fate
  /-- OVERWRITE_OLD discards `n` packets behind the first `skip`, which the active has taken out or begun to read (R309). -/
  | room (skip n : Nat)
  /-- The pending control markers are written as one packet (R311). -/
  | pend
  /-- The packet of the pending control markers is lost, and marked in the last GAP packet or in a new one (R309, R311). -/
  | pendLost (inPlace : Bool)
  /-- The next control markers join the pending ones (R311). -/
  | join
  /-- The next packet is accepted (R307). -/
  | take (irq : Option (List Word))
  /-- The next packet is lost, and marked in the last GAP packet or in a new one (R308). -/
  | lose (irq : Option (List Word)) (inPlace : Bool)
  /-- The next packet meets a disabled queue (R301). -/
  | off (irq : Option (List Word))
  /-- A flush takes effect behind the first `skip` packets, which the active has taken out, and discards `n` words (R317). -/
  | flush (skip n : Nat)
deriving DecidableEq, Repr

/-- The interrupt packet that a decision carries. -/
def Fate.irqWords : Fate → Option (List Word)
  | .take w => w
  | .lose w _ => w
  | .off w => w
  | _ => none

/-- What a TICK record says of one queue (R383, R389): the decisions about it, which give the packet count, the number of packets reported
as gone and the last SEQ sent. -/
structure TickQueue where
  q : Fin 64
  fates : List Fate
  gone : Nat
  lastSeq : Nat
deriving DecidableEq, Repr

/-- A TICK record (R383, R388). -/
structure TickRec where
  interval : Nat
  digest : Reg
  final : Bool
  queues : List TickQueue
  hsr : Nat
deriving DecidableEq, Repr

/-- One due in-band interrupt that a standby's HEALTH record carries (R383, R427). -/
structure DueIrq where
  page : Nat
  intSts : Reg
  fltSts : Reg
  fltFirst : Reg
  ns32 : Nat
deriving DecidableEq, Repr

/-- A HEALTH record (R383), with the OWN_ID that interrupt packets of its sender carry (R427). -/
structure HealthRec where
  role : Nat
  strap : Bool
  fatal : Bool
  cont : Bool
  pfw : Bool
  calState : Nat
  ownId : Nat
  hcFail : List (Fin 512)
  due : List DueIrq
deriving DecidableEq, Repr

/-- A record of the pairing link (R383). A TIME record holds the hub time of its sending and that of the arrival of the partner's last
one (log entry 86). -/
inductive LinkRec
  | codes (group idx n : Nat) (words : List Reg)
  | decision (d : Decision)
  | tick (r : TickRec)
  | ack (interval : Nat) (agree : Bool)
  | time (sent : HubTime) (heard : Option HubTime)
  | step (boundary : Nat) (e : Int)
  | health (h : HealthRec)
  | config (digest : Reg) (commit : Option (Nat × Reg)) (cancel : Bool)
  | factors (c f0 f1 f2 f3 : Nat)
  | mgmt (f : Frame) (slot : Bool)
  | yield (seqs : List Nat) (hsr : Nat)
deriving DecidableEq, Repr

/-- One boundary-scan instruction of R503. -/
inductive JtagOp | bypass | sample | extest (wale : BitVec 8) | idcode | highz | clamp (wale : BitVec 8)
deriving DecidableEq, Repr

/-- The commands of the hub, one constructor per row of spec/opcode_table.json in the table's order. -/
inductive Instr
  | registerWrite (path : Path) (addr : BitVec 24) (v : Reg)
  | secondBoundary
  | hostOffsetSubmit (v : Reg)
  | srcChange (src : BitVec 2)
  | freqIntWrite (v : Reg)
  | applyStep
  | slewAccept
  | servoRestart
  | stepApplied
  | holdoverEntry
  | holdoverExpired
  | pllUnlock
  | refclkLoss
  | syncRx (p : Port) (m : SyncMsg)
  | followUpRx (p : Port) (m : FollowUpMsg)
  | followUpTimeout
  | announceRx (p : Port) (m : AnnounceMsg)
  | masterSilence
  | masterLost
  | portSwitch
  | pdelayReqSend (okA okB : Bool)
  | pdelayRespRx (p : Port) (m : PdelayRespMsg)
  | pdelayFail (p : Port)
  | pdelayReqRx (p : Port) (m : PdelayReqMsg)
  | tcEntryExpire (ingress : Port)
  | ppsOutPulse
  | ppsInEdge (rising : Bool) (t : Stamp)
  | nowNsRead (path : Path)
  | nowSecHiRead (path : Path)
  | ppsInNsRead (path : Path)
  | ppsInSecHiRead (path : Path)
  | lastOffsetLoRead (path : Path)
  | pendingOffsetLoRead (path : Path)
  | gridInstant (echoBad : BitVec 32)
  | tickCommitApply
  | tickEnWrite (v : Reg)
  | tjMeasure (t : BitVec 16)
  | wsyncAlign (arrival : Int)
  | qreset (g : Fin 32) (mask : BitVec 16)
  | overloadChange (c : Fin 512) (firing : Bool)
  | excRegulate (g : Fin 32) (mean : BitVec 16) (need : Nat)
  | excLow (g : Fin 32)
  | exdMon (g : Fin 32)
  | blankEdge (n : Fin 4) (level : Bool)
  | blankGuardExpire (g : Fin 32)
  | blankCtlWrite (g : Fin 32) (v : Reg)
  | weaveDelay (sl : Fin 34)
  | conversionComplete (sl : Fin 34) (r : ConvIn)
  | convTimeout (sl : Fin 34)
  | passEnd (sl : Fin 34)
  | weaveWrite (sl : Fin 34) (bank : Bool) (e : Fin 256) (v : Reg)
  | sliceCommitApply (sl : Fin 34)
  | resLoRead (path : Path) (c : Fin 512)
  | resHiRead (path : Path) (c : Fin 512)
  | sentinelCrossing (n : Fin 16) (below : Bool) (t : Stamp)
  | sentAdcComplete (code : BitVec 24)
  | sentAdcTimeout
  | sentCfgWrite (n : Fin 16) (v : Reg)
  | evtNs32Read (path : Path) (n : Fin 16)
  | evtValueRead (path : Path) (n : Fin 16)
  | calPhaseEnd
  | calDecide
  | dwellAbandon
  | rotationEnd
  | selftestComplete (sl : Fin 34) (r : SelfTest)
  | sliceSwapApply (g : Fin 32)
  | calSaveDone (ok : Bool)
  | saveNow
  | reinit (ok : Bool)
  | rotRestart
  | calEnWrite (en : Bool)
  | calCommitApply
  | streamMaxAge (c : Fin 512)
  | maxAgeWrite (v : Reg)
  | rainPeriodicDump (c : Fin 512)
  | dumpNow (g : Fin 32) (mask : BitVec 16)
  | rainCommitApply (c : Fin 512)
  | tapsWrite (fs : Fin 16) (v : Reg)
  | coefWrite (fs : Fin 16) (bank : Bool) (t : Fin 128) (v : Reg)
  | firsetCommitApply (fs : Fin 16)
  | chtabCommitApply (g : Fin 32)
  | arm (x : Fin 256)
  | abort (x : Fin 256)
  | release (x : Fin 256)
  | swTrig (x : Fin 256)
  | ctxFillStart (x : Fin 256)
  | triggerDecision (x : Fin 256)
  | timerTrigger (x : Fin 256)
  | holdoffExpire (x : Fin 256)
  | readoutStart
  | readoutPacket (eng : Fin 2)
  | scrubBurst
  | rtxSend (now : Bool)
  | pendingMarkerWrite (q : Fin 64)
  | qCommitApply (q : Fin 64)
  | flush (q : Fin 64)
  | flushEffect (q : Fin 64)
  | dataLoRead (path : Path) (q : Fin 64)
  | dataHiRead (path : Path) (q : Fin 64)
  | arbMemGrant (req : BitVec 8)
  | arbTxGrant
  | freeze (arb : Arbiter) (on : Bool)
  | classWrite (arb : Arbiter) (w : Fin 5) (v : Reg)
  | starve (arb : Arbiter) (i : Fin 66) (ns : Nat)
  | portModeWrite (p : Port) (v : Reg)
  | losChange (p : Port) (level : Bool)
  | portSyncChange (p : Port) (sync rf an : Bool) (errs : Nat := 0)
  | portUp (p : Port)
  | nodeModeWrite (v : Reg)
  | frameRx (p : Port) (f : Frame) (stampOk fits : Bool)
  | localFrameSend (p : Port)
  | ddForget
  | mgmtRequest
  | keyStore (slot : Bool)
  | keyStoreDone (ok : Bool)
  | measCmd (lines : BitVec 9)
  | measAttempt (delay : Option Int)
  | waleEcho (line : Fin 9)
  | lineMeasDone
  | walePulseRx (line : Fin 9) (t : Stamp) (cls : WaleClass)
  | wclkLoss (long : Bool)
  | wsyncLost
  | pairEnWrite (en : Bool)
  | yield
  | rejoin
  | forceActive
  | pairCommit
  | hcRestart
  | codesRecordRx (g : Fin 32) (tickIdx : Nat) (n : Nat) (codes : List Reg)
  | decisionRecordRx (d : Decision)
  | intervalClose
  | tickRecordRx (r : TickRec)
  | ackRx (interval : Nat) (agree : Bool)
  | timeRecordRx (offset : Int) (delay : Reg)
  | stepRecordRx (boundary : Nat) (e : Int)
  | healthRecordRx (h : HealthRec)
  | configRecordRx (digest : Reg) (commit : Option (Nat × Reg)) (cancel : Bool)
  | factorsRecordRx (c : Fin 512) (f0 f1 f2 f3 : BitVec 24)
  | mgmtRecordRx (f : Frame) (slot : Bool)
  | yieldRecordRx (seqs : List Nat) (hsr : Nat)
  | pairLinkRetry (rec : Nat := 0)
  | pairLinkDown
  | pairLinkUp
  | laneLoss (lane : Bool)
  | startWaitExpire
  | pairPresentChange (present : Bool)
  | timeoutTakeover
  | yieldNAssert (low : Bool := true)
  | yieldRecordTimeout
  | yieldAbandon
  | takeNAssert
  | takeoverExdEnable
  | ackTimeout
  | rejoinAutoExpire
  | standbyDacTrim (g : Fin 32) (need : Nat)
  | pairCommitApply
  | pairCommitAckTimeout
  | fltStsWrite (page : BitVec 12) (v : Reg)
  | fltFirstRearm (page : BitVec 12)
  | fltCaptureClose (page : BitVec 12)
  | intStsWrite (page : BitVec 12) (v : Reg)
  | irqHoldoffExpire (page : BitVec 12)
  | testKeyWrite (key : BitVec 16)
  | fltInjWrite (page : BitVec 12) (v : Reg)
  | rimCopyDone (ok : Bool)
  | unfreeze
  | rimSave
  | rimClear
  | rdSelWrite (v : Reg)
  | rimSnapshotReady
  | hostNote (v : Reg)
  | pfwAssert
  | supplyRange (which : Fin 5)
  | fabricWdog (page : BitVec 12)
  | commit (page : BitVec 12)
  | commitAtTick (page : BitVec 12)
  | cancel (page : BitVec 12)
  | scheduledCommitRelease (page : BitVec 12)
  | wloRead (path : Path) (w : BitVec 17) (ready : Bool)
  | whiRead (path : Path) (w : BitVec 17)
  | lastIdxLoRead (path : Path)
  | schedIdxLoRead (path : Path)
  | takeoverIdxLoRead (path : Path)
  | read (addr : BitVec 24) (ready : List Bool)
  | qread (addr : BitVec 24) (ready : List Bool)
  | qreadPair (addr : BitVec 24) (ready : List Bool)
  | write (addr : BitVec 24) (data : List Reg)
  | qwrite (addr : BitVec 24) (data : List Reg)
  | status (n : Nat)
  | badOp
  | qspiTransactionEnd (partialWord : Bool)
  | fabricRateMeasure (rate : BitVec 16)
  | fabricSlow
  | reset
  | resetRelease (pairRole testEn : Bool) (bistFail : BitVec 25) (rate : BitVec 16)
  | bootRestart (pairRole testEn : Bool) (bistFail : BitVec 25) (rate : BitVec 16)
  | slathSave
  | slathSaveDone (ok : Bool)
  | sleep
  | wake
  | sleepEntered
  | wakeAt
  | wakeSettled
  | healthLossWake
  | sentinelArm (n : Fin 16)
  | pllRelock
  | pfwDeassert
  | takeNRelease
  | excSenseRestored (g : Fin 32)
  | supplyRestored (which : Fin 5)
  | wclkRestored
  | jtagInstruction (op : JtagOp)
deriving DecidableEq, Repr

end Sys2Proof
end

