-- ==== Sys2Proof/Decode.lean ====
section
/-!
DEFINITION. The commands that a word spells. No row of spec/opcode_table.json has bits: a command of this hub is an access or
an event with operands, not a word. So no word spells a command.
-/

namespace Sys2Proof

/-- The command that the low `nbits` bits of `w` spell by the table: none, since no row of the table has bits. -/
def decodeTableWord (_nbits _w : Nat) : Option Instr := none

end Sys2Proof
end

