-- ==== Sys2Proof/Machine/Bits.lean ====
section
/-!
DEFINITION. Bit fields, signed readings, saturation, rounding and the sparse maps that hold the hub's registers,
memories and instances.
-/

namespace Sys2Proof.Machine

/-! ## Sparse maps

A map is a list of (key, value) pairs with strictly rising keys and no entry equal to the default value of its key. -/

/-- The value at key `a`; a key that is not listed holds the default `d`. -/
def sget {α : Type} (d : α) : List (Nat × α) → Nat → α
  | [], _ => d
  | (k, v) :: m, a => if a < k then d else if a = k then v else sget d m a

/-- Writes `v` at key `a`, whose default is `d`: the entry is kept in order, and a value equal to the default is not listed. -/
def sset {α : Type} [DecidableEq α] (d : α) : List (Nat × α) → Nat → α → List (Nat × α)
  | [], a, v => if v = d then [] else [(a, v)]
  | (k, w) :: m, a, v =>
    if a < k then (if v = d then (k, w) :: m else (a, v) :: (k, w) :: m)
    else if a = k then
      (if v = d then m.dropWhile (fun e => decide (e.1 ≤ a)) else (a, v) :: m.dropWhile (fun e => decide (e.1 ≤ a)))
    else (k, w) :: sset d m a v

/-- The canonical form: strictly rising keys above `lo`, and no value equal to its key's default. -/
def swfFrom {α : Type} [DecidableEq α] (d : Nat → α) : Nat → List (Nat × α) → Bool
  | _, [] => true
  | lo, (k, v) :: m => decide (lo ≤ k) && decide (v ≠ d k) && swfFrom d (k + 1) m

/-- The canonical form of a whole map. -/
def swf {α : Type} [DecidableEq α] (d : Nat → α) (m : List (Nat × α)) : Bool := swfFrom d 0 m

/-! ## Bits -/

/-- Bits [lo + width - 1 : lo] of a 32-bit register. -/
def getBits (v : Reg) (lo width : Nat) : Nat := (v.toNat >>> lo) % 2 ^ width

/-- The mask of bits [lo + width - 1 : lo]. -/
def fieldMask (lo width : Nat) : Reg := BitVec.ofNat 32 ((2 ^ width - 1) <<< lo)

/-- A 32-bit register with bits [lo + width - 1 : lo] replaced by the low `width` bits of `x`. -/
def putBits (v : Reg) (lo width x : Nat) : Reg :=
  (v &&& ~~~ fieldMask lo width) ||| BitVec.ofNat 32 ((x % 2 ^ width) <<< lo)

/-- Bit `n` of a number. -/
def natBit (x n : Nat) : Bool := x.testBit n

/-- 1 for true, 0 for false. -/
def b2n (b : Bool) : Nat := if b then 1 else 0

/-- The two's-complement reading of the low `w` bits of `x`. -/
def signed (w x : Nat) : Int :=
  let y := x % 2 ^ w
  if y < 2 ^ (w - 1) then (y : Int) else (y : Int) - (2 ^ w : Nat)

/-- The low `w` bits of an integer in two's complement. -/
def unsigned (w : Nat) (x : Int) : Nat := (x % ((2 ^ w : Nat) : Int)).toNat

/-- `x` limited to lo ≤ x ≤ hi. -/
def clampInt (lo hi x : Int) : Int := if x < lo then lo else if hi < x then hi else x

/-- `x` limited to at most `hi`. -/
def satNat (hi x : Nat) : Nat := if hi < x then hi else x

/-- The quotient rounded to the nearest integer, halves toward plus infinity (R163, R187, R243). The divisor is positive. -/
def roundHalfUp (num : Int) (den : Nat) : Int := (2 * num + den) / (2 * (den : Int))

/-- The quotient rounded to the nearest integer, ties away from zero (R130). The divisor is positive. -/
def roundAway (num : Int) (den : Nat) : Int :=
  if num < 0 then - ((2 * (-num) + den) / (2 * (den : Int))) else (2 * num + den) / (2 * (den : Int))

/-- The quotient rounded up; the divisor is positive. -/
def ceilDiv (num den : Nat) : Nat := (num + den - 1) / den

/-- The integer square root, found bit by bit from bit `b` down: the largest r with r * r at most `n`. -/
def isqrtFrom (n : Nat) : Nat → Nat → Nat
  | 0, r => r
  | b + 1, r => let t := r + 2 ^ b; isqrtFrom n b (if t * t ≤ n then t else r)

/-- The integer square root of a number below 2^128. -/
def isqrt (n : Nat) : Nat := isqrtFrom n 64 0

/-- The square root of num / den rounded to the nearest integer, halves toward plus infinity (R243). -/
def sqrtRound (num den : Nat) : Nat :=
  -- the largest r with (2r - 1)^2 * den ≤ 4 * num
  (isqrt (4 * num / den) + 1) / 2

/-- The floor of log2 of a positive number; 0 of 0. -/
def ilog2 (n : Nat) : Nat := Nat.log2 n

/-- The nanoseconds of one second. -/
abbrev nsPerSec : Nat := 1000000000

/-- An even number of nanoseconds at or below `x` (R50: an odd number is rounded toward minus infinity). -/
def evenNs (x : Int) : Int := 2 * (x / 2)

end Sys2Proof.Machine
end

