-- ==== Sys2Proof/Machine/RegMap.lean ====
section
/-!
DEFINITION. The register map: one row per register (or array of registers) of the register tables of
spec/, with the access masks of R17 and the Reset column of R16, and one named field accessor per field.
Rows were transcribed from the register tables of the rules named in each section.
-/

set_option linter.dupNamespace false

namespace Sys2Proof.Machine

/-- One row of a register table: `count` registers from byte offset `off` of the page, `stride` bytes apart,
with the masks of the fields of each access type of R17 and the value of the Reset column (R16). A bit in no
mask is read-only or reserved (R18). -/
structure RegRow where
  off : Nat
  stride : Nat
  count : Nat
  rw : Nat
  rws : Nat
  w1c : Nat
  wo : Nat
  reset : Nat
deriving DecidableEq, Repr

/-- A register field: the byte address of its register (R445), its lowest bit and its width. -/
structure Fld where
  addr : Nat
  lo : Nat
  width : Nat
deriving DecidableEq, Repr

/-- Registers of the TIME page: R79. -/
def rowsTIME : List RegRow :=
  [
   ⟨0x040, 0x0, 1, 0xFF13, 0x0, 0x0, 0x0, 0x300⟩, -- TIME_CTL
   ⟨0x044, 0x0, 1, 0x0, 0x0, 0x0, 0x7, 0x0⟩, -- TIME_CMD
   ⟨0x048, 0x0, 1, 0x0, 0x0, 0x100, 0x0, 0x0⟩, -- TIME_STATE
   ⟨0x04C, 0x0, 1, 0x0, 0x0, 0x0, 0x0, 0x0⟩, -- NOW_NS
   ⟨0x050, 0x0, 1, 0x0, 0x0, 0x0, 0x0, 0x0⟩, -- NOW_SEC_LO
   ⟨0x054, 0x0, 1, 0x0, 0x0, 0x0, 0x0, 0x0⟩, -- NOW_SEC_HI
   ⟨0x058, 0x0, 1, 0x0, 0x0, 0x0, 0x0, 0x0⟩, -- NOW_NS32
   ⟨0x05C, 0x0, 1, 0xFFFFFFFF, 0x0, 0x0, 0x0, 0x0⟩, -- OFFSET_LO
   ⟨0x060, 0x0, 1, 0xFFFFFFFF, 0x0, 0x0, 0x0, 0x0⟩, -- OFFSET_HI
   ⟨0x064, 0x0, 1, 0x0, 0x0, 0x0, 0x0, 0x0⟩, -- LAST_OFFSET_LO
   ⟨0x068, 0x0, 1, 0x0, 0x0, 0x0, 0x0, 0x0⟩, -- LAST_OFFSET_HI
   ⟨0x06C, 0x0, 1, 0x0, 0x0, 0x0, 0x0, 0x0⟩, -- PENDING_OFFSET_LO
   ⟨0x070, 0x0, 1, 0x0, 0x0, 0x0, 0x0, 0x0⟩, -- PENDING_OFFSET_HI
   ⟨0x074, 0x0, 1, 0xFFFFFFFF, 0x0, 0x0, 0x0, 0xF4240⟩, -- STEP_THRESH
   ⟨0x078, 0x0, 1, 0x3FF, 0x0, 0x0, 0x0, 0x64⟩, -- SLEW_LIMIT
   ⟨0x07C, 0x0, 1, 0xFFFFFFFF, 0x0, 0x0, 0x0, 0xB3334CCD⟩, -- SERVO_GAIN
   ⟨0x080, 0x0, 1, 0xFFFFFF, 0x0, 0x0, 0x0, 0x80064⟩, -- LOCK_CTL
   ⟨0x084, 0x0, 1, 0xFFFFFFFF, 0x0, 0x0, 0x0, 0x0⟩, -- FREQ_INT
   ⟨0x088, 0x0, 1, 0x0, 0x0, 0x0, 0x0, 0x0⟩, -- FREQ_ADJ
   ⟨0x08C, 0x0, 1, 0xFFFFFFFF, 0x0, 0x0, 0x0, 0x15180⟩, -- HOLDOVER_LIMIT
   ⟨0x090, 0x0, 1, 0x0, 0x0, 0x0, 0x0, 0x0⟩, -- HOLDOVER_TIME
   ⟨0x094, 0x0, 1, 0x0, 0x0, 0xFFFFFFFF, 0x0, 0x0⟩, -- STEP_CNT
   ⟨0x098, 0x0, 1, 0xC00FFFFF, 0x0, 0x0, 0x0, 0x400186A0⟩, -- PPS_OUT_CTL
   ⟨0x09C, 0x0, 1, 0xFFFFFFFF, 0x0, 0x0, 0x0, 0x0⟩, -- PPS_OUT_OFFSET
   ⟨0x0A0, 0x0, 1, 0x3, 0x0, 0x0, 0x0, 0x0⟩, -- PPS_IN_CTL
   ⟨0x0A4, 0x0, 1, 0x0, 0x0, 0x0, 0x0, 0x0⟩, -- PPS_IN_NS
   ⟨0x0A8, 0x0, 1, 0x0, 0x0, 0x0, 0x0, 0x0⟩, -- PPS_IN_SEC_LO
   ⟨0x0AC, 0x0, 1, 0x0, 0x0, 0x0, 0x0, 0x0⟩, -- PPS_IN_SEC_HI
   ⟨0x0B0, 0x0, 1, 0x0, 0x0, 0xFFFFFFFF, 0x0, 0x0⟩] -- PPS_IN_CNT

/-- Registers of the PTP page: R81. -/
def rowsPTP : List RegRow :=
  [
   ⟨0x040, 0x0, 1, 0xFF01FF, 0x0, 0x0, 0x0, 0x82⟩, -- PTP_CTL
   ⟨0x044, 0x0, 1, 0xFFFF, 0x0, 0x0, 0x0, 0x300⟩, -- PTP_TIMING
   ⟨0x048, 0x0, 1, 0xFFFFFFFF, 0x0, 0x0, 0x0, 0x0⟩, -- MASTER_ID_HI
   ⟨0x04C, 0x0, 1, 0xFFFFFFFF, 0x0, 0x0, 0x0, 0x0⟩, -- MASTER_ID_LO
   ⟨0x050, 0x0, 1, 0xFFFF, 0x0, 0x0, 0x0, 0xFFFF⟩, -- MASTER_PORT
   ⟨0x054, 0x0, 1, 0x0, 0x0, 0x0, 0x0, 0x0⟩, -- CUR_MASTER_HI
   ⟨0x058, 0x0, 1, 0x0, 0x0, 0x0, 0x0, 0x0⟩, -- CUR_MASTER_LO
   ⟨0x05C, 0x0, 1, 0x0, 0x0, 0x0, 0x0, 0x0⟩, -- PTP_STS
   ⟨0x060, 0x0, 1, 0x0, 0x0, 0x0, 0x0, 0xFFFFFFFF⟩, -- LINK_DELAY_A
   ⟨0x064, 0x0, 1, 0x0, 0x0, 0x0, 0x0, 0xFFFFFFFF⟩, -- LINK_DELAY_B
   ⟨0x068, 0x0, 1, 0xFFFFFFFF, 0x0, 0x0, 0x0, 0x0⟩, -- ASYM_A
   ⟨0x06C, 0x0, 1, 0xFFFFFFFF, 0x0, 0x0, 0x0, 0x0⟩, -- ASYM_B
   ⟨0x070, 0x0, 1, 0x0, 0x0, 0x0, 0x0, 0x0⟩, -- UTC_INFO
   ⟨0x074, 0x0, 1, 0x0, 0x0, 0xFFFFFFFF, 0x0, 0x0⟩, -- SYNC_RX_CNT
   ⟨0x078, 0x0, 1, 0x0, 0x0, 0xFFFFFFFF, 0x0, 0x0⟩, -- TC_FWD_CNT
   ⟨0x07C, 0x0, 1, 0x0, 0x0, 0xFFFFFFFF, 0x0, 0x0⟩, -- FU_MISS_CNT
   ⟨0x080, 0x0, 1, 0x0, 0x0, 0xFFFFFFFF, 0x0, 0x0⟩, -- PORT_SWITCH_CNT
   ⟨0x084, 0x0, 1, 0x0, 0x0, 0xFFFFFFFF, 0x0, 0x0⟩, -- PDELAY_RESP_CNT
   ⟨0x088, 0x0, 1, 0xFFFFFFFF, 0x0, 0x0, 0x0, 0x0⟩, -- CLOCK_ID_HI
   ⟨0x08C, 0x0, 1, 0xFFFFFFFF, 0x0, 0x0, 0x0, 0x0⟩] -- CLOCK_ID_LO

/-- Registers of the TICK page: R109. -/
def rowsTICK : List RegRow :=
  [
   ⟨0x040, 0x0, 1, 0x7, 0x0, 0x0, 0x0, 0x0⟩, -- TICK_CTL
   ⟨0x044, 0x0, 1, 0x0, 0x3FFFFFFF, 0x0, 0x0, 0x1F40⟩, -- TICK_PERIOD
   ⟨0x048, 0x0, 1, 0x0, 0x3FFFFFFF, 0x0, 0x0, 0x0⟩, -- TICK_PHASE
   ⟨0x04C, 0x0, 1, 0x0, 0x3F, 0x0, 0x0, 0x0⟩, -- TICK_PHASE_FRAC
   ⟨0x050, 0x0, 1, 0x0, 0x0, 0x0, 0x0, 0x1E84800⟩, -- TICK_STS
   ⟨0x054, 0x0, 1, 0x0, 0x0, 0x0, 0x0, 0x0⟩, -- LAST_IDX_LO
   ⟨0x058, 0x0, 1, 0x0, 0x0, 0x0, 0x0, 0x0⟩, -- LAST_IDX_HI
   ⟨0x05C, 0x0, 1, 0x0, 0x0, 0x0, 0x0, 0x0⟩, -- CATCHUP_REMAIN
   ⟨0x060, 0x0, 1, 0x0, 0x0, 0xFFFFFFFF, 0x0, 0x0⟩, -- SKIP_CNT
   ⟨0x064, 0x0, 1, 0x0, 0x0, 0x0, 0x0, 0x0⟩, -- WALE_CORR
   ⟨0x068, 0x0, 1, 0x0, 0x0, 0x0, 0x0, 0x0⟩, -- TJ
   ⟨0x06C, 0x0, 1, 0x3, 0x0, 0x0, 0x0, 0x3⟩, -- TRIM_CTL
   ⟨0x070, 0x0, 1, 0x0, 0x0, 0xFFFFFFFF, 0x0, 0x0⟩, -- TRIM_SAT_CNT
   ⟨0x074, 0x0, 1, 0x0, 0x0, 0xFFFFFFFF, 0x0, 0x0⟩, -- STROBE_FLT_GROUPS
   ⟨0x200, 0x4, 128, 0x0, 0x3F3F3F3F, 0x0, 0x0, 0x0⟩, -- TRIM_USER
   ⟨0x400, 0x4, 128, 0x0, 0x0, 0x0, 0x0, 0x0⟩] -- TRIM_APPLIED

/-- Registers of one CHTAB_gg page, 16 entries of 128 bytes: R144, R181, R254. -/
def rowsCH : List RegRow :=
  [
   ⟨0x040, 0x80, 16, 0x0, 0x31377, 0x0, 0x0, 0x0⟩, -- FE_CFG
   ⟨0x044, 0x80, 16, 0x0, 0xFFFFFF, 0x0, 0x0, 0x10B3E6⟩, -- AR_CTL
   ⟨0x048, 0x80, 16, 0x0, 0xFFFFFF, 0x0, 0x0, 0xA00000⟩, -- DEC_F0
   ⟨0x04C, 0x80, 16, 0x0, 0xFFFFFF, 0x0, 0x0, 0xA00000⟩, -- DEC_F1
   ⟨0x050, 0x80, 16, 0x0, 0xFFFFFF, 0x0, 0x0, 0xA00000⟩, -- DEC_F2
   ⟨0x054, 0x80, 16, 0x0, 0xFFFFFF, 0x0, 0x0, 0xA00000⟩, -- DEC_F3
   ⟨0x058, 0x80, 16, 0x0, 0x0, 0x0, 0x0, 0x0⟩, -- FE_STS
   ⟨0x05C, 0x80, 16, 0x0, 0x0, 0xFFFFFFFF, 0x0, 0x0⟩, -- RANGE_SW_CNT
   ⟨0x060, 0x80, 16, 0x0, 0x0, 0xFFFFFFFF, 0x0, 0x0⟩, -- OPN_CNT
   ⟨0x070, 0x80, 16, 0x0, 0x30FFF, 0x0, 0x0, 0x20000⟩, -- AVG_CFG
   ⟨0x074, 0x80, 16, 0x0, 0x0, 0x0, 0x0, 0x0⟩, -- RES_LO
   ⟨0x078, 0x80, 16, 0x0, 0x0, 0x0, 0x0, 0x0⟩, -- RES_HI
   ⟨0x07C, 0x80, 16, 0x0, 0x0, 0x0, 0x0, 0x0⟩, -- AVG_STS
   ⟨0x080, 0x80, 16, 0x0, 0x0, 0xFFFFFFFF, 0x0, 0x0⟩, -- SAT_CNT
   ⟨0x084, 0x80, 16, 0x0, 0x0, 0xFFFFFFFF, 0x0, 0x0⟩, -- SHORT_CNT
   ⟨0x088, 0x80, 16, 0x0, 0x0, 0xFFFFFFFF, 0x0, 0x0⟩, -- WIN_CNT
   ⟨0x090, 0x80, 16, 0x0, 0xFCF11F0F, 0x0, 0x0, 0x0⟩, -- RED_CFG
   ⟨0x094, 0x80, 16, 0x0, 0x1FFFFFF, 0x0, 0x0, 0x10003E7⟩, -- STATS_CFG
   ⟨0x098, 0x80, 16, 0x0, 0x1FF, 0x0, 0x0, 0x120⟩, -- STREAM_CFG
   ⟨0x09C, 0x80, 16, 0x0, 0x0, 0x0, 0x0, 0x0⟩, -- FIR_STS
   ⟨0x0A0, 0x80, 16, 0x0, 0x0, 0x0, 0x0, 0x0⟩, -- STATS_FILL
   ⟨0x0A4, 0x80, 16, 0x0, 0x0, 0xFFFFFFFF, 0x0, 0x0⟩, -- FIR_RESTART_CNT
   ⟨0x0A8, 0x80, 16, 0x0, 0x0, 0xFFFFFFFF, 0x0, 0x0⟩, -- STATS_SHORT_CNT
   ⟨0x0AC, 0x80, 16, 0x0, 0x0, 0xFFFFFFFF, 0x0, 0x0⟩, -- STREAM_PKT_CNT
   ⟨0x0B0, 0x80, 16, 0x0, 0x0, 0xFFFFFFFF, 0x0, 0x0⟩] -- FIR_SAT_CNT

/-- Registers of the FE page: R146. -/
def rowsFE : List RegRow :=
  [
   ⟨0x040, 0x0, 1, 0x7, 0x0, 0x0, 0x0, 0x0⟩, -- EXC_CTL
   ⟨0x044, 0x0, 1, 0xFFFF, 0x0, 0x0, 0x0, 0x0⟩, -- EXC_SET
   ⟨0x048, 0x0, 1, 0xFFFF, 0x0, 0x0, 0x0, 0x0⟩, -- EXC_MIN
   ⟨0x04C, 0x0, 1, 0x0, 0x0, 0x0, 0x0, 0x0⟩, -- EXC_SENSE
   ⟨0x050, 0x0, 1, 0x0, 0x0, 0x0, 0x0, 0x0⟩, -- EXC_DAC
   ⟨0x054, 0x0, 1, 0x3FF000F, 0x0, 0x0, 0x0, 0x0⟩, -- BLANK_CTL
   ⟨0x058, 0x0, 1, 0x0, 0x0, 0x0, 0x0, 0x0⟩, -- BLANK_START
   ⟨0x05C, 0x0, 1, 0x0, 0x0, 0x0, 0x0, 0x0⟩, -- BLANK_END
   ⟨0x060, 0x0, 1, 0x0, 0x0, 0xFFFFFFFF, 0x0, 0x0⟩, -- BLANK_CNT
   ⟨0x064, 0x0, 1, 0x0, 0x0, 0x0, 0x0, 0x0⟩, -- BLANK_STS
   ⟨0x068, 0x0, 1, 0x0, 0x0, 0xFFFF, 0x0, 0x0⟩, -- OPEN_STS
   ⟨0x06C, 0x0, 1, 0xFF, 0x0, 0x0, 0x0, 0x8⟩, -- OPEN_CLR
   ⟨0x070, 0x0, 1, 0x0, 0x0, 0x0, 0xFFFF, 0x0⟩] -- QRESET

/-- Registers of the SLICE page: R183. -/
def rowsSLICE : List RegRow :=
  [
   ⟨0x040, 0x0, 1, 0x0, 0x1, 0x0, 0x0, 0x0⟩, -- SLICE_CTL
   ⟨0x044, 0x0, 1, 0x0, 0x0, 0x0, 0x0, 0x1⟩, -- SLICE_STS
   ⟨0x048, 0x0, 1, 0x0, 0x0, 0x0, 0x0, 0xC8⟩, -- BUDGET_ACT
   ⟨0x04C, 0x0, 1, 0x0, 0x0, 0x0, 0x0, 0xC8⟩, -- STG_DEMAND
   ⟨0x050, 0x0, 1, 0x0, 0x0, 0x0, 0x0, 0x0⟩, -- STG_CHECK
   ⟨0x054, 0x0, 1, 0x0, 0x0, 0xFFFFFFFF, 0x0, 0x0⟩, -- CONV_CNT
   ⟨0x058, 0x0, 1, 0x3FF, 0x0, 0x0, 0x0, 0x0⟩, -- CONV_TMAX
   ⟨0x05C, 0x0, 1, 0x0, 0x0, 0xFFFFFFFF, 0x0, 0x0⟩, -- PASS_ABORT_CNT
   ⟨0x060, 0x0, 1, 0x0, 0x0, 0x0, 0x0, 0x0⟩, -- LIVE_CODE
   ⟨0x064, 0x0, 1, 0x0, 0x0, 0xFFFFFFFF, 0x0, 0x0⟩, -- LIVE_CNT
   ⟨0x400, 0x4, 256, 0xFFFFFF80, 0x0, 0x0, 0x0, 0xC0000000⟩, -- WEAVE0
   ⟨0x800, 0x4, 256, 0xFFFFFF80, 0x0, 0x0, 0x0, 0xC0000000⟩] -- WEAVE1

/-- Registers of the pages of the spares, which hold no weave banks (R158). -/
def rowsSPARE : List RegRow := rowsSLICE.take 10

/-- Registers of the SENT page: R185. -/
def rowsSENT : List RegRow :=
  [
   ⟨0x040, 0x0, 1, 0x0, 0x0, 0x0, 0x0, 0x0⟩, -- SENT_ADC_STS
   ⟨0x044, 0x0, 1, 0x0, 0x0, 0x0, 0x0, 0x0⟩, -- SENT_PEND
   ⟨0x100, 0x20, 16, 0x1FF0F39, 0x0, 0x0, 0x0, 0x0⟩, -- CFG
   ⟨0x104, 0x20, 16, 0xFFFFFFFF, 0x0, 0x0, 0x0, 0x7FFF8000⟩, -- THRESH
   ⟨0x108, 0x20, 16, 0xFFFF, 0x0, 0x0, 0x0, 0x100⟩, -- HYST
   ⟨0x10C, 0x20, 16, 0x0, 0x0, 0x0, 0x0, 0x0⟩, -- EVT_NS32
   ⟨0x110, 0x20, 16, 0x0, 0x0, 0x0, 0x0, 0x0⟩, -- EVT_INFO
   ⟨0x114, 0x20, 16, 0x0, 0x0, 0x0, 0x0, 0x0⟩, -- EVT_VALUE
   ⟨0x118, 0x20, 16, 0x0, 0x0, 0xFFFFFFFF, 0x0, 0x0⟩, -- CROSS_CNT
   ⟨0x11C, 0x20, 16, 0x0, 0x0, 0xFFFFFFFF, 0x0, 0x0⟩] -- OVERRUN

/-- Registers of the CAL page: R221, R222. -/
def rowsCAL : List RegRow :=
  [
   ⟨0x040, 0x0, 1, 0x5, 0xFF0F02, 0x0, 0x0, 0xC0405⟩, -- CAL_CTL
   ⟨0x044, 0x0, 1, 0x0, 0xFFFFFFFF, 0x0, 0x0, 0x320200⟩, -- CAL_TOL
   ⟨0x048, 0x0, 1, 0x0, 0xFFFF, 0x0, 0x0, 0x80⟩, -- WTOL
   ⟨0x04C, 0x0, 1, 0x0, 0xFFFFFFFF, 0x0, 0x0, 0x32000C8⟩, -- QUAL_LIM
   ⟨0x050, 0x0, 1, 0x0, 0xFFFFFF, 0x0, 0x0, 0x10000⟩, -- SPREAD_MIN
   ⟨0x054, 0x0, 1, 0x0, 0xFFFFF, 0x0, 0x0, 0x1000⟩, -- SLEW_TICKS
   ⟨0x058, 0x0, 1, 0x0, 0xFFFFFFFF, 0x0, 0x0, 0x400003C⟩, -- DWELL_LIM
   ⟨0x05C, 0x0, 1, 0x0, 0xFFFFFF, 0x0, 0x0, 0x258⟩, -- NVM_PERIOD
   ⟨0x060, 0x0, 1, 0x0, 0x0, 0x0, 0x7, 0x0⟩, -- CAL_CMD
   ⟨0x064, 0x0, 1, 0x0, 0x0, 0x0, 0x0, 0x2200000⟩, -- CAL_STS
   ⟨0x068, 0x0, 1, 0x0, 0x0, 0x0, 0x0, 0x0⟩, -- ROT_CNT
   ⟨0x06C, 0x0, 1, 0x0, 0x0, 0x0, 0x0, 0x0⟩, -- ROT_TIME
   ⟨0x070, 0x0, 1, 0x0, 0x0, 0x0, 0x0, 0x0⟩, -- WIN_FILL
   ⟨0x074, 0x0, 1, 0x0, 0x0, 0x0, 0x0, 0x0⟩, -- ANCHOR_RHO
   ⟨0x078, 0x0, 1, 0x0, 0x0, 0x0, 0x0, 0x0⟩, -- ANCHOR_DELTA
   ⟨0x07C, 0x0, 1, 0x0, 0x0, 0xFFFFFFFF, 0x0, 0x0⟩, -- ACCEPT_CNT
   ⟨0x080, 0x0, 1, 0x0, 0x0, 0xFFFFFFFF, 0x0, 0x0⟩, -- REJ_QUAL_CNT
   ⟨0x084, 0x0, 1, 0x0, 0x0, 0xFFFFFFFF, 0x0, 0x0⟩, -- REJ_AGREE_CNT
   ⟨0x088, 0x0, 1, 0x0, 0x0, 0xFFFFFFFF, 0x0, 0x0⟩, -- DEFER_CNT
   ⟨0x08C, 0x0, 1, 0x0, 0x0, 0xFFFFFFFF, 0x0, 0x0⟩, -- ABANDON_CNT
   ⟨0x090, 0x0, 1, 0x0, 0x0, 0x0, 0x0, 0x0⟩, -- SWAP_STS
   ⟨0x200, 0x40, 34, 0x0, 0x0, 0x0, 0x0, 0x0⟩, -- OFS_APPL
   ⟨0x204, 0x40, 34, 0x0, 0x0, 0x0, 0x0, 0x0⟩, -- OFS_TGT
   ⟨0x208, 0x40, 34, 0x0, 0x0, 0x0, 0x0, 0x40000000⟩, -- GAIN_APPL
   ⟨0x20C, 0x40, 34, 0x0, 0x0, 0x0, 0x0, 0x40000000⟩, -- GAIN_TGT
   ⟨0x210, 0x40, 34, 0x0, 0x0, 0x0, 0x0, 0x0⟩, -- W_APPL_0
   ⟨0x214, 0x40, 34, 0x0, 0x0, 0x0, 0x0, 0x0⟩, -- W_APPL_1
   ⟨0x218, 0x40, 34, 0x0, 0x0, 0x0, 0x0, 0x0⟩, -- W_APPL_2
   ⟨0x21C, 0x40, 34, 0x0, 0x0, 0x0, 0x0, 0x0⟩, -- W_APPL_3
   ⟨0x220, 0x40, 34, 0x0, 0x0, 0x0, 0x0, 0x0⟩, -- W_TGT_0
   ⟨0x224, 0x40, 34, 0x0, 0x0, 0x0, 0x0, 0x0⟩, -- W_TGT_1
   ⟨0x228, 0x40, 34, 0x0, 0x0, 0x0, 0x0, 0x0⟩, -- W_TGT_2
   ⟨0x22C, 0x40, 34, 0x0, 0x0, 0x0, 0x0, 0x0⟩, -- W_TGT_3
   ⟨0x230, 0x40, 34, 0x0, 0x0, 0x0, 0x0, 0x0⟩, -- QUAL
   ⟨0x234, 0x40, 34, 0x0, 0x0, 0x0, 0x0, 0x0⟩, -- EST_STS
   ⟨0x238, 0x40, 34, 0x0, 0x0, 0x0, 0x0, 0x0⟩, -- SLEW_REMAIN
   ⟨0x23C, 0x40, 34, 0x0, 0x0, 0x0, 0x0, 0x0⟩] -- GAIN_EST

/-- Registers of the NVM page: R224, R485. -/
def rowsNVM : List RegRow :=
  [
   ⟨0x080, 0x0, 1, 0x0, 0x0, 0x0, 0x0, 0x0⟩, -- CALCOPY_STS
   ⟨0x084, 0x0, 1, 0x0, 0x0, 0x0, 0x0, 0x0⟩, -- CAL_GEN_A
   ⟨0x088, 0x0, 1, 0x0, 0x0, 0x0, 0x0, 0x0⟩, -- CAL_GEN_B
   ⟨0x08C, 0x0, 1, 0x0, 0x0, 0x0, 0x0, 0x0⟩, -- CAL_CRC_A
   ⟨0x090, 0x0, 1, 0x0, 0x0, 0x0, 0x0, 0x0⟩, -- CAL_CRC_B
   ⟨0x094, 0x0, 1, 0x0, 0x0, 0xFFFFFFFF, 0x0, 0x0⟩, -- CAL_SAVE_CNT
   ⟨0x098, 0x0, 1, 0x0, 0x0, 0x0, 0x0, 0x0⟩, -- CAL_LAST_SAVE
   ⟨0x040, 0x0, 1, 0x0, 0x0, 0x0, 0x0, 0x0⟩, -- BOOT_STS
   ⟨0x044, 0x0, 1, 0x0, 0x0, 0x0, 0x0, 0x0⟩, -- BOOT_TIME
   ⟨0x048, 0x0, 1, 0x0, 0x0, 0x0, 0x0, 0x0⟩, -- BIST_STS
   ⟨0x04C, 0x0, 1, 0x0, 0x0, 0x0, 0x0, 0x0⟩, -- SLATH_STS
   ⟨0x050, 0x0, 1, 0x0, 0x0, 0x0, 0x0, 0x0⟩, -- SLATH_GEN_A
   ⟨0x054, 0x0, 1, 0x0, 0x0, 0x0, 0x0, 0x0⟩, -- SLATH_GEN_B
   ⟨0x058, 0x0, 1, 0x0, 0x0, 0x0, 0x0, 0x0⟩, -- SLATH_CRC_A
   ⟨0x05C, 0x0, 1, 0x0, 0x0, 0x0, 0x0, 0x0⟩, -- SLATH_CRC_B
   ⟨0x060, 0x0, 1, 0x0, 0x0, 0x0, 0x1, 0x0⟩, -- SLATH_CMD
   ⟨0x064, 0x0, 1, 0x0, 0x0, 0xFFFFFFFF, 0x0, 0x0⟩, -- SLATH_SAVE_CNT
   ⟨0x068, 0x0, 1, 0x0, 0x0, 0x0, 0x0, 0x0⟩, -- SLATH_LAST_SAVE
   ⟨0x06C, 0x0, 1, 0x0, 0x0, 0x0, 0x0, 0x0⟩, -- SLATH_LEN
   ⟨0x0A0, 0x0, 1, 0xFFFF0006, 0x0, 0x0, 0x0, 0x0⟩, -- PWR_CTL
   ⟨0x0A4, 0x0, 1, 0x0, 0x0, 0x0, 0x3, 0x0⟩, -- PWR_CMD
   ⟨0x0A8, 0x0, 1, 0x0, 0x0, 0x100, 0x0, 0x0⟩, -- PWR_STS
   ⟨0x0AC, 0x0, 1, 0xFFFFFFFF, 0x0, 0x0, 0x0, 0x0⟩, -- WAKE_AT_SEC_LO
   ⟨0x0B0, 0x0, 1, 0xFFFF, 0x0, 0x0, 0x0, 0x0⟩, -- WAKE_AT_SEC_HI
   ⟨0x0B4, 0x0, 1, 0x0, 0x0, 0xFFFFFFFF, 0x0, 0x0⟩, -- SLEEP_CNT
   ⟨0x0B8, 0x0, 1, 0x0, 0x0, 0x0, 0x0, 0x0⟩] -- SLEEP_TIME

/-- Registers of the RED page: R255. -/
def rowsRED : List RegRow :=
  [
   ⟨0x040, 0x0, 1, 0xFFFF, 0x0, 0x0, 0x0, 0x64⟩, -- STREAM_CTL
   ⟨0x044, 0x0, 1, 0x0, 0x0, 0x0, 0x0, 0x0⟩, -- MAC_DEMAND
   ⟨0x048, 0x0, 1, 0x0, 0x0, 0x0, 0x0, 0x0⟩, -- MAC_STG
   ⟨0x04C, 0x0, 1, 0x0, 0x0, 0x0, 0x0, 0x3D0900⟩, -- MAC_CAP
   ⟨0x050, 0x0, 1, 0x0, 0x0, 0xFFFFFFFF, 0x0, 0x0⟩, -- MAC_REFUSE_CNT
   ⟨0x054, 0x0, 1, 0x0, 0x0, 0xFFFFFFFF, 0x0, 0x0⟩, -- STREAM_PKTS
   ⟨0x058, 0x0, 1, 0x0, 0x0, 0xFFFFFFFF, 0x0, 0x0⟩, -- STATS_PKTS
   ⟨0x05C, 0x0, 1, 0x0, 0x0, 0xFFFFFFFF, 0x0, 0x0⟩, -- RAIN_PKTS
   ⟨0x060, 0x0, 1, 0x0, 0x0, 0xFFFFFFFF, 0x0, 0x0⟩] -- PKT_REFUSED

/-- Registers of the FIRSET page: R257. -/
def rowsFIRSET : List RegRow :=
  [
   ⟨0x040, 0x0, 1, 0x0, 0x1, 0x0, 0x0, 0x0⟩, -- FIRSET_CTL
   ⟨0x044, 0x0, 1, 0xFF00FF, 0x0, 0x0, 0x0, 0x10001⟩, -- TAPS
   ⟨0x048, 0x0, 1, 0x0, 0x0, 0x0, 0x0, 0x400000⟩, -- DC_GAIN0
   ⟨0x04C, 0x0, 1, 0x0, 0x0, 0x0, 0x0, 0x400000⟩, -- DC_GAIN1
   ⟨0x050, 0x0, 1, 0x0, 0x0, 0x0, 0x0, 0x0⟩, -- USERS
   ⟨0x400, 0x4, 128, 0xFFFFFF, 0x0, 0x0, 0x0, 0x0⟩, -- COEF0
   ⟨0x800, 0x4, 128, 0xFFFFFF, 0x0, 0x0, 0x0, 0x0⟩] -- COEF1

/-- Registers of the RAIN page: R259. -/
def rowsRAIN : List RegRow :=
  [
   ⟨0x040, 0x0, 1, 0x0, 0x0, 0x0, 0xFFFF, 0x0⟩, -- DUMP_NOW
   ⟨0x044, 0x0, 1, 0x0, 0x0, 0xFFFF, 0x0, 0x0⟩, -- OVF_STS
   ⟨0x100, 0x20, 16, 0x0, 0x71F, 0x0, 0x0, 0x700⟩, -- RAIN_CFG
   ⟨0x104, 0x20, 16, 0x0, 0xFFFFFFFF, 0x0, 0x0, 0x0⟩, -- HYST
   ⟨0x108, 0x20, 16, 0x0, 0xFFFFFF, 0x0, 0x0, 0xE10⟩, -- DUMP_PERIOD
   ⟨0x10C, 0x20, 16, 0x0, 0x0, 0x0, 0x0, 0x0⟩, -- RAIN_STS
   ⟨0x110, 0x20, 16, 0x0, 0x0, 0xFFFFFFFF, 0x0, 0x0⟩, -- RES_OVF_CNT
   ⟨0x114, 0x20, 16, 0x0, 0x0, 0xFFFFFFFF, 0x0, 0x0⟩, -- HALF_CNT
   ⟨0x118, 0x20, 16, 0x0, 0x0, 0x0, 0x0, 0x0⟩, -- LAST_DUMP
   ⟨0x800, 0x4, 512, 0x0, 0x0, 0x0, 0x0, 0x0⟩] -- BIN

/-- Registers of the TRIG page: R296. -/
def rowsTRIG : List RegRow :=
  [
   ⟨0x040, 0x0, 1, 0x7, 0x0, 0x0, 0x0, 0x4⟩, -- TRIG_CTL
   ⟨0x044, 0x0, 1, 0x0, 0x0, 0x0, 0x0, 0x0⟩, -- CAP_DEMAND
   ⟨0x048, 0x0, 1, 0x0, 0x0, 0x0, 0x0, 0x27100⟩, -- CAP_CAP
   ⟨0x04C, 0x0, 1, 0x0, 0x0, 0x0, 0x0, 0x0⟩, -- WR_LEVEL
   ⟨0x050, 0x0, 1, 0x7F7F7F7F, 0x0, 0x0, 0x0, 0x0⟩, -- WR_PEAK
   ⟨0x054, 0x0, 1, 0x0, 0x0, 0x0, 0x0, 0x0⟩, -- RD_STS
   ⟨0x058, 0x0, 1, 0x0, 0x0, 0x0, 0x0, 0x0⟩, -- RD_CTX
   ⟨0x05C, 0x0, 1, 0x0, 0x0, 0x0, 0x0, 0x0⟩, -- RO_WAIT
   ⟨0x060, 0x0, 1, 0x0, 0x0, 0xFFFFFFFF, 0x0, 0x0⟩, -- RATE_STEP_CNT
   ⟨0x064, 0x0, 1, 0x0, 0x0, 0xFFFF, 0x0, 0x0⟩, -- ARM_REFUSE
   ⟨0x068, 0x0, 1, 0x0, 0x0, 0x0, 0x0, 0x0⟩, -- RRX_INFO
   ⟨0x06C, 0x0, 1, 0x0, 0x0, 0x0, 0x0, 0x0⟩, -- RRX_T0_SEC_HI
   ⟨0x070, 0x0, 1, 0x0, 0x0, 0x0, 0x0, 0x0⟩, -- RRX_T0_SEC_LO
   ⟨0x074, 0x0, 1, 0x0, 0x0, 0x0, 0x0, 0x0⟩, -- RRX_T0_NS
   ⟨0x078, 0x0, 1, 0x0, 0x0, 0x0, 0x0, 0x0⟩, -- RRX_ARRIVAL
   ⟨0x07C, 0x0, 1, 0x0, 0x0, 0xFFFFFFFF, 0x0, 0x0⟩, -- RING_RX_CNT
   ⟨0x080, 0x0, 1, 0x0, 0x0, 0xFFFFFFFF, 0x0, 0x0⟩, -- RING_TX_CNT
   ⟨0x084, 0x0, 1, 0xFF, 0x0, 0x0, 0x0, 0x0⟩, -- RTX_ID
   ⟨0x088, 0x0, 1, 0x7FFFF, 0x0, 0x0, 0x0, 0x0⟩, -- RTX_T0_SEC_HI
   ⟨0x08C, 0x0, 1, 0xFFFFFFFF, 0x0, 0x0, 0x0, 0x0⟩, -- RTX_T0_SEC_LO
   ⟨0x090, 0x0, 1, 0x3FFFFFFF, 0x0, 0x0, 0x0, 0x0⟩, -- RTX_T0_NS
   ⟨0x094, 0x0, 1, 0x0, 0x0, 0x0, 0x3, 0x0⟩, -- RTX_CMD
   ⟨0x098, 0x0, 1, 0x0, 0x0, 0xFFFFFFFF, 0x0, 0x0⟩, -- ECC_SGL_CNT
   ⟨0x09C, 0x0, 1, 0x0, 0x0, 0xFFFFFFFF, 0x0, 0x0⟩] -- ECC_DBL_CNT

/-- Registers of the CTX page: R298. -/
def rowsCTX : List RegRow :=
  [
   ⟨0x040, 0x0, 1, 0x0, 0xFBFFFC01, 0x0, 0x0, 0x0⟩, -- CTX_CFG
   ⟨0x044, 0x0, 1, 0x0, 0x800FFFFF, 0x0, 0x0, 0x0⟩, -- ARM
   ⟨0x048, 0x0, 1, 0x0, 0xFFFFF, 0x0, 0x0, 0x0⟩, -- POST
   ⟨0x04C, 0x0, 1, 0x0, 0x7FF07FF, 0x0, 0x0, 0x0⟩, -- REGION
   ⟨0x050, 0x0, 1, 0x0, 0xFFFF007F, 0x0, 0x0, 0x1⟩, -- TRIG_SRC
   ⟨0x054, 0x0, 1, 0x0, 0xFFFFFFFF, 0x0, 0x0, 0x0⟩, -- TRIG_LINK
   ⟨0x058, 0x0, 1, 0x0, 0xFF800003, 0x0, 0x0, 0x0⟩, -- LVL_CFG
   ⟨0x05C, 0x0, 1, 0x0, 0xFFFFFFFF, 0x0, 0x0, 0x0⟩, -- LVL_VALUE
   ⟨0x060, 0x0, 1, 0x0, 0xFFFFFFFF, 0x0, 0x0, 0x0⟩, -- LVL_HYST
   ⟨0x064, 0x0, 1, 0x0, 0x7FFFFFF, 0x0, 0x0, 0x0⟩, -- TIMER_PERIOD
   ⟨0x068, 0x0, 1, 0x0, 0x7FFFFFF, 0x0, 0x0, 0x0⟩, -- TIMER_PHASE
   ⟨0x06C, 0x0, 1, 0x0, 0xFFFFFFFF, 0x0, 0x0, 0x0⟩, -- HOLDOFF_NS
   ⟨0x070, 0x0, 1, 0x0, 0xFFFF, 0x0, 0x0, 0x0⟩, -- HOLDOFF_CNT
   ⟨0x074, 0x0, 1, 0x0, 0xFFFFFFFF, 0x0, 0x0, 0x0⟩, -- MEAS_HYST
   ⟨0x078, 0x0, 1, 0x0, 0x0, 0x0, 0xF, 0x0⟩, -- CMD
   ⟨0x07C, 0x0, 1, 0x0, 0x0, 0x0, 0x0, 0x0⟩, -- CTX_STS
   ⟨0x080, 0x0, 1, 0x0, 0x0, 0x0, 0x0, 0x0⟩, -- ARM_INFO
   ⟨0x084, 0x0, 1, 0x0, 0x0, 0x0, 0x0, 0x0⟩, -- REC_NO
   ⟨0x088, 0x0, 1, 0x0, 0x0, 0xFFFFFFFF, 0x0, 0x0⟩, -- TRIG_IGNORED
   ⟨0x08C, 0x0, 1, 0x0, 0x0, 0xFFFFFFFF, 0x0, 0x0⟩, -- PRE_STRICT_CNT
   ⟨0x090, 0x0, 1, 0x0, 0x0, 0xFFFFFFFF, 0x0, 0x0⟩, -- TOO_LATE_CNT
   ⟨0x094, 0x0, 1, 0x0, 0x0, 0xFFFFFFFF, 0x0, 0x0⟩, -- BADTIME_CNT
   ⟨0x098, 0x0, 1, 0x0, 0x0, 0xFFFFFFFF, 0x0, 0x0⟩, -- RECORD_CNT
   ⟨0x09C, 0x0, 1, 0x0, 0x0, 0xFFFFFFFF, 0x0, 0x0⟩, -- ECC_LOST
   ⟨0x0A0, 0x4, 16, 0x0, 0xFFFFFFFF, 0x0, 0x0, 0x0⟩, -- CHSET
   ⟨0x100, 0x0, 1, 0x0, 0x0, 0x0, 0x0, 0x0⟩, -- REC_INFO
   ⟨0x104, 0x0, 1, 0x0, 0x0, 0x0, 0x0, 0x0⟩, -- REC_FLAGS
   ⟨0x108, 0x0, 1, 0x0, 0x0, 0x0, 0x0, 0x0⟩, -- REC_T_SEC_HI
   ⟨0x10C, 0x0, 1, 0x0, 0x0, 0x0, 0x0, 0x0⟩, -- REC_T_SEC_LO
   ⟨0x110, 0x0, 1, 0x0, 0x0, 0x0, 0x0, 0x0⟩, -- REC_T_NS
   ⟨0x114, 0x0, 1, 0x0, 0x0, 0x0, 0x0, 0x0⟩, -- REC_TFRAC_LO
   ⟨0x118, 0x0, 1, 0x0, 0x0, 0x0, 0x0, 0x0⟩, -- REC_TFRAC_HI
   ⟨0x11C, 0x0, 1, 0x0, 0x0, 0x0, 0x0, 0x0⟩, -- REC_TIDX_LO
   ⟨0x120, 0x0, 1, 0x0, 0x0, 0x0, 0x0, 0x0⟩, -- REC_TIDX_HI
   ⟨0x124, 0x0, 1, 0x0, 0x0, 0x0, 0x0, 0x0⟩, -- REC_ORIGIN
   ⟨0x128, 0x0, 1, 0x0, 0x0, 0x0, 0x0, 0x0⟩, -- REC_NUM
   ⟨0x200, 0x0, 1, 0x1FF, 0x0, 0x0, 0x0, 0x0⟩, -- MEMB_SEL
   ⟨0x204, 0x0, 1, 0x0, 0x0, 0x0, 0x0, 0x0⟩, -- MEMB_INFO
   ⟨0x208, 0x0, 1, 0x0, 0x0, 0x0, 0x0, 0x0⟩, -- MEMB_FIRST
   ⟨0x20C, 0x0, 1, 0x0, 0x0, 0x0, 0x0, 0x0⟩] -- MEMB_COUNT
  ++ [
   ⟨0x210, 0x0, 1, 0x0, 0x0, 0x0, 0x0, 0x0⟩, -- MEMB_PRE
   ⟨0x214, 0x0, 1, 0x0, 0x0, 0x0, 0x0, 0x0⟩, -- MEMB_POST
   ⟨0x218, 0x0, 1, 0x0, 0x0, 0x0, 0x0, 0x0⟩, -- MEMB_FIRST_TICK
   ⟨0x21C, 0x0, 1, 0x0, 0x0, 0x0, 0x0, 0x0⟩, -- MEMB_TRIG_TICK
   ⟨0x220, 0x0, 1, 0x0, 0x0, 0x0, 0x0, 0x0⟩, -- MEAS_MAX
   ⟨0x224, 0x0, 1, 0x0, 0x0, 0x0, 0x0, 0x0⟩, -- MEAS_MIN
   ⟨0x228, 0x0, 1, 0x0, 0x0, 0x0, 0x0, 0x0⟩, -- MEAS_PP
   ⟨0x22C, 0x0, 1, 0x0, 0x0, 0x0, 0x0, 0x0⟩, -- MEAS_MEAN
   ⟨0x230, 0x0, 1, 0x0, 0x0, 0x0, 0x0, 0x0⟩, -- MEAS_RMS
   ⟨0x234, 0x0, 1, 0x0, 0x0, 0x0, 0x0, 0x0⟩, -- MEAS_PERIOD
   ⟨0x238, 0x0, 1, 0x0, 0x0, 0x0, 0x0, 0x0⟩, -- MEAS_TMAX
   ⟨0x23C, 0x0, 1, 0x0, 0x0, 0x0, 0x0, 0x0⟩] -- MEAS_FLAGS

/-- Registers of the Q page: R329. -/
def rowsQ : List RegRow :=
  [
   ⟨0x040, 0x0, 1, 0x0, 0xFFF301, 0x0, 0x0, 0xA000⟩, -- Q_CFG
   ⟨0x044, 0x0, 1, 0x0, 0x0, 0x0, 0x1, 0x0⟩, -- Q_CMD
   ⟨0x048, 0x0, 1, 0xFFFFFFFF, 0x0, 0x0, 0x0, 0x3000100⟩, -- WM
   ⟨0x04C, 0x0, 1, 0x0, 0x0, 0x0, 0x0, 0x0⟩, -- LEVEL
   ⟨0x050, 0x0, 1, 0x1FFFF, 0x0, 0x0, 0x0, 0x0⟩, -- LEVEL_PEAK
   ⟨0x054, 0x0, 1, 0x0, 0x0, 0x7, 0x0, 0x100⟩, -- Q_STS
   ⟨0x058, 0x0, 1, 0x0, 0x0, 0xFFFFFFFF, 0x0, 0x0⟩, -- LOST
   ⟨0x05C, 0x0, 1, 0x0, 0x0, 0xFFFFFFFF, 0x0, 0x0⟩, -- DIS_DROP_CNT
   ⟨0x060, 0x0, 1, 0x0, 0x0, 0xFFFFFFFF, 0x0, 0x0⟩, -- WR_PKT_CNT
   ⟨0x064, 0x0, 1, 0x0, 0x0, 0xFFFFFFFF, 0x0, 0x0⟩, -- RD_PKT_CNT
   ⟨0x068, 0x0, 1, 0x0, 0x0, 0xFFFFFFFF, 0x0, 0x0⟩, -- FLUSH_CNT
   ⟨0x06C, 0x0, 1, 0x0, 0x0, 0xFFFFFFFF, 0x0, 0x0⟩, -- RESET_CNT
   ⟨0x070, 0x0, 1, 0x0, 0x0, 0x0, 0x0, 0x0⟩, -- WP
   ⟨0x074, 0x0, 1, 0x0, 0x0, 0x0, 0x0, 0x0⟩, -- RP
   ⟨0x078, 0x0, 1, 0x0, 0x0, 0x0, 0x0, 0x0⟩, -- DATA_LO
   ⟨0x07C, 0x0, 1, 0x0, 0x0, 0x0, 0x0, 0x0⟩, -- DATA_HI
   ⟨0x080, 0x0, 1, 0x0, 0x0, 0x0, 0x0, 0x121⟩] -- PKT_MAX

/-- Registers of the ARB_MEM page: R331. -/
def rowsARBMEM : List RegRow :=
  [
   ⟨0x040, 0x0, 1, 0x1, 0x0, 0x0, 0x0, 0x0⟩, -- ARB_CTL
   ⟨0x044, 0x0, 1, 0x0, 0x0, 0x400, 0x0, 0x0⟩, -- ARB_STS
   ⟨0x048, 0x0, 1, 0xFFFF, 0x0, 0x0, 0x0, 0xE500⟩, -- CLASS
   ⟨0x04C, 0x0, 1, 0xFF, 0x0, 0x0, 0x0, 0x10⟩, -- BURST_LIMIT
   ⟨0x050, 0x0, 1, 0xFFFFFFFF, 0x0, 0x0, 0x0, 0x2710⟩, -- STARVE_NS
   ⟨0x054, 0x0, 1, 0x0, 0x0, 0xFF, 0x0, 0x0⟩, -- STARVE
   ⟨0x058, 0x0, 1, 0x0, 0x0, 0x0, 0x0, 0x0⟩, -- REQ
   ⟨0x060, 0x4, 8, 0xFFFFFFFF, 0x0, 0x0, 0x0, 0x0⟩, -- WAIT_MAX
   ⟨0x080, 0x4, 8, 0x0, 0x0, 0xFFFFFFFF, 0x0, 0x0⟩] -- GRANT_CNT

/-- Registers of the ARB_TX page: R332. -/
def rowsARBTX : List RegRow :=
  [
   ⟨0x040, 0x0, 1, 0x1, 0x0, 0x0, 0x0, 0x0⟩, -- ARB_CTL
   ⟨0x044, 0x0, 1, 0x0, 0x0, 0x0, 0x0, 0x0⟩, -- ARB_STS
   ⟨0x048, 0x0, 1, 0xFF, 0x0, 0x0, 0x0, 0x1⟩, -- BURST_LIMIT
   ⟨0x04C, 0x0, 1, 0xFFFFFFFF, 0x0, 0x0, 0x0, 0xF4240⟩, -- STARVE_NS
   ⟨0x050, 0x0, 1, 0xFFFFFFFF, 0x0, 0x0, 0x0, 0x0⟩, -- WAIT_MAX
   ⟨0x054, 0x0, 1, 0x0, 0x0, 0x0, 0x0, 0x0⟩, -- WAIT_MAX_ID
   ⟨0x100, 0x4, 4, 0xFFFFFFFF, 0x0, 0x0, 0x0, 0xAAAAAAAA⟩, -- CLASS
   ⟨0x110, 0x0, 1, 0xF, 0x0, 0x0, 0x0, 0x1⟩, -- CLASS_4
   ⟨0x140, 0x4, 2, 0x0, 0x0, 0xFFFFFFFF, 0x0, 0x0⟩, -- STARVE
   ⟨0x148, 0x0, 1, 0x0, 0x0, 0x3, 0x0, 0x0⟩, -- STARVE_2
   ⟨0x150, 0x4, 2, 0x0, 0x0, 0x0, 0x0, 0x0⟩, -- REQ
   ⟨0x158, 0x0, 1, 0x0, 0x0, 0x0, 0x0, 0x0⟩, -- REQ_2
   ⟨0x200, 0x4, 66, 0x0, 0x0, 0xFFFFFFFF, 0x0, 0x0⟩] -- FRAME_CNT

/-- Registers of the PORT page: R369. -/
def rowsPORT : List RegRow :=
  [
   ⟨0x040, 0x0, 1, 0x113, 0x0, 0x0, 0x0, 0x10⟩, -- PORT_CTL
   ⟨0x044, 0x0, 1, 0x0, 0x0, 0x0, 0x0, 0x0⟩, -- PORT_STS
   ⟨0x048, 0x0, 1, 0x0, 0x0, 0xFFFFFFFF, 0x0, 0x0⟩, -- RX_FRAMES
   ⟨0x04C, 0x0, 1, 0x0, 0x0, 0xFFFFFFFF, 0x0, 0x0⟩, -- RX_FCS_ERR
   ⟨0x050, 0x0, 1, 0x0, 0x0, 0xFFFFFFFF, 0x0, 0x0⟩, -- RX_OVERSIZE
   ⟨0x054, 0x0, 1, 0x0, 0x0, 0xFFFFFFFF, 0x0, 0x0⟩, -- FWD_OUT
   ⟨0x058, 0x0, 1, 0x0, 0x0, 0xFFFFFFFF, 0x0, 0x0⟩, -- LOCAL_OUT
   ⟨0x05C, 0x0, 1, 0x0, 0x0, 0xFFFFFFFF, 0x0, 0x0⟩, -- FWD_OVF_CNT
   ⟨0x060, 0x0, 1, 0x0, 0x0, 0xFFFFFFFF, 0x0, 0x0⟩, -- LINK_DOWN_CNT
   ⟨0x064, 0x0, 1, 0x0, 0x0, 0xFFFFFFFF, 0x0, 0x0⟩, -- CODE_ERR_CNT
   ⟨0x068, 0x0, 1, 0xFFFFFFFF, 0x0, 0x0, 0x0, 0x0⟩] -- FWD_WAIT_MAX

/-- Registers of the HSR page: R371. -/
def rowsHSR : List RegRow :=
  [
   ⟨0x040, 0x0, 1, 0x7, 0x0, 0x0, 0x0, 0x0⟩, -- HSR_CTL
   ⟨0x044, 0x0, 1, 0xFFFF, 0x0, 0x0, 0x0, 0x88B5⟩, -- ETHERTYPE
   ⟨0x048, 0x0, 1, 0xFFFF, 0x0, 0x0, 0x0, 0x0⟩, -- OWN_MAC_HI
   ⟨0x04C, 0x0, 1, 0xFFFFFFFF, 0x0, 0x0, 0x0, 0x0⟩, -- OWN_MAC_LO
   ⟨0x050, 0x0, 1, 0xFFFF, 0x0, 0x0, 0x0, 0x0⟩, -- STREAM_MAC_HI
   ⟨0x054, 0x0, 1, 0xFFFFFFFF, 0x0, 0x0, 0x0, 0x0⟩, -- STREAM_MAC_LO
   ⟨0x058, 0x0, 1, 0xFFFF, 0x0, 0x0, 0x0, 0x348⟩, -- DST_MAC_HI
   ⟨0x05C, 0x0, 1, 0xFFFFFFFF, 0x0, 0x0, 0x0, 0x4A000001⟩, -- DST_MAC_LO
   ⟨0x060, 0x0, 1, 0xFFFF, 0x0, 0x0, 0x0, 0x348⟩, -- TRIG_MAC_HI
   ⟨0x064, 0x0, 1, 0xFFFFFFFF, 0x0, 0x0, 0x0, 0x4A000002⟩, -- TRIG_MAC_LO
   ⟨0x068, 0x0, 1, 0xFFFFFFFF, 0x0, 0x0, 0x0, 0x0⟩, -- HUB_ID
   ⟨0x06C, 0x0, 1, 0xFFFF, 0x0, 0x0, 0x0, 0x190⟩, -- DD_CTL
   ⟨0x070, 0x0, 1, 0x0, 0x0, 0x0, 0x0, 0x0⟩, -- HSR_SEQ
   ⟨0x074, 0x0, 1, 0x0, 0x0, 0xFFFFFFFF, 0x0, 0x0⟩, -- DUP_DISCARD_CNT
   ⟨0x078, 0x0, 1, 0x0, 0x0, 0xFFFFFFFF, 0x0, 0x0⟩, -- OWN_REMOVED_CNT
   ⟨0x07C, 0x0, 1, 0x0, 0x0, 0xFFFFFFFF, 0x0, 0x0⟩, -- NOTAG_CNT
   ⟨0x080, 0x0, 1, 0x0, 0x0, 0xFFFFFFFF, 0x0, 0x0⟩, -- DD_EVICT_CNT
   ⟨0x084, 0x0, 1, 0x0, 0x0, 0xFFFFFFFF, 0x0, 0x0⟩, -- FENCE_DROP_CNT
   ⟨0x088, 0x0, 1, 0x0, 0x0, 0xFFFFFFFF, 0x0, 0x0⟩, -- MGMT_OK_CNT
   ⟨0x08C, 0x0, 1, 0x0, 0x0, 0xFFFFFFFF, 0x0, 0x0⟩, -- MGMT_AUTH_FAIL_CNT
   ⟨0x090, 0x0, 1, 0x0, 0x0, 0xFFFFFFFF, 0x0, 0x0⟩, -- MGMT_REPLAY_CNT
   ⟨0x094, 0x0, 1, 0x0, 0x0, 0xFFFFFFFF, 0x0, 0x0⟩, -- MGMT_ERR_CNT
   ⟨0x098, 0x0, 1, 0x0, 0x0, 0x0, 0x3, 0x0⟩, -- KEY_CMD
   ⟨0x09C, 0x0, 1, 0x0, 0x0, 0x0, 0x0, 0x0⟩, -- KEY_STS
   ⟨0x0A0, 0x4, 4, 0x0, 0x0, 0x0, 0xFFFFFFFF, 0x0⟩, -- KEY_DATA
   ⟨0x0B0, 0x0, 1, 0x0, 0x0, 0x0, 0x0, 0x0⟩, -- LAST_CTR_0
   ⟨0x0B4, 0x0, 1, 0x0, 0x0, 0x0, 0x0, 0x0⟩, -- LAST_CTR_1
   ⟨0x0B8, 0x0, 1, 0x0, 0x0, 0x0, 0x0, 0x0⟩, -- CTRL_SEQ
   ⟨0x200, 0x4, 64, 0x0, 0x0, 0x0, 0x0, 0x0⟩] -- SEQ

/-- Registers of the WALE page: R373. -/
def rowsWALE : List RegRow :=
  [
   ⟨0x040, 0x0, 1, 0x1F, 0x0, 0x0, 0x0, 0x10⟩, -- WALE_CTL
   ⟨0x044, 0x0, 1, 0x0, 0x0, 0x0, 0x0, 0x0⟩, -- WALE_STS
   ⟨0x048, 0x0, 1, 0x0, 0x0, 0x0, 0x1FF, 0x0⟩, -- MEAS_CMD
   ⟨0x04C, 0x0, 1, 0x0, 0x0, 0x0, 0x0, 0x0⟩, -- MEAS_STS
   ⟨0x050, 0x4, 9, 0x0, 0x0, 0x0, 0x0, 0x0⟩, -- LINE_DLY
   ⟨0x080, 0x4, 8, 0x0, 0x0, 0xFFFFFFFF, 0x0, 0x0⟩, -- RX_CNT
   ⟨0x0A0, 0x0, 1, 0x0, 0x0, 0xFFFFFFFF, 0x0, 0x0⟩, -- TX_CNT
   ⟨0x0A4, 0x0, 1, 0x0, 0x0, 0xFFFFFFFF, 0x0, 0x0⟩, -- MERGED_CNT
   ⟨0x0A8, 0x0, 1, 0x0, 0x0, 0x0, 0x0, 0x0⟩, -- LAST_RX
   ⟨0x0AC, 0x0, 1, 0x0, 0x0, 0x0, 0x0, 0x0⟩] -- LAST_RX_INFO

/-- Registers of the PAIR page: R411. -/
def rowsPAIR : List RegRow :=
  [
   ⟨0x040, 0x0, 1, 0xFFFF05, 0x0, 0x0, 0x0, 0x30A04⟩, -- PAIR_CTL
   ⟨0x044, 0x0, 1, 0x0, 0x0, 0x0, 0x1F, 0x0⟩, -- PAIR_CMD
   ⟨0x048, 0x0, 1, 0x0, 0x0, 0x0, 0x0, 0x70000⟩, -- PAIR_STS
   ⟨0x04C, 0x0, 1, 0x0, 0x0, 0x0, 0x0, 0x0⟩, -- JOIN_REMAIN
   ⟨0x050, 0x0, 1, 0xFFFFFFFF, 0x0, 0x0, 0x0, 0x0⟩, -- COMMIT_TICK_LO
   ⟨0x054, 0x0, 1, 0xFFFFFFFF, 0x0, 0x0, 0x0, 0x0⟩, -- COMMIT_TICK_HI
   ⟨0x058, 0x0, 1, 0x0, 0x0, 0xC, 0x0, 0x0⟩, -- COMMIT_STS
   ⟨0x05C, 0x0, 1, 0x0, 0x0, 0x0, 0x0, 0x0⟩, -- CFG_DIGEST
   ⟨0x060, 0x0, 1, 0x0, 0x0, 0x0, 0x0, 0x0⟩, -- CFG_DIGEST_PARTNER
   ⟨0x064, 0x0, 1, 0x0, 0x0, 0x0, 0x0, 0x0⟩, -- STG_DIGEST
   ⟨0x068, 0x0, 1, 0x0, 0x0, 0x0, 0x0, 0xFFFFFFFF⟩, -- LINK_DELAY
   ⟨0x06C, 0x0, 1, 0x0, 0x0, 0x0, 0x0, 0x0⟩, -- MIRROR_LAG
   ⟨0x070, 0x0, 1, 0x0, 0x0, 0xFFFFFFFF, 0x0, 0x0⟩, -- PAIR_LATE
   ⟨0x074, 0x0, 1, 0x0, 0x0, 0xFFFFFFFF, 0x0, 0x0⟩, -- DIGEST_FAIL_CNT
   ⟨0x078, 0x0, 1, 0x0, 0x0, 0xFFFFFFFF, 0x0, 0x0⟩, -- TAKEOVER_CNT
   ⟨0x07C, 0x0, 1, 0x0, 0x0, 0xFFFFFFFF, 0x0, 0x0⟩, -- LINK_RETRY_CNT
   ⟨0x080, 0x0, 1, 0x0, 0x0, 0xFFFFFFFF, 0x0, 0x0⟩, -- CMD_IGNORED
   ⟨0x084, 0x0, 1, 0x0, 0x0, 0x0, 0x0, 0x0⟩, -- SUB_TICKS
   ⟨0x088, 0x0, 1, 0x0, 0x0, 0x0, 0x0, 0x0⟩, -- TAKEOVER_IDX_LO
   ⟨0x08C, 0x0, 1, 0x0, 0x0, 0x0, 0x0, 0x0⟩, -- TAKEOVER_IDX_HI
   ⟨0x090, 0x0, 1, 0x1F0000, 0x0, 0x0, 0x0, 0x100000⟩, -- HC_CTL
   ⟨0x094, 0x0, 1, 0xFFFF, 0x0, 0x0, 0x0, 0x40⟩, -- HC_MEAN_TOL
   ⟨0x098, 0x0, 1, 0xFFFF, 0x0, 0x0, 0x0, 0x200⟩, -- HC_RMS_TOL
   ⟨0x09C, 0x0, 1, 0x0, 0x0, 0x0, 0x0, 0x0⟩, -- HC_STS
   ⟨0x0A0, 0x0, 1, 0x1FF, 0x0, 0x0, 0x0, 0x0⟩, -- HC_SEL
   ⟨0x0A4, 0x0, 1, 0x0, 0x0, 0x0, 0x0, 0x0⟩, -- HC_MEAN
   ⟨0x0A8, 0x0, 1, 0x0, 0x0, 0x0, 0x0, 0x0⟩, -- HC_RMS
   ⟨0x0AC, 0x0, 1, 0x0, 0x0, 0x0, 0x0, 0x0⟩, -- HC_COUNT
   ⟨0x0B0, 0x0, 1, 0x0, 0x0, 0x0, 0x0, 0x0⟩, -- PARTNER_HEALTH
   ⟨0x0C0, 0x4, 16, 0x0, 0x0, 0x0, 0x0, 0x0⟩] -- HC_FAIL

/-- Registers of the RIM page: R443. -/
def rowsRIM : List RegRow :=
  [
   ⟨0x040, 0x0, 1, 0xFF7F03, 0x0, 0x0, 0x0, 0xA0003⟩, -- RIM_CTL
   ⟨0x044, 0x0, 1, 0x0, 0x0, 0x0, 0x7, 0x0⟩, -- RIM_CMD
   ⟨0x048, 0x0, 1, 0x0, 0x0, 0x0, 0x0, 0x0⟩, -- RIM_STS
   ⟨0x04C, 0x0, 1, 0x0, 0x0, 0x0, 0x0, 0x0⟩, -- RIM_SEQ
   ⟨0x050, 0x0, 1, 0x0, 0x0, 0x0, 0x0, 0x0⟩, -- RIM_GEN_A
   ⟨0x054, 0x0, 1, 0x0, 0x0, 0x0, 0x0, 0x0⟩, -- RIM_GEN_B
   ⟨0x058, 0x0, 1, 0x0, 0x0, 0xFFFFFFFF, 0x0, 0x0⟩, -- DROP_CNT
   ⟨0x05C, 0x0, 1, 0x303FF, 0x0, 0x0, 0x0, 0x0⟩, -- RD_SEL
   ⟨0x060, 0x0, 1, 0x0, 0x0, 0x0, 0x0, 0x0⟩, -- ENTRY_STS
   ⟨0x064, 0x4, 4, 0x0, 0x0, 0x0, 0x0, 0x0⟩, -- ENTRY
   ⟨0x074, 0x0, 1, 0x0, 0x0, 0x0, 0xFFFFFFFF, 0x0⟩, -- HOST_NOTE
   ⟨0x078, 0x0, 1, 0x0, 0x0, 0x0, 0xFFFF, 0x0⟩, -- TEST_KEY
   ⟨0x07C, 0x0, 1, 0x0, 0x0, 0x0, 0x0, 0x0⟩, -- TEST_STS
   ⟨0x080, 0x0, 1, 0xFFFF, 0x0, 0x0, 0x0, 0x3E8⟩, -- WDOG_LIMIT
   ⟨0x084, 0x0, 1, 0x0, 0x0, 0x0, 0x0, 0x0⟩, -- WDOG_PAGE
   ⟨0x088, 0x0, 1, 0x0, 0x0, 0x0, 0x0, 0x0⟩, -- SUPPLY_STS
   ⟨0x08C, 0x0, 1, 0x0, 0x0, 0xFFFFFFFF, 0x0, 0x0⟩, -- IRQ_PKT_CNT
   ⟨0x090, 0x0, 1, 0x0, 0x0, 0xFFFFFFFF, 0x0, 0x0⟩] -- IRQ_MERGE_CNT

/-- Registers of the common page header: R448. -/
def rowsHDR : List RegRow :=
  [
   ⟨0x000, 0x0, 1, 0x0, 0x0, 0x0, 0x0, 0x0⟩, -- PAGE_ID
   ⟨0x004, 0x0, 1, 0x0, 0x0, 0x0, 0x0, 0x14200⟩, -- PAGE_VER
   ⟨0x008, 0x0, 1, 0x0, 0x0, 0x0, 0x0, 0x0⟩, -- CTL
   ⟨0x00C, 0x0, 1, 0x0, 0x0, 0x0, 0x0, 0x0⟩, -- STS
   ⟨0x010, 0x0, 1, 0x0, 0x0, 0xFFFFFFFF, 0x0, 0x0⟩, -- INT_STS
   ⟨0x014, 0x0, 1, 0xFFFFFFFF, 0x0, 0x0, 0x0, 0x0⟩, -- INT_EN
   ⟨0x018, 0x0, 1, 0x10F, 0x0, 0x0, 0x0, 0x0⟩, -- INT_ROUTE
   ⟨0x01C, 0x0, 1, 0x0, 0x0, 0xFFFFFFFF, 0x0, 0x0⟩, -- FLT_STS
   ⟨0x020, 0x0, 1, 0x0, 0x0, 0x80000000, 0x0, 0x0⟩, -- FLT_FIRST
   ⟨0x024, 0x0, 1, 0x0, 0x0, 0x0, 0x0, 0x0⟩, -- FLT_FIRST_TIME
   ⟨0x028, 0x0, 1, 0x0, 0x0, 0xFFFFFFFF, 0x0, 0x0⟩, -- FLT_CNT_CORR
   ⟨0x02C, 0x0, 1, 0x0, 0x0, 0xFFFFFFFF, 0x0, 0x0⟩, -- FLT_CNT_CONT
   ⟨0x030, 0x0, 1, 0x1F, 0x0, 0x0, 0x80000000, 0x0⟩, -- FLT_INJ
   ⟨0x034, 0x0, 1, 0x0, 0x0, 0x30000000, 0x7, 0x0⟩] -- STAGE_CTL

/-- Registers of the HOST page: R461. -/
def rowsHOST : List RegRow :=
  [
   ⟨0x040, 0x0, 1, 0xFF, 0x0, 0x0, 0x0, 0x8⟩, -- HOST_CFG
   ⟨0x044, 0x0, 1, 0x0, 0x0, 0xF, 0x0, 0x0⟩, -- HOST_STS
   ⟨0x048, 0x0, 1, 0x7FF, 0x0, 0x0, 0x0, 0x0⟩, -- CAPWIN_BASE
   ⟨0x04C, 0x0, 1, 0x0, 0x0, 0xFFFFFFFF, 0x0, 0x0⟩, -- LATE_CNT
   ⟨0x050, 0x0, 1, 0x0, 0x0, 0xFFFFFFFF, 0x0, 0x0⟩, -- BAD_OP_CNT
   ⟨0x054, 0x0, 1, 0x0, 0x0, 0xFFFFFFFF, 0x0, 0x0⟩, -- PARTIAL_CNT
   ⟨0x058, 0x0, 1, 0x0, 0x0, 0xFFFFFFFF, 0x0, 0x0⟩, -- ADDR_ERR_CNT
   ⟨0x05C, 0x0, 1, 0xFFFFFFFF, 0x0, 0x0, 0x0, 0x0⟩] -- SCRATCH

/-- Registers of the CHIP page: R463. -/
def rowsCHIP : List RegRow :=
  [
   ⟨0x040, 0x0, 1, 0x0, 0x0, 0x0, 0x0, 0x5120000⟩, -- CHIP_ID
   ⟨0x044, 0x0, 1, 0x0, 0x0, 0x0, 0x0, 0x0⟩, -- SERIAL_LO
   ⟨0x048, 0x0, 1, 0x0, 0x0, 0x0, 0x0, 0x0⟩, -- SERIAL_HI
   ⟨0x04C, 0x0, 1, 0xFFFF0000, 0x0, 0x0, 0x0, 0xFFFF0100⟩, -- FABRIC_RATE
   ⟨0x050, 0x0, 1, 0xFFFFFFFF, 0x0, 0x0, 0x0, 0x0⟩, -- AT_IDX_LO
   ⟨0x054, 0x0, 1, 0xFFFFFFFF, 0x0, 0x0, 0x0, 0x0⟩, -- AT_IDX_HI
   ⟨0x058, 0x0, 1, 0x0, 0x0, 0x0, 0x0, 0x0⟩, -- REFUSE_INFO
   ⟨0x05C, 0x0, 1, 0x0, 0x0, 0xFFFFFFFF, 0x0, 0x0⟩, -- REFUSE_CNT
   ⟨0x060, 0x0, 1, 0x3FF, 0x0, 0x0, 0x0, 0x0⟩, -- SCHED_SEL
   ⟨0x064, 0x0, 1, 0x0, 0x0, 0x0, 0x0, 0x0⟩, -- SCHED_IDX_LO
   ⟨0x068, 0x0, 1, 0x0, 0x0, 0x0, 0x0, 0x0⟩, -- SCHED_IDX_HI
   ⟨0x06C, 0x0, 1, 0x0, 0x0, 0x0, 0x0, 0x0⟩] -- SCHED_STS

/-! Fields of TIME. -/
abbrev F.TIME.TIME_CTL.LOSS_TIMEOUT : Fld := ⟨0x001040, 8, 8⟩
abbrev F.TIME.TIME_CTL.STEP_FWD_EN : Fld := ⟨0x001040, 4, 1⟩
abbrev F.TIME.TIME_CTL.SRC : Fld := ⟨0x001040, 0, 2⟩
abbrev F.TIME.TIME_CMD.SERVO_RESTART : Fld := ⟨0x001044, 2, 1⟩
abbrev F.TIME.TIME_CMD.SLEW_ACCEPT : Fld := ⟨0x001044, 1, 1⟩
abbrev F.TIME.TIME_CMD.APPLY_STEP : Fld := ⟨0x001044, 0, 1⟩
abbrev F.TIME.TIME_STATE.PPS_IN_OVR : Fld := ⟨0x001048, 8, 1⟩
abbrev F.TIME.TIME_STATE.STEP_SCHED : Fld := ⟨0x001048, 7, 1⟩
abbrev F.TIME.TIME_STATE.FWD_PENDING : Fld := ⟨0x001048, 6, 1⟩
abbrev F.TIME.TIME_STATE.BACK_PENDING : Fld := ⟨0x001048, 5, 1⟩
abbrev F.TIME.TIME_STATE.TIME_SET : Fld := ⟨0x001048, 4, 1⟩
abbrev F.TIME.TIME_STATE.STATE : Fld := ⟨0x001048, 0, 3⟩
abbrev F.TIME.NOW_NS.NS : Fld := ⟨0x00104C, 0, 30⟩
abbrev F.TIME.NOW_SEC_LO.SEC_LO : Fld := ⟨0x001050, 0, 32⟩
abbrev F.TIME.NOW_SEC_HI.UNPAIRED : Fld := ⟨0x001054, 31, 1⟩
abbrev F.TIME.NOW_SEC_HI.SEC_HI : Fld := ⟨0x001054, 0, 16⟩
abbrev F.TIME.NOW_NS32.NS32 : Fld := ⟨0x001058, 0, 32⟩
abbrev F.TIME.OFFSET_LO.OFS_LO : Fld := ⟨0x00105C, 0, 32⟩
abbrev F.TIME.OFFSET_HI.OFS_HI : Fld := ⟨0x001060, 0, 32⟩
abbrev F.TIME.LAST_OFFSET_LO.LAST_LO : Fld := ⟨0x001064, 0, 32⟩
abbrev F.TIME.LAST_OFFSET_HI.LAST_HI : Fld := ⟨0x001068, 0, 32⟩
abbrev F.TIME.PENDING_OFFSET_LO.PEND_LO : Fld := ⟨0x00106C, 0, 32⟩
abbrev F.TIME.PENDING_OFFSET_HI.PEND_HI : Fld := ⟨0x001070, 0, 32⟩
abbrev F.TIME.STEP_THRESH.THRESH : Fld := ⟨0x001074, 0, 32⟩
abbrev F.TIME.SLEW_LIMIT.LIMIT : Fld := ⟨0x001078, 0, 10⟩
abbrev F.TIME.SERVO_GAIN.KP : Fld := ⟨0x00107C, 16, 16⟩
abbrev F.TIME.SERVO_GAIN.KI : Fld := ⟨0x00107C, 0, 16⟩
abbrev F.TIME.LOCK_CTL.LOCK_COUNT : Fld := ⟨0x001080, 16, 8⟩
abbrev F.TIME.LOCK_CTL.LOCK_THRESH : Fld := ⟨0x001080, 0, 16⟩
abbrev F.TIME.FREQ_INT.INT : Fld := ⟨0x001084, 0, 32⟩
abbrev F.TIME.FREQ_ADJ.ADJ : Fld := ⟨0x001088, 0, 32⟩
abbrev F.TIME.HOLDOVER_LIMIT.LIMIT : Fld := ⟨0x00108C, 0, 32⟩
abbrev F.TIME.HOLDOVER_TIME.TIME : Fld := ⟨0x001090, 0, 32⟩
abbrev F.TIME.STEP_CNT.BACK : Fld := ⟨0x001094, 16, 16⟩
abbrev F.TIME.STEP_CNT.FWD : Fld := ⟨0x001094, 0, 16⟩
abbrev F.TIME.PPS_OUT_CTL.EN : Fld := ⟨0x001098, 31, 1⟩
abbrev F.TIME.PPS_OUT_CTL.GATE : Fld := ⟨0x001098, 30, 1⟩
abbrev F.TIME.PPS_OUT_CTL.WIDTH : Fld := ⟨0x001098, 0, 20⟩
abbrev F.TIME.PPS_OUT_OFFSET.OFS : Fld := ⟨0x00109C, 0, 32⟩
abbrev F.TIME.PPS_IN_CTL.EDGE : Fld := ⟨0x0010A0, 1, 1⟩
abbrev F.TIME.PPS_IN_CTL.EN : Fld := ⟨0x0010A0, 0, 1⟩
abbrev F.TIME.PPS_IN_NS.NS : Fld := ⟨0x0010A4, 0, 30⟩
abbrev F.TIME.PPS_IN_SEC_LO.SEC_LO : Fld := ⟨0x0010A8, 0, 32⟩
abbrev F.TIME.PPS_IN_SEC_HI.UNPAIRED : Fld := ⟨0x0010AC, 31, 1⟩
abbrev F.TIME.PPS_IN_SEC_HI.FRAC : Fld := ⟨0x0010AC, 16, 4⟩
abbrev F.TIME.PPS_IN_SEC_HI.SEC_HI : Fld := ⟨0x0010AC, 0, 16⟩
abbrev F.TIME.PPS_IN_CNT.CNT : Fld := ⟨0x0010B0, 0, 32⟩

/-! Fields of PTP. -/
abbrev F.PTP.PTP_CTL.DOMAIN : Fld := ⟨0x002040, 16, 8⟩
abbrev F.PTP.PTP_CTL.TX_PRIO_TAG : Fld := ⟨0x002040, 8, 1⟩
abbrev F.PTP.PTP_CTL.PCP : Fld := ⟨0x002040, 5, 3⟩
abbrev F.PTP.PTP_CTL.PDELAY_DA : Fld := ⟨0x002040, 4, 1⟩
abbrev F.PTP.PTP_CTL.SLAVE_PORT : Fld := ⟨0x002040, 2, 2⟩
abbrev F.PTP.PTP_CTL.SEL_MODE : Fld := ⟨0x002040, 1, 1⟩
abbrev F.PTP.PTP_CTL.SLAVE_EN : Fld := ⟨0x002040, 0, 1⟩
abbrev F.PTP.PTP_TIMING.SYNC_LOSS : Fld := ⟨0x002044, 8, 8⟩
abbrev F.PTP.PTP_TIMING.LOG_PDELAY : Fld := ⟨0x002044, 0, 8⟩
abbrev F.PTP.MASTER_ID_HI.ID_HI : Fld := ⟨0x002048, 0, 32⟩
abbrev F.PTP.MASTER_ID_LO.ID_LO : Fld := ⟨0x00204C, 0, 32⟩
abbrev F.PTP.MASTER_PORT.PORT : Fld := ⟨0x002050, 0, 16⟩
abbrev F.PTP.CUR_MASTER_HI.ID_HI : Fld := ⟨0x002054, 0, 32⟩
abbrev F.PTP.CUR_MASTER_LO.ID_LO : Fld := ⟨0x002058, 0, 32⟩
abbrev F.PTP.PTP_STS.CUR_PORT : Fld := ⟨0x00205C, 16, 16⟩
abbrev F.PTP.PTP_STS.TWO_STEP : Fld := ⟨0x00205C, 3, 1⟩
abbrev F.PTP.PTP_STS.HAS_MASTER : Fld := ⟨0x00205C, 2, 1⟩
abbrev F.PTP.PTP_STS.ACTIVE_PORT : Fld := ⟨0x00205C, 0, 2⟩
abbrev F.PTP.LINK_DELAY_A.DELAY : Fld := ⟨0x002060, 0, 32⟩
abbrev F.PTP.LINK_DELAY_B.DELAY : Fld := ⟨0x002064, 0, 32⟩
abbrev F.PTP.ASYM_A.ASYM : Fld := ⟨0x002068, 0, 32⟩
abbrev F.PTP.ASYM_B.ASYM : Fld := ⟨0x00206C, 0, 32⟩
abbrev F.PTP.UTC_INFO.LEAP59 : Fld := ⟨0x002070, 18, 1⟩
abbrev F.PTP.UTC_INFO.LEAP61 : Fld := ⟨0x002070, 17, 1⟩
abbrev F.PTP.UTC_INFO.UTC_VALID : Fld := ⟨0x002070, 16, 1⟩
abbrev F.PTP.UTC_INFO.UTC_OFFSET : Fld := ⟨0x002070, 0, 16⟩
abbrev F.PTP.SYNC_RX_CNT.CNT : Fld := ⟨0x002074, 0, 32⟩
abbrev F.PTP.TC_FWD_CNT.CNT : Fld := ⟨0x002078, 0, 32⟩
abbrev F.PTP.FU_MISS_CNT.CNT : Fld := ⟨0x00207C, 0, 32⟩
abbrev F.PTP.PORT_SWITCH_CNT.CNT : Fld := ⟨0x002080, 0, 32⟩
abbrev F.PTP.PDELAY_RESP_CNT.B : Fld := ⟨0x002084, 16, 16⟩
abbrev F.PTP.PDELAY_RESP_CNT.A : Fld := ⟨0x002084, 0, 16⟩
abbrev F.PTP.CLOCK_ID_HI.ID_HI : Fld := ⟨0x002088, 0, 32⟩
abbrev F.PTP.CLOCK_ID_LO.ID_LO : Fld := ⟨0x00208C, 0, 32⟩

/-! Fields of TICK. -/
abbrev F.TICK.TICK_CTL.ALIGN_WALE : Fld := ⟨0x003040, 2, 1⟩
abbrev F.TICK.TICK_CTL.WAIT_TIME_SET : Fld := ⟨0x003040, 1, 1⟩
abbrev F.TICK.TICK_CTL.EN : Fld := ⟨0x003040, 0, 1⟩
abbrev F.TICK.TICK_PERIOD.PERIOD : Fld := ⟨0x003044, 0, 30⟩
abbrev F.TICK.TICK_PHASE.PHASE_NS : Fld := ⟨0x003048, 0, 30⟩
abbrev F.TICK.TICK_PHASE_FRAC.FRAC : Fld := ⟨0x00304C, 0, 6⟩
abbrev F.TICK.TICK_STS.TPS : Fld := ⟨0x003050, 8, 17⟩
abbrev F.TICK.TICK_STS.STATE : Fld := ⟨0x003050, 0, 3⟩
abbrev F.TICK.LAST_IDX_LO.IDX_LO : Fld := ⟨0x003054, 0, 32⟩
abbrev F.TICK.LAST_IDX_HI.IDX_HI : Fld := ⟨0x003058, 0, 32⟩
abbrev F.TICK.CATCHUP_REMAIN.REMAIN : Fld := ⟨0x00305C, 0, 32⟩
abbrev F.TICK.SKIP_CNT.CNT : Fld := ⟨0x003060, 0, 32⟩
abbrev F.TICK.WALE_CORR.CORR : Fld := ⟨0x003064, 0, 16⟩
abbrev F.TICK.TJ.TEMP : Fld := ⟨0x003068, 0, 16⟩
abbrev F.TICK.TRIM_CTL.FACTORY_EN : Fld := ⟨0x00306C, 1, 1⟩
abbrev F.TICK.TRIM_CTL.TEMP_TRACK : Fld := ⟨0x00306C, 0, 1⟩
abbrev F.TICK.TRIM_SAT_CNT.CNT : Fld := ⟨0x003070, 0, 32⟩
abbrev F.TICK.STROBE_FLT_GROUPS.GROUPS : Fld := ⟨0x003074, 0, 32⟩
abbrev F.TICK.TRIM_USER.TRIM_3 (n : Nat) : Fld := ⟨0x003200 + 0x4 * n, 24, 6⟩
abbrev F.TICK.TRIM_USER.TRIM_2 (n : Nat) : Fld := ⟨0x003200 + 0x4 * n, 16, 6⟩
abbrev F.TICK.TRIM_USER.TRIM_1 (n : Nat) : Fld := ⟨0x003200 + 0x4 * n, 8, 6⟩
abbrev F.TICK.TRIM_USER.TRIM_0 (n : Nat) : Fld := ⟨0x003200 + 0x4 * n, 0, 6⟩
abbrev F.TICK.TRIM_APPLIED.APPL_3 (n : Nat) : Fld := ⟨0x003400 + 0x4 * n, 24, 6⟩
abbrev F.TICK.TRIM_APPLIED.APPL_2 (n : Nat) : Fld := ⟨0x003400 + 0x4 * n, 16, 6⟩
abbrev F.TICK.TRIM_APPLIED.APPL_1 (n : Nat) : Fld := ⟨0x003400 + 0x4 * n, 8, 6⟩
abbrev F.TICK.TRIM_APPLIED.APPL_0 (n : Nat) : Fld := ⟨0x003400 + 0x4 * n, 0, 6⟩

/-! Fields of CH. -/
abbrev F.CH.FE_CFG.EXC_CHECK (c : Nat) : Fld := ⟨0x080040 + 0x1000 * (c / 16) + 0x80 * (c % 16), 17, 1⟩
abbrev F.CH.FE_CFG.OPEN_TEST (c : Nat) : Fld := ⟨0x080040 + 0x1000 * (c / 16) + 0x80 * (c % 16), 16, 1⟩
abbrev F.CH.FE_CFG.AR_EN (c : Nat) : Fld := ⟨0x080040 + 0x1000 * (c / 16) + 0x80 * (c % 16), 12, 1⟩
abbrev F.CH.FE_CFG.FB (c : Nat) : Fld := ⟨0x080040 + 0x1000 * (c / 16) + 0x80 * (c % 16), 8, 2⟩
abbrev F.CH.FE_CFG.GAIN (c : Nat) : Fld := ⟨0x080040 + 0x1000 * (c / 16) + 0x80 * (c % 16), 4, 3⟩
abbrev F.CH.FE_CFG.MODE (c : Nat) : Fld := ⟨0x080040 + 0x1000 * (c / 16) + 0x80 * (c % 16), 0, 3⟩
abbrev F.CH.AR_CTL.AR_DN_CNT (c : Nat) : Fld := ⟨0x080044 + 0x1000 * (c / 16) + 0x80 * (c % 16), 16, 8⟩
abbrev F.CH.AR_CTL.AR_DN (c : Nat) : Fld := ⟨0x080044 + 0x1000 * (c / 16) + 0x80 * (c % 16), 8, 8⟩
abbrev F.CH.AR_CTL.AR_UP (c : Nat) : Fld := ⟨0x080044 + 0x1000 * (c / 16) + 0x80 * (c % 16), 0, 8⟩
abbrev F.CH.DEC_F0.F (c : Nat) : Fld := ⟨0x080048 + 0x1000 * (c / 16) + 0x80 * (c % 16), 0, 24⟩
abbrev F.CH.DEC_F1.F (c : Nat) : Fld := ⟨0x08004C + 0x1000 * (c / 16) + 0x80 * (c % 16), 0, 24⟩
abbrev F.CH.DEC_F2.F (c : Nat) : Fld := ⟨0x080050 + 0x1000 * (c / 16) + 0x80 * (c % 16), 0, 24⟩
abbrev F.CH.DEC_F3.F (c : Nat) : Fld := ⟨0x080054 + 0x1000 * (c / 16) + 0x80 * (c % 16), 0, 24⟩
abbrev F.CH.FE_STS.AR_LOW (c : Nat) : Fld := ⟨0x080058 + 0x1000 * (c / 16) + 0x80 * (c % 16), 11, 1⟩
abbrev F.CH.FE_STS.SETTLING (c : Nat) : Fld := ⟨0x080058 + 0x1000 * (c / 16) + 0x80 * (c % 16), 10, 1⟩
abbrev F.CH.FE_STS.OVL (c : Nat) : Fld := ⟨0x080058 + 0x1000 * (c / 16) + 0x80 * (c % 16), 9, 1⟩
abbrev F.CH.FE_STS.EXC_FAIL (c : Nat) : Fld := ⟨0x080058 + 0x1000 * (c / 16) + 0x80 * (c % 16), 8, 1⟩
abbrev F.CH.FE_STS.CM_FAIL (c : Nat) : Fld := ⟨0x080058 + 0x1000 * (c / 16) + 0x80 * (c % 16), 7, 1⟩
abbrev F.CH.FE_STS.OPN_ACTIVE (c : Nat) : Fld := ⟨0x080058 + 0x1000 * (c / 16) + 0x80 * (c % 16), 6, 1⟩
abbrev F.CH.RANGE_SW_CNT.CNT (c : Nat) : Fld := ⟨0x08005C + 0x1000 * (c / 16) + 0x80 * (c % 16), 0, 32⟩
abbrev F.CH.OPN_CNT.CNT (c : Nat) : Fld := ⟨0x080060 + 0x1000 * (c / 16) + 0x80 * (c % 16), 0, 32⟩
abbrev F.CH.AVG_CFG.AVG_ALIGN (c : Nat) : Fld := ⟨0x080070 + 0x1000 * (c / 16) + 0x80 * (c % 16), 17, 1⟩
abbrev F.CH.AVG_CFG.RND (c : Nat) : Fld := ⟨0x080070 + 0x1000 * (c / 16) + 0x80 * (c % 16), 16, 1⟩
abbrev F.CH.AVG_CFG.SHIFT (c : Nat) : Fld := ⟨0x080070 + 0x1000 * (c / 16) + 0x80 * (c % 16), 8, 4⟩
abbrev F.CH.AVG_CFG.N_M1 (c : Nat) : Fld := ⟨0x080070 + 0x1000 * (c / 16) + 0x80 * (c % 16), 0, 8⟩
abbrev F.CH.RES_LO.VALUE (c : Nat) : Fld := ⟨0x080074 + 0x1000 * (c / 16) + 0x80 * (c % 16), 0, 32⟩
abbrev F.CH.RES_HI.UNPAIRED (c : Nat) : Fld := ⟨0x080078 + 0x1000 * (c / 16) + 0x80 * (c % 16), 31, 1⟩
abbrev F.CH.RES_HI.FRESH (c : Nat) : Fld := ⟨0x080078 + 0x1000 * (c / 16) + 0x80 * (c % 16), 16, 1⟩
abbrev F.CH.RES_HI.TICK_LO (c : Nat) : Fld := ⟨0x080078 + 0x1000 * (c / 16) + 0x80 * (c % 16), 8, 8⟩
abbrev F.CH.RES_HI.FLAGS (c : Nat) : Fld := ⟨0x080078 + 0x1000 * (c / 16) + 0x80 * (c % 16), 0, 8⟩
abbrev F.CH.AVG_STS.FILL (c : Nat) : Fld := ⟨0x08007C + 0x1000 * (c / 16) + 0x80 * (c % 16), 0, 9⟩
abbrev F.CH.SAT_CNT.CNT (c : Nat) : Fld := ⟨0x080080 + 0x1000 * (c / 16) + 0x80 * (c % 16), 0, 32⟩
abbrev F.CH.SHORT_CNT.CNT (c : Nat) : Fld := ⟨0x080084 + 0x1000 * (c / 16) + 0x80 * (c % 16), 0, 32⟩
abbrev F.CH.WIN_CNT.CNT (c : Nat) : Fld := ⟨0x080088 + 0x1000 * (c / 16) + 0x80 * (c % 16), 0, 32⟩
abbrev F.CH.RED_CFG.QSEL (c : Nat) : Fld := ⟨0x080090 + 0x1000 * (c / 16) + 0x80 * (c % 16), 26, 6⟩
abbrev F.CH.RED_CFG.RAIN_EN (c : Nat) : Fld := ⟨0x080090 + 0x1000 * (c / 16) + 0x80 * (c % 16), 23, 1⟩
abbrev F.CH.RED_CFG.STATS_EN (c : Nat) : Fld := ⟨0x080090 + 0x1000 * (c / 16) + 0x80 * (c % 16), 22, 1⟩
abbrev F.CH.RED_CFG.STREAM_EN (c : Nat) : Fld := ⟨0x080090 + 0x1000 * (c / 16) + 0x80 * (c % 16), 21, 1⟩
abbrev F.CH.RED_CFG.RTAP (c : Nat) : Fld := ⟨0x080090 + 0x1000 * (c / 16) + 0x80 * (c % 16), 20, 1⟩
abbrev F.CH.RED_CFG.FIR_EN (c : Nat) : Fld := ⟨0x080090 + 0x1000 * (c / 16) + 0x80 * (c % 16), 16, 1⟩
abbrev F.CH.RED_CFG.D_M1 (c : Nat) : Fld := ⟨0x080090 + 0x1000 * (c / 16) + 0x80 * (c % 16), 8, 5⟩
abbrev F.CH.RED_CFG.FIRSET (c : Nat) : Fld := ⟨0x080090 + 0x1000 * (c / 16) + 0x80 * (c % 16), 0, 4⟩
abbrev F.CH.STATS_CFG.S_ALIGN (c : Nat) : Fld := ⟨0x080094 + 0x1000 * (c / 16) + 0x80 * (c % 16), 24, 1⟩
abbrev F.CH.STATS_CFG.W_M1 (c : Nat) : Fld := ⟨0x080094 + 0x1000 * (c / 16) + 0x80 * (c % 16), 0, 24⟩
abbrev F.CH.STREAM_CFG.PKT_LEN (c : Nat) : Fld := ⟨0x080098 + 0x1000 * (c / 16) + 0x80 * (c % 16), 0, 9⟩
abbrev F.CH.FIR_STS.PHASE (c : Nat) : Fld := ⟨0x08009C + 0x1000 * (c / 16) + 0x80 * (c % 16), 16, 5⟩
abbrev F.CH.FIR_STS.FILL (c : Nat) : Fld := ⟨0x08009C + 0x1000 * (c / 16) + 0x80 * (c % 16), 0, 8⟩
abbrev F.CH.STATS_FILL.POS (c : Nat) : Fld := ⟨0x0800A0 + 0x1000 * (c / 16) + 0x80 * (c % 16), 0, 25⟩
abbrev F.CH.FIR_RESTART_CNT.CNT (c : Nat) : Fld := ⟨0x0800A4 + 0x1000 * (c / 16) + 0x80 * (c % 16), 0, 32⟩
abbrev F.CH.STATS_SHORT_CNT.CNT (c : Nat) : Fld := ⟨0x0800A8 + 0x1000 * (c / 16) + 0x80 * (c % 16), 0, 32⟩
abbrev F.CH.STREAM_PKT_CNT.CNT (c : Nat) : Fld := ⟨0x0800AC + 0x1000 * (c / 16) + 0x80 * (c % 16), 0, 32⟩
abbrev F.CH.FIR_SAT_CNT.CNT (c : Nat) : Fld := ⟨0x0800B0 + 0x1000 * (c / 16) + 0x80 * (c % 16), 0, 32⟩

/-! Fields of FE. -/
abbrev F.FE.EXC_CTL.SLEEP_OFF (i : Nat) : Fld := ⟨0x020040 + 0x1000 * i, 2, 1⟩
abbrev F.FE.EXC_CTL.REG (i : Nat) : Fld := ⟨0x020040 + 0x1000 * i, 1, 1⟩
abbrev F.FE.EXC_CTL.EXC_EN (i : Nat) : Fld := ⟨0x020040 + 0x1000 * i, 0, 1⟩
abbrev F.FE.EXC_SET.SET (i : Nat) : Fld := ⟨0x020044 + 0x1000 * i, 0, 16⟩
abbrev F.FE.EXC_MIN.MIN (i : Nat) : Fld := ⟨0x020048 + 0x1000 * i, 0, 16⟩
abbrev F.FE.EXC_SENSE.SENSE (i : Nat) : Fld := ⟨0x02004C + 0x1000 * i, 0, 16⟩
abbrev F.FE.EXC_DAC.CODE (i : Nat) : Fld := ⟨0x020050 + 0x1000 * i, 0, 16⟩
abbrev F.FE.BLANK_CTL.GUARD (i : Nat) : Fld := ⟨0x020054 + 0x1000 * i, 16, 10⟩
abbrev F.FE.BLANK_CTL.SEL (i : Nat) : Fld := ⟨0x020054 + 0x1000 * i, 0, 4⟩
abbrev F.FE.BLANK_START.NS32 (i : Nat) : Fld := ⟨0x020058 + 0x1000 * i, 0, 32⟩
abbrev F.FE.BLANK_END.NS32 (i : Nat) : Fld := ⟨0x02005C + 0x1000 * i, 0, 32⟩
abbrev F.FE.BLANK_CNT.CNT (i : Nat) : Fld := ⟨0x020060 + 0x1000 * i, 0, 32⟩
abbrev F.FE.BLANK_STS.IN_GUARD (i : Nat) : Fld := ⟨0x020064 + 0x1000 * i, 1, 1⟩
abbrev F.FE.BLANK_STS.ACTIVE (i : Nat) : Fld := ⟨0x020064 + 0x1000 * i, 0, 1⟩
abbrev F.FE.OPEN_STS.NOW (i : Nat) : Fld := ⟨0x020068 + 0x1000 * i, 16, 16⟩
abbrev F.FE.OPEN_STS.SEEN (i : Nat) : Fld := ⟨0x020068 + 0x1000 * i, 0, 16⟩
abbrev F.FE.OPEN_CLR.COUNT (i : Nat) : Fld := ⟨0x02006C + 0x1000 * i, 0, 8⟩
abbrev F.FE.QRESET.CH (i : Nat) : Fld := ⟨0x020070 + 0x1000 * i, 0, 16⟩

/-! Fields of SLICE. -/
abbrev F.SLICE.SLICE_CTL.ACT_BANK (i : Nat) : Fld := ⟨0x040040 + 0x1000 * i, 0, 1⟩
abbrev F.SLICE.SLICE_STS.ROLE (i : Nat) : Fld := ⟨0x040044 + 0x1000 * i, 30, 2⟩
abbrev F.SLICE.SLICE_STS.BANK (i : Nat) : Fld := ⟨0x040044 + 0x1000 * i, 29, 1⟩
abbrev F.SLICE.SLICE_STS.GROUP (i : Nat) : Fld := ⟨0x040044 + 0x1000 * i, 18, 5⟩
abbrev F.SLICE.SLICE_STS.L (i : Nat) : Fld := ⟨0x040044 + 0x1000 * i, 0, 17⟩
abbrev F.SLICE.BUDGET_ACT.MAX_DEMAND (i : Nat) : Fld := ⟨0x040048 + 0x1000 * i, 0, 25⟩
abbrev F.SLICE.STG_DEMAND.DEMAND (i : Nat) : Fld := ⟨0x04004C + 0x1000 * i, 0, 25⟩
abbrev F.SLICE.STG_CHECK.FAIL (i : Nat) : Fld := ⟨0x040050 + 0x1000 * i, 31, 1⟩
abbrev F.SLICE.STG_CHECK.SEG (i : Nat) : Fld := ⟨0x040050 + 0x1000 * i, 0, 17⟩
abbrev F.SLICE.CONV_CNT.CNT (i : Nat) : Fld := ⟨0x040054 + 0x1000 * i, 0, 32⟩
abbrev F.SLICE.CONV_TMAX.TMAX (i : Nat) : Fld := ⟨0x040058 + 0x1000 * i, 0, 10⟩
abbrev F.SLICE.PASS_ABORT_CNT.CNT (i : Nat) : Fld := ⟨0x04005C + 0x1000 * i, 0, 32⟩
abbrev F.SLICE.LIVE_CODE.CH (i : Nat) : Fld := ⟨0x040060 + 0x1000 * i, 28, 4⟩
abbrev F.SLICE.LIVE_CODE.CODE (i : Nat) : Fld := ⟨0x040060 + 0x1000 * i, 0, 24⟩
abbrev F.SLICE.LIVE_CNT.CNT (i : Nat) : Fld := ⟨0x040064 + 0x1000 * i, 0, 32⟩
abbrev F.SLICE.WEAVE0.OP (i n : Nat) : Fld := ⟨0x040400 + 0x1000 * i + 0x4 * n, 30, 2⟩
abbrev F.SLICE.WEAVE0.CH (i n : Nat) : Fld := ⟨0x040400 + 0x1000 * i + 0x4 * n, 26, 4⟩
abbrev F.SLICE.WEAVE0.REPEAT (i n : Nat) : Fld := ⟨0x040400 + 0x1000 * i + 0x4 * n, 18, 8⟩
abbrev F.SLICE.WEAVE0.DELAY (i n : Nat) : Fld := ⟨0x040400 + 0x1000 * i + 0x4 * n, 8, 10⟩
abbrev F.SLICE.WEAVE0.SRC (i n : Nat) : Fld := ⟨0x040400 + 0x1000 * i + 0x4 * n, 7, 1⟩
abbrev F.SLICE.WEAVE1.OP (i n : Nat) : Fld := ⟨0x040800 + 0x1000 * i + 0x4 * n, 30, 2⟩
abbrev F.SLICE.WEAVE1.CH (i n : Nat) : Fld := ⟨0x040800 + 0x1000 * i + 0x4 * n, 26, 4⟩
abbrev F.SLICE.WEAVE1.REPEAT (i n : Nat) : Fld := ⟨0x040800 + 0x1000 * i + 0x4 * n, 18, 8⟩
abbrev F.SLICE.WEAVE1.DELAY (i n : Nat) : Fld := ⟨0x040800 + 0x1000 * i + 0x4 * n, 8, 10⟩
abbrev F.SLICE.WEAVE1.SRC (i n : Nat) : Fld := ⟨0x040800 + 0x1000 * i + 0x4 * n, 7, 1⟩

/-! Fields of SENT. -/
abbrev F.SENT.SENT_ADC_STS.QUEUED : Fld := ⟨0x008040, 0, 5⟩
abbrev F.SENT.SENT_PEND.LATCHED : Fld := ⟨0x008044, 16, 16⟩
abbrev F.SENT.SENT_PEND.PEND : Fld := ⟨0x008044, 0, 16⟩
abbrev F.SENT.CFG.CH (n : Nat) : Fld := ⟨0x008100 + 0x20 * n, 16, 9⟩
abbrev F.SENT.CFG.WALE_LINE (n : Nat) : Fld := ⟨0x008100 + 0x20 * n, 9, 3⟩
abbrev F.SENT.CFG.WALE_EN (n : Nat) : Fld := ⟨0x008100 + 0x20 * n, 8, 1⟩
abbrev F.SENT.CFG.TRIG_EN (n : Nat) : Fld := ⟨0x008100 + 0x20 * n, 5, 1⟩
abbrev F.SENT.CFG.EDGE_LO (n : Nat) : Fld := ⟨0x008100 + 0x20 * n, 4, 1⟩
abbrev F.SENT.CFG.EDGE_HI (n : Nat) : Fld := ⟨0x008100 + 0x20 * n, 3, 1⟩
abbrev F.SENT.CFG.EN (n : Nat) : Fld := ⟨0x008100 + 0x20 * n, 0, 1⟩
abbrev F.SENT.THRESH.HI (n : Nat) : Fld := ⟨0x008104 + 0x20 * n, 16, 16⟩
abbrev F.SENT.THRESH.LO (n : Nat) : Fld := ⟨0x008104 + 0x20 * n, 0, 16⟩
abbrev F.SENT.HYST.HYST (n : Nat) : Fld := ⟨0x008108 + 0x20 * n, 0, 16⟩
abbrev F.SENT.EVT_NS32.NS32 (n : Nat) : Fld := ⟨0x00810C + 0x20 * n, 0, 32⟩
abbrev F.SENT.EVT_INFO.HOLD_DLY (n : Nat) : Fld := ⟨0x008110 + 0x20 * n, 16, 16⟩
abbrev F.SENT.EVT_INFO.FRAC (n : Nat) : Fld := ⟨0x008110 + 0x20 * n, 12, 4⟩
abbrev F.SENT.EVT_INFO.BAD (n : Nat) : Fld := ⟨0x008110 + 0x20 * n, 11, 1⟩
abbrev F.SENT.EVT_INFO.NEW (n : Nat) : Fld := ⟨0x008110 + 0x20 * n, 10, 1⟩
abbrev F.SENT.EVT_INFO.LATE_HOLD (n : Nat) : Fld := ⟨0x008110 + 0x20 * n, 9, 1⟩
abbrev F.SENT.EVT_INFO.DIR (n : Nat) : Fld := ⟨0x008110 + 0x20 * n, 8, 1⟩
abbrev F.SENT.EVT_VALUE.UNPAIRED (n : Nat) : Fld := ⟨0x008114 + 0x20 * n, 31, 1⟩
abbrev F.SENT.EVT_VALUE.VALUE (n : Nat) : Fld := ⟨0x008114 + 0x20 * n, 0, 24⟩
abbrev F.SENT.CROSS_CNT.CNT (n : Nat) : Fld := ⟨0x008118 + 0x20 * n, 0, 32⟩
abbrev F.SENT.OVERRUN.SENT_OVERRUN (n : Nat) : Fld := ⟨0x00811C + 0x20 * n, 0, 32⟩

/-! Fields of CAL. -/
abbrev F.CAL.CAL_CTL.WARMUP : Fld := ⟨0x007040, 16, 8⟩
abbrev F.CAL.CAL_CTL.M_LOG2 : Fld := ⟨0x007040, 8, 4⟩
abbrev F.CAL.CAL_CTL.AUTO_SWAP : Fld := ⟨0x007040, 2, 1⟩
abbrev F.CAL.CAL_CTL.STEP_MODE : Fld := ⟨0x007040, 1, 1⟩
abbrev F.CAL.CAL_CTL.EN : Fld := ⟨0x007040, 0, 1⟩
abbrev F.CAL.CAL_TOL.GAIN_TOL : Fld := ⟨0x007044, 16, 16⟩
abbrev F.CAL.CAL_TOL.OFS_TOL : Fld := ⟨0x007044, 0, 16⟩
abbrev F.CAL.WTOL.WTOL : Fld := ⟨0x007048, 0, 16⟩
abbrev F.CAL.QUAL_LIM.SWAP_LIMIT : Fld := ⟨0x00704C, 16, 16⟩
abbrev F.CAL.QUAL_LIM.QUAL_MAX : Fld := ⟨0x00704C, 0, 16⟩
abbrev F.CAL.SPREAD_MIN.SPREAD : Fld := ⟨0x007050, 0, 24⟩
abbrev F.CAL.SLEW_TICKS.TICKS : Fld := ⟨0x007054, 0, 20⟩
abbrev F.CAL.DWELL_LIM.STALE_LIM : Fld := ⟨0x007058, 16, 16⟩
abbrev F.CAL.DWELL_LIM.DWELL_MAX : Fld := ⟨0x007058, 0, 16⟩
abbrev F.CAL.NVM_PERIOD.PERIOD : Fld := ⟨0x00705C, 0, 24⟩
abbrev F.CAL.CAL_CMD.REINIT : Fld := ⟨0x007060, 2, 1⟩
abbrev F.CAL.CAL_CMD.SAVE_NOW : Fld := ⟨0x007060, 1, 1⟩
abbrev F.CAL.CAL_CMD.ROT_RESTART : Fld := ⟨0x007060, 0, 1⟩
abbrev F.CAL.CAL_STS.STATE : Fld := ⟨0x007064, 25, 3⟩
abbrev F.CAL.CAL_STS.ANCHOR_SINGLE : Fld := ⟨0x007064, 24, 1⟩
abbrev F.CAL.CAL_STS.DUTY : Fld := ⟨0x007064, 16, 6⟩
abbrev F.CAL.CAL_STS.PHASE : Fld := ⟨0x007064, 14, 2⟩
abbrev F.CAL.CAL_STS.CROSS : Fld := ⟨0x007064, 13, 1⟩
abbrev F.CAL.CAL_STS.GROUP : Fld := ⟨0x007064, 8, 5⟩
abbrev F.CAL.ROT_CNT.CNT : Fld := ⟨0x007068, 0, 32⟩
abbrev F.CAL.ROT_TIME.MS : Fld := ⟨0x00706C, 0, 32⟩
abbrev F.CAL.WIN_FILL.FILL : Fld := ⟨0x007070, 0, 21⟩
abbrev F.CAL.ANCHOR_RHO.RHO : Fld := ⟨0x007074, 0, 32⟩
abbrev F.CAL.ANCHOR_DELTA.DELTA : Fld := ⟨0x007078, 0, 32⟩
abbrev F.CAL.ACCEPT_CNT.CNT : Fld := ⟨0x00707C, 0, 32⟩
abbrev F.CAL.REJ_QUAL_CNT.CNT : Fld := ⟨0x007080, 0, 32⟩
abbrev F.CAL.REJ_AGREE_CNT.CNT : Fld := ⟨0x007084, 0, 32⟩
abbrev F.CAL.DEFER_CNT.CNT : Fld := ⟨0x007088, 0, 32⟩
abbrev F.CAL.ABANDON_CNT.CNT : Fld := ⟨0x00708C, 0, 32⟩
abbrev F.CAL.SWAP_STS.SWAP_CNT : Fld := ⟨0x007090, 0, 2⟩
abbrev F.CAL.OFS_APPL.OFS (n : Nat) : Fld := ⟨0x007200 + 0x40 * n, 0, 32⟩
abbrev F.CAL.OFS_TGT.OFS (n : Nat) : Fld := ⟨0x007204 + 0x40 * n, 0, 32⟩
abbrev F.CAL.GAIN_APPL.GAIN (n : Nat) : Fld := ⟨0x007208 + 0x40 * n, 0, 32⟩
abbrev F.CAL.GAIN_TGT.GAIN (n : Nat) : Fld := ⟨0x00720C + 0x40 * n, 0, 32⟩
abbrev F.CAL.W_APPL_0.W23 (n : Nat) : Fld := ⟨0x007210 + 0x40 * n, 16, 16⟩
abbrev F.CAL.W_APPL_0.W22 (n : Nat) : Fld := ⟨0x007210 + 0x40 * n, 0, 16⟩
abbrev F.CAL.W_APPL_1.W21 (n : Nat) : Fld := ⟨0x007214 + 0x40 * n, 16, 16⟩
abbrev F.CAL.W_APPL_1.W20 (n : Nat) : Fld := ⟨0x007214 + 0x40 * n, 0, 16⟩
abbrev F.CAL.W_APPL_2.W19 (n : Nat) : Fld := ⟨0x007218 + 0x40 * n, 16, 16⟩
abbrev F.CAL.W_APPL_2.W18 (n : Nat) : Fld := ⟨0x007218 + 0x40 * n, 0, 16⟩
abbrev F.CAL.W_APPL_3.W17 (n : Nat) : Fld := ⟨0x00721C + 0x40 * n, 16, 16⟩
abbrev F.CAL.W_APPL_3.W16 (n : Nat) : Fld := ⟨0x00721C + 0x40 * n, 0, 16⟩
abbrev F.CAL.W_TGT_0.W23 (n : Nat) : Fld := ⟨0x007220 + 0x40 * n, 16, 16⟩
abbrev F.CAL.W_TGT_0.W22 (n : Nat) : Fld := ⟨0x007220 + 0x40 * n, 0, 16⟩
abbrev F.CAL.W_TGT_1.W21 (n : Nat) : Fld := ⟨0x007224 + 0x40 * n, 16, 16⟩
abbrev F.CAL.W_TGT_1.W20 (n : Nat) : Fld := ⟨0x007224 + 0x40 * n, 0, 16⟩
abbrev F.CAL.W_TGT_2.W19 (n : Nat) : Fld := ⟨0x007228 + 0x40 * n, 16, 16⟩
abbrev F.CAL.W_TGT_2.W18 (n : Nat) : Fld := ⟨0x007228 + 0x40 * n, 0, 16⟩
abbrev F.CAL.W_TGT_3.W17 (n : Nat) : Fld := ⟨0x00722C + 0x40 * n, 16, 16⟩
abbrev F.CAL.W_TGT_3.W16 (n : Nat) : Fld := ⟨0x00722C + 0x40 * n, 0, 16⟩
abbrev F.CAL.QUAL.Q2 (n : Nat) : Fld := ⟨0x007230 + 0x40 * n, 16, 16⟩
abbrev F.CAL.QUAL.Q1 (n : Nat) : Fld := ⟨0x007230 + 0x40 * n, 0, 16⟩
abbrev F.CAL.EST_STS.DEF_BITS (n : Nat) : Fld := ⟨0x007234 + 0x40 * n, 24, 8⟩
abbrev F.CAL.EST_STS.GAIN_DEF (n : Nat) : Fld := ⟨0x007234 + 0x40 * n, 23, 1⟩
abbrev F.CAL.EST_STS.SLEWING (n : Nat) : Fld := ⟨0x007234 + 0x40 * n, 22, 1⟩
abbrev F.CAL.EST_STS.STALE (n : Nat) : Fld := ⟨0x007234 + 0x40 * n, 21, 1⟩
abbrev F.CAL.EST_STS.SELFTEST_FAIL (n : Nat) : Fld := ⟨0x007234 + 0x40 * n, 20, 1⟩
abbrev F.CAL.EST_STS.LAST_RESULT (n : Nat) : Fld := ⟨0x007234 + 0x40 * n, 16, 4⟩
abbrev F.CAL.EST_STS.DEF_AGE (n : Nat) : Fld := ⟨0x007234 + 0x40 * n, 0, 16⟩
abbrev F.CAL.SLEW_REMAIN.TICKS (n : Nat) : Fld := ⟨0x007238 + 0x40 * n, 0, 20⟩
abbrev F.CAL.GAIN_EST.GAMMA (n : Nat) : Fld := ⟨0x00723C + 0x40 * n, 0, 32⟩

/-! Fields of NVM. -/
abbrev F.NVM.CALCOPY_STS.A_VALID : Fld := ⟨0x005080, 31, 1⟩
abbrev F.NVM.CALCOPY_STS.B_VALID : Fld := ⟨0x005080, 30, 1⟩
abbrev F.NVM.CALCOPY_STS.NEWER : Fld := ⟨0x005080, 29, 1⟩
abbrev F.NVM.CALCOPY_STS.SAVING : Fld := ⟨0x005080, 28, 1⟩
abbrev F.NVM.CAL_GEN_A.GEN : Fld := ⟨0x005084, 0, 32⟩
abbrev F.NVM.CAL_GEN_B.GEN : Fld := ⟨0x005088, 0, 32⟩
abbrev F.NVM.CAL_CRC_A.CRC : Fld := ⟨0x00508C, 0, 32⟩
abbrev F.NVM.CAL_CRC_B.CRC : Fld := ⟨0x005090, 0, 32⟩
abbrev F.NVM.CAL_SAVE_CNT.CNT : Fld := ⟨0x005094, 0, 32⟩
abbrev F.NVM.CAL_LAST_SAVE.SEC : Fld := ⟨0x005098, 0, 32⟩
abbrev F.NVM.BOOT_STS.STEP : Fld := ⟨0x005040, 28, 4⟩
abbrev F.NVM.BOOT_STS.DONE : Fld := ⟨0x005040, 6, 1⟩
abbrev F.NVM.BOOT_STS.DEFAULTS : Fld := ⟨0x005040, 5, 1⟩
abbrev F.NVM.BOOT_STS.COPY : Fld := ⟨0x005040, 4, 1⟩
abbrev F.NVM.BOOT_STS.LOADED : Fld := ⟨0x005040, 3, 1⟩
abbrev F.NVM.BOOT_STS.SPEED_OK : Fld := ⟨0x005040, 2, 1⟩
abbrev F.NVM.BOOT_STS.BIST_OK : Fld := ⟨0x005040, 1, 1⟩
abbrev F.NVM.BOOT_STS.FACTORY_OK : Fld := ⟨0x005040, 0, 1⟩
abbrev F.NVM.BOOT_TIME.US : Fld := ⟨0x005044, 0, 32⟩
abbrev F.NVM.BIST_STS.PAIRBUF : Fld := ⟨0x005048, 24, 1⟩
abbrev F.NVM.BIST_STS.STAGE : Fld := ⟨0x005048, 23, 1⟩
abbrev F.NVM.BIST_STS.FWD : Fld := ⟨0x005048, 22, 1⟩
abbrev F.NVM.BIST_STS.RIM : Fld := ⟨0x005048, 21, 1⟩
abbrev F.NVM.BIST_STS.QMEM : Fld := ⟨0x005048, 20, 1⟩
abbrev F.NVM.BIST_STS.CAPBANK : Fld := ⟨0x005048, 0, 20⟩
abbrev F.NVM.SLATH_STS.A_VALID : Fld := ⟨0x00504C, 31, 1⟩
abbrev F.NVM.SLATH_STS.B_VALID : Fld := ⟨0x00504C, 30, 1⟩
abbrev F.NVM.SLATH_STS.NEWER : Fld := ⟨0x00504C, 29, 1⟩
abbrev F.NVM.SLATH_STS.SAVING : Fld := ⟨0x00504C, 28, 1⟩
abbrev F.NVM.SLATH_GEN_A.GEN : Fld := ⟨0x005050, 0, 32⟩
abbrev F.NVM.SLATH_GEN_B.GEN : Fld := ⟨0x005054, 0, 32⟩
abbrev F.NVM.SLATH_CRC_A.CRC : Fld := ⟨0x005058, 0, 32⟩
abbrev F.NVM.SLATH_CRC_B.CRC : Fld := ⟨0x00505C, 0, 32⟩
abbrev F.NVM.SLATH_CMD.SAVE : Fld := ⟨0x005060, 0, 1⟩
abbrev F.NVM.SLATH_SAVE_CNT.CNT : Fld := ⟨0x005064, 0, 32⟩
abbrev F.NVM.SLATH_LAST_SAVE.SEC : Fld := ⟨0x005068, 0, 32⟩
abbrev F.NVM.SLATH_LEN.WORDS : Fld := ⟨0x00506C, 0, 16⟩
abbrev F.NVM.PWR_CTL.WAKE_RING_ID : Fld := ⟨0x0050A0, 24, 8⟩
abbrev F.NVM.PWR_CTL.WAKE_WALE : Fld := ⟨0x0050A0, 16, 8⟩
abbrev F.NVM.PWR_CTL.WAKE_RING_EN : Fld := ⟨0x0050A0, 2, 1⟩
abbrev F.NVM.PWR_CTL.WAKE_AT_EN : Fld := ⟨0x0050A0, 1, 1⟩
abbrev F.NVM.PWR_CMD.WAKE : Fld := ⟨0x0050A4, 1, 1⟩
abbrev F.NVM.PWR_CMD.SLEEP : Fld := ⟨0x0050A4, 0, 1⟩
abbrev F.NVM.PWR_STS.IGNORED : Fld := ⟨0x0050A8, 8, 1⟩
abbrev F.NVM.PWR_STS.WAKE_CAUSE : Fld := ⟨0x0050A8, 4, 4⟩
abbrev F.NVM.PWR_STS.STATE : Fld := ⟨0x0050A8, 0, 3⟩
abbrev F.NVM.WAKE_AT_SEC_LO.SEC_LO : Fld := ⟨0x0050AC, 0, 32⟩
abbrev F.NVM.WAKE_AT_SEC_HI.SEC_HI : Fld := ⟨0x0050B0, 0, 16⟩
abbrev F.NVM.SLEEP_CNT.CNT : Fld := ⟨0x0050B4, 0, 32⟩
abbrev F.NVM.SLEEP_TIME.SEC : Fld := ⟨0x0050B8, 0, 32⟩

/-! Fields of RED. -/
abbrev F.RED.STREAM_CTL.MAX_AGE : Fld := ⟨0x009040, 0, 16⟩
abbrev F.RED.MAC_DEMAND.KMAC : Fld := ⟨0x009044, 0, 32⟩
abbrev F.RED.MAC_STG.KMAC : Fld := ⟨0x009048, 0, 32⟩
abbrev F.RED.MAC_CAP.KMAC : Fld := ⟨0x00904C, 0, 32⟩
abbrev F.RED.MAC_REFUSE_CNT.CNT : Fld := ⟨0x009050, 0, 32⟩
abbrev F.RED.STREAM_PKTS.CNT : Fld := ⟨0x009054, 0, 32⟩
abbrev F.RED.STATS_PKTS.CNT : Fld := ⟨0x009058, 0, 32⟩
abbrev F.RED.RAIN_PKTS.CNT : Fld := ⟨0x00905C, 0, 32⟩
abbrev F.RED.PKT_REFUSED.CNT : Fld := ⟨0x009060, 0, 32⟩

/-! Fields of FIRSET. -/
abbrev F.FIRSET.FIRSET_CTL.ACT_BANK (i : Nat) : Fld := ⟨0x0A0040 + 0x1000 * i, 0, 1⟩
abbrev F.FIRSET.TAPS.TAPS1 (i : Nat) : Fld := ⟨0x0A0044 + 0x1000 * i, 16, 8⟩
abbrev F.FIRSET.TAPS.TAPS0 (i : Nat) : Fld := ⟨0x0A0044 + 0x1000 * i, 0, 8⟩
abbrev F.FIRSET.DC_GAIN0.SUM (i : Nat) : Fld := ⟨0x0A0048 + 0x1000 * i, 0, 32⟩
abbrev F.FIRSET.DC_GAIN1.SUM (i : Nat) : Fld := ⟨0x0A004C + 0x1000 * i, 0, 32⟩
abbrev F.FIRSET.USERS.CH (i : Nat) : Fld := ⟨0x0A0050 + 0x1000 * i, 0, 10⟩
abbrev F.FIRSET.COEF0.COEF (i n : Nat) : Fld := ⟨0x0A0400 + 0x1000 * i + 0x4 * n, 0, 24⟩
abbrev F.FIRSET.COEF1.COEF (i n : Nat) : Fld := ⟨0x0A0800 + 0x1000 * i + 0x4 * n, 0, 24⟩

/-! Fields of RAIN. -/
abbrev F.RAIN.DUMP_NOW.CH (i : Nat) : Fld := ⟨0x0B0040 + 0x1000 * i, 0, 16⟩
abbrev F.RAIN.OVF_STS.CH (i : Nat) : Fld := ⟨0x0B0044 + 0x1000 * i, 0, 16⟩
abbrev F.RAIN.RAIN_CFG.CLEAR_ON_DUMP (c : Nat) : Fld := ⟨0x0B0100 + 0x1000 * (c / 16) + 0x20 * (c % 16), 10, 1⟩
abbrev F.RAIN.RAIN_CFG.RES_COUNT (c : Nat) : Fld := ⟨0x0B0100 + 0x1000 * (c / 16) + 0x20 * (c % 16), 9, 1⟩
abbrev F.RAIN.RAIN_CFG.BIN_MODE (c : Nat) : Fld := ⟨0x0B0100 + 0x1000 * (c / 16) + 0x20 * (c % 16), 8, 1⟩
abbrev F.RAIN.RAIN_CFG.BIN_SHIFT (c : Nat) : Fld := ⟨0x0B0100 + 0x1000 * (c / 16) + 0x20 * (c % 16), 0, 5⟩
abbrev F.RAIN.HYST.HYST (c : Nat) : Fld := ⟨0x0B0104 + 0x1000 * (c / 16) + 0x20 * (c % 16), 0, 32⟩
abbrev F.RAIN.DUMP_PERIOD.PERIOD (c : Nat) : Fld := ⟨0x0B0108 + 0x1000 * (c / 16) + 0x20 * (c % 16), 0, 24⟩
abbrev F.RAIN.RAIN_STS.DIR (c : Nat) : Fld := ⟨0x0B010C + 0x1000 * (c / 16) + 0x20 * (c % 16), 16, 2⟩
abbrev F.RAIN.RAIN_STS.DEPTH (c : Nat) : Fld := ⟨0x0B010C + 0x1000 * (c / 16) + 0x20 * (c % 16), 0, 7⟩
abbrev F.RAIN.RES_OVF_CNT.CNT (c : Nat) : Fld := ⟨0x0B0110 + 0x1000 * (c / 16) + 0x20 * (c % 16), 0, 32⟩
abbrev F.RAIN.HALF_CNT.CNT (c : Nat) : Fld := ⟨0x0B0114 + 0x1000 * (c / 16) + 0x20 * (c % 16), 0, 32⟩
abbrev F.RAIN.LAST_DUMP.IDX (c : Nat) : Fld := ⟨0x0B0118 + 0x1000 * (c / 16) + 0x20 * (c % 16), 0, 32⟩
abbrev F.RAIN.BIN.CNT (c b : Nat) : Fld := ⟨0x0B0800 + 0x1000 * (c / 16) + 0x80 * (c % 16) + 4 * b, 0, 32⟩

/-! Fields of TRIG. -/
abbrev F.TRIG.TRIG_CTL.SCRUB_EN : Fld := ⟨0x00A040, 2, 1⟩
abbrev F.TRIG.TRIG_CTL.WALE_RX_EN : Fld := ⟨0x00A040, 1, 1⟩
abbrev F.TRIG.TRIG_CTL.RING_RX_EN : Fld := ⟨0x00A040, 0, 1⟩
abbrev F.TRIG.CAP_DEMAND.KWPS : Fld := ⟨0x00A044, 0, 32⟩
abbrev F.TRIG.CAP_CAP.KWPS : Fld := ⟨0x00A048, 0, 32⟩
abbrev F.TRIG.WR_LEVEL.W3 : Fld := ⟨0x00A04C, 24, 7⟩
abbrev F.TRIG.WR_LEVEL.W2 : Fld := ⟨0x00A04C, 16, 7⟩
abbrev F.TRIG.WR_LEVEL.W1 : Fld := ⟨0x00A04C, 8, 7⟩
abbrev F.TRIG.WR_LEVEL.W0 : Fld := ⟨0x00A04C, 0, 7⟩
abbrev F.TRIG.WR_PEAK.W3 : Fld := ⟨0x00A050, 24, 7⟩
abbrev F.TRIG.WR_PEAK.W2 : Fld := ⟨0x00A050, 16, 7⟩
abbrev F.TRIG.WR_PEAK.W1 : Fld := ⟨0x00A050, 8, 7⟩
abbrev F.TRIG.WR_PEAK.W0 : Fld := ⟨0x00A050, 0, 7⟩
abbrev F.TRIG.RD_STS.RD1_BUSY : Fld := ⟨0x00A054, 15, 1⟩
abbrev F.TRIG.RD_STS.RD0_BUSY : Fld := ⟨0x00A054, 7, 1⟩
abbrev F.TRIG.RD_CTX.RD1_CTX : Fld := ⟨0x00A058, 16, 8⟩
abbrev F.TRIG.RD_CTX.RD0_CTX : Fld := ⟨0x00A058, 0, 8⟩
abbrev F.TRIG.RO_WAIT.CNT : Fld := ⟨0x00A05C, 0, 9⟩
abbrev F.TRIG.RATE_STEP_CNT.CNT : Fld := ⟨0x00A060, 0, 32⟩
abbrev F.TRIG.ARM_REFUSE.CAUSE : Fld := ⟨0x00A064, 28, 4⟩
abbrev F.TRIG.ARM_REFUSE.CTX : Fld := ⟨0x00A064, 16, 8⟩
abbrev F.TRIG.ARM_REFUSE.CNT : Fld := ⟨0x00A064, 0, 16⟩
abbrev F.TRIG.RRX_INFO.ORIGIN : Fld := ⟨0x00A068, 16, 16⟩
abbrev F.TRIG.RRX_INFO.ID : Fld := ⟨0x00A068, 0, 8⟩
abbrev F.TRIG.RRX_T0_SEC_HI.SUB : Fld := ⟨0x00A06C, 16, 3⟩
abbrev F.TRIG.RRX_T0_SEC_HI.SEC_HI : Fld := ⟨0x00A06C, 0, 16⟩
abbrev F.TRIG.RRX_T0_SEC_LO.SEC_LO : Fld := ⟨0x00A070, 0, 32⟩
abbrev F.TRIG.RRX_T0_NS.NS : Fld := ⟨0x00A074, 0, 30⟩
abbrev F.TRIG.RRX_ARRIVAL.NS32 : Fld := ⟨0x00A078, 0, 32⟩
abbrev F.TRIG.RING_RX_CNT.CNT : Fld := ⟨0x00A07C, 0, 32⟩
abbrev F.TRIG.RING_TX_CNT.CNT : Fld := ⟨0x00A080, 0, 32⟩
abbrev F.TRIG.RTX_ID.ID : Fld := ⟨0x00A084, 0, 8⟩
abbrev F.TRIG.RTX_T0_SEC_HI.SUB : Fld := ⟨0x00A088, 16, 3⟩
abbrev F.TRIG.RTX_T0_SEC_HI.SEC_HI : Fld := ⟨0x00A088, 0, 16⟩
abbrev F.TRIG.RTX_T0_SEC_LO.SEC_LO : Fld := ⟨0x00A08C, 0, 32⟩
abbrev F.TRIG.RTX_T0_NS.NS : Fld := ⟨0x00A090, 0, 30⟩
abbrev F.TRIG.RTX_CMD.NOW : Fld := ⟨0x00A094, 1, 1⟩
abbrev F.TRIG.RTX_CMD.SEND : Fld := ⟨0x00A094, 0, 1⟩
abbrev F.TRIG.ECC_SGL_CNT.CNT : Fld := ⟨0x00A098, 0, 32⟩
abbrev F.TRIG.ECC_DBL_CNT.CNT : Fld := ⟨0x00A09C, 0, 32⟩

/-! Fields of CTX. -/
abbrev F.CTX.CTX_CFG.RING_TX_EN (i : Nat) : Fld := ⟨0x100040 + 0x1000 * i, 31, 1⟩
abbrev F.CTX.CTX_CFG.WALE_TX_EN (i : Nat) : Fld := ⟨0x100040 + 0x1000 * i, 30, 1⟩
abbrev F.CTX.CTX_CFG.WALE_TX_LINE (i : Nat) : Fld := ⟨0x100040 + 0x1000 * i, 27, 3⟩
abbrev F.CTX.CTX_CFG.RO_Q (i : Nat) : Fld := ⟨0x100040 + 0x1000 * i, 20, 6⟩
abbrev F.CTX.CTX_CFG.RO_MODE (i : Nat) : Fld := ⟨0x100040 + 0x1000 * i, 19, 1⟩
abbrev F.CTX.CTX_CFG.MEAS_SET (i : Nat) : Fld := ⟨0x100040 + 0x1000 * i, 16, 3⟩
abbrev F.CTX.CTX_CFG.RR_PRIO (i : Nat) : Fld := ⟨0x100040 + 0x1000 * i, 13, 3⟩
abbrev F.CTX.CTX_CFG.HOLDOFF_MODE (i : Nat) : Fld := ⟨0x100040 + 0x1000 * i, 11, 2⟩
abbrev F.CTX.CTX_CFG.REARM_MODE (i : Nat) : Fld := ⟨0x100040 + 0x1000 * i, 10, 1⟩
abbrev F.CTX.CTX_CFG.TAP (i : Nat) : Fld := ⟨0x100040 + 0x1000 * i, 0, 1⟩
abbrev F.CTX.ARM.PRE_STRICT (i : Nat) : Fld := ⟨0x100044 + 0x1000 * i, 31, 1⟩
abbrev F.CTX.ARM.PRE (i : Nat) : Fld := ⟨0x100044 + 0x1000 * i, 0, 20⟩
abbrev F.CTX.POST.POST (i : Nat) : Fld := ⟨0x100048 + 0x1000 * i, 0, 20⟩
abbrev F.CTX.REGION.BASE (i : Nat) : Fld := ⟨0x10004C + 0x1000 * i, 16, 11⟩
abbrev F.CTX.REGION.LEN (i : Nat) : Fld := ⟨0x10004C + 0x1000 * i, 0, 11⟩
abbrev F.CTX.TRIG_SRC.SENT_MASK (i : Nat) : Fld := ⟨0x100050 + 0x1000 * i, 16, 16⟩
abbrev F.CTX.TRIG_SRC.EN (i : Nat) : Fld := ⟨0x100050 + 0x1000 * i, 0, 7⟩
abbrev F.CTX.TRIG_LINK.CHAIN_SRC (i : Nat) : Fld := ⟨0x100054 + 0x1000 * i, 24, 8⟩
abbrev F.CTX.TRIG_LINK.RING_TX_ID (i : Nat) : Fld := ⟨0x100054 + 0x1000 * i, 16, 8⟩
abbrev F.CTX.TRIG_LINK.RING_RX_ID (i : Nat) : Fld := ⟨0x100054 + 0x1000 * i, 8, 8⟩
abbrev F.CTX.TRIG_LINK.WALE_RX (i : Nat) : Fld := ⟨0x100054 + 0x1000 * i, 0, 8⟩
abbrev F.CTX.LVL_CFG.LVL_CH (i : Nat) : Fld := ⟨0x100058 + 0x1000 * i, 23, 9⟩
abbrev F.CTX.LVL_CFG.FALL (i : Nat) : Fld := ⟨0x100058 + 0x1000 * i, 1, 1⟩
abbrev F.CTX.LVL_CFG.RISE (i : Nat) : Fld := ⟨0x100058 + 0x1000 * i, 0, 1⟩
abbrev F.CTX.LVL_VALUE.LEVEL (i : Nat) : Fld := ⟨0x10005C + 0x1000 * i, 0, 32⟩
abbrev F.CTX.LVL_HYST.HYST (i : Nat) : Fld := ⟨0x100060 + 0x1000 * i, 0, 32⟩
abbrev F.CTX.TIMER_PERIOD.MS (i : Nat) : Fld := ⟨0x100064 + 0x1000 * i, 0, 27⟩
abbrev F.CTX.TIMER_PHASE.MS (i : Nat) : Fld := ⟨0x100068 + 0x1000 * i, 0, 27⟩
abbrev F.CTX.HOLDOFF_NS.NS (i : Nat) : Fld := ⟨0x10006C + 0x1000 * i, 0, 32⟩
abbrev F.CTX.HOLDOFF_CNT.CNT (i : Nat) : Fld := ⟨0x100070 + 0x1000 * i, 0, 16⟩
abbrev F.CTX.MEAS_HYST.HYST (i : Nat) : Fld := ⟨0x100074 + 0x1000 * i, 0, 32⟩
abbrev F.CTX.CMD.RELEASE (i : Nat) : Fld := ⟨0x100078 + 0x1000 * i, 3, 1⟩
abbrev F.CTX.CMD.SW_TRIG (i : Nat) : Fld := ⟨0x100078 + 0x1000 * i, 2, 1⟩
abbrev F.CTX.CMD.ABORT (i : Nat) : Fld := ⟨0x100078 + 0x1000 * i, 1, 1⟩
abbrev F.CTX.CMD.ARM (i : Nat) : Fld := ⟨0x100078 + 0x1000 * i, 0, 1⟩
abbrev F.CTX.CTX_STS.STATE (i : Nat) : Fld := ⟨0x10007C + 0x1000 * i, 29, 3⟩
abbrev F.CTX.CTX_STS.DIV_LOG2 (i : Nat) : Fld := ⟨0x10007C + 0x1000 * i, 26, 3⟩
abbrev F.CTX.CTX_STS.RATE_RED (i : Nat) : Fld := ⟨0x10007C + 0x1000 * i, 25, 1⟩
abbrev F.CTX.CTX_STS.POST_CLAMP (i : Nat) : Fld := ⟨0x10007C + 0x1000 * i, 24, 1⟩
abbrev F.CTX.CTX_STS.EXCL (i : Nat) : Fld := ⟨0x10007C + 0x1000 * i, 23, 1⟩
abbrev F.CTX.CTX_STS.C (i : Nat) : Fld := ⟨0x10007C + 0x1000 * i, 0, 21⟩
abbrev F.CTX.ARM_INFO.K (i : Nat) : Fld := ⟨0x100080 + 0x1000 * i, 20, 10⟩
abbrev F.CTX.ARM_INFO.POST_EFF (i : Nat) : Fld := ⟨0x100080 + 0x1000 * i, 0, 20⟩
abbrev F.CTX.REC_NO.NUM (i : Nat) : Fld := ⟨0x100084 + 0x1000 * i, 0, 32⟩
abbrev F.CTX.TRIG_IGNORED.CNT (i : Nat) : Fld := ⟨0x100088 + 0x1000 * i, 0, 32⟩
abbrev F.CTX.PRE_STRICT_CNT.CNT (i : Nat) : Fld := ⟨0x10008C + 0x1000 * i, 0, 32⟩
abbrev F.CTX.TOO_LATE_CNT.CNT (i : Nat) : Fld := ⟨0x100090 + 0x1000 * i, 0, 32⟩
abbrev F.CTX.BADTIME_CNT.CNT (i : Nat) : Fld := ⟨0x100094 + 0x1000 * i, 0, 32⟩
abbrev F.CTX.RECORD_CNT.CNT (i : Nat) : Fld := ⟨0x100098 + 0x1000 * i, 0, 32⟩
abbrev F.CTX.ECC_LOST.CNT (i : Nat) : Fld := ⟨0x10009C + 0x1000 * i, 0, 32⟩
abbrev F.CTX.CHSET.CH (i n : Nat) : Fld := ⟨0x1000A0 + 0x1000 * i + 0x4 * n, 0, 32⟩
abbrev F.CTX.REC_INFO.SRC_ID (i : Nat) : Fld := ⟨0x100100 + 0x1000 * i, 16, 16⟩
abbrev F.CTX.REC_INFO.SRC (i : Nat) : Fld := ⟨0x100100 + 0x1000 * i, 13, 3⟩
abbrev F.CTX.REC_INFO.SUB (i : Nat) : Fld := ⟨0x100100 + 0x1000 * i, 10, 3⟩
abbrev F.CTX.REC_FLAGS.FLAGS (i : Nat) : Fld := ⟨0x100104 + 0x1000 * i, 0, 32⟩
abbrev F.CTX.REC_T_SEC_HI.SEC_HI (i : Nat) : Fld := ⟨0x100108 + 0x1000 * i, 0, 16⟩
abbrev F.CTX.REC_T_SEC_LO.SEC_LO (i : Nat) : Fld := ⟨0x10010C + 0x1000 * i, 0, 32⟩
abbrev F.CTX.REC_T_NS.NS (i : Nat) : Fld := ⟨0x100110 + 0x1000 * i, 0, 30⟩
abbrev F.CTX.REC_TFRAC_LO.FRAC (i : Nat) : Fld := ⟨0x100114 + 0x1000 * i, 0, 32⟩
abbrev F.CTX.REC_TFRAC_HI.FRAC32 (i : Nat) : Fld := ⟨0x100118 + 0x1000 * i, 0, 1⟩
abbrev F.CTX.REC_TIDX_LO.IDX_LO (i : Nat) : Fld := ⟨0x10011C + 0x1000 * i, 0, 32⟩
abbrev F.CTX.REC_TIDX_HI.IDX_HI (i : Nat) : Fld := ⟨0x100120 + 0x1000 * i, 0, 32⟩
abbrev F.CTX.REC_ORIGIN.HUB (i : Nat) : Fld := ⟨0x100124 + 0x1000 * i, 0, 16⟩
abbrev F.CTX.REC_NUM.NUM (i : Nat) : Fld := ⟨0x100128 + 0x1000 * i, 0, 32⟩
abbrev F.CTX.MEMB_SEL.K (i : Nat) : Fld := ⟨0x100200 + 0x1000 * i, 0, 9⟩
abbrev F.CTX.MEMB_INFO.CH (i : Nat) : Fld := ⟨0x100204 + 0x1000 * i, 23, 9⟩
abbrev F.CTX.MEMB_INFO.LATE (i : Nat) : Fld := ⟨0x100204 + 0x1000 * i, 22, 1⟩
abbrev F.CTX.MEMB_INFO.SHORT_PRE (i : Nat) : Fld := ⟨0x100204 + 0x1000 * i, 21, 1⟩
abbrev F.CTX.MEMB_INFO.MEAS_LATE (i : Nat) : Fld := ⟨0x100204 + 0x1000 * i, 20, 1⟩
abbrev F.CTX.MEMB_FIRST.SLOT (i : Nat) : Fld := ⟨0x100208 + 0x1000 * i, 0, 21⟩
abbrev F.CTX.MEMB_COUNT.SLOTS (i : Nat) : Fld := ⟨0x10020C + 0x1000 * i, 0, 21⟩
abbrev F.CTX.MEMB_PRE.PRE_ACTUAL (i : Nat) : Fld := ⟨0x100210 + 0x1000 * i, 0, 20⟩
abbrev F.CTX.MEMB_POST.POST_ACTUAL (i : Nat) : Fld := ⟨0x100214 + 0x1000 * i, 0, 20⟩
abbrev F.CTX.MEMB_FIRST_TICK.IDX (i : Nat) : Fld := ⟨0x100218 + 0x1000 * i, 0, 32⟩
abbrev F.CTX.MEMB_TRIG_TICK.IDX (i : Nat) : Fld := ⟨0x10021C + 0x1000 * i, 0, 32⟩
abbrev F.CTX.MEAS_MAX.VALUE (i : Nat) : Fld := ⟨0x100220 + 0x1000 * i, 0, 32⟩
abbrev F.CTX.MEAS_MIN.VALUE (i : Nat) : Fld := ⟨0x100224 + 0x1000 * i, 0, 32⟩
abbrev F.CTX.MEAS_PP.VALUE (i : Nat) : Fld := ⟨0x100228 + 0x1000 * i, 0, 32⟩
abbrev F.CTX.MEAS_MEAN.VALUE (i : Nat) : Fld := ⟨0x10022C + 0x1000 * i, 0, 32⟩
abbrev F.CTX.MEAS_RMS.VALUE (i : Nat) : Fld := ⟨0x100230 + 0x1000 * i, 0, 32⟩
abbrev F.CTX.MEAS_PERIOD.NS (i : Nat) : Fld := ⟨0x100234 + 0x1000 * i, 0, 32⟩
abbrev F.CTX.MEAS_TMAX.OFFSET (i : Nat) : Fld := ⟨0x100238 + 0x1000 * i, 0, 20⟩
abbrev F.CTX.MEAS_FLAGS.FLAGS (i : Nat) : Fld := ⟨0x10023C + 0x1000 * i, 0, 8⟩

/-! Fields of Q. -/
abbrev F.Q.Q_CFG.BASE (i : Nat) : Fld := ⟨0x200040 + 0x1000 * i, 16, 8⟩
abbrev F.Q.Q_CFG.SIZE_LOG2 (i : Nat) : Fld := ⟨0x200040 + 0x1000 * i, 12, 4⟩
abbrev F.Q.Q_CFG.DRAIN (i : Nat) : Fld := ⟨0x200040 + 0x1000 * i, 9, 1⟩
abbrev F.Q.Q_CFG.POLICY (i : Nat) : Fld := ⟨0x200040 + 0x1000 * i, 8, 1⟩
abbrev F.Q.Q_CFG.EN (i : Nat) : Fld := ⟨0x200040 + 0x1000 * i, 0, 1⟩
abbrev F.Q.Q_CMD.FLUSH (i : Nat) : Fld := ⟨0x200044 + 0x1000 * i, 0, 1⟩
abbrev F.Q.WM.HWM (i : Nat) : Fld := ⟨0x200048 + 0x1000 * i, 16, 16⟩
abbrev F.Q.WM.LWM (i : Nat) : Fld := ⟨0x200048 + 0x1000 * i, 0, 16⟩
abbrev F.Q.LEVEL.LEVEL (i : Nat) : Fld := ⟨0x20004C + 0x1000 * i, 0, 17⟩
abbrev F.Q.LEVEL_PEAK.PEAK (i : Nat) : Fld := ⟨0x200050 + 0x1000 * i, 0, 17⟩
abbrev F.Q.Q_STS.FLUSHING (i : Nat) : Fld := ⟨0x200054 + 0x1000 * i, 12, 1⟩
abbrev F.Q.Q_STS.PEND (i : Nat) : Fld := ⟨0x200054 + 0x1000 * i, 11, 1⟩
abbrev F.Q.Q_STS.GAP_OPEN (i : Nat) : Fld := ⟨0x200054 + 0x1000 * i, 10, 1⟩
abbrev F.Q.Q_STS.FULL (i : Nat) : Fld := ⟨0x200054 + 0x1000 * i, 9, 1⟩
abbrev F.Q.Q_STS.EMPTY (i : Nat) : Fld := ⟨0x200054 + 0x1000 * i, 8, 1⟩
abbrev F.Q.Q_STS.LOST_UNK (i : Nat) : Fld := ⟨0x200054 + 0x1000 * i, 2, 1⟩
abbrev F.Q.Q_STS.WM_LO (i : Nat) : Fld := ⟨0x200054 + 0x1000 * i, 1, 1⟩
abbrev F.Q.Q_STS.WM_HI (i : Nat) : Fld := ⟨0x200054 + 0x1000 * i, 0, 1⟩
abbrev F.Q.LOST.CNT (i : Nat) : Fld := ⟨0x200058 + 0x1000 * i, 0, 32⟩
abbrev F.Q.DIS_DROP_CNT.CNT (i : Nat) : Fld := ⟨0x20005C + 0x1000 * i, 0, 32⟩
abbrev F.Q.WR_PKT_CNT.CNT (i : Nat) : Fld := ⟨0x200060 + 0x1000 * i, 0, 32⟩
abbrev F.Q.RD_PKT_CNT.CNT (i : Nat) : Fld := ⟨0x200064 + 0x1000 * i, 0, 32⟩
abbrev F.Q.FLUSH_CNT.CNT (i : Nat) : Fld := ⟨0x200068 + 0x1000 * i, 0, 32⟩
abbrev F.Q.RESET_CNT.CNT (i : Nat) : Fld := ⟨0x20006C + 0x1000 * i, 0, 32⟩
abbrev F.Q.WP.PTR (i : Nat) : Fld := ⟨0x200070 + 0x1000 * i, 0, 17⟩
abbrev F.Q.RP.PTR (i : Nat) : Fld := ⟨0x200074 + 0x1000 * i, 0, 17⟩
abbrev F.Q.DATA_LO.VALUE (i : Nat) : Fld := ⟨0x200078 + 0x1000 * i, 0, 32⟩
abbrev F.Q.DATA_HI.UNPAIRED (i : Nat) : Fld := ⟨0x20007C + 0x1000 * i, 31, 1⟩
abbrev F.Q.DATA_HI.FLAGS (i : Nat) : Fld := ⟨0x20007C + 0x1000 * i, 0, 8⟩
abbrev F.Q.PKT_MAX.MAX (i : Nat) : Fld := ⟨0x200080 + 0x1000 * i, 0, 9⟩

/-! Fields of ARB_MEM. -/
abbrev F.ARB_MEM.ARB_CTL.FREEZE : Fld := ⟨0x00B040, 0, 1⟩
abbrev F.ARB_MEM.ARB_STS.HOSTWIN_FROZEN : Fld := ⟨0x00B044, 10, 1⟩
abbrev F.ARB_MEM.ARB_STS.DRAINED : Fld := ⟨0x00B044, 9, 1⟩
abbrev F.ARB_MEM.ARB_STS.BUSY : Fld := ⟨0x00B044, 8, 1⟩
abbrev F.ARB_MEM.ARB_STS.OWNER : Fld := ⟨0x00B044, 0, 7⟩
abbrev F.ARB_MEM.CLASS.CLS : Fld := ⟨0x00B048, 0, 16⟩
abbrev F.ARB_MEM.BURST_LIMIT.BURSTS : Fld := ⟨0x00B04C, 0, 8⟩
abbrev F.ARB_MEM.STARVE_NS.NS : Fld := ⟨0x00B050, 0, 32⟩
abbrev F.ARB_MEM.STARVE.REQ : Fld := ⟨0x00B054, 0, 8⟩
abbrev F.ARB_MEM.REQ.REQ : Fld := ⟨0x00B058, 0, 8⟩
abbrev F.ARB_MEM.WAIT_MAX.NS (n : Nat) : Fld := ⟨0x00B060 + 0x4 * n, 0, 32⟩
abbrev F.ARB_MEM.GRANT_CNT.CNT (n : Nat) : Fld := ⟨0x00B080 + 0x4 * n, 0, 32⟩

/-! Fields of ARB_TX. -/
abbrev F.ARB_TX.ARB_CTL.FREEZE : Fld := ⟨0x00C040, 0, 1⟩
abbrev F.ARB_TX.ARB_STS.DRAINED : Fld := ⟨0x00C044, 9, 1⟩
abbrev F.ARB_TX.ARB_STS.BUSY : Fld := ⟨0x00C044, 8, 1⟩
abbrev F.ARB_TX.ARB_STS.OWNER : Fld := ⟨0x00C044, 0, 7⟩
abbrev F.ARB_TX.BURST_LIMIT.FRAMES : Fld := ⟨0x00C048, 0, 8⟩
abbrev F.ARB_TX.STARVE_NS.NS : Fld := ⟨0x00C04C, 0, 32⟩
abbrev F.ARB_TX.WAIT_MAX.NS : Fld := ⟨0x00C050, 0, 32⟩
abbrev F.ARB_TX.WAIT_MAX_ID.IDX : Fld := ⟨0x00C054, 0, 7⟩
abbrev F.ARB_TX.CLASS.CLS (n : Nat) : Fld := ⟨0x00C100 + 0x4 * n, 0, 32⟩
abbrev F.ARB_TX.CLASS_4.PTP : Fld := ⟨0x00C110, 2, 2⟩
abbrev F.ARB_TX.CLASS_4.MGMT : Fld := ⟨0x00C110, 0, 2⟩
abbrev F.ARB_TX.STARVE.REQ (n : Nat) : Fld := ⟨0x00C140 + 0x4 * n, 0, 32⟩
abbrev F.ARB_TX.STARVE_2.REQ : Fld := ⟨0x00C148, 0, 2⟩
abbrev F.ARB_TX.REQ.REQ (n : Nat) : Fld := ⟨0x00C150 + 0x4 * n, 0, 32⟩
abbrev F.ARB_TX.REQ_2.REQ : Fld := ⟨0x00C158, 0, 2⟩
abbrev F.ARB_TX.FRAME_CNT.CNT (n : Nat) : Fld := ⟨0x00C200 + 0x4 * n, 0, 32⟩

/-! Fields of PORT. -/
abbrev F.PORT.PORT_CTL.LOS_POL (i : Nat) : Fld := ⟨0x00E040 + 0x1000 * i, 8, 1⟩
abbrev F.PORT.PORT_CTL.AN_EN (i : Nat) : Fld := ⟨0x00E040 + 0x1000 * i, 4, 1⟩
abbrev F.PORT.PORT_CTL.MODE (i : Nat) : Fld := ⟨0x00E040 + 0x1000 * i, 0, 2⟩
abbrev F.PORT.PORT_STS.FENCED (i : Nat) : Fld := ⟨0x00E044 + 0x1000 * i, 7, 1⟩
abbrev F.PORT.PORT_STS.RF (i : Nat) : Fld := ⟨0x00E044 + 0x1000 * i, 6, 1⟩
abbrev F.PORT.PORT_STS.AN_DONE (i : Nat) : Fld := ⟨0x00E044 + 0x1000 * i, 5, 1⟩
abbrev F.PORT.PORT_STS.LOS (i : Nat) : Fld := ⟨0x00E044 + 0x1000 * i, 4, 1⟩
abbrev F.PORT.PORT_STS.STATE (i : Nat) : Fld := ⟨0x00E044 + 0x1000 * i, 0, 3⟩
abbrev F.PORT.RX_FRAMES.CNT (i : Nat) : Fld := ⟨0x00E048 + 0x1000 * i, 0, 32⟩
abbrev F.PORT.RX_FCS_ERR.CNT (i : Nat) : Fld := ⟨0x00E04C + 0x1000 * i, 0, 32⟩
abbrev F.PORT.RX_OVERSIZE.CNT (i : Nat) : Fld := ⟨0x00E050 + 0x1000 * i, 0, 32⟩
abbrev F.PORT.FWD_OUT.CNT (i : Nat) : Fld := ⟨0x00E054 + 0x1000 * i, 0, 32⟩
abbrev F.PORT.LOCAL_OUT.CNT (i : Nat) : Fld := ⟨0x00E058 + 0x1000 * i, 0, 32⟩
abbrev F.PORT.FWD_OVF_CNT.CNT (i : Nat) : Fld := ⟨0x00E05C + 0x1000 * i, 0, 32⟩
abbrev F.PORT.LINK_DOWN_CNT.CNT (i : Nat) : Fld := ⟨0x00E060 + 0x1000 * i, 0, 32⟩
abbrev F.PORT.CODE_ERR_CNT.CNT (i : Nat) : Fld := ⟨0x00E064 + 0x1000 * i, 0, 32⟩
abbrev F.PORT.FWD_WAIT_MAX.NS (i : Nat) : Fld := ⟨0x00E068 + 0x1000 * i, 0, 32⟩

/-! Fields of HSR. -/
abbrev F.HSR.HSR_CTL.MGMT_EN : Fld := ⟨0x010040, 2, 1⟩
abbrev F.HSR.HSR_CTL.NODE_MODE : Fld := ⟨0x010040, 0, 2⟩
abbrev F.HSR.ETHERTYPE.TYPE : Fld := ⟨0x010044, 0, 16⟩
abbrev F.HSR.OWN_MAC_HI.MAC_HI : Fld := ⟨0x010048, 0, 16⟩
abbrev F.HSR.OWN_MAC_LO.MAC_LO : Fld := ⟨0x01004C, 0, 32⟩
abbrev F.HSR.STREAM_MAC_HI.MAC_HI : Fld := ⟨0x010050, 0, 16⟩
abbrev F.HSR.STREAM_MAC_LO.MAC_LO : Fld := ⟨0x010054, 0, 32⟩
abbrev F.HSR.DST_MAC_HI.MAC_HI : Fld := ⟨0x010058, 0, 16⟩
abbrev F.HSR.DST_MAC_LO.MAC_LO : Fld := ⟨0x01005C, 0, 32⟩
abbrev F.HSR.TRIG_MAC_HI.MAC_HI : Fld := ⟨0x010060, 0, 16⟩
abbrev F.HSR.TRIG_MAC_LO.MAC_LO : Fld := ⟨0x010064, 0, 32⟩
abbrev F.HSR.HUB_ID.STREAM_ID : Fld := ⟨0x010068, 16, 16⟩
abbrev F.HSR.HUB_ID.OWN_ID : Fld := ⟨0x010068, 0, 16⟩
abbrev F.HSR.DD_CTL.FORGET_MS : Fld := ⟨0x01006C, 0, 16⟩
abbrev F.HSR.HSR_SEQ.STREAM : Fld := ⟨0x010070, 16, 16⟩
abbrev F.HSR.HSR_SEQ.OWN : Fld := ⟨0x010070, 0, 16⟩
abbrev F.HSR.DUP_DISCARD_CNT.CNT : Fld := ⟨0x010074, 0, 32⟩
abbrev F.HSR.OWN_REMOVED_CNT.CNT : Fld := ⟨0x010078, 0, 32⟩
abbrev F.HSR.NOTAG_CNT.CNT : Fld := ⟨0x01007C, 0, 32⟩
abbrev F.HSR.DD_EVICT_CNT.CNT : Fld := ⟨0x010080, 0, 32⟩
abbrev F.HSR.FENCE_DROP_CNT.CNT : Fld := ⟨0x010084, 0, 32⟩
abbrev F.HSR.MGMT_OK_CNT.CNT : Fld := ⟨0x010088, 0, 32⟩
abbrev F.HSR.MGMT_AUTH_FAIL_CNT.CNT : Fld := ⟨0x01008C, 0, 32⟩
abbrev F.HSR.MGMT_REPLAY_CNT.CNT : Fld := ⟨0x010090, 0, 32⟩
abbrev F.HSR.MGMT_ERR_CNT.CNT : Fld := ⟨0x010094, 0, 32⟩
abbrev F.HSR.KEY_CMD.STORE : Fld := ⟨0x010098, 1, 1⟩
abbrev F.HSR.KEY_CMD.SLOT : Fld := ⟨0x010098, 0, 1⟩
abbrev F.HSR.KEY_STS.BUSY : Fld := ⟨0x01009C, 2, 1⟩
abbrev F.HSR.KEY_STS.VALID1 : Fld := ⟨0x01009C, 1, 1⟩
abbrev F.HSR.KEY_STS.VALID0 : Fld := ⟨0x01009C, 0, 1⟩
abbrev F.HSR.KEY_DATA.DATA (n : Nat) : Fld := ⟨0x0100A0 + 0x4 * n, 0, 32⟩
abbrev F.HSR.LAST_CTR_0.CTR : Fld := ⟨0x0100B0, 0, 32⟩
abbrev F.HSR.LAST_CTR_1.CTR : Fld := ⟨0x0100B4, 0, 32⟩
abbrev F.HSR.CTRL_SEQ.SEQ : Fld := ⟨0x0100B8, 0, 32⟩
abbrev F.HSR.SEQ.SEQ (n : Nat) : Fld := ⟨0x010200 + 0x4 * n, 0, 32⟩

/-! Fields of WALE. -/
abbrev F.WALE.WALE_CTL.ECHO_EN : Fld := ⟨0x011040, 4, 1⟩
abbrev F.WALE.WALE_CTL.REF_SEL : Fld := ⟨0x011040, 3, 1⟩
abbrev F.WALE.WALE_CTL.TK_BACKUP : Fld := ⟨0x011040, 2, 1⟩
abbrev F.WALE.WALE_CTL.ROLE : Fld := ⟨0x011040, 0, 2⟩
abbrev F.WALE.WALE_STS.TK_ACTIVE : Fld := ⟨0x011044, 4, 1⟩
abbrev F.WALE.WALE_STS.REF_WCLK : Fld := ⟨0x011044, 3, 1⟩
abbrev F.WALE.WALE_STS.WCLK_OK : Fld := ⟨0x011044, 2, 1⟩
abbrev F.WALE.WALE_STS.WSYNC_OK : Fld := ⟨0x011044, 1, 1⟩
abbrev F.WALE.WALE_STS.MEAS_BUSY : Fld := ⟨0x011044, 0, 1⟩
abbrev F.WALE.MEAS_CMD.LINES : Fld := ⟨0x011048, 0, 9⟩
abbrev F.WALE.MEAS_STS.FAIL : Fld := ⟨0x01104C, 16, 9⟩
abbrev F.WALE.MEAS_STS.VALID : Fld := ⟨0x01104C, 0, 9⟩
abbrev F.WALE.LINE_DLY.DLY (n : Nat) : Fld := ⟨0x011050 + 0x4 * n, 0, 16⟩
abbrev F.WALE.RX_CNT.CNT (n : Nat) : Fld := ⟨0x011080 + 0x4 * n, 0, 32⟩
abbrev F.WALE.TX_CNT.CNT : Fld := ⟨0x0110A0, 0, 32⟩
abbrev F.WALE.MERGED_CNT.CNT : Fld := ⟨0x0110A4, 0, 32⟩
abbrev F.WALE.LAST_RX.NS32 : Fld := ⟨0x0110A8, 0, 32⟩
abbrev F.WALE.LAST_RX_INFO.LINE : Fld := ⟨0x0110AC, 8, 3⟩
abbrev F.WALE.LAST_RX_INFO.FRAC : Fld := ⟨0x0110AC, 0, 4⟩

/-! Fields of PAIR. -/
abbrev F.PAIR.PAIR_CTL.PAIR_TIMEOUT : Fld := ⟨0x00D040, 16, 8⟩
abbrev F.PAIR.PAIR_CTL.START_WAIT : Fld := ⟨0x00D040, 8, 8⟩
abbrev F.PAIR.PAIR_CTL.REJOIN_AUTO : Fld := ⟨0x00D040, 2, 1⟩
abbrev F.PAIR.PAIR_CTL.PAIR_EN : Fld := ⟨0x00D040, 0, 1⟩
abbrev F.PAIR.PAIR_CMD.HC_RESTART : Fld := ⟨0x00D044, 4, 1⟩
abbrev F.PAIR.PAIR_CMD.COMMIT : Fld := ⟨0x00D044, 3, 1⟩
abbrev F.PAIR.PAIR_CMD.FORCE_ACTIVE : Fld := ⟨0x00D044, 2, 1⟩
abbrev F.PAIR.PAIR_CMD.REJOIN : Fld := ⟨0x00D044, 1, 1⟩
abbrev F.PAIR.PAIR_CMD.YIELD : Fld := ⟨0x00D044, 0, 1⟩
abbrev F.PAIR.PAIR_STS.LAST_CAUSE : Fld := ⟨0x00D048, 28, 4⟩
abbrev F.PAIR.PAIR_STS.PARTNER_ROLE : Fld := ⟨0x00D048, 16, 3⟩
abbrev F.PAIR.PAIR_STS.LANE_DEGRADED : Fld := ⟨0x00D048, 12, 1⟩
abbrev F.PAIR.PAIR_STS.LINK_UP : Fld := ⟨0x00D048, 11, 1⟩
abbrev F.PAIR.PAIR_STS.PRESENT : Fld := ⟨0x00D048, 10, 1⟩
abbrev F.PAIR.PAIR_STS.STRAP : Fld := ⟨0x00D048, 9, 1⟩
abbrev F.PAIR.PAIR_STS.FENCED : Fld := ⟨0x00D048, 8, 1⟩
abbrev F.PAIR.PAIR_STS.TAKE_DRV : Fld := ⟨0x00D048, 7, 1⟩
abbrev F.PAIR.PAIR_STS.YIELD_DRV : Fld := ⟨0x00D048, 6, 1⟩
abbrev F.PAIR.PAIR_STS.YIELD_SEEN : Fld := ⟨0x00D048, 5, 1⟩
abbrev F.PAIR.PAIR_STS.READY : Fld := ⟨0x00D048, 4, 1⟩
abbrev F.PAIR.PAIR_STS.ROLE : Fld := ⟨0x00D048, 0, 3⟩
abbrev F.PAIR.JOIN_REMAIN.QUEUES_OK : Fld := ⟨0x00D04C, 31, 1⟩
abbrev F.PAIR.JOIN_REMAIN.CFG_OK : Fld := ⟨0x00D04C, 30, 1⟩
abbrev F.PAIR.JOIN_REMAIN.ALIGN_OK : Fld := ⟨0x00D04C, 29, 1⟩
abbrev F.PAIR.JOIN_REMAIN.CTX : Fld := ⟨0x00D04C, 16, 9⟩
abbrev F.PAIR.JOIN_REMAIN.CH : Fld := ⟨0x00D04C, 0, 10⟩
abbrev F.PAIR.COMMIT_TICK_LO.IDX_LO : Fld := ⟨0x00D050, 0, 32⟩
abbrev F.PAIR.COMMIT_TICK_HI.IDX_HI : Fld := ⟨0x00D054, 0, 32⟩
abbrev F.PAIR.COMMIT_STS.REASON : Fld := ⟨0x00D058, 4, 4⟩
abbrev F.PAIR.COMMIT_STS.REFUSED : Fld := ⟨0x00D058, 3, 1⟩
abbrev F.PAIR.COMMIT_STS.DONE : Fld := ⟨0x00D058, 2, 1⟩
abbrev F.PAIR.COMMIT_STS.ACKED : Fld := ⟨0x00D058, 1, 1⟩
abbrev F.PAIR.COMMIT_STS.SCHED : Fld := ⟨0x00D058, 0, 1⟩
abbrev F.PAIR.CFG_DIGEST.CRC : Fld := ⟨0x00D05C, 0, 32⟩
abbrev F.PAIR.CFG_DIGEST_PARTNER.CRC : Fld := ⟨0x00D060, 0, 32⟩
abbrev F.PAIR.STG_DIGEST.CRC : Fld := ⟨0x00D064, 0, 32⟩
abbrev F.PAIR.LINK_DELAY.DELAY : Fld := ⟨0x00D068, 0, 32⟩
abbrev F.PAIR.MIRROR_LAG.TICKS : Fld := ⟨0x00D06C, 0, 16⟩
abbrev F.PAIR.PAIR_LATE.CNT : Fld := ⟨0x00D070, 0, 32⟩
abbrev F.PAIR.DIGEST_FAIL_CNT.CNT : Fld := ⟨0x00D074, 0, 32⟩
abbrev F.PAIR.TAKEOVER_CNT.TIMEOUT : Fld := ⟨0x00D078, 16, 16⟩
abbrev F.PAIR.TAKEOVER_CNT.YIELD : Fld := ⟨0x00D078, 0, 16⟩
abbrev F.PAIR.LINK_RETRY_CNT.CNT : Fld := ⟨0x00D07C, 0, 32⟩
abbrev F.PAIR.CMD_IGNORED.CNT : Fld := ⟨0x00D080, 0, 32⟩
abbrev F.PAIR.SUB_TICKS.TICKS : Fld := ⟨0x00D084, 0, 8⟩
abbrev F.PAIR.TAKEOVER_IDX_LO.IDX_LO : Fld := ⟨0x00D088, 0, 32⟩
abbrev F.PAIR.TAKEOVER_IDX_HI.IDX_HI : Fld := ⟨0x00D08C, 0, 32⟩
abbrev F.PAIR.HC_CTL.WIN_LOG2 : Fld := ⟨0x00D090, 16, 5⟩
abbrev F.PAIR.HC_MEAN_TOL.TOL : Fld := ⟨0x00D094, 0, 16⟩
abbrev F.PAIR.HC_RMS_TOL.TOL : Fld := ⟨0x00D098, 0, 16⟩
abbrev F.PAIR.HC_STS.FAIL_CNT : Fld := ⟨0x00D09C, 0, 10⟩
abbrev F.PAIR.HC_SEL.CH : Fld := ⟨0x00D0A0, 0, 9⟩
abbrev F.PAIR.HC_MEAN.MEAN : Fld := ⟨0x00D0A4, 0, 32⟩
abbrev F.PAIR.HC_RMS.RMS : Fld := ⟨0x00D0A8, 0, 32⟩
abbrev F.PAIR.HC_COUNT.PAIRS : Fld := ⟨0x00D0AC, 0, 21⟩
abbrev F.PAIR.PARTNER_HEALTH.VALID : Fld := ⟨0x00D0B0, 31, 1⟩
abbrev F.PAIR.PARTNER_HEALTH.CAL_STATE : Fld := ⟨0x00D0B0, 5, 3⟩
abbrev F.PAIR.PARTNER_HEALTH.PFW : Fld := ⟨0x00D0B0, 2, 1⟩
abbrev F.PAIR.PARTNER_HEALTH.CONT : Fld := ⟨0x00D0B0, 1, 1⟩
abbrev F.PAIR.PARTNER_HEALTH.FATAL : Fld := ⟨0x00D0B0, 0, 1⟩
abbrev F.PAIR.HC_FAIL.CH (n : Nat) : Fld := ⟨0x00D0C0 + 0x4 * n, 0, 32⟩

/-! Fields of RIM. -/
abbrev F.RIM.RIM_CTL.IRQ_HOLDOFF : Fld := ⟨0x006040, 16, 8⟩
abbrev F.RIM.RIM_CTL.IRQ_QEN : Fld := ⟨0x006040, 14, 1⟩
abbrev F.RIM.RIM_CTL.IRQ_Q : Fld := ⟨0x006040, 8, 6⟩
abbrev F.RIM.RIM_CTL.LOG_CORR : Fld := ⟨0x006040, 1, 1⟩
abbrev F.RIM.RIM_CTL.LOG_EVT : Fld := ⟨0x006040, 0, 1⟩
abbrev F.RIM.RIM_CMD.CLEAR : Fld := ⟨0x006044, 2, 1⟩
abbrev F.RIM.RIM_CMD.SAVE : Fld := ⟨0x006044, 1, 1⟩
abbrev F.RIM.RIM_CMD.UNFREEZE : Fld := ⟨0x006044, 0, 1⟩
abbrev F.RIM.RIM_STS.FROZEN : Fld := ⟨0x006048, 31, 1⟩
abbrev F.RIM.RIM_STS.SAVING : Fld := ⟨0x006048, 30, 1⟩
abbrev F.RIM.RIM_STS.CAUSE : Fld := ⟨0x006048, 28, 2⟩
abbrev F.RIM.RIM_STS.A_VALID : Fld := ⟨0x006048, 27, 1⟩
abbrev F.RIM.RIM_STS.B_VALID : Fld := ⟨0x006048, 26, 1⟩
abbrev F.RIM.RIM_STS.NEWER : Fld := ⟨0x006048, 25, 1⟩
abbrev F.RIM.RIM_STS.COUNT : Fld := ⟨0x006048, 0, 11⟩
abbrev F.RIM.RIM_SEQ.SEQ : Fld := ⟨0x00604C, 0, 32⟩
abbrev F.RIM.RIM_GEN_A.GEN : Fld := ⟨0x006050, 0, 32⟩
abbrev F.RIM.RIM_GEN_B.GEN : Fld := ⟨0x006054, 0, 32⟩
abbrev F.RIM.DROP_CNT.CNT : Fld := ⟨0x006058, 0, 32⟩
abbrev F.RIM.RD_SEL.SRC : Fld := ⟨0x00605C, 16, 2⟩
abbrev F.RIM.RD_SEL.AGE : Fld := ⟨0x00605C, 0, 10⟩
abbrev F.RIM.ENTRY_STS.READY : Fld := ⟨0x006060, 31, 1⟩
abbrev F.RIM.ENTRY_STS.EMPTY : Fld := ⟨0x006060, 30, 1⟩
abbrev F.RIM.ENTRY.WORD (n : Nat) : Fld := ⟨0x006064 + 0x4 * n, 0, 32⟩
abbrev F.RIM.HOST_NOTE.NOTE : Fld := ⟨0x006074, 0, 32⟩
abbrev F.RIM.TEST_KEY.KEY : Fld := ⟨0x006078, 0, 16⟩
abbrev F.RIM.TEST_STS.TEST_MODE : Fld := ⟨0x00607C, 0, 1⟩
abbrev F.RIM.WDOG_LIMIT.US : Fld := ⟨0x006080, 0, 16⟩
abbrev F.RIM.WDOG_PAGE.PAGE : Fld := ⟨0x006084, 0, 10⟩
abbrev F.RIM.SUPPLY_STS.VDD_IO : Fld := ⟨0x006088, 4, 1⟩
abbrev F.RIM.SUPPLY_STS.AVDD_HV : Fld := ⟨0x006088, 3, 1⟩
abbrev F.RIM.SUPPLY_STS.AVDD_LV : Fld := ⟨0x006088, 2, 1⟩
abbrev F.RIM.SUPPLY_STS.VDD_SD : Fld := ⟨0x006088, 1, 1⟩
abbrev F.RIM.SUPPLY_STS.VDD_CORE : Fld := ⟨0x006088, 0, 1⟩
abbrev F.RIM.IRQ_PKT_CNT.CNT : Fld := ⟨0x00608C, 0, 32⟩
abbrev F.RIM.IRQ_MERGE_CNT.CNT : Fld := ⟨0x006090, 0, 32⟩

/-! Fields of HDR. -/
abbrev F.HDR.PAGE_ID.TYPE (p : Nat) : Fld := ⟨0x1000 * p + 0x000, 16, 16⟩
abbrev F.HDR.PAGE_ID.INSTANCE (p : Nat) : Fld := ⟨0x1000 * p + 0x000, 0, 16⟩
abbrev F.HDR.PAGE_VER.LAYOUT (p : Nat) : Fld := ⟨0x1000 * p + 0x004, 16, 16⟩
abbrev F.HDR.PAGE_VER.STEP (p : Nat) : Fld := ⟨0x1000 * p + 0x004, 8, 8⟩
abbrev F.HDR.PAGE_VER.METAL (p : Nat) : Fld := ⟨0x1000 * p + 0x004, 0, 8⟩
abbrev F.HDR.STS.STAGED_DIFF (p : Nat) : Fld := ⟨0x1000 * p + 0x00C, 3, 1⟩
abbrev F.HDR.STS.FATAL (p : Nat) : Fld := ⟨0x1000 * p + 0x00C, 2, 1⟩
abbrev F.HDR.STS.FLT (p : Nat) : Fld := ⟨0x1000 * p + 0x00C, 1, 1⟩
abbrev F.HDR.STS.INT_PEND (p : Nat) : Fld := ⟨0x1000 * p + 0x00C, 0, 1⟩
abbrev F.HDR.INT_STS.FLT (p : Nat) : Fld := ⟨0x1000 * p + 0x010, 31, 1⟩
abbrev F.HDR.INT_STS.FATAL (p : Nat) : Fld := ⟨0x1000 * p + 0x010, 30, 1⟩
abbrev F.HDR.INT_EN.EN (p : Nat) : Fld := ⟨0x1000 * p + 0x014, 0, 32⟩
abbrev F.HDR.INT_ROUTE.INBAND (p : Nat) : Fld := ⟨0x1000 * p + 0x018, 8, 1⟩
abbrev F.HDR.INT_ROUTE.PINS (p : Nat) : Fld := ⟨0x1000 * p + 0x018, 0, 4⟩
abbrev F.HDR.FLT_STS.FAULTS (p : Nat) : Fld := ⟨0x1000 * p + 0x01C, 0, 32⟩
abbrev F.HDR.FLT_FIRST.VALID (p : Nat) : Fld := ⟨0x1000 * p + 0x020, 31, 1⟩
abbrev F.HDR.FLT_FIRST.COINC (p : Nat) : Fld := ⟨0x1000 * p + 0x020, 30, 1⟩
abbrev F.HDR.FLT_FIRST.CLASS (p : Nat) : Fld := ⟨0x1000 * p + 0x020, 28, 2⟩
abbrev F.HDR.FLT_FIRST.SOURCE (p : Nat) : Fld := ⟨0x1000 * p + 0x020, 0, 5⟩
abbrev F.HDR.FLT_FIRST_TIME.NS32 (p : Nat) : Fld := ⟨0x1000 * p + 0x024, 0, 32⟩
abbrev F.HDR.FLT_CNT_CORR.CNT (p : Nat) : Fld := ⟨0x1000 * p + 0x028, 0, 32⟩
abbrev F.HDR.FLT_CNT_CONT.CNT (p : Nat) : Fld := ⟨0x1000 * p + 0x02C, 0, 32⟩
abbrev F.HDR.FLT_INJ.INJECT (p : Nat) : Fld := ⟨0x1000 * p + 0x030, 31, 1⟩
abbrev F.HDR.FLT_INJ.SOURCE (p : Nat) : Fld := ⟨0x1000 * p + 0x030, 0, 5⟩
abbrev F.HDR.STAGE_CTL.PENDING (p : Nat) : Fld := ⟨0x1000 * p + 0x034, 31, 1⟩
abbrev F.HDR.STAGE_CTL.SCHED (p : Nat) : Fld := ⟨0x1000 * p + 0x034, 30, 1⟩
abbrev F.HDR.STAGE_CTL.REFUSED (p : Nat) : Fld := ⟨0x1000 * p + 0x034, 29, 1⟩
abbrev F.HDR.STAGE_CTL.WR_IGNORED (p : Nat) : Fld := ⟨0x1000 * p + 0x034, 28, 1⟩
abbrev F.HDR.STAGE_CTL.REASON (p : Nat) : Fld := ⟨0x1000 * p + 0x034, 24, 4⟩
abbrev F.HDR.STAGE_CTL.CANCEL (p : Nat) : Fld := ⟨0x1000 * p + 0x034, 2, 1⟩
abbrev F.HDR.STAGE_CTL.COMMIT_AT_TICK (p : Nat) : Fld := ⟨0x1000 * p + 0x034, 1, 1⟩
abbrev F.HDR.STAGE_CTL.COMMIT (p : Nat) : Fld := ⟨0x1000 * p + 0x034, 0, 1⟩

/-! Fields of HOST. -/
abbrev F.HOST.HOST_CFG.DUMMY : Fld := ⟨0x004040, 0, 8⟩
abbrev F.HOST.HOST_STS.BAD_OP : Fld := ⟨0x004044, 3, 1⟩
abbrev F.HOST.HOST_STS.ADDR_ERR : Fld := ⟨0x004044, 2, 1⟩
abbrev F.HOST.HOST_STS.LATE : Fld := ⟨0x004044, 1, 1⟩
abbrev F.HOST.HOST_STS.PARTIAL : Fld := ⟨0x004044, 0, 1⟩
abbrev F.HOST.CAPWIN_BASE.BLOCK : Fld := ⟨0x004048, 0, 11⟩
abbrev F.HOST.LATE_CNT.CNT : Fld := ⟨0x00404C, 0, 32⟩
abbrev F.HOST.BAD_OP_CNT.CNT : Fld := ⟨0x004050, 0, 32⟩
abbrev F.HOST.PARTIAL_CNT.CNT : Fld := ⟨0x004054, 0, 32⟩
abbrev F.HOST.ADDR_ERR_CNT.CNT : Fld := ⟨0x004058, 0, 32⟩
abbrev F.HOST.SCRATCH.DATA : Fld := ⟨0x00405C, 0, 32⟩

/-! Fields of CHIP. -/
abbrev F.CHIP.CHIP_ID.DEVICE : Fld := ⟨0x000040, 16, 16⟩
abbrev F.CHIP.CHIP_ID.GRADE : Fld := ⟨0x000040, 0, 4⟩
abbrev F.CHIP.SERIAL_LO.SN_LO : Fld := ⟨0x000044, 0, 32⟩
abbrev F.CHIP.SERIAL_HI.SN_HI : Fld := ⟨0x000048, 0, 32⟩
abbrev F.CHIP.FABRIC_RATE.RATE_MIN : Fld := ⟨0x00004C, 16, 16⟩
abbrev F.CHIP.FABRIC_RATE.RATE : Fld := ⟨0x00004C, 0, 16⟩
abbrev F.CHIP.AT_IDX_LO.IDX_LO : Fld := ⟨0x000050, 0, 32⟩
abbrev F.CHIP.AT_IDX_HI.IDX_HI : Fld := ⟨0x000054, 0, 32⟩
abbrev F.CHIP.REFUSE_INFO.REASON : Fld := ⟨0x000058, 28, 4⟩
abbrev F.CHIP.REFUSE_INFO.PAGE : Fld := ⟨0x000058, 0, 10⟩
abbrev F.CHIP.REFUSE_CNT.CNT : Fld := ⟨0x00005C, 0, 32⟩
abbrev F.CHIP.SCHED_SEL.PAGE : Fld := ⟨0x000060, 0, 10⟩
abbrev F.CHIP.SCHED_IDX_LO.IDX_LO : Fld := ⟨0x000064, 0, 32⟩
abbrev F.CHIP.SCHED_IDX_HI.IDX_HI : Fld := ⟨0x000068, 0, 32⟩
abbrev F.CHIP.SCHED_STS.SCHED : Fld := ⟨0x00006C, 0, 1⟩

end Sys2Proof.Machine
end

