-- ==== Sys2Proof/Machine/State.lean ====
section
/-!
DEFINITION. The state of the hub as plain data, and the state right after reset. Every register of the register tables
lives in `regs` (running values) and `staged` (staged values of RWS fields); the other fields hold what the hub keeps
beside its registers.
-/

namespace Sys2Proof.Machine

/-- Why the hub would stop: nothing does. No rule of the spec stops the hub at a command, so there is no fault. -/
inductive Fault
deriving DecidableEq, Repr

/-- Why a command is refused. -/
inductive Refusal
  /-- Raised by `exec` for a command that has no meaning yet (safe). -/
  | notModelled (mnemonic : String)
deriving DecidableEq, Repr

/-! ## Time -/

/-- Hub time (R49, R50): the seconds and nanoseconds counts, the 32-bit fraction accumulator, the count of cycles of
elapsed time since reset (R50), the time of the newest EPOCH issued (R301) and the latest boundary PPS_OUT has pulsed
for (R76). -/
structure TimeBase where
  sec : Nat := 0
  ns : Nat := 0
  acc : Nat := 0
  cycles : Nat := 0
  epoch : HubTime := ⟨0, 0⟩
  pulsed : Option Nat := none
  /-- Boundaries before this one have had their pulse or passed without one (R76). -/
  ppsSeen : Nat := 0
  /-- The second boundary at `sec` was crossed by an idle cycle and its SECOND_BOUNDARY is still to come. -/
  crossed : Bool := false
  /-- The sum in ns of the steps of hub time since reset: hub time less it runs on without steps (R216). -/
  jump : Int := 0
deriving DecidableEq, Repr

/-- What the servo keeps beside its registers (R55 to R65). -/
structure Servo where
  /-- Hub time in ns of the previous accepted offset; none before the first (R56). -/
  prev : Option Nat := none
  /-- Consecutive offsets within LOCK_THRESH (R64). -/
  inRun : Nat := 0
  /-- Consecutive offsets above LOCK_THRESH (R64). -/
  outRun : Nat := 0
  /-- Consecutive offsets within STEP_THRESH in PENDING (R60). -/
  threeRun : Nat := 0
  /-- Set by SLEW_ACCEPT: offsets of any size are slewed until LOCKED (R60). -/
  slewAll : Bool := false
  /-- Elapsed cycles at the last accepted or pending offset (R64). -/
  lastCycles : Nat := 0
  /-- Hub time in ns to which the latest step set the counter; none before the first step (R63). -/
  stepNew : Option Nat := none
  /-- The scheduled step: its second boundary and offset (R61). -/
  sched : Option (Nat × Int) := none
  /-- Steps applied since reset, which dates a pending Sync (R63). -/
  steps : Nat := 0
  /-- Elapsed cycles at entry to the latest HOLDOVER (R79). -/
  holdAt : Option Nat := none
  /-- PLL out of lock: the cause of PLL_UNLOCK persists (R65). -/
  pllBad : Bool := false
  /-- Reference lost: the cause of REFCLK_LOSS persists (R65). -/
  refBad : Bool := false
  /-- HOLDOVER_EXPIRED has stopped the servo and SERVO_RESTART has not come: its cause persists (R65, R429). -/
  expired : Bool := false
deriving DecidableEq, Repr

/-- A pending correction sum of the transparent clock (R74). -/
structure TcEntry where
  src : PortId
  seq : Nat
  sum : Int
  at_ : Nat
deriving DecidableEq, Repr

/-- The peer-delay state of one port (R72, R75). -/
structure Pdelay where
  /-- Twice the delay of the last exchanges in 2^-16 ns, newest first. -/
  hist : List Int := []
  seq : Nat := 0
  t1 : Option HubTime := none
  skipNext : Bool := false
  /-- Elapsed cycles at the last valid response, or at the first request before any (R72). -/
  lastResp : Nat := 0
  /-- A request has been sent, and the port has failed since its last valid response (R72). -/
  asked : Bool := false
  lost : Bool := false
deriving DecidableEq, Repr

/-- A two-step Sync that waits for its Follow_Up: its port, itself, the steps applied and the elapsed cycles at its arrival, and
whether its offset may be used (R63, R71). -/
structure TwoStep where
  port : Port
  msg : SyncMsg
  steps : Nat
  at_ : Nat
  use : Bool
deriving DecidableEq, Repr

/-- The PTP engine beside its registers (R67 to R75). -/
structure Ptp where
  /-- The two-step Sync waiting for its Follow_Up. -/
  twoStep : Option TwoStep := none
  /-- Silence of the adopted master has ended its adoption (R69). -/
  silenced : Bool := false
  /-- Syncs of the accepted master that the other port has delivered since the last one on the active port (R70). -/
  missed : Nat := 0
  /-- Elapsed cycles at the last Sync and Announce of the master, and the latter's interval as log2 s (R69, R82). -/
  lastSync : Nat := 0
  lastAnn : Nat := 0
  annLog : Int := 0
  /-- Elapsed cycles at the last Pdelay_Req (R67). -/
  pdAt : Option Nat := none
  pdA : Pdelay := {}
  pdB : Pdelay := {}
  /-- Pending sums by ingress port, newest first (R74). -/
  tcA : List TcEntry := []
  tcB : List TcEntry := []
deriving DecidableEq, Repr

/-! ## The tick grid -/

/-- A tick: its index, grid count, instant in 1/64 ns, group mask of bad strobe echoes, and the fine part of its strobe: the steps of
the delay line from the last cycle edge to the instant (R86, R88, R92, R97). -/
structure Tick where
  idx : Nat := 0
  n : Nat := 0
  at_ : Nat := 0
  bad : BitVec 32 := 0
  fine : Nat := 0
deriving DecidableEq, Repr

/-- The tick generator beside its registers. -/
structure Grid where
  /-- The last tick issued since reset (R89). -/
  last : Option Tick := none
  /-- Grid count of the next grid instant not yet decided (R85, R88). -/
  cur : Nat := 0
  /-- No tick before this instant, in 1/64 ns (R90, R108). -/
  notBefore : Nat := 0
  /-- Runs of ticks issued at successive grid instants, newest first: the first tick, its period in ns and the count. -/
  runs : List (Tick × Nat × Nat) := []
  /-- Spans of hub time in ns traversed twice because of backward steps, newest first, each with the index of the last tick
  issued before its step (R276). -/
  backs : List (Nat × Nat × Nat) := []
  /-- Grid instants not issued since the last tick before sleep (R108). -/
  gap : Nat := 0
  /-- The next tick follows a wake and gets a SLEEP_GAP marker (R108). -/
  gapDue : Bool := false
  /-- Target of the wale correction in 15.625 ps units, and consecutive failing seconds (R102). -/
  waleTarget : Int := 0
  waleFails : Nat := 0
  /-- The factory part of the applied trim per channel, as it follows TJ (R98, R99). -/
  trimF : List (Nat × Int) := []
  /-- The applied trims are computed afresh at the next tick, and their factory parts in full (R99). -/
  trimDue : Bool := true
  trimFull : Bool := true
deriving DecidableEq, Repr

/-! ## Words and markers -/

/-- The flags of a word (R168). -/
structure Flags where
  ovr : Bool := false
  blk : Bool := false
  rtr : Bool := false
  opn : Bool := false
  cals : Bool := false
  sub : Bool := false
deriving DecidableEq, Repr

/-- A value or flagged word before it is packed (R168). -/
structure Sample where
  val : Int := 0
  fl : Flags := {}
deriving DecidableEq, Repr

/-- The markers that travel in a channel's stream from the averager output onward (R171). -/
inductive ChMarker
  | rangeChange (ch mode range : Nat) (auto qrst : Bool) (short : Nat)
  | rateChange (ch cause short : Nat)
  | calStep (slice group : Nat)
  | sliceSwap (retired spare group : Nat)
deriving DecidableEq, Repr

/-- One item of a channel's stream: a word with its tick index, grid count and position index (R227, R229), or a
marker. -/
inductive Item
  | word (w : Sample) (idx n i : Nat)
  | mark (m : ChMarker)
deriving DecidableEq, Repr

/-! ## Inputs -/

/-- A tick hold of the 16 channels of a group: the index of the tick that strobed it, and the instant at which the hold of each channel
froze, in units of 3.125 ps (R93, R94). -/
structure TickHold where
  idx : Nat
  at_ : List Int
deriving DecidableEq, Repr

/-- A group of 16 channels: blanking interval (R139) and excitation outputs (R119 to R124). -/
structure Group where
  /-- The tick holds A and B; none while they track their inputs (R94). -/
  holdA : Option TickHold := none
  holdB : Option TickHold := none
  /-- The group is blanked now, guard included. -/
  blank : Bool := false
  /-- Recent starts (true) and ends (false) of blanking intervals with their elapsed ns, newest first (R140). -/
  edges : List (Nat × Bool) := []
  /-- The guard runs; the elapsed cycles at its start (R139). -/
  guardAt : Option Nat := none
  /-- The excitation comparator sees V_S below EXC_MIN (R122), and the elapsed cycles since when (R135). -/
  excLow : Bool := false
  excLowAt : Nat := 0
  /-- Every window of the group closes at the end of the pass in progress, with RATE_CHANGE CAUSE 0 (R165). -/
  closeDue : Bool := false
  /-- On a standby or joining hub, the index of the last tick issued when a discharge or closeDue was last asked for. -/
  turnIdx : Nat := 0
  /-- AR_LOW as the CODES records of the active last reported it, per local channel (R384, R386). -/
  arLow : BitVec 16 := 0
deriving DecidableEq, Repr

/-- The open averaging window of a channel (R162, R163). -/
structure Window where
  cnt : Nat := 0
  sum : Int := 0
  fl : Flags := {}
  /-- The ordinal interval of the window, with AVG_ALIGN. -/
  m : Nat := 0
  lastIdx : Nat := 0
  lastN : Nat := 0
  lastOrd : Nat := 0
deriving DecidableEq, Repr

/-- The FIR of a channel (R230 to R236). -/
structure Fir where
  /-- The delay line, newest first. -/
  line : List Sample := []
  fill : Nat := 0
  phase : Nat := 0
  /-- The first output after the restart has been made. -/
  started : Bool := false
  lastIdx : Nat := 0
  lastN : Nat := 0
  lastM : Nat := 0
deriving DecidableEq, Repr

/-- The open samples packet of a channel (R239 to R241). -/
structure OpenPkt where
  /-- Words so far, newest first. -/
  words : List Word := []
  firstIdx : Nat := 0
  stride : Nat := 0
  lastN : Nat := 0
  openedAt : Nat := 0
deriving DecidableEq, Repr

/-- The open STATS window of a channel (R242, R243). -/
structure StatsWin where
  pos : Nat := 0
  used : Nat := 0
  ovrCnt : Nat := 0
  min : Int := 0
  max : Int := 0
  sum : Int := 0
  sq : Nat := 0
  fl : Flags := {}
  k : Nat := 0
  lastIdx : Nat := 0
  /-- One above the last interval closed (R242). -/
  next : Nat := 0
deriving DecidableEq, Repr

/-- RAIN of a channel (R246 to R252). -/
structure Rain where
  /-- The residue stack, newest first. -/
  stack : List Int := []
  cand : Int := 0
  dir : Nat := 0
  fresh : Bool := true
  ovrSeen : Bool := false
  ovfSince : Nat := 0
  req : Bool := false
  /-- The seconds part of the previous periodic dump. -/
  lastS : Option Nat := none
  /-- The index of the last tick issued when the last dump with CAUSE 2 was made. -/
  unitsIdx : Option Nat := none
  lastIdx : Nat := 0
deriving DecidableEq, Repr

/-- How far the parts of a channel have converged on a joining hub (R398): the averager, the inputs of the FIR since, the FIR,
STATS, the reversals RAIN has pushed since its tap converged, and RAIN. -/
structure JoinCh where
  avg : Bool := false
  firIn : Nat := 0
  fir : Bool := false
  stats : Bool := false
  turns : Nat := 0
  rain : Bool := false
deriving DecidableEq, Repr

/-- A channel: its front end, averager, FIR and reducers. -/
structure Chan where
  /-- Elapsed time in ns at which the overload detector last released (R117). -/
  ovlRel : Option Nat := none
  /-- Elapsed time in ns at which the last range change took effect, and its T_S in ns (R118, R128). -/
  rngAt : Option (Nat × Nat) := none
  /-- Consecutive evaluated conversions below the down threshold (R131). -/
  dn : Nat := 0
  /-- An autorange switch decided in this pass, true to the less sensitive range, and a discharge, both waiting for its end
  (R116, R132). -/
  swap : Option Bool := none
  dis : Bool := false
  /-- Passing holds in a row, and the tick index of the hold last counted (R136). -/
  opnPass : Nat := 0
  opnHold : Option Nat := none
  opnHoldOk : Bool := true
  /-- The value of the last conversion that was not blanked or lost (R97, R141, R150). -/
  lastVal : Int := 0
  win : Window := {}
  /-- The latest word at the averager output, its tick index, and whether each path has latched it (R172, R173). -/
  res : Option (Sample × Nat) := none
  freshQ : Bool := false
  freshM : Bool := false
  fir : Fir := {}
  /-- The open packet of STREAM, and the tick index of the last word at each tap (R240). -/
  pkt : Option OpenPkt := none
  lastTap0 : Nat := 0
  lastTap1 : Nat := 0
  stats : StatsWin := {}
  rain : Rain := {}
  /-- Decade factors of the active, from FACTORS records (R385). -/
  factors : List Nat := []
  join : JoinCh := {}
deriving DecidableEq, Repr

/-! ## Slices and sentinels -/

/-- The parameters of R187: offset, gain and the weights W23 down to W16. -/
structure Params where
  ofs : Int := 0
  gain : Nat := 0x40000000
  w : List Int := [0, 0, 0, 0, 0, 0, 0, 0]
deriving DecidableEq, Repr

/-- One thing a pass has still to do: a wait in units of 10 ns, which may belong to a CONV entry of a local channel and
source, or one conversion of a local channel from its hold or live, with its ordinal j (R153, R155, R162). -/
inductive PassOp
  | wait (d : Nat) (own : Option (Nat × Bool))
  | conv (l : Nat) (live : Bool) (j : Nat)
deriving DecidableEq, Repr

/-- A pass: its tick, its group, what is left of it, and the parameters in force at the strobe of its tick with whether they
were slewing (R188, R203). -/
structure Pass where
  tick : Tick
  group : Nat
  ops : List PassOp
  par : Params := {}
  cals : Bool := false
  /-- The tick holds of the group were skipped by blanking (R141). -/
  skipped : Bool := false
  /-- Local channels whose hold was taken while or soon after the overload detector fired, and within T_S of a range change
  (R117, R128). -/
  ovrAt : BitVec 16 := 0
  rtrAt : BitVec 16 := 0
  /-- Words of the pass for the CODES record, newest first (R384). -/
  codes : List Reg := []
deriving DecidableEq, Repr

/-- A converter slice. -/
structure Slice where
  pass : Option Pass := none
  /-- Passes of later ticks that wait for the end of the pass in progress (log entry 8). -/
  later : List Pass := []
  /-- The applied parameters from which a slew started, its length K and the ticks done (R203). -/
  slew : Option (Params × Nat × Nat) := none
  /-- The targets become applied at the next tick (R205). -/
  stepDue : Bool := false
  /-- CONV_TIMEOUT passes in this rotation (R209). -/
  timeouts : Nat := 0
  /-- Consecutive dwells with q above SWAP_LIMIT (R209). -/
  badQ : Nat := 0
  /-- The slice fails self-test in service and waits for its replacement at the end of the pass, by the spare that shadowed it when it
  failed if one did (R210). -/
  swapDue : Bool := false
  swapFor : Option Nat := none
  /-- Of a shadowing spare: a conversion of its own has not completed though that of the slice it shadows has, and the index of the tick
  whose pass it has abandoned (R150). -/
  shadowOpen : Bool := false
  shadowGone : Option Nat := none
deriving DecidableEq, Repr

/-- A sentinel (R174 to R180). -/
structure Sent where
  armed : Bool := false
  /-- CH, THRESH and HYST in force, where a change waits for the hold to be free (R179). -/
  old : Option (Nat × Reg × Reg) := none
  /-- The crossing whose hold is latched: stamp, side, LATE_HOLD and HOLD_DLY. -/
  latched : Option (Stamp × Bool × Bool × Nat) := none
  pend : Option (Stamp × Bool) := none
deriving DecidableEq, Repr

/-! ## Calibration -/

/-- Moments of one estimation window: the count, the sums of products of the regressors 1, c, d_16 … d_23 in row order
of the lower triangle, their sums with the spare's code, and the spare's sum of squares (R197). -/
structure Moments where
  n : Nat := 0
  xx : List Int := []
  xs : List Int := []
  ss : Int := 0
  /-- OR and AND of the working slice's offset-binary raw codes over the window, and per bit 16 to 23 the conversions in
  which the spare's code lay on either side of the carry (R209). -/
  orBits : Nat := 0
  andBits : Nat := 0xFFFFFF
  carry : List (Nat × Nat) := []
deriving DecidableEq, Repr

/-- Moments of one window of a cross dwell: the count, and the sums of the duty spare's and the idle spare's factory-corrected
codes, their squares and their product (R198). -/
structure Cross where
  n : Nat := 0
  s : Int := 0
  o : Int := 0
  ss : Int := 0
  oo : Int := 0
  os : Int := 0
deriving DecidableEq, Repr

/-- The dwell in progress. -/
structure Dwell where
  group : Nat
  slice : Nat
  duty : Nat
  idle : Option Nat
  warm : Nat := 0
  w1 : Moments := {}
  w2 : Moments := {}
  c1 : Cross := {}
  c2 : Cross := {}
  /-- Hub time less its steps at which WARMUP began, in ns (R194, R216). -/
  startedAt : Nat := 0
deriving DecidableEq, Repr

/-- A calibration copy of the MRAM (R217): generation (0 is empty), validity, targets, roles and groups, ρ, δ, parity. -/
structure CalCopy where
  gen : Nat := 0
  valid : Bool := false
  targets : List Params := []
  roles : List (Nat × Nat) := []
  rho : Reg := 0
  delta : Reg := 0
  odd : Bool := false
  /-- The check word of a copy that is not valid. That of a valid copy follows from its content (R217). -/
  crc : Reg := 0
deriving DecidableEq, Repr

/-- Calibration beside its registers. -/
structure Cal where
  dwell : Option Dwell := none
  /-- The next group the rotation visits; 32 ends the rotation (R191). -/
  nextGroup : Nat := 0
  /-- The first dwell of the rotation is still to come. -/
  first : Bool := true
  /-- Hub time less its steps in ns at the start of the rotation (R195, R216). -/
  rotStart : Nat := 0
  /-- Accepted ρ and δ that take effect at the next dwell (R198). -/
  anchorDue : Option (Reg × Reg) := none
  /-- Slices whose self-test is running (R208). -/
  testing : List Nat := []
  /-- Hub time less its steps in ns of the last save, whether some target has changed since the last save began, and whether one had
  changed before it (R218). -/
  lastSave : Option Nat := none
  changed : Bool := false
  unsaved : Bool := false
  /-- The save in progress: target copy and content (R218). -/
  saving : Option (Bool × CalCopy) := none
deriving DecidableEq, Repr

/-! ## Records -/

/-- A trigger that has reached a context (R270): its time T in units of 125 ps, source code and SRC_ID, the origin hub ID if
its origin is a ring trigger, its arrival in ns of hub time (R274), and whether the hub slept then (R283). -/
structure Trigger where
  t : Nat
  src : Nat
  srcId : Nat
  ring : Option Nat := none
  arrival : Nat := 0
  asleep : Bool := false
deriving DecidableEq, Repr

/-- An item of a member's history: its slot number counted from the start of FILL, its tick index, whether it is a marker and
whether it was stored. A position that was not stored has the slot number of the next stored item. -/
structure SlotMeta where
  slot : Nat
  idx : Nat
  mark : Bool
  stored : Bool
deriving DecidableEq, Repr

/-- Measurements of a member (R285). -/
structure Meas where
  used : Nat := 0
  max : Int := 0
  min : Int := 0
  tmax : Nat := 0
  sum : Int := 0
  sq : Nat := 0
  fl : Flags := {}
  rng : Bool := false
  low : Bool := false
  crossings : Nat := 0
  /-- Instants of the first and last rising crossing, in 1/64 ns. -/
  firstX : Nat := 0
  lastX : Nat := 0
deriving DecidableEq, Repr

/-- A member of a context (R261 to R263, R277 to R281). -/
structure Member where
  ch : Nat
  /-- Slots written since the start of FILL; the next goes to slot wr mod C. -/
  wr : Nat := 0
  /-- Positions since the start of FILL, stored or not. -/
  pos : Nat := 0
  /-- The newest slots and positions, newest first. -/
  log : List SlotMeta := []
  /-- Number of the trigger position since the start of FILL, once it has come. -/
  trigPos : Option Nat := none
  trigIdx : Nat := 0
  /-- The record as it was cut: its first slot counted from the start of FILL, its slots, the tick indices of its first stored
  and of its trigger position, MAX, MIN, PP, MEAN, RMS, PERIOD and TMAX, and the flags of the first five (R292, R285). -/
  first : Nat := 0
  count : Nat := 0
  firstTick : Nat := 0
  trigTick : Nat := 0
  results : List Int := []
  resFlags : Flags := {}
  preActual : Nat := 0
  postActual : Nat := 0
  late : Bool := false
  shortPre : Bool := false
  measLate : Bool := false
  meas : Meas := {}
  done : Bool := false
  /-- The stored markers say that the channel is OFF, or has no sample ticks after a bank switch (R281). -/
  off : Bool := false
  noTicks : Bool := false
  /-- The RATE_CHANGE markers due ahead of the next position, oldest first: cause and log2 divisor of each step (R289). -/
  rateDue : List (Nat × Nat) := []
  /-- The positions are stored at divisor 2^divLog2. -/
  divLog2 : Nat := 0
  /-- TIME_STEP and SLEEP_GAP markers due ahead of the first position whose tick index exceeds the number beside them
  (R282). -/
  markDue : List (Nat × Word) := []
  /-- Newest tick index of a position that is no longer in the ring (R278). -/
  lostIdx : Option Nat := none
  /-- L of the member at the acceptance of the trigger in force (R278). -/
  accLate : Nat := 0
  /-- The ring slot at which the record was cut to begin (R298). -/
  firstSlot : Nat := 0
deriving DecidableEq, Repr

/-- A record context beside its registers. -/
structure Ctx where
  members : List Member := []
  /-- The members of the record held in DONE, kept until the next one (R298). -/
  held : List Member := []
  /-- Triggers that have reached the context and are not yet decided, in order of arrival (R274). -/
  waiting : List Trigger := []
  /-- The accepted trigger (R274). -/
  acc : Option Trigger := none
  /-- Tick index of the trigger tick once it has been issued, and TRIG_FRAC (R275). -/
  trigIdx : Option Nat := none
  frac : Nat := 0
  /-- The trigger tick is the first one with an index above this number, because of a step (R276). -/
  tstepTrig : Option Nat := none
  /-- Triggers ignored since acceptance (R284). -/
  ignored : Nat := 0
  /-- The record carries TSTEP, ABORTED (R281, R283). -/
  tstep : Bool := false
  aborted : Bool := false
  riseReady : Bool := false
  fallReady : Bool := false
  /-- The previous timer instant in ms (R270). -/
  lastTimer : Option Nat := none
  /-- Tick index of the tick at which FILL was entered (R267). -/
  fillIdx : Nat := 0
  /-- CMD.RELEASE ended the readout (R268). -/
  released : Bool := false
  /-- Cause 10 arose during the last readout (R288). -/
  hwmSeen : Bool := false
  /-- The writer's buffer exceeded 2,048 words after the last step (R288), in the record being written and in the last record
  that was completed. -/
  bufHigh : Bool := false
  lastHigh : Bool := false
  /-- On a joining hub: the context has converged (R398). -/
  conv : Bool := false
deriving DecidableEq, Repr

/-- What a readout engine is doing: its context, the next packet as phase (0 header, 1 channel, 2 data, 3 end), member
and slot number within the member's record, the slots skipped since the last packet and in the whole record (R290, R291,
R294). -/
structure Engine where
  ctx : Nat
  phase : Nat := 0
  k : Nat := 0
  slot : Nat := 0
  lost : Nat := 0
  skipped : Nat := 0
deriving DecidableEq, Repr

/-- The trigger engine and capture memory control. -/
structure Trig where
  /-- Contexts in DONE that wait for an engine, each with the elapsed cycles of its completion (R290). -/
  order : List (Nat × Nat) := []
  rd0 : Option Engine := none
  rd1 : Option Engine := none
  /-- Words staged in the buffers of WR_0 to WR_3 and words written since the writer's last step (R287). -/
  wr : List (Nat × Nat) := [(0, 1024), (0, 1024), (0, 1024), (0, 1024)]
  /-- Next capture word that SCRUB reads (R294). -/
  scrub : Nat := 0
  /-- Crossings, ring triggers and wale pulses a standby keeps for a takeover: tick count at arrival, context, trigger
  (R387). -/
  history : List (Nat × Nat × Trigger) := []
deriving DecidableEq, Repr

/-! ## Queues -/

/-- A packet in a queue: its length in words with PKT_HDR, its type, NS32 and TICK_LO at publication (R351), the EPOCH
it carries, and whether it is a GAP packet that can still count (R308). -/
structure Pkt where
  len : Nat
  typ : Nat
  ns32 : Nat := 0
  tickLo : Nat := 0
  epoch : Option HubTime := none
  gap : Bool := false
deriving DecidableEq, Repr

/-- Pending control markers of a queue (R311). -/
structure Pend where
  takeover : Option (Bool × Nat) := none
  sleepGap : Option Nat := none
  /-- The net step in ns. -/
  timeStep : Option Int := none
  epoch : Option HubTime := none
deriving DecidableEq, Repr

/-- An output queue beside its registers. -/
structure Queue where
  /-- The two copies of each pointer (R304, R306). -/
  wp : Nat := 0
  wp2 : Nat := 0
  rp : Nat := 0
  rp2 : Nat := 0
  /-- The packets between RP and WP, oldest first; the first may have been begun. -/
  pkts : List Pkt := []
  /-- Words of the first packet already read (R316). -/
  read : Nat := 0
  pend : Pend := {}
  /-- The newest EPOCH written ahead of the first remaining packet (R309). -/
  headEpoch : HubTime := ⟨0, 0⟩
  /-- Words discarded at the last disable, and packets discarded while disabled (R301). -/
  disWords : Nat := 0
  disPkts : Nat := 0
  /-- Packets of the open interval that wait for ACK, and space freed that waits for ACK (R390). -/
  held : Nat := 0
  heldFree : Nat := 0
deriving DecidableEq, Repr

/-- An arbiter beside its registers (R320 to R326): waiting requesters with the elapsed ns of their request, the most
recently served of each class, the owner, the break units since its grant, and the waiting requesters whose wait has been marked as too
long (R326). -/
structure Arb where
  waiting : List (Nat × Nat) := []
  served : List Nat := [0, 0, 0, 0]
  owner : Option Nat := none
  units : Nat := 0
  starved : List Nat := []
deriving DecidableEq, Repr

/-! ## Lines -/

/-- A line port beside its registers. -/
structure PortSt where
  /-- The level on Px_LOS (R335), what the receiver reports, and the elapsed cycles of entry to SYNC (R336). -/
  los : Bool := false
  sync : Bool := false
  syncAt : Nat := 0
  /-- Elapsed tenths of a nanosecond at which the frames this port has begun or taken for forwarding leave the line idle
  (R343 to R345). -/
  busy : Nat := 0
  /-- Frames of the forwarding buffer of this egress port, oldest first: each as it leaves, the elapsed tenths of a nanosecond at
  which it starts, and its wait in ns (R344). -/
  fwd : List (Frame × Nat × Nat) := []
  /-- Frames this port has sent, newest first. -/
  sent : List Frame := []
deriving DecidableEq, Repr

/-- A duplicate-table entry (R342). -/
structure DupEntry where
  src : Nat
  seq : Nat
  dir : Port
  at_ : Nat
deriving DecidableEq, Repr

/-- The ring node. -/
structure Net where
  pa : PortSt := {}
  pb : PortSt := {}
  /-- The duplicate table, newest first (R342). -/
  dup : List DupEntry := []
  /-- The local frame the node holds and the ports it is still to be sent on (R345). -/
  local_ : Option (Frame × Bool × Bool) := none
  /-- Elapsed tenths of a nanosecond at which the copies of that frame already begun have ended. -/
  localEnd : Nat := 0
  /-- Frames waiting at MGMT, a response with the key slot that signs it (R358), and at PTP for ARB_TX (R320); a PTP frame names
  its port. -/
  mgmtTx : List (Frame × Option Bool) := []
  ptpTx : List (Port × Frame) := []
  /-- Consumed management requests in order of arrival (R354). -/
  mgmtRx : List Frame := []
  /-- A key store in progress: slot and key (R359). -/
  keyStore : Option (Bool × BitVec 128) := none
  keyData : List Reg := [0, 0, 0, 0]
deriving DecidableEq, Repr

/-- The wale bus beside its registers. -/
structure Wale where
  /-- Lines still to measure, and the valid and total attempts and their sum for the current one (R367). -/
  todo : List Nat := []
  valid : Nat := 0
  tries : Nat := 0
  sum : Int := 0
  /-- Pulses this hub drives, or drove last: the line, the elapsed ns at the pulse's end, and its leading edge and width in ns
  of hub time (R365, R366). -/
  driving : List (Nat × Nat × Nat × Nat) := []
  /-- Pulses driven: line, newest first. -/
  sent : List Nat := []
  /-- Elapsed cycles at the last phase pulse, or at the entry of a role, and whether its loss has been raised (R368). -/
  wsyncAt : Nat := 0
  wsyncGone : Bool := false
deriving DecidableEq, Repr

/-! ## Pairs -/

/-- The state of a yield or takeover in progress (R402 to R406). -/
inductive YieldSt
  | none
  /-- The active has decided to yield at tick Y (index) for a cause, and finishes it. -/
  | deciding (y cause : Nat)
  /-- The final TICK record has been sent. -/
  | finalSent (y cause : Nat)
  /-- The final record has been acknowledged, and the frame in progress ends. -/
  | closing (y cause : Nat)
  /-- The YIELD record has been sent and YIELD_N is driven. -/
  | yielded (y cause : Nat)
  /-- The yield has been abandoned: no more frames from STREAM_MAC. -/
  | abandoned
deriving DecidableEq, Repr

/-- One thing a standby has staged for a queue (R389): a packet with its type and words after PKT_HDR, or control markers
that fell due. -/
inductive StagedItem
  | packet (typ : Nat) (words : List Word)
  | ctrl (p : Pend)
deriving DecidableEq, Repr

/-- A channel's window of the health check (R399). -/
structure Hc where
  n : Nat := 0
  sum : Int := 0
  sq : Nat := 0
  mean : Reg := 0
  rms : Reg := 0
deriving DecidableEq, Repr

/-- An own conversion of a standby kept for comparison and substitution (R386, R399): tick, group, local channel,
ordinal, sample, on the less sensitive range, parked. -/
structure OwnCode where
  idx : Nat
  n : Nat
  group : Nat
  l : Nat
  j : Nat
  code : Int
  fl : Flags
  low : Bool
  parked : Bool
deriving DecidableEq, Repr

/-- A mirrored code of a standby that waits for its own conversion of the same hold (R399): tick, group, local channel, ordinal and
the code word. -/
structure MirrCode where
  idx : Nat
  n : Nat
  group : Nat
  l : Nat
  j : Nat
  w : Reg
deriving DecidableEq, Repr

/-- A record on the pairing link with its sequence number and its CRC-32C (R382). -/
structure LinkFrame where
  seq : Nat
  crc : Reg
  body : LinkRec
deriving DecidableEq, Repr

/-- An interval whose ACK has not come (R390): its number, per queue the packets to publish and the words to free, the last tick
issued up to its end, and whether its record was marked final. -/
structure Unacked where
  interval : Nat
  queues : List (Nat × Nat × Nat)
  tick : Option Tick
  final : Bool
deriving DecidableEq, Repr

/-- The pair beside its registers. -/
structure Pair where
  /-- Lanes of the link with block lock (R382). -/
  lane0 : Bool := true
  lane1 : Bool := true
  /-- Failed tries of the record whose sequence number is `tryRec` (R382). -/
  tryRec : Nat := 0
  tries : Nat := 0
  /-- Records sent on the link, oldest first. -/
  out : List LinkFrame := []
  /-- Milliseconds of elapsed time whose TIME and HEALTH records are sent, and the hub time at which the partner's last TIME record
  came (R383). -/
  msDone : Nat := 0
  heard : Option HubTime := none
  yst : YieldSt := .none
  /-- Elapsed cycles at which the final TICK record was sent, or at which YIELD_N was seen (R402, R404). -/
  yieldAt : Nat := 0
  /-- Elapsed cycles of entry to the present role (R380, R381). -/
  roleAt : Nat := 0
  /-- Interval in progress, the words written in it with their queues, newest first, the decisions about each queue, oldest
  first, and the queue of each packet sent or read (R388, R389). -/
  interval : Nat := 0
  words : List (Nat × Word) := []
  fates : List (Nat × Fate) := []
  gone : List Nat := []
  unacked : List Unacked := []
  /-- Staged items of a standby, oldest first, each with its queue and the mirrored tick in whose part it was staged (R389). -/
  staging : List (Nat × StagedItem × Nat) := []
  /-- The last complete mirrored tick of a standby, or the last acknowledged tick of an active (R403, R411). -/
  lastC : Option Tick := none
  /-- Per group the tick of the last complete pass, as grid count and index (R403). -/
  lastPass : List (Nat × Nat × Nat) := []
  own : List OwnCode := []
  mirr : List MirrCode := []
  hc : List (Nat × Hc) := []
  /-- Partner's HEALTH: strap, elapsed cycles of arrival. -/
  partnerStrap : Option Bool := none
  healthAt : Option Nat := none
  /-- Last SEQ per stream and H reported by the active (R383). -/
  lastSeqs : List Nat := []
  lastH : Nat := 0
  /-- Consecutive second boundaries with differing digests (R395). -/
  cfgBad : Nat := 0
  ownDigest : Option Reg := none
  /-- Timeout takeover has happened: later records are late (R404). -/
  lateFrom : Bool := false
  /-- The hub has become ACTIVE by a takeover and waits 500 ns before it drives EXD_gg and connects its stages (R406). -/
  exdWait : Bool := false
  /-- YIELD_N was seen: the takeover is a yield (R404). -/
  yieldSeen : Bool := false
  /-- On a joining hub, the first interval in which every producer had converged, and per queue the packets from earlier
  intervals that the active has not yet reported as gone (R398). -/
  convAt : Option Nat := none
  older : List (Nat × Nat) := []
  /-- The digests agreed at the last second boundary compared (R395). -/
  cfgOk : Bool := false
  /-- Tick index of the pair commit in hand, and whether the active waits for its acknowledgement (R396). -/
  commitIdx : Nat := 0
  commitWait : Bool := false
  /-- On a standby or joining hub, the tick whose part in the mirrored stream has begun (R386). -/
  streamIdx : Option Nat := none
  /-- Due in-band interrupts of a standby or joining hub, which its HEALTH record carries (R427). -/
  due : List DueIrq := []
  /-- The YIELD record has arrived (R402), and 10 µs have passed without it (R404). -/
  yieldRec : Bool := false
  forceTake : Bool := false
  /-- Conversions of ticks below this index carry SUB, after a takeover by timeout (R403). -/
  subBefore : Nat := 0
  /-- A joining hub has found its partner ACTIVE and executes mirrored codes (R397). -/
  executing : Bool := false
deriving DecidableEq, Repr

/-! ## Faults, interrupts and the rim log -/

/-- A rim-log entry (R432): four 32-bit words. -/
structure RimEntry where
  w0 : Reg
  w1 : Reg
  w2 : Reg
  w3 : Reg
deriving DecidableEq, Repr

/-- A rim-log copy of the MRAM (R435, R437). -/
structure RimCopy where
  gen : Nat := 0
  valid : Bool := true
  entries : List RimEntry := []
  /-- The check word of a copy that is not valid. That of a valid copy follows from its content (R435). -/
  crc : Reg := 0
deriving DecidableEq, Repr

/-- Fault and interrupt routing beside the registers. -/
structure Rim where
  /-- The SRAM log, newest first, at most 1,024 entries (R430). -/
  log : List RimEntry := []
  /-- The copy in progress: target (true is B) and content (R435). -/
  saving : Option (Bool × List RimEntry) := none
  /-- The captures still open: page and elapsed ns of the first fault (R419). -/
  capture : List (Nat × Nat) := []
  /-- Injected FATAL faults whose cause persists: page and bit (R429). -/
  injected : List (Nat × Nat) := []
  /-- Pages with a due in-band interrupt, in order (R425). -/
  due : List Nat := []
  /-- Per page the elapsed cycles of its last interrupt packet and the interrupts due since (R425). -/
  hold : List (Nat × Nat × Nat) := []
  /-- Progress through the TEST_KEY sequence (R428). -/
  key : Nat := 0
  testMode : Bool := false
  /-- Pages of the blocks that FABRIC_WDOG has found stalled, the latest first; they stand still until reset (R417). -/
  stalled : List Nat := []
  /-- The faults being raised are injected ones (R429). -/
  injecting : Bool := false
  /-- RD_SEL was written and its snapshot is not yet in place (R438). -/
  rdDue : Bool := false
  /-- A FATAL fault was set in this command and its effect on the pair role (R416) is still to be taken. -/
  fatalDue : Bool := false
deriving DecidableEq, Repr

/-! ## MRAM, start-up and power -/

/-- A slath-image copy (R471, R472). -/
structure SlathCopy where
  gen : Nat := 0
  valid : Bool := false
  /-- The image's words that differ from the reset values, by register address. -/
  image : List (Nat × Reg) := []
  marks : List Nat := []
  /-- The check word of a copy that is not valid. That of a valid copy follows from its words. -/
  crc : Reg := 0
  /-- The copy has never been written since the part left the factory (R472). -/
  blank : Bool := false
deriving DecidableEq, Repr

/-- The MRAM (R5): factory trims, calibration copies, slath copies, rim copies and keys. It survives reset. -/
structure Mram where
  grade : Nat := 0
  serial : Nat := 0
  /-- The check word of the factory-trim partition matches (R470). -/
  factoryOk : Bool := true
  /-- Three factory trim codes per channel: −40 °C, +25 °C, +125 °C (R99). -/
  trims : List (Nat × (Int × Int × Int)) := []
  /-- DEC_F0 to DEC_F3 per channel, by 4 c + k (R144). -/
  decF : List (Nat × Nat) := []
  /-- Factory parameters per slice (R188). -/
  params : List (Nat × Params) := []
  calA : CalCopy := { gen := 1, valid := true }
  calB : CalCopy := {}
  slathA : SlathCopy := { gen := 1, valid := true }
  slathB : SlathCopy := { blank := true }
  rimA : RimCopy := { gen := 1 }
  rimB : RimCopy := { gen := 0 }
  key0 : Option (BitVec 128) := none
  key1 : Option (BitVec 128) := none
  ctr0 : Nat := 0
  ctr1 : Nat := 0
deriving DecidableEq, Repr

/-- Start-up and power control (R466 to R481). -/
structure Power where
  /-- RESET_N is low. -/
  held : Bool := false
  /-- Start-up was abandoned on PFW_N (R467). -/
  abandoned : Bool := false
  /-- PFW_N is asserted. -/
  pfw : Bool := false
  /-- TEST_EN as it was sampled when RESET_N rose (R428). -/
  testEn : Bool := false
  /-- WAKE was written in ENTERING (R476). -/
  wakeHeld : Bool := false
  /-- Hub time in ns of the last sleep entry and of the wake decision (R480, R485). -/
  sleptAt : Nat := 0
  wokeAt : Nat := 0
  /-- The slath save in progress: target and content (R475). -/
  saving : Option (Bool × SlathCopy) := none
  /-- Supplies out of range, as a 5-bit set (R418). -/
  supplies : BitVec 5 := 0
  /-- Time in ns from the rise of RESET_N, or from a restart, to the beginning of hub time, and from the rise of RESET_N to that restart
  (R467, R468). -/
  bootLead : Nat := 0
  bootLate : Nat := 0
  /-- RATE is below the slow corner: since which elapsed cycle, and whether FABRIC_SLOW has been set for it (R470). -/
  slow : Option (Nat × Bool) := none
deriving DecidableEq, Repr

/-! ## The host interface -/

/-- The latches of one access path (R173, R447). -/
structure Latches where
  now : Option (Nat × Nat) := none
  pps : Option (Nat × Nat) := none
  lastOffset : Option Reg := none
  pendOffset : Option Reg := none
  lastIdx : Option Reg := none
  schedIdx : Option Reg := none
  takeIdx : Option Reg := none
  res : List (Nat × Option Reg) := []
  evt : List (Nat × Option (Reg × Reg)) := []
  data : List (Nat × Option Reg) := []
  cap : List (Nat × Option Reg) := []
deriving DecidableEq, Repr

/-- The QSPI transaction in progress (R457 to R460): an unknown opcode ends it, a late word spoils the rest. -/
structure Qspi where
  ignore : Bool := false
  late : Bool := false
  /-- The aligned 16-word bursts of capture memory held per access path, newest first: number, words, and which are uncorrectable
  (R456). -/
  bufQ : List (Nat × List (Word × Bool)) := []
  bufM : List (Nat × List (Word × Bool)) := []
deriving DecidableEq, Repr

/-- A requested commit (R449): its page, the tick index it still waits for, and whether it was scheduled for a tick. -/
structure Commit where
  page : Nat
  at_ : Option Nat := none
  sched : Bool := false
  /-- The tick index that a scheduled commit waited for. -/
  rel : Nat := 0
  /-- Channels of a RAIN page that have still to take the new values (R252). -/
  chans : List Nat := []
deriving DecidableEq, Repr

/-- The pins (R76, R139, R335, R376, R418, R428, R502). -/
structure Pins where
  /-- BLANK_N_3 to BLANK_N_0 at their levels. -/
  blankN : BitVec 4 := 0xF
  /-- PAIR_PRESENT_N is asserted. -/
  present : Bool := false
  /-- YIELD_N and TAKE_N as the partner drives them. -/
  yieldIn : Bool := false
  takeIn : Bool := false
  /-- PPS_OUT pulses given: boundary seconds, newest first. -/
  pps : List Nat := []
  /-- PPS_OUT is high until this count of elapsed cycles (R76). -/
  ppsUntil : Nat := 0
  /-- The stamp of PPS_IN has not been read (R77). -/
  ppsUnread : Bool := false
  /-- The boundary-scan instruction in force (R503). -/
  jtag : Option JtagOp := none
deriving DecidableEq, Repr

/-- The state of the hub. -/
structure State where
  /-- The commands that wait, first in first out. -/
  pending : List Instr := []
  time : TimeBase := {}
  /-- Running values of the registers, by byte address; an unlisted register holds its reset value (R16). -/
  regs : List (Nat × Reg) := []
  /-- Staged values of the registers with RWS fields (R17). -/
  staged : List (Nat × Reg) := []
  commits : List Commit := []
  latchQ : Latches := {}
  latchM : Latches := {}
  /-- The 32-bit words the last read returned, oldest first. -/
  rdata : List Reg := []
  qspi : Qspi := {}
  pins : Pins := {}
  servo : Servo := {}
  ptp : Ptp := {}
  grid : Grid := {}
  wale : Wale := {}
  group : List (Nat × Group) := []
  chan : List (Nat × Chan) := []
  slice : List (Nat × Slice) := []
  sent : List (Nat × Sent) := []
  /-- Sentinels whose holds wait for SENT_ADC or are in conversion, in order (R176). -/
  sentQ : List Nat := []
  cal : Cal := {}
  trig : Trig := {}
  ctx : List (Nat × Ctx) := []
  /-- Capture memory by word (R262). -/
  capMem : List (Nat × Word) := []
  /-- Capture words in error: 1 correctable, 2 not (R294). -/
  capEcc : List (Nat × Nat) := []
  queue : List (Nat × Queue) := []
  /-- Per coefficient set the tick index from which the running bank applies (R231). -/
  firAt : List (Nat × Nat) := []
  /-- Queue memory by word (R300). -/
  qmem : List (Nat × Word) := []
  arbMem : Arb := { served := [7, 7, 7, 7] }
  arbTx : Arb := { served := [65, 65, 65, 65] }
  net : Net := {}
  pair : Pair := {}
  rim : Rim := {}
  mram : Mram := {}
  power : Power := {}
  /-- The model's own counter of free values drawn (log entry 3). -/
  free : Nat := 0
deriving DecidableEq, Repr

/-- The hub right after reset: RESET_N has just risen on a part as it left the factory (R16, R475). -/
def State.reset : State := {}

end Sys2Proof.Machine
end

