-- ==== Sys2Proof/Machine/Operands.lean ====
section
/-!
DEFINITION. The forms data takes in the hub: the 40-bit word (R168), the marker words (R170), packet headers and extension
words, the addresses of registers by instance, and CRC-32C (R515).
-/

namespace Sys2Proof.Machine

/-! ## Words (R168, R169) -/

/-- The flags of a word as its bits [38:33] (R168). -/
def flagBits (f : Flags) : Nat :=
  b2n f.ovr * 2 ^ 5 + b2n f.blk * 2 ^ 4 + b2n f.rtr * 2 ^ 3 + b2n f.opn * 2 ^ 2 + b2n f.cals * 2 + b2n f.sub

/-- The word of a sample: V = 1, MRK = 0, its flags, and its value sign-extended into 32 bits (R164, R168). -/
def packWord (x : Sample) : Word := BitVec.ofNat 40 (2 ^ 39 + flagBits x.fl * 2 ^ 33 + unsigned 32 x.val)

/-- A word with V = 1, all flags 0 and a 32-bit content: descriptors, statistics, counts and interrupt words (R11). -/
def dataWord (v : Nat) : Word := BitVec.ofNat 40 (2 ^ 39 + v % 2 ^ 32)

/-- The data word of a signed value. -/
def dataWordInt (v : Int) : Word := dataWord (unsigned 32 v)

/-- A word with V = 1, MRK = 1, other flags 0 (R169). -/
def markWord (v : Nat) : Word := BitVec.ofNat 40 (2 ^ 39 + 2 ^ 32 + v % 2 ^ 32)

/-- The not-valid word (R169). -/
def notValid : Word := 0

/-- The low 32 bits of a word. -/
def wordLo (w : Word) : Reg := w.setWidth 32

/-- Bits [39:32] of a word. -/
def wordHi (w : Word) : Nat := w.toNat / 2 ^ 32

/-! ## Markers (R170) -/

/-- A marker word of type `t` with contents `c` in [27:0]. -/
def marker (t c : Nat) : Word := markWord (t * 2 ^ 28 + c % 2 ^ 28)

/-- GAP (R170, R310): the count, or 0xFFF_FFFF for an unknown one. -/
def mkGap (n : Nat) : Word := marker 0x1 n

/-- TIME_STEP for a step of `e` ns: a positive `e` sets hub time back. The magnitude is in µs, rounded up (R62). -/
def mkTimeStep (e : Int) : Word :=
  marker 0x2 (b2n (decide (0 < e)) * 2 ^ 27 + satNat 0x7FFFFFF (ceilDiv e.natAbs 1000))

/-- RATE_CHANGE with SRC 0: context, cause and log2 of the storage divisor (R170, R289). -/
def mkRateCtx (x cause log2 : Nat) : Word := marker 0x3 (x * 2 ^ 19 + cause * 2 ^ 4 + log2)

/-- RECORD_START: context and low 20 bits of the record number (R170). -/
def mkRecordStart (x recNo : Nat) : Word := marker 0x4 (x * 2 ^ 20 + recNo % 2 ^ 20)

/-- TAKEOVER: cause (1 for a timeout) and the hub ID of the new active (R407). -/
def mkTakeover (timeout : Bool) (hub : Nat) : Word := marker 0x6 (b2n timeout * 2 ^ 27 + hub % 2 ^ 16)

/-- FLUSH: words discarded, saturating (R317). -/
def mkFlush (n : Nat) : Word := marker 0x7 (satNat 0xFFFFFFF n)

/-- SLEEP_GAP: grid instants not issued, saturating (R108). -/
def mkSleepGap (n : Nat) : Word := marker 0xA (satNat 0xFFFFFFF n)

/-- The markers of a channel's stream (R127, R165, R170). -/
def chMarkerWord : ChMarker → Word
  | .rangeChange ch mode range auto qrst short =>
    marker 0x8 (ch * 2 ^ 19 + mode * 2 ^ 16 + range * 2 ^ 13 + b2n auto * 2 ^ 12 + b2n qrst * 2 ^ 11 + short)
  | .rateChange ch cause short => marker 0x3 (2 ^ 27 + ch * 2 ^ 18 + cause * 2 ^ 16 + short)
  | .calStep slice group => marker 0x5 (slice * 2 ^ 22 + group * 2 ^ 17)
  | .sliceSwap retired spare group => marker 0x9 (retired * 2 ^ 22 + spare * 2 ^ 16 + group * 2 ^ 11)

/-- An EPOCH marker with its two extension words (R53). -/
def epochWords (t : HubTime) : List Word :=
  [marker 0xB (t.sec / 2 ^ 32 % 2 ^ 16), markWord (t.sec % 2 ^ 32), markWord (t.ns % 2 ^ 30)]

/-- PKT_HDR: queue number, packet type and count of the words that follow (R170). -/
def pktHdr (q typ cnt : Nat) : Word := marker 0xC (q * 2 ^ 22 + typ * 2 ^ 19 + cnt)

/-- The packet types of R170. -/
abbrev typSamples : Nat := 0
abbrev typRecord : Nat := 1
abbrev typStats : Nat := 2
abbrev typRain : Nat := 3
abbrev typMarker : Nat := 4
abbrev typIrq : Nat := 5

/-! ## Bytes and CRC-32C (R23, R515) -/

/-- A 32-bit word as four bytes, most significant first. -/
def bytes32 (w : Nat) : List Byte :=
  [BitVec.ofNat 8 (w / 2 ^ 24), BitVec.ofNat 8 (w / 2 ^ 16), BitVec.ofNat 8 (w / 2 ^ 8), BitVec.ofNat 8 w]

/-- A 40-bit word as five bytes, most significant first (R23). -/
def bytes40 (w : Word) : List Byte := BitVec.ofNat 8 (w.toNat / 2 ^ 32) :: bytes32 w.toNat

/-- The low `n` bytes of a number, most significant first. -/
def bytesBE : Nat → Nat → List Byte
  | 0, _ => []
  | n + 1, x => BitVec.ofNat 8 (x / 2 ^ (8 * n)) :: bytesBE n x

/-- One bit of the reflected Castagnoli division. -/
def crcBit (c : BitVec 32) : BitVec 32 := if c.getLsbD 0 then (c >>> 1) ^^^ 0x82F63B78#32 else c >>> 1

/-- One byte of the division. -/
def crcByte (c : BitVec 32) (b : Byte) : BitVec 32 :=
  crcBit (crcBit (crcBit (crcBit (crcBit (crcBit (crcBit (crcBit (c ^^^ b.setWidth 32))))))))

/-- CRC-32C of a byte sequence: initial value and final XOR of all ones, bit-reflected (R515). -/
def crc32c (l : List Byte) : Reg := (l.foldl crcByte 0xFFFFFFFF#32) ^^^ 0xFFFFFFFF#32

end Sys2Proof.Machine
end

