-- ==== Sys2Proof/Config.lean ====
section
/-!
DEFINITION. What the spec leaves open: the free values. None of them has a body, so nothing can be proved about
which value they take.
-/

namespace Sys2Proof

/-- FREE VALUE (log entry 3). The choice between the two roundings of a quotient whose rounding the spec does not give,
applied to the counter `State.free`: false is down, true is up. -/
opaque Config.freeRound : Nat → Bool

/-- FREE VALUE (log entry 3). A number that the spec does not state, applied to the counter `State.free`. -/
opaque Config.freeInt : Nat → Int

/-- FREE VALUE (log entry 86). The CRC-32C that a record of the pairing link carries: the spec does not lay its words out. Applied to the
record's sequence number and its content. -/
opaque Config.linkCrc : Nat → LinkRec → Reg

end Sys2Proof
end

