-- ==== Sys2Proof/Machine/Signals.lean ====
section
/-!
DEFINITION. The page numbers of R454, and the interrupt and fault bits that the owning chapters assign in the INT_STS and
FLT_STS registers of their pages (R421, R413).
-/

namespace Sys2Proof.Machine

/-- An interrupt bit: its page and its bit in INT_STS (R421). -/
structure IntBit where
  page : Nat
  bit : Nat
deriving DecidableEq, Repr

/-- A fault bit: its page, its bit in FLT_STS (which is its source code) and its class code (R413). -/
structure FltBit where
  page : Nat
  bit : Nat
  cls : Nat
deriving DecidableEq, Repr

/-- The class codes of R413. -/
abbrev clsCorr : Nat := 1
abbrev clsCont : Nat := 2
abbrev clsFatal : Nat := 3

/-! ## Page numbers (R454) -/

abbrev pgCHIP : Nat := 0x000
abbrev pgTIME : Nat := 0x001
abbrev pgPTP : Nat := 0x002
abbrev pgTICK : Nat := 0x003
abbrev pgHOST : Nat := 0x004
abbrev pgNVM : Nat := 0x005
abbrev pgRIM : Nat := 0x006
abbrev pgCAL : Nat := 0x007
abbrev pgSENT : Nat := 0x008
abbrev pgRED : Nat := 0x009
abbrev pgTRIG : Nat := 0x00A
abbrev pgARBMEM : Nat := 0x00B
abbrev pgARBTX : Nat := 0x00C
abbrev pgPAIR : Nat := 0x00D
abbrev pgHSR : Nat := 0x010
abbrev pgWALE : Nat := 0x011
abbrev pgPORT (p : Nat) : Nat := 0x00E + p
abbrev pgFE (g : Nat) : Nat := 0x020 + g
abbrev pgSLICE (n : Nat) : Nat := 0x040 + n
abbrev pgCHTAB (g : Nat) : Nat := 0x080 + g
abbrev pgFIRSET (f : Nat) : Nat := 0x0A0 + f
abbrev pgRAIN (g : Nat) : Nat := 0x0B0 + g
abbrev pgCTX (x : Nat) : Nat := 0x100 + x
abbrev pgQ (q : Nat) : Nat := 0x200 + q

/-! ## Interrupt bits (R80, R82, R110, R147, R184, R186, R223, R225, R256, R258, R260, R297, R299, R330, R333, R370, R372,
R374, R412, R444, R462, R464, R486) -/

abbrev Irq.backPending : IntBit := ⟨pgTIME, 0⟩
abbrev Irq.fwdPending : IntBit := ⟨pgTIME, 1⟩
abbrev Irq.stepDone : IntBit := ⟨pgTIME, 2⟩
abbrev Irq.locked : IntBit := ⟨pgTIME, 3⟩
abbrev Irq.holdover : IntBit := ⟨pgTIME, 4⟩
abbrev Irq.ppsIn : IntBit := ⟨pgTIME, 5⟩
abbrev Irq.pendCleared : IntBit := ⟨pgTIME, 6⟩
abbrev Irq.masterLost : IntBit := ⟨pgPTP, 0⟩
abbrev Irq.masterChange : IntBit := ⟨pgPTP, 1⟩
abbrev Irq.portSwitch : IntBit := ⟨pgPTP, 2⟩
abbrev Irq.pdelayFail : IntBit := ⟨pgPTP, 3⟩
abbrev Irq.utcChange : IntBit := ⟨pgPTP, 4⟩
abbrev Irq.catchup : IntBit := ⟨pgTICK, 0⟩
abbrev Irq.resumed : IntBit := ⟨pgTICK, 1⟩
abbrev Irq.gridChanged : IntBit := ⟨pgTICK, 2⟩
abbrev Irq.alignFail : IntBit := ⟨pgTICK, 3⟩
abbrev Irq.trimSat : IntBit := ⟨pgTICK, 4⟩
abbrev Irq.open_ (g : Nat) : IntBit := ⟨pgFE g, 0⟩
abbrev Irq.openCleared (g : Nat) : IntBit := ⟨pgFE g, 1⟩
abbrev Irq.excLow (g : Nat) : IntBit := ⟨pgFE g, 2⟩
abbrev Irq.excLimit (g : Nat) : IntBit := ⟨pgFE g, 3⟩
abbrev Irq.blankStart (g : Nat) : IntBit := ⟨pgFE g, 4⟩
abbrev Irq.blankEnd (g : Nat) : IntBit := ⟨pgFE g, 5⟩
abbrev Irq.rangeSw (g : Nat) : IntBit := ⟨pgFE g, 6⟩
abbrev Irq.bankSwitched (n : Nat) : IntBit := ⟨pgSLICE n, 0⟩
abbrev Irq.wrActive (n : Nat) : IntBit := ⟨pgSLICE n, 1⟩
abbrev Irq.cross (n : Nat) : IntBit := ⟨pgSENT, n⟩
abbrev Irq.overrun : IntBit := ⟨pgSENT, 16⟩
abbrev Irq.conflict : IntBit := ⟨pgSENT, 17⟩
abbrev Irq.rotDone : IntBit := ⟨pgCAL, 0⟩
abbrev Irq.rejected : IntBit := ⟨pgCAL, 1⟩
abbrev Irq.swapped : IntBit := ⟨pgCAL, 2⟩
abbrev Irq.stale : IntBit := ⟨pgCAL, 3⟩
abbrev Irq.spareDrift : IntBit := ⟨pgCAL, 4⟩
abbrev Irq.anchorSingle : IntBit := ⟨pgCAL, 5⟩
abbrev Irq.noSpare : IntBit := ⟨pgCAL, 6⟩
abbrev Irq.slathSaved : IntBit := ⟨pgNVM, 0⟩
abbrev Irq.bootDone : IntBit := ⟨pgNVM, 1⟩
abbrev Irq.sleepEntered : IntBit := ⟨pgNVM, 2⟩
abbrev Irq.woke : IntBit := ⟨pgNVM, 3⟩
abbrev Irq.calSaved : IntBit := ⟨pgNVM, 8⟩
abbrev Irq.macRefused : IntBit := ⟨pgRED, 0⟩
abbrev Irq.pktRefused : IntBit := ⟨pgRED, 1⟩
abbrev Irq.firBankSwitched (f : Nat) : IntBit := ⟨pgFIRSET f, 0⟩
abbrev Irq.firWrActive (f : Nat) : IntBit := ⟨pgFIRSET f, 1⟩
abbrev Irq.dumped (g : Nat) : IntBit := ⟨pgRAIN g, 0⟩
abbrev Irq.resOvf (g : Nat) : IntBit := ⟨pgRAIN g, 1⟩
abbrev Irq.ringRx : IntBit := ⟨pgTRIG, 0⟩
abbrev Irq.armRefused : IntBit := ⟨pgTRIG, 1⟩
abbrev Irq.rateStep : IntBit := ⟨pgTRIG, 2⟩
abbrev Irq.recordDone : IntBit := ⟨pgTRIG, 3⟩
abbrev Irq.roDone : IntBit := ⟨pgTRIG, 4⟩
abbrev Irq.tooLate : IntBit := ⟨pgTRIG, 5⟩
abbrev Irq.wmHi (q : Nat) : IntBit := ⟨pgQ q, 0⟩
abbrev Irq.wmLo (q : Nat) : IntBit := ⟨pgQ q, 1⟩
abbrev Irq.loss (q : Nat) : IntBit := ⟨pgQ q, 2⟩
abbrev Irq.flushed (q : Nat) : IntBit := ⟨pgQ q, 3⟩
abbrev Irq.qReset (q : Nat) : IntBit := ⟨pgQ q, 4⟩
abbrev Irq.memStarve : IntBit := ⟨pgARBMEM, 0⟩
abbrev Irq.memDrained : IntBit := ⟨pgARBMEM, 1⟩
abbrev Irq.freezeRefused : IntBit := ⟨pgARBMEM, 2⟩
abbrev Irq.txStarve : IntBit := ⟨pgARBTX, 0⟩
abbrev Irq.txDrained : IntBit := ⟨pgARBTX, 1⟩
abbrev Irq.linkUp (p : Nat) : IntBit := ⟨pgPORT p, 0⟩
abbrev Irq.portLinkDown (p : Nat) : IntBit := ⟨pgPORT p, 1⟩
abbrev Irq.losChange (p : Nat) : IntBit := ⟨pgPORT p, 2⟩
abbrev Irq.authFail : IntBit := ⟨pgHSR, 0⟩
abbrev Irq.replay : IntBit := ⟨pgHSR, 1⟩
abbrev Irq.keyStored : IntBit := ⟨pgHSR, 2⟩
abbrev Irq.modeMismatch : IntBit := ⟨pgHSR, 3⟩
abbrev Irq.measDone : IntBit := ⟨pgWALE, 0⟩
abbrev Irq.measFail : IntBit := ⟨pgWALE, 1⟩
abbrev Irq.wclkLost : IntBit := ⟨pgWALE, 2⟩
abbrev Irq.wsyncLost : IntBit := ⟨pgWALE, 3⟩
abbrev Irq.tkTaken : IntBit := ⟨pgWALE, 4⟩
abbrev Irq.roleChange : IntBit := ⟨pgPAIR, 0⟩
abbrev Irq.ready : IntBit := ⟨pgPAIR, 1⟩
abbrev Irq.takeover : IntBit := ⟨pgPAIR, 2⟩
abbrev Irq.partnerLost : IntBit := ⟨pgPAIR, 3⟩
abbrev Irq.digestFail : IntBit := ⟨pgPAIR, 4⟩
abbrev Irq.cfgMismatch : IntBit := ⟨pgPAIR, 5⟩
abbrev Irq.hcFail : IntBit := ⟨pgPAIR, 6⟩
abbrev Irq.pairCommitRefused : IntBit := ⟨pgPAIR, 7⟩
abbrev Irq.strapConflict : IntBit := ⟨pgPAIR, 8⟩
abbrev Irq.pairLinkDown : IntBit := ⟨pgPAIR, 9⟩
abbrev Irq.frozen : IntBit := ⟨pgRIM, 0⟩
abbrev Irq.saved : IntBit := ⟨pgRIM, 1⟩
abbrev Irq.unfrozen : IntBit := ⟨pgRIM, 2⟩
abbrev Irq.late : IntBit := ⟨pgHOST, 0⟩
abbrev Irq.badOp : IntBit := ⟨pgHOST, 1⟩
abbrev Irq.addrErr : IntBit := ⟨pgHOST, 2⟩
abbrev Irq.commitRefused : IntBit := ⟨pgCHIP, 0⟩
abbrev Irq.commitApplied : IntBit := ⟨pgCHIP, 1⟩

/-! ## Fault bits -/

abbrev Flt.holdoverExpired : FltBit := ⟨pgTIME, 0, clsFatal⟩
abbrev Flt.pllUnlock : FltBit := ⟨pgTIME, 1, clsFatal⟩
abbrev Flt.refclkLoss : FltBit := ⟨pgTIME, 2, clsFatal⟩
abbrev Flt.tsOvf : FltBit := ⟨pgPTP, 0, clsCont⟩
abbrev Flt.strobeEcho : FltBit := ⟨pgTICK, 0, clsCont⟩
abbrev Flt.exdMon (g : Nat) : FltBit := ⟨pgFE g, 0, clsCont⟩
abbrev Flt.convTimeout (n : Nat) : FltBit := ⟨pgSLICE n, 0, clsCont⟩
abbrev Flt.sentAdcTimeout : FltBit := ⟨pgSENT, 0, clsCont⟩
abbrev Flt.sliceSwapped : FltBit := ⟨pgCAL, 0, clsCorr⟩
abbrev Flt.selftestFail : FltBit := ⟨pgCAL, 1, clsCorr⟩
abbrev Flt.swapBlocked : FltBit := ⟨pgCAL, 2, clsCont⟩
abbrev Flt.slathCopyBad : FltBit := ⟨pgNVM, 0, clsCorr⟩
abbrev Flt.slathWrFail : FltBit := ⟨pgNVM, 1, clsCont⟩
abbrev Flt.slathBothBad : FltBit := ⟨pgNVM, 2, clsFatal⟩
abbrev Flt.factoryBad : FltBit := ⟨pgNVM, 3, clsCont⟩
abbrev Flt.bistFail : FltBit := ⟨pgNVM, 4, clsCont⟩
abbrev Flt.fabricSlow : FltBit := ⟨pgNVM, 5, clsCont⟩
abbrev Flt.calCopyBad : FltBit := ⟨pgNVM, 8, clsCorr⟩
abbrev Flt.calWrFail : FltBit := ⟨pgNVM, 9, clsCont⟩
abbrev Flt.calBothBad : FltBit := ⟨pgNVM, 10, clsFatal⟩
abbrev Flt.resOvf (g : Nat) : FltBit := ⟨pgRAIN g, 0, clsCont⟩
abbrev Flt.capEccSgl : FltBit := ⟨pgTRIG, 0, clsCorr⟩
abbrev Flt.capEccDbl : FltBit := ⟨pgTRIG, 1, clsCont⟩
abbrev Flt.ptrMismatch (q : Nat) : FltBit := ⟨pgQ q, 0, clsCont⟩
abbrev Flt.fwdOvf (p : Nat) : FltBit := ⟨pgPORT p, 0, clsCont⟩
abbrev Flt.keyStoreFail : FltBit := ⟨pgHSR, 0, clsCont⟩
abbrev Flt.driveCheck : FltBit := ⟨pgWALE, 0, clsCont⟩
abbrev Flt.linkRetry : FltBit := ⟨pgPAIR, 0, clsCorr⟩
abbrev Flt.digestMismatch : FltBit := ⟨pgPAIR, 1, clsCont⟩
abbrev Flt.linkLoss : FltBit := ⟨pgPAIR, 2, clsCont⟩
abbrev Flt.rimCopyBad : FltBit := ⟨pgRIM, 0, clsCorr⟩
abbrev Flt.rimWrFail : FltBit := ⟨pgRIM, 1, clsCont⟩
abbrev Flt.supplyRange : FltBit := ⟨pgRIM, 8, clsFatal⟩
abbrev Flt.fabricWdog : FltBit := ⟨pgRIM, 9, clsFatal⟩

/-- The fault that source code `bit` names on page `p`; none where the page has no such fault (R429). -/
def faultOf (p bit : Nat) : Option FltBit :=
  let one (l : List FltBit) : Option FltBit := l.find? (fun f => f.bit == bit)
  if p = pgTIME then one [Flt.holdoverExpired, Flt.pllUnlock, Flt.refclkLoss]
  else if p = pgPTP then one [Flt.tsOvf]
  else if p = pgTICK then one [Flt.strobeEcho]
  else if p = pgNVM then one [Flt.slathCopyBad, Flt.slathWrFail, Flt.slathBothBad, Flt.factoryBad, Flt.bistFail,
    Flt.fabricSlow, Flt.calCopyBad, Flt.calWrFail, Flt.calBothBad]
  else if p = pgRIM then one [Flt.rimCopyBad, Flt.rimWrFail, Flt.supplyRange, Flt.fabricWdog]
  else if p = pgCAL then one [Flt.sliceSwapped, Flt.selftestFail, Flt.swapBlocked]
  else if p = pgSENT then one [Flt.sentAdcTimeout]
  else if p = pgTRIG then one [Flt.capEccSgl, Flt.capEccDbl]
  else if p = pgPAIR then one [Flt.linkRetry, Flt.digestMismatch, Flt.linkLoss]
  else if p = 0x00E ∨ p = 0x00F then one [Flt.fwdOvf (p - 0x00E)]
  else if p = pgHSR then one [Flt.keyStoreFail]
  else if p = pgWALE then one [Flt.driveCheck]
  else if 0x020 ≤ p ∧ p < 0x040 then one [Flt.exdMon (p - 0x020)]
  else if 0x040 ≤ p ∧ p < 0x062 then one [Flt.convTimeout (p - 0x040)]
  else if 0x0B0 ≤ p ∧ p < 0x0D0 then one [Flt.resOvf (p - 0x0B0)]
  else if 0x200 ≤ p ∧ p < 0x240 then one [Flt.ptrMismatch (p - 0x200)]
  else none

/-- The FATAL bits of page `p` as a mask of FLT_STS (R417, R472). -/
def fatalMask (p : Nat) : Nat :=
  if p = pgTIME then 0x7 else if p = pgNVM then 0x404 else if p = pgRIM then 0x300 else 0

end Sys2Proof.Machine
end

