-- ==== Sys2Proof/Machine/Ops.lean ====
section
/-!
DEFINITION. The named operations that every command is built from: reading and writing register fields, running time on,
raising interrupts and faults, first-fault capture and the rim log.
-/

namespace Sys2Proof.Machine

/-! ## The register map (R445, R448, R454) -/

/-- Byte offset `off` of a page is one of the registers of row `r`. -/
def hitRow (off : Nat) (r : RegRow) : Bool :=
  if r.stride = 0 then decide (off = r.off)
  else decide (r.off ≤ off) && decide ((off - r.off) % r.stride = 0) && decide ((off - r.off) / r.stride < r.count)

/-- The rows of the block registers of page `p`; none for a page that R454 does not list, and for CAPWIN. -/
def pageRows (p : Nat) : Option (List RegRow) :=
  if p = pgCHIP then some rowsCHIP
  else if p = pgTIME then some rowsTIME
  else if p = pgPTP then some rowsPTP
  else if p = pgTICK then some rowsTICK
  else if p = pgHOST then some rowsHOST
  else if p = pgNVM then some rowsNVM
  else if p = pgRIM then some rowsRIM
  else if p = pgCAL then some rowsCAL
  else if p = pgSENT then some rowsSENT
  else if p = pgRED then some rowsRED
  else if p = pgTRIG then some rowsTRIG
  else if p = pgARBMEM then some rowsARBMEM
  else if p = pgARBTX then some rowsARBTX
  else if p = pgPAIR then some rowsPAIR
  else if p = 0x00E ∨ p = 0x00F then some rowsPORT
  else if p = pgHSR then some rowsHSR
  else if p = pgWALE then some rowsWALE
  else if 0x020 ≤ p ∧ p ≤ 0x03F then some rowsFE
  else if 0x040 ≤ p ∧ p ≤ 0x05F then some rowsSLICE
  else if 0x060 ≤ p ∧ p ≤ 0x061 then some rowsSPARE
  else if 0x080 ≤ p ∧ p ≤ 0x09F then some rowsCH
  else if 0x0A0 ≤ p ∧ p ≤ 0x0AF then some rowsFIRSET
  else if 0x0B0 ≤ p ∧ p ≤ 0x0CF then some rowsRAIN
  else if 0x100 ≤ p ∧ p ≤ 0x1FF then some rowsCTX
  else if 0x200 ≤ p ∧ p ≤ 0x23F then some rowsQ
  else none

/-- A page of the capture window (R454, R455). -/
def isCapwin (p : Nat) : Bool := decide (0x300 ≤ p) && decide (p ≤ 0x3FF)

/-- The pages of R454 with a header, in rising order. -/
def headerPages : List Nat :=
  List.range 0x12 ++ (List.range 32).map pgFE ++ (List.range 34).map pgSLICE ++ (List.range 32).map pgCHTAB
    ++ (List.range 16).map pgFIRSET ++ (List.range 32).map pgRAIN ++ (List.range 256).map pgCTX
    ++ (List.range 64).map pgQ

/-- The first page of the block that page `p` belongs to (R454). -/
def firstPage (p : Nat) : Nat :=
  if p = 0x00F then 0x00E
  else if 0x020 ≤ p ∧ p ≤ 0x03F then 0x020
  else if 0x040 ≤ p ∧ p ≤ 0x061 then 0x040
  else if 0x080 ≤ p ∧ p ≤ 0x09F then 0x080
  else if 0x0A0 ≤ p ∧ p ≤ 0x0AF then 0x0A0
  else if 0x0B0 ≤ p ∧ p ≤ 0x0CF then 0x0B0
  else if 0x100 ≤ p ∧ p ≤ 0x1FF then 0x100
  else if 0x200 ≤ p ∧ p ≤ 0x23F then 0x200
  else p

/-- The pages that hold RWS fields: those that STAGE_CTL works on (R448, R449). -/
def hasRws (p : Nat) : Bool :=
  decide (p = pgTICK) || decide (p = pgCAL) || (decide (0x040 ≤ p) && decide (p ≤ 0x061))
    || (decide (0x080 ≤ p) && decide (p ≤ 0x09F)) || (decide (0x0A0 ≤ p) && decide (p ≤ 0x0AF))
    || (decide (0x0B0 ≤ p) && decide (p ≤ 0x0CF)) || (decide (0x100 ≤ p) && decide (p ≤ 0x1FF))
    || (decide (0x200 ≤ p) && decide (p ≤ 0x23F))

/-- The page of a byte address (R445). -/
abbrev pageOf (a : Nat) : Nat := a / 0x1000

/-- The byte offset of an address in its page (R445). -/
abbrev offOf (a : Nat) : Nat := a % 0x1000

/-- The register row of a word-aligned address; none for a reserved offset (R18) or a page without registers. -/
def rowOf (a : Nat) : Option RegRow :=
  match pageRows (pageOf a) with
  | none => none
  | some rows => if offOf a < 0x40 then rowsHDR.find? (hitRow (offOf a)) else rows.find? (hitRow (offOf a))

/-- The reset value of the register at address `a` (R16). Beside the constants of the tables it takes the values that
depend on the instance: PAGE_ID (R454), Q_CFG.BASE (R329), the coefficient of tap 0 (R257), and the group and role of a
slice as shipped (R183). -/
def resetWord (a : Nat) : Reg :=
  let p := pageOf a
  let o := offOf a
  if o = 0 then
    (match pageRows p with
     | none => 0
     | some _ => BitVec.ofNat 32 ((0x8000 + firstPage p) * 0x10000 + (p - firstPage p)))
  else
    let base : Nat := match rowOf a with
      | none => 0
      | some r => r.reset
    if 0x200 ≤ p ∧ p ≤ 0x23F ∧ o = 0x040 then BitVec.ofNat 32 (base + (4 * (p - 0x200)) * 0x10000)
    else if 0x0A0 ≤ p ∧ p ≤ 0x0AF ∧ (o = 0x400 ∨ o = 0x800) then 0x400000#32
    else if 0x040 ≤ p ∧ p ≤ 0x05F ∧ o = 0x044 then BitVec.ofNat 32 (base + (p - 0x040) * 0x40000)
    else if (p = 0x060 ∨ p = 0x061) ∧ o = 0x044 then BitVec.ofNat 32 (base + 0x80000000)
    else BitVec.ofNat 32 base

/-! ## Register access

A register has one home: `regs` for the running value and, for a register with RWS fields, `staged` for the staged one. -/

/-- The running value of the register at address `a`. -/
def State.reg (s : State) (a : Nat) : Reg := sget (resetWord a) s.regs a

/-- The staged value of the register at address `a` (R17). -/
def State.stg (s : State) (a : Nat) : Reg := sget (resetWord a) s.staged a

/-- Sets the running value of the register at address `a`. -/
def State.setReg (s : State) (a : Nat) (v : Reg) : State := { s with regs := sset (resetWord a) s.regs a v }

/-- Sets the staged value of the register at address `a`. -/
def State.setStg (s : State) (a : Nat) (v : Reg) : State := { s with staged := sset (resetWord a) s.staged a v }

/-- The running value of a field. -/
def State.fld (s : State) (f : Fld) : Nat := getBits (s.reg f.addr) f.lo f.width

/-- The running value of a one-bit field as a truth value. -/
def State.bit (s : State) (f : Fld) : Bool := decide (s.fld f ≠ 0)

/-- The running value of a field read as two's complement. -/
def State.sfld (s : State) (f : Fld) : Int := signed f.width (s.fld f)

/-- The staged value of a field. -/
def State.stgFld (s : State) (f : Fld) : Nat := getBits (s.stg f.addr) f.lo f.width

/-- Sets the running value of a field to the low bits of `x`. -/
def State.setFld (s : State) (f : Fld) (x : Nat) : State := s.setReg f.addr (putBits (s.reg f.addr) f.lo f.width x)

/-- Sets a one-bit field. -/
def State.setBit (s : State) (f : Fld) (b : Bool) : State := s.setFld f (b2n b)

/-- Sets a field to the two's complement of `x`. -/
def State.setSfld (s : State) (f : Fld) (x : Int) : State := s.setFld f (unsigned f.width x)

/-- Adds `k` events to a saturating counter (R20). -/
def State.count (s : State) (f : Fld) (k : Nat := 1) : State := s.setFld f (satNat (2 ^ f.width - 1) (s.fld f + k))

/-- A 64-bit quantity held in a low and a high register. -/
def State.fld64 (s : State) (lo hi : Fld) : Nat := s.fld lo + 2 ^ lo.width * s.fld hi

/-- Sets a quantity held in a low and a high register. -/
def State.setFld64 (s : State) (lo hi : Fld) (x : Nat) : State := (s.setFld lo x).setFld hi (x / 2 ^ lo.width)

/-- Applies `f` for every element of a list, first to last. -/
def State.each {α : Type} (s : State) (l : List α) (f : State → α → State) : State := l.foldl f s

/-- Applies `f` if the condition holds. -/
def State.when (s : State) (b : Bool) (f : State → State) : State := if b then f s else s

/-! ## Instances -/

def State.getChan (s : State) (c : Nat) : Chan := sget {} s.chan c
def State.setChan (s : State) (c : Nat) (x : Chan) : State := { s with chan := sset {} s.chan c x }
def State.modChan (s : State) (c : Nat) (f : Chan → Chan) : State := s.setChan c (f (s.getChan c))
def State.getGroup (s : State) (g : Nat) : Group := sget {} s.group g
def State.setGroup (s : State) (g : Nat) (x : Group) : State := { s with group := sset {} s.group g x }
def State.modGroup (s : State) (g : Nat) (f : Group → Group) : State := s.setGroup g (f (s.getGroup g))
def State.getSlice (s : State) (n : Nat) : Slice := sget {} s.slice n
def State.setSlice (s : State) (n : Nat) (x : Slice) : State := { s with slice := sset {} s.slice n x }
def State.modSlice (s : State) (n : Nat) (f : Slice → Slice) : State := s.setSlice n (f (s.getSlice n))
def State.getSent (s : State) (n : Nat) : Sent := sget {} s.sent n
def State.setSent (s : State) (n : Nat) (x : Sent) : State := { s with sent := sset {} s.sent n x }
def State.modSent (s : State) (n : Nat) (f : Sent → Sent) : State := s.setSent n (f (s.getSent n))
def State.getCtx (s : State) (x : Nat) : Ctx := sget {} s.ctx x
def State.setCtx (s : State) (x : Nat) (v : Ctx) : State := { s with ctx := sset {} s.ctx x v }
def State.modCtx (s : State) (x : Nat) (f : Ctx → Ctx) : State := s.setCtx x (f (s.getCtx x))
def State.getQ (s : State) (q : Nat) : Queue := sget {} s.queue q
def State.setQ (s : State) (q : Nat) (v : Queue) : State := { s with queue := sset {} s.queue q v }
def State.modQ (s : State) (q : Nat) (f : Queue → Queue) : State := s.setQ q (f (s.getQ q))
def State.modPair (s : State) (f : Pair → Pair) : State := { s with pair := f s.pair }
def State.modRim (s : State) (f : Rim → Rim) : State := { s with rim := f s.rim }
def State.modCal (s : State) (f : Cal → Cal) : State := { s with cal := f s.cal }
def State.modNet (s : State) (f : Net → Net) : State := { s with net := f s.net }
def State.modGrid (s : State) (f : Grid → Grid) : State := { s with grid := f s.grid }
def State.modServo (s : State) (f : Servo → Servo) : State := { s with servo := f s.servo }
def State.modPtp (s : State) (f : Ptp → Ptp) : State := { s with ptp := f s.ptp }
def State.modTime (s : State) (f : TimeBase → TimeBase) : State := { s with time := f s.time }
def State.modTrig (s : State) (f : Trig → Trig) : State := { s with trig := f s.trig }
def State.modWale (s : State) (f : Wale → Wale) : State := { s with wale := f s.wale }
def State.modPower (s : State) (f : Power → Power) : State := { s with power := f s.power }
def State.modMram (s : State) (f : Mram → Mram) : State := { s with mram := f s.mram }
def State.modPins (s : State) (f : Pins → Pins) : State := { s with pins := f s.pins }

/-- The ports by number: 0 is PORT_A, 1 is PORT_B (R454). -/
def portNum : Port → Nat
  | .a => 0
  | .b => 1

/-- The other port. -/
def otherPort : Port → Port
  | .a => .b
  | .b => .a

def State.getPort (s : State) : Port → PortSt
  | .a => s.net.pa
  | .b => s.net.pb
def State.setPort (s : State) (p : Port) (x : PortSt) : State :=
  match p with
  | .a => { s with net := { s.net with pa := x } }
  | .b => { s with net := { s.net with pb := x } }
def State.modPort (s : State) (p : Port) (f : PortSt → PortSt) : State := s.setPort p (f (s.getPort p))

/-! ## Free values (log entry 3) -/

/-- Draws the free choice between rounding down (false) and up (true), where a quotient is not exact. -/
def State.roundFree (s : State) (num : Int) (den : Nat) : Int × State :=
  let q := num / (den : Int)
  if num % (den : Int) = 0 then (q, s)
  else (if Config.freeRound s.free then q + 1 else q, { s with free := s.free + 1 })

/-- Draws a number that the spec does not state. -/
def State.drawFree (s : State) : Int × State := (Config.freeInt s.free, { s with free := s.free + 1 })

/-! ## Time (R49, R50, R52) -/

/-- Hub time in nanoseconds. -/
def htNs (t : HubTime) : Nat := t.sec * nsPerSec + t.ns

/-- The instant that lies `n` nanoseconds after 0 s 0 ns; the seconds count has 48 bits (R49). -/
def timeOfNs (n : Nat) : HubTime := ⟨n / nsPerSec % 2 ^ 48, n % nsPerSec⟩

/-- A stamp in nanoseconds, its FRAC left out. -/
def stampNs (t : Stamp) : Nat := t.sec * nsPerSec + t.ns

/-- A stamp in units of 125 ps. -/
def stampUnits (t : Stamp) : Nat := stampNs t * 8 + t.frac

/-- Hub time now, in nanoseconds. -/
def State.nowNs (s : State) : Nat := s.time.sec * nsPerSec + s.time.ns

/-- Hub time now. -/
def State.now (s : State) : HubTime := ⟨s.time.sec, s.time.ns⟩

/-- Hub time less the sum of its steps, in nanoseconds: it runs on over a step (R216). -/
def State.smoothNs (s : State) : Nat := ((s.nowNs : Int) - s.time.jump).toNat

/-- NS32 of a time in nanoseconds (R52). -/
def ns32Of (n : Nat) : Nat := n % 2 ^ 32

/-- NS32 now. -/
def State.ns32 (s : State) : Nat := ns32Of s.nowNs

/-- Elapsed time in nanoseconds since reset: 2 ns a cycle (R50). -/
def State.elapsedNs (s : State) : Nat := 2 * s.time.cycles

/-- Hub time is set to `n` nanoseconds. -/
def State.setNow (s : State) (n : Nat) : State :=
  s.modTime fun t => { t with sec := (timeOfNs n).sec, ns := (timeOfNs n).ns }

/-- The increment of one counter cycle in units of 2^-32 of a 2 ns step: 2^32 plus FREQ_ADJ (R50). -/
def State.cycleStep (s : State) : Nat := (2 ^ 32 + s.sfld F.TIME.FREQ_ADJ.ADJ).toNat

/-- The time counter runs for `n` cycles: each adds one step of 2 ns and FREQ_ADJ to the accumulator, whose carries and
borrows add and withhold steps (R50). A second boundary passed on the way is marked as crossed (log entry 6). -/
def State.runCycles (s : State) (n : Nat) : State :=
  let pos := (s.nowNs / 2) * 2 ^ 32 + s.time.acc + n * s.cycleStep
  let crossed := s.time.crossed || decide (s.nowNs / nsPerSec < 2 * (pos / 2 ^ 32) / nsPerSec)
  (s.setNow (2 * (pos / 2 ^ 32))).modTime fun t =>
    { t with acc := pos % 2 ^ 32, cycles := t.cycles + n, crossed := crossed }

/-- Time runs on until the elapsed time is at least `c` cycles. -/
def State.reachCycles (s : State) (c : Nat) : State := s.runCycles (c - s.time.cycles)

/-- Time runs on until hub time is at least `n` nanoseconds; nothing happens if it is already. -/
def State.reachNs (s : State) (n : Nat) : State :=
  let pos := (s.nowNs / 2) * 2 ^ 32 + s.time.acc
  let goal := ((n + 1) / 2) * 2 ^ 32
  s.runCycles (ceilDiv (goal - pos) s.cycleStep)

/-! ## MRAM copies -/

/-- Which of two copies is the newer valid one: false is A, true is B, none if neither is valid. Copy A counts as newer when
both are valid with equal generations (R435, R472). -/
def newerCopy (validA : Bool) (genA : Nat) (validB : Bool) (genB : Nat) : Option Bool :=
  if validA then (if validB && decide (genA < genB) then some true else some false)
  else if validB then some true else none

/-- The copy the next save writes: the one that is not the newer valid one; copy A if neither is valid. -/
def targetCopy (newer : Option Bool) : Bool :=
  match newer with
  | some b => !b
  | none => false

/-! ## The rim log (R430 to R437) -/

/-- The entry of R432. -/
def State.rimEntry (s : State) (detail : Reg) (page code cls : Nat) (inj : Bool) : RimEntry where
  w0 := detail
  w1 := BitVec.ofNat 32 ((s.time.sec / 2 ^ 32 % 2 ^ 16) * 2 ^ 16 + (page % 2 ^ 10) * 2 ^ 6 + b2n inj * 2 ^ 5 + code % 2 ^ 5)
  w2 := BitVec.ofNat 32 (cls % 4 * 2 ^ 30 + s.time.ns)
  w3 := BitVec.ofNat 32 (s.time.sec % 2 ^ 32)

/-- The log takes an entry, or counts it in DROP_CNT while it is frozen (R430, R434). -/
def State.rimTake (s : State) (e : RimEntry) : State :=
  if s.bit F.RIM.RIM_STS.FROZEN then s.count F.RIM.DROP_CNT.CNT
  else
    (s.setFld F.RIM.RIM_SEQ.SEQ (s.fld F.RIM.RIM_SEQ.SEQ + 1)).modRim
      fun r => { r with log := (e :: r.log).take 1024 }

/-- The event codes of R433. -/
abbrev evReset : Nat := 0
abbrev evBoot : Nat := 1
abbrev evPfw : Nat := 2
abbrev evRole : Nat := 3
abbrev evTimeStep : Nat := 4
abbrev evTimeState : Nat := 5
abbrev evUnfreeze : Nat := 6
abbrev evSleep : Nat := 7
abbrev evCommitRefused : Nat := 8
abbrev evHost : Nat := 9

/-- The log takes an event if LOG_EVT is set (R431, R433). -/
def State.rimEvent (s : State) (code : Nat) (detail : Nat) : State :=
  if s.bit F.RIM.RIM_CTL.LOG_EVT then s.rimTake (s.rimEntry (BitVec.ofNat 32 detail) pgRIM code 0 false) else s

/-- The newer valid rim copy. -/
def Mram.rimNewer (m : Mram) : Option Bool := newerCopy m.rimA.valid m.rimA.gen m.rimB.valid m.rimB.gen

/-- Writes one of the rim copies. -/
def Mram.setRim (m : Mram) (b : Bool) (c : RimCopy) : Mram := if b then { m with rimB := c } else { m with rimA := c }
def Mram.getRim (m : Mram) (b : Bool) : RimCopy := if b then m.rimB else m.rimA
def Mram.setCal (m : Mram) (b : Bool) (c : CalCopy) : Mram := if b then { m with calB := c } else { m with calA := c }
def Mram.getCal (m : Mram) (b : Bool) : CalCopy := if b then m.calB else m.calA
def Mram.setSlath (m : Mram) (b : Bool) (c : SlathCopy) : Mram :=
  if b then { m with slathB := c } else { m with slathA := c }
def Mram.getSlath (m : Mram) (b : Bool) : SlathCopy := if b then m.slathB else m.slathA

/-- The generation of the newer valid rim copy, 0 if neither is valid. -/
def Mram.rimGen (m : Mram) : Nat :=
  match m.rimNewer with
  | some b => (m.getRim b).gen
  | none => 0

/-- A calibration save in progress ends without effect: what it was to save still waits to be saved (R218, R219). -/
def State.calSaveDrop (s : State) : State :=
  s.modCal fun c => if c.saving.isSome then { c with saving := none, changed := c.changed || c.unsaved } else c

/-- A calibration save, a slath save and a key store in progress are abandoned (R219, R435, R475). -/
def State.savesAbandon (s : State) : State :=
  ((s.calSaveDrop.modPower fun p => { p with saving := none }).modMram fun m => match s.net.keyStore with
    | some (slot, _) => if slot then { m with key1 := none } else { m with key0 := none }
    | none => m).modNet fun x => { x with keyStore := none }

/-- A copy of the log into MRAM begins (R435): a calibration save, a slath save and a key store in progress are abandoned,
and the copy that is not the newer valid one is being overwritten, so that its generation and its check word are no longer known (log
entry 3). A counter write is complete at once in this model. -/
def State.rimCopyStart (s : State) : State :=
  let b := targetCopy s.mram.rimNewer
  let (x, s) := s.drawFree
  (s.savesAbandon.modMram fun m =>
    m.setRim b { m.getRim b with valid := false, gen := (x % 2 ^ 32).toNat, crc := BitVec.ofInt 32 (x / 2 ^ 32) }).modRim
    fun r => { r with saving := some (b, r.log) }

/-! ## Interrupts (R421, R422, R425) -/

/-- The bits of page `p` that are pending: set in both INT_STS and INT_EN (R421). -/
def State.pendingBits (s : State) (p : Nat) : Reg := s.reg (0x1000 * p + 0x010) &&& s.reg (0x1000 * p + 0x014)

/-- Records the in-band interrupts that fall due when bits of page `p` become pending (R425): one per bit. -/
def State.dueBits (s : State) (p : Nat) (before : Reg) : State :=
  if s.bit (F.HDR.INT_ROUTE.INBAND p) then
    let new := s.pendingBits p &&& ~~~ before
    let k := ((List.range 32).filter (fun i => new.getLsbD i)).length
    s.modRim fun r => { r with due := r.due ++ List.replicate k p }
  else s

/-- Hardware sets a bit of INT_STS (R421). -/
def State.raiseInt (s : State) (i : IntBit) : State :=
  let before := s.pendingBits i.page
  (s.setReg (0x1000 * i.page + 0x010) (s.reg (0x1000 * i.page + 0x010) ||| BitVec.ofNat 32 (2 ^ i.bit))).dueBits i.page before

/-- The log freezes with the cause given (01 PFW_N, 10 FATAL) and a copy starts (R434). A freeze that is already in force
starts no second copy. FROZEN is raised (R444). -/
def State.rimFreeze (s : State) (cause : Nat) : State :=
  if s.bit F.RIM.RIM_STS.FROZEN then s
  else (((s.setBit F.RIM.RIM_STS.FROZEN true).setFld F.RIM.RIM_STS.CAUSE cause).rimCopyStart).raiseInt Irq.frozen

/-- The level of IRQ_N_n as an asserted flag: some page that routes to it has a pending bit (R422). -/
def State.irqAsserted (s : State) (n : Nat) : Bool :=
  headerPages.any fun p => (s.fld (F.HDR.INT_ROUTE.PINS p)).testBit n && decide (s.pendingBits p ≠ 0)

/-- FAULT_N is asserted: some FATAL bit of some page is set (R416, R424). -/
def State.faultAsserted (s : State) : Bool :=
  [pgTIME, pgNVM, pgRIM].any fun p => decide (s.fld (F.HDR.FLT_STS.FAULTS p) &&& fatalMask p ≠ 0)

/-! ## Faults (R413 to R420) -/

/-- First-fault capture (R419): the first fault to reach an armed page is captured; a fault that reaches the page within
4 ns of it takes its place if its class is higher, or equal with a lower source code. -/
def State.captureFault (s : State) (f : FltBit) : State :=
  let p := f.page
  let opened := s.rim.capture.any fun e => decide (e.1 = p) && decide (s.time.cycles < e.2 + 2)
  if s.bit (F.HDR.FLT_FIRST.VALID p) = false then
    ((((s.setBit (F.HDR.FLT_FIRST.VALID p) true).setFld (F.HDR.FLT_FIRST.CLASS p) f.cls).setFld
      (F.HDR.FLT_FIRST.SOURCE p) f.bit).setFld (F.HDR.FLT_FIRST_TIME.NS32 p) s.ns32).modRim
      fun r => { r with capture := (p, s.time.cycles) :: r.capture.filter (fun e => decide (e.1 ≠ p)) }
  else if opened then
    let s := s.setBit (F.HDR.FLT_FIRST.COINC p) true
    let c := s.fld (F.HDR.FLT_FIRST.CLASS p)
    if c < f.cls ∨ (c = f.cls ∧ f.bit < s.fld (F.HDR.FLT_FIRST.SOURCE p)) then
      (s.setFld (F.HDR.FLT_FIRST.CLASS p) f.cls).setFld (F.HDR.FLT_FIRST.SOURCE p) f.bit
    else s
  else s

/-- One occurrence of a fault (R413, R414, R416, R419, R421, R431): its bit, its counter, its capture, its interrupts, its
entry in the rim log and, for a FATAL fault, the freeze of the log. The effect on the pair role is taken at the end of the
command. -/
def State.raiseFaultInj (s : State) (f : FltBit) (inj : Bool) : State :=
  let fld := F.HDR.FLT_STS.FAULTS f.page
  let old := s.fld fld
  let new := old.testBit f.bit = false
  let s := s.setFld fld (old ||| 2 ^ f.bit)
  let s := if f.cls = clsCorr then s.count (F.HDR.FLT_CNT_CORR.CNT f.page)
    else if f.cls = clsCont then s.count (F.HDR.FLT_CNT_CONT.CNT f.page) else s
  let s := s.captureFault f
  let s := s.when new fun s =>
    let s := s.raiseInt ⟨f.page, 31⟩
    let s := s.when (decide (f.cls = clsFatal)) fun s => s.raiseInt ⟨f.page, 30⟩
    s.when (decide (f.cls ≠ clsCorr) || s.bit F.RIM.RIM_CTL.LOG_CORR) fun s =>
      s.rimTake (s.rimEntry (BitVec.ofNat 32 (s.fld fld)) f.page f.bit f.cls inj)
  s.when (decide (f.cls = clsFatal)) fun s =>
    (s.rimFreeze 2).modRim fun r => { r with fatalDue := true }

/-- One occurrence of a fault: a real one, unless it is being injected (R429). -/
def State.raiseFault (s : State) (f : FltBit) : State := s.raiseFaultInj f s.rim.injecting

/-- A fault bit is set in FLT_STS of its page. -/
def State.faultSet (s : State) (f : FltBit) : Bool := (s.fld (F.HDR.FLT_STS.FAULTS f.page)).testBit f.bit

/-- The block of page `p` has stalled and stopped with FABRIC_WDOG (R417, R418). -/
def State.stalledAt (s : State) (p : Nat) : Bool := s.rim.stalled.contains p

/-- Some FATAL bit of some page is set. -/
abbrev State.anyFatal (s : State) : Bool := s.faultAsserted

/-- Start-up is under way: no tick comes before its step 9 (R468). -/
def State.booting (s : State) : Bool :=
  decide (1 ≤ s.fld F.NVM.BOOT_STS.STEP) && decide (s.fld F.NVM.BOOT_STS.STEP < 9)

/-! ## Roles (R379) -/

abbrev roleSolo : Nat := 0
abbrev roleActive : Nat := 1
abbrev roleStandby : Nat := 2
abbrev roleJoining : Nat := 3
abbrev roleYielded : Nat := 4
abbrev roleFailed : Nat := 5

/-- The role of the hub. -/
def State.role (s : State) : Nat := s.fld F.PAIR.PAIR_STS.ROLE

/-- SOLO or ACTIVE: the hub sends, drives EXD_gg and builds its streams from its own codes (R379). -/
def State.leads (s : State) : Bool := decide (s.role = roleSolo) || decide (s.role = roleActive)

/-- STANDBY or JOINING: the hub runs on mirrored codes (R379). -/
def State.follows (s : State) : Bool := decide (s.role = roleStandby) || decide (s.role = roleJoining)

/-- The partner executes in step: this hub is ACTIVE and the partner is STANDBY or JOINING (R390). -/
def State.mirrored (s : State) : Bool :=
  decide (s.role = roleActive)
    && (decide (s.fld F.PAIR.PAIR_STS.PARTNER_ROLE = roleStandby) || decide (s.fld F.PAIR.PAIR_STS.PARTNER_ROLE = roleJoining))

/-- A record goes out on the pairing link while it is up, under the next sequence number (R382, R383). -/
def State.linkSend (s : State) (r : LinkRec) : State :=
  if s.bit F.PAIR.PAIR_STS.LINK_UP then
    s.modPair fun p => { p with out := p.out ++ [⟨p.out.length, Config.linkCrc p.out.length r, r⟩] }
  else s

/-- TAKE_N is asserted at the hub: low, and not by its own drive (R376). -/
def State.fenced (s : State) : Bool := s.pins.takeIn && !s.bit F.PAIR.PAIR_STS.TAKE_DRV

/-- YIELD_N is asserted at the hub: low, and not by its own drive (R376). -/
def State.yieldAsserted (s : State) : Bool := s.pins.yieldIn && !s.bit F.PAIR.PAIR_STS.YIELD_DRV

/-- A timeout has won, and a record of the former active comes too late (R404). -/
def State.late (s : State) : Bool := s.pair.lateFrom || s.pair.forceTake

/-- A record arrives: late, it is discarded and counted; otherwise it acts through `f` (R404). -/
def State.ifTimely (s : State) (f : State → State) : State := if s.late then s.count F.PAIR.PAIR_LATE.CNT else f s

/-- The active tells its partner what it decides about queue `q` (R389). -/
def State.fate (s : State) (q : Nat) (f : Fate) : State :=
  s.when s.mirrored fun s => s.modPair fun p => { p with fates := p.fates ++ [(q, f)] }

/-- An ACTIVE hub sends a decision to its partner as it takes it (R387). -/
def State.sendDecision (s : State) (d : Decision) : State := if s.mirrored then s.linkSend (.decision d) else s

/-- A write that only the active may act on is ignored on a STANDBY or JOINING hub and counted (R387). -/
def State.ifNotFollowing (s : State) (f : State → State) : State :=
  if s.follows then s.count F.PAIR.CMD_IGNORED.CNT else f s

end Sys2Proof.Machine
end

