-- ==== Sys2Proof/Machine/Cmac.lean ====
section
/-!
DEFINITION. The 128-bit AES-128 CMAC of R356 and the bytes it covers. The block cipher and the mode are those of the standard that
R356 names (log entry 12).
-/

namespace Sys2Proof.Machine

/-! ## AES-128 -/

/-- Multiplication by x in GF(2^8). -/
def gfX (b : Byte) : Byte := if b.getLsbD 7 then (b <<< 1) ^^^ 0x1B#8 else b <<< 1

/-- The same on numbers below 256. -/
def gfDouble (b : Nat) : Nat := if b < 128 then 2 * b else (2 * b) ^^^ 0x11B

/-- Multiplication in GF(2^8): the product of `a` with the low `n` bits of `b`, highest first. -/
def gfMulFrom (a b : Nat) : Nat → Nat → Nat
  | 0, acc => acc
  | n + 1, acc => gfMulFrom a b n (if b.testBit n then gfDouble acc ^^^ a else gfDouble acc)

/-- Multiplication in GF(2^8). -/
def gfMul (a b : Nat) : Nat := gfMulFrom a b 8 0

/-- The inverse in GF(2^8), which is the power 254; 0 gives 0. -/
def gfInv (a : Nat) : Nat :=
  let a2 := gfMul a a
  let a3 := gfMul a2 a
  let a12 := gfMul (gfMul a3 a3) (gfMul a3 a3)
  let a15 := gfMul a12 a3
  let a60 := gfMul (gfMul a15 a15) (gfMul a15 a15)
  let a63 := gfMul a60 a3
  let a126 := gfMul a63 a63
  gfMul (gfMul a126 a) (gfMul a126 a)

/-- A byte turned left by `n` places. -/
def turned (b n : Nat) : Nat := b * 2 ^ n % 256 + b / 2 ^ (8 - n)

/-- The substitution of a byte. -/
def aesSub (a : Byte) : Byte :=
  let b := gfInv a.toNat
  BitVec.ofNat 8 (b ^^^ turned b 1 ^^^ turned b 2 ^^^ turned b 3 ^^^ turned b 4 ^^^ 0x63)

/-- XOR of two byte strings. -/
def xorBytes (a b : List Byte) : List Byte := List.zipWith (· ^^^ ·) a b

/-- The next round key from the last one and its round constant. -/
def aesNextKey (k : List Byte) (rc : Byte) : List Byte :=
  let t := [aesSub (k.getD 13 0) ^^^ rc, aesSub (k.getD 14 0), aesSub (k.getD 15 0), aesSub (k.getD 12 0)]
  let w0 := xorBytes (k.take 4) t
  let w1 := xorBytes ((k.drop 4).take 4) w0
  let w2 := xorBytes ((k.drop 8).take 4) w1
  let w3 := xorBytes (k.drop 12) w2
  w0 ++ w1 ++ w2 ++ w3

/-- The rows of the state, which is held column by column, shift left by their number. -/
def aesShift (s : List Byte) : List Byte := (List.range 16).map fun i => s.getD ((i + 4 * (i % 4)) % 16) 0

/-- One column is mixed. -/
def aesMixColumn (a b c d : Byte) : List Byte :=
  [gfX a ^^^ gfX b ^^^ b ^^^ c ^^^ d, a ^^^ gfX b ^^^ gfX c ^^^ c ^^^ d, a ^^^ b ^^^ gfX c ^^^ gfX d ^^^ d,
   gfX a ^^^ a ^^^ b ^^^ c ^^^ gfX d]

/-- All columns are mixed. -/
def aesMix (s : List Byte) : List Byte :=
  (List.range 4).flatMap fun i => aesMixColumn (s.getD (4 * i) 0) (s.getD (4 * i + 1) 0) (s.getD (4 * i + 2) 0) (s.getD (4 * i + 3) 0)

/-- The rounds after the first key addition; `n` rounds remain. -/
def aesRounds : Nat → List Byte → List Byte → Byte → List Byte
  | 0, s, _, _ => s
  | n + 1, s, k, rc =>
    let k := aesNextKey k rc
    let s := aesShift (s.map aesSub)
    aesRounds n (xorBytes (if n = 0 then s else aesMix s) k) k (gfX rc)

/-- One block of 16 bytes under a key of 16 bytes. -/
def aesBlock (key b : List Byte) : List Byte := aesRounds 10 (xorBytes b key) key 1

/-! ## CMAC -/

/-- A byte string as a number, first byte highest. -/
def bytesNat (l : List Byte) : Nat := l.foldl (fun a b => a * 256 + b.toNat) 0

/-- Doubling in GF(2^128). -/
def cmacDouble (l : List Byte) : List Byte :=
  let x := bytesNat l
  bytesBE 16 (if 2 ^ 127 ≤ x then (2 * x % 2 ^ 128) ^^^ 0x87 else 2 * x)

/-- The blocks before the last are chained; `n` is their number. -/
def cmacChain (key : List Byte) : Nat → List Byte → List Byte → List Byte
  | 0, acc, _ => acc
  | n + 1, acc, m => cmacChain key n (aesBlock key (xorBytes acc (m.take 16))) (m.drop 16)

/-- The CMAC of a message under a key of 16 bytes. -/
def cmac (key m : List Byte) : List Byte :=
  let k1 := cmacDouble (aesBlock key (List.replicate 16 0))
  let full := decide (0 < m.length) && decide (m.length % 16 = 0)
  let n := (m.length - 1) / 16
  let tail := m.drop (16 * n)
  let last := if full then xorBytes tail k1
    else xorBytes (tail ++ [0x80#8] ++ List.replicate (15 - tail.length) 0) (cmacDouble k1)
  aesBlock key (xorBytes (cmacChain key n (List.replicate 16 0) m) last)

/-! ## What a tag covers (R349, R355, R356) -/

/-- The 24 bytes of the hub header (R349). -/
def hdrBytes (h : HubHdr) : List Byte :=
  [0x01#8, BitVec.ofNat 8 (h.stream * 4 + b2n h.pair * 2 + b2n h.ctrl)] ++ bytesBE 2 (h.ftype * 2 ^ 13 + h.wcount % 2 ^ 9)
    ++ bytesBE 2 h.hubId ++ bytesBE 4 h.seq ++ bytesBE 4 h.tickLo ++ bytesBE 4 h.ns32 ++ bytesBE 2 h.lost16 ++ List.replicate 4 0

/-- The bytes of words in transmission order (R23). -/
def wordsBytes (l : List Word) : List Byte := l.flatMap bytes40

/-- The four words of a tag: its 16 bytes and 4 zero bytes (R355). -/
def tagWords (key : BitVec 128) (h : HubHdr) (body : List Word) : List Word :=
  let n := bytesNat (cmac (bytesBE 16 key.toNat) (hdrBytes h ++ wordsBytes body))
  [BitVec.ofNat 40 (n / 2 ^ 88), BitVec.ofNat 40 (n / 2 ^ 48), BitVec.ofNat 40 (n / 2 ^ 8), BitVec.ofNat 40 (n * 2 ^ 32)]

/-- The key of a slot (R359). -/
def State.slotKey (s : State) (slot : Bool) : Option (BitVec 128) := if slot then s.mram.key1 else s.mram.key0

end Sys2Proof.Machine
end

