-- ==== Sys2Proof/Machine/Flags.lean ====
section
/-!
DEFINITION. The flags of words and how they combine (R164, R168, R233), and the arithmetic that sets them: averager
saturation (R163), decade scaling (R130) and the FIR (R232).
-/

namespace Sys2Proof.Machine

/-- The OR of two sets of flags (R164, R233). -/
def orFlags (a b : Flags) : Flags where
  ovr := a.ovr || b.ovr
  blk := a.blk || b.blk
  rtr := a.rtr || b.rtr
  opn := a.opn || b.opn
  cals := a.cals || b.cals
  sub := a.sub || b.sub

/-- The flags of a BLK word: BLK alone (R141, R150). -/
def blkFlags : Flags := { blk := true }

/-- The flags as the 6-bit field of bits [38:33], for descriptors and reports. -/
def anyFlag (f : Flags) : Bool := f.ovr || f.blk || f.rtr || f.opn || f.cals || f.sub

/-- The largest and smallest 32-bit values. -/
abbrev max32 : Int := 2147483647
abbrev min32 : Int := -2147483648

/-- The averager's value (R163): the sum, rounded up by half if RND, shifted right arithmetically, and clamped to 32 bits.
The second part says that it saturated. -/
def averagerValue (sum : Int) (rnd : Bool) (shift : Nat) : Int × Bool :=
  let acc := if rnd && decide (0 < shift) then sum + (2 ^ (shift - 1) : Nat) else sum
  let y := acc / ((2 ^ shift : Nat) : Int)
  (clampInt min32 max32 y, decide (y < min32) || decide (max32 < y))

/-- The value of a code made on the less sensitive range: code times the Q4.20 decade factor, ties away from zero (R130). -/
def decadeValue (code : Int) (f : Nat) : Int := roundAway (code * f) (2 ^ 20)

/-- RMS about zero, and whether it was carried as 2^31 - 1 (R243). -/
def rmsOf (sq used : Nat) : Nat × Bool :=
  let r := sqrtRound sq used
  if 2147483647 < r then (2147483647, true) else (r, false)

/-- The clamp to the 24-bit span of a code (R112, R187). -/
def clampCode (x : Int) : Int := clampInt (-8388608) 8388607 x

end Sys2Proof.Machine
end

