-- ==== Sys2Proof/Machine/Queues.lean ====
section
/-!
DEFINITION. The output queues (R300 to R319): packets and pointers, acceptance and the two full policies, control markers,
reading, flush, reset, enable and disable, and the watermarks.
-/

namespace Sys2Proof.Machine

/-! ## Geometry (R300, R304) -/

/-- SIZE_LOG2 of the running configuration. -/
def State.qLog (s : State) (q : Nat) : Nat := s.fld (F.Q.Q_CFG.SIZE_LOG2 q)

/-- SIZE in words (R300). -/
def State.qSize (s : State) (q : Nat) : Nat := 2 ^ s.qLog q

/-- The queue is enabled (R301). -/
def State.qEn (s : State) (q : Nat) : Bool := s.bit (F.Q.Q_CFG.EN q)

/-- A queue works: it is enabled, and its block has not stalled. Producers take a stalled queue as a disabled one (R418). -/
def State.qOpen (s : State) (q : Nat) : Bool := s.qEn q && !s.stalledAt (pgQ q)

/-- OVERWRITE_OLD is selected (R309). -/
def State.qOverwrite (s : State) (q : Nat) : Bool := s.bit (F.Q.Q_CFG.POLICY q)

/-- The host drains the queue (R314). -/
def State.qHost (s : State) (q : Nat) : Bool := s.bit (F.Q.Q_CFG.DRAIN q)

/-- Pointers run modulo 2^(SIZE_LOG2 + 1) (R304). -/
def State.qMod (s : State) (q : Nat) : Nat := 2 ^ (s.qLog q + 1)

/-- The level: published unread words (R304). -/
def State.qLevel (s : State) (q : Nat) : Nat :=
  let x := s.getQ q
  (x.wp + s.qMod q - x.rp % s.qMod q) % s.qMod q

/-- Words written and not yet published, because their interval waits for its ACK (R390). -/
def heldWords (x : Queue) : Nat := ((x.pkts.drop (x.pkts.length - x.held)).map Pkt.len).sum

/-- Free space: SIZE less the level, the words not yet published and the space whose release waits for an ACK (R304, R390). -/
def State.qFree (s : State) (q : Nat) : Nat :=
  s.qSize q - (s.qLevel q + heldWords (s.getQ q) + (s.getQ q).heldFree)

/-- The memory word of pointer value `p` (R304). -/
def State.qAddr (s : State) (q p : Nat) : Nat := s.fld (F.Q.Q_CFG.BASE q) * 256 + p % s.qSize q

/-- The longest packet a queue of `size` words takes, PKT_HDR included (R302). -/
def pktMaxOf (size : Nat) : Nat := if size - 8 < 289 then size - 8 else 289

/-- PKT_MAX of the running configuration (R302). -/
def State.pktMax (s : State) (q : Nat) : Nat := pktMaxOf (s.qSize q)

/-- The word of queue memory at word address `a` (log entry 4: an unwritten word reads 0). -/
def State.qWord (s : State) (a : Nat) : Word := sget 0 s.qmem a

/-- Writes one word of queue memory. -/
def State.setQWord (s : State) (a : Nat) (w : Word) : State := { s with qmem := sset 0 s.qmem a w }

/-- Writes words behind pointer value `p` of a queue. -/
def State.qStore (s : State) (q p : Nat) : List Word → State
  | [] => s
  | w :: ws => (s.setQWord (s.qAddr q p) w).qStore q (p + 1) ws

/-! ## Watermarks (R319) -/

/-- A record is read out to queue `q`, which stands at or above its high watermark: cause 10 of the next arm of the record's
context (R288; log entry 68). -/
def State.hwmMark (s : State) (q : Nat) : State :=
  s.each (s.trig.rd0.toList ++ s.trig.rd1.toList) fun s g =>
    s.when (decide (s.fld (F.CTX.CTX_CFG.RO_Q g.ctx) = q)) fun s => s.modCtx g.ctx fun c => { c with hwmSeen := true }

/-- Compares the level with HWM after a publish or a read, and keeps its peak. -/
def State.qWatch (s : State) (q : Nat) : State :=
  let lv := s.qLevel q
  let s := s.when (decide (s.fld (F.Q.WM.HWM q) ≤ lv)) fun s => s.hwmMark q
  let s := s.when (decide (s.fld (F.Q.LEVEL_PEAK.PEAK q) < lv)) fun s => s.setFld (F.Q.LEVEL_PEAK.PEAK q) lv
  s.when (decide (s.fld (F.Q.WM.HWM q) ≤ lv) && !s.bit (F.Q.Q_STS.WM_HI q)) fun s =>
    (s.setBit (F.Q.Q_STS.WM_HI q) true).raiseInt (Irq.wmHi q)

/-- Compares the level with LWM after a read that found `before` words. -/
def State.qWatchRead (s : State) (q before : Nat) : State :=
  let lwm := s.fld (F.Q.WM.LWM q)
  let s := s.when (decide (lwm < before) && decide (s.qLevel q ≤ lwm) && !s.bit (F.Q.Q_STS.WM_LO q)) fun s =>
    (s.setBit (F.Q.Q_STS.WM_LO q) true).raiseInt (Irq.wmLo q)
  s.qWatch q

/-! ## Requests to ARB_TX (R320, R326) -/

/-- The ring node can send on at least one port (R320, R336, R338). -/
def State.netSends (s : State) : Bool :=
  let m := s.fld F.HSR.HSR_CTL.NODE_MODE
  let up (p : Nat) : Bool := decide (s.fld (F.PORT.PORT_STS.STATE p) = 3)
  (decide (m = 1) && (up 0 || up 1)) || (decide (m = 2) && up 0)

/-- Frames of the queues may go out: the hub leads, and no yield has stopped them (R379, R402). -/
def State.streamSends (s : State) : Bool :=
  s.leads && (match s.pair.yst with
    | .none => true
    | .deciding _ _ => true
    | .finalSent _ _ => true
    | _ => false)

/-- The queue requests ARB_TX (R320). -/
def State.qRequests (s : State) (q : Nat) : Bool :=
  s.streamSends && s.qOpen q && !s.qHost q && decide (0 < s.qLevel q) && s.netSends

/-- Requester `i` of ARB_TX waits from now on, unless it waits or owns already. -/
def State.txAsk (s : State) (i : Nat) : State :=
  if s.arbTx.owner = some i ∨ (s.arbTx.waiting.any fun e => decide (e.1 = i)) = true then s
  else { s with arbTx := { s.arbTx with waiting := s.arbTx.waiting ++ [(i, s.elapsedNs)] } }

/-- The queues whose requests begin or end are noted. -/
def State.txNotice (s : State) : State :=
  let s := { s with arbTx := { s.arbTx with waiting := s.arbTx.waiting.filter fun e => decide (64 ≤ e.1) || s.qRequests e.1 } }
  s.each ((List.range 64).filter s.qRequests) State.txAsk

/-- `k` packets of queue `q` that wait for ACKs are gone, the oldest first: their intervals publish that many fewer (R390). -/
def unackDrop (q : Nat) : Nat → List Unacked → List Unacked
  | _, [] => []
  | k, u :: l =>
    let d := min k ((u.queues.filter fun e => decide (e.1 = q)).map fun e => e.2.1).sum
    { u with queues := u.queues.map fun e => if e.1 = q then (q, e.2.1 - d, e.2.2) else e } :: unackDrop q (k - d) l

/-- Packets that wait for their ACK have been discarded, the oldest first. -/
def State.heldLost (s : State) (q k : Nat) : State :=
  s.when (decide (0 < k) && !s.pair.unacked.isEmpty) fun s => s.modPair fun p => { p with unacked := unackDrop q k p.unacked }

/-! ## Losses (R310) -/

/-- A packet type that a reducer makes: samples, statistics and rainflow. -/
def isReducerTyp (typ : Nat) : Bool := decide (typ = typSamples) || decide (typ = typStats) || decide (typ = typRain)

/-- One packet of type `typ` is lost: LOST counts, LOSS is raised when LOST leaves 0, and a reducer packet counts in
RED.PKT_REFUSED (R310). -/
def State.qLose (s : State) (q typ : Nat) : State :=
  let first := decide (s.fld (F.Q.LOST.CNT q) = 0)
  let s := s.count (F.Q.LOST.CNT q)
  let s := s.when first fun s => s.raiseInt (Irq.loss q)
  s.when (isReducerTyp typ) fun s => (s.count F.RED.PKT_REFUSED.CNT).raiseInt Irq.pktRefused

/-! ## Writing -/

/-- Publishes the oldest `k` packets that are held back (R305, R390): WP moves past them, and NS32 and TICK_LO of their
frames are taken (R351). -/
def State.qPublish (s : State) (q k : Nat) : State :=
  let x := s.getQ q
  let n := x.pkts.length - x.held
  let len := (((x.pkts.drop n).take k).map Pkt.len).sum
  let stamp (p : Pkt) : Pkt :=
    { p with ns32 := s.ns32, tickLo := s.fld F.TICK.LAST_IDX_LO.IDX_LO }
  let pkts := x.pkts.take n ++ ((x.pkts.drop n).take k).map stamp ++ x.pkts.drop (n + k)
  let wp := (x.wp + len) % s.qMod q
  let s := (s.setQ q { x with pkts := pkts, wp := wp, wp2 := wp, held := x.held - k }).qWatch q
  s.when (s.qRequests q) fun s => s.txAsk q

/-- Writes a packet of `words`, PKT_HDR included, behind the write pointer and publishes it; while the partner executes in
step, it is held back until the ACK of its interval (R305, R390). -/
def State.qPut (s : State) (q typ : Nat) (words : List Word) (epoch : Option HubTime) (gap : Bool) : State :=
  let x := s.getQ q
  let s := s.qStore q (x.wp + heldWords x) words
  let s := s.setQ q { x with
    pkts := x.pkts ++ [⟨words.length, typ, 0, 0, epoch, gap⟩], held := x.held + 1 }
  let s := s.count (F.Q.WR_PKT_CNT.CNT q)
  let s := s.when (decide (s.role = roleActive) || s.follows) fun s =>
    s.modPair fun p => { p with words := (words.map fun w => (q, w)).reverse ++ p.words }
  if s.mirrored then s else s.qPublish q 1

/-- The last packet of the queue is a GAP packet that can still count: its PKT_HDR is unread (R308). -/
def gapOpen (x : Queue) : Bool :=
  match x.pkts.getLast? with
  | some p => p.gap && (decide (1 < x.pkts.length) || decide (x.read = 0))
  | none => false

/-- The pointer value of the last packet, whose words may run across the wrap of the pointers (R304). -/
def State.lastPtr (s : State) (q : Nat) : Nat :=
  let x := s.getQ q
  match x.pkts.getLast? with
  | some p => (x.wp + heldWords x + s.qMod q - p.len) % s.qMod q
  | none => x.wp

/-- Adds `n` to the GAP marker in the word at pointer value `p`: a count saturates at 0xFFF_FFFE, and an unknown count
stays unknown (R310). -/
def State.gapAdd (s : State) (q p n : Nat) : State :=
  let a := s.qAddr q p
  let old := (s.qWord a).toNat % 2 ^ 28
  if old = 0xFFFFFFF then s else s.setQWord a (mkGap (satNat 0xFFFFFFE (old + n)))

/-- A packet of type `typ` is lost, and counted in the last GAP packet or in a new one (R308). -/
def State.qMarkLoss (s : State) (q typ : Nat) (inPlace : Bool) : State :=
  let s := s.qLose q typ
  if inPlace then s.gapAdd q (s.lastPtr q + 1) 1
  else s.qPut q typMarker [pktHdr q typMarker 1, mkGap 1] none true

/-- What OVERWRITE_OLD has discarded so far (R309): packets counted as lost with their types, the counts of discarded GAP
packets, whether one of those is unknown, the words freed, the newest EPOCH among them, and what remains. -/
structure Discard where
  lost : List Nat := []
  gaps : Nat := 0
  unknown : Bool := false
  words : Nat := 0
  epoch : Option HubTime := none
  rest : List Pkt := []
deriving DecidableEq, Repr

/-- Discards the oldest remaining packet, whose first word lies at pointer value `ptr`. -/
def State.discardOne (s : State) (q ptr : Nat) (d : Discard) : Discard :=
  match d.rest with
  | [] => d
  | p :: rest =>
    let e := match p.epoch with | some t => some t | none => d.epoch
    if p.gap then
      let c := (s.qWord (s.qAddr q (ptr + d.words + 1))).toNat % 2 ^ 28
      { d with gaps := d.gaps + (if c = 0xFFFFFFF then 0 else c), unknown := d.unknown || decide (c = 0xFFFFFFF),
               words := d.words + p.len, epoch := e, rest := rest }
    else { d with lost := d.lost ++ [p.typ], words := d.words + p.len, epoch := e, rest := rest }

/-- Something has been discarded that a GAP marker must carry. -/
def discarded (d : Discard) : Bool := !d.lost.isEmpty || decide (0 < d.gaps) || d.unknown || decide (0 < d.words)

/-- The first remaining packet is a GAP packet that can take the count (R309). -/
def headIsGap (d : Discard) : Bool :=
  match d.rest with
  | p :: _ => p.gap
  | [] => false

/-- The words that a head GAP packet takes now. -/
def headGapWords (d : Discard) : Nat := if discarded d && !headIsGap d then 5 else 0

/-- How many packets go, oldest first, until `need` words, a head GAP packet if one is needed, and the reserve fit (R309).
`fuel` is the number of packets. -/
def State.discardCount (s : State) (q ptr free need : Nat) : Nat → Discard → Nat
  | 0, _ => 0
  | n + 1, d =>
    if need + headGapWords d + 2 ≤ free + d.words then 0 else s.discardCount q ptr free need n (s.discardOne q ptr d) + 1

/-- Discards `n` packets, oldest first. -/
def State.discardMany (s : State) (q ptr : Nat) : Nat → Discard → Discard
  | 0, d => d
  | n + 1, d => s.discardMany q ptr n (s.discardOne q ptr d)

/-- The words of the first `skip` packets that are still to be read. -/
def headWordsOf (x : Queue) (skip : Nat) : Nat := ((x.pkts.take skip).map Pkt.len).sum - (if 0 < skip then x.read else 0)

/-- OVERWRITE_OLD discards `n` packets behind the first `skip`, with a head GAP packet for them (R309). The words of the packets skipped
that are still to be read are kept directly ahead of what remains (log entry 5). -/
def State.qRoom (s : State) (q skip n : Nat) : State :=
  let x := s.getQ q
  let headRem := headWordsOf x skip
  let ptr := x.rp + headRem
  let d := s.discardMany q ptr n { rest := x.pkts.drop skip }
  let count : Nat := if d.unknown then 0xFFFFFFF else satNat 0xFFFFFFE (d.lost.length + d.gaps)
  let ep : HubTime := (d.epoch.or ((x.pkts.take skip).reverse.findSome? Pkt.epoch)).getD x.headEpoch
  let headWords := (List.range headRem).map fun i => s.qWord (s.qAddr q (x.rp + i))
  let gapWords : List Word :=
    if headGapWords d = 5 then [pktHdr q typMarker 4, mkGap count] ++ epochWords ep else []
  let rp := x.rp + d.words - gapWords.length
  let s := s.qStore q (rp % s.qMod q + s.qMod q) (headWords ++ gapWords)
  let s := s.when (!gapWords.isEmpty) fun s => s.count (F.Q.WR_PKT_CNT.CNT q)
  let s := s.when (headIsGap d && discarded d) fun s =>
    if d.unknown then s.setQWord (s.qAddr q (ptr + d.words + 1)) (mkGap 0xFFFFFFF)
    else s.gapAdd q (ptr + d.words + 1) (d.lost.length + d.gaps)
  let gapPkt : List Pkt :=
    if gapWords.isEmpty then []
    else [{ len := 5, typ := typMarker, ns32 := s.ns32, tickLo := s.fld F.TICK.LAST_IDX_LO.IDX_LO, epoch := some ep, gap := true }]
  let pkts := x.pkts.take skip ++ gapPkt ++ d.rest
  let held := if d.rest.length < x.held then d.rest.length else x.held
  let visible := (((pkts.take (pkts.length - held)).map Pkt.len).sum) - x.read
  let rp := rp % s.qMod q
  let wp := (rp + visible) % s.qMod q
  let head := if 0 < skip then x.headEpoch else d.epoch.getD x.headEpoch
  let s := (s.setQ q { x with pkts := pkts, held := held, rp := rp, rp2 := rp, wp := wp, wp2 := wp, headEpoch := head }).heldLost q
    (x.held - held)
  let s := s.when (decide (s.role = roleActive) || s.follows) fun s =>
    s.modPair fun p => { p with words := (gapWords.map fun w => (q, w)).reverse ++ p.words }
  s.each d.lost fun s typ => s.qLose q typ

/-- Packets of queue `q` taken out in the interval in progress: its partner still holds them ahead of the others (R389). -/
def State.goneOf (s : State) (q : Nat) : Nat := (s.pair.gone.filter fun e => decide (e = q)).length

/-- Makes room for `need` words under OVERWRITE_OLD (R309); none if a begun packet holds the space. -/
def State.qMakeRoom (s : State) (q need : Nat) : Option State :=
  let x := s.getQ q
  let skip := if 0 < x.read then 1 else 0
  let cand := x.pkts.drop skip
  let free := s.qFree q
  let total := (cand.map Pkt.len).sum
  let gapNeed := if cand.isEmpty then 0 else 5
  if need + 2 ≤ free then some s
  else if free + total < need + gapNeed + 2 then none
  else
    let n := s.discardCount q (x.rp + headWordsOf x skip) free need cand.length { rest := cand }
    some ((s.fate q (.room (s.goneOf q + skip) n)).qRoom q skip n)

/-- The words of the pending control markers in the order of R311, without PKT_HDR. -/
def pendWords (p : Pend) : List Word :=
  (match p.takeover with | some (t, id) => [mkTakeover t id] | none => [])
    ++ (match p.sleepGap with | some n => [mkSleepGap n] | none => [])
    ++ (match p.timeStep with | some e => [mkTimeStep e] | none => [])
    ++ (match p.epoch with | some t => epochWords t | none => [])

/-- Some control marker is pending. -/
def pendAny (p : Pend) : Bool := !(pendWords p).isEmpty

/-- A marker that falls due joins the pending ones (R311). -/
def pendJoin (old new : Pend) : Pend where
  takeover := match new.takeover with | some x => some x | none => old.takeover
  sleepGap := match new.sleepGap with
    | some n => some (satNat 0xFFFFFFF ((old.sleepGap.getD 0) + n))
    | none => old.sleepGap
  timeStep := match new.timeStep with
    | some e => some (old.timeStep.getD 0 + e)
    | none => old.timeStep
  epoch := match new.epoch with | some t => some t | none => old.epoch

/-- The queue accepts a packet of `len` words, pending markers left aside: it is enabled, and the reserve of 2 words remains
free (R307). -/
def State.qFits (s : State) (q len : Nat) : Bool := s.qOpen q && decide (len + 2 ≤ s.qFree q)

/-- The queue accepts a packet of `len` words (R307). -/
def State.qAccepts (s : State) (q len : Nat) : Bool := s.qFits q len && !pendAny (s.getQ q).pend

/-- The words of an interrupt packet, which its TICK record carries (R427). -/
def irqOf (typ : Nat) (words : List Word) : Option (List Word) := if typ = typIrq then some words else none

/-- A packet is accepted: PKT_HDR and `words` are written (R302, R307). -/
def State.qTake (s : State) (q typ : Nat) (words : List Word) : State :=
  (s.fate q (.take (irqOf typ words))).qPut q typ (pktHdr q typ words.length :: words) none false

/-- A packet is not accepted: it is lost and marked (R308). -/
def State.qLost (s : State) (q typ : Nat) (words : List Word) : State :=
  let inPlace := gapOpen (s.getQ q)
  (s.fate q (.lose (irqOf typ words) inPlace)).qMarkLoss q typ inPlace

/-- A packet that does not fit meets the full policy of its queue; the first part tells whether it is written (R308, R309). -/
def State.qFullPolicy (s : State) (q typ : Nat) (words : List Word) : Bool × State :=
  if s.qOverwrite q then
    (match s.qMakeRoom q (words.length + 1) with
     | some s => (true, s.qTake q typ words)
     | none => (false, s.qLost q typ words))
  else (false, s.qLost q typ words)

/-- The EPOCH of the first packets, newest first, or the one already ahead of them: once they are gone, the EPOCH in force. -/
def newestEpoch (x : Queue) : HubTime := (x.pkts.reverse.findSome? Pkt.epoch).getD x.headEpoch

/-- A flush has ended: FLUSHING is clear, FLUSH_CNT counts and FLUSHED is raised (R317). -/
def State.flushOver (s : State) (q : Nat) : State :=
  ((s.setBit (F.Q.Q_STS.FLUSHING q) false).count (F.Q.FLUSH_CNT.CNT q)).raiseInt (Irq.flushed q)

/-- Resets a queue whose pointer copies disagree; a flush in progress is then complete (R306, R317, R318). The value at which all pointer copies agree is free (log entry 3). -/
def State.qReset (s : State) (q : Nat) : State :=
  let x := s.getQ q
  let e := newestEpoch x
  let (k, s) := s.drawFree
  let p := (k % (s.qMod q : Int)).toNat
  let s := (s.setQ q { x with wp := p, wp2 := p, rp := p, rp2 := p, pkts := [], read := 0, held := 0, heldFree := 0,
                              headEpoch := e }).heldLost q x.held
  let s := s.qPut q typMarker ([pktHdr q typMarker 4, mkGap 0xFFFFFFF] ++ epochWords e) (some e) true
  let s := s.count (F.Q.RESET_CNT.CNT q)
  let s := s.setBit (F.Q.Q_STS.LOST_UNK q) true
  let s := s.when (s.bit (F.Q.Q_STS.FLUSHING q)) fun s => s.flushOver q
  (s.raiseFault (Flt.ptrMismatch q)).raiseInt (Irq.qReset q)

/-- Every update of a queue compares the two copies of its pointers (R306). -/
def State.qCheck (s : State) (q : Nat) : State :=
  let x := s.getQ q
  if x.wp = x.wp2 ∧ x.rp = x.rp2 then s else s.qReset q

/-! ## Control markers (R311 to R313) -/

/-- The pending markers are written as one packet. -/
def State.qPendPut (s : State) (q : Nat) : State :=
  let p := (s.getQ q).pend
  let w := pendWords p
  if w.isEmpty then s
  else (s.modQ q fun x => { x with pend := {} }).qPut q typMarker (pktHdr q typMarker w.length :: w) p.epoch false

/-- The packet of the pending markers is lost and marked. -/
def State.qPendLost (s : State) (q : Nat) (inPlace : Bool) : State :=
  (s.modQ q fun x => { x with pend := {} }).qMarkLoss q typMarker inPlace

/-- Writes the pending markers as one packet if they fit; under OVERWRITE_OLD the packet makes room, or is lost and marked like any
other, so that none stays pending (R309, R311). -/
def State.qWritePend (s : State) (q : Nat) : State :=
  let n := (pendWords (s.getQ q).pend).length
  if n = 0 ∨ s.qOpen q = false then s
  else if s.qFits q (n + 1) then (s.fate q .pend).qPendPut q
  else if s.qOverwrite q then
    (match s.qMakeRoom q (n + 1) with
     | some s => (s.fate q .pend).qPendPut q
     | none =>
       let inPlace := gapOpen (s.getQ q)
       (s.fate q (.pendLost inPlace)).qPendLost q inPlace)
  else s

/-- A packet meets a disabled queue, which discards and counts it (R301). -/
def State.qDiscard (s : State) (q typ : Nat) : State :=
  ((s.count (F.Q.DIS_DROP_CNT.CNT q)).qLose q typ).modQ q fun x => { x with disPkts := x.disPkts + 1 }

/-- A packet reaches its queue: it is written, or meets the full policy; a disabled queue discards and counts it (R301,
R307). Pending markers that fit by now are written ahead of it (R311). `words` does not hold PKT_HDR. The first part tells whether the
packet is written. -/
def State.qOffer (s : State) (q typ : Nat) (words : List Word) : Bool × State :=
  if s.qOpen q = false then (false, (s.fate q (.off (irqOf typ words))).qDiscard q typ)
  else
    let s := s.qWritePend q
    if s.qAccepts q (words.length + 1) then (true, s.qTake q typ words) else s.qFullPolicy q typ words

/-- Control markers join those that are pending at a queue. -/
def State.qJoin (s : State) (q : Nat) (m : Pend) : State := s.modQ q fun x => { x with pend := pendJoin x.pend m }

/-- Control markers fall due on one queue: they enter an enabled queue at once, ahead of every later packet, or join the
pending ones (R311). A disabled queue takes none (R301). -/
def State.qMarkerDue (s : State) (q : Nat) (m : Pend) : State :=
  if s.qOpen q = false then s else (((s.qWritePend q).fate q .join).qJoin q m).qWritePend q

/-! ## What producers call -/

/-- The hub's queues take packets: not YIELDED and not FAILED (R379). -/
def State.queuesTake (s : State) : Bool := s.leads || s.follows

/-- An item is staged in the part of the mirrored stream that has begun (R389). -/
def State.stage (s : State) (q : Nat) (i : StagedItem) : State :=
  s.modPair fun p => { p with staging := p.staging ++ [(q, i, p.streamIdx.getD 0)] }

/-- A producer offers a packet (without PKT_HDR): it goes to its queue, or is staged on a standby or joining hub (R389). -/
def State.offer (s : State) (q typ : Nat) (words : List Word) : State :=
  if s.follows then s.stage q (.packet typ words)
  else if s.leads then ((s.qCheck q).qOffer q typ words).2
  else s

/-- Control markers fall due on every enabled queue (R311), or are staged on a standby or joining hub (R389). -/
def State.markersDue (s : State) (m : Pend) : State :=
  if s.queuesTake = false then s
  else s.each (List.range 64) fun s q =>
    if s.follows then
      (if s.qOpen q then s.stage q (.ctrl m) else s)
    else (s.qCheck q).qMarkerDue q m

/-! ## Reading (R314 to R316) -/

/-- Frees `n` words at the head; on an ACTIVE hub with its partner in step they count as free after the ACK (R390). -/
def State.qAdvance (s : State) (q n : Nat) : State :=
  let m := s.mirrored
  s.modQ q fun x =>
    let rp := (x.rp + n) % s.qMod q
    { x with rp := rp, rp2 := rp, heldFree := if m then x.heldFree + n else x.heldFree }

/-- The first packet of the queue has been read or sent to its end. -/
def State.qPop (s : State) (q : Nat) : State :=
  let s := s.modQ q fun x => match x.pkts with
    | p :: rest => { x with pkts := rest, read := 0, headEpoch := p.epoch.getD x.headEpoch }
    | [] => x
  let s := s.count (F.Q.RD_PKT_CNT.CNT q)
  s.when s.mirrored fun s => s.modPair fun p => { p with gone := p.gone ++ [q] }

/-- The host reads one word of a queue with DRAIN 1 (R315): the word at RP, with RP advanced by one; none if the queue is
empty. -/
def State.qReadWord (s : State) (q : Nat) : Option Word × State :=
  let s := s.qCheck q
  let lv := s.qLevel q
  if lv = 0 ∨ s.stalledAt (pgQ q) = true then (none, s)
  else
    let x := s.getQ q
    let w := s.qWord (s.qAddr q x.rp)
    let s := (s.qAdvance q 1).modQ q fun x => { x with read := x.read + 1 }
    let fin := match (s.getQ q).pkts with
      | p :: _ => decide (p.len ≤ (s.getQ q).read)
      | [] => false
    let s := s.when fin fun s => s.qPop q
    (some w, s.qWatchRead q lv)

/-- ARB_TX takes the first published packet whole (R314): its metadata and its words without PKT_HDR; none if the queue
holds no published packet. Of a packet that the host had begun to read before a commit cleared DRAIN it takes the words that are left
(log entry 85). -/
def State.qTakePacket (s : State) (q : Nat) : Option (Pkt × List Word) × State :=
  let s := s.qCheck q
  let lv := s.qLevel q
  match (s.getQ q).pkts with
  | [] => (none, s)
  | p :: _ =>
    if lv = 0 then (none, s)
    else
      let x := s.getQ q
      let skip := if x.read = 0 then 1 else 0
      let ws := (List.range (p.len - x.read - skip)).map fun i => s.qWord (s.qAddr q (x.rp + skip + i))
      (some (p, ws), ((s.qAdvance q (p.len - x.read)).qPop q).qWatchRead q lv)

/-! ## Flush, enable and disable (R301, R317) -/

/-- The words that a flush or a disable discards: everything unread, the unpublished words included. -/
def State.qUnread (s : State) (q : Nat) : Nat := s.qLevel q + heldWords (s.getQ q)

/-- Empties a queue: every unread packet goes, with the rest of a begun one. -/
def State.qEmpty (s : State) (q : Nat) : State :=
  let x := s.getQ q
  let wp := (x.wp + heldWords x) % s.qMod q
  (s.setQ q { x with wp := wp, wp2 := wp, rp := wp, rp2 := wp, pkts := [], read := 0, held := 0,
                     headEpoch := newestEpoch x }).heldLost q x.held

/-- Empties a queue behind its first `skip` packets, which its partner has taken out already (R389). -/
def State.qEmptyAfter (s : State) (q skip : Nat) : State :=
  let x := s.getQ q
  if skip = 0 then s.qEmpty q
  else
    let wp := (x.rp + ((x.pkts.take skip).map Pkt.len).sum - x.read) % s.qMod q
    s.setQ q { x with wp := wp, wp2 := wp, pkts := x.pkts.take skip, held := 0 }

/-- A flush of queue `q` discards the `n` words behind its first `skip` packets, and the FLUSH packet follows (R317). -/
def State.qFlushFrom (s : State) (q skip n : Nat) : State :=
  let e := newestEpoch (s.getQ q)
  ((s.qEmptyAfter q skip).qPut q typMarker ([pktHdr q typMarker 4, mkFlush n] ++ epochWords e) (some e) false).flushOver q

/-- A flush takes effect (R317). -/
def State.qFlush (s : State) (q : Nat) : State :=
  let n := s.qUnread q
  (s.fate q (.flush (s.goneOf q) n)).qFlushFrom q 0 n

/-- A queue is disabled: its packets and pending markers are discarded (R301). -/
def State.qDisable (s : State) (q : Nat) : State :=
  let n := s.qUnread q
  let s := s.qEmpty q
  (s.modQ q fun x => { x with pend := {}, disWords := n, disPkts := 0 }).setBit (F.Q.Q_STS.FLUSHING q) false

/-- A queue is enabled: it starts empty, its pointers where they stand (log entry 13), and its first item is the EPOCH packet, or a
loss packet (R301). -/
def State.qEnable (s : State) (q : Nat) : State :=
  let x := s.getQ q
  let e := s.time.epoch
  let words : List Word :=
    if 0 < x.disWords ∨ 0 < x.disPkts then
      [pktHdr q typMarker 5, mkFlush x.disWords, mkGap (satNat 0xFFFFFFE x.disPkts)] ++ epochWords e
    else pktHdr q typMarker 3 :: epochWords e
  let p := x.wp % s.qMod q
  (s.setQ q { headEpoch := e, wp := p, wp2 := p, rp := p, rp2 := p }).qPut q typMarker words (some e) false

end Sys2Proof.Machine
end

