-- ==== Sys2Proof/Machine/Roles.lean ====
section
/-!
DEFINITION. Role changes (R379, R380), the beginning of a yield (R401), in-band interrupt packets (R425 to R427), and what
every command ends with.
-/

namespace Sys2Proof.Machine

/-- The role changes: ROLE_CHANGE is raised and the rim log takes a ROLE event (R380, R433). READY ends with STANDBY. -/
def State.setRole (s : State) (new : Nat) : State :=
  let old := s.role
  if old = new then s
  else
    let s := (s.setFld F.PAIR.PAIR_STS.ROLE new).modPair fun p => { p with roleAt := s.time.cycles }
    let s := s.when (decide (new ≠ roleStandby)) fun s => s.setBit F.PAIR.PAIR_STS.READY false
    ((s.txNotice).raiseInt Irq.roleChange).rimEvent evRole
      (s.fld F.PAIR.PAIR_STS.LAST_CAUSE * 2 ^ 8 + old * 2 ^ 4 + new)

/-- The causes of a takeover in LAST_CAUSE (R411). -/
abbrev causeYieldCmd : Nat := 1
abbrev causeYieldPfw : Nat := 2
abbrev causeYieldFatal : Nat := 3
abbrev causeTimeout : Nat := 4

/-- Tick index of the last tick issued, 0 before the first. -/
def State.lastIdx (s : State) : Nat := s.fld64 F.TICK.LAST_IDX_LO.IDX_LO F.TICK.LAST_IDX_HI.IDX_HI

/-- An ACTIVE hub begins to yield at tick Y if the partner is STANDBY (R401). -/
def State.startYieldAt (s : State) (cause y : Nat) : State :=
  if s.role = roleActive ∧ s.fld F.PAIR.PAIR_STS.PARTNER_ROLE = roleStandby ∧ s.pair.yst = .none then
    s.modPair fun p => { p with yst := .deciding y cause }
  else s

/-- The yield tick is the last tick issued (R401). -/
def State.startYield (s : State) (cause : Nat) : State := s.startYieldAt cause s.lastIdx

/-- An ACTIVE hub that has decided to yield produces nothing for ticks after Y, and its trigger engine accepts nothing more
(R402). -/
def State.yielding (s : State) : Bool := decide (s.pair.yst ≠ .none)

/-- The effect of a FATAL fault on the pair: an ACTIVE hub yields, a STANDBY or JOINING hub becomes FAILED (R416). -/
def State.fatalRole (s : State) : State :=
  if s.role = roleActive then s.startYield causeYieldFatal
  else if s.follows then s.setRole roleFailed
  else s

/-- The five words of an interrupt packet (R426). -/
def irqWords (ownId page : Nat) (intSts fltSts fltFirst : Reg) (ns32 : Nat) : List Word :=
  [dataWord (ownId * 2 ^ 16 + page % 2 ^ 10), dataWord intSts.toNat, dataWord fltSts.toNat, dataWord fltFirst.toNat,
   dataWord ns32]

/-- IRQ_HOLDOFF in cycles of elapsed time; 0 acts as 1 ms (R425, R443). -/
def State.irqHoldCycles (s : State) : Nat :=
  let ms := s.fld F.RIM.RIM_CTL.IRQ_HOLDOFF
  (if ms = 0 then 1 else ms) * 500000

/-- Writes an interrupt packet into IRQ_Q, subject to its full policy; the first part tells whether it is written, and IRQ_PKT_CNT counts
the packets written (R425, R426, R443). -/
def State.writeIrqPacket (s : State) (words : List Word) : Bool × State :=
  if s.queuesTake = false then (false, s)
  else
    let q := s.fld F.RIM.RIM_CTL.IRQ_Q
    let (ok, s) := (s.qCheck q).qOffer q typIrq words
    (ok, s.when ok fun s => s.count F.RIM.IRQ_PKT_CNT.CNT)

/-- The interrupt packet of page `p` of this hub as it stands now. -/
def State.ownIrqWords (s : State) (p : Nat) : List Word :=
  irqWords (s.fld F.HSR.HUB_ID.OWN_ID) p (s.reg (0x1000 * p + 0x010)) (s.reg (0x1000 * p + 0x01C))
    (s.reg (0x1000 * p + 0x020)) s.ns32

/-- The hold-off entry of a page: the elapsed cycles of its last packet and the interrupts that fell due since. -/
def State.irqHold (s : State) (p : Nat) : Option (Nat × Nat) :=
  (s.rim.hold.find? fun e => decide (e.1 = p)).map Prod.snd

/-- Sets the hold-off entry of a page. -/
def State.setIrqHold (s : State) (p : Nat) (v : Option (Nat × Nat)) : State :=
  s.modRim fun r => { r with hold :=
    (match v with | some x => [(p, x)] | none => []) ++ r.hold.filter fun e => decide (e.1 ≠ p) }

/-- An interrupt packet of page `p` that covers `k` interrupts which fell due in its hold-off. Once written it starts the hold-off anew,
and they count as merged; one that the queue does not take does neither (R425). -/
def State.irqPacket (s : State) (p k : Nat) : State :=
  let (ok, s) := s.writeIrqPacket (s.ownIrqWords p)
  if ok then (s.count F.RIM.IRQ_MERGE_CNT.CNT k).setIrqHold p (some (s.time.cycles, 0)) else s.setIrqHold p none

/-- An in-band interrupt of page `p` falls due (R425, R427). -/
def State.irqDue (s : State) (p : Nat) : State :=
  if s.follows then
    s.modPair fun q => { q with due := q.due ++
      [⟨p, s.reg (0x1000 * p + 0x010), s.reg (0x1000 * p + 0x01C), s.reg (0x1000 * p + 0x020), s.ns32⟩] }
  else if s.bit F.RIM.RIM_CTL.IRQ_QEN = false then s
  else
    match s.irqHold p with
    | some (at_, k) =>
      if s.time.cycles < at_ + s.irqHoldCycles then s.setIrqHold p (some (at_, k + 1))
      else s.irqPacket p k
    | none => s.irqPacket p 0

/-- Serves the in-band interrupts that fell due in a command, and those that serving them made due. -/
def State.serveDue : Nat → State → State
  | 0, s => s
  | n + 1, s =>
    match s.rim.due with
    | [] => s
    | l => State.serveDue n ((s.modRim fun r => { r with due := [] }).each l fun s p => s.irqDue p)

/-- Step 10 of start-up is complete once a tick has been issued and no pass is in progress (R468). -/
def State.bootLast (s : State) : State :=
  if s.fld F.NVM.BOOT_STS.STEP = 9 ∧ s.grid.last.isSome = true ∧ ((List.range 34).all fun n => (s.getSlice n).pass.isNone) = true then
    s.setFld F.NVM.BOOT_STS.STEP 10
  else s

/-- The last SEQ sent of each stream: one below the number its next frame will carry (R352, R383). -/
def State.lastSent (s : State) : List Nat := (List.range 64).map fun q => (s.fld (F.HSR.SEQ.SEQ q) + 2 ^ 32 - 1) % 2 ^ 32

/-- The last HSR sequence number H of STREAM_MAC (R383). -/
def State.lastHsr (s : State) : Nat := (s.fld F.HSR.HSR_SEQ.STREAM + 2 ^ 16 - 1) % 2 ^ 16

/-- A hub whose final record is acknowledged and whose frame in progress has ended sends its YIELD record and drives YIELD_N. -/
def State.yieldClose (s : State) : State :=
  match s.pair.yst with
  | .closing y cause =>
    if s.net.local_.isSome then s
    else
      ((s.linkSend (.yield s.lastSent s.lastHsr)).setBit F.PAIR.PAIR_STS.YIELD_DRV true).modPair fun p =>
        { p with yst := .yielded y cause }
  | _ => s

/-- The node holds a local frame until every copy of it has ended (R345). -/
def State.frameEnd (s : State) : State :=
  match s.net.local_ with
  | some (_, false, false) =>
    if s.net.localEnd ≤ 20 * s.time.cycles then (s.modNet fun n => { n with local_ := none }).yieldClose else s
  | _ => s

/-- Requester `i` of ARB_TX requests (R320). -/
def State.txAsks (s : State) (i : Nat) : Bool :=
  if i < 64 then s.qRequests i else if i = 64 then !s.net.mgmtTx.isEmpty else !s.net.ptpTx.isEmpty

/-- With no frame in hand, an owner of ARB_TX that requests no more has dropped its grant; on a frozen arbiter that drains it (R322,
R325). -/
def State.txDrop (s : State) : State :=
  match s.net.local_, s.arbTx.owner with
  | none, some i =>
    if s.txAsks i then s
    else { s with arbTx := { s.arbTx with owner := none, units := 0 } }.when (s.bit F.ARB_TX.ARB_CTL.FREEZE) fun s =>
      s.raiseInt Irq.txDrained
  | _, _ => s

/-- What every command ends with: a local frame that has ended (R345), a grant that has ended (R322), the effect of a FATAL fault on the pair role (R416), then the
in-band interrupts that fell due (R425). -/
def settle (s : State) : State :=
  let s := s.frameEnd.txDrop
  let s := s.when s.rim.fatalDue fun s => (s.modRim fun r => { r with fatalDue := false }).fatalRole
  (State.serveDue 1024 s).bootLast

/-- RESET_N is low, or start-up has been abandoned: every block is held in reset (R466, R467). -/
def State.inReset (s : State) : Bool := s.power.held || s.power.abandoned

/-- What no command but those of reset changes: the queue of commands, RESET_N, and whether start-up stands abandoned. -/
def State.sealed (t s : State) : State :=
  { t with pending := s.pending, power := { t.power with held := false, abandoned := false } }

/-- A command acts through `f`, unless every block is held in reset. -/
def act (f : State → State) (s : State) : Host.Outcome State Fault Refusal :=
  .next (if s.inReset then s else (settle (f s)).sealed s)

/-- The level of an input changes: in reset it is all that is kept, through `pin`; otherwise the event acts through `f`. -/
def actPin (pin : Pins → Pins) (f : State → State) (s : State) : Host.Outcome State Fault Refusal :=
  if s.inReset then .next { s with pins := pin s.pins } else act f s

/-- A register write other than one to TEST_KEY resets the sequence of R428. -/
def State.otherWrite (s : State) : State := s.modRim fun r => { r with key := 0 }

/-- A register write acts through `f`. -/
def actW (f : State → State) (s : State) : Host.Outcome State Fault Refusal := act (fun s => f s.otherWrite) s

end Sys2Proof.Machine
end

