-- ==== Sys2Proof/Machine/Servo.lean ====
section
/-!
DEFINITION. The time servo (R55 to R66): its states, the offsets it takes, pending and scheduled steps, holdover, the fatal
time faults, and the reads and writes of the TIME page that have rows of their own (R78, R79).
-/

namespace Sys2Proof.Machine

/-! ## Settings (R79) -/

abbrev svFree : Nat := 0
abbrev svLocking : Nat := 1
abbrev svLocked : Nat := 2
abbrev svPending : Nat := 3
abbrev svHoldover : Nat := 4
abbrev svStopped : Nat := 5

/-- The servo state (R64). -/
def State.servoSt (s : State) : Nat := s.fld F.TIME.TIME_STATE.STATE

/-- The offset source: 1 PTP, 2 HOST, 0 NONE; 0b11 acts as NONE (R79). -/
def srcOf (v : Nat) : Nat := if v = 1 then 1 else if v = 2 then 2 else 0

/-- The running offset source. -/
def State.timeSrc (s : State) : Nat := srcOf (s.fld F.TIME.TIME_CTL.SRC)

/-- STEP_THRESH in ns; values below 1,000 act as 1,000 (R79). -/
def State.stepThresh (s : State) : Nat :=
  let x := s.fld F.TIME.STEP_THRESH.THRESH
  if x < 1000 then 1000 else x

/-- SLEW_LIMIT in ppm; 0 acts as 1, above 1,000 as 1,000 (R79). -/
def State.slewPpm (s : State) : Nat :=
  let x := s.fld F.TIME.SLEW_LIMIT.LIMIT
  if x = 0 then 1 else if 1000 < x then 1000 else x

/-- A rate of `p` ppm in units of 2^-32 (R50). The spec does not say how a limit in ppm is rounded to units: to the nearest one is the
model's choice (DESIGN CHOICE, log entry 74). -/
def ppmUnits (p : Nat) : Int := roundHalfUp ((p * 2 ^ 32 : Nat) : Int) 1000000

/-- LOCK_COUNT; 0 acts as 1 (R79). -/
def State.lockCount (s : State) : Nat :=
  let x := s.fld F.TIME.LOCK_CTL.LOCK_COUNT
  if x = 0 then 1 else x

/-- LOSS_TIMEOUT in cycles; 0 acts as 1 s (R79). -/
def State.lossCycles (s : State) : Nat :=
  let x := s.fld F.TIME.TIME_CTL.LOSS_TIMEOUT
  (if x = 0 then 1 else x) * 500000000

/-- The clamp of FREQ_INT: 500 ppm (R57, R79). -/
abbrev intLimit : Int := 2147484

/-- Hub time has been set by a step or a lock since reset (R79). -/
def State.timeSet (s : State) : Bool := s.bit F.TIME.TIME_STATE.TIME_SET

/-- A step is scheduled (R61). -/
def State.stepSched (s : State) : Bool := s.bit F.TIME.TIME_STATE.STEP_SCHED

/-! ## States (R64) -/

/-- A scheduled step is cancelled; nothing else changes (R61). -/
def State.cancelStep (s : State) : State :=
  (s.setBit F.TIME.TIME_STATE.STEP_SCHED false).modServo fun v => { v with sched := none }

/-- FREQ_ADJ takes a value, limited to its register (R57). -/
def State.setFreqAdj (s : State) (x : Int) : State := s.setSfld F.TIME.FREQ_ADJ.ADJ x

/-- FREQ_ADJ is FREQ_INT alone: the phase term is 0 (R60, R64). -/
def State.freqToInt (s : State) : State := s.setFreqAdj (s.sfld F.TIME.FREQ_INT.INT)

/-- Sets the pending bits. -/
def State.pendBits (s : State) (fwd back : Bool) : State :=
  (s.setBit F.TIME.TIME_STATE.FWD_PENDING fwd).setBit F.TIME.TIME_STATE.BACK_PENDING back

/-- The servo enters state `st` (R56, R60, R61, R64): the runs of offsets start afresh; in FREE, PENDING, HOLDOVER and STOPPED
the rate is FREQ_INT and the next offset has no previous one, as after the end of PENDING or HOLDOVER; outside PENDING the
pending bits are clear; STOPPED cancels a scheduled step. -/
def State.servoEnter (s : State) (st : Nat) : State :=
  let old := s.servoSt
  let rateInt := decide (st = svFree) || decide (st = svPending) || decide (st = svHoldover) || decide (st = svStopped)
  let fresh := rateInt || decide (old = svPending) || decide (old = svHoldover)
  let ends := decide (st = svFree) || decide (st = svStopped)
  let s := s.modServo fun v =>
    { v with prev := if fresh then none else v.prev, inRun := 0, outRun := 0, threeRun := 0,
             slewAll := if ends then false else v.slewAll }
  let s := s.when rateInt State.freqToInt
  let s := s.when (decide (st ≠ svPending)) fun s => s.pendBits false false
  let s := s.when (decide (st = svStopped)) State.cancelStep
  let s := s.when (decide (st = svHoldover)) fun s => s.modServo fun v => { v with holdAt := some s.time.cycles }
  if old = st then s else (s.setFld F.TIME.TIME_STATE.STATE st).rimEvent evTimeState st

/-- TIME_SET becomes 1, and a tick generator in WAIT_TIME goes to RUN (R61, R103). -/
def State.markTimeSet (s : State) : State :=
  if s.timeSet then s
  else
    let s := s.setBit F.TIME.TIME_STATE.TIME_SET true
    if s.fld F.TICK.TICK_STS.STATE = 1 then (s.setFld F.TICK.TICK_STS.STATE 2).raiseInt Irq.resumed else s

/-! ## Steps (R59 to R61) -/

/-- A step by `e` is scheduled for the first second boundary at least 10 µs ahead, with `e` rounded to a multiple of 2 ns. An
ACTIVE hub announces it to its partner (R61, R383). -/
def State.scheduleStep (s : State) (e : Int) : State :=
  let b := ceilDiv (s.nowNs + 10000) nsPerSec % 2 ^ 48
  let s := (s.setBit F.TIME.TIME_STATE.STEP_SCHED true).modServo fun v => { v with sched := some (b, evenNs e) }
  s.when s.mirrored fun s => s.linkSend (.step b (evenNs e))

/-- An offset beyond STEP_THRESH (R59). -/
def State.stepOffset (s : State) (e : Int) : State :=
  let fwd := decide (e < 0)
  let s := s.modServo fun v => { v with lastCycles := s.time.cycles }
  if s.timeSet = false ∨ (fwd ∧ s.bit F.TIME.TIME_CTL.STEP_FWD_EN) then s.scheduleStep e
  else
    let s := s.setFld64 F.TIME.PENDING_OFFSET_LO.PEND_LO F.TIME.PENDING_OFFSET_HI.PEND_HI (unsigned 64 e)
    ((s.servoEnter svPending).pendBits fwd (!fwd)).raiseInt (if fwd then Irq.fwdPending else Irq.backPending)

/-! ## Offsets (R56, R57, R64) -/

/-- LOCKING and LOCKED follow the runs of offsets (R64). -/
def State.lockStep (s : State) (mag : Nat) : State :=
  let th := s.fld F.TIME.LOCK_CTL.LOCK_THRESH
  if s.servoSt = svLocking then
    let n := if mag ≤ th then s.servo.inRun + 1 else 0
    let s := s.modServo fun v => { v with inRun := n }
    if s.lockCount ≤ n then
      let s := (s.servoEnter svLocked).modServo fun v => { v with slewAll := false }
      s.markTimeSet.raiseInt Irq.locked
    else s
  else if s.servoSt = svLocked then
    if 4 * th < mag then s.servoEnter svLocking
    else
      let n := if th < mag then s.servo.outRun + 1 else 0
      let s := s.modServo fun v => { v with outRun := n }
      if s.lockCount ≤ n then s.servoEnter svLocking else s
  else s

/-- The offset has no previous one, or none at an earlier hub time (R56). -/
def State.offsetFirst (s : State) : Bool :=
  match s.servo.prev with
  | none => true
  | some p => decide (s.nowNs = p)

/-- The hub time t since the previous accepted offset, in ns; 1 s without one (R56). -/
def State.offsetSpan (s : State) : Nat :=
  match s.servo.prev with
  | none => nsPerSec
  | some p => if s.nowNs = p then nsPerSec else s.nowNs - p

/-- In units of 2^-32, k e / t is this over t in ns, for a gain k in units of 2^-16. -/
def gainNum (k : Nat) (e : Int) : Int := -((k : Int) * e * 2 ^ 16)

/-- The phase term exceeds the slew limit (R57). -/
def State.phaseLimited (s : State) (e : Int) : Bool :=
  decide (s.slewPpm * 2 ^ 32 * s.offsetSpan < (gainNum (s.fld F.TIME.SERVO_GAIN.KP) e).natAbs * 1000000)

/-- The phase term -kp e / t, limited to the slew limit (R57). -/
def State.phaseTerm (s : State) (e : Int) : Int × State :=
  let num := gainNum (s.fld F.TIME.SERVO_GAIN.KP) e
  if s.phaseLimited e then ((if num < 0 then -ppmUnits s.slewPpm else ppmUnits s.slewPpm), s) else s.roundFree num s.offsetSpan

/-- The integral term moves by -ki e / t, unless the phase term was limited or there is no previous offset (R56, R57). -/
def State.integrate (s : State) (e : Int) : State :=
  if s.phaseLimited e || s.offsetFirst then s
  else
    let (d, s) := s.roundFree (gainNum (s.fld F.TIME.SERVO_GAIN.KI) e) s.offsetSpan
    s.setSfld F.TIME.FREQ_INT.INT (clampInt (-intLimit) intLimit (s.sfld F.TIME.FREQ_INT.INT + d))

/-- An accepted offset (R56, R57): FREQ_ADJ is the sum of the integral and the phase term. -/
def State.useOffset (s : State) (e : Int) : State :=
  let (ph, s) := s.phaseTerm e
  let s := s.integrate e
  let s := s.setFreqAdj (s.sfld F.TIME.FREQ_INT.INT + ph)
  let s := s.modServo fun v => { v with prev := some s.nowNs, lastCycles := s.time.cycles }
  s.lockStep e.natAbs

/-- An offset arrives at the servo (R59, R60, R63, R64). -/
def State.servoOffset (s : State) (e : Int) : State :=
  let s := s.setFld64 F.TIME.LAST_OFFSET_LO.LAST_LO F.TIME.LAST_OFFSET_HI.LAST_HI (unsigned 64 e)
  if s.servoSt = svStopped ∨ s.stepSched then s
  else
    let big := decide (s.stepThresh < e.natAbs)
    if s.servoSt = svPending then
      let s := s.setFld64 F.TIME.PENDING_OFFSET_LO.PEND_LO F.TIME.PENDING_OFFSET_HI.PEND_HI (unsigned 64 e)
      let n := if big then 0 else s.servo.threeRun + 1
      let s := s.modServo fun v => { v with threeRun := n, lastCycles := s.time.cycles }
      if 3 ≤ n then (s.servoEnter svLocking).raiseInt Irq.pendCleared else s
    else if big && !s.servo.slewAll then s.stepOffset e
    else
      let s := if s.servoSt = svFree ∨ s.servoSt = svHoldover then s.servoEnter svLocking else s
      s.useOffset e

/-! ## Commands of TIME_CMD (R60, R65) -/

/-- The latest pending offset. -/
def State.pendingOffset (s : State) : Int :=
  signed 64 (s.fld64 F.TIME.PENDING_OFFSET_LO.PEND_LO F.TIME.PENDING_OFFSET_HI.PEND_HI)

/-- APPLY_STEP: the step is scheduled with the latest PENDING_OFFSET; ignored outside PENDING and while a step is scheduled
(R60). -/
def State.applyStepCmd (s : State) : State :=
  if s.servoSt = svPending ∧ s.stepSched = false then s.scheduleStep s.pendingOffset else s

/-- SLEW_ACCEPT: PENDING ends and the latest offset is slewed, as are later ones until LOCKED (R60). -/
def State.slewAcceptCmd (s : State) : State :=
  if s.servoSt = svPending ∧ s.stepSched = false then
    let e := s.pendingOffset
    let s := (s.servoEnter svLocking).modServo fun v => { v with slewAll := true }
    (s.raiseInt Irq.pendCleared).useOffset e
  else s

/-- SERVO_RESTART leaves STOPPED for FREE when no fault cause is present; injected causes end with it (R65, R429). -/
def State.servoRestartCmd (s : State) : State :=
  if s.servoSt = svStopped ∧ s.servo.pllBad = false ∧ s.servo.refBad = false then
    let s := s.modServo fun v => { v with expired := false }
    (s.modRim fun r => { r with injected := r.injected.filter fun e => decide (e.1 ≠ pgTIME) }).servoEnter svFree
  else s

/-- A write of TIME_CMD; with both bits written APPLY_STEP prevails over SLEW_ACCEPT (R60). An ACTIVE hub passes it on, and a
standby ignores it (R387). -/
def State.timeCmd (s : State) (v : Nat) : State :=
  let s := s.when (v.testBit 2) State.servoRestartCmd
  if v.testBit 0 then s.applyStepCmd
  else if v.testBit 1 then s.slewAcceptCmd else s

/-- A host write of TIME_CMD. -/
def State.writeTimeCmd (s : State) (v : Nat) : State :=
  s.ifNotFollowing fun s => (s.sendDecision (.timeCmd (BitVec.ofNat 3 v))).timeCmd v

/-- The source changes at once and keeps FREQ_INT; NONE ends LOCKING, LOCKED, PENDING and HOLDOVER in FREE and cancels a
scheduled step. On a standby the field has no effect (R55, R66). -/
def State.setSrc (s : State) (v : Nat) : State :=
  let old := s.timeSrc
  let s := s.setFld F.TIME.TIME_CTL.SRC v
  if s.follows ∨ s.timeSrc = old then s
  else
    let s := s.modServo fun x => { x with prev := none }
    if s.timeSrc = 0 then
      let s := s.cancelStep
      if s.servoSt = svFree ∨ s.servoSt = svStopped then s else s.servoEnter svFree
    else s

/-- A write of OFFSET_HI submits the 64-bit offset while SRC is HOST, and is ignored with any other source (R55). On a hub that
follows, SRC has no effect: the value is kept and nothing is submitted (R66). -/
def State.writeOffsetHi (s : State) (v : Nat) : State :=
  if s.timeSrc ≠ 2 then s
  else
    let s := s.setFld F.TIME.OFFSET_HI.OFS_HI v
    if s.follows then s else s.servoOffset (signed 64 (s.fld64 F.TIME.OFFSET_LO.OFS_LO F.TIME.OFFSET_HI.OFS_HI))

/-- A write of FREQ_INT: accepted only in FREE and HOLDOVER, and clamped (R79). -/
def State.writeFreqInt (s : State) (v : Nat) : State :=
  if s.servoSt = svFree ∨ s.servoSt = svHoldover then
    (s.setSfld F.TIME.FREQ_INT.INT (clampInt (-intLimit) intLimit (signed 32 v))).freqToInt
  else s

/-- A fatal time fault stops the servo (R64, R65, R417); its rim-log entry comes first. -/
def State.timeFatal (s : State) (f : FltBit) : State := (s.raiseFault f).servoEnter svStopped

/-- HOLDOVER_TIME: whole seconds of elapsed time since entry to the latest HOLDOVER, saturating (R79). -/
def State.holdoverTime (s : State) : Nat :=
  match s.servo.holdAt with
  | none => 0
  | some c => satNat (2 ^ 32 - 1) ((s.time.cycles - c) / 500000000)

/-! ## Latched reads (R78, R447) -/

/-- The latches of an access path. -/
def State.latches (s : State) : Path → Latches
  | .qspi => s.latchQ
  | .inband => s.latchM

/-- Changes the latches of an access path. -/
def State.modLatches (s : State) (p : Path) (f : Latches → Latches) : State :=
  match p with
  | .qspi => { s with latchQ := f s.latchQ }
  | .inband => { s with latchM := f s.latchM }

/-- NOW_NS: the nanoseconds, with the seconds latched. -/
def State.readNowNs (s : State) (p : Path) : Reg × State :=
  (BitVec.ofNat 32 s.time.ns, s.modLatches p fun l => { l with now := some (s.time.sec % 2 ^ 32, s.time.sec / 2 ^ 32) })

/-- NOW_SEC_LO: latched, or live. -/
def State.readNowSecLo (s : State) (p : Path) : Reg :=
  match (s.latches p).now with
  | some (lo, _) => BitVec.ofNat 32 lo
  | none => BitVec.ofNat 32 s.time.sec

/-- NOW_SEC_HI: the latched bits, which releases the latch, or live data with UNPAIRED (R78, R513). -/
def State.readNowSecHi (s : State) (p : Path) : Reg × State :=
  match (s.latches p).now with
  | some (_, hi) => (BitVec.ofNat 32 (hi % 2 ^ 16), s.modLatches p fun l => { l with now := none })
  | none => (BitVec.ofNat 32 (2 ^ 31 + s.time.sec / 2 ^ 32 % 2 ^ 16), s)

/-- PPS_IN_NS: the stamp's nanoseconds, with its seconds latched; the stamp has then been read (R77, R78). -/
def State.readPpsNs (s : State) (p : Path) : Reg × State :=
  (s.reg F.TIME.PPS_IN_NS.NS.addr,
   (s.modLatches p fun l => { l with pps := some (s.fld F.TIME.PPS_IN_SEC_LO.SEC_LO,
      (s.reg F.TIME.PPS_IN_SEC_HI.SEC_HI.addr).toNat) }).modPins fun q => { q with ppsUnread := false })

/-- PPS_IN_SEC_LO: latched, or live. -/
def State.readPpsSecLo (s : State) (p : Path) : Reg :=
  match (s.latches p).pps with
  | some (lo, _) => BitVec.ofNat 32 lo
  | none => s.reg F.TIME.PPS_IN_SEC_LO.SEC_LO.addr

/-- PPS_IN_SEC_HI: the latched bits, which releases the latch, or live data with UNPAIRED (R78, R513). -/
def State.readPpsSecHi (s : State) (p : Path) : Reg × State :=
  match (s.latches p).pps with
  | some (_, hi) => (BitVec.ofNat 32 hi, s.modLatches p fun l => { l with pps := none })
  | none => (s.reg F.TIME.PPS_IN_SEC_HI.SEC_HI.addr ||| 0x80000000#32, s)

/-- LAST_OFFSET_LO, with LAST_OFFSET_HI latched (R78). -/
def State.readLastOffsetLo (s : State) (p : Path) : Reg × State :=
  (s.reg F.TIME.LAST_OFFSET_LO.LAST_LO.addr,
   s.modLatches p fun l => { l with lastOffset := some (s.reg F.TIME.LAST_OFFSET_HI.LAST_HI.addr) })

/-- PENDING_OFFSET_LO, with PENDING_OFFSET_HI latched (R78). -/
def State.readPendOffsetLo (s : State) (p : Path) : Reg × State :=
  (s.reg F.TIME.PENDING_OFFSET_LO.PEND_LO.addr,
   s.modLatches p fun l => { l with pendOffset := some (s.reg F.TIME.PENDING_OFFSET_HI.PEND_HI.addr) })

/-- A read has returned a value: it is the answer of the command. -/
def State.answer (r : Reg × State) : State := { r.2 with rdata := [r.1] }

/-! ## The commands -/

/-- HOST_OFFSET_SUBMIT (R55). -/
def execHostOffsetSubmit (v : Reg) (s : State) : Host.Outcome State Fault Refusal := actW (·.writeOffsetHi v.toNat) s

/-- SRC_CHANGE (R55). -/
def execSrcChange (src : BitVec 2) (s : State) : Host.Outcome State Fault Refusal := actW (·.setSrc src.toNat) s

/-- FREQ_INT_WRITE (R79). -/
def execFreqIntWrite (v : Reg) (s : State) : Host.Outcome State Fault Refusal := actW (·.writeFreqInt v.toNat) s

/-- APPLY_STEP (R60). -/
def execApplyStep (s : State) : Host.Outcome State Fault Refusal := actW (·.writeTimeCmd 1) s

/-- SLEW_ACCEPT (R60). -/
def execSlewAccept (s : State) : Host.Outcome State Fault Refusal := actW (·.writeTimeCmd 2) s

/-- SERVO_RESTART (R65). -/
def execServoRestart (s : State) : Host.Outcome State Fault Refusal := actW (·.writeTimeCmd 4) s

/-- No offset for LOSS_TIMEOUT seconds of elapsed time: HOLDOVER, unless a step is scheduled (R60, R64). -/
def State.holdoverEntry (s : State) : State :=
  if (s.servoSt = svLocking ∨ s.servoSt = svLocked ∨ s.servoSt = svPending) ∧ s.stepSched = false then
    ((s.reachCycles (s.servo.lastCycles + s.lossCycles)).servoEnter svHoldover).raiseInt Irq.holdover
  else s

/-- HOLDOVER_ENTRY (R64). -/
def execHoldoverEntry (s : State) : Host.Outcome State Fault Refusal := act State.holdoverEntry s

/-- HOLDOVER_TIME reaches a non-zero HOLDOVER_LIMIT: the servo stops (R64). -/
def State.holdoverExpire (s : State) : State :=
  let lim := s.fld F.TIME.HOLDOVER_LIMIT.LIMIT
  if s.servoSt = svHoldover ∧ lim ≠ 0 then
    let s := s.reachCycles (s.servo.holdAt.getD 0 + lim * 500000000)
    (s.modServo fun v => { v with expired := true }).timeFatal Flt.holdoverExpired
  else s

/-- HOLDOVER_EXPIRED (R64). -/
def execHoldoverExpired (s : State) : Host.Outcome State Fault Refusal := act State.holdoverExpire s

/-- PLL_UNLOCK (R64): the cause persists until the PLL locks again. -/
def execPllUnlock (s : State) : Host.Outcome State Fault Refusal :=
  act (fun s => (s.modServo fun v => { v with pllBad := true }).timeFatal Flt.pllUnlock) s

/-- REFCLK_LOSS (R64): the cause persists until the reference returns. -/
def execRefclkLoss (s : State) : Host.Outcome State Fault Refusal :=
  act (fun s => (s.modServo fun v => { v with refBad := true }).timeFatal Flt.refclkLoss) s

/-- PLL_RELOCK (R65): the causes of PLL_UNLOCK and REFCLK_LOSS end. -/
def execPllRelock (s : State) : Host.Outcome State Fault Refusal :=
  act (fun s => s.modServo fun v => { v with pllBad := false, refBad := false }) s

/-- NOW_NS_READ (R78). -/
def execNowNsRead (p : Path) (s : State) : Host.Outcome State Fault Refusal := act (fun s => State.answer (s.readNowNs p)) s

/-- NOW_SEC_HI_READ (R78). -/
def execNowSecHiRead (p : Path) (s : State) : Host.Outcome State Fault Refusal :=
  act (fun s => State.answer (s.readNowSecHi p)) s

/-- PPS_IN_NS_READ (R78). -/
def execPpsInNsRead (p : Path) (s : State) : Host.Outcome State Fault Refusal := act (fun s => State.answer (s.readPpsNs p)) s

/-- PPS_IN_SEC_HI_READ (R78). -/
def execPpsInSecHiRead (p : Path) (s : State) : Host.Outcome State Fault Refusal :=
  act (fun s => State.answer (s.readPpsSecHi p)) s

/-- LAST_OFFSET_LO_READ (R78). -/
def execLastOffsetLoRead (p : Path) (s : State) : Host.Outcome State Fault Refusal :=
  act (fun s => State.answer (s.readLastOffsetLo p)) s

/-- PENDING_OFFSET_LO_READ (R78). -/
def execPendingOffsetLoRead (p : Path) (s : State) : Host.Outcome State Fault Refusal :=
  act (fun s => State.answer (s.readPendOffsetLo p)) s

/-! ## PPS (R76, R77) -/

/-- PPS_OUT_OFFSET in ns: limited to ±100,000,000 and rounded to a multiple of 2 ns (R79). -/
def State.ppsOffset (s : State) : Int := evenNs (clampInt (-100000000) 100000000 (s.sfld F.TIME.PPS_OUT_OFFSET.OFS))

/-- The boundary of the next pulse: the first whose pulse instant is not past and which lies after the latest one pulsed
(R76). -/
def State.ppsNext (s : State) : Nat :=
  let b := (((s.nowNs : Int) - s.ppsOffset + (nsPerSec - 1 : Nat)) / (nsPerSec : Int)).toNat
  let b := if b < s.time.ppsSeen then s.time.ppsSeen else b
  match s.time.pulsed with
  | some p => if b ≤ p then p + 1 else b
  | none => b

/-- WIDTH in µs; values out of range act as the nearest of 1 and 999,999 (R79). -/
def State.ppsWidth (s : State) : Nat := min 999999 (max 1 (s.fld F.TIME.PPS_OUT_CTL.WIDTH))

/-- PPS_OUT is high (R76). -/
def State.ppsHigh (s : State) : Bool := decide (s.time.cycles < s.pins.ppsUntil)

/-- The pulse of the next boundary falls due: hub time runs on to its instant. PPS_OUT pulses if EN is set and, with GATE, only
while TIME_SET = 1 and STATE is LOCKED or HOLDOVER, and stays high for WIDTH µs, counted in elapsed time (R76; log entry 6). A boundary
without a pulse is passed over. -/
def State.ppsPulse (s : State) : State :=
  let b := s.ppsNext
  let s := s.reachNs (((b * nsPerSec : Nat) : Int) + s.ppsOffset).toNat
  let open_ := !s.bit F.TIME.PPS_OUT_CTL.GATE
    || (s.timeSet && (decide (s.servoSt = svLocked) || decide (s.servoSt = svHoldover)))
  if s.bit F.TIME.PPS_OUT_CTL.EN && open_ then
    (s.modTime fun t => { t with pulsed := some b }).modPins fun p =>
      { p with pps := b :: p.pps, ppsUntil := s.time.cycles + 500 * s.ppsWidth }
  else s.modTime fun t => { t with ppsSeen := b + 1 }

/-- PPS_OUT_PULSE (R76). -/
def execPpsOutPulse (s : State) : Host.Outcome State Fault Refusal := act State.ppsPulse s

/-- A chosen edge on PPS_IN is stamped and counted; it overwrites an unread stamp with PPS_IN_OVR (R77). -/
def State.ppsEdge (s : State) (rising : Bool) (t : Stamp) : State :=
  if s.bit F.TIME.PPS_IN_CTL.EN && decide (rising = !s.bit F.TIME.PPS_IN_CTL.EDGE) then
    let s := s.when s.pins.ppsUnread fun s => s.setBit F.TIME.TIME_STATE.PPS_IN_OVR true
    let s := (s.setFld F.TIME.PPS_IN_NS.NS t.ns).setFld F.TIME.PPS_IN_SEC_LO.SEC_LO t.sec
    let s := (s.setFld F.TIME.PPS_IN_SEC_HI.SEC_HI (t.sec / 2 ^ 32)).setFld F.TIME.PPS_IN_SEC_HI.FRAC t.frac
    ((s.count F.TIME.PPS_IN_CNT.CNT).modPins fun p => { p with ppsUnread := true }).raiseInt Irq.ppsIn
  else s

/-- PPS_IN_EDGE (R77). -/
def execPpsInEdge (rising : Bool) (t : Stamp) (s : State) : Host.Outcome State Fault Refusal := act (·.ppsEdge rising t) s

end Sys2Proof.Machine
end

