-- ==== Sys2Proof/Machine/Grid.lean ====
section
/-!
DEFINITION. The tick grid (R83 to R91): the grid instants, tick indices and grid counts, the run of time to a grid instant, the
history of issued ticks, and the states of the grid (R103).
-/

namespace Sys2Proof.Machine

/-! ## The running grid (R83 to R88) -/

/-- TICK_PERIOD in ns. -/
def State.tickPeriod (s : State) : Nat := s.fld F.TICK.TICK_PERIOD.PERIOD

/-- TICK_PHASE in 1/64 ns (R84). -/
def State.phaseTu (s : State) : Nat := s.fld F.TICK.TICK_PHASE.PHASE_NS * 64 + s.fld F.TICK.TICK_PHASE_FRAC.FRAC

/-- Ticks per second of a period (R83). -/
def tpsOf (period : Nat) : Nat := nsPerSec / period

/-- TPS of the running grid. -/
def State.tps (s : State) : Nat := tpsOf s.tickPeriod

/-- The tick index of the grid instant with grid count `n` (R86, R88). -/
def idxOf (period n : Nat) : Nat := ((n / tpsOf period) * 131072 + n % tpsOf period) % 2 ^ 64

/-- The grid count of a tick index. -/
def countOf (period idx : Nat) : Nat := (idx / 131072) * tpsOf period + idx % 131072

/-- The instant, in 1/64 ns, of the grid instant with grid count `n` (R85). -/
def State.gridTu (s : State) (n : Nat) : Nat := s.phaseTu + n * s.tickPeriod * 64

/-- The instant of a tick index on the running grid (R86). -/
def State.idxTu (s : State) (idx : Nat) : Nat :=
  (idx / 131072) * nsPerSec * 64 + s.phaseTu + (idx % 131072) * s.tickPeriod * 64

/-- The grid count of the first grid instant at or after `t`, in 1/64 ns. -/
def State.countAt (s : State) (t : Nat) : Nat := ceilDiv (t - s.phaseTu) (s.tickPeriod * 64)

/-! ## Time and the grid (R92) -/

/-- Hub time now with the phase of the accumulator, in units of 2^-32 of a 2 ns step. -/
def State.finePos (s : State) : Nat := (s.nowNs / 2) * 2 ^ 32 + s.time.acc

/-- Time runs on to the last cycle edge at or before the instant `t`, in 1/64 ns (R92); nothing happens if it has passed. -/
def State.reachTu (s : State) (t : Nat) : State := s.runCycles ((t * 2 ^ 25 - s.finePos) / s.cycleStep)

/-- Grid instants that are not issued count in SKIP_CNT while EN = 1 (R89), and in the gap since the last tick (R108). -/
def State.gridSkip (s : State) (k : Nat) : State :=
  let s := s.modGrid fun g => { g with gap := g.gap + k }
  s.when (s.bit F.TICK.TICK_CTL.EN) fun s => s.count F.TICK.SKIP_CNT.CNT k

/-- The first instant that has not passed by a whole cycle of the counter, in 1/64 ns. -/
def State.cycleTu (s : State) : Nat := if s.finePos < s.cycleStep then 0 else (s.finePos - s.cycleStep) / 2 ^ 25 + 1

/-- The first grid instant that has not passed by a whole cycle is the next to be decided; those before it were not issued. -/
def State.gridSettle (s : State) : State :=
  let n := s.countAt s.cycleTu
  if s.grid.cur < n then (s.gridSkip (n - s.grid.cur)).modGrid fun g => { g with cur := n } else s

/-! ## Ticks issued -/

/-- A tick has been issued: it extends the newest run of successive grid instants or starts a run. -/
def State.recordTick (s : State) (t : Tick) : State :=
  s.modGrid fun g =>
    { g with last := some t, runs := (match g.runs with
        | (f, p, k) :: rest =>
          if p = s.tickPeriod ∧ f.n + k = t.n ∧ f.at_ + k * p * 64 = t.at_ then (f, p, k + 1) :: rest
          else (t, s.tickPeriod, 1) :: (f, p, k) :: rest
        | [] => [(t, s.tickPeriod, 1)]) }

/-- The instant, in 1/64 ns, of an issued tick with index `idx` and grid count `n`. -/
def State.tickTu (s : State) (idx n : Nat) : Nat :=
  match s.grid.runs.find? fun r => decide (r.1.idx ≤ idx) with
  | some (f, p, _) => f.at_ + (n - f.n) * p * 64
  | none => s.gridTu n

/-- The first tick of a run at or after instant `t` with an index above `after`: its index and instant. -/
def runFirst (r : Tick × Nat × Nat) (t : Nat) (after : Option Nat) : Option (Nat × Nat) :=
  let (f, p, k) := r
  let j1 := ceilDiv (t - f.at_) (p * 64)
  let j2 := match after with
    | some a => countOf p a + 1 - countOf p f.idx
    | none => 0
  let j := if j1 < j2 then j2 else j1
  if j < k then some (idxOf p (countOf p f.idx + j), f.at_ + j * p * 64) else none

/-- The first issued tick at or after instant `t`, in 1/64 ns, with an index above `after`; none if none has been issued yet
(R275, R276). -/
def State.firstTick (s : State) (t : Nat) (after : Option Nat) : Option (Nat × Nat) :=
  s.grid.runs.reverse.findSome? fun r => runFirst r t after

/-! ## States of the grid (R103) -/

abbrev gridOff : Nat := 0
abbrev gridWait : Nat := 1
abbrev gridRun : Nat := 2
abbrev gridCatchup : Nat := 3
abbrev gridSleep : Nat := 4

/-- TICK_STS.STATE. -/
def State.gridSt (s : State) : Nat := s.fld F.TICK.TICK_STS.STATE

/-- The state that R103 gives for EN, WAIT_TIME_SET and TIME_SET; the tick generator starts at step 9 of start-up (R468). -/
def State.gridTarget (s : State) : Nat :=
  if s.bit F.TICK.TICK_CTL.EN = false ∨ s.booting = true then gridOff
  else if s.bit F.TICK.TICK_CTL.WAIT_TIME_SET && !s.timeSet then gridWait
  else gridRun

/-- The next grid instant to be decided is the first not issued because its index is not above the last one: CATCHUP. -/
def State.behind (s : State) : Bool :=
  match s.grid.last with
  | some t => decide (idxOf s.tickPeriod s.grid.cur ≤ t.idx)
  | none => false

/-- The grid count of the first grid instant of a period whose index exceeds `idx`: the next instant of that second, or the first of the
next one (R86). -/
def countAfter (period idx : Nat) : Nat := (idx / 131072) * tpsOf period + min (idx % 131072 + 1) (tpsOf period)

/-- The grid count of the grid instant at which CATCHUP ends: the first whose index exceeds that of the last tick issued, if one was
issued, and that no rule holds back (R89, R105). -/
def State.catchupEnd (s : State) : Nat :=
  max (match s.grid.last with | some t => countAfter s.tickPeriod t.idx | none => s.grid.cur) (s.countAt s.grid.notBefore)

/-- CATCHUP_REMAIN: ns of hub time until CATCHUP ends (R105, R109). The spec does not say how a fraction of a nanosecond is shown: it is
dropped, which is the model's choice (DESIGN CHOICE, log entry 75). -/
def State.catchupRemain (s : State) : Nat :=
  if s.gridSt = gridCatchup then satNat (2 ^ 32 - 1) (s.gridTu s.catchupEnd / 64 - s.nowNs) else 0

/-- WALE_CTL.ROLE lets the hub drive and receive (R362). -/
def State.waleOn (s : State) : Bool := decide (s.fld F.WALE.WALE_CTL.ROLE ≠ 0)

/-- The hub drives WCLK, WSYNC and echoes: TIMEKEEPER by role, or a backup that has taken over (R362, R364). -/
def State.timekeeper (s : State) : Bool := s.bit F.WALE.WALE_STS.TK_ACTIVE

/-- The hub is driving `line` now. -/
def State.waleDriving (s : State) (line : Nat) : Bool :=
  s.wale.driving.any fun e => decide (e.1 = line) && decide (s.elapsedNs < e.2.1)

/-- A pulse of `width` ns is driven on a line and counted; while the hub drives the line already it adds no pulse and counts as
merged (R365, R366). A drive is kept until receivers have classified it. -/
def State.walePulse (s : State) (line width : Nat) : State :=
  if s.waleDriving line then s.count F.WALE.MERGED_CNT.CNT
  else
    (s.modWale fun w => { w with
      driving := (line, s.elapsedNs + width, s.nowNs, width) :: w.driving.filter fun e => decide (s.elapsedNs < e.2.1 + 1000)
      sent := line :: w.sent }).count F.WALE.TX_CNT.CNT

/-- A phase pulse has been seen (R368, R373). -/
def State.phaseSeen (s : State) : State :=
  (s.setBit F.WALE.WALE_STS.WSYNC_OK true).modWale fun w => { w with wsyncAt := s.time.cycles, wsyncGone := false }

/-- At its second boundary the timekeeper drives a WSYNC pulse of 400 ns (R362, R364), which its own receiver sees (R366). -/
def State.wsyncDrive (s : State) : State := if s.timekeeper then (s.walePulse 8 400).phaseSeen else s

/-- The wale correction is 0, and so is its target: on a hub with ALIGN_WALE clear, and on the hub that drives WSYNC (R102, R362). -/
def State.waleZero (s : State) : State :=
  (s.setFld F.TICK.WALE_CORR.CORR 0).modGrid fun g => { g with waleTarget := 0, waleFails := 0 }

/-- A write of TICK_CTL moves the grid between OFF, WAIT_TIME and RUN (R103). A grid that is enabled again while hub time is
behind the last tick goes to RUN, where R89 admits no tick until then. Clearing ALIGN_WALE takes the wale correction to 0
(R102). -/
def State.writeTickCtl (s : State) (v : Reg) : State :=
  let s := s.gridSettle
  let on := s.bit F.TICK.TICK_CTL.EN
  let s := ((s.setBit F.TICK.TICK_CTL.EN (v.getLsbD 0)).setBit F.TICK.TICK_CTL.WAIT_TIME_SET (v.getLsbD 1)).setBit
    F.TICK.TICK_CTL.ALIGN_WALE (v.getLsbD 2)
  let s := s.when (v.getLsbD 2 = false) State.waleZero
  let st := s.gridSt
  if st = gridSleep then s
  else if s.bit F.TICK.TICK_CTL.EN = false then s.setFld F.TICK.TICK_STS.STATE gridOff
  else if on = false then s.setFld F.TICK.TICK_STS.STATE s.gridTarget
  else if st = gridWait ∧ s.gridTarget = gridRun then (s.setFld F.TICK.TICK_STS.STATE gridRun).raiseInt Irq.resumed
  else s

/-- TICK_EN_WRITE (R103). -/
def execTickEnWrite (v : Reg) (s : State) : Host.Outcome State Fault Refusal := actW (·.writeTickCtl v) s

/-! ## Wale alignment (R102) -/

/-- Once per second the corrected arrival of WSYNC is measured against the own second boundary: the difference, in 15.625 ps
units, is the target of the correction. Beyond 16 ns it raises ALIGN_FAIL and leaves the correction where it stands; after
three failing seconds in a row the target is 0. -/
def State.wsyncAlign (s : State) (d : Int) : State :=
  if s.bit F.TICK.TICK_CTL.ALIGN_WALE = false then s
  else if 1024 < d.natAbs then
    let k := s.grid.waleFails + 1
    let cur := s.sfld F.TICK.WALE_CORR.CORR
    (s.modGrid fun g => { g with waleFails := k, waleTarget := if 3 ≤ k then 0 else cur }).raiseInt Irq.alignFail
  else s.modGrid fun g => { g with waleFails := 0, waleTarget := d }

/-- At each tick the correction moves one step toward its target. -/
def State.waleStep (s : State) : State :=
  let c := s.sfld F.TICK.WALE_CORR.CORR
  let t := s.grid.waleTarget
  if c < t then s.setSfld F.TICK.WALE_CORR.CORR (c + 1)
  else if t < c then s.setSfld F.TICK.WALE_CORR.CORR (c - 1)
  else s

/-! ## Skew trim (R98 to R100) -/

/-- The three factory trim codes of channel `c` in the MRAM, 0 where its partition is bad (R470). -/
def State.trimCodes (s : State) (c : Nat) : Int × Int × Int := 
  if s.mram.factoryOk then sget (0, 0, 0) s.mram.trims c else (0, 0, 0)

/-- factory(c, tj): the +25 °C code, or with TEMP_TRACK the line through the two codes about TJ, extended outside, rounded to the
nearest code; a tie is free (log entry 3). TJ is in 1/16 °C. -/
def State.trimFactory (s : State) (c : Nat) : Int × State :=
  let (cold, mid, hot) := s.trimCodes c
  if s.bit F.TICK.TRIM_CTL.TEMP_TRACK = false then (mid, s)
  else
    let tj := s.sfld F.TICK.TJ.TEMP
    -- segments of 65 °C and 100 °C, in 1/16 °C
    let (num, den) : Int × Nat :=
      if tj < 400 then (cold * 1040 + (mid - cold) * (tj + 640), 1040) else (mid * 1600 + (hot - mid) * (tj - 400), 1600)
    let lo := (2 * num + den - 1) / (2 * (den : Int))
    if (2 * num + den) % (2 * (den : Int)) = 0 then
      let (h, s) := s.roundFree (2 * num + den - 1) (2 * den)
      (h, s)
    else (lo, s)

/-- The TRIM_USER field of channel `c`. -/
def trimUserFld (c : Nat) : Fld := ⟨0x3200 + 4 * (c / 4), 8 * (c % 4), 6⟩

/-- The applied trim of channel `c` (R98). -/
def trimApplFld (c : Nat) : Fld := ⟨0x3400 + 4 * (c / 4), 8 * (c % 4), 6⟩

/-- The applied trim of one channel is computed (R98): a clamped sum is counted and raises TRIM_SAT. -/
def State.applyTrim (s : State) (full : Bool) (c : Nat) : State :=
  let s := s.when full fun s =>
    let (f, s) := s.trimFactory c
    s.modGrid fun g => { g with trimF := sset 0 g.trimF c f }
  let f : Int := if s.bit F.TICK.TRIM_CTL.FACTORY_EN then sget 0 s.grid.trimF c else 0
  let x := f + s.sfld (trimUserFld c)
  let s := s.setSfld (trimApplFld c) (clampInt (-32) 31 x)
  if x < -32 ∨ 31 < x then (s.count F.TICK.TRIM_SAT_CNT.CNT).raiseInt Irq.trimSat else s

/-- At a tick, changes of the trims take effect (R99). -/
def State.applyTrims (s : State) : State :=
  if s.grid.trimDue then
    let full := s.grid.trimFull
    (s.each (List.range 512) fun s c => s.applyTrim full c).modGrid fun g => { g with trimDue := false, trimFull := false }
  else s

/-- TJ has been measured: the factory part of each trim moves by at most one code toward its new value (R99). -/
def State.tjMeasure (s : State) (t : Nat) : State :=
  let s := s.setFld F.TICK.TJ.TEMP t
  let s := s.each (List.range 512) fun s c =>
    let old := sget 0 s.grid.trimF c
    let (f, s) := s.trimFactory c
    s.modGrid fun g => { g with trimF := sset 0 g.trimF c (clampInt (old - 1) (old + 1) f) }
  s.modGrid fun g => { g with trimDue := true }

/-- TJ_MEASURE (R99). -/
def execTjMeasure (t : BitVec 16) (s : State) : Host.Outcome State Fault Refusal := act (·.tjMeasure t.toNat) s

/-! ## What the coming grid instant waits for (R89, R90, R106, R108) -/

/-- The grid instant with grid count `n` does not reach the boundary of a scheduled step, which no tick of the old time does (R89, R106). -/
def State.gridBefore (s : State) (n : Nat) : Bool :=
  match s.servo.sched with
  | some (b, _) => decide (s.gridTu n < b * nsPerSec * 64)
  | none => true

/-- The grid instant with grid count `n` has an index above the last tick, no rule holds ticks back until it, and it is not the instant
of a step (R89, R90, R106, R108). -/
def State.gridFree (s : State) (n : Nat) : Bool :=
  (match s.grid.last with
   | some t => decide (t.idx < idxOf s.tickPeriod n)
   | none => true) && decide (s.grid.notBefore ≤ s.gridTu n) && s.gridBefore n

/-- The coming second boundary, or the one crossed and not yet dealt with (log entry 6). -/
def State.nextSecond (s : State) : Nat := if s.time.crossed then s.time.sec else s.time.sec + 1

/-- A step is scheduled for second boundary `b`. -/
def State.stepAt (s : State) (b : Nat) : Bool :=
  match s.servo.sched with
  | some e => decide (e.1 ≤ b)
  | none => false

end Sys2Proof.Machine
end

