-- ==== Sys2Proof/Machine/Weave.lean ====
section
/-!
DEFINITION. The weave table (R152 to R158): entries, segments, their demand, the ordinal of a conversion, and the conversion
rates that the capacity limits are stated in (R38, R266).
-/

namespace Sys2Proof.Machine

/-! ## Entries and segments -/

/-- OP, CH, REPEAT, DELAY and SRC of a weave entry (R152). -/
def weOp (v : Reg) : Nat := getBits v 30 2
def weCh (v : Reg) : Nat := getBits v 26 4
def weRepeat (v : Reg) : Nat := getBits v 18 8
def weDelay (v : Reg) : Nat := getBits v 8 10
def weLive (v : Reg) : Bool := v.getLsbD 7

/-- The byte address of entry `e` of a bank of group `g` (R158). -/
def weaveAddr (g : Nat) (bank : Bool) (e : Nat) : Nat := pgSLICE g * 0x1000 + (if bank then 0x800 else 0x400) + 4 * e

/-- The entries of a bank in table order. -/
def State.bankEntries (s : State) (g : Nat) (bank : Bool) : List Reg :=
  (List.range 256).map fun e => s.reg (weaveAddr g bank e)

/-- Collects the segments of a bank with their repetitions (R153, R154): `acc` is the current segment in reverse order, `fresh`
says that no entry at all came before. -/
def segmentsFrom (acc : List Reg) (fresh : Bool) : List Reg → List (List Reg × Nat)
  | [] => if fresh || !acc.isEmpty then [(acc.reverse, 1)] else []
  | v :: rest =>
    if weOp v = 1 then (acc.reverse, weRepeat v + 1) :: segmentsFrom [] false rest
    else if weOp v = 3 then (if fresh || !acc.isEmpty then [(acc.reverse, 1)] else [])
    else segmentsFrom (v :: acc) false rest

/-- The segments of a bank. -/
def segments (l : List Reg) : List (List Reg × Nat) := segmentsFrom [] true l

/-- L: the number of tick segments (R154). -/
def segCount (l : List (List Reg × Nat)) : Nat := (l.map Prod.snd).sum

/-- The demand of a segment in ns (R157). -/
def segDemand (l : List Reg) : Nat :=
  200 + (l.map fun v =>
    if weOp v = 0 then (weRepeat v + 1) * 480 + weDelay v * 10 else if weOp v = 2 then weDelay v * 10 else 0).sum

/-- The largest segment demand of a bank. -/
def maxDemand (l : List (List Reg × Nat)) : Nat := (l.map fun e => segDemand e.1).foldl (fun a b => if a < b then b else a) 200

/-- The first segment whose demand exceeds the period (R160). -/
def firstFail (period : Nat) : Nat → List (List Reg × Nat) → Option Nat
  | _, [] => none
  | k, (l, r) :: rest => if period < segDemand l then some k else firstFail period (k + r) rest

/-- The SRC 0 conversions of local channel `ch` in a segment. -/
def segConvs (ch : Nat) (l : List Reg) : Nat :=
  (l.map fun v => if weOp v = 0 ∧ weCh v = ch ∧ weLive v = false then weRepeat v + 1 else 0).sum

/-- C of R162: the SRC 0 conversions of a channel in one loop. -/
def loopConvs (ch : Nat) (l : List (List Reg × Nat)) : Nat := (l.map fun e => segConvs ch e.1 * e.2).sum

/-- Segment number `m` of a bank with the SRC 0 conversions of each local channel that come before it in the loop. -/
def findSegment (l : List (List Reg × Nat)) (m : Nat) : List Reg × (Nat → Nat) :=
  match l with
  | [] => ([], fun _ => 0)
  | (seg, r) :: rest =>
    if m < r then (seg, fun ch => m * segConvs ch seg)
    else
      let (x, f) := findSegment rest (m - r)
      (x, fun ch => r * segConvs ch seg + f ch)

/-- The operations of a segment: `before` counts the conversions of each channel ahead of the entry (R153, R155). -/
def segOps (before : Nat → Nat) : List Reg → List PassOp
  | [] => []
  | v :: rest =>
    if weOp v = 0 then
      let ch := weCh v
      let live := weLive v
      let k := weRepeat v + 1
      let w : List PassOp := if weDelay v = 0 then [] else [.wait (weDelay v) (some (ch, live))]
      w ++ (List.range k).map (fun i => PassOp.conv ch live (before ch + i))
        ++ segOps (fun c => if c = ch ∧ live = false then before c + k else before c) rest
    else if weOp v = 2 then (if weDelay v = 0 then [] else [.wait (weDelay v) none]) ++ segOps before rest
    else segOps before rest

/-! ## Running banks -/

/-- The active bank of group `g` (R158). -/
def State.actBank (s : State) (g : Nat) : Bool := s.bit (F.SLICE.SLICE_CTL.ACT_BANK g)

/-- The segments of the active bank of group `g`. -/
def State.actSegments (s : State) (g : Nat) : List (List Reg × Nat) := segments (s.bankEntries g (s.actBank g))

/-- A channel is enabled: its MODE is not OFF (R111, R165). -/
def State.chEnabled (s : State) (c : Nat) : Bool := decide (s.fld (F.CH.FE_CFG.MODE c) ≠ 0)

/-- The channel has sample ticks in the active bank (R37). -/
def State.hasTicks (s : State) (c : Nat) : Bool := decide (0 < loopConvs (c % 16) (s.actSegments (c / 16)))

/-- The channel has sample ticks in the bank of its group that is not active (R37). -/
def State.hasTicksOther (s : State) (c : Nat) : Bool :=
  decide (0 < loopConvs (c % 16) (segments (s.bankEntries (c / 16) (!s.actBank (c / 16)))))

/-! ## Rates

A rate is a fraction of two numbers. -/

/-- A sum of fractions in lowest terms. -/
def fracAdd (a b : Nat × Nat) : Nat × Nat :=
  let n := a.1 * b.2 + b.1 * a.2
  let d := a.2 * b.2
  let g := Nat.gcd n d
  if g = 0 then (n, d) else (n / g, d / g)

/-- A sum of rates. -/
def fracSum (l : List (Nat × Nat)) : Nat × Nat := l.foldl fracAdd (0, 1)

/-- A fraction rounded down. -/
def fracFloor (a : Nat × Nat) : Nat := a.1 / a.2

/-- f_conv,c in conversions per second for a bank and a period: C / (L × TICK_PERIOD) (R38). The rule does not say whether conversions with
SRC 1 count; the model counts those with SRC 0, which give words (DESIGN CHOICE, log entry 81). -/
def convRate (segs : List (List Reg × Nat)) (period ch : Nat) : Nat × Nat :=
  (loopConvs ch segs * nsPerSec, segCount segs * period)

end Sys2Proof.Machine
end

