-- ==== Sys2Proof/Machine/Capture.lean ====
section
/-!
DEFINITION. Record contexts: their history in capture memory (R261 to R263, R280 to R282, R286 to R289), the cut of a record
(R275 to R279), measurements (R285), and triggers on their way to a decision (R270, R271, R274).
-/

namespace Sys2Proof.Machine

/-! ## States and settings (R267) -/

abbrev cxIdle : Nat := 0
abbrev cxRearm : Nat := 1
abbrev cxFill : Nat := 2
abbrev cxArmed : Nat := 3
abbrev cxPost : Nat := 4
abbrev cxDone : Nat := 5
abbrev cxHoldoff : Nat := 6

/-- CTX_STS.STATE. -/
def State.cxSt (s : State) (x : Nat) : Nat := s.fld (F.CTX.CTX_STS.STATE x)

/-- The context writes history: FILL, ARMED or POST. -/
def State.cxWrites (s : State) (x : Nat) : Bool :=
  decide (cxFill ≤ s.cxSt x) && decide (s.cxSt x ≤ cxPost) && !s.stalledAt (pgCTX x)

/-- C: slots per member (R262). -/
def State.cxC (s : State) (x : Nat) : Nat := s.fld (F.CTX.CTX_STS.C x)

/-- The tap of the context is the FIR output. -/
def State.cxTap (s : State) (x : Nat) : Bool := s.bit (F.CTX.CTX_CFG.TAP x)

/-- PRE and POST_EFF in positions (R265). -/
def State.cxPre (s : State) (x : Nat) : Nat := s.fld (F.CTX.ARM.PRE x)
def State.cxPostEff (s : State) (x : Nat) : Nat := s.fld (F.CTX.ARM_INFO.POST_EFF x)

/-- The capture word of slot `i` of member `k` (R262). -/
def State.cxAddr (s : State) (x k i : Nat) : Nat := s.fld (F.CTX.REGION.BASE x) * 1024 + k * s.cxC x + i

/-- A word of capture memory; a word never written reads as 0 (log entry 4). -/
def State.capWord (s : State) (a : Nat) : Word := sget 0 s.capMem a

/-- Writes a word of capture memory; an error in it is gone. -/
def State.setCapWord (s : State) (a : Nat) (w : Word) : State :=
  { s with capMem := sset 0 s.capMem a w, capEcc := sset 0 s.capEcc a 0 }

/-- Changes member `k` of a context. -/
def State.modMember (s : State) (x k : Nat) (f : Member → Member) : State :=
  s.modCtx x fun c => { c with members := c.members.mapIdx fun i m => if i = k then f m else m }

/-- Member `k` of a context. -/
def State.member (s : State) (x k : Nat) : Member := (s.getCtx x).members.getD k { ch := 0 }

/-! ## Storage-rate reduction (R286 to R289) -/

/-- The divisor's log2 (R286). -/
def State.cxDiv (s : State) (x : Nat) : Nat := s.fld (F.CTX.CTX_STS.DIV_LOG2 x)

/-- The word rate of a channel at a tap with the running configuration (R266). -/
def State.wordRate (s : State) (c : Nat) (fir : Bool) : Nat × Nat :=
  let r := convRate (s.actSegments (c / 16)) s.tickPeriod (c % 16)
  let n := s.fld (F.CH.AVG_CFG.N_M1 c) + 1
  let d := if fir then s.fld (F.CH.RED_CFG.D_M1 c) + 1 else 1
  (r.1, r.2 * n * d)

/-- The demand of a context in words per second (R266). -/
def State.cxDemand (s : State) (x : Nat) : Nat × Nat :=
  fracSum ((s.getCtx x).members.map fun m => s.wordRate m.ch (s.cxTap x))

/-- One step of storage-rate change to divisor 2^r, with its marker due ahead of the next position of each member; it sets
RATE_RED while the divisor exceeds 1, is counted and raises RATE_STEP (R289). -/
def State.rateStep (s : State) (x cause r : Nat) : State :=
  let s := (s.setFld (F.CTX.CTX_STS.DIV_LOG2 x) r).setBit (F.CTX.CTX_STS.RATE_RED x) (decide (0 < r))
  let s := s.modCtx x fun c => { c with members := c.members.map fun m => { m with rateDue := m.rateDue ++ [(cause, r)] } }
  (s.count F.TRIG.RATE_STEP_CNT.CNT).raiseInt Irq.rateStep

/-- Context `a` is reduced before context `b`: the lowest RR_PRIO, then the highest demand, then the highest number (R287). -/
def State.reduceFirst (s : State) (a b : Nat) : Bool :=
  let pa := s.fld (F.CTX.CTX_CFG.RR_PRIO a)
  let pb := s.fld (F.CTX.CTX_CFG.RR_PRIO b)
  let da := s.cxDemand a
  let db := s.cxDemand b
  if pa ≠ pb then decide (pa < pb)
  else if da.1 * db.2 ≠ db.1 * da.2 then decide (db.1 * da.2 < da.1 * db.2)
  else decide (b < a)

/-- One of a writer's contexts is reduced by one step (R287). -/
def State.rateReduce (s : State) (w : Nat) : State :=
  let cand := (List.range 64).map (fun i => 4 * i + w) |>.filter fun x => s.cxWrites x && decide (s.cxDiv x < 4)
  match cand with
  | [] => s
  | x :: rest =>
    let best := rest.foldl (fun a b => if s.reduceFirst b a then b else a) x
    let s := s.rateStep best 1 (s.cxDiv best + 1)
    let s := s.modCtx best fun c => { c with bufHigh := false }
    s.modTrig fun t => { t with wr := t.wr.mapIdx fun i e => if i = w then (e.1, 0) else e }

/-- The field of a writer in WR_LEVEL or WR_PEAK, in units of 64 words. -/
def wrLevelFld (w : Nat) : Fld := ⟨F.TRIG.WR_LEVEL.W0.addr, 8 * w, 7⟩
def wrPeakFld (w : Nat) : Fld := ⟨F.TRIG.WR_PEAK.W0.addr, 8 * w, 7⟩

/-- The level of a writer's buffer changes; WR_LEVEL shows it, and WR_PEAK keeps the highest. -/
def State.setWriter (s : State) (w level since : Nat) : State :=
  let s := s.modTrig fun t => { t with wr := t.wr.mapIdx fun i e => if i = w then (level, since) else e }
  let u := satNat 127 (level / 64)
  let s := s.setFld (wrLevelFld w) u
  s.when (decide (s.fld (wrPeakFld w) < u)) fun s => s.setFld (wrPeakFld w) u

/-- A writer's buffer that exceeds 3,072 words brings a reduction, unless fewer than 1,024 words have been written since the last one
(R287). -/
def State.writerCheck (s : State) (w : Nat) : State :=
  let (lv, since) := s.trig.wr.getD w (0, 0)
  if 3072 < lv ∧ 1024 ≤ since then s.rateReduce w else s

/-- A word enters the buffer of the context's writer WR_(x mod 4), which holds 4,096 words (R287). -/
def State.writerTake (s : State) (x : Nat) : State :=
  let w := x % 4
  let (lv, since) := s.trig.wr.getD w (0, 0)
  let lv := satNat 4096 (lv + 1)
  let s := s.setWriter w lv since
  let s := s.when (decide (2048 < lv)) fun s =>
    s.each ((List.range 64).map fun i => 4 * i + w) fun s y =>
      if s.cxWrites y then s.modCtx y fun c => { c with bufHigh := true } else s
  s.writerCheck w

/-! ## History (R263, R282) -/

/-- One item goes to the next slot of a member's ring (R263). -/
def State.storeSlot (s : State) (x k : Nat) (w : Word) (idx : Nat) (mark : Bool) : State :=
  let c := s.cxC x
  let m := s.member x k
  let s := s.setCapWord (s.cxAddr x k (m.wr % c)) w
  let s := s.modMember x k fun m =>
    let log := (⟨m.wr, idx, mark, true⟩ : SlotMeta) :: m.log
    -- the oldest surviving stored item bounds what the ring still holds
    let kept := log.filter fun e => decide (m.wr < e.slot + c)
    let gone := (log.filter fun e => !decide (m.wr < e.slot + c) && !e.mark).map SlotMeta.idx
    { m with wr := m.wr + 1, log := kept,
             lostIdx := match gone.foldl max 0, gone with
               | _, [] => m.lostIdx
               | g, _ => some (max g (m.lostIdx.getD 0)) }
  s.writerTake x

/-- The RATE_CHANGE markers due at a member are stored one after the other, with those that their own storing brings; `fuel` bounds how
many (R289). -/
def State.storeRates (s : State) (x k idx : Nat) : Nat → State
  | 0 => s
  | fuel + 1 =>
    match (s.member x k).rateDue with
    | [] => s
    | (cause, r) :: rest =>
      ((s.modMember x k fun m => { m with rateDue := rest, divLog2 := r }).storeSlot x k (mkRateCtx x cause r) idx
        true).storeRates x k idx fuel

/-- The markers due ahead of the next position of a member are stored (R282, R289). A divisor takes five values, so no more steps than 16
come together. -/
def State.storeDue (s : State) (x k idx : Nat) : State :=
  let m := s.member x k
  let due := m.markDue.filter fun e => decide (e.1 < idx)
  let s := s.modMember x k fun m => { m with markDue := m.markDue.filter fun e => !decide (e.1 < idx) }
  let s := s.each due fun s e => s.storeSlot x k e.2 idx true
  s.storeRates x k idx 16

/-! ## Measurements (R285) -/

/-- The word at a position from the trigger position on enters the measurements. -/
def measAdd (hyst : Nat) (off at_ : Nat) (w : Sample) (m : Meas) : Meas :=
  if w.fl.blk || w.fl.opn || w.fl.rtr then m
  else
    let v := w.val
    let first := decide (m.used = 0)
    let newMax := first || decide (m.max < v)
    let cross := m.low && decide ((hyst : Int) ≤ v)
    { m with
      used := m.used + 1
      max := if newMax then v else m.max
      tmax := if newMax then off else m.tmax
      min := if first || decide (v < m.min) then v else m.min
      sum := m.sum + v
      sq := m.sq + v.natAbs * v.natAbs
      fl := { m.fl with ovr := m.fl.ovr || w.fl.ovr, cals := m.fl.cals || w.fl.cals, sub := m.fl.sub || w.fl.sub }
      low := decide (v ≤ -(hyst : Int)) || (m.low && !cross)
      crossings := m.crossings + b2n cross
      firstX := if cross && decide (m.crossings = 0) then at_ else m.firstX
      lastX := if cross then at_ else m.lastX }

/-! ## Completion (R280, R281) -/

/-- The position entries of a member's history, newest first, with their position numbers. -/
def positions (m : Member) : List (Nat × SlotMeta) :=
  ((m.log.filter fun e => !e.mark).mapIdx fun i e => (m.pos - 1 - i, e))

/-- The record of a member in a ring of `c` slots (R277, R278): PRE_ACTUAL, whether positions were overwritten or missing, and the first
and last slot number of the record as a half-open interval. Positions that the divisor leaves out count toward L (R286), so PRE_ACTUAL is
at most C - 1 - L as well as what the ring still holds. -/
def memberCut (c pre postEff : Nat) (m : Member) : Nat × Bool × Bool × Nat × Nat :=
  let lim := m.trigPos.getD m.pos
  let stop := match m.trigPos with
    | some p => p + postEff
    | none => m.pos
  let ps := positions m
  let before := ps.filter fun e => decide (e.1 < lim)
  let kept := if m.trigPos.isSome then min before.length (c - 1 - m.accLate) else before.length
  let preActual := if kept < pre then kept else pre
  let first := match (if 0 < preActual then before[preActual - 1]? else (ps.filter fun e => decide (lim ≤ e.1)).getLast?) with
    | some e => e.2.slot
    | none => m.wr
  let last := match (ps.filter fun e => decide (stop ≤ e.1)).getLast? with
    | some e => e.2.slot
    | none => m.wr
  (preActual, decide (preActual < (if lim < pre then lim else pre)), decide (lim < pre), first, last)

/-- The tick index of the first position stored in the record of a member. -/
def memberFirstIdx (first last : Nat) (m : Member) : Nat :=
  match (m.log.filter fun e => !e.mark && e.stored && decide (first ≤ e.slot) && decide (e.slot < last)).getLast? with
  | some e => e.idx
  | none => 0

/-- A quotient rounded to the nearest integer; a tie is free (log entry 3). -/
def State.roundTie (s : State) (num den : Nat) : Nat × State :=
  if (2 * num + den) % (2 * den) = 0 then
    (match s.roundFree ((2 * num + den : Nat) - 1 : Int) (2 * den) with
     | (x, s) => (x.toNat, s))
  else ((2 * num + den) / (2 * den), s)

/-- MAX, MIN, PP, MEAN, RMS, PERIOD and TMAX of a member for MEAS_SET, and the flags of the first five (R285). -/
def State.measResults (s : State) (set : Nat) (m : Meas) : (List Int × Flags) × State :=
  if m.used = 0 then (([0, 0, 0, 0, 0, 0, 0], {}), s)
  else
    let pp := m.max - m.min
    let mean := roundHalfUp m.sum m.used
    let (rms, big) := rmsOf m.sq m.used
    let (per, s) := if m.crossings < 2 then (0, s) else s.roundTie (m.lastX - m.firstX) (64 * (m.crossings - 1))
    let sel (b : Nat) (v : Int) : Int := if set.testBit b then v else 0
    let ovr := m.fl.ovr || (set.testBit 0 && decide (2147483647 < pp)) || (set.testBit 1 && big)
    (([sel 0 m.max, sel 0 m.min, sel 0 (clampInt 0 2147483647 pp), sel 1 mean, sel 1 rms,
       sel 2 (satNat 0x7FFFFFFF per), sel 0 m.tmax], { m.fl with ovr := ovr, rtr := m.rng }), s)

/-- A member with its record cut and its measurements taken (R277 to R279, R285, R292). `trig` is the tick index of the trigger
tick, for a member without a trigger position. -/
def State.memberFill (s : State) (c pre pe set trig : Nat) (m : Member) : Member × State :=
  let (pa, late, short, first, last) := memberCut c pre pe m
  let ((res, fl), s) := s.measResults set m.meas
  ({ m with preActual := pa, late := late, shortPre := short, done := true, first := first, count := last - first, firstSlot := first % c,
            firstTick := memberFirstIdx first last m, trigTick := if m.trigPos.isSome then m.trigIdx else trig,
            postActual := (match m.trigPos with | some p => if pe < m.pos - p then pe else m.pos - p | none => 0),
            results := res, resFlags := fl }, s)

/-- All members of a record. -/
def State.membersFill (s : State) (c pre pe set trig : Nat) : List Member → List Member × State
  | [] => ([], s)
  | m :: l =>
    let (m, s) := s.memberFill c pre pe set trig m
    let (l, s) := s.membersFill c pre pe set trig l
    (m :: l, s)

/-- The tick index and TRIG_FRAC of the trigger tick of a context: of the tick itself once it has been issued, before that of the next grid
instant that can become it (R275, R276). -/
def State.trigTickOf (s : State) (x : Nat) : Nat × Nat :=
  let c := s.getCtx x
  let t := match c.acc with
    | some t => 8 * t.t
    | none => 0
  let n := match c.tstepTrig with
    | some a => countOf s.tickPeriod a + 1
    | none => max (s.countAt t) s.grid.cur
  match c.trigIdx with
  | some i => (i, c.frac)
  | none => (idxOf s.tickPeriod n, if c.tstepTrig.isSome then 0x1FFFFFFFF else (s.gridTu n - t) / 8)

/-- The tick index and TRIG_FRAC of the trigger tick are put into the REC registers (R275). -/
def State.recTick (s : State) (x : Nat) : State :=
  let (idx, fr) := s.trigTickOf x
  let s := (s.setFld (F.CTX.REC_TFRAC_LO.FRAC x) fr).setFld (F.CTX.REC_TFRAC_HI.FRAC32 x) (fr / 2 ^ 32)
  s.setFld64 (F.CTX.REC_TIDX_LO.IDX_LO x) (F.CTX.REC_TIDX_HI.IDX_HI x) idx

/-- The trigger, the cut of every member and the flags are put into the REC registers, and the record is held (R285, R292,
R295, R298). -/
def State.recFill (s : State) (x : Nat) : State :=
  let c := s.getCtx x
  let s := s.recTick x
  let (ms, s) := s.membersFill (s.cxC x) (s.cxPre x) (s.cxPostEff x) (s.fld (F.CTX.CTX_CFG.MEAS_SET x))
    (s.fld64 (F.CTX.REC_TIDX_LO.IDX_LO x) (F.CTX.REC_TIDX_HI.IDX_HI x)) c.members
  let any (f : Member → Bool) : Nat := b2n (ms.any f)
  let fl := any Member.shortPre + 2 * any Member.late + 4 * b2n (s.bit (F.CTX.CTX_STS.POST_CLAMP x)) + 8 * b2n c.tstep
    + 16 * b2n (s.bit (F.CTX.CTX_STS.RATE_RED x)) + 32 * b2n c.aborted + 64 * any Member.measLate
    + 128 * b2n (s.bit (F.CTX.CTX_STS.EXCL x))
  let t := c.acc.getD { t := 0, src := 0, srcId := 0 }
  let ns := t.t / 8
  let s := s.setCtx x { c with members := ms, held := ms }
  let s := ((s.setFld (F.CTX.REC_INFO.SRC_ID x) t.srcId).setFld (F.CTX.REC_INFO.SRC x) t.src).setFld
    (F.CTX.REC_INFO.SUB x) (t.t % 8)
  let s := s.setFld (F.CTX.REC_FLAGS.FLAGS x) fl
  let s := ((s.setFld (F.CTX.REC_T_SEC_HI.SEC_HI x) (ns / nsPerSec / 2 ^ 32)).setFld (F.CTX.REC_T_SEC_LO.SEC_LO x)
    (ns / nsPerSec)).setFld (F.CTX.REC_T_NS.NS x) (ns % nsPerSec)
  let s := s.setFld (F.CTX.REC_ORIGIN.HUB x) (t.ring.getD (s.fld F.HSR.HUB_ID.OWN_ID))
  s.setFld (F.CTX.REC_NUM.NUM x) (s.fld (F.CTX.REC_NO.NUM x))

/-- A context enters a state. -/
def State.cxEnter (s : State) (x st : Nat) : State := s.setFld (F.CTX.CTX_STS.STATE x) st

/-- The record is complete: DONE, in the order of completion (R267, R290). -/
def State.cxFinish (s : State) (x : Nat) : State :=
  let s := (s.recFill x).cxEnter x cxDone
  let s := s.modCtx x fun c => { c with released := false, hwmSeen := false, lastHigh := c.bufHigh }
  let s := s.when (s.bit (F.CTX.CTX_CFG.RO_MODE x) = false) fun s =>
    s.modTrig fun t => { t with order := t.order ++ [(s.time.cycles, x)] }
  (s.count (F.CTX.RECORD_CNT.CNT x)).raiseInt Irq.recordDone

/-- If every member of a context in POST is complete, the record is (R267). -/
def State.cxCheckDone (s : State) (x : Nat) : State :=
  if s.cxSt x = cxPost ∧ (s.getCtx x).members.all Member.done then s.cxFinish x else s

/-- A member is complete (R281). -/
def State.memberDone (s : State) (x k : Nat) : State :=
  (s.modMember x k fun m => { m with done := true }).cxCheckDone x

/-! ## Positions and markers at a tap -/

/-- A position of member `k` is written: due markers first, then the word at the stored positions; the trigger position, the
measurements and the completion of the member follow (R263, R275, R280, R285, R286). -/
def State.memberWord (s : State) (x k : Nat) (w : Sample) (idx n i : Nat) : State :=
  let s := s.storeDue x k idx
  let m := s.member x k
  let s := if i % 2 ^ m.divLog2 = 0 then s.storeSlot x k (packWord w) idx false
    else s.modMember x k fun m => { m with log := ⟨m.wr, idx, false, false⟩ :: m.log }
  let s := s.modMember x k fun m => { m with pos := m.pos + 1 }
  let c := s.getCtx x
  let hyst := s.fld (F.CTX.MEAS_HYST.HYST x)
  let measures := decide (s.fld (F.CTX.CTX_CFG.MEAS_SET x) ≠ 0)
  let at_ := s.tickTu idx n
  let s := match c.acc, c.trigIdx with
    | some _, some t =>
      s.modMember x k fun m =>
        let m := if m.trigPos.isNone && decide (t ≤ idx) then { m with trigPos := some (m.pos - 1), trigIdx := idx } else m
        match m.trigPos with
        | some p => if measures then { m with meas := measAdd hyst (m.pos - 1 - p) at_ w m.meas } else m
        | none => m
    | _, _ => s
  let s := s.when (decide (s.cxSt x = cxFill) && (s.getCtx x).members.all fun m => decide (s.cxPre x ≤ m.pos)) fun s =>
    s.cxEnter x cxArmed
  let m := s.member x k
  match m.trigPos with
  | some p => if s.cxSt x = cxPost ∧ s.cxPostEff x ≤ m.pos - p then s.memberDone x k else s
  | none => s

/-- A word reaches a tap of channel `c`: every context that writes history stores its position, the positions of FILL beginning
with the tick that began it (R267). -/
def State.captureWord (s : State) (c : Nat) (fir : Bool) (w : Sample) (idx n i : Nat) : State :=
  s.each (List.range 256) fun s x =>
    if s.cxWrites x && decide (s.cxTap x = fir) && decide ((s.getCtx x).fillIdx ≤ idx) then
      s.each (List.range (s.getCtx x).members.length) fun s k =>
        let m := s.member x k
        if m.ch = c ∧ m.done = false ∧ s.cxWrites x then s.memberWord x k w idx n i else s
    else s

/-- What a stored channel-stream marker says of the member's channel: OFF, or without sample ticks after a bank switch
(R281). The marker of a bank switch is stored before the other bank is in force. -/
def State.markEnds (s : State) (m : ChMarker) (y : Member) : Member :=
  match m with
  | .rangeChange _ mode _ _ _ _ => { y with off := decide (mode = 0) }
  | .rateChange ch cause _ => if cause = 1 then { y with noTicks := !s.hasTicksOther ch } else y
  | _ => y

/-- The channel of a member gives no more positions (R281). -/
def memberEnds (y : Member) : Bool := y.off || y.noTicks

/-- A RANGE_CHANGE with AUTO = 0 flags the measurements with RTR (R285). -/
def rangesMeas (m : ChMarker) : Bool :=
  match m with
  | .rangeChange _ _ _ auto _ _ => !auto
  | _ => false

/-- A channel-stream marker reaches a tap of channel `c`: every context that writes history stores it (R282). -/
def State.captureMark (s : State) (c : Nat) (fir : Bool) (m : ChMarker) (idx : Nat) : State :=
  s.each (List.range 256) fun s x =>
    if s.cxWrites x && decide (s.cxTap x = fir) then
      s.each (List.range (s.getCtx x).members.length) fun s k =>
        let y := s.member x k
        if y.ch = c ∧ y.done = false ∧ s.cxWrites x then
          let s := (s.storeSlot x k (chMarkerWord m) idx true).modMember x k (s.markEnds m)
          let s := s.when (rangesMeas m && y.trigPos.isSome) fun s =>
            s.modMember x k fun y => { y with meas := { y.meas with rng := true } }
          s.when (memberEnds (s.member x k) && decide (s.cxSt x = cxPost)) fun s => s.memberDone x k
        else s
    else s

/-- A marker falls due ahead of the next position of every member that is written, after the last tick issued (R282). -/
def State.ctxMarkDue (s : State) (w : Word) : State :=
  s.each (List.range 256) fun s x =>
    if s.cxWrites x then
      let last := match s.grid.last with
        | some t => t.idx
        | none => 0
      s.modCtx x fun c => { c with members := c.members.map fun m => { m with markDue := m.markDue ++ [(last, w)] } }
    else s

/-! ## Triggers on their way (R270, R274) -/

/-- A trigger is ignored and counted; it counts toward a count hold-off (R267, R284). -/
def State.cxIgnore (s : State) (x : Nat) : State :=
  (s.count (F.CTX.TRIG_IGNORED.CNT x)).modCtx x fun c => { c with ignored := c.ignored + 1 }

/-- A trigger reaches a context. In IDLE it is not evaluated, and in a state that takes none it is ignored and counted as it arrives
(R267, R269); in FILL and ARMED it waits for the next decision (R274). A standby keeps it for a takeover (R387). -/
def State.deliver (s : State) (x : Nat) (t : Trigger) : State :=
  let t := { t with arrival := s.nowNs, asleep := decide (s.fld F.NVM.PWR_STS.STATE = 3) }
  if s.follows then
    if t.src = 1 ∨ t.src = 3 ∨ t.src = 4 then s.modTrig fun g => { g with history := g.history ++ [(s.lastIdx, x, t)] } else s
  else if s.cxSt x = cxIdle ∨ s.leads = false then s
  else if t.asleep ∨ (s.cxSt x ≠ cxFill ∧ s.cxSt x ≠ cxArmed) then s.cxIgnore x
  else s.modCtx x fun c => { c with waiting := c.waiting ++ [t] }

/-- Source `src` of a context is enabled (R270). -/
def State.srcOn (s : State) (x src : Nat) : Bool := (s.fld (F.CTX.TRIG_SRC.EN x)).testBit src

/-- The level gates of a context see a value (R271): whether the source fires, and the gates after it. -/
def levelGates (rise fall : Bool) (level : Int) (hyst : Nat) (v : Int) (rr fr : Bool) : Bool × Bool × Bool :=
  let fireR := rise && rr && decide (level ≤ v)
  let fireF := fall && fr && decide (v ≤ level)
  let rr := (rr && !fireR) || (rise && decide (v ≤ level - hyst))
  let fr := (fr && !fireF) || (fall && decide (level + hyst ≤ v))
  (fireR || fireF, rr, fr)

/-- A word at a tap of channel `c` is evaluated by the level source of every context that watches it (R271). -/
def State.levelWord (s : State) (c : Nat) (fir : Bool) (w : Sample) (idx n : Nat) : State :=
  if w.fl.blk || w.fl.opn || w.fl.rtr then s
  else
    s.each (List.range 256) fun s x =>
      if s.cxSt x ≠ cxIdle ∧ s.srcOn x 2 ∧ s.cxTap x = fir ∧ s.fld (F.CTX.LVL_CFG.LVL_CH x) = c then
        let y := s.getCtx x
        let (fire, rr, fr) := levelGates (s.bit (F.CTX.LVL_CFG.RISE x)) (s.bit (F.CTX.LVL_CFG.FALL x))
          (s.sfld (F.CTX.LVL_VALUE.LEVEL x)) (s.fld (F.CTX.LVL_HYST.HYST x)) w.val y.riseReady y.fallReady
        let s := s.setCtx x { y with riseReady := rr, fallReady := fr }
        s.when fire fun s =>
          let (t, s) := s.roundFree (s.tickTu idx n : Nat) 8
          s.deliver x { t := t.toNat, src := 2, srcId := c }
      else s

end Sys2Proof.Machine
end

