-- ==== Sys2Proof/Machine/Commit.lean ====
section
/-!
DEFINITION. Staged values becoming running ones (R17, R449, R514): the registers of a page with RWS fields, the requests that
wait, and their end; and whether the coming grid instant is issued as a tick (R89 to R91).
-/

namespace Sys2Proof.Machine

/-- The byte offsets of the registers of a row. -/
def rowOffsets (r : RegRow) : List Nat := if r.stride = 0 then [r.off] else (List.range r.count).map fun i => r.off + i * r.stride

/-- The registers of a page with RWS fields: addresses and masks. -/
def rwsRegs (p : Nat) : List (Nat × Nat) :=
  match pageRows p with
  | none => []
  | some rows => rows.flatMap fun r => if r.rws = 0 then [] else (rowOffsets r).map fun o => (p * 0x1000 + o, r.rws)

/-- The staged values of one register become its running values. -/
def State.takeStaged (s : State) (e : Nat × Nat) : State :=
  let m := BitVec.ofNat 32 e.2
  s.setReg e.1 ((s.reg e.1 &&& ~~~ m) ||| (s.stg e.1 &&& m))

/-- The register at address `a` has a staged value that differs from its running one. -/
def State.stagedDiff (s : State) (e : Nat × Nat) : Bool :=
  decide ((s.reg e.1 ^^^ s.stg e.1) &&& BitVec.ofNat 32 e.2 ≠ 0)

/-- The commit request of a page. -/
def State.commitOf (s : State) (p : Nat) : Option Commit := s.commits.find? fun c => decide (c.page = p)

/-- A commit request of the page waits for its safe boundary alone. -/
def State.commitDue (s : State) (p : Nat) : Bool :=
  match s.commitOf p with
  | some c => c.at_.isNone
  | none => false

/-- The request of a page has taken effect: it ends, and a scheduled one raises COMMIT_APPLIED (R453). -/
def State.commitEnd (s : State) (p : Nat) : State :=
  let sched := match s.commitOf p with
    | some c => c.sched
    | none => false
  { s with commits := s.commits.filter fun c => decide (c.page ≠ p) }.when sched fun s => s.raiseInt Irq.commitApplied

/-- All staged values of a page become running, and its request ends. -/
def State.commitApply (s : State) (p : Nat) : State := (s.each (rwsRegs p) State.takeStaged).commitEnd p

/-! ## The coming tick (R89 to R91) -/

/-- A request of the TICK page takes effect at second boundary `b`: an immediate one, or one whose tick instant is not later. -/
def State.tickCommitDue (s : State) (b : Nat) : Bool :=
  match s.commitOf pgTICK with
  | some c =>
    (match c.at_ with
     | some i => decide (s.idxTu i ≤ b * nsPerSec * 64)
     | none => true)
  | none => false

/-- The coming grid instant reaches a second boundary at which a step or a commit of the TICK page is due: what is due there comes first
(R90, R91, R106). -/
def State.boundaryFirst (s : State) : Bool :=
  let b := s.nextSecond
  (s.stepAt b || s.tickCommitDue b) && decide (b * nsPerSec * 64 ≤ s.gridTu s.grid.cur)

/-- The coming grid instant is issued as a tick (R89). -/
def State.tickComing (s : State) : Bool :=
  (decide (s.gridSt = gridRun) || decide (s.gridSt = gridCatchup)) && s.gridFree s.grid.cur && !s.boundaryFirst

/-- The index of the coming grid instant (R86). -/
def State.curIdx (s : State) : Nat := idxOf s.tickPeriod s.grid.cur

/-- The index of the coming tick of the streams, where one comes: that of the coming grid instant, or on a standby or joining hub the first
tick after the one whose part of the mirrored stream has begun (R386). -/
def State.streamNext (s : State) : Option Nat :=
  let own := if s.tickComing then some s.curIdx else none
  match s.pair.streamIdx with
  | some i => if s.follows then (match s.firstTick 0 (some i) with
      | some (k, _) => some k
      | none => own) else own
  | none => own

end Sys2Proof.Machine
end

