-- ==== Sys2Proof/Machine/Chain.lean ====
section
/-!
DEFINITION. The chain behind the averager (R226 to R253): the FIR, STREAM, STATS and RAIN, and the fan-out of words and
channel-stream markers at the two taps.
-/

namespace Sys2Proof.Machine

/-! ## What the reducers offer -/

/-- Changes how far a channel of a joining hub has converged (R398). -/
def State.modJoin (s : State) (c : Nat) (f : JoinCh → JoinCh) : State :=
  s.when (decide (s.role = roleJoining)) fun s => s.modChan c fun x => { x with join := f x.join }

/-- The tap that the reducers of a channel take has converged. -/
def State.tapConv (s : State) (c : Nat) : Bool :=
  if s.bit (F.CH.RED_CFG.RTAP c) then (s.getChan c).join.fir else (s.getChan c).join.avg

/-- Every part of a channel that is in use has converged (R398). -/
def State.chanConv (s : State) (c : Nat) : Bool :=
  let j := (s.getChan c).join
  j.avg && (j.fir || !s.bit (F.CH.RED_CFG.FIR_EN c)) && (j.stats || !s.bit (F.CH.RED_CFG.STATS_EN c))
    && (j.rain || !s.bit (F.CH.RED_CFG.RAIN_EN c))

/-- A fact of the partner that no record tells (R398): it is drawn freely (log entry 3). -/
def State.drawTruth (s : State) : Bool × State := (Config.freeRound s.free, { s with free := s.free + 1 })

/-- A joining hub writes nothing for a channel that has not converged (R398). -/
def State.chanWrites (s : State) (c : Nat) : Bool := decide (s.role ≠ roleJoining) || s.chanConv c

/-- A reducer of channel `c` offers a packet to queue QSEL. -/
def State.reducerOffer (s : State) (c typ : Nat) (words : List Word) : State :=
  if s.chanWrites c then s.offer (s.fld (F.CH.RED_CFG.QSEL c)) typ words else s

/-- RTAP: the reducers take the FIR output (R226). -/
def State.rtap (s : State) (c : Nat) : Bool := s.bit (F.CH.RED_CFG.RTAP c)

/-- Descriptor 0 of a packet: the channel, the tap and the bits below. -/
def desc0 (c : Nat) (fir : Bool) (low : Nat) : Word := dataWord (c * 2 ^ 23 + b2n fir * 2 ^ 22 + low)

/-! ## STREAM (R239 to R241) -/

/-- MAX_AGE in ns; 0 acts as 1 ms (R255). -/
def State.maxAgeNs (s : State) : Nat :=
  let x := s.fld F.RED.STREAM_CTL.MAX_AGE
  (if x = 0 then 1 else x) * 1000000

/-- The open packet of a channel closes as it stands. STRIDE is 0 where the packet holds one word or none (R240). -/
def State.streamClose (s : State) (c : Nat) : State :=
  match (s.getChan c).pkt with
  | none => s
  | some p =>
    let s := s.modChan c fun x => { x with pkt := none }
    let s := (s.count (F.CH.STREAM_PKT_CNT.CNT c)).count F.RED.STREAM_PKTS.CNT
    s.reducerOffer c typSamples (desc0 c (s.rtap c) p.stride :: dataWord p.firstIdx :: p.words.reverse)

/-- The tick index of the channel's last word at the reducers' tap. -/
def State.lastTap (s : State) (c : Nat) : Nat := if s.rtap c then (s.getChan c).lastTap1 else (s.getChan c).lastTap0

/-- A packet whose age has reached MAX_AGE closes (R241). -/
def State.streamAge (s : State) (c : Nat) : State :=
  match (s.getChan c).pkt with
  | some p => if p.openedAt + s.maxAgeNs ≤ s.nowNs then s.streamClose c else s
  | none => s

/-- A word reaches STREAM. A distance from the previous word that is 0, differs from the STRIDE set, or exceeds 4,194,303 closes
the packet before it; the packet closes when it is full (R241). -/
def State.streamWord (s : State) (c : Nat) (w : Sample) (idx n : Nat) : State :=
  let s := s.streamAge c
  let s := match (s.getChan c).pkt with
    | some p =>
      let d := n - p.lastN
      if n ≤ p.lastN ∨ (p.stride ≠ 0 ∧ d ≠ p.stride) ∨ 4194303 < d then s.streamClose c else s
    | none => s
  let p : OpenPkt := match (s.getChan c).pkt with
    | some p => { p with words := packWord w :: p.words, stride := n - p.lastN, lastN := n }
    | none => { words := [packWord w], firstIdx := idx, lastN := n, openedAt := s.nowNs }
  let s := s.modChan c fun x => { x with pkt := some p }
  if s.fld (F.CH.STREAM_CFG.PKT_LEN c) ≤ p.words.length + 2 then s.streamClose c else s

/-- A channel-stream marker closes the packet as its last word; without an open packet it forms one of its own (R241). -/
def State.streamMark (s : State) (c : Nat) (m : ChMarker) : State :=
  let s := s.streamAge c
  let p : OpenPkt := match (s.getChan c).pkt with
    | some p => { p with words := chMarkerWord m :: p.words }
    | none => { words := [chMarkerWord m], firstIdx := s.lastTap c }
  (s.modChan c fun x => { x with pkt := some p }).streamClose c

/-! ## STATS (R242 to R245) -/

/-- The window is aligned to the position index (R242). -/
def State.statsAligned (s : State) (c : Nat) : Bool := s.bit (F.CH.STATS_CFG.S_ALIGN c) && s.bit (F.CH.AVG_CFG.AVG_ALIGN c)

/-- The open window closes; without a position it writes nothing (R243 to R245). -/
def State.statsClose (s : State) (c : Nat) (short : Bool) : State :=
  let x := (s.getChan c).stats
  let s := s.modChan c fun y => { y with stats := { next := if short then x.next else x.k + 1 } }
  if x.pos = 0 then s.modChan c fun y => { y with stats := { next := x.next } }
  else
    let s := s.when short fun s => s.count (F.CH.STATS_SHORT_CNT.CNT c)
    let s := s.count F.RED.STATS_PKTS.CNT
    let (rms, big) := if x.used = 0 then (0, false) else rmsOf x.sq x.used
    let mean : Int := if x.used = 0 then 0 else roundHalfUp x.sum x.used
    let fl : Flags := { ovr := x.fl.ovr, rtr := x.fl.rtr, cals := x.fl.cals, sub := x.fl.sub }
    s.reducerOffer c typStats
      [desc0 c (s.rtap c) (b2n short * 2 ^ 21), dataWord x.lastIdx, dataWord x.pos, dataWord x.used, dataWord x.ovrCnt,
       packWord ⟨if x.used = 0 then 0 else x.min, fl⟩, packWord ⟨if x.used = 0 then 0 else x.max, fl⟩, packWord ⟨mean, fl⟩,
       packWord ⟨rms, { fl with ovr := fl.ovr || big }⟩]

/-- A used word enters the window (R243). -/
def statsAdd (w : Sample) (x : StatsWin) : StatsWin :=
  if w.fl.blk || w.fl.opn || w.fl.rtr then x
  else
    { x with
      used := x.used + 1
      ovrCnt := x.ovrCnt + b2n w.fl.ovr
      min := if x.used = 0 ∨ w.val < x.min then w.val else x.min
      max := if x.used = 0 ∨ x.max < w.val then w.val else x.max
      sum := x.sum + w.val
      sq := x.sq + w.val.natAbs * w.val.natAbs
      fl := orFlags x.fl w.fl }

/-- A position reaches STATS (R242). -/
def State.statsWord (s : State) (c : Nat) (w : Sample) (idx i : Nat) : State :=
  let wlen := s.fld (F.CH.STATS_CFG.W_M1 c) + 1
  let al := s.statsAligned c
  let x := (s.getChan c).stats
  let s := if al && decide (0 < x.pos) && decide (x.k < i / wlen) then s.statsClose c false else s
  let x := (s.getChan c).stats
  let s := s.when (decide (x.pos = 0) && s.tapConv c) fun s => s.modJoin c fun j => { j with stats := true }
  let k := if x.pos = 0 then (if al then (if i / wlen < x.next then x.next else i / wlen) else 0) else x.k
  let x := statsAdd w { x with k := k, pos := x.pos + 1, lastIdx := idx }
  let s := s.modChan c fun y => { y with stats := x }
  let full := if al then decide (k * wlen + wlen - 1 ≤ i) else decide (wlen ≤ x.pos)
  if full then s.statsClose c false else s

/-- The markers that restart the FIR and close a STATS window (R235, R244). -/
def restarts (m : ChMarker) : Bool :=
  match m with
  | .rangeChange _ _ _ auto qrst _ => !auto && !qrst
  | .rateChange _ cause _ => decide (cause ≠ 2)
  | _ => false

/-- A marker reaches STATS (R244). After a RATE_CHANGE positions are numbered under other settings, so no interval counts as closed. -/
def State.statsMark (s : State) (c : Nat) (m : ChMarker) : State :=
  if restarts m then
    (s.statsClose c true).when (match m with
      | .rateChange _ _ _ => true
      | _ => false) fun s => s.modChan c fun x => { x with stats := {} }
  else s

/-! ## RAIN (R246 to R252) -/

/-- The bin of a range (R248). -/
def rainBin (log : Bool) (shift r : Nat) : Nat :=
  if log then (if r < 2 ^ shift then 0 else satNat 31 (ilog2 r - shift)) else satNat 31 (r / 2 ^ shift)

/-- Counts `k` half-cycles of range `r` (R248). -/
def State.rainCount (s : State) (c r k : Nat) : State :=
  let b := rainBin (s.bit (F.RAIN.RAIN_CFG.BIN_MODE c)) (s.fld (F.RAIN.RAIN_CFG.BIN_SHIFT c)) r
  (s.count (F.RAIN.BIN.CNT c b) k).count (F.RAIN.HALF_CNT.CNT c) k

/-- Changes RAIN of a channel. -/
def State.modRain (s : State) (c : Nat) (f : Rain → Rain) : State := s.modChan c fun x => { x with rain := f x.rain }

/-- The range between two reversals. -/
def rangeOf (a b : Int) : Nat := (a - b).natAbs

/-- Pushes a reversal; a full stack makes room first (R249). -/
def State.rainPush (s : State) (c : Nat) (v : Int) : State :=
  let st := (s.getChan c).rain.stack
  let s := if st.length < 64 then s
    else
      let s := match st.reverse with
        | a :: b :: _ => s.rainCount c (rangeOf b a) 1
        | _ => s
      let s := s.modRain c fun r => { r with stack := r.stack.dropLast, ovfSince := r.ovfSince + 1 }
      let s := s.count (F.RAIN.RES_OVF_CNT.CNT c)
      let g := c / 16
      let s := s.setFld (F.RAIN.OVF_STS.CH g) (s.fld (F.RAIN.OVF_STS.CH g) ||| 2 ^ (c % 16))
      (s.raiseFault (Flt.resOvf g)).raiseInt (Irq.resOvf g)
  let s := s.when (s.tapConv c) fun s => s.modJoin c fun j => { j with turns := j.turns + 1 }
  s.modRain c fun r => { r with stack := v :: r.stack }

/-- The four-point count on the newest reversals; `fuel` bounds the depth (R247). -/
def State.rainCycles (s : State) (c : Nat) : Nat → State
  | 0 => s
  | n + 1 =>
    match (s.getChan c).rain.stack with
    | s4 :: s3 :: s2 :: s1 :: rest =>
      let r2 := rangeOf s3 s2
      if r2 ≤ rangeOf s2 s1 ∧ r2 ≤ rangeOf s4 s3 then
        ((s.rainCount c r2 2).modRain c fun r => { r with stack := s4 :: s1 :: rest }).rainCycles c n
      else s
    | _ => s

/-- A reversal is accepted: the candidate is pushed and counted, and the gate turns (R246). -/
def State.rainTurn (s : State) (c : Nat) (v : Int) (dir : Nat) : State :=
  ((s.rainPush c (s.getChan c).rain.cand).rainCycles c 64).modRain c fun r => { r with cand := v, dir := dir }

/-- A value reaches RAIN (R246). DIR is 1 rising, 2 falling, 0 none. -/
def State.rainWord (s : State) (c : Nat) (w : Sample) (idx : Nat) : State :=
  if w.fl.blk || w.fl.opn || w.fl.rtr || s.stalledAt (pgRAIN (c / 16)) then s
  else
    let s := s.modRain c fun r => { r with ovrSeen := r.ovrSeen || w.fl.ovr, lastIdx := idx }
    let r := (s.getChan c).rain
    let h : Int := s.fld (F.RAIN.HYST.HYST c)
    let v := w.val
    if r.fresh then (s.rainPush c v).modRain c fun r => { r with cand := v, dir := 0, fresh := false }
    else if r.dir = 0 then
      let top := r.stack.headD 0
      if top + h < v then s.modRain c fun r => { r with cand := v, dir := 1 }
      else if v < top - h then s.modRain c fun r => { r with cand := v, dir := 2 }
      else s
    else if r.dir = 1 then
      if r.cand < v then s.modRain c fun r => { r with cand := v }
      else if v < r.cand - h then s.rainTurn c v 2
      else s
    else
      if v < r.cand then s.modRain c fun r => { r with cand := v }
      else if r.cand + h < v then s.rainTurn c v 1
      else s

/-- RAIN of the channel can dump: its reducer is enabled and its MODE is not OFF (R252). -/
def State.rainCan (s : State) (c : Nat) : Bool := s.bit (F.CH.RED_CFG.RAIN_EN c) && s.chEnabled c

/-- A channel takes the waiting values of a RAIN page commit; the request ends with the last channel (R252). -/
def State.rainTake (s : State) (c : Nat) : State :=
  let p := pgRAIN (c / 16)
  match s.commitOf p with
  | none => s
  | some q =>
    if q.at_.isSome || !(q.chans.contains (c % 16)) then s
    else
      let old := s.fld (F.RAIN.DUMP_PERIOD.PERIOD c)
      let base := (F.RAIN.RAIN_CFG.BIN_SHIFT c).addr
      let s := s.each ((rwsRegs p).filter fun e => decide (base ≤ e.1) && decide (e.1 < base + 0x20)) State.takeStaged
      let s := s.when (decide (s.fld (F.RAIN.DUMP_PERIOD.PERIOD c) ≠ old)) fun s => s.modRain c fun r => { r with lastS := none }
      let left := q.chans.filter fun l => decide (l ≠ c % 16)
      if left.isEmpty then s.commitEnd p
      else { s with commits := s.commits.map fun e => if e.page = p then { e with chans := left } else e }

/-- Half-cycles of the residue: each adjacent pair (R250). -/
def State.rainResidue (s : State) (c : Nat) : List Int → State
  | a :: b :: rest => (s.rainCount c (rangeOf a b) 1).rainResidue c (b :: rest)
  | _ => s

/-- A dump on a joining hub: RAIN converges at a units change, or once it can be seen to agree with the active's (R398). Whether the
residue, the candidate and the direction agree with the active's is drawn freely (log entry 3). -/
def State.rainJoin (s : State) (c : Nat) (units counted clear : Bool) : State :=
  if s.role ≠ roleJoining ∨ s.tapConv c = false then s
  else if units then s.modJoin c fun j => { j with rain := true }
  else if counted && clear && decide (2 ≤ (s.getChan c).join.turns) then
    let (same, s) := s.drawTruth
    s.modJoin c fun j => { j with rain := j.rain || same }
  else s

/-- A dump at tick `idx` with its cause (R250 to R252): the residue, the packet, the bins, and then the waiting values. -/
def State.rainDump (s : State) (c cause idx : Nat) : State :=
  let r := (s.getChan c).rain
  let units := decide (cause = 2)
  let counted := units || s.bit (F.RAIN.RAIN_CFG.RES_COUNT c)
  let clear := s.bit (F.RAIN.RAIN_CFG.CLEAR_ON_DUMP c)
  let s := if counted then s.rainResidue c r.stack.reverse else s
  let s := s.rainJoin c units counted clear
  let d := desc0 c (s.rtap c) (cause * 2 ^ 20 + b2n counted * 2 ^ 19 + b2n clear * 2 ^ 18 + b2n r.ovrSeen * 2 ^ 17
    + b2n (decide (0 < r.ovfSince)) * 2 ^ 16)
  let bins := (List.range 32).map fun b => dataWord (s.fld (F.RAIN.BIN.CNT c b))
  let s := (s.count F.RED.RAIN_PKTS.CNT).reducerOffer c typRain
    ([d, dataWord r.lastIdx] ++ bins ++ [dataWord (satNat 255 r.ovfSince * 2 ^ 8 + r.stack.length)])
  let s := if clear then s.each (List.range 32) fun s b => s.setFld (F.RAIN.BIN.CNT c b) 0 else s
  let s := s.modRain c fun r =>
    { r with stack := if units then [] else if counted then r.stack.take 1 else r.stack,
             fresh := r.fresh || units, unitsIdx := if units then some s.lastIdx else r.unitsIdx,
             ovrSeen := false, ovfSince := 0, req := false }
  let s := s.setFld (F.RAIN.LAST_DUMP.IDX c) idx
  (s.raiseInt (Irq.dumped (c / 16))).rainTake c

/-- The tick that the streams of the hub stand at: on a standby or joining hub, that of the mirrored stream (R386). -/
def State.streamNow (s : State) : Nat := if s.follows then s.pair.streamIdx.getD s.lastIdx else s.lastIdx

/-- A marker reaches RAIN: a units change dumps (R250). -/
def State.rainMark (s : State) (c : Nat) (m : ChMarker) : State :=
  match m with
  | .rangeChange _ _ _ auto qrst _ => if auto || qrst then s else s.rainDump c 2 s.streamNow
  | _ => s

/-- A periodic dump is due at a tick with seconds part `sec` (R250). -/
def State.rainPeriodDue (s : State) (c sec : Nat) : Bool :=
  let p := s.fld (F.RAIN.DUMP_PERIOD.PERIOD c)
  s.rainCan c && decide (p ≠ 0) && decide (sec % p = 0)
    && (match (s.getChan c).rain.lastS with
        | some l => decide (l < sec)
        | none => true)

/-- Every cause due at a tick with seconds part `sec` counts as served (R250). -/
def State.rainServed (s : State) (c sec : Nat) : State :=
  let due := s.rainPeriodDue c sec
  s.modRain c fun r => { r with lastS := if due then some sec else r.lastS, req := false }

/-- The dumps of a channel at tick `idx`: a units change at this tick has served them, and a periodic dump serves a request (R250). -/
def State.rainTick (s : State) (idx c : Nat) : State :=
  let sec := idx / 131072
  if s.stalledAt (pgRAIN (c / 16)) then s
  else if (s.getChan c).rain.unitsIdx = some idx then s.rainServed c sec
  else if s.rainPeriodDue c sec then (s.rainServed c sec).rainDump c 0 idx
  else if (s.getChan c).rain.req && s.rainCan c then s.rainDump c 1 idx
  else if (s.getChan c).rain.req then s.modRain c fun r => { r with req := false }
  else s

/-! ## The taps (R226 to R229) -/

/-- A word at a tap: STREAM, STATS and RAIN where they take this tap, then the contexts. -/
def State.tapWord (s : State) (c : Nat) (fir : Bool) (w : Sample) (idx n i : Nat) : State :=
  let s := if s.rtap c = fir then
      let s := s.when (s.bit (F.CH.RED_CFG.STREAM_EN c)) fun s => s.streamWord c w idx n
      let s := s.when (s.bit (F.CH.RED_CFG.STATS_EN c)) fun s => s.statsWord c w idx i
      s.when (s.bit (F.CH.RED_CFG.RAIN_EN c)) fun s => s.rainWord c w idx
    else s
  let s := s.modChan c fun x => if fir then { x with lastTap1 := idx } else { x with lastTap0 := idx }
  (s.captureWord c fir w idx n i).levelWord c fir w idx n

/-- A channel-stream marker at a tap. -/
def State.tapMark (s : State) (c : Nat) (fir : Bool) (m : ChMarker) : State :=
  let s := if s.rtap c = fir then
      let s := s.when (s.bit (F.CH.RED_CFG.STREAM_EN c)) fun s => s.streamMark c m
      let s := s.when (s.bit (F.CH.RED_CFG.STATS_EN c)) fun s => s.statsMark c m
      s.when (s.bit (F.CH.RED_CFG.RAIN_EN c)) fun s => s.rainMark c m
    else s
  let idx := if fir then (s.getChan c).lastTap1 else (s.getChan c).lastTap0
  s.captureMark c fir m idx

/-! ## The FIR (R230 to R236) -/

/-- The coefficient fields of a bank. -/
def coefFld (fs : Nat) (bank : Bool) (t : Nat) : Fld := if bank then F.FIRSET.COEF1.COEF fs t else F.FIRSET.COEF0.COEF fs t
def tapsFld (fs : Nat) (bank : Bool) : Fld := if bank then F.FIRSET.TAPS.TAPS1 fs else F.FIRSET.TAPS.TAPS0 fs

/-- The bank for an output whose newest input has tick index `idx` (R231). -/
def State.firBank (s : State) (fs idx : Nat) : Bool :=
  let act := s.bit (F.FIRSET.FIRSET_CTL.ACT_BANK fs)
  if idx < sget 0 s.firAt fs then !act else act

/-- The exact sum of coefficients times inputs (R232). -/
def State.firSum (s : State) (fs : Nat) (bank : Bool) : Nat → List Sample → Int
  | _, [] => 0
  | t, x :: xs => s.sfld (coefFld fs bank t) * x.val + s.firSum fs bank (t + 1) xs

/-- One output over the delay line: its value, rounded half up and clamped, with the flags of its support (R232, R233). -/
def State.firOut (s : State) (c : Nat) : State :=
  let f := (s.getChan c).fir
  let fs := s.fld (F.CH.RED_CFG.FIRSET c)
  let bank := s.firBank fs f.lastIdx
  let line := f.line.take (s.fld (tapsFld fs bank))
  let y := (s.firSum fs bank 0 line + 2 ^ 22) / 2 ^ 23
  let sat := decide (y < min32) || decide (max32 < y)
  let fl := line.foldl (fun a x => orFlags a x.fl) {}
  let s := s.when sat fun s => s.count (F.CH.FIR_SAT_CNT.CNT c)
  let s := s.modChan c fun x => { x with fir := { x.fir with phase := 0, started := true } }
  let d := s.fld (F.CH.RED_CFG.D_M1 c) + 1
  s.tapWord c true ⟨clampInt min32 max32 y, { fl with ovr := fl.ovr || sat }⟩ f.lastIdx f.lastN (f.lastM / d)

/-- A word enters the FIR of a channel whose averager has converged: TAPS inputs on, the FIR has converged if the active's output
phase has not moved since its last restart, which is drawn freely (R398; log entry 3). -/
def State.firJoin (s : State) (c : Nat) : State :=
  let j := (s.getChan c).join
  if s.role ≠ roleJoining ∨ j.avg = false then s
  else
    let fs := s.fld (F.CH.RED_CFG.FIRSET c)
    let n := j.firIn + 1
    let s := s.modJoin c fun j => { j with firIn := n }
    if n = s.fld (tapsFld fs (s.bit (F.FIRSET.FIRSET_CTL.ACT_BANK fs))) then
      let (same, s) := s.drawTruth
      s.modJoin c fun j => { j with fir := j.fir || same }
    else s

/-- A word enters the FIR (R234, R235). -/
def State.firWord (s : State) (c : Nat) (w : Sample) (idx n m : Nat) : State :=
  let d := s.fld (F.CH.RED_CFG.D_M1 c) + 1
  let f := (s.getChan c).fir
  let line := if f.fill = 0 then List.replicate 128 w else (w :: f.line).take 128
  let f : Fir := { f with line := line, fill := satNat 128 (f.fill + 1), phase := f.phase + 1,
                          lastIdx := idx, lastN := n, lastM := m }
  let s := (s.modChan c fun x => { x with fir := f }).firJoin c
  let out := if f.started || !s.bit (F.CH.AVG_CFG.AVG_ALIGN c) then decide (d ≤ f.phase) else decide ((m + 1) % d = 0)
  if out then s.firOut c else s

/-- The FIR restarts: a closing output if inputs have come since the last one, the marker, and a cleared state (R235). -/
def State.firRestart (s : State) (c : Nat) (m : ChMarker) : State :=
  let s := if 0 < (s.getChan c).fir.phase then s.firOut c else s
  let s := s.tapMark c true m
  let s := (s.modChan c fun x => { x with fir := {} }).modJoin c fun j => { j with fir := j.fir || j.avg }
  s.count (F.CH.FIR_RESTART_CNT.CNT c)

/-- A channel-stream marker reaches the FIR (R228, R235). -/
def State.firMark (s : State) (c : Nat) (m : ChMarker) : State := if restarts m then s.firRestart c m else s.tapMark c true m

/-! ## The averager output -/

/-- A word leaves the averager. -/
def State.chainWord (s : State) (c : Nat) (w : Sample) (idx n m : Nat) : State :=
  if s.stalledAt pgRED then s else
  let s := s.tapWord c false w idx n m
  if s.bit (F.CH.RED_CFG.FIR_EN c) then s.firWord c w idx n m else s

/-- A channel-stream marker leaves the averager. -/
def State.chainMark (s : State) (c : Nat) (m : ChMarker) : State :=
  if s.stalledAt pgRED then s else
  let s := s.tapMark c false m
  if s.bit (F.CH.RED_CFG.FIR_EN c) then s.firMark c m else s

end Sys2Proof.Machine
end

