-- ==== Sys2Proof/Machine/Averager.lean ====
section
/-!
DEFINITION. The averager (R161 to R167), the latest-result registers (R172, R173), and range changes at the averager output
(R125 to R128).
-/

namespace Sys2Proof.Machine

/-! ## Windows (R161 to R166) -/

/-- N of the averager. -/
def State.avgN (s : State) (c : Nat) : Nat := s.fld (F.CH.AVG_CFG.N_M1 c) + 1

/-- AVG_ALIGN. -/
def State.avgAlign (s : State) (c : Nat) : Bool := s.bit (F.CH.AVG_CFG.AVG_ALIGN c)

/-- The window closes: its word goes to the latest-result registers and down the chain (R163, R164, R172). Without a conversion
nothing is emitted. -/
def State.avgEmit (s : State) (c : Nat) (rtr : Bool) : State :=
  let w := (s.getChan c).win
  if w.cnt = 0 then s
  else
    let (y, sat) := averagerValue w.sum (s.bit (F.CH.AVG_CFG.RND c)) (s.fld (F.CH.AVG_CFG.SHIFT c))
    let x : Sample := ⟨y, { w.fl with ovr := w.fl.ovr || sat, rtr := w.fl.rtr || rtr }⟩
    let s := s.when sat fun s => s.count (F.CH.SAT_CNT.CNT c)
    let s := (s.count (F.CH.WIN_CNT.CNT c)).modJoin c fun j => { j with avg := true }
    let s := s.modChan c fun h => { h with win := {}, res := some (x, w.lastIdx), freshQ := true, freshM := true }
    s.chainWord c x w.lastIdx w.lastN (w.lastOrd / s.avgN c)

/-- A window closes under R162; short of N conversions a RATE_CHANGE with CAUSE 2 follows it (R166). -/
def State.avgClose (s : State) (c : Nat) : State :=
  let k := (s.getChan c).win.cnt
  let s := s.avgEmit c false
  if s.avgAlign c ∧ k < s.avgN c then (s.count (F.CH.SHORT_CNT.CNT c)).chainMark c (.rateChange c 2 k) else s

/-- A conversion of ordinal `j` at tick `idx` with grid count `n` enters the averager (R161, R162, R164). -/
def State.avgEnter (s : State) (c : Nat) (x : Sample) (idx n j : Nat) : State :=
  let len := s.avgN c
  let w := (s.getChan c).win
  let s := if 0 < w.cnt ∧ s.avgAlign c ∧ w.m < j / len then s.avgClose c else s
  let w := (s.getChan c).win
  let w : Window :=
    { cnt := w.cnt + 1, sum := w.sum + x.val, fl := orFlags w.fl x.fl, m := if w.cnt = 0 then j / len else w.m,
      lastIdx := idx, lastN := n, lastOrd := j }
  let s := s.modChan c fun h => { h with win := w }
  if (s.avgAlign c ∧ w.m * len + len ≤ j + 1) ∨ (s.avgAlign c = false ∧ len ≤ w.cnt) then s.avgClose c else s

/-- A marker with its short count. -/
def withShort (k : Nat) : ChMarker → ChMarker
  | .rangeChange c m r a q _ => .rangeChange c m r a q k
  | .rateChange c cause _ => .rateChange c cause k
  | m => m

/-- A window closes early, followed by its markers, the first of which carries the short count (R126, R165). A range change adds
RTR to the word. The empty window of an enabled channel closes too, and counts (R165, R181). -/
def State.avgEarly (s : State) (c : Nat) (range : Bool) (marks : List ChMarker) : State :=
  let k := (s.getChan c).win.cnt
  let s := (s.when (decide (0 < k) || s.chEnabled c) fun s => s.count (F.CH.SHORT_CNT.CNT c)).avgEmit c range
  match marks with
  | [] => s
  | m :: rest => (s.chainMark c (withShort k m)).each rest fun s m => s.chainMark c m

/-! ## Latest results (R172, R173) -/

/-- The word of a channel has not been latched on a path. -/
def freshOn (x : Chan) : Path → Bool
  | .qspi => x.freshQ
  | .inband => x.freshM

/-- RES_HI of the latest word: its flags, the low tick bits and FRESH. -/
def resHiOf (x : Chan) (p : Path) : Nat :=
  match x.res with
  | none => 0
  | some (w, idx) => b2n (freshOn x p) * 2 ^ 16 + (idx % 2 ^ 8) * 2 ^ 8 + wordHi (packWord w)

/-- RES_LO is read: the word's low bits, with the rest latched. -/
def State.readResLo (s : State) (p : Path) (c : Nat) : Reg × State :=
  let x := s.getChan c
  let v := match x.res with
    | none => 0
    | some (w, _) => wordLo (packWord w)
  let s := s.modLatches p fun l => { l with res := sset none l.res c (some (BitVec.ofNat 32 (resHiOf x p))) }
  (v, s.modChan c fun x => match p with
    | .qspi => { x with freshQ := false }
    | .inband => { x with freshM := false })

/-- RES_HI is read: the latched data, or live data with UNPAIRED. Before the first word R172 says both that an unpaired read sets UNPAIRED
and that the register reads 0: that it then reads 0 with UNPAIRED clear is the model's choice (DESIGN CHOICE, log entry 10). -/
def State.readResHi (s : State) (p : Path) (c : Nat) : Reg × State :=
  match sget none (s.latches p).res c with
  | some v => (v, s.modLatches p fun l => { l with res := sset none l.res c none })
  | none =>
    let x := s.getChan c
    (BitVec.ofNat 32 (if x.res.isNone then 0 else 2 ^ 31 + resHiOf x p), s)

/-- RES_LO_READ (R172). -/
def execResLoRead (p : Path) (c : Fin 512) (s : State) : Host.Outcome State Fault Refusal :=
  act (fun s => State.answer (s.readResLo p c)) s

/-- RES_HI_READ (R172). -/
def execResHiRead (p : Path) (c : Fin 512) (s : State) : Host.Outcome State Fault Refusal :=
  act (fun s => State.answer (s.readResHi p c)) s

/-! ## Ranges (R111, R118, R125 to R129) -/

abbrev modeOff : Nat := 0
abbrev modeVdiff : Nat := 1
abbrev modeVbridge : Nat := 2
abbrev modeItia : Nat := 3
abbrev modeQchg : Nat := 4

/-- A front-end setting: MODE, GAIN, FB and AR_EN of an FE_CFG value, and whether the less sensitive range is in use. -/
structure FeSet where
  mode : Nat
  gain : Nat
  fb : Nat
  ar : Bool
  low : Bool
deriving DecidableEq, Repr

/-- The setting that an FE_CFG value gives. -/
def feSet (v : Reg) (low : Bool) : FeSet := ⟨getBits v 0 3, getBits v 4 3, getBits v 8 2, v.getLsbD 12, low⟩

/-- The range in use: GAIN in VDIFF and VBRIDGE, the feedback in ITIA and QCHG, 0 in OFF (R127, R129). -/
def feRange (x : FeSet) : Nat :=
  if x.mode = modeVdiff ∨ x.mode = modeVbridge then x.gain
  else if x.mode = modeItia then (if x.low then x.fb - 1 else x.fb)
  else if x.mode = modeQchg then (if x.low then 1 else x.fb)
  else 0

/-- The running setting of a channel. -/
def State.feNow (s : State) (c : Nat) : FeSet := feSet (s.reg (F.CH.FE_CFG.MODE c).addr) (s.bit (F.CH.FE_STS.AR_LOW c))

/-- T_S in ns of a change from one setting to another (R118). The table has no row for a change of MODE to OFF: 0 is the model's choice
(DESIGN CHOICE, log entry 76). -/
def settleNs (old new : FeSet) : Nat :=
  if new.mode = modeOff then 0
  else if old.mode = modeOff then 100000
  else if old.mode ≠ new.mode then 40000
  else if new.mode = modeItia then
    (if feRange new = 1 then 6000 else if feRange new = 2 then 15000 else if feRange new = 3 then 40000 else 3000)
  else if new.mode = modeQchg then 5000
  else 3000

/-- The RANGE_CHANGE marker of a setting. -/
def rangeMark (c : Nat) (x : FeSet) (auto qrst : Bool) : ChMarker := .rangeChange c x.mode (feRange x) auto qrst 0

/-- The delay that the front end adds to the hold instant at a setting, in units of 3.125 ps: the typical values of R118. -/
def holdDelay (x : FeSet) : Int :=
  if x.mode = modeVdiff ∨ x.mode = modeVbridge then
    [0, 0, 640, 1440, 3040, 6080, 12160, 24320].getD x.gain 0
  else if x.mode = modeItia then [54400, 112000, 281600, 736000].getD (feRange x) 0
  else if x.mode = modeQchg then 19200
  else 0

/-- The hold instant of channel `c` for a tick, in units of 3.125 ps: the grid instant, the applied trim in steps of 12.5 ps, the wale
correction, and the delay that the front end adds (R93, R118). -/
def State.holdInstant (s : State) (t : Tick) (c : Nat) : Int :=
  5 * (t.at_ : Int) + 4 * s.sfld (trimApplFld c) + 5 * s.sfld F.TICK.WALE_CORR.CORR + holdDelay (s.feNow c)

/-- The tick hold of a group that a grid count selects takes a value: A where the count is even, B where it is odd (R94). -/
def State.setHold (s : State) (g n : Nat) (h : Option TickHold) : State :=
  s.modGroup g fun x => if n % 2 = 0 then { x with holdA := h } else { x with holdB := h }

/-- The tick holds of a group freeze at the strobe of a tick (R92 to R94). -/
def State.holdTake (s : State) (t : Tick) (g : Nat) : State :=
  s.setHold g t.n (some ⟨t.idx, (List.range 16).map fun l => s.holdInstant t (16 * g + l)⟩)

/-- A range change begins to settle: of two that have not settled the one that ends later counts (R118, R128). -/
def laterSettle (now ts : Nat) : Option (Nat × Nat) → Nat × Nat
  | some (t0, d0) => if now + ts < t0 + d0 then (t0, d0) else (now, ts)
  | none => (now, ts)

/-- The channel is within T_S of a range change (R128). -/
def State.settling (s : State) (c : Nat) : Bool :=
  match (s.getChan c).rngAt with
  | some (at_, ts) => decide (s.elapsedNs < at_ + ts)
  | none => false

/-- A hold taken now carries OVR: the detector fires, or released less than 5 µs ago (R117). -/
def State.overloaded (s : State) (c : Nat) : Bool :=
  s.bit (F.CH.FE_STS.OVL c)
    || (match (s.getChan c).ovlRel with
        | some at_ => decide (s.elapsedNs < at_ + 5000)
        | none => false)

end Sys2Proof.Machine
end

