-- ==== Sys2Proof/Machine/Calib.lean ====
section
/-!
DEFINITION. Background calibration at the conversions: the parameters of a slice and its correction (R187 to R189), the moments
that a dwell gathers (R190 to R193), the fits of R196 to R198, and slews and steps at the tick (R203 to R205).
-/

namespace Sys2Proof.Machine

/-! ## Slices and their parameters (R148, R187, R222) -/

abbrev roleWorking : Nat := 0
abbrev roleShadow : Nat := 1
abbrev roleIdle : Nat := 2
abbrev roleRetired : Nat := 3

/-- SLICE_STS.ROLE and GROUP of a slice. -/
def State.slRole (s : State) (n : Nat) : Nat := s.fld (F.SLICE.SLICE_STS.ROLE n)
def State.slGroup (s : State) (n : Nat) : Nat := s.fld (F.SLICE.SLICE_STS.GROUP n)

/-- A slice takes a role and a group. -/
def State.setRoleGroup (s : State) (n role g : Nat) : State :=
  (s.setFld (F.SLICE.SLICE_STS.ROLE n) role).setFld (F.SLICE.SLICE_STS.GROUP n) g

/-- The slice that serves group `g`. -/
def State.serving (s : State) (g : Nat) : Nat :=
  ((List.range 34).find? fun n => decide (s.slRole n = roleWorking) && decide (s.slGroup n = g)).getD g

/-- The fields of weight number `i` (bit 23 - i) in the applied and target rows. -/
def wApplFld (n i : Nat) : Fld := ⟨0x7210 + 0x40 * n + 4 * (i / 2), if i % 2 = 0 then 16 else 0, 16⟩
def wTgtFld (n i : Nat) : Fld := ⟨0x7220 + 0x40 * n + 4 * (i / 2), if i % 2 = 0 then 16 else 0, 16⟩

/-- The applied and target parameters of a slice. -/
def State.applied (s : State) (n : Nat) : Params :=
  ⟨s.sfld (F.CAL.OFS_APPL.OFS n), s.fld (F.CAL.GAIN_APPL.GAIN n), (List.range 8).map fun i => s.sfld (wApplFld n i)⟩
def State.target (s : State) (n : Nat) : Params :=
  ⟨s.sfld (F.CAL.OFS_TGT.OFS n), s.fld (F.CAL.GAIN_TGT.GAIN n), (List.range 8).map fun i => s.sfld (wTgtFld n i)⟩

/-- Sets the applied parameters of a slice. -/
def State.setApplied (s : State) (n : Nat) (p : Params) : State :=
  let s := (s.setSfld (F.CAL.OFS_APPL.OFS n) p.ofs).setFld (F.CAL.GAIN_APPL.GAIN n) p.gain
  s.each (List.range 8) fun s i => s.setSfld (wApplFld n i) (p.w.getD i 0)

/-- Sets the target parameters of a slice. -/
def State.setTarget (s : State) (n : Nat) (p : Params) : State :=
  let s := (s.setSfld (F.CAL.OFS_TGT.OFS n) p.ofs).setFld (F.CAL.GAIN_TGT.GAIN n) p.gain
  s.each (List.range 8) fun s i => s.setSfld (wTgtFld n i) (p.w.getD i 0)

/-- The factory parameters of a slice in the MRAM; the ideal ones where its partition is bad (R470). -/
def State.factory (s : State) (n : Nat) : Params := if s.mram.factoryOk then sget {} s.mram.params n else {}

/-- d_p of a raw code: bit p of the code in offset binary (R187). -/
def decisionBit (raw : Int) (p : Nat) : Bool := (raw + 2 ^ 23).toNat.testBit p

/-- The sum of the weights whose decisions are 1: weight i is that of bit 23 - i. -/
def weightSum (raw : Int) (w : List Int) : Int :=
  ((List.range 8).map fun i => if decisionBit raw (23 - i) then w.getD i 0 else 0).sum

/-- The corrected code of a raw code (R187). -/
def correct (p : Params) (raw : Int) : Int :=
  clampCode (roundHalfUp ((p.gain : Int) * (256 * raw + weightSum raw p.w - p.ofs)) (2 ^ 38))

/-! ## Slews and steps at a tick (R203 to R205) -/

/-- K of R203: the larger of SLEW_TICKS and D rounded up. -/
def State.slewLen (s : State) (a b : Params) : Nat :=
  let t := s.fld F.CAL.SLEW_TICKS.TICKS
  let d := ceilDiv ((b.ofs - a.ofs).natAbs + 2 * ((b.gain : Int) - a.gain).natAbs
    + ((List.range 8).map fun i => (b.w.getD i 0 - a.w.getD i 0).natAbs).sum) 256
  max (if t = 0 then 1 else t) d

/-- One parameter of a slew at its i-th tick of K; the rounding is free (log entry 3). -/
def State.slewPart (s : State) (a b : Int) (i k : Nat) : Int × State :=
  let (d, s) := s.roundFree ((b - a) * i) k
  (a + d, s)

/-- The parameters of a slew at its i-th tick of K. -/
def State.slewAt (s : State) (a b : Params) (i k : Nat) : Params × State :=
  let (o, s) := s.slewPart a.ofs b.ofs i k
  let (g, s) := s.slewPart a.gain b.gain i k
  let (w, s) := (List.range 8).foldl (fun acc j =>
    let (x, t) := acc.2.slewPart (a.w.getD j 0) (b.w.getD j 0) i k
    (acc.1 ++ [x], t)) (([] : List Int), s)
  (⟨o, g.toNat, w⟩, s)

/-- A slew or a step toward new targets begins (R203, R205). -/
def State.slewBegin (s : State) (n : Nat) : State :=
  if s.bit F.CAL.CAL_CTL.STEP_MODE then
    ((s.modSlice n fun x => { x with slew := none, stepDue := true }).setBit (F.CAL.EST_STS.SLEWING n) false).setFld
      (F.CAL.SLEW_REMAIN.TICKS n) 0
  else
    let a := s.applied n
    let k := s.slewLen a (s.target n)
    ((s.modSlice n fun x => { x with slew := some (a, k, 0), stepDue := false }).setBit (F.CAL.EST_STS.SLEWING n) true).setFld
      (F.CAL.SLEW_REMAIN.TICKS n) k

/-- The marker is placed at the averager output of every enabled channel of group `g`; a standby's streams are not built from
its own slices, and to place none there is the model's choice (R205, R207, R211; DESIGN CHOICE, log entry 49). -/
def State.groupMark (s : State) (g : Nat) (m : ChMarker) : State :=
  if s.leads then s.each ((List.range 16).map (16 * g + ·)) fun s c => if s.chEnabled c then s.chainMark c m else s else s

/-- What a tick does to the parameters of one slice (R203 to R205). -/
def State.calTick (s : State) (n : Nat) : State :=
  let x := s.getSlice n
  if x.stepDue then
    ((s.setApplied n (s.target n)).modSlice n fun x => { x with stepDue := false }).groupMark (s.slGroup n)
      (.calStep n (s.slGroup n))
  else
    match x.slew with
    | none => s
    | some (a, k, i) =>
      if k ≤ i then s.modSlice n fun x => { x with slew := none }
      else
        let (p, s) := s.slewAt a (s.target n) (i + 1) k
        let s := (s.setApplied n p).modSlice n fun x => { x with slew := some (a, k, i + 1) }
        (s.setFld (F.CAL.SLEW_REMAIN.TICKS n) (k - (i + 1))).setBit (F.CAL.EST_STS.SLEWING n) (decide (i + 1 < k))

/-- The conversions of the tick just issued carry CALS on this slice (R203). -/
def State.slewing (s : State) (n : Nat) : Bool :=
  match (s.getSlice n).slew with
  | some (_, _, i) => decide (0 < i)
  | none => false

/-! ## Dwells (R190 to R194) -/

abbrev calOff : Nat := 0
abbrev calSelftest : Nat := 1
abbrev calRun : Nat := 2
abbrev calSingle : Nat := 3
abbrev calNoSpare : Nat := 4
abbrev calStopped : Nat := 5

/-- CAL_STS.STATE. -/
def State.calSt (s : State) : Nat := s.fld F.CAL.CAL_STS.STATE

/-- The rotation visits a group: its active bank makes SRC 0 conversions of some enabled channel (R191). -/
def State.calVisits (s : State) (g : Nat) : Bool :=
  let segs := s.actSegments g
  (List.range 16).any fun l => s.chEnabled (16 * g + l) && decide (0 < loopConvs l segs)

/-- The next group that the rotation visits. -/
def State.calNext (s : State) : Option Nat := (List.range 32).find? fun g => decide (s.cal.nextGroup ≤ g) && s.calVisits g

/-- Dwells run: RUN or SINGLE, awake, with no self-test of a spare running (R208, R216). -/
def State.calOn (s : State) : Bool :=
  (decide (s.calSt = calRun) || decide (s.calSt = calSingle)) && decide (s.fld F.NVM.PWR_STS.STATE = 1) && s.cal.testing.isEmpty

/-- The spares that have left shadowing are idle. -/
def State.shadowsOff (s : State) : State :=
  s.each (List.range 34) fun s n => if s.slRole n = roleShadow then s.setFld (F.SLICE.SLICE_STS.ROLE n) roleIdle else s

/-- The duty spare: SLICE_32 in even rotations, SLICE_33 in odd ones; in SINGLE the one that remains (R190). -/
def State.dutySpare (s : State) : Nat :=
  let idle (n : Nat) : Bool := decide (s.slRole n = roleIdle) || decide (s.slRole n = roleShadow)
  let d := 32 + s.fld F.CAL.ROT_CNT.CNT % 2
  if idle d then d else if idle (65 - d) then 65 - d else d

/-- A dwell begins on group `g`: the safe boundary of the CAL page, and the instant at which accepted anchors take effect
(R191, R198, R221). -/
def State.calStart (s : State) (g : Nat) : State :=
  let s := s.when (s.commitDue pgCAL) fun s => s.commitApply pgCAL
  let s := match s.cal.anchorDue with
    | some (r, d) =>
      ((s.setFld F.CAL.ANCHOR_RHO.RHO r.toNat).setFld F.CAL.ANCHOR_DELTA.DELTA d.toNat).modCal fun c => { c with anchorDue := none }
    | none => s
  let first := s.cal.first
  let cross := first && decide (s.calSt = calRun)
  let s := s.shadowsOff
  let duty := s.dutySpare
  let s := s.setRoleGroup duty roleShadow g
  let s := s.when cross fun s => s.setRoleGroup (65 - duty) roleShadow g
  let s := ((s.setFld F.CAL.CAL_STS.DUTY duty).setFld F.CAL.CAL_STS.PHASE 0).setFld F.CAL.CAL_STS.GROUP g
  let s := (s.setBit F.CAL.CAL_STS.CROSS cross).setFld F.CAL.WIN_FILL.FILL 0
  s.modCal fun c =>
    { c with first := false, rotStart := if first then s.smoothNs else c.rotStart, nextGroup := g,
             dwell := some { group := g, slice := s.serving g, duty := duty, idle := if cross then some (65 - duty) else none,
                             startedAt := s.smoothNs } }

/-- The next dwell begins if its group's slice has no pass in progress (R192); from sleep entry to the first tick after wake none
begins (R216), and none before the first tick (R468). -/
def State.calTryStart (s : State) : State :=
  if s.calOn && s.cal.dwell.isNone && decide (s.fld F.NVM.PWR_STS.STATE < 2) && s.grid.last.isSome then
    match s.calNext with
    | some g => if (s.getSlice (s.serving g)).pass.isNone then s.calStart g else s
    | none => s
  else s

/-- The dwell ends, and the rotation goes on behind its group. -/
def State.dwellEnd (s : State) : State :=
  match s.cal.dwell with
  | none => s
  | some d =>
    ((s.setBit F.CAL.CAL_STS.CROSS false).setFld F.CAL.WIN_FILL.FILL 0).modCal fun c =>
      { c with dwell := none, nextGroup := d.group + 1 }

/-- The dwell is abandoned (R194). -/
def State.dwellAbandon (s : State) : State :=
  match s.cal.dwell with
  | none => s
  | some d => (((s.count F.CAL.ABANDON_CNT.CNT).setFld (F.CAL.EST_STS.LAST_RESULT d.slice) 4).dwellEnd).setFld F.CAL.CAL_STS.PHASE 0

/-- Conversions of WARMUP, and of a window (R192, R221). -/
def State.warmupLen (s : State) : Nat :=
  let w := s.fld F.CAL.CAL_CTL.WARMUP
  (if w = 0 then 1 else w) * 1024
def State.windowLen (s : State) : Nat := 2 ^ (min 8 (s.fld F.CAL.CAL_CTL.M_LOG2) + 12)

/-- The phase in progress has reached its count (R192). -/
def State.phaseFull (s : State) (d : Dwell) : Bool :=
  let p := s.fld F.CAL.CAL_STS.PHASE
  if p = 0 then decide (s.warmupLen ≤ d.warm)
  else if p = 1 then decide (s.windowLen ≤ d.w1.n)
  else if p = 2 then decide (s.windowLen ≤ d.w2.n)
  else false

/-- A phase that has reached its count ends, and the next begins (R192). -/
def State.phaseStep (s : State) : State :=
  match s.cal.dwell with
  | none => s
  | some d =>
    if s.phaseFull d then
      (s.setFld F.CAL.CAL_STS.PHASE (s.fld F.CAL.CAL_STS.PHASE + 1)).setFld F.CAL.WIN_FILL.FILL 0
    else s

/-- CAL_PHASE_END (R192). -/
def execCalPhaseEnd (s : State) : Host.Outcome State Fault Refusal := act State.phaseStep s

/-! ## What a conversion adds (R193, R197, R209) -/

/-- The sums of two lists of equal meaning; an empty list counts as zeros. -/
def addLists (a b : List Int) : List Int := b.mapIdx fun i x => a.getD i 0 + x

/-- The regressors 1, c, d_16 … d_23. -/
def regressors (c raw : Int) : List Int := [1, c] ++ (List.range 8).map fun i => (b2n (decisionBit raw (16 + i)) : Int)

/-- The lower triangle of products of the regressors, in row order. -/
def triangle (x : List Int) : List Int := (x.mapIdx fun i a => (x.take (i + 1)).map fun b => a * b).flatten

/-- A usable conversion enters a window: the corrected and raw code of the working slice, and the factory-corrected and
anchored code of the duty spare. -/
def momentsAdd (m : Moments) (c raw sf anch : Int) : Moments :=
  let x := regressors c raw
  let ob := (raw + 2 ^ 23).toNat
  { m with
    n := m.n + 1
    xx := addLists m.xx (triangle x)
    xs := addLists m.xs (x.map fun a => a * sf)
    ss := m.ss + sf * sf
    orBits := m.orBits ||| ob
    andBits := m.andBits &&& ob
    carry := (List.range 8).map fun i =>
      let (lo, hi) := m.carry.getD i (0, 0)
      if decisionBit anch (16 + i) then (lo, hi + 1) else (lo + 1, hi) }

/-- The anchor of R196 as s = (a x + b) / n of the factory-corrected code x, with whole numbers: a, b and n. -/
def State.anchor (s : State) (spare : Nat) : Int × Int × Nat :=
  let r := 2 ^ 32 + s.sfld F.CAL.ANCHOR_RHO.RHO
  let d := s.sfld F.CAL.ANCHOR_DELTA.DELTA
  if spare = 32 then (2 ^ 32 + r, d * 2 ^ 24, 2 ^ 33) else (2 ^ 32 + r, -(d * 2 ^ 24), (2 * r).toNat)

/-- The anchored code as a whole number of LSB, rounded down, for the carry count of R209. -/
def State.anchored (s : State) (spare : Nat) (x : Int) : Int :=
  let (a, b, n) := s.anchor spare
  (a * x + b) / (n : Int)

/-- A pair of codes enters a window of a cross dwell (R198). -/
def crossAdd (m : Cross) (x o : Int) : Cross :=
  { n := m.n + 1, s := m.s + x, o := m.o + o, ss := m.ss + x * x, oo := m.oo + o * o, os := m.os + o * x }

/-- A raw code lies at neither end of the span (R193). -/
def insideSpan (raw : Int) : Bool := decide (-8388608 < raw) && decide (raw < 8388607)

/-- The dwell sees a conversion of its working slice: every one counts in WARMUP, and a usable one enters the open window
(R192, R193). `ok` says that the conversion is from a tick hold, without OVR and without a slew. -/
def State.calSample (s : State) (n : Nat) (raw c : Int) (ok : Bool) (duty idle : Option (BitVec 24)) : State :=
  match s.cal.dwell with
  | none => s
  | some d0 =>
    if d0.slice ≠ n then s
    else
      let s := s.phaseStep
      let p := s.fld F.CAL.CAL_STS.PHASE
      let set (d : Dwell) : State := s.modCal fun c => { c with dwell := some d }
      if p = 0 then set { d0 with warm := d0.warm + 1 }
      else if p = 3 then s
      else
        match duty with
        | none => s
        | some dr =>
          if ok && insideSpan raw && insideSpan dr.toInt then
            let sf := correct (s.factory d0.duty) dr.toInt
            let anch := s.anchored d0.duty sf
            let cross (m : Cross) : Cross :=
              match d0.idle, idle with
              | some k, some ir => if insideSpan ir.toInt then crossAdd m sf (correct (s.factory k) ir.toInt) else m
              | _, _ => m
            let d := if p = 1 then { d0 with w1 := momentsAdd d0.w1 c raw sf anch, c1 := cross d0.c1 }
              else { d0 with w2 := momentsAdd d0.w2 c raw sf anch, c2 := cross d0.c2 }
            (set d).setFld F.CAL.WIN_FILL.FILL (if p = 1 then d.w1.n else d.w2.n)
          else s

/-! ## The least-squares fit (R197) -/

/-- Entry (i, j) of a matrix. -/
def ent (m : List (List Rat)) (i j : Nat) : Rat := (m.getD i []).getD j 0

/-- Regressor `k` is swept out of a matrix of products; a regressor that is a combination of those before it is left. -/
def sweepOut (m : List (List Rat)) (k : Nat) : List (List Rat) :=
  let p := ent m k k
  if p = 0 then m
  else m.mapIdx fun i row => row.mapIdx fun j x => x - ent m i k * ent m k j / p

/-- Sweeps out several regressors. -/
def sweepAll (m : List (List Rat)) (l : List Nat) : List (List Rat) := l.foldl sweepOut m

/-- What is left of regressor `p` and of its product with the target, entry 10, when the other regressors are swept out. -/
def partOf (m : List (List Rat)) (active : List Nat) (p : Nat) : Rat × Rat :=
  let r := sweepAll m (active.filter fun q => decide (q ≠ p))
  (ent r p p, ent r p 10)

/-- The coefficient of regressor `p` in the fit over the active regressors; 0 where the data do not determine it. -/
def coefOf (m : List (List Rat)) (active : List Nat) (p : Nat) : Rat :=
  let (a, b) := partOf m active p
  if a = 0 then 0 else b / a

/-- The residual sum of squares of the fit. -/
def rssOf (m : List (List Rat)) (active : List Nat) : Rat := ent (sweepAll m active) 10 10

/-- The matrix of products of a window: the ten regressors and the target s - c, with s the anchored code (a x + b). -/
def windowMatrix (w : Moments) (a b : Rat) : List (List Rat) :=
  let xx (i j : Nat) : Rat := if i < j then (w.xx.getD (j * (j + 1) / 2 + i) 0 : Int) else (w.xx.getD (i * (i + 1) / 2 + j) 0 : Int)
  let xs (i : Nat) : Rat := a * (w.xs.getD i 0 : Int) + b * xx i 0
  let ss : Rat := a * a * (w.ss : Int) + 2 * a * b * (w.xs.getD 0 0 : Int) + b * b * (w.n : Int)
  let xy (i : Nat) : Rat := xs i - xx i 1
  let yy : Rat := ss - 2 * xs 1 + xx 1 1
  (List.range 10).map (fun i => (List.range 10).map (fun j => xx i j) ++ [xy i]) ++ [(List.range 10).map xy ++ [yy]]

/-- The square of the spread of the anchored code over a window. -/
def spreadSq (w : Moments) (a : Rat) : Rat :=
  let n : Rat := (w.n : Int)
  let x : Rat := (w.xs.getD 0 0 : Int)
  if w.n = 0 then 0 else a * a * ((w.ss : Int) / n - x * x / (n * n))

/-- The standard error of weight regressor `p` exceeds WTOL / 4, or the data do not determine the weight (R197). -/
def weightLoose (m : List (List Rat)) (active : List Nat) (n wtol p : Nat) : Bool :=
  let a := (partOf m active p).1
  let dof : Rat := ((n - active.length : Nat) : Int)
  decide (a = 0) || decide ((wtol * wtol : Nat) * (a * dof) < rssOf m active * (1048576 : Nat))

/-- The fits of the two windows: the deferred gain, the deferred weights (as regressor numbers), and per window γ, β, the ε of
the weights 16 to 23 and the residual mean square. -/
structure Fits where
  gainDef : Bool
  wDef : List Nat
  one : Rat × Rat × List Rat × Rat
  two : Rat × Rat × List Rat × Rat
deriving DecidableEq

/-- Fits one window over the active regressors. -/
def fitWindow (m : List (List Rat)) (active : List Nat) (n : Nat) : Rat × Rat × List Rat × Rat :=
  let co (p : Nat) : Rat := if active.contains p then coefOf m active p else 0
  (co 1, co 0, (List.range 8).map fun i => co (2 + i), if n = 0 then 0 else rssOf m active / ((n : Int) : Rat))

/-- The fits of a dwell (R197). -/
def State.fits (s : State) (d : Dwell) : Fits :=
  let (a, b, n) := s.anchor d.duty
  let a' : Rat := (a : Rat) / ((n : Int) : Rat)
  let b' : Rat := (b : Rat) / ((n : Int) : Rat)
  let m1 := windowMatrix d.w1 a' b'
  let m2 := windowMatrix d.w2 a' b'
  let lim : Rat := ((s.fld F.CAL.SPREAD_MIN.SPREAD ^ 2 : Nat) : Int)
  let small (w : Moments) (m : List (List Rat)) : Bool :=
    decide (spreadSq w a' < lim) || decide ((partOf m [0, 1] 1).1 = 0)
  let gd := small d.w1 m1 || small d.w2 m2
  let base := if gd then [0] else [0, 1]
  let all := base ++ (List.range 8).map (2 + ·)
  let wt := s.fld F.CAL.WTOL.WTOL
  let wd := ((List.range 8).map (2 + ·)).filter fun p => weightLoose m1 all d.w1.n wt p || weightLoose m2 all d.w2.n wt p
  let act := all.filter fun p => !wd.contains p
  { gainDef := gd, wDef := wd, one := fitWindow m1 act d.w1.n, two := fitWindow m2 act d.w2.n }

/-- The fit of a cross window: ρ', δ' and the residual mean square; none without spread (R198). -/
def crossFit (m : Cross) : Option (Rat × Rat × Rat) :=
  let n : Rat := (m.n : Int)
  let v : Rat := n * (m.ss : Int) - (m.s : Int) * (m.s : Int)
  if v = 0 then none
  else
    let r : Rat := (n * (m.os : Int) - (m.o : Int) * (m.s : Int)) / v
    let d : Rat := ((m.o : Int) - r * (m.s : Int)) / n
    let rss : Rat := (m.oo : Int) - r * (m.os : Int) - d * (m.o : Int)
    some (r, d, rss / n)

/-- The square of the spread of the duty spare's code over a cross window. -/
def crossSpreadSq (m : Cross) : Rat :=
  let n : Rat := (m.n : Int)
  if m.n = 0 then 0 else (m.ss : Int) / n - (m.s : Int) * (m.s : Int) / (n * n)

end Sys2Proof.Machine
end

