-- ==== Sys2Proof/Machine/Spare.lean ====
section
/-!
DEFINITION. What calibration decides: acceptance and new targets (R198 to R202), self-test, replacement and retirement of slices
(R208 to R213), the states of calibration (R214, R215), and its copies in the MRAM (R217 to R220).
-/

namespace Sys2Proof.Machine

/-! ## Rounding of estimates -/

/-- The nearest whole number; a tie is free (log entry 3). -/
def State.roundNear (s : State) (q : Rat) : Int × State :=
  let t := q + 1 / 2
  let f := t.floor
  if t = (f : Rat) then (if Config.freeRound s.free then f else f - 1, { s with free := s.free + 1 }) else (f, s)

/-- A whole number next to a fraction; which of the two is free (log entry 3). -/
def State.roundRat (s : State) (q : Rat) : Int × State := s.roundFree q.num q.den

/-- A value that a register cannot hold is free (log entry 3). -/
def State.fitFree (s : State) (lo hi x : Int) : Int × State :=
  if lo ≤ x ∧ x ≤ hi then (x, s)
  else
    let (v, s) := s.drawFree
    (lo + (v - lo) % (hi - lo + 1), s)

/-- The square root of a fraction, next to it; which of the two whole numbers is free (log entry 3). -/
def State.rootRat (s : State) (q : Rat) : Nat × State :=
  let n := (q.num / (q.den : Int)).toNat
  let r := isqrt n
  if ((r * r : Nat) : Rat) = q then (r, s) else (if Config.freeRound s.free then r + 1 else r, { s with free := s.free + 1 })

/-! ## The copies in the MRAM (R217 to R220) -/

/-- The newer valid copy. -/
def Mram.calNewer (m : Mram) : Option Bool := newerCopy m.calA.valid m.calA.gen m.calB.valid m.calB.gen

/-- The words of a set of parameters: the offset, the gain, and the weights in pairs as their registers hold them (R187, R222). -/
def paramWords (p : Params) : List Nat :=
  let w (i : Nat) : Nat := unsigned 16 (p.w.getD i 0)
  [unsigned 32 p.ofs, p.gain % 2 ^ 32] ++ (List.range 4).map fun i => w (2 * i) * 2 ^ 16 + w (2 * i + 1)

/-- The check word over the content of a copy, in the order of R217: the generation, the targets of the slices in working role, a word with
ROLE and GROUP per slice, ρ, δ and the parity. The layout in words is the model's choice (R515; DESIGN CHOICE, log entry 84). -/
def calCrc (c : CalCopy) : Reg :=
  let role (n : Nat) : Nat × Nat := c.roles.getD n (0, 0)
  let params := (List.range 34).flatMap fun n => if (role n).1 = roleWorking then paramWords (c.targets.getD n {}) else []
  crc32c (([c.gen] ++ params ++ (List.range 34).map (fun n => (role n).1 * 2 ^ 5 + (role n).2)
    ++ [c.rho.toNat, c.delta.toNat, b2n c.odd]).flatMap bytes32)

/-- CAL_CRC as it reads: the stored check word, which matches on a valid copy (R217, R224). -/
def calCrcShown (c : CalCopy) : Reg := if c.valid then calCrc c else c.crc

/-- Copy `b` is being overwritten: it is not valid, and what it holds is not known (log entry 3). -/
def State.calSpoil (s : State) (b : Bool) : State :=
  let (gen, s) := s.drawFree
  let (crc, s) := s.drawFree
  s.modMram fun m => m.setCal b { m.getCal b with gen := (gen % (2 ^ 32 - 1)).toNat + 1, valid := false, crc := BitVec.ofInt 32 crc }

/-- The content a save writes (R217). -/
def State.calContent (s : State) (gen : Nat) : CalCopy :=
  { gen := gen, valid := true, targets := (List.range 34).map s.target,
    roles := (List.range 34).map fun n => (s.slRole n, s.slGroup n),
    rho := s.reg F.CAL.ANCHOR_RHO.RHO.addr, delta := s.reg F.CAL.ANCHOR_DELTA.DELTA.addr,
    odd := decide (s.fld F.CAL.ROT_CNT.CNT % 2 = 1) }

/-- A save starts: the copy it writes is invalid until it has been verified (R218, R219). A save asked for while one runs
writes the same copy. In STOPPED there are no saves (R214). -/
def State.calSave (s : State) : State :=
  if s.calSt = calStopped then s
  else
    let newer := s.mram.calNewer
    let gen := match newer with
      | some b => ((s.mram.getCal b).gen + 1) % 2 ^ 32
      | none => 1
    let b := match s.cal.saving with
      | some (b, _) => b
      | none => targetCopy newer
    let c := s.calContent gen
    (s.calSpoil b).modCal fun x =>
      { x with saving := some (b, c), changed := false, unsaved := x.changed || (x.saving.isSome && x.unsaved) }

/-- CAL_SAVE_DONE (R218, R219). -/
def State.calSaveDone (s : State) (ok : Bool) : State :=
  match s.cal.saving with
  | none => s
  | some (b, c) =>
    if ok then
      let s := (s.modMram fun m => m.setCal b c).modCal fun x => { x with saving := none, lastSave := some s.smoothNs }
      ((s.count F.NVM.CAL_SAVE_CNT.CNT).setFld F.NVM.CAL_LAST_SAVE.SEC s.time.sec).raiseInt Irq.calSaved
    else s.calSaveDrop.raiseFault Flt.calWrFail

def execCalSaveDone (ok : Bool) (s : State) : Host.Outcome State Fault Refusal := act (·.calSaveDone ok) s

/-- SAVE_NOW is ignored while a save runs and within 1 s after the last one (R216, R218). -/
def State.saveNow (s : State) : State :=
  if s.cal.saving.isSome then s
  else
    match s.cal.lastSave with
    | some t => if s.smoothNs < t + nsPerSec then s else s.calSave
    | none => s.calSave

def execSaveNow (s : State) : Host.Outcome State Fault Refusal := actW State.saveNow s

/-! ## States (R214) -/

/-- A slice is a spare that remains: idle or shadowing. -/
def State.spareLeft (s : State) (n : Nat) : Bool := decide (s.slRole n = roleIdle) || decide (s.slRole n = roleShadow)

/-- The spares that remain. -/
def State.sparesLeft (s : State) : Nat := ((List.range 34).filter fun n => s.spareLeft n).length

/-- The state that the spares remaining give. -/
def State.calBySpares (s : State) : Nat := if 2 ≤ s.sparesLeft then calRun else if s.sparesLeft = 1 then calSingle else calNoSpare

/-- CAL_STS.ANCHOR_SINGLE and DUTY follow the spares that remain (R190, R221). -/
def State.calShow (s : State) : State :=
  (s.setBit F.CAL.CAL_STS.ANCHOR_SINGLE (decide (s.sparesLeft = 1))).setFld F.CAL.CAL_STS.DUTY s.dutySpare

/-- Calibration enters a state; where no dwell begins, a commit that waits takes effect (R221). -/
def State.calEnter (s : State) (st : Nat) : State :=
  let s := (s.setFld F.CAL.CAL_STS.STATE st).calShow
  s.when ((decide (st = calOff) || decide (st = calNoSpare) || decide (st = calStopped)) && s.commitDue pgCAL) fun s =>
    s.commitApply pgCAL

/-- A spare has been used or retired: the count, the fault, the state and the save (R211, R212, R214). -/
def State.spareGone (s : State) : State :=
  let s := ((s.count F.CAL.SWAP_STS.SWAP_CNT).raiseFault Flt.sliceSwapped).calShow
  let s := if s.calSt = calRun then
      (if s.sparesLeft = 1 then (s.calEnter calSingle).raiseInt Irq.anchorSingle
       else if s.sparesLeft = 0 then ((s.calEnter calNoSpare).raiseInt Irq.anchorSingle).raiseInt Irq.noSpare else s)
    else if s.calSt = calSingle ∧ s.sparesLeft = 0 then (s.calEnter calNoSpare).raiseInt Irq.noSpare
    else s
  s.calSave

/-! ## Replacement (R209 to R213) -/

/-- The parameters that make the corrected code of a spare equal its anchored code (R211). -/
def State.anchorParams (s : State) (n : Nat) : Params × State :=
  let p := s.factory n
  let (a, b, d) := s.anchor n
  let a' : Rat := (a : Rat) / ((d : Int) : Rat)
  let b' : Rat := (b : Rat) / ((d : Int) : Rat)
  let g : Rat := a' * ((p.gain : Int) : Rat)
  let o : Rat := (p.ofs : Rat) - (if g = 0 then 0 else b' * (256 * 2 ^ 30) / g)
  let (g, s) := s.roundNear g
  let (g, s) := s.fitFree 0 (2 ^ 32 - 1) g
  let (o, s) := s.roundNear o
  let (o, s) := s.fitFree (-(2 ^ 31)) (2 ^ 31 - 1) o
  (⟨o, g.toNat, p.w⟩, s)

/-- The spare that shadows slice `n` in the dwell in progress; of two in a cross dwell, the duty spare (R210). -/
def State.shadowOf (s : State) (n : Nat) : Option Nat :=
  match s.cal.dwell with
  | some d => if d.slice = n ∧ s.spareLeft d.duty then some d.duty else none
  | none => none

/-- The spare that replaces slice `n` (R210): the one that shadows it or did so when it failed, the idle spare, or the duty spare. -/
def State.replacement (s : State) (n : Nat) : Option Nat :=
  let duty := s.dutySpare
  let shadowing := match (s.getSlice n).swapFor with
    | some k => if s.spareLeft k then some k else s.shadowOf n
    | none => s.shadowOf n
  match shadowing with
  | some k => some k
  | none => if s.spareLeft (65 - duty) then some (65 - duty) else if s.spareLeft duty then some duty else none

/-- A dwell that uses slice `n` is abandoned (R194). -/
def State.dwellWithout (s : State) (n : Nat) : State :=
  match s.cal.dwell with
  | some d => if d.slice = n ∨ d.duty = n ∨ d.idle = some n then s.dwellAbandon else s
  | none => s

/-- Slice `n` is replaced (R210, R211). -/
def State.swapSlice (s : State) (n : Nat) : State :=
  match s.replacement n with
  | none => s
  | some k =>
    let g := s.slGroup n
    let s := (s.dwellWithout n).dwellWithout k
    let s := (s.modSlice n fun x => { x with swapDue := false, swapFor := none }).modCal fun c =>
      { c with testing := c.testing.filter (· ≠ k) }
    let s := (s.setFld (F.SLICE.SLICE_STS.ROLE n) roleRetired).setRoleGroup k roleWorking g
    let (p, s) := s.anchorParams k
    let s := ((s.setApplied k p).setTarget k p).modSlice k fun x => { x with slew := none, stepDue := false, timeouts := 0, badQ := 0 }
    let s := s.when s.grid.last.isSome fun s => s.groupMark g (.sliceSwap n k g)
    s.spareGone.raiseInt Irq.swapped

/-- A spare is retired (R212). -/
def State.retire (s : State) (n : Nat) : State :=
  ((s.dwellWithout n).setFld (F.SLICE.SLICE_STS.ROLE n) roleRetired).spareGone

/-- A working slice fails self-test: it waits for its replacement, by the spare that shadows it now if one does, or keeps working (R209,
R210, R213). -/
def State.sliceFail (s : State) (n : Nat) : State :=
  let s := (s.setBit (F.CAL.EST_STS.SELFTEST_FAIL n) true).raiseFault Flt.selftestFail
  if s.bit F.CAL.CAL_CTL.AUTO_SWAP && decide (0 < s.sparesLeft) then
    s.modSlice n fun x => { x with swapDue := true, swapFor := s.shadowOf n }
  else s.raiseFault Flt.swapBlocked

/-- A replacement that is due takes effect at the end of the pass of its group (R210). -/
def State.swapApply (s : State) (g : Nat) : State :=
  let n := s.serving g
  if (s.getSlice n).swapDue ∧ (s.getSlice n).pass.isNone then (s.swapSlice n).calTryStart else s

/-- SLICE_SWAP_APPLY (R210). -/
def execSliceSwapApply (g : Fin 32) (s : State) : Host.Outcome State Fault Refusal := act (·.swapApply g.val) s

/-- A replacement takes effect at once where no pass of the group is in progress. -/
def State.swapNow (s : State) (n : Nat) : State := if s.slRole n = roleWorking then s.swapApply (s.slGroup n) else s

/-! ## Self-test (R208) -/

/-- A self-test passes: the mean at each of the levels 0 and ±1/2 of the span of 2^24 LSB lies within 0.1 % of it, each standard
deviation is below 64 LSB, and no conversion exceeded 600 ns (R208; log entry 11). -/
def selfTestOk (r : SelfTest) : Bool :=
  decide (r.meanZero.natAbs * 1000 ≤ 2 ^ 24) && decide ((r.meanPos - 2 ^ 23).natAbs * 1000 ≤ 2 ^ 24)
    && decide ((r.meanNeg + 2 ^ 23).natAbs * 1000 ≤ 2 ^ 24) && decide (r.sdMax < 64) && !r.slow

/-- The start-up self-test of all slices is done: failed spares are retired, then failed working slices replaced, and
calibration takes up its state (R208, R210, R212, R214). -/
def State.startTestDone (s : State) : State :=
  let failed := (List.range 34).filter fun n => s.bit (F.CAL.EST_STS.SELFTEST_FAIL n)
  let s := s.each (failed.filter fun n => s.spareLeft n) fun s n => (s.raiseFault Flt.selftestFail).retire n
  let s := s.each (failed.filter fun n => decide (s.slRole n = roleWorking)) fun s n => (s.sliceFail n).swapNow n
  let s := s.when (s.commitDue pgCAL) fun s => s.commitApply pgCAL
  (s.calEnter (if s.bit F.CAL.CAL_CTL.EN then s.calBySpares else calOff)).calTryStart

/-- A self-test completes (R208, R212). -/
def State.selfTestDone (s : State) (n : Nat) (r : SelfTest) : State :=
  if s.cal.testing.contains n = false then s
  else
    let s := s.modCal fun c => { c with testing := c.testing.filter fun k => decide (k ≠ n) }
    if s.calSt = calSelftest then
      let s := s.setBit (F.CAL.EST_STS.SELFTEST_FAIL n) (!selfTestOk r)
      if s.cal.testing.isEmpty then s.startTestDone else s
    else if selfTestOk r then s.calTryStart
    else (((s.setBit (F.CAL.EST_STS.SELFTEST_FAIL n) true).raiseFault Flt.selftestFail).retire n).calTryStart

/-! ## The decision (R198, R200 to R202, R209) -/

/-- A residual mean square reaches a limit in 0.01 ppm of the span of 2^24 LSB. -/
def qualAtLeast (ms : Rat) (lim : Nat) : Bool := decide (((lim * lim : Nat) : Int) * (2 ^ 48 : Rat) ≤ ms * 10 ^ 16)

/-- A residual mean square lies above a limit. -/
def qualAbove (ms : Rat) (lim : Nat) : Bool := decide (((lim * lim : Nat) : Int) * (2 ^ 48 : Rat) < ms * 10 ^ 16)

/-- Two estimates agree within a tolerance. -/
def agree (a b tol : Rat) : Bool := decide (a - b ≤ tol) && decide (b - a ≤ tol)

/-- Accepted parts of a dwell: γ, β, the weights 16 to 23, and the numbers of accepted and rejected parts. -/
structure Judged where
  gamma : Option Rat
  beta : Option Rat
  eps : List (Option Rat)
  rejected : Nat
deriving DecidableEq

/-- The tests of R200, steps 2 to 4. -/
def State.judge (s : State) (f : Fits) : Judged :=
  let gt : Rat := ((s.fld F.CAL.CAL_TOL.GAIN_TOL : Nat) : Int) / (10000000 : Rat)
  let ot : Rat := ((s.fld F.CAL.CAL_TOL.OFS_TOL : Nat) : Int) / (256 : Rat)
  let wt : Rat := ((s.fld F.CAL.WTOL.WTOL : Nat) : Int) / (256 : Rat)
  let (g1, b1, e1, _) := f.one
  let (g2, b2, e2, _) := f.two
  let mean (a b : Rat) : Rat := (a + b) / 2
  let okB := agree b1 b2 ot
  let okG := agree g1 g2 gt
  let w := (List.range 8).map fun i =>
    let a := e1.getD i 0
    let b := e2.getD i 0
    (f.wDef.contains (2 + i), agree a b wt, mean a b)
  { beta := if okB then some (mean b1 b2) else none
    gamma := if !f.gainDef && okG then some (mean g1 g2) else none
    eps := w.map fun (d, ok, m) => if !d && ok then some m else none
    rejected := b2n (!okB) + b2n (!f.gainDef && !okG) + (w.filter fun (d, ok, _) => !d && !ok).length }

/-- New targets from the applied parameters (R201), and the slew or step toward them. Whether a target has changed counts for the next save
(R218). -/
def State.newTargets (s : State) (n : Nat) (j : Judged) : State :=
  let a := s.applied n
  let g : Rat := ((a.gain : Int) : Rat) * (1 + j.gamma.getD 0)
  let per (x : Rat) : Rat := if g = 0 then 0 else 256 * x * 2 ^ 30 / g
  let (gr, s) := s.roundNear g
  let (gr, s) := s.fitFree 0 (2 ^ 32 - 1) gr
  let (o, s) := s.roundNear ((a.ofs : Rat) - per (j.beta.getD 0))
  let (o, s) := s.fitFree (-(2 ^ 31)) (2 ^ 31 - 1) o
  let (w, s) := (List.range 8).foldl (fun acc i =>
    -- weight i of the register row is that of bit 23 - i
    let e := (j.eps.getD (7 - i) none).getD 0
    let (x, t) := acc.2.roundNear ((a.w.getD i 0 : Int) + per e)
    let (x, t) := t.fitFree (-(2 ^ 15)) (2 ^ 15 - 1) x
    (acc.1 ++ [x], t)) (([] : List Int), s)
  let new : Params := ⟨o, gr.toNat, w⟩
  let moved := decide (s.target n ≠ new)
  ((s.setTarget n new).slewBegin n).modCal fun c => { c with changed := c.changed || moved }

/-- DEF_AGE and STALE (R202). -/
def State.gainAge (s : State) (n : Nat) (accepted : Bool) : State :=
  if accepted then (s.setFld (F.CAL.EST_STS.DEF_AGE n) 0).setBit (F.CAL.EST_STS.STALE n) false
  else
    let s := s.count (F.CAL.EST_STS.DEF_AGE n)
    let lim := s.fld F.CAL.DWELL_LIM.STALE_LIM
    if lim ≠ 0 ∧ lim ≤ s.fld (F.CAL.EST_STS.DEF_AGE n) ∧ s.bit (F.CAL.EST_STS.STALE n) = false then
      (s.setBit (F.CAL.EST_STS.STALE n) true).raiseInt Irq.stale
    else s

/-- The working slice kept a bit at one value throughout a window while the anchored spare code lay on both sides of that bit's
carry, on the other side in at least 256 conversions (R209; log entry 11). -/
def bitStuck (w : Moments) : Bool :=
  (List.range 8).any fun i =>
    let (lo, hi) := w.carry.getD i (0, 0)
    let always1 := w.andBits.testBit (16 + i)
    let always0 := !w.orBits.testBit (16 + i)
    (always1 && decide (256 ≤ lo) && decide (0 < hi)) || (always0 && decide (256 ≤ hi) && decide (0 < lo))

/-- The cross dwell's result: the pair (ρ, δ) of SLICE_33 relative to SLICE_32, accepted under the rule of R200 (R198). -/
def State.crossDecide (s : State) (d : Dwell) : State :=
  match d.idle, crossFit d.c1, crossFit d.c2 with
  | some _, some (r1, o1, q1), some (r2, o2, q2) =>
    let lim := s.fld F.CAL.QUAL_LIM.QUAL_MAX
    let spread : Rat := ((s.fld F.CAL.SPREAD_MIN.SPREAD ^ 2 : Nat) : Int)
    let rel (r o : Rat) : Rat × Rat := if d.duty = 32 then (r, o) else (if r = 0 then 0 else 1 / r, if r = 0 then 0 else -o / r)
    let (r1, o1) := rel r1 o1
    let (r2, o2) := rel r2 o2
    let gt : Rat := ((s.fld F.CAL.CAL_TOL.GAIN_TOL : Nat) : Int) / (10000000 : Rat)
    let ot : Rat := ((s.fld F.CAL.CAL_TOL.OFS_TOL : Nat) : Int) / (256 : Rat)
    if qualAtLeast q1 lim || qualAtLeast q2 lim || decide (crossSpreadSq d.c1 < spread) || decide (crossSpreadSq d.c2 < spread)
        || !agree r1 r2 gt || !agree o1 o2 ot then s
    else
      let r := (r1 + r2) / 2
      let o := (o1 + o2) / 2
      let (rr, s) := s.roundRat ((r - 1) * 2 ^ 32)
      let (rr, s) := s.fitFree (-(2 ^ 31)) (2 ^ 31 - 1) rr
      let (oo, s) := s.roundRat (o * 256)
      let (oo, s) := s.fitFree (-(2 ^ 31)) (2 ^ 31 - 1) oo
      let s := s.modCal fun c => { c with anchorDue := some (BitVec.ofInt 32 rr, BitVec.ofInt 32 oo) }
      s.when (!agree r 1 (50 / 1000000) || !agree o 0 16) fun s => s.raiseInt Irq.spareDrift
  | _, _, _ => s

/-- CAL_DECIDE (R198, R200 to R202, R209). GAIN_EST takes the mean of the two windows' γ also where the gain is rejected, and keeps its
value where it is deferred (R202; DEDUCED, log entry 11). When REJECTED is raised no rule says: a rejection on quality and any rejection on
agreement raise it (DESIGN CHOICE, log entry 79). -/
def State.calDecide (s : State) : State :=
  let s := s.phaseStep
  match s.cal.dwell with
  | none => s
  | some d =>
    if s.fld F.CAL.CAL_STS.PHASE ≠ 3 then s
    else
      let n := d.slice
      let f := s.fits d
      let ms1 := f.one.2.2.2
      let ms2 := f.two.2.2.2
      let lim := s.fld F.CAL.QUAL_LIM.QUAL_MAX
      let unit (x : Rat) : Rat := x * 10 ^ 16 / 2 ^ 48
      let (q1, s) := s.rootRat (unit ms1)
      let (q2, s) := s.rootRat (unit ms2)
      let s := (s.setFld (F.CAL.QUAL.Q1 n) (satNat 65535 q1)).setFld (F.CAL.QUAL.Q2 n) (satNat 65535 q2)
      let s := s.setFld (F.CAL.EST_STS.DEF_BITS n) ((f.wDef.map fun p => 2 ^ (p - 2)).sum)
      let s := (s.setBit (F.CAL.EST_STS.GAIN_DEF n) f.gainDef).when f.gainDef fun s => s.count F.CAL.DEFER_CNT.CNT
      let s := if f.gainDef then s
        else
          let (e, s) := s.roundRat ((f.one.1 + f.two.1) / 2 * 10 ^ 8)
          let (e, s) := s.fitFree (-(2 ^ 31)) (2 ^ 31 - 1) e
          s.setSfld (F.CAL.GAIN_EST.GAMMA n) e
      let bad := qualAtLeast ms1 lim || qualAtLeast ms2 lim
      let s := if bad then
          (((s.count F.CAL.REJ_QUAL_CNT.CNT).setFld (F.CAL.EST_STS.LAST_RESULT n) 2).raiseInt Irq.rejected).gainAge n false
        else
          let j := s.judge f
          let any := j.beta.isSome || j.gamma.isSome || j.eps.any Option.isSome
          let s := (s.count F.CAL.REJ_AGREE_CNT.CNT j.rejected).when any fun s => s.count F.CAL.ACCEPT_CNT.CNT
          let s := s.setFld (F.CAL.EST_STS.LAST_RESULT n) (if 0 < j.rejected then 3 else 1)
          let s := (s.when (decide (0 < j.rejected)) fun s => s.raiseInt Irq.rejected).gainAge n j.gamma.isSome
          if any then s.newTargets n j else s
      let s := s.crossDecide d
      let over_ := qualAbove ms1 (s.fld F.CAL.QUAL_LIM.SWAP_LIMIT) || qualAbove ms2 (s.fld F.CAL.QUAL_LIM.SWAP_LIMIT)
      let s := s.modSlice n fun x => { x with badQ := if over_ then x.badQ + 1 else 0 }
      let fails := bitStuck d.w1 || bitStuck d.w2 || decide (2 ≤ (s.getSlice n).badQ)
      let s := s.when fails fun s => s.sliceFail n
      if fails then (s.swapNow n).dwellEnd.calTryStart else s.dwellEnd.calTryStart

/-- CAL_DECIDE (R200). -/
def execCalDecide (s : State) : Host.Outcome State Fault Refusal := act State.calDecide s

/-! ## The rotation -/

/-- DWELL_MAX seconds of hub time since WARMUP began have passed: the dwell is abandoned (R194). -/
def State.dwellMax (s : State) : State :=
  match s.cal.dwell with
  | none => s
  | some d =>
    let m := s.fld F.CAL.DWELL_LIM.DWELL_MAX
    if m = 0 then s else ((s.reachNs ((d.startedAt + m * nsPerSec : Nat) + s.time.jump).toNat).dwellAbandon).calTryStart

/-- DWELL_ABANDON (R194). -/
def execDwellAbandon (s : State) : Host.Outcome State Fault Refusal := act State.dwellMax s

/-- The rotation has visited its last group. -/
def State.rotationOver (s : State) : Bool := s.calOn && s.cal.dwell.isNone && !s.cal.first && s.calNext.isNone

/-- The passes with CONV_TIMEOUT are counted afresh: a rotation begins (R209). -/
def State.timeoutsClear (s : State) : State := s.each (List.range 34) fun s n => s.modSlice n fun x => { x with timeouts := 0 }

/-- A rotation ends (R190, R195, R208, R218). -/
def State.rotationEnd (s : State) : State :=
  if s.rotationOver = false then s
  else
    let idle := 65 - s.dutySpare
    let test := decide (s.calSt = calRun)
    let (ms, s) := s.roundFree ((s.smoothNs - s.cal.rotStart : Nat) : Int) 1000000
    let s := (s.setFld F.CAL.ROT_CNT.CNT (s.fld F.CAL.ROT_CNT.CNT + 1)).setFld F.CAL.ROT_TIME.MS (satNat (2 ^ 32 - 1) ms.toNat)
    let s := s.shadowsOff.modCal fun c => { c with nextGroup := 0, first := true, testing := if test then [idle] else [] }
    let s := s.timeoutsClear
    let s := (s.raiseInt Irq.rotDone).calShow
    let passed := match s.cal.lastSave with
      | some t => decide (t + s.fld F.CAL.NVM_PERIOD.PERIOD * nsPerSec ≤ s.smoothNs)
      | none => true
    (s.when (passed && s.cal.changed && s.cal.saving.isNone) State.calSave).calTryStart

/-- ROTATION_END (R208). -/
def execRotationEnd (s : State) : Host.Outcome State Fault Refusal := act State.rotationEnd s

/-- ROT_RESTART: the dwell is abandoned, and the next rotation starts at group 00 (R221). -/
def State.rotRestart (s : State) : State :=
  (s.dwellAbandon.timeoutsClear.modCal fun c => { c with nextGroup := 0, first := true }).calTryStart

/-- ROT_RESTART (R221). -/
def execRotRestart (s : State) : Host.Outcome State Fault Refusal := actW State.rotRestart s

/-- A write of CAL_CTL.EN (R214, R215). -/
def State.calEnWrite (s : State) (en : Bool) : State :=
  let s := s.setBit F.CAL.CAL_CTL.EN en
  let st := s.calSt
  if !en && (decide (st = calRun) || decide (st = calSingle) || decide (st = calNoSpare)) then
    (s.dwellAbandon.shadowsOff).calEnter calOff
  else if en && decide (st = calOff) then (s.calEnter s.calBySpares).calTryStart
  else s

/-- CAL_EN_WRITE (R215). -/
def execCalEnWrite (en : Bool) (s : State) : Host.Outcome State Fault Refusal := actW (·.calEnWrite en) s

/-- A CAL page commit takes effect: at once where no dwell begins, else with the start of the next dwell (R221). -/
def State.calCommit (s : State) : State :=
  if s.commitDue pgCAL = false then s
  else if s.calSt = calOff ∨ s.calSt = calNoSpare ∨ s.calSt = calStopped then s.commitApply pgCAL
  else s.calTryStart

/-- CAL_COMMIT_APPLY (R221). -/
def execCalCommitApply (s : State) : Host.Outcome State Fault Refusal := act State.calCommit s

/-! ## Loading and REINIT (R189, R220) -/

/-- The role and group of a slice as shipped (R148). -/
def shippedRole (n : Nat) : Nat × Nat := if n < 32 then (roleWorking, n) else (roleIdle, 0)

/-- The parameters, roles and anchors of a copy take effect, without slewing (R189). A spare shows its factory parameters. -/
def State.calLoad (s : State) (c : CalCopy) : State :=
  let s := s.each (List.range 34) fun s n =>
    let (r, g) := c.roles.getD n (shippedRole n)
    let r := if r = roleShadow then roleIdle else r
    let p := if r = roleIdle then s.factory n else c.targets.getD n (s.factory n)
    (((s.setRoleGroup n r g).setApplied n p).setTarget n p).modSlice n fun x => { x with slew := none, stepDue := false, swapDue := false }
  let s := (s.setFld F.CAL.ANCHOR_RHO.RHO c.rho.toNat).setFld F.CAL.ANCHOR_DELTA.DELTA c.delta.toNat
  let s := s.setFld F.CAL.ROT_CNT.CNT (b2n c.odd)
  let s := s.setFld F.CAL.SWAP_STS.SWAP_CNT (((List.range 34).filter fun n => decide (s.slRole n = roleRetired)).length)
  s.calShow

/-- The start-up self-test of all slices begins (R208, R214). -/
def State.startTest (s : State) : State :=
  (((s.setFld F.CAL.CAL_STS.STATE calSelftest).each (List.range 34) fun s n =>
    s.setBit (F.CAL.EST_STS.SELFTEST_FAIL n) false).timeoutsClear).modCal fun c =>
      { c with testing := List.range 34, dwell := none, nextGroup := 0, first := true, anchorDue := none }

/-- Calibration enters STOPPED: factory parameters apply to every slice, with ρ = 1 and δ = 0, and no dwell and no save runs (R214, R220).
Roles stay as they are: what clears a retirement is REINIT. -/
def State.calStop (s : State) : State :=
  let s := s.dwellEnd.shadowsOff.calSaveDrop
  let s := s.each (List.range 34) fun s n =>
    let p := s.factory n
    let s := ((s.setApplied n p).setTarget n p).modSlice n fun x => { x with slew := none, stepDue := false }
    (s.setBit (F.CAL.EST_STS.SLEWING n) false).setFld (F.CAL.SLEW_REMAIN.TICKS n) 0
  let s := ((s.setFld F.CAL.ANCHOR_RHO.RHO 0).setFld F.CAL.ANCHOR_DELTA.DELTA 0).setFld F.CAL.CAL_STS.PHASE 0
  (s.modCal fun c => { c with testing := [], nextGroup := 0, first := true, anchorDue := none }).calEnter calStopped

/-- REINIT in STOPPED writes copy A from the factory-trim partition, and restarts at SELFTEST if it verifies (R220). -/
def State.calReinit (s : State) (ok : Bool) : State :=
  if s.calSt ≠ calStopped then s
  else if ok then
    let c : CalCopy := { gen := 1, valid := true, targets := (List.range 34).map s.factory, roles := (List.range 34).map shippedRole }
    let s := s.modMram fun m => { m with calA := c }
    let s := s.modRim fun r => { r with injected := r.injected.filter fun e => decide (e ≠ (pgNVM, 10)) }
    (s.calLoad c).startTest
  else (s.calSpoil false).raiseFault Flt.calWrFail

/-- REINIT (R220). -/
def execReinit (ok : Bool) (s : State) : Host.Outcome State Fault Refusal := actW (·.calReinit ok) s

end Sys2Proof.Machine
end

