-- ==== Sys2Proof/Machine/FrontEnd.lean ====
section
/-!
DEFINITION. Inputs, excitation and blanking (R116 to R143), and the boundary at the end of a pass, where range changes, early
window closes and channel-table commits take effect (R125, R165, R254).
-/

namespace Sys2Proof.Machine

/-! ## Excitation (R119 to R124) -/

/-- The front ends are powered: the hub is AWAKE, ENTERING or WAKING (R476, R478, R480). -/
def State.awake (s : State) : Bool :=
  decide (s.fld F.NVM.PWR_STS.STATE = 1) || decide (s.fld F.NVM.PWR_STS.STATE = 2) || decide (s.fld F.NVM.PWR_STS.STATE = 4)

/-- The hub is ASLEEP (R478). -/
def State.isAsleep (s : State) : Bool := decide (s.fld F.NVM.PWR_STS.STATE = 3)

/-- EXD_gg is driven (R119, R406). -/
def State.exdDriven (s : State) (g : Nat) : Bool :=
  s.leads && s.bit (F.FE.EXC_CTL.EXC_EN g) && !s.pair.exdWait && (s.awake || (s.isAsleep && !s.bit (F.FE.EXC_CTL.SLEEP_OFF g)))

/-- With REG clear the DAC code equals EXC_SET; a standby trims its code instead (R121, R406). -/
def State.dacFollow (s : State) (g : Nat) : State :=
  if s.follows = false ∧ s.bit (F.FE.EXC_CTL.REG g) = false then
    s.setFld (F.FE.EXC_DAC.CODE g) (s.fld (F.FE.EXC_SET.SET g))
  else s

/-- Moves a DAC code by up to 8 LSB toward a code (R121). -/
def dacStep (cur need : Nat) : Nat :=
  let goal := min need 65535
  if cur + 8 < goal then cur + 8 else if goal + 8 < cur then cur - 8 else goal

/-- The sense monitor's mean over the last 1 ms is `mean`; with REG set the DAC code moves toward the code `need` at which
EXC_SENSE equals EXC_SET (R120, R121). In sleep EXD_gg keeps its code (R124). -/
def State.excRegulate (s : State) (g mean need : Nat) : State :=
  let s := s.setFld (F.FE.EXC_SENSE.SENSE g) mean
  if s.bit (F.FE.EXC_CTL.REG g) && !s.follows && s.awake then
    (s.setFld (F.FE.EXC_DAC.CODE g) (dacStep (s.fld (F.FE.EXC_DAC.CODE g)) need)).when (decide (65535 < need)) fun s =>
      s.raiseInt (Irq.excLimit g)
  else s

/-- EXC_REGULATE (R121). -/
def execExcRegulate (g : Fin 32) (mean : BitVec 16) (need : Nat) (s : State) : Host.Outcome State Fault Refusal :=
  act (·.excRegulate g.val mean.toNat need) s

/-- V_S falls below the threshold; an EXC_MIN of 0 disables the comparator (R122). -/
def State.excFalls (s : State) (g : Nat) : State :=
  if s.fld (F.FE.EXC_MIN.MIN g) = 0 ∨ (s.getGroup g).excLow then s
  else (s.modGroup g fun x => { x with excLow := true, excLowAt := s.time.cycles }).raiseInt (Irq.excLow g)

/-- EXC_LOW (R122). -/
def execExcLow (g : Fin 32) (s : State) : Host.Outcome State Fault Refusal := act (·.excFalls g.val) s

/-- V_S rises back above the threshold with its hysteresis (R122). -/
def State.excRises (s : State) (g : Nat) : State := s.modGroup g fun x => { x with excLow := false }

/-- EXC_SENSE_RESTORED (R122). -/
def execExcSenseRestored (g : Fin 32) (s : State) : Host.Outcome State Fault Refusal := act (·.excRises g.val) s

/-- EXD_MON: the output monitor finds EXD_gg off its code; the hub keeps driving it (R123). -/
def execExdMon (g : Fin 32) (s : State) : Host.Outcome State Fault Refusal := act (·.raiseFault (Flt.exdMon g.val)) s

/-- The excitation sense check applies to a channel: in VBRIDGE, and in any mode with EXC_CHECK set (R134). -/
def State.excApplies (s : State) (c : Nat) : Bool :=
  decide (s.fld (F.CH.FE_CFG.MODE c) = modeVbridge) || s.bit (F.CH.FE_CFG.EXC_CHECK c)

/-- The excitation sense check fails on a channel now. -/
def State.excFailing (s : State) (c : Nat) : Bool :=
  s.excApplies c && decide (s.fld (F.FE.EXC_MIN.MIN (c / 16)) ≠ 0) && (s.getGroup (c / 16)).excLow

/-- The excitation sense comparator of group `g` has seen V_S low for 200 ns: the window of a conversion that ends now has met it
(R135). -/
def State.excLowSeen (s : State) (g : Nat) : Bool := (s.getGroup g).excLow && decide ((s.getGroup g).excLowAt + 100 ≤ s.time.cycles)

/-- The ITIA and QCHG stages of the hub are parked: in every role but SOLO and ACTIVE, and until a takeover connects them
(R377, R406). -/
def State.parked (s : State) (c : Nat) : Bool :=
  let m := s.fld (F.CH.FE_CFG.MODE c)
  (decide (m = modeItia) || decide (m = modeQchg)) && (!s.leads || s.pair.exdWait)

/-- A front-end overload detector fires or releases (R117). -/
def State.overloadChange (s : State) (c : Nat) (firing : Bool) : State :=
  let was := s.bit (F.CH.FE_STS.OVL c)
  let s := s.setBit (F.CH.FE_STS.OVL c) firing
  s.when (was && !firing) fun s => s.modChan c fun x => { x with ovlRel := some s.elapsedNs }

/-- OVERLOAD_CHANGE (R117). -/
def execOverloadChange (c : Fin 512) (firing : Bool) (s : State) : Host.Outcome State Fault Refusal :=
  act (·.overloadChange c.val firing) s

/-! ## Blanking (R139 to R142) -/

/-- A selected BLANK_N_n is low. -/
def State.blankAsked (s : State) (g : Nat) : Bool :=
  decide (BitVec.ofNat 4 (s.fld (F.FE.BLANK_CTL.SEL g)) &&& ~~~ s.pins.blankN ≠ 0)

/-- GUARD in cycles; values above 1,000 µs act as 1,000. -/
def State.guardCycles (s : State) (g : Nat) : Nat := min 1000 (s.fld (F.FE.BLANK_CTL.GUARD g)) * 500

/-- The interval starts (R139, R142). -/
def State.blankStart (s : State) (g : Nat) : State :=
  let s := s.modGroup g fun x => { x with blank := true, edges := ((s.elapsedNs, true) :: x.edges).take 16 }
  let s := (s.setFld (F.FE.BLANK_START.NS32 g) s.ns32).setFld (F.FE.BLANK_END.NS32 g) 0
  (s.setBit (F.FE.BLANK_STS.ACTIVE g) true).raiseInt (Irq.blankStart g)

/-- The interval ends, guard included (R139, R142). -/
def State.blankEnd (s : State) (g : Nat) : State :=
  let s := s.modGroup g fun x => { x with blank := false, guardAt := none, edges := ((s.elapsedNs, false) :: x.edges).take 16 }
  let s := (s.setFld (F.FE.BLANK_END.NS32 g) s.ns32).setBit (F.FE.BLANK_STS.ACTIVE g) false
  (s.setBit (F.FE.BLANK_STS.IN_GUARD g) false).raiseInt (Irq.blankEnd g)

/-- The guard that runs has lasted GUARD µs: the interval ends. -/
def State.guardCheck (s : State) (g : Nat) : State :=
  match (s.getGroup g).guardAt with
  | some t => if t + s.guardCycles g ≤ s.time.cycles then s.blankEnd g else s
  | none => s

/-- The interval of a group follows its pins, its selection and its guard (R139). -/
def State.blankEval (s : State) (g : Nat) : State :=
  let x := s.getGroup g
  if s.blankAsked g then
    if x.blank then (s.modGroup g fun x => { x with guardAt := none }).setBit (F.FE.BLANK_STS.IN_GUARD g) false
    else s.blankStart g
  else if x.blank ∧ x.guardAt = none then
    ((s.modGroup g fun x => { x with guardAt := some s.time.cycles }).setBit (F.FE.BLANK_STS.IN_GUARD g) true).guardCheck g
  else s.guardCheck g

/-- The level of BLANK_N_n. -/
def Pins.setBlank (n : Nat) (level : Bool) (p : Pins) : Pins :=
  let m : BitVec 4 := BitVec.ofNat 4 (2 ^ n)
  { p with blankN := if level then p.blankN ||| m else p.blankN &&& ~~~ m }

/-- A BLANK_N_n changes level (R139). -/
def State.blankEdge (s : State) (n : Nat) (level : Bool) : State :=
  (s.modPins (Pins.setBlank n level)).each (List.range 32) State.blankEval

/-- BLANK_EDGE (R139). -/
def execBlankEdge (n : Fin 4) (level : Bool) (s : State) : Host.Outcome State Fault Refusal :=
  actPin (Pins.setBlank n.val level) (·.blankEdge n.val level) s

/-- The guard reaches its end (R139). -/
def State.guardExpire (s : State) (g : Nat) : State :=
  match (s.getGroup g).guardAt with
  | some t => (s.reachCycles (t + s.guardCycles g)).guardCheck g
  | none => s

/-- BLANK_GUARD_EXPIRE (R139). -/
def execBlankGuardExpire (g : Fin 32) (s : State) : Host.Outcome State Fault Refusal := act (·.guardExpire g.val) s

/-- A write of BLANK_CTL re-evaluates the interval at once (R139). -/
def State.writeBlankCtl (s : State) (g : Nat) (v : Reg) : State :=
  ((s.setFld (F.FE.BLANK_CTL.SEL g) (getBits v 0 4)).setFld (F.FE.BLANK_CTL.GUARD g) (getBits v 16 10)).blankEval g

/-- BLANK_CTL_WRITE (R139). -/
def execBlankCtlWrite (g : Fin 32) (v : Reg) (s : State) : Host.Outcome State Fault Refusal := actW (·.writeBlankCtl g.val v) s

/-- The blanking state at 24 ns before now: an edge 28 ns old or older has taken effect, one less than 20 ns old has not, and
one between is free (R140; log entry 3). `acc` is the state that holds before the oldest edge listed. -/
def State.blankWalk (s : State) : List (Nat × Bool) → Bool × State
  | [] => (false, s)
  | (at_, st) :: rest =>
    let age := s.elapsedNs - at_
    if 28 ≤ age then (st, s)
    else if age < 20 then (if rest.isEmpty then (!st, s) else s.blankWalk rest)
    else if Config.freeRound s.free then (st, { s with free := s.free + 1 })
    else
      let s := { s with free := s.free + 1 }
      if rest.isEmpty then (!st, s) else s.blankWalk rest

/-- The tick holds of a group are skipped (R140). -/
def State.holdSkipped (s : State) (g : Nat) : Bool × State := s.blankWalk (s.getGroup g).edges

/-! ## The boundary at the end of a pass (R125 to R127, R159, R165, R235, R241, R244, R252, R254) -/

/-- What happens to one channel at the boundary: whether its front end sees a range change and its new setting, and the markers
that follow its window. -/
structure Turn where
  host : Bool := false
  auto : Bool := false
  qrst : Bool := false
  set : FeSet
  marks : List ChMarker := []
deriving DecidableEq, Repr

/-- The value a register takes with the staged values of its page. -/
def State.merged (s : State) (a rws : Nat) : Reg :=
  let m := BitVec.ofNat 32 rws
  (s.reg a &&& ~~~ m) ||| (s.stg a &&& m)

/-- The fields of FE_CFG, AVG_CFG, RED_CFG, STATS_CFG and STREAM_CFG that a commit writes (R144, R181, R254). -/
abbrev rwsFeCfg : Nat := 0x31377
abbrev rwsAvgCfg : Nat := 0x30FFF
abbrev rwsRedCfg : Nat := 0xFCF11F0F
abbrev rwsStatsCfg : Nat := 0x1FFFFFF

/-- The turn of a channel: `commit` says that the channel-table page takes its staged values now, and `rate` whether causes 0
and 1 of R165 hold for it; `low` is the range its stream is on and `swap` a range that autorange has decided. A commit that clears AR_EN on
the less sensitive range moves the channel to the range that FB names; R125 does not list it, and to take it as a host range change is
the model's choice (DESIGN CHOICE, log entry 77). -/
def State.turnOf (s : State) (c : Nat) (commit cause0 cause1 low : Bool) (swap : Option Bool) : Turn :=
  let a := (F.CH.FE_CFG.MODE c).addr
  let x := s.getChan c
  let now := feSet (s.reg a) low
  let cfg := if commit then s.merged a rwsFeCfg else s.reg a
  let next := feSet cfg now.low
  let moved := decide (next.mode ≠ now.mode)
    || ((decide (now.mode = modeVdiff) || decide (now.mode = modeVbridge)) && decide (next.gain ≠ now.gain))
    || ((decide (now.mode = modeItia) || decide (now.mode = modeQchg)) && (decide (next.fb ≠ now.fb) || (now.low && !next.ar)))
  let next : FeSet := { next with low := !moved && now.low }
  let sw := if moved || !next.ar then none else swap
  let set : FeSet := match sw with
    | some d => { next with low := d }
    | none => next
  let qrst := x.dis && decide (now.mode = modeQchg) && decide (set.mode = modeQchg)
  let on := decide (now.mode ≠ modeOff)
  let avg := (F.CH.AVG_CFG.N_M1 c).addr
  let cause3 := commit && decide ((s.reg avg ^^^ s.merged avg rwsAvgCfg) ≠ 0)
  let rate (b : Bool) (k : Nat) : List ChMarker := if b && on then [.rateChange c k 0] else []
  { host := moved, auto := sw.isSome, qrst := qrst, set := set
    marks := (if moved then [rangeMark c set false false] else if sw.isSome then [rangeMark c set true false] else [])
      ++ (if qrst then [rangeMark c set false true] else [])
      ++ rate cause0 0 ++ rate cause1 1 ++ rate cause3 3 }

/-- The window of a channel closes early with its markers, under the settings in force until now (R126, R165). -/
def State.turnClose (s : State) (c : Nat) (t : Turn) : State :=
  if t.marks.isEmpty then s else s.avgEarly c (t.host || t.auto || t.qrst) t.marks

/-- What a channel-table commit does to the chain of a channel before its new values are in force: the FIR restarts, STREAM
closes its packet, and STATS its window (R235, R241, R244). -/
def State.chainCommit (s : State) (c : Nat) (t : Turn) : State :=
  let red := (F.CH.RED_CFG.QSEL c).addr
  let d := s.reg red ^^^ s.merged red rwsRedCfg
  let firEn := s.bit (F.CH.RED_CFG.FIR_EN c)
  let firNew := (s.merged red rwsRedCfg).getLsbD 16
  let restarted := firEn && t.marks.any restarts
  let s := s.when (decide (d &&& 0x11F0F#32 ≠ 0) && (firEn || firNew) && !restarted) fun s =>
    s.firRestart c (.rateChange c 3 (s.getChan c).fir.phase)
  let s := s.when (decide (d &&& 0xFC300000#32 ≠ 0)) fun s => s.streamClose c
  let st := (F.CH.STATS_CFG.W_M1 c).addr
  let stats := decide (d &&& 0x00500000#32 ≠ 0) || decide ((s.reg st ^^^ s.merged st rwsStatsCfg) ≠ 0)
  s.when stats fun s => (s.statsClose c true).modChan c fun x => { x with stats := {} }

/-- The staged values of one channel's entry become running (R514). -/
def State.entryTake (s : State) (c : Nat) : State :=
  let base := (F.CH.FE_CFG.MODE c).addr
  s.each ((rwsRegs (pgCHTAB (c / 16))).filter fun e => decide (base ≤ e.1) && decide (e.1 < base + 0x80)) State.takeStaged

/-! ### What the boundary does beside the chain -/

/-- CH, THRESH and HYST as the registers hold them. -/
def State.sentRegs (s : State) (n : Nat) : Nat × Reg × Reg :=
  (s.fld (F.SENT.CFG.CH n), s.reg (F.SENT.THRESH.HI n).addr, s.reg (F.SENT.HYST.HYST n).addr)

/-- CH, THRESH and HYST in force: a change waits until the sentinel is free (R179). -/
def State.sentInForce (s : State) (n : Nat) : Nat × Reg × Reg := (s.getSent n).old.getD (s.sentRegs n)

/-- The sentinels that watch channel `c` are disarmed: on a channel in MODE OFF none is armed (R179). -/
def State.sentOff (s : State) (c : Nat) : State :=
  s.each (List.range 16) fun s n => if (s.sentInForce n).1 = c then s.modSent n fun x => { x with armed := false } else s

/-- The front end of a channel takes its new setting (R118, R125, R128, R179). -/
def State.turnFront (s : State) (c : Nat) (old : FeSet) (t : Turn) : State :=
  let change := t.host || t.auto || t.qrst
  let s := s.setBit (F.CH.FE_STS.AR_LOW c) t.set.low
  let s := s.when change fun s =>
    (s.count (F.CH.RANGE_SW_CNT.CNT c) (b2n (t.host || t.auto) + b2n t.qrst)).modChan c fun x =>
      { x with rngAt := some (laterSettle s.elapsedNs (settleNs old t.set) x.rngAt) }
  let s := (s.when t.auto fun s => s.raiseInt (Irq.rangeSw (c / 16))).when (decide (t.set.mode = modeOff)) fun s => s.sentOff c
  s.modChan c fun x => { x with swap := none, dis := x.dis && s.follows, dn := if change then 0 else x.dn }

/-- The part of a channel after its new values are in force: RAIN takes waiting values where it can no longer dump, a reducer
enabled afresh forgets its last periodic dump, and a channel that leaves OFF has no last value (R141, R250, R252). -/
def State.turnAfter (s : State) (c : Nat) (wasOn hadRain : Bool) : State :=
  let s := s.when (s.bit (F.CH.RED_CFG.RAIN_EN c) && !hadRain) fun s => s.modRain c fun r => { r with lastS := none }
  let s := if s.rainCan c then s else s.rainTake c
  s.when (!wasOn && s.chEnabled c) fun s => s.modChan c fun x => { x with lastVal := 0, opnPass := 0, opnHold := none, opnHoldOk := true }

/-- The turn of one channel; `stream` says that the hub builds its streams from its own codes. -/
def State.turnChan (s : State) (commit cause0 : Bool) (cause1 : Nat → Bool) (stream : Bool) (low : Bool) (swap : Option Bool)
    (c : Nat) : State :=
  let old := s.feNow c
  let t := s.turnOf c commit cause0 (cause1 c) low swap
  let on := s.chEnabled c
  let rain := s.bit (F.CH.RED_CFG.RAIN_EN c)
  let s := s.when stream fun s => (s.turnClose c t).when commit fun s => s.chainCommit c t
  let s := s.when commit fun s => s.entryTake c
  (s.turnFront c old t).turnAfter c on rain

/-- A bank switch of a group is due: the switch, and per local channel whether it changes L or the SRC 0 conversions of some
segment (R159, R165). -/
def State.bankTurn (s : State) (g : Nat) : Bool × (Nat → Bool) :=
  let p := pgSLICE g
  let old := s.actBank g
  let new := getBits (s.stg (F.SLICE.SLICE_CTL.ACT_BANK g).addr) 0 1 ≠ 0
  if s.commitDue p && decide (new ≠ old) then
    let a := segments (s.bankEntries g old)
    let b := segments (s.bankEntries g new)
    let perCh (l : Nat) (x : List (List Reg × Nat)) : List Nat := x.flatMap fun e => List.replicate e.2 (segConvs l e.1)
    (true, fun c => decide (segCount a ≠ segCount b) || decide (perCh (c % 16) a ≠ perCh (c % 16) b))
  else (false, fun _ => false)

/-- The FACTORS record of a channel (R383). -/
def State.factorsOf (s : State) (c : Nat) : LinkRec :=
  let f (k : Nat) : Nat := getBits (s.reg ((F.CH.FE_CFG.MODE c).addr + 8 + 4 * k)) 0 24
  .factors c (f 0) (f 1) (f 2) (f 3)

/-- Factors that a commit has changed go to the partner. -/
def State.sendFactors (s : State) (g : Nat) (before : State) : State :=
  s.when s.mirrored fun s => s.each ((List.range 16).map (16 * g + ·)) fun s c =>
    if s.factorsOf c = before.factorsOf c then s else s.linkSend (s.factorsOf c)

/-- The boundary of group `g`: everything that waits for it takes effect (R125, R159, R165, R254). `edge` says that a pass has ended
or a tick is being issued: the instants at which a bank is switched. -/
def State.groupBoundary (s : State) (g : Nat) (stream edge : Bool) : State :=
  let before := s
  let commit := s.commitDue (pgCHTAB g)
  let (sw, c1) := if edge then s.bankTurn g else (false, fun _ => false)
  let c0 := (s.getGroup g).closeDue
  let s := s.each ((List.range 16).map (16 * g + ·)) fun s c =>
    s.turnChan commit c0 c1 stream (s.bit (F.CH.FE_STS.AR_LOW c)) (s.getChan c).swap c
  let s := s.modGroup g fun x => { x with closeDue := false }
  let s := s.when commit fun s => (s.sendFactors g before).commitEnd (pgCHTAB g)
  let s := s.when (edge && s.commitDue (pgSLICE g)) fun s => s.commitApply (pgSLICE g)
  s.when sw fun s => s.raiseInt (Irq.bankSwitched g)

/-- A pass of the group's slice is in progress. -/
def State.passRuns (s : State) (g : Nat) : Bool := (s.getSlice (s.serving g)).pass.isSome

/-- On a standby or joining hub the boundary of the mirrored stream comes with the codes; the front end alone follows here
(R386, R387). -/
def State.frontBoundary (s : State) (g : Nat) : State :=
  s.each (List.range 16) fun s l =>
    let c := 16 * g + l
    let low := (s.getGroup g).arLow.getLsbD l
    let old := s.feNow c
    if old.ar && decide (low ≠ old.low) then s.turnFront c old { auto := true, set := { old with low := low } } else s

/-- One channel at a boundary of the mirrored stream. Of the front end it changes what a commit changes; a range switch of autorange
and a discharge are those of the active (R386, R387). `ready` says that a discharge asked for takes effect here. -/
def State.mirrorChan (s : State) (commit cause0 : Bool) (cause1 : Nat → Bool) (ready : Bool) (swap : Option Bool) (c : Nat) :
    State :=
  let low := (s.getGroup (c / 16)).arLow.getLsbD (c % 16)
  let old := s.feNow c
  let t := (if ready then s else s.modChan c fun x => { x with dis := false }).turnOf c commit cause0 (cause1 c) low swap
  let on := s.chEnabled c
  let rain := s.bit (F.CH.RED_CFG.RAIN_EN c)
  let s := (s.turnClose c t).when commit fun s => s.chainCommit c t
  let s := s.when commit fun s => s.entryTake c
  let s := s.when t.host fun s => s.turnFront c old { t with auto := false, qrst := false }
  let s := s.when ready fun s => s.modChan c fun x => { x with dis := false }
  let bit : BitVec 16 := BitVec.ofNat 16 (2 ^ (c % 16))
  let s := s.modGroup (c / 16) fun x => { x with arLow := if t.set.low then x.arLow ||| bit else x.arLow &&& ~~~ bit }
  s.turnAfter c on rain

/-- A commit of page `p` on a standby or joining hub takes effect ahead of the codes of tick `idx`; it waits for the tick it was
scheduled for. -/
def State.mirrorDue (s : State) (p : Nat) (idx : Option Nat) : Bool :=
  match s.commitOf p, idx with
  | some c, some i => c.at_.isNone && decide (c.rel ≤ i)
  | _, _ => false

/-- The boundary of group `g` in the mirrored stream: ahead of the codes of tick `idx`, or with no commits where none is given
(R386, R387). -/
def State.mirrorBoundary (s : State) (g : Nat) (idx : Option Nat) (swap : Nat → Option Bool) : State :=
  let commit := s.mirrorDue (pgCHTAB g) idx
  let bank := s.mirrorDue (pgSLICE g) idx
  let (sw, c1) := if bank then s.bankTurn g else (false, fun _ => false)
  let ready := match idx with
    | some i => decide ((s.getGroup g).turnIdx < i)
    | none => true
  let c0 := (s.getGroup g).closeDue && ready
  let s := s.each ((List.range 16).map (16 * g + ·)) fun s c => s.mirrorChan commit c0 c1 ready (swap c) c
  let s := s.when ready fun s => s.modGroup g fun x => { x with closeDue := false }
  let s := s.when commit fun s => s.commitEnd (pgCHTAB g)
  let s := s.when bank fun s => s.commitApply (pgSLICE g)
  s.when sw fun s => s.raiseInt (Irq.bankSwitched g)

/-- Group `g` gives no codes: its weave bank converts no enabled channel. -/
def State.groupSilent (s : State) (g : Nat) : Bool := (List.range 16).all fun l => !(s.chEnabled (16 * g + l) && s.hasTicks (16 * g + l))

/-- A discharge or a closure that a standby or joining hub has been asked for is due: the codes of every tick up to then have been
entered. -/
def State.mirrorReady (s : State) (g : Nat) : Bool :=
  let x := s.getGroup g
  let asked := x.closeDue || (List.range 16).any fun l => (s.getChan (16 * g + l)).dis
  asked && (s.groupSilent g || (match s.pair.lastPass.find? fun e => decide (e.1 = g) with
    | some e => decide (x.turnIdx ≤ e.2.2)
    | none => true))

/-- What a standby or joining hub does at the end of a pass of its own slice, or when a decision arrives. -/
def State.mirrorNow (s : State) (g : Nat) : State :=
  let s := s.frontBoundary g
  if s.mirrorReady g then s.mirrorBoundary g none fun _ => none else s

/-- Where no pass of a group is in progress, what waits for the end of a pass takes effect at once, but for a bank switch, which
waits for the next tick (R125, R159, R165). -/
def State.boundaryNow (s : State) (g : Nat) (edge : Bool) : State :=
  if s.passRuns g then s
  else if s.follows then s.mirrorNow g
  else s.groupBoundary g s.leads edge

/-- A channel-table commit takes effect (R254). -/
def State.chtabApply (s : State) (g : Nat) : State :=
  if s.commitDue (pgCHTAB g) ∧ s.follows = false then s.boundaryNow g false else s

/-- CHTAB_COMMIT_APPLY (R254). -/
def execChtabCommitApply (g : Fin 32) (s : State) : Host.Outcome State Fault Refusal := act (·.chtabApply g.val) s

/-- A discharge is asked for the QCHG channels of a mask (R116). -/
def State.qresetOn (s : State) (g : Nat) (mask : BitVec 16) : State :=
  let s := s.each (List.range 16) fun s l =>
    if mask.getLsbD l ∧ s.fld (F.CH.FE_CFG.MODE (16 * g + l)) = modeQchg then
      s.modChan (16 * g + l) fun x => { x with dis := true }
    else s
  let s := s.when s.follows fun s => s.modGroup g fun x => { x with turnIdx := s.lastIdx }
  s.boundaryNow g false

/-- A write of FE_gg.QRESET; an ACTIVE hub passes it on (R116, R387). -/
def State.writeQreset (s : State) (g : Fin 32) (mask : BitVec 16) : State :=
  s.ifNotFollowing fun s => (s.sendDecision (.qreset g mask)).qresetOn g.val mask

/-- QRESET (R116). -/
def execQreset (g : Fin 32) (mask : BitVec 16) (s : State) : Host.Outcome State Fault Refusal := actW (·.writeQreset g mask) s

end Sys2Proof.Machine
end

