-- ==== Sys2Proof/Machine/Passes.lean ====
section
/-!
DEFINITION. The passes of the slices (R148 to R160): conversions, waits, time-outs and the end of a pass, with the open-input
checks (R134 to R137), autorange (R129 to R133) and the mirroring of codes (R384, R386).
-/

namespace Sys2Proof.Machine

/-! ## What a conversion gives (R130, R384, R386) -/

/-- The decade factor F of the pair of ranges of a channel: DEC_F0 to DEC_F2 in ITIA with FB 1 to 3, DEC_F3 in QCHG (R144). -/
def State.decK (s : State) (c : Nat) : Nat := if s.fld (F.CH.FE_CFG.MODE c) = modeQchg then 3 else s.fld (F.CH.FE_CFG.FB c) - 1

/-- The field DEC_Fk of a channel. -/
def decFld (c k : Nat) : Fld := ⟨(F.CH.FE_CFG.MODE c).addr + 8 + 4 * k, 0, 24⟩

/-- The hub's own factor. -/
def State.ownFactor (s : State) (c : Nat) : Nat := s.fld (decFld c (s.decK c))

/-- The value of a corrected code (R130). -/
def rangeValue (code : Int) (low : Bool) (f : Nat) : Int := if low then decadeValue code f else code

/-- A mirrored code word (R384). -/
def codeWord (code : Int) (low : Bool) (fl : Flags) : Reg :=
  BitVec.ofNat 32 ((if fl.blk then 0 else unsigned 24 code) * 2 ^ 8 + b2n low * 2 ^ 7 + b2n fl.ovr * 2 ^ 6 + b2n fl.blk * 2 ^ 5
    + b2n fl.rtr * 2 ^ 4 + b2n fl.opn * 2 ^ 3 + b2n fl.cals * 2 ^ 2)

/-- A yielding ACTIVE hub produces nothing for ticks after Y (R402). -/
def State.produces (s : State) (idx : Nat) : Bool :=
  match s.pair.yst with
  | .none => true
  | .deciding y _ => decide (idx ≤ y)
  | .finalSent y _ => decide (idx ≤ y)
  | .closing y _ => decide (idx ≤ y)
  | .yielded y _ => decide (idx ≤ y)
  | .abandoned => false

/-- Changes the pass in progress of slice `n`. -/
def State.modPass (s : State) (n : Nat) (f : Pass → Pass) : State := s.modSlice n fun x => { x with pass := x.pass.map f }

/-! ## The health check (R399) -/

/-- The flags of a mirrored code word (R384). -/
def codeFlags (w : Reg) : Flags :=
  { ovr := w.getLsbD 6, blk := w.getLsbD 5, rtr := w.getLsbD 4, opn := w.getLsbD 3, cals := w.getLsbD 2 }

/-- The code of a mirrored code word. -/
def codeOf (w : Reg) : Int := signed 24 (getBits w 8 24)

/-- WIN_LOG2, clamped to 8 to 20. -/
def State.hcWin (s : State) : Nat := 2 ^ max 8 (min 20 (s.fld F.PAIR.HC_CTL.WIN_LOG2))

/-- The bit of a channel in HC_FAIL. -/
def hcFailFld (c : Nat) : Fld := ⟨0x00D0C0 + 4 * (c / 32), c % 32, 1⟩

/-- 16 times the RMS of a window, to a whole number that the spec does not say how to round (log entry 3). -/
def State.hcRms (s : State) (sq n : Nat) : Nat × State :=
  let r := isqrt (256 * sq / n)
  if r * r * n = 256 * sq then (r, s)
  else
    let (up, s) := s.drawTruth
    (if up then r + 1 else r, s)

/-- A window of the health check is complete. -/
def State.hcClose (s : State) (c : Nat) (h : Hc) : State :=
  let (m, s) := s.roundFree (16 * h.sum) h.n
  let (r, s) := s.hcRms h.sq h.n
  let next : Hc := { mean := BitVec.ofNat 32 (unsigned 32 m), rms := BitVec.ofNat 32 (satNat (2 ^ 32 - 1) r) }
  let s := s.modPair fun p => { p with hc := sset {} p.hc c next }
  let tm := s.fld F.PAIR.HC_MEAN_TOL.TOL
  let tr := s.fld F.PAIR.HC_RMS_TOL.TOL
  let bad := decide (tm * h.n < 16 * h.sum.natAbs) || decide (tr * tr * h.n < 256 * h.sq)
  let was := s.bit (hcFailFld c)
  (s.setBit (hcFailFld c) bad).when (bad && !was) fun s => s.raiseInt Irq.hcFail

/-- A pair of codes of one conversion is compared. -/
def State.hcPair (s : State) (c : Nat) (d : Int) : State :=
  let h := sget {} s.pair.hc c
  let h := { h with n := h.n + 1, sum := h.sum + d, sq := h.sq + d.natAbs * d.natAbs }
  if s.hcWin ≤ h.n then s.hcClose c h else s.modPair fun p => { p with hc := sset {} p.hc c h }

/-- Neither code carries a flag that leaves the pair out. -/
def hcClean (f : Flags) : Bool := !(f.blk || f.opn || f.rtr || f.ovr)

/-- An own code of a standby and the mirrored code of the same conversion, if the pair is compared. -/
def State.hcMeet (s : State) (o : OwnCode) (w : Reg) : State :=
  if hcClean o.fl && hcClean (codeFlags w) && decide (o.low = w.getLsbD 7) && !o.parked then
    s.hcPair (16 * o.group + o.l) (o.code - codeOf w)
  else s

/-- A mirrored code arrives: it meets the own code of its conversion, or waits for it. -/
def State.hcCheck (s : State) (m : MirrCode) : State :=
  if s.role ≠ roleStandby then s
  else
    match s.pair.own.find? fun o => decide (o.idx = m.idx ∧ o.group = m.group ∧ o.l = m.l ∧ o.j = m.j) with
    | some o => s.hcMeet o m.w
    | none => s.modPair fun p => { p with mirr := m :: p.mirr.filter fun e => decide (m.n < e.n + 256) }

/-- An own code of a following hub is kept; a mirrored code that waits for it meets it (R386, R399). -/
def State.ownKeep (s : State) (o : OwnCode) : State :=
  let s := s.modPair fun q => { q with own := o :: q.own.filter fun e => decide (o.n < e.n + 256) }
  match s.pair.mirr.find? fun m => decide (o.idx = m.idx ∧ o.group = m.group ∧ o.l = m.l ∧ o.j = m.j) with
  | some m =>
    let s := s.modPair fun p => { p with mirr := p.mirr.filter fun e => decide (e ≠ m) }
    if s.role = roleStandby then s.hcMeet o m.w else s
  | none => s

/-- One SRC 0 conversion of a pass, or the BLK word that stands for it, reaches what is behind the slice: the averager on a hub
that builds its streams from its own codes, and the own-code buffer of a standby (R161, R379, R386). -/
def State.convOut (s : State) (n : Nat) (p : Pass) (l j : Nat) (code : Int) (fl : Flags) : State :=
  let c := 16 * p.group + l
  let low := s.bit (F.CH.FE_STS.AR_LOW c)
  if s.leads then
    if s.produces p.tick.idx = false then s
    else
      let sub := decide (p.tick.idx < s.pair.subBefore)
      let m := s.fld (F.CH.FE_CFG.MODE c)
      let fl : Flags := if sub ∧ (m = modeItia ∨ m = modeQchg) then { blk := true, sub := true } else { fl with sub := fl.sub || sub }
      let v := if fl.blk then (s.getChan c).lastVal else rangeValue code low (s.ownFactor c)
      let s := s.avgEnter c ⟨v, fl⟩ p.tick.idx p.tick.n j
      let s := s.modChan c fun x => { x with lastVal := v }
      s.modPass n fun q => { q with codes := codeWord code low fl :: q.codes }
  else if s.follows then s.ownKeep ⟨p.tick.idx, p.tick.n, p.group, l, j, code, fl, low, s.parked c⟩
  else s

/-! ## Open inputs (R135 to R137) -/

/-- OPN begins on a channel: OPEN and the channel's bit in OPEN_STS. -/
def State.opnBegin (s : State) (c : Nat) : State :=
  let g := c / 16
  let s := (s.setBit (F.CH.FE_STS.OPN_ACTIVE c) true).setFld (F.FE.OPEN_STS.NOW g) (s.fld (F.FE.OPEN_STS.NOW g) ||| 2 ^ (c % 16))
  (s.setFld (F.FE.OPEN_STS.SEEN g) (s.fld (F.FE.OPEN_STS.SEEN g) ||| 2 ^ (c % 16))).raiseInt (Irq.open_ g)

/-- OPN ends on a channel: OPEN_CLEARED. -/
def State.opnEnd (s : State) (c : Nat) : State :=
  let g := c / 16
  let s := s.setBit (F.CH.FE_STS.OPN_ACTIVE c) false
  (s.setFld (F.FE.OPEN_STS.NOW g) (s.fld (F.FE.OPEN_STS.NOW g) &&& (0xFFFF - 2 ^ (c % 16)))).raiseInt (Irq.openCleared g)

/-- The checks of one conversion of the hold of tick `idx`: whether it carries OPN (R135, R136). -/
def State.openCheck (s : State) (c idx : Nat) (fail : Bool) : Bool × State :=
  let x := s.getChan c
  let act := s.bit (F.CH.FE_STS.OPN_ACTIVE c)
  let need := max 1 (s.fld (F.FE.OPEN_CLR.COUNT (c / 16)))
  let (opn, s) :=
    if fail then
      (true, (s.modChan c fun x => { x with opnPass := 0, opnHold := some idx, opnHoldOk := false }).when (!act) fun s => s.opnBegin c)
    else if act = false then (false, s)
    else if x.opnHold = some idx then (true, s)
    else
      let k := x.opnPass + 1
      let s := s.modChan c fun x => { x with opnPass := k, opnHold := some idx, opnHoldOk := true }
      if need ≤ k then (false, (s.modChan c fun x => { x with opnPass := 0 }).opnEnd c) else (true, s)
  (opn, s.when opn fun s => s.count (F.CH.OPN_CNT.CNT c))

/-! ## Autorange (R131, R132) -/

/-- An evaluated conversion decides a switch, which waits for the end of the pass. -/
def State.autorange (s : State) (c : Nat) (code : Int) (fl : Flags) : State :=
  let x := s.getChan c
  if s.bit (F.CH.FE_CFG.AR_EN c) = false ∨ s.leads = false ∨ x.swap.isSome ∨ fl.rtr ∨ fl.blk ∨ fl.opn then s
  else if s.bit (F.CH.FE_STS.AR_LOW c) then
    let v := decadeValue code (s.ownFactor c)
    if v.natAbs < s.fld (F.CH.AR_CTL.AR_DN c) * 32768 then
      if max 1 (s.fld (F.CH.AR_CTL.AR_DN_CNT c)) ≤ x.dn + 1 then s.modChan c fun x => { x with dn := 0, swap := some false }
      else s.modChan c fun x => { x with dn := x.dn + 1 }
    else s.modChan c fun x => { x with dn := 0 }
  else if fl.ovr ∨ s.fld (F.CH.AR_CTL.AR_UP c) * 32768 ≤ code.natAbs then s.modChan c fun x => { x with swap := some true }
  else s

/-! ## Running a pass (R153 to R156) -/

/-- Whether the first operation of a pass is passed over at once, and whether a BLK word fills its position (R156). -/
def State.opSkipped (s : State) (p : Pass) : PassOp → Bool × Bool
  | .wait _ none => (false, false)
  | .wait _ (some (l, live)) => (!s.chEnabled (16 * p.group + l) || (!live && p.skipped), false)
  | .conv l live _ =>
    if s.chEnabled (16 * p.group + l) = false then (true, false)
    else if live then ((s.getGroup p.group).blank, false)
    else (p.skipped, p.skipped)

/-- The operations at the front of a pass that are passed over at once are done; `fuel` is their number. -/
def State.passSkip (s : State) (n : Nat) : Nat → State
  | 0 => s
  | k + 1 =>
    match (s.getSlice n).pass with
    | none => s
    | some p =>
      match p.ops with
      | [] => s
      | o :: rest =>
        let (skip, fill) := s.opSkipped p o
        if skip = false then s
        else
          let s := match o, fill with
            | .conv l _ j, true => s.convOut n p l j 0 blkFlags
            | _, _ => s
          (s.modPass n fun q => { q with ops := rest }).passSkip n k

/-- What a pass can do at once is done. -/
def State.passSettle (s : State) (n : Nat) : State :=
  match (s.getSlice n).pass with
  | none => s
  | some p => s.passSkip n p.ops.length

/-- The first operation of the pass of slice `n`. -/
def State.passHead (s : State) (n : Nat) : Option (Pass × PassOp) :=
  match (if s.stalledAt (pgSLICE n) then none else (s.getSlice n).pass) with
  | some p => p.ops.head?.map fun o => (p, o)
  | none => none

/-- The first operation is over. -/
def State.passNext (s : State) (n : Nat) : State := (s.modPass n fun q => { q with ops := q.ops.drop 1 }).passSettle n

/-- The pass in progress ends: its codes go to the partner, and what waits for the end of the pass takes effect; a pass of a
later tick that waited begins (R125, R159, R165, R192, R210, R383). -/
def State.passFinish (s : State) (n : Nat) : State :=
  match (s.getSlice n).pass with
  | none => s
  | some p =>
    let g := p.group
    let s := s.when (s.mirrored && s.produces p.tick.idx) fun s => s.linkSend (.codes g p.tick.idx p.tick.n p.codes.reverse)
    let s := (s.modSlice n fun x => { x with pass := none }).setHold g p.tick.n none
    let s := ((s.boundaryNow g true).swapApply g).calTryStart
    match (s.getSlice n).later with
    | [] => s
    | q :: rest => (s.modSlice n fun x => { x with pass := some q, later := rest }).passSettle n

/-- The holds of group `g` are taken or skipped at a tick, and the pass of its slice begins, or waits for the pass in progress. One
in which nothing is converted or waited for has ended at once (R92, R94, R141, R153, R154, R156, R188; log entry 8). -/
def State.passBegin (s : State) (t : Tick) (g : Nat) : State :=
  let n := s.serving g
  let (skip, s) := s.holdSkipped g
  let chans := (List.range 16).map (16 * g + ·)
  let s := if skip then s.count (F.FE.BLANK_CNT.CNT g) (chans.filter s.chEnabled).length else s.holdTake t g
  let segs := s.actSegments g
  let len := segCount segs
  let (seg, before) := findSegment segs (t.n % len)
  let ops := segOps (fun ch => t.n / len * loopConvs ch segs + before ch) seg
  if ops.isEmpty then s.setHold g t.n none
  else
    let bits (f : Nat → Bool) : BitVec 16 := BitVec.ofNat 16 ((List.range 16).map fun l => if f (16 * g + l) then 2 ^ l else 0).sum
    let p : Pass := { tick := t, group := g, ops := ops, par := s.applied n, cals := s.slewing n, skipped := skip,
                      ovrAt := bits s.overloaded, rtrAt := bits s.settling }
    if (s.getSlice n).pass.isSome then s.modSlice n fun x => { x with later := x.later ++ [p] }
    else
      let s := (s.modSlice n fun x => { x with pass := some p }).passSettle n
      if ((s.getSlice n).pass.map fun q => q.ops.isEmpty) = some true then s.passFinish n else s

/-- A DELAY wait expires, and the pass goes on (R153). -/
def State.weaveDelay (s : State) (n : Nat) : State :=
  match s.passHead n with
  | some (_, .wait _ _) => s.passNext n
  | _ => s

/-- WEAVE_DELAY (R153). -/
def execWeaveDelay (sl : Fin 34) (s : State) : Host.Outcome State Fault Refusal := act (·.weaveDelay sl.val) s

/-- A conversion of a tick hold completes (R97, R117, R128, R131, R135, R187, R193). -/
def State.holdConv (s : State) (n : Nat) (p : Pass) (l j : Nat) (r : ConvIn) : State :=
  let c := 16 * p.group + l
  let raw := r.raw.toInt
  let code := correct p.par raw
  let fl : Flags := { ovr := p.ovrAt.getLsbD l, rtr := p.rtrAt.getLsbD l, cals := p.cals }
  let s := s.calSample n raw code (!fl.ovr && !p.cals) r.duty r.idle
  if p.tick.bad.getLsbD p.group then s.convOut n p l j 0 blkFlags
  else
    let s := s.setBit (F.CH.FE_STS.CM_FAIL c) r.cmFail
    let fail := r.cmFail || (s.excApplies c && decide (s.fld (F.FE.EXC_MIN.MIN p.group) ≠ 0)
      && (r.excFail || s.excLowSeen p.group))
    let (opn, s) := s.openCheck c p.tick.idx fail
    let fl := { fl with opn := opn }
    (s.autorange c code fl).convOut n p l j code fl

/-- A live conversion completes: LIVE_CODE alone sees it (R156). -/
def State.liveConv (s : State) (n : Nat) (p : Pass) (l : Nat) (r : ConvIn) : State :=
  let raw := r.raw.toInt
  let code := correct p.par raw
  let s := s.calSample n raw code false r.duty r.idle
  ((s.setFld (F.SLICE.LIVE_CODE.CH n) l).setSfld (F.SLICE.LIVE_CODE.CODE n) code).count (F.SLICE.LIVE_CNT.CNT n)

/-! ## The end of a pass (R159) -/

/-- The last entry of the pass has ended. -/
def State.passEnd (s : State) (n : Nat) : State :=
  match (if s.stalledAt (pgSLICE n) then none else (s.getSlice n).pass) with
  | some p => if p.ops.isEmpty then s.passFinish n else s
  | none => s

/-- PASS_END (R159). -/
def execPassEnd (sl : Fin 34) (s : State) : Host.Outcome State Fault Refusal := act (·.passEnd sl.val) s

/-- The positions of the operations left in an abandoned pass are filled with BLK words (R150). -/
def State.fillBlk (s : State) (n : Nat) (p : Pass) : List PassOp → State
  | [] => s
  | .conv l false j :: rest =>
    (if s.chEnabled (16 * p.group + l) then s.convOut n p l j 0 blkFlags else s).fillBlk n p rest
  | _ :: rest => s.fillBlk n p rest

/-- Rotations run: CONV_TIMEOUT passes count toward R209. -/
def State.rotates (s : State) : Bool := decide (s.calSt = calRun) || decide (s.calSt = calSingle)

/-- A pass is abandoned: repeated timeouts make its slice fail, to be replaced by the spare that shadows it, and its dwell is abandoned
(R150, R194, R209, R210). -/
def State.passAbandon (s : State) (n : Nat) (p : Pass) : State :=
  let s := s.count (F.SLICE.PASS_ABORT_CNT.CNT n)
  let s := (s.fillBlk n p p.ops).modPass n fun q => { q with ops := [] }
  let s := s.when s.rotates fun s => s.modSlice n fun x => { x with timeouts := x.timeouts + 1 }
  let s := s.when (s.rotates && decide ((s.getSlice n).timeouts = 4) && decide (s.slRole n = roleWorking)) fun s => s.sliceFail n
  let s := match s.cal.dwell with
    | some d => if d.slice = n then s.dwellAbandon else s
    | none => s
  s.passFinish n

/-- The tick of the pass that spare `n` shadows now, if it converts in it: the slice it shadows has a conversion of a tick hold in hand, or
its own has outlasted that slice's (R150, R191). -/
def State.shadowTick (s : State) (n : Nat) : Option Nat :=
  match s.cal.dwell with
  | none => none
  | some d =>
    if d.duty = n ∨ d.idle = some n then
      (match s.passHead d.slice with
       | some (p, .conv _ false _) => if (s.getSlice n).shadowGone = some p.tick.idx then none else some p.tick.idx
       | some (p, _) => if (s.getSlice n).shadowOpen then some p.tick.idx else none
       | none => if (s.getSlice n).shadowOpen then some s.lastIdx else none)
    else none

/-- A shadowing spare abandons its pass of tick `idx`: the rest of the pass gives the dwell no codes of it (R150, R193). -/
def State.shadowAbandon (s : State) (n idx : Nat) : State :=
  ((s.raiseFault (Flt.convTimeout n)).count (F.SLICE.PASS_ABORT_CNT.CNT n)).modSlice n fun x => { x with shadowOpen := false, shadowGone := some idx }

/-- A conversion has not completed 600 ns after its start: the slice abandons the pass (R150). -/
def State.convTimeout (s : State) (n : Nat) : State :=
  match s.passHead n with
  | some (p, .conv _ _ _) => (s.raiseFault (Flt.convTimeout n)).passAbandon n p
  | _ =>
    match s.shadowTick n with
    | some idx => s.shadowAbandon n idx
    | none => s

/-- What spare `k` makes of the conversion of tick `idx` that it shadows: its code counts on its page if it has completed (R150, R183,
R191). -/
def State.shadowOne (s : State) (k idx : Nat) (code : Option (BitVec 24)) (ns : Nat) : Option (BitVec 24) × State :=
  if (s.getSlice k).shadowGone = some idx ∨ s.stalledAt (pgSLICE k) = true then (none, s)
  else
    match code with
    | none => (none, s.modSlice k fun x => { x with shadowOpen := true })
    | some v =>
      (some v, ((s.count (F.SLICE.CONV_CNT.CNT k)).setFld (F.SLICE.CONV_TMAX.TMAX k)
        (max (s.fld (F.SLICE.CONV_TMAX.TMAX k)) (satNat 1023 ns))).modSlice k fun x => { x with shadowOpen := false })

/-- The codes that the shadowing spares of slice `n` make of a conversion of its tick hold (R191, R198). -/
def State.shadowConv (s : State) (n idx : Nat) (r : ConvIn) : ConvIn × State :=
  match s.cal.dwell with
  | none => (r, s)
  | some d =>
    if d.slice = n then
      let (x, s) := s.shadowOne d.duty idx r.duty r.dutyNs
      let (y, s) := match d.idle with
        | some k => s.shadowOne k idx r.idle r.idleNs
        | none => (none, s)
      ({ r with duty := x, idle := y }, s)
    else (r, s)

/-- CONV_TIMEOUT (R150). -/
def execConvTimeout (sl : Fin 34) (s : State) : Host.Outcome State Fault Refusal := act (·.convTimeout sl.val) s

/-- An injected CONV_TIMEOUT strikes the pass in progress of a slice, or what a spare shadows; a slice that converts nothing has no pass to
abandon (R150, R429). -/
def State.timeoutInject (s : State) (n : Nat) : State :=
  match (if s.stalledAt (pgSLICE n) then none else (s.getSlice n).pass), s.shadowTick n with
  | some p, _ => (s.raiseFault (Flt.convTimeout n)).passAbandon n p
  | none, some idx => s.shadowAbandon n idx
  | none, none => s.raiseFault (Flt.convTimeout n)

/-- A conversion completes (R155). -/
def State.convComplete (s : State) (n : Nat) (r : ConvIn) : State :=
  match s.passHead n with
  | some (p, .conv l live j) =>
    let s := s.count (F.SLICE.CONV_CNT.CNT n)
    let s := s.setFld (F.SLICE.CONV_TMAX.TMAX n) (max (s.fld (F.SLICE.CONV_TMAX.TMAX n)) (satNat 1023 r.ns))
    if live then (s.liveConv n p l r).passNext n
    else
      let (r, s) := s.shadowConv n p.tick.idx r
      (s.holdConv n p l j r).passNext n
  | _ => s

/-- CONVERSION_COMPLETE (R155). -/
def execConversionComplete (sl : Fin 34) (r : ConvIn) (s : State) : Host.Outcome State Fault Refusal :=
  act (·.convComplete sl.val r) s

/-! ## The weave banks (R158 to R160) -/

/-- A write of a weave entry: ignored for the active bank, which raises WR_ACTIVE, and on the pages of the spares (R158). The
budget of the inactive bank is computed where it is read (R160). -/
def State.weaveWrite (s : State) (n : Nat) (bank : Bool) (e : Nat) (v : Reg) : State :=
  if 32 ≤ n then s
  else if s.actBank n = bank then s.raiseInt (Irq.wrActive n)
  else s.setReg (weaveAddr n bank e) (v &&& 0xFFFFFF80#32)

/-- WEAVE_WRITE (R160). -/
def execWeaveWrite (sl : Fin 34) (bank : Bool) (e : Fin 256) (v : Reg) (s : State) : Host.Outcome State Fault Refusal :=
  actW (·.weaveWrite sl.val bank e.val v) s

/-- A SLICE page commit takes effect (R159): the page of a spare has no bank, and a group's page takes effect with its boundary, which
without a pass in progress is the coming tick (log entry 9). -/
def State.sliceApply (s : State) (n : Nat) : State :=
  if s.commitDue (pgSLICE n) = false then s
  else if 32 ≤ n then s.commitApply (pgSLICE n)
  else if s.follows then s
  else s.boundaryNow n true

/-- SLICE_COMMIT_APPLY (R159). -/
def execSliceCommitApply (sl : Fin 34) (s : State) : Host.Outcome State Fault Refusal := act (·.sliceApply sl.val) s

end Sys2Proof.Machine
end

