-- ==== Sys2Proof/Machine/Reduce.lean ====
section
/-!
DEFINITION. The commands of the reducers and of the coefficient sets (R231, R241, R250, R252).
-/

namespace Sys2Proof.Machine

/-! ## STREAM (R241) -/

/-- The open packet of a channel reaches MAX_AGE: time runs on to that instant, and the packet closes as it stands. -/
def State.maxAge (s : State) (c : Nat) : State :=
  match (s.getChan c).pkt with
  | some p => (s.reachNs (p.openedAt + s.maxAgeNs)).streamAge c
  | none => s

/-- STREAM_MAX_AGE (R241). -/
def execStreamMaxAge (c : Fin 512) (s : State) : Host.Outcome State Fault Refusal := act (·.maxAge c.val) s

/-- A write of MAX_AGE applies at once to every open packet. -/
def State.writeMaxAge (s : State) (v : Reg) : State :=
  (s.setFld F.RED.STREAM_CTL.MAX_AGE (getBits v 0 16)).each (List.range 512) State.streamAge

/-- MAX_AGE_WRITE (R241). -/
def execMaxAgeWrite (v : Reg) (s : State) : Host.Outcome State Fault Refusal := actW (·.writeMaxAge v) s

/-! ## RAIN (R250, R252) -/

/-- Dumps are asked for: the channels whose RAIN can dump make one at the next tick (R250, R252). -/
def State.dumpAsk (s : State) (g : Nat) (mask : BitVec 16) : State :=
  s.each (List.range 16) fun s l =>
    if mask.getLsbD l ∧ s.rainCan (16 * g + l) then s.modRain (16 * g + l) fun r => { r with req := true } else s

/-- A write of DUMP_NOW; an ACTIVE hub passes it on (R387). -/
def State.writeDumpNow (s : State) (g : Fin 32) (mask : BitVec 16) : State :=
  s.ifNotFollowing fun s => (s.sendDecision (.dumpNow g mask)).dumpAsk g.val mask

/-- DUMP_NOW (R250). -/
def execDumpNow (g : Fin 32) (mask : BitVec 16) (s : State) : Host.Outcome State Fault Refusal := actW (·.writeDumpNow g mask) s

/-- A periodic dump that is due at the coming tick of the streams is made, once every position before that tick has been processed (R250,
R386; log entry 9). -/
def State.rainPeriodic (s : State) (c : Nat) : State :=
  match s.streamNext with
  | some i =>
    if (s.follows || !s.passRuns (c / 16)) && s.rainPeriodDue c (i / 131072) then (s.rainServed c (i / 131072)).rainDump c 0 i else s
  | none => s

/-- RAIN_PERIODIC_DUMP (R250). -/
def execRainPeriodicDump (c : Fin 512) (s : State) : Host.Outcome State Fault Refusal := act (·.rainPeriodic c.val) s

/-- A RAIN page commit takes effect for a channel that cannot dump; where it can, it waits for its next dump, after whose packet
it takes effect (R252). -/
def State.rainApply (s : State) (c : Nat) : State :=
  if s.rainCan c then s else s.rainTake c

/-- RAIN_COMMIT_APPLY (R252). -/
def execRainCommitApply (c : Fin 512) (s : State) : Host.Outcome State Fault Refusal := act (·.rainApply c.val) s

/-! ## Coefficient sets (R231) -/

/-- A write of TAPS: the inactive bank's field takes its value, and WR_ACTIVE is raised if the active bank's would change. -/
def State.writeTaps (s : State) (fs : Nat) (v : Reg) : State :=
  let act := s.bit (F.FIRSET.FIRSET_CTL.ACT_BANK fs)
  let val (b : Bool) : Nat := if b then getBits v 16 8 else getBits v 0 8
  let s := s.when (decide (val act ≠ s.fld (tapsFld fs act))) fun s => s.raiseInt (Irq.firWrActive fs)
  s.setFld (tapsFld fs (!act)) (val (!act))

/-- TAPS_WRITE (R231). -/
def execTapsWrite (fs : Fin 16) (v : Reg) (s : State) : Host.Outcome State Fault Refusal := actW (·.writeTaps fs.val v) s

/-- A write of a coefficient: ignored in the active bank. -/
def State.writeCoef (s : State) (fs : Nat) (bank : Bool) (t : Nat) (v : Reg) : State :=
  if s.bit (F.FIRSET.FIRSET_CTL.ACT_BANK fs) = bank then s.raiseInt (Irq.firWrActive fs)
  else s.setFld (coefFld fs bank t) (getBits v 0 24)

/-- COEF_WRITE (R231). -/
def execCoefWrite (fs : Fin 16) (bank : Bool) (t : Fin 128) (v : Reg) (s : State) : Host.Outcome State Fault Refusal :=
  actW (·.writeCoef fs.val bank t.val v) s

/-- A FIRSET commit takes effect with the tick of index `idx`: outputs whose newest input lies at or after it use the new bank
(R231). -/
def State.firsetApply (s : State) (fs idx : Nat) : State :=
  if s.commitDue (pgFIRSET fs) = false then s
  else
    let old := s.bit (F.FIRSET.FIRSET_CTL.ACT_BANK fs)
    let s := s.commitApply (pgFIRSET fs)
    if s.bit (F.FIRSET.FIRSET_CTL.ACT_BANK fs) = old then s
    else ({ s with firAt := sset 0 s.firAt fs idx }).raiseInt (Irq.firBankSwitched fs)

/-- FIRSET_COMMIT_APPLY: the coming tick, where the grid issues it, is the first after the commit (R231; log entry 9). -/
def execFirsetCommitApply (fs : Fin 16) (s : State) : Host.Outcome State Fault Refusal :=
  act (fun s => if s.tickComing then s.firsetApply fs.val s.curIdx else s) s

end Sys2Proof.Machine
end

