-- ==== Sys2Proof/Machine/Context.lean ====
section
/-!
DEFINITION. The commands of a record context (R261 to R269, R284, R288): the arm checks, entry to REARM and FILL, abort,
release and hold-off.
-/

namespace Sys2Proof.Machine

/-! ## Arm checks (R261 to R266) -/

/-- The channels of the set of a context (R261). -/
def State.cxSet (s : State) (x : Nat) : List Nat :=
  (List.range 512).filter fun c => (s.fld (F.CTX.CHSET.CH x (c / 32))).testBit (c % 32)

/-- A channel of the set can be a member: enabled, with sample ticks and, for the FIR tap, with FIR_EN (R261). -/
def State.cxTakes (s : State) (x c : Nat) : Bool :=
  s.chEnabled c && s.hasTicks c && (!s.cxTap x || s.bit (F.CH.RED_CFG.FIR_EN c))

/-- The regions of two contexts overlap. -/
def State.cxOverlap (s : State) (x y : Nat) : Bool :=
  let bx := s.fld (F.CTX.REGION.BASE x)
  let lx := s.fld (F.CTX.REGION.LEN x)
  let b := s.fld (F.CTX.REGION.BASE y)
  let l := s.fld (F.CTX.REGION.LEN y)
  decide (bx < b + l) && decide (b < bx + lx)

/-- The summed demand of the contexts that write history (R266). -/
def State.capDemand (s : State) : Nat × Nat := fracSum (((List.range 256).filter s.cxWrites).map s.cxDemand)

/-- The capture limit in words per second (R266). -/
abbrev capLimit : Nat := 2560000000

/-- The demand of a set of channels at the context's tap. -/
def State.setDemand (s : State) (x : Nat) (chs : List Nat) : Nat × Nat := fracSum (chs.map fun c => s.wordRate c (s.cxTap x))

/-- The code of the first arm check that fails, 0 if none does (R264). -/
def State.armCode (s : State) (x : Nat) (chs : List Nat) : Nat :=
  let base := s.fld (F.CTX.REGION.BASE x)
  let len := s.fld (F.CTX.REGION.LEN x)
  let pre := s.cxPre x
  let total := fracAdd s.capDemand (s.setDemand x chs)
  let per := s.fld (F.CTX.TIMER_PERIOD.MS x)
  if len = 0 ∨ 1280 < base + len then 1
  else if (List.range 256).any fun y => decide (y ≠ x) && decide (s.cxSt y ≠ cxIdle) && s.cxOverlap x y then 2
  else if chs.isEmpty then 3
  else if len * 1024 / chs.length < pre then 4
  else if pre = 0 ∧ s.fld (F.CTX.POST.POST x) = 0 then 5
  else if capLimit * total.2 < total.1 then 6
  else if s.srcOn x 6 ∧ (per = 0 ∨ per ≤ s.fld (F.CTX.TIMER_PHASE.MS x)) then 7
  else 0

/-- A refusal of an arm or a rearm with its code: the context is IDLE (R264). -/
def State.armRefuse (s : State) (x code : Nat) : State :=
  let s := (s.setFld F.TRIG.ARM_REFUSE.CAUSE code).setFld F.TRIG.ARM_REFUSE.CTX x
  ((s.count F.TRIG.ARM_REFUSE.CNT).cxEnter x cxIdle).raiseInt Irq.armRefused

/-- The storage divisor at an arm (R288): one step further after a readout at the high watermark (cause 10), back to 1 after an
undisturbed record (cause 00), otherwise as it was. -/
def State.armDivisor (s : State) (x : Nat) : State :=
  let c := s.getCtx x
  let r := s.cxDiv x
  if c.hwmSeen then (if r < 4 then s.rateStep x 2 (r + 1) else s)
  else if 0 < r ∧ c.lastHigh = false then s.rateStep x 0 0
  else s

/-- The context enters REARM with the members, the ring length and POST_EFF of its settings (R261, R262, R265). -/
def State.armEnter (s : State) (x : Nat) (chs : List Nat) : State :=
  let k := chs.length
  let c := s.fld (F.CTX.REGION.LEN x) * 1024 / k
  let pre := s.cxPre x
  let post := s.fld (F.CTX.POST.POST x)
  let clamp := decide (c < pre + post)
  let s := s.setFld (F.CTX.CTX_STS.C x) c
  let s := s.setFld (F.CTX.ARM_INFO.K x) k
  let s := (s.setFld (F.CTX.ARM_INFO.POST_EFF x) (if clamp then c - pre else post)).setBit (F.CTX.CTX_STS.POST_CLAMP x) clamp
  let s := s.setBit (F.CTX.CTX_STS.EXCL x) (decide (chs.length < (s.cxSet x).length))
  let r := s.cxDiv x
  let s := s.modCtx x fun y =>
    { y with members := chs.map fun ch => { ch := ch, divLog2 := r }, acc := none, trigIdx := none, frac := 0,
             tstepTrig := none, ignored := 0, tstep := false, aborted := false }
  (s.armDivisor x).cxEnter x cxRearm

/-- The staged values of the page take effect first, if a commit is due (R264, R269). -/
def State.cxStaged (s : State) (x : Nat) : State :=
  if s.commitDue (pgCTX x) then s.commitApply (pgCTX x) else s

/-- Entry to REARM by CMD.ARM or by an automatic rearm: staged values, checks, and REARM or a refusal (R264, R269). An ACTIVE
hub passes the result on (R387). -/
def State.cxToRearm (s : State) (x : Fin 256) (cmd : Bool) : State :=
  let s := s.cxStaged x.val
  let chs := (s.cxSet x.val).filter (s.cxTakes x.val)
  let code := s.armCode x.val chs
  let s := s.sendDecision (if code = 0 ∧ cmd = false then .rearm x else .arm x code)
  if code = 0 then s.armEnter x.val chs else s.armRefuse x.val code

/-- The decision of the active on a standby: it enters REARM, or refuses with the active's code (R387). -/
def State.cxMirrorArm (s : State) (x code : Nat) : State :=
  let s := s.cxStaged x
  if code = 0 then s.armEnter x ((s.cxSet x).filter (s.cxTakes x)) else s.armRefuse x code

/-! ## FILL (R267, R271) -/

/-- FILL begins with the tick of index `idx`: both level gates are cleared; with PRE = 0 the context is ARMED at once. -/
def State.cxBegin (s : State) (x idx : Nat) : State :=
  let s := s.modCtx x fun c => { c with fillIdx := idx, riseReady := false, fallReady := false, bufHigh := false }
  s.cxEnter x (if s.cxPre x = 0 then cxArmed else cxFill)

/-- The first tick after REARM: history starts (R267). -/
def State.cxFillTick (s : State) (x idx : Nat) : State := if s.cxSt x = cxRearm then s.cxBegin x idx else s

/-- CTX_FILL_START: the coming tick of a running grid begins the history (R267; log entry 9). -/
def execCtxFillStart (x : Fin 256) (s : State) : Host.Outcome State Fault Refusal :=
  act (fun s => if s.gridSt = gridRun then s.cxFillTick x.val (idxOf s.tickPeriod s.grid.cur) else s) s

/-! ## Release and hold-off (R267, R268, R284) -/

/-- The hold-off has expired, or there is none (R284). -/
def State.holdoffOver (s : State) (x : Nat) : Bool :=
  let c := s.getCtx x
  let m := s.fld (F.CTX.CTX_CFG.HOLDOFF_MODE x)
  if m = 1 then
    (match c.acc with
     | some t => decide (t.t + 8 * s.fld (F.CTX.HOLDOFF_NS.NS x) ≤ 8 * s.nowNs)
     | none => true)
  else if m = 2 then decide (s.fld (F.CTX.HOLDOFF_CNT.CNT x) ≤ c.ignored)
  else true

/-- The record is released (R267). A standby waits in HOLDOFF for the rearm of the active (R387). -/
def State.cxRelease (s : State) (x : Fin 256) : State :=
  if s.bit (F.CTX.CTX_CFG.REARM_MODE x.val) = false then s.cxEnter x.val cxIdle
  else if s.follows = false ∧ s.holdoffOver x.val then s.cxToRearm x false
  else s.cxEnter x.val cxHoldoff

/-- CMD.RELEASE in DONE: the host releases the record, or ends its readout (R268). -/
def State.cxReleaseCmd (s : State) (x : Fin 256) : State :=
  if s.cxSt x.val ≠ cxDone then s
  else if s.bit (F.CTX.CTX_CFG.RO_MODE x.val) then s.cxRelease x
  else s.modCtx x.val fun c => { c with released := true }

/-- CMD.ABORT: POST ends with the record as it stands; REARM, FILL, ARMED and HOLDOFF end in IDLE (R267, R281). -/
def State.cxAbort (s : State) (x : Nat) : State :=
  let st := s.cxSt x
  if st = cxPost then (s.modCtx x fun c => { c with aborted := true }).cxFinish x
  else if st = cxRearm ∨ st = cxFill ∨ st = cxArmed ∨ st = cxHoldoff then
    (s.modCtx x fun c => { c with waiting := [] }).cxEnter x cxIdle
  else s

/-- A write of CMD.ARM: ignored outside IDLE (R298). -/
def State.cxArmCmd (s : State) (x : Fin 256) : State := if s.cxSt x.val = cxIdle then s.cxToRearm x true else s

/-- A write of CMD.SW_TRIG: the software source fires (R270). -/
def State.cxSwTrig (s : State) (x : Nat) : State :=
  if s.srcOn x 0 then s.deliver x { t := 8 * s.nowNs, src := 0, srcId := 0 } else s

/-- A write of CMD: the bits act in the order RELEASE, ABORT, ARM, SW_TRIG (R269). A standby ignores it and counts it (R387). -/
def State.writeCmd (s : State) (x : Fin 256) (v : Reg) : State :=
  if getBits v 0 4 = 0 then s
  else s.ifNotFollowing fun s =>
    let s := s.when (v.getLsbD 3) fun s => (s.sendDecision (.release x)).cxReleaseCmd x
    let s := s.when (v.getLsbD 1) fun s => (s.sendDecision (.abort x)).cxAbort x.val
    let s := s.when (v.getLsbD 0) fun s => s.cxArmCmd x
    s.when (v.getLsbD 2) fun s => s.cxSwTrig x.val

/-- ARM (R264). -/
def execArm (x : Fin 256) (s : State) : Host.Outcome State Fault Refusal := actW (·.writeCmd x 1#32) s

/-- ABORT (R267). -/
def execAbort (x : Fin 256) (s : State) : Host.Outcome State Fault Refusal := actW (·.writeCmd x 2#32) s

/-- RELEASE (R268). -/
def execRelease (x : Fin 256) (s : State) : Host.Outcome State Fault Refusal := actW (·.writeCmd x 8#32) s

/-- SW_TRIG (R270). -/
def execSwTrig (x : Fin 256) (s : State) : Host.Outcome State Fault Refusal := actW (·.writeCmd x 4#32) s

/-- The hold-off of a context in HOLDOFF ends: time runs on to the end of a time hold-off; a count that is not reached still
holds it off (R284). -/
def State.holdoffExpire (s : State) (x : Fin 256) : State :=
  if s.cxSt x.val = cxHoldoff ∧ s.follows = false then
    let s := if s.fld (F.CTX.CTX_CFG.HOLDOFF_MODE x.val) = 1 then
        (match (s.getCtx x.val).acc with
         | some t => s.reachNs (ceilDiv (t.t + 8 * s.fld (F.CTX.HOLDOFF_NS.NS x.val)) 8)
         | none => s)
      else s
    if s.holdoffOver x.val then s.cxToRearm x false else s
  else s

/-- HOLDOFF_EXPIRE (R284). -/
def execHoldoffExpire (x : Fin 256) (s : State) : Host.Outcome State Fault Refusal := act (·.holdoffExpire x) s

end Sys2Proof.Machine
end

