-- ==== Sys2Proof/Machine/Ptp.lean ====
section
/-!
DEFINITION. The PTP engine (R67 to R75): master selection, offsets from Syncs, peer delay and the pending sums of the
transparent clock.
-/

namespace Sys2Proof.Machine

/-! ## Master selection (R69, R70) -/

/-- A source matches MASTER_ID and MASTER_PORT; 0xFFFF matches any port. -/
def State.isMaster0 (s : State) (p : PortId) : Bool :=
  decide (p.clock = s.fld64 F.PTP.MASTER_ID_LO.ID_LO F.PTP.MASTER_ID_HI.ID_HI)
    && (decide (s.fld F.PTP.MASTER_PORT.PORT = 0xFFFF) || decide (p.port = s.fld F.PTP.MASTER_PORT.PORT))

/-- A source is the current master of CUR_MASTER and CUR_PORT. -/
def State.isCurMaster (s : State) (p : PortId) : Bool :=
  s.bit F.PTP.PTP_STS.HAS_MASTER && decide (p.clock = s.fld64 F.PTP.CUR_MASTER_LO.ID_LO F.PTP.CUR_MASTER_HI.ID_HI)
    && decide (p.port = s.fld F.PTP.PTP_STS.CUR_PORT)

/-- The source becomes the current master. -/
def State.setMaster (s : State) (p : PortId) : State :=
  ((s.setFld64 F.PTP.CUR_MASTER_LO.ID_LO F.PTP.CUR_MASTER_HI.ID_HI p.clock).setFld F.PTP.PTP_STS.CUR_PORT p.port).setBit
    F.PTP.PTP_STS.HAS_MASTER true

/-- The slave accepts a source: by MASTER_ID with SEL_MODE 0, as the adopted master with SEL_MODE 1 (R69). -/
def State.accepts (s : State) (p : PortId) : Bool :=
  if s.bit F.PTP.PTP_CTL.SEL_MODE then s.isCurMaster p && !s.ptp.silenced else s.isMaster0 p

/-- The slave works on messages of its domain while SLAVE_EN is set. -/
def State.slaveFor (s : State) (domain : Nat) : Bool :=
  s.bit F.PTP.PTP_CTL.SLAVE_EN && decide (domain = s.fld F.PTP.PTP_CTL.DOMAIN)

/-- The code of a port in ACTIVE_PORT. -/
def portCode : Port → Nat
  | .a => 1
  | .b => 2

/-- SLAVE_PORT is AUTO; 0b11 acts as AUTO (R81). -/
def State.slaveAuto (s : State) : Bool :=
  decide (s.fld F.PTP.PTP_CTL.SLAVE_PORT ≠ 1) && decide (s.fld F.PTP.PTP_CTL.SLAVE_PORT ≠ 2)

/-- The active port once a Sync of the accepted master has come on port `p` (R70): as SLAVE_PORT says; with AUTO, PORT_A as soon as it
delivers one, and else the port that was active, or the first to deliver. -/
def State.activeAfter (s : State) (p : Port) : Nat :=
  let sel := s.fld F.PTP.PTP_CTL.SLAVE_PORT
  if sel = 1 then 1 else if sel = 2 then 2
  else
    let cur := s.fld F.PTP.PTP_STS.ACTIVE_PORT
    if cur = 0 then portCode p
    else if p = .a then 1 else cur

/-- A switch of the active port by the hub is counted and raises PORT_SWITCH (R70). -/
def State.portMoved (s : State) : State := (s.count F.PTP.PORT_SWITCH_CNT.CNT).raiseInt Irq.portSwitch

/-- A Sync of the accepted master comes on port `p`: it makes the active port, and counts as one that the active port has delivered or
that the other port has delivered since (R70). -/
def State.syncOn (s : State) (p : Port) : State :=
  let act := s.activeAfter p
  let moved := s.slaveAuto && decide (s.fld F.PTP.PTP_STS.ACTIVE_PORT = 2) && decide (act = 1)
  let s := (s.setFld F.PTP.PTP_STS.ACTIVE_PORT act).when moved State.portMoved
  s.modPtp fun x => { x with missed := if act = portCode p then 0 else x.missed + 1 }

/-! ## Offsets (R71) -/

/-- The LINK_DELAY register of a port. -/
def linkDelayFld : Port → Fld
  | .a => F.PTP.LINK_DELAY_A.DELAY
  | .b => F.PTP.LINK_DELAY_B.DELAY

/-- The ASYM register of a port. -/
def asymFld : Port → Fld
  | .a => F.PTP.ASYM_A.ASYM
  | .b => F.PTP.ASYM_B.ASYM

/-- The link delay of a port is valid: not all ones (R72). -/
def State.delayValid (s : State) (p : Port) : Bool := decide (s.fld (linkDelayFld p) ≠ 0xFFFFFFFF)

/-- e = t2 - t1 - c - d - a in 2^-16 ns, with d in 1/16 ns and a in ns (R71). -/
def State.offsetOf (s : State) (p : Port) (rx origin : HubTime) (corr : Int) : Int :=
  ((htNs rx : Int) - htNs origin - s.sfld (asymFld p)) * 2 ^ 16 - corr - (s.fld (linkDelayFld p) : Int) * 2 ^ 12

/-- An offset of the slave reaches the servo, while SRC is PTP and the hub is not following a partner (R55, R66). A sub-ns part
is rounded freely, and a link delay that has become invalid since the Sync arrived is an unstated number (log entry 3). -/
def State.ptpOffset (s : State) (p : Port) (rx origin : HubTime) (corr : Int) : State :=
  if s.timeSrc = 1 ∧ s.follows = false then
    let (d, s) := if s.delayValid p then (0, s) else s.drawFree
    let (e, s) := s.roundFree (s.offsetOf p rx origin corr - d) (2 ^ 16)
    s.servoOffset e
  else s

/-- An ingress time stamp precedes the latest step: it lies before the time that the step set, or is one of the old time that lies ahead
of hub time (R63; log entry 7). -/
def State.beforeStep (s : State) (rx : HubTime) : Bool :=
  match s.servo.stepNew with
  | some n => decide (htNs rx < n) || decide (s.nowNs < htNs rx)
  | none => false

/-- A Sync that arrives now on port `p` may yield an offset: the port has a valid link delay and the stamp does not precede the latest
step (R63, R71). -/
def State.syncUse (s : State) (p : Port) (rx : HubTime) : Bool := s.delayValid p && !s.beforeStep rx

/-- An interval of 2^l seconds in cycles of elapsed time. -/
def logCycles (l : Int) : Nat :=
  if 0 ≤ l then 500000000 * 2 ^ l.toNat else 500000000 / 2 ^ (-l).toNat

/-- A time stamp could not be queued: TS_OVF, and the next Pdelay exchange of the port is not counted (R75). -/
def State.tsOverflow (s : State) (p : Port) : State :=
  (s.modPtp fun x => match p with
    | .a => { x with pdA := { x.pdA with skipNext := true } }
    | .b => { x with pdB := { x.pdB with skipNext := true } }).raiseFault Flt.tsOvf

/-- The two-step Sync in wait is given up and counted (R71). -/
def State.fuMiss (s : State) : State :=
  match s.ptp.twoStep with
  | some _ => (s.count F.PTP.FU_MISS_CNT.CNT).modPtp fun x => { x with twoStep := none }
  | none => s

/-- A Sync is taken (R63, R69 to R71, R75). One without an ingress time stamp yields no offset. -/
def State.syncTake (s : State) (p : Port) (m : SyncMsg) : State :=
  if s.slaveFor m.domain = false ∨ s.accepts m.src = false then s
  else
    let s := s.setMaster m.src
    let s := (s.modPtp fun x => { x with lastSync := s.time.cycles }).syncOn p
    if s.fld F.PTP.PTP_STS.ACTIVE_PORT ≠ portCode p then s
    else
      let s := (s.count F.PTP.SYNC_RX_CNT.CNT).setBit F.PTP.PTP_STS.TWO_STEP m.twoStep
      let s := s.fuMiss
      if m.stampOk = false then s
      else if m.twoStep then s.modPtp fun x => { x with twoStep := some ⟨p, m, s.servo.steps, s.time.cycles, s.syncUse p m.rx⟩ }
      else if s.syncUse p m.rx then s.ptpOffset p m.rx m.origin m.corr
      else s

/-- A Sync arrives; a stamp that could not be queued is TS_OVF (R71, R75). -/
def State.syncRx (s : State) (p : Port) (m : SyncMsg) : State :=
  (s.when (!m.stampOk) fun s => s.tsOverflow p).syncTake p m

/-- The elapsed cycles at which a two-step Sync is given up: one Sync interval after its arrival (R71). -/
def TwoStep.until_ (w : TwoStep) : Nat := w.at_ + logCycles w.msg.logInterval

/-- A Follow_Up completes the two-step Sync it matches by port identity and sequenceId; one that comes more than a Sync interval after
its Sync is missed, and an offset from a Sync before the latest step is discarded (R63, R71). -/
def State.followUpRx (s : State) (p : Port) (m : FollowUpMsg) : State :=
  match s.ptp.twoStep with
  | none => s
  | some w =>
    if w.port = p ∧ w.msg.src = m.src ∧ w.msg.seq = m.seq ∧ w.msg.domain = m.domain then
      if w.until_ < s.time.cycles then s.fuMiss
      else
        let s := s.modPtp fun x => { x with twoStep := none }
        if w.use ∧ s.servo.steps = w.steps then s.ptpOffset p w.msg.rx m.origin (w.msg.corr + m.corr) else s
    else s

/-- One Sync interval has passed since the two-step Sync arrived, and no Follow_Up has come (R71). -/
def State.fuTimeout (s : State) : State :=
  match s.ptp.twoStep with
  | none => s
  | some w => (s.reachCycles w.until_).fuMiss

/-- An Announce arrives: with SEL_MODE 1 its source may be adopted; the UTC fields of an accepted source are kept (R69, R81,
R82). -/
def State.announceRx (s : State) (m : AnnounceMsg) : State :=
  if s.slaveFor m.domain = false then s
  else
    let auto := s.bit F.PTP.PTP_CTL.SEL_MODE
    let adopt := auto && (!s.bit F.PTP.PTP_STS.HAS_MASTER || s.ptp.silenced)
    let s := if adopt then
        let again := s.ptp.silenced
        let s := (s.setMaster m.src).modPtp fun x => { x with silenced := false }
        s.when again fun s => s.raiseInt Irq.masterChange
      else s
    if s.accepts m.src = false then s
    else
      let s := s.setMaster m.src
      let s := s.modPtp fun x => { x with lastAnn := s.time.cycles, annLog := m.logInterval }
      let old := s.reg F.PTP.UTC_INFO.UTC_OFFSET.addr
      let s := (s.setFld F.PTP.UTC_INFO.UTC_OFFSET m.utcOffset).setBit F.PTP.UTC_INFO.UTC_VALID m.utcValid
      let s := (s.setBit F.PTP.UTC_INFO.LEAP61 m.leap61).setBit F.PTP.UTC_INFO.LEAP59 m.leap59
      s.when (decide (s.reg F.PTP.UTC_INFO.UTC_OFFSET.addr ≠ old)) fun s => s.raiseInt Irq.utcChange

/-- The adopted master has been silent for 3 announce intervals: its adoption ends (R69). -/
def State.masterSilence (s : State) : State :=
  if s.bit F.PTP.PTP_CTL.SEL_MODE && s.bit F.PTP.PTP_STS.HAS_MASTER then
    ((s.reachCycles (s.ptp.lastAnn + 3 * logCycles s.ptp.annLog)).modPtp fun x => { x with silenced := true }).setBit
      F.PTP.PTP_STS.HAS_MASTER false
  else s

/-- No Sync from the accepted master on either port for LOSS_TIMEOUT seconds (R82). -/
def State.masterLost (s : State) : State :=
  if s.bit F.PTP.PTP_STS.HAS_MASTER then
    (s.reachCycles (s.ptp.lastSync + s.lossCycles)).raiseInt Irq.masterLost
  else s

/-- SYNC_LOSS; 0 acts as 1 (R81). -/
def State.syncLoss (s : State) : Nat := max 1 (s.fld F.PTP.PTP_TIMING.SYNC_LOSS)

/-- SYNC_LOSS expected Syncs are missing on PORT_A while PORT_B has delivered as many: with AUTO, the slave switches to PORT_B (R70). The
way back is a Sync on PORT_A. -/
def State.portSwitch (s : State) : State :=
  if s.slaveAuto && decide (s.fld F.PTP.PTP_STS.ACTIVE_PORT = 1) && decide (s.syncLoss ≤ s.ptp.missed) then
    ((s.setFld F.PTP.PTP_STS.ACTIVE_PORT 2).modPtp fun x => { x with missed := 0 }).portMoved
  else s

/-! ## Peer delay (R72, R73) -/

/-- LOG_PDELAY, limited to -4 to +5 (R81). -/
def State.logPdelay (s : State) : Int := clampInt (-4) 5 (s.sfld F.PTP.PTP_TIMING.LOG_PDELAY)

/-- The peer-delay state of a port. -/
def State.pd (s : State) : Port → Pdelay
  | .a => s.ptp.pdA
  | .b => s.ptp.pdB

def State.modPd (s : State) (p : Port) (f : Pdelay → Pdelay) : State :=
  s.modPtp fun x => match p with
    | .a => { x with pdA := f x.pdA }
    | .b => { x with pdB := f x.pdB }

/-- A port is UP (R336). -/
def State.portUp (s : State) (p : Port) : Bool := decide (s.fld (F.PORT.PORT_STS.STATE (portNum p)) = 3)

/-- The hub's own MAC address (R339). -/
def State.ownMac (s : State) : Nat := s.fld64 F.HSR.OWN_MAC_LO.MAC_LO F.HSR.OWN_MAC_HI.MAC_HI

/-- The port identity of the hub on a port: CLOCK_ID, with 1 for PORT_A and 2 for PORT_B (R73). -/
def State.portId (s : State) (p : Port) : PortId where
  clock := s.fld64 F.PTP.CLOCK_ID_LO.ID_LO F.PTP.CLOCK_ID_HI.ID_HI
  port := portCode p

/-- A Pdelay message of the hub: without an HSR tag, to the address that PDELAY_DA selects, with a priority tag of 4 bytes that carries
PCP if TX_PRIO_TAG is set (R67, R68). Its length is that of the standard (log entry 7). -/
def State.pdelayFrame (s : State) (m : PdelayMsg) : Frame where
  dst := if s.bit F.PTP.PTP_CTL.PDELAY_DA then 0x0180C200000E else 0x011B19000000
  src := s.ownMac
  prio := if s.bit F.PTP.PTP_CTL.TX_PRIO_TAG then some (s.fld F.PTP.PTP_CTL.PCP) else none
  body := .ptp (.pdelay m)
  bytes := if s.bit F.PTP.PTP_CTL.TX_PRIO_TAG then 76 else 72
  fcsOk := true

/-- The PTP engine uses a port: it is UP, and with NODE_MODE SINGLE it is PORT_A (R338). -/
def State.ptpPort (s : State) (p : Port) : Bool :=
  s.portUp p && (decide (p = .a) || decide (s.fld F.HSR.HSR_CTL.NODE_MODE ≠ 2))

/-- A PTP message waits for ARB_TX; while ARB_TX is frozen it is not sent and not held back (R320, R325). -/
def State.ptpSend (s : State) (p : Port) (m : PdelayMsg) : State :=
  if s.bit F.ARB_TX.ARB_CTL.FREEZE then s
  else (s.modNet fun n => { n with ptpTx := n.ptpTx ++ [(p, s.pdelayFrame m)] }).txAsk 65

/-- The Pdelay_Req with a sequenceId from a port (R67, R72). -/
def State.pdelayReq (s : State) (p : Port) (seq : Nat) : PdelayMsg := ⟨false, s.portId p, seq, 0, none, none⟩

/-- The one-step Pdelay_Resp to a request: the turnaround t3 - t2 in the correction field, a requestReceiptTimestamp of 0, and the
requester's identity and sequenceId (R73). -/
def State.pdelayResp (s : State) (p : Port) (m : PdelayReqMsg) : PdelayMsg :=
  ⟨true, s.portId p, m.seq, ((htNs m.tx : Int) - htNs m.rx) * 2 ^ 16, some ⟨0, 0⟩, some m.src⟩

/-- One Pdelay_Req on a port that is UP; a stamp that cannot be queued leaves the exchange without t1 (R67, R75). -/
def State.pdelaySend (s : State) (p : Port) (ok : Bool) : State :=
  if s.ptpPort p = false then s
  else
    let t := s.now
    let s := s.modPd p fun d =>
      { d with seq := (d.seq + 1) % 2 ^ 16, t1 := if ok then some t else none, asked := true
               lastResp := if d.asked then d.lastResp else s.time.cycles }
    let s := s.ptpSend p (s.pdelayReq p (s.pd p).seq)
    if ok then s else s.tsOverflow p

/-- Every 2^LOG_PDELAY s a Pdelay_Req goes out on each port (R67). -/
def State.pdelayReqSend (s : State) (okA okB : Bool) : State :=
  let s := match s.ptp.pdAt with
    | some c => s.reachCycles (c + logCycles s.logPdelay)
    | none => s
  let s := s.modPtp fun x => { x with pdAt := some s.time.cycles }
  (s.pdelaySend .a okA).pdelaySend .b okB

/-- A Pdelay_Resp completes the exchange in progress: the mean of the last 8 valid exchanges is the link delay, in 1/16 ns
(R72). -/
def State.pdelayRespRx (s : State) (p : Port) (m : PdelayRespMsg) : State :=
  let d := s.pd p
  match d.t1 with
  | none => if m.stampOk then s else s.tsOverflow p
  | some t1 =>
    if m.seq ≠ d.seq then (if m.stampOk then s else s.tsOverflow p)
    else
      let s := s.modPd p fun d => { d with t1 := none }
      if m.stampOk = false then s.tsOverflow p
      else if d.skipNext then s.modPd p fun d => { d with skipNext := false }
      else
        let x : Int := ((htNs m.rx : Int) - htNs t1) * 2 ^ 16 - m.turnaround
        let h := (x :: d.hist).take 8
        let (v, s) := s.roundFree h.sum (2 * h.length * 2 ^ 12)
        (s.setSfld (linkDelayFld p) v).modPd p fun d => { d with hist := h, lastResp := s.time.cycles, lost := false }

/-- No valid response for 3 intervals, on a port that sends requests: the link delay is invalid until the next valid response (R72). -/
def State.pdelayFail (s : State) (p : Port) : State :=
  if (s.pd p).asked && !(s.pd p).lost then
    let s := s.reachCycles ((s.pd p).lastResp + 3 * logCycles s.logPdelay)
    ((s.setFld (linkDelayFld p) 0xFFFFFFFF).modPd p fun d => { d with hist := [], lost := true }).raiseInt Irq.pdelayFail
  else s

/-- A Pdelay_Req is answered with a one-step Pdelay_Resp on the port it came on, where the PTP engine uses it (R73, R338); without its
stamps no answer can be formed (R75). -/
def State.pdelayReqRx (s : State) (p : Port) (m : PdelayReqMsg) : State :=
  if s.ptpPort p = false then s
  else if m.stampOk = false then s.tsOverflow p
  else if s.bit F.ARB_TX.ARB_CTL.FREEZE then s
  else
    let s := s.ptpSend p (s.pdelayResp p m)
    s.count (match p with | .a => F.PTP.PDELAY_RESP_CNT.A | .b => F.PTP.PDELAY_RESP_CNT.B)

/-! ## Pending sums of the transparent clock (R74) -/

/-- The pending sums of Syncs received on a port, newest first. -/
def State.tcSums (s : State) : Port → List TcEntry
  | .a => s.ptp.tcA
  | .b => s.ptp.tcB

def State.setTcSums (s : State) (p : Port) (l : List TcEntry) : State :=
  s.modPtp fun x => match p with
    | .a => { x with tcA := l }
    | .b => { x with tcB := l }

/-- The sum of a forwarded two-step Sync is kept for its Follow_Up; a fifth pushes the oldest out, which is counted (R74). -/
def State.tcKeep (s : State) (p : Port) (e : TcEntry) : State :=
  let l := e :: s.tcSums p
  let s := s.setTcSums p (l.take 4)
  s.when (decide (4 < l.length)) fun s => s.count F.PTP.FU_MISS_CNT.CNT

/-- The pending sum of a Follow_Up, taken out: it matches by source port identity and sequenceId (R74). -/
def State.tcTake (s : State) (p : Port) (src : PortId) (seq : Nat) : Option Int × State :=
  match (s.tcSums p).find? fun e => decide (e.src = src) && decide (e.seq = seq) with
  | none => (none, s)
  | some e => (some e.sum, s.setTcSums p ((s.tcSums p).filter fun x => !(decide (x.src = src) && decide (x.seq = seq))))

/-- The oldest pending sum of a direction is older than 1 s: it is dropped and counted (R74). -/
def State.tcExpire (s : State) (p : Port) : State :=
  match (s.tcSums p).getLast? with
  | none => s
  | some e =>
    ((s.reachCycles (e.at_ + 500000000)).setTcSums p (s.tcSums p).dropLast).count F.PTP.FU_MISS_CNT.CNT

/-! ## The commands -/

/-- SYNC_RX (R71). -/
def execSyncRx (p : Port) (m : SyncMsg) (s : State) : Host.Outcome State Fault Refusal := act (·.syncRx p m) s

/-- FOLLOW_UP_RX (R71). -/
def execFollowUpRx (p : Port) (m : FollowUpMsg) (s : State) : Host.Outcome State Fault Refusal := act (·.followUpRx p m) s

/-- FOLLOW_UP_TIMEOUT (R71). -/
def execFollowUpTimeout (s : State) : Host.Outcome State Fault Refusal := act State.fuTimeout s

/-- ANNOUNCE_RX (R69). Both ports hear the same Announce, so the port does not matter. -/
def execAnnounceRx (_p : Port) (m : AnnounceMsg) (s : State) : Host.Outcome State Fault Refusal := act (·.announceRx m) s

/-- MASTER_SILENCE (R69). -/
def execMasterSilence (s : State) : Host.Outcome State Fault Refusal := act State.masterSilence s

/-- MASTER_LOST (R82). -/
def execMasterLost (s : State) : Host.Outcome State Fault Refusal := act State.masterLost s

/-- PORT_SWITCH (R70). -/
def execPortSwitch (s : State) : Host.Outcome State Fault Refusal := act State.portSwitch s

/-- PDELAY_REQ_SEND (R67). -/
def execPdelayReqSend (okA okB : Bool) (s : State) : Host.Outcome State Fault Refusal := act (·.pdelayReqSend okA okB) s

/-- PDELAY_RESP_RX (R72). -/
def execPdelayRespRx (p : Port) (m : PdelayRespMsg) (s : State) : Host.Outcome State Fault Refusal :=
  act (·.pdelayRespRx p m) s

/-- PDELAY_FAIL (R72). -/
def execPdelayFail (p : Port) (s : State) : Host.Outcome State Fault Refusal := act (·.pdelayFail p) s

/-- PDELAY_REQ_RX (R73). -/
def execPdelayReqRx (p : Port) (m : PdelayReqMsg) (s : State) : Host.Outcome State Fault Refusal :=
  act (·.pdelayReqRx p m) s

/-- TC_ENTRY_EXPIRE (R74). -/
def execTcEntryExpire (ingress : Port) (s : State) : Host.Outcome State Fault Refusal := act (·.tcExpire ingress) s

end Sys2Proof.Machine
end

