-- ==== Sys2Proof/Machine/Trigger.lean ====
section
/-!
DEFINITION. The trigger engine: sources beyond the words (R270 to R273), decisions (R274 to R279), ring triggers on their way
out and in (R272, R353) and wale drives (R273, R366).
-/

namespace Sys2Proof.Machine

/-! ## Wale drives (R365, R366) -/

/-- A trigger pulse on wale line `n` with time `t` reaches the engine (R273, R296). -/
def State.waleTriggers (s : State) (n t : Nat) : State :=
  if s.bit F.TRIG.TRIG_CTL.WALE_RX_EN = false then s
  else s.each (List.range 256) fun s x =>
    if s.srcOn x 3 && (s.fld (F.CTX.TRIG_LINK.WALE_RX x)).testBit n then s.deliver x { t := t, src := 3, srcId := n } else s

/-- A trigger pulse is asked for; only a SOLO or ACTIVE hub drives one (R366). The own contexts that listen to the line receive the edge
with the instant of the drive as T (R273); a drive that adds no pulse makes no edge. -/
def State.waleTrigger (s : State) (line : Nat) : State :=
  if s.leads && s.waleOn then
    let edge := !s.waleDriving line
    (s.walePulse line 80).when edge fun s => s.waleTriggers line (8 * s.nowNs)
  else s

/-! ## Ring triggers (R272, R353) -/

/-- A ring trigger reaches the contexts that listen to its ID (R270). -/
def State.ringDeliver (s : State) (id t origin : Nat) : State :=
  if s.bit F.TRIG.TRIG_CTL.RING_RX_EN = false then s
  else s.each (List.range 256) fun s x =>
    if s.srcOn x 4 && decide (s.fld (F.CTX.TRIG_LINK.RING_RX_ID x) = id) then
      s.deliver x { t := t, src := 4, srcId := id, ring := some origin }
    else s

/-- The payload of a ring trigger with ID `id` and T0 `t` in 125 ps units (R353). -/
def ringWords (id t : Nat) : List Word :=
  let ns := t / 8
  let sec := ns / nsPerSec
  [dataWord (id * 2 ^ 24 + t % 8 * 2 ^ 16 + sec / 2 ^ 32 % 2 ^ 16), dataWord (sec % 2 ^ 32), dataWord (ns % nsPerSec)]

/-- TRIG_MAC (R353). -/
def State.trigMac (s : State) : Nat := s.fld64 F.HSR.TRIG_MAC_LO.MAC_LO F.HSR.TRIG_MAC_HI.MAC_HI

/-- A frame from OWN_MAC for MGMT; the numbers and times of its header are put in when it is handed to the ring node (R351,
R352). -/
def State.ctrlFrame (s : State) (dst ftype : Nat) (words : List Word) : Frame where
  dst := dst
  src := s.ownMac
  body := .hub (s.fld F.HSR.ETHERTYPE.TYPE)
    { stream := 0, pair := false, ctrl := true, ftype := ftype, wcount := words.length, hubId := s.fld F.HSR.HUB_ID.OWN_ID,
      seq := 0, tickLo := 0, ns32 := 0, lost16 := 0 } words
  bytes := 0
  fcsOk := true

/-- A ring trigger falls due to be sent: the own contexts that listen receive it, and its frame waits at MGMT. No hub but a SOLO
or ACTIVE one sends it (R272). -/
def State.ringSend (s : State) (id t : Nat) : State :=
  if s.leads = false then s
  else
    let s := s.ringDeliver id t (s.fld F.HSR.HUB_ID.OWN_ID)
    (s.modNet fun n => { n with mgmtTx := n.mgmtTx ++ [(s.ctrlFrame s.trigMac 7 (ringWords id t), none)] }).txAsk 64

/-- The T0 of the RTX registers in 125 ps units. -/
def State.rtxT0 (s : State) : Nat :=
  ((s.fld F.TRIG.RTX_T0_SEC_HI.SEC_HI * 2 ^ 32 + s.fld F.TRIG.RTX_T0_SEC_LO.SEC_LO) * nsPerSec
    + s.fld F.TRIG.RTX_T0_NS.NS) * 8 + s.fld F.TRIG.RTX_T0_SEC_HI.SUB

/-- A write of RTX_CMD (R272, R296). -/
def State.writeRtx (s : State) (v : Reg) : State :=
  if v.getLsbD 0 then s.ringSend (s.fld F.TRIG.RTX_ID.ID) (if v.getLsbD 1 then 8 * s.nowNs else s.rtxT0) else s

/-- RTX_SEND (R272). -/
def execRtxSend (now : Bool) (s : State) : Host.Outcome State Fault Refusal := actW (·.writeRtx (if now then 3#32 else 1#32)) s

/-! ## The trigger tick (R275, R276) -/

/-- The index after which the trigger tick of T lies because of a backward step: the grid is in CATCHUP, or T lies in a span of
hub time traversed twice. -/
def State.trigAfter (s : State) (t : Nat) : Option Nat :=
  match s.grid.backs.find? fun e => decide (8 * e.1 ≤ t) && decide (t < 8 * e.2.1) with
  | some e => some e.2.2
  | none =>
    if s.gridSt = gridCatchup then
      some (match s.grid.backs with
        | e :: _ => e.2.2
        | [] => s.lastIdx)
    else none

/-- The trigger tick is the one with index `idx` at instant `at_` in 1/64 ns: TRIG_FRAC follows (R275). A TRIG_FRAC that no
whole number of units gives is rounded either way (log entry 3). -/
def State.trigTickIs (s : State) (x idx at_ : Nat) : State :=
  let c := s.getCtx x
  match c.acc with
  | none => s
  | some t =>
    let (f, s) := if c.tstepTrig.isSome then ((0x1FFFFFFFF : Int), s) else s.roundFree ((at_ : Int) - (8 * t.t : Nat)) 8
    s.setCtx x { c with trigIdx := some idx, frac := unsigned 33 f }

/-- The trigger tick of an accepted trigger is looked for among the ticks issued so far. -/
def State.trigLook (s : State) (x : Nat) : State :=
  let c := s.getCtx x
  match c.acc with
  | none => s
  | some t =>
    match s.firstTick (match c.tstepTrig with | some _ => 0 | none => 8 * t.t) c.tstepTrig with
    | some (idx, at_) => s.trigTickIs x idx at_
    | none => s

/-- A tick is issued: it is the trigger tick of every context that still waits for one. The record of a context in DONE shows it
(R275, R298). -/
def State.trigTick (s : State) (x : Nat) : State :=
  let c := s.getCtx x
  if c.acc.isSome ∧ c.trigIdx.isNone ∧ cxPost ≤ s.cxSt x then
    let s := s.trigLook x
    if (s.getCtx x).trigIdx.isSome ∧ cxDone ≤ s.cxSt x then s.recTick x else s
  else s

/-! ## Decisions (R274 to R280) -/

/-- The trigger position of a member among its positions so far: its number and tick index (R275). -/
def memberTrigPos (trig : Nat) (m : Member) : Option (Nat × Nat) :=
  ((positions m).filter fun e => decide (trig ≤ e.2.idx)).getLast?.map fun e => (e.1, e.2.idx)

/-- L of a member (R278). -/
def lateness (m : Member) : Nat := m.accLate

/-- The trigger position of a member that has passed the tick of index `i`, and its lateness at acceptance (R275, R278, R285). -/
def memberTake (i : Nat) (measures : Bool) (m : Member) : Member :=
  match memberTrigPos i m with
  | some (p, idx) => { m with trigPos := some p, trigIdx := idx, measLate := measures, accLate := m.pos - 1 - p }
  | none => { m with accLate := 0 }

/-- A member that holds its positions, or whose channel gives no more, is complete (R281). -/
def memberClose (pe : Nat) (m : Member) : Member :=
  let full := match m.trigPos with
    | some p => decide (pe ≤ m.pos - p)
    | none => false
  if full || memberEnds m then { m with done := true } else m

/-- The trigger is put in force, its tick still open (R275, R276). -/
def State.cxForce (s : State) (x : Nat) (t : Trigger) : State :=
  let after := s.trigAfter t.t
  s.modCtx x fun c =>
    { c with acc := some t, trigIdx := none, frac := 0, tstepTrig := after, ignored := 0, aborted := false,
             tstep := c.tstep || after.isSome }

/-- The trigger is put in force: its tick, and the trigger position of every member that has passed it; measurements that begin
late say so (R275, R276, R285). -/
def State.cxTake (s : State) (x : Nat) (t : Trigger) : State :=
  let s := (s.cxForce x t).trigLook x
  let measures := decide (s.fld (F.CTX.CTX_CFG.MEAS_SET x) ≠ 0)
  match (s.getCtx x).trigIdx with
  | none => s
  | some i => s.modCtx x fun c => { c with members := c.members.map (memberTake i measures) }

/-- The trigger comes later than the history of some member allows: the trigger position is overwritten, or C positions and more follow
it, those that the divisor leaves out included (R278, R286). -/
def State.cxTooLate (s : State) (x : Nat) : Bool :=
  let c := s.getCtx x
  match c.trigIdx with
  | none => false
  | some i => c.members.any fun m =>
    (match m.lostIdx with
     | some l => decide (i ≤ l)
     | none => false) || (m.trigPos.isSome && decide (s.cxC x ≤ m.accLate))

/-- The context goes on from an accepted trigger: POST with the members that are already complete, or DONE (R267, R280,
R281). -/
def State.cxAfterTrigger (s : State) (x : Nat) : State :=
  let pe := s.cxPostEff x
  if pe = 0 then s.cxFinish x
  else
    let s := s.cxEnter x cxPost
    let s := s.modCtx x fun c => { c with members := c.members.map (memberClose pe) }
    s.cxCheckDone x

/-- T of a trigger as a stamp. -/
def stampOf (t : Nat) : Stamp :=
  let ns := t / 8
  ⟨ns / nsPerSec, ns % nsPerSec / 2 * 2, t % 8 + ns % 2 * 8⟩

/-- The chained contexts receive the trigger, a ring trigger and a wale pulse go out (R270, R272, R273). A trigger that comes from
the ring is not sent on. -/
def State.cxPassOn (s : State) (x : Nat) (t : Trigger) : State :=
  let s := s.each (List.range 256) fun s y =>
    if s.srcOn y 5 && decide (s.fld (F.CTX.TRIG_LINK.CHAIN_SRC y) = x) then
      s.deliver y { t := t.t, src := 5, srcId := x, ring := t.ring }
    else s
  let s := s.when (s.bit (F.CTX.CTX_CFG.RING_TX_EN x) && t.ring.isNone) fun s =>
    s.ringSend (s.fld (F.CTX.TRIG_LINK.RING_TX_ID x)) t.t
  s.when (s.bit (F.CTX.CTX_CFG.WALE_TX_EN x)) fun s => s.waleTrigger (s.fld (F.CTX.CTX_CFG.WALE_TX_LINE x))

/-- An accepted trigger: the record number, the decision for the partner, the record, and what it sets off (R274, R387). -/
def State.cxAccept (s : State) (x : Fin 256) (t : Trigger) : State :=
  let s := s.setFld (F.CTX.REC_NO.NUM x.val) (s.fld (F.CTX.REC_NO.NUM x.val) + 1)
  let c := s.getCtx x.val
  let s := s.sendDecision (.trigger x (s.fld (F.CTX.REC_NO.NUM x.val)) (stampOf t.t) (s.trigTickOf x.val).1 t.src t.srcId
    (c.members.map lateness))
  (s.cxAfterTrigger x.val).cxPassOn x.val t

/-- One trigger is decided (R267, R274, R279, R283). -/
def State.cxDecide (s : State) (x : Fin 256) (t : Trigger) : State :=
  let st := s.cxSt x.val
  if st = cxIdle then s
  else if t.asleep then s.cxIgnore x.val
  else if st ≠ cxFill ∧ st ≠ cxArmed then s.cxIgnore x.val
  else if 8 * (t.arrival + nsPerSec) < t.t then s.count (F.CTX.BADTIME_CNT.CNT x.val)
  else
    let s' := s.cxTake x.val t
    if s'.cxTooLate x.val then (s.count (F.CTX.TOO_LATE_CNT.CNT x.val)).raiseInt Irq.tooLate
    else if st = cxFill ∧ s.bit (F.CTX.ARM.PRE_STRICT x.val) then s.count (F.CTX.PRE_STRICT_CNT.CNT x.val)
    else s'.cxAccept x t

/-- Trigger `a` is taken before trigger `b` of the same decision: by T, source code and SRC_ID (R274). -/
def trigBefore (a b : Trigger) : Bool :=
  if a.t ≠ b.t then decide (a.t < b.t)
  else if a.src ≠ b.src then decide (a.src < b.src)
  else decide (a.srcId ≤ b.srcId)

/-- Inserts a trigger in the order of a decision, behind those that come first. -/
def trigInsert (a : Trigger) : List Trigger → List Trigger
  | [] => [a]
  | b :: l => if trigBefore b a then b :: trigInsert a l else a :: b :: l

/-- The triggers of a decision in their order (R274). -/
def trigSort (l : List Trigger) : List Trigger := l.foldl (fun acc t => trigInsert t acc) []

/-- One decision: every trigger that has reached the context is decided (R274). A standby takes no decision of its own, and a hub
that yields takes none any more (R387, R402). -/
def State.triggerDecision (s : State) (x : Fin 256) : State :=
  if s.leads = false ∨ s.yielding ∨ s.stalledAt pgTRIG then s
  else
    let l := trigSort (s.getCtx x.val).waiting
    (s.modCtx x.val fun c => { c with waiting := [] }).each l fun s t => s.cxDecide x t

/-- TRIGGER_DECISION (R274). -/
def execTriggerDecision (x : Fin 256) (s : State) : Host.Outcome State Fault Refusal := act (·.triggerDecision x) s

/-- The trigger position of a member on a standby: the active's lateness `l` counts back from its newest position (R278, R387). -/
def memberMirror (i : Nat) (measures : Bool) (m : Member) (l : Nat) : Member :=
  match memberTrigPos i m with
  | some (_, idx) =>
    let p := m.pos - 1 - l
    let at_ := match (positions m).find? fun e => decide (e.1 = p) with
      | some e => e.2.idx
      | none => idx
    { m with trigPos := some p, trigIdx := at_, measLate := measures, accLate := l }
  | none => { m with accLate := l }

/-- The trigger tick that the active has sent is put in force once this hub has issued it; until then the next ticks are looked at, as on the
active (R275, R387). -/
def State.trigBind (s : State) (x t idx : Nat) : State :=
  if s.grid.last.isNone ∨ s.lastIdx < idx then s
  else
    match s.firstTick (8 * t) none with
    | some (i, at_) => s.trigTickIs x idx (if i = idx then at_ else s.idxTu idx)
    | none => s.trigTickIs x idx (s.idxTu idx)

/-- A trigger that the active has accepted is taken by the standby, with the trigger tick and each member's lateness as the active found them
(R387). -/
def State.cxMirror (s : State) (x recNo t idx src srcId : Nat) (late : List Nat) : State :=
  let s := s.setFld (F.CTX.REC_NO.NUM x) recNo
  let ring : Option Nat := if src = 4 then some (s.fld F.TRIG.RRX_INFO.ORIGIN) else none
  let s := s.cxForce x { t := t, src := src, srcId := srcId, ring := ring, arrival := s.nowNs }
  let s := s.trigBind x t idx
  let measures := decide (s.fld (F.CTX.CTX_CFG.MEAS_SET x) ≠ 0)
  let s := match (s.getCtx x).trigIdx with
    | none => s
    | some i => s.modCtx x fun c =>
        { c with members := c.members.zipIdx.map fun (e : Member × Nat) => memberMirror i measures e.1 (late.getD e.2 0) }
  s.cxAfterTrigger x

/-! ## Sources (R270) -/

/-- A crossing of sentinel `n` with stamp `t` reaches the engine. -/
def State.crossTriggers (s : State) (n t : Nat) : State :=
  s.each (List.range 256) fun s x =>
    if s.srcOn x 1 && (s.fld (F.CTX.TRIG_SRC.SENT_MASK x)).testBit n then s.deliver x { t := t, src := 1, srcId := n } else s

/-- The next timer instant of a context in ms: at or after hub time and later than the previous one (R270). -/
def State.timerNext (s : State) (x : Nat) : Nat :=
  let per := s.fld (F.CTX.TIMER_PERIOD.MS x)
  let ph := s.fld (F.CTX.TIMER_PHASE.MS x)
  let lo := ceilDiv s.nowNs 1000000
  let lo := match (s.getCtx x).lastTimer with
    | some l => max lo (l + 1)
    | none => lo
  if lo ≤ ph then ph else ph + ceilDiv (lo - ph) per * per

/-- The timer of a context fires at its next instant, to which time runs on (R270). -/
def State.timerFire (s : State) (x : Nat) : State :=
  if s.cxSt x ≠ cxIdle ∧ s.srcOn x 6 ∧ 0 < s.fld (F.CTX.TIMER_PERIOD.MS x) then
    let t := s.timerNext x
    let s := (s.reachNs (t * 1000000)).modCtx x fun c => { c with lastTimer := some t }
    s.deliver x { t := 8 * (t * 1000000), src := 6, srcId := 0 }
  else s

/-- TIMER_TRIGGER (R270). -/
def execTimerTrigger (x : Fin 256) (s : State) : Host.Outcome State Fault Refusal := act (·.timerFire x.val) s

end Sys2Proof.Machine
end

