-- ==== Sys2Proof/Machine/Readout.lean ====
section
/-!
DEFINITION. The readout engines (R290 to R294), the scrub of capture memory (R294), and what the TRIG and CTX pages show of a
record (R296, R298).
-/

namespace Sys2Proof.Machine

/-! ## Errors in capture memory (R294) -/

/-- The error of a capture word: 0 none, 1 correctable, 2 not. -/
def State.capErr (s : State) (a : Nat) : Nat := sget 0 s.capEcc a

/-- A single-bit error is corrected and written back. -/
def State.capFix (s : State) (a : Nat) : State :=
  if s.capErr a = 1 then
    ({ s with capEcc := sset 0 s.capEcc a 0 }.count F.TRIG.ECC_SGL_CNT.CNT).raiseFault Flt.capEccSgl
  else s

/-- An uncorrectable error is counted. -/
def State.capLost (s : State) (x : Nat) : State :=
  ((s.count F.TRIG.ECC_DBL_CNT.CNT).count (F.CTX.ECC_LOST.CNT x)).raiseFault Flt.capEccDbl

/-! ## Packets (R291, R292) -/

/-- A packet of a record: the RECORD_START marker, extension words, contents. -/
def State.recPacket (s : State) (x : Nat) (ext : List Nat) (tail : List Word) : List Word :=
  mkRecordStart x (s.fld (F.CTX.REC_NUM.NUM x)) :: ext.map markWord ++ tail

/-- The extension words of the header packet. -/
def State.headerExt (s : State) (x : Nat) : List Nat :=
  let r (f : Fld) : Nat := s.fld f
  [r (F.CTX.ARM_INFO.K x) * 2 ^ 18 + b2n (s.cxTap x) * 2 ^ 17 + r (F.CTX.REC_INFO.SRC x) * 2 ^ 14
     + r (F.CTX.REC_TFRAC_HI.FRAC32 x) * 2 ^ 13 + r (F.CTX.REC_INFO.SUB x) * 2 ^ 10,
   r (F.CTX.REC_NUM.NUM x),
   r (F.CTX.REC_INFO.SRC_ID x) * 2 ^ 16 + r (F.CTX.REC_T_SEC_HI.SEC_HI x),
   r (F.CTX.REC_T_SEC_LO.SEC_LO x),
   r (F.CTX.REC_T_NS.NS x),
   r (F.CTX.REC_TFRAC_LO.FRAC x),
   r (F.CTX.REC_TIDX_HI.IDX_HI x),
   r (F.CTX.REC_TIDX_LO.IDX_LO x),
   r (F.CTX.REC_FLAGS.FLAGS x),
   s.cxPre x,
   s.cxPostEff x,
   r (F.CTX.REC_ORIGIN.HUB x) * 2 ^ 16]

/-- The extension words of a channel packet. -/
def channelExt (m : Member) : List Nat :=
  [1 * 2 ^ 28 + m.ch * 2 ^ 19 + b2n m.late * 2 ^ 18 + b2n m.shortPre * 2 ^ 17 + b2n m.measLate * 2 ^ 16,
   m.preActual % 2 ^ 20, m.postActual % 2 ^ 20, m.count % 2 ^ 21, m.firstTick % 2 ^ 32, m.trigTick % 2 ^ 32]

/-- The measurement words of a channel packet: PERIOD and TMAX carry no flags. -/
def channelTail (m : Member) : List Word :=
  m.results.mapIdx fun i v => packWord ⟨v, if i < 5 then m.resFlags else {}⟩

/-- What the next data packet takes from slot `i` of a member's record (R293, R294): the slots skipped ahead of it, the number of
its first slot, its contents in order and the slot that follows. -/
structure Gather where
  lost : Nat := 0
  first : Nat := 0
  words : List Word := []
  next : Nat := 0
deriving DecidableEq, Repr

/-- Collects slots `i` onward of a record of `n` slots. `room` is what the packet still takes. -/
def State.gather (s : State) (x k first n : Nat) : Nat → Nat → Gather → Gather
  | 0, _, g => g
  | room + 1, i, g =>
    if n ≤ i then g
    else
      let a := s.cxAddr x k ((first + i) % s.cxC x)
      if s.capErr a = 2 then
        (if g.words.isEmpty then s.gather x k first n room (i + 1) { g with lost := g.lost + 1, first := i + 1, next := i + 1 }
         else g)
      else
        let w := s.capWord a
        let g := { g with words := g.words ++ [w], next := i + 1 }
        if w.getLsbD 32 then g else s.gather x k first n room (i + 1) g

/-- A MRK bit at position 32 ends the packet; an uncorrectable slot at the start is skipped without taking room. -/
def State.gatherFrom (s : State) (x k first n max i : Nat) : Gather :=
  let skip := ((List.range (n - i)).takeWhile fun j => decide (s.capErr (s.cxAddr x k ((first + i + j) % s.cxC x)) = 2)).length
  let g := s.gather x k first n max (i + skip) { lost := skip, first := i + skip, next := i + skip }
  g

/-! ## Engines (R290) -/

/-- Engine 0 is RD_0, engine 1 is RD_1. -/
def State.engine (s : State) (e : Nat) : Option Engine := if e = 0 then s.trig.rd0 else s.trig.rd1

/-- Sets what an engine does. -/
def State.setEngine (s : State) (e : Nat) (v : Option Engine) : State :=
  s.modTrig fun t => if e = 0 then { t with rd0 := v } else { t with rd1 := v }

/-- The record served next: the first completed, ties going to the lower context number. -/
def nextRecord : List (Nat × Nat) → Option (Nat × Nat)
  | [] => none
  | a :: l =>
    match nextRecord l with
    | some b => if b.1 < a.1 ∨ (b.1 = a.1 ∧ b.2 < a.2) then some b else some a
    | none => some a

/-- The readout queue of an engine that has just begun, or has just written a packet, stands at or above its high watermark (R288,
R319). -/
def State.hwmWatch (s : State) (q : Nat) : State := s.when (decide (s.fld (F.Q.WM.HWM q) ≤ s.qLevel q)) fun s => s.hwmMark q

/-- A free engine takes the next completed record. -/
def State.readoutStart (s : State) : State :=
  let free := if s.trig.rd0.isNone then some 0 else if s.trig.rd1.isNone then some 1 else none
  match free, (if s.stalledAt pgTRIG then none else nextRecord s.trig.order) with
  | some e, some r =>
    let s := s.modTrig fun t => { t with order := t.order.erase r }
    let s := s.setFld (if e = 0 then F.TRIG.RD_CTX.RD0_CTX else F.TRIG.RD_CTX.RD1_CTX) r.2
    (s.setEngine e (some { ctx := r.2 })).hwmWatch (s.fld (F.CTX.CTX_CFG.RO_Q r.2))
  | _, _ => s

/-- READOUT_START (R290). -/
def execReadoutStart (s : State) : Host.Outcome State Fault Refusal := act State.readoutStart s

/-- The next packet of an engine: its words without PKT_HDR, and the engine's state after it; none in a free engine. A data packet
that finds nothing left but uncorrectable slots has no words. -/
def State.enginePacket (s : State) (g : Engine) : List Word × Engine :=
  let x := g.ctx
  let c := s.getCtx x
  let n := c.held.length
  let ended : List Word × Engine :=
    (s.recPacket x [3 * 2 ^ 28 + b2n c.released * 2 ^ 27 + b2n (decide (0 < g.skipped)) * 2 ^ 26, satNat 0xFFFFFFFF g.skipped] [],
     { g with phase := 4 })
  if c.released then ended
  else if g.phase = 0 then (s.recPacket x (s.headerExt x) [], { g with phase := if n = 0 then 3 else 1 })
  else if g.phase = 1 then
    let m := c.held.getD g.k { ch := 0 }
    (s.recPacket x (channelExt m) (channelTail m),
     if m.count = 0 then { g with phase := if g.k + 1 < n then 1 else 3, k := g.k + 1, slot := 0, lost := 0 }
     else { g with phase := 2, slot := 0, lost := 0 })
  else if g.phase = 2 then
    let m := c.held.getD g.k { ch := 0 }
    let q := s.fld (F.CTX.CTX_CFG.RO_Q x)
    let room := s.pktMax q - 4
    let r := s.gatherFrom x g.k m.first m.count (if 285 < room then 285 else room) g.slot
    let last := decide (m.count ≤ r.next)
    let lost := g.lost + r.lost
    let words : List Word :=
      if r.words.isEmpty then []
      else s.recPacket x [2 * 2 ^ 28 + m.ch * 2 ^ 19 + satNat 0x7FFFF lost, r.first % 2 ^ 21] r.words
    (words, { g with
      phase := if last then (if g.k + 1 < n then 1 else 3) else 2
      k := if last then g.k + 1 else g.k
      slot := if last then 0 else r.next
      lost := 0
      skipped := g.skipped + r.lost })
  else ended

/-- The slots that the next packet of an engine reads: corrected errors are written back, uncorrectable ones counted (R294). -/
def State.engineReads (s : State) (g after : Engine) : State :=
  if g.phase ≠ 2 ∨ (s.getCtx g.ctx).released then s
  else
    let m := (s.getCtx g.ctx).held.getD g.k { ch := 0 }
    let stop := if after.k = g.k then after.slot else m.count
    let addr (i : Nat) : Nat := s.cxAddr g.ctx g.k ((m.first + g.slot + i) % s.cxC g.ctx)
    let s := s.each (List.range (stop - g.slot)) fun s i => s.capFix (addr i)
    s.each (List.range (after.skipped - g.skipped)) fun s _ => s.capLost g.ctx

/-- The queue takes the packet without its full policy; a standby stages it (R290, R389). -/
def State.engineMay (s : State) (q len : Nat) : Bool := s.follows || (s.leads && s.qAccepts q len)

/-- An engine writes the next packet of its record once the queue can take it; while ARB_MEM is frozen it waits (R290, R325).
After the end packet the engine is free and the record is released (R268). -/
def State.readoutPacket (s : State) (e : Nat) : State :=
  match (if s.stalledAt pgTRIG then none else s.engine e) with
  | none => s
  | some g =>
    let q := s.fld (F.CTX.CTX_CFG.RO_Q g.ctx)
    let (words, after) := s.enginePacket g
    if s.bit F.ARB_MEM.ARB_CTL.FREEZE ∨ (!words.isEmpty && !s.engineMay q (words.length + 1)) then s
    else
      let s := s.engineReads g after
      let s := s.when (!words.isEmpty) fun s => (s.offer q typRecord words).hwmWatch q
      if after.phase = 4 then
        let s := (s.setEngine e none).raiseInt Irq.roDone
        if h : g.ctx < 256 then s.cxRelease ⟨g.ctx, h⟩ else s
      else s.setEngine e (some after)

/-- READOUT_PACKET (R291). -/
def execReadoutPacket (eng : Fin 2) (s : State) : Host.Outcome State Fault Refusal := act (·.readoutPacket eng.val) s

/-- The words of capture memory (R262). -/
abbrev capWords : Nat := 1310720

/-- One burst of the scrub: 16 words, corrected in place; it pauses while ARB_MEM is frozen (R294, R325). -/
def State.scrubBurst (s : State) : State :=
  if s.bit F.TRIG.TRIG_CTL.SCRUB_EN && !s.bit F.ARB_MEM.ARB_CTL.FREEZE && !s.stalledAt pgTRIG && !s.stalledAt pgARBMEM then
    let a := s.trig.scrub
    (s.each (List.range 16) fun s i => s.capFix (a + i)).modTrig fun t => { t with scrub := (a + 16) % capWords }
  else s

/-- SCRUB_BURST (R294). -/
def execScrubBurst (s : State) : Host.Outcome State Fault Refusal := act State.scrubBurst s

/-! ## What the pages show (R296, R298) -/

/-- The member that MEMB_SEL of a context shows; none for K or more (R298). -/
def State.memberShown (s : State) (x : Nat) : Option Member := (s.getCtx x).held[s.fld (F.CTX.MEMB_SEL.K x)]?

/-- The member registers 0x204 to 0x23C of a context. -/
def State.memberReg (s : State) (x off : Nat) : Reg :=
  match s.memberShown x with
  | none => 0
  | some m =>
    let r (i : Nat) : Nat := unsigned 32 (m.results.getD i 0)
    let v : Nat :=
      if off = 0x204 then m.ch * 2 ^ 23 + b2n m.late * 2 ^ 22 + b2n m.shortPre * 2 ^ 21 + b2n m.measLate * 2 ^ 20
      else if off = 0x208 then m.firstSlot
      else if off = 0x20C then m.count
      else if off = 0x210 then m.preActual
      else if off = 0x214 then m.postActual
      else if off = 0x218 then m.firstTick
      else if off = 0x21C then m.trigTick
      else if off = 0x220 then r 0
      else if off = 0x224 then r 1
      else if off = 0x228 then r 2
      else if off = 0x22C then r 3
      else if off = 0x230 then r 4
      else if off = 0x234 then r 5
      else if off = 0x238 then r 6
      else 0x80 + flagBits m.resFlags * 2
    BitVec.ofNat 32 v

/-- CAP_DEMAND in 1,000 words/s, rounded down, saturating (R296). -/
def State.capDemandK (s : State) : Nat := satNat 0xFFFFFFFF (fracFloor s.capDemand / 1000)

end Sys2Proof.Machine
end

