-- ==== Sys2Proof/Machine/Arb.lean ====
section
/-!
DEFINITION. The two arbiters (R320 to R328): requests, classes and decisions, break points, freezing and starvation, and the
frames that ARB_TX hands to the ring node (R339, R348 to R352).
-/

namespace Sys2Proof.Machine

/-! ## An arbiter (R320 to R323) -/

/-- The arbiter's state. -/
def State.arb (s : State) : Arbiter → Arb
  | .mem => s.arbMem
  | .tx => s.arbTx

/-- Changes the arbiter's state. -/
def State.modArb (s : State) (a : Arbiter) (f : Arb → Arb) : State :=
  match a with
  | .mem => { s with arbMem := f s.arbMem }
  | .tx => { s with arbTx := f s.arbTx }

/-- The number of requesters. -/
def arbCount : Arbiter → Nat
  | .mem => 8
  | .tx => 66

/-- The class field of requester `i`. -/
def arbClassFld : Arbiter → Nat → Fld
  | .mem, i => ⟨0x00B048, 2 * i, 2⟩
  | .tx, i => if i < 64 then ⟨0x00C100 + 4 * (i / 16), 2 * (i % 16), 2⟩ else ⟨0x00C110, 2 * (i - 64), 2⟩

/-- The class of a requester. -/
def State.arbClass (s : State) (a : Arbiter) (i : Nat) : Nat := s.fld (arbClassFld a i)

/-- FREEZE (R325). -/
def State.arbFrozen (s : State) : Arbiter → Bool
  | .mem => s.bit F.ARB_MEM.ARB_CTL.FREEZE
  | .tx => s.bit F.ARB_TX.ARB_CTL.FREEZE

/-- BURST_LIMIT; 0 acts as 1 (R322). -/
def State.arbLimit (s : State) (a : Arbiter) : Nat :=
  max 1 (match a with
    | .mem => s.fld F.ARB_MEM.BURST_LIMIT.BURSTS
    | .tx => s.fld F.ARB_TX.BURST_LIMIT.FRAMES)

/-- The order of round robin after index `last` (R321). -/
def arbOrder (n last : Nat) : List Nat := (List.range n).map fun k => (last + 1 + k) % n

/-- The requester that a decision grants: in the highest class with a waiting requester, the first one after the most recently
served of that class (R321). -/
def State.arbPick (s : State) (a : Arbiter) (req : List Nat) : Option Nat :=
  (List.range 4).findSome? fun c =>
    (arbOrder (arbCount a) ((s.arb a).served.getD c 0)).find? fun i => req.contains i && decide (s.arbClass a i = c)

/-- The requesters that wait, each with the time its request began; the owner does not wait (R326). -/
def State.arbWaits (s : State) (a : Arbiter) (req : List Nat) : State :=
  let now := s.elapsedNs
  s.modArb a fun x =>
    let wait := req.filter fun i => decide (x.owner ≠ some i)
    { x with waiting := wait.map fun i => (x.waiting.find? fun e => decide (e.1 = i)).getD (i, now)
             starved := x.starved.filter wait.contains }

/-- STARVE_NS (R326). -/
def State.starveNs (s : State) : Arbiter → Nat
  | .mem => s.fld F.ARB_MEM.STARVE_NS.NS
  | .tx => s.fld F.ARB_TX.STARVE_NS.NS

/-- The sticky bit of a requester. -/
def starveFld : Arbiter → Nat → Fld
  | .mem, i => ⟨0x00B054, i, 1⟩
  | .tx, i => ⟨0x00C140 + 4 * (i / 32), i % 32, 1⟩

/-- Requester `i` has waited for `w` ns: a wait above STARVE_NS sets its STARVE bit, once per wait (R326). -/
def State.starveMark (s : State) (a : Arbiter) (i w : Nat) : State :=
  if s.starveNs a ≠ 0 ∧ s.starveNs a < w ∧ (s.arb a).starved.contains i = false then
    ((s.setBit (starveFld a i) true).raiseInt (match a with | .mem => Irq.memStarve | .tx => Irq.txStarve)).modArb a fun x =>
      { x with starved := i :: x.starved }
  else s

/-- The wait of a requester ends with its grant: one above STARVE_NS is marked, and the longest is kept (R326). -/
def State.arbWaited (s : State) (a : Arbiter) (i w : Nat) : State :=
  let s := (s.starveMark a i w).modArb a fun x => { x with starved := x.starved.filter fun j => decide (j ≠ i) }
  match a with
  | .mem =>
    (s.when (decide (s.fld (F.ARB_MEM.WAIT_MAX.NS i) < w)) fun s => s.setFld (F.ARB_MEM.WAIT_MAX.NS i) (satNat (2 ^ 32 - 1) w)).count
      (F.ARB_MEM.GRANT_CNT.CNT i)
  | .tx =>
    s.when (decide (s.fld F.ARB_TX.WAIT_MAX.NS < w)) fun s =>
      (s.setFld F.ARB_TX.WAIT_MAX.NS (satNat (2 ^ 32 - 1) w)).setFld F.ARB_TX.WAIT_MAX_ID.IDX i

/-- A grant: the owner counts as most recently served in its class, with a fresh count of break units (R322). -/
def State.arbGrant (s : State) (a : Arbiter) (i : Nat) : State :=
  let w := match (s.arb a).waiting.find? fun e => decide (e.1 = i) with
    | some e => s.elapsedNs - e.2
    | none => 0
  let c := s.arbClass a i
  (s.modArb a fun x =>
    { x with owner := some i, units := 0, served := x.served.set c i, waiting := x.waiting.filter fun e => decide (e.1 ≠ i) }).arbWaited
    a i w

/-- The grant ends without a new one; on a frozen arbiter DRAINED is raised (R325). -/
def State.arbEnd (s : State) (a : Arbiter) : State :=
  let s := s.modArb a fun x => { x with owner := none, units := 0 }
  s.when (s.arbFrozen a) fun s => s.raiseInt (match a with | .mem => Irq.memDrained | .tx => Irq.txDrained)

/-- A decision (R321). -/
def State.arbDecide (s : State) (a : Arbiter) (req : List Nat) : State :=
  match s.arbPick a req with
  | some i => s.arbGrant a i
  | none => s.arbEnd a

/-- A new decision at a break point of owner `o`, which counts as most recently served in its class (R322). -/
def State.arbYield (s : State) (a : Arbiter) (o : Nat) (req : List Nat) : State :=
  (s.modArb a fun x => { x with served := x.served.set (s.arbClass a o) o }).arbDecide a req

/-- A break point of owner `o`, which still requests (R322, R325). -/
def State.arbBreak (s : State) (a : Arbiter) (o : Nat) (req : List Nat) : State :=
  let u := (s.arb a).units + 1
  let c := s.arbClass a o
  let spent := decide (s.arbLimit a ≤ u)
  let higher := req.any fun i => decide (s.arbClass a i < c)
  let peer := req.any fun i => decide (i ≠ o) && decide (s.arbClass a i ≤ c)
  if s.arbFrozen a then (if spent then s.arbEnd a else s.modArb a fun x => { x with units := u })
  else if higher || (spent && peer) then s.arbYield a o req
  else s.modArb a fun x => { x with units := u }

/-- The arbiter acts on the requests as they stand: a break point of its owner, or a decision (R321, R322). -/
def State.arbAct (s : State) (a : Arbiter) (req : List Nat) : State :=
  let s := s.arbWaits a req
  match (s.arb a).owner with
  | some o =>
    if req.contains o then s.arbBreak a o req
    else if s.arbFrozen a then s.arbEnd a
    else s.arbDecide a req
  | none => if s.arbFrozen a then s else s.arbDecide a req

/-! ## ARB_MEM -/

/-- The owner of the capture memory, a capture writer, stores one burst of up to 16 words; they count toward the 1,024 that part two
steps of reduction (R287, R322). -/
def State.memBurst (s : State) : State :=
  match s.arbMem.owner with
  | some w =>
    if w < 4 then
      let (lv, since) := s.trig.wr.getD w (0, 0)
      (s.setWriter w (lv - 16) (satNat 1024 (since + min 16 lv))).writerCheck w
    else s
  | none => s

/-- ARB_MEM acts on the requests given: one break unit of the owner has passed, or the memory is free (R321, R322). -/
def State.memGrant (s : State) (req : BitVec 8) : State :=
  if s.stalledAt pgARBMEM then s else (s.arbAct .mem ((List.range 8).filter fun i => req.getLsbD i)).memBurst

/-- ARB_MEM_GRANT (R321). -/
def execArbMemGrant (req : BitVec 8) (s : State) : Host.Outcome State Fault Refusal := act (·.memGrant req) s

/-! ## Frames that go to the ring node (R339, R348 to R352) -/

/-- Frames carry an HSR tag (R338). -/
def State.hsrMode (s : State) : Bool := decide (s.fld F.HSR.HSR_CTL.NODE_MODE = 1)

/-- STREAM_MAC (R339). -/
def State.streamMac (s : State) : Nat := s.fld64 F.HSR.STREAM_MAC_LO.MAC_LO F.HSR.STREAM_MAC_HI.MAC_HI

/-- DST_MAC (R348). -/
def State.dstMac (s : State) : Nat := s.fld64 F.HSR.DST_MAC_LO.MAC_LO F.HSR.DST_MAC_HI.MAC_HI

/-- The length of a hub frame of `n` words, from destination address to FCS (R348). -/
def hubFrameBytes (tagged : Bool) (n : Nat) : Nat := max 64 ((if tagged then 48 else 42) + 5 * n)

/-- A local frame is taken by the ring node: with HSR it gets the next number of its address, one for both copies (R339, R340); it
is held until it has been sent on every port that is UP (R345). -/
def State.nodeTake (s : State) (own : Bool) (f : Frame) (n : Nat) : State :=
  let fld := if own then F.HSR.HSR_SEQ.OWN else F.HSR.HSR_SEQ.STREAM
  let t := s.hsrMode
  let f := { f with hsr := if t then some ⟨0, hubFrameBytes t n - 18, s.fld fld⟩ else none, bytes := hubFrameBytes t n }
  let s := s.when t fun s => s.setFld fld (s.fld fld + 1)
  let a := s.portUp .a
  let b := s.portUp .b && t
  if a || b then s.modNet fun x => { x with local_ := some (f, a, b), localEnd := 0 } else s

/-- The frame of a packet of queue `q` (R348 to R351). -/
def State.queueFrame (s : State) (q : Nat) (p : Pkt) (ws : List Word) : Frame where
  dst := s.dstMac
  src := s.streamMac
  body := .hub (s.fld F.HSR.ETHERTYPE.TYPE)
    { stream := q, pair := decide (s.role = roleActive), ctrl := false, ftype := p.typ, wcount := ws.length,
      hubId := s.fld F.HSR.HUB_ID.STREAM_ID, seq := s.fld (F.HSR.SEQ.SEQ q), tickLo := p.tickLo, ns32 := p.ns32,
      lost16 := s.fld (F.Q.LOST.CNT q) % 2 ^ 16 } ws
  bytes := 0
  fcsOk := true

/-- The first packet of a queue is handed to the ring node; at a fenced hub it goes no further (R314, R347, R352). -/
def State.queueHand (s : State) (q : Nat) : State :=
  match s.qTakePacket q with
  | (none, s) => s
  | (some (p, ws), s) =>
    let f := s.queueFrame q p ws
    let s := (s.setFld (F.HSR.SEQ.SEQ q) (s.fld (F.HSR.SEQ.SEQ q) + 1)).count (F.ARB_TX.FRAME_CNT.CNT q)
    if s.fenced then s.count F.HSR.FENCE_DROP_CNT.CNT else s.nodeTake false f ws.length

/-- The header of an MGMT frame as it is handed over: the CTRL sequence number and the times (R351, R352). -/
def State.ctrlHdr (s : State) (h : HubHdr) (n : Nat) : HubHdr :=
  { h with pair := decide (s.role = roleActive), wcount := n, seq := s.fld F.HSR.CTRL_SEQ.SEQ,
           tickLo := s.fld F.TICK.LAST_IDX_LO.IDX_LO, ns32 := s.ns32 }

/-- A frame of MGMT is handed to the ring node; a response is signed (R358). -/
def State.mgmtTake (s : State) (f : Frame) (key : Option (BitVec 128)) : State :=
  match f.body with
  | .hub e h ws =>
    let n := ws.length + (if key.isSome then 4 else 0)
    let h := s.ctrlHdr h n
    let ws := match key with
      | some k => ws ++ tagWords k h ws
      | none => ws
    let s := (s.setFld F.HSR.CTRL_SEQ.SEQ (s.fld F.HSR.CTRL_SEQ.SEQ + 1)).count (F.ARB_TX.FRAME_CNT.CNT 64)
    let s := s.when (decide (h.ftype = 7)) fun s => s.count F.TRIG.RING_TX_CNT.CNT
    s.nodeTake true { f with body := .hub e h ws } n
  | _ => s

/-- The first frame that waits at MGMT. While no port can carry it, it is discarded without count (R320). A response whose key is
gone cannot be signed, and is discarded too. -/
def State.mgmtHand (s : State) : State :=
  match s.net.mgmtTx with
  | [] => s
  | (f, slot) :: rest =>
    let s := s.modNet fun n => { n with mgmtTx := rest }
    let key := slot.bind s.slotKey
    if s.netSends && (slot.isNone || key.isSome) then s.mgmtTake f key else s

/-- The first message that waits at PTP goes out untagged on its port (R68, R320). -/
def State.ptpHand (s : State) : State :=
  match s.net.ptpTx with
  | [] => s
  | (p, f) :: rest =>
    let s := s.modNet fun n => { n with ptpTx := rest }
    if s.portUp p then
      (s.modNet fun n => { n with local_ := some (f, decide (p = .a), decide (p = .b)), localEnd := 0 }).count (F.ARB_TX.FRAME_CNT.CNT 65)
    else s

/-! ## ARB_TX -/

/-- The requesters of ARB_TX (R320). -/
def State.txRequests (s : State) : List Nat :=
  (List.range 66).filter s.txAsks

/-- The owner hands one frame to the ring node (R324). -/
def State.txHand (s : State) : State :=
  match s.arbTx.owner with
  | some i => if i < 64 then s.queueHand i else if i = 64 then s.mgmtHand else s.ptpHand
  | none => s

/-- A yield has ended the grants of ARB_TX (R402). -/
def State.txStopped (s : State) : Bool :=
  match s.pair.yst with
  | .closing _ _ => true
  | .yielded _ _ => true
  | _ => false

/-- The last copy of the local frame that is on the line has ended. -/
def State.localOver (s : State) : State :=
  match s.net.local_ with
  | some (_, false, false) => (s.reachCycles (ceilDiv s.net.localEnd 20)).frameEnd
  | _ => s

/-- ARB_TX takes a decision, or its owner passes a break point, and one frame is handed over. A decision comes after the end of the
local frame; while a copy of it has still to start, none is taken (R321, R322, R324). -/
def State.txGrant (s : State) : State :=
  let s := s.localOver
  if s.net.local_.isSome ∨ s.txStopped ∨ s.stalledAt pgARBTX = true then s else (s.arbAct .tx s.txRequests).txHand

/-- ARB_TX_GRANT (R321). -/
def execArbTxGrant (s : State) : Host.Outcome State Fault Refusal := act State.txGrant s

/-! ## Freezing, classes and starvation (R323, R325, R326) -/

/-- ARB_MEM may be frozen: every context is IDLE, REARM or DONE. -/
def State.memMayFreeze (s : State) : Bool :=
  (List.range 256).all fun x => decide (s.cxSt x = cxIdle) || decide (s.cxSt x = cxRearm) || decide (s.cxSt x = cxDone)

/-- The owner of an arbiter that is being frozen no longer needs its grant: nobody owns ARB_MEM, or no frame is in progress and ARB_TX
has none more of its owner. -/
def State.arbIdle (s : State) (a : Arbiter) : Bool :=
  match (s.arb a).owner, a with
  | none, _ => true
  | some _, .mem => false
  | some i, .tx => s.net.local_.isNone && !s.txRequests.contains i

/-- FREEZE becomes 1: what PTP holds is not sent, so PTP requests nothing (R325). -/
def State.arbFreeze (s : State) (a : Arbiter) : State :=
  let s := match a with
    | .mem => s.setBit F.ARB_MEM.ARB_CTL.FREEZE true
    | .tx => ((s.setBit F.ARB_TX.ARB_CTL.FREEZE true).modNet fun n => { n with ptpTx := [] }).modArb .tx fun x =>
      { x with waiting := x.waiting.filter fun e => decide (e.1 ≠ 65), starved := x.starved.filter fun i => decide (i ≠ 65) }
  if s.arbIdle a then s.arbEnd a else s

/-- FREEZE becomes 0: decisions resume, and waits are measured from now on (R325, R326). -/
def State.arbThaw (s : State) (a : Arbiter) : State :=
  let now := s.elapsedNs
  let s := match a with
    | .mem => s.setBit F.ARB_MEM.ARB_CTL.FREEZE false
    | .tx => s.setBit F.ARB_TX.ARB_CTL.FREEZE false
  s.modArb a fun x => { x with waiting := x.waiting.map fun e => (e.1, now) }

/-- A write of FREEZE (R325). -/
def State.writeFreeze (s : State) (a : Arbiter) (on : Bool) : State :=
  if on = s.arbFrozen a then s
  else if on = false then s.arbThaw a
  else if a = .mem ∧ s.memMayFreeze = false then s.raiseInt Irq.freezeRefused
  else s.arbFreeze a

/-- FREEZE (R325). -/
def execFreeze (arb : Arbiter) (on : Bool) (s : State) : Host.Outcome State Fault Refusal := actW (·.writeFreeze arb on) s

/-- The address and mask of a class register, and its first requester; ARB_MEM has one. -/
def classReg : Arbiter → Nat → Option (Nat × Nat × Nat)
  | .mem, w => if w = 0 then some (0x00B048, 0xFFFF, 0) else none
  | .tx, w => if w < 4 then some (0x00C100 + 4 * w, 0xFFFFFFFF, 16 * w) else some (0x00C110, 0xF, 64)

/-- A write of a class register: a requester that changes class joins its new class as most recently served (R323). -/
def State.writeClass (s : State) (a : Arbiter) (w : Nat) (v : Reg) : State :=
  match classReg a w with
  | none => s
  | some (addr, mask, first) =>
    let ids := ((List.range 16).map (first + ·)).filter fun i => decide (i < arbCount a)
    let old := ids.map (s.arbClass a)
    let s := s.setReg addr (v &&& BitVec.ofNat 32 mask)
    s.each (ids.zip old) fun s e =>
      let c := s.arbClass a e.1
      if c = e.2 then s else s.modArb a fun x => { x with served := x.served.set c e.1 }

/-- CLASS_WRITE (R323). -/
def execClassWrite (arb : Arbiter) (w : Fin 5) (v : Reg) (s : State) : Host.Outcome State Fault Refusal :=
  actW (·.writeClass arb w.val v) s

/-- A requester that waits has waited for `ns` nanoseconds, up to which time runs on; waits during FREEZE are not measured (R326). -/
def State.starveWait (s : State) (a : Arbiter) (i ns : Nat) : State :=
  match (if s.arbFrozen a then none else (s.arb a).waiting.find? fun e => decide (e.1 = i)) with
  | some e => (s.reachCycles (ceilDiv (e.2 + ns) 2)).starveMark a i ns
  | none => s

/-- STARVE (R326). -/
def execStarve (arb : Arbiter) (i : Fin 66) (ns : Nat) (s : State) : Host.Outcome State Fault Refusal :=
  act (·.starveWait arb i.val ns) s

/-! ## What the pages show (R331, R332) -/

/-- ARB_STS: HOSTWIN_FROZEN as it is held, DRAINED, BUSY and OWNER as they stand. -/
def State.arbStsReg (s : State) (a : Arbiter) : Reg :=
  let x := s.arb a
  let busy := match a with
    | .mem => x.owner.isSome
    | .tx => s.net.local_.isSome
  let sticky := match a with
    | .mem => s.fld F.ARB_MEM.ARB_STS.HOSTWIN_FROZEN
    | .tx => 0
  BitVec.ofNat 32 (sticky * 2 ^ 10 + b2n (s.arbFrozen a && x.owner.isNone) * 2 ^ 9 + b2n busy * 2 ^ 8 + x.owner.getD 0)

/-- The requesters `32 w` onward that wait or own. -/
def State.arbReqReg (s : State) (a : Arbiter) (w : Nat) : Reg :=
  let x := s.arb a
  let req := x.waiting.map Prod.fst ++ x.owner.toList
  BitVec.ofNat 32 (((List.range 32).map fun j => if req.contains (32 * w + j) then 2 ^ j else 0).sum)

end Sys2Proof.Machine
end

