-- ==== Sys2Proof/Machine/QueueCmds.lean ====
section
/-!
DEFINITION. The commands of an output queue (R301, R311, R314 to R317, R329): its commit, flush, pending markers, and the reads of
DATA_LO and DATA_HI.
-/

namespace Sys2Proof.Machine

/-- Pending control markers are written once they fit (R311). -/
def execPendingMarkerWrite (q : Fin 64) (s : State) : Host.Outcome State Fault Refusal :=
  act (fun s => if s.leads then (s.qCheck q.val).qWritePend q.val else s) s

/-- A Q page commit takes effect at a packet boundary; packets are written whole, so every instant is one (R301). -/
def State.qApply (s : State) (q : Nat) : State :=
  if s.commitDue (pgQ q) = false then s
  else
    let was := s.qEn q
    let s := s.qCheck q
    let will := decide (getBits (s.stg (F.Q.Q_CFG.EN q).addr) 0 1 ≠ 0)
    let s := s.when (was && !will) fun s => s.qDisable q
    let s := s.commitApply (pgQ q)
    (s.when (!was && will) fun s => s.qEnable q).txNotice

/-- Q_COMMIT_APPLY (R301). -/
def execQCommitApply (q : Fin 64) (s : State) : Host.Outcome State Fault Refusal := act (·.qApply q.val) s

/-- A flush is requested; on a disabled queue it has no effect, and a second request merges with the first (R317). -/
def State.flushAsk (s : State) (q : Nat) : State :=
  if s.qOpen q then s.setBit (F.Q.Q_STS.FLUSHING q) true else s

/-- A write of Q_CMD; an ACTIVE hub passes a flush on (R317, R387). -/
def State.writeQcmd (s : State) (q : Fin 64) (v : Reg) : State :=
  if v.getLsbD 0 then s.ifNotFollowing fun s => (s.sendDecision (.flush q)).flushAsk q.val else s

/-- FLUSH (R317). -/
def execFlush (q : Fin 64) (s : State) : Host.Outcome State Fault Refusal := actW (·.writeQcmd q 1#32) s

/-- A requested flush takes effect, and pending markers follow its packet (R317). On a standby or joining hub it takes effect where the
active's did in the interval (R389). -/
def State.flushEffect (s : State) (q : Nat) : State :=
  let s := s.qCheck q
  if s.bit (F.Q.Q_STS.FLUSHING q) && !s.stalledAt (pgQ q) && !s.follows then (s.qFlush q).qWritePend q else s

/-- FLUSH_EFFECT (R317). -/
def execFlushEffect (q : Fin 64) (s : State) : Host.Outcome State Fault Refusal := act (·.flushEffect q.val) s

/-- DATA_LO on a host-drained queue: the word at RP, with its high bits latched and RP advanced; 0 with the not-valid flags on an
empty queue; 0 with no effect on a queue that ARB_TX drains (R315). -/
def State.readDataLo (s : State) (p : Path) (q : Nat) : Reg × State :=
  if s.qHost q = false then (0, s)
  else
    match s.qReadWord q with
    | (some w, s) => (wordLo w, s.modLatches p fun l => { l with data := sset none l.data q (some (BitVec.ofNat 32 (wordHi w))) })
    | (none, s) => (0, s.modLatches p fun l => { l with data := sset none l.data q (some 0) })

/-- DATA_HI: the latched bits, which releases the latch; without a latch the bits at RP with UNPAIRED, or 0 on an empty queue
(R315, R513). -/
def State.readDataHi (s : State) (p : Path) (q : Nat) : Reg × State :=
  if s.qHost q = false then (0, s)
  else
    match sget none (s.latches p).data q with
    | some v => (v, s.modLatches p fun l => { l with data := sset none l.data q none })
    | none =>
      let s := s.qCheck q
      if s.qLevel q = 0 then (0, s)
      else (BitVec.ofNat 32 (2 ^ 31 + wordHi (s.qWord (s.qAddr q (s.getQ q).rp))), s)

/-- DATA_LO_READ (R315). -/
def execDataLoRead (p : Path) (q : Fin 64) (s : State) : Host.Outcome State Fault Refusal :=
  act (fun s => State.answer (s.readDataLo p q.val)) s

/-- DATA_HI_READ (R315). -/
def execDataHiRead (p : Path) (q : Fin 64) (s : State) : Host.Outcome State Fault Refusal :=
  act (fun s => State.answer (s.readDataHi p q.val)) s

/-- LEVEL (R304). -/
def State.qLevelReg (s : State) (q : Nat) : Reg := BitVec.ofNat 32 (s.qLevel q)

/-- Q_STS with the bits that show the queue's state (R329). -/
def State.qStsReg (s : State) (q : Nat) : Reg :=
  let x := s.getQ q
  let lv := s.qLevel q
  (s.reg (F.Q.Q_STS.WM_HI q).addr &&& 0x1007#32) ||| BitVec.ofNat 32
    (b2n (pendAny x.pend) * 2 ^ 11 + b2n (gapOpen x) * 2 ^ 10 + b2n (decide (lv = s.qSize q)) * 2 ^ 9
      + b2n (decide (lv = 0)) * 2 ^ 8)

end Sys2Proof.Machine
end

