-- ==== Sys2Proof/Machine/Pages.lean ====
section
/-!
DEFINITION. Commit requests (R449 to R453): the checks of R452 on the configuration that would run, the request, its refusal, its
withdrawal and its release, with D_MAC (R38, R238) and the configuration digest (R393).
-/

namespace Sys2Proof.Machine

/-! ## Configurations -/

/-- The hub as it would be configured with the staged values of pages `l` in force. -/
def State.withStaged (s : State) (l : List Nat) : State := s.each l fun s p => s.each (rwsRegs p) State.takeStaged

/-- Demand of channel `c` on limit 2 in MAC per second: TAPS × f_conv / (N × D) for an enabled channel with FIR_EN (R38). -/
def State.macOf (s : State) (c : Nat) : Nat × Nat :=
  if s.chEnabled c && s.bit (F.CH.RED_CFG.FIR_EN c) then
    let fs := s.fld (F.CH.RED_CFG.FIRSET c)
    let r := s.wordRate c true
    (s.fld (tapsFld fs (s.bit (F.FIRSET.FIRSET_CTL.ACT_BANK fs))) * r.1, r.2)
  else (0, 1)

/-- D_MAC (R38). -/
def State.macDemand (s : State) : Nat × Nat := fracSum ((List.range 512).map s.macOf)

/-- D_MAC exceeds limit 2 (R38). -/
def State.macOver (s : State) : Bool :=
  let d := s.macDemand
  decide (4000000000 * d.2 < d.1)

/-- D_MAC as the RED page reports it: in 1,000 MAC/s, saturating (R255). -/
def macReg (d : Nat × Nat) : Reg := BitVec.ofNat 32 (satNat (2 ^ 32 - 1) (fracFloor d / 1000))

/-- Some segment of an active weave bank breaks limit 1 (R38, R157). -/
def State.weaveOver (s : State) : Bool :=
  (List.range 32).any fun g => decide (s.tickPeriod < maxDemand (s.actSegments g))

/-! ## Field values (R83, R84, R129, R145, R182, R226, R231, R254, R300, R302) -/

/-- TICK_PERIOD has an admitted value (R83). -/
def periodOk (p : Nat) : Bool := decide (8000 ≤ p) && decide (nsPerSec % p = 0)

/-- The TICK page breaks R83 or R84. -/
def State.tickBad (s : State) : Bool :=
  !periodOk s.tickPeriod || decide (s.tickPeriod * 64 ≤ s.phaseTu)

/-- A coefficient set has an admitted number of taps in its active bank (R231, R254). -/
def State.tapsOk (s : State) (fs : Nat) : Bool :=
  let t := s.fld (tapsFld fs (s.bit (F.FIRSET.FIRSET_CTL.ACT_BANK fs)))
  decide (0 < t) && decide (t ≤ 128)

/-- The entry of channel `c` breaks a rule of the channel table (R129, R145, R182, R226, R254, R302). -/
def State.entryBad (s : State) (c : Nat) : Bool :=
  let mode := s.fld (F.CH.FE_CFG.MODE c)
  let fb := s.fld (F.CH.FE_CFG.FB c)
  let ar := s.bit (F.CH.FE_CFG.AR_EN c)
  let fir := s.bit (F.CH.RED_CFG.FIR_EN c)
  let len := s.fld (F.CH.STREAM_CFG.PKT_LEN c)
  decide (4 < mode) || (decide (mode = modeQchg) && decide (2 ≤ fb))
    || (ar && !((decide (mode = modeItia) && decide (0 < fb)) || (decide (mode = modeQchg) && decide (fb = 0))))
    || decide (8 < s.fld (F.CH.AVG_CFG.SHIFT c))
    || (s.bit (F.CH.RED_CFG.RTAP c) && !fir)
    || (fir && !s.tapsOk (s.fld (F.CH.RED_CFG.FIRSET c)))
    || decide (len < 3) || decide (288 < len)
    || (s.bit (F.CH.RED_CFG.STREAM_EN c) && decide (s.pktMax (s.fld (F.CH.RED_CFG.QSEL c)) < len + 1))

/-- The longest packet that channel `c` sends to queue `q`, PKT_HDR included; 0 if it does not name the queue (R300, R302). -/
def State.longestOf (s : State) (q c : Nat) : Nat :=
  if s.fld (F.CH.RED_CFG.QSEL c) ≠ q then 0
  else max (if s.bit (F.CH.RED_CFG.STREAM_EN c) then s.fld (F.CH.STREAM_CFG.PKT_LEN c) + 1 else 0)
    (max (if s.bit (F.CH.RED_CFG.STATS_EN c) then 10 else 0) (if s.bit (F.CH.RED_CFG.RAIN_EN c) then 36 else 0))

/-- The longest packet of the interrupt writer in queue `q` (R300, R426). -/
def State.longestIrq (s : State) (q : Nat) : Nat :=
  if s.bit F.RIM.RIM_CTL.IRQ_QEN ∧ s.fld F.RIM.RIM_CTL.IRQ_Q = q then 6 else 0

/-- The regions of two queues overlap. -/
def State.qOverlap (s : State) (p q : Nat) : Bool :=
  let a := s.fld (F.Q.Q_CFG.BASE p) * 256
  let b := s.fld (F.Q.Q_CFG.BASE q) * 256
  decide (a < b + s.qSize q) && decide (b < a + s.qSize p)

/-- Queue `q` breaks R300 in configuration `s`; `before` is the configuration without the commit of its page. -/
def State.queueBad (s before : State) (q : Nat) : Bool :=
  decide (s.qLog q < 8) || decide (16 < s.qLog q) || decide (65536 < s.fld (F.Q.Q_CFG.BASE q) * 256 + s.qSize q)
    || (s.qEn q && (List.range 64).any fun p => decide (p ≠ q) && s.qEn p && s.qOverlap p q)
    || (s.qEn q && before.qEn q && (decide (s.qLog q ≠ before.qLog q)
        || decide (s.fld (F.Q.Q_CFG.BASE q) ≠ before.fld (F.Q.Q_CFG.BASE q))))
    || decide (s.pktMax q < s.longestIrq q) || (List.range 512).any fun c => decide (s.pktMax q < s.longestOf q c)

/-! ## Kinds of page -/

def isSlicePage (p : Nat) : Bool := decide (0x040 ≤ p) && decide (p ≤ 0x061)
def isChtabPage (p : Nat) : Bool := decide (0x080 ≤ p) && decide (p ≤ 0x09F)
def isFirsetPage (p : Nat) : Bool := decide (0x0A0 ≤ p) && decide (p ≤ 0x0AF)
def isRainPage (p : Nat) : Bool := decide (0x0B0 ≤ p) && decide (p ≤ 0x0CF)
def isCtxPage (p : Nat) : Bool := decide (0x100 ≤ p) && decide (p ≤ 0x1FF)
def isQPage (p : Nat) : Bool := decide (0x200 ≤ p) && decide (p ≤ 0x23F)

/-- The page has RWS fields in the configuration digest (R393). -/
def digestPage (p : Nat) : Bool :=
  decide (p = pgTICK) || (isSlicePage p && decide (p ≤ 0x05F)) || isChtabPage p || isFirsetPage p || isRainPage p
    || isCtxPage p || isQPage p

/-! ## The checks (R452) -/

/-- The page's field values break a rule in configuration `s` (REASON 1). -/
def State.fieldsBad (s before : State) (p : Nat) : Bool :=
  if p = pgTICK then s.tickBad
  else if isChtabPage p then (List.range 16).any fun l => s.entryBad (16 * (p - 0x080) + l)
  else if isFirsetPage p then !s.tapsOk (p - 0x0A0)
  else if isQPage p then s.queueBad before (p - 0x200)
  else false

/-- The lowest of the reasons 1 to 4 that a configuration with page `p` committed meets, 0 if none (R39, R266, R452). -/
def State.configReason (s before : State) (p : Nat) : Nat :=
  let limits := decide (p = pgTICK) || isSlicePage p || isChtabPage p || isFirsetPage p
  if s.fieldsBad before p then 1
  else if limits && s.weaveOver then 2
  else if limits && s.macOver then 3
  else if limits && !isFirsetPage p && decide (capLimit * s.capDemand.2 < s.capDemand.1)
      && decide (before.capDemand.1 * s.capDemand.2 < s.capDemand.1 * before.capDemand.2) then 4
  else 0

/-- The pages of the requests that count as in effect at tick index `at_`: the immediate ones, and the scheduled ones up to it
(R452). -/
def State.pagesUpTo (s : State) (at_ : Option Nat) : List Nat :=
  (s.commits.filter fun c => match c.at_, at_ with
    | none, _ => true
    | some i, some t => decide (i ≤ t)
    | some _, none => false).map Commit.page

/-- The configurations that a request of page `p` is checked in, as pairs with and without its commit (R452). -/
def State.checkConfigs (s : State) (p : Nat) (at_ : Option Nat) : List (State × State) :=
  let marks : List (Option Nat) := match at_ with
    | some i => [some i]
    | none => none :: (s.commits.filterMap Commit.at_).map some
  marks.map fun m =>
    let before := s.withStaged (s.pagesUpTo m)
    (before.withStaged [p], before)

/-- The partner executes in step with this hub, or this hub with it, so that a STAGE_CTL commit of a page in the digest is refused
(R396): on a STANDBY hub always, on an ACTIVE or JOINING one by what the partner reports. -/
def State.pairRuns (s : State) : Bool :=
  let p := s.fld F.PAIR.PAIR_STS.PARTNER_ROLE
  let joins := decide (p = roleStandby) || decide (p = roleJoining)
  decide (s.role = roleStandby) || (decide (s.role = roleActive) && joins)
    || (decide (s.role = roleJoining) && (joins || decide (p = roleActive)))

/-- The lowest reason that refuses a request, 0 if none (R452). The commits of a pair commit are exempt from reasons 5 and 6
(R396): its index was checked when it was made. -/
def State.commitReason (s : State) (p : Nat) (at_ : Option Nat) (pair : Bool) : Nat :=
  let rs := ((s.checkConfigs p at_).map fun e => e.1.configReason e.2 p).filter fun r => decide (r ≠ 0)
  match rs with
  | r :: l => l.foldl min r
  | [] =>
    if digestPage p && s.pairRuns && !pair then 5
    else
      match at_ with
      | some i => if i ≤ s.lastIdx ∧ pair = false then 6 else 0
      | none => 0

/-! ## Requests (R449 to R451) -/

/-- A request that no longer waits for its tick takes effect if its safe boundary is now (R125, R165, R221, R252, R269, R301). -/
def State.commitTry (s : State) (p : Nat) : State :=
  if s.commitDue p = false then s
  else if isChtabPage p then s.chtabApply (p - 0x080)
  else if isSlicePage p then (if 0x060 ≤ p then s.sliceApply (p - 0x040) else s)
  else if isRainPage p then s.each (List.range 16) fun s l => s.rainApply (16 * (p - 0x0B0) + l)
  else if isCtxPage p then (if s.cxSt (p - 0x100) = cxIdle then s.commitApply p else s)
  else if isQPage p then s.qApply (p - 0x200)
  else if p = pgCAL then s.calCommit
  else s

/-- A request is refused (R452): REFUSED, REASON, CHIP.REFUSE_INFO, REFUSE_CNT and COMMIT_REFUSED, a rim-log event, and
MAC_REFUSED for reason 3 (R238, R433); COMMIT_STS.REASON for reason 5 (R396). -/
def State.commitRefuse (s : State) (p r : Nat) : State :=
  let s := (s.setBit (F.HDR.STAGE_CTL.REFUSED p) true).setFld (F.HDR.STAGE_CTL.REASON p) r
  let s := (s.setFld F.CHIP.REFUSE_INFO.REASON r).setFld F.CHIP.REFUSE_INFO.PAGE p
  let s := (s.count F.CHIP.REFUSE_CNT.CNT).raiseInt Irq.commitRefused
  let s := s.rimEvent evCommitRefused p
  let s := s.when (decide (r = 5)) fun s => s.setFld F.PAIR.COMMIT_STS.REASON 5
  s.when (decide (r = 3)) fun s => (s.count F.RED.MAC_REFUSE_CNT.CNT).raiseInt Irq.macRefused

/-- A request of page `p` that has passed its checks. -/
def State.commitAdd (s : State) (p : Nat) (at_ : Option Nat) : State :=
  { s with commits := s.commits ++ [{ page := p, at_ := at_, sched := at_.isSome, chans := if isRainPage p then List.range 16 else [] }] }

/-- A commit of page `p` is requested: at the next safe boundary, or from the tick index `at_` on (R449, R450, R452). -/
def State.commitRequest (s : State) (p : Nat) (at_ : Option Nat) (pair : Bool) : State :=
  if (s.commitOf p).isSome then s.setBit (F.HDR.STAGE_CTL.WR_IGNORED p) true
  else
    let r := s.commitReason p at_ pair
    if r = 0 then (s.commitAdd p at_).commitTry p else s.commitRefuse p r

/-- A request is withdrawn; the staged values stay (R451). -/
def State.commitCancel (s : State) (p : Nat) : State :=
  { s with commits := s.commits.filter fun c => decide (c.page ≠ p) }

/-- CHIP.AT_IDX. -/
def State.atIdx (s : State) : Nat := s.fld64 F.CHIP.AT_IDX_LO.IDX_LO F.CHIP.AT_IDX_HI.IDX_HI

/-- An access that names no page, or an address above the register space (R446). -/
def State.addrErr (s : State) : State :=
  ((s.setBit F.HOST.HOST_STS.ADDR_ERR true).count F.HOST.ADDR_ERR_CNT.CNT).raiseInt Irq.addrErr

/-- A write of STAGE_CTL of page `p`: the sticky bits, then CANCEL, then COMMIT_AT_TICK or COMMIT (R448, R449, R451). -/
def State.writeStage (s : State) (p : Nat) (v : Reg) : State :=
  if hasRws p = false then (if (pageRows p).isNone ∧ isCapwin p = false then s.addrErr else s)
  else
    let s := s.when (v.getLsbD 29) fun s => s.setBit (F.HDR.STAGE_CTL.REFUSED p) false
    let s := s.when (v.getLsbD 28) fun s => s.setBit (F.HDR.STAGE_CTL.WR_IGNORED p) false
    let s := s.when (v.getLsbD 2) fun s => s.commitCancel p
    if v.getLsbD 1 then s.commitRequest p (some s.atIdx) false
    else if v.getLsbD 0 then s.commitRequest p none false
    else s

/-- COMMIT (R449). -/
def execCommit (page : BitVec 12) (s : State) : Host.Outcome State Fault Refusal := actW (·.writeStage page.toNat 1#32) s

/-- COMMIT_AT_TICK (R449). -/
def execCommitAtTick (page : BitVec 12) (s : State) : Host.Outcome State Fault Refusal := actW (·.writeStage page.toNat 2#32) s

/-- CANCEL (R451). -/
def execCancel (page : BitVec 12) (s : State) : Host.Outcome State Fault Refusal := actW (·.writeStage page.toNat 4#32) s

/-- The scheduled request of page `p` waits for its safe boundary alone from now on. -/
def State.commitFree (s : State) (p : Nat) : State :=
  ({ s with commits := s.commits.map fun (c : Commit) => if c.page = p then { c with at_ := none, rel := c.at_.getD 0 } else c }).commitTry p

/-- The tick of index `idx` is the first whose index is at least the one that a scheduled request of page `p` names: the request
waits for its safe boundary from now on (R449). The TICK page follows R90 instead. -/
def State.commitRelease (s : State) (idx p : Nat) : State :=
  match s.commitOf p with
  | some c =>
    (match c.at_ with
     | some i => if p ≠ pgTICK ∧ i ≤ idx then s.commitFree p else s
     | none => s)
  | none => s

/-- Every scheduled request that names the tick or an earlier one, in order of tick index and then of page (R452). -/
def State.releaseAll (s : State) (idx : Nat) : State :=
  s.each (headerPages.filter hasRws) fun s p => s.commitRelease idx p

/-- SCHEDULED_COMMIT_RELEASE: the coming tick of a running grid is reached (R449; log entry 9). -/
def execScheduledCommitRelease (page : BitVec 12) (s : State) : Host.Outcome State Fault Refusal :=
  act (fun s => if s.gridSt = gridRun then s.commitRelease (idxOf s.tickPeriod s.grid.cur) page.toNat else s) s

/-- The scheduled index of the page that SCHED_SEL names; 0 if none waits (R453). -/
def State.schedIdx (s : State) : Nat :=
  match s.commitOf (s.fld F.CHIP.SCHED_SEL.PAGE) with
  | some c => c.at_.getD 0
  | none => 0

/-- A scheduled commit waits on the page that SCHED_SEL names (R453). -/
def State.schedWaits (s : State) : Bool :=
  match s.commitOf (s.fld F.CHIP.SCHED_SEL.PAGE) with
  | some c => c.at_.isSome
  | none => false

/-! ## The digest (R393) -/

/-- The RW and RWS bits of a register that enter the digest, as a pair of masks; the registers of an excluded page or field have
none. -/
def digestMasks (p : Nat) (r : RegRow) : Nat × Nat :=
  if isChtabPage p ∧ 0x048 ≤ r.off ∧ r.off ≤ 0x054 then (0, 0)
  else if p = pgHSR then
    (if [F.HSR.ETHERTYPE.TYPE.addr, F.HSR.STREAM_MAC_LO.MAC_LO.addr, F.HSR.STREAM_MAC_HI.MAC_HI.addr,
        F.HSR.DST_MAC_LO.MAC_LO.addr, F.HSR.DST_MAC_HI.MAC_HI.addr, F.HSR.TRIG_MAC_LO.MAC_LO.addr,
        F.HSR.TRIG_MAC_HI.MAC_HI.addr].contains (p * 0x1000 + r.off) then (r.rw, r.rws)
     else if p * 0x1000 + r.off = F.HSR.HUB_ID.STREAM_ID.addr then (0xFFFF0000, 0) else (0, 0))
  else if p = pgPAIR then
    (if p * 0x1000 + r.off = F.PAIR.PAIR_CTL.PAIR_TIMEOUT.addr then (0x00FF0000, 0) else (0, 0))
  else (r.rw, r.rws)

/-- The pages of the digest: those with RWS fields in it, and those with RW fields alone. -/
def digestPages : List Nat :=
  headerPages.filter fun p => digestPage p || decide (p = pgRED) || decide (p = pgTRIG) || decide (p = pgPAIR) || decide (p = pgHSR)
    || (decide (0x020 ≤ p) && decide (p ≤ 0x03F))

/-- The registers of a page that enter the digest, in rising order, with their RW and RWS masks. -/
def digestRegs (p : Nat) : List (Nat × Nat × Nat) :=
  match pageRows p with
  | none => []
  | some rows =>
    let offs : List (Nat × RegRow) := (rowsHDR ++ rows).flatMap fun r => (rowOffsets r).map fun o => (o, r)
    let regs := offs.map fun e => (p * 0x1000 + e.1, digestMasks p e.2)
    (regs.filter fun e => decide (e.2.1 ||| e.2.2 ≠ 0)).mergeSort (fun a b => decide (a.1 ≤ b.1))

/-- The bytes of the digest: every register with its other bits 0; `staged` takes RWS fields at their staged values. -/
def State.digestBytes (s : State) (staged : Bool) : List Byte :=
  digestPages.flatMap fun p => (digestRegs p).flatMap fun e =>
    let rws := (if staged then s.stg e.1 else s.reg e.1) &&& BitVec.ofNat 32 e.2.2
    bytes32 ((s.reg e.1 &&& BitVec.ofNat 32 e.2.1) ||| rws).toNat

/-- The configuration digest (R393). -/
def State.digest (s : State) : Reg := crc32c (s.digestBytes false)

/-- STG_DIGEST (R396, R411). -/
def State.stgDigest (s : State) : Reg := crc32c (s.digestBytes true)

/-! ## What the reports show (R160, R238, R255) -/

/-- The configuration that MAC_STG reports: every staged value of the SLICE, TICK, CHTAB and FIRSET pages, with the running value
in place of one that its own commit would refuse under reason 1 (R238). -/
def State.macStaged (s : State) : State :=
  let keep (h : State) (f : Fld) : State := h.setFld f (s.fld f)
  let h := s.withStaged (headerPages.filter fun p => isSlicePage p || isChtabPage p || isFirsetPage p || decide (p = pgTICK))
  let h := if periodOk h.tickPeriod then h else keep h F.TICK.TICK_PERIOD.PERIOD
  let h := h.each (List.range 16) fun h fs => if h.tapsOk fs then h else keep h (F.FIRSET.FIRSET_CTL.ACT_BANK fs)
  h.each (List.range 512) fun h c =>
    let h := if h.fld (F.CH.FE_CFG.MODE c) ≤ 4 then h else keep h (F.CH.FE_CFG.MODE c)
    if h.bit (F.CH.RED_CFG.FIR_EN c) && !h.tapsOk (h.fld (F.CH.RED_CFG.FIRSET c)) then
      keep (keep h (F.CH.RED_CFG.FIR_EN c)) (F.CH.RED_CFG.FIRSET c)
    else h

/-- STAGED_DIFF of a page (R448, R514). -/
def State.stagedDiffers (s : State) (p : Nat) : Bool := (rwsRegs p).any s.stagedDiff

/-- STAGE_CTL as it reads (R448). -/
def State.stageReg (s : State) (p : Nat) : Reg :=
  if hasRws p = false then 0
  else
    let c := s.commitOf p
    (s.reg (F.HDR.STAGE_CTL.PENDING p).addr &&& 0x3F000000#32) ||| BitVec.ofNat 32
      (b2n c.isSome * 2 ^ 31 + b2n (match c with | some x => x.at_.isSome | none => false) * 2 ^ 30)

end Sys2Proof.Machine
end

