-- ==== Sys2Proof/Machine/Mirror.lean ====
section
/-!
DEFINITION. A standby or joining hub executing in step (R386 to R390, R397, R399): mirrored codes, the comparison with its own,
its staging, and the takeover (R402 to R408).
-/

namespace Sys2Proof.Machine

/-! ## Ticks -/

/-- On a standby or joining hub a commit that changes the units of channel `c` takes effect ahead of the codes of tick `idx` (R386). -/
def State.unitsComing (s : State) (idx c : Nat) : Bool :=
  s.follows && s.mirrorDue (pgCHTAB (c / 16)) (some idx)
    && (s.turnOf c true false false ((s.getGroup (c / 16)).arLow.getLsbD (c % 16)) none).host

/-- The dumps of a channel at tick `idx`; a units change that comes ahead of the codes of this tick serves them (R250). -/
def State.dumpTick (s : State) (idx c : Nat) : State :=
  if s.unitsComing idx c && s.rainCan c then s.rainServed c (idx / 131072) else s.rainTick idx c

/-- The part of a tick that belongs to the streams: dumps of RAIN, the start of histories, and trigger ticks (R250, R267, R275). -/
def State.tickStream (s : State) (idx : Nat) : State :=
  let s := s.each (List.range 512) fun s c => s.dumpTick idx c
  s.each (List.range 256) fun s x => (s.cxFillTick x idx).trigTick x

/-- The part of tick `idx` that belongs to the streams is done, unless it has been. A hub that builds its streams from mirrored codes
does it when the first codes of the tick arrive (R386). -/
def State.mirrorTick (s : State) (idx : Nat) : State :=
  let new := match s.pair.streamIdx with
    | some i => decide (i < idx)
    | none => true
  if new then (s.modPair fun p => { p with streamIdx := some idx }).tickStream idx else s

/-- Ticks of a run with an index above `i`. -/
def runAfter (r : Tick × Nat × Nat) (i : Nat) : Nat :=
  let (f, p, k) := r
  k - (countOf p i + 1 - f.n)

/-- Ticks issued with an index above `i`. -/
def State.ticksSince (s : State) (i : Nat) : Nat := (s.grid.runs.map fun r => runAfter r i).sum

/-- Ticks issued since the last complete mirrored tick, or since the last acknowledged one (R403, R411). -/
def State.mirrorLag (s : State) : Nat :=
  match s.pair.lastC with
  | some t => s.ticksSince t.idx
  | none => 0

/-- PAIR_TIMEOUT; values below 2 act as 2 (R411). -/
def State.pairTimeout (s : State) : Nat := max 2 (s.fld F.PAIR.PAIR_CTL.PAIR_TIMEOUT)

/-! ## Mirrored codes (R384 to R386) -/

/-- The channels and ordinals of the SRC 0 conversions of a pass, in weave order. -/
def State.codeTargets (s : State) (g n : Nat) : List (Nat × Nat) :=
  let segs := s.actSegments g
  let len := segCount segs
  let (seg, before) := findSegment segs (n % len)
  (segOps (fun ch => n / len * loopConvs ch segs + before ch) seg).filterMap fun o => match o with
    | .conv l false j => if s.chEnabled (16 * g + l) then some (l, j) else none
    | _ => none

/-- The range of a channel changes with this record: its first word tells (R387). -/
def codeSwap (arLow : BitVec 16) (l : Nat) (words : List ((Nat × Nat) × Reg)) : Option Bool :=
  match words.find? fun e => decide (e.1.1 = l) with
  | some e => if e.2.getLsbD 7 = arLow.getLsbD l then none else some (e.2.getLsbD 7)
  | none => none

/-! ## Entering mirrored codes -/

/-- The decade factor of the active for a channel, or the own one before any FACTORS record (R385). -/
def State.pairFactor (s : State) (c : Nat) : Nat := (s.getChan c).factors.getD (s.decK c) (s.ownFactor c)

/-- One mirrored code enters the averager of its channel (R130, R385, R386). -/
def State.enterCode (s : State) (g idx n : Nat) (e : (Nat × Nat) × Reg) : State :=
  let c := 16 * g + e.1.1
  let fl := codeFlags e.2
  let v := if fl.blk then (s.getChan c).lastVal else rangeValue (codeOf e.2) (e.2.getLsbD 7) (s.pairFactor c)
  let s := (s.avgEnter c ⟨v, fl⟩ idx n e.1.2).modChan c fun x => { x with lastVal := v }
  s.hcCheck { idx := idx, n := n, group := g, l := e.1.1, j := e.1.2, w := e.2 }

/-- The last complete pass of group `g`. -/
def State.passDone (s : State) (g idx n : Nat) : State :=
  s.modPair fun p => { p with lastPass := (g, n, idx) :: p.lastPass.filter fun e => decide (e.1 ≠ g) }

/-- A CODES record is entered: its tick, the boundary ahead of its pass, its codes in weave order, and what waits for the end of the pass.
One that does not hold a code for every conversion of its pass is passed over (R386, R387, R397). -/
def State.codesEnter (s : State) (g idx n : Nat) (codes : List Reg) : State :=
  let targets := ((s.mirrorTick idx).mirrorBoundary g (some idx) fun _ => none).codeTargets g n
  if targets.length ≠ codes.length then s else
  let s := s.mirrorTick idx
  let words := targets.zip codes
  let low := (s.getGroup g).arLow
  let s := s.mirrorBoundary g (some idx) fun c => codeSwap low (c % 16) words
  let s := (s.each words fun s e => s.enterCode g idx n e).passDone g idx n
  s.boundaryNow g false

/-- A CODES record arrives; after a takeover by timeout it is late (R386, R404). -/
def State.codesRx (s : State) (g idx n : Nat) (codes : List Reg) : State :=
  s.ifTimely fun s => if s.follows && s.pair.executing then s.codesEnter g idx n codes else s

/-- Groups that give no codes meet their boundary at the hub's own ticks. -/
def State.mirrorSilent (s : State) (idx : Nat) : State :=
  if s.follows && s.pair.executing then
    let quiet := (List.range 32).filter s.groupSilent
    let s := s.when (decide (quiet.length = 32)) fun s => s.mirrorTick idx
    s.each quiet fun s g => s.mirrorBoundary g (some idx) fun _ => none
  else s

/-! ## Staged packets (R389) -/

/-- One staged item is written under the hub's own decision. -/
def State.stagedOwn (s : State) (q : Nat) (i : StagedItem) : State :=
  let s := s.qCheck q
  match i with
  | .ctrl p => s.qMarkerDue q p
  | .packet typ words => (s.qOffer q typ words).2

/-- A staged packet, with its type and words. -/
def stagedPacket : StagedItem → Option (Nat × List Word)
  | .packet typ words => some (typ, words)
  | .ctrl _ => none

/-- Staged control markers. -/
def stagedCtrl : StagedItem → Option Pend
  | .ctrl p => some p
  | .packet _ _ => none

/-- What `f` finds in the first item of queue `q` in the staging of which it finds something, and the staging without that item. -/
def takeStage {α : Type} (q : Nat) (f : StagedItem → Option α) :
    List (Nat × StagedItem × Nat) → Option α × List (Nat × StagedItem × Nat)
  | [] => (none, [])
  | (k, i, t) :: l =>
    match (if k = q then f i else none) with
    | some x => (some x, l)
    | none =>
      let (a, b) := takeStage q f l
      (a, (k, i, t) :: b)

/-- The packet that a decision of the active is about: the interrupt packet it carries, or the next staged one of the queue (R389). -/
def State.fatePacket (s : State) (q : Nat) : Option (List Word) → Option (Nat × List Word) × State
  | some words => (some (typIrq, words), s)
  | none =>
    let (i, l) := takeStage q stagedPacket s.pair.staging
    (i, s.modPair fun p => { p with staging := l })

/-- A decision of the active about queue `q` is applied (R389, R427). -/
def State.applyFate (s : State) (q : Nat) (f : Fate) : State :=
  let s := s.qCheck q
  match f with
  | .room skip n => s.qRoom q skip n
  | .pend => s.qPendPut q
  | .pendLost inPlace => s.qPendLost q inPlace
  | .join =>
    (match takeStage q stagedCtrl s.pair.staging with
     | (some m, l) => (s.modPair fun p => { p with staging := l }).qJoin q m
     | (none, _) => s)
  | .take irq =>
    (match s.fatePacket q irq with
     | (some (typ, words), s) => (s.qTake q typ words).when irq.isSome fun s => s.count F.RIM.IRQ_PKT_CNT.CNT
     | (none, s) => s)
  | .lose irq inPlace =>
    (match s.fatePacket q irq with
     | (some (typ, _), s) => s.qMarkLoss q typ inPlace
     | (none, s) => s)
  | .off irq =>
    (match s.fatePacket q irq with
     | (some (typ, _), s) => s.qDiscard q typ
     | (none, s) => s)
  | .flush skip n => s.qFlushFrom q skip n

/-! ## Takeover (R402 to R408) -/

/-- The tick that the takeover begins with: its index (R402, R403). -/
def State.takeIdx (s : State) (timeout : Bool) : Nat :=
  if timeout then s.lastIdx
  else
    match s.pair.lastC with
    | some c => (match s.firstTick 0 (some c.idx) with
      | some (i, _) => i
      | none => idxOf s.tickPeriod s.grid.cur)
    | none => idxOf s.tickPeriod s.grid.cur

/-- The sequence numbers of the streams and of STREAM_MAC continue from the last report (R403, R408). -/
def State.takeSeqs (s : State) (timeout : Bool) : State :=
  let s := s.each s.pair.lastSeqs.zipIdx fun s e => s.setFld (F.HSR.SEQ.SEQ e.2) (e.1 + 1)
  s.setFld F.HSR.HSR_SEQ.STREAM (s.pair.lastH + if timeout then 32768 else 1)

/-- One code of the own-code buffer fills its position (R402, R403). -/
def State.takeCode (s : State) (sub : Bool) (o : OwnCode) : State :=
  let c := 16 * o.group + o.l
  let old := match s.pair.lastPass.find? fun e => decide (e.1 = o.group) with
    | some e => decide (e.2.2 < o.idx)
    | none => true
  let s := s.mirrorTick o.idx
  let s := s.when old fun s => (s.mirrorBoundary o.group (some o.idx) fun _ => none).passDone o.group o.idx o.n
  let fl : Flags := if o.parked then { blk := true, sub := sub } else { o.fl with sub := sub }
  let v := if fl.blk then (s.getChan c).lastVal else rangeValue o.code o.low (s.ownFactor c)
  (s.avgEnter c ⟨v, fl⟩ o.idx o.n o.j).modChan c fun x => { x with lastVal := v }

/-- The own codes that fill ticks: those of ticks after the last complete pass of their group and, after a timeout, before tick Z. -/
def State.takeCodes (s : State) (timeout : Bool) (z : Nat) : List OwnCode :=
  s.pair.own.reverse.filter fun o =>
    (!timeout || decide (o.idx < z)) && (match s.pair.lastPass.find? fun e => decide (e.1 = o.group) with
      | some e => decide (e.2.2 < o.idx)
      | none => true)

/-- The stages that the new active connects settle from the connection on, 500 ns ahead (R406). -/
def State.takeStages (s : State) : State :=
  s.each (List.range 512) fun s c =>
    let x := s.feNow c
    if x.mode = modeItia ∨ x.mode = modeQchg then
      s.modChan c fun h => { h with rngAt := some (s.elapsedNs + 500, settleNs x x) }
    else s

/-- The arrivals that the trigger engine kept over the last PAIR_TIMEOUT + 2 ticks are decided (R403). -/
def State.takeHistory (s : State) : State :=
  let h := s.trig.history.filter fun e => decide (s.ticksSince e.1 ≤ s.pairTimeout + 2)
  let s := s.modTrig fun t => { t with history := [] }
  let s := s.each h fun s e =>
    if s.cxSt e.2.1 = cxIdle then s else s.modCtx e.2.1 fun c => { c with waiting := c.waiting ++ [e.2.2] }
  s.each (List.finRange 256) fun s x => if (s.getCtx x.val).waiting.isEmpty then s else s.triggerDecision x

/-- The in-band interrupts that the former active has not written (R427). -/
def State.takeDue (s : State) : State :=
  let l := s.pair.due
  (s.modPair fun p => { p with due := [] }).each l fun s d =>
    if s.bit F.RIM.RIM_CTL.IRQ_QEN then
      (s.writeIrqPacket (irqWords (s.fld F.HSR.HUB_ID.OWN_ID) d.page d.intSts d.fltSts d.fltFirst d.ns32)).2
    else s

/-- The registers of a takeover (R403, R407, R411). -/
def State.takeRegs (s : State) (timeout : Bool) (cause z : Nat) : State :=
  let s := (s.setBit F.PAIR.PAIR_STS.TAKE_DRV true).setFld F.PAIR.PAIR_STS.LAST_CAUSE cause
  let s := s.setFld64 F.PAIR.TAKEOVER_IDX_LO.IDX_LO F.PAIR.TAKEOVER_IDX_HI.IDX_HI z
  let s := s.when timeout fun s => s.setFld F.PAIR.SUB_TICKS.TICKS (satNat 255 (s.mirrorLag - 1))
  s.count (if timeout then F.PAIR.TAKEOVER_CNT.TIMEOUT else F.PAIR.TAKEOVER_CNT.YIELD)

/-- A STANDBY hub becomes ACTIVE (R402, R403, R406 to R408). -/
def State.takeover (s : State) (timeout : Bool) (cause : Nat) : State :=
  let z := s.takeIdx timeout
  let codes := s.takeCodes timeout z
  let s := ((s.takeRegs timeout cause z).setBit F.PAIR.PAIR_STS.READY false).setRole roleActive
  let s := s.modPair fun p =>
    { p with yst := .none, exdWait := true, lateFrom := timeout, yieldSeen := false, yieldRec := false, forceTake := false,
             subBefore := if timeout then z else 0, unacked := [], words := [], fates := [], gone := [] }
  let s := s.takeSeqs timeout
  let l := s.pair.staging
  let s := (s.modPair fun p => { p with staging := [] }).each l fun s e => s.stagedOwn e.1 e.2.1
  let s := (s.markersDue { takeover := some (timeout, s.fld F.HSR.HUB_ID.OWN_ID) }).takeStages
  let s := (s.each codes fun s o => s.takeCode timeout o).modPair fun p => { p with own := [], mirr := [] }
  let s := s.when timeout State.takeHistory
  let s := (s.modTrig fun t => { t with history := [] }).takeDue
  (s.raiseInt Irq.takeover).txNotice

/-- A STANDBY hub times out: more than PAIR_TIMEOUT ticks have been issued since c, or the YIELD record has not come. No timeout runs
in sleep (R392, R403, R404). -/
def State.takeoverDue (s : State) : Bool :=
  decide (s.role = roleStandby) && decide (s.fld F.NVM.PWR_STS.STATE = 1)
    && (s.pair.forceTake || (!s.pair.yieldSeen && s.pair.lastC.isSome && decide (s.pairTimeout < s.mirrorLag)))

/-- The tick that a standby issues is the tick Z at which it takes over by timeout (R403). -/
def State.takeoverTick (s : State) : State := if s.takeoverDue then s.takeover true causeTimeout else s

end Sys2Proof.Machine
end

