-- ==== Sys2Proof/Machine/Sleep.lean ====
section
/-!
DEFINITION. Sleep and wake (R476 to R482, R103, R108).
-/

namespace Sys2Proof.Machine

/-! ## Power states (R476) -/

abbrev pwBoot : Nat := 0
abbrev pwAwake : Nat := 1
abbrev pwEntering : Nat := 2
abbrev pwAsleep : Nat := 3
abbrev pwWaking : Nat := 4

/-- PWR_STS.STATE. -/
def State.pwr (s : State) : Nat := s.fld F.NVM.PWR_STS.STATE

/-- Enters a power state. -/
def State.setPwr (s : State) (st : Nat) : State := s.setFld F.NVM.PWR_STS.STATE st

/-- The wake causes of PWR_STS.WAKE_CAUSE (R485). -/
abbrev wkWrite : Nat := 1
abbrev wkAt : Nat := 2
abbrev wkRing : Nat := 3
abbrev wkWale : Nat := 4
abbrev wkHealth : Nat := 5

/-! ## Waking (R108, R479, R480) -/

/-- The wake decision, taken at hub time `at_` in ns: the front ends settle for 1.4 ms, in which no tick is issued. -/
def State.wakeAs (s : State) (cause at_ : Nat) : State :=
  let s := ((s.setPwr pwWaking).setFld F.NVM.PWR_STS.WAKE_CAUSE cause).setBit F.NVM.PWR_CTL.WAKE_AT_EN false
  let (sec, s) := s.roundFree ((at_ - s.power.sleptAt : Nat) : Int) nsPerSec
  let s := s.setFld F.NVM.SLEEP_TIME.SEC (satNat (2 ^ 32 - 1) sec.toNat)
  let s := (s.modPower fun p => { p with wakeHeld := false, wokeAt := at_ }).rimEvent evSleep 1
  let s := s.gridSettle.modGrid fun g => { g with notBefore := (at_ + 1400000) * 64, gapDue := true }
  let s := s.setFld F.TICK.TICK_STS.STATE s.gridTarget
  s.when (decide (s.gridSt = gridRun)) fun s => s.raiseInt Irq.resumed

/-- A wake source acts on an ASLEEP hub now; an ACTIVE hub passes the decision on, and the sources of a standby or joining hub have no
effect (R479, R481). -/
def State.wakeBy (s : State) (cause : Nat) : State :=
  if s.pwr = pwAsleep ∧ s.follows = false then (s.sendDecision (.wake s.now)).wakeAs cause s.nowNs else s

/-- WAKE_AT_SEC in ns. -/
def State.wakeAtNs (s : State) : Nat :=
  (s.fld F.NVM.WAKE_AT_SEC_HI.SEC_HI * 2 ^ 32 + s.fld F.NVM.WAKE_AT_SEC_LO.SEC_LO) * nsPerSec

/-- Hub time lies at or past WAKE_AT_SEC, with WAKE_AT_EN set (R479). -/
def State.wakeAtDue (s : State) : Bool := s.bit F.NVM.PWR_CTL.WAKE_AT_EN && decide (s.wakeAtNs ≤ s.nowNs)

/-- The check of WAKE_AT_SEC in ASLEEP. -/
def State.wakeAtCheck (s : State) : State := if s.wakeAtDue then s.wakeBy wkAt else s

/-- Hub time reaches WAKE_AT_SEC while the hub sleeps. -/
def State.wakeAt (s : State) : State :=
  if s.pwr = pwAsleep ∧ s.bit F.NVM.PWR_CTL.WAKE_AT_EN then (s.reachNs s.wakeAtNs).wakeAtCheck else s

/-- WAKE_AT (R479). -/
def execWakeAt (s : State) : Host.Outcome State Fault Refusal := act State.wakeAt s

/-- A write of WAKE (R476). -/
def State.wakeCmd (s : State) : State :=
  if s.pwr = pwEntering then s.modPower fun p => { p with wakeHeld := true } else s.wakeBy wkWrite

/-- WAKE (R476). -/
def execWake (s : State) : Host.Outcome State Fault Refusal := actW State.wakeCmd s

/-- The front ends have settled: time runs on to 1.4 ms after the wake decision (R480). -/
def State.wakeSettled (s : State) : State := if s.pwr = pwWaking then s.reachNs (s.power.wokeAt + 1400000) else s

/-- WAKE_SETTLED (R480). -/
def execWakeSettled (s : State) : Host.Outcome State Fault Refusal := act State.wakeSettled s

/-- A sleeping standby has received no HEALTH record for 3 ms: it wakes on its own, and takes over at its first tick (R481). -/
def State.healthLossWake (s : State) : State :=
  if s.pwr = pwAsleep ∧ s.role = roleStandby then
    let s := s.reachCycles (s.pair.healthAt.getD s.pair.roleAt + 1500000)
    (s.wakeAs wkHealth s.nowNs).modPair fun p => { p with forceTake := true }
  else s

/-- HEALTH_LOSS_WAKE (R481). -/
def execHealthLossWake (s : State) : Host.Outcome State Fault Refusal := act State.healthLossWake s

/-! ## Going to sleep (R477) -/

/-- The decision to sleep: no tick is issued from now on, windows close at the end of their passes, and the dwell in progress is
abandoned; its group comes first after wake (R194, R477). -/
def State.sleepBegin (s : State) : State :=
  let s := (s.gridSettle.setPwr pwEntering).setFld F.TICK.TICK_STS.STATE gridSleep
  let s := (s.count F.NVM.SLEEP_CNT.CNT).modPower fun p => { p with sleptAt := s.nowNs, wakeHeld := false }
  let s := match s.cal.dwell with
    | some d => s.dwellAbandon.modCal fun c => { c with nextGroup := d.group }
    | none => s
  let s := s.rimEvent evSleep 0
  s.each (List.range 32) fun s g => (s.modGroup g fun x => { x with closeDue := true, turnIdx := s.lastIdx }).boundaryNow g false

/-- A write of SLEEP (R476). -/
def State.sleepCmd (s : State) : State :=
  if s.pwr = pwAwake ∧ s.leads then (s.sendDecision (.sleep s.lastIdx)).sleepBegin
  else s.setBit F.NVM.PWR_STS.IGNORED true

/-- SLEEP (R476). -/
def execSleep (s : State) : Host.Outcome State Fault Refusal := actW State.sleepCmd s

/-- A write of PWR_CMD (R485). -/
def State.writePwrCmd (s : State) (v : Reg) : State :=
  (s.when (v.getLsbD 0) State.sleepCmd).when (v.getLsbD 1) State.wakeCmd

/-- Some slice has a pass in progress or one that waits. -/
def State.anyPass (s : State) : Bool := (List.range 34).any fun n => (s.getSlice n).pass.isSome

/-- The last pass of every slice has ended: the hub is ASLEEP, its sentinels are without power and no longer armed, and a held WAKE or a
WAKE_AT_SEC that has passed wakes it (R476, R478, R479). -/
def State.sleepEntered (s : State) : State :=
  if s.pwr = pwEntering ∧ s.anyPass = false then
    let held := s.power.wakeHeld
    let s := (s.setPwr pwAsleep).raiseInt Irq.sleepEntered
    let s := s.each (List.range 16) fun s n => s.modSent n fun x => { x with armed := false }
    if held then s.wakeBy wkWrite else s.wakeAtCheck
  else s

/-- SLEEP_ENTERED (R477). -/
def execSleepEntered (s : State) : Host.Outcome State Fault Refusal := act State.sleepEntered s

end Sys2Proof.Machine
end

