-- ==== Sys2Proof/Machine/Tick.lean ====
section
/-!
DEFINITION. What happens at a tick and at a second boundary: the grid instant (R89), the second boundary (R53), the step of hub
time (R61, R91, R104 to R106) and the commit of the TICK page (R90).
-/

namespace Sys2Proof.Machine

/-! ## A tick is issued (R89, R92) -/

/-- The pair commit in hand is made: every page of the digest with staged changes is requested for its tick (R396). -/
def State.pairCommitApply (s : State) : State :=
  if s.bit F.PAIR.COMMIT_STS.SCHED then
    let s := s.each (headerPages.filter fun p => digestPage p && s.stagedDiffers p) fun s p =>
      s.commitRequest p (some s.pair.commitIdx) true
    (s.setBit F.PAIR.COMMIT_STS.SCHED false).setBit F.PAIR.COMMIT_STS.DONE true
  else s

/-- The groups whose echo of the strobe was bad (R97). -/
def State.strobeEcho (s : State) (bad : BitVec 32) : State :=
  let s := s.setFld F.TICK.STROBE_FLT_GROUPS.GROUPS (s.fld F.TICK.STROBE_FLT_GROUPS.GROUPS ||| bad.toNat)
  s.each ((List.range 32).filter fun g => bad.getLsbD g) fun s _ => s.raiseFault Flt.strobeEcho

/-- The words of group `g` for tick `idx` that are still to come carry BLK (R97). -/
def Pass.spoil (p : Pass) (g idx : Nat) : Pass :=
  if p.group = g ∧ p.tick.idx = idx then { p with tick := { p.tick with bad := p.tick.bad ||| BitVec.ofNat 32 (2 ^ g) } } else p

/-- An injected STROBE_ECHO strikes the last tick in one group, whichever it is (R97, R429; log entry 3). -/
def State.echoInject (s : State) : State :=
  let (x, s) := s.drawFree
  let g := (x % 32).toNat
  let i := s.lastIdx
  (s.modSlice (s.serving g) fun y =>
    { y with pass := y.pass.map fun p => p.spoil g i, later := y.later.map fun p => p.spoil g i }).strobeEcho (BitVec.ofNat 32 (2 ^ g))

/-- The first tick after a wake: AWAKE, WOKE, and the SLEEP_GAP marker ahead of its words (R108, R282, R476). -/
def State.tickWake (s : State) : State :=
  let s := s.when (decide (s.fld F.NVM.PWR_STS.STATE = 4)) fun s => (s.setFld F.NVM.PWR_STS.STATE 1).raiseInt Irq.woke
  s.when s.grid.gapDue fun s =>
    let n := s.grid.gap
    ((s.markersDue { sleepGap := some n }).ctxMarkDue (mkSleepGap n)).modGrid fun g => { g with gapDue := false }

/-- The tick counts as the last one issued. -/
def State.tickCount (s : State) (t : Tick) : State :=
  ((s.recordTick t).setFld64 F.TICK.LAST_IDX_LO.IDX_LO F.TICK.LAST_IDX_HI.IDX_HI t.idx).modGrid fun g => { g with gap := 0 }

/-- The commits that wait for a tick index, and the coefficient banks that switch at it (R231, R396, R449). -/
def State.tickCommits (s : State) (idx : Nat) : State :=
  let s := s.when (decide (s.pair.commitIdx ≤ idx)) State.pairCommitApply
  (s.releaseAll idx).each (List.range 16) fun s fs => s.firsetApply fs idx

/-- What moves by one step at each tick: trims, the wale correction, slews and the boundaries of the groups (R99, R102, R165,
R203). -/
def State.tickSteps (s : State) : State :=
  let s := s.applyTrims.waleStep
  let s := s.each (List.range 34) State.calTick
  (s.each (List.range 32) fun s g => s.boundaryNow g true).calTryStart

/-- The fine part of the strobe of the instant `t`: what is left from the interpolated hub time of the last cycle edge at or before it, in
steps of 1/64 ns of the delay line, of which there are 128 (R92). How a fraction of a step is rounded is free (log entry 3). -/
def State.strobeFine (s : State) (t : Nat) : Nat × State :=
  let edge := if s.finePos ≤ t * 2 ^ 25 then s.finePos else s.finePos - s.cycleStep
  let (x, s) := s.roundFree ((t * 2 ^ 25 : Nat) - (edge : Int)) (2 ^ 25)
  (min 127 x.toNat, s)

/-- A tick is issued: its holds and passes begin, and what waits for a tick takes effect. Its grid count is taken mod 2^64 (R88). -/
def State.issueTick (s : State) (n : Nat) (bad : BitVec 32) : State :=
  let (fine, s) := s.strobeFine (s.gridTu n)
  let t : Tick := ⟨idxOf s.tickPeriod n, n % 2 ^ 64, s.gridTu n, bad, fine⟩
  let s := ((s.tickWake.tickCount t).tickCommits t.idx).tickSteps
  let s := (s.takeoverTick).mirrorSilent t.idx
  let s := s.when s.leads fun s => s.mirrorTick t.idx
  (s.strobeEcho bad).each (List.range 32) fun s g => s.passBegin t g

/-- A grid instant in CATCHUP that is issued ends it (R105). -/
def State.gridResume (s : State) : State :=
  s.when (decide (s.gridSt = gridCatchup)) fun s => (s.setFld F.TICK.TICK_STS.STATE gridRun).raiseInt Irq.resumed

/-- The grid instant with grid count `n` is now: it is issued as a tick under R89, or counted (R103, R105, R108). -/
def State.gridDecide (s : State) (n : Nat) (bad : BitVec 32) : State :=
  if (s.gridSt = gridRun ∨ s.gridSt = gridCatchup) ∧ s.gridFree n = true then s.gridResume.issueTick n bad
  else s.gridSkip 1

/-! ## The commit of the TICK page (R90, R91) -/

/-- The commit of the TICK page takes effect at the instant `at_` of hub time, in ns: the new grid starts there. No tick comes before
`at_` plus the new phase nor within an old period of the last tick; after a step only `at_` itself counts (R90, R91, R165). -/
def State.tickCommit (s : State) (at_ : Nat) (step : Bool) : State :=
  let s := s.gridSettle
  let p := s.tickPeriod
  let ph := s.phaseTu
  let s := s.commitApply pgTICK
  let s := s.modGrid fun g => { g with trimDue := true }
  if s.tickPeriod = p ∧ s.phaseTu = ph then s
  else
    let lo := at_ * 64 + s.phaseTu
    let hi := match s.grid.last with
      | some t => t.at_ + p * 64
      | none => 0
    let first := if step then at_ * 64 else max lo hi
    let s := s.modGrid fun g => { g with cur := s.countAt (at_ * 64), notBefore := max g.notBefore first }
    (s.raiseInt Irq.gridChanged).each (List.range 32) fun s g =>
      (s.modGroup g fun x => { x with closeDue := true, turnIdx := s.lastIdx }).boundaryNow g false

/-- A commit of the TICK page takes effect at the coming second boundary; with a step at the same boundary it follows the step
(R90, R91). -/
def State.tickCommitApply (s : State) : State :=
  let b := s.nextSecond
  if s.tickCommitDue b ∧ s.stepAt b = false then (s.reachNs (b * nsPerSec)).tickCommit (b * nsPerSec) false else s

/-- TICK_COMMIT_APPLY (R90). -/
def execTickCommitApply (s : State) : Host.Outcome State Fault Refusal := act State.tickCommitApply s

/-! ## Grid instants (R89) -/

/-- The coming grid instant is reached. A commit of the TICK page that is due at a boundary before it is made there. -/
def State.gridInstant (s : State) (bad : BitVec 32) : State :=
  let s := s.gridSettle
  let s := s.when s.boundaryFirst State.tickCommitApply
  let n := s.grid.cur
  ((s.reachTu (s.gridTu n)).modGrid fun g => { g with cur := n + 1 }).gridDecide n bad

/-- GRID_INSTANT (R89). -/
def execGridInstant (bad : BitVec 32) (s : State) : Host.Outcome State Fault Refusal := act (·.gridInstant bad) s

/-- A timeout: after a YIELD_N without its record the standby takes over at its next tick, otherwise at the tick it has issued last (R403,
R404). -/
def State.timeoutTake (s : State) : State := if s.takeoverDue ∧ s.pair.forceTake = true then s.gridInstant 0 else s.takeoverTick

/-- TIMEOUT_TAKEOVER (R403). -/
def execTimeoutTakeover (s : State) : Host.Outcome State Fault Refusal := act State.timeoutTake s

/-! ## Second boundaries (R53, R394) -/

/-- The configuration digest of a second boundary is taken, and an ACTIVE hub of a pair sends it (R394). -/
def State.digestTake (s : State) : State :=
  let s := s.modPair fun p => { p with ownDigest := some s.digest }
  s.when s.mirrored fun s => s.linkSend (.config s.digest none false)

/-- Hub time crosses a second boundary: WSYNC, the EPOCH, the commit of the TICK page and the configuration digest. A boundary for which a
step is scheduled is left to STEP_APPLIED (R61, R91). -/
def State.secondBoundary (s : State) : State :=
  let b := s.nextSecond
  if s.stepAt b then s
  else
    let s := ((s.reachNs (b * nsPerSec)).modTime fun t => { t with crossed := false, epoch := ⟨b, 0⟩ }).wsyncDrive
    let s := s.markersDue { epoch := some ⟨b, 0⟩ }
    (s.when (s.tickCommitDue b) fun s => s.tickCommit (b * nsPerSec) false).digestTake

/-- SECOND_BOUNDARY (R53). -/
def execSecondBoundary (s : State) : Host.Outcome State Fault Refusal := act State.secondBoundary s

/-! ## Steps of hub time (R61, R91, R104 to R106) -/

/-- The grid over a step from `b` to `n`, both in ns: the instant of the step and the instants jumped over are not issued, and after a
backward step the grid catches up (R104 to R106). -/
def State.gridStep (s : State) (b n : Nat) : State :=
  let back := decide (n < b)
  let k := (if back then s.countAt (b * 64 + 1) else s.countAt (n * 64)) - s.grid.cur
  let span := (n, b, s.lastIdx)
  let s := (s.gridSkip k).modGrid fun g =>
    { g with cur := s.countAt (n * 64), backs := if back then span :: g.backs else g.backs
             notBefore := if b * 64 < g.notBefore then g.notBefore + n * 64 - b * 64 else 0 }
  if back ∧ s.gridSt = gridRun then (s.setFld F.TICK.TICK_STS.STATE gridCatchup).raiseInt Irq.catchup else s

/-- A scheduled step is applied at its second boundary `b`: hub time is set to b - e, and TIME_STEP and the EPOCH of the new time follow
each other in one packet (R61, R241, R282, R283, R301). The digest of the boundary is taken and announced as at any other (R394). -/
def State.stepApply (s : State) (b : Nat) (e : Int) : State :=
  let s := (s.reachNs (b * nsPerSec)).gridSettle.wsyncDrive
  let old := b * nsPerSec
  let new := ((old : Int) - e).toNat
  let s := s.each (List.range 512) State.streamClose
  let s := (s.setNow new).modTime fun t =>
    { t with crossed := false, ppsSeen := 0, epoch := timeOfNs new, jump := t.jump + ((new : Int) - (s.nowNs : Int)) }
  let s := s.cancelStep.gridStep old new
  let s := s.markersDue { timeStep := some e, epoch := some (timeOfNs new) }
  let s := (s.ctxMarkDue (mkTimeStep e)).each (List.range 256) fun s x =>
    if s.cxWrites x then s.modCtx x fun c => { c with tstep := true } else s
  let s := s.count (if 0 < e then F.TIME.STEP_CNT.BACK else F.TIME.STEP_CNT.FWD)
  let s := s.rimEvent evTimeStep (b2n (decide (0 < e)) * 2 ^ 31 + satNat (2 ^ 31 - 1) (ceilDiv e.natAbs 1000))
  let s := ((s.raiseInt Irq.stepDone).markTimeSet.servoEnter svLocking).modServo fun v =>
    { v with prev := none, steps := v.steps + 1, stepNew := some s.nowNs }
  (s.when (s.tickCommitDue b) fun s => s.tickCommit new true).digestTake.wakeAtCheck

/-- The step that is scheduled, if one is. -/
def State.stepApplied (s : State) : State :=
  match s.servo.sched with
  | some (b, e) => s.stepApply b e
  | none => s

/-- STEP_APPLIED (R61). -/
def execStepApplied (s : State) : Host.Outcome State Fault Refusal := act State.stepApplied s

end Sys2Proof.Machine
end

