-- ==== Sys2Proof/Machine/Ring.lean ====
section
/-!
DEFINITION. The line ports and the ring node (R334 to R347, R353): port states, the duplicate table, forwarding with the
transparent clock (R74), local frames and local consumption.
-/

namespace Sys2Proof.Machine

/-! ## Local frames (R345) -/

/-- A copy of the local frame is no longer to be sent on port `p`. When none is left, the node holds the frame while a copy of it is
still on the line of the other port. -/
def State.localDrop (s : State) (p : Port) : State :=
  match s.net.local_ with
  | none => s
  | some (f, a, b) =>
    let a := a && decide (p ≠ .a)
    let b := b && decide (p ≠ .b)
    let q : Port := match p with
      | .a => .b
      | .b => .a
    if a || b || (s.portUp q && decide (20 * s.time.cycles < s.net.localEnd)) then s.modNet fun n => { n with local_ := some (f, a, b) }
    else (s.modNet fun n => { n with local_ := none }).yieldClose

/-! ## Port states (R335, R336) -/

/-- Elapsed time in tenths of a nanosecond. -/
def State.tenths (s : State) : Nat := 20 * s.time.cycles

abbrev portOff : Nat := 0
abbrev portDown : Nat := 1
abbrev portSync : Nat := 2
abbrev portIsUp : Nat := 3

/-- PORT_STS.STATE. -/
def State.portState (s : State) (p : Port) : Nat := s.fld (F.PORT.PORT_STS.STATE (portNum p))

/-- PORT_CTL.MODE. -/
def State.portMode (s : State) (p : Port) : Nat := s.fld (F.PORT.PORT_CTL.MODE (portNum p))

/-- The frames of a port's forwarding buffer whose turn has come have left: each is counted in FWD_OUT, and FWD_WAIT_MAX keeps the longest
wait (R344, R369). -/
def State.fwdFlush (s : State) (p : Port) : State :=
  let n := portNum p
  let now := s.tenths
  let go := (s.getPort p).fwd.filter fun e => decide (e.2.1 ≤ now)
  let s := s.modPort p fun x => { x with
    sent := (go.map Prod.fst).reverse ++ x.sent
    fwd := x.fwd.filter fun e => decide (now < e.2.1) }
  let wait := (go.map fun e => e.2.2).foldl max 0
  let s := s.when (decide (s.fld (F.PORT.FWD_WAIT_MAX.NS n) < wait)) fun s =>
    s.setFld (F.PORT.FWD_WAIT_MAX.NS n) (satNat (2 ^ 32 - 1) wait)
  s.count (F.PORT.FWD_OUT.CNT n) go.length

/-- Enters a port state. An exit from UP counts, raises LINK_DOWN, and ends what the port was to send: what waits to be forwarded is
discarded without count. The requests to ARB_TX are noted anew (R336). -/
def State.setPort1 (s : State) (p : Port) (st : Nat) : State :=
  let old := s.portState p
  if old = st then s
  else
    let s := s.setFld (F.PORT.PORT_STS.STATE (portNum p)) st
    let s := s.when (decide (st = portSync)) fun s => s.modPort p fun x => { x with syncAt := s.time.cycles }
    let s := s.when (decide (old = portIsUp)) fun s =>
      let s := ((s.fwdFlush p).count (F.PORT.LINK_DOWN_CNT.CNT (portNum p))).raiseInt (Irq.portLinkDown (portNum p))
      ((s.modPort p fun x => { x with busy := 0, fwd := [] }).localDrop p).txNotice
    s.when (decide (st = portIsUp)) fun s => (s.raiseInt (Irq.linkUp (portNum p))).txNotice

/-- The state that MODE, LOS and the receiver's synchronisation give: OFF, DOWN, or SYNC unless the port is UP (R336). -/
def State.portEval (s : State) (p : Port) : State :=
  if s.portMode p = 0 then s.setPort1 p portOff
  else if s.bit (F.PORT.PORT_STS.LOS (portNum p)) ∨ (s.getPort p).sync = false then s.setPort1 p portDown
  else if s.portState p = portIsUp then s
  else s.setPort1 p portSync

/-- PORT_STS.LOS follows the pin and LOS_POL; a change raises LOS_CHANGE (R335, R370). -/
def State.losUpdate (s : State) (p : Port) : State :=
  let los := (s.getPort p).los != s.bit (F.PORT.PORT_CTL.LOS_POL (portNum p))
  if los = s.bit (F.PORT.PORT_STS.LOS (portNum p)) then s
  else (s.setBit (F.PORT.PORT_STS.LOS (portNum p)) los).raiseInt (Irq.losChange (portNum p))

/-- The module's loss-of-signal input changes. -/
def State.losPin (s : State) (p : Port) (level : Bool) : State :=
  ((s.modPort p fun x => { x with los := level }).losUpdate p).portEval p

/-- LOS_CHANGE (R335). -/
def execLosChange (p : Port) (level : Bool) (s : State) : Host.Outcome State Fault Refusal :=
  if s.inReset then .next (s.modPort p fun x => { x with los := level }) else act (·.losPin p level) s

/-- The receiver reports its synchronisation, a remote fault, the end of auto-negotiation, and how many errored blocks or invalid code
groups it has met since its last report, which CODE_ERR_CNT counts (R369). A remote fault takes a port that is UP to DOWN, and the
millisecond of R336 counts from its end. -/
def State.portSyncPin (s : State) (p : Port) (sync rf an : Bool) (errs : Nat) : State :=
  if s.portMode p = 0 then s
  else
    let s := s.count (F.PORT.CODE_ERR_CNT.CNT (portNum p)) errs
    let hadRf := s.bit (F.PORT.PORT_STS.RF (portNum p))
    let s := (s.setBit (F.PORT.PORT_STS.RF (portNum p)) rf).setBit (F.PORT.PORT_STS.AN_DONE (portNum p)) an
    let s := s.modPort p fun x => { x with sync := sync, syncAt := if hadRf && !rf then s.time.cycles else x.syncAt }
    (s.when (rf && decide (s.portState p = portIsUp)) fun s => s.setPort1 p portDown).portEval p

/-- PORT_SYNC_CHANGE (R336). -/
def execPortSyncChange (p : Port) (sync rf an : Bool) (s : State) (errs : Nat := 0) : Host.Outcome State Fault Refusal :=
  act (·.portSyncPin p sync rf an errs) s

/-- Auto-negotiation stands in the way of UP: AN_EN in 1000BASE-X, and not complete (R336). -/
def State.anWaits (s : State) (p : Port) : Bool :=
  decide (s.portMode p = 1) && s.bit (F.PORT.PORT_CTL.AN_EN (portNum p)) && !s.bit (F.PORT.PORT_STS.AN_DONE (portNum p))

/-- The port has been in SYNC for 1 ms without a fault: it becomes UP (R336). -/
def State.portRise (s : State) (p : Port) : State :=
  if s.portState p = portSync ∧ s.bit (F.PORT.PORT_STS.RF (portNum p)) = false ∧ s.anWaits p = false then
    (s.reachCycles ((s.getPort p).syncAt + 500000)).setPort1 p portIsUp
  else s

/-- PORT_UP (R336). -/
def execPortUp (p : Port) (s : State) : Host.Outcome State Fault Refusal := act (·.portRise p) s

/-! ## Modes (R334, R338) -/

/-- NODE_MODE (R338). -/
def State.nodeMode (s : State) : Nat := s.fld F.HSR.HSR_CTL.NODE_MODE

/-- The node cannot work as its mode says: HSR with ports of different MODE, or SINGLE with PORT_A OFF (R338). -/
def State.modesDiffer (s : State) : Bool :=
  (decide (s.nodeMode = 1) && decide (s.portMode .a ≠ s.portMode .b)) || (decide (s.nodeMode = 2) && decide (s.portMode .a = 0))

/-- MODE_MISMATCH is raised when that begins (R338). -/
def State.modeCheck (s : State) (before : Bool) : State :=
  s.when (s.modesDiffer && !before) fun s => s.raiseInt Irq.modeMismatch

/-- A write of PORT_CTL: a change of MODE takes effect at once, through DOWN (R336). -/
def State.writePortCtl (s : State) (p : Port) (v : Reg) : State :=
  let n := portNum p
  let old := s.portMode p
  let before := s.modesDiffer
  let s := s.setReg (F.PORT.PORT_CTL.MODE n).addr (v &&& 0x113#32)
  let s := s.when (decide (s.portMode p ≠ old)) fun s =>
    let s := (s.setBit (F.PORT.PORT_STS.RF n) false).setBit (F.PORT.PORT_STS.AN_DONE n) false
    s.modPort p fun x => { x with sync := false }
  ((s.losUpdate p).portEval p).modeCheck before

/-- PORT_MODE_WRITE (R336). -/
def execPortModeWrite (p : Port) (v : Reg) (s : State) : Host.Outcome State Fault Refusal := actW (·.writePortCtl p v) s

/-- The copies of a local frame that the node may still send in its mode: with OFF none but PTP, with SINGLE those on PORT_A. -/
def State.localByMode (s : State) : State :=
  match s.net.local_ with
  | none => s
  | some (f, _, _) =>
    let ptp := match f.body with
      | .ptp _ => true
      | _ => false
    let m := s.nodeMode
    let s := s.when (decide (m ≠ 1) && !(ptp && decide (m ≠ 2))) fun s => s.localDrop .b
    s.when (decide (m ≠ 1) && decide (m ≠ 2) && !ptp) fun s => s.localDrop .a

/-- A write of HSR_CTL (R338, R371). -/
def State.writeHsrCtl (s : State) (v : Reg) : State :=
  let before := s.modesDiffer
  (((s.setReg F.HSR.HSR_CTL.NODE_MODE.addr (v &&& 0x7#32)).localByMode).modeCheck before).txNotice

/-- NODE_MODE_WRITE (R338). -/
def execNodeModeWrite (v : Reg) (s : State) : Host.Outcome State Fault Refusal := actW (·.writeHsrCtl v) s

/-! ## Line time (R44, R343, R344) -/

/-- Line time of a frame in tenths of a nanosecond, preamble and gap included: 20 bytes beside the frame (R44). -/
def lineTime (mode bytes : Nat) : Nat := (bytes + 20) * (if mode = 1 then 80 else if mode = 2 then 32 else 8)

/-- A frame is put on the line of a port: it starts at the next frame boundary. The second part is its start. -/
def State.lineStart (s : State) (p : Port) (bytes : Nat) : State × Nat :=
  let at_ := max s.tenths (s.getPort p).busy
  (s.modPort p fun x => { x with busy := at_ + lineTime (s.portMode p) bytes }, at_)

/-- The frame as it leaves on a port: its HSR tag, where it has one, carries the port's path identifier and the LSDU size, the bytes between
the tag's EtherType and the FCS (R348; PRESUMED, log entry 83). -/
def tagFor (p : Port) (f : Frame) : Frame :=
  { f with hsr := f.hsr.map fun t => { t with path := (match p with | .a => 0 | .b => 1), size := f.bytes - 18 } }

/-- A copy of the local frame is sent on port `p`, at the first frame boundary at which no forwarded frame waits (R345). -/
def State.localSend (s : State) (p : Port) : State :=
  match s.net.local_ with
  | none => s
  | some (f, a, b) =>
    if (if p = .a then a else b) = false ∨ s.portUp p = false ∨ s.stalledAt pgHSR = true then s
    else
      let s := (s.reachCycles (ceilDiv (s.getPort p).busy 20)).fwdFlush p
      let s := ((s.lineStart p f.bytes).1.modPort p fun x => { x with sent := tagFor p f :: x.sent }).count (F.PORT.LOCAL_OUT.CNT (portNum p))
      s.modNet fun n => { n with local_ := some (f, a && decide (p ≠ .a), b && decide (p ≠ .b)),
                                 localEnd := max n.localEnd (s.getPort p).busy }

/-- LOCAL_FRAME_SEND (R345). -/
def execLocalFrameSend (p : Port) (s : State) : Host.Outcome State Fault Refusal := act (·.localSend p) s

/-! ## The duplicate table (R342) -/

/-- FORGET_MS in cycles; 0 acts as 1 (R371). -/
def State.forgetCycles (s : State) : Nat := max 1 (s.fld F.HSR.DD_CTL.FORGET_MS) * 500000

/-- A frame enters the duplicate table; the 1,025th entry pushes the oldest out (R342). -/
def State.dupAdd (s : State) (src seq : Nat) (dir : Port) : State :=
  let l := ⟨src, seq, dir, s.time.cycles⟩ :: s.net.dup
  let s := s.modNet fun n => { n with dup := l.take 1024 }
  s.when (decide (1024 < l.length)) fun s => s.count F.HSR.DD_EVICT_CNT.CNT

/-- The oldest entry is forgotten FORGET_MS after it was made (R342). -/
def State.dupForget (s : State) : State :=
  match s.net.dup.getLast? with
  | none => s
  | some e => (s.reachCycles (e.at_ + s.forgetCycles)).modNet fun n => { n with dup := n.dup.dropLast }

/-- DD_FORGET (R342). -/
def execDdForget (s : State) : Host.Outcome State Fault Refusal := act State.dupForget s

/-! ## Forwarding (R74, R343, R344, R346) -/

/-- The longest cut-through latency of a port mode, in 2^-16 ns (R343). -/
def maxLatency (mode : Nat) : Nat := (if mode = 1 then 3600 else if mode = 2 then 1600 else 600) * 2 ^ 16

/-- The cut-through latency of a frame: a free value between 0 and the maximum of R343 (log entry 3). -/
def State.drawLatency (s : State) (mode : Nat) : Int × State :=
  let (x, s) := s.drawFree
  (x % ((maxLatency mode + 1 : Nat) : Int), s)

/-- The delay that the transparent clock adds for a Sync from ingress port `p` that waited `wait` tenths of a nanosecond, in 2^-16 ns:
residence, link delay and ASYM (R74). A link delay that is not valid adds an unstated number. -/
def State.tcSum (s : State) (p : Port) (wait : Nat) : Int × State :=
  let (lat, s) := s.drawLatency (s.portMode (otherPort p))
  let (res, s) := s.roundFree ((wait : Int) * 2 ^ 16) 10
  let (d, s) := if s.delayValid p then ((s.fld (linkDelayFld p) : Int) * 2 ^ 12, s) else s.drawFree
  (res + lat + d + s.sfld (asymFld p) * 2 ^ 16, s)

/-- The body of a forwarded frame as it leaves (R74). `ok` says that its time stamps could be queued (R75). -/
def State.tcBody (s : State) (p : Port) (wait : Nat) (ok : Bool) (b : Body) : Body × State :=
  match b with
  | .ptp (.sync m) =>
    if ok && m.stampOk then
      let (x, s) := s.tcSum p wait
      if m.twoStep then (b, s.tcKeep p ⟨m.src, m.seq, x, s.time.cycles⟩)
      else (.ptp (.sync { m with corr := m.corr + x }), s.count F.PTP.TC_FWD_CNT.CNT)
    else (b, s)
  | .ptp (.followUp m) =>
    match s.tcTake p m.src m.seq with
    | (some x, s) => (.ptp (.followUp { m with corr := m.corr + x }), s.count F.PTP.TC_FWD_CNT.CNT)
    | (none, s) => (b, s)
  | _ => (b, s)

/-- Bytes that wait in the forwarding buffer of a port. -/
def State.fwdBytes (s : State) (p : Port) : Nat :=
  (((s.getPort p).fwd.filter fun e => decide (s.tenths < e.2.1)).map fun e => e.1.bytes).sum

/-- A frame is forwarded from port `p` to the other port. One that finds the line busy waits in the buffer, if it fits, until its turn comes
(R344); a frame that is too long is cut at 2,000 bytes and ends with an inverted FCS (R346). -/
def State.forward (s : State) (p : Port) (f : Frame) (ok fits : Bool) : State :=
  let q := otherPort p
  let n := portNum q
  let s := s.fwdFlush q
  let bytes := min f.bytes 2000
  let waits := decide (s.tenths < (s.getPort q).busy)
  if waits && (!fits || decide (16384 < s.fwdBytes q + bytes)) then
    (s.count (F.PORT.FWD_OVF_CNT.CNT n)).raiseFault (Flt.fwdOvf n)
  else
    let now := s.tenths
    let (s, at_) := s.lineStart q bytes
    let (body, s) := s.tcBody p (at_ - now) ok f.body
    let out : Frame := { f with body := body, bytes := bytes, fcsOk := f.fcsOk && decide (f.bytes ≤ 2000) }
    (s.modPort q fun x => { x with fwd := x.fwd ++ [(out, at_, (at_ - now) / 10)] }).fwdFlush q

/-- The node forwards from port `p`: HSR with both ports in one MODE, and the other port UP (R336, R338). -/
def State.forwards (s : State) (p : Port) : Bool :=
  decide (s.nodeMode = 1) && decide (s.portMode .a = s.portMode .b) && s.portUp (otherPort p)
    && !s.stalledAt (pgPORT (portNum (otherPort p)))

/-! ## Local consumption (R341) -/

/-- A ring trigger arrives (R272, R353). -/
def State.ringRx (s : State) (id t origin : Nat) (stampOk : Bool) : State :=
  let s := s.when (s.bit F.TRIG.TRIG_CTL.RING_RX_EN) fun s =>
    let s := (s.setFld F.TRIG.RRX_INFO.ID id).setFld F.TRIG.RRX_INFO.ORIGIN origin
    let ns := t / 8
    let sec := ns / nsPerSec
    let s := (s.setFld F.TRIG.RRX_T0_SEC_HI.SUB (t % 8)).setFld F.TRIG.RRX_T0_SEC_HI.SEC_HI (sec / 2 ^ 32)
    let s := (s.setFld F.TRIG.RRX_T0_SEC_LO.SEC_LO sec).setFld F.TRIG.RRX_T0_NS.NS (ns % nsPerSec)
    let (x, s) := if stampOk then ((s.ns32 : Int), s) else s.drawFree
    let s := s.setSfld F.TRIG.RRX_ARRIVAL.NS32 x
    ((s.count F.TRIG.RING_RX_CNT.CNT).raiseInt Irq.ringRx).ringDeliver id t origin
  s.when (s.bit F.NVM.PWR_CTL.WAKE_RING_EN && decide (s.fld F.NVM.PWR_CTL.WAKE_RING_ID = id)) fun s => s.wakeBy wkRing

/-- The ID, T0 in 125 ps units of a ring trigger's three words (R353). -/
def ringFields (w0 w1 w2 : Word) : Nat × Nat :=
  let a := (wordLo w0).toNat
  let sec := a % 2 ^ 16 * 2 ^ 32 + (wordLo w1).toNat
  (a / 2 ^ 24, (sec * nsPerSec + (wordLo w2).toNat % 2 ^ 30) * 8 + a / 2 ^ 16 % 8)

/-- A hub frame is one that this hub consumes: a ring trigger, or a management request for it (R341). -/
def State.hubTakes (s : State) (f : Frame) (h : HubHdr) : Bool :=
  h.ctrl && ((decide (h.ftype = 7) && decide (f.dst = s.trigMac))
    || (decide (h.ftype = 6) && decide (f.dst = s.ownMac) && decide (h.hubId = s.fld F.HSR.HUB_ID.OWN_ID)))

/-- A consumed hub frame is a ring trigger or a management request (R341, R354). -/
def State.hubRx (s : State) (f : Frame) (h : HubHdr) (words : List Word) (stampOk : Bool) : State :=
  if h.ftype = 7 then
    (match words with
     | [w0, w1, w2] => s.ringRx (ringFields w0 w1 w2).1 (ringFields w0 w1 w2).2 h.hubId stampOk
     | _ => s)
  else s.when (s.bit F.HSR.HSR_CTL.MGMT_EN) fun s => s.modNet fun n => { n with mgmtRx := n.mgmtRx ++ [f] }

/-- A frame with a right FCS is examined for consumption; `first` says that no copy of it has been seen; the second copy of a consumed frame is
discarded and counted (R341, R371). PTP messages are not subject to duplicate discard (R70). -/
def State.consume (s : State) (p : Port) (f : Frame) (first stampOk : Bool) : State :=
  match f.body with
  | .ptp (.sync m) => s.syncTake p { m with stampOk := stampOk }
  | .ptp (.followUp m) => s.followUpRx p m
  | .ptp (.announce m) => s.announceRx m
  | .hub e h ws =>
    if decide (e = s.fld F.HSR.ETHERTYPE.TYPE) && s.hubTakes f h then
      if first then s.hubRx f h ws stampOk else s.count F.HSR.DUP_DISCARD_CNT.CNT
    else s
  | _ => s

/-- An entry of the duplicate table for this source address and number, in any direction, or in direction `dir` (R341, R342). -/
def State.dupHas (s : State) (src seq : Nat) (dir : Option Port) : Bool :=
  s.net.dup.any fun e => decide (e.src = src) && decide (e.seq = seq) && (dir.isNone || decide (dir = some e.dir))

/-- A frame is the hub's own: from OWN_MAC, or from STREAM_MAC while the hub is SOLO or ACTIVE (R340). -/
def State.isOwn (s : State) (f : Frame) : Bool := decide (f.src = s.ownMac) || (decide (f.src = s.streamMac) && s.leads)

/-- A frame without an HSR tag at an HSR node: an own one is removed; it is a Pdelay message, whose content PDELAY_REQ_RX and
PDELAY_RESP_RX bring, or it is counted and discarded (R340). -/
def State.untaggedRx (s : State) (f : Frame) : State :=
  if s.isOwn f then s.count F.HSR.OWN_REMOVED_CNT.CNT
  else match f.body with
  | .ptp (.pdelay _) => s
  | _ => s.count F.HSR.NOTAG_CNT.CNT

/-- A tagged frame at an HSR node, in the order of R340. -/
def State.taggedRx (s : State) (p : Port) (f : Frame) (seq : Nat) (stampOk fits : Bool) : State :=
  let ptp := match f.body with
    | .ptp _ => true
    | _ => false
  let good := f.fcsOk && decide (f.bytes ≤ 2000)
  if s.isOwn f then s.count F.HSR.OWN_REMOVED_CNT.CNT
  else if ptp = false ∧ s.dupHas f.src seq (some p) then s.count F.HSR.DUP_DISCARD_CNT.CNT
  else
    let first := !s.dupHas f.src seq none
    let s := s.when (!ptp) fun s => s.dupAdd f.src seq p
    let s := s.when (s.forwards p && decide (f.dst ≠ s.ownMac)) fun s => s.forward p f stampOk fits
    s.when good fun s => s.consume p f first stampOk

/-- The ingress time stamp of a frame could be queued: that of the frame, and that of the Sync it carries (R75). -/
def frameStamped (f : Frame) (stampOk : Bool) : Bool :=
  match f.body with
  | .ptp (.sync m) => stampOk && m.stampOk
  | _ => stampOk

/-- A frame is received (R334, R336, R338, R340, R346). -/
def State.frameRx (s : State) (p : Port) (f : Frame) (stampOk fits : Bool) : State :=
  let n := portNum p
  let stampOk := frameStamped f stampOk
  if s.portUp p = false then s
  else
    let s := s.count (F.PORT.RX_FRAMES.CNT n)
    let s := s.when (!f.fcsOk) fun s => s.count (F.PORT.RX_FCS_ERR.CNT n)
    let s := s.when (decide (2000 < f.bytes)) fun s => s.count (F.PORT.RX_OVERSIZE.CNT n)
    let s := s.when (!stampOk) fun s => s.tsOverflow p
    if f.body = .pause ∨ s.stalledAt pgHSR = true then s
    else if s.nodeMode = 1 then
      (match f.hsrSeq with
       | some seq => s.taggedRx p f seq stampOk fits
       | none => s.untaggedRx f)
    else if s.nodeMode = 2 ∧ p = .a ∧ f.hsrSeq = none ∧ f.fcsOk ∧ f.bytes ≤ 2000 then s.consume p f true stampOk
    else s

/-- FRAME_RX (R340). -/
def execFrameRx (p : Port) (f : Frame) (stampOk fits : Bool) (s : State) : Host.Outcome State Fault Refusal :=
  act (·.frameRx p f stampOk fits) s

end Sys2Proof.Machine
end

