-- ==== Sys2Proof/Machine/Wale.lean ====
section
/-!
DEFINITION. The wale bus (R361 to R368, R373): roles, the timekeeper's clock and phase pulse, line-delay measurement, and received
pulses.
-/

namespace Sys2Proof.Machine

/-! ## Roles and clock (R362 to R364) -/

/-- The hub that drives WSYNC has a correction of 0 (R102, R362). -/
def State.tkZero (s : State) : State := s.when s.timekeeper State.waleZero

/-- A write of WALE_CTL. Writing ROLE makes the hub what ROLE says, and ends what a backup took over (R362, R364). -/
def State.writeWaleCtl (s : State) (v : Reg) : State :=
  let off := !s.waleOn
  let s := s.setReg F.WALE.WALE_CTL.ROLE.addr (v &&& 0x1F#32)
  let s := (s.setBit F.WALE.WALE_STS.TK_ACTIVE (decide (s.fld F.WALE.WALE_CTL.ROLE = 2))).tkZero
  s.when (off && s.waleOn) fun s => s.modWale fun w => { w with wsyncAt := s.time.cycles, wsyncGone := false }

/-- The reference is lost: REFCLK_LOSS stops the servo (R64, R65). -/
def State.refLost (s : State) : State := (s.modServo fun v => { v with refBad := true }).timeFatal Flt.refclkLoss

/-- No WCLK edge for 400 ns: WCLK_LOST is raised, and a MEMBER with TK_BACKUP becomes timekeeper; for a PLL on WCLK a gap longer than
1 µs (`long`) is REFCLK_LOSS (R363, R364, R368). -/
def State.wclkStop (s : State) (long : Bool) : State :=
  let s := s.when s.waleOn fun s =>
    let s := (s.setBit F.WALE.WALE_STS.WCLK_OK false).raiseInt Irq.wclkLost
    s.when (s.bit F.WALE.WALE_CTL.TK_BACKUP && !s.timekeeper) fun s =>
      ((s.setBit F.WALE.WALE_STS.TK_ACTIVE true).raiseInt Irq.tkTaken).tkZero
  s.when (long && s.bit F.WALE.WALE_STS.REF_WCLK) State.refLost

/-- WCLK_LOSS (R364). -/
def execWclkLoss (long : Bool) (s : State) : Host.Outcome State Fault Refusal := act (·.wclkStop long) s

/-- WCLK edges are present again (R373). -/
def State.wclkBack (s : State) : State := s.when s.waleOn fun s => s.setBit F.WALE.WALE_STS.WCLK_OK true

/-- WCLK_RESTORED (R373). -/
def execWclkRestored (s : State) : Host.Outcome State Fault Refusal := act State.wclkBack s

/-! ## WSYNC (R102, R365, R368) -/

/-- LINE_DLY_n in use: 0 at the timekeeper and while VALID is clear (R362, R368). -/
def State.lineDly (s : State) (n : Nat) : Nat :=
  if s.timekeeper ∨ (s.fld F.WALE.MEAS_STS.VALID).testBit n = false then 0 else s.fld (F.WALE.LINE_DLY.DLY n)

/-- WSYNC arrived `arrival` units of 15.625 ps after the hub's own second boundary; within 1 µs it is a phase pulse (R365). Its measured
line delay is taken off; the timekeeper's correction is 0 (R102). -/
def State.wsyncArrive (s : State) (arrival : Int) : State :=
  if s.waleOn = false ∨ 64000 < arrival.natAbs then s
  else
    let s := s.phaseSeen
    if s.timekeeper then s else s.wsyncAlign (arrival - s.lineDly 8)

/-- WSYNC_ALIGN (R102). -/
def execWsyncAlign (arrival : Int) (s : State) : Host.Outcome State Fault Refusal := act (·.wsyncArrive arrival) s

/-- No phase pulse for 3 s: WSYNC_LOST is raised once for each loss (R368). -/
def State.wsyncGo (s : State) : State :=
  if s.waleOn ∧ s.wale.wsyncGone = false then
    let s := s.reachCycles (s.wale.wsyncAt + 1500000000)
    ((s.setBit F.WALE.WALE_STS.WSYNC_OK false).modWale fun w => { w with wsyncGone := true }).raiseInt Irq.wsyncLost
  else s

/-- WSYNC_LOST (R368). -/
def execWsyncLost (s : State) : Host.Outcome State Fault Refusal := act State.wsyncGo s

/-! ## Line delay (R367) -/

/-- A write of MEAS_CMD: the lines whose bits are set are measured in increasing order, after the line in measurement. -/
def State.writeMeasCmd (s : State) (v : Nat) : State :=
  let keep := s.wale.todo.take 1
  let todo := keep ++ (List.range 9).filter fun n =>
    !keep.contains n && (v.testBit n || s.wale.todo.contains n)
  if todo.isEmpty then s
  else
    let s := s.when s.wale.todo.isEmpty fun s => s.modWale fun w => { w with valid := 0, tries := 0, sum := 0 }
    (s.modWale fun w => { w with todo := todo }).setBit F.WALE.WALE_STS.MEAS_BUSY true

/-- MEAS_CMD (R367). -/
def execMeasCmd (lines : BitVec 9) (s : State) : Host.Outcome State Fault Refusal := actW (·.writeMeasCmd lines.toNat) s

/-- One attempt: the hub drives a measurement pulse of 400 ns; `delay` is (t_b - t_a - 2,000 ns) / 2 in 15.625 ps units, none if the
attempt is discarded (R367). A hub whose role is OFF drives nothing and receives no echo. -/
def State.measTry (s : State) (delay : Option Int) : State :=
  match s.wale.todo with
  | [] => s
  | line :: _ =>
    if 16 ≤ s.wale.valid ∨ 64 ≤ s.wale.tries then s
    else
      let delay := if s.waleOn then delay else none
      let s := s.when s.waleOn fun s => s.walePulse line 400
      s.modWale fun w => { w with
        tries := w.tries + 1
        valid := w.valid + b2n delay.isSome
        sum := w.sum + delay.getD 0 }

/-- MEAS_ATTEMPT (R367). -/
def execMeasAttempt (delay : Option Int) (s : State) : Host.Outcome State Fault Refusal := act (·.measTry delay) s

/-- The measurement of a line succeeds: LINE_DLY is the mean of its 16 attempts. A mean that is not a whole number is rounded freely, and
one that DLY cannot hold is an unstated number (log entry 3). -/
def State.lineGood (s : State) (n : Nat) : State :=
  let (x, s) := s.roundFree s.wale.sum 16
  let (x, s) := if 0 ≤ x ∧ x < 2 ^ 16 then (x, s) else s.drawFree
  let s := s.setSfld (F.WALE.LINE_DLY.DLY n) x
  ((s.setBit ⟨F.WALE.MEAS_STS.VALID.addr, n, 1⟩ true).setBit ⟨F.WALE.MEAS_STS.FAIL.addr, 16 + n, 1⟩ false).raiseInt Irq.measDone

/-- The line in measurement is done: 16 valid attempts, or fewer in 64 (R367). -/
def State.lineDone (s : State) : State :=
  match s.wale.todo with
  | [] => s
  | n :: rest =>
    if s.wale.valid < 16 ∧ s.wale.tries < 64 then s
    else
      let s := if 16 ≤ s.wale.valid then s.lineGood n
        else (s.setBit ⟨F.WALE.MEAS_STS.FAIL.addr, 16 + n, 1⟩ true).raiseInt Irq.measFail
      (s.modWale fun w => { w with todo := rest, valid := 0, tries := 0, sum := 0 }).setBit F.WALE.WALE_STS.MEAS_BUSY (!rest.isEmpty)

/-- LINE_MEAS_DONE (R367). -/
def execLineMeasDone (s : State) : Host.Outcome State Fault Refusal := act State.lineDone s

/-- The timekeeper, with ECHO_EN set, answers a measurement pulse with an echo on the same line (R367). -/
def State.echo (s : State) (line : Nat) : State :=
  if s.timekeeper ∧ s.bit F.WALE.WALE_CTL.ECHO_EN then s.walePulse line 400 else s

/-- WALE_ECHO (R367). -/
def execWaleEcho (line : Fin 9) (s : State) : Host.Outcome State Fault Refusal := act (·.echo line.val) s

/-! ## Received pulses (R365, R366, R273) -/

/-- The leading edge lies within 1 µs of a second boundary, to its 125 ps (R365). -/
def nearSecond (t : Stamp) : Bool :=
  let u := 8 * t.ns + t.frac
  decide (u ≤ 8000) || decide (8 * nsPerSec ≤ u + 8000)

/-- The leading edge lies in a pulse that this hub drives on the line (R366). -/
def State.ownEdge (s : State) (line : Nat) (t : Stamp) : Bool :=
  s.wale.driving.any fun e => decide (e.1 = line) && decide (e.2.2.1 ≤ stampNs t) && decide (stampNs t < e.2.2.1 + e.2.2.2)

/-- The own receiver does not see what the hub drives on the line: the CONT fault DRIVE_CHECK (R366). -/
def State.driveUnseen (s : State) (line : Nat) : State :=
  if s.wale.driving.any (fun e => decide (e.1 = line)) = true then s.raiseFault Flt.driveCheck else s

/-- T of a trigger pulse in 125 ps units: the stamp less the measured line delay (R273, R368). A part of a unit is rounded freely. -/
def State.pulseTime (s : State) (n : Nat) (t : Stamp) : Nat × State :=
  let (x, s) := s.roundFree (8 * (stampUnits t : Int) - s.lineDly n) 8
  (x.toNat, s)

/-- A trigger pulse of another hub on WALE_n (R366). -/
def State.triggerPulse (s : State) (n : Nat) (t : Stamp) : State :=
  let s := s.count (F.WALE.RX_CNT.CNT n)
  let s := s.setFld F.WALE.LAST_RX.NS32 (ns32Of (stampNs t))
  let s := (s.setFld F.WALE.LAST_RX_INFO.LINE n).setFld F.WALE.LAST_RX_INFO.FRAC t.frac
  let (x, s) := s.pulseTime n t
  let s := s.waleTriggers n x
  s.when ((s.fld F.NVM.PWR_CTL.WAKE_WALE).testBit n) fun s => s.wakeBy wkWale

/-- A pulse is classified 200 ns after its leading edge (R365): a short one on WALE_n that is not the hub's own is a trigger, a long one on
WSYNC near a second boundary is a phase pulse; measurement pulses and echoes go no further. What the own receiver misses of a drive is
DRIVE_CHECK (R366; log entry 31). -/
def State.pulseRx (s : State) (line : Nat) (t : Stamp) (cls : WaleClass) : State :=
  if s.waleOn = false then s
  else
    match cls with
    | .short => if line < 8 ∧ s.ownEdge line t = false then s.triggerPulse line t else s
    | .wide => if line = 8 ∧ nearSecond t = true then s.phaseSeen else s
    | .unseen => s.driveUnseen line

/-- WALE_PULSE_RX (R366). -/
def execWalePulseRx (line : Fin 9) (t : Stamp) (cls : WaleClass) (s : State) : Host.Outcome State Fault Refusal :=
  act (·.pulseRx line.val t cls) s

end Sys2Proof.Machine
end

