-- ==== Sys2Proof/Machine/Pair.lean ====
section
/-!
DEFINITION. The pair (R375 to R412): roles and the start rule, the records of the pairing link, intervals and their
acknowledgement, pair commits, joining, yields and the fence.
-/

namespace Sys2Proof.Machine

/-! ## Entering a role (R380, R397) -/

/-- Every group's DAC code follows EXC_SET where it is not regulated (R121). -/
def State.dacAll (s : State) : State := s.each (List.range 32) State.dacFollow

/-- What a hub had staged is written under its own decisions. -/
def State.stageFlush (s : State) : State :=
  let l := s.pair.staging
  (s.modPair fun p => { p with staging := [] }).each l fun s e => s.stagedOwn e.1 e.2.1

/-- An ACTIVE hub whose partner is JOINING sends it the decade factors of every channel (R383, R385). -/
def State.allFactors (s : State) : State :=
  if s.role = roleActive ∧ s.fld F.PAIR.PAIR_STS.PARTNER_ROLE = roleJoining then
    s.each (List.range 512) fun s c => s.linkSend (s.factorsOf c)
  else s

/-- The hub becomes SOLO, or ACTIVE without a takeover (R380, R381). A partner that joins already gets the factors (R383). -/
def State.leadAs (s : State) (role : Nat) : State :=
  let s := (s.setRole role).modPair fun p =>
    { p with yst := .none, executing := false, exdWait := false, words := [], fates := [], gone := [], unacked := [], own := [],
             mirr := [], lastC := s.grid.last }
  (s.setBit F.PAIR.PAIR_STS.YIELD_DRV false).stageFlush.dacAll.allFactors

/-- The parts of a channel behind its slice are cleared on a hub that begins to join (R397, R398). -/
def clearChan (x : Chan) : Chan :=
  { x with win := {}, fir := {}, pkt := none, stats := {}, rain := {}, join := {}, dis := false, swap := none }

/-- A joining hub empties its queues, without markers (R397). -/
def State.joinQueue (s : State) (q : Nat) : State :=
  ((s.qEmpty q).modQ q fun x => { x with pend := {}, heldFree := 0 }).setBit (F.Q.Q_STS.FLUSHING q) false

/-- A joining hub sets a context to IDLE; whether it is IDLE on the active no record tells (R397, R398; log entry 3). -/
def State.joinCtx (s : State) (x : Nat) : State :=
  let (idle, s) := s.drawTruth
  (s.modCtx x fun c => { c with members := [], waiting := [], acc := none, trigIdx := none, conv := idle }).cxEnter x cxIdle

/-- A hub in JOINING finds the link up and the partner ACTIVE: it begins to execute mirrored codes (R397). -/
def State.joinBegin (s : State) : State :=
  let s := (s.each (List.range 64) State.joinQueue).each (List.range 256) State.joinCtx
  let s := s.each (List.range 512) fun s c => s.modChan c clearChan
  let s := s.modTrig fun t => { t with order := [], rd0 := none, rd1 := none, history := [] }
  s.modPair fun p =>
    { p with executing := true, staging := [], words := [], own := [], mirr := [], lastPass := [], lastC := none, streamIdx := none,
             convAt := none, older := [], cfgOk := false, cfgBad := 0, lateFrom := false, yieldSeen := false, yieldRec := false,
             forceTake := false }

/-- The link is up and the partner ACTIVE. -/
def State.joinCheck (s : State) : State :=
  if s.role = roleJoining ∧ s.bit F.PAIR.PAIR_STS.LINK_UP ∧ s.fld F.PAIR.PAIR_STS.PARTNER_ROLE = roleActive
      ∧ s.pair.executing = false then s.joinBegin
  else s

/-- With PAIR_PRESENT_N asserted and the link down a JOINING hub waits and raises LINK_DOWN (R381). -/
def State.joinWait (s : State) : State :=
  s.when (decide (s.role = roleJoining) && s.pins.present && !s.bit F.PAIR.PAIR_STS.LINK_UP) fun s => s.raiseInt Irq.pairLinkDown

/-- The hub enters JOINING. -/
def State.enterJoining (s : State) : State :=
  let s := (s.setRole roleJoining).modPair fun p =>
    { p with yst := .none, executing := false, exdWait := false, staging := [], words := [], fates := [], gone := [], unacked := [],
             own := [], mirr := [], lastC := none, convAt := none, older := [], partnerStrap := none }
  ((s.setBit F.PAIR.PAIR_STS.YIELD_DRV false).joinCheck).joinWait

/-! ## The start rule (R381) -/

/-- START_WAIT in cycles; 0 acts as 1 (R411). -/
def State.startWait (s : State) : Nat := max 1 (s.fld F.PAIR.PAIR_CTL.START_WAIT) * 5000000

/-- The link has not come up START_WAIT after the entry to JOINING, and no partner is present. -/
def State.startAlone (s : State) : State :=
  if s.role = roleJoining ∧ s.bit F.PAIR.PAIR_STS.LINK_UP = false ∧ s.pins.present = false
      ∧ s.pair.roleAt + s.startWait ≤ s.time.cycles then s.leadAs roleActive
  else s

/-- START_WAIT has passed. -/
def State.startExpire (s : State) : State :=
  if s.role = roleJoining ∧ s.bit F.PAIR.PAIR_STS.LINK_UP = false then
    (s.reachCycles (s.pair.roleAt + s.startWait)).startAlone.joinWait
  else s

/-- START_WAIT_EXPIRE (R381). -/
def execStartWaitExpire (s : State) : Host.Outcome State Fault Refusal := act State.startExpire s

/-- PAIR_PRESENT_N changes; a hub whose START_WAIT has passed may start now. -/
def State.presentPin (s : State) (present : Bool) : State :=
  ((s.modPins fun p => { p with present := present }).startAlone).joinWait

/-- PAIR_PRESENT_CHANGE (R381). -/
def execPairPresentChange (present : Bool) (s : State) : Host.Outcome State Fault Refusal :=
  actPin (fun p => { p with present := present }) (·.presentPin present) s

/-- Both hubs join, the straps differ, and this one's strap is 0 (R381). -/
def State.startPair (s : State) (partner : Nat) (strap : Bool) : State :=
  if s.role = roleJoining ∧ s.bit F.PAIR.PAIR_STS.LINK_UP ∧ partner = roleJoining ∧ s.bit F.PAIR.PAIR_STS.STRAP = false
      ∧ strap = true then s.leadAs roleActive
  else s

/-- FORCE_ACTIVE while the link is down (R381). -/
def State.forceActive (s : State) : State :=
  if s.role = roleJoining ∧ s.bit F.PAIR.PAIR_STS.LINK_UP = false then s.leadAs roleActive else s

/-- FORCE_ACTIVE (R381). -/
def execForceActive (s : State) : Host.Outcome State Fault Refusal := actW State.forceActive s

/-! ## PAIR_EN and REJOIN (R380) -/

/-- A write of PAIR_EN. -/
def State.writePairEn (s : State) (en : Bool) : State :=
  let r := s.role
  let busy := decide (s.fld F.PAIR.PAIR_STS.PARTNER_ROLE = roleStandby) || decide (s.fld F.PAIR.PAIR_STS.PARTNER_ROLE = roleJoining)
  let set := s.setBit F.PAIR.PAIR_CTL.PAIR_EN en
  if r = roleStandby then s
  else if r = roleSolo then (if en then set.leadAs roleActive else set)
  else if en then set
  else if r = roleActive ∧ busy then s
  else set.leadAs roleSolo

/-- PAIR_EN_WRITE (R380). -/
def execPairEnWrite (en : Bool) (s : State) : Host.Outcome State Fault Refusal := actW (·.writePairEn en) s

/-- A YIELDED or FAILED hub rejoins, with no FATAL fault present and the link up. -/
def State.rejoin (s : State) : State :=
  if (s.role = roleYielded ∨ s.role = roleFailed) ∧ s.anyFatal = false ∧ s.bit F.PAIR.PAIR_STS.LINK_UP then s.enterJoining else s

/-- REJOIN (R380). -/
def execRejoin (s : State) : Host.Outcome State Fault Refusal := actW State.rejoin s

/-- 1 s after the entry to YIELDED or FAILED, with REJOIN_AUTO set. -/
def State.rejoinAuto (s : State) : State :=
  if (s.role = roleYielded ∨ s.role = roleFailed) ∧ s.bit F.PAIR.PAIR_CTL.REJOIN_AUTO then
    (s.reachCycles (s.pair.roleAt + 500000000)).rejoin
  else s

/-- REJOIN_AUTO_EXPIRE (R380). -/
def execRejoinAutoExpire (s : State) : Host.Outcome State Fault Refusal := act State.rejoinAuto s

/-! ## The link (R382) -/

/-- The link is down. -/
def State.linkDown (s : State) : State :=
  if s.bit F.PAIR.PAIR_STS.LINK_UP then
    (((s.setBit F.PAIR.PAIR_STS.LINK_UP false).setBit F.PAIR.PAIR_STS.LANE_DEGRADED false).modPair fun p =>
      { p with tries := 0, partnerStrap := none }).joinWait
  else s

/-- PAIR_LINK_DOWN (R382). -/
def execPairLinkDown (s : State) : Host.Outcome State Fault Refusal := act State.linkDown s

/-- The link comes up, on both lanes. -/
def State.linkRise (s : State) : State :=
  ((s.setBit F.PAIR.PAIR_STS.LINK_UP true).setBit F.PAIR.PAIR_STS.LANE_DEGRADED false).modPair fun p =>
    { p with lane0 := true, lane1 := true, tries := 0 }

/-- PAIR_LINK_UP (R382). What the partner is, its HEALTH record tells. -/
def execPairLinkUp (s : State) : Host.Outcome State Fault Refusal := act State.linkRise s

/-- A lane loses block lock: it is dropped, and the link runs on the other one. -/
def State.laneDrop (s : State) (lane : Bool) : State :=
  let s := s.modPair fun p => if lane then { p with lane1 := false } else { p with lane0 := false }
  s.when (s.bit F.PAIR.PAIR_STS.LINK_UP && (s.pair.lane0 || s.pair.lane1)) fun s => s.setBit F.PAIR.PAIR_STS.LANE_DEGRADED true

/-- LANE_LOSS (R382). -/
def execLaneLoss (lane : Bool) (s : State) : Host.Outcome State Fault Refusal := act (·.laneDrop lane) s

/-- The record of sequence number `rec` fails its check: it is sent again; its fourth failed try counts as a retry too, and restarts the
link (R382, R420). -/
def State.linkRetry (s : State) (rec : Nat) : State :=
  if s.bit F.PAIR.PAIR_STS.LINK_UP = false then s
  else
    let s := s.modPair fun p => { p with tryRec := rec, tries := (if p.tryRec = rec then p.tries else 0) + 1 }
    let s := (s.count F.PAIR.LINK_RETRY_CNT.CNT).raiseFault Flt.linkRetry
    if 4 ≤ s.pair.tries then (s.raiseFault Flt.linkLoss).linkDown else s

/-- PAIR_LINK_RETRY (R382). -/
def execPairLinkRetry (s : State) (rec : Nat := 0) : Host.Outcome State Fault Refusal := act (·.linkRetry rec) s

/-! ## Intervals of the active (R388, R390, R391) -/

/-- The digest of the words of an interval, newest first with their queues: queues in increasing number (R388). -/
def intervalDigest (words : List (Nat × Word)) : Reg :=
  let l := words.reverse
  crc32c ((List.range 64).flatMap fun q => (l.filter fun e => decide (e.1 = q)).flatMap fun e => bytes40 e.2)

/-- What the TICK record says of queue `q`. -/
def State.tickQueue (s : State) (q : Fin 64) : TickQueue where
  q := q
  fates := (s.pair.fates.filter fun e => decide (e.1 = q.val)).map Prod.snd
  gone := (s.pair.gone.filter fun e => decide (e = q.val)).length
  lastSeq := s.lastSent.getD q.val 0

/-- Packets and freed words of queue `q` that belong to intervals not yet acknowledged. -/
def State.unackedOf (s : State) (q : Nat) : Nat × Nat :=
  let l := (s.pair.unacked.flatMap Unacked.queues).filter fun e => decide (e.1 = q)
  ((l.map fun e => e.2.1).sum, (l.map fun e => e.2.2).sum)

/-- The packets that the interval being closed has written to queue `q`, and the words it has freed there. Those of a packet read in part
wait until its record reports it as gone (R389, R390). -/
def State.intervalQueue (s : State) (q : Nat) : Nat × Nat × Nat :=
  let x := s.getQ q
  let u := s.unackedOf q
  (q, x.held - u.1, x.heldFree - u.2 - x.read)

/-- Every pass of the ticks up to Y has ended (R402). -/
def State.passesDone (s : State) (y : Nat) : Bool :=
  decide (y ≤ s.lastIdx) && (List.range 34).all fun n =>
    ((s.getSlice n).pass.toList ++ (s.getSlice n).later).all fun p => decide (y < p.tick.idx)

/-- The interval being closed is the last one of a yield (R402). -/
def State.finalNow (s : State) : Bool :=
  match s.pair.yst with
  | .deciding y _ => s.passesDone y
  | _ => false

/-- The final record has been sent. -/
def finalSentOf : YieldSt → YieldSt
  | .deciding y cause => .finalSent y cause
  | y => y

/-- An ACTIVE hub closes an interval and sends its TICK record (R388). Without a partner in step it only forgets what it has kept. -/
def State.intervalClose (s : State) : State :=
  if s.role ≠ roleActive then s
  else if s.mirrored = false then s.modPair fun p => { p with words := [], fates := [], gone := [] }
  else
    let fin := s.finalNow
    let r : TickRec := ⟨s.pair.interval, intervalDigest s.pair.words, fin, (List.finRange 64).map s.tickQueue, s.lastHsr⟩
    let u : Unacked := ⟨s.pair.interval, (List.range 64).map s.intervalQueue, s.grid.last, fin⟩
    let s := (s.linkSend (.tick r)).modPair fun p =>
      { p with interval := p.interval + 1, words := [], fates := [], gone := [], unacked := p.unacked ++ [u] }
    s.when fin fun s => s.modPair fun p => { p with yst := finalSentOf p.yst, yieldAt := s.time.cycles }

/-- INTERVAL_CLOSE (R388). -/
def execIntervalClose (s : State) : Host.Outcome State Fault Refusal := act State.intervalClose s

/-- The packets of an interval are published and its space is released (R390). -/
def State.ackPublish (s : State) (u : Unacked) : State :=
  (s.modPair fun p => { p with lastC := u.tick.or p.lastC }).each u.queues fun s e =>
    (s.modQ e.1 fun x => { x with heldFree := x.heldFree - e.2.2 }).qPublish e.1 e.2.1

/-- The final record of a yield is acknowledged: ARB_TX makes no further grant (R402). -/
def closingOf : YieldSt → YieldSt
  | .finalSent y cause => .closing y cause
  | y => y

/-- An ACK arrives for interval `i`; the records before it have been acknowledged too (R383, R390, R391). -/
def State.ackTake (s : State) (i : Nat) (agree : Bool) : State :=
  if s.role ≠ roleActive ∨ (s.pair.unacked.any fun u => decide (u.interval = i)) = false then s
  else
    let done := s.pair.unacked.filter fun u => decide (u.interval ≤ i)
    let s := (s.modPair fun p => { p with unacked := p.unacked.filter fun u => decide (i < u.interval) }).each done State.ackPublish
    let s := s.when (!agree) fun s => (s.count F.PAIR.DIGEST_FAIL_CNT.CNT).raiseInt Irq.partnerLost
    if agree ∧ (done.any Unacked.final) = true then (s.modPair fun p => { p with yst := closingOf p.yst }).yieldClose else s

/-- An ACK arrives in time or late. -/
def State.ackRx (s : State) (i : Nat) (agree : Bool) : State := s.ifTimely (·.ackTake i agree)

/-- ACK_RX (R390). -/
def execAckRx (interval : Nat) (agree : Bool) (s : State) : Host.Outcome State Fault Refusal := act (·.ackRx interval agree) s

/-- Everything that waits for an ACK is published and released (R405). -/
def State.publishAll (s : State) : State :=
  (s.modPair fun p => { p with unacked := [], words := [], fates := [], gone := [] }).each (List.range 64) fun s q =>
    (s.modQ q fun x => { x with heldFree := 0 }).qPublish q (s.getQ q).held

/-- No ACK for PAIR_TIMEOUT + 2 ticks: without a fence the hub raises PARTNER_LOST and publishes what it held (R405). -/
def State.ackLate (s : State) : State :=
  if s.role = roleActive ∧ s.mirrored ∧ s.pair.unacked ≠ [] ∧ s.pairTimeout + 2 ≤ s.mirrorLag ∧ s.fenced = false then
    ((s.setFld F.PAIR.PAIR_STS.PARTNER_ROLE 7).raiseInt Irq.partnerLost).publishAll
  else s

/-- ACK_TIMEOUT (R405). -/
def execAckTimeout (s : State) : Host.Outcome State Fault Refusal := act State.ackLate s

/-! ## Decisions on a standby (R387, R481) -/

/-- A context of a joining hub has converged, or may have (R398). -/
def State.ctxConv (s : State) (x : Nat) (conv : Bool) : State :=
  s.when (decide (s.role = roleJoining) && conv) fun s => s.modCtx x fun c => { c with conv := true }

/-- The decision may have left the context IDLE on the active, which no record tells (R398; log entry 3). -/
def State.ctxMaybe (s : State) (x : Nat) : State :=
  if s.role = roleJoining ∧ (s.getCtx x).conv = false then
    let (idle, s) := s.drawTruth
    s.ctxConv x idle
  else s

/-- The active goes to sleep after tick `idx`: the standby issues that tick, if it has not, and no later one (R481). -/
def State.sleepDecision (s : State) (idx : Nat) : State :=
  if s.pwr ≠ pwAwake then s
  else (s.when (decide (s.lastIdx < idx) && decide (s.gridSt = gridRun)) fun s => s.gridInstant 0).sleepBegin

/-- The active wakes at the instant given. Which source woke it no record tells (log entry 3). -/
def State.wakeDecision (s : State) (at_ : HubTime) : State :=
  if s.pwr ≠ pwAsleep ∧ s.pwr ≠ pwEntering then s
  else
    let (x, s) := s.drawFree
    s.wakeAs (1 + (x % 4).toNat) (htNs at_)

/-- A decision of the active is applied. -/
def State.applyDecision (s : State) : Decision → State
  | .trigger x recNo t idx src srcId late =>
    if s.cxSt x.val = cxFill ∨ s.cxSt x.val = cxArmed then s.cxMirror x.val recNo (stampUnits t) idx src srcId late else s
  | .arm x refused => (s.cxMirrorArm x.val refused).ctxConv x.val true
  | .rearm x => (s.cxMirrorArm x.val 0).ctxConv x.val true
  | .abort x => (s.cxAbort x.val).ctxMaybe x.val
  | .release x => (s.cxReleaseCmd x).ctxMaybe x.val
  | .flush q => s.flushAsk q.val
  | .dumpNow g mask => s.dumpAsk g.val mask
  | .qreset g mask => s.qresetOn g.val mask
  | .timeCmd v => s.timeCmd v.toNat
  | .sleep idx => s.sleepDecision idx
  | .wake at_ => s.wakeDecision at_

/-- A DECISION record arrives. -/
def State.decisionRx (s : State) (d : Decision) : State :=
  s.ifTimely fun s => if s.follows && s.pair.executing then s.applyDecision d else s

/-- DECISION_RECORD_RX (R387). -/
def execDecisionRecordRx (d : Decision) (s : State) : Host.Outcome State Fault Refusal := act (·.decisionRx d) s

/-- CODES_RECORD_RX (R386). -/
def execCodesRecordRx (g : Fin 32) (tickIdx n : Nat) (codes : List Reg) (s : State) : Host.Outcome State Fault Refusal :=
  act (·.codesRx g.val tickIdx n codes) s

/-! ## TICK records on a standby (R389, R391, R398) -/

/-- The passes of group `g` after that of tick `n` which convert no enabled channel, and so have no codes to arrive, up to the last tick
issued: the tick up to which the group is complete, and its index. `fuel` bounds how many. -/
def State.silentTo (s : State) (g : Nat) : Nat → Nat × Nat → Nat × Nat
  | 0, e => e
  | fuel + 1, (n, i) =>
    let issued := match s.grid.last with
      | some t => decide (n < t.n)
      | none => false
    if issued && (s.codeTargets g (n + 1)).isEmpty then s.silentTo g fuel (n + 1, idxOf s.tickPeriod (n + 1)) else (n, i)

/-- The last complete mirrored tick when a TICK record arrives: the last one whose passes have all arrived (R403). -/
def State.completeTick (s : State) : Option Tick :=
  let groups := (List.range 32).filter fun g => !s.groupSilent g
  let last := groups.map fun g => (s.pair.lastPass.find? fun e => decide (e.1 = g)).map fun e => s.silentTo g 512 e.2
  if groups.isEmpty then s.grid.last
  else if last.any Option.isNone then s.pair.lastC
  else
    match last.filterMap id with
    | [] => s.pair.lastC
    | e :: l =>
      let (n, i) := l.foldl (fun a b => if b.2 < a.2 then b else a) e
      some { idx := i, n := n, at_ := s.gridTu n }

/-- A packet that the active reports as sent or read goes from the head of the queue; on a hub that has joined since, the packets of
earlier intervals go first (R389, R398). -/
def State.dropGone (s : State) (q : Nat) : State :=
  let old := sget 0 s.pair.older q
  if 0 < old then s.modPair fun p => { p with older := sset 0 p.older q (old - 1) }
  else
    match (s.getQ q).pkts with
    | [] => s
    | p :: _ => (s.qAdvance q (p.len - (s.getQ q).read)).qPop q

/-- The reports of a TICK record: packets gone, last SEQ of each stream and H (R383). -/
def State.takeReports (s : State) (r : TickRec) : State :=
  let s := s.each r.queues fun s t => s.each (List.range t.gone) fun s _ => s.dropGone t.q.val
  s.modPair fun p => { p with lastSeqs := r.queues.map TickQueue.lastSeq, lastH := r.hsr }

/-- The interval is committed: its items are written under the active's decisions, and the digests compared (R389, R391). -/
def State.commitInterval (s : State) (r : TickRec) : State :=
  let s := s.each r.queues fun s t => s.each t.fates fun s f => s.applyFate t.q.val f
  let ok := decide (intervalDigest s.pair.words = r.digest)
  let s := (s.modPair fun p => { p with words := [] }).linkSend (.ack r.interval ok)
  if ok then s.takeReports r
  else ((s.raiseFault Flt.digestMismatch).raiseInt Irq.digestFail).setRole roleFailed

/-- AVG_ALIGN and S_ALIGN are set on every enabled channel (R397). -/
def State.alignOk (s : State) : Bool :=
  (List.range 512).all fun c => !s.chEnabled c || (s.bit (F.CH.AVG_CFG.AVG_ALIGN c) && s.bit (F.CH.STATS_CFG.S_ALIGN c))

/-- Enabled channels, and contexts, that have not converged (R398, R411). -/
def State.joinChans (s : State) : Nat := ((List.range 512).filter fun c => s.chEnabled c && !s.chanConv c).length
def State.joinCtxs (s : State) : Nat := ((List.range 256).filter fun x => !(s.getCtx x).conv).length

/-- The queues have converged (R398). -/
def State.queuesConv (s : State) : Bool := s.pair.convAt.isSome && s.pair.older.isEmpty

/-- Every part of a joining hub has converged and the digests agree: READY and STANDBY (R398). -/
def State.joinDone (s : State) : State :=
  if s.role = roleJoining ∧ s.queuesConv ∧ s.joinChans = 0 ∧ s.joinCtxs = 0 ∧ s.pair.cfgOk ∧ s.alignOk then
    ((s.setRole roleStandby).setBit F.PAIR.PAIR_STS.READY true).raiseInt Irq.ready
  else s

/-- The packets of earlier intervals that the active still holds: how many, no record tells (R398; log entry 3). -/
def State.drawOlder (s : State) (q : Nat) : State :=
  let (x, s) := s.drawFree
  if s.qEn q then s.modPair fun p => { p with older := sset 0 p.older q x.natAbs } else s

/-- A TICK record on a hub whose producers have not all converged: what belongs to the interval is discarded. Once they have, the next
intervals are committed (R398). -/
def State.joinInterval (s : State) (r : TickRec) : State :=
  let c := match s.pair.lastC with
    | some t => t.idx
    | none => 0
  let s := s.modPair fun p => { p with staging := p.staging.filter fun e => decide (c < e.2.2), words := [] }
  let s := (s.linkSend (.ack r.interval true)).modPair fun p =>
    { p with lastSeqs := r.queues.map TickQueue.lastSeq, lastH := r.hsr }
  if s.joinChans = 0 ∧ s.joinCtxs = 0 then
    (s.modPair fun p => { p with convAt := some (r.interval + 1), older := [] }).each (List.range 64) State.drawOlder
  else s

/-- A TICK record arrives (R389, R398, R404). -/
def State.tickRx (s : State) (r : TickRec) : State :=
  s.ifTimely fun s =>
    if s.follows = false ∨ s.pair.executing = false then s
    else
      let c := s.completeTick
      let s := s.modPair fun p => { p with lastC := c }
      if s.role = roleJoining ∧ s.pair.convAt.isNone then s.joinInterval r else (s.commitInterval r).joinDone

/-- TICK_RECORD_RX (R389). -/
def execTickRecordRx (r : TickRec) (s : State) : Host.Outcome State Fault Refusal := act (·.tickRx r) s

/-! ## TIME, STEP, FACTORS, MGMT (R385, R392, R358) -/

/-- A TIME record: the link delay, and on a following hub an offset for the servo (R66, R392). -/
def State.timeRx (s : State) (offset : Int) (delay : Reg) : State :=
  s.ifTimely fun s =>
    let s := (s.setFld F.PAIR.LINK_DELAY.DELAY delay.toNat).modPair fun p => { p with heard := some s.now }
    if s.follows then s.servoOffset offset else s

/-- TIME_RECORD_RX (R392). -/
def execTimeRecordRx (offset : Int) (delay : Reg) (s : State) : Host.Outcome State Fault Refusal := act (·.timeRx offset delay) s

/-- A STEP record: the step is scheduled for the same second boundary (R392). -/
def State.stepRx (s : State) (boundary : Nat) (e : Int) : State :=
  s.ifTimely fun s =>
    if s.follows then (s.setBit F.TIME.TIME_STATE.STEP_SCHED true).modServo fun v => { v with sched := some (boundary, evenNs e) }
    else s

/-- STEP_RECORD_RX (R392). -/
def execStepRecordRx (boundary : Nat) (e : Int) (s : State) : Host.Outcome State Fault Refusal := act (·.stepRx boundary e) s

/-- A FACTORS record: the active's decade factors of a channel (R385). -/
def State.factorsRx (s : State) (c : Nat) (l : List Nat) : State :=
  s.ifTimely fun s => if s.follows then s.modChan c fun x => { x with factors := l } else s

/-- FACTORS_RECORD_RX (R385). -/
def execFactorsRecordRx (c : Fin 512) (f0 f1 f2 f3 : BitVec 24) (s : State) : Host.Outcome State Fault Refusal :=
  act (·.factorsRx c.val [f0.toNat, f1.toNat, f2.toNat, f3.toNat]) s

/-- A MGMT record: the standby's response waits at MGMT of the active (R358). -/
def State.mgmtRx (s : State) (f : Frame) (slot : Bool) : State :=
  s.ifTimely fun s =>
    if s.role = roleActive then (s.modNet fun n => { n with mgmtTx := n.mgmtTx ++ [(f, some slot)] }).txAsk 64 else s

/-- MGMT_RECORD_RX (R358). -/
def execMgmtRecordRx (f : Frame) (slot : Bool) (s : State) : Host.Outcome State Fault Refusal := act (·.mgmtRx f slot) s

/-! ## HEALTH (R383, R405, R427) -/

/-- The fields of PARTNER_HEALTH and PARTNER_ROLE (R411). -/
def State.healthRegs (s : State) (h : HealthRec) : State :=
  let s := (s.setFld F.PAIR.PAIR_STS.PARTNER_ROLE h.role).setFld F.PAIR.PARTNER_HEALTH.CAL_STATE h.calState
  let s := (s.setBit F.PAIR.PARTNER_HEALTH.PFW h.pfw).setBit F.PAIR.PARTNER_HEALTH.CONT h.cont
  (s.setBit F.PAIR.PARTNER_HEALTH.FATAL h.fatal).modPair fun p => { p with healthAt := some s.time.cycles }

/-- The active shows its partner's list of channels out of tolerance (R399). -/
def State.healthList (s : State) (l : List (Fin 512)) : State :=
  s.each (List.range 16) fun s k =>
    s.setFld ⟨0x00D0C0 + 4 * k, 0, 32⟩ (((l.map Fin.val).filter fun c => decide (c / 32 = k)).eraseDups.map fun c => 2 ^ (c % 32)).sum

/-- The active writes its partner's due in-band interrupts into its own IRQ_Q (R427). -/
def State.healthDue (s : State) (h : HealthRec) : State :=
  if s.bit F.RIM.RIM_CTL.IRQ_QEN then
    s.each h.due fun s d => (s.writeIrqPacket (irqWords h.ownId d.page d.intSts d.fltSts d.fltFirst d.ns32)).2
  else s

/-- The local frame that the node holds is from STREAM_MAC: a fence discards it (R347). -/
def State.fenceDrop (s : State) : State :=
  match s.net.local_ with
  | some (f, _, _) =>
    if f.src = s.streamMac then (s.modNet fun n => { n with local_ := none }).count F.HSR.FENCE_DROP_CNT.CNT else s
  | none => s

/-- The hub sees TAKE_N asserted, by its partner's drive alone: it is fenced, and an ACTIVE one parks its stages and becomes YIELDED after a
yield, FAILED otherwise (R376, R380, R402, R405). The takeover by yield that has happened gives LAST_CAUSE (R411). -/
def State.takeSeen (s : State) : State :=
  let s := s.fenceDrop
  if s.role = roleActive then
    let gave := s.bit F.PAIR.PAIR_STS.YIELD_DRV
    let s := match s.pair.yst with
      | .yielded _ cause => s.setFld F.PAIR.PAIR_STS.LAST_CAUSE cause
      | _ => s
    let s := (s.setBit F.PAIR.PAIR_STS.YIELD_DRV false).setRole (if gave then roleYielded else roleFailed)
    s.modPair fun p => { p with yst := .none }
  else s

/-- The hub ends its drive of TAKE_N; a partner that pulls the line low still asserts it from then on (R376, R405). -/
def State.takeEnd (s : State) : State :=
  if s.bit F.PAIR.PAIR_STS.TAKE_DRV then
    let s := s.setBit F.PAIR.PAIR_STS.TAKE_DRV false
    if s.pins.takeIn then s.takeSeen else s
  else s

/-- The partner of an ACTIVE hub begins or ceases to execute in step; a partner that enters JOINING gets the factors of every channel
and ends TAKE_N (R383, R390, R405). -/
def State.partnerTurn (s : State) (was : Bool) (old new : Nat) : State :=
  let s := s.when (was && !s.mirrored) State.publishAll
  let s := s.when (!was && s.mirrored) fun s => s.modPair fun p => { p with words := [], fates := [], gone := [], lastC := s.grid.last }
  let s := s.when (decide (new = roleJoining)) State.takeEnd
  s.when (decide (new = roleJoining) && decide (old ≠ roleJoining)) State.allFactors

/-- A HEALTH record acts. The first one with an equal strap raises STRAP_CONFLICT on a hub that is part of a pair (R381). -/
def State.healthTake (s : State) (h : HealthRec) : State :=
  let was := s.mirrored
  let old := s.fld F.PAIR.PAIR_STS.PARTNER_ROLE
  let paired := decide (s.role ≠ roleSolo)
  let clash := paired && s.bit F.PAIR.PAIR_STS.LINK_UP && (s.bit F.PAIR.PAIR_STS.STRAP == h.strap)
    && decide (s.pair.partnerStrap ≠ some h.strap)
  let s := (s.healthRegs h).modPair fun p => { p with partnerStrap := if paired then some h.strap else none }
  let s := s.when clash fun s => s.raiseInt Irq.strapConflict
  let s := s.partnerTurn was old h.role
  let s := s.when (decide (s.role = roleActive)) fun s => (s.healthList h.hcFail).healthDue h
  let s := s.when (decide (s.role = roleJoining) && decide (h.role ≠ roleActive)) fun s => s.modPair fun p => { p with executing := false }
  (s.startPair h.role h.strap).joinCheck

/-- A HEALTH record arrives. After a timeout, those that still call their sender ACTIVE are late; the first with another role comes from a
hub that knows it has been replaced, and ends that (R404, R405; log entry 87). -/
def State.healthRx (s : State) (h : HealthRec) : State :=
  if s.late ∧ h.role = roleActive then s.count F.PAIR.PAIR_LATE.CNT
  else (s.modPair fun p => { p with lateFrom := false }).healthTake h

/-- HEALTH_RECORD_RX (R383). -/
def execHealthRecordRx (h : HealthRec) (s : State) : Host.Outcome State Fault Refusal := act (·.healthRx h) s

/-! ## Configuration digests and pair commits (R394 to R396) -/

/-- A following hub compares the active's digest of the last second boundary with its own (R394, R395). -/
def State.digestRx (s : State) (d : Reg) : State :=
  let s := s.setFld F.PAIR.CFG_DIGEST_PARTNER.CRC d.toNat
  match s.pair.ownDigest with
  | none => s
  | some o =>
    if o = d then (s.modPair fun p => { p with cfgBad := 0, cfgOk := true }).joinDone
    else
      let s := s.modPair fun p => { p with cfgBad := p.cfgBad + 1, cfgOk := false }
      if s.role = roleJoining then s.raiseInt Irq.cfgMismatch
      else if 2 ≤ s.pair.cfgBad then (s.raiseInt Irq.cfgMismatch).setRole roleFailed
      else s

/-- The instant of a tick index lies at least `ns` nanoseconds ahead. -/
def State.aheadBy (s : State) (idx ns : Nat) : Bool := decide ((s.nowNs + ns) * 64 ≤ s.idxTu idx)

/-- The active asks for a pair commit: the standby answers with its own STG_DIGEST, and schedules it if the digests are equal and the
tick lies at least 1 ms ahead (R396). -/
def State.pairAsk (s : State) (idx : Nat) (d : Reg) : State :=
  let own := s.stgDigest
  if own = d ∧ s.aheadBy idx 1000000 then
    ((s.setBit F.PAIR.COMMIT_STS.SCHED true).modPair fun p => { p with commitIdx := idx }).linkSend
      (.config (s.pair.ownDigest.getD 0) (some (idx, own)) false)
  else if own = d then s
  else s.linkSend (.config (s.pair.ownDigest.getD 0) (some (idx, own)) false)

/-- The active refuses a pair commit, and sends a cancel (R396). -/
def State.pairRefuse (s : State) (reason : Nat) : State :=
  let s := (s.setFld F.PAIR.COMMIT_STS.REASON reason).setBit F.PAIR.COMMIT_STS.REFUSED true
  let s := (s.setBit F.PAIR.COMMIT_STS.SCHED false).modPair fun p => { p with commitWait := false }
  (s.linkSend (.config (s.pair.ownDigest.getD 0) none true)).raiseInt Irq.pairCommitRefused

/-- The standby's answer to a pair commit in hand (R396). -/
def State.pairAnswer (s : State) (idx : Nat) (d : Reg) : State :=
  if s.pair.commitWait = false ∨ s.pair.commitIdx ≠ idx then s
  else if d = s.stgDigest then
    ((s.setBit F.PAIR.COMMIT_STS.ACKED true).setBit F.PAIR.COMMIT_STS.SCHED true).modPair fun p => { p with commitWait := false }
  else s.pairRefuse 3

/-- A CONFIG record arrives (R394 to R396). -/
def State.configTake (s : State) (d : Reg) (commit : Option (Nat × Reg)) (cancel : Bool) : State :=
  if s.follows then
    if s.pair.executing = false then s
    else if cancel then s.setBit F.PAIR.COMMIT_STS.SCHED false
    else
      match commit with
      | some (i, x) => if s.role = roleStandby then s.pairAsk i x else s
      | none => s.digestRx d
  else
    match commit with
    | some (i, x) => if s.role = roleActive ∧ s.pair.commitWait then s.pairAnswer i x else s
    | none => s

/-- A CONFIG record arrives, in time or late. -/
def State.configRx (s : State) (d : Reg) (commit : Option (Nat × Reg)) (cancel : Bool) : State :=
  s.ifTimely (·.configTake d commit cancel)

/-- CONFIG_RECORD_RX (R394). -/
def execConfigRecordRx (digest : Reg) (commit : Option (Nat × Reg)) (cancel : Bool) (s : State) :
    Host.Outcome State Fault Refusal := act (·.configRx digest commit cancel) s

/-- COMMIT_TICK. -/
def State.commitTick (s : State) : Nat := s.fld64 F.PAIR.COMMIT_TICK_LO.IDX_LO F.PAIR.COMMIT_TICK_HI.IDX_HI

/-- PAIR_CMD.COMMIT on the active (R396). -/
def State.pairCommit (s : State) : State :=
  if s.role ≠ roleActive then s
  else
    let i := s.commitTick
    let s := ((s.setBit F.PAIR.COMMIT_STS.ACKED false).setBit F.PAIR.COMMIT_STS.SCHED false).modPair fun p =>
      { p with commitIdx := i, commitWait := true }
    if s.fld F.PAIR.PAIR_STS.PARTNER_ROLE ≠ roleStandby then s.pairRefuse 1
    else if s.aheadBy i 1000000 = false then s.pairRefuse 2
    else s.linkSend (.config (s.pair.ownDigest.getD 0) (some (i, s.stgDigest)) false)

/-- PAIR_COMMIT (R396). -/
def execPairCommit (s : State) : Host.Outcome State Fault Refusal := actW State.pairCommit s

/-- No acknowledgement has come 100 µs before the instant of COMMIT_TICK (R396). -/
def State.pairNoAck (s : State) : State :=
  if s.role = roleActive ∧ s.pair.commitWait then
    (s.reachTu (s.idxTu s.pair.commitIdx - 6400000)).pairRefuse 4
  else s

/-- PAIR_COMMIT_ACK_TIMEOUT (R396). -/
def execPairCommitAckTimeout (s : State) : Host.Outcome State Fault Refusal := act State.pairNoAck s

/-- PAIR_COMMIT_APPLY: the coming tick of a running grid is COMMIT_TICK (R396; log entry 9). -/
def execPairCommitApply (s : State) : Host.Outcome State Fault Refusal :=
  act (fun s => if s.gridSt = gridRun ∧ s.pair.commitIdx ≤ idxOf s.tickPeriod s.grid.cur then s.pairCommitApply else s) s

/-! ## Health windows (R411) -/

/-- Every window of the health check starts again; the results of the last windows stay. -/
def State.hcRestart (s : State) : State :=
  s.modPair fun p => { p with hc :=
    (p.hc.map fun e => (e.1, ({ mean := e.2.mean, rms := e.2.rms } : Hc))).filter fun e => decide (e.2 ≠ {}) }

/-- HC_RESTART (R411). -/
def execHcRestart (s : State) : Host.Outcome State Fault Refusal := actW State.hcRestart s

/-! ## Yield and takeover (R401 to R406) -/

/-- YIELD (R401). -/
def execYield (s : State) : Host.Outcome State Fault Refusal := actW (·.startYield causeYieldCmd) s

/-- The cause of the active's yield, as its last HEALTH record lets it be seen (R401, R411). -/
def State.yieldCause (s : State) : Nat :=
  if s.bit F.PAIR.PARTNER_HEALTH.FATAL then causeYieldFatal
  else if s.bit F.PAIR.PARTNER_HEALTH.PFW then causeYieldPfw else causeYieldCmd

/-- YIELD_N and the YIELD record have both come: the standby becomes ACTIVE at tick Y + 1 (R402). -/
def State.yieldCheck (s : State) : State :=
  if s.role = roleStandby ∧ s.pair.yieldSeen ∧ s.pair.yieldRec then s.takeover false s.yieldCause else s

/-- The partner pulls YIELD_N low, or releases it. Asserted, it is seen by a standby (R376, R404). -/
def State.yieldPin (s : State) (low : Bool) : State :=
  let was := s.yieldAsserted
  let s := s.modPins fun p => { p with yieldIn := low }
  if s.role = roleStandby ∧ s.yieldAsserted = true ∧ was = false then
    (s.modPair fun p => { p with yieldSeen := true, yieldAt := s.time.cycles }).yieldCheck
  else s

/-- YIELD_N_ASSERT (R404; log entry 88). -/
def execYieldNAssert (s : State) (low : Bool := true) : Host.Outcome State Fault Refusal :=
  actPin (fun p => { p with yieldIn := low }) (·.yieldPin low) s

/-- Packets that the former active has sent since its last report go from the heads of the queues that ARB_TX drains, as many as the final
SEQ of each stream tells, so that no frame is duplicated (R402). -/
def State.dropSent (s : State) (seqs : List Nat) : State :=
  s.each seqs.zipIdx fun s e =>
    let n := (e.1 + 2 ^ 32 - s.pair.lastSeqs.getD e.2 e.1) % 2 ^ 32
    if s.qHost e.2 then s else s.each (List.range (min n (s.getQ e.2).pkts.length)) fun s _ => s.dropGone e.2

/-- The YIELD record arrives: final SEQ of each stream and H (R402, R404). -/
def State.yieldRx (s : State) (seqs : List Nat) (hsr : Nat) : State :=
  s.ifTimely fun s =>
    if s.role = roleStandby then
      ((s.dropSent seqs).modPair fun p => { p with yieldRec := true, lastSeqs := seqs, lastH := hsr }).yieldCheck
    else s

/-- YIELD_RECORD_RX (R402). -/
def execYieldRecordRx (seqs : List Nat) (hsr : Nat) (s : State) : Host.Outcome State Fault Refusal := act (·.yieldRx seqs hsr) s

/-- The YIELD record has not come within 10 µs of YIELD_N: the next tick is a takeover by timeout (R404). -/
def State.yieldNoRecord (s : State) : State :=
  if s.role = roleStandby ∧ s.pair.yieldSeen ∧ s.pair.yieldRec = false then
    (s.reachCycles (s.pair.yieldAt + 5000)).modPair fun p => { p with forceTake := true }
  else s

/-- YIELD_RECORD_TIMEOUT (R404). -/
def execYieldRecordTimeout (s : State) : Host.Outcome State Fault Refusal := act State.yieldNoRecord s

/-- The final record has not been acknowledged within 100 µs: the yield is abandoned (R402). -/
def State.yieldGiveUp (s : State) : State :=
  match s.pair.yst with
  | .finalSent _ _ => ((s.reachCycles (s.pair.yieldAt + 50000)).modPair fun p => { p with yst := .abandoned }).txNotice
  | _ => s

/-- YIELD_ABANDON (R402). -/
def execYieldAbandon (s : State) : Host.Outcome State Fault Refusal := act State.yieldGiveUp s

/-- The partner pulls TAKE_N low: it is asserted at a hub that does not drive it itself (R376). -/
def State.takePin (s : State) : State :=
  let s := s.modPins fun p => { p with takeIn := true }
  if s.fenced then s.takeSeen else s

/-- TAKE_N_ASSERT (R405). -/
def execTakeNAssert (s : State) : Host.Outcome State Fault Refusal :=
  actPin (fun p => { p with takeIn := true }) State.takePin s

/-- TAKE_N_RELEASE (R405): the fence ends. -/
def execTakeNRelease (s : State) : Host.Outcome State Fault Refusal :=
  actPin (fun p => { p with takeIn := false }) (·.modPins fun p => { p with takeIn := false }) s

/-- 500 ns after TAKE_N the new active drives EXD_gg and connects its stages (R406). -/
def State.exdEnable (s : State) : State :=
  if s.pair.exdWait then
    ((s.reachCycles (s.pair.roleAt + 250)).modPair fun p => { p with exdWait := false }).dacAll
  else s

/-- TAKEOVER_EXD_ENABLE (R406). -/
def execTakeoverExdEnable (s : State) : Host.Outcome State Fault Refusal := act State.exdEnable s

/-- A following hub moves a group's DAC toward the code at which its output monitor sees no difference (R406). -/
def State.dacTrim (s : State) (g need : Nat) : State :=
  if s.follows then s.setFld (F.FE.EXC_DAC.CODE g) (dacStep (s.fld (F.FE.EXC_DAC.CODE g)) need) else s

/-- STANDBY_DAC_TRIM (R406). -/
def execStandbyDacTrim (g : Fin 32) (need : Nat) (s : State) : Host.Outcome State Fault Refusal := act (·.dacTrim g.val need) s

/-! ## What the page shows (R411) -/

/-- The bits of PAIR_STS that follow the pins. -/
def State.pairStsReg (s : State) : Reg :=
  (s.reg F.PAIR.PAIR_STS.ROLE.addr &&& ~~~ 0x520#32) ||| BitVec.ofNat 32 (b2n s.pins.present * 2 ^ 10
    + b2n s.fenced * 2 ^ 8 + b2n s.yieldAsserted * 2 ^ 5)

/-- JOIN_REMAIN on a joining hub or a standby; 0 in other roles. -/
def State.joinReg (s : State) : Reg :=
  if s.follows then
    let j := decide (s.role = roleJoining)
    BitVec.ofNat 32 (b2n (!j || s.queuesConv) * 2 ^ 31 + b2n s.pair.cfgOk * 2 ^ 30 + b2n s.alignOk * 2 ^ 29
      + (if j then satNat 511 s.joinCtxs * 2 ^ 16 + s.joinChans else 0))
  else 0

/-- PARTNER_HEALTH, with VALID while a HEALTH record has come within the last 3 ms. -/
def State.partnerHealthReg (s : State) : Reg :=
  let ok := match s.pair.healthAt with
    | some c => decide (s.time.cycles ≤ c + 1500000)
    | none => false
  s.reg F.PAIR.PARTNER_HEALTH.VALID.addr ||| BitVec.ofNat 32 (b2n ok * 2 ^ 31)

/-- The window of the channel that HC_SEL names. -/
def State.hcShown (s : State) : Hc := sget {} s.pair.hc (s.fld F.PAIR.HC_SEL.CH)

/-- HC_STS: channels listed. -/
def State.hcCount (s : State) : Nat := ((List.range 512).filter fun c => s.bit (hcFailFld c)).length

end Sys2Proof.Machine
end

