-- ==== Sys2Proof/Machine/Faults.lean ====
section
/-!
DEFINITION. Faults, interrupts and the rim log as the host and the board act on them (R415, R419 to R421, R425, R428, R434 to R439):
clearing bits, the hold-off of in-band interrupts, the keys of test mode, the commands of the rim log, PFW_N, the supplies and the
fabric watchdog.
-/

namespace Sys2Proof.Machine

/-- An access to a header register of page `p`: on a page without one it is ignored, and counts as an address error unless the page is
in CAPWIN (R446, R455). -/
def State.onPage (s : State) (p : Nat) (f : State → State) : State :=
  if (pageRows p).isSome then f s else if isCapwin p then s else s.addrErr

/-! ## Clearing (R415, R419, R421) -/

/-- The cause of a FATAL fault persists (R415, R429). -/
def State.fatalPersists (s : State) (f : FltBit) : Bool :=
  s.rim.injected.contains (f.page, f.bit)
    || (if f = Flt.holdoverExpired then s.servo.expired
        else if f = Flt.pllUnlock then s.servo.pllBad
        else if f = Flt.refclkLoss then s.servo.refBad
        else if f = Flt.calBothBad then decide (s.calSt = calStopped)
        else if f = Flt.slathBothBad then !s.mram.slathA.valid && !s.mram.slathB.valid
        else if f = Flt.supplyRange then decide (s.power.supplies ≠ 0)
        else if f = Flt.fabricWdog then !s.rim.stalled.isEmpty
        else false)

/-- The FATAL bits of page `p` that a write of 1 does not clear, as a mask (R415). -/
def State.stuckFaults (s : State) (p : Nat) : Reg :=
  BitVec.ofNat 32 (((List.range 11).map fun b => match faultOf p b with
    | some f => if f.cls = clsFatal ∧ s.fatalPersists f = true then 2 ^ b else 0
    | none => 0).sum)

/-- A write of FLT_STS (R19, R415). -/
def State.writeFltSts (s : State) (p : Nat) (v : Reg) : State :=
  s.onPage p fun s =>
    let a := 0x1000 * p + 0x01C
    s.setReg a (s.reg a &&& ~~~ (v &&& ~~~ s.stuckFaults p))

/-- FLT_STS_WRITE (R415). -/
def execFltStsWrite (page : BitVec 12) (v : Reg) (s : State) : Host.Outcome State Fault Refusal :=
  actW (·.writeFltSts page.toNat v) s

/-- A write of FLT_FIRST: VALID re-arms the capture (R420). -/
def State.writeFltFirst (s : State) (p : Nat) (v : Reg) : State :=
  s.onPage p fun s =>
    if v.getLsbD 31 then
      ((s.setReg (0x1000 * p + 0x020) 0).setReg (0x1000 * p + 0x024) 0).modRim
        fun r => { r with capture := r.capture.filter fun e => decide (e.1 ≠ p) }
    else s

/-- FLT_FIRST_REARM (R420). -/
def execFltFirstRearm (page : BitVec 12) (s : State) : Host.Outcome State Fault Refusal :=
  actW (·.writeFltFirst page.toNat 0x80000000#32) s

/-- The open capture of page `p` closes 4 ns after its first fault arrived (R419). -/
def State.captureClose (s : State) (p : Nat) : State :=
  match s.rim.capture.find? fun e => decide (e.1 = p) with
  | some e => (s.reachCycles (e.2 + 2)).modRim fun r => { r with capture := r.capture.filter fun e => decide (e.1 ≠ p) }
  | none => s

/-- FLT_CAPTURE_CLOSE (R419). -/
def execFltCaptureClose (page : BitVec 12) (s : State) : Host.Outcome State Fault Refusal := act (·.captureClose page.toNat) s

/-- A write of INT_STS (R19, R421). -/
def State.writeIntSts (s : State) (p : Nat) (v : Reg) : State :=
  s.onPage p fun s =>
    let a := 0x1000 * p + 0x010
    s.setReg a (s.reg a &&& ~~~ v)

/-- INT_STS_WRITE (R421). -/
def execIntStsWrite (page : BitVec 12) (v : Reg) (s : State) : Host.Outcome State Fault Refusal :=
  actW (·.writeIntSts page.toNat v) s

/-- A write of INT_EN: bits of INT_STS that are set already become pending with it (R421, R425). -/
def State.writeIntEn (s : State) (p : Nat) (v : Reg) : State :=
  let before := s.pendingBits p
  (s.setReg (0x1000 * p + 0x014) v).dueBits p before

/-! ## The hold-off of in-band interrupts (R425) -/

/-- IRQ_HOLDOFF has passed since the last packet of page `p`: one packet covers the interrupts due meanwhile. -/
def State.irqHoldoffEnd (s : State) (p : Nat) : State :=
  match s.irqHold p with
  | none => s
  | some (at_, k) =>
    let s := s.reachCycles (at_ + s.irqHoldCycles)
    if k = 0 ∨ s.bit F.RIM.RIM_CTL.IRQ_QEN = false ∨ s.follows = true then s.setIrqHold p none
    else s.irqPacket p k

/-- IRQ_HOLDOFF_EXPIRE (R425). -/
def execIrqHoldoffExpire (page : BitVec 12) (s : State) : Host.Outcome State Fault Refusal := act (·.irqHoldoffEnd page.toNat) s

/-! ## Test mode (R428) -/

/-- The keys that open test mode. -/
def testKeys : List Nat := [0x7E51, 0x15E7, 0xA0A0]

/-- A write of TEST_KEY: the third key in order opens test mode, if TEST_EN was high when RESET_N rose. -/
def State.writeTestKey (s : State) (k : Nat) : State :=
  let n := if testKeys.getD s.rim.key 0 = k then s.rim.key + 1 else if k = 0x7E51 then 1 else 0
  s.modRim fun r =>
    if n = 3 then { r with key := 0, testMode := r.testMode || s.power.testEn } else { r with key := n }

/-- TEST_KEY_WRITE (R428). -/
def execTestKeyWrite (key : BitVec 16) (s : State) : Host.Outcome State Fault Refusal := act (·.writeTestKey key.toNat) s

/-! ## The rim log (R434 to R438) -/

/-- The check word over the content of a copy: the generation, the number of entries, and the entries, newest first. The layout is the
model's choice (R435, R515; DESIGN CHOICE, log entry 84). -/
def rimCrc (c : RimCopy) : Reg :=
  crc32c (([c.gen, c.entries.length] ++ c.entries.flatMap fun e => [e.w0.toNat, e.w1.toNat, e.w2.toNat, e.w3.toNat]).flatMap bytes32)

/-- The check word that a copy carries, which matches on a valid copy (R435). -/
def rimCheckWord (c : RimCopy) : Reg := if c.valid then rimCrc c else c.crc

/-- The copy in progress has been read back (R435). -/
def State.rimCopyDone (s : State) (ok : Bool) : State :=
  match s.rim.saving with
  | none => s
  | some (b, l) =>
    let gen := s.mram.rimGen + 1
    let s := s.modRim fun r => { r with saving := none }
    if ok then (s.modMram fun m => m.setRim b { gen := gen % 2 ^ 32, valid := true, entries := l }).raiseInt Irq.saved
    else s.raiseFault Flt.rimWrFail

/-- RIM_COPY_DONE (R435). -/
def execRimCopyDone (ok : Bool) (s : State) : Host.Outcome State Fault Refusal := act (·.rimCopyDone ok) s

/-- UNFREEZE ends the freeze; during a copy or with PFW_N asserted it is ignored (R436). -/
def State.rimUnfreeze (s : State) : State :=
  if s.bit F.RIM.RIM_STS.FROZEN = false ∨ s.rim.saving.isSome = true ∨ s.power.pfw = true then s
  else
    let s := (s.setBit F.RIM.RIM_STS.FROZEN false).setFld F.RIM.RIM_STS.CAUSE 0
    (s.rimEvent evUnfreeze (s.fld F.RIM.DROP_CNT.CNT)).raiseInt Irq.unfrozen

/-- SAVE copies the log without freezing it (R436). -/
def State.rimSaveCmd (s : State) : State := if s.rim.saving.isSome then s else s.rimCopyStart

/-- CLEAR empties the SRAM log, unless it is frozen (R436). -/
def State.rimClearCmd (s : State) : State :=
  if s.bit F.RIM.RIM_STS.FROZEN then s else s.modRim fun r => { r with log := [] }

/-- A write of RIM_CMD. -/
def State.writeRimCmd (s : State) (v : Reg) : State :=
  ((s.when (v.getLsbD 0) State.rimUnfreeze).when (v.getLsbD 1) State.rimSaveCmd).when (v.getLsbD 2) State.rimClearCmd

/-- UNFREEZE (R436). -/
def execUnfreeze (s : State) : Host.Outcome State Fault Refusal := actW (·.writeRimCmd 1#32) s

/-- RIM_SAVE (R436). -/
def execRimSave (s : State) : Host.Outcome State Fault Refusal := actW (·.writeRimCmd 2#32) s

/-- RIM_CLEAR (R436). -/
def execRimClear (s : State) : Host.Outcome State Fault Refusal := actW (·.writeRimCmd 4#32) s

/-- A write of RD_SEL selects an entry; its snapshot follows (R438). -/
def State.writeRdSel (s : State) (v : Reg) : State :=
  let s := (s.setFld F.RIM.RD_SEL.SRC (getBits v 16 2)).setFld F.RIM.RD_SEL.AGE (getBits v 0 10)
  (s.setBit F.RIM.ENTRY_STS.READY false).modRim fun r => { r with rdDue := true }

/-- RD_SEL_WRITE (R438). -/
def execRdSelWrite (v : Reg) (s : State) : Host.Outcome State Fault Refusal := actW (·.writeRdSel v) s

/-- The entries that RD_SEL.SRC names, newest first; none in an invalid copy (R438). -/
def State.rimSource (s : State) : List RimEntry :=
  let src := s.fld F.RIM.RD_SEL.SRC
  if src = 1 then (if s.mram.rimA.valid then s.mram.rimA.entries else [])
  else if src = 2 then (if s.mram.rimB.valid then s.mram.rimB.entries else [])
  else s.rim.log

/-- The snapshot is in place. -/
def State.rimSnapshot (s : State) : State :=
  if s.rim.rdDue = false then s
  else
    let e := s.rimSource[s.fld F.RIM.RD_SEL.AGE]?
    let w := e.getD ⟨0, 0, 0, 0⟩
    let s := (((s.setReg (F.RIM.ENTRY.WORD 0).addr w.w0).setReg (F.RIM.ENTRY.WORD 1).addr w.w1).setReg
      (F.RIM.ENTRY.WORD 2).addr w.w2).setReg (F.RIM.ENTRY.WORD 3).addr w.w3
    ((s.setBit F.RIM.ENTRY_STS.EMPTY e.isNone).setBit F.RIM.ENTRY_STS.READY true).modRim fun r => { r with rdDue := false }

/-- RIM_SNAPSHOT_READY (R438). -/
def execRimSnapshotReady (s : State) : Host.Outcome State Fault Refusal := act State.rimSnapshot s

/-- A write of HOST_NOTE logs a HOST event (R433). -/
def State.writeHostNote (s : State) (v : Reg) : State := s.rimEvent evHost v.toNat

/-- HOST_NOTE (R433). -/
def execHostNote (v : Reg) (s : State) : Host.Outcome State Fault Refusal := actW (·.writeHostNote v) s

/-! ## Power failure and the supplies (R417, R418, R439, R482) -/

/-- The longest pass of a tick, in ns (R38). -/
def State.passNs (s : State) : Nat := ((List.range 32).map fun g => maxDemand (s.actSegments g)).foldl max 0

/-- The yield tick of PFW_N: the last tick whose passes end within 50 µs, which is the last one issued where no tick comes (R401,
R482). -/
def State.pfwTick (s : State) : Nat :=
  let lim := (s.nowNs + 50000 - s.passNs) * 64
  let n := (lim - s.phaseTu) / (s.tickPeriod * 64)
  if s.gridSt = gridRun ∧ s.phaseTu ≤ lim ∧ s.grid.cur ≤ n ∧ s.lastIdx < idxOf s.tickPeriod n then idxOf s.tickPeriod n else s.lastIdx

/-- PFW_N is asserted on a hub that runs: the entry is taken, the log freezes, a calibration save in progress is abandoned even where the
log is frozen already, and an ACTIVE hub yields (R219, R434, R439). -/
def State.pfwFall (s : State) : State :=
  if s.power.pfw then s
  else
    (((s.modPower fun p => { p with pfw := true }).rimEvent evPfw 0).rimFreeze 1).calSaveDrop.startYieldAt causeYieldPfw s.pfwTick

/-- PFW_N is asserted: in reset, the level is all that is kept (R465, R467). -/
def State.pfwPin (s : State) : State := s.modPower fun p => { p with pfw := true }

/-- Every block at its reset values. What stays is the queue of commands, the MRAM, and the levels of the inputs (R466). -/
def State.cleared (s : State) : State where
  pending := s.pending
  mram := s.mram
  free := s.free
  pins := { s.pins with pps := [], ppsUnread := false }
  net := { pa := { los := s.net.pa.los }, pb := { los := s.net.pb.los } }
  power := { pfw := s.power.pfw, supplies := s.power.supplies }

/-- PFW_N is asserted before start-up is complete: the sequencer abandons it (R467). -/
def State.pfwAbandon (s : State) : State := s.cleared.modPower fun p => { p with pfw := true, abandoned := true }

/-- PFW_ASSERT (R439, R467). -/
def execPfwAssert (s : State) : Host.Outcome State Fault Refusal :=
  if s.inReset then .next s.pfwPin
  else if s.fld F.NVM.BOOT_STS.STEP < 9 then .next s.pfwAbandon
  else act State.pfwFall s

/-- PFW_DEASSERT (R436). -/
def execPfwDeassert (s : State) : Host.Outcome State Fault Refusal := .next (s.modPower fun p => { p with pfw := false })

/-- A supply has left its range by more than 2 % for more than 10 µs (R418). -/
def State.supplyOut (s : State) (n : Nat) : State :=
  (s.modPower fun p => { p with supplies := p.supplies ||| BitVec.ofNat 5 (2 ^ n) }).raiseFault Flt.supplyRange

/-- SUPPLY_RANGE (R418). -/
def execSupplyRange (which : Fin 5) (s : State) : Host.Outcome State Fault Refusal := act (·.supplyOut which.val) s

/-- SUPPLY_RESTORED (R418). -/
def execSupplyRestored (which : Fin 5) (s : State) : Host.Outcome State Fault Refusal :=
  .next (s.modPower fun p => { p with supplies := p.supplies &&& ~~~ BitVec.ofNat 5 (2 ^ which.val) })

/-- A block has held data for WDOG_LIMIT without a handshake: it stops until reset, as do those found stalled before it. WDOG_PAGE names the
latest (R417, R418; log entry 55). -/
def State.wdog (s : State) (p : Nat) : State :=
  if (pageRows p).isNone then s
  else ((s.setFld F.RIM.WDOG_PAGE.PAGE p).modRim fun r => { r with stalled := p :: r.stalled.filter fun x => decide (x ≠ p) }).raiseFault
    Flt.fabricWdog

/-- FABRIC_WDOG (R418). -/
def execFabricWdog (page : BitVec 12) (s : State) : Host.Outcome State Fault Refusal := act (·.wdog page.toNat) s

end Sys2Proof.Machine
end

