-- ==== Sys2Proof/Machine/Sentinel.lean ====
section
/-!
DEFINITION. The sentinels and SENT_ADC (R174 to R180): arming, crossings and their holds, conversions and events, writes of their
registers and the latched reads of an event.
-/

namespace Sys2Proof.Machine

/-- The hold of the sentinel is latched or a crossing pends (R179). -/
def sentBusy (x : Sent) : Bool := x.latched.isSome || x.pend.isSome

/-- The sentinel watches a signal: it is enabled, its channel is not OFF and the front ends have power (R174, R179, R478). -/
def State.sentWatches (s : State) (n : Nat) : Bool :=
  s.bit (F.SENT.CFG.EN n) && s.chEnabled (s.sentInForce n).1 && !s.isAsleep

/-- The signal is back between LO + HYST and HI - HYST: the sentinel is armed (R174). -/
def State.sentArm (s : State) (n : Nat) : State :=
  if s.sentWatches n then s.modSent n fun x => { x with armed := true } else s

/-- SENTINEL_ARM (R174). -/
def execSentinelArm (n : Fin 16) (s : State) : Host.Outcome State Fault Refusal := act (·.sentArm n.val) s

/-- Sentinel `m` latched its hold at its crossing, at the same instant as a crossing stamped `t`. -/
def State.sentWith (s : State) (t : Stamp) (m : Nat) : Bool :=
  match (s.getSent m).latched with
  | some (u, _, late, _) => !late && decide (u = t)
  | none => false

/-- The hold of an idle sentinel latches within 2 ns; how many ns HOLD_DLY then shows is free (R176, log entry 3). Its conversion joins the
queue; of simultaneous latches the lower number goes first. -/
def State.sentLatch (s : State) (n : Nat) (t : Stamp) (below : Bool) : State :=
  let (d, s) := s.drawFree
  let behind := s.sentQ.reverse.takeWhile fun m => s.sentWith t m && decide (n < m)
  let s := s.modSent n fun x => { x with latched := some (t, below, false, d.natAbs % 3) }
  { s with sentQ := s.sentQ.take (s.sentQ.length - behind.length) ++ n :: behind.reverse }

/-- A crossing (R174 to R177): the trigger engine and the wale line, the hold, a pending crossing or an overrun. -/
def State.sentCross (s : State) (n : Nat) (below : Bool) (t : Stamp) : State :=
  let x := s.getSent n
  let edge := if below then s.bit (F.SENT.CFG.EDGE_LO n) else s.bit (F.SENT.CFG.EDGE_HI n)
  if x.armed && edge && s.sentWatches n then
    let s := s.modSent n fun x => { x with armed := false }
    let s := s.when (s.bit (F.SENT.CFG.TRIG_EN n)) fun s => s.crossTriggers n (stampUnits t)
    let s := s.when (s.bit (F.SENT.CFG.WALE_EN n)) fun s => s.waleTrigger (s.fld (F.SENT.CFG.WALE_LINE n))
    if x.latched.isNone then s.sentLatch n t below
    else if x.pend.isNone then s.modSent n fun x => { x with pend := some (t, below) }
    else (s.count (F.SENT.OVERRUN.SENT_OVERRUN n)).raiseInt Irq.overrun
  else s

/-- SENTINEL_CROSSING (R175). -/
def execSentinelCrossing (n : Fin 16) (below : Bool) (t : Stamp) (s : State) : Host.Outcome State Fault Refusal :=
  act (·.sentCross n.val below t) s

/-- A change of CH, THRESH or HYST that waited takes effect once the sentinel is free; arming starts afresh (R179). -/
def State.sentFree (s : State) (n : Nat) : State :=
  let x := s.getSent n
  if sentBusy x || x.old.isNone then s
  else s.setSent n { x with old := none, armed := x.armed && decide (x.old = some (s.sentRegs n)) }

/-- The hold of a sentinel latches again for its pending crossing, whose event is late (R177). -/
def State.sentRelatch (s : State) (n : Nat) : State :=
  match (s.getSent n).pend with
  | none => s
  | some (t, below) =>
    let (d, s) := s.roundFree ((8 * s.nowNs : Nat) - (stampUnits t : Int)) 8
    let s := s.modSent n fun x => { x with latched := some (t, below, true, satNat 0xFFFF d.toNat), pend := none }
    { s with sentQ := s.sentQ ++ [n] }

/-- The conversion at the head of the queue ends with an event (R176, R177, R180). -/
def State.sentEvent (s : State) (code : BitVec 24) (bad : Bool) : State :=
  match s.sentQ with
  | [] => s
  | n :: rest =>
    let s := { s with sentQ := rest }
    match (s.getSent n).latched with
    | none => s
    | some (t, below, late, dly) =>
      let s := s.modSent n fun x => { x with latched := none }
      let s := s.setFld (F.SENT.EVT_NS32.NS32 n) (ns32Of (stampNs t))
      let s := (s.setFld (F.SENT.EVT_INFO.HOLD_DLY n) dly).setFld (F.SENT.EVT_INFO.FRAC n) t.frac
      let s := ((s.setBit (F.SENT.EVT_INFO.BAD n) bad).setBit (F.SENT.EVT_INFO.NEW n) true).setBit (F.SENT.EVT_INFO.LATE_HOLD n) late
      let s := (s.setBit (F.SENT.EVT_INFO.DIR n) below).setFld (F.SENT.EVT_VALUE.VALUE n) code.toNat
      let s := (s.count (F.SENT.CROSS_CNT.CNT n)).raiseInt (Irq.cross n)
      (s.sentRelatch n).sentFree n

/-- SENT_ADC_COMPLETE (R176). -/
def execSentAdcComplete (code : BitVec 24) (s : State) : Host.Outcome State Fault Refusal := act (·.sentEvent code false) s

/-- A conversion that has not completed within 1 µs: the fault, and an event with BAD and the value 0 (R180). -/
def State.sentTimeout (s : State) : State :=
  if s.sentQ.isEmpty then s else (s.raiseFault Flt.sentAdcTimeout).sentEvent 0 true

/-- SENT_ADC_TIMEOUT (R180). -/
def execSentAdcTimeout (s : State) : Host.Outcome State Fault Refusal := act State.sentTimeout s

/-! ## Registers (R178, R179, R185) -/

/-- A write `f` that may change CH, THRESH or HYST of a sentinel: on a busy one the values in force stay (R179). -/
def State.sentChange (s : State) (n : Nat) (f : State → State) : State :=
  let old := s.sentInForce n
  let s := f s
  let x := s.getSent n
  if sentBusy x then s.setSent n { x with old := some old }
  else if s.sentRegs n = old then s
  else s.setSent n { x with armed := false }

/-- Another enabled sentinel watches the channel: the one in force, and the one it is to watch (R179). -/
def State.sentTaken (s : State) (n ch : Nat) : Bool :=
  (List.range 16).any fun k => decide (k ≠ n) && s.bit (F.SENT.CFG.EN k)
    && (decide (s.fld (F.SENT.CFG.CH k) = ch) || decide ((s.sentInForce k).1 = ch))

/-- A write of CFG (R179): refused with CONFLICT if its channel is watched already; a sentinel that is disabled is not armed. -/
def State.writeSentCfg (s : State) (n : Nat) (v : Reg) : State :=
  if v.getLsbD 0 ∧ s.sentTaken n (getBits v 16 9) then
    ((s.setBit (F.SENT.CFG.EN n) false).modSent n fun x => { x with armed := false }).raiseInt Irq.conflict
  else
    let s := s.sentChange n fun s => s.setReg (F.SENT.CFG.EN n).addr (v &&& 0x01FF0F39#32)
    s.when (v.getLsbD 0 = false) fun s => s.modSent n fun x => { x with armed := false }

/-- SENT_CFG_WRITE (R179). -/
def execSentCfgWrite (n : Fin 16) (v : Reg) (s : State) : Host.Outcome State Fault Refusal := actW (·.writeSentCfg n.val v) s

/-- EVT_NS32, with EVT_INFO and EVT_VALUE latched; NEW is cleared (R178). -/
def State.readEvtNs (s : State) (p : Path) (n : Nat) : Reg × State :=
  let i := s.reg (F.SENT.EVT_INFO.BAD n).addr
  let v := s.reg (F.SENT.EVT_VALUE.VALUE n).addr
  let s := s.modLatches p fun l => { l with evt := sset none l.evt n (some (i, v)) }
  (s.reg (F.SENT.EVT_NS32.NS32 n).addr, s.setBit (F.SENT.EVT_INFO.NEW n) false)

/-- EVT_INFO: latched, or live. -/
def State.readEvtInfo (s : State) (p : Path) (n : Nat) : Reg :=
  match sget none (s.latches p).evt n with
  | some (i, _) => i
  | none => s.reg (F.SENT.EVT_INFO.BAD n).addr

/-- EVT_VALUE: the latched value, which releases the latch, or live data with UNPAIRED (R178, R513). -/
def State.readEvtValue (s : State) (p : Path) (n : Nat) : Reg × State :=
  match sget none (s.latches p).evt n with
  | some (_, v) => (v, s.modLatches p fun l => { l with evt := sset none l.evt n none })
  | none => (s.reg (F.SENT.EVT_VALUE.VALUE n).addr ||| 0x80000000#32, s)

/-- EVT_NS32_READ (R178). -/
def execEvtNs32Read (p : Path) (n : Fin 16) (s : State) : Host.Outcome State Fault Refusal :=
  act (fun s => State.answer (s.readEvtNs p n.val)) s

/-- EVT_VALUE_READ (R178). -/
def execEvtValueRead (p : Path) (n : Fin 16) (s : State) : Host.Outcome State Fault Refusal :=
  act (fun s => State.answer (s.readEvtValue p n.val)) s

/-- SENT_PEND: LATCHED and PEND of the sentinels (R185). -/
def State.sentPend (s : State) : Reg :=
  BitVec.ofNat 32 ((List.range 16).map fun n =>
    (if (s.getSent n).latched.isSome then 2 ^ (16 + n) else 0) + (if (s.getSent n).pend.isSome then 2 ^ n else 0)).sum

end Sys2Proof.Machine
end

