-- ==== Sys2Proof/Machine/Nvm.lean ====
section
/-!
DEFINITION. What the hub keeps in its MRAM beside calibration and the rim log: the slath image (R471 to R475) and the keys of in-band
management (R359).
-/

namespace Sys2Proof.Machine

/-! ## The fields of the slath image (R471) -/

/-- Byte offset `off` of page `p` is excepted from the slath image (R471): what a write restarts, selectors, one-off inputs and the
decade factors. -/
def slathExcept (p off : Nat) : Bool :=
  decide (off = 0x030) || decide (off = 0x034)
    || (decide (p = pgTIME) && (decide (off = 0x05C) || decide (off = 0x060) || decide (off = 0x084)))
    || (decide (p = pgCHIP) && (decide (off = 0x04C) || decide (off = 0x050) || decide (off = 0x054) || decide (off = 0x060)))
    || (decide (p = pgPAIR) && (decide (off = 0x050) || decide (off = 0x054) || decide (off = 0x0A0)))
    || (decide (p = pgRIM) && decide (off = 0x05C)) || (decide (p = pgHOST) && decide (off = 0x048))
    || (isCtxPage p && decide (off = 0x200)) || (isSlicePage p && decide (off = 0x058))
    || (decide (p = pgTRIG) && decide (off = 0x050)) || (isQPage p && decide (off = 0x050))
    || (decide (p = pgARBMEM) && decide (0x060 ≤ off) && decide (off < 0x080)) || (decide (p = pgARBTX) && decide (off = 0x050))
    || ((decide (p = 0x00E) || decide (p = 0x00F)) && decide (off = 0x068))
    || (isChtabPage p && decide (0x048 ≤ 0x040 + (off - 0x040) % 0x80) && decide (0x040 + (off - 0x040) % 0x80 ≤ 0x054)
        && decide (0x040 ≤ off))

/-- The bits of the register at address `a` that the image holds. -/
def slathMask (a : Nat) : Nat :=
  if slathExcept (pageOf a) (offOf a) then 0
  else match rowOf a with
    | some r => r.rw ||| r.rws
    | none => 0

/-- The registers of the body, in order (R471). -/
def slathBody : List Nat :=
  headerPages.flatMap fun p =>
    match pageRows p with
    | none => []
    | some rows =>
      (((rows.filter fun r => decide (r.rw ||| r.rws ≠ 0)).flatMap rowOffsets).mergeSort (fun a b => decide (a ≤ b))).filterMap fun o =>
        if slathMask (p * 0x1000 + o) = 0 then none else some (p * 0x1000 + o)

/-- L: the length of a copy in words (R471). -/
def slathLen : Nat := slathBody.length + 12

/-- The k-th word of arm marks (R471). -/
def markReg (marks : List Nat) (k : Nat) : Nat := ((marks.filter fun x => decide (x / 32 = k)).map fun x => 2 ^ (x % 32)).sum

/-- The check word of a copy with its words as they stand (R471, R515). -/
def slathCrc (c : SlathCopy) : Reg :=
  let body := slathBody.map fun a => (sget (resetWord a &&& BitVec.ofNat 32 (slathMask a)) c.image a).toNat
  crc32c (([c.gen, 1, slathLen] ++ body ++ (List.range 8).map (markReg c.marks)).flatMap bytes32)

/-- SLATH_CRC as it reads: 0 for an empty copy. -/
def slathCrcShown (c : SlathCopy) : Reg := if c.valid then slathCrc c else c.crc

/-! ## Loading (R472, R473) -/

/-- One word of an image is written as running and staged value. -/
def State.slathWord (s : State) (e : Nat × Reg) : State :=
  match rowOf e.1 with
  | none => s
  | some r =>
    let m := BitVec.ofNat 32 (slathMask e.1)
    let w := BitVec.ofNat 32 r.rws
    let s := s.setReg e.1 ((s.reg e.1 &&& ~~~ m) ||| (e.2 &&& m))
    s.setStg e.1 ((s.stg e.1 &&& ~~~ w) ||| (e.2 &&& w))

/-- All words of an image are written, in order of address. -/
def State.slathTake (s : State) (c : SlathCopy) : State := s.each c.image State.slathWord

/-- The configuration that runs passes the checks of reasons 1 to 4 as a whole; no context takes words yet, so reason 4 is not met
(R452, R472). -/
def State.configOk (s : State) : Bool :=
  (headerPages.all fun p => !hasRws p || !s.fieldsBad s p) && !s.weaveOver && !s.macOver

/-- A copy is valid: its check word matches, and the configuration it holds on a hub at its reset values passes the checks (R472). -/
def slathValid (c : SlathCopy) : Bool := c.valid && (State.reset.slathTake c).configOk

/-- The copy that a set of valid copies makes the one to load (R472). -/
def Mram.slathNewer (m : Mram) : Option Bool := newerCopy m.slathA.valid m.slathA.gen m.slathB.valid m.slathB.gen

/-! ## Saving (R475) -/

/-- The snapshot of the running values that differ from their reset values, and the arm marks of the contexts that are not IDLE
(R471, R474). -/
def State.slathSnapshot (s : State) (gen : Nat) : SlathCopy where
  gen := gen
  valid := true
  image := s.regs.filterMap fun e =>
    let m := BitVec.ofNat 32 (slathMask e.1)
    if (e.2 ^^^ resetWord e.1) &&& m = 0 then none else some (e.1, e.2 &&& m)
  marks := (List.range 256).filter fun x => decide (s.cxSt x ≠ cxIdle)

/-- SAVE writes the snapshot to the copy that is not the newer valid one; that copy is not valid until the save has been verified,
and what it holds until then is not known. It is ignored while a save runs (R475). -/
def State.slathSave (s : State) : State :=
  if s.power.saving.isSome then s
  else
    let newer := s.mram.slathNewer
    let gen := match newer with
      | some b => ((s.mram.getSlath b).gen + 1) % 2 ^ 32
      | none => 1
    let b := targetCopy newer
    let (old, s) := s.drawFree
    let (crc, s) := s.drawFree
    let c := s.slathSnapshot gen
    (s.modMram fun m => m.setSlath b { gen := (old % 2 ^ 32).toNat, crc := BitVec.ofInt 32 crc }).modPower fun p =>
      { p with saving := some (b, c) }

/-- SLATH_SAVE (R475). -/
def execSlathSave (s : State) : Host.Outcome State Fault Refusal := actW State.slathSave s

/-- The save has been read back (R472, R475). -/
def State.slathSaveDone (s : State) (ok : Bool) : State :=
  match s.power.saving with
  | none => s
  | some (b, c) =>
    let s := s.modPower fun p => { p with saving := none }
    if ok then
      let s := (s.modMram fun m => m.setSlath b c).modRim fun r => { r with injected := r.injected.filter fun e => decide (e ≠ (pgNVM, 2)) }
      ((s.count F.NVM.SLATH_SAVE_CNT.CNT).setFld F.NVM.SLATH_LAST_SAVE.SEC s.time.sec).raiseInt Irq.slathSaved
    else s.raiseFault Flt.slathWrFail

/-- SLATH_SAVE_DONE (R475). -/
def execSlathSaveDone (ok : Bool) (s : State) : Host.Outcome State Fault Refusal := act (·.slathSaveDone ok) s

/-! ## Keys (R359) -/

/-- KEY_DATA_n takes a word of the key. -/
def State.writeKeyData (s : State) (n : Nat) (v : Reg) : State := s.modNet fun x => { x with keyData := x.keyData.set n v }

/-- The key that KEY_DATA holds, with bytes 0 to 3 in KEY_DATA_0. -/
def keyOf (l : List Reg) : BitVec 128 := BitVec.ofNat 128 (l.foldl (fun a r => a * 2 ^ 32 + r.toNat) 0)

/-- STORE begins to write the key; it is ignored while a store runs. Until it is verified the slot holds no key. -/
def State.keyStore (s : State) (slot : Bool) : State :=
  if s.net.keyStore.isSome then s
  else
    (s.modNet fun x => { x with keyStore := some (slot, keyOf x.keyData) }).modMram fun m =>
      if slot then { m with key1 := none } else { m with key0 := none }

/-- A write of KEY_CMD. -/
def State.writeKeyCmd (s : State) (v : Reg) : State := if v.getLsbD 1 then s.keyStore (v.getLsbD 0) else s

/-- KEY_STORE (R359). -/
def execKeyStore (slot : Bool) (s : State) : Host.Outcome State Fault Refusal :=
  actW (·.writeKeyCmd (if slot then 3#32 else 2#32)) s

/-- LAST_CTR of a slot. -/
def lastCtrFld (slot : Bool) : Fld := if slot then F.HSR.LAST_CTR_1.CTR else F.HSR.LAST_CTR_0.CTR

/-- The counter that the key partition holds for a slot (R360). -/
def Mram.ctr (m : Mram) (slot : Bool) : Nat := if slot then m.ctr1 else m.ctr0

/-- The key partition takes a counter. -/
def Mram.setCtr (m : Mram) (slot : Bool) (v : Nat) : Mram := if slot then { m with ctr1 := v } else { m with ctr0 := v }

/-- The key has been read back: its counter starts at 0 and KEY_DATA is cleared, or the slot stays without a key. -/
def State.keyStoreDone (s : State) (ok : Bool) : State :=
  match s.net.keyStore with
  | none => s
  | some (slot, k) =>
    let s := s.modNet fun x => { x with keyStore := none }
    if ok then
      let s := s.modMram fun m => (if slot then { m with key1 := some k } else { m with key0 := some k }).setCtr slot 0
      ((s.setFld (lastCtrFld slot) 0).modNet fun x => { x with keyData := [0, 0, 0, 0] }).raiseInt Irq.keyStored
    else s.raiseFault Flt.keyStoreFail

/-- KEY_STORE_DONE (R359). -/
def execKeyStoreDone (ok : Bool) (s : State) : Host.Outcome State Fault Refusal := act (·.keyStoreDone ok) s

/-! ## Injected faults (R429) -/

/-- An injected RES_OVF strikes one channel of group `g`, whichever it is (R249, R429; log entry 3). -/
def State.resOvfInject (s : State) (g : Nat) : State :=
  let (x, s) := s.drawFree
  let l := (x % 16).toNat
  let s := s.count (F.RAIN.RES_OVF_CNT.CNT (16 * g + l))
  let s := s.setFld (F.RAIN.OVF_STS.CH g) (s.fld (F.RAIN.OVF_STS.CH g) ||| 2 ^ l)
  (s.raiseFault (Flt.resOvf g)).raiseInt (Irq.resOvf g)

/-- An injected FABRIC_WDOG stops one block, whichever it is (R417, R429; log entry 3). -/
def State.wdogInject (s : State) : State :=
  let (x, s) := s.drawFree
  s.wdog (headerPages.getD (x % (headerPages.length : Int)).toNat pgCHIP)

/-- An injected TS_OVF strikes one port, whichever it is (R75, R429; log entry 3). -/
def State.tsOvfInject (s : State) : State :=
  let (b, s) := s.drawTruth
  s.tsOverflow (if b then .b else .a)

/-- One occurrence of a fault as the real one would take its course, where the hub has what it strikes. -/
def State.faultHappens (s : State) (f : FltBit) : State :=
  if f.page = pgTIME then s.timeFatal f
  else if f = Flt.calBothBad then (s.raiseFault f).calStop
  else if f = Flt.calWrFail ∧ s.cal.saving.isSome = true then s.calSaveDone false
  else if f = Flt.slathWrFail ∧ s.power.saving.isSome = true then s.slathSaveDone false
  else if f = Flt.rimWrFail ∧ s.rim.saving.isSome = true then s.rimCopyDone false
  else if f = Flt.keyStoreFail ∧ s.net.keyStore.isSome = true then s.keyStoreDone false
  else if f = Flt.sentAdcTimeout ∧ s.sentQ.isEmpty = false then s.sentTimeout
  else if isSlicePage f.page then s.timeoutInject (f.page - 0x040)
  else if f = Flt.strobeEcho then s.echoInject
  else if f = Flt.tsOvf then s.tsOvfInject
  else if f = Flt.fabricWdog then s.wdogInject
  else if isRainPage f.page then s.resOvfInject (f.page - 0x0B0)
  else if f.page = 0x00E ∨ f.page = 0x00F then (s.count (F.PORT.FWD_OVF_CNT.CNT (f.page - 0x00E))).raiseFault f
  else if isQPage f.page then s.qReset (f.page - 0x200)
  else if f = Flt.linkRetry then (s.count F.PAIR.LINK_RETRY_CNT.CNT).raiseFault f
  else if f = Flt.linkLoss then (s.raiseFault f).linkDown
  else if f = Flt.digestMismatch ∧ s.follows = true then ((s.raiseFault f).raiseInt Irq.digestFail).setRole roleFailed
  else if f = Flt.capEccSgl then (s.count F.TRIG.ECC_SGL_CNT.CNT).raiseFault f
  else if f = Flt.capEccDbl then (s.count F.TRIG.ECC_DBL_CNT.CNT).raiseFault f
  else s.raiseFault f

/-- The fault is injected: its log entry carries INJ, and the cause of a FATAL one persists. -/
def State.inject (s : State) (f : FltBit) : State :=
  let s := s.modRim fun r =>
    { r with injecting := true, injected := if f.cls = clsFatal then (f.page, f.bit) :: r.injected.filter (fun e => decide (e ≠ (f.page, f.bit)))
                                            else r.injected }
  (s.faultHappens f).modRim fun r => { r with injecting := false }

/-- A write of FLT_INJ: ignored outside test mode; a source code that names no fault of the page injects nothing. -/
def State.writeFltInj (s : State) (p : Nat) (v : Reg) : State :=
  s.onPage p fun s =>
    if s.rim.testMode = false then s
    else
      let s := s.setFld (F.HDR.FLT_INJ.SOURCE p) (getBits v 0 5)
      if v.getLsbD 31 then
        (match faultOf p (getBits v 0 5) with
         | some f => s.inject f
         | none => s)
      else s

/-- FLT_INJ_WRITE (R429). -/
def execFltInjWrite (page : BitVec 12) (v : Reg) (s : State) : Host.Outcome State Fault Refusal :=
  actW (·.writeFltInj page.toNat v) s

end Sys2Proof.Machine
end

