-- ==== Sys2Proof/Machine/Reads.lean ====
section
/-!
DEFINITION. What a read of a register returns, and its side effects (R17, R173, R446 to R448, R455, R456, R513): registers that show a
state held elsewhere, latched pairs, and the capture window. Every other register returns its value, and the staged value of RWS
fields.
-/

namespace Sys2Proof.Machine

/-- A number as a register word. -/
def reg32 (n : Nat) : Reg := BitVec.ofNat 32 n

/-! ## The common header (R448) -/

/-- STS: STAGED_DIFF, FATAL, FLT and INT_PEND of page `p`. -/
def State.stsReg (s : State) (p : Nat) : Reg :=
  let flt := s.fld (F.HDR.FLT_STS.FAULTS p)
  reg32 (b2n (s.stagedDiffers p) * 2 ^ 3 + b2n (decide (flt &&& fatalMask p ≠ 0)) * 2 ^ 2 + b2n (decide (flt ≠ 0)) * 2
    + b2n (decide (s.pendingBits p ≠ 0)))

/-- A header register of page `p` whose value is not a plain register's. -/
def State.readHeader (s : State) (p o : Nat) : Option Reg :=
  match o with
  | 0x00C => some (s.stsReg p)
  | 0x030 => some (if s.rim.testMode then reg32 (s.fld (F.HDR.FLT_INJ.SOURCE p)) else 0)
  | 0x034 => some (s.stageReg p)
  | _ => none

/-! ## Latched pairs of index registers (R78, R109, R411, R463) -/

/-- TICK.LAST_IDX_LO, with LAST_IDX_HI latched. -/
def State.readLastIdxLo (s : State) (p : Path) : Reg × State :=
  (s.reg F.TICK.LAST_IDX_LO.IDX_LO.addr,
   s.modLatches p fun l => { l with lastIdx := some (s.reg F.TICK.LAST_IDX_HI.IDX_HI.addr) })

/-- TICK.LAST_IDX_HI: the latched value, which releases the latch, or the live one. -/
def State.readLastIdxHi (s : State) (p : Path) : Reg × State :=
  match (s.latches p).lastIdx with
  | some v => (v, s.modLatches p fun l => { l with lastIdx := none })
  | none => (s.reg F.TICK.LAST_IDX_HI.IDX_HI.addr, s)

/-- CHIP.SCHED_IDX_LO, with SCHED_IDX_HI latched. -/
def State.readSchedIdxLo (s : State) (p : Path) : Reg × State :=
  (reg32 s.schedIdx, s.modLatches p fun l => { l with schedIdx := some (reg32 (s.schedIdx / 2 ^ 32)) })

/-- CHIP.SCHED_IDX_HI: the latched value, which releases the latch, or the live one. -/
def State.readSchedIdxHi (s : State) (p : Path) : Reg × State :=
  match (s.latches p).schedIdx with
  | some v => (v, s.modLatches p fun l => { l with schedIdx := none })
  | none => (reg32 (s.schedIdx / 2 ^ 32), s)

/-- PAIR.TAKEOVER_IDX_LO, with TAKEOVER_IDX_HI latched. -/
def State.readTakeIdxLo (s : State) (p : Path) : Reg × State :=
  (s.reg F.PAIR.TAKEOVER_IDX_LO.IDX_LO.addr,
   s.modLatches p fun l => { l with takeIdx := some (s.reg F.PAIR.TAKEOVER_IDX_HI.IDX_HI.addr) })

/-- PAIR.TAKEOVER_IDX_HI: the latched value, which releases the latch, or the live one. -/
def State.readTakeIdxHi (s : State) (p : Path) : Reg × State :=
  match (s.latches p).takeIdx with
  | some v => (v, s.modLatches p fun l => { l with takeIdx := none })
  | none => (s.reg F.PAIR.TAKEOVER_IDX_HI.IDX_HI.addr, s)

/-- TIME.LAST_OFFSET_HI: the latched value, which releases the latch, or the live one. -/
def State.readLastOffsetHi (s : State) (p : Path) : Reg × State :=
  match (s.latches p).lastOffset with
  | some v => (v, s.modLatches p fun l => { l with lastOffset := none })
  | none => (s.reg F.TIME.LAST_OFFSET_HI.LAST_HI.addr, s)

/-- TIME.PENDING_OFFSET_HI: the latched value, which releases the latch, or the live one. -/
def State.readPendOffsetHi (s : State) (p : Path) : Reg × State :=
  match (s.latches p).pendOffset with
  | some v => (v, s.modLatches p fun l => { l with pendOffset := none })
  | none => (s.reg F.TIME.PENDING_OFFSET_HI.PEND_HI.addr, s)

/-- LAST_IDX_LO_READ (R109). -/
def execLastIdxLoRead (p : Path) (s : State) : Host.Outcome State Fault Refusal := act (fun s => State.answer (s.readLastIdxLo p)) s

/-- SCHED_IDX_LO_READ (R463). -/
def execSchedIdxLoRead (p : Path) (s : State) : Host.Outcome State Fault Refusal := act (fun s => State.answer (s.readSchedIdxLo p)) s

/-- TAKEOVER_IDX_LO_READ (R411). -/
def execTakeoverIdxLoRead (p : Path) (s : State) : Host.Outcome State Fault Refusal :=
  act (fun s => State.answer (s.readTakeIdxLo p)) s

/-! ## The capture window (R455, R456) -/

/-- The capture word that window word `w` shows; none past the last block. -/
def State.winWord (s : State) (w : Nat) : Option Nat :=
  let b := s.fld F.HOST.CAPWIN_BASE.BLOCK + w / 1024
  if b < 1280 then some (b * 1024 + w % 1024) else none

/-- The bursts held on an access path, newest first. -/
def State.bursts (s : State) : Path → List (Nat × List (Word × Bool))
  | .qspi => s.qspi.bufQ
  | .inband => s.qspi.bufM

/-- Sets the bursts held on an access path. -/
def State.setBursts (s : State) (p : Path) (l : List (Nat × List (Word × Bool))) : State :=
  match p with
  | .qspi => { s with qspi := { s.qspi with bufQ := l } }
  | .inband => { s with qspi := { s.qspi with bufM := l } }

/-- The aligned 16 capture words of burst `b` are read: single-bit errors are corrected, and uncorrectable words are marked (R294). -/
def State.burstRead (s : State) (b : Nat) : List (Word × Bool) × State :=
  let s := s.each (List.range 16) fun s i => s.capFix (16 * b + i)
  ((List.range 16).map fun i => (s.capWord (16 * b + i), decide (s.capErr (16 * b + i) = 2)), s)

/-- A WLO read of capture word `a` has its burst: held already, or fetched now; a read burst that increments the address fetches the
next 16 words when the first of these is read. -/
def State.burstFor (s : State) (p : Path) (a : Nat) (inc : Bool) : State :=
  let b := a / 16
  let s := match (s.bursts p).find? fun e => decide (e.1 = b) with
    | some _ => s
    | none =>
      let (l, s) := s.burstRead b
      s.setBursts p [(b, l)]
  if inc && decide (a % 16 = 0) && decide (16 * b + 16 < capWords) then
    let cur := (s.bursts p).filter fun e => decide (e.1 = b)
    let (l, s) := s.burstRead (b + 1)
    s.setBursts p ((b + 1, l) :: cur)
  else s

/-- An uncorrectable word is returned (R456). -/
def State.winError (s : State) : State := (s.count F.TRIG.ECC_DBL_CNT.CNT).raiseFault Flt.capEccDbl

/-- A read of the window while ARB_MEM is frozen returns 0 (R325). -/
def State.winFrozen (s : State) : State := s.setBit F.ARB_MEM.ARB_STS.HOSTWIN_FROZEN true

/-- WLO of window word `w`: its low bits, with its high bits latched. -/
def State.readWlo (s : State) (p : Path) (w : Nat) (inc : Bool) : Reg × State :=
  let keep (s : State) (v : Reg) : State := s.modLatches p fun l => { l with cap := sset none l.cap w (some v) }
  match s.winWord w with
  | none => (0, s)
  | some a =>
    if s.bit F.ARB_MEM.ARB_CTL.FREEZE then (0, keep s.winFrozen 0)
    else
      let s := s.burstFor p a inc
      let e := (((s.bursts p).find? fun e => decide (e.1 = a / 16)).map fun e => e.2.getD (a % 16) (0, false)).getD (0, false)
      if e.2 then (0, keep s.winError (reg32 (2 ^ 30)))
      else (wordLo e.1, keep s (reg32 (wordHi e.1)))

/-- WHI of window word `w`: the latched bits, which releases the latch, or the live ones with UNPAIRED (R455, R513). -/
def State.readWhi (s : State) (p : Path) (w : Nat) : Reg × State :=
  match s.winWord w with
  | none => (0, s)
  | some a =>
    match sget none (s.latches p).cap w with
    | some v => (v, s.modLatches p fun l => { l with cap := sset none l.cap w none })
    | none =>
      if s.bit F.ARB_MEM.ARB_CTL.FREEZE then (0, s.winFrozen)
      else
        let s := s.capFix a
        if s.capErr a = 2 then (reg32 (2 ^ 31 + 2 ^ 30), s.winError) else (reg32 (2 ^ 31 + wordHi (s.capWord a)), s)

/-! ## The block registers -/

/-- TIME (R79). -/
def State.readTime (s : State) (p : Path) (o : Nat) : Option (Reg × State) :=
  match o with
  | 0x04C => some (s.readNowNs p)
  | 0x050 => some (s.readNowSecLo p, s)
  | 0x054 => some (s.readNowSecHi p)
  | 0x058 => some (reg32 s.ns32, s)
  | 0x064 => some (s.readLastOffsetLo p)
  | 0x068 => some (s.readLastOffsetHi p)
  | 0x06C => some (s.readPendOffsetLo p)
  | 0x070 => some (s.readPendOffsetHi p)
  | 0x090 => some (reg32 s.holdoverTime, s)
  | 0x0A4 => some (s.readPpsNs p)
  | 0x0A8 => some (s.readPpsSecLo p, s)
  | 0x0AC => some (s.readPpsSecHi p)
  | _ => none

/-- TICK (R109). -/
def State.readTick (s : State) (p : Path) (o : Nat) : Option (Reg × State) :=
  match o with
  | 0x050 => some (reg32 (s.tps * 2 ^ 8 + s.gridSt), s)
  | 0x054 => some (s.readLastIdxLo p)
  | 0x058 => some (s.readLastIdxHi p)
  | 0x05C => some (reg32 s.catchupRemain, s)
  | 0x060 => some (s.gridSettle.reg F.TICK.SKIP_CNT.CNT.addr, s.gridSettle)
  | _ => none

/-- The validity, newer copy and save in progress of a pair of MRAM copies, in bits 31 to 28 (R224, R485). -/
def copyBits (a b : Bool) (newer : Option Bool) (saving : Bool) : Reg :=
  reg32 (b2n a * 2 ^ 31 + b2n b * 2 ^ 30 + b2n (newer = some true) * 2 ^ 29 + b2n saving * 2 ^ 28)

/-- NVM (R224, R485). Before start-up has read the MRAM its registers hold their reset values (R16, R468). -/
def State.readNvm (s : State) (o : Nat) : Option Reg :=
  let m := s.mram
  if s.fld F.NVM.BOOT_STS.STEP = 0 then none else
  match o with
  | 0x04C => some (copyBits m.slathA.valid m.slathB.valid m.slathNewer s.power.saving.isSome)
  | 0x050 => some (reg32 m.slathA.gen)
  | 0x054 => some (reg32 m.slathB.gen)
  | 0x058 => some (slathCrcShown m.slathA)
  | 0x05C => some (slathCrcShown m.slathB)
  | 0x080 => some (copyBits m.calA.valid m.calB.valid m.calNewer s.cal.saving.isSome)
  | 0x084 => some (reg32 m.calA.gen)
  | 0x088 => some (reg32 m.calB.gen)
  | 0x08C => some (calCrcShown m.calA)
  | 0x090 => some (calCrcShown m.calB)
  | _ => none

/-- RIM (R443). Before start-up has read the MRAM what it shows of the copies is 0 (R16, R468). -/
def State.readRim (s : State) (o : Nat) : Option Reg :=
  let m := s.mram
  let seen := decide (s.fld F.NVM.BOOT_STS.STEP ≠ 0)
  match o with
  | 0x048 => some ((s.reg F.RIM.RIM_STS.FROZEN.addr &&& 0xB0000000#32) ||| reg32 (b2n s.rim.saving.isSome * 2 ^ 30
      + b2n (seen && m.rimA.valid) * 2 ^ 27 + b2n (seen && m.rimB.valid) * 2 ^ 26
      + b2n (seen && decide (m.rimNewer = some true)) * 2 ^ 25 + s.rim.log.length))
  | 0x050 => some (if seen then reg32 m.rimA.gen else 0)
  | 0x054 => some (if seen then reg32 m.rimB.gen else 0)
  | 0x07C => some (reg32 (b2n s.rim.testMode))
  | 0x088 => some (reg32 s.power.supplies.toNat)
  | _ => none

/-- SENT (R185). -/
def State.readSent (s : State) (p : Path) (o : Nat) : Option (Reg × State) :=
  if o = 0x040 then some (reg32 s.sentQ.length, s)
  else if o = 0x044 then some (s.sentPend, s)
  else if o < 0x100 then none
  else
    let n := (o - 0x100) / 0x20
    match (o - 0x100) % 0x20 with
    | 0x0C => some (s.readEvtNs p n)
    | 0x10 => some (s.readEvtInfo p n, s)
    | 0x14 => some (s.readEvtValue p n)
    | _ => none

/-- RED (R255). -/
def State.readRed (s : State) (o : Nat) : Option Reg :=
  match o with
  | 0x044 => some (macReg s.macDemand)
  | 0x048 => some (macReg s.macStaged.macDemand)
  | _ => none

/-- TRIG (R296). -/
def State.readTrig (s : State) (o : Nat) : Option Reg :=
  let t := s.trig
  match o with
  | 0x044 => some (reg32 s.capDemandK)
  | 0x054 => some (reg32 (b2n t.rd1.isSome * 2 ^ 15 + b2n t.rd0.isSome * 2 ^ 7))
  | 0x05C => some (reg32 t.order.length)
  | _ => none

/-- ARB_MEM and ARB_TX (R331, R332). -/
def State.readArb (s : State) (a : Arbiter) (o : Nat) : Option Reg :=
  match a, o with
  | a, 0x044 => some (s.arbStsReg a)
  | .mem, 0x058 => some (s.arbReqReg .mem 0)
  | .tx, 0x150 => some (s.arbReqReg .tx 0)
  | .tx, 0x154 => some (s.arbReqReg .tx 1)
  | .tx, 0x158 => some (s.arbReqReg .tx 2)
  | _, _ => none

/-- PAIR (R411). -/
def State.readPair (s : State) (p : Path) (o : Nat) : Option (Reg × State) :=
  match o with
  | 0x048 => some (s.pairStsReg, s)
  | 0x04C => some (s.joinReg, s)
  | 0x05C => some (s.pair.ownDigest.getD 0, s)
  | 0x064 => some (if s.fld F.NVM.BOOT_STS.STEP = 0 then 0 else s.stgDigest, s)
  | 0x06C => some (reg32 (satNat 0xFFFF s.mirrorLag), s)
  | 0x088 => some (s.readTakeIdxLo p)
  | 0x08C => some (s.readTakeIdxHi p)
  | 0x09C => some (reg32 s.hcCount, s)
  | 0x0A4 => some (s.hcShown.mean, s)
  | 0x0A8 => some (s.hcShown.rms, s)
  | 0x0AC => some (reg32 s.hcShown.n, s)
  | 0x0B0 => some (s.partnerHealthReg, s)
  | _ => none

/-- KEY_STS (R371). -/
def State.keyStsReg (s : State) : Reg :=
  reg32 (b2n s.net.keyStore.isSome * 2 ^ 2 + b2n s.mram.key1.isSome * 2 + b2n s.mram.key0.isSome)

/-- The BANK and L fields of SLICE_STS, with ROLE and GROUP as they are held; the demands of the two banks and the check of the inactive
one (R160, R183). -/
def State.readSlice (s : State) (n o : Nat) : Option Reg :=
  -- the pages of the spares have no weave banks (R158): one empty segment
  let of (b : Bool) : List (List Reg × Nat) := if 32 ≤ n then [([], 1)] else segments (s.bankEntries n b)
  let act := of (s.actBank n)
  let stg := of (!s.actBank n)
  match o with
  | 0x044 => some ((s.reg (F.SLICE.SLICE_STS.ROLE n).addr &&& 0xC07C0000#32)
      ||| reg32 (b2n (s.actBank n) * 2 ^ 29 + segCount act))
  | 0x048 => some (reg32 (maxDemand act))
  | 0x04C => some (reg32 (maxDemand stg))
  | 0x050 => some (match firstFail s.tickPeriod 0 stg with
      | some k => reg32 (2 ^ 31 + k)
      | none => 0)
  | _ => none

/-- A channel-table entry (R144, R181, R254). -/
def State.readChan (s : State) (p : Path) (c o : Nat) : Option (Reg × State) :=
  let x := s.getChan c
  match o with
  | 0x18 => some ((s.reg (F.CH.FE_STS.AR_LOW c).addr &&& ~~~ 0x500#32)
      ||| reg32 (b2n (s.settling c) * 2 ^ 10 + b2n (s.excFailing c) * 2 ^ 8), s)
  | 0x34 => some (s.readResLo p c)
  | 0x38 => some (s.readResHi p c)
  | 0x3C => some (reg32 x.win.cnt, s)
  | 0x5C => some (reg32 (x.fir.phase * 2 ^ 16 + x.fir.fill), s)
  | 0x60 => some (reg32 x.stats.pos, s)
  | _ => none

/-- The sum of the first TAPS coefficients of a bank (R257). -/
def State.dcGain (s : State) (fs : Nat) (bank : Bool) : Int :=
  ((List.range (s.fld (tapsFld fs bank))).map fun t => s.sfld (coefFld fs bank t)).sum

/-- The channels with FIR_EN that name a coefficient set (R257). -/
def State.firUsers (s : State) (fs : Nat) : Nat :=
  ((List.range 512).filter fun c => s.bit (F.CH.RED_CFG.FIR_EN c) && decide (s.fld (F.CH.RED_CFG.FIRSET c) = fs)).length

/-- FIRSET (R257). -/
def State.readFirset (s : State) (fs o : Nat) : Option Reg :=
  match o with
  | 0x048 => some (reg32 (unsigned 32 (s.dcGain fs false)))
  | 0x04C => some (reg32 (unsigned 32 (s.dcGain fs true)))
  | 0x050 => some (reg32 (s.firUsers fs))
  | _ => none

/-- RAIN_STS of a channel (R259). -/
def State.rainStsReg (s : State) (c : Nat) : Reg :=
  let r := (s.getChan c).rain
  reg32 (r.dir * 2 ^ 16 + r.stack.length)

/-- Q_nn (R329). -/
def State.readQueue (s : State) (p : Path) (q o : Nat) : Option (Reg × State) :=
  match o with
  | 0x04C => some (s.qLevelReg q, s)
  | 0x054 => some (s.qStsReg q, s)
  | 0x070 => some (reg32 ((s.getQ q).wp % s.qMod q), s)
  | 0x074 => some (reg32 ((s.getQ q).rp % s.qMod q), s)
  | 0x078 => some (s.readDataLo p q)
  | 0x07C => some (s.readDataHi p q)
  | 0x080 => some (reg32 (s.pktMax q), s)
  | _ => none

/-- CHIP (R463). -/
def State.readChip (s : State) (p : Path) (o : Nat) : Option (Reg × State) :=
  match o with
  | 0x040 => some (reg32 (0x0512 * 2 ^ 16 + s.mram.grade % 16), s)
  | 0x044 => some (reg32 s.mram.serial, s)
  | 0x048 => some (reg32 (s.mram.serial / 2 ^ 32), s)
  | 0x064 => some (s.readSchedIdxLo p)
  | 0x068 => some (s.readSchedIdxHi p)
  | 0x06C => some (reg32 (b2n s.schedWaits), s)
  | _ => none

/-- A read without side effects returns its value. -/
def State.shown (s : State) (r : Option Reg) : Option (Reg × State) := r.map fun v => (v, s)

/-- PORT_A and PORT_B (R347, R369): FENCED follows TAKE_N, and the forwarded frames that have left by now are counted. -/
def State.readPort (s : State) (p : Port) (g o : Nat) : Option (Reg × State) :=
  if o = 0x044 then some (s.reg (0x1000 * g + o) ||| reg32 (b2n s.fenced * 2 ^ 7), s)
  else if o = 0x054 ∨ o = 0x068 then
    let s := s.fwdFlush p
    some (s.reg (0x1000 * g + o), s)
  else none

/-- The registers of page `g` that show a state held elsewhere. -/
def State.readBlock (s : State) (p : Path) (g o : Nat) : Option (Reg × State) :=
  if g = pgCHIP then s.readChip p o
  else if g = pgTIME then s.readTime p o
  else if g = pgTICK then s.readTick p o
  else if g = pgNVM then s.shown (s.readNvm o)
  else if g = pgRIM then s.shown (s.readRim o)
  else if g = pgSENT then s.readSent p o
  else if g = pgRED then s.shown (s.readRed o)
  else if g = pgTRIG then s.shown (s.readTrig o)
  else if g = pgARBMEM then s.shown (s.readArb .mem o)
  else if g = pgARBTX then s.shown (s.readArb .tx o)
  else if g = pgPAIR then s.readPair p o
  else if g = 0x00E ∨ g = 0x00F then
    s.readPort (if g = 0x00E then .a else .b) g o
  else if g = pgHSR then (if o = 0x09C then some (s.keyStsReg, s) else none)
  else if g = pgWALE then (if 0x050 ≤ o ∧ o < 0x074 then some (reg32 (s.lineDly ((o - 0x050) / 4)), s) else none)
  else if isSlicePage g then s.shown (s.readSlice (g - 0x040) o)
  else if isChtabPage g then s.readChan p (16 * (g - 0x080) + (o - 0x040) / 0x80) ((o - 0x040) % 0x80)
  else if isFirsetPage g then s.shown (s.readFirset (g - 0x0A0) o)
  else if isRainPage g then
    (if 0x100 ≤ o ∧ o < 0x300 ∧ (o - 0x100) % 0x20 = 0x0C then some (s.rainStsReg (16 * (g - 0x0B0) + (o - 0x100) / 0x20), s)
     else none)
  else if isCtxPage g then (if 0x204 ≤ o then some (s.memberReg (g - 0x100) o, s) else none)
  else if isQPage g then s.readQueue p (g - 0x200) o
  else none

/-- The value of a plain register: running, with RWS fields as they are staged (R17). -/
def State.plainRead (s : State) (r : RegRow) (a : Nat) : Reg :=
  let w := reg32 r.rws
  (s.reg a &&& ~~~ w) ||| (s.stg a &&& w)

/-- A read of the byte address `addr` on an access path, in a burst that increments the address or not (R445, R446). -/
def State.busRead (s : State) (p : Path) (addr : Nat) (inc : Bool) : Reg × State :=
  let a := addr / 4 * 4
  let g := pageOf a
  let o := offOf a
  if isCapwin g then
    (if a % 8 = 0 then s.readWlo p ((a - 0x300000) / 8) inc else s.readWhi p ((a - 0x300000) / 8))
  else if (pageRows g).isNone then (0, s.addrErr)
  else
    match rowOf a with
    | none => (0, s)
    | some r =>
      ((if o < 0x040 then s.shown (s.readHeader g o) else s.readBlock p g o)).getD (s.plainRead r a, s)

end Sys2Proof.Machine
end

