-- ==== Sys2Proof/Machine/HostBus.lean ====
section
/-!
DEFINITION. Writes of registers by address (R17, R18, R445 to R447, R450) and the QSPI commands (R457 to R460). A register whose write
does more than its access type says is handed to the operation of its chapter; every other one is written as its access type says.
-/

namespace Sys2Proof.Machine

/-! ## Plain registers (R17, R450) -/

/-- A write of a register as its access types say: RW bits take their value, W1C bits are cleared by a 1, and RWS bits take a staged
value, unless a commit of the page is requested. -/
def State.plainWrite (s : State) (r : RegRow) (a : Nat) (v : Reg) : State :=
  let rw := reg32 r.rw
  let rws := reg32 r.rws
  let s := s.setReg a (((s.reg a &&& ~~~ rw) ||| (v &&& rw)) &&& ~~~ (v &&& reg32 r.w1c))
  if r.rws = 0 then s
  else if (s.commitOf (pageOf a)).isSome then s.setBit (F.HDR.STAGE_CTL.WR_IGNORED (pageOf a)) true
  else s.setStg a ((s.stg a &&& ~~~ rws) ||| (v &&& rws))

/-- A register is written but for its field `f`, whose write is a matter of its own. -/
def State.plainBut (s : State) (r : RegRow) (a : Nat) (v : Reg) (f : Fld) : State :=
  s.plainWrite r a (putBits v f.lo f.width (s.fld f))

/-! ## The page header (R448) -/

/-- A write of a header register of page `p`. -/
def State.writeHeader (s : State) (r : RegRow) (p o : Nat) (v : Reg) : State :=
  match o with
  | 0x010 => s.writeIntSts p v
  | 0x014 => s.writeIntEn p v
  | 0x01C => s.writeFltSts p v
  | 0x020 => s.writeFltFirst p v
  | 0x030 => s.writeFltInj p v
  | 0x034 => s.writeStage p v
  | _ => s.plainWrite r (0x1000 * p + o) v

/-! ## Block registers -/

/-- TIME (R79). -/
def State.writeTimePage (s : State) (r : RegRow) (a o : Nat) (v : Reg) : State :=
  match o with
  | 0x040 => (s.plainBut r a v F.TIME.TIME_CTL.SRC).setSrc (getBits v 0 2)
  | 0x044 => s.writeTimeCmd v.toNat
  | 0x060 => s.writeOffsetHi v.toNat
  | 0x084 => s.writeFreqInt v.toNat
  | _ => s.plainWrite r a v

/-- TICK (R109): a write of TRIM_CTL brings the trims to their values at once (R99). -/
def State.writeTickPage (s : State) (r : RegRow) (a o : Nat) (v : Reg) : State :=
  match o with
  | 0x040 => s.writeTickCtl v
  | 0x060 => s.gridSettle.plainWrite r a v
  | 0x06C => (s.plainWrite r a v).modGrid fun g => { g with trimDue := true, trimFull := true }
  | _ => s.plainWrite r a v

/-- A register of the wake sources is written: an ASLEEP hub that WAKE_AT_SEC has passed wakes (R479). -/
def State.wakeWrite (s : State) (r : RegRow) (a : Nat) (v : Reg) : State :=
  let s := s.plainWrite r a v
  if s.pwr = pwAsleep then s.wakeAtCheck else s

/-- NVM (R224, R485). -/
def State.writeNvmPage (s : State) (r : RegRow) (a o : Nat) (v : Reg) : State :=
  match o with
  | 0x060 => if v.getLsbD 0 then s.slathSave else s
  | 0x0A0 => s.wakeWrite r a v
  | 0x0A4 => s.writePwrCmd v
  | 0x0AC => s.wakeWrite r a v
  | 0x0B0 => s.wakeWrite r a v
  | _ => s.plainWrite r a v

/-- RIM (R443). -/
def State.writeRimPage (s : State) (r : RegRow) (a o : Nat) (v : Reg) : State :=
  match o with
  | 0x044 => s.writeRimCmd v
  | 0x05C => s.writeRdSel v
  | 0x074 => s.writeHostNote v
  | 0x078 => s.writeTestKey (v.toNat % 2 ^ 16)
  | _ => s.plainWrite r a v

/-- A write of REINIT: whether the copy it writes verifies is free (R220; log entry 3). -/
def State.writeReinit (s : State) : State :=
  let (ok, s) := s.drawTruth
  s.calReinit ok

/-- CAL (R221). -/
def State.writeCalPage (s : State) (r : RegRow) (a o : Nat) (v : Reg) : State :=
  match o with
  | 0x040 => (s.plainBut r a v F.CAL.CAL_CTL.EN).calEnWrite (v.getLsbD 0)
  | 0x060 => ((s.when (v.getLsbD 0) State.rotRestart).when (v.getLsbD 1) State.saveNow).when (v.getLsbD 2) State.writeReinit
  | _ => s.plainWrite r a v

/-- SENT (R179, R185). -/
def State.writeSentPage (s : State) (r : RegRow) (a o : Nat) (v : Reg) : State :=
  let n := (o - 0x100) / 0x20
  match (o - 0x100) % 0x20 with
  | 0x00 => if 0x100 ≤ o then s.writeSentCfg n v else s
  | 0x04 => if 0x100 ≤ o then s.sentChange n fun s => s.plainWrite r a v else s
  | 0x08 => s.sentChange n fun s => s.plainWrite r a v
  | _ => s.plainWrite r a v

/-- ARB_MEM and ARB_TX (R331, R332). -/
def State.writeArbPage (s : State) (m : Arbiter) (r : RegRow) (a o : Nat) (v : Reg) : State :=
  match m, o with
  | m, 0x040 => s.writeFreeze m (v.getLsbD 0)
  | .mem, 0x048 => s.writeClass .mem 0 v
  | .tx, o => if 0x100 ≤ o ∧ o ≤ 0x110 then s.writeClass .tx ((o - 0x100) / 4) v else s.plainWrite r a v
  | _, _ => s.plainWrite r a v

/-- A write of PAIR_CMD (R411). -/
def State.writePairCmd (s : State) (v : Reg) : State :=
  let s := s.when (v.getLsbD 0) fun s => s.startYield causeYieldCmd
  let s := s.when (v.getLsbD 1) State.rejoin
  let s := s.when (v.getLsbD 2) State.forceActive
  let s := s.when (v.getLsbD 3) State.pairCommit
  s.when (v.getLsbD 4) State.hcRestart

/-- PAIR (R411). -/
def State.writePairPage (s : State) (r : RegRow) (a o : Nat) (v : Reg) : State :=
  match o with
  | 0x040 => (s.plainBut r a v F.PAIR.PAIR_CTL.PAIR_EN).writePairEn (v.getLsbD 0)
  | 0x044 => s.writePairCmd v
  | _ => s.plainWrite r a v

/-- HSR (R371). -/
def State.writeHsrPage (s : State) (r : RegRow) (a o : Nat) (v : Reg) : State :=
  if o = 0x040 then s.writeHsrCtl v
  else if o = 0x098 then s.writeKeyCmd v
  else if 0x0A0 ≤ o ∧ o < 0x0B0 then s.writeKeyData ((o - 0x0A0) / 4) v
  else s.plainWrite r a v

/-- PORT_A and PORT_B (R369): what has been forwarded by now is counted first. -/
def State.writePortPage (s : State) (p : Port) (r : RegRow) (a o : Nat) (v : Reg) : State :=
  if o = 0x040 then s.writePortCtl p v else (s.fwdFlush p).plainWrite r a v

/-- WALE (R373). -/
def State.writeWalePage (s : State) (r : RegRow) (a o : Nat) (v : Reg) : State :=
  match o with
  | 0x040 => s.writeWaleCtl v
  | 0x048 => s.writeMeasCmd (v.toNat % 2 ^ 9)
  | _ => s.plainWrite r a v

/-- FE_gg (R144): a DAC code that is not regulated follows EXC_SET (R121), and an EXC_MIN of 0 ends the comparison (R122). -/
def State.writeFePage (s : State) (g : Fin 32) (r : RegRow) (a o : Nat) (v : Reg) : State :=
  match o with
  | 0x040 => (s.plainWrite r a v).dacFollow g.val
  | 0x044 => (s.plainWrite r a v).dacFollow g.val
  | 0x048 => (s.plainWrite r a v).when (decide (v.toNat % 2 ^ 16 = 0)) fun s => s.modGroup g.val fun x => { x with excLow := false }
  | 0x054 => s.writeBlankCtl g.val v
  | 0x070 => s.writeQreset g (v.setWidth 16)
  | _ => s.plainWrite r a v

/-- SLICE_nn (R158, R183). -/
def State.writeSlicePage (s : State) (n : Nat) (r : RegRow) (a o : Nat) (v : Reg) : State :=
  if 0x800 ≤ o then s.weaveWrite n true ((o - 0x800) / 4) v
  else if 0x400 ≤ o then s.weaveWrite n false ((o - 0x400) / 4) v
  else s.plainWrite r a v

/-- FIRSET_nn (R231, R257). -/
def State.writeFirsetPage (s : State) (n : Nat) (r : RegRow) (a o : Nat) (v : Reg) : State :=
  if o = 0x044 then s.writeTaps n v
  else if 0x800 ≤ o then s.writeCoef n true ((o - 0x800) / 4) v
  else if 0x400 ≤ o then s.writeCoef n false ((o - 0x400) / 4) v
  else s.plainWrite r a v

/-- The pages of one block each. -/
def State.writeBlock (s : State) (r : RegRow) (a g o : Nat) (v : Reg) : State :=
  if g = pgTIME then s.writeTimePage r a o v
  else if g = pgTICK then s.writeTickPage r a o v
  else if g = pgNVM then s.writeNvmPage r a o v
  else if g = pgRIM then s.writeRimPage r a o v
  else if g = pgCAL then s.writeCalPage r a o v
  else if g = pgSENT then s.writeSentPage r a o v
  else if g = pgRED ∧ o = 0x040 then s.writeMaxAge v
  else if g = pgTRIG ∧ o = 0x094 then s.writeRtx v
  else if g = pgARBMEM then s.writeArbPage .mem r a o v
  else if g = pgARBTX then s.writeArbPage .tx r a o v
  else if g = pgPAIR then s.writePairPage r a o v
  else if g = 0x00E then s.writePortPage .a r a o v
  else if g = 0x00F then s.writePortPage .b r a o v
  else if g = pgHSR then s.writeHsrPage r a o v
  else if g = pgWALE then s.writeWalePage r a o v
  else s.plainWrite r a v

/-- The pages of the block instances. -/
def State.writeInst (s : State) (r : RegRow) (a g o : Nat) (v : Reg) : State :=
  if 0x020 ≤ g ∧ g ≤ 0x03F then s.writeFePage (Fin.ofNat 32 (g - 0x020)) r a o v
  else if isSlicePage g then s.writeSlicePage (g - 0x040) r a o v
  else if isFirsetPage g then s.writeFirsetPage (g - 0x0A0) r a o v
  else if isRainPage g ∧ o = 0x040 then s.writeDumpNow (Fin.ofNat 32 (g - 0x0B0)) (v.setWidth 16)
  else if isCtxPage g ∧ o = 0x078 then s.writeCmd (Fin.ofNat 256 (g - 0x100)) v
  else if isQPage g ∧ o = 0x044 then s.writeQcmd (Fin.ofNat 64 (g - 0x200)) v
  else s.plainWrite r a v

/-! ## A write by address (R445, R446) -/

/-- A write of one register: in its header, in its block, or ignored at a reserved offset. -/
def State.regWrite (s : State) (a : Nat) (v : Reg) : State :=
  match rowOf a with
  | none => s
  | some r =>
    if offOf a < 0x040 then s.writeHeader r (pageOf a) (offOf a) v
    else if pageOf a < 0x020 then s.writeBlock r a (pageOf a) (offOf a) v
    else s.writeInst r a (pageOf a) (offOf a) v

/-- A write of the byte address `addr`. Every register write but one of TEST_KEY resets the sequence of R428. -/
def State.busWrite (s : State) (addr : Nat) (v : Reg) : State :=
  let a := addr / 4 * 4
  let s := if a = F.RIM.TEST_KEY.KEY.addr then s else s.otherWrite
  if isCapwin (pageOf a) then s
  else if (pageRows (pageOf a)).isNone then s.addrErr
  else s.regWrite a v

/-- Registers that in-band access does not reach: a request that addresses one executes nothing (R357). -/
def mgmtProtected (a : Nat) : Bool :=
  decide (pageOf a = pgHOST) || (decide (pageOf a = pgHSR) && decide (0x040 ≤ offOf a) && decide (offOf a ≤ 0x0BF))

/-- REGISTER_WRITE (R17): both access paths write alike (R447), but the keys and the other protected registers are written only over QSPI
(R357, R359). -/
def execRegisterWrite (p : Path) (addr : BitVec 24) (v : Reg) (s : State) : Host.Outcome State Fault Refusal :=
  act (fun s => if p = .inband ∧ mgmtProtected addr.toNat = true then s else s.busWrite addr.toNat v) s

/-! ## Bursts (R458 to R460) -/

/-- A word that is not ready when it is due: it is not performed, and neither is any later one of the transaction. -/
def State.lateWord (s : State) : State :=
  let s := ((s.setBit F.HOST.HOST_STS.LATE true).count F.HOST.LATE_CNT.CNT).raiseInt Irq.late
  { s with qspi := { s.qspi with late := true } }

/-- One word of a QSPI read. -/
def State.readOne (s : State) (inc : Bool) (a : Nat) (ready : Bool) : Reg × State :=
  if s.qspi.late || !ready then (0, s.lateWord) else s.busRead .qspi a inc

/-- The words of a QSPI read, in order: addresses, with whether each is ready in time. -/
def State.readMany (s : State) (inc : Bool) : List (Nat × Bool) → List Reg × State
  | [] => ([], s)
  | (a, ready) :: l =>
    let x := s.readOne inc a ready
    let y := State.readMany x.2 inc l
    (x.1 :: y.1, y.2)

/-- A QSPI read: the words it returns. The hub ignores it after an unknown opcode, until the transaction ends. -/
def State.qspiRead (s : State) (inc : Bool) (l : List (Nat × Bool)) : State :=
  if s.qspi.ignore then s
  else
    let x := s.readMany inc l
    { x.2 with rdata := x.1 }

/-- The addresses of a burst that increments by 4. -/
def incAddrs (addr : Nat) (ready : List Bool) : List (Nat × Bool) :=
  ((List.range ready.length).map fun i => (addr + 4 * i) % 2 ^ 24).zip ready

/-- The addresses of a burst that alternates between an address and the next one. -/
def pairAddrs (addr : Nat) (ready : List Bool) : List (Nat × Bool) :=
  ((List.range ready.length).map fun i => (addr + 4 * (i % 2)) % 2 ^ 24).zip ready

/-- READ (R458). -/
def execRead (addr : BitVec 24) (ready : List Bool) (s : State) : Host.Outcome State Fault Refusal :=
  act (·.qspiRead true (incAddrs addr.toNat ready)) s

/-- QREAD (R458). -/
def execQread (addr : BitVec 24) (ready : List Bool) (s : State) : Host.Outcome State Fault Refusal :=
  act (·.qspiRead true (incAddrs addr.toNat ready)) s

/-- QREAD_PAIR (R458). -/
def execQreadPair (addr : BitVec 24) (ready : List Bool) (s : State) : Host.Outcome State Fault Refusal :=
  act (·.qspiRead false (pairAddrs addr.toNat ready)) s

/-- The words of a QSPI write, in order. -/
def State.writeMany (s : State) (addr : Nat) : List Reg → State
  | [] => s
  | v :: l => State.writeMany (s.busWrite addr v) ((addr + 4) % 2 ^ 24) l

/-- A QSPI write. -/
def State.qspiWrite (s : State) (addr : Nat) (l : List Reg) : State := if s.qspi.ignore then s else s.writeMany addr l

/-- WRITE (R458). -/
def execWrite (addr : BitVec 24) (data : List Reg) (s : State) : Host.Outcome State Fault Refusal :=
  act (·.qspiWrite addr.toNat data) s

/-- QWRITE (R458). -/
def execQwrite (addr : BitVec 24) (data : List Reg) (s : State) : Host.Outcome State Fault Refusal :=
  act (·.qspiWrite addr.toNat data) s

/-- HOST_STS is returned `n` times. -/
def State.status (s : State) (n : Nat) : State :=
  if s.qspi.ignore then s else { s with rdata := List.replicate n (s.reg F.HOST.HOST_STS.BAD_OP.addr) }

/-- STATUS (R458). -/
def execStatus (n : Nat) (s : State) : Host.Outcome State Fault Refusal := act (·.status n) s

/-- An unknown opcode: the hub ignores the transaction until HOST_CS_N rises. -/
def State.badOp (s : State) : State :=
  if s.qspi.ignore then s
  else
    let s := ((s.setBit F.HOST.HOST_STS.BAD_OP true).count F.HOST.BAD_OP_CNT.CNT).raiseInt Irq.badOp
    { s with qspi := { s.qspi with ignore := true } }

/-- BAD_OP (R458). -/
def execBadOp (s : State) : Host.Outcome State Fault Refusal := act State.badOp s

/-- HOST_CS_N rises, within a data word or the address or not (R459). -/
def State.qspiEnd (s : State) (part : Bool) : State :=
  let s := s.when (part && !s.qspi.ignore) fun s => (s.setBit F.HOST.HOST_STS.PARTIAL true).count F.HOST.PARTIAL_CNT.CNT
  { s with qspi := { s.qspi with ignore := false, late := false } }

/-- QSPI_TRANSACTION_END (R459). -/
def execQspiTransactionEnd (part : Bool) (s : State) : Host.Outcome State Fault Refusal := act (·.qspiEnd part) s

/-! ## The capture window (R455, R456, R460) -/

/-- A read of WLO: on QSPI a word that is not ready is late. -/
def State.wloRead (s : State) (p : Path) (w : Nat) (ready : Bool) : State :=
  if p = .qspi ∧ (s.qspi.late ∨ ready = false) then { s.lateWord with rdata := [0] } else State.answer (s.readWlo p w false)

/-- WLO_READ (R456). -/
def execWloRead (p : Path) (w : BitVec 17) (ready : Bool) (s : State) : Host.Outcome State Fault Refusal :=
  act (·.wloRead p w.toNat ready) s

/-- A read of WHI: after a late word of the transaction it is late too. -/
def State.whiRead (s : State) (p : Path) (w : Nat) : State :=
  if p = .qspi ∧ s.qspi.late = true then { s.lateWord with rdata := [0] } else State.answer (s.readWhi p w)

/-- WHI_READ (R455). -/
def execWhiRead (p : Path) (w : BitVec 17) (s : State) : Host.Outcome State Fault Refusal := act (·.whiRead p w.toNat) s

end Sys2Proof.Machine
end

