-- ==== Sys2Proof/Machine/Mgmt.lean ====
section
/-!
DEFINITION. In-band management (R354 to R358, R360): the layout of a request, its authentication and replay check, its execution and the
response.
-/

namespace Sys2Proof.Machine

/-! ## The layout of a request (R355) -/

/-- NCMD. -/
def reqCount (ws : List Word) : Nat := getBits (wordLo (ws.headD 0)) 24 8

/-- KEY: the key slot. -/
def reqSlot (ws : List Word) : Bool := (ws.headD 0).getLsbD 16

/-- A word is a data word: V is set and every flag 0 (R355). -/
def plainWord (w : Word) : Bool := decide (wordHi w = 0x80)

/-- One command of a request: whether it is a write, the count of registers of a read, the address and the data; none if its pair of words
is not laid out as R355 says. -/
def reqCmd (a d : Word) : Option (Bool × Nat × Nat × Reg) :=
  let v := wordLo a
  let op := getBits v 30 2
  if (plainWord a && plainWord d) = false then none
  else if op = 0 ∧ wordLo d = 0 then some (false, getBits v 24 6 + 1, getBits v 0 24, 0)
  else if op = 1 ∧ getBits v 24 6 = 0 then some (true, 1, getBits v 0 24, wordLo d)
  else none

/-- Word 0 and the bytes after the tag are laid out as R355 says. -/
def reqFrameOk (ws : List Word) : Bool :=
  let w := ws.headD 0
  plainWord w && decide (wordLo w &&& 0x00FEFFFF#32 = 0) && decide ((ws.getLastD 0).toNat % 2 ^ 32 = 0)

/-- The commands of a request. -/
def reqCmds (ws : List Word) : List (Option (Bool × Nat × Nat × Reg)) :=
  (List.range (reqCount ws)).map fun i => reqCmd (ws.getD (2 * i + 1) 0) (ws.getD (2 * i + 2) 0)

/-- The words before the tag, and the tag's 128 bits; a payload of fewer words than a tag takes has none. -/
def reqTag (ws : List Word) : Option (List Word × Nat) :=
  if ws.length < 5 then none
  else
    let n := ws.length - 4
    let t (i : Nat) : Nat := (ws.getD (n + i) 0).toNat
    some (ws.take n, t 0 * 2 ^ 88 + t 1 * 2 ^ 48 + t 2 * 2 ^ 8 + t 3 / 2 ^ 32)

/-- The 128 bits of the tag that a key makes (R356). -/
def tagOf (key : BitVec 128) (h : HubHdr) (body : List Word) : Nat :=
  bytesNat (cmac (bytesBE 16 key.toNat) (hdrBytes h ++ wordsBytes body))

/-- The tag of a request verifies under the key of its slot. -/
def State.reqVerified (s : State) (h : HubHdr) (ws : List Word) : Bool :=
  match s.slotKey (reqSlot ws), reqTag ws with
  | some k, some (body, tag) => decide (tag = tagOf k h body)
  | _, _ => false

/-! ## What may be executed (R357) -/

/-- The registers that a command addresses. -/
def cmdAddrs (c : Bool × Nat × Nat × Reg) : List Nat := (List.range c.2.1).map fun i => (c.2.2.1 + 4 * i) % 2 ^ 24

/-- The registers that a command reads. -/
def cmdReads (c : Bool × Nat × Nat × Reg) : Nat := if c.1 then 0 else c.2.1

/-- STATUS of a request: 0 if it executes, 1 malformed, 2 more than 256 reads, 3 a protected register. -/
def reqStatus (wcount : Nat) (ws : List Word) : Nat :=
  let n := reqCount ws
  let cs := reqCmds ws
  if n = 0 ∨ 32 < n ∨ wcount ≠ 2 * n + 5 ∨ ws.length ≠ wcount ∨ reqFrameOk ws = false ∨ cs.contains none = true then 1
  else
    let l := cs.filterMap id
    if 256 < (l.map cmdReads).sum then 2
    else if (l.any fun c => (cmdAddrs c).any mgmtProtected) = true then 3
    else 0

/-! ## Execution (R357, R447) -/

/-- Registers are read one by one. -/
def State.mgmtRead (s : State) : List Nat → List Reg × State
  | [] => ([], s)
  | a :: l =>
    let x := s.busRead .inband a false
    let y := State.mgmtRead x.2 l
    (x.1 :: y.1, y.2)

/-- The commands of a request in order, with the values read. -/
def State.mgmtRun (s : State) : List (Bool × Nat × Nat × Reg) → List Reg × State
  | [] => ([], s)
  | c :: l =>
    let x : List Reg × State := if c.1 then ([], s.busWrite c.2.2.1 c.2.2.2) else s.mgmtRead (cmdAddrs c)
    let y := State.mgmtRun x.2 l
    (x.1 ++ y.1, y.2)

/-! ## The response (R358) -/

/-- The words of a response before its tag. -/
def respWords (seq ownId status n : Nat) (vals : List Reg) : List Word :=
  [dataWord seq, dataWord (ownId * 2 ^ 16 + status * 2 ^ 8 + n)] ++ vals.map fun v => dataWord v.toNat

/-- A response is handed to MGMT; that of a hub that follows travels over the pairing link. -/
def State.mgmtReply (s : State) (f : Frame) (slot : Bool) : State :=
  if s.follows then s.linkSend (.mgmt f slot)
  else (s.modNet fun n => { n with mgmtTx := n.mgmtTx ++ [(f, some slot)] }).txAsk 64

/-- LAST_CTR takes the counter of an accepted request; the key partition takes it when it crosses a multiple of 1,024 (R356, R360). -/
def State.takeCtr (s : State) (slot : Bool) (seq : Nat) : State :=
  let old := s.fld (lastCtrFld slot)
  let s := s.setFld (lastCtrFld slot) seq
  s.when (decide (old / 1024 ≠ seq / 1024)) fun s => s.modMram fun m => m.setCtr slot seq

/-- A request whose tag and counter have been accepted is executed and answered. -/
def State.mgmtExec (s : State) (src : Nat) (h : HubHdr) (ws : List Word) : State :=
  let slot := reqSlot ws
  let s := s.takeCtr slot h.seq
  let st := reqStatus h.wcount ws
  let x : List Reg × State := if st = 0 then s.mgmtRun ((reqCmds ws).filterMap id) else ([], s)
  let s := x.2
  let s := if st = 0 then s.count F.HSR.MGMT_OK_CNT.CNT else s.count F.HSR.MGMT_ERR_CNT.CNT
  let n := if st = 0 then reqCount ws else 0
  s.mgmtReply (s.ctrlFrame src 6 (respWords h.seq (s.fld F.HSR.HUB_ID.OWN_ID) st n x.1)) slot

/-- A request is authenticated, then its counter is checked (R356). -/
def State.mgmtCheck (s : State) (src : Nat) (h : HubHdr) (payload : List Word) : State :=
  let ws := payload.take h.wcount
  if s.reqVerified h ws = false then (s.count F.HSR.MGMT_AUTH_FAIL_CNT.CNT).raiseInt Irq.authFail
  else if h.seq ≤ s.fld (lastCtrFld (reqSlot ws)) then (s.count F.HSR.MGMT_REPLAY_CNT.CNT).raiseInt Irq.replay
  else s.mgmtExec src h ws

/-- The oldest request that waits. -/
def State.mgmtNext (s : State) : State :=
  match s.net.mgmtRx with
  | [] => s
  | f :: rest =>
    let s := s.modNet fun n => { n with mgmtRx := rest }
    match f.body with
    | .hub _ h ws => if s.bit F.HSR.HSR_CTL.MGMT_EN then s.mgmtCheck f.src h ws else s
    | _ => s

/-- MGMT_REQUEST (R356). -/
def execMgmtRequest (s : State) : Host.Outcome State Fault Refusal := act State.mgmtNext s

end Sys2Proof.Machine
end

