-- ==== Sys2Proof/Machine/Boot.lean ====
section
/-!
DEFINITION. Reset and start-up (R465 to R474, R516, R220, R437), the measurement of the fabric's speed (R463, R470) and the
boundary-scan port (R503). One command runs the steps of start-up from the rise of RESET_N to the
self-test of step 7, and the end of the self-test those behind it, up to step 9 (log entry 15).
-/

namespace Sys2Proof.Machine

/-! ## Reset (R466) -/

/-- RESET_N is low: every block is reset at once and held. A save in progress ends with its copy invalid. -/
def execReset (s : State) : Host.Outcome State Fault Refusal := .next (s.cleared.modPower fun p => { p with held := true })

/-! ## The steps of start-up (R468) -/

/-- Time runs on to the end of a step, at most `lim` ns after RESET_N rose; hub time began `d` ns after it. The instant itself is free
(log entry 3). -/
def State.bootTo (s : State) (d lim : Nat) : State :=
  let (x, s) := s.drawFree
  s.runCycles (x % (((lim - d - s.elapsedNs) / 2 + 1 : Nat) : Int)).toNat

/-- Step 1: PAIR_ROLE and TEST_EN are sampled. -/
def State.bootSample (s : State) (strap testEn : Bool) : State :=
  (s.setBit F.PAIR.PAIR_STS.STRAP strap).modPower fun p => { p with testEn := testEn }

/-- A slath copy as it is found at start-up: one that fails a condition of R472 is not valid. -/
def slathFound (c : SlathCopy) : SlathCopy := { c with valid := slathValid c, crc := slathCrcShown c }

/-- Step 2: the check of the slath copies. -/
def State.bootCheck (s : State) : State :=
  s.modMram fun m => { m with slathA := slathFound m.slathA, slathB := slathFound m.slathB }

/-- One copy is valid and the other neither valid nor empty (R472). -/
def Mram.slathCopyBad (m : Mram) : Bool :=
  (m.slathA.valid && !m.slathB.valid && !m.slathB.blank) || (m.slathB.valid && !m.slathA.valid && !m.slathA.blank)

/-- Step 4: the RESET entry, the faults held since step 2 in increasing source code, and those of BIST (R433, R437, R470, R516). -/
def State.bootLog (s : State) (strap testEn : Bool) (bist : BitVec 25) : State :=
  let m := s.mram
  let s := s.rimEvent evReset (b2n strap * 2 + b2n testEn)
  let s := s.when m.slathCopyBad fun s => s.raiseFault Flt.slathCopyBad
  let s := s.when (m.slathNewer.isNone) fun s => s.raiseFault Flt.slathBothBad
  let s := s.when (!m.factoryOk) fun s => s.raiseFault Flt.factoryBad
  let s := s.setReg F.NVM.BIST_STS.CAPBANK.addr (bist.setWidth 32)
  let s := s.each ((List.range 25).filter fun i => bist.getLsbD i) fun s _ => s.raiseFault Flt.bistFail
  let s := s.when (!m.rimA.valid) fun s => s.raiseFault Flt.rimCopyBad
  let s := s.when (!m.rimB.valid) fun s => s.raiseFault Flt.rimCopyBad
  (s.setBit F.NVM.BOOT_STS.BIST_OK (decide (bist = 0))).setBit F.NVM.BOOT_STS.FACTORY_OK m.factoryOk

/-- The fabric's speed is measured (R463). Below the slow corner the time that it stays there begins (R470). -/
def State.fabricRate (s : State) (rate : BitVec 16) : State :=
  let s := (s.setFld F.CHIP.FABRIC_RATE.RATE rate.toNat).setFld F.CHIP.FABRIC_RATE.RATE_MIN
    (min (s.fld F.CHIP.FABRIC_RATE.RATE_MIN) rate.toNat)
  s.modPower fun p => { p with slow := if rate.toNat < 0x100 then p.slow.or (some (s.time.cycles, false)) else none }

/-- Step 5: the speed check. -/
def State.bootSpeed (s : State) (rate : BitVec 16) : State :=
  (s.fabricRate rate).setBit F.NVM.BOOT_STS.SPEED_OK (decide (0x100 ≤ rate.toNat))

/-! ## Loading the slath image (R472, R473) -/

/-- The registers of an image that do more than hold their value when they are written. TICK_CTL acts at step 9, and PAIR_EN when the
image has been loaded. -/
def bootActs (a : Nat) : Bool :=
  let g := pageOf a
  let o := offOf a
  decide (o = 0x014)
    || (decide (o = 0x040) && (decide (g = pgTIME) || decide (g = pgARBMEM) || decide (g = pgARBTX) || decide (g = 0x00E)
        || decide (g = 0x00F) || decide (g = pgHSR) || decide (g = pgWALE)))
    || (decide (g = pgARBMEM) && decide (o = 0x048)) || (decide (g = pgARBTX) && decide (0x100 ≤ o) && decide (o ≤ 0x110))
    || (decide (0x020 ≤ g) && decide (g ≤ 0x03F) && decide (o = 0x054))
    || (decide (g = pgSENT) && decide (0x100 ≤ o) && decide ((o - 0x100) % 0x20 = 0))

/-- One word of the image is loaded. -/
def State.bootWord (s : State) (e : Nat × Reg) : State :=
  if bootActs e.1 then
    let m := BitVec.ofNat 32 (slathMask e.1)
    s.regWrite e.1 ((s.reg e.1 &&& ~~~ m) ||| (e.2 &&& m))
  else s.slathWord e

/-- The inputs are seen: Px_LOS and BLANK_N_n. -/
def State.bootPins (s : State) : State :=
  let los (s : State) (p : Port) : State := (s.setBit (F.PORT.PORT_STS.LOS (portNum p)) (s.getPort p).los).portEval p
  (los (los s .a) .b).each (List.range 32) State.blankEval

/-- The image of copy `b` is loaded: its words, and the BOOT entry. -/
def State.bootImage (s : State) (b : Bool) : State :=
  let c := s.mram.getSlath b
  let s := s.each c.image State.bootWord
  let s := ((s.setBit F.NVM.BOOT_STS.LOADED true).setBit F.NVM.BOOT_STS.COPY b).setFld F.NVM.SLATH_LEN.WORDS slathLen
  s.rimEvent evBoot (c.gen % 2 ^ 31 * 2 + b2n b)

/-- One decade factor is loaded, as running and as staged value (R144, R514; log entry 82). -/
def State.bootFactor (s : State) (c k f : Nat) : State :=
  let a := (decFld c k).addr
  (s.setReg a (BitVec.ofNat 32 (f % 2 ^ 24))).setStg a (BitVec.ofNat 32 (f % 2 ^ 24))

/-- The decade factors come from the factory-trim partition; where its check fails they are 1 (R144, R470). -/
def State.bootFactors (s : State) : State :=
  if s.mram.factoryOk then s.each s.mram.decF fun s e => s.bootFactor (e.1 / 4) (e.1 % 4) e.2
  else s.each (List.range 2048) fun s e => s.bootFactor (e / 4) (e % 4) (2 ^ 20)

/-- The counters of in-band management start above those stored (R360). They cross a multiple of 1,024 with it, so the key partition takes
them: a counter accepted before the next crossing is not accepted again after the next reset. -/
def State.bootCtrs (s : State) : State :=
  let top (slot : Bool) : Nat := satNat (2 ^ 32 - 1) (s.mram.ctr slot + 1024)
  let f := top false
  let t := top true
  ((s.setFld (lastCtrFld false) f).setFld (lastCtrFld true) t).modMram fun m => (m.setCtr false f).setCtr true t

/-- Step 6: the image is loaded if a copy is valid, and what it configures starts (R301, R380, R472). -/
def State.bootLoad (s : State) : State :=
  let s := s.bootPins
  let s := match s.mram.slathNewer with
    | some b => s.bootImage b
    | none => s.setBit F.NVM.BOOT_STS.DEFAULTS true
  let s := s.bootFactors.bootCtrs
  let s := (s.each ((List.range 64).filter s.qEn) State.qEnable).dacAll
  if s.bit F.PAIR.PAIR_CTL.PAIR_EN then s.enterJoining else s

/-- Step 2 again: the reference that the image selects (R363). -/
def State.bootRef (s : State) : State :=
  match s.mram.slathNewer with
  | some b => s.setBit F.WALE.WALE_STS.REF_WCLK ((sget (resetWord F.WALE.WALE_CTL.REF_SEL.addr)
      (s.mram.getSlath b).image F.WALE.WALE_CTL.REF_SEL.addr).getLsbD 3)
  | none => s

/-! ## Calibration and the grid -/

/-- One calibration copy is valid and the other neither valid nor empty (R220). -/
def Mram.calCopyBad (m : Mram) : Bool :=
  (m.calA.valid && !m.calB.valid && decide (m.calB.gen ≠ 0)) || (m.calB.valid && !m.calA.valid && decide (m.calA.gen ≠ 0))

/-- Step 7: the calibration copy is loaded and the self-test of all slices begins; without a valid copy calibration is STOPPED at the
factory parameters (R214, R220). -/
def State.bootCal (s : State) : State :=
  match s.mram.calNewer with
  | some b => (s.when s.mram.calCopyBad fun s => s.raiseFault Flt.calCopyBad).calLoad (s.mram.getCal b) |>.startTest
  | none => (s.raiseFault Flt.calBothBad).calStop

/-- Step 9: the tick generator starts with the first grid instant from now on, marked contexts are armed, and the hub is AWAKE (R103, R474, R476). -/
def State.bootTicks (s : State) (marks : List Nat) : State :=
  let s := s.modGrid fun g => { g with cur := s.countAt (s.finePos / 2 ^ 25) }
  let s := s.setFld F.TICK.TICK_STS.STATE s.gridTarget
  let s := s.each marks fun s x => s.writeCmd (Fin.ofNat 256 x) 1#32
  ((s.setPwr pwAwake).setBit F.NVM.BOOT_STS.DONE true).raiseInt Irq.bootDone

/-- The arm marks of the image that is loaded. -/
def Mram.slathMarks (m : Mram) : List Nat :=
  match m.slathNewer with
  | some b => (m.getSlath b).marks
  | none => []

/-- BOOT_TIME, counted from the rise of RESET_N. -/
def State.bootTime (s : State) : State :=
  let (us, s) := s.roundFree ((s.power.bootLate + s.power.bootLead + s.elapsedNs : Nat) : Int) 1000
  s.setFld F.NVM.BOOT_TIME.US (satNat (2 ^ 32 - 1) us.toNat)

/-- The steps of start-up behind the self-test, up to step 9. -/
def State.bootFinish (s : State) : State :=
  let s := (s.bootTo s.power.bootLead 44800000).bootTime.setFld F.NVM.BOOT_STS.STEP 9
  s.bootTicks s.mram.slathMarks

/-- The steps of start-up, from the rise of RESET_N on. Each ends at an instant of its own within its limit. Where a calibration copy is
loaded, step 7 ends with its self-test, and the rest waits for it; `late` is the time by which a restart follows the rise of RESET_N. -/
def State.startUp (s : State) (strap testEn : Bool) (bist : BitVec 25) (rate : BitVec 16) (late : Nat) : State :=
  let s := (s.cleared.bootSample strap testEn).bootCheck.bootRef
  let (x, s) := s.drawFree
  let d := 2 * (x % 1000001).toNat
  let s := s.modPower fun p => { p with bootLead := d, bootLate := late }
  let s := (s.bootTo d 22000000).bootLog strap testEn bist
  let s := (s.bootTo d 23000000).bootSpeed rate
  let s := ((s.bootTo d 32000000).setFld F.NVM.BOOT_STS.STEP 6).bootLoad
  let s := (s.bootTo d 34000000).bootCal
  if s.calSt = calSelftest then s else s.bootFinish

/-- A self-test completes; that of start-up ends step 7, and the steps behind it follow (R208, R468). -/
def State.testComplete (s : State) (n : Nat) (r : SelfTest) : State :=
  let s := s.selfTestDone n r
  if s.booting ∧ s.calSt ≠ calSelftest then s.bootFinish else s

/-- SELFTEST_COMPLETE (R208). -/
def execSelftestComplete (sl : Fin 34) (r : SelfTest) (s : State) : Host.Outcome State Fault Refusal :=
  act (·.testComplete sl.val r) s

/-- Start-up from step 1; with PFW_N asserted it is abandoned (R467). -/
def State.boot (s : State) (strap testEn : Bool) (bist : BitVec 25) (rate : BitVec 16) (late : Nat) : State :=
  if s.power.pfw then s.pfwAbandon else (settle (s.startUp strap testEn bist rate late)).sealed s

/-- RESET_RELEASE (R468): RESET_N rises, or has just risen. -/
def execResetRelease (pairRole testEn : Bool) (bistFail : BitVec 25) (rate : BitVec 16) (s : State) :
    Host.Outcome State Fault Refusal :=
  .next (if s.power.held || (!s.power.abandoned && decide (s.fld F.NVM.BOOT_STS.STEP = 0)) then s.boot pairRole testEn bistFail rate 0 else s)

/-- A restart: the rise of RESET_N came before the start-up that was abandoned, by a time in ns that is free (log entry 3). -/
def State.bootAgain (s : State) (strap testEn : Bool) (bist : BitVec 25) (rate : BitVec 16) : State :=
  let (x, s) := s.drawFree
  s.boot strap testEn bist rate x.toNat

/-- BOOT_RESTART (R467): PFW_N has been high for 1 ms after an abandoned start-up. -/
def execBootRestart (pairRole testEn : Bool) (bistFail : BitVec 25) (rate : BitVec 16) (s : State) :
    Host.Outcome State Fault Refusal :=
  .next (if s.power.abandoned && !s.power.held && !s.power.pfw then s.bootAgain pairRole testEn bistFail rate else s)

/-! ## The speed of the fabric (R463, R470) -/

/-- FABRIC_RATE_MEASURE (R463). -/
def execFabricRateMeasure (rate : BitVec 16) (s : State) : Host.Outcome State Fault Refusal := act (·.fabricRate rate) s

/-- RATE stays below the slow corner for more than 10 ms, from step 5 on: one fault for each time it does. -/
def State.fabricIsSlow (s : State) : State :=
  match s.power.slow with
  | some (at_, false) =>
    if 5 ≤ s.fld F.NVM.BOOT_STS.STEP then
      ((s.reachCycles (at_ + 5000001)).modPower fun p => { p with slow := some (at_, true) }).raiseFault Flt.fabricSlow
    else s
  | _ => s

/-- FABRIC_SLOW (R470). -/
def execFabricSlow (s : State) : Host.Outcome State Fault Refusal := act State.fabricIsSlow s

/-! ## Boundary scan (R503) -/

/-- JTAG_INSTRUCTION (R503): the instruction is in force; the port has no access to the registers. -/
def execJtagInstruction (op : JtagOp) (s : State) : Host.Outcome State Fault Refusal :=
  .next (s.modPins fun p => { p with jtag := some op })

end Sys2Proof.Machine
end

