-- ==== Sys2Proof/Machine/Dispatch.lean ====
section
/-!
DEFINITION. The meaning of every command: one arm per row of spec/opcode_table.json.
-/

namespace Sys2Proof.Machine

/-- What a command does to everything but the queue of waiting commands. -/
def exec (i : Instr) (s : State) : Host.Outcome State Fault Refusal :=
  match i with
  | .registerWrite path addr v => Sys2Proof.Machine.execRegisterWrite path addr v s
  | .secondBoundary => Sys2Proof.Machine.execSecondBoundary s
  | .hostOffsetSubmit v => Sys2Proof.Machine.execHostOffsetSubmit v s
  | .srcChange src => Sys2Proof.Machine.execSrcChange src s
  | .freqIntWrite v => Sys2Proof.Machine.execFreqIntWrite v s
  | .applyStep => Sys2Proof.Machine.execApplyStep s
  | .slewAccept => Sys2Proof.Machine.execSlewAccept s
  | .servoRestart => Sys2Proof.Machine.execServoRestart s
  | .stepApplied => Sys2Proof.Machine.execStepApplied s
  | .holdoverEntry => Sys2Proof.Machine.execHoldoverEntry s
  | .holdoverExpired => Sys2Proof.Machine.execHoldoverExpired s
  | .pllUnlock => Sys2Proof.Machine.execPllUnlock s
  | .refclkLoss => Sys2Proof.Machine.execRefclkLoss s
  | .syncRx p m => Sys2Proof.Machine.execSyncRx p m s
  | .followUpRx p m => Sys2Proof.Machine.execFollowUpRx p m s
  | .followUpTimeout => Sys2Proof.Machine.execFollowUpTimeout s
  | .announceRx p m => Sys2Proof.Machine.execAnnounceRx p m s
  | .masterSilence => Sys2Proof.Machine.execMasterSilence s
  | .masterLost => Sys2Proof.Machine.execMasterLost s
  | .portSwitch => Sys2Proof.Machine.execPortSwitch s
  | .pdelayReqSend okA okB => Sys2Proof.Machine.execPdelayReqSend okA okB s
  | .pdelayRespRx p m => Sys2Proof.Machine.execPdelayRespRx p m s
  | .pdelayFail p => Sys2Proof.Machine.execPdelayFail p s
  | .pdelayReqRx p m => Sys2Proof.Machine.execPdelayReqRx p m s
  | .tcEntryExpire ingress => Sys2Proof.Machine.execTcEntryExpire ingress s
  | .ppsOutPulse => Sys2Proof.Machine.execPpsOutPulse s
  | .ppsInEdge rising t => Sys2Proof.Machine.execPpsInEdge rising t s
  | .nowNsRead path => Sys2Proof.Machine.execNowNsRead path s
  | .nowSecHiRead path => Sys2Proof.Machine.execNowSecHiRead path s
  | .ppsInNsRead path => Sys2Proof.Machine.execPpsInNsRead path s
  | .ppsInSecHiRead path => Sys2Proof.Machine.execPpsInSecHiRead path s
  | .lastOffsetLoRead path => Sys2Proof.Machine.execLastOffsetLoRead path s
  | .pendingOffsetLoRead path => Sys2Proof.Machine.execPendingOffsetLoRead path s
  | .gridInstant echoBad => Sys2Proof.Machine.execGridInstant echoBad s
  | .tickCommitApply => Sys2Proof.Machine.execTickCommitApply s
  | .tickEnWrite v => Sys2Proof.Machine.execTickEnWrite v s
  | .tjMeasure t => Sys2Proof.Machine.execTjMeasure t s
  | .wsyncAlign arrival => Sys2Proof.Machine.execWsyncAlign arrival s
  | .qreset g mask => Sys2Proof.Machine.execQreset g mask s
  | .overloadChange c firing => Sys2Proof.Machine.execOverloadChange c firing s
  | .excRegulate g mean need => Sys2Proof.Machine.execExcRegulate g mean need s
  | .excLow g => Sys2Proof.Machine.execExcLow g s
  | .exdMon g => Sys2Proof.Machine.execExdMon g s
  | .blankEdge n level => Sys2Proof.Machine.execBlankEdge n level s
  | .blankGuardExpire g => Sys2Proof.Machine.execBlankGuardExpire g s
  | .blankCtlWrite g v => Sys2Proof.Machine.execBlankCtlWrite g v s
  | .weaveDelay sl => Sys2Proof.Machine.execWeaveDelay sl s
  | .conversionComplete sl r => Sys2Proof.Machine.execConversionComplete sl r s
  | .convTimeout sl => Sys2Proof.Machine.execConvTimeout sl s
  | .passEnd sl => Sys2Proof.Machine.execPassEnd sl s
  | .weaveWrite sl bank e v => Sys2Proof.Machine.execWeaveWrite sl bank e v s
  | .sliceCommitApply sl => Sys2Proof.Machine.execSliceCommitApply sl s
  | .resLoRead path c => Sys2Proof.Machine.execResLoRead path c s
  | .resHiRead path c => Sys2Proof.Machine.execResHiRead path c s
  | .sentinelCrossing n below t => Sys2Proof.Machine.execSentinelCrossing n below t s
  | .sentAdcComplete code => Sys2Proof.Machine.execSentAdcComplete code s
  | .sentAdcTimeout => Sys2Proof.Machine.execSentAdcTimeout s
  | .sentCfgWrite n v => Sys2Proof.Machine.execSentCfgWrite n v s
  | .evtNs32Read path n => Sys2Proof.Machine.execEvtNs32Read path n s
  | .evtValueRead path n => Sys2Proof.Machine.execEvtValueRead path n s
  | .calPhaseEnd => Sys2Proof.Machine.execCalPhaseEnd s
  | .calDecide => Sys2Proof.Machine.execCalDecide s
  | .dwellAbandon => Sys2Proof.Machine.execDwellAbandon s
  | .rotationEnd => Sys2Proof.Machine.execRotationEnd s
  | .selftestComplete sl r => Sys2Proof.Machine.execSelftestComplete sl r s
  | .sliceSwapApply g => Sys2Proof.Machine.execSliceSwapApply g s
  | .calSaveDone ok => Sys2Proof.Machine.execCalSaveDone ok s
  | .saveNow => Sys2Proof.Machine.execSaveNow s
  | .reinit ok => Sys2Proof.Machine.execReinit ok s
  | .rotRestart => Sys2Proof.Machine.execRotRestart s
  | .calEnWrite en => Sys2Proof.Machine.execCalEnWrite en s
  | .calCommitApply => Sys2Proof.Machine.execCalCommitApply s
  | .streamMaxAge c => Sys2Proof.Machine.execStreamMaxAge c s
  | .maxAgeWrite v => Sys2Proof.Machine.execMaxAgeWrite v s
  | .rainPeriodicDump c => Sys2Proof.Machine.execRainPeriodicDump c s
  | .dumpNow g mask => Sys2Proof.Machine.execDumpNow g mask s
  | .rainCommitApply c => Sys2Proof.Machine.execRainCommitApply c s
  | .tapsWrite fs v => Sys2Proof.Machine.execTapsWrite fs v s
  | .coefWrite fs bank t v => Sys2Proof.Machine.execCoefWrite fs bank t v s
  | .firsetCommitApply fs => Sys2Proof.Machine.execFirsetCommitApply fs s
  | .chtabCommitApply g => Sys2Proof.Machine.execChtabCommitApply g s
  | .arm x => Sys2Proof.Machine.execArm x s
  | .abort x => Sys2Proof.Machine.execAbort x s
  | .release x => Sys2Proof.Machine.execRelease x s
  | .swTrig x => Sys2Proof.Machine.execSwTrig x s
  | .ctxFillStart x => Sys2Proof.Machine.execCtxFillStart x s
  | .triggerDecision x => Sys2Proof.Machine.execTriggerDecision x s
  | .timerTrigger x => Sys2Proof.Machine.execTimerTrigger x s
  | .holdoffExpire x => Sys2Proof.Machine.execHoldoffExpire x s
  | .readoutStart => Sys2Proof.Machine.execReadoutStart s
  | .readoutPacket eng => Sys2Proof.Machine.execReadoutPacket eng s
  | .scrubBurst => Sys2Proof.Machine.execScrubBurst s
  | .rtxSend now => Sys2Proof.Machine.execRtxSend now s
  | .pendingMarkerWrite q => Sys2Proof.Machine.execPendingMarkerWrite q s
  | .qCommitApply q => Sys2Proof.Machine.execQCommitApply q s
  | .flush q => Sys2Proof.Machine.execFlush q s
  | .flushEffect q => Sys2Proof.Machine.execFlushEffect q s
  | .dataLoRead path q => Sys2Proof.Machine.execDataLoRead path q s
  | .dataHiRead path q => Sys2Proof.Machine.execDataHiRead path q s
  | .arbMemGrant req => Sys2Proof.Machine.execArbMemGrant req s
  | .arbTxGrant => Sys2Proof.Machine.execArbTxGrant s
  | .freeze arb on => Sys2Proof.Machine.execFreeze arb on s
  | .classWrite arb w v => Sys2Proof.Machine.execClassWrite arb w v s
  | .starve arb n ns => Sys2Proof.Machine.execStarve arb n ns s
  | .portModeWrite p v => Sys2Proof.Machine.execPortModeWrite p v s
  | .losChange p level => Sys2Proof.Machine.execLosChange p level s
  | .portSyncChange p sync rf an errs => Sys2Proof.Machine.execPortSyncChange p sync rf an s errs
  | .portUp p => Sys2Proof.Machine.execPortUp p s
  | .nodeModeWrite v => Sys2Proof.Machine.execNodeModeWrite v s
  | .frameRx p f stampOk fits => Sys2Proof.Machine.execFrameRx p f stampOk fits s
  | .localFrameSend p => Sys2Proof.Machine.execLocalFrameSend p s
  | .ddForget => Sys2Proof.Machine.execDdForget s
  | .mgmtRequest => Sys2Proof.Machine.execMgmtRequest s
  | .keyStore slot => Sys2Proof.Machine.execKeyStore slot s
  | .keyStoreDone ok => Sys2Proof.Machine.execKeyStoreDone ok s
  | .measCmd lines => Sys2Proof.Machine.execMeasCmd lines s
  | .measAttempt delay => Sys2Proof.Machine.execMeasAttempt delay s
  | .waleEcho line => Sys2Proof.Machine.execWaleEcho line s
  | .lineMeasDone => Sys2Proof.Machine.execLineMeasDone s
  | .walePulseRx line t cls => Sys2Proof.Machine.execWalePulseRx line t cls s
  | .wclkLoss long => Sys2Proof.Machine.execWclkLoss long s
  | .wsyncLost => Sys2Proof.Machine.execWsyncLost s
  | .pairEnWrite en => Sys2Proof.Machine.execPairEnWrite en s
  | .yield => Sys2Proof.Machine.execYield s
  | .rejoin => Sys2Proof.Machine.execRejoin s
  | .forceActive => Sys2Proof.Machine.execForceActive s
  | .pairCommit => Sys2Proof.Machine.execPairCommit s
  | .hcRestart => Sys2Proof.Machine.execHcRestart s
  | .codesRecordRx g tickIdx n codes => Sys2Proof.Machine.execCodesRecordRx g tickIdx n codes s
  | .decisionRecordRx d => Sys2Proof.Machine.execDecisionRecordRx d s
  | .intervalClose => Sys2Proof.Machine.execIntervalClose s
  | .tickRecordRx r => Sys2Proof.Machine.execTickRecordRx r s
  | .ackRx interval agree => Sys2Proof.Machine.execAckRx interval agree s
  | .timeRecordRx offset delay => Sys2Proof.Machine.execTimeRecordRx offset delay s
  | .stepRecordRx boundary e => Sys2Proof.Machine.execStepRecordRx boundary e s
  | .healthRecordRx h => Sys2Proof.Machine.execHealthRecordRx h s
  | .configRecordRx digest commit cancel => Sys2Proof.Machine.execConfigRecordRx digest commit cancel s
  | .factorsRecordRx c f0 f1 f2 f3 => Sys2Proof.Machine.execFactorsRecordRx c f0 f1 f2 f3 s
  | .mgmtRecordRx f slot => Sys2Proof.Machine.execMgmtRecordRx f slot s
  | .yieldRecordRx seqs hsr => Sys2Proof.Machine.execYieldRecordRx seqs hsr s
  | .pairLinkRetry rec => Sys2Proof.Machine.execPairLinkRetry s rec
  | .pairLinkDown => Sys2Proof.Machine.execPairLinkDown s
  | .pairLinkUp => Sys2Proof.Machine.execPairLinkUp s
  | .laneLoss lane => Sys2Proof.Machine.execLaneLoss lane s
  | .startWaitExpire => Sys2Proof.Machine.execStartWaitExpire s
  | .pairPresentChange present => Sys2Proof.Machine.execPairPresentChange present s
  | .timeoutTakeover => Sys2Proof.Machine.execTimeoutTakeover s
  | .yieldNAssert low => Sys2Proof.Machine.execYieldNAssert s low
  | .yieldRecordTimeout => Sys2Proof.Machine.execYieldRecordTimeout s
  | .yieldAbandon => Sys2Proof.Machine.execYieldAbandon s
  | .takeNAssert => Sys2Proof.Machine.execTakeNAssert s
  | .takeoverExdEnable => Sys2Proof.Machine.execTakeoverExdEnable s
  | .ackTimeout => Sys2Proof.Machine.execAckTimeout s
  | .rejoinAutoExpire => Sys2Proof.Machine.execRejoinAutoExpire s
  | .standbyDacTrim g need => Sys2Proof.Machine.execStandbyDacTrim g need s
  | .pairCommitApply => Sys2Proof.Machine.execPairCommitApply s
  | .pairCommitAckTimeout => Sys2Proof.Machine.execPairCommitAckTimeout s
  | .fltStsWrite page v => Sys2Proof.Machine.execFltStsWrite page v s
  | .fltFirstRearm page => Sys2Proof.Machine.execFltFirstRearm page s
  | .fltCaptureClose page => Sys2Proof.Machine.execFltCaptureClose page s
  | .intStsWrite page v => Sys2Proof.Machine.execIntStsWrite page v s
  | .irqHoldoffExpire page => Sys2Proof.Machine.execIrqHoldoffExpire page s
  | .testKeyWrite key => Sys2Proof.Machine.execTestKeyWrite key s
  | .fltInjWrite page v => Sys2Proof.Machine.execFltInjWrite page v s
  | .rimCopyDone ok => Sys2Proof.Machine.execRimCopyDone ok s
  | .unfreeze => Sys2Proof.Machine.execUnfreeze s
  | .rimSave => Sys2Proof.Machine.execRimSave s
  | .rimClear => Sys2Proof.Machine.execRimClear s
  | .rdSelWrite v => Sys2Proof.Machine.execRdSelWrite v s
  | .rimSnapshotReady => Sys2Proof.Machine.execRimSnapshotReady s
  | .hostNote v => Sys2Proof.Machine.execHostNote v s
  | .pfwAssert => Sys2Proof.Machine.execPfwAssert s
  | .supplyRange which => Sys2Proof.Machine.execSupplyRange which s
  | .fabricWdog page => Sys2Proof.Machine.execFabricWdog page s
  | .commit page => Sys2Proof.Machine.execCommit page s
  | .commitAtTick page => Sys2Proof.Machine.execCommitAtTick page s
  | .cancel page => Sys2Proof.Machine.execCancel page s
  | .scheduledCommitRelease page => Sys2Proof.Machine.execScheduledCommitRelease page s
  | .wloRead path w ready => Sys2Proof.Machine.execWloRead path w ready s
  | .whiRead path w => Sys2Proof.Machine.execWhiRead path w s
  | .lastIdxLoRead path => Sys2Proof.Machine.execLastIdxLoRead path s
  | .schedIdxLoRead path => Sys2Proof.Machine.execSchedIdxLoRead path s
  | .takeoverIdxLoRead path => Sys2Proof.Machine.execTakeoverIdxLoRead path s
  | .read addr ready => Sys2Proof.Machine.execRead addr ready s
  | .qread addr ready => Sys2Proof.Machine.execQread addr ready s
  | .qreadPair addr ready => Sys2Proof.Machine.execQreadPair addr ready s
  | .write addr data => Sys2Proof.Machine.execWrite addr data s
  | .qwrite addr data => Sys2Proof.Machine.execQwrite addr data s
  | .status n => Sys2Proof.Machine.execStatus n s
  | .badOp => Sys2Proof.Machine.execBadOp s
  | .qspiTransactionEnd partialWord => Sys2Proof.Machine.execQspiTransactionEnd partialWord s
  | .fabricRateMeasure rate => Sys2Proof.Machine.execFabricRateMeasure rate s
  | .fabricSlow => Sys2Proof.Machine.execFabricSlow s
  | .reset => Sys2Proof.Machine.execReset s
  | .resetRelease pairRole testEn bistFail rate => Sys2Proof.Machine.execResetRelease pairRole testEn bistFail rate s
  | .bootRestart pairRole testEn bistFail rate => Sys2Proof.Machine.execBootRestart pairRole testEn bistFail rate s
  | .slathSave => Sys2Proof.Machine.execSlathSave s
  | .slathSaveDone ok => Sys2Proof.Machine.execSlathSaveDone ok s
  | .sleep => Sys2Proof.Machine.execSleep s
  | .wake => Sys2Proof.Machine.execWake s
  | .sleepEntered => Sys2Proof.Machine.execSleepEntered s
  | .wakeAt => Sys2Proof.Machine.execWakeAt s
  | .wakeSettled => Sys2Proof.Machine.execWakeSettled s
  | .healthLossWake => Sys2Proof.Machine.execHealthLossWake s
  | .sentinelArm n => Sys2Proof.Machine.execSentinelArm n s
  | .pllRelock => Sys2Proof.Machine.execPllRelock s
  | .pfwDeassert => Sys2Proof.Machine.execPfwDeassert s
  | .takeNRelease => Sys2Proof.Machine.execTakeNRelease s
  | .excSenseRestored g => Sys2Proof.Machine.execExcSenseRestored g s
  | .supplyRestored which => Sys2Proof.Machine.execSupplyRestored which s
  | .wclkRestored => Sys2Proof.Machine.execWclkRestored s
  | .jtagInstruction op => Sys2Proof.Machine.execJtagInstruction op s

end Sys2Proof.Machine
end

