-- ==== Sys2Proof/Machine/Idle.lean ====
section
/-!
DEFINITION. What the hub does while no command waits: one cycle of its counter clock passes (R49), and what falls due in that cycle
happens: the second boundary, a scheduled step, the grid instant, and the records a pair sends every millisecond (log entry 6).
-/

namespace Sys2Proof.Machine

/-- Some fault of class CONT is set on some page. -/
def State.anyCont (s : State) : Bool :=
  headerPages.any fun p => (List.range 11).any fun b => match faultOf p b with
    | some f => decide (f.cls = clsCont) && s.faultSet f
    | none => false

/-- The HEALTH record of this hub (R383, R427). -/
def State.ownHealth (s : State) : HealthRec where
  role := s.role
  strap := s.bit F.PAIR.PAIR_STS.STRAP
  fatal := s.anyFatal
  cont := s.anyCont
  pfw := s.power.pfw
  calState := s.calSt
  ownId := s.fld F.HSR.HUB_ID.OWN_ID
  hcFail := if s.role = roleStandby then (List.finRange 512).filter fun c => s.bit (hcFailFld c.val) else []
  due := s.pair.due

/-- A millisecond of elapsed time has passed whose records are not sent: a hub of a pair sends a TIME and a HEALTH record; each due in-band
interrupt goes out once. Milliseconds that a command let pass are made up for one at a time (R383, R427; log entry 6). -/
def State.linkMs (s : State) : State :=
  let ms := s.time.cycles / 500000
  if s.role = roleSolo ∨ s.bit F.PAIR.PAIR_STS.LINK_UP = false then s.modPair fun p => { p with msDone := ms }
  else if s.pair.msDone < ms then
    ((s.linkSend (.time s.now s.pair.heard)).linkSend (.health s.ownHealth)).modPair fun p => { p with due := [], msDone := p.msDone + 1 }
  else s

/-- A second boundary that the cycle has crossed: the step scheduled for it, or the boundary itself. -/
def State.idleSecond (s : State) : State :=
  if s.time.crossed then (if s.stepAt s.nextSecond then s.stepApplied else s.secondBoundary) else s

/-- A grid instant that lies in the cycle now beginning is reached, with every strobe echoed. One at or after a boundary at which a step or
a commit of the TICK page is due waits for the boundary (R90, R106). -/
def State.idleGrid (s : State) : State :=
  if (s.gridSt = gridRun ∨ s.gridSt = gridCatchup) ∧ s.gridTu s.grid.cur * 2 ^ 25 < s.finePos + s.cycleStep ∧ s.boundaryFirst = false then
    s.gridInstant 0
  else s

/-- One cycle of the counter clock. -/
def State.idleCycle (s : State) : State := (s.runCycles 1).idleSecond.idleGrid.linkMs

/-- The step on an empty queue. In reset, and before hub time has begun to count (R468), nothing happens. -/
def idle (s : State) : Host.Outcome State Fault Refusal :=
  if s.fld F.NVM.BOOT_STS.STEP = 0 then .next s else act State.idleCycle s

end Sys2Proof.Machine
end

