-- ==== Sys2Proof/Machine/Step.lean ====
section
/-!
DEFINITION. The step of the block: the command at the front of the queue acts on the state with the queue's rest; on an
empty queue the hub idles for one cycle of its counter clock.
-/

namespace Sys2Proof.Machine

/-- The state with the command that `w` spells at the front of its queue. The opcode table gives no row any bits, so no word
spells a command and the state stays as it is. -/
def State.withFetchWord (s : State) (nbits w : Nat) : State :=
  match Sys2Proof.decodeTableWord nbits w with
  | some c => { s with pending := c :: s.pending }
  | none => s

/-- One step. -/
def step (s : State) : Host.Outcome State Fault Refusal :=
  match s.pending with
  | [] => idle s
  | c :: rest => exec c { s with pending := rest }

end Sys2Proof.Machine
end

