-- ==== Sys2Proof/Safety.lean ====
section
/-!
DEFINITION. What the statements about the hub are made of: when a state is free of leftovers of an earlier command, what a command
leaves unchanged, what reset leaves, and when a hub is sound.
-/

namespace Sys2Proof.Machine

/-- Nothing an earlier command has begun falls due with the next one, whatever that is: the hub is out of reset, the ring node holds no
local frame (R345), ARB_TX has granted nobody (R322), no effect of a FATAL fault (R416) and no in-band interrupt (R425) is still to be
taken, and start-up is not at its step 9, which ends by itself (R468). Where a command meets such a state its own effect is all that
happens. -/
def State.quiet (s : State) : Bool :=
  !s.power.held && !s.power.abandoned && s.net.local_.isNone && s.arbTx.owner.isNone && !s.rim.fatalDue && s.rim.due.isEmpty
    && decide (s.fld F.NVM.BOOT_STS.STEP ≠ 9)

/-- The registers outside the list keep their running values. -/
def State.regsBut (s t : State) (l : List Nat) : Prop := ∀ a, a ∉ l → t.reg a = s.reg a

/-- Beside registers nothing has changed but the fault and log block (chapter 13), whose count of test-mode keys every write starts afresh
(R428). -/
def State.onlyRegs (s t : State) : Prop := t = { s with regs := t.regs, rim := t.rim }

/-- The hub is sound: no FATAL fault is set (R416) and no block has stalled (R417). -/
def State.sound (s : State) : Bool := !s.faultAsserted && s.rim.stalled.isEmpty

/-- Queue memory and capture memory, the two addressed memories of the hub (R262, R300), are in canonical form: addresses rise strictly,
and no word is listed that equals what an unlisted word reads as, which is 0 (log entry 4). -/
def State.memWf (s : State) : Bool := swf (fun _ => 0#40) s.qmem && swf (fun _ => 0#40) s.capMem

/-- Every block is at its reset values (R466): what is kept beside them is the queue of commands, the MRAM, the levels of the inputs, the
supplies and RESET_N, and the count of free values. -/
def State.blank (s : State) : Bool :=
  let net : Net := { pa := { los := s.net.pa.los }, pb := { los := s.net.pb.los } }
  let bare : State := { pending := s.pending, pins := s.pins, mram := s.mram, power := s.power, free := s.free, net := net }
  decide (s = bare)

/-- Whatever holds the blocks in reset, RESET_N low or a start-up that was abandoned, finds them at their reset values (R466, R467). -/
def State.resetInv (s : State) : Bool := !s.inReset || s.blank

end Sys2Proof.Machine
end

