-- ==== Sys2Proof/Certificates/Slice0/Obligations.lean ====
section
/-!
DEFINITION. The statements about the hub. Each is a proposition about `exec`, the meaning of one command on one state, or about `step`
and the queue of commands. A clause of the form `∃ t, exec c s = .next t ∧ …` says that the command completes there, and what the next state
holds. `State.quiet` and the other words of the statements are those of Safety.lean. Where a statement supposes that a page routes no interrupt
in band, it is because an interrupt packet that such a page sends would change queues and counters beside what the statement says (R425).
-/

set_option autoImplicit false

open Sys2Proof Sys2Proof.Machine

/-! ## The queue of commands and reset -/

/-- For every command c and state s, the step of s with c at the front of its queue is exec of c on s with the rest of the queue. On an
empty queue the step idles for one cycle of the counter clock, which is the model's choice (log entries 2 and 6); before hub time has
begun to count it changes nothing. -/
def Obligations.StepTakesTheFrontCommand : Prop :=
  (∀ (c : Instr) (l : List Instr) (s : State), step { s with pending := c :: l } = exec c { s with pending := l })
    ∧ (∀ s : State, s.pending = [] → step s = idle s)
    ∧ ∀ s : State, s.pending = [] → s.fld F.NVM.BOOT_STS.STEP = 0 → step s = .next s

/-- On every state every command of the table answers a next state that holds the queue as it was. From every state, as many steps as the
queue holds commands answer a next state with an empty queue: no command of the hub stops it. That commands wait in one queue is the
model's choice (log entry 2). -/
def Obligations.QueuesOfCommandsDrain : Prop :=
  (∀ (c : Instr) (s : State), ∃ t, exec c s = .next t ∧ t.pending = s.pending)
    ∧ ∀ s : State, ∃ t : State, Host.Core.run Sys2Proof.core s.pending.length s = .next t ∧ t.pending = []

/-- Right after reset every register, running and staged, holds the value its table gives (R16), hub time reads 0 s and 0 ns (R49), the
hub is SOLO with the grid OFF and the servo FREE, no commit waits, no fault is set and the hub is sound. The invariant of reset holds.
What is no register is at the values of log entry 1. -/
def Obligations.ResetStateIsAsTheTablesSay : Prop :=
  (∀ a : Nat, State.reset.reg a = resetWord a ∧ State.reset.stg a = resetWord a)
    ∧ State.reset.nowNs = 0 ∧ State.reset.pending = [] ∧ State.reset.commits = [] ∧ State.reset.role = roleSolo
    ∧ State.reset.gridSt = gridOff ∧ State.reset.servoSt = svFree ∧ State.reset.sound = true ∧ State.reset.resetInv = true
    ∧ ((List.range 64).all fun q => !State.reset.qOpen q) = true ∧ State.reset.irqAsserted 0 = false

/-- Invariant: where RESET_N is low (R466) or start-up stands abandoned (R467), every block is at its reset values. Every step of the hub
keeps it, whatever command is at the front of the queue; RESET establishes it from every state, sound or not. -/
def Obligations.ResetHoldsEveryBlock : Prop :=
  (∀ s t : State, s.resetInv = true → step s = .next t → t.resetInv = true)
    ∧ ∀ s : State, ∃ t, exec .reset s = .next t ∧ t.inReset = true ∧ t.resetInv = true

/-! ## Hub time (R49 to R65, R76 to R78) -/

/-- Reading NOW_NS or PPS_IN_NS answers the nanoseconds and latches the matching seconds for the path of the read; the following read of
the _SEC_HI register answers what was latched and releases the latch, and one without a latch answers live data with UNPAIRED (R78, R513).
The LO registers of the two offset pairs latch their HI registers. A read changes nothing but the latches, the answer and, for PPS_IN_NS,
the note that the stamp has been read. -/
def Obligations.TimeReadsAnswerAndLatch : Prop :=
  ∀ (p : Path) (s : State), s.quiet = true →
    (exec (.nowNsRead p) s = .next ({ s.modLatches p (fun l => { l with now := some (s.time.sec % 2 ^ 32, s.time.sec / 2 ^ 32) }) with rdata := [BitVec.ofNat 32 s.time.ns] }))
    ∧ (∀ (lo hi : Nat), (s.latches p).now = some (lo, hi) →
        exec (.nowSecHiRead p) s = .next ({ s.modLatches p (fun l => { l with now := none }) with rdata := [BitVec.ofNat 32 (hi % 2 ^ 16)] }))
    ∧ ((s.latches p).now = none →
        exec (.nowSecHiRead p) s = .next ({ s with rdata := [BitVec.ofNat 32 (2 ^ 31 + s.time.sec / 2 ^ 32 % 2 ^ 16)] }))
    ∧ (∃ t, exec (.ppsInNsRead p) s = .next t ∧ t.rdata = [s.reg F.TIME.PPS_IN_NS.NS.addr]
        ∧ (t.latches p).pps = some (s.fld F.TIME.PPS_IN_SEC_LO.SEC_LO, (s.reg F.TIME.PPS_IN_SEC_HI.SEC_HI.addr).toNat)
        ∧ t.pins.ppsUnread = false
        ∧ (t = { s.modLatches p (fun l => { l with pps := (t.latches p).pps }) with rdata := t.rdata, pins := { s.pins with ppsUnread := false } }))
    ∧ (∀ (lo hi : Nat), (s.latches p).pps = some (lo, hi) →
        exec (.ppsInSecHiRead p) s = .next ({ s.modLatches p (fun l => { l with pps := none }) with rdata := [BitVec.ofNat 32 hi] }))
    ∧ ((s.latches p).pps = none →
        exec (.ppsInSecHiRead p) s = .next ({ s with rdata := [s.reg F.TIME.PPS_IN_SEC_HI.SEC_HI.addr ||| 0x80000000#32] }))
    ∧ (exec (.lastOffsetLoRead p) s = .next ({ s.modLatches p (fun l => { l with lastOffset := some (s.reg F.TIME.LAST_OFFSET_HI.LAST_HI.addr) }) with rdata := [s.reg F.TIME.LAST_OFFSET_LO.LAST_LO.addr] }))
    ∧ (exec (.pendingOffsetLoRead p) s = .next ({ s.modLatches p (fun l => { l with pendOffset := some (s.reg F.TIME.PENDING_OFFSET_HI.PEND_HI.addr) }) with rdata := [s.reg F.TIME.PENDING_OFFSET_LO.PEND_LO.addr] }))

/-- With SRC HOST an OFFSET_HI write submits the offset (R55). Within STEP_THRESH it sets FREQ_INT and FREQ_ADJ as R57 computes them, and
the first offset moves the phase term alone (R56); beyond it the step is scheduled or STATE becomes PENDING (R59). In PENDING it updates
PENDING_OFFSET, and the third within STEP_THRESH ends PENDING (R60); while a step is scheduled or in STOPPED it is only recorded (R63,
R64). LOCK_COUNT offsets within LOCK_THRESH lock, and one above 4 x LOCK_THRESH unlocks (R64). A change of SRC keeps FREQ_INT, and one to
NONE ends LOCKING, LOCKED, PENDING and HOLDOVER in FREE and cancels a scheduled step (R55, R61). FREQ_INT is written in FREE and HOLDOVER
only, clamped to 500 ppm (R79). How the quotients of R57 and a limit in ppm are rounded is the model's choice (log entries 3 and 74): the
statement leaves the rounding of a quotient open by one unit. -/
def Obligations.ServoTakesHostOffsetsAndSources : Prop :=
  ∀ s : State, s.quiet = true → s.follows = false → s.bit (F.HDR.INT_ROUTE.INBAND pgTIME) = false → s.bit (F.HDR.INT_ROUTE.INBAND pgTICK) = false →
    (∀ (v : Reg), s.timeSrc = 2 → s.stepSched = false → (s.servoSt = svHoldover ∨ (s.servoSt ≤ svLocked ∧ s.servo.prev = none)) →
        (signed 64 (s.fld F.TIME.OFFSET_LO.OFS_LO + 2 ^ 32 * v.toNat)).natAbs ≤ s.stepThresh →
        (s.sfld F.TIME.FREQ_INT.INT).natAbs ≤ 2147484 →
        s.fld F.TIME.SERVO_GAIN.KP * (signed 64 (s.fld F.TIME.OFFSET_LO.OFS_LO + 2 ^ 32 * v.toNat)).natAbs * 2 ^ 16 * 1000000 ≤ s.slewPpm * 2 ^ 32 * (nsPerSec) →
        ∃ t, exec (.hostOffsetSubmit v) s = .next t
        ∧ t.fld64 F.TIME.LAST_OFFSET_LO.LAST_LO F.TIME.LAST_OFFSET_HI.LAST_HI = s.fld F.TIME.OFFSET_LO.OFS_LO + 2 ^ 32 * v.toNat
        ∧ t.fld F.TIME.FREQ_INT.INT = s.fld F.TIME.FREQ_INT.INT
        ∧ (((t.sfld F.TIME.FREQ_ADJ.ADJ) - (s.sfld F.TIME.FREQ_INT.INT)) * ((nsPerSec : Nat) : Int) + ((s.fld F.TIME.SERVO_GAIN.KP : Nat) : Int) * (signed 64 (s.fld F.TIME.OFFSET_LO.OFS_LO + 2 ^ 32 * v.toNat)) * 2 ^ 16).natAbs < nsPerSec
        ∧ t.servo.prev = some s.nowNs ∧ t.servo.lastCycles = s.time.cycles ∧ t.time = s.time)
    ∧ (∀ (v : Reg) (p : Nat), s.timeSrc = 2 → s.stepSched = false → (s.servoSt = svLocking ∨ s.servoSt = svLocked) → s.servo.prev = some p →
        p < s.nowNs → (signed 64 (s.fld F.TIME.OFFSET_LO.OFS_LO + 2 ^ 32 * v.toNat)).natAbs ≤ s.stepThresh →
        (s.sfld F.TIME.FREQ_INT.INT).natAbs ≤ 2147484 →
        s.fld F.TIME.SERVO_GAIN.KP * (signed 64 (s.fld F.TIME.OFFSET_LO.OFS_LO + 2 ^ 32 * v.toNat)).natAbs * 2 ^ 16 * 1000000 ≤ s.slewPpm * 2 ^ 32 * (s.nowNs - p) →
        ∃ t, exec (.hostOffsetSubmit v) s = .next t
        ∧ t.fld64 F.TIME.LAST_OFFSET_LO.LAST_LO F.TIME.LAST_OFFSET_HI.LAST_HI = s.fld F.TIME.OFFSET_LO.OFS_LO + 2 ^ 32 * v.toNat
        ∧ (t.sfld F.TIME.FREQ_INT.INT = clampInt (-intLimit) intLimit (s.sfld F.TIME.FREQ_INT.INT + gainNum (s.fld F.TIME.SERVO_GAIN.KI) (signed 64 (s.fld F.TIME.OFFSET_LO.OFS_LO + 2 ^ 32 * v.toNat)) / ((s.nowNs - p : Nat) : Int)) ∨ t.sfld F.TIME.FREQ_INT.INT = clampInt (-intLimit) intLimit (s.sfld F.TIME.FREQ_INT.INT + gainNum (s.fld F.TIME.SERVO_GAIN.KI) (signed 64 (s.fld F.TIME.OFFSET_LO.OFS_LO + 2 ^ 32 * v.toNat)) / ((s.nowNs - p : Nat) : Int) + 1))
        ∧ (((t.sfld F.TIME.FREQ_ADJ.ADJ) - (t.sfld F.TIME.FREQ_INT.INT)) * (((s.nowNs - p) : Nat) : Int) + ((s.fld F.TIME.SERVO_GAIN.KP : Nat) : Int) * (signed 64 (s.fld F.TIME.OFFSET_LO.OFS_LO + 2 ^ 32 * v.toNat)) * 2 ^ 16).natAbs < (s.nowNs - p)
        ∧ t.servo.prev = some s.nowNs ∧ t.servo.lastCycles = s.time.cycles ∧ t.time = s.time)
    ∧ (∀ (v : Reg), s.timeSrc = 2 → s.stepSched = false → s.servoSt ≤ svLocked →
        (signed 64 (s.fld F.TIME.OFFSET_LO.OFS_LO + 2 ^ 32 * v.toNat)).natAbs ≤ s.stepThresh →
        (s.sfld F.TIME.FREQ_INT.INT).natAbs ≤ 2147484 →
        s.slewPpm * 2 ^ 32 * (nsPerSec) < s.fld F.TIME.SERVO_GAIN.KP * (signed 64 (s.fld F.TIME.OFFSET_LO.OFS_LO + 2 ^ 32 * v.toNat)).natAbs * 2 ^ 16 * 1000000 →
        s.servo.prev = none → signed 64 (s.fld F.TIME.OFFSET_LO.OFS_LO + 2 ^ 32 * v.toNat) ≠ 0 → ∃ t, exec (.hostOffsetSubmit v) s = .next t
        ∧ t.fld64 F.TIME.LAST_OFFSET_LO.LAST_LO F.TIME.LAST_OFFSET_HI.LAST_HI = s.fld F.TIME.OFFSET_LO.OFS_LO + 2 ^ 32 * v.toNat
        ∧ t.fld F.TIME.FREQ_INT.INT = s.fld F.TIME.FREQ_INT.INT
        ∧ (t.sfld F.TIME.FREQ_ADJ.ADJ = s.sfld F.TIME.FREQ_INT.INT + (if 0 < signed 64 (s.fld F.TIME.OFFSET_LO.OFS_LO + 2 ^ 32 * v.toNat) then -ppmUnits s.slewPpm else ppmUnits s.slewPpm))
        ∧ t.servo.prev = some s.nowNs ∧ t.servo.lastCycles = s.time.cycles ∧ t.time = s.time)
    ∧ (∀ (v : Reg), s.timeSrc = 2 → s.stepSched = false → s.mirrored = false → s.servoSt ≠ svPending → s.servoSt ≠ svStopped →
        s.servo.slewAll = false → s.stepThresh < (signed 64 (s.fld F.TIME.OFFSET_LO.OFS_LO + 2 ^ 32 * v.toNat)).natAbs →
        (s.timeSet = false ∨ (signed 64 (s.fld F.TIME.OFFSET_LO.OFS_LO + 2 ^ 32 * v.toNat) < 0
        ∧ s.bit F.TIME.TIME_CTL.STEP_FWD_EN = true)) → ∃ t, exec (.hostOffsetSubmit v) s = .next t
        ∧ t.fld64 F.TIME.LAST_OFFSET_LO.LAST_LO F.TIME.LAST_OFFSET_HI.LAST_HI = s.fld F.TIME.OFFSET_LO.OFS_LO + 2 ^ 32 * v.toNat
        ∧ t.stepSched = true
        ∧ t.servo.sched = some (ceilDiv (s.nowNs + 10000) nsPerSec % 2 ^ 48, evenNs (signed 64 (s.fld F.TIME.OFFSET_LO.OFS_LO + 2 ^ 32 * v.toNat)))
        ∧ t.servoSt = s.servoSt ∧ t.fld F.TIME.FREQ_ADJ.ADJ = s.fld F.TIME.FREQ_ADJ.ADJ ∧ t.time = s.time)
    ∧ (∀ (v : Reg), s.timeSrc = 2 → s.stepSched = false → s.servoSt ≠ svPending → s.servoSt ≠ svStopped → s.servo.slewAll = false →
        s.stepThresh < (signed 64 (s.fld F.TIME.OFFSET_LO.OFS_LO + 2 ^ 32 * v.toNat)).natAbs → s.timeSet = true →
        (0 < signed 64 (s.fld F.TIME.OFFSET_LO.OFS_LO + 2 ^ 32 * v.toNat) ∨ s.bit F.TIME.TIME_CTL.STEP_FWD_EN = false) →
        ∃ t, exec (.hostOffsetSubmit v) s = .next t
        ∧ t.fld64 F.TIME.LAST_OFFSET_LO.LAST_LO F.TIME.LAST_OFFSET_HI.LAST_HI = s.fld F.TIME.OFFSET_LO.OFS_LO + 2 ^ 32 * v.toNat
        ∧ t.fld64 F.TIME.PENDING_OFFSET_LO.PEND_LO F.TIME.PENDING_OFFSET_HI.PEND_HI = s.fld F.TIME.OFFSET_LO.OFS_LO + 2 ^ 32 * v.toNat
        ∧ t.servoSt = svPending ∧ t.stepSched = false
        ∧ t.bit F.TIME.TIME_STATE.FWD_PENDING = decide (signed 64 (s.fld F.TIME.OFFSET_LO.OFS_LO + 2 ^ 32 * v.toNat) < 0)
        ∧ t.bit F.TIME.TIME_STATE.BACK_PENDING = decide (0 < signed 64 (s.fld F.TIME.OFFSET_LO.OFS_LO + 2 ^ 32 * v.toNat))
        ∧ t.fld F.TIME.FREQ_ADJ.ADJ = s.fld F.TIME.FREQ_INT.INT ∧ t.fld F.TIME.FREQ_INT.INT = s.fld F.TIME.FREQ_INT.INT
        ∧ (0 < signed 64 (s.fld F.TIME.OFFSET_LO.OFS_LO + 2 ^ 32 * v.toNat) →
        (t.reg (0x1000 * pgTIME + 0x010)).getLsbD Irq.backPending.bit = true)
        ∧ (signed 64 (s.fld F.TIME.OFFSET_LO.OFS_LO + 2 ^ 32 * v.toNat) < 0 →
        (t.reg (0x1000 * pgTIME + 0x010)).getLsbD Irq.fwdPending.bit = true) ∧ t.time = s.time)
    ∧ (∀ (v : Reg), s.timeSrc = 2 → s.servoSt = svPending → s.stepSched = false →
        s.stepThresh < (signed 64 (s.fld F.TIME.OFFSET_LO.OFS_LO + 2 ^ 32 * v.toNat)).natAbs → ∃ t, exec (.hostOffsetSubmit v) s = .next t
        ∧ t.fld64 F.TIME.PENDING_OFFSET_LO.PEND_LO F.TIME.PENDING_OFFSET_HI.PEND_HI = s.fld F.TIME.OFFSET_LO.OFS_LO + 2 ^ 32 * v.toNat
        ∧ t.fld64 F.TIME.LAST_OFFSET_LO.LAST_LO F.TIME.LAST_OFFSET_HI.LAST_HI = s.fld F.TIME.OFFSET_LO.OFS_LO + 2 ^ 32 * v.toNat
        ∧ t.servoSt = svPending ∧ t.fld F.TIME.FREQ_ADJ.ADJ = s.fld F.TIME.FREQ_ADJ.ADJ ∧ t.servo.threeRun = 0 ∧ t.time = s.time)
    ∧ (∀ (v : Reg), s.timeSrc = 2 → s.stepSched = false → s.servoSt = svPending →
        (signed 64 (s.fld F.TIME.OFFSET_LO.OFS_LO + 2 ^ 32 * v.toNat)).natAbs ≤ s.stepThresh → ∃ t, exec (.hostOffsetSubmit v) s = .next t
        ∧ t.fld64 F.TIME.PENDING_OFFSET_LO.PEND_LO F.TIME.PENDING_OFFSET_HI.PEND_HI = s.fld F.TIME.OFFSET_LO.OFS_LO + 2 ^ 32 * v.toNat
        ∧ t.fld64 F.TIME.LAST_OFFSET_LO.LAST_LO F.TIME.LAST_OFFSET_HI.LAST_HI = s.fld F.TIME.OFFSET_LO.OFS_LO + 2 ^ 32 * v.toNat
        ∧ (t.servoSt = (if 2 ≤ s.servo.threeRun then svLocking else svPending)) ∧ (2 ≤ s.servo.threeRun → (t.servo.prev = none
        ∧ t.bit F.TIME.TIME_STATE.BACK_PENDING = false ∧ t.bit F.TIME.TIME_STATE.FWD_PENDING = false
        ∧ (t.reg (0x1000 * pgTIME + 0x010)).getLsbD Irq.pendCleared.bit = true)) ∧ (s.servo.threeRun < 2 →
        t.servo.threeRun = s.servo.threeRun + 1) ∧ t.fld F.TIME.FREQ_ADJ.ADJ = s.fld F.TIME.FREQ_ADJ.ADJ
        ∧ t.fld F.TIME.FREQ_INT.INT = s.fld F.TIME.FREQ_INT.INT ∧ t.time = s.time)
    ∧ (∀ (v : Reg), s.timeSrc = 2 → (s.servoSt = svStopped ∨ s.stepSched = true) → ∃ t, exec (.hostOffsetSubmit v) s = .next t
        ∧ t.fld64 F.TIME.LAST_OFFSET_LO.LAST_LO F.TIME.LAST_OFFSET_HI.LAST_HI = s.fld F.TIME.OFFSET_LO.OFS_LO + 2 ^ 32 * v.toNat
        ∧ s.onlyRegs t ∧ s.regsBut t [F.TIME.OFFSET_HI.OFS_HI.addr, F.TIME.LAST_OFFSET_LO.LAST_LO.addr, F.TIME.LAST_OFFSET_HI.LAST_HI.addr])
    ∧ (∀ (v : Reg), s.timeSrc ≠ 2 → exec (.hostOffsetSubmit v) s = .next (s.otherWrite))
    ∧ (∀ (v : Reg), s.timeSrc = 2 → s.stepSched = false → s.servoSt = svLocking →
        (signed 64 (s.fld F.TIME.OFFSET_LO.OFS_LO + 2 ^ 32 * v.toNat)).natAbs ≤ s.fld F.TIME.LOCK_CTL.LOCK_THRESH →
        (signed 64 (s.fld F.TIME.OFFSET_LO.OFS_LO + 2 ^ 32 * v.toNat)).natAbs ≤ s.stepThresh → s.lockCount ≤ s.servo.inRun + 1 →
        ∃ t, exec (.hostOffsetSubmit v) s = .next t
        ∧ t.fld64 F.TIME.LAST_OFFSET_LO.LAST_LO F.TIME.LAST_OFFSET_HI.LAST_HI = s.fld F.TIME.OFFSET_LO.OFS_LO + 2 ^ 32 * v.toNat
        ∧ t.servoSt = svLocked ∧ t.timeSet = true ∧ t.servo.slewAll = false
        ∧ (t.reg (0x1000 * pgTIME + 0x010)).getLsbD Irq.locked.bit = true ∧ t.servo.prev = some s.nowNs
        ∧ t.servo.lastCycles = s.time.cycles)
    ∧ (∀ (v : Reg), s.timeSrc = 2 → s.stepSched = false → s.servoSt = svLocked →
        4 * s.fld F.TIME.LOCK_CTL.LOCK_THRESH < (signed 64 (s.fld F.TIME.OFFSET_LO.OFS_LO + 2 ^ 32 * v.toNat)).natAbs →
        (signed 64 (s.fld F.TIME.OFFSET_LO.OFS_LO + 2 ^ 32 * v.toNat)).natAbs ≤ s.stepThresh → ∃ t, exec (.hostOffsetSubmit v) s = .next t
        ∧ t.fld64 F.TIME.LAST_OFFSET_LO.LAST_LO F.TIME.LAST_OFFSET_HI.LAST_HI = s.fld F.TIME.OFFSET_LO.OFS_LO + 2 ^ 32 * v.toNat
        ∧ t.servoSt = svLocking ∧ t.servo.prev = some s.nowNs ∧ t.servo.lastCycles = s.time.cycles ∧ t.time = s.time)
    ∧ (∀ (src : BitVec 2), s.timeSrc ≠ 0 → srcOf src.toNat = 0 →
        (s.servoSt = svLocking ∨ s.servoSt = svLocked ∨ s.servoSt = svPending ∨ s.servoSt = svHoldover) →
        ∃ t, exec (.srcChange src) s = .next t ∧ t.timeSrc = 0 ∧ t.servoSt = svFree ∧ t.stepSched = false ∧ t.servo.sched = none
        ∧ t.bit F.TIME.TIME_STATE.BACK_PENDING = false ∧ t.bit F.TIME.TIME_STATE.FWD_PENDING = false
        ∧ t.fld F.TIME.FREQ_INT.INT = s.fld F.TIME.FREQ_INT.INT ∧ t.fld F.TIME.FREQ_ADJ.ADJ = s.fld F.TIME.FREQ_INT.INT
        ∧ t.timeSet = s.timeSet ∧ t.time = s.time)
    ∧ (∀ (src : BitVec 2), s.timeSrc ≠ srcOf src.toNat → (srcOf src.toNat ≠ 0 ∨ s.servoSt = svFree ∨ s.servoSt = svStopped) →
        ∃ t, exec (.srcChange src) s = .next t ∧ t.fld F.TIME.TIME_CTL.SRC = src.toNat ∧ t.servoSt = s.servoSt ∧ t.servo.prev = none
        ∧ s.regsBut t [F.TIME.TIME_CTL.SRC.addr, F.TIME.TIME_STATE.STATE.addr] ∧ (srcOf src.toNat = 0 ∨ t.stepSched = s.stepSched)
        ∧ t.time = s.time)
    ∧ (∀ (src : BitVec 2), s.timeSrc = srcOf src.toNat → ∃ t, exec (.srcChange src) s = .next t ∧ t.fld F.TIME.TIME_CTL.SRC = src.toNat
        ∧ t.servo = s.servo ∧ s.onlyRegs t ∧ s.regsBut t [F.TIME.TIME_CTL.SRC.addr])
    ∧ (∀ (v : Reg), (s.servoSt = svFree ∨ s.servoSt = svHoldover) → ∃ t, exec (.freqIntWrite v) s = .next t
        ∧ t.fld F.TIME.FREQ_INT.INT = unsigned 32 (clampInt (-intLimit) intLimit (signed 32 v.toNat))
        ∧ t.fld F.TIME.FREQ_ADJ.ADJ = t.fld F.TIME.FREQ_INT.INT ∧ t.servoSt = s.servoSt ∧ s.onlyRegs t
        ∧ s.regsBut t [F.TIME.FREQ_INT.INT.addr, F.TIME.FREQ_ADJ.ADJ.addr])
    ∧ (∀ (v : Reg), s.servoSt ≠ svFree → s.servoSt ≠ svHoldover → exec (.freqIntWrite v) s = .next (s.otherWrite))

/-- APPLY_STEP schedules the step for the first second boundary at least 10 µs ahead (R60, R61), SLEW_ACCEPT ends PENDING and slews the
latest offset (R57, R58, R60), and SERVO_RESTART ends STOPPED where no cause is left (R64, R65). Outside PENDING, while a step is
scheduled, or with a cause that persists, each is ignored. How a limit in ppm and the quotient of R57 are rounded is the model's choice
(log entries 3 and 74). -/
def Obligations.ServoCommandsEndPendingAndStopped : Prop :=
  ∀ s : State, s.quiet = true → s.follows = false → s.mirrored = false → s.bit (F.HDR.INT_ROUTE.INBAND pgTIME) = false → s.bit (F.HDR.INT_ROUTE.INBAND pgTICK) = false →
    (s.servoSt = svPending → s.stepSched = false → ∃ t, exec .applyStep s = .next t ∧ t.stepSched = true
        ∧ t.servo.sched = some (ceilDiv (s.nowNs + 10000) nsPerSec % 2 ^ 48, evenNs s.pendingOffset) ∧ t.servoSt = svPending
        ∧ t.bit F.TIME.TIME_STATE.FWD_PENDING = s.bit F.TIME.TIME_STATE.FWD_PENDING
        ∧ t.bit F.TIME.TIME_STATE.BACK_PENDING = s.bit F.TIME.TIME_STATE.BACK_PENDING ∧ s.regsBut t [F.TIME.TIME_STATE.STATE.addr]
        ∧ t.time = s.time)
    ∧ ((s.servoSt ≠ svPending ∨ s.stepSched = true) → exec .applyStep s = .next (s.otherWrite))
    ∧ (s.servoSt = svPending → s.stepSched = false → (s.sfld F.TIME.FREQ_INT.INT).natAbs ≤ 2147484 →
        s.fld F.TIME.SERVO_GAIN.KP * (s.pendingOffset).natAbs * 2 ^ 16 * 1000000 ≤ s.slewPpm * 2 ^ 32 * (nsPerSec) →
        ∃ t, exec .slewAccept s = .next t ∧ (t.servoSt = (if s.lockCount ≤ 1
        ∧ (s.pendingOffset).natAbs ≤ s.fld F.TIME.LOCK_CTL.LOCK_THRESH then svLocked else svLocking))
        ∧ t.bit F.TIME.TIME_STATE.BACK_PENDING = false ∧ t.bit F.TIME.TIME_STATE.FWD_PENDING = false
        ∧ (t.reg (0x1000 * pgTIME + 0x010)).getLsbD Irq.pendCleared.bit = true ∧ t.fld F.TIME.FREQ_INT.INT = s.fld F.TIME.FREQ_INT.INT
        ∧ (((t.sfld F.TIME.FREQ_ADJ.ADJ) - (s.sfld F.TIME.FREQ_INT.INT)) * ((nsPerSec : Nat) : Int) + ((s.fld F.TIME.SERVO_GAIN.KP : Nat) : Int) * (s.pendingOffset) * 2 ^ 16).natAbs < nsPerSec
        ∧ t.servo.prev = some s.nowNs ∧ t.servo.lastCycles = s.time.cycles ∧ t.time = s.time)
    ∧ (s.servoSt = svPending → s.stepSched = false → (s.sfld F.TIME.FREQ_INT.INT).natAbs ≤ 2147484 →
        s.slewPpm * 2 ^ 32 * (nsPerSec) < s.fld F.TIME.SERVO_GAIN.KP * (s.pendingOffset).natAbs * 2 ^ 16 * 1000000 → 2 ≤ s.lockCount →
        ∃ t, exec .slewAccept s = .next t ∧ t.servoSt = svLocking ∧ t.servo.slewAll = true ∧ t.bit F.TIME.TIME_STATE.BACK_PENDING = false
        ∧ t.bit F.TIME.TIME_STATE.FWD_PENDING = false ∧ (t.reg (0x1000 * pgTIME + 0x010)).getLsbD Irq.pendCleared.bit = true
        ∧ t.fld F.TIME.FREQ_INT.INT = s.fld F.TIME.FREQ_INT.INT
        ∧ (t.sfld F.TIME.FREQ_ADJ.ADJ = s.sfld F.TIME.FREQ_INT.INT + (if 0 < s.pendingOffset then -ppmUnits s.slewPpm else ppmUnits s.slewPpm))
        ∧ t.servo.prev = some s.nowNs ∧ t.servo.lastCycles = s.time.cycles ∧ t.time = s.time)
    ∧ ((s.servoSt ≠ svPending ∨ s.stepSched = true) → exec .slewAccept s = .next (s.otherWrite))
    ∧ (s.servoSt = svStopped → s.servo.pllBad = false → s.servo.refBad = false → ∃ t, exec .servoRestart s = .next t ∧ t.servoSt = svFree
        ∧ t.timeSet = s.timeSet ∧ t.fld F.TIME.FREQ_ADJ.ADJ = s.fld F.TIME.FREQ_INT.INT
        ∧ t.fld F.TIME.FREQ_INT.INT = s.fld F.TIME.FREQ_INT.INT ∧ t.servo.prev = none ∧ t.time = s.time)
    ∧ ((s.servoSt ≠ svStopped ∨ s.servo.pllBad = true ∨ s.servo.refBad = true) → exec .servoRestart s = .next (s.otherWrite))

/-! ## The PTP engine (R67 to R75) -/

/-- A Sync of the accepted master on the active port is counted and makes its source the current master (R69, R70). A one-step Sync gives
the servo its offset e = t2 - t1 - c - d - a, which LAST_OFFSET records, and a two-step Sync waits for the Follow_Up that does so (R55,
R71). Without a valid link delay when the Sync comes, with a stamp from before the latest step, or after a step no offset arises (R63,
R71), nor without a stamp, which is TS_OVF (R75). A Follow_Up that is missing or late is counted in FU_MISS_CNT (R71). A Sync on the other
port or of another source or domain yields nothing (R69, R70). That a timed command lets time run on to its instant is the model's choice
(log entry 6). -/
def Obligations.PtpSyncAndFollowUp : Prop :=
  ∀ s : State, s.quiet = true → s.bit (F.HDR.INT_ROUTE.INBAND pgPTP) = false → s.bit (F.HDR.INT_ROUTE.INBAND pgTIME) = false → s.bit (F.HDR.INT_ROUTE.INBAND pgTICK) = false →
    (∀ (p : Port) (m : SyncMsg), s.slaveFor m.domain = true → s.accepts m.src = true → m.src.clock < 2 ^ 64 → m.src.port < 2 ^ 16 →
        m.stampOk = true → m.twoStep = true → s.activeAfter p = portCode p → s.ptp.twoStep = none → ∃ t, exec (.syncRx p m) s = .next t
        ∧ t.ptp.twoStep = some ⟨p, m, s.servo.steps, s.time.cycles, s.delayValid p && !s.beforeStep m.rx⟩
        ∧ t.bit F.PTP.PTP_STS.TWO_STEP = true ∧ t.fld F.PTP.SYNC_RX_CNT.CNT = min (2 ^ 32 - 1) (s.fld F.PTP.SYNC_RX_CNT.CNT + 1)
        ∧ t.fld F.PTP.PTP_STS.ACTIVE_PORT = portCode p ∧ t.ptp.lastSync = s.time.cycles ∧ t.servo = s.servo
        ∧ t.bit F.PTP.PTP_STS.HAS_MASTER = true ∧ t.fld64 F.PTP.CUR_MASTER_LO.ID_LO F.PTP.CUR_MASTER_HI.ID_HI = m.src.clock
        ∧ t.fld F.PTP.PTP_STS.CUR_PORT = m.src.port)
    ∧ (∀ (p : Port) (m : SyncMsg) (e : Int), s.slaveFor m.domain = true → s.accepts m.src = true → m.src.clock < 2 ^ 64 →
        m.src.port < 2 ^ 16 → m.stampOk = true → m.twoStep = false → s.activeAfter p = portCode p → s.ptp.twoStep = none → s.timeSrc = 1 →
        s.follows = false → s.delayValid p = true → s.beforeStep m.rx = false → s.offsetOf p m.rx m.origin m.corr = e * 2 ^ 16 →
        ∃ t, exec (.syncRx p m) s = .next t ∧ t.fld64 F.TIME.LAST_OFFSET_LO.LAST_LO F.TIME.LAST_OFFSET_HI.LAST_HI = unsigned 64 e
        ∧ t.ptp.twoStep = none ∧ t.bit F.PTP.PTP_STS.TWO_STEP = false
        ∧ t.fld F.PTP.SYNC_RX_CNT.CNT = min (2 ^ 32 - 1) (s.fld F.PTP.SYNC_RX_CNT.CNT + 1) ∧ t.ptp.lastSync = s.time.cycles)
    ∧ (∀ (p : Port) (m : SyncMsg), s.slaveFor m.domain = true → s.accepts m.src = true → m.src.clock < 2 ^ 64 → m.src.port < 2 ^ 16 →
        m.stampOk = true → m.twoStep = false → s.activeAfter p = portCode p → s.ptp.twoStep = none →
        (s.delayValid p = false ∨ s.beforeStep m.rx = true) → ∃ t, exec (.syncRx p m) s = .next t
        ∧ t.fld F.PTP.SYNC_RX_CNT.CNT = min (2 ^ 32 - 1) (s.fld F.PTP.SYNC_RX_CNT.CNT + 1) ∧ t.bit F.PTP.PTP_STS.TWO_STEP = false
        ∧ t.servo = s.servo ∧ t.ptp.twoStep = none
        ∧ t.fld64 F.TIME.LAST_OFFSET_LO.LAST_LO F.TIME.LAST_OFFSET_HI.LAST_HI = s.fld64 F.TIME.LAST_OFFSET_LO.LAST_LO F.TIME.LAST_OFFSET_HI.LAST_HI
        ∧ t.bit F.PTP.PTP_STS.HAS_MASTER = true ∧ t.fld64 F.PTP.CUR_MASTER_LO.ID_LO F.PTP.CUR_MASTER_HI.ID_HI = m.src.clock
        ∧ t.fld F.PTP.PTP_STS.CUR_PORT = m.src.port)
    ∧ (∀ (p : Port) (m : SyncMsg), s.slaveFor m.domain = true → s.accepts m.src = true → m.src.clock < 2 ^ 64 → m.src.port < 2 ^ 16 →
        m.stampOk = true → s.activeAfter p ≠ portCode p → ∃ t, exec (.syncRx p m) s = .next t
        ∧ t.fld F.PTP.PTP_STS.ACTIVE_PORT = s.activeAfter p ∧ t.ptp.missed = s.ptp.missed + 1 ∧ t.servo = s.servo
        ∧ t.ptp.twoStep = s.ptp.twoStep ∧ t.ptp.lastSync = s.time.cycles ∧ t.fld F.PTP.SYNC_RX_CNT.CNT = s.fld F.PTP.SYNC_RX_CNT.CNT
        ∧ t.bit F.PTP.PTP_STS.HAS_MASTER = true ∧ t.fld64 F.PTP.CUR_MASTER_LO.ID_LO F.PTP.CUR_MASTER_HI.ID_HI = m.src.clock
        ∧ t.fld F.PTP.PTP_STS.CUR_PORT = m.src.port)
    ∧ (∀ (p : Port) (m : SyncMsg), (s.slaveFor m.domain = false ∨ s.accepts m.src = false) → m.stampOk = true →
        exec (.syncRx p m) s = .next (s))
    ∧ (∀ (p : Port) (m : SyncMsg), m.stampOk = false → ∃ t, exec (.syncRx p m) s = .next t ∧ t.faultSet Flt.tsOvf = true
        ∧ (t.pd p).skipNext = true ∧ t.servo = s.servo
        ∧ t.fld64 F.TIME.LAST_OFFSET_LO.LAST_LO F.TIME.LAST_OFFSET_HI.LAST_HI = s.fld64 F.TIME.LAST_OFFSET_LO.LAST_LO F.TIME.LAST_OFFSET_HI.LAST_HI)
    ∧ (∀ (p : Port) (m : FollowUpMsg) (w : TwoStep) (e : Int), s.ptp.twoStep = some w → w.port = p → w.msg.src = m.src → w.msg.seq = m.seq →
        w.msg.domain = m.domain → w.steps = s.servo.steps → w.use = true → s.time.cycles ≤ w.until_ → s.timeSrc = 1 → s.follows = false →
        s.delayValid p = true → s.offsetOf p w.msg.rx m.origin (w.msg.corr + m.corr) = e * 2 ^ 16 → ∃ t, exec (.followUpRx p m) s = .next t
        ∧ t.ptp.twoStep = none ∧ t.fld64 F.TIME.LAST_OFFSET_LO.LAST_LO F.TIME.LAST_OFFSET_HI.LAST_HI = unsigned 64 e)
    ∧ (∀ (p : Port) (m : FollowUpMsg) (w : TwoStep), s.ptp.twoStep = some w → w.port = p → w.msg.src = m.src → w.msg.seq = m.seq →
        w.msg.domain = m.domain → s.time.cycles ≤ w.until_ → (w.use = false ∨ w.steps ≠ s.servo.steps) →
        exec (.followUpRx p m) s = .next (s.modPtp fun x => { x with twoStep := none }))
    ∧ (∀ (p : Port) (m : FollowUpMsg) (w : TwoStep), s.ptp.twoStep = some w → w.port = p → w.msg.src = m.src → w.msg.seq = m.seq →
        w.msg.domain = m.domain → w.until_ < s.time.cycles → ∃ t, exec (.followUpRx p m) s = .next t ∧ t.ptp.twoStep = none
        ∧ t.fld F.PTP.FU_MISS_CNT.CNT = min (2 ^ 32 - 1) (s.fld F.PTP.FU_MISS_CNT.CNT + 1) ∧ s.regsBut t [F.PTP.FU_MISS_CNT.CNT.addr]
        ∧ t.servo = s.servo)
    ∧ (∀ (p : Port) (m : FollowUpMsg), (s.ptp.twoStep.all (fun w => decide (w.port ≠ p ∨ w.msg.src ≠ m.src ∨ w.msg.seq ≠ m.seq ∨ w.msg.domain ≠ m.domain)) = true) →
        exec (.followUpRx p m) s = .next (s))
    ∧ (∀ (w : TwoStep), s.ptp.twoStep = some w → ∃ t, exec .followUpTimeout s = .next t ∧ t.ptp.twoStep = none
        ∧ t.fld F.PTP.FU_MISS_CNT.CNT = min (2 ^ 32 - 1) (s.fld F.PTP.FU_MISS_CNT.CNT + 1) ∧ s.regsBut t [F.PTP.FU_MISS_CNT.CNT.addr]
        ∧ t.servo = s.servo ∧ w.at_ + logCycles w.msg.logInterval ≤ t.time.cycles)

/-- With SEL_MODE 1 the source of the first Announce becomes the current master, and the next one heard after a silence does so with
MASTER_CHANGE (R69); the UTC fields of an accepted source are kept (R81). Silence ends an adoption (R69). The loss of the master raises
MASTER_LOST, LOSS_TIMEOUT after its last Sync (R82), and with AUTO SYNC_LOSS missing Syncs move the slave to PORT_B (R70). That a timed
command lets time run on to its instant is the model's choice (log entry 6). -/
def Obligations.PtpMasterIsFollowedAndLost : Prop :=
  ∀ s : State, s.quiet = true → s.bit (F.HDR.INT_ROUTE.INBAND pgPTP) = false →
    (∀ (p : Port) (m : AnnounceMsg), s.slaveFor m.domain = true → s.bit F.PTP.PTP_CTL.SEL_MODE = true →
        s.bit F.PTP.PTP_STS.HAS_MASTER = false → s.ptp.silenced = false → m.src.clock < 2 ^ 64 → m.src.port < 2 ^ 16 →
        m.utcOffset < 2 ^ 16 → ∃ t, exec (.announceRx p m) s = .next t ∧ t.bit F.PTP.PTP_STS.HAS_MASTER = true
        ∧ t.fld64 F.PTP.CUR_MASTER_LO.ID_LO F.PTP.CUR_MASTER_HI.ID_HI = m.src.clock ∧ t.fld F.PTP.PTP_STS.CUR_PORT = m.src.port
        ∧ t.fld F.PTP.UTC_INFO.UTC_OFFSET = m.utcOffset ∧ t.bit F.PTP.UTC_INFO.UTC_VALID = m.utcValid
        ∧ t.bit F.PTP.UTC_INFO.LEAP61 = m.leap61 ∧ t.bit F.PTP.UTC_INFO.LEAP59 = m.leap59 ∧ t.ptp.lastAnn = s.time.cycles
        ∧ t.ptp.annLog = m.logInterval ∧ t.ptp.silenced = false ∧ t.servo = s.servo)
    ∧ (∀ (p : Port) (m : AnnounceMsg), s.slaveFor m.domain = true → s.bit F.PTP.PTP_CTL.SEL_MODE = true → s.ptp.silenced = true →
        m.src.clock < 2 ^ 64 → m.src.port < 2 ^ 16 → m.utcOffset < 2 ^ 16 → ∃ t, exec (.announceRx p m) s = .next t
        ∧ t.bit F.PTP.PTP_STS.HAS_MASTER = true ∧ t.fld64 F.PTP.CUR_MASTER_LO.ID_LO F.PTP.CUR_MASTER_HI.ID_HI = m.src.clock
        ∧ t.fld F.PTP.PTP_STS.CUR_PORT = m.src.port ∧ t.fld F.PTP.UTC_INFO.UTC_OFFSET = m.utcOffset
        ∧ t.bit F.PTP.UTC_INFO.UTC_VALID = m.utcValid ∧ t.bit F.PTP.UTC_INFO.LEAP61 = m.leap61 ∧ t.bit F.PTP.UTC_INFO.LEAP59 = m.leap59
        ∧ t.ptp.lastAnn = s.time.cycles ∧ t.ptp.annLog = m.logInterval ∧ t.ptp.silenced = false ∧ t.servo = s.servo
        ∧ (t.reg (0x1000 * pgPTP + 0x010)).getLsbD Irq.masterChange.bit = true)
    ∧ (∀ (p : Port) (m : AnnounceMsg), s.slaveFor m.domain = true → s.ptp.silenced = false → s.accepts m.src = true → m.src.clock < 2 ^ 64 →
        m.src.port < 2 ^ 16 → m.utcOffset < 2 ^ 16 → ∃ t, exec (.announceRx p m) s = .next t ∧ t.bit F.PTP.PTP_STS.HAS_MASTER = true
        ∧ t.fld64 F.PTP.CUR_MASTER_LO.ID_LO F.PTP.CUR_MASTER_HI.ID_HI = m.src.clock ∧ t.fld F.PTP.PTP_STS.CUR_PORT = m.src.port
        ∧ t.fld F.PTP.UTC_INFO.UTC_OFFSET = m.utcOffset ∧ t.bit F.PTP.UTC_INFO.UTC_VALID = m.utcValid
        ∧ t.bit F.PTP.UTC_INFO.LEAP61 = m.leap61 ∧ t.bit F.PTP.UTC_INFO.LEAP59 = m.leap59 ∧ t.ptp.lastAnn = s.time.cycles
        ∧ t.ptp.annLog = m.logInterval ∧ t.ptp.silenced = false ∧ t.servo = s.servo)
    ∧ (∀ (p : Port) (m : AnnounceMsg), (s.slaveFor m.domain = false ∨ (s.accepts m.src = false
        ∧ (s.bit F.PTP.PTP_CTL.SEL_MODE = false ∨ (s.bit F.PTP.PTP_STS.HAS_MASTER = true ∧ s.ptp.silenced = false)))) →
        exec (.announceRx p m) s = .next (s))
    ∧ (s.bit F.PTP.PTP_CTL.SEL_MODE = true → s.bit F.PTP.PTP_STS.HAS_MASTER = true → ∃ t, exec .masterSilence s = .next t
        ∧ t.bit F.PTP.PTP_STS.HAS_MASTER = false ∧ t.ptp.silenced = true ∧ s.regsBut t [F.PTP.PTP_STS.HAS_MASTER.addr]
        ∧ s.ptp.lastAnn + 3 * logCycles s.ptp.annLog ≤ t.time.cycles)
    ∧ ((s.bit F.PTP.PTP_CTL.SEL_MODE = false ∨ s.bit F.PTP.PTP_STS.HAS_MASTER = false) → exec .masterSilence s = .next (s))
    ∧ (s.bit F.PTP.PTP_STS.HAS_MASTER = true → ∃ t, exec .masterLost s = .next t ∧ s.ptp.lastSync + s.lossCycles ≤ t.time.cycles
        ∧ (t.reg (0x1000 * pgPTP + 0x010)).getLsbD Irq.masterLost.bit = true ∧ s.regsBut t [0x1000 * pgPTP + 0x010])
    ∧ (s.slaveAuto = true → s.fld F.PTP.PTP_STS.ACTIVE_PORT = 1 → s.syncLoss ≤ s.ptp.missed → ∃ t, exec .portSwitch s = .next t
        ∧ t.fld F.PTP.PTP_STS.ACTIVE_PORT = 2 ∧ t.ptp.missed = 0
        ∧ t.fld F.PTP.PORT_SWITCH_CNT.CNT = min (2 ^ F.PTP.PORT_SWITCH_CNT.CNT.width - 1) (s.fld F.PTP.PORT_SWITCH_CNT.CNT + 1)
        ∧ (t.reg (0x1000 * pgPTP + 0x010)).getLsbD Irq.portSwitch.bit = true ∧ t.servo = s.servo)
    ∧ ((s.slaveAuto = false ∨ s.fld F.PTP.PTP_STS.ACTIVE_PORT ≠ 1 ∨ s.ptp.missed < s.syncLoss) → exec .portSwitch s = .next (s))

/-- A Pdelay_Req goes out on each port in use and takes its egress time (R67); its response gives the link delay in 1/16 ns, the mean of
the last 8 exchanges (t4 - t1 - turnaround) / 2 (R72); without responses for 3 intervals the delay reads all ones (R72); a Pdelay_Req is
answered and counted (R73); the oldest pending sum is dropped and counted (R74). A lost stamp is TS_OVF, and the next exchange is not
counted (R75). That a timed command lets time run on to its instant is the model's choice (log entry 6). Where the words of the spec leave
room it follows the readings of log entry 7, which are the model's. -/
def Obligations.PeerDelayIsMeasured : Prop :=
  ∀ s : State, s.quiet = true → s.bit (F.HDR.INT_ROUTE.INBAND pgPTP) = false → s.bit F.ARB_TX.ARB_CTL.FREEZE = false →
    (s.ptpPort .a = true → s.ptpPort .b = true → ∃ t, exec (.pdelayReqSend true true) s = .next t ∧ t.ptp.pdAt = some t.time.cycles
        ∧ (s.ptp.pdAt.all (fun c => decide (c + logCycles s.logPdelay ≤ t.time.cycles)) = true) ∧ t.ptp.pdA.t1 = some t.now
        ∧ t.ptp.pdB.t1 = some t.now ∧ t.ptp.pdA.seq = (s.ptp.pdA.seq + 1) % 2 ^ 16 ∧ t.ptp.pdB.seq = (s.ptp.pdB.seq + 1) % 2 ^ 16
        ∧ t.net.ptpTx = s.net.ptpTx ++ [(.a, s.pdelayFrame ⟨false, s.portId .a, (s.ptp.pdA.seq + 1) % 2 ^ 16, 0, none, none⟩), (.b, s.pdelayFrame ⟨false, s.portId .b, (s.ptp.pdB.seq + 1) % 2 ^ 16, 0, none, none⟩)]
        ∧ t.regs = s.regs)
    ∧ (∀ (okA okB : Bool), s.ptpPort .a = true → s.ptpPort .b = false → okA = true → ∃ t, exec (.pdelayReqSend okA okB) s = .next t
        ∧ t.ptp.pdAt = some t.time.cycles ∧ t.ptp.pdA.t1 = some t.now ∧ t.ptp.pdB = s.ptp.pdB
        ∧ t.net.ptpTx = s.net.ptpTx ++ [(.a, s.pdelayFrame ⟨false, s.portId .a, (s.ptp.pdA.seq + 1) % 2 ^ 16, 0, none, none⟩)]
        ∧ t.regs = s.regs)
    ∧ (s.ptpPort .a = true → s.ptpPort .b = true → ∃ t, exec (.pdelayReqSend false false) s = .next t ∧ t.faultSet Flt.tsOvf = true
        ∧ t.ptp.pdA.t1 = none ∧ t.ptp.pdB.t1 = none ∧ t.ptp.pdA.skipNext = true ∧ t.ptp.pdB.skipNext = true)
    ∧ (∀ (okA okB : Bool), s.ptpPort .a = false → s.ptpPort .b = false → ∃ t, exec (.pdelayReqSend okA okB) s = .next t
        ∧ t.ptp = { s.ptp with pdAt := some t.time.cycles } ∧ t.net = s.net ∧ t.regs = s.regs)
    ∧ (∀ (p : Port) (m : PdelayRespMsg) (t1 : HubTime) (d : Int), (s.pd p).t1 = some t1 → m.seq = (s.pd p).seq → m.stampOk = true →
        (s.pd p).skipNext = false →
        ((((htNs m.rx : Int) - htNs t1) * 2 ^ 16 - m.turnaround) :: (s.pd p).hist.take 7).sum = d * ((2 * (((s.pd p).hist.take 7).length + 1) : Nat) : Int) * 2 ^ 12 →
        ∃ t, exec (.pdelayRespRx p m) s = .next t ∧ t.fld (linkDelayFld p) = unsigned 32 d ∧ (t.pd p).t1 = none
        ∧ (t.pd p).lastResp = s.time.cycles ∧ (t.pd p).lost = false
        ∧ (t.pd p).hist = ((((htNs m.rx : Int) - htNs t1) * 2 ^ 16 - m.turnaround) :: (s.pd p).hist).take 8
        ∧ s.regsBut t [(linkDelayFld p).addr])
    ∧ (∀ (p : Port) (m : PdelayRespMsg) (t1 : HubTime), (s.pd p).t1 = some t1 → m.seq = (s.pd p).seq → m.stampOk = true →
        (s.pd p).skipNext = true → exec (.pdelayRespRx p m) s = .next (s.modPd p fun d => { d with t1 := none, skipNext := false }))
    ∧ (∀ (p : Port) (m : PdelayRespMsg), ((s.pd p).t1 = none ∨ m.seq ≠ (s.pd p).seq) → m.stampOk = true →
        exec (.pdelayRespRx p m) s = .next (s))
    ∧ (∀ (p : Port), (s.pd p).asked = true → (s.pd p).lost = false → ∃ t, exec (.pdelayFail p) s = .next t
        ∧ t.fld (linkDelayFld p) = 0xFFFFFFFF ∧ (t.pd p).hist = [] ∧ (t.pd p).lost = true
        ∧ (s.pd p).lastResp + 3 * logCycles s.logPdelay ≤ t.time.cycles ∧ (t.reg (0x1000 * pgPTP + 0x010)).getLsbD Irq.pdelayFail.bit = true
        ∧ s.regsBut t [(linkDelayFld p).addr, 0x1000 * pgPTP + 0x010])
    ∧ (∀ (p : Port) (m : PdelayReqMsg), m.stampOk = true → s.ptpPort p = true → ∃ t, exec (.pdelayReqRx p m) s = .next t
        ∧ t.net.ptpTx = s.net.ptpTx ++ [(p, s.pdelayFrame ⟨true, s.portId p, m.seq, ((htNs m.tx : Int) - htNs m.rx) * 2 ^ 16, some ⟨0, 0⟩, some m.src⟩)]
        ∧ (p = .a → t.fld F.PTP.PDELAY_RESP_CNT.A = min (2 ^ F.PTP.PDELAY_RESP_CNT.A.width - 1) (s.fld F.PTP.PDELAY_RESP_CNT.A + 1))
        ∧ (p = .b → t.fld F.PTP.PDELAY_RESP_CNT.B = min (2 ^ F.PTP.PDELAY_RESP_CNT.B.width - 1) (s.fld F.PTP.PDELAY_RESP_CNT.B + 1))
        ∧ s.regsBut t [F.PTP.PDELAY_RESP_CNT.A.addr, F.PTP.PDELAY_RESP_CNT.B.addr])
    ∧ (∀ (p : Port) (m : PdelayReqMsg), m.stampOk = false → s.ptpPort p = true → ∃ t, exec (.pdelayReqRx p m) s = .next t
        ∧ t.faultSet Flt.tsOvf = true ∧ (t.pd p).skipNext = true ∧ t.net.ptpTx = s.net.ptpTx)
    ∧ (∀ (p : Port) (e : TcEntry), (s.tcSums p).getLast? = some e → ∃ t, exec (.tcEntryExpire p) s = .next t
        ∧ t.tcSums p = (s.tcSums p).dropLast ∧ e.at_ + 500000000 ≤ t.time.cycles
        ∧ t.fld F.PTP.FU_MISS_CNT.CNT = min (2 ^ 32 - 1) (s.fld F.PTP.FU_MISS_CNT.CNT + 1) ∧ s.regsBut t [F.PTP.FU_MISS_CNT.CNT.addr])

/-! ## Holdover and the fatal faults of time (R64, R65, R416) -/

/-- In LOCKING, LOCKED or PENDING with no step scheduled, HOLDOVER_ENTRY lets time run to LOSS_TIMEOUT after the last offset and enters
HOLDOVER at the rate of FREQ_INT (R60, R64). PLL_RELOCK ends the causes of PLL_UNLOCK and REFCLK_LOSS and changes nothing else (R65). That
a timed command lets time run on to its instant is the model's choice (log entry 6). -/
def Obligations.HoldoverBeginsWithoutOffsets : Prop :=
  ∀ s : State, s.quiet = true → s.bit (F.HDR.INT_ROUTE.INBAND pgTIME) = false →
    ((s.servoSt = svLocking ∨ s.servoSt = svLocked ∨ s.servoSt = svPending) → s.stepSched = false → ∃ t, exec .holdoverEntry s = .next t
        ∧ t.servoSt = svHoldover ∧ t.fld F.TIME.FREQ_ADJ.ADJ = s.fld F.TIME.FREQ_INT.INT ∧ s.servo.lastCycles + s.lossCycles ≤ t.time.cycles
        ∧ t.servo.holdAt = some t.time.cycles ∧ (t.reg (0x1000 * pgTIME + 0x010)).getLsbD Irq.holdover.bit = true
        ∧ t.bit F.TIME.TIME_STATE.BACK_PENDING = false ∧ t.bit F.TIME.TIME_STATE.FWD_PENDING = false ∧ t.servo.prev = none
        ∧ t.fld F.TIME.FREQ_INT.INT = s.fld F.TIME.FREQ_INT.INT)
    ∧ ((s.servoSt = svFree ∨ s.servoSt = svHoldover ∨ s.servoSt = svStopped ∨ s.stepSched = true) → exec .holdoverEntry s = .next (s))
    ∧ (exec .pllRelock s = .next (s.modServo fun v => { v with pllBad := false, refBad := false }))

/-- On a SOLO hub a HOLDOVER that reaches a non-zero HOLDOVER_LIMIT, a PLL unlock and a reference loss each set their fault, take the
servo to STOPPED at FREQ_INT (R64, R65), and leave the rim log frozen (R434). That a timed command lets time run on to its instant is the
model's choice (log entry 6). -/
def Obligations.FatalTimeFaultsStopTheServo : Prop :=
  ∀ s : State, s.quiet = true → s.role = roleSolo → s.bit (F.HDR.INT_ROUTE.INBAND pgTIME) = false → s.bit (F.HDR.INT_ROUTE.INBAND pgRIM) = false →
    (s.servoSt = svHoldover → s.fld F.TIME.HOLDOVER_LIMIT.LIMIT ≠ 0 → ∃ t, exec .holdoverExpired s = .next t ∧ t.servoSt = svStopped
        ∧ t.faultSet Flt.holdoverExpired = true ∧ t.servo.expired = true ∧ t.bit F.RIM.RIM_STS.FROZEN = true
        ∧ t.fld F.TIME.FREQ_ADJ.ADJ = s.fld F.TIME.FREQ_INT.INT
        ∧ s.servo.holdAt.getD 0 + s.fld F.TIME.HOLDOVER_LIMIT.LIMIT * 500000000 ≤ t.time.cycles)
    ∧ ((s.servoSt ≠ svHoldover ∨ s.fld F.TIME.HOLDOVER_LIMIT.LIMIT = 0) → exec .holdoverExpired s = .next (s))
    ∧ (∃ t, exec .pllUnlock s = .next t ∧ t.servoSt = svStopped ∧ t.faultSet Flt.pllUnlock = true ∧ t.servo.pllBad = true
        ∧ t.bit F.RIM.RIM_STS.FROZEN = true ∧ t.stepSched = false ∧ t.fld F.TIME.FREQ_ADJ.ADJ = s.fld F.TIME.FREQ_INT.INT
        ∧ t.timeSet = s.timeSet ∧ t.time = s.time)
    ∧ (∃ t, exec .refclkLoss s = .next t ∧ t.servoSt = svStopped ∧ t.faultSet Flt.refclkLoss = true ∧ t.servo.refBad = true
        ∧ t.bit F.RIM.RIM_STS.FROZEN = true ∧ t.stepSched = false ∧ t.fld F.TIME.FREQ_ADJ.ADJ = s.fld F.TIME.FREQ_INT.INT
        ∧ t.timeSet = s.timeSet ∧ t.time = s.time)

/-- With PPS_OUT_CTL.EN set, and with GATE only while TIME_SET is 1 and STATE is LOCKED or HOLDOVER, the pulse of the next boundary is
given and stays high for WIDTH µs (R76). A chosen edge on PPS_IN leaves its time in the PPS_IN registers, is counted, and sets PPS_IN_OVR
if the stamp before it was not read (R77). That a timed command lets time run on to its instant is the model's choice (log entry 6). -/
def Obligations.PpsPulsesAndStamps : Prop :=
  ∀ s : State, s.quiet = true → s.bit (F.HDR.INT_ROUTE.INBAND pgTIME) = false →
    (s.bit F.TIME.PPS_OUT_CTL.EN = true → (s.bit F.TIME.PPS_OUT_CTL.GATE = false ∨ (s.timeSet = true
        ∧ (s.servoSt = svLocked ∨ s.servoSt = svHoldover))) → ∃ t, exec .ppsOutPulse s = .next t ∧ t.pins.pps = s.ppsNext :: s.pins.pps
        ∧ t.time.pulsed = some s.ppsNext ∧ t.pins.ppsUntil = t.time.cycles + 500 * min 999999 (max 1 (s.fld F.TIME.PPS_OUT_CTL.WIDTH))
        ∧ ((s.ppsNext * nsPerSec : Nat) : Int) + s.ppsOffset ≤ t.nowNs ∧ t.regs = s.regs)
    ∧ ((s.bit F.TIME.PPS_OUT_CTL.EN = false ∨ (s.bit F.TIME.PPS_OUT_CTL.GATE = true ∧ (s.timeSet = false ∨ (s.servoSt ≠ svLocked
        ∧ s.servoSt ≠ svHoldover)))) → ∃ t, exec .ppsOutPulse s = .next t ∧ t.pins = s.pins ∧ t.time.pulsed = s.time.pulsed
        ∧ t.time.ppsSeen = s.ppsNext + 1 ∧ t.regs = s.regs)
    ∧ (∀ (rising : Bool) (st : Stamp), s.bit F.TIME.PPS_IN_CTL.EN = true → rising = !s.bit F.TIME.PPS_IN_CTL.EDGE → st.sec < 2 ^ 48 →
        st.ns < 2 ^ 30 → st.frac < 16 → ∃ t, exec (.ppsInEdge rising st) s = .next t ∧ t.fld F.TIME.PPS_IN_NS.NS = st.ns
        ∧ t.fld F.TIME.PPS_IN_SEC_LO.SEC_LO = st.sec % 2 ^ 32 ∧ t.fld F.TIME.PPS_IN_SEC_HI.SEC_HI = st.sec / 2 ^ 32
        ∧ t.fld F.TIME.PPS_IN_SEC_HI.FRAC = st.frac
        ∧ t.fld F.TIME.PPS_IN_CNT.CNT = min (2 ^ F.TIME.PPS_IN_CNT.CNT.width - 1) (s.fld F.TIME.PPS_IN_CNT.CNT + 1)
        ∧ t.bit F.TIME.TIME_STATE.PPS_IN_OVR = (s.bit F.TIME.TIME_STATE.PPS_IN_OVR || s.pins.ppsUnread) ∧ t.pins.ppsUnread = true
        ∧ t.servo = s.servo ∧ t.time = s.time ∧ (t.reg (0x1000 * pgTIME + 0x010)).getLsbD Irq.ppsIn.bit = true)
    ∧ (∀ (rising : Bool) (st : Stamp), (s.bit F.TIME.PPS_IN_CTL.EN = false ∨ rising = s.bit F.TIME.PPS_IN_CTL.EDGE) →
        exec (.ppsInEdge rising st) s = .next (s))

/-! ## The tick grid (R83 to R108) -/

/-- Enabling an OFF grid takes it to RUN, or to WAIT_TIME with WAIT_TIME_SET and no time set, and disabling to OFF (R103, R109). In RUN
the grid instant that comes next is reached and issued as a tick where R89 admits it, with the index and instant of R85 to R88 and the
echoes of R97; in CATCHUP it ends CATCHUP (R105). One not admitted counts in SKIP_CNT while EN is set (R89). Where the words of the spec
leave room it follows the readings of log entries 6 and 9, which are the model's. -/
def Obligations.GridIsSwitchedAndTicksAreIssued : Prop :=
  ∀ s : State, s.quiet = true → s.bit (F.HDR.INT_ROUTE.INBAND pgTICK) = false →
    (∀ (v : Reg), s.bit F.TICK.TICK_CTL.EN = false → s.gridSt = gridOff → v.getLsbD 0 = true → ∃ t, exec (.tickEnWrite v) s = .next t
        ∧ t.bit F.TICK.TICK_CTL.EN = true ∧ t.bit F.TICK.TICK_CTL.WAIT_TIME_SET = v.getLsbD 1
        ∧ t.bit F.TICK.TICK_CTL.ALIGN_WALE = v.getLsbD 2
        ∧ (t.gridSt = (if s.booting then gridOff else if v.getLsbD 1 && !s.timeSet then gridWait else gridRun)) ∧ t.time = s.time
        ∧ t.grid.last = s.grid.last)
    ∧ (∀ (v : Reg), s.gridSt ≠ gridSleep → v.getLsbD 0 = false → ∃ t, exec (.tickEnWrite v) s = .next t ∧ t.bit F.TICK.TICK_CTL.EN = false
        ∧ t.gridSt = gridOff ∧ t.bit F.TICK.TICK_CTL.WAIT_TIME_SET = v.getLsbD 1 ∧ t.bit F.TICK.TICK_CTL.ALIGN_WALE = v.getLsbD 2
        ∧ (v.getLsbD 2 = false → t.fld F.TICK.WALE_CORR.CORR = 0) ∧ t.time = s.time ∧ t.grid.last = s.grid.last)
    ∧ (∀ (v : Reg), s.bit F.TICK.TICK_CTL.EN = true → s.gridSt = gridWait → s.booting = false → v.getLsbD 0 = true → v.getLsbD 1 = false →
        ∃ t, exec (.tickEnWrite v) s = .next t ∧ t.gridSt = gridRun ∧ (t.reg (0x1000 * pgTICK + 0x010)).getLsbD Irq.resumed.bit = true
        ∧ t.bit F.TICK.TICK_CTL.WAIT_TIME_SET = false ∧ t.time = s.time ∧ t.grid.last = s.grid.last)
    ∧ (∀ (bad : BitVec 32), (s.gridSt = gridRun ∨ s.gridSt = gridCatchup) → s.countAt s.cycleTu ≤ s.grid.cur → s.boundaryFirst = false →
        s.gridFree s.grid.cur = true → ∃ t, exec (.gridInstant bad) s = .next t
        ∧ (t.grid.last.map (fun x => (x.idx, x.n, x.at_, x.bad)) = some (idxOf s.tickPeriod s.grid.cur, s.grid.cur % 2 ^ 64, s.gridTu s.grid.cur, bad))
        ∧ t.fld64 F.TICK.LAST_IDX_LO.IDX_LO F.TICK.LAST_IDX_HI.IDX_HI = idxOf s.tickPeriod s.grid.cur ∧ t.grid.cur = s.grid.cur + 1
        ∧ t.grid.gap = 0 ∧ t.gridSt = gridRun ∧ s.gridTu s.grid.cur * 2 ^ 25 < t.finePos + s.cycleStep
        ∧ t.fld F.TICK.STROBE_FLT_GROUPS.GROUPS = s.fld F.TICK.STROBE_FLT_GROUPS.GROUPS ||| bad.toNat
        ∧ (bad = 0 ∨ t.faultSet Flt.strobeEcho = true) ∧ (s.gridSt = gridCatchup →
        (t.reg (0x1000 * pgTICK + 0x010)).getLsbD Irq.resumed.bit = true) ∧ t.fld F.TICK.SKIP_CNT.CNT = s.fld F.TICK.SKIP_CNT.CNT)
    ∧ (∀ (bad : BitVec 32), (s.gridSt = gridOff ∨ s.gridSt = gridWait ∨ s.gridSt = gridSleep ∨ s.gridFree s.grid.cur = false) →
        s.countAt s.cycleTu ≤ s.grid.cur → s.boundaryFirst = false → ∃ t, exec (.gridInstant bad) s = .next t ∧ t.grid.last = s.grid.last
        ∧ t.grid.cur = s.grid.cur + 1 ∧ t.grid.gap = s.grid.gap + 1 ∧ t.gridSt = s.gridSt
        ∧ (t.fld F.TICK.SKIP_CNT.CNT = (if s.bit F.TICK.TICK_CTL.EN then min (2 ^ 32 - 1) (s.fld F.TICK.SKIP_CNT.CNT + 1) else s.fld F.TICK.SKIP_CNT.CNT))
        ∧ s.regsBut t [F.TICK.SKIP_CNT.CNT.addr])

/-- At a second boundary with no step scheduled every enabled queue with room takes an EPOCH packet (R53, R301, R311), the configuration
digest is taken (R394), and the timekeeper drives a WSYNC pulse (R362). A scheduled step sets hub time to B - e at its boundary, places
TIME_STEP and EPOCH, counts and raises STEP_DONE (R61, R62), and a running grid goes to CATCHUP after a backward one (R104, R105). A
commit of the TICK page that is due is made at the coming boundary (R90). That a timed command lets time run on to its instant is the
model's choice (log entry 6). Where the words of the spec leave room it follows the readings of log entries 25, 37 and 63, which are the
model's. -/
def Obligations.SecondsAndStepsOfHubTime : Prop :=
  ∀ s : State, s.quiet = true → s.leads = true → s.mirrored = false → s.bit (F.HDR.INT_ROUTE.INBAND pgTIME) = false → s.bit (F.HDR.INT_ROUTE.INBAND pgTICK) = false → (((List.range 64).all fun q => !s.bit (F.HDR.INT_ROUTE.INBAND (pgQ q))) = true) →
    (s.stepAt s.nextSecond = false → s.tickCommitDue s.nextSecond = false → s.timekeeper = false →
        (((List.range 64).all fun q => !s.qOpen q) = true) →
        (((List.range 64).all fun q => decide ((s.getQ q).wp = (s.getQ q).wp2) && decide ((s.getQ q).rp = (s.getQ q).rp2)) = true) →
        ∃ t, exec .secondBoundary s = .next t ∧ t.time.epoch = ⟨s.nextSecond, 0⟩ ∧ t.time.crossed = false
        ∧ s.nextSecond * nsPerSec ≤ t.nowNs ∧ t.pair.ownDigest = some s.digest ∧ t.regs = s.regs)
    ∧ (∀ (q : Fin 64), s.stepAt s.nextSecond = false → s.tickCommitDue s.nextSecond = false → s.nextSecond < 2 ^ 48 →
        (((List.range 64).all fun q => decide ((s.getQ q).wp = (s.getQ q).wp2) && decide ((s.getQ q).rp = (s.getQ q).rp2)) = true) →
        s.qOpen q.val = true → (s.getQ q.val).pend = {} → (s.getQ q.val).held = 0 → 4 + 2 ≤ s.qFree q.val →
        (((List.range 64).all fun r => decide (r = q.val) || !s.qOpen r) = true) → (s.getQ q.val).wp < s.qMod q.val →
        ∃ t, exec .secondBoundary s = .next t ∧ t.time.epoch = ⟨s.nextSecond, 0⟩
        ∧ (t.getQ q.val).pkts = (s.getQ q.val).pkts ++ [⟨4, typMarker, t.ns32, t.fld F.TICK.LAST_IDX_LO.IDX_LO, some ⟨s.nextSecond, 0⟩, false⟩]
        ∧ ((List.range 4).map (fun i => t.qWord (t.qAddr q.val ((s.getQ q.val).wp + i))) = pktHdr q.val typMarker 3 :: epochWords ⟨s.nextSecond, 0⟩)
        ∧ (t.getQ q.val).wp = ((s.getQ q.val).wp + 4) % s.qMod q.val ∧ (t.getQ q.val).rp = (s.getQ q.val).rp
        ∧ t.fld (F.Q.WR_PKT_CNT.CNT q.val) = min (2 ^ 32 - 1) (s.fld (F.Q.WR_PKT_CNT.CNT q.val) + 1) ∧ t.pair.ownDigest = some t.digest)
    ∧ (∀ (q : Fin 64), s.stepAt s.nextSecond = false → s.tickCommitDue s.nextSecond = false →
        (((List.range 64).all fun q => decide ((s.getQ q).wp = (s.getQ q).wp2) && decide ((s.getQ q).rp = (s.getQ q).rp2)) = true) →
        s.qOpen q.val = true → (s.getQ q.val).pend = {} → (s.getQ q.val).held = 0 → 4 + 2 ≤ s.qFree q.val →
        ∃ t, exec .secondBoundary s = .next t ∧ t.time.epoch = ⟨s.nextSecond, 0⟩
        ∧ (t.getQ q.val).pkts.length = (s.getQ q.val).pkts.length + 1
        ∧ ((t.getQ q.val).pkts.getLast?.map (fun p => (p.len, p.typ, p.epoch)) = some (4, typMarker, some ⟨s.nextSecond, 0⟩)))
    ∧ (s.stepAt s.nextSecond = false → s.tickCommitDue s.nextSecond = false → s.timekeeper = true → s.waleDriving 8 = false →
        s.bit (F.HDR.INT_ROUTE.INBAND pgWALE) = false → ∃ t, exec .secondBoundary s = .next t ∧ t.time.epoch = ⟨s.nextSecond, 0⟩
        ∧ t.wale.sent = 8 :: s.wale.sent ∧ t.fld F.WALE.TX_CNT.CNT = min (2 ^ F.WALE.TX_CNT.CNT.width - 1) (s.fld F.WALE.TX_CNT.CNT + 1)
        ∧ t.bit F.WALE.WALE_STS.WSYNC_OK = true)
    ∧ (∀ (bd : Nat) (e : Int), s.servo.sched = some (bd, e) → 0 ≤ ((bd * nsPerSec : Nat) : Int) - e →
        ((bd * nsPerSec : Nat) : Int) - e < (2 ^ 48 * nsPerSec : Nat) → s.nowNs ≤ bd * nsPerSec → s.fld F.TIME.FREQ_ADJ.ADJ = 0 →
        s.tickCommitDue bd = false → ∃ t, exec .stepApplied s = .next t ∧ (t.nowNs : Int) = ((bd * nsPerSec : Nat) : Int) - e
        ∧ t.stepSched = false ∧ t.servo.sched = none ∧ t.timeSet = true ∧ t.servoSt = svLocking
        ∧ (t.reg (0x1000 * pgTIME + 0x010)).getLsbD Irq.stepDone.bit = true ∧ t.servo.prev = none ∧ t.servo.steps = s.servo.steps + 1
        ∧ t.time.epoch = t.now ∧ (0 < e → t.fld F.TIME.STEP_CNT.BACK = min (2 ^ 16 - 1) (s.fld F.TIME.STEP_CNT.BACK + 1)) ∧ (e ≤ 0 →
        t.fld F.TIME.STEP_CNT.FWD = min (2 ^ 16 - 1) (s.fld F.TIME.STEP_CNT.FWD + 1))
        ∧ (((List.range 256).all fun x => !s.cxWrites x || (t.getCtx x).tstep) = true) ∧ ((0 < e ∧ s.gridSt = gridRun) →
        (t.gridSt = gridCatchup ∧ (t.reg (0x1000 * pgTICK + 0x010)).getLsbD Irq.catchup.bit = true)) ∧ t.pair.ownDigest.isSome = true)
    ∧ (∀ (bd : Nat) (e : Int) (q : Fin 64), s.servo.sched = some (bd, e) → 0 ≤ ((bd * nsPerSec : Nat) : Int) - e →
        ((bd * nsPerSec : Nat) : Int) - e < (2 ^ 48 * nsPerSec : Nat) → s.nowNs ≤ bd * nsPerSec → s.fld F.TIME.FREQ_ADJ.ADJ = 0 →
        s.tickCommitDue bd = false → (((List.range 512).all fun c => (s.getChan c).pkt.isNone) = true) →
        (((List.range 64).all fun q => decide ((s.getQ q).wp = (s.getQ q).wp2) && decide ((s.getQ q).rp = (s.getQ q).rp2)) = true) →
        s.qOpen q.val = true → (s.getQ q.val).pend = {} → (s.getQ q.val).held = 0 → 5 + 2 ≤ s.qFree q.val →
        ∃ t, exec .stepApplied s = .next t ∧ (t.getQ q.val).pkts.length = (s.getQ q.val).pkts.length + 1
        ∧ ((t.getQ q.val).pkts.getLast?.map (fun p => (p.len, p.typ, p.epoch)) = some (5, typMarker, some t.now)))
    ∧ (s.tickCommitDue s.nextSecond = true → s.stepAt s.nextSecond = false →
        (s.stg F.TICK.TICK_PERIOD.PERIOD.addr ≠ s.reg F.TICK.TICK_PERIOD.PERIOD.addr) →
        s.stg F.TICK.TICK_PERIOD.PERIOD.addr &&& 0xFFF00000#32 = 0#32 → s.reg F.TICK.TICK_PERIOD.PERIOD.addr &&& 0xFFF00000#32 = 0#32 →
        ∃ t, exec .tickCommitApply s = .next t ∧ t.reg F.TICK.TICK_PERIOD.PERIOD.addr = s.stg F.TICK.TICK_PERIOD.PERIOD.addr
        ∧ t.fld F.TICK.TICK_PHASE.PHASE_NS = (s.stg F.TICK.TICK_PHASE.PHASE_NS.addr).toNat % 2 ^ F.TICK.TICK_PHASE.PHASE_NS.width
        ∧ t.fld F.TICK.TICK_PHASE_FRAC.FRAC = (s.stg F.TICK.TICK_PHASE_FRAC.FRAC.addr).toNat % 2 ^ F.TICK.TICK_PHASE_FRAC.FRAC.width
        ∧ (t.reg (0x1000 * pgTICK + 0x010)).getLsbD Irq.gridChanged.bit = true ∧ t.commitOf pgTICK = none
        ∧ s.nextSecond * nsPerSec ≤ t.nowNs ∧ t.grid.cur = t.countAt (s.nextSecond * nsPerSec * 64)
        ∧ s.nextSecond * nsPerSec * 64 + t.phaseTu ≤ t.grid.notBefore ∧ t.grid.last = s.grid.last)
    ∧ ((s.tickCommitDue s.nextSecond = false ∨ s.stepAt s.nextSecond = true) → exec .tickCommitApply s = .next (s))

/-- A measurement of TJ is shown in TJ.TEMP, moves the factory part of every trim by at most one code, and makes the trims due at the next
tick (R98, R99). With ALIGN_WALE set an arrival of WSYNC within 16 ns of the own second is the new target of the correction; one further
off raises ALIGN_FAIL and leaves WALE_CORR; the third in a row takes the target to 0 (R102). -/
def Obligations.TrimsAndWaleAlignment : Prop :=
  ∀ s : State, s.quiet = true → s.bit (F.HDR.INT_ROUTE.INBAND pgTICK) = false →
    (∀ (x : BitVec 16), ∃ t, exec (.tjMeasure x) s = .next t ∧ t.fld F.TICK.TJ.TEMP = x.toNat ∧ t.grid.trimDue = true
        ∧ (((List.range 512).all fun c => decide ((sget 0 t.grid.trimF c - sget 0 s.grid.trimF c).natAbs ≤ 1)) = true)
        ∧ s.regsBut t [F.TICK.TJ.TEMP.addr])
    ∧ (∀ (x : BitVec 16) (c : Fin 512), s.bit F.TICK.TRIM_CTL.TEMP_TRACK = false → ∃ t, exec (.tjMeasure x) s = .next t
        ∧ sget 0 t.grid.trimF c.val = clampInt (sget 0 s.grid.trimF c.val - 1) (sget 0 s.grid.trimF c.val + 1) (s.trimCodes c.val).2.1)
    ∧ (∀ (arrival : Int), s.waleOn = true → s.timekeeper = false → arrival.natAbs ≤ 64000 → s.bit F.TICK.TICK_CTL.ALIGN_WALE = true →
        (arrival - s.lineDly 8).natAbs ≤ 1024 → ∃ t, exec (.wsyncAlign arrival) s = .next t ∧ t.grid.waleTarget = arrival - s.lineDly 8
        ∧ t.grid.waleFails = 0 ∧ t.bit F.WALE.WALE_STS.WSYNC_OK = true ∧ t.wale.wsyncAt = s.time.cycles
        ∧ s.regsBut t [F.WALE.WALE_STS.WSYNC_OK.addr])
    ∧ (∀ (arrival : Int), s.waleOn = true → s.timekeeper = false → arrival.natAbs ≤ 64000 → s.bit F.TICK.TICK_CTL.ALIGN_WALE = true →
        1024 < (arrival - s.lineDly 8).natAbs → ∃ t, exec (.wsyncAlign arrival) s = .next t ∧ t.grid.waleFails = s.grid.waleFails + 1
        ∧ (t.grid.waleTarget = (if 2 ≤ s.grid.waleFails then 0 else s.sfld F.TICK.WALE_CORR.CORR))
        ∧ (t.reg (0x1000 * pgTICK + 0x010)).getLsbD Irq.alignFail.bit = true
        ∧ s.regsBut t [0x1000 * pgTICK + 0x010, F.WALE.WALE_STS.WSYNC_OK.addr])
    ∧ (∀ (arrival : Int), s.waleOn = true → arrival.natAbs ≤ 64000 → (s.timekeeper = true ∨ s.bit F.TICK.TICK_CTL.ALIGN_WALE = false) →
        ∃ t, exec (.wsyncAlign arrival) s = .next t ∧ t.grid = s.grid ∧ t.bit F.WALE.WALE_STS.WSYNC_OK = true
        ∧ t.wale.wsyncAt = s.time.cycles ∧ s.regsBut t [F.WALE.WALE_STS.WSYNC_OK.addr])
    ∧ (∀ (arrival : Int), (s.waleOn = false ∨ 64000 < arrival.natAbs) → exec (.wsyncAlign arrival) s = .next (s))

/-! ## Inputs and excitation (R116 to R143) -/

/-- A mean of the sense monitor is shown in EXC_SENSE (R120), and with REG set on a hub that is awake and does not follow the DAC code
moves toward the code needed by at most 8 (R121); sense below the threshold is noted and raises EXC_LOW (R122); a failing output monitor
sets the fault EXD_MON, and the DAC code stays (R123). -/
def Obligations.ExcitationIsRegulatedAndMonitored : Prop :=
  ∀ (g : Fin 32) (s : State), s.quiet = true → s.bit (F.HDR.INT_ROUTE.INBAND (pgFE g.val)) = false →
    (∀ (mean : BitVec 16) (need : Nat), s.bit (F.FE.EXC_CTL.REG g.val) = true → s.follows = false → s.awake = true → need ≤ 65535 →
        ∃ t, exec (.excRegulate g mean need) s = .next t ∧ t.fld (F.FE.EXC_SENSE.SENSE g.val) = mean.toNat
        ∧ t.fld (F.FE.EXC_DAC.CODE g.val) = dacStep (s.fld (F.FE.EXC_DAC.CODE g.val)) need
        ∧ t.fld (F.FE.EXC_DAC.CODE g.val) ≤ s.fld (F.FE.EXC_DAC.CODE g.val) + 8
        ∧ s.fld (F.FE.EXC_DAC.CODE g.val) ≤ t.fld (F.FE.EXC_DAC.CODE g.val) + 8
        ∧ s.regsBut t [(F.FE.EXC_SENSE.SENSE g.val).addr, (F.FE.EXC_DAC.CODE g.val).addr])
    ∧ (∀ (mean : BitVec 16) (need : Nat), s.bit (F.FE.EXC_CTL.REG g.val) = true → s.follows = false → s.awake = true → 65535 < need →
        ∃ t, exec (.excRegulate g mean need) s = .next t ∧ t.fld (F.FE.EXC_SENSE.SENSE g.val) = mean.toNat
        ∧ t.fld (F.FE.EXC_DAC.CODE g.val) = min 65535 (s.fld (F.FE.EXC_DAC.CODE g.val) + 8)
        ∧ (t.reg (0x1000 * pgFE g.val + 0x010)).getLsbD (Irq.excLimit g.val).bit = true)
    ∧ (∀ (mean : BitVec 16) (need : Nat), (s.bit (F.FE.EXC_CTL.REG g.val) = false ∨ s.follows = true ∨ s.awake = false) →
        ∃ t, exec (.excRegulate g mean need) s = .next t ∧ t.fld (F.FE.EXC_SENSE.SENSE g.val) = mean.toNat ∧ s.onlyRegs t
        ∧ s.regsBut t [(F.FE.EXC_SENSE.SENSE g.val).addr])
    ∧ (s.fld (F.FE.EXC_MIN.MIN g.val) ≠ 0 → (s.getGroup g.val).excLow = false → ∃ t, exec (.excLow g) s = .next t
        ∧ (t.getGroup g.val).excLow = true ∧ (t.getGroup g.val).excLowAt = s.time.cycles
        ∧ (t.reg (0x1000 * pgFE g.val + 0x010)).getLsbD (Irq.excLow g.val).bit = true ∧ s.regsBut t [0x1000 * pgFE g.val + 0x010])
    ∧ ((s.fld (F.FE.EXC_MIN.MIN g.val) = 0 ∨ (s.getGroup g.val).excLow = true) → exec (.excLow g) s = .next (s))
    ∧ (exec (.excSenseRestored g) s = .next (s.modGroup g.val fun x => { x with excLow := false }))
    ∧ (∃ t, exec (.exdMon g) s = .next t ∧ t.faultSet (Flt.exdMon g.val) = true
        ∧ t.fld (F.FE.EXC_DAC.CODE g.val) = s.fld (F.FE.EXC_DAC.CODE g.val)
        ∧ t.fld (F.FE.EXC_CTL.EXC_EN g.val) = s.fld (F.FE.EXC_CTL.EXC_EN g.val))

/-- An overload detector that fires or releases shows in FE_STS.OVL, and a release notes its time (R117). A discharge asked for while a
pass of the group runs waits for its end; without one it takes place at once (R116, R125): the channel counts it, settles (R128, R144) and
its window closes (R126). A hub that follows ignores it (R387). -/
def Obligations.OverloadAndDischarge : Prop :=
  ∀ s : State, s.quiet = true →
    (∀ (c : Fin 512) (firing : Bool), ∃ t, exec (.overloadChange c firing) s = .next t ∧ t.bit (F.CH.FE_STS.OVL c.val) = firing
        ∧ s.regsBut t [(F.CH.FE_STS.OVL c.val).addr]
        ∧ (t.chan = (if s.bit (F.CH.FE_STS.OVL c.val) && !firing then (s.modChan c.val fun x => { x with ovlRel := some s.elapsedNs }).chan else s.chan)))
    ∧ (∀ (g : Fin 32) (mask : BitVec 16), s.follows = false → s.mirrored = false → s.passRuns g.val = true →
        ∃ t, exec (.qreset g mask) s = .next t
        ∧ (∀ l : Fin 16, (t.getChan (16 * g.val + l.val)).dis = ((mask.getLsbD l.val && decide (s.fld (F.CH.FE_CFG.MODE (16 * g.val + l.val)) = modeQchg)) || (s.getChan (16 * g.val + l.val)).dis))
        ∧ t.regs = s.regs ∧ t.slice = s.slice)
    ∧ (∀ (g : Fin 32) (mask : BitVec 16) (c : Fin 512), s.leads = true → s.mirrored = false → s.passRuns g.val = false →
        s.commitDue (pgCHTAB g.val) = false → c.val / 16 = g.val → mask.getLsbD (c.val % 16) = true →
        s.fld (F.CH.FE_CFG.MODE c.val) = modeQchg → (s.getChan c.val).swap = none → s.bit (F.CH.FE_STS.AR_LOW c.val) = false →
        ∃ t, exec (.qreset g mask) s = .next t ∧ (t.getChan c.val).dis = false
        ∧ t.fld (F.CH.RANGE_SW_CNT.CNT c.val) = min (2 ^ (F.CH.RANGE_SW_CNT.CNT c.val).width - 1) (s.fld (F.CH.RANGE_SW_CNT.CNT c.val) + 1)
        ∧ (t.getChan c.val).rngAt = some (laterSettle s.elapsedNs 5000 (s.getChan c.val).rngAt) ∧ t.settling c.val = true
        ∧ (t.getChan c.val).win.cnt = 0 ∧ t.time = s.time)
    ∧ (∀ (g : Fin 32) (mask : BitVec 16), s.follows = true → s.bit (F.HDR.INT_ROUTE.INBAND (pgPAIR)) = false →
        ∃ t, exec (.qreset g mask) s = .next t
        ∧ t.fld (F.PAIR.CMD_IGNORED.CNT) = min (2 ^ (F.PAIR.CMD_IGNORED.CNT).width - 1) (s.fld (F.PAIR.CMD_IGNORED.CNT) + 1)
        ∧ t.chan = s.chan ∧ t.slice = s.slice ∧ t.queue = s.queue ∧ s.onlyRegs t)

/-- An edge on BLANK_N sets the level of the pin and nothing else where no group selects a pin; on a selected pin, and by a write of
BLANK_CTL, the interval of a group starts, and its guard when no selected pin is low any more (R139, R142); the end of the guard ends it.
That a timed command lets time run on to its instant is the model's choice (log entry 6). -/
def Obligations.BlankingIntervals : Prop :=
  ∀ s : State, s.quiet = true →
    (∀ (n : Fin 4) (level : Bool), (((List.range 32).all fun g => decide (s.fld (F.FE.BLANK_CTL.SEL g) = 0) && !(s.getGroup g).blank && (s.getGroup g).guardAt.isNone) = true) →
        exec (.blankEdge n level) s = .next (s.modPins (Pins.setBlank n.val level)))
    ∧ (∀ (n : Fin 4) (level : Bool), (((List.range 32).all fun g => !s.bit (F.HDR.INT_ROUTE.INBAND (pgFE g))) = true) →
        ∃ t, exec (.blankEdge n level) s = .next t ∧ t.pins.blankN.getLsbD n.val = level ∧ t.time = s.time ∧ t.staged = s.staged)
    ∧ (∀ (n : Fin 4) (g : Fin 32), (((List.range 32).all fun g => !s.bit (F.HDR.INT_ROUTE.INBAND (pgFE g))) = true) →
        (s.fld (F.FE.BLANK_CTL.SEL g.val)).testBit n.val = true → (s.getGroup g.val).blank = false →
        ∃ t, exec (.blankEdge n false) s = .next t ∧ (t.getGroup g.val).blank = true ∧ t.bit (F.FE.BLANK_STS.ACTIVE g.val) = true
        ∧ t.fld (F.FE.BLANK_START.NS32 g.val) = s.ns32 ∧ t.fld (F.FE.BLANK_END.NS32 g.val) = 0
        ∧ (t.reg (0x1000 * pgFE g.val + 0x010)).getLsbD (Irq.blankStart g.val).bit = true)
    ∧ (∀ (n : Fin 4) (g : Fin 32), (((List.range 32).all fun g => !s.bit (F.HDR.INT_ROUTE.INBAND (pgFE g))) = true) →
        BitVec.ofNat 4 (s.fld (F.FE.BLANK_CTL.SEL g.val)) &&& ~~~ (s.pins.blankN ||| BitVec.ofNat 4 (2 ^ n.val)) = 0#4 →
        (s.getGroup g.val).blank = true → (s.getGroup g.val).guardAt = none → s.fld (F.FE.BLANK_CTL.GUARD g.val) ≠ 0 →
        ∃ t, exec (.blankEdge n true) s = .next t ∧ (t.getGroup g.val).guardAt = some s.time.cycles ∧ (t.getGroup g.val).blank = true
        ∧ t.bit (F.FE.BLANK_STS.IN_GUARD g.val) = true)
    ∧ (∀ (g : Fin 32) (v : Reg), s.bit (F.HDR.INT_ROUTE.INBAND (pgFE g.val)) = false → (s.getGroup g.val).blank = false →
        BitVec.ofNat 4 (getBits v 0 4) &&& ~~~ s.pins.blankN ≠ 0#4 → ∃ t, exec (.blankCtlWrite g v) s = .next t
        ∧ t.fld (F.FE.BLANK_CTL.SEL g.val) = getBits v 0 4 ∧ t.fld (F.FE.BLANK_CTL.GUARD g.val) = getBits v 16 10
        ∧ (t.getGroup g.val).blank = true ∧ t.bit (F.FE.BLANK_STS.ACTIVE g.val) = true ∧ t.fld (F.FE.BLANK_START.NS32 g.val) = s.ns32
        ∧ t.fld (F.FE.BLANK_END.NS32 g.val) = 0 ∧ (t.reg (0x1000 * pgFE g.val + 0x010)).getLsbD (Irq.blankStart g.val).bit = true)
    ∧ (∀ (g : Fin 32) (v : Reg), s.bit (F.HDR.INT_ROUTE.INBAND (pgFE g.val)) = false → (s.getGroup g.val).blank = true →
        (s.getGroup g.val).guardAt = none → BitVec.ofNat 4 (getBits v 0 4) &&& ~~~ s.pins.blankN = 0#4 → getBits v 16 10 ≠ 0 →
        ∃ t, exec (.blankCtlWrite g v) s = .next t ∧ t.fld (F.FE.BLANK_CTL.SEL g.val) = getBits v 0 4
        ∧ t.fld (F.FE.BLANK_CTL.GUARD g.val) = getBits v 16 10 ∧ (t.getGroup g.val).blank = true
        ∧ (t.getGroup g.val).guardAt = some s.time.cycles ∧ t.bit (F.FE.BLANK_STS.IN_GUARD g.val) = true)
    ∧ (∀ (g : Fin 32) (v : Reg), (s.getGroup g.val).blank = false → (s.getGroup g.val).guardAt = none →
        BitVec.ofNat 4 (getBits v 0 4) &&& ~~~ s.pins.blankN = 0#4 → ∃ t, exec (.blankCtlWrite g v) s = .next t
        ∧ t.fld (F.FE.BLANK_CTL.SEL g.val) = getBits v 0 4 ∧ t.fld (F.FE.BLANK_CTL.GUARD g.val) = getBits v 16 10 ∧ s.onlyRegs t
        ∧ s.regsBut t [(F.FE.BLANK_CTL.SEL g.val).addr])
    ∧ (∀ (g : Fin 32) (c0 : Nat), s.bit (F.HDR.INT_ROUTE.INBAND (pgFE g.val)) = false → (s.getGroup g.val).guardAt = some c0 →
        ∃ t, exec (.blankGuardExpire g) s = .next t ∧ (t.getGroup g.val).blank = false ∧ (t.getGroup g.val).guardAt = none
        ∧ t.bit (F.FE.BLANK_STS.ACTIVE g.val) = false ∧ t.bit (F.FE.BLANK_STS.IN_GUARD g.val) = false
        ∧ t.fld (F.FE.BLANK_END.NS32 g.val) = t.ns32 ∧ c0 + s.guardCycles g.val ≤ t.time.cycles
        ∧ (t.reg (0x1000 * pgFE g.val + 0x010)).getLsbD (Irq.blankEnd g.val).bit = true)

/-! ## Slices, passes and results (R148 to R165) -/

/-- When a wait ends the pass goes on (R153). A conversion of a tick is counted (R155), and its corrected code (R187) enters the averager:
with N = 1 its word is the latest result of the channel (R161, R163, R172). A failed common-mode check sets CM_FAIL and OPN (R134, R135),
and after a bad strobe echo the word is BLK at the last value (R97). A live conversion shows its corrected code in LIVE_CODE (R156). On a
standby the code is kept for comparison (R386). Where the words of the spec leave room it follows the readings of log entry 49, which are
the model's. -/
def Obligations.PassesConvertAndWait : Prop :=
  ∀ s : State, s.quiet = true →
    (∀ (sl : Fin 34) (p : Pass) (d : Nat) (o : Option (Nat × Bool)), (s.getSlice sl.val).pass = some p →
        s.stalledAt (pgSLICE sl.val) = false → s.bit (F.HDR.INT_ROUTE.INBAND (pgSLICE sl.val)) = false → p.ops = [.wait d o] →
        exec (.weaveDelay sl) s = .next (s.modSlice sl.val fun x => { x with pass := some { p with ops := [] } }))
    ∧ (∀ (sl : Fin 34) (p : Pass) (d : Nat) (o : Option (Nat × Bool)) (l j : Nat) (rest : List PassOp), (s.getSlice sl.val).pass = some p →
        s.stalledAt (pgSLICE sl.val) = false → s.bit (F.HDR.INT_ROUTE.INBAND (pgSLICE sl.val)) = false →
        p.ops = .wait d o :: .conv l false j :: rest → p.skipped = false → s.chEnabled (16 * p.group + l) = true →
        exec (.weaveDelay sl) s = .next (s.modSlice sl.val fun x => { x with pass := some { p with ops := .conv l false j :: rest } }))
    ∧ (∀ (sl : Fin 34) (p : Pass) (r : ConvIn) (l j : Nat), (s.getSlice sl.val).pass = some p → s.stalledAt (pgSLICE sl.val) = false →
        s.bit (F.HDR.INT_ROUTE.INBAND (pgSLICE sl.val)) = false → p.ops = [.conv l false j] → s.leads = true →
        s.produces p.tick.idx = true → s.pair.subBefore ≤ p.tick.idx → s.cal.dwell = none → p.group < 32 → l < 16 →
        p.tick.bad.getLsbD p.group = false → r.cmFail = false → s.excApplies (16 * p.group + l) = false →
        s.bit (F.CH.FE_STS.OPN_ACTIVE (16 * p.group + l)) = false → s.bit (F.CH.FE_STS.AR_LOW (16 * p.group + l)) = false →
        s.bit (F.CH.FE_CFG.AR_EN (16 * p.group + l)) = false → s.avgN (16 * p.group + l) = 1 → (s.getChan (16 * p.group + l)).win.cnt = 0 →
        (s.getChan (16 * p.group + l)).win.sum = 0 → (s.getChan (16 * p.group + l)).win.fl = {} →
        ∃ t, exec (.conversionComplete sl r) s = .next t
        ∧ t.fld (F.SLICE.CONV_CNT.CNT sl.val) = min (2 ^ (F.SLICE.CONV_CNT.CNT sl.val).width - 1) (s.fld (F.SLICE.CONV_CNT.CNT sl.val) + 1)
        ∧ t.fld (F.SLICE.CONV_TMAX.TMAX sl.val) = max (s.fld (F.SLICE.CONV_TMAX.TMAX sl.val)) (satNat 1023 r.ns)
        ∧ (t.getChan (16 * p.group + l)).res = some (⟨(averagerValue (correct p.par r.raw.toInt) (s.bit (F.CH.AVG_CFG.RND (16 * p.group + l))) (s.fld (F.CH.AVG_CFG.SHIFT (16 * p.group + l)))).1, { ovr := p.ovrAt.getLsbD l || (averagerValue (correct p.par r.raw.toInt) (s.bit (F.CH.AVG_CFG.RND (16 * p.group + l))) (s.fld (F.CH.AVG_CFG.SHIFT (16 * p.group + l)))).2, rtr := p.rtrAt.getLsbD l, cals := p.cals }⟩, p.tick.idx)
        ∧ (t.getChan (16 * p.group + l)).freshQ = true ∧ (t.getChan (16 * p.group + l)).freshM = true
        ∧ (t.getChan (16 * p.group + l)).lastVal = correct p.par r.raw.toInt ∧ (t.getChan (16 * p.group + l)).win = {}
        ∧ t.fld (F.CH.WIN_CNT.CNT (16 * p.group + l)) = min (2 ^ (F.CH.WIN_CNT.CNT (16 * p.group + l)).width - 1) (s.fld (F.CH.WIN_CNT.CNT (16 * p.group + l)) + 1)
        ∧ t.bit (F.CH.FE_STS.CM_FAIL (16 * p.group + l)) = false ∧ (t.getSlice sl.val).pass.map Pass.ops = some [])
    ∧ (∀ (sl : Fin 34) (p : Pass) (r : ConvIn) (l j : Nat), (s.getSlice sl.val).pass = some p → s.stalledAt (pgSLICE sl.val) = false →
        s.bit (F.HDR.INT_ROUTE.INBAND (pgSLICE sl.val)) = false → p.ops = [.conv l false j] → s.leads = true →
        s.produces p.tick.idx = true → s.pair.subBefore ≤ p.tick.idx → s.cal.dwell = none → p.group < 32 → l < 16 →
        p.tick.bad.getLsbD p.group = false → r.cmFail = false → s.excApplies (16 * p.group + l) = false →
        s.bit (F.CH.FE_STS.OPN_ACTIVE (16 * p.group + l)) = false → s.bit (F.CH.FE_STS.AR_LOW (16 * p.group + l)) = false →
        s.bit (F.CH.FE_CFG.AR_EN (16 * p.group + l)) = false → s.avgAlign (16 * p.group + l) = false →
        (s.getChan (16 * p.group + l)).win.cnt + 1 < s.avgN (16 * p.group + l) → ∃ t, exec (.conversionComplete sl r) s = .next t
        ∧ t.fld (F.SLICE.CONV_CNT.CNT sl.val) = min (2 ^ (F.SLICE.CONV_CNT.CNT sl.val).width - 1) (s.fld (F.SLICE.CONV_CNT.CNT sl.val) + 1)
        ∧ t.fld (F.SLICE.CONV_TMAX.TMAX sl.val) = max (s.fld (F.SLICE.CONV_TMAX.TMAX sl.val)) (satNat 1023 r.ns)
        ∧ (t.getChan (16 * p.group + l)).win.cnt = (s.getChan (16 * p.group + l)).win.cnt + 1
        ∧ (t.getChan (16 * p.group + l)).win.sum = (s.getChan (16 * p.group + l)).win.sum + correct p.par r.raw.toInt
        ∧ (t.getChan (16 * p.group + l)).win.lastIdx = p.tick.idx ∧ (t.getChan (16 * p.group + l)).res = (s.getChan (16 * p.group + l)).res
        ∧ (t.getChan (16 * p.group + l)).lastVal = correct p.par r.raw.toInt ∧ (t.getSlice sl.val).pass.map Pass.ops = some []
        ∧ t.queue = s.queue)
    ∧ (∀ (sl : Fin 34) (p : Pass) (r : ConvIn) (l j : Nat), (s.getSlice sl.val).pass = some p → s.stalledAt (pgSLICE sl.val) = false →
        s.bit (F.HDR.INT_ROUTE.INBAND (pgSLICE sl.val)) = false → p.ops = [.conv l false j] → s.leads = true →
        s.produces p.tick.idx = true → s.pair.subBefore ≤ p.tick.idx → s.cal.dwell = none → p.group < 32 → l < 16 →
        p.tick.bad.getLsbD p.group = false → r.cmFail = true → s.bit (F.CH.FE_STS.OPN_ACTIVE (16 * p.group + l)) = false →
        s.avgN (16 * p.group + l) = 1 → (s.getChan (16 * p.group + l)).win.cnt = 0 → s.bit (F.HDR.INT_ROUTE.INBAND (pgFE p.group)) = false →
        ∃ t, exec (.conversionComplete sl r) s = .next t
        ∧ t.fld (F.SLICE.CONV_CNT.CNT sl.val) = min (2 ^ (F.SLICE.CONV_CNT.CNT sl.val).width - 1) (s.fld (F.SLICE.CONV_CNT.CNT sl.val) + 1)
        ∧ t.fld (F.SLICE.CONV_TMAX.TMAX sl.val) = max (s.fld (F.SLICE.CONV_TMAX.TMAX sl.val)) (satNat 1023 r.ns)
        ∧ t.bit (F.CH.FE_STS.CM_FAIL (16 * p.group + l)) = true ∧ t.bit (F.CH.FE_STS.OPN_ACTIVE (16 * p.group + l)) = true
        ∧ (t.fld (F.FE.OPEN_STS.NOW p.group)).testBit l = true ∧ (t.fld (F.FE.OPEN_STS.SEEN p.group)).testBit l = true
        ∧ t.fld (F.CH.OPN_CNT.CNT (16 * p.group + l)) = min (2 ^ (F.CH.OPN_CNT.CNT (16 * p.group + l)).width - 1) (s.fld (F.CH.OPN_CNT.CNT (16 * p.group + l)) + 1)
        ∧ (t.reg (0x1000 * pgFE p.group + 0x010)).getLsbD (Irq.open_ p.group).bit = true
        ∧ ((t.getChan (16 * p.group + l)).res.map (fun w => (w.1.fl.opn, w.2)) = some (true, p.tick.idx)))
    ∧ (∀ (sl : Fin 34) (p : Pass) (r : ConvIn) (l j : Nat), (s.getSlice sl.val).pass = some p → s.stalledAt (pgSLICE sl.val) = false →
        s.bit (F.HDR.INT_ROUTE.INBAND (pgSLICE sl.val)) = false → p.ops = [.conv l false j] → s.leads = true →
        s.produces p.tick.idx = true → s.pair.subBefore ≤ p.tick.idx → s.cal.dwell = none → p.group < 32 → l < 16 →
        p.tick.bad.getLsbD p.group = true → s.avgN (16 * p.group + l) = 1 → (s.getChan (16 * p.group + l)).win.cnt = 0 →
        (s.getChan (16 * p.group + l)).win.sum = 0 → ∃ t, exec (.conversionComplete sl r) s = .next t
        ∧ t.fld (F.SLICE.CONV_CNT.CNT sl.val) = min (2 ^ (F.SLICE.CONV_CNT.CNT sl.val).width - 1) (s.fld (F.SLICE.CONV_CNT.CNT sl.val) + 1)
        ∧ t.fld (F.SLICE.CONV_TMAX.TMAX sl.val) = max (s.fld (F.SLICE.CONV_TMAX.TMAX sl.val)) (satNat 1023 r.ns)
        ∧ ((t.getChan (16 * p.group + l)).res.map (fun w => (w.1.val, w.1.fl.blk, w.2)) = some ((averagerValue (s.getChan (16 * p.group + l)).lastVal (s.bit (F.CH.AVG_CFG.RND (16 * p.group + l))) (s.fld (F.CH.AVG_CFG.SHIFT (16 * p.group + l)))).1, true, p.tick.idx))
        ∧ (t.getChan (16 * p.group + l)).lastVal = (s.getChan (16 * p.group + l)).lastVal)
    ∧ (∀ (sl : Fin 34) (p : Pass) (r : ConvIn) (l j : Nat), (s.getSlice sl.val).pass = some p → s.stalledAt (pgSLICE sl.val) = false →
        s.bit (F.HDR.INT_ROUTE.INBAND (pgSLICE sl.val)) = false → p.ops = [.conv l true j] → l < 16 → s.cal.dwell = none →
        ∃ t, exec (.conversionComplete sl r) s = .next t ∧ t.fld (F.SLICE.LIVE_CODE.CH sl.val) = l
        ∧ t.fld (F.SLICE.LIVE_CODE.CODE sl.val) = unsigned (F.SLICE.LIVE_CODE.CODE sl.val).width (correct p.par r.raw.toInt)
        ∧ t.fld (F.SLICE.LIVE_CNT.CNT sl.val) = min (2 ^ (F.SLICE.LIVE_CNT.CNT sl.val).width - 1) (s.fld (F.SLICE.LIVE_CNT.CNT sl.val) + 1)
        ∧ t.fld (F.SLICE.CONV_CNT.CNT sl.val) = min (2 ^ (F.SLICE.CONV_CNT.CNT sl.val).width - 1) (s.fld (F.SLICE.CONV_CNT.CNT sl.val) + 1)
        ∧ t.fld (F.SLICE.CONV_TMAX.TMAX sl.val) = max (s.fld (F.SLICE.CONV_TMAX.TMAX sl.val)) (satNat 1023 r.ns)
        ∧ (t.getSlice sl.val).pass = some { p with ops := [] } ∧ t.chan = s.chan)
    ∧ (∀ (sl : Fin 34) (p : Pass) (r : ConvIn) (l j : Nat), (s.getSlice sl.val).pass = some p → s.stalledAt (pgSLICE sl.val) = false →
        s.bit (F.HDR.INT_ROUTE.INBAND (pgSLICE sl.val)) = false → p.ops = [.conv l false j] → s.cal.dwell = none →
        p.tick.bad.getLsbD p.group = false → s.follows = true → s.pair.mirr = [] → r.cmFail = false →
        s.excApplies (16 * p.group + l) = false → s.bit (F.CH.FE_STS.OPN_ACTIVE (16 * p.group + l)) = false → p.group < 32 → l < 16 →
        ∃ t, exec (.conversionComplete sl r) s = .next t
        ∧ t.pair.own.head? = some ⟨p.tick.idx, p.tick.n, p.group, l, j, correct p.par r.raw.toInt, { ovr := p.ovrAt.getLsbD l, rtr := p.rtrAt.getLsbD l, cals := p.cals }, s.bit (F.CH.FE_STS.AR_LOW (16 * p.group + l)), s.parked (16 * p.group + l)⟩
        ∧ t.fld (F.SLICE.CONV_CNT.CNT sl.val) = min (2 ^ (F.SLICE.CONV_CNT.CNT sl.val).width - 1) (s.fld (F.SLICE.CONV_CNT.CNT sl.val) + 1)
        ∧ (t.getSlice sl.val).pass = some { p with ops := [] } ∧ t.queue = s.queue)

/-- When a pass with nothing left to do ends (R159), its hold is released (R94) and what waits for the boundary takes effect (R159, R254).
A conversion that times out raises CONV_TIMEOUT of its slice and abandons the pass, whose conversions that are left give BLK words (R150).
Where the words of the spec leave room it follows the readings of log entries 22 and 23, which are the model's. -/
def Obligations.PassesEndAndTimeOut : Prop :=
  ∀ s : State, s.quiet = true →
    (∀ (sl : Fin 34) (p : Pass), (s.getSlice sl.val).pass = some p → s.stalledAt (pgSLICE sl.val) = false →
        s.bit (F.HDR.INT_ROUTE.INBAND (pgSLICE sl.val)) = false → p.ops = [] →
        exec (.passEnd sl) s = .next ((settle (s.passFinish sl.val)).sealed s))
    ∧ (∀ (sl : Fin 34) (p : Pass), (s.getSlice sl.val).pass = some p → s.stalledAt (pgSLICE sl.val) = false →
        s.bit (F.HDR.INT_ROUTE.INBAND (pgSLICE sl.val)) = false → p.ops = [] → (s.getSlice sl.val).later = [] → s.leads = true →
        s.mirrored = false → p.group < 32 → s.serving p.group = sl.val → ∃ t, exec (.passEnd sl) s = .next t
        ∧ (t.getSlice sl.val).pass = none ∧ ((if p.tick.n % 2 = 0 then (t.getGroup p.group).holdA else (t.getGroup p.group).holdB) = none)
        ∧ t.time = s.time)
    ∧ (∀ (sl : Fin 34) (p : Pass), (s.getSlice sl.val).pass = some p → s.stalledAt (pgSLICE sl.val) = false →
        s.bit (F.HDR.INT_ROUTE.INBAND (pgSLICE sl.val)) = false → p.ops = [] → (s.getSlice sl.val).later = [] → s.leads = true →
        s.mirrored = false → p.group < 32 → s.serving p.group = sl.val → s.commitDue (pgCHTAB p.group) = true →
        s.commitDue (pgSLICE p.group) = true → ∃ t, exec (.passEnd sl) s = .next t ∧ (t.getSlice sl.val).pass = none
        ∧ ((if p.tick.n % 2 = 0 then (t.getGroup p.group).holdA else (t.getGroup p.group).holdB) = none) ∧ t.time = s.time
        ∧ t.commitOf (pgCHTAB p.group) = none ∧ t.commitOf (pgSLICE p.group) = none
        ∧ (∀ e ∈ rwsRegs (pgCHTAB p.group), t.reg e.1 = s.merged e.1 e.2)
        ∧ t.actBank p.group = (s.stg (F.SLICE.SLICE_CTL.ACT_BANK p.group).addr).getLsbD 0)
    ∧ (∀ (sl : Fin 34) (p x : Pass) (rest : List Pass), (s.getSlice sl.val).pass = some p → s.stalledAt (pgSLICE sl.val) = false →
        s.bit (F.HDR.INT_ROUTE.INBAND (pgSLICE sl.val)) = false → p.ops = [] → (s.getSlice sl.val).later = x :: rest →
        (s.getSlice sl.val).swapDue = false → (x.ops.head?.map (fun o => (s.opSkipped x o).1) = some false) → s.commits = [] →
        s.follows = false → ∃ t, exec (.passEnd sl) s = .next t ∧ (t.getSlice sl.val).pass = some x ∧ (t.getSlice sl.val).later = rest)
    ∧ (∀ (sl : Fin 34), ((s.getSlice sl.val).pass.all (fun p => !p.ops.isEmpty) = true) → exec (.passEnd sl) s = .next (s))
    ∧ (∀ (sl : Fin 34) (p : Pass) (l j : Nat) (live : Bool) (rest : List PassOp), (s.getSlice sl.val).pass = some p →
        s.stalledAt (pgSLICE sl.val) = false → s.bit (F.HDR.INT_ROUTE.INBAND (pgSLICE sl.val)) = false → p.ops = .conv l live j :: rest →
        exec (.convTimeout sl) s = .next ((settle ((s.raiseFault (Flt.convTimeout sl.val)).passAbandon sl.val p)).sealed s))
    ∧ (∀ (sl : Fin 34) (p : Pass) (l j : Nat) (live : Bool), (s.getSlice sl.val).pass = some p → s.stalledAt (pgSLICE sl.val) = false →
        s.bit (F.HDR.INT_ROUTE.INBAND (pgSLICE sl.val)) = false → p.ops = [.conv l live j] → (s.getSlice sl.val).later = [] →
        s.leads = true → s.mirrored = false → p.group < 32 → s.serving p.group = sl.val → s.rotates = false → s.produces p.tick.idx = true →
        l < 16 → ∃ t, exec (.convTimeout sl) s = .next t ∧ (t.getSlice sl.val).pass = none
        ∧ ((if p.tick.n % 2 = 0 then (t.getGroup p.group).holdA else (t.getGroup p.group).holdB) = none) ∧ t.time = s.time
        ∧ t.faultSet (Flt.convTimeout sl.val) = true
        ∧ t.fld (F.SLICE.PASS_ABORT_CNT.CNT sl.val) = min (2 ^ (F.SLICE.PASS_ABORT_CNT.CNT sl.val).width - 1) (s.fld (F.SLICE.PASS_ABORT_CNT.CNT sl.val) + 1))
    ∧ (∀ (sl : Fin 34) (p : Pass) (l j : Nat), (s.getSlice sl.val).pass = some p → s.stalledAt (pgSLICE sl.val) = false →
        s.bit (F.HDR.INT_ROUTE.INBAND (pgSLICE sl.val)) = false → p.ops = [.conv l false j] → (s.getSlice sl.val).later = [] →
        s.leads = true → s.mirrored = false → p.group < 32 → s.serving p.group = sl.val → s.rotates = false → s.produces p.tick.idx = true →
        l < 16 → s.chEnabled (16 * p.group + l) = true → s.avgN (16 * p.group + l) = 1 → (s.getChan (16 * p.group + l)).win.cnt = 0 →
        s.commits = [] → (s.getGroup p.group).closeDue = false → ∃ t, exec (.convTimeout sl) s = .next t
        ∧ t.faultSet (Flt.convTimeout sl.val) = true
        ∧ t.fld (F.SLICE.PASS_ABORT_CNT.CNT sl.val) = min (2 ^ (F.SLICE.PASS_ABORT_CNT.CNT sl.val).width - 1) (s.fld (F.SLICE.PASS_ABORT_CNT.CNT sl.val) + 1)
        ∧ ((t.getChan (16 * p.group + l)).res.map (fun w => (w.1.fl.blk, w.2)) = some (true, p.tick.idx)))
    ∧ (∀ (sl : Fin 34) (i : Nat), (s.getSlice sl.val).pass = none → s.shadowTick sl.val = some i → s.stalledAt (pgSLICE sl.val) = false →
        ∃ t, exec (.convTimeout sl) s = .next t ∧ t.faultSet (Flt.convTimeout sl.val) = true
        ∧ t.fld (F.SLICE.PASS_ABORT_CNT.CNT sl.val) = min (2 ^ (F.SLICE.PASS_ABORT_CNT.CNT sl.val).width - 1) (s.fld (F.SLICE.PASS_ABORT_CNT.CNT sl.val) + 1)
        ∧ (t.getSlice sl.val).shadowGone = some i ∧ (t.getSlice sl.val).shadowOpen = false ∧ t.chan = s.chan ∧ t.cal = s.cal)

/-- A write of a weave entry of the bank that is not active sets that entry and no other register; one of the active bank raises WR_ACTIVE
(R158). The commit of a SLICE page makes its staged values running, and a switched bank raises BANK_SWITCHED (R159). A channel-table
commit with no pass running takes effect at once (R254). That a bank is switched with no pass running is taken as at the coming tick (log
entry 9). Where the words of the spec leave room it follows the readings of log entry 77, which are the model's. -/
def Obligations.WeaveAndTableCommits : Prop :=
  ∀ s : State, s.quiet = true →
    (∀ (sl : Fin 34) (bank : Bool) (e : Fin 256) (v : Reg), sl.val < 32 → s.actBank sl.val = !bank →
        exec (.weaveWrite sl bank e v) s = .next (s.otherWrite.setReg (weaveAddr sl.val bank e.val) (v &&& 0xFFFFFF80#32)))
    ∧ (∀ (sl : Fin 34) (bank : Bool) (e : Fin 256) (v : Reg), sl.val < 32 → s.actBank sl.val = bank →
        s.bit (F.HDR.INT_ROUTE.INBAND (pgSLICE sl.val)) = false → ∃ t, exec (.weaveWrite sl bank e v) s = .next t
        ∧ (t.reg (0x1000 * pgSLICE sl.val + 0x010)).getLsbD (Irq.wrActive sl.val).bit = true ∧ s.regsBut t [0x1000 * pgSLICE sl.val + 0x010]
        ∧ s.onlyRegs t)
    ∧ (∀ (sl : Fin 34) (bank : Bool) (e : Fin 256) (v : Reg), 32 ≤ sl.val → exec (.weaveWrite sl bank e v) s = .next (s.otherWrite))
    ∧ (∀ (sl : Fin 34), 32 ≤ sl.val → s.commits = [{ page := pgSLICE sl.val }] → ∃ t, exec (.sliceCommitApply sl) s = .next t
        ∧ t.commits = [] ∧ (∀ e ∈ rwsRegs (pgSLICE sl.val), t.reg e.1 = s.merged e.1 e.2) ∧ t.time = s.time ∧ t.queue = s.queue)
    ∧ (∀ (sl : Fin 34), sl.val < 32 → s.commitDue (pgSLICE sl.val) = true → s.leads = true → s.passRuns sl.val = false →
        s.bit (F.HDR.INT_ROUTE.INBAND (pgSLICE sl.val)) = false → ∃ t, exec (.sliceCommitApply sl) s = .next t
        ∧ t.commitOf (pgSLICE sl.val) = none ∧ t.actBank sl.val = (s.stg (F.SLICE.SLICE_CTL.ACT_BANK sl.val).addr).getLsbD 0
        ∧ (t.actBank sl.val = s.actBank sl.val ∨ (t.reg (0x1000 * pgSLICE sl.val + 0x010)).getLsbD (Irq.bankSwitched sl.val).bit = true)
        ∧ t.time = s.time)
    ∧ (∀ (sl : Fin 34), (s.commitDue (pgSLICE sl.val) = false ∨ (sl.val < 32 ∧ s.leads = true ∧ s.passRuns sl.val = true)) →
        exec (.sliceCommitApply sl) s = .next (s))
    ∧ (∀ (g : Fin 32), s.commitDue (pgCHTAB g.val) = true → s.follows = false → s.passRuns g.val = false →
        exec (.chtabCommitApply g) s = .next ((settle (s.groupBoundary g.val s.leads false)).sealed s))
    ∧ (∀ (g : Fin 32), s.commitDue (pgCHTAB g.val) = true → s.leads = true → s.mirrored = false → s.passRuns g.val = false →
        ∃ t, exec (.chtabCommitApply g) s = .next t ∧ t.commitOf (pgCHTAB g.val) = none
        ∧ (∀ e ∈ rwsRegs (pgCHTAB g.val), t.reg e.1 = s.merged e.1 e.2) ∧ t.time = s.time ∧ t.staged = s.staged)
    ∧ (∀ (g : Fin 32), (s.commitDue (pgCHTAB g.val) = false ∨ s.follows = true ∨ s.passRuns g.val = true) →
        exec (.chtabCommitApply g) s = .next (s))

/-- Reading RES_LO answers the low bits of the latest word of a channel, latches the rest for the path of the read and ends FRESH on that
path (R172, R173); the following read of RES_HI on that path answers what was latched and releases it; without a latch it answers live
data with UNPAIRED (R513), or 0 before the first word (log entry 10). -/
def Obligations.ResultsAreReadInPairs : Prop :=
  ∀ (p : Path) (c : Fin 512) (s : State), s.quiet = true →
    (∀ (w : Sample) (i : Nat), (s.getChan c.val).res = some (w, i) → ∃ t, exec (.resLoRead p c) s = .next t
        ∧ t.rdata = [wordLo (packWord w)] ∧ sget none (t.latches p).res c.val = some (BitVec.ofNat 32 (resHiOf (s.getChan c.val) p))
        ∧ freshOn (t.getChan c.val) p = false ∧ (t.getChan c.val).res = some (w, i) ∧ t.regs = s.regs)
    ∧ (∀ (v : Reg), sget none (s.latches p).res c.val = some v →
        exec (.resHiRead p c) s = .next ({ s.modLatches p (fun l => { l with res := sset none l.res c.val none }) with rdata := [v] }))
    ∧ ((s.getChan c.val).res = none → ∃ t, exec (.resLoRead p c) s = .next t ∧ t.rdata = [0#32] ∧ (t.getChan c.val).res = none
        ∧ t.regs = s.regs)
    ∧ (sget none (s.latches p).res c.val = none →
        exec (.resHiRead p c) s = .next ({ s with rdata := [BitVec.ofNat 32 (if (s.getChan c.val).res.isNone then 0 else 2 ^ 31 + resHiOf (s.getChan c.val) p)] }))

/-! ## Sentinels (R174 to R180) -/

/-- A crossing of an armed sentinel with its edge enabled disarms it and latches an idle hold, which joins the queue of SENT_ADC, of
simultaneous ones the lower number first (R174 to R176); a second crossing pends and a third is lost to OVERRUN (R177). The conversion of
the first hold in the queue shows the stamp, the side, the hold delay, LATE_HOLD and the code in the event registers with NEW set and BAD
clear, is counted and raises its interrupt (R177, R185). Where the words of the spec leave room it follows the readings of log entry 35,
which are the model's. -/
def Obligations.SentinelsCrossAndConvert : Prop :=
  ∀ (n : Fin 16) (s : State), s.quiet = true → s.bit (F.HDR.INT_ROUTE.INBAND pgSENT) = false →
    (s.sentWatches n.val = true → exec (.sentinelArm n) s = .next (s.modSent n.val fun x => { x with armed := true }))
    ∧ (s.sentWatches n.val = false → exec (.sentinelArm n) s = .next (s))
    ∧ (∀ (below : Bool) (st : Stamp), ((s.getSent n.val).armed = false ∨ s.sentWatches n.val = false ∨ s.bit (if below then F.SENT.CFG.EDGE_LO n.val else F.SENT.CFG.EDGE_HI n.val) = false) →
        exec (.sentinelCrossing n below st) s = .next (s))
    ∧ (∀ (below : Bool) (st : Stamp), (s.getSent n.val).armed = true → s.sentWatches n.val = true →
        (s.bit (if below then F.SENT.CFG.EDGE_LO n.val else F.SENT.CFG.EDGE_HI n.val) = true) → s.bit (F.SENT.CFG.TRIG_EN n.val) = false →
        s.bit (F.SENT.CFG.WALE_EN n.val) = false → (s.getSent n.val).latched.isSome = true → (s.getSent n.val).pend = none →
        exec (.sentinelCrossing n below st) s = .next (s.modSent n.val fun x => { x with armed := false, pend := some (st, below) }))
    ∧ (∀ (below : Bool) (st : Stamp), (s.getSent n.val).armed = true → s.sentWatches n.val = true →
        (s.bit (if below then F.SENT.CFG.EDGE_LO n.val else F.SENT.CFG.EDGE_HI n.val) = true) → s.bit (F.SENT.CFG.TRIG_EN n.val) = false →
        s.bit (F.SENT.CFG.WALE_EN n.val) = false → (s.getSent n.val).latched.isSome = true → (s.getSent n.val).pend.isSome = true →
        ∃ t, exec (.sentinelCrossing n below st) s = .next t
        ∧ t.fld (F.SENT.OVERRUN.SENT_OVERRUN n.val) = min (2 ^ (F.SENT.OVERRUN.SENT_OVERRUN n.val).width - 1) (s.fld (F.SENT.OVERRUN.SENT_OVERRUN n.val) + 1)
        ∧ (t.reg (0x1000 * pgSENT + 0x010)).getLsbD (Irq.overrun).bit = true ∧ (t.getSent n.val).armed = false
        ∧ (t.getSent n.val).latched = (s.getSent n.val).latched ∧ (t.getSent n.val).pend = (s.getSent n.val).pend ∧ t.sentQ = s.sentQ)
    ∧ (∀ (below : Bool) (st : Stamp) (l : List Nat) (m : Nat), (s.getSent n.val).armed = true → s.sentWatches n.val = true →
        (s.bit (if below then F.SENT.CFG.EDGE_LO n.val else F.SENT.CFG.EDGE_HI n.val) = true) → s.bit (F.SENT.CFG.TRIG_EN n.val) = false →
        s.bit (F.SENT.CFG.WALE_EN n.val) = false → (s.getSent n.val).latched = none → s.sentQ = l ++ [m] → n.val < m →
        s.sentWith st m = true → (l.all (fun j => !s.sentWith st j) = true) → ∃ t, exec (.sentinelCrossing n below st) s = .next t
        ∧ ((t.getSent n.val).latched.map (fun e => (e.1, e.2.1, e.2.2.1)) = some (st, below, false)) ∧ t.sentQ = l ++ [n.val, m]
        ∧ t.regs = s.regs)
    ∧ (∀ (below : Bool) (st : Stamp), (s.getSent n.val).armed = true → s.sentWatches n.val = true →
        (s.bit (if below then F.SENT.CFG.EDGE_LO n.val else F.SENT.CFG.EDGE_HI n.val) = true) → s.bit (F.SENT.CFG.TRIG_EN n.val) = false →
        s.bit (F.SENT.CFG.WALE_EN n.val) = false → (s.getSent n.val).latched = none → (s.sentQ.all (fun m => !s.sentWith st m) = true) →
        ∃ t, exec (.sentinelCrossing n below st) s = .next t
        ∧ ((t.getSent n.val).latched.map (fun e => (e.1, e.2.1, e.2.2.1)) = some (st, below, false)) ∧ (t.getSent n.val).armed = false
        ∧ t.sentQ = s.sentQ ++ [n.val] ∧ t.regs = s.regs)
    ∧ (∀ (code : BitVec 24) (rest : List Nat) (st : Stamp) (below late : Bool) (dly : Nat), s.sentQ = n.val :: rest →
        (s.getSent n.val).latched = some (st, below, late, dly) → (s.getSent n.val).pend = none → (s.getSent n.val).old = none →
        dly < 2 ^ 16 → st.frac < 16 → ∃ t, exec (.sentAdcComplete code) s = .next t ∧ t.sentQ = rest ∧ (t.getSent n.val).latched = none
        ∧ t.fld (F.SENT.EVT_NS32.NS32 n.val) = ns32Of (stampNs st) ∧ t.fld (F.SENT.EVT_VALUE.VALUE n.val) = code.toNat
        ∧ t.fld (F.SENT.EVT_INFO.HOLD_DLY n.val) = dly ∧ t.fld (F.SENT.EVT_INFO.FRAC n.val) = st.frac
        ∧ t.bit (F.SENT.EVT_INFO.NEW n.val) = true ∧ t.bit (F.SENT.EVT_INFO.BAD n.val) = false ∧ t.bit (F.SENT.EVT_INFO.DIR n.val) = below
        ∧ t.bit (F.SENT.EVT_INFO.LATE_HOLD n.val) = late
        ∧ t.fld (F.SENT.CROSS_CNT.CNT n.val) = min (2 ^ (F.SENT.CROSS_CNT.CNT n.val).width - 1) (s.fld (F.SENT.CROSS_CNT.CNT n.val) + 1)
        ∧ (t.reg (0x1000 * pgSENT + 0x010)).getLsbD (Irq.cross n.val).bit = true)
    ∧ (∀ (code : BitVec 24) (rest : List Nat) (u : Stamp) (side : Bool), s.sentQ = n.val :: rest → (s.getSent n.val).latched.isSome = true →
        (s.getSent n.val).pend = some (u, side) → (s.getSent n.val).old = none → ∃ t, exec (.sentAdcComplete code) s = .next t
        ∧ t.sentQ = rest ++ [n.val] ∧ ((t.getSent n.val).latched.map (fun e => (e.1, e.2.1, e.2.2.1)) = some (u, side, true))
        ∧ (t.getSent n.val).pend = none ∧ t.fld (F.SENT.EVT_VALUE.VALUE n.val) = code.toNat ∧ t.bit (F.SENT.EVT_INFO.NEW n.val) = true
        ∧ (t.reg (0x1000 * pgSENT + 0x010)).getLsbD (Irq.cross n.val).bit = true)
    ∧ (∀ (below : Bool) (st : Stamp), (s.getSent n.val).armed = true → s.sentWatches n.val = true →
        (s.bit (if below then F.SENT.CFG.EDGE_LO n.val else F.SENT.CFG.EDGE_HI n.val) = true) → (s.getSent n.val).latched = none →
        (s.sentQ.all (fun m => !s.sentWith st m) = true) → ∃ t, exec (.sentinelCrossing n below st) s = .next t
        ∧ ((t.getSent n.val).latched.map (fun e => (e.1, e.2.1, e.2.2.1)) = some (st, below, false)) ∧ (t.getSent n.val).armed = false
        ∧ t.sentQ = s.sentQ ++ [n.val])
    ∧ (∀ (code : BitVec 24), s.sentQ = [] → exec (.sentAdcComplete code) s = .next (s))
    ∧ (s.sentQ = [] → exec .sentAdcTimeout s = .next (s))
    ∧ (∀ (rest : List Nat) (st : Stamp) (below late : Bool) (dly : Nat), s.sentQ = n.val :: rest →
        (s.getSent n.val).latched = some (st, below, late, dly) → (s.getSent n.val).pend = none → (s.getSent n.val).old = none →
        ∃ t, exec .sentAdcTimeout s = .next t ∧ t.faultSet Flt.sentAdcTimeout = true ∧ t.sentQ = rest
        ∧ t.fld (F.SENT.EVT_VALUE.VALUE n.val) = 0 ∧ t.bit (F.SENT.EVT_INFO.BAD n.val) = true ∧ t.bit (F.SENT.EVT_INFO.NEW n.val) = true
        ∧ (t.reg (0x1000 * pgSENT + 0x010)).getLsbD (Irq.cross n.val).bit = true)

/-- A write of CFG with EN clear sets the register and disarms the sentinel; one that enables a second sentinel on a channel is refused
with CONFLICT (R179). Reading EVT_NS32 answers it, latches EVT_INFO and EVT_VALUE for the path and clears NEW; EVT_VALUE answers what was
latched and releases it, or live data with UNPAIRED (R178, R513). Where the words of the spec leave room it follows the readings of log
entry 35, which are the model's. -/
def Obligations.SentinelRegisters : Prop :=
  ∀ (n : Fin 16) (p : Path) (s : State), s.quiet = true → s.bit (F.HDR.INT_ROUTE.INBAND pgSENT) = false →
    (∀ (v : Reg), v.getLsbD 0 = false → ∃ t, exec (.sentCfgWrite n v) s = .next t ∧ t.reg (F.SENT.CFG.EN n.val).addr = v &&& 0x01FF0F39#32
        ∧ (t.getSent n.val).armed = false ∧ s.regsBut t [(F.SENT.CFG.EN n.val).addr])
    ∧ (∀ (v : Reg), v.getLsbD 0 = true → s.sentTaken n.val (getBits v 16 9) = true → ∃ t, exec (.sentCfgWrite n v) s = .next t
        ∧ t.bit (F.SENT.CFG.EN n.val) = false ∧ (t.getSent n.val).armed = false
        ∧ (t.reg (0x1000 * pgSENT + 0x010)).getLsbD Irq.conflict.bit = true
        ∧ s.regsBut t [(F.SENT.CFG.EN n.val).addr, 0x1000 * pgSENT + 0x010])
    ∧ (∀ (v : Reg), v.getLsbD 0 = true → s.sentTaken n.val (getBits v 16 9) = false → sentBusy (s.getSent n.val) = false →
        ∃ t, exec (.sentCfgWrite n v) s = .next t ∧ t.reg (F.SENT.CFG.EN n.val).addr = v &&& 0x01FF0F39#32
        ∧ ((t.getSent n.val).armed = true → (s.getSent n.val).armed = true) ∧ s.regsBut t [(F.SENT.CFG.EN n.val).addr])
    ∧ (∀ (v : Reg), v.getLsbD 0 = true → s.sentTaken n.val (getBits v 16 9) = false → sentBusy (s.getSent n.val) = true →
        ∃ t, exec (.sentCfgWrite n v) s = .next t ∧ t.reg (F.SENT.CFG.EN n.val).addr = v &&& 0x01FF0F39#32
        ∧ (t.getSent n.val).old = some (s.sentInForce n.val) ∧ t.sentInForce n.val = s.sentInForce n.val
        ∧ s.regsBut t [(F.SENT.CFG.EN n.val).addr])
    ∧ (∃ t, exec (.evtNs32Read p n) s = .next t ∧ t.rdata = [s.reg (F.SENT.EVT_NS32.NS32 n.val).addr]
        ∧ sget none (t.latches p).evt n.val = some (s.reg (F.SENT.EVT_INFO.BAD n.val).addr, s.reg (F.SENT.EVT_VALUE.VALUE n.val).addr)
        ∧ t.bit (F.SENT.EVT_INFO.NEW n.val) = false ∧ s.regsBut t [(F.SENT.EVT_INFO.NEW n.val).addr])
    ∧ (∀ (i v : Reg), sget none (s.latches p).evt n.val = some (i, v) →
        exec (.evtValueRead p n) s = .next ({ s.modLatches p (fun l => { l with evt := sset none l.evt n.val none }) with rdata := [v] }))
    ∧ (sget none (s.latches p).evt n.val = none →
        exec (.evtValueRead p n) s = .next ({ s with rdata := [s.reg (F.SENT.EVT_VALUE.VALUE n.val).addr ||| 0x80000000#32] }))

/-! ## Background calibration (R187 to R221) -/

/-- A phase of the dwell that has reached its count ends and the next begins with WIN_FILL at 0 (R192). After DWELL_MAX (R194), or on
ROT_RESTART (R221), the dwell is abandoned: ABANDON_CNT counts, LAST_RESULT of its slice is 4, and the rotation goes on behind its group,
or starts afresh at group 0. On a hub that is not awake no further dwell begins (R216). Where the words of the spec leave room it follows
the readings of log entries 11 and 79, which are the model's. -/
def Obligations.DwellsEndOrAreAbandoned : Prop :=
  ∀ (d : Dwell) (s : State), s.quiet = true → s.cal.dwell = some d → d.slice < 34 →
    (s.phaseFull d = true → ∃ t, exec .calPhaseEnd s = .next t ∧ t.fld F.CAL.CAL_STS.PHASE = s.fld F.CAL.CAL_STS.PHASE + 1
        ∧ t.fld F.CAL.WIN_FILL.FILL = 0 ∧ t.cal = s.cal ∧ s.regsBut t [F.CAL.CAL_STS.PHASE.addr, F.CAL.WIN_FILL.FILL.addr])
    ∧ (s.phaseFull d = false → exec .calPhaseEnd s = .next (s))
    ∧ (s.fld F.CAL.DWELL_LIM.DWELL_MAX = 0 → exec .dwellAbandon s = .next (s))
    ∧ (s.fld F.CAL.DWELL_LIM.DWELL_MAX ≠ 0 → ∃ t, exec .dwellAbandon s = .next t
        ∧ t.fld (F.CAL.ABANDON_CNT.CNT) = min (2 ^ (F.CAL.ABANDON_CNT.CNT).width - 1) (s.fld (F.CAL.ABANDON_CNT.CNT) + 1)
        ∧ t.fld (F.CAL.EST_STS.LAST_RESULT d.slice) = 4 ∧ d.group < t.cal.nextGroup
        ∧ (t.cal.dwell.all (fun e => decide (d.group < e.group)) = true))
    ∧ (∃ t, exec .rotRestart s = .next t
        ∧ t.fld (F.CAL.ABANDON_CNT.CNT) = min (2 ^ (F.CAL.ABANDON_CNT.CNT).width - 1) (s.fld (F.CAL.ABANDON_CNT.CNT) + 1)
        ∧ t.fld (F.CAL.EST_STS.LAST_RESULT d.slice) = 4 ∧ (∀ n : Fin 34, (t.getSlice n.val).timeouts = 0))
    ∧ (s.fld F.CAL.DWELL_LIM.DWELL_MAX ≠ 0 → s.fld F.NVM.PWR_STS.STATE ≠ 1 → ∃ t, exec .dwellAbandon s = .next t ∧ t.cal.dwell = none
        ∧ t.cal.nextGroup = d.group + 1
        ∧ t.fld (F.CAL.ABANDON_CNT.CNT) = min (2 ^ (F.CAL.ABANDON_CNT.CNT).width - 1) (s.fld (F.CAL.ABANDON_CNT.CNT) + 1)
        ∧ t.fld (F.CAL.EST_STS.LAST_RESULT d.slice) = 4 ∧ t.fld F.CAL.CAL_STS.PHASE = 0)
    ∧ (s.fld F.NVM.PWR_STS.STATE ≠ 1 → ∃ t, exec .rotRestart s = .next t ∧ t.cal.dwell = none ∧ t.cal.nextGroup = 0 ∧ t.cal.first = true
        ∧ t.fld (F.CAL.ABANDON_CNT.CNT) = min (2 ^ (F.CAL.ABANDON_CNT.CNT).width - 1) (s.fld (F.CAL.ABANDON_CNT.CNT) + 1)
        ∧ t.fld (F.CAL.EST_STS.LAST_RESULT d.slice) = 4)
    ∧ (s.fld F.CAL.CAL_STS.PHASE ≠ 3 → s.phaseFull d = false → exec .calDecide s = .next (s))
    ∧ (s.fld F.CAL.CAL_STS.PHASE = 3 → qualAtLeast (s.fits d).one.2.2.2 (s.fld F.CAL.QUAL_LIM.QUAL_MAX) = false →
        qualAtLeast (s.fits d).two.2.2.2 (s.fld F.CAL.QUAL_LIM.QUAL_MAX) = false →
        qualAbove (s.fits d).one.2.2.2 (s.fld F.CAL.QUAL_LIM.SWAP_LIMIT) = false →
        qualAbove (s.fits d).two.2.2.2 (s.fld F.CAL.QUAL_LIM.SWAP_LIMIT) = false → bitStuck d.w1 = false → bitStuck d.w2 = false →
        ∃ t, exec .calDecide s = .next t ∧ (t.fld (F.CAL.EST_STS.LAST_RESULT d.slice) = if 0 < (s.judge (s.fits d)).rejected then 3 else 1)
        ∧ t.fld F.CAL.REJ_AGREE_CNT.CNT = min (2 ^ 32 - 1) (s.fld F.CAL.REJ_AGREE_CNT.CNT + (s.judge (s.fits d)).rejected)
        ∧ t.fld F.CAL.REJ_QUAL_CNT.CNT = s.fld F.CAL.REJ_QUAL_CNT.CNT ∧ t.bit (F.CAL.EST_STS.GAIN_DEF d.slice) = (s.fits d).gainDef
        ∧ ((s.judge (s.fits d)).beta.isSome = true →
        t.fld (F.CAL.ACCEPT_CNT.CNT) = min (2 ^ (F.CAL.ACCEPT_CNT.CNT).width - 1) (s.fld (F.CAL.ACCEPT_CNT.CNT) + 1))
        ∧ ((s.judge (s.fits d)).gamma = none →
        (t.target d.slice).gain = (if (s.judge (s.fits d)).beta.isSome || (s.judge (s.fits d)).eps.any Option.isSome then s.applied d.slice else s.target d.slice).gain)
        ∧ t.applied d.slice = s.applied d.slice ∧ ((s.judge (s.fits d)).beta.isSome = true →
        (t.getSlice d.slice).stepDue = true ∨ t.bit (F.CAL.EST_STS.SLEWING d.slice) = true)
        ∧ (t.cal.dwell.all (fun e => decide (d.group < e.group)) = true))
    ∧ (s.fld F.NVM.PWR_STS.STATE ≠ 1 → s.bit (F.HDR.INT_ROUTE.INBAND pgCAL) = false → s.fld F.CAL.CAL_STS.PHASE = 3 → d.idle = none →
        qualAtLeast (s.fits d).one.2.2.2 (s.fld F.CAL.QUAL_LIM.QUAL_MAX) = true →
        qualAbove (s.fits d).one.2.2.2 (s.fld F.CAL.QUAL_LIM.SWAP_LIMIT) = false →
        qualAbove (s.fits d).two.2.2.2 (s.fld F.CAL.QUAL_LIM.SWAP_LIMIT) = false → bitStuck d.w1 = false → bitStuck d.w2 = false →
        ∃ t, exec .calDecide s = .next t ∧ t.cal.dwell = none ∧ t.fld (F.CAL.EST_STS.LAST_RESULT d.slice) = 2
        ∧ t.fld (F.CAL.REJ_QUAL_CNT.CNT) = min (2 ^ (F.CAL.REJ_QUAL_CNT.CNT).width - 1) (s.fld (F.CAL.REJ_QUAL_CNT.CNT) + 1)
        ∧ (t.reg (0x1000 * pgCAL + 0x010)).getLsbD Irq.rejected.bit = true ∧ t.target d.slice = s.target d.slice
        ∧ t.applied d.slice = s.applied d.slice)

/-- In RUN a rotation that has visited its last group counts in ROT_CNT, raises ROT_DONE and starts the self-test of the idle spare (R190,
R208). A spare that passes goes back to its work. At start-up each result shows in SELFTEST_FAIL (R208). A replacement due at the end of a
pass is made through the swap of the model (R210). Where the words of the spec leave room it follows the readings of log entries 11 and
15, which are the model's. -/
def Obligations.RotationsAndSelfTests : Prop :=
  ∀ s : State, s.quiet = true → s.bit (F.HDR.INT_ROUTE.INBAND pgCAL) = false →
    (∀ (d : Dwell), s.cal.dwell = some d → d.slice < 34 → s.fld F.CAL.CAL_STS.PHASE = 3 → bitStuck d.w1 = true →
        s.bit F.CAL.CAL_CTL.AUTO_SWAP = false → ∃ t, exec .calDecide s = .next t ∧ t.bit (F.CAL.EST_STS.SELFTEST_FAIL d.slice) = true
        ∧ t.faultSet Flt.selftestFail = true ∧ t.faultSet Flt.swapBlocked = true
        ∧ t.fld F.CAL.SWAP_STS.SWAP_CNT = s.fld F.CAL.SWAP_STS.SWAP_CNT ∧ (s.slRole d.slice = roleWorking → t.slRole d.slice = roleWorking))
    ∧ (∀ (d : Dwell), s.cal.dwell = some d → d.slice < 34 → s.fld F.CAL.CAL_STS.PHASE = 3 → bitStuck d.w1 = true →
        s.bit F.CAL.CAL_CTL.AUTO_SWAP = true → s.slRole d.slice = roleWorking → s.serving (s.slGroup d.slice) = d.slice →
        (s.getSlice d.slice).pass = none → s.spareLeft d.duty = true → d.duty < 34 → ∃ t, exec .calDecide s = .next t
        ∧ t.bit (F.CAL.EST_STS.SELFTEST_FAIL d.slice) = true ∧ t.slRole d.slice = roleRetired ∧ t.slRole d.duty = roleWorking
        ∧ t.slGroup d.duty = s.slGroup d.slice
        ∧ t.fld (F.CAL.SWAP_STS.SWAP_CNT) = min (2 ^ (F.CAL.SWAP_STS.SWAP_CNT).width - 1) (s.fld (F.CAL.SWAP_STS.SWAP_CNT) + 1)
        ∧ t.faultSet Flt.sliceSwapped = true ∧ (t.reg (0x1000 * pgCAL + 0x010)).getLsbD (Irq.swapped).bit = true)
    ∧ (s.cal.dwell = none → exec .calPhaseEnd s = .next (s))
    ∧ (s.cal.dwell = none → exec .calDecide s = .next (s))
    ∧ (s.cal.dwell = none → exec .dwellAbandon s = .next (s))
    ∧ (s.rotationOver = false → exec .rotationEnd s = .next (s))
    ∧ (s.rotationOver = true → s.cal.changed = true → s.cal.saving = none → s.cal.lastSave = none → ∃ t, exec .rotationEnd s = .next t
        ∧ t.fld F.CAL.ROT_CNT.CNT = (s.fld F.CAL.ROT_CNT.CNT + 1) % 2 ^ F.CAL.ROT_CNT.CNT.width
        ∧ (t.reg (0x1000 * pgCAL + 0x010)).getLsbD Irq.rotDone.bit = true ∧ t.cal.saving.map Prod.fst = some (targetCopy s.mram.calNewer)
        ∧ (∀ n : Fin 34, (t.getSlice n.val).timeouts = 0))
    ∧ (s.rotationOver = true → s.calSt = calRun → s.cal.changed = false → ∃ t, exec .rotationEnd s = .next t
        ∧ t.fld F.CAL.ROT_CNT.CNT = (s.fld F.CAL.ROT_CNT.CNT + 1) % 2 ^ F.CAL.ROT_CNT.CNT.width
        ∧ (t.reg (0x1000 * pgCAL + 0x010)).getLsbD Irq.rotDone.bit = true ∧ (∀ n : Fin 34, (t.getSlice n.val).timeouts = 0)
        ∧ t.cal.testing = [65 - s.dutySpare] ∧ t.cal.nextGroup = 0 ∧ t.cal.first = true ∧ t.cal.dwell = none)
    ∧ (∀ (sl : Fin 34) (r : SelfTest), s.cal.testing = [sl.val] → s.calSt ≠ calSelftest → s.booting = false → selfTestOk r = true →
        s.fld F.NVM.PWR_STS.STATE ≠ 1 → exec (.selftestComplete sl r) s = .next (s.modCal fun x => { x with testing := [] }))
    ∧ (∀ (sl : Fin 34) (r : SelfTest), s.cal.testing = [sl.val] → s.calSt ≠ calSelftest → s.booting = false → selfTestOk r = true →
        ∃ t, exec (.selftestComplete sl r) s = .next t ∧ t.cal.testing = []
        ∧ t.bit (F.CAL.EST_STS.SELFTEST_FAIL sl.val) = s.bit (F.CAL.EST_STS.SELFTEST_FAIL sl.val) ∧ t.sparesLeft = s.sparesLeft
        ∧ t.fld F.CAL.SWAP_STS.SWAP_CNT = s.fld F.CAL.SWAP_STS.SWAP_CNT)
    ∧ (∀ (sl : Fin 34) (r : SelfTest), s.cal.testing = [sl.val] → s.calSt ≠ calSelftest → s.booting = false → s.spareLeft sl.val = true →
        selfTestOk r = false → ∃ t, exec (.selftestComplete sl r) s = .next t ∧ t.cal.testing = []
        ∧ t.bit (F.CAL.EST_STS.SELFTEST_FAIL sl.val) = true ∧ t.faultSet Flt.selftestFail = true ∧ t.slRole sl.val = roleRetired
        ∧ t.fld (F.CAL.SWAP_STS.SWAP_CNT) = min (2 ^ (F.CAL.SWAP_STS.SWAP_CNT).width - 1) (s.fld (F.CAL.SWAP_STS.SWAP_CNT) + 1)
        ∧ t.faultSet Flt.sliceSwapped = true)
    ∧ (∀ (sl : Fin 34) (r : SelfTest), s.cal.testing = [sl.val] → s.calSt = calSelftest → s.booting = false → selfTestOk r = true →
        (((List.range 34).all fun n => !s.bit (F.CAL.EST_STS.SELFTEST_FAIL n)) = true) → s.commitDue pgCAL = false →
        ∃ t, exec (.selftestComplete sl r) s = .next t ∧ t.cal.testing = []
        ∧ (t.calSt = if s.bit F.CAL.CAL_CTL.EN then s.calBySpares else calOff) ∧ t.sparesLeft = s.sparesLeft)
    ∧ (∀ (sl : Fin 34) (r : SelfTest), s.cal.testing.contains sl.val = false → s.booting = false →
        exec (.selftestComplete sl r) s = .next (s))
    ∧ (∀ (sl : Fin 34) (r : SelfTest), s.cal.testing.contains sl.val = true → s.calSt = calSelftest →
        ((s.cal.testing.filter fun x => decide (x ≠ sl.val)) ≠ []) → ∃ t, exec (.selftestComplete sl r) s = .next t
        ∧ t.bit (F.CAL.EST_STS.SELFTEST_FAIL sl.val) = !selfTestOk r ∧ (t.cal.testing = s.cal.testing.filter fun x => decide (x ≠ sl.val))
        ∧ s.regsBut t [(F.CAL.EST_STS.SELFTEST_FAIL sl.val).addr])
    ∧ (∀ (g : Fin 32) (m : Nat), (s.getSlice (s.serving g.val)).swapDue = true → (s.getSlice (s.serving g.val)).pass = none →
        s.slGroup (s.serving g.val) = g.val → s.replacement (s.serving g.val) = some m → m < 34 → ∃ t, exec (.sliceSwapApply g) s = .next t
        ∧ t.slRole (s.serving g.val) = roleRetired ∧ t.slRole m = roleWorking ∧ t.slGroup m = g.val ∧ t.target m = t.applied m
        ∧ t.fld (F.CAL.SWAP_STS.SWAP_CNT) = min (2 ^ (F.CAL.SWAP_STS.SWAP_CNT).width - 1) (s.fld (F.CAL.SWAP_STS.SWAP_CNT) + 1)
        ∧ t.faultSet Flt.sliceSwapped = true ∧ (t.reg (0x1000 * pgCAL + 0x010)).getLsbD (Irq.swapped).bit = true)
    ∧ (∀ (g : Fin 32), (s.getSlice (s.serving g.val)).swapDue = false → exec (.sliceSwapApply g) s = .next (s))
    ∧ (∀ (g : Fin 32), (s.getSlice (s.serving g.val)).pass.isSome = true → exec (.sliceSwapApply g) s = .next (s))

/-- SAVE_NOW with no save behind it starts one into the copy that is not the newer valid one (R218); its end installs the copy, is counted
and raises CAL_SAVED, or raises CAL_WR_FAIL (R219). Clearing EN ends RUN, SINGLE and NO_SPARE in OFF; setting it in OFF takes the state
that the spares give (R214, R215). In OFF a commit takes effect at once (R221). REINIT in STOPPED writes copy A and starts the self-test
of all slices (R220). Where the words of the spec leave room it follows the readings of log entries 3, 18 and 84, which are the model's. -/
def Obligations.CalibrationCopiesAndStates : Prop :=
  ∀ s : State, s.quiet = true → s.bit (F.HDR.INT_ROUTE.INBAND pgNVM) = false →
    (∀ (cp : Bool) (x : CalCopy), s.cal.saving = some (cp, x) → ∃ t, exec (.calSaveDone true) s = .next t ∧ t.mram.getCal cp = x
        ∧ t.cal.saving = none ∧ t.cal.lastSave = some s.smoothNs
        ∧ t.fld (F.NVM.CAL_SAVE_CNT.CNT) = min (2 ^ (F.NVM.CAL_SAVE_CNT.CNT).width - 1) (s.fld (F.NVM.CAL_SAVE_CNT.CNT) + 1)
        ∧ t.fld F.NVM.CAL_LAST_SAVE.SEC = s.time.sec % 2 ^ 32 ∧ (t.reg (0x1000 * pgNVM + 0x010)).getLsbD Irq.calSaved.bit = true)
    ∧ (∀ (cp : Bool) (x : CalCopy), s.cal.saving = some (cp, x) → ∃ t, exec (.calSaveDone false) s = .next t
        ∧ t.faultSet Flt.calWrFail = true ∧ t.cal.saving = none ∧ t.cal.changed = (s.cal.changed || s.cal.unsaved) ∧ t.mram = s.mram)
    ∧ (∀ (ok : Bool), s.cal.saving = none → exec (.calSaveDone ok) s = .next (s))
    ∧ (s.cal.saving.isSome = true → exec .saveNow s = .next (s.otherWrite))
    ∧ (∀ (n : Nat), s.cal.lastSave = some n → s.smoothNs < n + nsPerSec → exec .saveNow s = .next (s.otherWrite))
    ∧ (s.calSt = calStopped → exec .saveNow s = .next (s.otherWrite))
    ∧ (∀ (n : Nat), s.cal.saving = none → s.cal.lastSave = some n → n + nsPerSec ≤ s.smoothNs → s.calSt ≠ calStopped →
        ∃ t, exec .saveNow s = .next t ∧ t.cal.saving.map Prod.fst = some (targetCopy s.mram.calNewer)
        ∧ (t.cal.saving.map (fun e => e.2.targets) = some ((List.range 34).map s.target))
        ∧ (t.mram.getCal (targetCopy s.mram.calNewer)).valid = false ∧ t.regs = s.regs)
    ∧ (s.cal.saving = none → s.cal.lastSave = none → s.calSt ≠ calStopped → ∃ t, exec .saveNow s = .next t
        ∧ t.cal.saving.map Prod.fst = some (targetCopy s.mram.calNewer)
        ∧ (t.cal.saving.map (fun e => e.2.targets) = some ((List.range 34).map s.target))
        ∧ (t.mram.getCal (targetCopy s.mram.calNewer)).valid = false
        ∧ t.mram.getCal (!targetCopy s.mram.calNewer) = s.mram.getCal (!targetCopy s.mram.calNewer) ∧ t.cal.changed = false
        ∧ t.regs = s.regs)
    ∧ ((s.calSt = calRun ∨ s.calSt = calSingle ∨ s.calSt = calNoSpare) → s.commitDue pgCAL = false →
        ∃ t, exec (.calEnWrite false) s = .next t ∧ t.bit F.CAL.CAL_CTL.EN = false ∧ t.calSt = calOff ∧ t.cal.dwell = none
        ∧ t.time = s.time)
    ∧ ((s.calSt = calOff ∨ s.calSt = calSelftest ∨ s.calSt = calStopped) → ∃ t, exec (.calEnWrite false) s = .next t
        ∧ t.bit F.CAL.CAL_CTL.EN = false ∧ t.calSt = s.calSt ∧ t.cal = s.cal ∧ s.regsBut t [F.CAL.CAL_CTL.EN.addr])
    ∧ (s.calSt ≠ calOff → ∃ t, exec (.calEnWrite true) s = .next t ∧ t.bit F.CAL.CAL_CTL.EN = true ∧ t.calSt = s.calSt ∧ t.cal = s.cal
        ∧ s.regsBut t [F.CAL.CAL_CTL.EN.addr])
    ∧ (s.calSt = calOff → s.commitDue pgCAL = false → ∃ t, exec (.calEnWrite true) s = .next t ∧ t.bit F.CAL.CAL_CTL.EN = true
        ∧ t.calSt = s.calBySpares ∧ t.mram = s.mram)
    ∧ (s.calSt = calOff → s.fld F.NVM.PWR_STS.STATE ≠ 1 → s.commitDue pgCAL = false → ∃ t, exec (.calEnWrite true) s = .next t
        ∧ t.bit F.CAL.CAL_CTL.EN = true ∧ t.calSt = s.calBySpares ∧ t.cal = s.cal)
    ∧ (s.calSt = calOff → s.commits = [{ page := pgCAL }] → ∃ t, exec .calCommitApply s = .next t ∧ t.commits = []
        ∧ (∀ e ∈ rwsRegs pgCAL, t.reg e.1 = s.merged e.1 e.2) ∧ t.cal = s.cal)
    ∧ (s.commitDue pgCAL = false → exec .calCommitApply s = .next (s))
    ∧ (s.cal.dwell.isSome = true → s.calSt = calRun → exec .calCommitApply s = .next (s))
    ∧ (∀ (g : Nat), s.calOn = true → s.cal.dwell = none → s.grid.last.isSome = true → s.calNext = some g →
        (s.getSlice (s.serving g)).pass = none → s.commits = [{ page := pgCAL }] → ∃ t, exec .calCommitApply s = .next t ∧ t.commits = []
        ∧ (∀ e ∈ rwsRegs pgCAL, t.reg e.1 = s.merged e.1 e.2) ∧ (t.cal.dwell.map (fun e => e.group) = some g)
        ∧ t.fld F.CAL.CAL_STS.PHASE = 0 ∧ t.fld F.CAL.WIN_FILL.FILL = 0)
    ∧ (∀ (ok : Bool), s.calSt ≠ calStopped → exec (.reinit ok) s = .next (s.otherWrite))
    ∧ (s.calSt = calStopped → ∃ t, exec (.reinit false) s = .next t ∧ t.faultSet Flt.calWrFail = true ∧ t.calSt = calStopped
        ∧ t.mram.calA.valid = false ∧ t.mram.calB = s.mram.calB ∧ t.cal = s.cal)
    ∧ (s.calSt = calStopped → ∃ t, exec (.reinit true) s = .next t ∧ t.calSt = calSelftest ∧ t.cal.testing = List.range 34
        ∧ t.cal.dwell = none ∧ t.mram.calA.valid = true ∧ t.mram.calA.gen = 1 ∧ t.mram.calB = s.mram.calB ∧ t.time = s.time)

/-! ## Reducers and coefficient sets (R226 to R255) -/

/-- On a standby, where packets are staged (R389), the open packet of a channel that reaches MAX_AGE closes: it is counted and offered to
QSEL with its descriptor, the index of its first word and its words (R240, R241); in every role it closes and is counted. A write of
MAX_AGE sets the field and closes every open packet that is as old already, and no other (R241). That a timed command lets time run on to
its instant is the model's choice (log entry 6). Where the words of the spec leave room it follows the readings of log entry 48, which are
the model's. -/
def Obligations.StreamPacketsClose : Prop :=
  ∀ s : State, s.quiet = true →
    (∀ (c : Fin 512) (p : OpenPkt), s.role = roleStandby → (s.getChan c.val).pkt = some p →
        p.openedAt + s.maxAgeNs ≤ (s.reachNs (p.openedAt + s.maxAgeNs)).nowNs → ∃ t, exec (.streamMaxAge c) s = .next t
        ∧ (t.getChan c.val).pkt = none
        ∧ t.fld (F.CH.STREAM_PKT_CNT.CNT c.val) = min (2 ^ (F.CH.STREAM_PKT_CNT.CNT c.val).width - 1) (s.fld (F.CH.STREAM_PKT_CNT.CNT c.val) + 1)
        ∧ t.fld (F.RED.STREAM_PKTS.CNT) = min (2 ^ (F.RED.STREAM_PKTS.CNT).width - 1) (s.fld (F.RED.STREAM_PKTS.CNT) + 1)
        ∧ t.pair.staging = s.pair.staging ++ [(s.fld (F.CH.RED_CFG.QSEL c.val), .packet typSamples (desc0 c.val (s.rtap c.val) p.stride :: dataWord p.firstIdx :: p.words.reverse), s.pair.streamIdx.getD 0)]
        ∧ s.regsBut t [(F.CH.STREAM_PKT_CNT.CNT c.val).addr, F.RED.STREAM_PKTS.CNT.addr])
    ∧ (∀ (c : Fin 512) (p : OpenPkt), (s.getChan c.val).pkt = some p →
        p.openedAt + s.maxAgeNs ≤ (s.reachNs (p.openedAt + s.maxAgeNs)).nowNs → ∃ t, exec (.streamMaxAge c) s = .next t
        ∧ (t.getChan c.val).pkt = none
        ∧ t.fld (F.CH.STREAM_PKT_CNT.CNT c.val) = min (2 ^ (F.CH.STREAM_PKT_CNT.CNT c.val).width - 1) (s.fld (F.CH.STREAM_PKT_CNT.CNT c.val) + 1)
        ∧ t.fld (F.RED.STREAM_PKTS.CNT) = min (2 ^ (F.RED.STREAM_PKTS.CNT).width - 1) (s.fld (F.RED.STREAM_PKTS.CNT) + 1)
        ∧ s.nowNs ≤ t.nowNs)
    ∧ (∀ (c : Fin 512), (s.getChan c.val).pkt = none → exec (.streamMaxAge c) s = .next (s))
    ∧ (∀ (v : Reg), ∃ t, exec (.maxAgeWrite v) s = .next t ∧ t.fld F.RED.STREAM_CTL.MAX_AGE = getBits v 0 16
        ∧ (∀ c : Fin 512, (t.getChan c.val).pkt = (match (s.getChan c.val).pkt with | some p => if p.openedAt + (if getBits v 0 16 = 0 then 1 else getBits v 0 16) * 1000000 ≤ s.nowNs then none else some p | none => none)))
    ∧ (∀ (v : Reg), (((List.range 512).all fun c => (s.getChan c).pkt.isNone) = true) →
        exec (.maxAgeWrite v) s = .next (s.otherWrite.setFld F.RED.STREAM_CTL.MAX_AGE (getBits v 0 16)))

/-- DUMP_NOW asks every channel of the mask whose RAIN can dump for a dump (R250). A periodic dump that is due at the coming tick of the
streams (log entry 9) clears the bins with CLEAR_ON_DUMP, keeps the newest reversal with RES_COUNT, stamps LAST_DUMP, raises DUMPED and
notes the second it served; on a standby its packet is staged (R389). The last channel of a RAIN commit that cannot dump takes its values
and ends the commit (R252). Where the words of the spec leave room it follows the readings of log entries 26 and 48, which are the
model's. -/
def Obligations.RainDumpsAndTakesItsValues : Prop :=
  ∀ s : State, s.quiet = true →
    (∀ (g : Fin 32) (mask : BitVec 16), s.follows = false → s.mirrored = false → ∃ t, exec (.dumpNow g mask) s = .next t
        ∧ (∀ l : Fin 16, (t.getChan (16 * g.val + l.val)).rain.req = ((mask.getLsbD l.val && s.rainCan (16 * g.val + l.val)) || (s.getChan (16 * g.val + l.val)).rain.req))
        ∧ t.regs = s.regs)
    ∧ (∀ (g : Fin 32) (mask : BitVec 16), s.follows = false → ∃ t, exec (.dumpNow g mask) s = .next t
        ∧ (∀ l : Fin 16, (t.getChan (16 * g.val + l.val)).rain.req = ((mask.getLsbD l.val && s.rainCan (16 * g.val + l.val)) || (s.getChan (16 * g.val + l.val)).rain.req)))
    ∧ (∀ (g : Fin 32) (mask : BitVec 16), s.follows = true → exec (.dumpNow g mask) s = .next (s.otherWrite.count F.PAIR.CMD_IGNORED.CNT))
    ∧ (∀ (c : Fin 512) (i : Nat), s.streamNext = some i → (s.follows = true ∨ s.passRuns (c.val / 16) = false) →
        s.rainPeriodDue c.val (i / 131072) = true → s.bit (F.RAIN.RAIN_CFG.CLEAR_ON_DUMP c.val) = true → s.commits = [] →
        s.bit (F.HDR.INT_ROUTE.INBAND (pgRAIN (c.val / 16))) = false → ∃ t, exec (.rainPeriodicDump c) s = .next t
        ∧ (∀ j : Fin 32, t.fld (F.RAIN.BIN.CNT c.val j.val) = 0) ∧ t.fld (F.RAIN.LAST_DUMP.IDX c.val) = i % 2 ^ 32
        ∧ (t.getChan c.val).rain.lastS = some (i / 131072) ∧ (t.getChan c.val).rain.req = false
        ∧ ((t.getChan c.val).rain.stack = (if s.bit (F.RAIN.RAIN_CFG.RES_COUNT c.val) then (s.getChan c.val).rain.stack.take 1 else (s.getChan c.val).rain.stack))
        ∧ (t.reg (0x1000 * pgRAIN (c.val / 16) + 0x010)).getLsbD (Irq.dumped (c.val / 16)).bit = true)
    ∧ (∀ (c : Fin 512), (s.streamNext = none ∨ s.rainCan c.val = false ∨ s.fld (F.RAIN.DUMP_PERIOD.PERIOD c.val) = 0) →
        exec (.rainPeriodicDump c) s = .next (s))
    ∧ (∀ (c : Fin 512) (i : Nat), s.role = roleStandby → s.streamNext = some i → s.rainPeriodDue c.val (i / 131072) = true →
        s.bit (F.RAIN.RAIN_CFG.RES_COUNT c.val) = false → s.bit (F.RAIN.RAIN_CFG.CLEAR_ON_DUMP c.val) = true → s.commits = [] →
        s.bit (F.HDR.INT_ROUTE.INBAND (pgRAIN (c.val / 16))) = false → ∃ t, exec (.rainPeriodicDump c) s = .next t
        ∧ (t.getChan c.val).rain.lastS = some (i / 131072) ∧ (t.getChan c.val).rain.req = false
        ∧ (∀ i : Fin 32, t.fld (F.RAIN.BIN.CNT c.val i.val) = 0)
        ∧ t.fld (F.RED.RAIN_PKTS.CNT) = min (2 ^ (F.RED.RAIN_PKTS.CNT).width - 1) (s.fld (F.RED.RAIN_PKTS.CNT) + 1)
        ∧ t.fld (F.RAIN.LAST_DUMP.IDX c.val) = i % 2 ^ 32
        ∧ (t.reg (0x1000 * pgRAIN (c.val / 16) + 0x010)).getLsbD (Irq.dumped (c.val / 16)).bit = true
        ∧ t.pair.staging.length = s.pair.staging.length + 1)
    ∧ (∀ (c : Fin 512), (s.rainCan c.val = true ∨ s.commitDue (pgRAIN (c.val / 16)) = false) → exec (.rainCommitApply c) s = .next (s))
    ∧ (∀ (c : Fin 512) (l : List Nat), s.rainCan c.val = false → l.contains (c.val % 16) = true →
        (l.any (fun x => decide (x ≠ c.val % 16)) = true) → s.commits = [{ page := pgRAIN (c.val / 16), chans := l }] →
        ∃ t, exec (.rainCommitApply c) s = .next t
        ∧ (t.commits.map (fun e => (e.page, e.chans)) = [(pgRAIN (c.val / 16), l.filter fun x => decide (x ≠ c.val % 16))])
        ∧ t.reg (F.RAIN.HYST.HYST c.val).addr = s.merged (F.RAIN.HYST.HYST c.val).addr 0xFFFFFFFF ∧ t.queue = s.queue)
    ∧ (∀ (c : Fin 512), s.rainCan c.val = false → s.commits = [{ page := pgRAIN (c.val / 16), chans := [c.val % 16] }] →
        ∃ t, exec (.rainCommitApply c) s = .next t ∧ t.commits = []
        ∧ t.reg (F.RAIN.HYST.HYST c.val).addr = s.merged (F.RAIN.HYST.HYST c.val).addr 0xFFFFFFFF ∧ t.queue = s.queue)

/-- A write of TAPS sets the field of the inactive bank alone, and one that would change the active bank's raises WR_ACTIVE. A coefficient
of the inactive bank is written; one of the active bank is not, and WR_ACTIVE is raised. A FIRSET commit that changes ACT_BANK takes
effect with the coming tick and raises BANK_SWITCHED; one that leaves it as it is raises nothing, and without a coming tick none takes
effect (R231; log entry 9). -/
def Obligations.CoefficientSetsAndTheirBanks : Prop :=
  ∀ (fs : Fin 16) (s : State), s.quiet = true → s.bit (F.HDR.INT_ROUTE.INBAND (pgFIRSET fs.val)) = false →
    (∀ (v : Reg), ∃ t, exec (.tapsWrite fs v) s = .next t
        ∧ (t.fld (tapsFld fs.val false) = (if s.bit (F.FIRSET.FIRSET_CTL.ACT_BANK fs.val) then getBits v 0 8 else s.fld (tapsFld fs.val false)))
        ∧ (t.fld (tapsFld fs.val true) = (if s.bit (F.FIRSET.FIRSET_CTL.ACT_BANK fs.val) then s.fld (tapsFld fs.val true) else getBits v 16 8))
        ∧ s.regsBut t [(tapsFld fs.val false).addr, 0x1000 * pgFIRSET fs.val + 0x010])
    ∧ (∀ (bank : Bool) (i : Fin 128) (v : Reg), s.bit (F.FIRSET.FIRSET_CTL.ACT_BANK fs.val) = !bank →
        exec (.coefWrite fs bank i v) s = .next (s.otherWrite.setFld (coefFld fs.val bank i.val) (getBits v 0 24)))
    ∧ (∀ (bank : Bool) (i : Fin 128) (v : Reg), s.bit (F.FIRSET.FIRSET_CTL.ACT_BANK fs.val) = bank →
        ∃ t, exec (.coefWrite fs bank i v) s = .next t
        ∧ (t.reg (0x1000 * pgFIRSET fs.val + 0x010)).getLsbD (Irq.firWrActive fs.val).bit = true
        ∧ s.regsBut t [0x1000 * pgFIRSET fs.val + 0x010])
    ∧ (s.tickComing = true → s.commits = [{ page := pgFIRSET fs.val }] →
        (s.merged (F.FIRSET.FIRSET_CTL.ACT_BANK fs.val).addr 1).getLsbD 0 = !s.bit (F.FIRSET.FIRSET_CTL.ACT_BANK fs.val) →
        ∃ t, exec (.firsetCommitApply fs) s = .next t ∧ t.commits = []
        ∧ t.bit (F.FIRSET.FIRSET_CTL.ACT_BANK fs.val) = !s.bit (F.FIRSET.FIRSET_CTL.ACT_BANK fs.val)
        ∧ sget 0 t.firAt fs.val = idxOf s.tickPeriod s.grid.cur
        ∧ (t.reg (0x1000 * pgFIRSET fs.val + 0x010)).getLsbD (Irq.firBankSwitched fs.val).bit = true)
    ∧ (s.tickComing = true → s.commits = [{ page := pgFIRSET fs.val }] →
        (s.merged (F.FIRSET.FIRSET_CTL.ACT_BANK fs.val).addr 1).getLsbD 0 = s.bit (F.FIRSET.FIRSET_CTL.ACT_BANK fs.val) →
        ∃ t, exec (.firsetCommitApply fs) s = .next t ∧ t.commits = []
        ∧ t.bit (F.FIRSET.FIRSET_CTL.ACT_BANK fs.val) = s.bit (F.FIRSET.FIRSET_CTL.ACT_BANK fs.val) ∧ t.firAt = s.firAt
        ∧ s.regsBut t [(F.FIRSET.FIRSET_CTL.ACT_BANK fs.val).addr])
    ∧ ((s.tickComing = false ∨ s.commitDue (pgFIRSET fs.val) = false) → exec (.firsetCommitApply fs) s = .next (s))

/-! ## Record contexts and triggers (R261 to R298) -/

/-- On a hub that leads without a mirroring partner and with no commit waiting, ARM of an IDLE context whose checks pass enters REARM with
the members of its set (R261, R262, R264). Where a check fails the context stays IDLE, ARM_REFUSE shows the code and the context, and
ARM_REFUSED is raised (R264). A readout that met a high watermark steps the divisor on (R288). The end of a hold-off, or a release without
one, arms the same way (R268, R284); outside IDLE ARM is ignored (R298). That a timed command lets time run on to its instant is the
model's choice (log entry 6). Where the words of the spec leave room it follows the readings of log entry 33, which are the model's. -/
def Obligations.ContextsAreArmed : Prop :=
  ∀ (x : Fin 256) (s : State), s.quiet = true → s.bit (F.HDR.INT_ROUTE.INBAND pgTRIG) = false → s.leads = true → s.mirrored = false → s.commits = [] →
    (s.cxSt x.val = cxIdle → s.armCode x.val ((s.cxSet x.val).filter (s.cxTakes x.val)) = 0 → (s.getCtx x.val).hwmSeen = false →
        s.cxDiv x.val = 0 → ∃ t, exec (.arm x) s = .next t ∧ t.cxSt x.val = cxRearm
        ∧ (t.getCtx x.val).members.map Member.ch = ((s.cxSet x.val).filter (s.cxTakes x.val))
        ∧ t.fld (F.CTX.ARM_INFO.K x.val) = ((s.cxSet x.val).filter (s.cxTakes x.val)).length % 2 ^ (F.CTX.ARM_INFO.K x.val).width
        ∧ (t.getCtx x.val).acc = none ∧ t.time = s.time)
    ∧ (s.cxSt x.val = cxIdle → s.armCode x.val ((s.cxSet x.val).filter (s.cxTakes x.val)) ≠ 0 → ∃ t, exec (.arm x) s = .next t
        ∧ t.cxSt x.val = cxIdle ∧ t.fld F.TRIG.ARM_REFUSE.CAUSE = s.armCode x.val ((s.cxSet x.val).filter (s.cxTakes x.val))
        ∧ t.fld F.TRIG.ARM_REFUSE.CTX = x.val ∧ (t.reg (0x1000 * pgTRIG + 0x010)).getLsbD Irq.armRefused.bit = true ∧ t.ctx = s.ctx)
    ∧ (s.cxSt x.val = cxIdle → s.armCode x.val ((s.cxSet x.val).filter (s.cxTakes x.val)) = 0 → (s.getCtx x.val).hwmSeen = true →
        s.cxDiv x.val < 4 → ∃ t, exec (.arm x) s = .next t ∧ t.cxSt x.val = cxRearm
        ∧ (t.getCtx x.val).members.map Member.ch = ((s.cxSet x.val).filter (s.cxTakes x.val)) ∧ t.cxDiv x.val = s.cxDiv x.val + 1
        ∧ t.bit (F.CTX.CTX_STS.RATE_RED x.val) = true
        ∧ t.fld (F.TRIG.RATE_STEP_CNT.CNT) = min (2 ^ (F.TRIG.RATE_STEP_CNT.CNT).width - 1) (s.fld (F.TRIG.RATE_STEP_CNT.CNT) + 1)
        ∧ (t.reg (0x1000 * pgTRIG + 0x010)).getLsbD Irq.rateStep.bit = true)
    ∧ (s.cxSt x.val ≠ cxIdle → exec (.arm x) s = .next (s.otherWrite))
    ∧ (s.cxSt x.val ≠ cxHoldoff → exec (.holdoffExpire x) s = .next (s))
    ∧ (s.cxSt x.val = cxHoldoff → s.fld (F.CTX.CTX_CFG.HOLDOFF_MODE x.val) = 2 →
        (s.getCtx x.val).ignored < s.fld (F.CTX.HOLDOFF_CNT.CNT x.val) → exec (.holdoffExpire x) s = .next (s))
    ∧ (∀ (tr : Trigger), s.cxSt x.val = cxHoldoff → s.fld (F.CTX.CTX_CFG.HOLDOFF_MODE x.val) = 1 → (s.getCtx x.val).acc = some tr →
        tr.t + 8 * s.fld (F.CTX.HOLDOFF_NS.NS x.val) ≤ 8 * (s.reachNs (ceilDiv (tr.t + 8 * s.fld (F.CTX.HOLDOFF_NS.NS x.val)) 8)).nowNs →
        s.armCode x.val ((s.cxSet x.val).filter (s.cxTakes x.val)) = 0 → (s.getCtx x.val).hwmSeen = false → s.cxDiv x.val = 0 →
        ∃ t, exec (.holdoffExpire x) s = .next t ∧ t.cxSt x.val = cxRearm
        ∧ (t.getCtx x.val).members.map Member.ch = ((s.cxSet x.val).filter (s.cxTakes x.val)) ∧ s.nowNs ≤ t.nowNs
        ∧ tr.t + 8 * s.fld (F.CTX.HOLDOFF_NS.NS x.val) ≤ 8 * t.nowNs)
    ∧ (s.cxSt x.val = cxDone → s.bit (F.CTX.CTX_CFG.RO_MODE x.val) = true → s.bit (F.CTX.CTX_CFG.REARM_MODE x.val) = true →
        s.fld (F.CTX.CTX_CFG.HOLDOFF_MODE x.val) = 0 → s.armCode x.val ((s.cxSet x.val).filter (s.cxTakes x.val)) = 0 →
        (s.getCtx x.val).hwmSeen = false → s.cxDiv x.val = 0 → ∃ t, exec (.release x) s = .next t ∧ t.cxSt x.val = cxRearm
        ∧ (t.getCtx x.val).members.map Member.ch = ((s.cxSet x.val).filter (s.cxTakes x.val)) ∧ (t.getCtx x.val).acc = none
        ∧ t.time = s.time)
    ∧ (s.cxSt x.val = cxDone → s.bit (F.CTX.CTX_CFG.RO_MODE x.val) = true → s.bit (F.CTX.CTX_CFG.REARM_MODE x.val) = true →
        s.holdoffOver x.val = false → exec (.release x) s = .next (s.otherWrite.cxEnter x.val cxHoldoff))
    ∧ (s.cxSt x.val = cxHoldoff → s.fld (F.CTX.CTX_CFG.HOLDOFF_MODE x.val) = 2 →
        s.fld (F.CTX.HOLDOFF_CNT.CNT x.val) ≤ (s.getCtx x.val).ignored → s.armCode x.val ((s.cxSet x.val).filter (s.cxTakes x.val)) = 0 →
        (s.getCtx x.val).hwmSeen = false → s.cxDiv x.val = 0 → ∃ t, exec (.holdoffExpire x) s = .next t ∧ t.cxSt x.val = cxRearm
        ∧ (t.getCtx x.val).members.map Member.ch = ((s.cxSet x.val).filter (s.cxTakes x.val)) ∧ t.time = s.time)

/-- The coming tick of a running grid takes a context in REARM to FILL, or with PRE 0 to ARMED (R267). ABORT takes REARM, FILL, ARMED and
HOLDOFF to IDLE, and POST to DONE (R267, R281). RELEASE of a host record without REARM_MODE goes to IDLE (R268). A software trigger, or a
timer's at its next instant, waits for the decision in FILL and ARMED and is counted as ignored in the other states (R267, R270). A
decision takes an accepted trigger to POST, or to DONE, and counts one with a bad time or before PRE (R274, R279, R283). A standby ignores
and counts the commands (R387). Where the words of the spec leave room it follows the readings of log entries 9, 27 and 32, which are the
model's. -/
def Obligations.ContextsFillAbortAndRelease : Prop :=
  ∀ (x : Fin 256) (s : State), s.quiet = true → s.bit (F.HDR.INT_ROUTE.INBAND pgTRIG) = false →
    (s.leads = true → s.mirrored = false → s.gridSt = gridRun → s.cxSt x.val = cxRearm → ∃ t, exec (.ctxFillStart x) s = .next t
        ∧ (t.cxSt x.val = (if s.cxPre x.val = 0 then cxArmed else cxFill)) ∧ (t.getCtx x.val).fillIdx = idxOf s.tickPeriod s.grid.cur
        ∧ s.regsBut t [(F.CTX.CTX_STS.STATE x.val).addr])
    ∧ (s.leads = true → s.mirrored = false →
        (s.cxSt x.val = cxRearm ∨ s.cxSt x.val = cxFill ∨ s.cxSt x.val = cxArmed ∨ s.cxSt x.val = cxHoldoff) →
        exec (.abort x) s = .next ((s.otherWrite.modCtx x.val fun c => { c with waiting := [] }).cxEnter x.val cxIdle))
    ∧ (s.leads = true → s.mirrored = false → s.cxSt x.val = cxPost → ∃ t, exec (.abort x) s = .next t ∧ t.cxSt x.val = cxDone
        ∧ (t.reg (0x1000 * pgTRIG + 0x010)).getLsbD Irq.recordDone.bit = true ∧ (t.getCtx x.val).released = false)
    ∧ (s.leads = true → s.mirrored = false → s.cxSt x.val = cxDone → s.bit (F.CTX.CTX_CFG.RO_MODE x.val) = true →
        s.bit (F.CTX.CTX_CFG.REARM_MODE x.val) = false → exec (.release x) s = .next (s.otherWrite.cxEnter x.val cxIdle))
    ∧ (s.leads = true → s.mirrored = false → s.cxSt x.val = cxDone → s.bit (F.CTX.CTX_CFG.RO_MODE x.val) = false →
        exec (.release x) s = .next (s.otherWrite.modCtx x.val fun c => { c with released := true }))
    ∧ (s.leads = true → s.mirrored = false → (s.cxSt x.val = cxFill ∨ s.cxSt x.val = cxArmed) → s.fld F.NVM.PWR_STS.STATE ≠ 3 →
        s.srcOn x.val 0 = true →
        exec (.swTrig x) s = .next (s.otherWrite.modCtx x.val fun c => { c with waiting := c.waiting ++ [{ t := 8 * s.nowNs, src := 0, srcId := 0, arrival := s.nowNs, asleep := false }] }))
    ∧ (s.leads = true → s.mirrored = false → (s.cxSt x.val = cxFill ∨ s.cxSt x.val = cxArmed) → s.fld F.NVM.PWR_STS.STATE ≠ 3 →
        s.srcOn x.val 6 = true → 0 < s.fld (F.CTX.TIMER_PERIOD.MS x.val) → ∃ t, exec (.timerTrigger x) s = .next t
        ∧ (t.getCtx x.val).lastTimer = some (s.timerNext x.val)
        ∧ ((t.getCtx x.val).waiting.map (fun e => (e.t, e.src)) = (s.getCtx x.val).waiting.map (fun e => (e.t, e.src)) ++ [(8 * (s.timerNext x.val * 1000000), 6)])
        ∧ t.regs = s.regs)
    ∧ ((s.gridSt ≠ gridRun ∨ s.cxSt x.val ≠ cxRearm) → exec (.ctxFillStart x) s = .next (s))
    ∧ (s.leads = true → s.mirrored = false → (s.cxSt x.val = cxIdle ∨ s.cxSt x.val = cxDone) → exec (.abort x) s = .next (s.otherWrite))
    ∧ (s.leads = true → (s.cxSt x.val = cxRearm ∨ s.cxSt x.val = cxFill ∨ s.cxSt x.val = cxArmed ∨ s.cxSt x.val = cxHoldoff) →
        ∃ t, exec (.abort x) s = .next t ∧ t.cxSt x.val = cxIdle ∧ (t.getCtx x.val).waiting = [])
    ∧ (s.leads = true → s.mirrored = false → s.cxSt x.val ≠ cxDone → exec (.release x) s = .next (s.otherWrite))
    ∧ (s.follows = true → exec (.arm x) s = .next (s.otherWrite.count F.PAIR.CMD_IGNORED.CNT))
    ∧ (s.follows = true → exec (.abort x) s = .next (s.otherWrite.count F.PAIR.CMD_IGNORED.CNT))
    ∧ (s.follows = true → exec (.release x) s = .next (s.otherWrite.count F.PAIR.CMD_IGNORED.CNT))
    ∧ (s.follows = true → exec (.swTrig x) s = .next (s.otherWrite.count F.PAIR.CMD_IGNORED.CNT))
    ∧ (s.leads = true → s.mirrored = false → (s.cxSt x.val = cxIdle ∨ s.srcOn x.val 0 = false) → exec (.swTrig x) s = .next (s.otherWrite))
    ∧ (s.leads = true → s.mirrored = false → s.cxSt x.val ≠ cxIdle → s.cxSt x.val ≠ cxFill → s.cxSt x.val ≠ cxArmed →
        s.srcOn x.val 0 = true → ∃ t, exec (.swTrig x) s = .next t
        ∧ t.fld (F.CTX.TRIG_IGNORED.CNT x.val) = min (2 ^ (F.CTX.TRIG_IGNORED.CNT x.val).width - 1) (s.fld (F.CTX.TRIG_IGNORED.CNT x.val) + 1)
        ∧ (t.getCtx x.val).ignored = (s.getCtx x.val).ignored + 1 ∧ (t.getCtx x.val).waiting = (s.getCtx x.val).waiting
        ∧ s.regsBut t [(F.CTX.TRIG_IGNORED.CNT x.val).addr])
    ∧ ((s.cxSt x.val = cxIdle ∨ s.srcOn x.val 6 = false ∨ s.fld (F.CTX.TIMER_PERIOD.MS x.val) = 0) → exec (.timerTrigger x) s = .next (s))
    ∧ (s.leads = true → s.mirrored = false → s.cxSt x.val ≠ cxIdle → s.cxSt x.val ≠ cxFill → s.cxSt x.val ≠ cxArmed →
        s.srcOn x.val 6 = true → 0 < s.fld (F.CTX.TIMER_PERIOD.MS x.val) → ∃ t, exec (.timerTrigger x) s = .next t
        ∧ (t.getCtx x.val).lastTimer = some (s.timerNext x.val)
        ∧ t.fld (F.CTX.TRIG_IGNORED.CNT x.val) = min (2 ^ (F.CTX.TRIG_IGNORED.CNT x.val).width - 1) (s.fld (F.CTX.TRIG_IGNORED.CNT x.val) + 1)
        ∧ (t.getCtx x.val).ignored = (s.getCtx x.val).ignored + 1 ∧ (t.getCtx x.val).waiting = (s.getCtx x.val).waiting)
    ∧ ((s.leads = false ∨ s.yielding = true ∨ s.stalledAt pgTRIG = true) → exec (.triggerDecision x) s = .next (s))
    ∧ ((s.getCtx x.val).waiting = [] → exec (.triggerDecision x) s = .next (s))
    ∧ (∀ (tr : Trigger), s.leads = true → s.mirrored = false → s.yielding = false → s.stalledAt pgTRIG = false →
        (s.getCtx x.val).waiting = [tr] → (s.cxSt x.val = cxFill ∨ s.cxSt x.val = cxArmed) → tr.asleep = false →
        8 * (tr.arrival + nsPerSec) < tr.t → ∃ t, exec (.triggerDecision x) s = .next t
        ∧ t.fld (F.CTX.BADTIME_CNT.CNT x.val) = min (2 ^ (F.CTX.BADTIME_CNT.CNT x.val).width - 1) (s.fld (F.CTX.BADTIME_CNT.CNT x.val) + 1)
        ∧ (t.getCtx x.val).waiting = [] ∧ t.cxSt x.val = s.cxSt x.val ∧ s.regsBut t [(F.CTX.BADTIME_CNT.CNT x.val).addr])
    ∧ (∀ (tr : Trigger), s.leads = true → s.mirrored = false → s.yielding = false → s.stalledAt pgTRIG = false →
        (s.getCtx x.val).waiting = [tr] → tr.asleep = false → tr.t ≤ 8 * (tr.arrival + nsPerSec) → s.grid.runs = [] → s.grid.backs = [] →
        s.gridSt ≠ gridCatchup → s.cxSt x.val = cxFill → s.bit (F.CTX.ARM.PRE_STRICT x.val) = true →
        ∃ t, exec (.triggerDecision x) s = .next t
        ∧ t.fld (F.CTX.PRE_STRICT_CNT.CNT x.val) = min (2 ^ (F.CTX.PRE_STRICT_CNT.CNT x.val).width - 1) (s.fld (F.CTX.PRE_STRICT_CNT.CNT x.val) + 1)
        ∧ (t.getCtx x.val).waiting = [] ∧ t.cxSt x.val = cxFill ∧ (t.getCtx x.val).acc = (s.getCtx x.val).acc
        ∧ s.regsBut t [(F.CTX.PRE_STRICT_CNT.CNT x.val).addr])
    ∧ (∀ (tr : Trigger), s.leads = true → s.mirrored = false → s.yielding = false → s.stalledAt pgTRIG = false →
        (s.getCtx x.val).waiting = [tr] → tr.asleep = false → tr.t ≤ 8 * (tr.arrival + nsPerSec) → s.grid.runs = [] → s.grid.backs = [] →
        s.gridSt ≠ gridCatchup → (s.cxSt x.val = cxArmed ∨ s.cxSt x.val = cxFill ∧ s.bit (F.CTX.ARM.PRE_STRICT x.val) = false) →
        s.cxPostEff x.val = 0 → (((List.range 256).all fun y => !s.srcOn y 5) = true) → s.bit (F.CTX.CTX_CFG.RING_TX_EN x.val) = false →
        s.bit (F.CTX.CTX_CFG.WALE_TX_EN x.val) = false → ∃ t, exec (.triggerDecision x) s = .next t ∧ t.cxSt x.val = cxDone
        ∧ (t.getCtx x.val).acc = some tr ∧ (t.getCtx x.val).waiting = []
        ∧ t.fld (F.CTX.RECORD_CNT.CNT x.val) = min (2 ^ (F.CTX.RECORD_CNT.CNT x.val).width - 1) (s.fld (F.CTX.RECORD_CNT.CNT x.val) + 1)
        ∧ (t.reg (0x1000 * pgTRIG + 0x010)).getLsbD Irq.recordDone.bit = true)
    ∧ (∀ (tr : Trigger), s.leads = true → s.mirrored = false → s.yielding = false → s.stalledAt pgTRIG = false →
        (s.getCtx x.val).waiting = [tr] → tr.asleep = false → tr.t ≤ 8 * (tr.arrival + nsPerSec) → s.grid.runs = [] → s.grid.backs = [] →
        s.gridSt ≠ gridCatchup → s.cxSt x.val = cxFill → s.bit (F.CTX.ARM.PRE_STRICT x.val) = false → s.cxPostEff x.val ≠ 0 →
        (((s.getCtx x.val).members.any fun m => !m.done && m.trigPos.isNone && !memberEnds m) = true) →
        (((List.range 256).all fun y => !s.srcOn y 5) = true) → s.bit (F.CTX.CTX_CFG.RING_TX_EN x.val) = false →
        s.bit (F.CTX.CTX_CFG.WALE_TX_EN x.val) = false → ∃ t, exec (.triggerDecision x) s = .next t ∧ t.cxSt x.val = cxPost
        ∧ (t.getCtx x.val).acc = some tr ∧ (t.getCtx x.val).waiting = [])
    ∧ (∀ (tr : Trigger), s.leads = true → s.mirrored = false → s.yielding = false → s.stalledAt pgTRIG = false →
        (s.getCtx x.val).waiting = [tr] → s.cxSt x.val = cxArmed → tr.asleep = false → tr.t ≤ 8 * (tr.arrival + nsPerSec) →
        s.grid.runs = [] → s.grid.backs = [] → s.gridSt ≠ gridCatchup → s.cxPostEff x.val ≠ 0 →
        (((s.getCtx x.val).members.any fun m => !m.done && m.trigPos.isNone && !memberEnds m) = true) →
        (((List.range 256).all fun y => !s.srcOn y 5) = true) → s.bit (F.CTX.CTX_CFG.RING_TX_EN x.val) = false →
        s.bit (F.CTX.CTX_CFG.WALE_TX_EN x.val) = false → ∃ t, exec (.triggerDecision x) s = .next t ∧ t.cxSt x.val = cxPost
        ∧ (t.getCtx x.val).acc = some tr ∧ (t.getCtx x.val).waiting = []
        ∧ t.fld (F.CTX.REC_NO.NUM x.val) = (s.fld (F.CTX.REC_NO.NUM x.val) + 1) % 2 ^ (F.CTX.REC_NO.NUM x.val).width)

/-- A free engine takes the completed record and RD_CTX shows its context (R290). It writes the header packet, then per member a channel
packet and its data, then the end packet, which frees the engine and releases the record (R268, R291, R292, R293); on a standby they are
staged for the readout queue (R389). A burst of the scrub corrects a single-bit error in its 16 words and goes on 16 words (R294). Where
the words of the spec leave room it follows the readings of log entries 29 and 30, which are the model's. -/
def Obligations.RecordsAreReadOut : Prop :=
  ∀ s : State, s.quiet = true → s.stalledAt pgTRIG = false → s.bit F.ARB_MEM.ARB_CTL.FREEZE = false → s.bit (F.HDR.INT_ROUTE.INBAND pgTRIG) = false →
    (∀ (x : Fin 256) (c : Nat), s.trig.order = [(c, x.val)] → s.trig.rd0 = none → ∃ t, exec .readoutStart s = .next t ∧ t.trig.order = []
        ∧ t.trig.rd0 = some { ctx := x.val } ∧ t.fld F.TRIG.RD_CTX.RD0_CTX = x.val ∧ s.regsBut t [F.TRIG.RD_CTX.RD0_CTX.addr])
    ∧ (∀ (e : Fin 2) (x : Fin 256) (g : Engine), s.role = roleStandby → s.engine e.val = some g → g.ctx = x.val → g.phase = 0 →
        (s.getCtx x.val).released = false → ∃ t, exec (.readoutPacket e) s = .next t
        ∧ t.pair.staging = s.pair.staging ++ [(s.fld (F.CTX.CTX_CFG.RO_Q x.val), .packet typRecord (s.recPacket x.val (s.headerExt x.val) []), s.pair.streamIdx.getD 0)]
        ∧ (t.engine e.val = some { g with phase := if (s.getCtx x.val).held.length = 0 then 3 else 1 }) ∧ t.regs = s.regs)
    ∧ (s.trig.order = [] → exec .readoutStart s = .next (s))
    ∧ (s.trig.rd0.isSome = true → s.trig.rd1.isSome = true → exec .readoutStart s = .next (s))
    ∧ (∀ (x y : Fin 256) (c d : Nat), s.trig.order = [(d, y.val), (c, x.val)] → (c < d ∨ c = d ∧ x.val < y.val) → s.trig.rd0.isSome = true →
        s.trig.rd1 = none → ∃ t, exec .readoutStart s = .next t ∧ t.trig.order = [(d, y.val)] ∧ t.trig.rd0 = s.trig.rd0
        ∧ t.trig.rd1 = some { ctx := x.val } ∧ t.fld F.TRIG.RD_CTX.RD1_CTX = x.val ∧ s.regsBut t [F.TRIG.RD_CTX.RD1_CTX.addr])
    ∧ (∀ (e : Fin 2), s.engine e.val = none → exec (.readoutPacket e) s = .next (s))
    ∧ (∀ (e : Fin 2) (x : Fin 256) (g : Engine) (m : Member), s.role = roleStandby → s.engine e.val = some g → g.ctx = x.val → g.phase = 1 →
        (s.getCtx x.val).released = false → (s.getCtx x.val).held[g.k]? = some m → 0 < m.count → ∃ t, exec (.readoutPacket e) s = .next t
        ∧ t.pair.staging = s.pair.staging ++ [(s.fld (F.CTX.CTX_CFG.RO_Q x.val), .packet typRecord (s.recPacket x.val (channelExt m) (channelTail m)), s.pair.streamIdx.getD 0)]
        ∧ t.engine e.val = some { g with phase := 2, slot := 0, lost := 0 } ∧ t.regs = s.regs)
    ∧ (∀ (e : Fin 2) (x : Fin 256) (g : Engine), s.role = roleStandby → s.engine e.val = some g → g.ctx = x.val → g.phase = 2 →
        (s.getCtx x.val).released = false → s.capEcc = [] → (s.enginePacket g).1 ≠ [] → ∃ t, exec (.readoutPacket e) s = .next t
        ∧ t.pair.staging = s.pair.staging ++ [(s.fld (F.CTX.CTX_CFG.RO_Q x.val), .packet typRecord (s.enginePacket g).1, s.pair.streamIdx.getD 0)]
        ∧ t.engine e.val = some (s.enginePacket g).2 ∧ t.regs = s.regs ∧ t.capMem = s.capMem)
    ∧ (∀ (e : Fin 2) (x : Fin 256) (g : Engine), s.role = roleStandby → s.engine e.val = some g → g.ctx = x.val →
        (g.phase = 3 ∨ (s.getCtx x.val).released = true) → s.bit (F.CTX.CTX_CFG.REARM_MODE x.val) = false →
        ∃ t, exec (.readoutPacket e) s = .next t
        ∧ t.pair.staging = s.pair.staging ++ [(s.fld (F.CTX.CTX_CFG.RO_Q x.val), .packet typRecord (s.recPacket x.val [3 * 2 ^ 28 + b2n (s.getCtx x.val).released * 2 ^ 27 + b2n (decide (0 < g.skipped)) * 2 ^ 26, satNat 0xFFFFFFFF g.skipped] []), s.pair.streamIdx.getD 0)]
        ∧ t.engine e.val = none ∧ t.cxSt x.val = cxIdle ∧ (t.reg (0x1000 * pgTRIG + 0x010)).getLsbD Irq.roDone.bit = true
        ∧ s.regsBut t [(F.CTX.CTX_STS.STATE x.val).addr, 0x1000 * pgTRIG + 0x010])
    ∧ (∀ (e : Fin 2) (x : Fin 256) (g : Engine), s.leads = true → s.mirrored = false → s.engine e.val = some g → g.ctx = x.val →
        g.phase = 0 → (s.getCtx x.val).released = false → s.qAccepts (s.fld (F.CTX.CTX_CFG.RO_Q x.val)) 14 = true → s.commits = [] →
        ∃ t, exec (.readoutPacket e) s = .next t
        ∧ (t.engine e.val = some { g with phase := if (s.getCtx x.val).held.length = 0 then 3 else 1 })
        ∧ (t.getQ (s.fld (F.CTX.CTX_CFG.RO_Q x.val))).pkts.map Pkt.typ = (s.getQ (s.fld (F.CTX.CTX_CFG.RO_Q x.val))).pkts.map Pkt.typ ++ [typRecord])
    ∧ (∀ (now : Bool), s.leads = false → exec (.rtxSend now) s = .next (s.otherWrite))
    ∧ (∀ (now : Bool), s.leads = true → ∃ t, exec (.rtxSend now) s = .next t
        ∧ (t.net.mgmtTx = s.net.mgmtTx ++ [(s.ctrlFrame s.trigMac 7 (ringWords (s.fld F.TRIG.RTX_ID.ID) (if now then 8 * s.nowNs else s.rtxT0)), none)]))
    ∧ (s.bit F.TRIG.TRIG_CTL.SCRUB_EN = false → exec .scrubBurst s = .next (s))
    ∧ (s.bit F.TRIG.TRIG_CTL.SCRUB_EN = true → s.stalledAt pgARBMEM = false → s.capEcc = [] →
        exec .scrubBurst s = .next (s.modTrig fun y => { y with scrub := (s.trig.scrub + 16) % capWords }))
    ∧ (s.bit F.TRIG.TRIG_CTL.SCRUB_EN = true → s.stalledAt pgARBMEM = false → s.capEcc = [(s.trig.scrub, 1)] →
        ∃ t, exec .scrubBurst s = .next t ∧ t.capEcc = [] ∧ t.trig.scrub = (s.trig.scrub + 16) % capWords
        ∧ t.fld (F.TRIG.ECC_SGL_CNT.CNT) = min (2 ^ (F.TRIG.ECC_SGL_CNT.CNT).width - 1) (s.fld (F.TRIG.ECC_SGL_CNT.CNT) + 1)
        ∧ t.faultSet Flt.capEccSgl = true ∧ t.capMem = s.capMem)
    ∧ (∀ (now : Bool), s.leads = true → s.bit F.TRIG.TRIG_CTL.RING_RX_EN = false → ∃ t, exec (.rtxSend now) s = .next t
        ∧ (t.net.mgmtTx = s.net.mgmtTx ++ [(s.ctrlFrame s.trigMac 7 (ringWords (s.fld F.TRIG.RTX_ID.ID) (if now then 8 * s.nowNs else s.rtxT0)), none)])
        ∧ t.regs = s.regs ∧ t.ctx = s.ctx)

/-! ## Queues and arbiters (R300 to R332) -/

/-- On a hub that leads: FLUSH of an open queue sets FLUSHING and no other register, of a disabled one does nothing, and on a standby is
ignored and counted; its effect leaves one marker packet in the queue, counts in FLUSH_CNT, raises FLUSHED and ends FLUSHING (R317).
Pending markers that fit are written as one packet, which WR_PKT_CNT counts, and none is pending any more (R311). A queue whose pointer
copies disagree is reset: RESET_CNT, LOST_UNK, PTR_MISMATCH and QRESET tell, and it holds one marker packet (R306, R318). Where the words
of the spec leave room it follows the readings of log entries 13 and 36, which are the model's. -/
def Obligations.QueuesFlushAndTakeMarkers : Prop :=
  ∀ (q : Fin 64) (s : State), s.quiet = true → s.bit (F.HDR.INT_ROUTE.INBAND (pgQ q.val)) = false →
    (s.leads = true → s.mirrored = false → (s.getQ q.val).wp = (s.getQ q.val).wp2 → (s.getQ q.val).rp = (s.getQ q.val).rp2 →
        s.qOpen q.val = true → ∃ t, exec (.flush q) s = .next t ∧ t.bit (F.Q.Q_STS.FLUSHING q.val) = true
        ∧ s.regsBut t [(F.Q.Q_STS.FLUSHING q.val).addr] ∧ s.onlyRegs t)
    ∧ (s.leads = true → s.mirrored = false → s.qOpen q.val = false → exec (.flush q) s = .next (s.otherWrite))
    ∧ (s.leads = true → s.qOpen q.val = true → ∃ t, exec (.flush q) s = .next t ∧ t.bit (F.Q.Q_STS.FLUSHING q.val) = true
        ∧ (t.getQ q.val).pkts = (s.getQ q.val).pkts)
    ∧ (s.follows = true → exec (.flush q) s = .next (s.otherWrite.count F.PAIR.CMD_IGNORED.CNT))
    ∧ ((s.getQ q.val).wp = (s.getQ q.val).wp2 → (s.getQ q.val).rp = (s.getQ q.val).rp2 →
        (s.bit (F.Q.Q_STS.FLUSHING q.val) = false ∨ s.follows = true) → exec (.flushEffect q) s = .next (s))
    ∧ (s.leads = false → exec (.pendingMarkerWrite q) s = .next (s))
    ∧ ((s.getQ q.val).wp = (s.getQ q.val).wp2 → (s.getQ q.val).rp = (s.getQ q.val).rp2 → pendAny (s.getQ q.val).pend = false →
        exec (.pendingMarkerWrite q) s = .next (s))
    ∧ (s.leads = true → s.mirrored = false → (s.getQ q.val).wp ≠ (s.getQ q.val).wp2 → (s.getQ q.val).pend = {} →
        ∃ t, exec (.pendingMarkerWrite q) s = .next t
        ∧ t.fld (F.Q.RESET_CNT.CNT q.val) = min (2 ^ (F.Q.RESET_CNT.CNT q.val).width - 1) (s.fld (F.Q.RESET_CNT.CNT q.val) + 1)
        ∧ t.bit (F.Q.Q_STS.LOST_UNK q.val) = true ∧ t.faultSet (Flt.ptrMismatch q.val) = true
        ∧ (t.reg (0x1000 * pgQ q.val + 0x010)).getLsbD (Irq.qReset q.val).bit = true ∧ (t.getQ q.val).pkts.map Pkt.typ = [typMarker])
    ∧ (s.leads = true → s.mirrored = false → (s.getQ q.val).wp = (s.getQ q.val).wp2 → (s.getQ q.val).rp = (s.getQ q.val).rp2 →
        s.bit (F.Q.Q_STS.FLUSHING q.val) = true → s.stalledAt (pgQ q.val) = false → (s.getQ q.val).pend = {} →
        ∃ t, exec (.flushEffect q) s = .next t ∧ (t.getQ q.val).pkts.map Pkt.typ = [typMarker] ∧ t.bit (F.Q.Q_STS.FLUSHING q.val) = false
        ∧ t.fld (F.Q.FLUSH_CNT.CNT q.val) = min (2 ^ (F.Q.FLUSH_CNT.CNT q.val).width - 1) (s.fld (F.Q.FLUSH_CNT.CNT q.val) + 1)
        ∧ (t.reg (0x1000 * pgQ q.val + 0x010)).getLsbD (Irq.flushed q.val).bit = true)
    ∧ (s.leads = true → s.mirrored = false → (s.getQ q.val).wp = (s.getQ q.val).wp2 → (s.getQ q.val).rp = (s.getQ q.val).rp2 →
        pendAny (s.getQ q.val).pend = true → s.qFits q.val ((pendWords (s.getQ q.val).pend).length + 1) = true →
        ∃ t, exec (.pendingMarkerWrite q) s = .next t ∧ (t.getQ q.val).pend = {}
        ∧ (t.getQ q.val).pkts.map Pkt.typ = (s.getQ q.val).pkts.map Pkt.typ ++ [typMarker]
        ∧ t.fld (F.Q.WR_PKT_CNT.CNT q.val) = min (2 ^ (F.Q.WR_PKT_CNT.CNT q.val).width - 1) (s.fld (F.Q.WR_PKT_CNT.CNT q.val) + 1))

/-- On a queue the host drains, DATA_LO answers the low bits of the word at RP, latches its high bits for the path and moves RP by one; on
an empty queue it answers 0 (R315). DATA_HI answers what was latched and releases it (R315), and without a latch the bits at RP with
UNPAIRED (R513). A Q commit that leaves a disabled queue disabled makes its staged values running; one that enables it makes the EPOCH or
loss packet its first item; one that disables it discards what it holds and keeps the count of its words (R301). Where the words of the
spec leave room it follows the readings of log entries 13 and 85, which are the model's. -/
def Obligations.QueuesAreReadAndCommitted : Prop :=
  ∀ (q : Fin 64) (p : Path) (s : State), s.quiet = true → s.bit (F.HDR.INT_ROUTE.INBAND (pgQ q.val)) = false → s.mirrored = false → (s.getQ q.val).wp = (s.getQ q.val).wp2 → (s.getQ q.val).rp = (s.getQ q.val).rp2 →
    (s.qHost q.val = true → s.qLevel q.val ≠ 0 → s.stalledAt (pgQ q.val) = false → ∃ t, exec (.dataLoRead p q) s = .next t
        ∧ t.rdata = [wordLo (s.qWord (s.qAddr q.val (s.getQ q.val).rp))]
        ∧ sget none (t.latches p).data q.val = some (BitVec.ofNat 32 (wordHi (s.qWord (s.qAddr q.val (s.getQ q.val).rp))))
        ∧ (t.getQ q.val).rp = ((s.getQ q.val).rp + 1) % s.qMod q.val ∧ t.qmem = s.qmem)
    ∧ (s.qHost q.val = true → s.qLevel q.val = 0 →
        exec (.dataLoRead p q) s = .next ({ s.modLatches p (fun l => { l with data := sset none l.data q.val (some 0) }) with rdata := [0] }))
    ∧ (s.qHost q.val = false → exec (.dataLoRead p q) s = .next ({ s with rdata := [0] }))
    ∧ (s.qHost q.val = false → exec (.dataHiRead p q) s = .next ({ s with rdata := [0] }))
    ∧ (s.qHost q.val = true → sget none (s.latches p).data q.val = none →
        exec (.dataHiRead p q) s = .next ({ s with rdata := [BitVec.ofNat 32 (if s.qLevel q.val = 0 then 0 else 2 ^ 31 + wordHi (s.qWord (s.qAddr q.val (s.getQ q.val).rp)))] }))
    ∧ (∀ (v : Reg), s.qHost q.val = true → sget none (s.latches p).data q.val = some v →
        exec (.dataHiRead p q) s = .next ({ s.modLatches p (fun l => { l with data := sset none l.data q.val none }) with rdata := [v] }))
    ∧ (s.commits = [{ page := pgQ q.val }] → s.qEn q.val = false → (s.merged (F.Q.Q_CFG.EN q.val).addr 1).getLsbD 0 = false →
        ∃ t, exec (.qCommitApply q) s = .next t ∧ t.commits = [] ∧ (∀ e ∈ rwsRegs (pgQ q.val), t.reg e.1 = s.merged e.1 e.2)
        ∧ t.queue = s.queue)
    ∧ (s.commitDue (pgQ q.val) = false → exec (.qCommitApply q) s = .next (s))
    ∧ (s.commits = [{ page := pgQ q.val }] → s.qEn q.val = false → getBits (s.stg (F.Q.Q_CFG.EN q.val).addr) 0 1 = 1 →
        ∃ t, exec (.qCommitApply q) s = .next t ∧ t.commits = [] ∧ t.qEn q.val = true
        ∧ (∀ e ∈ rwsRegs (pgQ q.val), t.reg e.1 = s.merged e.1 e.2)
        ∧ ((t.getQ q.val).pkts.map (fun x => (x.len, x.typ)) = [(if 0 < (s.getQ q.val).disWords ∨ 0 < (s.getQ q.val).disPkts then 6 else 4, typMarker)])
        ∧ (t.getQ q.val).headEpoch = s.time.epoch ∧ (t.getQ q.val).pend = {}
        ∧ t.fld (F.Q.WR_PKT_CNT.CNT q.val) = min (2 ^ (F.Q.WR_PKT_CNT.CNT q.val).width - 1) (s.fld (F.Q.WR_PKT_CNT.CNT q.val) + 1))
    ∧ (s.commits = [{ page := pgQ q.val }] → s.qEn q.val = true → getBits (s.stg (F.Q.Q_CFG.EN q.val).addr) 0 1 = 0 →
        ∃ t, exec (.qCommitApply q) s = .next t ∧ t.commits = [] ∧ t.qEn q.val = false ∧ (t.getQ q.val).pkts = []
        ∧ (t.getQ q.val).disWords = s.qUnread q.val)

/-- A free ARB_MEM grants the requester that the classes and the round robin pick and counts it (R321); an owner that alone requests keeps
it (R322). ARB_TX hands the first packet of a queue, frame of MGMT or message of PTP to the ring node and counts it (R320, R324). Freezing
sets FREEZE and with no owner raises DRAINED; ARB_MEM is not frozen while a context writes (R325). A class register takes its value
(R323), and a requester that changes class joins as most recently served (R323); one that waits above STARVE_NS is noted, once per wait,
and raises its interrupt (R326). Where the words of the spec leave room it follows the readings of log entries 38 and 39, which are the
model's. -/
def Obligations.ArbitersGrantAndFreeze : Prop :=
  ∀ s : State, s.quiet = true → s.bit (F.HDR.INT_ROUTE.INBAND pgARBMEM) = false → s.bit (F.HDR.INT_ROUTE.INBAND pgARBTX) = false →
    (∀ (req : BitVec 8) (i : Fin 8), s.stalledAt pgARBMEM = false → s.arbMem.owner = none → s.bit F.ARB_MEM.ARB_CTL.FREEZE = false →
        (s.arbPick .mem ((List.range 8).filter fun i => req.getLsbD i) = some i.val) → ∃ t, exec (.arbMemGrant req) s = .next t
        ∧ t.arbMem.owner = some i.val
        ∧ t.fld (F.ARB_MEM.GRANT_CNT.CNT i.val) = min (2 ^ (F.ARB_MEM.GRANT_CNT.CNT i.val).width - 1) (s.fld (F.ARB_MEM.GRANT_CNT.CNT i.val) + 1)
        ∧ t.arbTx = s.arbTx ∧ t.capMem = s.capMem)
    ∧ (∀ (req : BitVec 8) (i : Fin 8), s.stalledAt pgARBMEM = false → s.arbMem.owner = none → s.bit F.ARB_MEM.ARB_CTL.FREEZE = false →
        (s.arbPick .mem ((List.range 8).filter fun i => req.getLsbD i) = some i.val) → i.val < 4 → ∃ t, exec (.arbMemGrant req) s = .next t
        ∧ t.arbMem.owner = some i.val
        ∧ t.fld (F.ARB_MEM.GRANT_CNT.CNT i.val) = min (2 ^ (F.ARB_MEM.GRANT_CNT.CNT i.val).width - 1) (s.fld (F.ARB_MEM.GRANT_CNT.CNT i.val) + 1)
        ∧ (t.trig.wr.getD i.val (0, 0)).1 = (s.trig.wr.getD i.val (0, 0)).1 - 16)
    ∧ (∀ (req : BitVec 8) (o : Fin 8), s.stalledAt pgARBMEM = false → s.arbMem.owner = some o.val → req.getLsbD o.val = true →
        s.bit F.ARB_MEM.ARB_CTL.FREEZE = false → (((List.range 8).any fun i => req.getLsbD i && decide (i ≠ o.val)) = false) →
        ∃ t, exec (.arbMemGrant req) s = .next t ∧ t.arbMem.owner = some o.val ∧ t.arbMem.units = s.arbMem.units + 1
        ∧ t.arbMem.served = s.arbMem.served ∧ t.regs = s.regs)
    ∧ (∀ (req : BitVec 8), s.stalledAt pgARBMEM = true → exec (.arbMemGrant req) s = .next (s))
    ∧ (∀ (req : BitVec 8), s.stalledAt pgARBMEM = false → s.arbMem.owner = none → s.bit F.ARB_MEM.ARB_CTL.FREEZE = true →
        ∃ t, exec (.arbMemGrant req) s = .next t ∧ t.arbMem.owner = none ∧ t.regs = s.regs
        ∧ (t.arbMem.waiting.map Prod.fst = (List.range 8).filter fun i => req.getLsbD i))
    ∧ ((s.txStopped = true ∨ s.stalledAt pgARBTX = true) → exec .arbTxGrant s = .next (s))
    ∧ (∀ (i : Fin 64) (p : Pkt) (l : List Pkt), s.txStopped = false → s.stalledAt pgARBTX = false → s.bit F.ARB_TX.ARB_CTL.FREEZE = false →
        s.arbPick .tx s.txRequests = some i.val → (s.getQ i.val).wp = (s.getQ i.val).wp2 → (s.getQ i.val).rp = (s.getQ i.val).rp2 →
        (s.getQ i.val).pkts = p :: l → s.qLevel i.val ≠ 0 → s.fenced = false → s.portUp .a = true → ∃ t, exec .arbTxGrant s = .next t
        ∧ t.arbTx.owner = some i.val
        ∧ t.fld (F.ARB_TX.FRAME_CNT.CNT i.val) = min (2 ^ (F.ARB_TX.FRAME_CNT.CNT i.val).width - 1) (s.fld (F.ARB_TX.FRAME_CNT.CNT i.val) + 1)
        ∧ t.fld (F.HSR.SEQ.SEQ i.val) = (s.fld (F.HSR.SEQ.SEQ i.val) + 1) % 2 ^ (F.HSR.SEQ.SEQ i.val).width ∧ (t.getQ i.val).pkts = l
        ∧ ((t.net.local_.map fun e => (e.1.dst, e.1.src, e.2.1)) = some (s.dstMac, s.streamMac, true)))
    ∧ (∀ (f : Frame) (e : Nat) (h : HubHdr) (ws : List Word), s.txStopped = false → s.stalledAt pgARBTX = false →
        s.bit F.ARB_TX.ARB_CTL.FREEZE = false → s.arbPick .tx s.txRequests = some 64 → s.net.mgmtTx = [(f, none)] → f.body = .hub e h ws →
        s.netSends = true → s.portUp .a = true → ∃ t, exec .arbTxGrant s = .next t ∧ t.arbTx.owner = some 64
        ∧ t.fld (F.ARB_TX.FRAME_CNT.CNT 64) = min (2 ^ (F.ARB_TX.FRAME_CNT.CNT 64).width - 1) (s.fld (F.ARB_TX.FRAME_CNT.CNT 64) + 1)
        ∧ t.fld F.HSR.CTRL_SEQ.SEQ = (s.fld F.HSR.CTRL_SEQ.SEQ + 1) % 2 ^ F.HSR.CTRL_SEQ.SEQ.width ∧ t.net.mgmtTx = []
        ∧ ((t.net.local_.map fun e => (e.1.dst, e.1.src, e.2.1)) = some (f.dst, f.src, true)))
    ∧ (s.txStopped = false → s.stalledAt pgARBTX = false → s.arbPick .tx s.txRequests = none → ∃ t, exec .arbTxGrant s = .next t
        ∧ t.arbTx.owner = none ∧ t.net = s.net ∧ t.queue = s.queue)
    ∧ (∀ (p : Port) (f : Frame), s.txStopped = false → s.stalledAt pgARBTX = false → s.bit F.ARB_TX.ARB_CTL.FREEZE = false →
        s.net.ptpTx = [(p, f)] → s.portUp p = true → s.arbPick .tx s.txRequests = some 65 → ∃ t, exec .arbTxGrant s = .next t
        ∧ t.net.local_ = some (f, decide (p = .a), decide (p = .b)) ∧ t.net.ptpTx = [] ∧ t.arbTx.owner = some 65
        ∧ t.fld (F.ARB_TX.FRAME_CNT.CNT 65) = min (2 ^ (F.ARB_TX.FRAME_CNT.CNT 65).width - 1) (s.fld (F.ARB_TX.FRAME_CNT.CNT 65) + 1)
        ∧ t.queue = s.queue)
    ∧ (s.bit F.ARB_MEM.ARB_CTL.FREEZE = false → s.memMayFreeze = true → s.arbMem.owner = none → ∃ t, exec (.freeze .mem true) s = .next t
        ∧ t.bit F.ARB_MEM.ARB_CTL.FREEZE = true ∧ (t.reg (0x1000 * pgARBMEM + 0x010)).getLsbD Irq.memDrained.bit = true
        ∧ s.regsBut t [F.ARB_MEM.ARB_CTL.FREEZE.addr, 0x1000 * pgARBMEM + 0x010])
    ∧ (s.bit F.ARB_MEM.ARB_CTL.FREEZE = false → s.memMayFreeze = false → ∃ t, exec (.freeze .mem true) s = .next t
        ∧ t.bit F.ARB_MEM.ARB_CTL.FREEZE = false ∧ (t.reg (0x1000 * pgARBMEM + 0x010)).getLsbD Irq.freezeRefused.bit = true
        ∧ s.regsBut t [0x1000 * pgARBMEM + 0x010])
    ∧ (s.bit F.ARB_MEM.ARB_CTL.FREEZE = false → s.memMayFreeze = true → s.arbMem.owner.isSome = true →
        ∃ t, exec (.freeze .mem true) s = .next t ∧ t.bit F.ARB_MEM.ARB_CTL.FREEZE = true ∧ t.arbMem = s.arbMem
        ∧ s.regsBut t [F.ARB_MEM.ARB_CTL.FREEZE.addr])
    ∧ (s.bit F.ARB_MEM.ARB_CTL.FREEZE = true → ∃ t, exec (.freeze .mem false) s = .next t ∧ t.bit F.ARB_MEM.ARB_CTL.FREEZE = false
        ∧ (t.arbMem.waiting = s.arbMem.waiting.map fun e => (e.1, s.elapsedNs)) ∧ s.regsBut t [F.ARB_MEM.ARB_CTL.FREEZE.addr])
    ∧ (∀ (a : Arbiter) (on : Bool), s.arbFrozen a = on → exec (.freeze a on) s = .next (s.otherWrite))
    ∧ (s.bit F.ARB_TX.ARB_CTL.FREEZE = false → ∃ t, exec (.freeze .tx true) s = .next t ∧ t.bit F.ARB_TX.ARB_CTL.FREEZE = true
        ∧ t.net.ptpTx = [] ∧ (t.reg (0x1000 * pgARBTX + 0x010)).getLsbD Irq.txDrained.bit = true
        ∧ s.regsBut t [F.ARB_TX.ARB_CTL.FREEZE.addr, 0x1000 * pgARBTX + 0x010])
    ∧ (s.bit F.ARB_TX.ARB_CTL.FREEZE = true → ∃ t, exec (.freeze .tx false) s = .next t ∧ t.bit F.ARB_TX.ARB_CTL.FREEZE = false
        ∧ (t.arbTx.waiting = s.arbTx.waiting.map fun e => (e.1, s.elapsedNs)) ∧ s.regsBut t [F.ARB_TX.ARB_CTL.FREEZE.addr])
    ∧ (∀ (w : Fin 5) (v : Reg), w.val < 4 → ∃ t, exec (.classWrite .tx w v) s = .next t ∧ t.reg (0x00C100 + 4 * w.val) = v
        ∧ s.regsBut t [0x00C100 + 4 * w.val] ∧ t.arbMem = s.arbMem ∧ t.arbTx.waiting = s.arbTx.waiting)
    ∧ (∀ (w : Fin 5) (v : Reg), w.val = 4 → v.toNat % 4 ≠ s.arbClass .tx 64 → v.toNat / 4 % 4 = s.arbClass .tx 65 →
        s.arbTx.served.length = 4 → ∃ t, exec (.classWrite .tx w v) s = .next t ∧ t.reg 0x00C110 = v &&& 0xF#32
        ∧ t.arbTx.served = s.arbTx.served.set (v.toNat % 4) 64 ∧ s.regsBut t [0x00C110] ∧ t.arbMem = s.arbMem)
    ∧ (∀ (w : Fin 5) (v : Reg), w.val = 0 → ∃ t, exec (.classWrite .mem w v) s = .next t ∧ t.reg 0x00B048 = v &&& 0xFFFF#32
        ∧ s.regsBut t [0x00B048] ∧ t.arbTx = s.arbTx ∧ t.arbMem.waiting = s.arbMem.waiting)
    ∧ (∀ (w : Fin 5) (v : Reg), w.val ≠ 0 → exec (.classWrite .mem w v) s = .next (s.otherWrite))
    ∧ (∀ (a : Arbiter) (i : Fin 66) (ns : Nat), (s.arbFrozen a = true ∨ ((s.arb a).waiting.find? fun e => decide (e.1 = i.val)) = none) →
        exec (.starve a i ns) s = .next (s))
    ∧ (∀ (a : Arbiter) (i : Fin 66) (ns : Nat), (s.starveNs a = 0 ∨ ns ≤ s.starveNs a ∨ (s.arb a).starved.contains i.val = true) →
        ∃ t, exec (.starve a i ns) s = .next t ∧ t.regs = s.regs ∧ (t.arb a).waiting = (s.arb a).waiting ∧ t.net = s.net)
    ∧ (∀ (i : Fin 66) (ns : Nat), s.bit F.ARB_MEM.ARB_CTL.FREEZE = false →
        ((s.arbMem.waiting.find? fun e => decide (e.1 = i.val)).isSome = true) → s.arbMem.starved.contains i.val = false → i.val < 8 →
        s.fld F.ARB_MEM.STARVE_NS.NS ≠ 0 → s.fld F.ARB_MEM.STARVE_NS.NS < ns → ∃ t, exec (.starve .mem i ns) s = .next t
        ∧ t.bit (starveFld .mem i.val) = true ∧ t.arbMem.starved = i.val :: s.arbMem.starved
        ∧ (t.reg (0x1000 * pgARBMEM + 0x010)).getLsbD Irq.memStarve.bit = true
        ∧ s.regsBut t [(starveFld .mem i.val).addr, 0x1000 * pgARBMEM + 0x010])
    ∧ (∀ (i : Fin 66) (ns : Nat), s.bit F.ARB_TX.ARB_CTL.FREEZE = false →
        ((s.arbTx.waiting.find? fun e => decide (e.1 = i.val)).isSome = true) → s.arbTx.starved.contains i.val = false →
        s.fld F.ARB_TX.STARVE_NS.NS ≠ 0 → s.fld F.ARB_TX.STARVE_NS.NS < ns → ∃ t, exec (.starve .tx i ns) s = .next t
        ∧ t.bit (starveFld .tx i.val) = true ∧ t.arbTx.starved = i.val :: s.arbTx.starved
        ∧ (t.reg (0x1000 * pgARBTX + 0x010)).getLsbD Irq.txStarve.bit = true
        ∧ s.regsBut t [(starveFld .tx i.val).addr, 0x1000 * pgARBTX + 0x010])

/-! ## Line ports, ring node and management (R334 to R360) -/

/-- Writing MODE 0 takes a port OFF, and a new MODE other than 0 takes it DOWN (R336). An asserted loss of signal takes a port that is not
OFF DOWN, sets LOS (R335) and counts an exit from UP (R336). A receiver in synchronisation takes a DOWN port without LOS to SYNC; 1 ms
there without remote fault and waiting auto-negotiation takes it UP, and a remote fault or lost synchronisation out of UP (R336). The
errors reported count in CODE_ERR_CNT, each report being the model's (R369; log entry 89). That a timed command lets time run on to its
instant is the model's choice (log entry 6). Where the words of the spec leave room it follows the readings of log entry 41, which are the
model's. -/
def Obligations.PortsChangeState : Prop :=
  ∀ (p : Port) (s : State), s.quiet = true → s.bit (F.HDR.INT_ROUTE.INBAND (pgPORT (portNum p))) = false → s.bit (F.HDR.INT_ROUTE.INBAND pgHSR) = false →
    (∀ (v : Reg), v.toNat % 4 = 0 → ∃ t, exec (.portModeWrite p v) s = .next t ∧ t.portState p = portOff
        ∧ t.reg (F.PORT.PORT_CTL.MODE (portNum p)).addr = v &&& 0x113#32 ∧ t.portUp p = false ∧ t.time = s.time ∧ t.queue = s.queue)
    ∧ (∀ (v : Reg), v.toNat % 4 ≠ 0 → v.toNat % 4 ≠ s.portMode p → ∃ t, exec (.portModeWrite p v) s = .next t ∧ t.portState p = portDown
        ∧ t.reg (F.PORT.PORT_CTL.MODE (portNum p)).addr = v &&& 0x113#32 ∧ (t.getPort p).sync = false
        ∧ t.bit (F.PORT.PORT_STS.RF (portNum p)) = false ∧ t.bit (F.PORT.PORT_STS.AN_DONE (portNum p)) = false)
    ∧ (∀ (l : Bool), s.portMode p ≠ 0 → l ≠ s.bit (F.PORT.PORT_CTL.LOS_POL (portNum p)) → s.bit (F.PORT.PORT_STS.LOS (portNum p)) = false →
        ∃ t, exec (.losChange p l) s = .next t ∧ t.portState p = portDown ∧ t.bit (F.PORT.PORT_STS.LOS (portNum p)) = true
        ∧ (t.getPort p).los = l ∧ (t.reg (0x1000 * pgPORT (portNum p) + 0x010)).getLsbD (Irq.losChange (portNum p)).bit = true
        ∧ (t.fld (F.PORT.LINK_DOWN_CNT.CNT (portNum p)) = min (2 ^ (F.PORT.LINK_DOWN_CNT.CNT (portNum p)).width - 1) (s.fld (F.PORT.LINK_DOWN_CNT.CNT (portNum p)) + if s.portState p = portIsUp then 1 else 0)))
    ∧ (∀ (an : Bool) (n : Nat), s.portMode p ≠ 0 → s.portState p = portDown → s.bit (F.PORT.PORT_STS.LOS (portNum p)) = false →
        ∃ t, exec (.portSyncChange p true false an n) s = .next t ∧ t.portState p = portSync ∧ (t.getPort p).syncAt = s.time.cycles
        ∧ t.bit (F.PORT.PORT_STS.AN_DONE (portNum p)) = an ∧ t.bit (F.PORT.PORT_STS.RF (portNum p)) = false
        ∧ t.fld (F.PORT.CODE_ERR_CNT.CNT (portNum p)) = min (2 ^ 32 - 1) (s.fld (F.PORT.CODE_ERR_CNT.CNT (portNum p)) + n)
        ∧ s.regsBut t [(F.PORT.PORT_STS.STATE (portNum p)).addr, (F.PORT.CODE_ERR_CNT.CNT (portNum p)).addr])
    ∧ (∀ (sync rf an : Bool) (n : Nat), s.portMode p = 0 → exec (.portSyncChange p sync rf an n) s = .next (s))
    ∧ (∀ (rf an : Bool) (n : Nat), s.portMode p ≠ 0 → ∃ t, exec (.portSyncChange p false rf an n) s = .next t ∧ t.portState p = portDown
        ∧ t.bit (F.PORT.PORT_STS.RF (portNum p)) = rf ∧ t.bit (F.PORT.PORT_STS.AN_DONE (portNum p)) = an
        ∧ (t.fld (F.PORT.LINK_DOWN_CNT.CNT (portNum p)) = min (2 ^ (F.PORT.LINK_DOWN_CNT.CNT (portNum p)).width - 1) (s.fld (F.PORT.LINK_DOWN_CNT.CNT (portNum p)) + if s.portState p = portIsUp then 1 else 0)))
    ∧ (∀ (an : Bool) (n : Nat), s.portMode p ≠ 0 → s.portState p = portIsUp → s.bit (F.PORT.PORT_STS.LOS (portNum p)) = false →
        ∃ t, exec (.portSyncChange p true true an n) s = .next t ∧ t.portUp p = false ∧ t.bit (F.PORT.PORT_STS.RF (portNum p)) = true
        ∧ t.fld (F.PORT.LINK_DOWN_CNT.CNT (portNum p)) = min (2 ^ (F.PORT.LINK_DOWN_CNT.CNT (portNum p)).width - 1) (s.fld (F.PORT.LINK_DOWN_CNT.CNT (portNum p)) + 1)
        ∧ (t.reg (0x1000 * pgPORT (portNum p) + 0x010)).getLsbD (Irq.portLinkDown (portNum p)).bit = true ∧ (t.getPort p).fwd = [])
    ∧ (∀ (an : Bool) (n : Nat), s.portMode p ≠ 0 → s.portState p = portIsUp → s.bit (F.PORT.PORT_STS.LOS (portNum p)) = false →
        ∃ t, exec (.portSyncChange p true false an n) s = .next t ∧ t.portState p = portIsUp
        ∧ t.bit (F.PORT.PORT_STS.RF (portNum p)) = false
        ∧ s.regsBut t [(F.PORT.PORT_STS.STATE (portNum p)).addr, (F.PORT.CODE_ERR_CNT.CNT (portNum p)).addr])
    ∧ (∀ (l : Bool), (l != s.bit (F.PORT.PORT_CTL.LOS_POL (portNum p))) = false → s.portMode p ≠ 0 → (s.getPort p).sync = true →
        s.portState p = portDown → ∃ t, exec (.losChange p l) s = .next t ∧ t.portState p = portSync
        ∧ t.bit (F.PORT.PORT_STS.LOS (portNum p)) = false ∧ (t.getPort p).los = l ∧ (t.getPort p).syncAt = s.time.cycles)
    ∧ (∀ (l : Bool), s.portMode p = 0 → s.portState p = portOff → ∃ t, exec (.losChange p l) s = .next t ∧ t.portState p = portOff
        ∧ (t.getPort p).los = l ∧ t.bit (F.PORT.PORT_STS.LOS (portNum p)) = (l != s.bit (F.PORT.PORT_CTL.LOS_POL (portNum p)))
        ∧ s.regsBut t [(F.PORT.PORT_STS.STATE (portNum p)).addr, 0x1000 * pgPORT (portNum p) + 0x010])
    ∧ (∀ (v : Reg), v.toNat % 4 ≠ 0 → v.toNat % 4 = s.portMode p → ∃ t, exec (.portModeWrite p v) s = .next t
        ∧ t.reg (F.PORT.PORT_CTL.MODE (portNum p)).addr = v &&& 0x113#32 ∧ (t.getPort p).sync = (s.getPort p).sync
        ∧ t.bit (F.PORT.PORT_STS.LOS (portNum p)) = ((s.getPort p).los != t.bit (F.PORT.PORT_CTL.LOS_POL (portNum p))))
    ∧ ((s.portState p ≠ portSync ∨ s.bit (F.PORT.PORT_STS.RF (portNum p)) = true ∨ s.anWaits p = true) → exec (.portUp p) s = .next (s))
    ∧ (s.portState p = portSync → s.bit (F.PORT.PORT_STS.RF (portNum p)) = false → s.anWaits p = false → ∃ t, exec (.portUp p) s = .next t
        ∧ t.portState p = portIsUp ∧ (s.getPort p).syncAt + 500000 ≤ t.time.cycles
        ∧ (t.reg (0x1000 * pgPORT (portNum p) + 0x010)).getLsbD (Irq.linkUp (portNum p)).bit = true)

/-- At an HSR node: a right tagged frame from the hub's own address is removed and counted; a second copy from the same port is discarded
and counted; another foreign frame enters the duplicate table and is forwarded to the other port, at once where its line is idle, else
from its buffer, or lost to FWD_OVF (R340, R342, R343, R344); one without a tag is counted (R340). In SINGLE mode a ring trigger is taken
and a management request for the hub waits at MGMT (R341, R353). A local frame is sent once on each port (R345), and the oldest duplicate
entry is forgotten in time (R342). That a timed command lets time run on to its instant is the model's choice (log entry 6). Where the
words of the spec leave room it follows the readings of log entries 40, 41, 42, 43 and 44, which are the model's. -/
def Obligations.RingFramesAreForwardedOrRemoved : Prop :=
  ∀ (p : Port) (s : State), s.inReset = false → s.rim.fatalDue = false → s.rim.due = [] → s.fld F.NVM.BOOT_STS.STEP ≠ 9 → s.arbTx.owner = none → s.bit (F.HDR.INT_ROUTE.INBAND (pgPORT (portNum p))) = false → s.bit (F.HDR.INT_ROUTE.INBAND pgHSR) = false →
    (∀ (v : Reg), s.net.local_ = none → ∃ t, exec (.nodeModeWrite v) s = .next t ∧ t.reg F.HSR.HSR_CTL.NODE_MODE.addr = v &&& 0x7#32
        ∧ s.regsBut t [F.HSR.HSR_CTL.NODE_MODE.addr, 0x1000 * pgHSR + 0x010] ∧ (t.modesDiffer = true → s.modesDiffer = false →
        (t.reg (0x1000 * pgHSR + 0x010)).getLsbD Irq.modeMismatch.bit = true) ∧ t.net = s.net)
    ∧ (∀ (f : Frame) (fits : Bool) (n : Nat), s.net.local_ = none → s.portUp p = true → s.stalledAt pgHSR = false → f.fcsOk = true →
        f.bytes ≤ 2000 → f.body ≠ .pause → s.nodeMode = 1 → f.hsrSeq = some n → f.src = s.ownMac →
        ∃ t, exec (.frameRx p f true fits) s = .next t ∧ t.net = s.net
        ∧ t.fld (F.HSR.OWN_REMOVED_CNT.CNT) = min (2 ^ (F.HSR.OWN_REMOVED_CNT.CNT).width - 1) (s.fld (F.HSR.OWN_REMOVED_CNT.CNT) + 1)
        ∧ t.fld (F.PORT.RX_FRAMES.CNT (portNum p)) = min (2 ^ (F.PORT.RX_FRAMES.CNT (portNum p)).width - 1) (s.fld (F.PORT.RX_FRAMES.CNT (portNum p)) + 1)
        ∧ s.regsBut t [F.HSR.OWN_REMOVED_CNT.CNT.addr, (F.PORT.RX_FRAMES.CNT (portNum p)).addr])
    ∧ (∀ (f : Frame) (fits : Bool) (n : Nat), s.net.local_ = none → s.portUp p = true → s.stalledAt pgHSR = false → f.fcsOk = true →
        f.bytes ≤ 2000 → f.body ≠ .pause → s.nodeMode = 1 → f.hsrSeq = some n → f.src ≠ s.ownMac → f.src ≠ s.streamMac → f.body = .foreign →
        s.dupHas f.src n (some p) = true → ∃ t, exec (.frameRx p f true fits) s = .next t ∧ t.net = s.net
        ∧ t.fld (F.HSR.DUP_DISCARD_CNT.CNT) = min (2 ^ (F.HSR.DUP_DISCARD_CNT.CNT).width - 1) (s.fld (F.HSR.DUP_DISCARD_CNT.CNT) + 1)
        ∧ t.fld (F.PORT.RX_FRAMES.CNT (portNum p)) = min (2 ^ (F.PORT.RX_FRAMES.CNT (portNum p)).width - 1) (s.fld (F.PORT.RX_FRAMES.CNT (portNum p)) + 1)
        ∧ s.regsBut t [F.HSR.DUP_DISCARD_CNT.CNT.addr, (F.PORT.RX_FRAMES.CNT (portNum p)).addr])
    ∧ (∀ (f : Frame) (fits : Bool) (n : Nat), s.net.local_ = none → s.portUp p = true → s.stalledAt pgHSR = false → f.fcsOk = true →
        f.bytes ≤ 2000 → f.body ≠ .pause → s.forwards p = true → f.hsrSeq = some n → f.src ≠ s.ownMac → f.src ≠ s.streamMac →
        f.dst ≠ s.ownMac → f.body = .foreign → s.dupHas f.src n (some p) = false → s.net.dup.length < 1024 →
        (s.getPort (otherPort p)).busy ≤ s.tenths → (s.getPort (otherPort p)).fwd = [] → ∃ t, exec (.frameRx p f true fits) s = .next t
        ∧ (t.getPort (otherPort p)).sent = f :: (s.getPort (otherPort p)).sent ∧ t.net.dup = ⟨f.src, n, p, s.time.cycles⟩ :: s.net.dup
        ∧ t.fld (F.PORT.FWD_OUT.CNT (portNum (otherPort p))) = min (2 ^ (F.PORT.FWD_OUT.CNT (portNum (otherPort p))).width - 1) (s.fld (F.PORT.FWD_OUT.CNT (portNum (otherPort p))) + 1)
        ∧ (t.getPort p).sent = (s.getPort p).sent ∧ t.queue = s.queue ∧ t.time = s.time)
    ∧ (∀ (f : Frame) (n : Nat), s.net.local_ = none → s.portUp p = true → s.stalledAt pgHSR = false → f.fcsOk = true → f.bytes ≤ 2000 →
        f.body ≠ .pause → s.forwards p = true → f.hsrSeq = some n → f.src ≠ s.ownMac → f.src ≠ s.streamMac → f.dst ≠ s.ownMac →
        f.body = .foreign → s.dupHas f.src n (some p) = false → s.net.dup.length < 1024 → s.tenths < (s.getPort (otherPort p)).busy →
        (s.getPort (otherPort p)).fwd = [] → ∃ t, exec (.frameRx p f true true) s = .next t
        ∧ (t.getPort (otherPort p)).fwd.map Prod.fst = [f] ∧ (t.getPort (otherPort p)).sent = (s.getPort (otherPort p)).sent
        ∧ (t.getPort (otherPort p)).busy = (s.getPort (otherPort p)).busy + lineTime (s.portMode (otherPort p)) f.bytes
        ∧ t.fld (F.PORT.FWD_OUT.CNT (portNum (otherPort p))) = s.fld (F.PORT.FWD_OUT.CNT (portNum (otherPort p)))
        ∧ t.net.dup = ⟨f.src, n, p, s.time.cycles⟩ :: s.net.dup)
    ∧ (∀ (f : Frame) (n : Nat), s.net.local_ = none → s.portUp p = true → s.stalledAt pgHSR = false → f.fcsOk = true → f.bytes ≤ 2000 →
        f.body ≠ .pause → s.forwards p = true → f.hsrSeq = some n → f.src ≠ s.ownMac → f.src ≠ s.streamMac → f.dst ≠ s.ownMac →
        f.body = .foreign → s.dupHas f.src n (some p) = false → s.net.dup.length < 1024 → s.tenths < (s.getPort (otherPort p)).busy →
        (s.getPort (otherPort p)).fwd = [] → ∃ t, exec (.frameRx p f true false) s = .next t ∧ (t.getPort (otherPort p)).fwd = []
        ∧ (t.getPort (otherPort p)).sent = (s.getPort (otherPort p)).sent
        ∧ t.fld (F.PORT.FWD_OVF_CNT.CNT (portNum (otherPort p))) = min (2 ^ (F.PORT.FWD_OVF_CNT.CNT (portNum (otherPort p))).width - 1) (s.fld (F.PORT.FWD_OVF_CNT.CNT (portNum (otherPort p))) + 1)
        ∧ t.faultSet (Flt.fwdOvf (portNum (otherPort p))) = true)
    ∧ (∀ (f : Frame) (fits : Bool), s.net.local_ = none → s.portUp p = true → s.stalledAt pgHSR = false → f.fcsOk = true → f.bytes ≤ 2000 →
        f.body ≠ .pause → s.nodeMode = 1 → f.hsrSeq = none → f.src ≠ s.ownMac → f.src ≠ s.streamMac → f.body = .foreign →
        ∃ t, exec (.frameRx p f true fits) s = .next t ∧ t.net = s.net
        ∧ t.fld (F.HSR.NOTAG_CNT.CNT) = min (2 ^ (F.HSR.NOTAG_CNT.CNT).width - 1) (s.fld (F.HSR.NOTAG_CNT.CNT) + 1)
        ∧ t.fld (F.PORT.RX_FRAMES.CNT (portNum p)) = min (2 ^ (F.PORT.RX_FRAMES.CNT (portNum p)).width - 1) (s.fld (F.PORT.RX_FRAMES.CNT (portNum p)) + 1)
        ∧ s.regsBut t [F.HSR.NOTAG_CNT.CNT.addr, (F.PORT.RX_FRAMES.CNT (portNum p)).addr])
    ∧ (∀ (f : Frame) (ok fits : Bool), s.portUp p = false → exec (.frameRx p f ok fits) s = .next (s))
    ∧ (∀ (f : Frame) (fits : Bool), s.net.local_ = none → s.portUp p = true → s.stalledAt pgHSR = false → f.fcsOk = false → f.bytes ≤ 2000 →
        f.body = .foreign → s.nodeMode = 2 → ∃ t, exec (.frameRx p f true fits) s = .next t ∧ t.net = s.net
        ∧ t.fld (F.PORT.RX_FCS_ERR.CNT (portNum p)) = min (2 ^ (F.PORT.RX_FCS_ERR.CNT (portNum p)).width - 1) (s.fld (F.PORT.RX_FCS_ERR.CNT (portNum p)) + 1)
        ∧ t.fld (F.PORT.RX_FRAMES.CNT (portNum p)) = min (2 ^ (F.PORT.RX_FRAMES.CNT (portNum p)).width - 1) (s.fld (F.PORT.RX_FRAMES.CNT (portNum p)) + 1)
        ∧ s.regsBut t [(F.PORT.RX_FCS_ERR.CNT (portNum p)).addr, (F.PORT.RX_FRAMES.CNT (portNum p)).addr])
    ∧ (∀ (f : Frame) (fits : Bool) (h : HubHdr) (u v w : Word), p = .a → s.net.local_ = none → s.portUp p = true →
        s.stalledAt pgHSR = false → f.fcsOk = true → f.bytes ≤ 2000 → f.body ≠ .pause → s.nodeMode = 2 → f.hsrSeq = none →
        f.body = .hub (s.fld F.HSR.ETHERTYPE.TYPE) h [u, v, w] → h.ftype = 7 → s.hubTakes f h = true →
        s.bit F.TRIG.TRIG_CTL.RING_RX_EN = true → s.bit F.NVM.PWR_CTL.WAKE_RING_EN = false →
        (((List.range 256).all fun x => !s.srcOn x 4) = true) → s.bit (F.HDR.INT_ROUTE.INBAND pgTRIG) = false →
        ∃ t, exec (.frameRx .a f true fits) s = .next t ∧ t.fld F.TRIG.RRX_INFO.ID = (ringFields u v w).1 % 2 ^ F.TRIG.RRX_INFO.ID.width
        ∧ t.fld F.TRIG.RRX_INFO.ORIGIN = h.hubId % 2 ^ F.TRIG.RRX_INFO.ORIGIN.width
        ∧ t.fld F.TRIG.RRX_T0_NS.NS = (ringFields u v w).2 / 8 % nsPerSec ∧ t.fld F.TRIG.RRX_ARRIVAL.NS32 = s.ns32
        ∧ t.fld (F.TRIG.RING_RX_CNT.CNT) = min (2 ^ (F.TRIG.RING_RX_CNT.CNT).width - 1) (s.fld (F.TRIG.RING_RX_CNT.CNT) + 1)
        ∧ (t.reg (0x1000 * pgTRIG + 0x010)).getLsbD Irq.ringRx.bit = true ∧ t.net = s.net)
    ∧ (∀ (f : Frame) (fits : Bool) (h : HubHdr) (ws : List Word), p = .a → s.net.local_ = none → s.portUp p = true →
        s.stalledAt pgHSR = false → f.fcsOk = true → f.bytes ≤ 2000 → f.body ≠ .pause → s.nodeMode = 2 → f.hsrSeq = none →
        f.body = .hub (s.fld F.HSR.ETHERTYPE.TYPE) h ws → h.ftype = 6 → s.hubTakes f h = true → s.bit F.HSR.HSR_CTL.MGMT_EN = true →
        ∃ t, exec (.frameRx .a f true fits) s = .next t ∧ t.net.mgmtRx = s.net.mgmtRx ++ [f] ∧ t.net.mgmtTx = s.net.mgmtTx
        ∧ t.fld (F.PORT.RX_FRAMES.CNT 0) = min (2 ^ (F.PORT.RX_FRAMES.CNT 0).width - 1) (s.fld (F.PORT.RX_FRAMES.CNT 0) + 1)
        ∧ s.regsBut t [(F.PORT.RX_FRAMES.CNT 0).addr])
    ∧ (∀ (f : Frame), s.net.local_ = some (f, true, true) → (s.getPort p).fwd = [] → s.portUp p = true → s.stalledAt pgHSR = false →
        ∃ t, exec (.localFrameSend p) s = .next t ∧ (t.getPort p).sent = tagFor p f :: (s.getPort p).sent ∧ (s.getPort p).busy ≤ t.tenths
        ∧ t.net.local_ = some (f, decide (p ≠ .a), decide (p ≠ .b))
        ∧ t.fld (F.PORT.LOCAL_OUT.CNT (portNum p)) = min (2 ^ (F.PORT.LOCAL_OUT.CNT (portNum p)).width - 1) (s.fld (F.PORT.LOCAL_OUT.CNT (portNum p)) + 1)
        ∧ (t.getPort (otherPort p)).sent = (s.getPort (otherPort p)).sent ∧ t.queue = s.queue)
    ∧ (s.net.local_ = none → exec (.localFrameSend p) s = .next (s))
    ∧ (s.net.local_ = none → s.net.dup = [] → exec .ddForget s = .next (s))
    ∧ (∀ (l : List DupEntry) (e : DupEntry), s.net.local_ = none → s.net.dup = l ++ [e] →
        exec .ddForget s = .next ((s.reachCycles (e.at_ + s.forgetCycles)).modNet fun n => { n with dup := l }))

/-- The oldest request that waits is taken. One whose tag does not verify, or whose slot has no key, is counted and raises AUTH_FAIL; one
that verifies with a counter not above LAST_CTR is counted as a replay; one above it moves LAST_CTR, is executed and answered, and counts
as accepted or as an error: a read answers the register, a write sets it (R356, R357, R358). STORE empties the slot and begins to write
the key; its verified end puts the key in place, starts its counter at 0 and clears KEY_DATA (R359, R360). Where the words of the spec
leave room it follows the readings of log entries 17 and 60, which are the model's. -/
def Obligations.ManagementIsAuthenticatedAndKeysAreStored : Prop :=
  ∀ s : State, s.quiet = true → s.bit (F.HDR.INT_ROUTE.INBAND pgHSR) = false →
    (∀ (f : Frame) (l : List Frame) (e : Nat) (h : HubHdr) (ws : List Word), s.net.mgmtRx = f :: l → f.body = .hub e h ws →
        s.bit F.HSR.HSR_CTL.MGMT_EN = true → s.reqVerified h (ws.take h.wcount) = false → ∃ t, exec .mgmtRequest s = .next t
        ∧ t.net = { s.net with mgmtRx := l }
        ∧ t.fld (F.HSR.MGMT_AUTH_FAIL_CNT.CNT) = min (2 ^ (F.HSR.MGMT_AUTH_FAIL_CNT.CNT).width - 1) (s.fld (F.HSR.MGMT_AUTH_FAIL_CNT.CNT) + 1)
        ∧ (t.reg (0x1000 * pgHSR + 0x010)).getLsbD Irq.authFail.bit = true
        ∧ s.regsBut t [F.HSR.MGMT_AUTH_FAIL_CNT.CNT.addr, 0x1000 * pgHSR + 0x010] ∧ t.mram = s.mram)
    ∧ (∀ (f : Frame) (l : List Frame) (e : Nat) (h : HubHdr) (ws : List Word), s.net.mgmtRx = f :: l → f.body = .hub e h ws →
        s.bit F.HSR.HSR_CTL.MGMT_EN = true → s.reqVerified h (ws.take h.wcount) = true →
        h.seq ≤ s.fld (lastCtrFld (reqSlot (ws.take h.wcount))) → ∃ t, exec .mgmtRequest s = .next t ∧ t.net = { s.net with mgmtRx := l }
        ∧ t.fld (F.HSR.MGMT_REPLAY_CNT.CNT) = min (2 ^ (F.HSR.MGMT_REPLAY_CNT.CNT).width - 1) (s.fld (F.HSR.MGMT_REPLAY_CNT.CNT) + 1)
        ∧ (t.reg (0x1000 * pgHSR + 0x010)).getLsbD Irq.replay.bit = true
        ∧ s.regsBut t [F.HSR.MGMT_REPLAY_CNT.CNT.addr, 0x1000 * pgHSR + 0x010] ∧ t.mram = s.mram)
    ∧ (s.net.mgmtRx = [] → exec .mgmtRequest s = .next (s))
    ∧ (∀ (f : Frame) (l : List Frame), s.net.mgmtRx = f :: l → s.bit F.HSR.HSR_CTL.MGMT_EN = false →
        exec .mgmtRequest s = .next (s.modNet fun n => { n with mgmtRx := l }))
    ∧ (∀ (f : Frame) (l : List Frame) (e : Nat) (h : HubHdr) (ws : List Word), s.net.mgmtRx = f :: l → f.body = .hub e h ws →
        s.bit F.HSR.HSR_CTL.MGMT_EN = true → s.reqVerified h (ws.take h.wcount) = true →
        s.fld (lastCtrFld (reqSlot (ws.take h.wcount))) < h.seq → s.follows = false → reqStatus h.wcount (ws.take h.wcount) ≠ 0 →
        ∃ t, exec .mgmtRequest s = .next t
        ∧ t.net.mgmtTx = s.net.mgmtTx ++ [(s.ctrlFrame f.src 6 (respWords h.seq (s.fld F.HSR.HUB_ID.OWN_ID) (reqStatus h.wcount (ws.take h.wcount)) 0 []), some (reqSlot (ws.take h.wcount)))]
        ∧ t.net.mgmtRx = l
        ∧ t.fld (F.HSR.MGMT_ERR_CNT.CNT) = min (2 ^ (F.HSR.MGMT_ERR_CNT.CNT).width - 1) (s.fld (F.HSR.MGMT_ERR_CNT.CNT) + 1)
        ∧ t.fld (lastCtrFld (reqSlot (ws.take h.wcount))) = h.seq % 2 ^ 32
        ∧ s.regsBut t [F.HSR.MGMT_ERR_CNT.CNT.addr, (lastCtrFld (reqSlot (ws.take h.wcount))).addr])
    ∧ (∀ (f : Frame) (l : List Frame) (e : Nat) (h : HubHdr) (ws : List Word), s.net.mgmtRx = f :: l → f.body = .hub e h ws →
        s.bit F.HSR.HSR_CTL.MGMT_EN = true → s.reqVerified h (ws.take h.wcount) = true →
        s.fld (lastCtrFld (reqSlot (ws.take h.wcount))) < h.seq → s.follows = false → reqStatus h.wcount (ws.take h.wcount) = 0 →
        reqCmds (ws.take h.wcount) = [some (false, 1, F.TRIG.RTX_T0_SEC_LO.SEC_LO.addr, 0)] → ∃ t, exec .mgmtRequest s = .next t
        ∧ t.net.mgmtTx = s.net.mgmtTx ++ [(s.ctrlFrame f.src 6 (respWords h.seq (s.fld F.HSR.HUB_ID.OWN_ID) 0 1 [s.reg F.TRIG.RTX_T0_SEC_LO.SEC_LO.addr]), some (reqSlot (ws.take h.wcount)))]
        ∧ t.net.mgmtRx = l ∧ t.fld (F.HSR.MGMT_OK_CNT.CNT) = min (2 ^ (F.HSR.MGMT_OK_CNT.CNT).width - 1) (s.fld (F.HSR.MGMT_OK_CNT.CNT) + 1)
        ∧ t.fld (lastCtrFld (reqSlot (ws.take h.wcount))) = h.seq % 2 ^ 32
        ∧ t.reg F.TRIG.RTX_T0_SEC_LO.SEC_LO.addr = s.reg F.TRIG.RTX_T0_SEC_LO.SEC_LO.addr)
    ∧ (∀ (f : Frame) (l : List Frame) (e : Nat) (h : HubHdr) (ws : List Word) (v : Reg), s.net.mgmtRx = f :: l → f.body = .hub e h ws →
        s.bit F.HSR.HSR_CTL.MGMT_EN = true → s.reqVerified h (ws.take h.wcount) = true →
        s.fld (lastCtrFld (reqSlot (ws.take h.wcount))) < h.seq → s.follows = false → reqStatus h.wcount (ws.take h.wcount) = 0 →
        reqCmds (ws.take h.wcount) = [some (true, 1, F.TRIG.RTX_T0_SEC_LO.SEC_LO.addr, v)] → ∃ t, exec .mgmtRequest s = .next t
        ∧ t.net.mgmtTx = s.net.mgmtTx ++ [(s.ctrlFrame f.src 6 (respWords h.seq (s.fld F.HSR.HUB_ID.OWN_ID) 0 1 []), some (reqSlot (ws.take h.wcount)))]
        ∧ t.net.mgmtRx = l ∧ t.fld (F.HSR.MGMT_OK_CNT.CNT) = min (2 ^ (F.HSR.MGMT_OK_CNT.CNT).width - 1) (s.fld (F.HSR.MGMT_OK_CNT.CNT) + 1)
        ∧ t.fld (lastCtrFld (reqSlot (ws.take h.wcount))) = h.seq % 2 ^ 32 ∧ t.reg F.TRIG.RTX_T0_SEC_LO.SEC_LO.addr = v)
    ∧ (∀ (f : Frame) (l : List Frame) (e : Nat) (h : HubHdr) (ws : List Word), s.net.mgmtRx = f :: l → f.body = .hub e h ws →
        s.bit F.HSR.HSR_CTL.MGMT_EN = true → s.reqVerified h (ws.take h.wcount) = true →
        s.fld (lastCtrFld (reqSlot (ws.take h.wcount))) < h.seq →
        exec .mgmtRequest s = .next ((settle ((s.modNet fun n => { n with mgmtRx := l }).mgmtExec f.src h (ws.take h.wcount))).sealed s))
    ∧ (∀ (slot : Bool), s.net.keyStore = none → ∃ t, exec (.keyStore slot) s = .next t ∧ t.net.keyStore = some (slot, keyOf s.net.keyData)
        ∧ t.slotKey slot = none ∧ t.slotKey (!slot) = s.slotKey (!slot) ∧ t.regs = s.regs)
    ∧ (∀ (slot : Bool), s.net.keyStore.isSome = true → exec (.keyStore slot) s = .next (s.otherWrite))
    ∧ (∀ (ok : Bool), s.net.keyStore = none → exec (.keyStoreDone ok) s = .next (s))
    ∧ (∀ (slot : Bool) (key : BitVec 128), s.net.keyStore = some (slot, key) → ∃ t, exec (.keyStoreDone true) s = .next t
        ∧ t.slotKey slot = some key ∧ t.fld (lastCtrFld slot) = 0 ∧ t.mram.ctr slot = 0
        ∧ t.net = { s.net with keyStore := none, keyData := [0, 0, 0, 0] }
        ∧ (t.reg (0x1000 * pgHSR + 0x010)).getLsbD Irq.keyStored.bit = true ∧ s.regsBut t [(lastCtrFld slot).addr, 0x1000 * pgHSR + 0x010])
    ∧ (∀ (slot : Bool) (key : BitVec 128), s.net.keyStore = some (slot, key) → ∃ t, exec (.keyStoreDone false) s = .next t ∧ t.mram = s.mram
        ∧ t.faultSet Flt.keyStoreFail = true ∧ t.net = { s.net with keyStore := none })

/-! ## The wale bus (R361 to R368) -/

/-- MEAS_CMD with no line in measurement takes the lines of its bits in increasing order. An attempt of a hub on the bus drives a pulse on
the line and counts it, valid with its delay or discarded without. After 16 valid attempts LINE_DLY is their mean, where it is a whole
number that DLY holds, VALID is set and FAIL clear; after 64 attempts with fewer FAIL is set. A timekeeper with ECHO_EN answers on the
same line (R367, R368). Where the words of the spec leave room it follows the readings of log entry 45, which are the model's. -/
def Obligations.WaleLinesAreMeasured : Prop :=
  ∀ s : State, s.quiet = true → s.bit (F.HDR.INT_ROUTE.INBAND pgWALE) = false →
    (∀ (v : BitVec 9), s.wale.todo = [] → v ≠ 0 → ∃ t, exec (.measCmd v) s = .next t
        ∧ (t.wale = { s.wale with todo := (List.range 9).filter fun n => v.toNat.testBit n, valid := 0, tries := 0, sum := 0 })
        ∧ t.bit F.WALE.WALE_STS.MEAS_BUSY = true ∧ s.regsBut t [F.WALE.WALE_STS.MEAS_BUSY.addr])
    ∧ (∀ (v : BitVec 9), s.wale.todo = [] → v = 0 → exec (.measCmd v) s = .next (s.otherWrite))
    ∧ (∀ (v : BitVec 9) (n : Nat) (l : List Nat), s.wale.todo = n :: l → ∃ t, exec (.measCmd v) s = .next t
        ∧ (t.wale = { s.wale with todo := n :: (List.range 9).filter fun i => decide (i ≠ n) && (v.toNat.testBit i || l.contains i) })
        ∧ t.bit F.WALE.WALE_STS.MEAS_BUSY = true ∧ s.regsBut t [F.WALE.WALE_STS.MEAS_BUSY.addr])
    ∧ (∀ (d : Option Int), (s.wale.todo = [] ∨ 16 ≤ s.wale.valid ∨ 64 ≤ s.wale.tries) → exec (.measAttempt d) s = .next (s))
    ∧ (∀ (d : Option Int) (n : Nat) (l : List Nat), s.wale.todo = n :: l → s.wale.valid < 16 → s.wale.tries < 64 → s.waleOn = false →
        ∃ t, exec (.measAttempt d) s = .next t ∧ t.wale = { s.wale with tries := s.wale.tries + 1 } ∧ t.regs = s.regs)
    ∧ (∀ (d : Int) (n : Nat) (l : List Nat), s.wale.todo = n :: l → s.wale.valid < 16 → s.wale.tries < 64 → s.waleOn = true →
        s.waleDriving n = false → ∃ t, exec (.measAttempt (some d)) s = .next t ∧ t.wale.valid = s.wale.valid + 1
        ∧ t.wale.tries = s.wale.tries + 1 ∧ t.wale.sum = s.wale.sum + d ∧ t.wale.sent = n :: s.wale.sent ∧ t.wale.todo = s.wale.todo
        ∧ t.fld (F.WALE.TX_CNT.CNT) = min (2 ^ (F.WALE.TX_CNT.CNT).width - 1) (s.fld (F.WALE.TX_CNT.CNT) + 1)
        ∧ s.regsBut t [F.WALE.TX_CNT.CNT.addr])
    ∧ (∀ (n : Nat) (l : List Nat), s.wale.todo = n :: l → s.wale.valid < 16 → s.wale.tries < 64 → s.waleOn = true →
        s.waleDriving n = false → ∃ t, exec (.measAttempt none) s = .next t ∧ t.wale.valid = s.wale.valid ∧ t.wale.tries = s.wale.tries + 1
        ∧ t.wale.sum = s.wale.sum ∧ t.wale.sent = n :: s.wale.sent
        ∧ t.fld (F.WALE.TX_CNT.CNT) = min (2 ^ (F.WALE.TX_CNT.CNT).width - 1) (s.fld (F.WALE.TX_CNT.CNT) + 1)
        ∧ s.regsBut t [F.WALE.TX_CNT.CNT.addr])
    ∧ (∀ (n x : Nat) (l : List Nat), n < 9 → s.wale.todo = n :: l → 16 ≤ s.wale.valid → s.wale.sum = 16 * (x : Int) → x < 2 ^ 16 →
        ∃ t, exec .lineMeasDone s = .next t ∧ t.fld (F.WALE.LINE_DLY.DLY n) = x ∧ (t.fld F.WALE.MEAS_STS.VALID).testBit n = true
        ∧ (t.fld F.WALE.MEAS_STS.FAIL).testBit n = false ∧ t.wale = { s.wale with todo := l, valid := 0, tries := 0, sum := 0 }
        ∧ t.bit F.WALE.WALE_STS.MEAS_BUSY = !l.isEmpty ∧ (t.reg (0x1000 * pgWALE + 0x010)).getLsbD Irq.measDone.bit = true
        ∧ s.regsBut t [(F.WALE.LINE_DLY.DLY n).addr, F.WALE.MEAS_STS.VALID.addr, F.WALE.WALE_STS.MEAS_BUSY.addr, 0x1000 * pgWALE + 0x010])
    ∧ (∀ (n : Nat) (l : List Nat), n < 9 → s.wale.todo = n :: l → s.wale.valid < 16 → 64 ≤ s.wale.tries →
        ∃ t, exec .lineMeasDone s = .next t ∧ (t.fld F.WALE.MEAS_STS.FAIL).testBit n = true
        ∧ t.wale = { s.wale with todo := l, valid := 0, tries := 0, sum := 0 } ∧ t.bit F.WALE.WALE_STS.MEAS_BUSY = !l.isEmpty
        ∧ (t.reg (0x1000 * pgWALE + 0x010)).getLsbD Irq.measFail.bit = true
        ∧ s.regsBut t [F.WALE.MEAS_STS.FAIL.addr, F.WALE.WALE_STS.MEAS_BUSY.addr, 0x1000 * pgWALE + 0x010])
    ∧ ((s.wale.todo = [] ∨ s.wale.valid < 16 ∧ s.wale.tries < 64) → exec .lineMeasDone s = .next (s))
    ∧ (∀ (n : Fin 9), (s.timekeeper = false ∨ s.bit F.WALE.WALE_CTL.ECHO_EN = false) → exec (.waleEcho n) s = .next (s))
    ∧ (∀ (n : Fin 9), s.timekeeper = true → s.bit F.WALE.WALE_CTL.ECHO_EN = true → s.waleDriving n.val = false →
        ∃ t, exec (.waleEcho n) s = .next t ∧ t.wale.sent = n.val :: s.wale.sent ∧ t.waleDriving n.val = true
        ∧ t.fld (F.WALE.TX_CNT.CNT) = min (2 ^ (F.WALE.TX_CNT.CNT).width - 1) (s.fld (F.WALE.TX_CNT.CNT) + 1)
        ∧ s.regsBut t [F.WALE.TX_CNT.CNT.addr])

/-- A trigger pulse of another hub is counted for its line and noted with its NS32, line and FRAC; a wide pulse on WSYNC near a second
boundary is a phase pulse; other edges go no further, and a drive that the own receiver misses is DRIVE_CHECK (R365, R366; the class of an
edge is an operand, log entry 31). A gap in WCLK clears WCLK_OK and raises WCLK_LOST; a MEMBER with TK_BACKUP becomes timekeeper (R364),
with a correction of 0 (R102); a gap of more than 1 µs is REFCLK_LOSS for a PLL on WCLK (R363). Edges that return set WCLK_OK (R373). 3 s
without a phase pulse clear WSYNC_OK and raise WSYNC_LOST once (R368). That a timed command lets time run on to its instant is the model's
choice (log entry 6). Where the words of the spec leave room it follows the readings of log entry 45, which are the model's. -/
def Obligations.WalePulsesAndClockAreFollowed : Prop :=
  ∀ s : State, s.quiet = true → s.bit (F.HDR.INT_ROUTE.INBAND pgWALE) = false →
    (∀ (n : Fin 9) (st : Stamp), s.waleOn = true → n.val < 8 → (s.fld F.NVM.PWR_CTL.WAKE_WALE).testBit n.val = false → s.role = roleSolo →
        (((List.range 256).all fun y => decide (s.cxSt y = cxIdle)) = true) → s.ownEdge n.val st = false → st.frac < 16 →
        ∃ t, exec (.walePulseRx n st .short) s = .next t
        ∧ t.fld (F.WALE.RX_CNT.CNT n.val) = min (2 ^ (F.WALE.RX_CNT.CNT n.val).width - 1) (s.fld (F.WALE.RX_CNT.CNT n.val) + 1)
        ∧ t.fld F.WALE.LAST_RX.NS32 = ns32Of (stampNs st) ∧ t.fld F.WALE.LAST_RX_INFO.LINE = n.val
        ∧ t.fld F.WALE.LAST_RX_INFO.FRAC = st.frac
        ∧ s.regsBut t [(F.WALE.RX_CNT.CNT n.val).addr, F.WALE.LAST_RX.NS32.addr, F.WALE.LAST_RX_INFO.LINE.addr] ∧ t.wale = s.wale)
    ∧ (∀ (st : Stamp), s.waleOn = true → nearSecond st = true → ∃ t, exec (.walePulseRx 8 st .wide) s = .next t
        ∧ t.bit F.WALE.WALE_STS.WSYNC_OK = true ∧ t.wale = { s.wale with wsyncAt := s.time.cycles, wsyncGone := false }
        ∧ s.regsBut t [F.WALE.WALE_STS.WSYNC_OK.addr])
    ∧ (∀ (n : Fin 9) (st : Stamp), s.waleOn = true → n.val < 8 → s.ownEdge n.val st = false → st.frac < 16 →
        ∃ t, exec (.walePulseRx n st .short) s = .next t
        ∧ t.fld (F.WALE.RX_CNT.CNT n.val) = min (2 ^ (F.WALE.RX_CNT.CNT n.val).width - 1) (s.fld (F.WALE.RX_CNT.CNT n.val) + 1)
        ∧ t.fld F.WALE.LAST_RX.NS32 = ns32Of (stampNs st) ∧ t.fld F.WALE.LAST_RX_INFO.LINE = n.val
        ∧ t.fld F.WALE.LAST_RX_INFO.FRAC = st.frac)
    ∧ (∀ (n : Fin 9) (st : Stamp) (c : WaleClass), (s.waleOn = false ∨ c = .short ∧ (n.val = 8 ∨ s.ownEdge n.val st = true) ∨ c = .wide
        ∧ (n.val < 8 ∨ nearSecond st = false)) → exec (.walePulseRx n st c) s = .next (s))
    ∧ (∀ (n : Fin 9) (st : Stamp), s.waleOn = true → (s.wale.driving.any (fun e => decide (e.1 = n.val)) = true) →
        ∃ t, exec (.walePulseRx n st .unseen) s = .next t ∧ t.faultSet Flt.driveCheck = true ∧ t.wale = s.wale)
    ∧ (∀ (n : Fin 9) (st : Stamp), (s.wale.driving.any (fun e => decide (e.1 = n.val)) = false) →
        exec (.walePulseRx n st .unseen) s = .next (s))
    ∧ (s.waleOn = false → exec (.wclkLoss false) s = .next (s))
    ∧ (s.waleOn = false → exec .wclkRestored s = .next (s))
    ∧ ((s.waleOn = false ∨ s.wale.wsyncGone = true) → exec .wsyncLost s = .next (s))
    ∧ (∀ (long : Bool), s.waleOn = true → (long = true → s.bit F.WALE.WALE_STS.REF_WCLK = false) → s.bit F.WALE.WALE_CTL.TK_BACKUP = true →
        s.timekeeper = false → ∃ t, exec (.wclkLoss long) s = .next t ∧ t.bit F.WALE.WALE_STS.WCLK_OK = false ∧ t.timekeeper = true
        ∧ (t.reg (0x1000 * pgWALE + 0x010)).getLsbD Irq.wclkLost.bit = true
        ∧ (t.reg (0x1000 * pgWALE + 0x010)).getLsbD Irq.tkTaken.bit = true ∧ t.sfld F.TICK.WALE_CORR.CORR = 0
        ∧ s.regsBut t [F.WALE.WALE_STS.WCLK_OK.addr, 0x1000 * pgWALE + 0x010, F.TICK.WALE_CORR.CORR.addr] ∧ t.servo = s.servo)
    ∧ (∀ (long : Bool), s.waleOn = true → (long = true → s.bit F.WALE.WALE_STS.REF_WCLK = false) →
        (s.bit F.WALE.WALE_CTL.TK_BACKUP = false ∨ s.timekeeper = true) → ∃ t, exec (.wclkLoss long) s = .next t
        ∧ t.bit F.WALE.WALE_STS.WCLK_OK = false ∧ t.timekeeper = s.timekeeper
        ∧ (t.reg (0x1000 * pgWALE + 0x010)).getLsbD Irq.wclkLost.bit = true
        ∧ s.regsBut t [F.WALE.WALE_STS.WCLK_OK.addr, 0x1000 * pgWALE + 0x010] ∧ t.servo = s.servo)
    ∧ (s.bit F.WALE.WALE_STS.REF_WCLK = true → s.role = roleSolo → s.bit (F.HDR.INT_ROUTE.INBAND pgTIME) = false →
        s.bit (F.HDR.INT_ROUTE.INBAND pgRIM) = false → ∃ t, exec (.wclkLoss true) s = .next t ∧ t.servoSt = svStopped
        ∧ t.faultSet Flt.refclkLoss = true ∧ t.servo.refBad = true)
    ∧ (s.waleOn = true → exec .wclkRestored s = .next (s.setBit F.WALE.WALE_STS.WCLK_OK true))
    ∧ (s.waleOn = true → s.wale.wsyncGone = false → ∃ t, exec .wsyncLost s = .next t ∧ t.bit F.WALE.WALE_STS.WSYNC_OK = false
        ∧ t.wale = { s.wale with wsyncGone := true } ∧ s.wale.wsyncAt + 1500000000 ≤ t.time.cycles
        ∧ (t.reg (0x1000 * pgWALE + 0x010)).getLsbD Irq.wsyncLost.bit = true
        ∧ s.regsBut t [F.WALE.WALE_STS.WSYNC_OK.addr, 0x1000 * pgWALE + 0x010])

/-! ## The pair (R375 to R412) -/

/-- Writing PAIR_EN makes a SOLO hub ACTIVE and an ACTIVE hub without a partner in step SOLO; a STANDBY hub, and an ACTIVE one whose
partner is STANDBY or JOINING, ignore the write (R380). A JOINING hub with the link down becomes ACTIVE by FORCE_ACTIVE, or START_WAIT
after its entry while no partner is present (R381). A YIELDED or FAILED hub without FATAL fault and with the link up becomes JOINING by
REJOIN, or by REJOIN_AUTO 1 s later (R380). PAIR_PRESENT_N is followed (R381). That a timed command lets time run on to its instant is the
model's choice (log entry 6). Where the words of the spec leave room it follows the readings of log entry 46, which are the model's. -/
def Obligations.PairRolesAreEntered : Prop :=
  ∀ s : State, s.quiet = true → s.bit (F.HDR.INT_ROUTE.INBAND pgPAIR) = false →
    (s.role = roleSolo → s.pair.staging = [] → ∃ t, exec (.pairEnWrite true) s = .next t ∧ t.role = roleActive ∧ t.pair.yst = .none
        ∧ (t.reg (0x1000 * pgPAIR + 0x010)).getLsbD Irq.roleChange.bit = true ∧ t.bit F.PAIR.PAIR_STS.YIELD_DRV = false
        ∧ t.bit F.PAIR.PAIR_CTL.PAIR_EN = true ∧ t.pair.roleAt = s.time.cycles)
    ∧ (s.role = roleActive → s.fld F.PAIR.PAIR_STS.PARTNER_ROLE ≠ roleStandby → s.fld F.PAIR.PAIR_STS.PARTNER_ROLE ≠ roleJoining →
        s.pair.staging = [] → ∃ t, exec (.pairEnWrite false) s = .next t ∧ t.role = roleSolo ∧ t.pair.yst = .none
        ∧ (t.reg (0x1000 * pgPAIR + 0x010)).getLsbD Irq.roleChange.bit = true ∧ t.bit F.PAIR.PAIR_STS.YIELD_DRV = false
        ∧ t.bit F.PAIR.PAIR_CTL.PAIR_EN = false)
    ∧ (∀ (en : Bool), s.role = roleStandby → exec (.pairEnWrite en) s = .next (s.otherWrite))
    ∧ (s.role = roleActive → s.mirrored = true → exec (.pairEnWrite false) s = .next (s.otherWrite))
    ∧ (s.role ≠ roleSolo → s.role ≠ roleStandby → exec (.pairEnWrite true) s = .next (s.otherWrite.setBit F.PAIR.PAIR_CTL.PAIR_EN true))
    ∧ (s.role = roleSolo → exec (.pairEnWrite false) s = .next (s.otherWrite.setBit F.PAIR.PAIR_CTL.PAIR_EN false))
    ∧ ((s.role ≠ roleJoining ∨ s.bit F.PAIR.PAIR_STS.LINK_UP = true) → exec .forceActive s = .next (s.otherWrite))
    ∧ ((s.role ≠ roleJoining ∨ s.bit F.PAIR.PAIR_STS.LINK_UP = true) → exec .startWaitExpire s = .next (s))
    ∧ (s.role = roleJoining → s.bit F.PAIR.PAIR_STS.LINK_UP = false → s.pins.present = true → ∃ t, exec .startWaitExpire s = .next t
        ∧ t.role = roleJoining ∧ (t.reg (0x1000 * pgPAIR + 0x010)).getLsbD Irq.pairLinkDown.bit = true ∧ t.pins = s.pins
        ∧ s.pair.roleAt + s.startWait ≤ t.time.cycles)
    ∧ ((s.role ≠ roleYielded ∧ s.role ≠ roleFailed ∨ s.anyFatal = true ∨ s.bit F.PAIR.PAIR_STS.LINK_UP = false) →
        exec .rejoin s = .next (s.otherWrite))
    ∧ ((s.role ≠ roleYielded ∧ s.role ≠ roleFailed ∨ s.bit F.PAIR.PAIR_CTL.REJOIN_AUTO = false) → exec .rejoinAutoExpire s = .next (s))
    ∧ (s.role = roleJoining → s.bit F.PAIR.PAIR_STS.LINK_UP = false → s.pair.staging = [] → ∃ t, exec .forceActive s = .next t
        ∧ t.role = roleActive ∧ t.pair.yst = .none ∧ (t.reg (0x1000 * pgPAIR + 0x010)).getLsbD Irq.roleChange.bit = true
        ∧ t.bit F.PAIR.PAIR_STS.YIELD_DRV = false)
    ∧ (s.role = roleJoining → s.bit F.PAIR.PAIR_STS.LINK_UP = false → s.pins.present = false → s.pair.staging = [] →
        ∃ t, exec .startWaitExpire s = .next t ∧ t.role = roleActive ∧ t.pair.yst = .none
        ∧ (t.reg (0x1000 * pgPAIR + 0x010)).getLsbD Irq.roleChange.bit = true ∧ t.bit F.PAIR.PAIR_STS.YIELD_DRV = false
        ∧ s.pair.roleAt + s.startWait ≤ t.time.cycles)
    ∧ ((s.role = roleYielded ∨ s.role = roleFailed) → s.anyFatal = false → s.bit F.PAIR.PAIR_STS.LINK_UP = true →
        s.fld F.PAIR.PAIR_STS.PARTNER_ROLE ≠ roleActive → ∃ t, exec .rejoin s = .next t ∧ t.role = roleJoining ∧ t.pair.yst = .none
        ∧ (t.reg (0x1000 * pgPAIR + 0x010)).getLsbD Irq.roleChange.bit = true ∧ t.bit F.PAIR.PAIR_STS.YIELD_DRV = false
        ∧ t.pair.staging = [] ∧ t.pair.executing = false)
    ∧ ((s.role = roleYielded ∨ s.role = roleFailed) → s.bit F.PAIR.PAIR_CTL.REJOIN_AUTO = true → s.anyFatal = false →
        s.bit F.PAIR.PAIR_STS.LINK_UP = true → s.fld F.PAIR.PAIR_STS.PARTNER_ROLE ≠ roleActive → ∃ t, exec .rejoinAutoExpire s = .next t
        ∧ t.role = roleJoining ∧ t.pair.yst = .none ∧ (t.reg (0x1000 * pgPAIR + 0x010)).getLsbD Irq.roleChange.bit = true
        ∧ t.bit F.PAIR.PAIR_STS.YIELD_DRV = false ∧ s.pair.roleAt + 500000000 ≤ t.time.cycles)
    ∧ (∀ (v : Bool), s.role ≠ roleJoining → exec (.pairPresentChange v) s = .next ({ s with pins := { s.pins with present := v } }))
    ∧ (s.role = roleJoining → s.bit F.PAIR.PAIR_STS.LINK_UP = false → ∃ t, exec (.pairPresentChange true) s = .next t ∧ t.role = roleJoining
        ∧ t.pins = { s.pins with present := true } ∧ (t.reg (0x1000 * pgPAIR + 0x010)).getLsbD Irq.pairLinkDown.bit = true
        ∧ s.regsBut t [0x1000 * pgPAIR + 0x010])

/-- PAIR_LINK_UP sets LINK_UP with both lanes and no tries; PAIR_LINK_DOWN clears LINK_UP and LANE_DEGRADED. The loss of one of two lanes
sets LANE_DEGRADED. A failed try of a record counts in LINK_RETRY_CNT and raises LINK_RETRY; the fourth of one record also raises
LINK_LOSS and takes the link down (R382, R420). With the link down a failed try does nothing. Where the words of the spec leave room it
follows the readings of log entry 46, which are the model's. -/
def Obligations.PairLinkRunsAndFails : Prop :=
  ∀ s : State, s.quiet = true → s.bit (F.HDR.INT_ROUTE.INBAND pgPAIR) = false →
    (∃ t, exec .pairLinkUp s = .next t ∧ t.bit F.PAIR.PAIR_STS.LINK_UP = true ∧ t.bit F.PAIR.PAIR_STS.LANE_DEGRADED = false
        ∧ t.pair = { s.pair with lane0 := true, lane1 := true, tries := 0 } ∧ t.queue = s.queue ∧ t.role = s.role
        ∧ s.regsBut t [F.PAIR.PAIR_STS.LINK_UP.addr])
    ∧ (s.bit F.PAIR.PAIR_STS.LINK_UP = true → s.role ≠ roleJoining → ∃ t, exec .pairLinkDown s = .next t
        ∧ t.bit F.PAIR.PAIR_STS.LINK_UP = false ∧ t.bit F.PAIR.PAIR_STS.LANE_DEGRADED = false
        ∧ t.pair = { s.pair with tries := 0, partnerStrap := none } ∧ t.role = s.role ∧ s.regsBut t [F.PAIR.PAIR_STS.LINK_UP.addr])
    ∧ (s.bit F.PAIR.PAIR_STS.LINK_UP = true → s.pair.lane1 = true → ∃ t, exec (.laneLoss false) s = .next t
        ∧ t.bit F.PAIR.PAIR_STS.LANE_DEGRADED = true ∧ t.bit F.PAIR.PAIR_STS.LINK_UP = true ∧ t.pair = { s.pair with lane0 := false }
        ∧ s.regsBut t [F.PAIR.PAIR_STS.LINK_UP.addr])
    ∧ (s.bit F.PAIR.PAIR_STS.LINK_UP = true → s.pair.lane0 = true → ∃ t, exec (.laneLoss true) s = .next t
        ∧ t.bit F.PAIR.PAIR_STS.LANE_DEGRADED = true ∧ t.bit F.PAIR.PAIR_STS.LINK_UP = true ∧ t.pair = { s.pair with lane1 := false }
        ∧ s.regsBut t [F.PAIR.PAIR_STS.LINK_UP.addr])
    ∧ (s.bit F.PAIR.PAIR_STS.LINK_UP = false → exec .pairLinkDown s = .next (s))
    ∧ (∀ (lane : Bool), s.bit F.PAIR.PAIR_STS.LINK_UP = false →
        exec (.laneLoss lane) s = .next (s.modPair fun p => if lane then { p with lane1 := false } else { p with lane0 := false }))
    ∧ (∀ (lane : Bool), s.bit F.PAIR.PAIR_STS.LINK_UP = true → ((if lane then s.pair.lane0 else s.pair.lane1) = false) →
        ∃ t, exec (.laneLoss lane) s = .next t
        ∧ (t.pair = (if lane then { s.pair with lane1 := false } else { s.pair with lane0 := false })) ∧ t.regs = s.regs)
    ∧ (∀ (r : Nat), s.bit F.PAIR.PAIR_STS.LINK_UP = false → exec (.pairLinkRetry r) s = .next (s))
    ∧ (∀ (r : Nat), s.bit F.PAIR.PAIR_STS.LINK_UP = true → s.pair.tryRec ≠ r → ∃ t, exec (.pairLinkRetry r) s = .next t
        ∧ t.fld (F.PAIR.LINK_RETRY_CNT.CNT) = min (2 ^ (F.PAIR.LINK_RETRY_CNT.CNT).width - 1) (s.fld (F.PAIR.LINK_RETRY_CNT.CNT) + 1)
        ∧ t.faultSet Flt.linkRetry = true ∧ t.pair = { s.pair with tryRec := r, tries := 1 } ∧ t.bit F.PAIR.PAIR_STS.LINK_UP = true)
    ∧ (∀ (r : Nat), s.bit F.PAIR.PAIR_STS.LINK_UP = true → s.pair.tryRec = r → s.pair.tries < 3 → ∃ t, exec (.pairLinkRetry r) s = .next t
        ∧ t.fld (F.PAIR.LINK_RETRY_CNT.CNT) = min (2 ^ (F.PAIR.LINK_RETRY_CNT.CNT).width - 1) (s.fld (F.PAIR.LINK_RETRY_CNT.CNT) + 1)
        ∧ t.faultSet Flt.linkRetry = true ∧ t.pair = { s.pair with tries := s.pair.tries + 1 } ∧ t.bit F.PAIR.PAIR_STS.LINK_UP = true)
    ∧ (∀ (r : Nat), s.bit F.PAIR.PAIR_STS.LINK_UP = true → s.pair.tryRec = r → s.pair.tries = 3 → s.role ≠ roleJoining →
        ∃ t, exec (.pairLinkRetry r) s = .next t
        ∧ t.fld (F.PAIR.LINK_RETRY_CNT.CNT) = min (2 ^ (F.PAIR.LINK_RETRY_CNT.CNT).width - 1) (s.fld (F.PAIR.LINK_RETRY_CNT.CNT) + 1)
        ∧ t.faultSet Flt.linkRetry = true ∧ t.faultSet Flt.linkLoss = true ∧ t.pair.tries = 0 ∧ t.bit F.PAIR.PAIR_STS.LINK_UP = false)

/-- On a STANDBY or JOINING hub that executes, a CODES record that holds a code for every conversion of its pass enters the chains and
completes that pass, any other is passed over (R386, R397); a DECISION record acts as the decision it names (R387): FLUSH, ABORT, DUMP_NOW
and sleep are shown. A STEP record schedules the active's step for the same boundary (R392), a FACTORS record gives a channel the active's
decade factors (R385), and a TIME record gives LINK_DELAY on any hub (R383, R392; log entry 86); other hubs take none of them. Once a
timeout has won, CODES, DECISION, STEP, FACTORS, TIME and MGMT records only count in PAIR_LATE (R404). A MGMT record of an ACTIVE hub
waits at MGMT (R358). Where the words of the spec leave room it follows the readings of log entries 48, 49, 50 and 80, which are the
model's. -/
def Obligations.RecordsReachAFollowingHub : Prop :=
  ∀ s : State, s.quiet = true → s.bit (F.HDR.INT_ROUTE.INBAND pgPAIR) = false →
    (∀ (g : Fin 32) (i n : Nat) (l : List Reg), s.follows = true → s.pair.executing = true → s.late = false →
        exec (.codesRecordRx g i n l) s = .next ((settle (s.codesEnter g.val i n l)).sealed s))
    ∧ (∀ (g : Fin 32) (i n : Nat) (l : List Reg), s.follows = true → s.pair.executing = true → s.late = false → s.commits = [] →
        ((((s.mirrorTick i).mirrorBoundary g.val (some i) fun _ => none).codeTargets g.val n).length = l.length) →
        ∃ t, exec (.codesRecordRx g i n l) s = .next t
        ∧ (t.pair.lastPass = (g.val, n, i) :: s.pair.lastPass.filter fun e => decide (e.1 ≠ g.val)))
    ∧ (∀ (g : Fin 32) (i n l j : Nat) (w : Reg), s.follows = true → s.pair.executing = true → s.late = false → s.commits = [] →
        ((((s.mirrorTick i).mirrorBoundary g.val (some i) fun _ => none).codeTargets g.val n) = [(l, j)]) →
        ((s.mirrorTick i).mirrorBoundary g.val (some i) (fun _ => none) = s) → (s.getGroup g.val).arLow.getLsbD l = w.getLsbD 7 →
        (codeFlags w).blk = false → ∃ t, exec (.codesRecordRx g i n [w]) s = .next t
        ∧ (t.getChan (16 * g.val + l)).lastVal = rangeValue (codeOf w) (w.getLsbD 7) (s.pairFactor (16 * g.val + l))
        ∧ (t.pair.lastPass = (g.val, n, i) :: s.pair.lastPass.filter fun e => decide (e.1 ≠ g.val)))
    ∧ (∀ (g : Fin 32) (i n : Nat) (l : List Reg), s.late = false →
        (s.follows = false ∨ s.pair.executing = false ∨ (((s.mirrorTick i).mirrorBoundary g.val (some i) fun _ => none).codeTargets g.val n).length ≠ l.length) →
        exec (.codesRecordRx g i n l) s = .next (s))
    ∧ (∀ (g : Fin 32) (i n : Nat) (l : List Reg), s.late = true → exec (.codesRecordRx g i n l) s = .next (s.count F.PAIR.PAIR_LATE.CNT))
    ∧ (∀ (d : Decision), s.follows = true → s.pair.executing = true → s.late = false →
        exec (.decisionRecordRx d) s = .next ((settle (s.applyDecision d)).sealed s))
    ∧ (∀ (q : Fin 64), s.follows = true → s.pair.executing = true → s.late = false → s.qOpen q.val = true →
        ∃ t, exec (.decisionRecordRx (.flush q)) s = .next t ∧ t.bit (F.Q.Q_STS.FLUSHING q.val) = true)
    ∧ (∀ (x : Fin 256), s.follows = true → s.pair.executing = true → s.late = false →
        (s.cxSt x.val = cxRearm ∨ s.cxSt x.val = cxFill ∨ s.cxSt x.val = cxArmed) → ∃ t, exec (.decisionRecordRx (.abort x)) s = .next t
        ∧ t.cxSt x.val = cxIdle ∧ (t.getCtx x.val).waiting = [] ∧ t.role = s.role)
    ∧ (∀ (g : Fin 32) (m : BitVec 16), s.follows = true → s.pair.executing = true → s.late = false →
        ∃ t, exec (.decisionRecordRx (.dumpNow g m)) s = .next t ∧ (∀ l : Fin 16, m.getLsbD l.val = true →
        s.rainCan (16 * g.val + l.val) = true → (t.getChan (16 * g.val + l.val)).rain.req = true) ∧ t.regs = s.regs)
    ∧ (∀ (i : Nat), s.follows = true → s.pair.executing = true → s.late = false → s.pwr = pwAwake → i ≤ s.lastIdx → s.cal.dwell = none →
        s.commits = [] → ∃ t, exec (.decisionRecordRx (.sleep i)) s = .next t ∧ t.pwr = pwEntering
        ∧ t.fld (F.NVM.SLEEP_CNT.CNT) = min (2 ^ (F.NVM.SLEEP_CNT.CNT).width - 1) (s.fld (F.NVM.SLEEP_CNT.CNT) + 1))
    ∧ (∀ (d : Decision), s.late = false → (s.follows = false ∨ s.pair.executing = false) → exec (.decisionRecordRx d) s = .next (s))
    ∧ (∀ (d : Decision), s.late = true → exec (.decisionRecordRx d) s = .next (s.count F.PAIR.PAIR_LATE.CNT))
    ∧ (∀ (n : Nat) (e : Int), s.follows = true → s.late = false → ∃ t, exec (.stepRecordRx n e) s = .next t ∧ t.stepSched = true
        ∧ t.servo.sched = some (n, evenNs e) ∧ t.servoSt = s.servoSt ∧ s.regsBut t [F.TIME.TIME_STATE.STEP_SCHED.addr])
    ∧ (∀ (n : Nat) (e : Int), s.late = false → s.follows = false → exec (.stepRecordRx n e) s = .next (s))
    ∧ (∀ (n : Nat) (e : Int), s.late = true → exec (.stepRecordRx n e) s = .next (s.count F.PAIR.PAIR_LATE.CNT))
    ∧ (∀ (c : Fin 512) (x0 x1 x2 x3 : BitVec 24), s.follows = true → s.late = false →
        exec (.factorsRecordRx c x0 x1 x2 x3) s = .next (s.modChan c.val fun x => { x with factors := [x0.toNat, x1.toNat, x2.toNat, x3.toNat] }))
    ∧ (∀ (c : Fin 512) (x0 x1 x2 x3 : BitVec 24), s.late = false → s.follows = false → exec (.factorsRecordRx c x0 x1 x2 x3) s = .next (s))
    ∧ (∀ (c : Fin 512) (x0 x1 x2 x3 : BitVec 24), s.late = true →
        exec (.factorsRecordRx c x0 x1 x2 x3) s = .next (s.count F.PAIR.PAIR_LATE.CNT))
    ∧ (∀ (o : Int) (d : Reg), s.late = false → s.follows = false →
        exec (.timeRecordRx o d) s = .next ((s.setFld F.PAIR.LINK_DELAY.DELAY d.toNat).modPair fun p => { p with heard := some s.now }))
    ∧ (∀ (o : Int) (d : Reg), s.follows = true → s.late = false → ∃ t, exec (.timeRecordRx o d) s = .next t
        ∧ t.reg F.PAIR.LINK_DELAY.DELAY.addr = d ∧ t.fld64 F.TIME.LAST_OFFSET_LO.LAST_LO F.TIME.LAST_OFFSET_HI.LAST_HI = unsigned 64 o
        ∧ t.pair.heard = some s.now)
    ∧ (∀ (o : Int) (d : Reg), s.late = true → exec (.timeRecordRx o d) s = .next (s.count F.PAIR.PAIR_LATE.CNT))
    ∧ (∀ (f : Frame) (slot : Bool), s.late = false → s.role = roleActive → ∃ t, exec (.mgmtRecordRx f slot) s = .next t
        ∧ t.net.mgmtTx = s.net.mgmtTx ++ [(f, some slot)] ∧ t.regs = s.regs ∧ t.queue = s.queue)
    ∧ (∀ (f : Frame) (slot : Bool), s.late = false → s.role ≠ roleActive → exec (.mgmtRecordRx f slot) s = .next (s))
    ∧ (∀ (f : Frame) (slot : Bool), s.late = true → exec (.mgmtRecordRx f slot) s = .next (s.count F.PAIR.PAIR_LATE.CNT))

/-- A HEALTH record shows the partner's role, calibration state, PFW, CONT and FATAL (R383); a hub of a pair notes the strap, an equal one
raises STRAP_CONFLICT (R381), an ACTIVE hub shows the list of channels out of tolerance (R399), and a JOINING hub becomes ACTIVE (R381) or
begins to execute, with empty queues and idle contexts (R397). Which HEALTH record ends a timeout's lateness is the model's inference (log
entry 87). A CONFIG record that agrees with the own digest of the last second boundary clears the count of differences on a STANDBY hub;
one that differs is noted on a JOINING hub and raises CFG_MISMATCH (R394, R395); a second one makes a STANDBY hub FAILED. Pair commits are
answered, scheduled, refused with reason 3 and cancelled (R396); late records only count in PAIR_LATE (R404). Where the words of the spec
leave room it follows the readings of log entries 50 and 63, which are the model's. -/
def Obligations.HealthAndConfigurationAreCompared : Prop :=
  ∀ s : State, s.quiet = true → s.bit (F.HDR.INT_ROUTE.INBAND pgPAIR) = false →
    (∀ (r : HealthRec), s.role = roleSolo → (s.late = false ∨ r.role ≠ roleActive) → r.role < 8 → r.role ≠ roleJoining → r.calState < 8 →
        ∃ t, exec (.healthRecordRx r) s = .next t ∧ t.fld F.PAIR.PAIR_STS.PARTNER_ROLE = r.role
        ∧ t.fld F.PAIR.PARTNER_HEALTH.CAL_STATE = r.calState ∧ t.bit F.PAIR.PARTNER_HEALTH.PFW = r.pfw
        ∧ t.bit F.PAIR.PARTNER_HEALTH.CONT = r.cont ∧ t.bit F.PAIR.PARTNER_HEALTH.FATAL = r.fatal ∧ t.role = roleSolo
        ∧ t.pair = { s.pair with partnerStrap := none, healthAt := some s.time.cycles, lateFrom := false }
        ∧ s.regsBut t [F.PAIR.PAIR_STS.PARTNER_ROLE.addr, F.PAIR.PARTNER_HEALTH.PFW.addr])
    ∧ (∀ (r : HealthRec), s.role = roleActive → s.late = false → s.mirrored = false → r.role < 8 → r.role ≠ roleStandby →
        r.role ≠ roleJoining → r.calState < 8 → s.bit F.RIM.RIM_CTL.IRQ_QEN = false → s.pair.partnerStrap ≠ some r.strap →
        s.bit F.PAIR.PAIR_STS.STRAP = r.strap → s.bit F.PAIR.PAIR_STS.LINK_UP = true → ∃ t, exec (.healthRecordRx r) s = .next t
        ∧ t.fld F.PAIR.PAIR_STS.PARTNER_ROLE = r.role ∧ t.fld F.PAIR.PARTNER_HEALTH.CAL_STATE = r.calState
        ∧ t.bit F.PAIR.PARTNER_HEALTH.PFW = r.pfw ∧ t.bit F.PAIR.PARTNER_HEALTH.CONT = r.cont ∧ t.bit F.PAIR.PARTNER_HEALTH.FATAL = r.fatal
        ∧ (∀ c : Fin 512, t.bit (hcFailFld c.val) = decide (c ∈ r.hcFail))
        ∧ (t.reg (0x1000 * pgPAIR + 0x010)).getLsbD Irq.strapConflict.bit = true ∧ t.role = roleActive)
    ∧ (∀ (r : HealthRec), s.role = roleStandby → s.late = false → r.role < 8 → r.role ≠ roleJoining → r.calState < 8 →
        (s.bit F.PAIR.PAIR_STS.LINK_UP = false ∨ s.bit F.PAIR.PAIR_STS.STRAP ≠ r.strap ∨ s.pair.partnerStrap = some r.strap) →
        ∃ t, exec (.healthRecordRx r) s = .next t ∧ t.fld F.PAIR.PAIR_STS.PARTNER_ROLE = r.role
        ∧ t.fld F.PAIR.PARTNER_HEALTH.CAL_STATE = r.calState ∧ t.bit F.PAIR.PARTNER_HEALTH.PFW = r.pfw
        ∧ t.bit F.PAIR.PARTNER_HEALTH.CONT = r.cont ∧ t.bit F.PAIR.PARTNER_HEALTH.FATAL = r.fatal ∧ t.role = roleStandby
        ∧ t.pair = { s.pair with partnerStrap := some r.strap, healthAt := some s.time.cycles, lateFrom := false }
        ∧ s.regsBut t [F.PAIR.PAIR_STS.PARTNER_ROLE.addr, F.PAIR.PARTNER_HEALTH.PFW.addr])
    ∧ (∀ (r : HealthRec), s.role = roleJoining → s.late = false → r.role = roleJoining → r.strap = true →
        s.bit F.PAIR.PAIR_STS.STRAP = false → s.bit F.PAIR.PAIR_STS.LINK_UP = true → s.pair.staging = [] →
        ∃ t, exec (.healthRecordRx r) s = .next t ∧ t.role = roleActive ∧ t.pair.yst = .none
        ∧ (t.reg (0x1000 * pgPAIR + 0x010)).getLsbD Irq.roleChange.bit = true ∧ t.bit F.PAIR.PAIR_STS.YIELD_DRV = false
        ∧ t.fld F.PAIR.PAIR_STS.PARTNER_ROLE = roleJoining)
    ∧ (∀ (r : HealthRec), s.role = roleJoining → s.late = false → r.role = roleActive → s.bit F.PAIR.PAIR_STS.LINK_UP = true →
        s.pair.executing = false → ∃ t, exec (.healthRecordRx r) s = .next t ∧ t.role = roleJoining ∧ t.pair.executing = true
        ∧ t.pair.staging = [] ∧ t.pair.lastPass = [] ∧ (∀ x : Fin 256, t.cxSt x.val = cxIdle) ∧ (∀ q : Fin 64, (t.getQ q.val).held = 0)
        ∧ (∀ c : Fin 512, (t.getChan c.val).pkt = none))
    ∧ (∀ (r : HealthRec), s.late = true → r.role = roleActive → exec (.healthRecordRx r) s = .next (s.count F.PAIR.PAIR_LATE.CNT))
    ∧ (∀ (d : Reg), s.role = roleStandby → s.pair.executing = true → s.late = false → s.pair.ownDigest = some d →
        ∃ t, exec (.configRecordRx d none false) s = .next t ∧ t.reg F.PAIR.CFG_DIGEST_PARTNER.CRC.addr = d
        ∧ t.pair = { s.pair with cfgBad := 0, cfgOk := true } ∧ s.regsBut t [F.PAIR.CFG_DIGEST_PARTNER.CRC.addr] ∧ t.role = roleStandby)
    ∧ (∀ (d o : Reg), s.role = roleJoining → s.pair.executing = true → s.late = false → s.pair.ownDigest = some o → o ≠ d →
        ∃ t, exec (.configRecordRx d none false) s = .next t ∧ t.reg F.PAIR.CFG_DIGEST_PARTNER.CRC.addr = d
        ∧ t.pair = { s.pair with cfgBad := s.pair.cfgBad + 1, cfgOk := false }
        ∧ (t.reg (0x1000 * pgPAIR + 0x010)).getLsbD Irq.cfgMismatch.bit = true
        ∧ s.regsBut t [F.PAIR.CFG_DIGEST_PARTNER.CRC.addr, 0x1000 * pgPAIR + 0x010])
    ∧ (∀ (d o : Reg), s.role = roleStandby → s.pair.executing = true → s.late = false → s.pair.ownDigest = some o → o ≠ d →
        1 ≤ s.pair.cfgBad → ∃ t, exec (.configRecordRx d none false) s = .next t ∧ t.reg F.PAIR.CFG_DIGEST_PARTNER.CRC.addr = d
        ∧ t.role = roleFailed ∧ (t.reg (0x1000 * pgPAIR + 0x010)).getLsbD Irq.cfgMismatch.bit = true
        ∧ (t.reg (0x1000 * pgPAIR + 0x010)).getLsbD Irq.roleChange.bit = true)
    ∧ (∀ (d o : Reg), s.role = roleStandby → s.pair.executing = true → s.late = false → s.pair.ownDigest = some o → o ≠ d →
        s.pair.cfgBad = 0 → ∃ t, exec (.configRecordRx d none false) s = .next t ∧ t.reg F.PAIR.CFG_DIGEST_PARTNER.CRC.addr = d
        ∧ t.role = roleStandby ∧ t.pair = { s.pair with cfgBad := 1, cfgOk := false } ∧ s.regsBut t [F.PAIR.CFG_DIGEST_PARTNER.CRC.addr])
    ∧ (∀ (d : Reg), s.follows = true → s.pair.executing = true → s.late = false → s.pair.ownDigest = none →
        exec (.configRecordRx d none false) s = .next (s.setFld F.PAIR.CFG_DIGEST_PARTNER.CRC d.toNat))
    ∧ (∀ (d : Reg) (c : Option (Nat × Reg)), s.follows = true → s.pair.executing = true → s.late = false →
        exec (.configRecordRx d c true) s = .next (s.setBit F.PAIR.COMMIT_STS.SCHED false))
    ∧ (∀ (d x : Reg) (i : Nat), s.role = roleStandby → s.pair.executing = true → s.late = false → s.stgDigest = x →
        s.aheadBy i 1000000 = true → s.bit F.PAIR.PAIR_STS.LINK_UP = true → ∃ t, exec (.configRecordRx d (some (i, x)) false) s = .next t
        ∧ t.bit F.PAIR.COMMIT_STS.SCHED = true ∧ t.pair.commitIdx = i
        ∧ t.pair.out.map LinkFrame.body = s.pair.out.map LinkFrame.body ++ [.config (s.pair.ownDigest.getD 0) (some (i, x)) false]
        ∧ s.regsBut t [F.PAIR.COMMIT_STS.SCHED.addr])
    ∧ (∀ (d x : Reg) (i : Nat), s.role = roleStandby → s.pair.executing = true → s.late = false → s.stgDigest ≠ x →
        s.bit F.PAIR.PAIR_STS.LINK_UP = true → ∃ t, exec (.configRecordRx d (some (i, x)) false) s = .next t ∧ t.regs = s.regs
        ∧ t.pair.out.map LinkFrame.body = s.pair.out.map LinkFrame.body ++ [.config (s.pair.ownDigest.getD 0) (some (i, s.stgDigest)) false])
    ∧ (∀ (d x : Reg) (i : Nat), s.role = roleActive → s.late = false → s.pair.commitWait = true → s.pair.commitIdx = i → s.stgDigest = x →
        ∃ t, exec (.configRecordRx d (some (i, x)) false) s = .next t ∧ t.pair = { s.pair with commitWait := false }
        ∧ t.bit F.PAIR.COMMIT_STS.ACKED = true ∧ t.bit F.PAIR.COMMIT_STS.SCHED = true ∧ s.regsBut t [F.PAIR.COMMIT_STS.SCHED.addr])
    ∧ (∀ (d x : Reg) (i : Nat), s.role = roleActive → s.late = false → s.pair.commitWait = true → s.pair.commitIdx = i → s.stgDigest ≠ x →
        ∃ t, exec (.configRecordRx d (some (i, x)) false) s = .next t ∧ t.pair.commitWait = false ∧ t.fld F.PAIR.COMMIT_STS.REASON = 3
        ∧ t.bit F.PAIR.COMMIT_STS.REFUSED = true ∧ t.bit F.PAIR.COMMIT_STS.SCHED = false
        ∧ (t.reg (0x1000 * pgPAIR + 0x010)).getLsbD Irq.pairCommitRefused.bit = true)
    ∧ (∀ (d : Reg) (c : Option (Nat × Reg)) (x : Bool), s.late = false → (s.follows = true ∧ s.pair.executing = false ∨ s.follows = false
        ∧ (c = none ∨ s.role ≠ roleActive ∨ s.pair.commitWait = false)) → exec (.configRecordRx d c x) s = .next (s))
    ∧ (∀ (d : Reg) (c : Option (Nat × Reg)) (x : Bool), s.late = true →
        exec (.configRecordRx d c x) s = .next (s.count F.PAIR.PAIR_LATE.CNT))

/-- An ACTIVE hub that does not decide to yield closes an interval with a TICK record that carries its number, the digest of its words,
the state of all queues and H, keeps what it wrote and freed until the ACK (R390), and starts the next (R388); the last one of a yield is
final (R402). On a STANDBY hub that executes, a TICK record without decisions is answered by an ACK: equal digests take the active's
reports (a packet gone leaves the queue), different ones raise DIGEST_MISMATCH and make the hub FAILED (R389, R391); a JOINING hub that
has not converged acknowledges and discards (R398). An ACK ends its interval (R390), lets a final one yield (R402), and says PARTNER_LOST
if the digests differ (R391); late records only count in PAIR_LATE (R404); without an ACK for too long the hub raises PARTNER_LOST and
waits no longer (R405). Where the words of the spec leave room it follows the readings of log entries 48, 50 and 80, which are the
model's. -/
def Obligations.IntervalsAreClosedAndAcknowledged : Prop :=
  ∀ s : State, s.quiet = true → s.bit (F.HDR.INT_ROUTE.INBAND pgPAIR) = false →
    (s.mirrored = true → s.pair.yst = .none → s.bit F.PAIR.PAIR_STS.LINK_UP = true → ∃ t, exec .intervalClose s = .next t
        ∧ t.pair.out.map LinkFrame.body = s.pair.out.map LinkFrame.body ++ [.tick ⟨s.pair.interval, intervalDigest s.pair.words, false, (List.finRange 64).map s.tickQueue, s.lastHsr⟩]
        ∧ t.pair.interval = s.pair.interval + 1 ∧ t.pair.words = [] ∧ t.pair.fates = [] ∧ t.pair.gone = []
        ∧ t.pair.unacked = s.pair.unacked ++ [⟨s.pair.interval, (List.range 64).map s.intervalQueue, s.grid.last, false⟩] ∧ t.regs = s.regs
        ∧ t.queue = s.queue)
    ∧ (∀ (y c : Nat), s.mirrored = true → s.pair.yst = .deciding y c → s.passesDone y = true → s.bit F.PAIR.PAIR_STS.LINK_UP = true →
        ∃ t, exec .intervalClose s = .next t ∧ t.pair.yst = .finalSent y c ∧ t.pair.yieldAt = s.time.cycles
        ∧ t.pair.out.map LinkFrame.body = s.pair.out.map LinkFrame.body ++ [.tick ⟨s.pair.interval, intervalDigest s.pair.words, true, (List.finRange 64).map s.tickQueue, s.lastHsr⟩]
        ∧ t.pair.interval = s.pair.interval + 1 ∧ t.regs = s.regs)
    ∧ (s.role ≠ roleActive → exec .intervalClose s = .next (s))
    ∧ (s.role = roleActive → s.mirrored = false →
        exec .intervalClose s = .next (s.modPair fun p => { p with words := [], fates := [], gone := [] }))
    ∧ (∀ (r : TickRec), s.role = roleStandby → s.pair.executing = true → s.late = false → s.bit F.PAIR.PAIR_STS.LINK_UP = true →
        r.queues = [] → r.digest = intervalDigest s.pair.words → ∃ t, exec (.tickRecordRx r) s = .next t ∧ t.role = roleStandby
        ∧ t.pair.out.map LinkFrame.body = s.pair.out.map LinkFrame.body ++ [.ack r.interval true] ∧ t.pair.words = []
        ∧ t.pair.lastC = s.completeTick ∧ t.pair.lastH = r.hsr ∧ t.regs = s.regs ∧ t.queue = s.queue)
    ∧ (∀ (r : TickRec), s.role = roleStandby → s.pair.executing = true → s.late = false → s.bit F.PAIR.PAIR_STS.LINK_UP = true →
        r.queues = [] → r.digest ≠ intervalDigest s.pair.words → ∃ t, exec (.tickRecordRx r) s = .next t ∧ t.role = roleFailed
        ∧ t.pair.out.map LinkFrame.body = s.pair.out.map LinkFrame.body ++ [.ack r.interval false] ∧ t.faultSet Flt.digestMismatch = true
        ∧ (t.reg (0x1000 * pgPAIR + 0x010)).getLsbD Irq.digestFail.bit = true
        ∧ (t.reg (0x1000 * pgPAIR + 0x010)).getLsbD Irq.roleChange.bit = true)
    ∧ (∀ (r : TickRec) (q : Fin 64) (n l : Nat) (p : Pkt) (ps : List Pkt), s.role = roleStandby → s.pair.executing = true → s.late = false →
        s.bit F.PAIR.PAIR_STS.LINK_UP = true → r.queues = [⟨q, [], 1, n⟩] → (s.getQ q.val).pkts = p :: ps → sget 0 s.pair.older q.val = 0 →
        r.digest = intervalDigest s.pair.words → ∃ t, exec (.tickRecordRx r) s = .next t ∧ (t.getQ q.val).pkts = ps ∧ t.pair.lastSeqs = [n]
        ∧ t.pair.lastH = r.hsr ∧ t.role = roleStandby)
    ∧ (∀ (r : TickRec), s.role = roleJoining → s.pair.executing = true → s.late = false → s.bit F.PAIR.PAIR_STS.LINK_UP = true →
        s.pair.convAt = none → (s.joinChans ≠ 0 ∨ s.joinCtxs ≠ 0) → ∃ t, exec (.tickRecordRx r) s = .next t ∧ t.role = roleJoining
        ∧ t.pair.out.map LinkFrame.body = s.pair.out.map LinkFrame.body ++ [.ack r.interval true] ∧ t.pair.words = []
        ∧ t.pair.lastC = s.completeTick ∧ t.pair.lastH = r.hsr ∧ t.regs = s.regs ∧ t.queue = s.queue)
    ∧ (∀ (r : TickRec), s.late = false → (s.follows = false ∨ s.pair.executing = false) → exec (.tickRecordRx r) s = .next (s))
    ∧ (∀ (r : TickRec), s.late = true → exec (.tickRecordRx r) s = .next (s.count F.PAIR.PAIR_LATE.CNT))
    ∧ (∀ (i : Nat) (a : Bool), s.late = false → (s.role ≠ roleActive ∨ (s.pair.unacked.any fun u => decide (u.interval = i)) = false) →
        exec (.ackRx i a) s = .next (s))
    ∧ (∀ (i : Nat) (a : Bool), s.late = true → exec (.ackRx i a) s = .next (s.count F.PAIR.PAIR_LATE.CNT))
    ∧ (∀ (i y c : Nat) (u : Unacked), s.role = roleActive → s.late = false → s.pair.unacked = [u] → u.interval = i → u.queues = [] →
        u.final = true → s.pair.yst = .finalSent y c → s.bit F.PAIR.PAIR_STS.LINK_UP = true → ∃ t, exec (.ackRx i true) s = .next t
        ∧ t.pair.yst = .yielded y c ∧ t.bit F.PAIR.PAIR_STS.YIELD_DRV = true ∧ t.pair.unacked = []
        ∧ t.pair.out.map LinkFrame.body = s.pair.out.map LinkFrame.body ++ [.yield s.lastSent s.lastHsr] ∧ t.role = roleActive
        ∧ s.regsBut t [F.PAIR.PAIR_STS.YIELD_DRV.addr])
    ∧ ((s.role ≠ roleActive ∨ s.mirrored = false ∨ s.pair.unacked = [] ∨ s.mirrorLag < s.pairTimeout + 2 ∨ s.fenced = true) →
        exec .ackTimeout s = .next (s))
    ∧ (∀ (i : Nat) (u : Unacked), s.role = roleActive → s.late = false → s.pair.unacked = [u] → u.interval = i → u.queues = [] →
        u.final = false → exec (.ackRx i true) s = .next (s.modPair fun p => { p with unacked := [], lastC := u.tick.or p.lastC }))
    ∧ (∀ (i : Nat) (u : Unacked), s.role = roleActive → s.late = false → s.pair.unacked = [u] → u.interval = i → u.queues = [] →
        ∃ t, exec (.ackRx i false) s = .next t ∧ t.pair = { s.pair with unacked := [], lastC := u.tick.or s.pair.lastC }
        ∧ t.fld (F.PAIR.DIGEST_FAIL_CNT.CNT) = min (2 ^ (F.PAIR.DIGEST_FAIL_CNT.CNT).width - 1) (s.fld (F.PAIR.DIGEST_FAIL_CNT.CNT) + 1)
        ∧ (t.reg (0x1000 * pgPAIR + 0x010)).getLsbD Irq.partnerLost.bit = true
        ∧ s.regsBut t [F.PAIR.DIGEST_FAIL_CNT.CNT.addr, 0x1000 * pgPAIR + 0x010])
    ∧ (s.mirrored = true → s.pair.unacked ≠ [] → s.pairTimeout + 2 ≤ s.mirrorLag → s.pins.takeIn = false → ∃ t, exec .ackTimeout s = .next t
        ∧ t.fld F.PAIR.PAIR_STS.PARTNER_ROLE = 7 ∧ t.mirrored = false ∧ t.pair.unacked = []
        ∧ (t.reg (0x1000 * pgPAIR + 0x010)).getLsbD Irq.partnerLost.bit = true)

/-- PAIR_COMMIT on an ACTIVE hub whose partner is STANDBY, for a tick at least 1 ms ahead, sends STG_DIGEST and waits for the answer;
without a STANDBY partner it is refused with reason 1, for a nearer tick with reason 2, and without an answer 100 µs before the tick with
reason 4. At COMMIT_TICK of a running grid a scheduled pair commit requests every page that differs (R396). HC_RESTART empties every
window (R411). Where the words of the spec leave room it follows the readings of log entry 50, which are the model's. -/
def Obligations.PairCommitsAndHealthWindows : Prop :=
  ∀ s : State, s.quiet = true → s.bit (F.HDR.INT_ROUTE.INBAND pgPAIR) = false →
    (s.role = roleActive → s.fld F.PAIR.PAIR_STS.PARTNER_ROLE = roleStandby → s.aheadBy s.commitTick 1000000 = true →
        s.bit F.PAIR.PAIR_STS.LINK_UP = true → ∃ t, exec .pairCommit s = .next t ∧ t.pair.commitWait = true
        ∧ t.pair.commitIdx = s.commitTick
        ∧ t.pair.out.map LinkFrame.body = s.pair.out.map LinkFrame.body ++ [.config (s.pair.ownDigest.getD 0) (some (s.commitTick, s.stgDigest)) false]
        ∧ t.bit F.PAIR.COMMIT_STS.ACKED = false ∧ t.bit F.PAIR.COMMIT_STS.SCHED = false ∧ s.regsBut t [F.PAIR.COMMIT_STS.ACKED.addr])
    ∧ (s.role = roleActive → s.fld F.PAIR.PAIR_STS.PARTNER_ROLE ≠ roleStandby → ∃ t, exec .pairCommit s = .next t
        ∧ t.pair.commitWait = false ∧ t.fld F.PAIR.COMMIT_STS.REASON = 1 ∧ t.bit F.PAIR.COMMIT_STS.REFUSED = true
        ∧ (t.reg (0x1000 * pgPAIR + 0x010)).getLsbD Irq.pairCommitRefused.bit = true
        ∧ s.regsBut t [F.PAIR.COMMIT_STS.ACKED.addr, 0x1000 * pgPAIR + 0x010])
    ∧ (s.role = roleActive → s.fld F.PAIR.PAIR_STS.PARTNER_ROLE = roleStandby → s.aheadBy s.commitTick 1000000 = false →
        ∃ t, exec .pairCommit s = .next t ∧ t.pair.commitWait = false ∧ t.fld F.PAIR.COMMIT_STS.REASON = 2
        ∧ t.bit F.PAIR.COMMIT_STS.REFUSED = true ∧ (t.reg (0x1000 * pgPAIR + 0x010)).getLsbD Irq.pairCommitRefused.bit = true
        ∧ s.regsBut t [F.PAIR.COMMIT_STS.ACKED.addr, 0x1000 * pgPAIR + 0x010])
    ∧ (s.role = roleActive → s.pair.commitWait = true → ∃ t, exec .pairCommitAckTimeout s = .next t ∧ t.pair.commitWait = false
        ∧ t.fld F.PAIR.COMMIT_STS.REASON = 4 ∧ t.bit F.PAIR.COMMIT_STS.REFUSED = true
        ∧ (t.reg (0x1000 * pgPAIR + 0x010)).getLsbD Irq.pairCommitRefused.bit = true)
    ∧ (s.gridSt = gridRun → s.pair.commitIdx ≤ idxOf s.tickPeriod s.grid.cur → s.bit F.PAIR.COMMIT_STS.SCHED = true →
        ∃ t, exec .pairCommitApply s = .next t ∧ t.bit F.PAIR.COMMIT_STS.DONE = true ∧ t.bit F.PAIR.COMMIT_STS.SCHED = false
        ∧ t.time = s.time)
    ∧ (s.role ≠ roleActive → exec .pairCommit s = .next (s.otherWrite))
    ∧ ((s.role ≠ roleActive ∨ s.pair.commitWait = false) → exec .pairCommitAckTimeout s = .next (s))
    ∧ ((s.gridSt ≠ gridRun ∨ idxOf s.tickPeriod s.grid.cur < s.pair.commitIdx ∨ s.bit F.PAIR.COMMIT_STS.SCHED = false) →
        exec .pairCommitApply s = .next (s))
    ∧ (∃ t, exec .hcRestart s = .next t ∧ (∀ c : Fin 512, (sget {} t.pair.hc c.val).n = 0)
        ∧ (∀ c : Fin 512, (sget {} t.pair.hc c.val).sum = 0) ∧ (∀ c : Fin 512, (sget {} t.pair.hc c.val).sq = 0) ∧ t.regs = s.regs)

/-- YIELD on an ACTIVE hub whose partner is STANDBY decides to yield at the last tick (R401). A STANDBY hub takes over when YIELD_N and
the YIELD record have both come (R402), or by timeout (R403); then it drives TAKE_N, counts the takeover and raises TAKEOVER, and 500 ns
later its DAC codes follow (R406). Packets that the final SEQs report as sent leave the standby's queues (R402). YIELD_N alone is noted,
and its release too (log entry 88); 10 µs without the record force a takeover at the next tick (R404). A yield not acknowledged within 100
µs is abandoned (R402). TAKE_N makes an ACTIVE hub YIELDED after its yield and FAILED otherwise, and its release ends the fence (R376,
R405). A following hub trims its DACs (R406). That a timed command lets time run on to its instant is the model's choice (log entry 6).
Where the words of the spec leave room it follows the readings of log entries 47, 48 and 78, which are the model's. -/
def Obligations.YieldsAndTakeovers : Prop :=
  ∀ s : State, s.quiet = true → s.bit (F.HDR.INT_ROUTE.INBAND pgPAIR) = false →
    (s.role = roleActive → s.fld F.PAIR.PAIR_STS.PARTNER_ROLE = roleStandby → s.pair.yst = .none → ∃ t, exec .yield s = .next t
        ∧ t.pair = { s.pair with yst := .deciding s.lastIdx causeYieldCmd } ∧ t.regs = s.regs ∧ t.role = roleActive)
    ∧ ((s.role ≠ roleActive ∨ s.fld F.PAIR.PAIR_STS.PARTNER_ROLE ≠ roleStandby ∨ s.pair.yst ≠ .none) → exec .yield s = .next (s.otherWrite))
    ∧ (∀ (low : Bool), (s.role ≠ roleStandby ∨ s.yieldAsserted = true ∨ low = false ∨ s.bit F.PAIR.PAIR_STS.YIELD_DRV = true) →
        exec (.yieldNAssert low) s = .next (s.modPins fun p => { p with yieldIn := low }))
    ∧ (s.bit F.PAIR.PAIR_STS.YIELD_DRV = false → s.pins.yieldIn = false → s.role = roleStandby → s.pair.yieldRec = false →
        exec (.yieldNAssert true) s = .next ((s.modPins fun p => { p with yieldIn := true }).modPair fun p => { p with yieldSeen := true, yieldAt := s.time.cycles }))
    ∧ (s.bit F.PAIR.PAIR_STS.YIELD_DRV = false → s.pins.yieldIn = false → s.role = roleStandby → s.pair.yieldRec = true →
        ∃ t, exec (.yieldNAssert true) s = .next t ∧ t.role = roleActive ∧ t.bit F.PAIR.PAIR_STS.TAKE_DRV = true
        ∧ t.bit F.PAIR.PAIR_STS.READY = false ∧ t.pair.exdWait = true ∧ (t.reg (0x1000 * pgPAIR + 0x010)).getLsbD Irq.takeover.bit = true
        ∧ (t.reg (0x1000 * pgPAIR + 0x010)).getLsbD Irq.roleChange.bit = true
        ∧ t.fld (F.PAIR.TAKEOVER_CNT.YIELD) = min (2 ^ (F.PAIR.TAKEOVER_CNT.YIELD).width - 1) (s.fld (F.PAIR.TAKEOVER_CNT.YIELD) + 1)
        ∧ t.fld F.PAIR.PAIR_STS.LAST_CAUSE = s.yieldCause)
    ∧ (∀ (l : List Nat) (n : Nat), s.role = roleStandby → s.late = false → s.pair.yieldSeen = true →
        ∃ t, exec (.yieldRecordRx l n) s = .next t ∧ t.role = roleActive ∧ t.bit F.PAIR.PAIR_STS.TAKE_DRV = true
        ∧ t.bit F.PAIR.PAIR_STS.READY = false ∧ t.pair.exdWait = true ∧ (t.reg (0x1000 * pgPAIR + 0x010)).getLsbD Irq.takeover.bit = true
        ∧ (t.reg (0x1000 * pgPAIR + 0x010)).getLsbD Irq.roleChange.bit = true
        ∧ t.fld (F.PAIR.TAKEOVER_CNT.YIELD) = min (2 ^ (F.PAIR.TAKEOVER_CNT.YIELD).width - 1) (s.fld (F.PAIR.TAKEOVER_CNT.YIELD) + 1)
        ∧ t.fld F.PAIR.PAIR_STS.LAST_CAUSE = s.yieldCause)
    ∧ (∀ (l : List Nat) (n : Nat), s.role = roleStandby → s.late = false → s.pair.yieldSeen = false →
        ∃ t, exec (.yieldRecordRx l n) s = .next t ∧ t.role = roleStandby ∧ t.pair.yieldRec = true ∧ t.pair.lastSeqs = l ∧ t.pair.lastH = n)
    ∧ (∀ (a m n : Nat) (p : Pkt) (ps : List Pkt), s.role = roleStandby → s.late = false → s.pair.yieldSeen = false → s.pair.lastSeqs = [m] →
        m < 2 ^ 32 - 1 → a = m + 1 → s.qHost 0 = false → (s.getQ 0).pkts = p :: ps → sget 0 s.pair.older 0 = 0 →
        ∃ t, exec (.yieldRecordRx [a] n) s = .next t ∧ (t.getQ 0).pkts = ps ∧ t.pair.yieldRec = true)
    ∧ (∀ (l : List Nat) (n : Nat), s.late = false → s.role ≠ roleStandby → exec (.yieldRecordRx l n) s = .next (s))
    ∧ (∀ (l : List Nat) (n : Nat), s.late = true → exec (.yieldRecordRx l n) s = .next (s.count F.PAIR.PAIR_LATE.CNT))
    ∧ (s.role = roleStandby → s.pair.yieldSeen = true → s.pair.yieldRec = false →
        exec .yieldRecordTimeout s = .next ((s.reachCycles (s.pair.yieldAt + 5000)).modPair fun p => { p with forceTake := true }))
    ∧ ((s.role ≠ roleStandby ∨ s.pair.yieldSeen = false ∨ s.pair.yieldRec = true) → exec .yieldRecordTimeout s = .next (s))
    ∧ (s.takeoverDue = true → s.pair.forceTake = false → ∃ t, exec .timeoutTakeover s = .next t ∧ t.role = roleActive
        ∧ t.bit F.PAIR.PAIR_STS.TAKE_DRV = true ∧ t.bit F.PAIR.PAIR_STS.READY = false ∧ t.pair.exdWait = true
        ∧ (t.reg (0x1000 * pgPAIR + 0x010)).getLsbD Irq.takeover.bit = true
        ∧ (t.reg (0x1000 * pgPAIR + 0x010)).getLsbD Irq.roleChange.bit = true
        ∧ t.fld (F.PAIR.TAKEOVER_CNT.TIMEOUT) = min (2 ^ (F.PAIR.TAKEOVER_CNT.TIMEOUT).width - 1) (s.fld (F.PAIR.TAKEOVER_CNT.TIMEOUT) + 1)
        ∧ t.fld F.PAIR.PAIR_STS.LAST_CAUSE = causeTimeout ∧ t.pair.lateFrom = true ∧ t.pair.subBefore = s.lastIdx)
    ∧ (s.takeoverDue = true → s.pair.forceTake = true → s.tickComing = true → s.boundaryFirst = false →
        ∃ t, exec .timeoutTakeover s = .next t ∧ t.role = roleActive ∧ t.bit F.PAIR.PAIR_STS.TAKE_DRV = true
        ∧ t.fld (F.PAIR.TAKEOVER_CNT.TIMEOUT) = min (2 ^ (F.PAIR.TAKEOVER_CNT.TIMEOUT).width - 1) (s.fld (F.PAIR.TAKEOVER_CNT.TIMEOUT) + 1)
        ∧ t.fld F.PAIR.PAIR_STS.LAST_CAUSE = causeTimeout ∧ t.pair.lateFrom = true)
    ∧ (s.takeoverDue = false → exec .timeoutTakeover s = .next (s))
    ∧ (∀ (y c : Nat), s.pair.yst = .finalSent y c → ∃ t, exec .yieldAbandon s = .next t ∧ t.pair = { s.pair with yst := .abandoned }
        ∧ s.pair.yieldAt + 50000 ≤ t.time.cycles ∧ t.regs = s.regs)
    ∧ (s.bit F.PAIR.PAIR_STS.TAKE_DRV = false → s.role = roleActive → ∃ t, exec .takeNAssert s = .next t
        ∧ (t.role = (if s.bit F.PAIR.PAIR_STS.YIELD_DRV then roleYielded else roleFailed)) ∧ t.pins = { s.pins with takeIn := true }
        ∧ t.bit F.PAIR.PAIR_STS.YIELD_DRV = false ∧ t.pair.yst = .none
        ∧ ((match s.pair.yst with | .yielded _ c => decide (t.fld F.PAIR.PAIR_STS.LAST_CAUSE = c % 2 ^ F.PAIR.PAIR_STS.LAST_CAUSE.width) | _ => true) = true)
        ∧ (t.reg (0x1000 * pgPAIR + 0x010)).getLsbD Irq.roleChange.bit = true)
    ∧ ((s.bit F.PAIR.PAIR_STS.TAKE_DRV = true ∨ s.role ≠ roleActive) →
        exec .takeNAssert s = .next (s.modPins fun p => { p with takeIn := true }))
    ∧ (((match s.pair.yst with | .finalSent _ _ => true | _ => false) = false) → exec .yieldAbandon s = .next (s))
    ∧ (s.pair.exdWait = false → exec .takeoverExdEnable s = .next (s))
    ∧ (∀ (g : Fin 32) (n : Nat), s.follows = false → exec (.standbyDacTrim g n) s = .next (s))
    ∧ (exec .takeNRelease s = .next (s.modPins fun p => { p with takeIn := false }))
    ∧ (s.pair.exdWait = true → ∃ t, exec .takeoverExdEnable s = .next t ∧ t.pair = { s.pair with exdWait := false }
        ∧ s.pair.roleAt + 250 ≤ t.time.cycles ∧ (∀ g : Fin 32, s.follows = false → s.bit (F.FE.EXC_CTL.REG g.val) = false →
        t.fld (F.FE.EXC_DAC.CODE g.val) = s.fld (F.FE.EXC_SET.SET g.val)))
    ∧ (∀ (g : Fin 32) (n : Nat), s.follows = true → ∃ t, exec (.standbyDacTrim g n) s = .next t
        ∧ t.fld (F.FE.EXC_DAC.CODE g.val) = dacStep (s.fld (F.FE.EXC_DAC.CODE g.val)) n ∧ s.regsBut t [(F.FE.EXC_DAC.CODE g.val).addr])

/-! ## Faults, interrupts and the rim log (R413 to R444) -/

/-- Writing FLT_STS of a page with a header clears the bits written as 1 but those of FATAL faults whose cause persists (R415); writing
INT_STS clears every bit written as 1 (R421); re-arming clears FLT_FIRST and its time (R420); no other register changes. A page outside
the register space counts an address error instead (R446). A capture closes 4 ns after its fault (R419). A hold-off without merged
interrupts ends; one with some writes one packet and, once IRQ_Q takes it, counts it and what it merges, and runs on; with no packet to
write it ends too (R425). That a timed command lets time run on to its instant is the model's choice (log entry 6). -/
def Obligations.FaultAndInterruptBitsAreCleared : Prop :=
  ∀ (p : BitVec 12) (s : State), s.quiet = true →
    (∀ (v : Reg), (pageRows p.toNat).isSome = true → ∃ t, exec (.fltStsWrite p v) s = .next t
        ∧ t.reg (0x1000 * p.toNat + 0x01C) = s.reg (0x1000 * p.toNat + 0x01C) &&& ~~~(v &&& ~~~s.otherWrite.stuckFaults p.toNat)
        ∧ s.regsBut t [0x1000 * p.toNat + 0x01C] ∧ s.onlyRegs t)
    ∧ ((pageRows p.toNat).isSome = true → ∃ t, exec (.fltFirstRearm p) s = .next t ∧ t.reg (0x1000 * p.toNat + 0x020) = 0
        ∧ t.reg (0x1000 * p.toNat + 0x024) = 0 ∧ s.regsBut t [0x1000 * p.toNat + 0x020, 0x1000 * p.toNat + 0x024]
        ∧ ((t.rim.capture.any fun e => decide (e.1 = p.toNat)) = false) ∧ t.rim.log = s.rim.log ∧ s.onlyRegs t)
    ∧ (∀ (c : Nat), s.rim.capture = [(p.toNat, c)] →
        exec (.fltCaptureClose p) s = .next ((s.reachCycles (c + 2)).modRim fun r => { r with capture := [] }))
    ∧ (∀ (v : Reg), (pageRows p.toNat).isSome = true → ∃ t, exec (.intStsWrite p v) s = .next t
        ∧ t.reg (0x1000 * p.toNat + 0x010) = s.reg (0x1000 * p.toNat + 0x010) &&& ~~~v ∧ s.regsBut t [0x1000 * p.toNat + 0x010]
        ∧ s.onlyRegs t)
    ∧ (∀ (q : BitVec 12) (v : Reg), (pageRows q.toNat).isNone = true → isCapwin q.toNat = false →
        s.bit (F.HDR.INT_ROUTE.INBAND pgHOST) = false → ∃ t, exec (.intStsWrite q v) s = .next t ∧ t.bit F.HOST.HOST_STS.ADDR_ERR = true
        ∧ t.fld (F.HOST.ADDR_ERR_CNT.CNT) = min (2 ^ (F.HOST.ADDR_ERR_CNT.CNT).width - 1) (s.fld (F.HOST.ADDR_ERR_CNT.CNT) + 1)
        ∧ (t.reg (0x1000 * pgHOST + 0x010)).getLsbD Irq.addrErr.bit = true
        ∧ s.regsBut t [F.HOST.HOST_STS.ADDR_ERR.addr, F.HOST.ADDR_ERR_CNT.CNT.addr, 0x1000 * pgHOST + 0x010] ∧ s.onlyRegs t)
    ∧ (∀ (c : Nat), s.irqHold p.toNat = some (c, 0) → ∃ t, exec (.irqHoldoffExpire p) s = .next t ∧ t.irqHold p.toNat = none
        ∧ c + s.irqHoldCycles ≤ t.time.cycles ∧ t.regs = s.regs ∧ t.queue = s.queue)
    ∧ (∀ (c n : Nat), s.irqHold p.toNat = some (c, n + 1) → s.bit F.RIM.RIM_CTL.IRQ_QEN = true → s.follows = false → s.queuesTake = true →
        ((let r := s.reachCycles (c + s.irqHoldCycles); (r.writeIrqPacket (r.ownIrqWords p.toNat)).1) = true) →
        ∃ t, exec (.irqHoldoffExpire p) s = .next t ∧ c + s.irqHoldCycles ≤ t.time.cycles
        ∧ t.fld F.RIM.IRQ_MERGE_CNT.CNT ≥ min (2 ^ 32 - 1) (s.fld F.RIM.IRQ_MERGE_CNT.CNT + n + 1)
        ∧ t.fld F.RIM.IRQ_PKT_CNT.CNT ≥ min (2 ^ 32 - 1) (s.fld F.RIM.IRQ_PKT_CNT.CNT + 1))
    ∧ (∀ (c n : Nat), s.irqHold p.toNat = some (c, n + 1) → s.queuesTake = false → ∃ t, exec (.irqHoldoffExpire p) s = .next t
        ∧ c + s.irqHoldCycles ≤ t.time.cycles ∧ t.irqHold p.toNat = none ∧ t.regs = s.regs ∧ t.queue = s.queue)
    ∧ (∀ (c n : Nat), s.irqHold p.toNat = some (c, n + 1) → (s.bit F.RIM.RIM_CTL.IRQ_QEN = false ∨ s.follows = true) →
        ∃ t, exec (.irqHoldoffExpire p) s = .next t ∧ c + s.irqHoldCycles ≤ t.time.cycles ∧ t.irqHold p.toNat = none ∧ t.regs = s.regs
        ∧ t.queue = s.queue)
    ∧ (s.irqHold p.toNat = none → exec (.irqHoldoffExpire p) s = .next (s))
    ∧ (((s.rim.capture.find? fun e => decide (e.1 = p.toNat)) = none) → exec (.fltCaptureClose p) s = .next (s))
    ∧ (∀ (q : BitVec 12) (v : Reg), (pageRows q.toNat).isNone = true → isCapwin q.toNat = false →
        s.bit (F.HDR.INT_ROUTE.INBAND pgHOST) = false → ∃ t, exec (.fltStsWrite q v) s = .next t ∧ t.bit F.HOST.HOST_STS.ADDR_ERR = true
        ∧ t.fld (F.HOST.ADDR_ERR_CNT.CNT) = min (2 ^ (F.HOST.ADDR_ERR_CNT.CNT).width - 1) (s.fld (F.HOST.ADDR_ERR_CNT.CNT) + 1)
        ∧ (t.reg (0x1000 * pgHOST + 0x010)).getLsbD Irq.addrErr.bit = true
        ∧ s.regsBut t [F.HOST.HOST_STS.ADDR_ERR.addr, F.HOST.ADDR_ERR_CNT.CNT.addr, 0x1000 * pgHOST + 0x010] ∧ s.onlyRegs t)
    ∧ (∀ (q : BitVec 12), (pageRows q.toNat).isNone = true → isCapwin q.toNat = false → s.bit (F.HDR.INT_ROUTE.INBAND pgHOST) = false →
        ∃ t, exec (.fltFirstRearm q) s = .next t ∧ t.bit F.HOST.HOST_STS.ADDR_ERR = true
        ∧ t.fld (F.HOST.ADDR_ERR_CNT.CNT) = min (2 ^ (F.HOST.ADDR_ERR_CNT.CNT).width - 1) (s.fld (F.HOST.ADDR_ERR_CNT.CNT) + 1)
        ∧ (t.reg (0x1000 * pgHOST + 0x010)).getLsbD Irq.addrErr.bit = true
        ∧ s.regsBut t [F.HOST.HOST_STS.ADDR_ERR.addr, F.HOST.ADDR_ERR_CNT.CNT.addr, 0x1000 * pgHOST + 0x010] ∧ s.onlyRegs t)

/-- The first key counts, the third key after the two others opens test mode where TEST_EN was high, and a key out of order starts the
sequence again (R428). Outside test mode FLT_INJ is ignored. In test mode a write without INJECT leaves the source; one with it, for a
fault of the wale bus that is not set, sets the fault, counts it, and logs it with INJ; for the strobe echo and the conversion timeout of
an idle slice the fault is set at once; a source that names no fault injects nothing (R429). Where the words of the spec leave room it
follows the readings of log entries 3 and 56, which are the model's. -/
def Obligations.TestModeInjectsFaults : Prop :=
  ∀ s : State, s.quiet = true →
    (s.rim.key = 0 → exec (.testKeyWrite 0x7E51) s = .next (s.modRim fun r => { r with key := 1 }))
    ∧ (s.rim.key = 1 → exec (.testKeyWrite 0x15E7) s = .next (s.modRim fun r => { r with key := 2 }))
    ∧ (s.rim.key = 2 →
        exec (.testKeyWrite 0xA0A0) s = .next (s.modRim fun r => { r with key := 0, testMode := r.testMode || s.power.testEn }))
    ∧ (∀ (v : BitVec 16), s.rim.key < 3 → testKeys.getD s.rim.key 0 ≠ v.toNat → v ≠ 0x7E51 →
        exec (.testKeyWrite v) s = .next (s.modRim fun r => { r with key := 0 }))
    ∧ (∀ (p : BitVec 12) (v : Reg), (pageRows p.toNat).isSome = true → s.rim.testMode = false →
        exec (.fltInjWrite p v) s = .next (s.otherWrite))
    ∧ (∀ (p : BitVec 12) (v : Reg), (pageRows p.toNat).isSome = true → s.rim.testMode = true →
        (v.getLsbD 31 = false ∨ faultOf p.toNat (v.toNat % 32) = none) →
        exec (.fltInjWrite p v) s = .next (s.otherWrite.setFld (F.HDR.FLT_INJ.SOURCE p.toNat) (v.toNat % 32)))
    ∧ (∀ (v : Reg), s.rim.testMode = true → v.getLsbD 31 = true → v.toNat % 32 = 0 → s.faultSet Flt.driveCheck = false →
        s.bit F.RIM.RIM_STS.FROZEN = false → s.bit (F.HDR.INT_ROUTE.INBAND pgWALE) = false → ∃ t, exec (.fltInjWrite 0x011 v) s = .next t
        ∧ t.faultSet Flt.driveCheck = true
        ∧ t.fld (F.HDR.FLT_CNT_CONT.CNT pgWALE) = min (2 ^ (F.HDR.FLT_CNT_CONT.CNT pgWALE).width - 1) (s.fld (F.HDR.FLT_CNT_CONT.CNT pgWALE) + 1)
        ∧ (t.rim.log.head?.map (fun e => e.w1.getLsbD 5) = some true) ∧ t.rim.injected = s.rim.injected)
    ∧ (∀ (v : Reg), s.rim.testMode = true → v.getLsbD 31 = true → v.toNat % 32 = 0 → ∃ t, exec (.fltInjWrite 0x003 v) s = .next t
        ∧ t.faultSet Flt.strobeEcho = true ∧ t.fld (F.HDR.FLT_INJ.SOURCE pgTICK) = 0 ∧ t.time = s.time)
    ∧ (∀ (v : Reg), s.rim.testMode = true → v.getLsbD 31 = true → v.toNat % 32 = 0 → (s.getSlice 3).pass = none → s.shadowTick 3 = none →
        s.bit (F.HDR.INT_ROUTE.INBAND (pgSLICE 3)) = false → ∃ t, exec (.fltInjWrite 0x043 v) s = .next t
        ∧ t.faultSet (Flt.convTimeout 3) = true ∧ (t.getSlice 3).pass = none ∧ t.time = s.time)
    ∧ (∀ (q : BitVec 12) (v : Reg), (pageRows q.toNat).isNone = true → isCapwin q.toNat = false →
        s.bit (F.HDR.INT_ROUTE.INBAND pgHOST) = false → ∃ t, exec (.fltInjWrite q v) s = .next t ∧ t.bit F.HOST.HOST_STS.ADDR_ERR = true
        ∧ t.fld (F.HOST.ADDR_ERR_CNT.CNT) = min (2 ^ (F.HOST.ADDR_ERR_CNT.CNT).width - 1) (s.fld (F.HOST.ADDR_ERR_CNT.CNT) + 1)
        ∧ s.onlyRegs t)
    ∧ (∀ (v : BitVec 16), s.rim.key ≠ 0 → testKeys.getD s.rim.key 0 ≠ v.toNat → v = 0x7E51 →
        exec (.testKeyWrite v) s = .next (s.modRim fun r => { r with key := 1 }))

/-- With LOG_EVT set a host note enters the log as its newest entry (R433), or counts in DROP_CNT while the log is frozen (R434). CLEAR
empties a log that is not frozen and leaves a frozen one. UNFREEZE ends a freeze when no copy runs and PFW_N is released, with cause 0 and
its interrupt (R436). SAVE copies the log to the copy that is not the newer valid one; the end of a good copy makes it valid one
generation on, with the check word of its content (its layout is the model's choice, log entry 84), a failed one raises RIM_WR_FAIL
(R435); a second SAVE or an UNFREEZE while a copy runs is ignored (R435, R436). RD_SEL selects an entry, and the snapshot shows its words,
or zeros and EMPTY (R438). Where the words of the spec leave room it follows the readings of log entry 53, which are the model's. -/
def Obligations.RimLogIsKeptSavedAndRead : Prop :=
  ∀ s : State, s.quiet = true → s.bit (F.HDR.INT_ROUTE.INBAND pgRIM) = false →
    (∀ (v : Reg), s.bit F.RIM.RIM_CTL.LOG_EVT = true → s.bit F.RIM.RIM_STS.FROZEN = false → ∃ t, exec (.hostNote v) s = .next t
        ∧ t.rim.log.head?.map RimEntry.w0 = some v ∧ t.rim.log.length = min 1024 (s.rim.log.length + 1)
        ∧ t.rim.log.tail = s.rim.log.take 1023 ∧ t.fld F.RIM.RIM_SEQ.SEQ = (s.fld F.RIM.RIM_SEQ.SEQ + 1) % 2 ^ 32
        ∧ s.regsBut t [F.RIM.RIM_SEQ.SEQ.addr])
    ∧ (∀ (v : Reg), s.bit F.RIM.RIM_CTL.LOG_EVT = true → s.bit F.RIM.RIM_STS.FROZEN = true → ∃ t, exec (.hostNote v) s = .next t
        ∧ t.rim.log = s.rim.log ∧ t.fld (F.RIM.DROP_CNT.CNT) = min (2 ^ (F.RIM.DROP_CNT.CNT).width - 1) (s.fld (F.RIM.DROP_CNT.CNT) + 1)
        ∧ s.regsBut t [F.RIM.DROP_CNT.CNT.addr])
    ∧ (s.bit F.RIM.RIM_STS.FROZEN = false → exec .rimClear s = .next (s.otherWrite.modRim fun r => { r with log := [] }))
    ∧ (s.bit F.RIM.RIM_STS.FROZEN = true → exec .rimClear s = .next (s.otherWrite))
    ∧ (s.bit F.RIM.RIM_STS.FROZEN = true → s.rim.saving = none → s.power.pfw = false → ∃ t, exec .unfreeze s = .next t
        ∧ t.bit F.RIM.RIM_STS.FROZEN = false ∧ t.fld F.RIM.RIM_STS.CAUSE = 0
        ∧ (t.reg (0x1000 * pgRIM + 0x010)).getLsbD Irq.unfrozen.bit = true
        ∧ s.regsBut t [F.RIM.RIM_STS.FROZEN.addr, F.RIM.RIM_SEQ.SEQ.addr, 0x1000 * pgRIM + 0x010])
    ∧ (s.rim.saving = none → ∃ t, exec .rimSave s = .next t ∧ t.rim.saving = some (targetCopy s.mram.rimNewer, s.rim.log)
        ∧ (t.mram.getRim (targetCopy s.mram.rimNewer)).valid = false
        ∧ t.mram.getRim (!targetCopy s.mram.rimNewer) = s.mram.getRim (!targetCopy s.mram.rimNewer) ∧ t.rim.log = s.rim.log
        ∧ t.regs = s.regs)
    ∧ (s.rim.saving.isSome = true → exec .rimSave s = .next (s.otherWrite))
    ∧ (∀ (ok : Bool), s.rim.saving = none → exec (.rimCopyDone ok) s = .next (s))
    ∧ ((s.bit F.RIM.RIM_STS.FROZEN = false ∨ s.rim.saving.isSome = true ∨ s.power.pfw = true) → exec .unfreeze s = .next (s.otherWrite))
    ∧ (∀ (v : Reg), s.bit F.RIM.RIM_CTL.LOG_EVT = false → exec (.hostNote v) s = .next (s.otherWrite))
    ∧ (s.rim.rdDue = false → exec .rimSnapshotReady s = .next (s))
    ∧ (∀ (c : Bool) (l : List RimEntry), s.rim.saving = some (c, l) → ∃ t, exec (.rimCopyDone true) s = .next t
        ∧ t.mram = s.mram.setRim c { gen := (s.mram.rimGen + 1) % 2 ^ 32, valid := true, entries := l }
        ∧ rimCheckWord (t.mram.getRim c) = rimCrc (t.mram.getRim c) ∧ t.rim.saving = none
        ∧ (t.reg (0x1000 * pgRIM + 0x010)).getLsbD Irq.saved.bit = true ∧ s.regsBut t [0x1000 * pgRIM + 0x010])
    ∧ (∀ (c : Bool) (l : List RimEntry), s.rim.saving = some (c, l) → ∃ t, exec (.rimCopyDone false) s = .next t ∧ t.mram = s.mram
        ∧ t.rim.saving = none ∧ t.faultSet Flt.rimWrFail = true)
    ∧ (∀ (v : Reg), ∃ t, exec (.rdSelWrite v) s = .next t ∧ t.fld F.RIM.RD_SEL.AGE = v.toNat % 2 ^ 10
        ∧ t.fld F.RIM.RD_SEL.SRC = v.toNat / 2 ^ 16 % 4 ∧ t.bit F.RIM.ENTRY_STS.READY = false ∧ t.rim.rdDue = true ∧ t.rim.log = s.rim.log
        ∧ s.regsBut t [F.RIM.RD_SEL.AGE.addr, F.RIM.ENTRY_STS.READY.addr])
    ∧ (∀ (e : RimEntry), s.rim.rdDue = true → s.rimSource[s.fld F.RIM.RD_SEL.AGE]? = some e → ∃ t, exec .rimSnapshotReady s = .next t
        ∧ t.reg (F.RIM.ENTRY.WORD 0).addr = e.w0 ∧ t.reg (F.RIM.ENTRY.WORD 1).addr = e.w1 ∧ t.reg (F.RIM.ENTRY.WORD 2).addr = e.w2
        ∧ t.reg (F.RIM.ENTRY.WORD 3).addr = e.w3 ∧ t.bit F.RIM.ENTRY_STS.READY = true ∧ t.bit F.RIM.ENTRY_STS.EMPTY = false
        ∧ t.rim = { s.rim with rdDue := false })
    ∧ (s.rim.rdDue = true → s.rimSource[s.fld F.RIM.RD_SEL.AGE]? = none → ∃ t, exec .rimSnapshotReady s = .next t
        ∧ (∀ i : Fin 4, t.reg (F.RIM.ENTRY.WORD i.val).addr = 0) ∧ t.bit F.RIM.ENTRY_STS.READY = true ∧ t.bit F.RIM.ENTRY_STS.EMPTY = true)

/-- PFW_N asserted on a SOLO hub that runs is noted and freezes the rim log (R434, R439); before start-up is complete it abandons
start-up, and every block is at its reset values (R467). Its release is noted. A supply out of range is kept in its set and is FATAL
(R418), as is a block that stalls, whose page WDOG_PAGE shows and which stays stopped, as do those before it (R417; log entry 55); a
supply that returns leaves the set and clears no fault. Where the words of the spec leave room it follows the readings of log entries 54
and 67, which are the model's. -/
def Obligations.PowerAndSuppliesAreWatched : Prop :=
  ∀ s : State, s.quiet = true →
    (9 ≤ s.fld F.NVM.BOOT_STS.STEP → s.role = roleSolo → s.bit (F.HDR.INT_ROUTE.INBAND pgRIM) = false → ∃ t, exec .pfwAssert s = .next t
        ∧ t.power.pfw = true ∧ (s.power.pfw = false → t.bit F.RIM.RIM_STS.FROZEN = true) ∧ t.role = roleSolo ∧ t.time = s.time)
    ∧ (s.fld F.NVM.BOOT_STS.STEP < 9 → ∃ t, exec .pfwAssert s = .next t ∧ t.power.pfw = true ∧ t.power.abandoned = true ∧ t.inReset = true
        ∧ t.blank = true ∧ t.pending = s.pending ∧ t.mram = s.mram)
    ∧ (exec .pfwDeassert s = .next (s.modPower fun p => { p with pfw := false }))
    ∧ (∀ (n : Fin 5), s.role = roleSolo → s.bit (F.HDR.INT_ROUTE.INBAND pgRIM) = false → ∃ t, exec (.supplyRange n) s = .next t
        ∧ t.power.supplies = s.power.supplies ||| BitVec.ofNat 5 (2 ^ n.val) ∧ t.faultSet Flt.supplyRange = true
        ∧ t.bit F.RIM.RIM_STS.FROZEN = true ∧ t.faultAsserted = true)
    ∧ (∀ (n : Fin 5), exec (.supplyRestored n) s = .next (s.modPower fun p => { p with supplies := p.supplies &&& ~~~ BitVec.ofNat 5 (2 ^ n.val) }))
    ∧ (∀ (p : BitVec 12), (pageRows p.toNat).isSome = true → s.role = roleSolo → s.bit (F.HDR.INT_ROUTE.INBAND pgRIM) = false →
        ∃ t, exec (.fabricWdog p) s = .next t ∧ t.fld F.RIM.WDOG_PAGE.PAGE = p.toNat % 2 ^ F.RIM.WDOG_PAGE.PAGE.width
        ∧ (t.rim.stalled = p.toNat :: s.rim.stalled.filter fun x => decide (x ≠ p.toNat)) ∧ t.stalledAt p.toNat = true
        ∧ s.rim.stalled.all t.stalledAt = true ∧ t.faultSet Flt.fabricWdog = true ∧ t.bit F.RIM.RIM_STS.FROZEN = true)
    ∧ (∀ (p : BitVec 12), (pageRows p.toNat).isNone = true → exec (.fabricWdog p) s = .next (s))
    ∧ (9 ≤ s.fld F.NVM.BOOT_STS.STEP → s.power.pfw = true → exec .pfwAssert s = .next (s))

/-! ## Commits, the host interface, saves, sleep, reset and start-up (R445 to R486) -/

/-- COMMIT and COMMIT_AT_TICK of a page with staged fields and no request: where no reason of R452 applies, the request joins those that
wait, at once or for AT_IDX, and is tried; otherwise it is refused: REFUSED with its REASON, REFUSE_INFO, REFUSE_CNT and COMMIT_REFUSED,
and no request is added (R449, R452). While a request waits, WR_IGNORED alone is set (R450). CANCEL withdraws a request and leaves the
staged values (R451). The tick that a slice's scheduled request names leaves it waiting for its boundary alone (R449). The staged values
of an IDLE context are running at once, those of another wait (R269). A page without staged fields ignores all three (R448). Where the
words of the spec leave room it follows the readings of log entry 61, which are the model's. -/
def Obligations.CommitsAreRequestedRefusedAndWithdrawn : Prop :=
  ∀ (p : BitVec 12) (s : State), s.quiet = true → hasRws p.toNat = true → s.bit (F.HDR.INT_ROUTE.INBAND pgCHIP) = false → s.bit (F.HDR.INT_ROUTE.INBAND pgRED) = false →
    (s.commitOf p.toNat = none → s.otherWrite.commitReason p.toNat none false = 0 →
        exec (.commit p) s = .next ((settle ((s.otherWrite.commitAdd p.toNat none).commitTry p.toNat)).sealed s))
    ∧ (s.commitOf p.toNat = none → s.otherWrite.commitReason p.toNat (some s.atIdx) false = 0 → ∃ t, exec (.commitAtTick p) s = .next t
        ∧ (t.commits = s.commits ++ [{ page := p.toNat, at_ := some s.atIdx, sched := true, chans := if isRainPage p.toNat then List.range 16 else [] }])
        ∧ t.regs = s.regs ∧ t.staged = s.staged)
    ∧ (s.commitOf p.toNat = none → s.otherWrite.commitReason p.toNat none false ≠ 0 → ∃ t, exec (.commit p) s = .next t
        ∧ t.bit (F.HDR.STAGE_CTL.REFUSED p.toNat) = true
        ∧ t.fld (F.HDR.STAGE_CTL.REASON p.toNat) = s.otherWrite.commitReason p.toNat none false
        ∧ t.fld F.CHIP.REFUSE_INFO.REASON = s.otherWrite.commitReason p.toNat none false ∧ t.fld F.CHIP.REFUSE_INFO.PAGE = p.toNat % 2 ^ 10
        ∧ t.fld (F.CHIP.REFUSE_CNT.CNT) = min (2 ^ (F.CHIP.REFUSE_CNT.CNT).width - 1) (s.fld (F.CHIP.REFUSE_CNT.CNT) + 1)
        ∧ (t.reg (0x1000 * pgCHIP + 0x010)).getLsbD Irq.commitRefused.bit = true ∧ t.commits = s.commits ∧ t.staged = s.staged)
    ∧ (s.commitOf p.toNat = none → s.otherWrite.commitReason p.toNat (some s.atIdx) false ≠ 0 → ∃ t, exec (.commitAtTick p) s = .next t
        ∧ t.bit (F.HDR.STAGE_CTL.REFUSED p.toNat) = true
        ∧ t.fld (F.HDR.STAGE_CTL.REASON p.toNat) = s.otherWrite.commitReason p.toNat (some s.atIdx) false
        ∧ t.fld (F.CHIP.REFUSE_CNT.CNT) = min (2 ^ (F.CHIP.REFUSE_CNT.CNT).width - 1) (s.fld (F.CHIP.REFUSE_CNT.CNT) + 1)
        ∧ (t.reg (0x1000 * pgCHIP + 0x010)).getLsbD Irq.commitRefused.bit = true ∧ t.commits = s.commits ∧ t.staged = s.staged)
    ∧ ((s.commitOf p.toNat).isSome = true → exec (.commit p) s = .next (s.otherWrite.setBit (F.HDR.STAGE_CTL.WR_IGNORED p.toNat) true))
    ∧ (∀ (x : Fin 256), s.commitOf (pgCTX x.val) = none → s.otherWrite.commitReason (pgCTX x.val) none false = 0 → s.cxSt x.val = cxIdle →
        ∃ t, exec (.commit (BitVec.ofNat 12 (0x100 + x.val))) s = .next t ∧ t.fld (F.CTX.POST.POST x.val) = s.stgFld (F.CTX.POST.POST x.val)
        ∧ t.fld (F.CTX.ARM.PRE x.val) = s.stgFld (F.CTX.ARM.PRE x.val)
        ∧ (∀ j : Fin 16, t.fld (F.CTX.CHSET.CH x.val j.val) = s.stgFld (F.CTX.CHSET.CH x.val j.val)) ∧ t.commits = s.commits
        ∧ t.staged = s.staged ∧ t.time = s.time)
    ∧ (∀ (x : Fin 256), s.commitOf (pgCTX x.val) = none → s.otherWrite.commitReason (pgCTX x.val) none false = 0 → s.cxSt x.val ≠ cxIdle →
        ∃ t, exec (.commit (BitVec.ofNat 12 (0x100 + x.val))) s = .next t ∧ t.commits = s.commits ++ [{ page := pgCTX x.val }]
        ∧ t.regs = s.regs ∧ t.staged = s.staged)
    ∧ ((s.commitOf p.toNat).isSome = true →
        exec (.commitAtTick p) s = .next (s.otherWrite.setBit (F.HDR.STAGE_CTL.WR_IGNORED p.toNat) true))
    ∧ (∀ (q : BitVec 12), hasRws q.toNat = false → ((pageRows q.toNat).isSome = true ∨ isCapwin q.toNat = true) →
        exec (.commit q) s = .next (s.otherWrite))
    ∧ (∀ (q : BitVec 12), (pageRows q.toNat).isNone = true → isCapwin q.toNat = false → s.bit (F.HDR.INT_ROUTE.INBAND pgHOST) = false →
        ∃ t, exec (.commit q) s = .next t ∧ t.bit F.HOST.HOST_STS.ADDR_ERR = true
        ∧ t.fld (F.HOST.ADDR_ERR_CNT.CNT) = min (2 ^ (F.HOST.ADDR_ERR_CNT.CNT).width - 1) (s.fld (F.HOST.ADDR_ERR_CNT.CNT) + 1)
        ∧ t.commits = s.commits ∧ t.staged = s.staged)
    ∧ (∀ (q : BitVec 12), hasRws q.toNat = false → ((pageRows q.toNat).isSome = true ∨ isCapwin q.toNat = true) →
        exec (.commitAtTick q) s = .next (s.otherWrite))
    ∧ (∀ (q : BitVec 12), (pageRows q.toNat).isNone = true → isCapwin q.toNat = false → s.bit (F.HDR.INT_ROUTE.INBAND pgHOST) = false →
        ∃ t, exec (.commitAtTick q) s = .next t ∧ t.bit F.HOST.HOST_STS.ADDR_ERR = true
        ∧ t.fld (F.HOST.ADDR_ERR_CNT.CNT) = min (2 ^ (F.HOST.ADDR_ERR_CNT.CNT).width - 1) (s.fld (F.HOST.ADDR_ERR_CNT.CNT) + 1)
        ∧ t.commits = s.commits ∧ t.staged = s.staged)
    ∧ (∀ (q : BitVec 12), hasRws q.toNat = false → ((pageRows q.toNat).isSome = true ∨ isCapwin q.toNat = true) →
        exec (.cancel q) s = .next (s.otherWrite))
    ∧ (∀ (q : BitVec 12), (pageRows q.toNat).isNone = true → isCapwin q.toNat = false → s.bit (F.HDR.INT_ROUTE.INBAND pgHOST) = false →
        ∃ t, exec (.cancel q) s = .next t ∧ t.bit F.HOST.HOST_STS.ADDR_ERR = true
        ∧ t.fld (F.HOST.ADDR_ERR_CNT.CNT) = min (2 ^ (F.HOST.ADDR_ERR_CNT.CNT).width - 1) (s.fld (F.HOST.ADDR_ERR_CNT.CNT) + 1)
        ∧ t.commits = s.commits ∧ t.staged = s.staged)
    ∧ (∀ (q : BitVec 12), (s.gridSt ≠ gridRun ∨ s.commitOf q.toNat = none) → exec (.scheduledCommitRelease q) s = .next (s))
    ∧ (exec (.cancel p) s = .next ({ s.otherWrite with commits := s.commits.filter fun c => decide (c.page ≠ p.toNat) }))
    ∧ (∀ (q : BitVec 12) (c : Commit) (i : Nat), 0x040 ≤ q.toNat → q.toNat < 0x060 → s.gridSt = gridRun → s.commits = [c] →
        c.page = q.toNat → c.at_ = some i → i ≤ idxOf s.tickPeriod s.grid.cur → ∃ t, exec (.scheduledCommitRelease q) s = .next t
        ∧ t.commits = [{ c with at_ := none, rel := i }] ∧ t.commitDue q.toNat = true ∧ t.regs = s.regs ∧ t.time = s.time)

/-- A QSPI write of SCRATCH, or one of AT_IDX on either path (R447), gives the register its value and changes no other; an in-band write
of a protected register does nothing (R357, R359); a write of a POST register stages its bits and leaves its running value (R17), or sets
WR_IGNORED alone while a commit of its page waits (R450); a write of an address that names no page counts an address error (R446). A QSPI
read answers the values of its words in order; a word not ready in time answers 0 and is counted as late, and so is every later word of
the transaction (R458, R460). STATUS answers HOST_STS (R458). After an unknown opcode all are ignored until the transaction ends (R458,
R459). Where the words of the spec leave room it follows the readings of log entry 59, which are the model's. -/
def Obligations.RegistersAreWrittenAndReadByAddress : Prop :=
  ∀ s : State, s.quiet = true → s.bit (F.HDR.INT_ROUTE.INBAND pgHOST) = false →
    (∀ (v : Reg), exec (.registerWrite .qspi 0x00405C v) s = .next (s.otherWrite.setReg F.HOST.SCRATCH.DATA.addr v))
    ∧ (∀ (p : Path) (v : Reg), exec (.registerWrite p (BitVec.ofNat 24 F.CHIP.AT_IDX_LO.IDX_LO.addr) v) s = .next (s.otherWrite.setReg F.CHIP.AT_IDX_LO.IDX_LO.addr v))
    ∧ (∀ (a : BitVec 24) (v : Reg), mgmtProtected a.toNat = true → exec (.registerWrite .inband a v) s = .next (s))
    ∧ (∀ (a : BitVec 24) (l : List Reg), s.qspi.ignore = true → exec (.write a l) s = .next (s))
    ∧ (∀ (a : BitVec 24) (l : List Reg), s.qspi.ignore = true → exec (.qwrite a l) s = .next (s))
    ∧ (∀ (a : BitVec 24) (l : List Bool), s.qspi.ignore = true → exec (.read a l) s = .next (s))
    ∧ (∀ (a : BitVec 24) (l : List Bool), s.qspi.ignore = true → exec (.qread a l) s = .next (s))
    ∧ (∀ (a : BitVec 24) (l : List Bool), s.qspi.ignore = true → exec (.qreadPair a l) s = .next (s))
    ∧ (∀ (n : Nat), s.qspi.ignore = true → exec (.status n) s = .next (s))
    ∧ (s.qspi.ignore = true → exec .badOp s = .next (s))
    ∧ (∀ (part : Bool), (s.qspi.ignore = true ∨ part = false) →
        exec (.qspiTransactionEnd part) s = .next ({ s with qspi := { s.qspi with ignore := false, late := false } }))
    ∧ (∀ (r : Bool), s.qspi.ignore = false → s.qspi.late = true → ∃ t, exec (.read 0x00405C [r]) s = .next t ∧ t.rdata = [0]
        ∧ t.fld (F.HOST.LATE_CNT.CNT) = min (2 ^ (F.HOST.LATE_CNT.CNT).width - 1) (s.fld (F.HOST.LATE_CNT.CNT) + 1)
        ∧ (t.reg (0x1000 * pgHOST + 0x010)).getLsbD Irq.late.bit = true)
    ∧ (∀ (w : BitVec 17) (r : Bool), (s.qspi.late = true ∨ r = false) → ∃ t, exec (.wloRead .qspi w r) s = .next t ∧ t.rdata = [0]
        ∧ t.bit F.HOST.HOST_STS.LATE = true ∧ t.qspi = { s.qspi with late := true }
        ∧ t.fld (F.HOST.LATE_CNT.CNT) = min (2 ^ (F.HOST.LATE_CNT.CNT).width - 1) (s.fld (F.HOST.LATE_CNT.CNT) + 1)
        ∧ (t.reg (0x1000 * pgHOST + 0x010)).getLsbD Irq.late.bit = true)
    ∧ (∀ (w : BitVec 17), s.qspi.late = true → ∃ t, exec (.whiRead .qspi w) s = .next t ∧ t.rdata = [0] ∧ t.bit F.HOST.HOST_STS.LATE = true
        ∧ t.fld (F.HOST.LATE_CNT.CNT) = min (2 ^ (F.HOST.LATE_CNT.CNT).width - 1) (s.fld (F.HOST.LATE_CNT.CNT) + 1)
        ∧ (t.reg (0x1000 * pgHOST + 0x010)).getLsbD Irq.late.bit = true)
    ∧ (∀ (v : Reg), s.qspi.ignore = false → exec (.write 0x00405C [v]) s = .next (s.otherWrite.setReg F.HOST.SCRATCH.DATA.addr v))
    ∧ (∀ (v x : Reg), s.qspi.ignore = false → exec (.qwrite 0x00405C [v, x]) s = .next (s.otherWrite.setReg F.HOST.SCRATCH.DATA.addr v))
    ∧ (∀ (p : Path) (x : Fin 256) (v : Reg), s.commitOf (pgCTX x.val) = none →
        ∃ t, exec (.registerWrite p (BitVec.ofNat 24 (0x100048 + 0x1000 * x.val)) v) s = .next t
        ∧ t.stg (F.CTX.POST.POST x.val).addr = (s.stg (F.CTX.POST.POST x.val).addr &&& ~~~0xFFFFF#32) ||| (v &&& 0xFFFFF#32)
        ∧ (∀ a : Fin 4096, t.reg a.val = s.reg a.val) ∧ t.fld (F.CTX.POST.POST x.val) = s.fld (F.CTX.POST.POST x.val)
        ∧ t.commits = s.commits ∧ t.ctx = s.ctx)
    ∧ (∀ (p : Path) (x : Fin 256) (v : Reg), (s.commitOf (pgCTX x.val)).isSome = true →
        ∃ t, exec (.registerWrite p (BitVec.ofNat 24 (0x100048 + 0x1000 * x.val)) v) s = .next t
        ∧ t.stg (F.CTX.POST.POST x.val).addr = s.stg (F.CTX.POST.POST x.val).addr ∧ t.bit (F.HDR.STAGE_CTL.WR_IGNORED (pgCTX x.val)) = true
        ∧ s.regsBut t [(F.HDR.STAGE_CTL.WR_IGNORED (pgCTX x.val)).addr] ∧ t.staged = s.staged)
    ∧ (∀ (p : Path) (a : BitVec 24) (v : Reg), (pageRows (pageOf (a.toNat / 4 * 4))).isNone = true →
        isCapwin (pageOf (a.toNat / 4 * 4)) = false → ∃ t, exec (.registerWrite p a v) s = .next t ∧ t.bit F.HOST.HOST_STS.ADDR_ERR = true
        ∧ t.fld (F.HOST.ADDR_ERR_CNT.CNT) = min (2 ^ (F.HOST.ADDR_ERR_CNT.CNT).width - 1) (s.fld (F.HOST.ADDR_ERR_CNT.CNT) + 1)
        ∧ (t.reg (0x1000 * pgHOST + 0x010)).getLsbD Irq.addrErr.bit = true
        ∧ s.regsBut t [F.HOST.HOST_STS.ADDR_ERR.addr, F.HOST.ADDR_ERR_CNT.CNT.addr, 0x1000 * pgHOST + 0x010])
    ∧ (s.qspi.ignore = false → s.qspi.late = false →
        exec (.read 0x00405C [true]) s = .next ({ s with rdata := [s.reg F.HOST.SCRATCH.DATA.addr] }))
    ∧ (s.qspi.ignore = false → s.qspi.late = false → ∃ t, exec (.read 0x00405C [false]) s = .next t ∧ t.rdata = [0]
        ∧ t.bit F.HOST.HOST_STS.LATE = true ∧ t.qspi = { s.qspi with late := true }
        ∧ t.fld (F.HOST.LATE_CNT.CNT) = min (2 ^ (F.HOST.LATE_CNT.CNT).width - 1) (s.fld (F.HOST.LATE_CNT.CNT) + 1)
        ∧ (t.reg (0x1000 * pgHOST + 0x010)).getLsbD Irq.late.bit = true
        ∧ s.regsBut t [F.HOST.HOST_STS.LATE.addr, F.HOST.LATE_CNT.CNT.addr, 0x1000 * pgHOST + 0x010])
    ∧ (s.qspi.ignore = false → s.qspi.late = false →
        exec (.qread 0x004058 [true, true]) s = .next ({ s with rdata := [s.reg F.HOST.ADDR_ERR_CNT.CNT.addr, s.reg F.HOST.SCRATCH.DATA.addr] }))
    ∧ (s.qspi.ignore = false → s.qspi.late = false →
        exec (.qreadPair 0x004058 [true, true, true]) s = .next ({ s with rdata := [s.reg F.HOST.ADDR_ERR_CNT.CNT.addr, s.reg F.HOST.SCRATCH.DATA.addr, s.reg F.HOST.ADDR_ERR_CNT.CNT.addr] }))
    ∧ (∀ (n : Nat), s.qspi.ignore = false →
        exec (.status n) s = .next ({ s with rdata := List.replicate n (s.reg F.HOST.HOST_STS.BAD_OP.addr) }))

/-- An unknown opcode sets BAD_OP, is counted and raises its interrupt, and the hub ignores the transaction until it ends (R458); an end
within a word sets PARTIAL and counts (R459). A WLO read of a word whose burst is held answers its low bits and latches the high ones for
the path (R456), and WHI answers what was latched and releases it (R455, R513); past the last block both answer 0. The LO reads of
LAST_IDX, SCHED_IDX and TAKEOVER_IDX latch their HI registers (R513). Where the words of the spec leave room it follows the readings of
log entries 58 and 59, which are the model's. -/
def Obligations.TransactionsWindowsAndIndexPairs : Prop :=
  ∀ (p : Path) (s : State), s.quiet = true → s.bit (F.HDR.INT_ROUTE.INBAND pgHOST) = false → s.qspi.ignore = false → s.qspi.late = false →
    (∃ t, exec .badOp s = .next t ∧ t.qspi = { s.qspi with ignore := true } ∧ t.bit F.HOST.HOST_STS.BAD_OP = true
        ∧ t.fld (F.HOST.BAD_OP_CNT.CNT) = min (2 ^ (F.HOST.BAD_OP_CNT.CNT).width - 1) (s.fld (F.HOST.BAD_OP_CNT.CNT) + 1)
        ∧ (t.reg (0x1000 * pgHOST + 0x010)).getLsbD Irq.badOp.bit = true
        ∧ s.regsBut t [F.HOST.HOST_STS.BAD_OP.addr, F.HOST.BAD_OP_CNT.CNT.addr, 0x1000 * pgHOST + 0x010])
    ∧ (exec (.qspiTransactionEnd false) s = .next (s))
    ∧ (∃ t, exec (.qspiTransactionEnd true) s = .next t ∧ t.qspi = s.qspi ∧ t.bit F.HOST.HOST_STS.PARTIAL = true
        ∧ t.fld (F.HOST.PARTIAL_CNT.CNT) = min (2 ^ (F.HOST.PARTIAL_CNT.CNT).width - 1) (s.fld (F.HOST.PARTIAL_CNT.CNT) + 1)
        ∧ s.regsBut t [F.HOST.HOST_STS.PARTIAL.addr, F.HOST.PARTIAL_CNT.CNT.addr])
    ∧ (∀ (w : BitVec 17) (a : Nat) (l : List (Word × Bool)) (x : Word), s.winWord w.toNat = some a →
        s.bit F.ARB_MEM.ARB_CTL.FREEZE = false → s.bursts p = [(a / 16, l)] → l.getD (a % 16) (0, false) = (x, false) →
        exec (.wloRead p w true) s = .next ({ s.modLatches p (fun l => { l with cap := sset none l.cap w.toNat (some (reg32 (wordHi x))) }) with rdata := [wordLo x] }))
    ∧ (∀ (w : BitVec 17), s.winWord w.toNat = none → exec (.wloRead p w true) s = .next ({ s with rdata := [0] }))
    ∧ (∀ (w : BitVec 17) (a : Nat) (v : Reg), s.winWord w.toNat = some a → sget none (s.latches p).cap w.toNat = some v →
        exec (.whiRead p w) s = .next ({ s.modLatches p (fun l => { l with cap := sset none l.cap w.toNat none }) with rdata := [v] }))
    ∧ (∀ (w : BitVec 17), s.winWord w.toNat = none → exec (.whiRead p w) s = .next ({ s with rdata := [0] }))
    ∧ (exec (.lastIdxLoRead p) s = .next ({ s.modLatches p (fun l => { l with lastIdx := some (s.reg F.TICK.LAST_IDX_HI.IDX_HI.addr) }) with rdata := [s.reg F.TICK.LAST_IDX_LO.IDX_LO.addr] }))
    ∧ (exec (.schedIdxLoRead p) s = .next ({ s.modLatches p (fun l => { l with schedIdx := some (reg32 (s.schedIdx / 2 ^ 32)) }) with rdata := [reg32 s.schedIdx] }))
    ∧ (exec (.takeoverIdxLoRead p) s = .next ({ s.modLatches p (fun l => { l with takeIdx := some (s.reg F.PAIR.TAKEOVER_IDX_HI.IDX_HI.addr) }) with rdata := [s.reg F.PAIR.TAKEOVER_IDX_LO.IDX_LO.addr] }))

/-- SAVE takes a snapshot for the copy that is not the newer valid one, which is not valid until verified; a good end puts it in place,
counts it and raises SLATH_SAVED, a failed one raises SLATH_WR_FAIL (R475). SLEEP on an AWAKE hub that leads enters ENTERING and ends
ticks; otherwise it sets IGNORED (R476). With no pass left the hub is ASLEEP, and a held WAKE wakes it (R476, R477). WAKE in ENTERING is
held; in ASLEEP it wakes a hub that leads, as WAKE_AT_SEC does when hub time reaches it (R476, R479). Front ends settle 1.4 ms (R480). A
sleeping standby wakes when HEALTH fails (R481). That a timed command lets time run on to its instant is the model's choice (log entry 6).
Where the words of the spec leave room it follows the readings of log entries 16 and 54, which are the model's. -/
def Obligations.SlathSavesAndSleep : Prop :=
  ∀ s : State, s.quiet = true → s.bit (F.HDR.INT_ROUTE.INBAND pgNVM) = false → s.bit (F.HDR.INT_ROUTE.INBAND pgTICK) = false →
    (s.power.saving = none → ∃ t, exec .slathSave s = .next t
        ∧ (t.power.saving.map (fun e => (e.1, e.2.image, e.2.marks, e.2.valid)) = some (targetCopy s.mram.slathNewer, (s.slathSnapshot 0).image, (s.slathSnapshot 0).marks, true))
        ∧ (t.mram.getSlath (targetCopy s.mram.slathNewer)).valid = false
        ∧ t.mram.getSlath (!targetCopy s.mram.slathNewer) = s.mram.getSlath (!targetCopy s.mram.slathNewer) ∧ t.regs = s.regs)
    ∧ (s.power.saving.isSome = true → exec .slathSave s = .next (s.otherWrite))
    ∧ (∀ (ok : Bool), s.power.saving = none → exec (.slathSaveDone ok) s = .next (s))
    ∧ (∀ (c : Bool) (x : SlathCopy), s.power.saving = some (c, x) → ∃ t, exec (.slathSaveDone true) s = .next t
        ∧ t.mram = s.mram.setSlath c x ∧ t.power.saving = none
        ∧ t.fld (F.NVM.SLATH_SAVE_CNT.CNT) = min (2 ^ (F.NVM.SLATH_SAVE_CNT.CNT).width - 1) (s.fld (F.NVM.SLATH_SAVE_CNT.CNT) + 1)
        ∧ t.fld F.NVM.SLATH_LAST_SAVE.SEC = s.time.sec % 2 ^ 32 ∧ (t.reg (0x1000 * pgNVM + 0x010)).getLsbD Irq.slathSaved.bit = true
        ∧ s.regsBut t [F.NVM.SLATH_SAVE_CNT.CNT.addr, F.NVM.SLATH_LAST_SAVE.SEC.addr, 0x1000 * pgNVM + 0x010])
    ∧ (∀ (c : Bool) (x : SlathCopy), s.power.saving = some (c, x) → ∃ t, exec (.slathSaveDone false) s = .next t ∧ t.mram = s.mram
        ∧ t.power.saving = none ∧ t.faultSet Flt.slathWrFail = true)
    ∧ (s.pwr = pwAwake → s.role = roleSolo → s.cal.dwell = none → ∃ t, exec .sleep s = .next t ∧ t.pwr = pwEntering ∧ t.gridSt = gridSleep
        ∧ t.fld (F.NVM.SLEEP_CNT.CNT) = min (2 ^ (F.NVM.SLEEP_CNT.CNT).width - 1) (s.fld (F.NVM.SLEEP_CNT.CNT) + 1)
        ∧ t.power.sleptAt = s.nowNs ∧ t.power.wakeHeld = false ∧ t.time = s.time)
    ∧ ((s.pwr ≠ pwAwake ∨ s.leads = false) → exec .sleep s = .next (s.otherWrite.setBit F.NVM.PWR_STS.IGNORED true))
    ∧ (s.pwr = pwEntering → s.anyPass = false → s.power.wakeHeld = false → s.wakeAtDue = false → ∃ t, exec .sleepEntered s = .next t
        ∧ t.pwr = pwAsleep ∧ (t.reg (0x1000 * pgNVM + 0x010)).getLsbD Irq.sleepEntered.bit = true
        ∧ s.regsBut t [F.NVM.PWR_STS.STATE.addr, 0x1000 * pgNVM + 0x010] ∧ t.time = s.time)
    ∧ ((s.pwr ≠ pwEntering ∨ s.anyPass = true) → exec .sleepEntered s = .next (s))
    ∧ (s.pwr = pwEntering → s.anyPass = false → s.power.wakeHeld = true → s.role = roleSolo → ∃ t, exec .sleepEntered s = .next t
        ∧ t.pwr = pwWaking ∧ t.fld F.NVM.PWR_STS.WAKE_CAUSE = wkWrite ∧ (t.reg (0x1000 * pgNVM + 0x010)).getLsbD Irq.sleepEntered.bit = true
        ∧ t.power.wokeAt = s.nowNs)
    ∧ (s.pwr ≠ pwEntering → (s.pwr ≠ pwAsleep ∨ s.follows = true) → exec .wake s = .next (s.otherWrite))
    ∧ ((s.pwr ≠ pwAsleep ∨ s.bit F.NVM.PWR_CTL.WAKE_AT_EN = false) → exec .wakeAt s = .next (s))
    ∧ (s.pwr ≠ pwWaking → exec .wakeSettled s = .next (s))
    ∧ ((s.pwr ≠ pwAsleep ∨ s.role ≠ roleStandby) → exec .healthLossWake s = .next (s))
    ∧ (s.pwr = pwEntering → exec .wake s = .next (s.otherWrite.modPower fun p => { p with wakeHeld := true }))
    ∧ (s.pwr = pwAsleep → s.role = roleSolo → ∃ t, exec .wake s = .next t ∧ t.pwr = pwWaking ∧ t.fld F.NVM.PWR_STS.WAKE_CAUSE = wkWrite
        ∧ t.bit F.NVM.PWR_CTL.WAKE_AT_EN = false ∧ t.power.wokeAt = s.nowNs ∧ t.grid.notBefore = (s.nowNs + 1400000) * 64 ∧ t.time = s.time)
    ∧ (s.pwr = pwAsleep → s.role = roleSolo → s.bit F.NVM.PWR_CTL.WAKE_AT_EN = true → s.time.sec < 2 ^ 48 → s.time.ns < nsPerSec →
        s.time.acc < 2 ^ 32 → ∃ t, exec .wakeAt s = .next t ∧ t.pwr = pwWaking ∧ t.fld F.NVM.PWR_STS.WAKE_CAUSE = wkAt
        ∧ s.wakeAtNs ≤ t.nowNs ∧ t.power.wokeAt = t.nowNs)
    ∧ (s.pwr = pwWaking → exec .wakeSettled s = .next (s.reachNs (s.power.wokeAt + 1400000)))
    ∧ (s.pwr = pwAsleep → s.role = roleStandby → ∃ t, exec .healthLossWake s = .next t ∧ t.pwr = pwWaking
        ∧ t.fld F.NVM.PWR_STS.WAKE_CAUSE = wkHealth ∧ t.pair.forceTake = true
        ∧ s.pair.healthAt.getD s.pair.roleAt + 1500000 ≤ t.time.cycles)

/-- RESET_N low holds every block at its reset values and keeps the queue of commands (R466). When it rises with PFW_N released, or when a
start-up that was abandoned restarts (R467), start-up runs: STRAP and TEST_EN are sampled, BIST_STS and the speed of the fabric are shown
(R468, R470); without a valid calibration copy calibration is STOPPED (R220), DONE and BOOT_DONE are set and the hub is AWAKE (R468,
R476); with one the self-test of step 7 begins, and its last SELFTEST_COMPLETE ends start-up so. With PFW_N asserted the rise abandons
start-up (R467). A measurement gives RATE and the least RATE seen (R463); RATE below the slow corner for more than 10 ms, from step 5 on,
raises FABRIC_SLOW once (R470). A boundary-scan instruction is in force at the pins, in reset too, and no register changes (R503). That
the steps of start-up are one or two commands is the model's choice (log entry 15), as is that a boundary-scan instruction is recorded
alone (log entry 66). -/
def Obligations.ResetStartUpFabricAndScan : Prop :=
  ∀ s : State, 
    (∃ t, exec .reset s = .next t ∧ t.power.held = true ∧ t.inReset = true ∧ t.blank = true ∧ t.pending = s.pending ∧ t.mram = s.mram
        ∧ t.regs = [] ∧ t.staged = [] ∧ t.time = {})
    ∧ (∀ (st te : Bool) (bf : BitVec 25) (r : BitVec 16), s.power.held = true → s.power.pfw = false → s.mram.calNewer = none →
        ∃ t, exec (.resetRelease st te bf r) s = .next t ∧ t.power.held = false ∧ t.power.abandoned = false
        ∧ t.bit F.PAIR.PAIR_STS.STRAP = st ∧ t.power.testEn = te ∧ t.pending = s.pending
        ∧ t.reg F.NVM.BIST_STS.CAPBANK.addr = bf.setWidth 32 ∧ t.fld F.CHIP.FABRIC_RATE.RATE = r.toNat ∧ t.pwr = pwAwake
        ∧ t.bit F.NVM.BOOT_STS.DONE = true ∧ 9 ≤ t.fld F.NVM.BOOT_STS.STEP
        ∧ (t.reg (0x1000 * pgNVM + 0x010)).getLsbD Irq.bootDone.bit = true ∧ t.calSt = calStopped)
    ∧ (∀ (st te : Bool) (bf : BitVec 25) (r : BitVec 16), s.power.held = true → s.power.pfw = false → s.mram.calNewer.isSome = true →
        ∃ t, exec (.resetRelease st te bf r) s = .next t ∧ t.power.held = false ∧ t.power.abandoned = false
        ∧ t.bit F.PAIR.PAIR_STS.STRAP = st ∧ t.power.testEn = te ∧ t.pending = s.pending
        ∧ t.reg F.NVM.BIST_STS.CAPBANK.addr = bf.setWidth 32 ∧ t.fld F.CHIP.FABRIC_RATE.RATE = r.toNat ∧ t.pwr = pwBoot
        ∧ t.bit F.NVM.BOOT_STS.DONE = false ∧ t.fld F.NVM.BOOT_STS.STEP = 6 ∧ t.calSt = calSelftest)
    ∧ (∀ (st te : Bool) (bf : BitVec 25) (r : BitVec 16), s.power.held = false →
        (s.power.abandoned = true ∨ s.fld F.NVM.BOOT_STS.STEP ≠ 0) → exec (.resetRelease st te bf r) s = .next (s))
    ∧ (∀ (st te : Bool) (bf : BitVec 25) (r : BitVec 16), s.power.held = true → s.power.pfw = true →
        ∃ t, exec (.resetRelease st te bf r) s = .next t ∧ t.power.abandoned = true ∧ t.power.held = false ∧ t.blank = true
        ∧ t.inReset = true ∧ t.pending = s.pending ∧ t.mram = s.mram)
    ∧ (∀ (st te : Bool) (bf : BitVec 25) (r : BitVec 16), s.power.abandoned = true → s.power.held = false → s.power.pfw = false →
        s.mram.calNewer = none → ∃ t, exec (.bootRestart st te bf r) s = .next t ∧ t.power.held = false ∧ t.power.abandoned = false
        ∧ t.bit F.PAIR.PAIR_STS.STRAP = st ∧ t.power.testEn = te ∧ t.pending = s.pending
        ∧ t.reg F.NVM.BIST_STS.CAPBANK.addr = bf.setWidth 32 ∧ t.fld F.CHIP.FABRIC_RATE.RATE = r.toNat ∧ t.pwr = pwAwake
        ∧ t.bit F.NVM.BOOT_STS.DONE = true ∧ 9 ≤ t.fld F.NVM.BOOT_STS.STEP
        ∧ (t.reg (0x1000 * pgNVM + 0x010)).getLsbD Irq.bootDone.bit = true ∧ t.calSt = calStopped)
    ∧ (∀ (st te : Bool) (bf : BitVec 25) (r : BitVec 16), s.power.abandoned = true → s.power.held = false → s.power.pfw = false →
        s.mram.calNewer.isSome = true → ∃ t, exec (.bootRestart st te bf r) s = .next t ∧ t.power.held = false ∧ t.power.abandoned = false
        ∧ t.bit F.PAIR.PAIR_STS.STRAP = st ∧ t.power.testEn = te ∧ t.pending = s.pending
        ∧ t.reg F.NVM.BIST_STS.CAPBANK.addr = bf.setWidth 32 ∧ t.fld F.CHIP.FABRIC_RATE.RATE = r.toNat ∧ t.pwr = pwBoot
        ∧ t.bit F.NVM.BOOT_STS.DONE = false ∧ t.fld F.NVM.BOOT_STS.STEP = 6 ∧ t.calSt = calSelftest)
    ∧ (∀ (st te : Bool) (bf : BitVec 25) (r : BitVec 16), (s.power.abandoned = false ∨ s.power.held = true ∨ s.power.pfw = true) →
        exec (.bootRestart st te bf r) s = .next (s))
    ∧ (∀ (sl : Fin 34) (r : SelfTest), s.quiet = true → s.booting = true → (s.selfTestDone sl.val r).calSt ≠ calSelftest →
        ∃ t, exec (.selftestComplete sl r) s = .next t ∧ t.pwr = pwAwake ∧ t.bit F.NVM.BOOT_STS.DONE = true ∧ 9 ≤ t.fld F.NVM.BOOT_STS.STEP
        ∧ (t.reg (0x1000 * pgNVM + 0x010)).getLsbD Irq.bootDone.bit = true)
    ∧ (∀ (r : BitVec 16), s.quiet = true → ∃ t, exec (.fabricRateMeasure r) s = .next t ∧ t.fld F.CHIP.FABRIC_RATE.RATE = r.toNat
        ∧ t.fld F.CHIP.FABRIC_RATE.RATE_MIN = min (s.fld F.CHIP.FABRIC_RATE.RATE_MIN) r.toNat ∧ s.regsBut t [F.CHIP.FABRIC_RATE.RATE.addr]
        ∧ (t.power = { s.power with slow := if r.toNat < 0x100 then s.power.slow.or (some (s.time.cycles, false)) else none })
        ∧ t.time = s.time)
    ∧ (∀ (c : Nat), s.quiet = true → s.bit (F.HDR.INT_ROUTE.INBAND pgNVM) = false → 5 ≤ s.fld F.NVM.BOOT_STS.STEP →
        s.power.slow = some (c, false) → ∃ t, exec .fabricSlow s = .next t ∧ t.faultSet Flt.fabricSlow = true ∧ c + 5000001 ≤ t.time.cycles
        ∧ t.power.slow = some (c, true))
    ∧ (s.quiet = true → (s.power.slow = none ∨ (s.power.slow.map Prod.snd) = some true ∨ s.fld F.NVM.BOOT_STS.STEP < 5) →
        exec .fabricSlow s = .next (s))
    ∧ (∀ (op : JtagOp), exec (.jtagInstruction op) s = .next (s.modPins fun p => { p with jtag := some op }))

/-! ## The rules of the tick grid as they stand (R83, R84) -/

/-- R83 whole: a commit of the TICK page whose staged TICK_PERIOD does not divide 1,000,000,000 or is below 8,000 is refused, and the
previous grid keeps running; TPS is 1,000,000,000 / TICK_PERIOD, at most 125,000, which it reaches. It is stated for states in which
nothing an earlier command has begun falls due, and pages named in the hypotheses route no interrupt in band. -/
def Obligations.TickPeriodIsChecked : Prop :=
  (∀ s : State, s.tps = 1000000000 / s.tickPeriod ∧ (s.tickPeriod ∣ 1000000000 → 8000 ≤ s.tickPeriod → s.tps ≤ 125000)
      ∧ (s.tickPeriod = 8000 → s.tps = 125000))
    ∧ ∀ s : State, s.quiet = true → s.bit (F.HDR.INT_ROUTE.INBAND pgCHIP) = false → s.bit (F.HDR.INT_ROUTE.INBAND pgRED) = false →
      s.commitOf pgTICK = none →
      ¬ (s.stgFld F.TICK.TICK_PERIOD.PERIOD ∣ 1000000000 ∧ 8000 ≤ s.stgFld F.TICK.TICK_PERIOD.PERIOD) →
      ∀ c ∈ [Instr.commit 0x003, Instr.commitAtTick 0x003], ∃ t, exec c s = .next t
        ∧ t.bit (F.HDR.STAGE_CTL.REFUSED pgTICK) = true ∧ t.fld (F.HDR.STAGE_CTL.REASON pgTICK) = 1
        ∧ t.tickPeriod = s.tickPeriod ∧ t.phaseTu = s.phaseTu ∧ t.grid = s.grid ∧ t.gridSt = s.gridSt ∧ t.commits = s.commits

/-- R84 whole: TICK_PHASE is PHASE_NS nanoseconds and FRAC units of 1/64 ns; a commit whose staged phase is not less than its staged
period is refused. It is stated for states in which nothing an earlier command has begun falls due, and pages named in the hypotheses
route no interrupt in band. -/
def Obligations.TickPhaseIsChecked : Prop :=
  (∀ s : State, s.phaseTu = s.fld F.TICK.TICK_PHASE.PHASE_NS * 64 + s.fld F.TICK.TICK_PHASE_FRAC.FRAC)
    ∧ ∀ s : State, s.quiet = true → s.bit (F.HDR.INT_ROUTE.INBAND pgCHIP) = false → s.bit (F.HDR.INT_ROUTE.INBAND pgRED) = false →
      s.commitOf pgTICK = none →
      s.stgFld F.TICK.TICK_PERIOD.PERIOD * 64 ≤ s.stgFld F.TICK.TICK_PHASE.PHASE_NS * 64 + s.stgFld F.TICK.TICK_PHASE_FRAC.FRAC →
      ∀ c ∈ [Instr.commit 0x003, Instr.commitAtTick 0x003], ∃ t, exec c s = .next t
        ∧ t.bit (F.HDR.STAGE_CTL.REFUSED pgTICK) = true ∧ t.fld (F.HDR.STAGE_CTL.REASON pgTICK) = 1
        ∧ t.tickPeriod = s.tickPeriod ∧ t.phaseTu = s.phaseTu ∧ t.grid = s.grid ∧ t.gridSt = s.gridSt ∧ t.commits = s.commits
end

