-- ==== Sys2Proof/Laws/Store.lean ====
section
/-!
SUPPORT. The laws of the sparse maps: read after write, and the canonical form that every write keeps. They hold registers, staged
values, instances, capture memory and queue memory.
-/

namespace Sys2Proof.Laws

open Sys2Proof.Machine

variable {α : Type}

@[simp] theorem sget_nil (d : α) (a : Nat) : sget d [] a = d := rfl

theorem sget_dropWhile (d : α) (m : List (Nat × α)) (a b : Nat) (h : a < b) :
    sget d (m.dropWhile fun e => decide (e.1 ≤ a)) b = sget d m b := by
  induction m with
  | nil => rfl
  | cons e m ih =>
    obtain ⟨k, w⟩ := e
    by_cases hk : k ≤ a
    · have h1 : ¬ b < k := by omega
      have h2 : ¬ b = k := by omega
      simp [List.dropWhile, hk, sget, h1, h2, ih]
    · simp [List.dropWhile, hk]

theorem sget_dropWhile_self (d : α) (m : List (Nat × α)) (a : Nat) (b : Nat) (h : b ≤ a) :
    sget d (m.dropWhile fun e => decide (e.1 ≤ a)) b = d := by
  induction m with
  | nil => rfl
  | cons e m ih =>
    obtain ⟨k, w⟩ := e
    by_cases hk : k ≤ a
    · simp [List.dropWhile, hk, ih]
    · have h1 : b < k := by omega
      simp [List.dropWhile, hk, sget, h1]

/-- Reading the key that was written gives the value written. -/
@[simp] theorem sget_sset_same [DecidableEq α] (d : α) (m : List (Nat × α)) (a : Nat) (v : α) : sget d (sset d m a v) a = v := by
  induction m with
  | nil => by_cases h : v = d <;> simp [sset, sget, h]
  | cons e m ih =>
    obtain ⟨k, w⟩ := e
    simp only [sset]
    split
    · rename_i h
      split <;> simp_all [sget]
    · split
      · split
        · rename_i h; rw [sget_dropWhile_self _ _ _ _ (le_refl a), h]
        · simp [sget]
      · rename_i h1 h2
        simp [sget, h1, h2, ih]

/-- Writing one key leaves every other key as it was, whatever the default of the other key. -/
theorem sget_sset_ne [DecidableEq α] (d d' : α) (m : List (Nat × α)) (a b : Nat) (v : α) (h : b ≠ a) :
    sget d' (sset d m a v) b = sget d' m b := by
  induction m with
  | nil =>
    by_cases hv : v = d
    · simp [sset, hv]
    · simp only [sset, hv, if_false, sget]
      split <;> simp
  | cons e m ih =>
    obtain ⟨k, w⟩ := e
    simp only [sset]
    split
    · rename_i hk
      split
      · rfl
      · simp only [sget]
        by_cases h1 : b < a
        · have : b < k := by omega
          simp [h1, this]
        · simp [h1, h]
    · split
      · rename_i hk hak
        subst hak
        split
        · by_cases h1 : b < a
          · rw [sget_dropWhile_self _ _ _ _ (by omega)]; simp [sget, h1]
          · rw [sget_dropWhile _ _ _ _ (by omega)]; simp [sget, h1, h]
        · by_cases h1 : b < a
          · simp [sget, h1]
          · rw [sget, if_neg h1, if_neg h, sget_dropWhile _ _ _ _ (by omega), sget, if_neg h1, if_neg h]
      · simp only [sget, ih]

/-- Both cases of a read after a write. -/
theorem sget_sset [DecidableEq α] (d : Nat → α) (m : List (Nat × α)) (a b : Nat) (v : α) :
    sget (d b) (sset (d a) m a v) b = if b = a then v else sget (d b) m b := by
  split
  · next h => subst h; simp
  · next h => exact sget_sset_ne _ _ _ _ _ _ h

theorem swfFrom_mono [DecidableEq α] (d : Nat → α) (lo lo' : Nat) (m : List (Nat × α)) (h : lo ≤ lo') (hm : swfFrom d lo' m = true) :
    swfFrom d lo m = true := by
  cases m with
  | nil => rfl
  | cons e m =>
    obtain ⟨k, v⟩ := e
    simp only [swfFrom, Bool.and_eq_true, decide_eq_true_eq] at hm ⊢
    exact ⟨⟨by omega, hm.1.2⟩, hm.2⟩

theorem swfFrom_dropWhile [DecidableEq α] (d : Nat → α) (a lo : Nat) (m : List (Nat × α)) (hlo : a + 1 ≤ lo)
    (hm : swfFrom d lo m = true) : swfFrom d (a + 1) (m.dropWhile fun e => decide (e.1 ≤ a)) = true := by
  cases m with
  | nil => rfl
  | cons e m =>
    obtain ⟨k, v⟩ := e
    have hk : lo ≤ k := by simp [swfFrom] at hm; exact hm.1.1
    have hka : ¬ k ≤ a := by omega
    rw [List.dropWhile_cons, if_neg (by simpa using hka)]
    exact swfFrom_mono d _ _ _ hlo hm

theorem swfFrom_sset [DecidableEq α] (d : Nat → α) (lo : Nat) (m : List (Nat × α)) (a : Nat) (v : α) (ha : lo ≤ a)
    (hm : swfFrom d lo m = true) : swfFrom d lo (sset (d a) m a v) = true := by
  induction m generalizing lo with
  | nil => by_cases h : v = d a <;> simp [sset, swfFrom, h, ha]
  | cons e m ih =>
    obtain ⟨k, w⟩ := e
    have hm' := hm
    simp only [swfFrom, Bool.and_eq_true, decide_eq_true_eq] at hm
    obtain ⟨⟨h1, h2⟩, h3⟩ := hm
    simp only [sset]
    split
    · next hak =>
      split
      · exact hm'
      · next hv =>
        simp only [swfFrom, Bool.and_eq_true, decide_eq_true_eq]
        exact ⟨⟨ha, hv⟩, ⟨by omega, h2⟩, h3⟩
    · split
      · next hak hk =>
        subst hk
        have hd := swfFrom_dropWhile d a (a + 1) m (le_refl _) h3
        split
        · exact swfFrom_mono d lo (a + 1) _ (by omega) hd
        · next hv =>
          simp only [swfFrom, Bool.and_eq_true, decide_eq_true_eq]
          exact ⟨⟨ha, hv⟩, hd⟩
      · simp only [swfFrom, Bool.and_eq_true, decide_eq_true_eq]
        exact ⟨⟨h1, h2⟩, ih (k + 1) (by omega) h3⟩

/-- Every write keeps the canonical form. -/
theorem swf_sset [DecidableEq α] (d : Nat → α) (m : List (Nat × α)) (a : Nat) (v : α) (hm : swf d m = true) :
    swf d (sset (d a) m a v) = true := swfFrom_sset d 0 m a v (Nat.zero_le a) hm

end Sys2Proof.Laws
end

