-- ==== Sys2Proof/Laws/Fields.lean ====
section
/-!
SUPPORT. The laws of register fields: what a read of a register or of a field gives after a write of one.
-/

namespace Sys2Proof.Laws

open Sys2Proof Sys2Proof.Machine

theorem fieldMask_getLsbD (lo w i : Nat) (hi : i < 32) : (fieldMask lo w).getLsbD i = decide (lo ≤ i ∧ i < lo + w) := by
  rw [fieldMask, BitVec.getLsbD_ofNat, Nat.testBit_shiftLeft, Nat.testBit_two_pow_sub_one, Bool.eq_iff_iff]
  simp only [Bool.and_eq_true, decide_eq_true_eq]
  omega

theorem putBits_getLsbD (v : Reg) (lo w x i : Nat) (hi : i < 32) :
    (putBits v lo w x).getLsbD i = if lo ≤ i ∧ i < lo + w then x.testBit (i - lo) else v.getLsbD i := by
  rw [putBits, BitVec.getLsbD_or, BitVec.getLsbD_and, BitVec.getLsbD_not, fieldMask_getLsbD _ _ _ hi, BitVec.getLsbD_ofNat,
    Nat.testBit_shiftLeft, Nat.testBit_mod_two_pow]
  by_cases h : lo ≤ i ∧ i < lo + w
  · have h1 : i - lo < w := by omega
    simp [h, hi, h1]
  · by_cases h1 : lo ≤ i
    · have h2 : ¬ i - lo < w := by omega
      have h3 : ¬ i < lo + w := by omega
      simp [h1, h2, h3, hi]
    · simp [h1, hi]

theorem getBits_testBit (v : Reg) (lo w i : Nat) : (getBits v lo w).testBit i = (decide (i < w) && v.getLsbD (lo + i)) := by
  rw [getBits, Nat.testBit_mod_two_pow, Nat.testBit_shiftRight, BitVec.getLsbD]

/-- A field reads back what was put into it. -/
theorem getBits_putBits_same (v : Reg) (lo w x : Nat) (h : lo + w ≤ 32) : getBits (putBits v lo w x) lo w = x % 2 ^ w := by
  apply Nat.eq_of_testBit_eq
  intro i
  rw [getBits_testBit, Nat.testBit_mod_two_pow]
  by_cases hi : i < w
  · rw [putBits_getLsbD _ _ _ _ _ (by omega), if_pos (by omega)]
    simp [hi]
  · simp [hi]

/-- A field is left alone by a write to a field beside it. -/
theorem getBits_putBits_disj (v : Reg) (lo w x lo' w' : Nat) (h : lo' + w' ≤ lo ∨ lo + w ≤ lo') :
    getBits (putBits v lo w x) lo' w' = getBits v lo' w' := by
  apply Nat.eq_of_testBit_eq
  intro i
  rw [getBits_testBit, getBits_testBit]
  by_cases hi : i < w'
  · by_cases h32 : lo' + i < 32
    · rw [putBits_getLsbD _ _ _ _ _ h32, if_neg (by omega)]
    · simp [BitVec.getLsbD_of_ge _ _ (Nat.le_of_not_lt h32)]
  · simp [hi]

theorem getBits_lt (v : Reg) (lo w : Nat) : getBits v lo w < 2 ^ w := Nat.mod_lt _ (Nat.two_pow_pos w)

/-- A whole register as one field. -/
@[simp] theorem getBits_all (v : Reg) : getBits v 0 32 = v.toNat := by
  simp [getBits, Nat.mod_eq_of_lt v.isLt]

/-! ## Registers -/

@[simp] theorem reg_setReg_same (s : State) (a : Nat) (v : Reg) : (s.setReg a v).reg a = v := sget_sset_same _ _ _ _

theorem reg_setReg_ne (s : State) (a b : Nat) (v : Reg) (h : b ≠ a) : (s.setReg a v).reg b = s.reg b :=
  sget_sset_ne _ _ _ _ _ _ h

@[simp] theorem stg_setStg_same (s : State) (a : Nat) (v : Reg) : (s.setStg a v).stg a = v := sget_sset_same _ _ _ _

theorem stg_setStg_ne (s : State) (a b : Nat) (v : Reg) (h : b ≠ a) : (s.setStg a v).stg b = s.stg b :=
  sget_sset_ne _ _ _ _ _ _ h

@[simp] theorem stg_setReg (s : State) (a b : Nat) (v : Reg) : (s.setReg a v).stg b = s.stg b := rfl
@[simp] theorem reg_setStg (s : State) (a b : Nat) (v : Reg) : (s.setStg a v).reg b = s.reg b := rfl

theorem reg_setFld_ne (s : State) (f : Fld) (b : Nat) (x : Nat) (h : b ≠ f.addr) : (s.setFld f x).reg b = s.reg b :=
  reg_setReg_ne _ _ _ _ h

@[simp] theorem stg_setFld (s : State) (f : Fld) (b : Nat) (x : Nat) : (s.setFld f x).stg b = s.stg b := rfl
@[simp] theorem stg_setBit (s : State) (f : Fld) (b : Nat) (x : Bool) : (s.setBit f x).stg b = s.stg b := rfl

theorem reg_setBit_ne (s : State) (f : Fld) (b : Nat) (x : Bool) (h : b ≠ f.addr) : (s.setBit f x).reg b = s.reg b :=
  reg_setReg_ne _ _ _ _ h

theorem reg_count_ne (s : State) (f : Fld) (b k : Nat) (h : b ≠ f.addr) : (s.count f k).reg b = s.reg b :=
  reg_setReg_ne _ _ _ _ h

/-! ## Fields -/

/-- Where a field lies whole in its register, it reads back the low bits of what was written. -/
theorem fld_setFld_same (s : State) (f : Fld) (x : Nat) (h : f.lo + f.width ≤ 32) : (s.setFld f x).fld f = x % 2 ^ f.width := by
  rw [State.fld, State.setFld, reg_setReg_same, getBits_putBits_same _ _ _ _ h]

theorem fld_setFld_addr (s : State) (f g : Fld) (x : Nat) (h : f.addr ≠ g.addr) : (s.setFld g x).fld f = s.fld f := by
  rw [State.fld, reg_setFld_ne _ _ _ _ h, State.fld]

/-- A write of a field leaves the other fields of its register, and the fields of every other register. -/
theorem fld_setFld_other (s : State) (f g : Fld) (x : Nat)
    (h : f.addr ≠ g.addr ∨ f.lo + f.width ≤ g.lo ∨ g.lo + g.width ≤ f.lo) : (s.setFld g x).fld f = s.fld f := by
  by_cases ha : f.addr = g.addr
  · have hd : f.lo + f.width ≤ g.lo ∨ g.lo + g.width ≤ f.lo := h.resolve_left fun hn => hn ha
    rw [State.fld, State.setFld, ha, reg_setReg_same, getBits_putBits_disj _ _ _ _ _ _ hd, State.fld, ha]
  · exact fld_setFld_addr s f g x ha

theorem bit_setBit_same (s : State) (f : Fld) (b : Bool) (h : f.lo + 1 ≤ 32) (hw : f.width = 1) : (s.setBit f b).bit f = b := by
  rw [State.bit, State.setBit, fld_setFld_same _ _ _ (by omega), hw]
  cases b <;> decide

theorem fld_setBit_same (s : State) (f : Fld) (b : Bool) (h : f.lo + 1 ≤ 32) (hw : f.width = 1) : (s.setBit f b).fld f = b2n b := by
  rw [State.setBit, fld_setFld_same _ _ _ (by omega), hw]
  cases b <;> rfl

theorem fld_setBit_other (s : State) (f g : Fld) (b : Bool)
    (h : f.addr ≠ g.addr ∨ f.lo + f.width ≤ g.lo ∨ g.lo + g.width ≤ f.lo) : (s.setBit g b).fld f = s.fld f :=
  fld_setFld_other s f g _ h

theorem bit_setBit_other (s : State) (f g : Fld) (b : Bool)
    (h : f.addr ≠ g.addr ∨ f.lo + f.width ≤ g.lo ∨ g.lo + g.width ≤ f.lo) : (s.setBit g b).bit f = s.bit f := by
  rw [State.bit, fld_setBit_other s f g b h, State.bit]

theorem bit_setFld_other (s : State) (f g : Fld) (x : Nat)
    (h : f.addr ≠ g.addr ∨ f.lo + f.width ≤ g.lo ∨ g.lo + g.width ≤ f.lo) : (s.setFld g x).bit f = s.bit f := by
  rw [State.bit, fld_setFld_other s f g x h, State.bit]

theorem fld_lt (s : State) (f : Fld) : s.fld f < 2 ^ f.width := getBits_lt _ _ _

/-- A counter takes the events, and stays at its highest value (R20). -/
theorem fld_count_same (s : State) (f : Fld) (k : Nat) (h : f.lo + f.width ≤ 32) :
    (s.count f k).fld f = min (2 ^ f.width - 1) (s.fld f + k) := by
  rw [State.count, fld_setFld_same _ _ _ h]
  have hp : 0 < 2 ^ f.width := Nat.two_pow_pos _
  unfold satNat
  split
  · rw [Nat.mod_eq_of_lt (by omega)]; omega
  · rw [Nat.mod_eq_of_lt (by omega)]; omega

theorem fld_count_other (s : State) (f g : Fld) (k : Nat)
    (h : f.addr ≠ g.addr ∨ f.lo + f.width ≤ g.lo ∨ g.lo + g.width ≤ f.lo) : (s.count g k).fld f = s.fld f :=
  fld_setFld_other s f g _ h

theorem bit_count_other (s : State) (f g : Fld) (k : Nat)
    (h : f.addr ≠ g.addr ∨ f.lo + f.width ≤ g.lo ∨ g.lo + g.width ≤ f.lo) : (s.count g k).bit f = s.bit f :=
  bit_setFld_other s f g _ h

/-- Register writes keep the canonical form of the register file. -/
theorem swf_setReg (s : State) (a : Nat) (v : Reg) (h : swf resetWord s.regs = true) : swf resetWord (s.setReg a v).regs = true :=
  swf_sset resetWord s.regs a v h

theorem swf_setFld (s : State) (f : Fld) (x : Nat) (h : swf resetWord s.regs = true) : swf resetWord (s.setFld f x).regs = true :=
  swf_setReg s _ _ h

end Sys2Proof.Laws
end

