-- ==== Sys2Proof/Laws/State.lean ====
section
/-!
SUPPORT. What each named update of the state leaves and what it writes: one lemma per field per update, each true by definition.
-/

namespace Sys2Proof.Laws

open Sys2Proof Sys2Proof.Machine

variable (s : State)

/-! ### setReg -/

@[simp] theorem setReg_pending (a : Nat) (v : Reg) : (s.setReg a v).pending = s.pending := rfl
@[simp] theorem setReg_time (a : Nat) (v : Reg) : (s.setReg a v).time = s.time := rfl
@[simp] theorem setReg_staged (a : Nat) (v : Reg) : (s.setReg a v).staged = s.staged := rfl
@[simp] theorem setReg_commits (a : Nat) (v : Reg) : (s.setReg a v).commits = s.commits := rfl
@[simp] theorem setReg_latchQ (a : Nat) (v : Reg) : (s.setReg a v).latchQ = s.latchQ := rfl
@[simp] theorem setReg_latchM (a : Nat) (v : Reg) : (s.setReg a v).latchM = s.latchM := rfl
@[simp] theorem setReg_rdata (a : Nat) (v : Reg) : (s.setReg a v).rdata = s.rdata := rfl
@[simp] theorem setReg_qspi (a : Nat) (v : Reg) : (s.setReg a v).qspi = s.qspi := rfl
@[simp] theorem setReg_pins (a : Nat) (v : Reg) : (s.setReg a v).pins = s.pins := rfl
@[simp] theorem setReg_servo (a : Nat) (v : Reg) : (s.setReg a v).servo = s.servo := rfl
@[simp] theorem setReg_ptp (a : Nat) (v : Reg) : (s.setReg a v).ptp = s.ptp := rfl
@[simp] theorem setReg_grid (a : Nat) (v : Reg) : (s.setReg a v).grid = s.grid := rfl
@[simp] theorem setReg_wale (a : Nat) (v : Reg) : (s.setReg a v).wale = s.wale := rfl
@[simp] theorem setReg_group (a : Nat) (v : Reg) : (s.setReg a v).group = s.group := rfl
@[simp] theorem setReg_chan (a : Nat) (v : Reg) : (s.setReg a v).chan = s.chan := rfl
@[simp] theorem setReg_slice (a : Nat) (v : Reg) : (s.setReg a v).slice = s.slice := rfl
@[simp] theorem setReg_sent (a : Nat) (v : Reg) : (s.setReg a v).sent = s.sent := rfl
@[simp] theorem setReg_sentQ (a : Nat) (v : Reg) : (s.setReg a v).sentQ = s.sentQ := rfl
@[simp] theorem setReg_cal (a : Nat) (v : Reg) : (s.setReg a v).cal = s.cal := rfl
@[simp] theorem setReg_trig (a : Nat) (v : Reg) : (s.setReg a v).trig = s.trig := rfl
@[simp] theorem setReg_ctx (a : Nat) (v : Reg) : (s.setReg a v).ctx = s.ctx := rfl
@[simp] theorem setReg_capMem (a : Nat) (v : Reg) : (s.setReg a v).capMem = s.capMem := rfl
@[simp] theorem setReg_capEcc (a : Nat) (v : Reg) : (s.setReg a v).capEcc = s.capEcc := rfl
@[simp] theorem setReg_queue (a : Nat) (v : Reg) : (s.setReg a v).queue = s.queue := rfl
@[simp] theorem setReg_firAt (a : Nat) (v : Reg) : (s.setReg a v).firAt = s.firAt := rfl
@[simp] theorem setReg_qmem (a : Nat) (v : Reg) : (s.setReg a v).qmem = s.qmem := rfl
@[simp] theorem setReg_arbMem (a : Nat) (v : Reg) : (s.setReg a v).arbMem = s.arbMem := rfl
@[simp] theorem setReg_arbTx (a : Nat) (v : Reg) : (s.setReg a v).arbTx = s.arbTx := rfl
@[simp] theorem setReg_net (a : Nat) (v : Reg) : (s.setReg a v).net = s.net := rfl
@[simp] theorem setReg_pair (a : Nat) (v : Reg) : (s.setReg a v).pair = s.pair := rfl
@[simp] theorem setReg_rim (a : Nat) (v : Reg) : (s.setReg a v).rim = s.rim := rfl
@[simp] theorem setReg_mram (a : Nat) (v : Reg) : (s.setReg a v).mram = s.mram := rfl
@[simp] theorem setReg_power (a : Nat) (v : Reg) : (s.setReg a v).power = s.power := rfl
@[simp] theorem setReg_free (a : Nat) (v : Reg) : (s.setReg a v).free = s.free := rfl
@[simp] theorem setReg_getChan (a : Nat) (v : Reg) (i : Nat) : (s.setReg a v).getChan i = s.getChan i := rfl
@[simp] theorem setReg_getGroup (a : Nat) (v : Reg) (i : Nat) : (s.setReg a v).getGroup i = s.getGroup i := rfl
@[simp] theorem setReg_getSlice (a : Nat) (v : Reg) (i : Nat) : (s.setReg a v).getSlice i = s.getSlice i := rfl
@[simp] theorem setReg_getSent (a : Nat) (v : Reg) (i : Nat) : (s.setReg a v).getSent i = s.getSent i := rfl
@[simp] theorem setReg_getCtx (a : Nat) (v : Reg) (i : Nat) : (s.setReg a v).getCtx i = s.getCtx i := rfl
@[simp] theorem setReg_getQ (a : Nat) (v : Reg) (i : Nat) : (s.setReg a v).getQ i = s.getQ i := rfl

/-! ### setStg -/

@[simp] theorem setStg_pending (a : Nat) (v : Reg) : (s.setStg a v).pending = s.pending := rfl
@[simp] theorem setStg_time (a : Nat) (v : Reg) : (s.setStg a v).time = s.time := rfl
@[simp] theorem setStg_regs (a : Nat) (v : Reg) : (s.setStg a v).regs = s.regs := rfl
@[simp] theorem setStg_commits (a : Nat) (v : Reg) : (s.setStg a v).commits = s.commits := rfl
@[simp] theorem setStg_latchQ (a : Nat) (v : Reg) : (s.setStg a v).latchQ = s.latchQ := rfl
@[simp] theorem setStg_latchM (a : Nat) (v : Reg) : (s.setStg a v).latchM = s.latchM := rfl
@[simp] theorem setStg_rdata (a : Nat) (v : Reg) : (s.setStg a v).rdata = s.rdata := rfl
@[simp] theorem setStg_qspi (a : Nat) (v : Reg) : (s.setStg a v).qspi = s.qspi := rfl
@[simp] theorem setStg_pins (a : Nat) (v : Reg) : (s.setStg a v).pins = s.pins := rfl
@[simp] theorem setStg_servo (a : Nat) (v : Reg) : (s.setStg a v).servo = s.servo := rfl
@[simp] theorem setStg_ptp (a : Nat) (v : Reg) : (s.setStg a v).ptp = s.ptp := rfl
@[simp] theorem setStg_grid (a : Nat) (v : Reg) : (s.setStg a v).grid = s.grid := rfl
@[simp] theorem setStg_wale (a : Nat) (v : Reg) : (s.setStg a v).wale = s.wale := rfl
@[simp] theorem setStg_group (a : Nat) (v : Reg) : (s.setStg a v).group = s.group := rfl
@[simp] theorem setStg_chan (a : Nat) (v : Reg) : (s.setStg a v).chan = s.chan := rfl
@[simp] theorem setStg_slice (a : Nat) (v : Reg) : (s.setStg a v).slice = s.slice := rfl
@[simp] theorem setStg_sent (a : Nat) (v : Reg) : (s.setStg a v).sent = s.sent := rfl
@[simp] theorem setStg_sentQ (a : Nat) (v : Reg) : (s.setStg a v).sentQ = s.sentQ := rfl
@[simp] theorem setStg_cal (a : Nat) (v : Reg) : (s.setStg a v).cal = s.cal := rfl
@[simp] theorem setStg_trig (a : Nat) (v : Reg) : (s.setStg a v).trig = s.trig := rfl
@[simp] theorem setStg_ctx (a : Nat) (v : Reg) : (s.setStg a v).ctx = s.ctx := rfl
@[simp] theorem setStg_capMem (a : Nat) (v : Reg) : (s.setStg a v).capMem = s.capMem := rfl
@[simp] theorem setStg_capEcc (a : Nat) (v : Reg) : (s.setStg a v).capEcc = s.capEcc := rfl
@[simp] theorem setStg_queue (a : Nat) (v : Reg) : (s.setStg a v).queue = s.queue := rfl
@[simp] theorem setStg_firAt (a : Nat) (v : Reg) : (s.setStg a v).firAt = s.firAt := rfl
@[simp] theorem setStg_qmem (a : Nat) (v : Reg) : (s.setStg a v).qmem = s.qmem := rfl
@[simp] theorem setStg_arbMem (a : Nat) (v : Reg) : (s.setStg a v).arbMem = s.arbMem := rfl
@[simp] theorem setStg_arbTx (a : Nat) (v : Reg) : (s.setStg a v).arbTx = s.arbTx := rfl
@[simp] theorem setStg_net (a : Nat) (v : Reg) : (s.setStg a v).net = s.net := rfl
@[simp] theorem setStg_pair (a : Nat) (v : Reg) : (s.setStg a v).pair = s.pair := rfl
@[simp] theorem setStg_rim (a : Nat) (v : Reg) : (s.setStg a v).rim = s.rim := rfl
@[simp] theorem setStg_mram (a : Nat) (v : Reg) : (s.setStg a v).mram = s.mram := rfl
@[simp] theorem setStg_power (a : Nat) (v : Reg) : (s.setStg a v).power = s.power := rfl
@[simp] theorem setStg_free (a : Nat) (v : Reg) : (s.setStg a v).free = s.free := rfl
@[simp] theorem setStg_fld (a : Nat) (v : Reg) (g0 : Fld) : (s.setStg a v).fld g0 = s.fld g0 := rfl
@[simp] theorem setStg_bit (a : Nat) (v : Reg) (g0 : Fld) : (s.setStg a v).bit g0 = s.bit g0 := rfl
@[simp] theorem setStg_sfld (a : Nat) (v : Reg) (g0 : Fld) : (s.setStg a v).sfld g0 = s.sfld g0 := rfl
@[simp] theorem setStg_getChan (a : Nat) (v : Reg) (i : Nat) : (s.setStg a v).getChan i = s.getChan i := rfl
@[simp] theorem setStg_getGroup (a : Nat) (v : Reg) (i : Nat) : (s.setStg a v).getGroup i = s.getGroup i := rfl
@[simp] theorem setStg_getSlice (a : Nat) (v : Reg) (i : Nat) : (s.setStg a v).getSlice i = s.getSlice i := rfl
@[simp] theorem setStg_getSent (a : Nat) (v : Reg) (i : Nat) : (s.setStg a v).getSent i = s.getSent i := rfl
@[simp] theorem setStg_getCtx (a : Nat) (v : Reg) (i : Nat) : (s.setStg a v).getCtx i = s.getCtx i := rfl
@[simp] theorem setStg_getQ (a : Nat) (v : Reg) (i : Nat) : (s.setStg a v).getQ i = s.getQ i := rfl

/-! ### setFld -/

@[simp] theorem setFld_pending (f : Fld) (x : Nat) : (s.setFld f x).pending = s.pending := rfl
@[simp] theorem setFld_time (f : Fld) (x : Nat) : (s.setFld f x).time = s.time := rfl
@[simp] theorem setFld_staged (f : Fld) (x : Nat) : (s.setFld f x).staged = s.staged := rfl
@[simp] theorem setFld_commits (f : Fld) (x : Nat) : (s.setFld f x).commits = s.commits := rfl
@[simp] theorem setFld_latchQ (f : Fld) (x : Nat) : (s.setFld f x).latchQ = s.latchQ := rfl
@[simp] theorem setFld_latchM (f : Fld) (x : Nat) : (s.setFld f x).latchM = s.latchM := rfl
@[simp] theorem setFld_rdata (f : Fld) (x : Nat) : (s.setFld f x).rdata = s.rdata := rfl
@[simp] theorem setFld_qspi (f : Fld) (x : Nat) : (s.setFld f x).qspi = s.qspi := rfl
@[simp] theorem setFld_pins (f : Fld) (x : Nat) : (s.setFld f x).pins = s.pins := rfl
@[simp] theorem setFld_servo (f : Fld) (x : Nat) : (s.setFld f x).servo = s.servo := rfl
@[simp] theorem setFld_ptp (f : Fld) (x : Nat) : (s.setFld f x).ptp = s.ptp := rfl
@[simp] theorem setFld_grid (f : Fld) (x : Nat) : (s.setFld f x).grid = s.grid := rfl
@[simp] theorem setFld_wale (f : Fld) (x : Nat) : (s.setFld f x).wale = s.wale := rfl
@[simp] theorem setFld_group (f : Fld) (x : Nat) : (s.setFld f x).group = s.group := rfl
@[simp] theorem setFld_chan (f : Fld) (x : Nat) : (s.setFld f x).chan = s.chan := rfl
@[simp] theorem setFld_slice (f : Fld) (x : Nat) : (s.setFld f x).slice = s.slice := rfl
@[simp] theorem setFld_sent (f : Fld) (x : Nat) : (s.setFld f x).sent = s.sent := rfl
@[simp] theorem setFld_sentQ (f : Fld) (x : Nat) : (s.setFld f x).sentQ = s.sentQ := rfl
@[simp] theorem setFld_cal (f : Fld) (x : Nat) : (s.setFld f x).cal = s.cal := rfl
@[simp] theorem setFld_trig (f : Fld) (x : Nat) : (s.setFld f x).trig = s.trig := rfl
@[simp] theorem setFld_ctx (f : Fld) (x : Nat) : (s.setFld f x).ctx = s.ctx := rfl
@[simp] theorem setFld_capMem (f : Fld) (x : Nat) : (s.setFld f x).capMem = s.capMem := rfl
@[simp] theorem setFld_capEcc (f : Fld) (x : Nat) : (s.setFld f x).capEcc = s.capEcc := rfl
@[simp] theorem setFld_queue (f : Fld) (x : Nat) : (s.setFld f x).queue = s.queue := rfl
@[simp] theorem setFld_firAt (f : Fld) (x : Nat) : (s.setFld f x).firAt = s.firAt := rfl
@[simp] theorem setFld_qmem (f : Fld) (x : Nat) : (s.setFld f x).qmem = s.qmem := rfl
@[simp] theorem setFld_arbMem (f : Fld) (x : Nat) : (s.setFld f x).arbMem = s.arbMem := rfl
@[simp] theorem setFld_arbTx (f : Fld) (x : Nat) : (s.setFld f x).arbTx = s.arbTx := rfl
@[simp] theorem setFld_net (f : Fld) (x : Nat) : (s.setFld f x).net = s.net := rfl
@[simp] theorem setFld_pair (f : Fld) (x : Nat) : (s.setFld f x).pair = s.pair := rfl
@[simp] theorem setFld_rim (f : Fld) (x : Nat) : (s.setFld f x).rim = s.rim := rfl
@[simp] theorem setFld_mram (f : Fld) (x : Nat) : (s.setFld f x).mram = s.mram := rfl
@[simp] theorem setFld_power (f : Fld) (x : Nat) : (s.setFld f x).power = s.power := rfl
@[simp] theorem setFld_free (f : Fld) (x : Nat) : (s.setFld f x).free = s.free := rfl
@[simp] theorem setFld_getChan (f : Fld) (x : Nat) (i : Nat) : (s.setFld f x).getChan i = s.getChan i := rfl
@[simp] theorem setFld_getGroup (f : Fld) (x : Nat) (i : Nat) : (s.setFld f x).getGroup i = s.getGroup i := rfl
@[simp] theorem setFld_getSlice (f : Fld) (x : Nat) (i : Nat) : (s.setFld f x).getSlice i = s.getSlice i := rfl
@[simp] theorem setFld_getSent (f : Fld) (x : Nat) (i : Nat) : (s.setFld f x).getSent i = s.getSent i := rfl
@[simp] theorem setFld_getCtx (f : Fld) (x : Nat) (i : Nat) : (s.setFld f x).getCtx i = s.getCtx i := rfl
@[simp] theorem setFld_getQ (f : Fld) (x : Nat) (i : Nat) : (s.setFld f x).getQ i = s.getQ i := rfl

/-! ### setBit -/

@[simp] theorem setBit_pending (f : Fld) (b : Bool) : (s.setBit f b).pending = s.pending := rfl
@[simp] theorem setBit_time (f : Fld) (b : Bool) : (s.setBit f b).time = s.time := rfl
@[simp] theorem setBit_staged (f : Fld) (b : Bool) : (s.setBit f b).staged = s.staged := rfl
@[simp] theorem setBit_commits (f : Fld) (b : Bool) : (s.setBit f b).commits = s.commits := rfl
@[simp] theorem setBit_latchQ (f : Fld) (b : Bool) : (s.setBit f b).latchQ = s.latchQ := rfl
@[simp] theorem setBit_latchM (f : Fld) (b : Bool) : (s.setBit f b).latchM = s.latchM := rfl
@[simp] theorem setBit_rdata (f : Fld) (b : Bool) : (s.setBit f b).rdata = s.rdata := rfl
@[simp] theorem setBit_qspi (f : Fld) (b : Bool) : (s.setBit f b).qspi = s.qspi := rfl
@[simp] theorem setBit_pins (f : Fld) (b : Bool) : (s.setBit f b).pins = s.pins := rfl
@[simp] theorem setBit_servo (f : Fld) (b : Bool) : (s.setBit f b).servo = s.servo := rfl
@[simp] theorem setBit_ptp (f : Fld) (b : Bool) : (s.setBit f b).ptp = s.ptp := rfl
@[simp] theorem setBit_grid (f : Fld) (b : Bool) : (s.setBit f b).grid = s.grid := rfl
@[simp] theorem setBit_wale (f : Fld) (b : Bool) : (s.setBit f b).wale = s.wale := rfl
@[simp] theorem setBit_group (f : Fld) (b : Bool) : (s.setBit f b).group = s.group := rfl
@[simp] theorem setBit_chan (f : Fld) (b : Bool) : (s.setBit f b).chan = s.chan := rfl
@[simp] theorem setBit_slice (f : Fld) (b : Bool) : (s.setBit f b).slice = s.slice := rfl
@[simp] theorem setBit_sent (f : Fld) (b : Bool) : (s.setBit f b).sent = s.sent := rfl
@[simp] theorem setBit_sentQ (f : Fld) (b : Bool) : (s.setBit f b).sentQ = s.sentQ := rfl
@[simp] theorem setBit_cal (f : Fld) (b : Bool) : (s.setBit f b).cal = s.cal := rfl
@[simp] theorem setBit_trig (f : Fld) (b : Bool) : (s.setBit f b).trig = s.trig := rfl
@[simp] theorem setBit_ctx (f : Fld) (b : Bool) : (s.setBit f b).ctx = s.ctx := rfl
@[simp] theorem setBit_capMem (f : Fld) (b : Bool) : (s.setBit f b).capMem = s.capMem := rfl
@[simp] theorem setBit_capEcc (f : Fld) (b : Bool) : (s.setBit f b).capEcc = s.capEcc := rfl
@[simp] theorem setBit_queue (f : Fld) (b : Bool) : (s.setBit f b).queue = s.queue := rfl
@[simp] theorem setBit_firAt (f : Fld) (b : Bool) : (s.setBit f b).firAt = s.firAt := rfl
@[simp] theorem setBit_qmem (f : Fld) (b : Bool) : (s.setBit f b).qmem = s.qmem := rfl
@[simp] theorem setBit_arbMem (f : Fld) (b : Bool) : (s.setBit f b).arbMem = s.arbMem := rfl
@[simp] theorem setBit_arbTx (f : Fld) (b : Bool) : (s.setBit f b).arbTx = s.arbTx := rfl
@[simp] theorem setBit_net (f : Fld) (b : Bool) : (s.setBit f b).net = s.net := rfl
@[simp] theorem setBit_pair (f : Fld) (b : Bool) : (s.setBit f b).pair = s.pair := rfl
@[simp] theorem setBit_rim (f : Fld) (b : Bool) : (s.setBit f b).rim = s.rim := rfl
@[simp] theorem setBit_mram (f : Fld) (b : Bool) : (s.setBit f b).mram = s.mram := rfl
@[simp] theorem setBit_power (f : Fld) (b : Bool) : (s.setBit f b).power = s.power := rfl
@[simp] theorem setBit_free (f : Fld) (b : Bool) : (s.setBit f b).free = s.free := rfl
@[simp] theorem setBit_getChan (f : Fld) (b : Bool) (i : Nat) : (s.setBit f b).getChan i = s.getChan i := rfl
@[simp] theorem setBit_getGroup (f : Fld) (b : Bool) (i : Nat) : (s.setBit f b).getGroup i = s.getGroup i := rfl
@[simp] theorem setBit_getSlice (f : Fld) (b : Bool) (i : Nat) : (s.setBit f b).getSlice i = s.getSlice i := rfl
@[simp] theorem setBit_getSent (f : Fld) (b : Bool) (i : Nat) : (s.setBit f b).getSent i = s.getSent i := rfl
@[simp] theorem setBit_getCtx (f : Fld) (b : Bool) (i : Nat) : (s.setBit f b).getCtx i = s.getCtx i := rfl
@[simp] theorem setBit_getQ (f : Fld) (b : Bool) (i : Nat) : (s.setBit f b).getQ i = s.getQ i := rfl

/-! ### setSfld -/

@[simp] theorem setSfld_pending (f : Fld) (x : Int) : (s.setSfld f x).pending = s.pending := rfl
@[simp] theorem setSfld_time (f : Fld) (x : Int) : (s.setSfld f x).time = s.time := rfl
@[simp] theorem setSfld_staged (f : Fld) (x : Int) : (s.setSfld f x).staged = s.staged := rfl
@[simp] theorem setSfld_commits (f : Fld) (x : Int) : (s.setSfld f x).commits = s.commits := rfl
@[simp] theorem setSfld_latchQ (f : Fld) (x : Int) : (s.setSfld f x).latchQ = s.latchQ := rfl
@[simp] theorem setSfld_latchM (f : Fld) (x : Int) : (s.setSfld f x).latchM = s.latchM := rfl
@[simp] theorem setSfld_rdata (f : Fld) (x : Int) : (s.setSfld f x).rdata = s.rdata := rfl
@[simp] theorem setSfld_qspi (f : Fld) (x : Int) : (s.setSfld f x).qspi = s.qspi := rfl
@[simp] theorem setSfld_pins (f : Fld) (x : Int) : (s.setSfld f x).pins = s.pins := rfl
@[simp] theorem setSfld_servo (f : Fld) (x : Int) : (s.setSfld f x).servo = s.servo := rfl
@[simp] theorem setSfld_ptp (f : Fld) (x : Int) : (s.setSfld f x).ptp = s.ptp := rfl
@[simp] theorem setSfld_grid (f : Fld) (x : Int) : (s.setSfld f x).grid = s.grid := rfl
@[simp] theorem setSfld_wale (f : Fld) (x : Int) : (s.setSfld f x).wale = s.wale := rfl
@[simp] theorem setSfld_group (f : Fld) (x : Int) : (s.setSfld f x).group = s.group := rfl
@[simp] theorem setSfld_chan (f : Fld) (x : Int) : (s.setSfld f x).chan = s.chan := rfl
@[simp] theorem setSfld_slice (f : Fld) (x : Int) : (s.setSfld f x).slice = s.slice := rfl
@[simp] theorem setSfld_sent (f : Fld) (x : Int) : (s.setSfld f x).sent = s.sent := rfl
@[simp] theorem setSfld_sentQ (f : Fld) (x : Int) : (s.setSfld f x).sentQ = s.sentQ := rfl
@[simp] theorem setSfld_cal (f : Fld) (x : Int) : (s.setSfld f x).cal = s.cal := rfl
@[simp] theorem setSfld_trig (f : Fld) (x : Int) : (s.setSfld f x).trig = s.trig := rfl
@[simp] theorem setSfld_ctx (f : Fld) (x : Int) : (s.setSfld f x).ctx = s.ctx := rfl
@[simp] theorem setSfld_capMem (f : Fld) (x : Int) : (s.setSfld f x).capMem = s.capMem := rfl
@[simp] theorem setSfld_capEcc (f : Fld) (x : Int) : (s.setSfld f x).capEcc = s.capEcc := rfl
@[simp] theorem setSfld_queue (f : Fld) (x : Int) : (s.setSfld f x).queue = s.queue := rfl
@[simp] theorem setSfld_firAt (f : Fld) (x : Int) : (s.setSfld f x).firAt = s.firAt := rfl
@[simp] theorem setSfld_qmem (f : Fld) (x : Int) : (s.setSfld f x).qmem = s.qmem := rfl
@[simp] theorem setSfld_arbMem (f : Fld) (x : Int) : (s.setSfld f x).arbMem = s.arbMem := rfl
@[simp] theorem setSfld_arbTx (f : Fld) (x : Int) : (s.setSfld f x).arbTx = s.arbTx := rfl
@[simp] theorem setSfld_net (f : Fld) (x : Int) : (s.setSfld f x).net = s.net := rfl
@[simp] theorem setSfld_pair (f : Fld) (x : Int) : (s.setSfld f x).pair = s.pair := rfl
@[simp] theorem setSfld_rim (f : Fld) (x : Int) : (s.setSfld f x).rim = s.rim := rfl
@[simp] theorem setSfld_mram (f : Fld) (x : Int) : (s.setSfld f x).mram = s.mram := rfl
@[simp] theorem setSfld_power (f : Fld) (x : Int) : (s.setSfld f x).power = s.power := rfl
@[simp] theorem setSfld_free (f : Fld) (x : Int) : (s.setSfld f x).free = s.free := rfl
@[simp] theorem setSfld_stg (f : Fld) (x : Int) (a0 : Nat) : (s.setSfld f x).stg a0 = s.stg a0 := rfl
@[simp] theorem setSfld_getChan (f : Fld) (x : Int) (i : Nat) : (s.setSfld f x).getChan i = s.getChan i := rfl
@[simp] theorem setSfld_getGroup (f : Fld) (x : Int) (i : Nat) : (s.setSfld f x).getGroup i = s.getGroup i := rfl
@[simp] theorem setSfld_getSlice (f : Fld) (x : Int) (i : Nat) : (s.setSfld f x).getSlice i = s.getSlice i := rfl
@[simp] theorem setSfld_getSent (f : Fld) (x : Int) (i : Nat) : (s.setSfld f x).getSent i = s.getSent i := rfl
@[simp] theorem setSfld_getCtx (f : Fld) (x : Int) (i : Nat) : (s.setSfld f x).getCtx i = s.getCtx i := rfl
@[simp] theorem setSfld_getQ (f : Fld) (x : Int) (i : Nat) : (s.setSfld f x).getQ i = s.getQ i := rfl

/-! ### count -/

@[simp] theorem count_pending (f : Fld) (k : Nat) : (s.count f k).pending = s.pending := rfl
@[simp] theorem count_time (f : Fld) (k : Nat) : (s.count f k).time = s.time := rfl
@[simp] theorem count_staged (f : Fld) (k : Nat) : (s.count f k).staged = s.staged := rfl
@[simp] theorem count_commits (f : Fld) (k : Nat) : (s.count f k).commits = s.commits := rfl
@[simp] theorem count_latchQ (f : Fld) (k : Nat) : (s.count f k).latchQ = s.latchQ := rfl
@[simp] theorem count_latchM (f : Fld) (k : Nat) : (s.count f k).latchM = s.latchM := rfl
@[simp] theorem count_rdata (f : Fld) (k : Nat) : (s.count f k).rdata = s.rdata := rfl
@[simp] theorem count_qspi (f : Fld) (k : Nat) : (s.count f k).qspi = s.qspi := rfl
@[simp] theorem count_pins (f : Fld) (k : Nat) : (s.count f k).pins = s.pins := rfl
@[simp] theorem count_servo (f : Fld) (k : Nat) : (s.count f k).servo = s.servo := rfl
@[simp] theorem count_ptp (f : Fld) (k : Nat) : (s.count f k).ptp = s.ptp := rfl
@[simp] theorem count_grid (f : Fld) (k : Nat) : (s.count f k).grid = s.grid := rfl
@[simp] theorem count_wale (f : Fld) (k : Nat) : (s.count f k).wale = s.wale := rfl
@[simp] theorem count_group (f : Fld) (k : Nat) : (s.count f k).group = s.group := rfl
@[simp] theorem count_chan (f : Fld) (k : Nat) : (s.count f k).chan = s.chan := rfl
@[simp] theorem count_slice (f : Fld) (k : Nat) : (s.count f k).slice = s.slice := rfl
@[simp] theorem count_sent (f : Fld) (k : Nat) : (s.count f k).sent = s.sent := rfl
@[simp] theorem count_sentQ (f : Fld) (k : Nat) : (s.count f k).sentQ = s.sentQ := rfl
@[simp] theorem count_cal (f : Fld) (k : Nat) : (s.count f k).cal = s.cal := rfl
@[simp] theorem count_trig (f : Fld) (k : Nat) : (s.count f k).trig = s.trig := rfl
@[simp] theorem count_ctx (f : Fld) (k : Nat) : (s.count f k).ctx = s.ctx := rfl
@[simp] theorem count_capMem (f : Fld) (k : Nat) : (s.count f k).capMem = s.capMem := rfl
@[simp] theorem count_capEcc (f : Fld) (k : Nat) : (s.count f k).capEcc = s.capEcc := rfl
@[simp] theorem count_queue (f : Fld) (k : Nat) : (s.count f k).queue = s.queue := rfl
@[simp] theorem count_firAt (f : Fld) (k : Nat) : (s.count f k).firAt = s.firAt := rfl
@[simp] theorem count_qmem (f : Fld) (k : Nat) : (s.count f k).qmem = s.qmem := rfl
@[simp] theorem count_arbMem (f : Fld) (k : Nat) : (s.count f k).arbMem = s.arbMem := rfl
@[simp] theorem count_arbTx (f : Fld) (k : Nat) : (s.count f k).arbTx = s.arbTx := rfl
@[simp] theorem count_net (f : Fld) (k : Nat) : (s.count f k).net = s.net := rfl
@[simp] theorem count_pair (f : Fld) (k : Nat) : (s.count f k).pair = s.pair := rfl
@[simp] theorem count_rim (f : Fld) (k : Nat) : (s.count f k).rim = s.rim := rfl
@[simp] theorem count_mram (f : Fld) (k : Nat) : (s.count f k).mram = s.mram := rfl
@[simp] theorem count_power (f : Fld) (k : Nat) : (s.count f k).power = s.power := rfl
@[simp] theorem count_free (f : Fld) (k : Nat) : (s.count f k).free = s.free := rfl
@[simp] theorem count_stg (f : Fld) (k : Nat) (a0 : Nat) : (s.count f k).stg a0 = s.stg a0 := rfl
@[simp] theorem count_getChan (f : Fld) (k : Nat) (i : Nat) : (s.count f k).getChan i = s.getChan i := rfl
@[simp] theorem count_getGroup (f : Fld) (k : Nat) (i : Nat) : (s.count f k).getGroup i = s.getGroup i := rfl
@[simp] theorem count_getSlice (f : Fld) (k : Nat) (i : Nat) : (s.count f k).getSlice i = s.getSlice i := rfl
@[simp] theorem count_getSent (f : Fld) (k : Nat) (i : Nat) : (s.count f k).getSent i = s.getSent i := rfl
@[simp] theorem count_getCtx (f : Fld) (k : Nat) (i : Nat) : (s.count f k).getCtx i = s.getCtx i := rfl
@[simp] theorem count_getQ (f : Fld) (k : Nat) (i : Nat) : (s.count f k).getQ i = s.getQ i := rfl

/-! ### setFld64 -/

@[simp] theorem setFld64_pending (l h : Fld) (x : Nat) : (s.setFld64 l h x).pending = s.pending := rfl
@[simp] theorem setFld64_time (l h : Fld) (x : Nat) : (s.setFld64 l h x).time = s.time := rfl
@[simp] theorem setFld64_staged (l h : Fld) (x : Nat) : (s.setFld64 l h x).staged = s.staged := rfl
@[simp] theorem setFld64_commits (l h : Fld) (x : Nat) : (s.setFld64 l h x).commits = s.commits := rfl
@[simp] theorem setFld64_latchQ (l h : Fld) (x : Nat) : (s.setFld64 l h x).latchQ = s.latchQ := rfl
@[simp] theorem setFld64_latchM (l h : Fld) (x : Nat) : (s.setFld64 l h x).latchM = s.latchM := rfl
@[simp] theorem setFld64_rdata (l h : Fld) (x : Nat) : (s.setFld64 l h x).rdata = s.rdata := rfl
@[simp] theorem setFld64_qspi (l h : Fld) (x : Nat) : (s.setFld64 l h x).qspi = s.qspi := rfl
@[simp] theorem setFld64_pins (l h : Fld) (x : Nat) : (s.setFld64 l h x).pins = s.pins := rfl
@[simp] theorem setFld64_servo (l h : Fld) (x : Nat) : (s.setFld64 l h x).servo = s.servo := rfl
@[simp] theorem setFld64_ptp (l h : Fld) (x : Nat) : (s.setFld64 l h x).ptp = s.ptp := rfl
@[simp] theorem setFld64_grid (l h : Fld) (x : Nat) : (s.setFld64 l h x).grid = s.grid := rfl
@[simp] theorem setFld64_wale (l h : Fld) (x : Nat) : (s.setFld64 l h x).wale = s.wale := rfl
@[simp] theorem setFld64_group (l h : Fld) (x : Nat) : (s.setFld64 l h x).group = s.group := rfl
@[simp] theorem setFld64_chan (l h : Fld) (x : Nat) : (s.setFld64 l h x).chan = s.chan := rfl
@[simp] theorem setFld64_slice (l h : Fld) (x : Nat) : (s.setFld64 l h x).slice = s.slice := rfl
@[simp] theorem setFld64_sent (l h : Fld) (x : Nat) : (s.setFld64 l h x).sent = s.sent := rfl
@[simp] theorem setFld64_sentQ (l h : Fld) (x : Nat) : (s.setFld64 l h x).sentQ = s.sentQ := rfl
@[simp] theorem setFld64_cal (l h : Fld) (x : Nat) : (s.setFld64 l h x).cal = s.cal := rfl
@[simp] theorem setFld64_trig (l h : Fld) (x : Nat) : (s.setFld64 l h x).trig = s.trig := rfl
@[simp] theorem setFld64_ctx (l h : Fld) (x : Nat) : (s.setFld64 l h x).ctx = s.ctx := rfl
@[simp] theorem setFld64_capMem (l h : Fld) (x : Nat) : (s.setFld64 l h x).capMem = s.capMem := rfl
@[simp] theorem setFld64_capEcc (l h : Fld) (x : Nat) : (s.setFld64 l h x).capEcc = s.capEcc := rfl
@[simp] theorem setFld64_queue (l h : Fld) (x : Nat) : (s.setFld64 l h x).queue = s.queue := rfl
@[simp] theorem setFld64_firAt (l h : Fld) (x : Nat) : (s.setFld64 l h x).firAt = s.firAt := rfl
@[simp] theorem setFld64_qmem (l h : Fld) (x : Nat) : (s.setFld64 l h x).qmem = s.qmem := rfl
@[simp] theorem setFld64_arbMem (l h : Fld) (x : Nat) : (s.setFld64 l h x).arbMem = s.arbMem := rfl
@[simp] theorem setFld64_arbTx (l h : Fld) (x : Nat) : (s.setFld64 l h x).arbTx = s.arbTx := rfl
@[simp] theorem setFld64_net (l h : Fld) (x : Nat) : (s.setFld64 l h x).net = s.net := rfl
@[simp] theorem setFld64_pair (l h : Fld) (x : Nat) : (s.setFld64 l h x).pair = s.pair := rfl
@[simp] theorem setFld64_rim (l h : Fld) (x : Nat) : (s.setFld64 l h x).rim = s.rim := rfl
@[simp] theorem setFld64_mram (l h : Fld) (x : Nat) : (s.setFld64 l h x).mram = s.mram := rfl
@[simp] theorem setFld64_power (l h : Fld) (x : Nat) : (s.setFld64 l h x).power = s.power := rfl
@[simp] theorem setFld64_free (l h : Fld) (x : Nat) : (s.setFld64 l h x).free = s.free := rfl
@[simp] theorem setFld64_stg (l h : Fld) (x : Nat) (a0 : Nat) : (s.setFld64 l h x).stg a0 = s.stg a0 := rfl
@[simp] theorem setFld64_getChan (l h : Fld) (x : Nat) (i : Nat) : (s.setFld64 l h x).getChan i = s.getChan i := rfl
@[simp] theorem setFld64_getGroup (l h : Fld) (x : Nat) (i : Nat) : (s.setFld64 l h x).getGroup i = s.getGroup i := rfl
@[simp] theorem setFld64_getSlice (l h : Fld) (x : Nat) (i : Nat) : (s.setFld64 l h x).getSlice i = s.getSlice i := rfl
@[simp] theorem setFld64_getSent (l h : Fld) (x : Nat) (i : Nat) : (s.setFld64 l h x).getSent i = s.getSent i := rfl
@[simp] theorem setFld64_getCtx (l h : Fld) (x : Nat) (i : Nat) : (s.setFld64 l h x).getCtx i = s.getCtx i := rfl
@[simp] theorem setFld64_getQ (l h : Fld) (x : Nat) (i : Nat) : (s.setFld64 l h x).getQ i = s.getQ i := rfl

/-! ### setChan -/

@[simp] theorem setChan_pending (n : Nat) (x : Chan) : (s.setChan n x).pending = s.pending := rfl
@[simp] theorem setChan_time (n : Nat) (x : Chan) : (s.setChan n x).time = s.time := rfl
@[simp] theorem setChan_regs (n : Nat) (x : Chan) : (s.setChan n x).regs = s.regs := rfl
@[simp] theorem setChan_staged (n : Nat) (x : Chan) : (s.setChan n x).staged = s.staged := rfl
@[simp] theorem setChan_commits (n : Nat) (x : Chan) : (s.setChan n x).commits = s.commits := rfl
@[simp] theorem setChan_latchQ (n : Nat) (x : Chan) : (s.setChan n x).latchQ = s.latchQ := rfl
@[simp] theorem setChan_latchM (n : Nat) (x : Chan) : (s.setChan n x).latchM = s.latchM := rfl
@[simp] theorem setChan_rdata (n : Nat) (x : Chan) : (s.setChan n x).rdata = s.rdata := rfl
@[simp] theorem setChan_qspi (n : Nat) (x : Chan) : (s.setChan n x).qspi = s.qspi := rfl
@[simp] theorem setChan_pins (n : Nat) (x : Chan) : (s.setChan n x).pins = s.pins := rfl
@[simp] theorem setChan_servo (n : Nat) (x : Chan) : (s.setChan n x).servo = s.servo := rfl
@[simp] theorem setChan_ptp (n : Nat) (x : Chan) : (s.setChan n x).ptp = s.ptp := rfl
@[simp] theorem setChan_grid (n : Nat) (x : Chan) : (s.setChan n x).grid = s.grid := rfl
@[simp] theorem setChan_wale (n : Nat) (x : Chan) : (s.setChan n x).wale = s.wale := rfl
@[simp] theorem setChan_group (n : Nat) (x : Chan) : (s.setChan n x).group = s.group := rfl
@[simp] theorem setChan_slice (n : Nat) (x : Chan) : (s.setChan n x).slice = s.slice := rfl
@[simp] theorem setChan_sent (n : Nat) (x : Chan) : (s.setChan n x).sent = s.sent := rfl
@[simp] theorem setChan_sentQ (n : Nat) (x : Chan) : (s.setChan n x).sentQ = s.sentQ := rfl
@[simp] theorem setChan_cal (n : Nat) (x : Chan) : (s.setChan n x).cal = s.cal := rfl
@[simp] theorem setChan_trig (n : Nat) (x : Chan) : (s.setChan n x).trig = s.trig := rfl
@[simp] theorem setChan_ctx (n : Nat) (x : Chan) : (s.setChan n x).ctx = s.ctx := rfl
@[simp] theorem setChan_capMem (n : Nat) (x : Chan) : (s.setChan n x).capMem = s.capMem := rfl
@[simp] theorem setChan_capEcc (n : Nat) (x : Chan) : (s.setChan n x).capEcc = s.capEcc := rfl
@[simp] theorem setChan_queue (n : Nat) (x : Chan) : (s.setChan n x).queue = s.queue := rfl
@[simp] theorem setChan_firAt (n : Nat) (x : Chan) : (s.setChan n x).firAt = s.firAt := rfl
@[simp] theorem setChan_qmem (n : Nat) (x : Chan) : (s.setChan n x).qmem = s.qmem := rfl
@[simp] theorem setChan_arbMem (n : Nat) (x : Chan) : (s.setChan n x).arbMem = s.arbMem := rfl
@[simp] theorem setChan_arbTx (n : Nat) (x : Chan) : (s.setChan n x).arbTx = s.arbTx := rfl
@[simp] theorem setChan_net (n : Nat) (x : Chan) : (s.setChan n x).net = s.net := rfl
@[simp] theorem setChan_pair (n : Nat) (x : Chan) : (s.setChan n x).pair = s.pair := rfl
@[simp] theorem setChan_rim (n : Nat) (x : Chan) : (s.setChan n x).rim = s.rim := rfl
@[simp] theorem setChan_mram (n : Nat) (x : Chan) : (s.setChan n x).mram = s.mram := rfl
@[simp] theorem setChan_power (n : Nat) (x : Chan) : (s.setChan n x).power = s.power := rfl
@[simp] theorem setChan_free (n : Nat) (x : Chan) : (s.setChan n x).free = s.free := rfl
@[simp] theorem setChan_reg (n : Nat) (x : Chan) (a0 : Nat) : (s.setChan n x).reg a0 = s.reg a0 := rfl
@[simp] theorem setChan_fld (n : Nat) (x : Chan) (g0 : Fld) : (s.setChan n x).fld g0 = s.fld g0 := rfl
@[simp] theorem setChan_bit (n : Nat) (x : Chan) (g0 : Fld) : (s.setChan n x).bit g0 = s.bit g0 := rfl
@[simp] theorem setChan_sfld (n : Nat) (x : Chan) (g0 : Fld) : (s.setChan n x).sfld g0 = s.sfld g0 := rfl
@[simp] theorem setChan_stg (n : Nat) (x : Chan) (a0 : Nat) : (s.setChan n x).stg a0 = s.stg a0 := rfl
@[simp] theorem setChan_getGroup (n : Nat) (x : Chan) (i : Nat) : (s.setChan n x).getGroup i = s.getGroup i := rfl
@[simp] theorem setChan_getSlice (n : Nat) (x : Chan) (i : Nat) : (s.setChan n x).getSlice i = s.getSlice i := rfl
@[simp] theorem setChan_getSent (n : Nat) (x : Chan) (i : Nat) : (s.setChan n x).getSent i = s.getSent i := rfl
@[simp] theorem setChan_getCtx (n : Nat) (x : Chan) (i : Nat) : (s.setChan n x).getCtx i = s.getCtx i := rfl
@[simp] theorem setChan_getQ (n : Nat) (x : Chan) (i : Nat) : (s.setChan n x).getQ i = s.getQ i := rfl

/-! ### modChan -/

@[simp] theorem modChan_pending (n : Nat) (f : Chan → Chan) : (s.modChan n f).pending = s.pending := rfl
@[simp] theorem modChan_time (n : Nat) (f : Chan → Chan) : (s.modChan n f).time = s.time := rfl
@[simp] theorem modChan_regs (n : Nat) (f : Chan → Chan) : (s.modChan n f).regs = s.regs := rfl
@[simp] theorem modChan_staged (n : Nat) (f : Chan → Chan) : (s.modChan n f).staged = s.staged := rfl
@[simp] theorem modChan_commits (n : Nat) (f : Chan → Chan) : (s.modChan n f).commits = s.commits := rfl
@[simp] theorem modChan_latchQ (n : Nat) (f : Chan → Chan) : (s.modChan n f).latchQ = s.latchQ := rfl
@[simp] theorem modChan_latchM (n : Nat) (f : Chan → Chan) : (s.modChan n f).latchM = s.latchM := rfl
@[simp] theorem modChan_rdata (n : Nat) (f : Chan → Chan) : (s.modChan n f).rdata = s.rdata := rfl
@[simp] theorem modChan_qspi (n : Nat) (f : Chan → Chan) : (s.modChan n f).qspi = s.qspi := rfl
@[simp] theorem modChan_pins (n : Nat) (f : Chan → Chan) : (s.modChan n f).pins = s.pins := rfl
@[simp] theorem modChan_servo (n : Nat) (f : Chan → Chan) : (s.modChan n f).servo = s.servo := rfl
@[simp] theorem modChan_ptp (n : Nat) (f : Chan → Chan) : (s.modChan n f).ptp = s.ptp := rfl
@[simp] theorem modChan_grid (n : Nat) (f : Chan → Chan) : (s.modChan n f).grid = s.grid := rfl
@[simp] theorem modChan_wale (n : Nat) (f : Chan → Chan) : (s.modChan n f).wale = s.wale := rfl
@[simp] theorem modChan_group (n : Nat) (f : Chan → Chan) : (s.modChan n f).group = s.group := rfl
@[simp] theorem modChan_slice (n : Nat) (f : Chan → Chan) : (s.modChan n f).slice = s.slice := rfl
@[simp] theorem modChan_sent (n : Nat) (f : Chan → Chan) : (s.modChan n f).sent = s.sent := rfl
@[simp] theorem modChan_sentQ (n : Nat) (f : Chan → Chan) : (s.modChan n f).sentQ = s.sentQ := rfl
@[simp] theorem modChan_cal (n : Nat) (f : Chan → Chan) : (s.modChan n f).cal = s.cal := rfl
@[simp] theorem modChan_trig (n : Nat) (f : Chan → Chan) : (s.modChan n f).trig = s.trig := rfl
@[simp] theorem modChan_ctx (n : Nat) (f : Chan → Chan) : (s.modChan n f).ctx = s.ctx := rfl
@[simp] theorem modChan_capMem (n : Nat) (f : Chan → Chan) : (s.modChan n f).capMem = s.capMem := rfl
@[simp] theorem modChan_capEcc (n : Nat) (f : Chan → Chan) : (s.modChan n f).capEcc = s.capEcc := rfl
@[simp] theorem modChan_queue (n : Nat) (f : Chan → Chan) : (s.modChan n f).queue = s.queue := rfl
@[simp] theorem modChan_firAt (n : Nat) (f : Chan → Chan) : (s.modChan n f).firAt = s.firAt := rfl
@[simp] theorem modChan_qmem (n : Nat) (f : Chan → Chan) : (s.modChan n f).qmem = s.qmem := rfl
@[simp] theorem modChan_arbMem (n : Nat) (f : Chan → Chan) : (s.modChan n f).arbMem = s.arbMem := rfl
@[simp] theorem modChan_arbTx (n : Nat) (f : Chan → Chan) : (s.modChan n f).arbTx = s.arbTx := rfl
@[simp] theorem modChan_net (n : Nat) (f : Chan → Chan) : (s.modChan n f).net = s.net := rfl
@[simp] theorem modChan_pair (n : Nat) (f : Chan → Chan) : (s.modChan n f).pair = s.pair := rfl
@[simp] theorem modChan_rim (n : Nat) (f : Chan → Chan) : (s.modChan n f).rim = s.rim := rfl
@[simp] theorem modChan_mram (n : Nat) (f : Chan → Chan) : (s.modChan n f).mram = s.mram := rfl
@[simp] theorem modChan_power (n : Nat) (f : Chan → Chan) : (s.modChan n f).power = s.power := rfl
@[simp] theorem modChan_free (n : Nat) (f : Chan → Chan) : (s.modChan n f).free = s.free := rfl
@[simp] theorem modChan_reg (n : Nat) (f : Chan → Chan) (a0 : Nat) : (s.modChan n f).reg a0 = s.reg a0 := rfl
@[simp] theorem modChan_fld (n : Nat) (f : Chan → Chan) (g0 : Fld) : (s.modChan n f).fld g0 = s.fld g0 := rfl
@[simp] theorem modChan_bit (n : Nat) (f : Chan → Chan) (g0 : Fld) : (s.modChan n f).bit g0 = s.bit g0 := rfl
@[simp] theorem modChan_sfld (n : Nat) (f : Chan → Chan) (g0 : Fld) : (s.modChan n f).sfld g0 = s.sfld g0 := rfl
@[simp] theorem modChan_stg (n : Nat) (f : Chan → Chan) (a0 : Nat) : (s.modChan n f).stg a0 = s.stg a0 := rfl
@[simp] theorem modChan_getGroup (n : Nat) (f : Chan → Chan) (i : Nat) : (s.modChan n f).getGroup i = s.getGroup i := rfl
@[simp] theorem modChan_getSlice (n : Nat) (f : Chan → Chan) (i : Nat) : (s.modChan n f).getSlice i = s.getSlice i := rfl
@[simp] theorem modChan_getSent (n : Nat) (f : Chan → Chan) (i : Nat) : (s.modChan n f).getSent i = s.getSent i := rfl
@[simp] theorem modChan_getCtx (n : Nat) (f : Chan → Chan) (i : Nat) : (s.modChan n f).getCtx i = s.getCtx i := rfl
@[simp] theorem modChan_getQ (n : Nat) (f : Chan → Chan) (i : Nat) : (s.modChan n f).getQ i = s.getQ i := rfl

/-! ### setGroup -/

@[simp] theorem setGroup_pending (n : Nat) (x : Group) : (s.setGroup n x).pending = s.pending := rfl
@[simp] theorem setGroup_time (n : Nat) (x : Group) : (s.setGroup n x).time = s.time := rfl
@[simp] theorem setGroup_regs (n : Nat) (x : Group) : (s.setGroup n x).regs = s.regs := rfl
@[simp] theorem setGroup_staged (n : Nat) (x : Group) : (s.setGroup n x).staged = s.staged := rfl
@[simp] theorem setGroup_commits (n : Nat) (x : Group) : (s.setGroup n x).commits = s.commits := rfl
@[simp] theorem setGroup_latchQ (n : Nat) (x : Group) : (s.setGroup n x).latchQ = s.latchQ := rfl
@[simp] theorem setGroup_latchM (n : Nat) (x : Group) : (s.setGroup n x).latchM = s.latchM := rfl
@[simp] theorem setGroup_rdata (n : Nat) (x : Group) : (s.setGroup n x).rdata = s.rdata := rfl
@[simp] theorem setGroup_qspi (n : Nat) (x : Group) : (s.setGroup n x).qspi = s.qspi := rfl
@[simp] theorem setGroup_pins (n : Nat) (x : Group) : (s.setGroup n x).pins = s.pins := rfl
@[simp] theorem setGroup_servo (n : Nat) (x : Group) : (s.setGroup n x).servo = s.servo := rfl
@[simp] theorem setGroup_ptp (n : Nat) (x : Group) : (s.setGroup n x).ptp = s.ptp := rfl
@[simp] theorem setGroup_grid (n : Nat) (x : Group) : (s.setGroup n x).grid = s.grid := rfl
@[simp] theorem setGroup_wale (n : Nat) (x : Group) : (s.setGroup n x).wale = s.wale := rfl
@[simp] theorem setGroup_chan (n : Nat) (x : Group) : (s.setGroup n x).chan = s.chan := rfl
@[simp] theorem setGroup_slice (n : Nat) (x : Group) : (s.setGroup n x).slice = s.slice := rfl
@[simp] theorem setGroup_sent (n : Nat) (x : Group) : (s.setGroup n x).sent = s.sent := rfl
@[simp] theorem setGroup_sentQ (n : Nat) (x : Group) : (s.setGroup n x).sentQ = s.sentQ := rfl
@[simp] theorem setGroup_cal (n : Nat) (x : Group) : (s.setGroup n x).cal = s.cal := rfl
@[simp] theorem setGroup_trig (n : Nat) (x : Group) : (s.setGroup n x).trig = s.trig := rfl
@[simp] theorem setGroup_ctx (n : Nat) (x : Group) : (s.setGroup n x).ctx = s.ctx := rfl
@[simp] theorem setGroup_capMem (n : Nat) (x : Group) : (s.setGroup n x).capMem = s.capMem := rfl
@[simp] theorem setGroup_capEcc (n : Nat) (x : Group) : (s.setGroup n x).capEcc = s.capEcc := rfl
@[simp] theorem setGroup_queue (n : Nat) (x : Group) : (s.setGroup n x).queue = s.queue := rfl
@[simp] theorem setGroup_firAt (n : Nat) (x : Group) : (s.setGroup n x).firAt = s.firAt := rfl
@[simp] theorem setGroup_qmem (n : Nat) (x : Group) : (s.setGroup n x).qmem = s.qmem := rfl
@[simp] theorem setGroup_arbMem (n : Nat) (x : Group) : (s.setGroup n x).arbMem = s.arbMem := rfl
@[simp] theorem setGroup_arbTx (n : Nat) (x : Group) : (s.setGroup n x).arbTx = s.arbTx := rfl
@[simp] theorem setGroup_net (n : Nat) (x : Group) : (s.setGroup n x).net = s.net := rfl
@[simp] theorem setGroup_pair (n : Nat) (x : Group) : (s.setGroup n x).pair = s.pair := rfl
@[simp] theorem setGroup_rim (n : Nat) (x : Group) : (s.setGroup n x).rim = s.rim := rfl
@[simp] theorem setGroup_mram (n : Nat) (x : Group) : (s.setGroup n x).mram = s.mram := rfl
@[simp] theorem setGroup_power (n : Nat) (x : Group) : (s.setGroup n x).power = s.power := rfl
@[simp] theorem setGroup_free (n : Nat) (x : Group) : (s.setGroup n x).free = s.free := rfl
@[simp] theorem setGroup_reg (n : Nat) (x : Group) (a0 : Nat) : (s.setGroup n x).reg a0 = s.reg a0 := rfl
@[simp] theorem setGroup_fld (n : Nat) (x : Group) (g0 : Fld) : (s.setGroup n x).fld g0 = s.fld g0 := rfl
@[simp] theorem setGroup_bit (n : Nat) (x : Group) (g0 : Fld) : (s.setGroup n x).bit g0 = s.bit g0 := rfl
@[simp] theorem setGroup_sfld (n : Nat) (x : Group) (g0 : Fld) : (s.setGroup n x).sfld g0 = s.sfld g0 := rfl
@[simp] theorem setGroup_stg (n : Nat) (x : Group) (a0 : Nat) : (s.setGroup n x).stg a0 = s.stg a0 := rfl
@[simp] theorem setGroup_getChan (n : Nat) (x : Group) (i : Nat) : (s.setGroup n x).getChan i = s.getChan i := rfl
@[simp] theorem setGroup_getSlice (n : Nat) (x : Group) (i : Nat) : (s.setGroup n x).getSlice i = s.getSlice i := rfl
@[simp] theorem setGroup_getSent (n : Nat) (x : Group) (i : Nat) : (s.setGroup n x).getSent i = s.getSent i := rfl
@[simp] theorem setGroup_getCtx (n : Nat) (x : Group) (i : Nat) : (s.setGroup n x).getCtx i = s.getCtx i := rfl
@[simp] theorem setGroup_getQ (n : Nat) (x : Group) (i : Nat) : (s.setGroup n x).getQ i = s.getQ i := rfl

/-! ### modGroup -/

@[simp] theorem modGroup_pending (n : Nat) (f : Group → Group) : (s.modGroup n f).pending = s.pending := rfl
@[simp] theorem modGroup_time (n : Nat) (f : Group → Group) : (s.modGroup n f).time = s.time := rfl
@[simp] theorem modGroup_regs (n : Nat) (f : Group → Group) : (s.modGroup n f).regs = s.regs := rfl
@[simp] theorem modGroup_staged (n : Nat) (f : Group → Group) : (s.modGroup n f).staged = s.staged := rfl
@[simp] theorem modGroup_commits (n : Nat) (f : Group → Group) : (s.modGroup n f).commits = s.commits := rfl
@[simp] theorem modGroup_latchQ (n : Nat) (f : Group → Group) : (s.modGroup n f).latchQ = s.latchQ := rfl
@[simp] theorem modGroup_latchM (n : Nat) (f : Group → Group) : (s.modGroup n f).latchM = s.latchM := rfl
@[simp] theorem modGroup_rdata (n : Nat) (f : Group → Group) : (s.modGroup n f).rdata = s.rdata := rfl
@[simp] theorem modGroup_qspi (n : Nat) (f : Group → Group) : (s.modGroup n f).qspi = s.qspi := rfl
@[simp] theorem modGroup_pins (n : Nat) (f : Group → Group) : (s.modGroup n f).pins = s.pins := rfl
@[simp] theorem modGroup_servo (n : Nat) (f : Group → Group) : (s.modGroup n f).servo = s.servo := rfl
@[simp] theorem modGroup_ptp (n : Nat) (f : Group → Group) : (s.modGroup n f).ptp = s.ptp := rfl
@[simp] theorem modGroup_grid (n : Nat) (f : Group → Group) : (s.modGroup n f).grid = s.grid := rfl
@[simp] theorem modGroup_wale (n : Nat) (f : Group → Group) : (s.modGroup n f).wale = s.wale := rfl
@[simp] theorem modGroup_chan (n : Nat) (f : Group → Group) : (s.modGroup n f).chan = s.chan := rfl
@[simp] theorem modGroup_slice (n : Nat) (f : Group → Group) : (s.modGroup n f).slice = s.slice := rfl
@[simp] theorem modGroup_sent (n : Nat) (f : Group → Group) : (s.modGroup n f).sent = s.sent := rfl
@[simp] theorem modGroup_sentQ (n : Nat) (f : Group → Group) : (s.modGroup n f).sentQ = s.sentQ := rfl
@[simp] theorem modGroup_cal (n : Nat) (f : Group → Group) : (s.modGroup n f).cal = s.cal := rfl
@[simp] theorem modGroup_trig (n : Nat) (f : Group → Group) : (s.modGroup n f).trig = s.trig := rfl
@[simp] theorem modGroup_ctx (n : Nat) (f : Group → Group) : (s.modGroup n f).ctx = s.ctx := rfl
@[simp] theorem modGroup_capMem (n : Nat) (f : Group → Group) : (s.modGroup n f).capMem = s.capMem := rfl
@[simp] theorem modGroup_capEcc (n : Nat) (f : Group → Group) : (s.modGroup n f).capEcc = s.capEcc := rfl
@[simp] theorem modGroup_queue (n : Nat) (f : Group → Group) : (s.modGroup n f).queue = s.queue := rfl
@[simp] theorem modGroup_firAt (n : Nat) (f : Group → Group) : (s.modGroup n f).firAt = s.firAt := rfl
@[simp] theorem modGroup_qmem (n : Nat) (f : Group → Group) : (s.modGroup n f).qmem = s.qmem := rfl
@[simp] theorem modGroup_arbMem (n : Nat) (f : Group → Group) : (s.modGroup n f).arbMem = s.arbMem := rfl
@[simp] theorem modGroup_arbTx (n : Nat) (f : Group → Group) : (s.modGroup n f).arbTx = s.arbTx := rfl
@[simp] theorem modGroup_net (n : Nat) (f : Group → Group) : (s.modGroup n f).net = s.net := rfl
@[simp] theorem modGroup_pair (n : Nat) (f : Group → Group) : (s.modGroup n f).pair = s.pair := rfl
@[simp] theorem modGroup_rim (n : Nat) (f : Group → Group) : (s.modGroup n f).rim = s.rim := rfl
@[simp] theorem modGroup_mram (n : Nat) (f : Group → Group) : (s.modGroup n f).mram = s.mram := rfl
@[simp] theorem modGroup_power (n : Nat) (f : Group → Group) : (s.modGroup n f).power = s.power := rfl
@[simp] theorem modGroup_free (n : Nat) (f : Group → Group) : (s.modGroup n f).free = s.free := rfl
@[simp] theorem modGroup_reg (n : Nat) (f : Group → Group) (a0 : Nat) : (s.modGroup n f).reg a0 = s.reg a0 := rfl
@[simp] theorem modGroup_fld (n : Nat) (f : Group → Group) (g0 : Fld) : (s.modGroup n f).fld g0 = s.fld g0 := rfl
@[simp] theorem modGroup_bit (n : Nat) (f : Group → Group) (g0 : Fld) : (s.modGroup n f).bit g0 = s.bit g0 := rfl
@[simp] theorem modGroup_sfld (n : Nat) (f : Group → Group) (g0 : Fld) : (s.modGroup n f).sfld g0 = s.sfld g0 := rfl
@[simp] theorem modGroup_stg (n : Nat) (f : Group → Group) (a0 : Nat) : (s.modGroup n f).stg a0 = s.stg a0 := rfl
@[simp] theorem modGroup_getChan (n : Nat) (f : Group → Group) (i : Nat) : (s.modGroup n f).getChan i = s.getChan i := rfl
@[simp] theorem modGroup_getSlice (n : Nat) (f : Group → Group) (i : Nat) : (s.modGroup n f).getSlice i = s.getSlice i := rfl
@[simp] theorem modGroup_getSent (n : Nat) (f : Group → Group) (i : Nat) : (s.modGroup n f).getSent i = s.getSent i := rfl
@[simp] theorem modGroup_getCtx (n : Nat) (f : Group → Group) (i : Nat) : (s.modGroup n f).getCtx i = s.getCtx i := rfl
@[simp] theorem modGroup_getQ (n : Nat) (f : Group → Group) (i : Nat) : (s.modGroup n f).getQ i = s.getQ i := rfl

/-! ### setSlice -/

@[simp] theorem setSlice_pending (n : Nat) (x : Slice) : (s.setSlice n x).pending = s.pending := rfl
@[simp] theorem setSlice_time (n : Nat) (x : Slice) : (s.setSlice n x).time = s.time := rfl
@[simp] theorem setSlice_regs (n : Nat) (x : Slice) : (s.setSlice n x).regs = s.regs := rfl
@[simp] theorem setSlice_staged (n : Nat) (x : Slice) : (s.setSlice n x).staged = s.staged := rfl
@[simp] theorem setSlice_commits (n : Nat) (x : Slice) : (s.setSlice n x).commits = s.commits := rfl
@[simp] theorem setSlice_latchQ (n : Nat) (x : Slice) : (s.setSlice n x).latchQ = s.latchQ := rfl
@[simp] theorem setSlice_latchM (n : Nat) (x : Slice) : (s.setSlice n x).latchM = s.latchM := rfl
@[simp] theorem setSlice_rdata (n : Nat) (x : Slice) : (s.setSlice n x).rdata = s.rdata := rfl
@[simp] theorem setSlice_qspi (n : Nat) (x : Slice) : (s.setSlice n x).qspi = s.qspi := rfl
@[simp] theorem setSlice_pins (n : Nat) (x : Slice) : (s.setSlice n x).pins = s.pins := rfl
@[simp] theorem setSlice_servo (n : Nat) (x : Slice) : (s.setSlice n x).servo = s.servo := rfl
@[simp] theorem setSlice_ptp (n : Nat) (x : Slice) : (s.setSlice n x).ptp = s.ptp := rfl
@[simp] theorem setSlice_grid (n : Nat) (x : Slice) : (s.setSlice n x).grid = s.grid := rfl
@[simp] theorem setSlice_wale (n : Nat) (x : Slice) : (s.setSlice n x).wale = s.wale := rfl
@[simp] theorem setSlice_group (n : Nat) (x : Slice) : (s.setSlice n x).group = s.group := rfl
@[simp] theorem setSlice_chan (n : Nat) (x : Slice) : (s.setSlice n x).chan = s.chan := rfl
@[simp] theorem setSlice_sent (n : Nat) (x : Slice) : (s.setSlice n x).sent = s.sent := rfl
@[simp] theorem setSlice_sentQ (n : Nat) (x : Slice) : (s.setSlice n x).sentQ = s.sentQ := rfl
@[simp] theorem setSlice_cal (n : Nat) (x : Slice) : (s.setSlice n x).cal = s.cal := rfl
@[simp] theorem setSlice_trig (n : Nat) (x : Slice) : (s.setSlice n x).trig = s.trig := rfl
@[simp] theorem setSlice_ctx (n : Nat) (x : Slice) : (s.setSlice n x).ctx = s.ctx := rfl
@[simp] theorem setSlice_capMem (n : Nat) (x : Slice) : (s.setSlice n x).capMem = s.capMem := rfl
@[simp] theorem setSlice_capEcc (n : Nat) (x : Slice) : (s.setSlice n x).capEcc = s.capEcc := rfl
@[simp] theorem setSlice_queue (n : Nat) (x : Slice) : (s.setSlice n x).queue = s.queue := rfl
@[simp] theorem setSlice_firAt (n : Nat) (x : Slice) : (s.setSlice n x).firAt = s.firAt := rfl
@[simp] theorem setSlice_qmem (n : Nat) (x : Slice) : (s.setSlice n x).qmem = s.qmem := rfl
@[simp] theorem setSlice_arbMem (n : Nat) (x : Slice) : (s.setSlice n x).arbMem = s.arbMem := rfl
@[simp] theorem setSlice_arbTx (n : Nat) (x : Slice) : (s.setSlice n x).arbTx = s.arbTx := rfl
@[simp] theorem setSlice_net (n : Nat) (x : Slice) : (s.setSlice n x).net = s.net := rfl
@[simp] theorem setSlice_pair (n : Nat) (x : Slice) : (s.setSlice n x).pair = s.pair := rfl
@[simp] theorem setSlice_rim (n : Nat) (x : Slice) : (s.setSlice n x).rim = s.rim := rfl
@[simp] theorem setSlice_mram (n : Nat) (x : Slice) : (s.setSlice n x).mram = s.mram := rfl
@[simp] theorem setSlice_power (n : Nat) (x : Slice) : (s.setSlice n x).power = s.power := rfl
@[simp] theorem setSlice_free (n : Nat) (x : Slice) : (s.setSlice n x).free = s.free := rfl
@[simp] theorem setSlice_reg (n : Nat) (x : Slice) (a0 : Nat) : (s.setSlice n x).reg a0 = s.reg a0 := rfl
@[simp] theorem setSlice_fld (n : Nat) (x : Slice) (g0 : Fld) : (s.setSlice n x).fld g0 = s.fld g0 := rfl
@[simp] theorem setSlice_bit (n : Nat) (x : Slice) (g0 : Fld) : (s.setSlice n x).bit g0 = s.bit g0 := rfl
@[simp] theorem setSlice_sfld (n : Nat) (x : Slice) (g0 : Fld) : (s.setSlice n x).sfld g0 = s.sfld g0 := rfl
@[simp] theorem setSlice_stg (n : Nat) (x : Slice) (a0 : Nat) : (s.setSlice n x).stg a0 = s.stg a0 := rfl
@[simp] theorem setSlice_getChan (n : Nat) (x : Slice) (i : Nat) : (s.setSlice n x).getChan i = s.getChan i := rfl
@[simp] theorem setSlice_getGroup (n : Nat) (x : Slice) (i : Nat) : (s.setSlice n x).getGroup i = s.getGroup i := rfl
@[simp] theorem setSlice_getSent (n : Nat) (x : Slice) (i : Nat) : (s.setSlice n x).getSent i = s.getSent i := rfl
@[simp] theorem setSlice_getCtx (n : Nat) (x : Slice) (i : Nat) : (s.setSlice n x).getCtx i = s.getCtx i := rfl
@[simp] theorem setSlice_getQ (n : Nat) (x : Slice) (i : Nat) : (s.setSlice n x).getQ i = s.getQ i := rfl

/-! ### modSlice -/

@[simp] theorem modSlice_pending (n : Nat) (f : Slice → Slice) : (s.modSlice n f).pending = s.pending := rfl
@[simp] theorem modSlice_time (n : Nat) (f : Slice → Slice) : (s.modSlice n f).time = s.time := rfl
@[simp] theorem modSlice_regs (n : Nat) (f : Slice → Slice) : (s.modSlice n f).regs = s.regs := rfl
@[simp] theorem modSlice_staged (n : Nat) (f : Slice → Slice) : (s.modSlice n f).staged = s.staged := rfl
@[simp] theorem modSlice_commits (n : Nat) (f : Slice → Slice) : (s.modSlice n f).commits = s.commits := rfl
@[simp] theorem modSlice_latchQ (n : Nat) (f : Slice → Slice) : (s.modSlice n f).latchQ = s.latchQ := rfl
@[simp] theorem modSlice_latchM (n : Nat) (f : Slice → Slice) : (s.modSlice n f).latchM = s.latchM := rfl
@[simp] theorem modSlice_rdata (n : Nat) (f : Slice → Slice) : (s.modSlice n f).rdata = s.rdata := rfl
@[simp] theorem modSlice_qspi (n : Nat) (f : Slice → Slice) : (s.modSlice n f).qspi = s.qspi := rfl
@[simp] theorem modSlice_pins (n : Nat) (f : Slice → Slice) : (s.modSlice n f).pins = s.pins := rfl
@[simp] theorem modSlice_servo (n : Nat) (f : Slice → Slice) : (s.modSlice n f).servo = s.servo := rfl
@[simp] theorem modSlice_ptp (n : Nat) (f : Slice → Slice) : (s.modSlice n f).ptp = s.ptp := rfl
@[simp] theorem modSlice_grid (n : Nat) (f : Slice → Slice) : (s.modSlice n f).grid = s.grid := rfl
@[simp] theorem modSlice_wale (n : Nat) (f : Slice → Slice) : (s.modSlice n f).wale = s.wale := rfl
@[simp] theorem modSlice_group (n : Nat) (f : Slice → Slice) : (s.modSlice n f).group = s.group := rfl
@[simp] theorem modSlice_chan (n : Nat) (f : Slice → Slice) : (s.modSlice n f).chan = s.chan := rfl
@[simp] theorem modSlice_sent (n : Nat) (f : Slice → Slice) : (s.modSlice n f).sent = s.sent := rfl
@[simp] theorem modSlice_sentQ (n : Nat) (f : Slice → Slice) : (s.modSlice n f).sentQ = s.sentQ := rfl
@[simp] theorem modSlice_cal (n : Nat) (f : Slice → Slice) : (s.modSlice n f).cal = s.cal := rfl
@[simp] theorem modSlice_trig (n : Nat) (f : Slice → Slice) : (s.modSlice n f).trig = s.trig := rfl
@[simp] theorem modSlice_ctx (n : Nat) (f : Slice → Slice) : (s.modSlice n f).ctx = s.ctx := rfl
@[simp] theorem modSlice_capMem (n : Nat) (f : Slice → Slice) : (s.modSlice n f).capMem = s.capMem := rfl
@[simp] theorem modSlice_capEcc (n : Nat) (f : Slice → Slice) : (s.modSlice n f).capEcc = s.capEcc := rfl
@[simp] theorem modSlice_queue (n : Nat) (f : Slice → Slice) : (s.modSlice n f).queue = s.queue := rfl
@[simp] theorem modSlice_firAt (n : Nat) (f : Slice → Slice) : (s.modSlice n f).firAt = s.firAt := rfl
@[simp] theorem modSlice_qmem (n : Nat) (f : Slice → Slice) : (s.modSlice n f).qmem = s.qmem := rfl
@[simp] theorem modSlice_arbMem (n : Nat) (f : Slice → Slice) : (s.modSlice n f).arbMem = s.arbMem := rfl
@[simp] theorem modSlice_arbTx (n : Nat) (f : Slice → Slice) : (s.modSlice n f).arbTx = s.arbTx := rfl
@[simp] theorem modSlice_net (n : Nat) (f : Slice → Slice) : (s.modSlice n f).net = s.net := rfl
@[simp] theorem modSlice_pair (n : Nat) (f : Slice → Slice) : (s.modSlice n f).pair = s.pair := rfl
@[simp] theorem modSlice_rim (n : Nat) (f : Slice → Slice) : (s.modSlice n f).rim = s.rim := rfl
@[simp] theorem modSlice_mram (n : Nat) (f : Slice → Slice) : (s.modSlice n f).mram = s.mram := rfl
@[simp] theorem modSlice_power (n : Nat) (f : Slice → Slice) : (s.modSlice n f).power = s.power := rfl
@[simp] theorem modSlice_free (n : Nat) (f : Slice → Slice) : (s.modSlice n f).free = s.free := rfl
@[simp] theorem modSlice_reg (n : Nat) (f : Slice → Slice) (a0 : Nat) : (s.modSlice n f).reg a0 = s.reg a0 := rfl
@[simp] theorem modSlice_fld (n : Nat) (f : Slice → Slice) (g0 : Fld) : (s.modSlice n f).fld g0 = s.fld g0 := rfl
@[simp] theorem modSlice_bit (n : Nat) (f : Slice → Slice) (g0 : Fld) : (s.modSlice n f).bit g0 = s.bit g0 := rfl
@[simp] theorem modSlice_sfld (n : Nat) (f : Slice → Slice) (g0 : Fld) : (s.modSlice n f).sfld g0 = s.sfld g0 := rfl
@[simp] theorem modSlice_stg (n : Nat) (f : Slice → Slice) (a0 : Nat) : (s.modSlice n f).stg a0 = s.stg a0 := rfl
@[simp] theorem modSlice_getChan (n : Nat) (f : Slice → Slice) (i : Nat) : (s.modSlice n f).getChan i = s.getChan i := rfl
@[simp] theorem modSlice_getGroup (n : Nat) (f : Slice → Slice) (i : Nat) : (s.modSlice n f).getGroup i = s.getGroup i := rfl
@[simp] theorem modSlice_getSent (n : Nat) (f : Slice → Slice) (i : Nat) : (s.modSlice n f).getSent i = s.getSent i := rfl
@[simp] theorem modSlice_getCtx (n : Nat) (f : Slice → Slice) (i : Nat) : (s.modSlice n f).getCtx i = s.getCtx i := rfl
@[simp] theorem modSlice_getQ (n : Nat) (f : Slice → Slice) (i : Nat) : (s.modSlice n f).getQ i = s.getQ i := rfl

/-! ### setSent -/

@[simp] theorem setSent_pending (n : Nat) (x : Sent) : (s.setSent n x).pending = s.pending := rfl
@[simp] theorem setSent_time (n : Nat) (x : Sent) : (s.setSent n x).time = s.time := rfl
@[simp] theorem setSent_regs (n : Nat) (x : Sent) : (s.setSent n x).regs = s.regs := rfl
@[simp] theorem setSent_staged (n : Nat) (x : Sent) : (s.setSent n x).staged = s.staged := rfl
@[simp] theorem setSent_commits (n : Nat) (x : Sent) : (s.setSent n x).commits = s.commits := rfl
@[simp] theorem setSent_latchQ (n : Nat) (x : Sent) : (s.setSent n x).latchQ = s.latchQ := rfl
@[simp] theorem setSent_latchM (n : Nat) (x : Sent) : (s.setSent n x).latchM = s.latchM := rfl
@[simp] theorem setSent_rdata (n : Nat) (x : Sent) : (s.setSent n x).rdata = s.rdata := rfl
@[simp] theorem setSent_qspi (n : Nat) (x : Sent) : (s.setSent n x).qspi = s.qspi := rfl
@[simp] theorem setSent_pins (n : Nat) (x : Sent) : (s.setSent n x).pins = s.pins := rfl
@[simp] theorem setSent_servo (n : Nat) (x : Sent) : (s.setSent n x).servo = s.servo := rfl
@[simp] theorem setSent_ptp (n : Nat) (x : Sent) : (s.setSent n x).ptp = s.ptp := rfl
@[simp] theorem setSent_grid (n : Nat) (x : Sent) : (s.setSent n x).grid = s.grid := rfl
@[simp] theorem setSent_wale (n : Nat) (x : Sent) : (s.setSent n x).wale = s.wale := rfl
@[simp] theorem setSent_group (n : Nat) (x : Sent) : (s.setSent n x).group = s.group := rfl
@[simp] theorem setSent_chan (n : Nat) (x : Sent) : (s.setSent n x).chan = s.chan := rfl
@[simp] theorem setSent_slice (n : Nat) (x : Sent) : (s.setSent n x).slice = s.slice := rfl
@[simp] theorem setSent_sentQ (n : Nat) (x : Sent) : (s.setSent n x).sentQ = s.sentQ := rfl
@[simp] theorem setSent_cal (n : Nat) (x : Sent) : (s.setSent n x).cal = s.cal := rfl
@[simp] theorem setSent_trig (n : Nat) (x : Sent) : (s.setSent n x).trig = s.trig := rfl
@[simp] theorem setSent_ctx (n : Nat) (x : Sent) : (s.setSent n x).ctx = s.ctx := rfl
@[simp] theorem setSent_capMem (n : Nat) (x : Sent) : (s.setSent n x).capMem = s.capMem := rfl
@[simp] theorem setSent_capEcc (n : Nat) (x : Sent) : (s.setSent n x).capEcc = s.capEcc := rfl
@[simp] theorem setSent_queue (n : Nat) (x : Sent) : (s.setSent n x).queue = s.queue := rfl
@[simp] theorem setSent_firAt (n : Nat) (x : Sent) : (s.setSent n x).firAt = s.firAt := rfl
@[simp] theorem setSent_qmem (n : Nat) (x : Sent) : (s.setSent n x).qmem = s.qmem := rfl
@[simp] theorem setSent_arbMem (n : Nat) (x : Sent) : (s.setSent n x).arbMem = s.arbMem := rfl
@[simp] theorem setSent_arbTx (n : Nat) (x : Sent) : (s.setSent n x).arbTx = s.arbTx := rfl
@[simp] theorem setSent_net (n : Nat) (x : Sent) : (s.setSent n x).net = s.net := rfl
@[simp] theorem setSent_pair (n : Nat) (x : Sent) : (s.setSent n x).pair = s.pair := rfl
@[simp] theorem setSent_rim (n : Nat) (x : Sent) : (s.setSent n x).rim = s.rim := rfl
@[simp] theorem setSent_mram (n : Nat) (x : Sent) : (s.setSent n x).mram = s.mram := rfl
@[simp] theorem setSent_power (n : Nat) (x : Sent) : (s.setSent n x).power = s.power := rfl
@[simp] theorem setSent_free (n : Nat) (x : Sent) : (s.setSent n x).free = s.free := rfl
@[simp] theorem setSent_reg (n : Nat) (x : Sent) (a0 : Nat) : (s.setSent n x).reg a0 = s.reg a0 := rfl
@[simp] theorem setSent_fld (n : Nat) (x : Sent) (g0 : Fld) : (s.setSent n x).fld g0 = s.fld g0 := rfl
@[simp] theorem setSent_bit (n : Nat) (x : Sent) (g0 : Fld) : (s.setSent n x).bit g0 = s.bit g0 := rfl
@[simp] theorem setSent_sfld (n : Nat) (x : Sent) (g0 : Fld) : (s.setSent n x).sfld g0 = s.sfld g0 := rfl
@[simp] theorem setSent_stg (n : Nat) (x : Sent) (a0 : Nat) : (s.setSent n x).stg a0 = s.stg a0 := rfl
@[simp] theorem setSent_getChan (n : Nat) (x : Sent) (i : Nat) : (s.setSent n x).getChan i = s.getChan i := rfl
@[simp] theorem setSent_getGroup (n : Nat) (x : Sent) (i : Nat) : (s.setSent n x).getGroup i = s.getGroup i := rfl
@[simp] theorem setSent_getSlice (n : Nat) (x : Sent) (i : Nat) : (s.setSent n x).getSlice i = s.getSlice i := rfl
@[simp] theorem setSent_getCtx (n : Nat) (x : Sent) (i : Nat) : (s.setSent n x).getCtx i = s.getCtx i := rfl
@[simp] theorem setSent_getQ (n : Nat) (x : Sent) (i : Nat) : (s.setSent n x).getQ i = s.getQ i := rfl

/-! ### modSent -/

@[simp] theorem modSent_pending (n : Nat) (f : Sent → Sent) : (s.modSent n f).pending = s.pending := rfl
@[simp] theorem modSent_time (n : Nat) (f : Sent → Sent) : (s.modSent n f).time = s.time := rfl
@[simp] theorem modSent_regs (n : Nat) (f : Sent → Sent) : (s.modSent n f).regs = s.regs := rfl
@[simp] theorem modSent_staged (n : Nat) (f : Sent → Sent) : (s.modSent n f).staged = s.staged := rfl
@[simp] theorem modSent_commits (n : Nat) (f : Sent → Sent) : (s.modSent n f).commits = s.commits := rfl
@[simp] theorem modSent_latchQ (n : Nat) (f : Sent → Sent) : (s.modSent n f).latchQ = s.latchQ := rfl
@[simp] theorem modSent_latchM (n : Nat) (f : Sent → Sent) : (s.modSent n f).latchM = s.latchM := rfl
@[simp] theorem modSent_rdata (n : Nat) (f : Sent → Sent) : (s.modSent n f).rdata = s.rdata := rfl
@[simp] theorem modSent_qspi (n : Nat) (f : Sent → Sent) : (s.modSent n f).qspi = s.qspi := rfl
@[simp] theorem modSent_pins (n : Nat) (f : Sent → Sent) : (s.modSent n f).pins = s.pins := rfl
@[simp] theorem modSent_servo (n : Nat) (f : Sent → Sent) : (s.modSent n f).servo = s.servo := rfl
@[simp] theorem modSent_ptp (n : Nat) (f : Sent → Sent) : (s.modSent n f).ptp = s.ptp := rfl
@[simp] theorem modSent_grid (n : Nat) (f : Sent → Sent) : (s.modSent n f).grid = s.grid := rfl
@[simp] theorem modSent_wale (n : Nat) (f : Sent → Sent) : (s.modSent n f).wale = s.wale := rfl
@[simp] theorem modSent_group (n : Nat) (f : Sent → Sent) : (s.modSent n f).group = s.group := rfl
@[simp] theorem modSent_chan (n : Nat) (f : Sent → Sent) : (s.modSent n f).chan = s.chan := rfl
@[simp] theorem modSent_slice (n : Nat) (f : Sent → Sent) : (s.modSent n f).slice = s.slice := rfl
@[simp] theorem modSent_sentQ (n : Nat) (f : Sent → Sent) : (s.modSent n f).sentQ = s.sentQ := rfl
@[simp] theorem modSent_cal (n : Nat) (f : Sent → Sent) : (s.modSent n f).cal = s.cal := rfl
@[simp] theorem modSent_trig (n : Nat) (f : Sent → Sent) : (s.modSent n f).trig = s.trig := rfl
@[simp] theorem modSent_ctx (n : Nat) (f : Sent → Sent) : (s.modSent n f).ctx = s.ctx := rfl
@[simp] theorem modSent_capMem (n : Nat) (f : Sent → Sent) : (s.modSent n f).capMem = s.capMem := rfl
@[simp] theorem modSent_capEcc (n : Nat) (f : Sent → Sent) : (s.modSent n f).capEcc = s.capEcc := rfl
@[simp] theorem modSent_queue (n : Nat) (f : Sent → Sent) : (s.modSent n f).queue = s.queue := rfl
@[simp] theorem modSent_firAt (n : Nat) (f : Sent → Sent) : (s.modSent n f).firAt = s.firAt := rfl
@[simp] theorem modSent_qmem (n : Nat) (f : Sent → Sent) : (s.modSent n f).qmem = s.qmem := rfl
@[simp] theorem modSent_arbMem (n : Nat) (f : Sent → Sent) : (s.modSent n f).arbMem = s.arbMem := rfl
@[simp] theorem modSent_arbTx (n : Nat) (f : Sent → Sent) : (s.modSent n f).arbTx = s.arbTx := rfl
@[simp] theorem modSent_net (n : Nat) (f : Sent → Sent) : (s.modSent n f).net = s.net := rfl
@[simp] theorem modSent_pair (n : Nat) (f : Sent → Sent) : (s.modSent n f).pair = s.pair := rfl
@[simp] theorem modSent_rim (n : Nat) (f : Sent → Sent) : (s.modSent n f).rim = s.rim := rfl
@[simp] theorem modSent_mram (n : Nat) (f : Sent → Sent) : (s.modSent n f).mram = s.mram := rfl
@[simp] theorem modSent_power (n : Nat) (f : Sent → Sent) : (s.modSent n f).power = s.power := rfl
@[simp] theorem modSent_free (n : Nat) (f : Sent → Sent) : (s.modSent n f).free = s.free := rfl
@[simp] theorem modSent_reg (n : Nat) (f : Sent → Sent) (a0 : Nat) : (s.modSent n f).reg a0 = s.reg a0 := rfl
@[simp] theorem modSent_fld (n : Nat) (f : Sent → Sent) (g0 : Fld) : (s.modSent n f).fld g0 = s.fld g0 := rfl
@[simp] theorem modSent_bit (n : Nat) (f : Sent → Sent) (g0 : Fld) : (s.modSent n f).bit g0 = s.bit g0 := rfl
@[simp] theorem modSent_sfld (n : Nat) (f : Sent → Sent) (g0 : Fld) : (s.modSent n f).sfld g0 = s.sfld g0 := rfl
@[simp] theorem modSent_stg (n : Nat) (f : Sent → Sent) (a0 : Nat) : (s.modSent n f).stg a0 = s.stg a0 := rfl
@[simp] theorem modSent_getChan (n : Nat) (f : Sent → Sent) (i : Nat) : (s.modSent n f).getChan i = s.getChan i := rfl
@[simp] theorem modSent_getGroup (n : Nat) (f : Sent → Sent) (i : Nat) : (s.modSent n f).getGroup i = s.getGroup i := rfl
@[simp] theorem modSent_getSlice (n : Nat) (f : Sent → Sent) (i : Nat) : (s.modSent n f).getSlice i = s.getSlice i := rfl
@[simp] theorem modSent_getCtx (n : Nat) (f : Sent → Sent) (i : Nat) : (s.modSent n f).getCtx i = s.getCtx i := rfl
@[simp] theorem modSent_getQ (n : Nat) (f : Sent → Sent) (i : Nat) : (s.modSent n f).getQ i = s.getQ i := rfl

/-! ### setCtx -/

@[simp] theorem setCtx_pending (n : Nat) (x : Ctx) : (s.setCtx n x).pending = s.pending := rfl
@[simp] theorem setCtx_time (n : Nat) (x : Ctx) : (s.setCtx n x).time = s.time := rfl
@[simp] theorem setCtx_regs (n : Nat) (x : Ctx) : (s.setCtx n x).regs = s.regs := rfl
@[simp] theorem setCtx_staged (n : Nat) (x : Ctx) : (s.setCtx n x).staged = s.staged := rfl
@[simp] theorem setCtx_commits (n : Nat) (x : Ctx) : (s.setCtx n x).commits = s.commits := rfl
@[simp] theorem setCtx_latchQ (n : Nat) (x : Ctx) : (s.setCtx n x).latchQ = s.latchQ := rfl
@[simp] theorem setCtx_latchM (n : Nat) (x : Ctx) : (s.setCtx n x).latchM = s.latchM := rfl
@[simp] theorem setCtx_rdata (n : Nat) (x : Ctx) : (s.setCtx n x).rdata = s.rdata := rfl
@[simp] theorem setCtx_qspi (n : Nat) (x : Ctx) : (s.setCtx n x).qspi = s.qspi := rfl
@[simp] theorem setCtx_pins (n : Nat) (x : Ctx) : (s.setCtx n x).pins = s.pins := rfl
@[simp] theorem setCtx_servo (n : Nat) (x : Ctx) : (s.setCtx n x).servo = s.servo := rfl
@[simp] theorem setCtx_ptp (n : Nat) (x : Ctx) : (s.setCtx n x).ptp = s.ptp := rfl
@[simp] theorem setCtx_grid (n : Nat) (x : Ctx) : (s.setCtx n x).grid = s.grid := rfl
@[simp] theorem setCtx_wale (n : Nat) (x : Ctx) : (s.setCtx n x).wale = s.wale := rfl
@[simp] theorem setCtx_group (n : Nat) (x : Ctx) : (s.setCtx n x).group = s.group := rfl
@[simp] theorem setCtx_chan (n : Nat) (x : Ctx) : (s.setCtx n x).chan = s.chan := rfl
@[simp] theorem setCtx_slice (n : Nat) (x : Ctx) : (s.setCtx n x).slice = s.slice := rfl
@[simp] theorem setCtx_sent (n : Nat) (x : Ctx) : (s.setCtx n x).sent = s.sent := rfl
@[simp] theorem setCtx_sentQ (n : Nat) (x : Ctx) : (s.setCtx n x).sentQ = s.sentQ := rfl
@[simp] theorem setCtx_cal (n : Nat) (x : Ctx) : (s.setCtx n x).cal = s.cal := rfl
@[simp] theorem setCtx_trig (n : Nat) (x : Ctx) : (s.setCtx n x).trig = s.trig := rfl
@[simp] theorem setCtx_capMem (n : Nat) (x : Ctx) : (s.setCtx n x).capMem = s.capMem := rfl
@[simp] theorem setCtx_capEcc (n : Nat) (x : Ctx) : (s.setCtx n x).capEcc = s.capEcc := rfl
@[simp] theorem setCtx_queue (n : Nat) (x : Ctx) : (s.setCtx n x).queue = s.queue := rfl
@[simp] theorem setCtx_firAt (n : Nat) (x : Ctx) : (s.setCtx n x).firAt = s.firAt := rfl
@[simp] theorem setCtx_qmem (n : Nat) (x : Ctx) : (s.setCtx n x).qmem = s.qmem := rfl
@[simp] theorem setCtx_arbMem (n : Nat) (x : Ctx) : (s.setCtx n x).arbMem = s.arbMem := rfl
@[simp] theorem setCtx_arbTx (n : Nat) (x : Ctx) : (s.setCtx n x).arbTx = s.arbTx := rfl
@[simp] theorem setCtx_net (n : Nat) (x : Ctx) : (s.setCtx n x).net = s.net := rfl
@[simp] theorem setCtx_pair (n : Nat) (x : Ctx) : (s.setCtx n x).pair = s.pair := rfl
@[simp] theorem setCtx_rim (n : Nat) (x : Ctx) : (s.setCtx n x).rim = s.rim := rfl
@[simp] theorem setCtx_mram (n : Nat) (x : Ctx) : (s.setCtx n x).mram = s.mram := rfl
@[simp] theorem setCtx_power (n : Nat) (x : Ctx) : (s.setCtx n x).power = s.power := rfl
@[simp] theorem setCtx_free (n : Nat) (x : Ctx) : (s.setCtx n x).free = s.free := rfl
@[simp] theorem setCtx_reg (n : Nat) (x : Ctx) (a0 : Nat) : (s.setCtx n x).reg a0 = s.reg a0 := rfl
@[simp] theorem setCtx_fld (n : Nat) (x : Ctx) (g0 : Fld) : (s.setCtx n x).fld g0 = s.fld g0 := rfl
@[simp] theorem setCtx_bit (n : Nat) (x : Ctx) (g0 : Fld) : (s.setCtx n x).bit g0 = s.bit g0 := rfl
@[simp] theorem setCtx_sfld (n : Nat) (x : Ctx) (g0 : Fld) : (s.setCtx n x).sfld g0 = s.sfld g0 := rfl
@[simp] theorem setCtx_stg (n : Nat) (x : Ctx) (a0 : Nat) : (s.setCtx n x).stg a0 = s.stg a0 := rfl
@[simp] theorem setCtx_getChan (n : Nat) (x : Ctx) (i : Nat) : (s.setCtx n x).getChan i = s.getChan i := rfl
@[simp] theorem setCtx_getGroup (n : Nat) (x : Ctx) (i : Nat) : (s.setCtx n x).getGroup i = s.getGroup i := rfl
@[simp] theorem setCtx_getSlice (n : Nat) (x : Ctx) (i : Nat) : (s.setCtx n x).getSlice i = s.getSlice i := rfl
@[simp] theorem setCtx_getSent (n : Nat) (x : Ctx) (i : Nat) : (s.setCtx n x).getSent i = s.getSent i := rfl
@[simp] theorem setCtx_getQ (n : Nat) (x : Ctx) (i : Nat) : (s.setCtx n x).getQ i = s.getQ i := rfl

/-! ### modCtx -/

@[simp] theorem modCtx_pending (n : Nat) (f : Ctx → Ctx) : (s.modCtx n f).pending = s.pending := rfl
@[simp] theorem modCtx_time (n : Nat) (f : Ctx → Ctx) : (s.modCtx n f).time = s.time := rfl
@[simp] theorem modCtx_regs (n : Nat) (f : Ctx → Ctx) : (s.modCtx n f).regs = s.regs := rfl
@[simp] theorem modCtx_staged (n : Nat) (f : Ctx → Ctx) : (s.modCtx n f).staged = s.staged := rfl
@[simp] theorem modCtx_commits (n : Nat) (f : Ctx → Ctx) : (s.modCtx n f).commits = s.commits := rfl
@[simp] theorem modCtx_latchQ (n : Nat) (f : Ctx → Ctx) : (s.modCtx n f).latchQ = s.latchQ := rfl
@[simp] theorem modCtx_latchM (n : Nat) (f : Ctx → Ctx) : (s.modCtx n f).latchM = s.latchM := rfl
@[simp] theorem modCtx_rdata (n : Nat) (f : Ctx → Ctx) : (s.modCtx n f).rdata = s.rdata := rfl
@[simp] theorem modCtx_qspi (n : Nat) (f : Ctx → Ctx) : (s.modCtx n f).qspi = s.qspi := rfl
@[simp] theorem modCtx_pins (n : Nat) (f : Ctx → Ctx) : (s.modCtx n f).pins = s.pins := rfl
@[simp] theorem modCtx_servo (n : Nat) (f : Ctx → Ctx) : (s.modCtx n f).servo = s.servo := rfl
@[simp] theorem modCtx_ptp (n : Nat) (f : Ctx → Ctx) : (s.modCtx n f).ptp = s.ptp := rfl
@[simp] theorem modCtx_grid (n : Nat) (f : Ctx → Ctx) : (s.modCtx n f).grid = s.grid := rfl
@[simp] theorem modCtx_wale (n : Nat) (f : Ctx → Ctx) : (s.modCtx n f).wale = s.wale := rfl
@[simp] theorem modCtx_group (n : Nat) (f : Ctx → Ctx) : (s.modCtx n f).group = s.group := rfl
@[simp] theorem modCtx_chan (n : Nat) (f : Ctx → Ctx) : (s.modCtx n f).chan = s.chan := rfl
@[simp] theorem modCtx_slice (n : Nat) (f : Ctx → Ctx) : (s.modCtx n f).slice = s.slice := rfl
@[simp] theorem modCtx_sent (n : Nat) (f : Ctx → Ctx) : (s.modCtx n f).sent = s.sent := rfl
@[simp] theorem modCtx_sentQ (n : Nat) (f : Ctx → Ctx) : (s.modCtx n f).sentQ = s.sentQ := rfl
@[simp] theorem modCtx_cal (n : Nat) (f : Ctx → Ctx) : (s.modCtx n f).cal = s.cal := rfl
@[simp] theorem modCtx_trig (n : Nat) (f : Ctx → Ctx) : (s.modCtx n f).trig = s.trig := rfl
@[simp] theorem modCtx_capMem (n : Nat) (f : Ctx → Ctx) : (s.modCtx n f).capMem = s.capMem := rfl
@[simp] theorem modCtx_capEcc (n : Nat) (f : Ctx → Ctx) : (s.modCtx n f).capEcc = s.capEcc := rfl
@[simp] theorem modCtx_queue (n : Nat) (f : Ctx → Ctx) : (s.modCtx n f).queue = s.queue := rfl
@[simp] theorem modCtx_firAt (n : Nat) (f : Ctx → Ctx) : (s.modCtx n f).firAt = s.firAt := rfl
@[simp] theorem modCtx_qmem (n : Nat) (f : Ctx → Ctx) : (s.modCtx n f).qmem = s.qmem := rfl
@[simp] theorem modCtx_arbMem (n : Nat) (f : Ctx → Ctx) : (s.modCtx n f).arbMem = s.arbMem := rfl
@[simp] theorem modCtx_arbTx (n : Nat) (f : Ctx → Ctx) : (s.modCtx n f).arbTx = s.arbTx := rfl
@[simp] theorem modCtx_net (n : Nat) (f : Ctx → Ctx) : (s.modCtx n f).net = s.net := rfl
@[simp] theorem modCtx_pair (n : Nat) (f : Ctx → Ctx) : (s.modCtx n f).pair = s.pair := rfl
@[simp] theorem modCtx_rim (n : Nat) (f : Ctx → Ctx) : (s.modCtx n f).rim = s.rim := rfl
@[simp] theorem modCtx_mram (n : Nat) (f : Ctx → Ctx) : (s.modCtx n f).mram = s.mram := rfl
@[simp] theorem modCtx_power (n : Nat) (f : Ctx → Ctx) : (s.modCtx n f).power = s.power := rfl
@[simp] theorem modCtx_free (n : Nat) (f : Ctx → Ctx) : (s.modCtx n f).free = s.free := rfl
@[simp] theorem modCtx_reg (n : Nat) (f : Ctx → Ctx) (a0 : Nat) : (s.modCtx n f).reg a0 = s.reg a0 := rfl
@[simp] theorem modCtx_fld (n : Nat) (f : Ctx → Ctx) (g0 : Fld) : (s.modCtx n f).fld g0 = s.fld g0 := rfl
@[simp] theorem modCtx_bit (n : Nat) (f : Ctx → Ctx) (g0 : Fld) : (s.modCtx n f).bit g0 = s.bit g0 := rfl
@[simp] theorem modCtx_sfld (n : Nat) (f : Ctx → Ctx) (g0 : Fld) : (s.modCtx n f).sfld g0 = s.sfld g0 := rfl
@[simp] theorem modCtx_stg (n : Nat) (f : Ctx → Ctx) (a0 : Nat) : (s.modCtx n f).stg a0 = s.stg a0 := rfl
@[simp] theorem modCtx_getChan (n : Nat) (f : Ctx → Ctx) (i : Nat) : (s.modCtx n f).getChan i = s.getChan i := rfl
@[simp] theorem modCtx_getGroup (n : Nat) (f : Ctx → Ctx) (i : Nat) : (s.modCtx n f).getGroup i = s.getGroup i := rfl
@[simp] theorem modCtx_getSlice (n : Nat) (f : Ctx → Ctx) (i : Nat) : (s.modCtx n f).getSlice i = s.getSlice i := rfl
@[simp] theorem modCtx_getSent (n : Nat) (f : Ctx → Ctx) (i : Nat) : (s.modCtx n f).getSent i = s.getSent i := rfl
@[simp] theorem modCtx_getQ (n : Nat) (f : Ctx → Ctx) (i : Nat) : (s.modCtx n f).getQ i = s.getQ i := rfl

/-! ### setQ -/

@[simp] theorem setQ_pending (n : Nat) (x : Queue) : (s.setQ n x).pending = s.pending := rfl
@[simp] theorem setQ_time (n : Nat) (x : Queue) : (s.setQ n x).time = s.time := rfl
@[simp] theorem setQ_regs (n : Nat) (x : Queue) : (s.setQ n x).regs = s.regs := rfl
@[simp] theorem setQ_staged (n : Nat) (x : Queue) : (s.setQ n x).staged = s.staged := rfl
@[simp] theorem setQ_commits (n : Nat) (x : Queue) : (s.setQ n x).commits = s.commits := rfl
@[simp] theorem setQ_latchQ (n : Nat) (x : Queue) : (s.setQ n x).latchQ = s.latchQ := rfl
@[simp] theorem setQ_latchM (n : Nat) (x : Queue) : (s.setQ n x).latchM = s.latchM := rfl
@[simp] theorem setQ_rdata (n : Nat) (x : Queue) : (s.setQ n x).rdata = s.rdata := rfl
@[simp] theorem setQ_qspi (n : Nat) (x : Queue) : (s.setQ n x).qspi = s.qspi := rfl
@[simp] theorem setQ_pins (n : Nat) (x : Queue) : (s.setQ n x).pins = s.pins := rfl
@[simp] theorem setQ_servo (n : Nat) (x : Queue) : (s.setQ n x).servo = s.servo := rfl
@[simp] theorem setQ_ptp (n : Nat) (x : Queue) : (s.setQ n x).ptp = s.ptp := rfl
@[simp] theorem setQ_grid (n : Nat) (x : Queue) : (s.setQ n x).grid = s.grid := rfl
@[simp] theorem setQ_wale (n : Nat) (x : Queue) : (s.setQ n x).wale = s.wale := rfl
@[simp] theorem setQ_group (n : Nat) (x : Queue) : (s.setQ n x).group = s.group := rfl
@[simp] theorem setQ_chan (n : Nat) (x : Queue) : (s.setQ n x).chan = s.chan := rfl
@[simp] theorem setQ_slice (n : Nat) (x : Queue) : (s.setQ n x).slice = s.slice := rfl
@[simp] theorem setQ_sent (n : Nat) (x : Queue) : (s.setQ n x).sent = s.sent := rfl
@[simp] theorem setQ_sentQ (n : Nat) (x : Queue) : (s.setQ n x).sentQ = s.sentQ := rfl
@[simp] theorem setQ_cal (n : Nat) (x : Queue) : (s.setQ n x).cal = s.cal := rfl
@[simp] theorem setQ_trig (n : Nat) (x : Queue) : (s.setQ n x).trig = s.trig := rfl
@[simp] theorem setQ_ctx (n : Nat) (x : Queue) : (s.setQ n x).ctx = s.ctx := rfl
@[simp] theorem setQ_capMem (n : Nat) (x : Queue) : (s.setQ n x).capMem = s.capMem := rfl
@[simp] theorem setQ_capEcc (n : Nat) (x : Queue) : (s.setQ n x).capEcc = s.capEcc := rfl
@[simp] theorem setQ_firAt (n : Nat) (x : Queue) : (s.setQ n x).firAt = s.firAt := rfl
@[simp] theorem setQ_qmem (n : Nat) (x : Queue) : (s.setQ n x).qmem = s.qmem := rfl
@[simp] theorem setQ_arbMem (n : Nat) (x : Queue) : (s.setQ n x).arbMem = s.arbMem := rfl
@[simp] theorem setQ_arbTx (n : Nat) (x : Queue) : (s.setQ n x).arbTx = s.arbTx := rfl
@[simp] theorem setQ_net (n : Nat) (x : Queue) : (s.setQ n x).net = s.net := rfl
@[simp] theorem setQ_pair (n : Nat) (x : Queue) : (s.setQ n x).pair = s.pair := rfl
@[simp] theorem setQ_rim (n : Nat) (x : Queue) : (s.setQ n x).rim = s.rim := rfl
@[simp] theorem setQ_mram (n : Nat) (x : Queue) : (s.setQ n x).mram = s.mram := rfl
@[simp] theorem setQ_power (n : Nat) (x : Queue) : (s.setQ n x).power = s.power := rfl
@[simp] theorem setQ_free (n : Nat) (x : Queue) : (s.setQ n x).free = s.free := rfl
@[simp] theorem setQ_reg (n : Nat) (x : Queue) (a0 : Nat) : (s.setQ n x).reg a0 = s.reg a0 := rfl
@[simp] theorem setQ_fld (n : Nat) (x : Queue) (g0 : Fld) : (s.setQ n x).fld g0 = s.fld g0 := rfl
@[simp] theorem setQ_bit (n : Nat) (x : Queue) (g0 : Fld) : (s.setQ n x).bit g0 = s.bit g0 := rfl
@[simp] theorem setQ_sfld (n : Nat) (x : Queue) (g0 : Fld) : (s.setQ n x).sfld g0 = s.sfld g0 := rfl
@[simp] theorem setQ_stg (n : Nat) (x : Queue) (a0 : Nat) : (s.setQ n x).stg a0 = s.stg a0 := rfl
@[simp] theorem setQ_getChan (n : Nat) (x : Queue) (i : Nat) : (s.setQ n x).getChan i = s.getChan i := rfl
@[simp] theorem setQ_getGroup (n : Nat) (x : Queue) (i : Nat) : (s.setQ n x).getGroup i = s.getGroup i := rfl
@[simp] theorem setQ_getSlice (n : Nat) (x : Queue) (i : Nat) : (s.setQ n x).getSlice i = s.getSlice i := rfl
@[simp] theorem setQ_getSent (n : Nat) (x : Queue) (i : Nat) : (s.setQ n x).getSent i = s.getSent i := rfl
@[simp] theorem setQ_getCtx (n : Nat) (x : Queue) (i : Nat) : (s.setQ n x).getCtx i = s.getCtx i := rfl

/-! ### modQ -/

@[simp] theorem modQ_pending (n : Nat) (f : Queue → Queue) : (s.modQ n f).pending = s.pending := rfl
@[simp] theorem modQ_time (n : Nat) (f : Queue → Queue) : (s.modQ n f).time = s.time := rfl
@[simp] theorem modQ_regs (n : Nat) (f : Queue → Queue) : (s.modQ n f).regs = s.regs := rfl
@[simp] theorem modQ_staged (n : Nat) (f : Queue → Queue) : (s.modQ n f).staged = s.staged := rfl
@[simp] theorem modQ_commits (n : Nat) (f : Queue → Queue) : (s.modQ n f).commits = s.commits := rfl
@[simp] theorem modQ_latchQ (n : Nat) (f : Queue → Queue) : (s.modQ n f).latchQ = s.latchQ := rfl
@[simp] theorem modQ_latchM (n : Nat) (f : Queue → Queue) : (s.modQ n f).latchM = s.latchM := rfl
@[simp] theorem modQ_rdata (n : Nat) (f : Queue → Queue) : (s.modQ n f).rdata = s.rdata := rfl
@[simp] theorem modQ_qspi (n : Nat) (f : Queue → Queue) : (s.modQ n f).qspi = s.qspi := rfl
@[simp] theorem modQ_pins (n : Nat) (f : Queue → Queue) : (s.modQ n f).pins = s.pins := rfl
@[simp] theorem modQ_servo (n : Nat) (f : Queue → Queue) : (s.modQ n f).servo = s.servo := rfl
@[simp] theorem modQ_ptp (n : Nat) (f : Queue → Queue) : (s.modQ n f).ptp = s.ptp := rfl
@[simp] theorem modQ_grid (n : Nat) (f : Queue → Queue) : (s.modQ n f).grid = s.grid := rfl
@[simp] theorem modQ_wale (n : Nat) (f : Queue → Queue) : (s.modQ n f).wale = s.wale := rfl
@[simp] theorem modQ_group (n : Nat) (f : Queue → Queue) : (s.modQ n f).group = s.group := rfl
@[simp] theorem modQ_chan (n : Nat) (f : Queue → Queue) : (s.modQ n f).chan = s.chan := rfl
@[simp] theorem modQ_slice (n : Nat) (f : Queue → Queue) : (s.modQ n f).slice = s.slice := rfl
@[simp] theorem modQ_sent (n : Nat) (f : Queue → Queue) : (s.modQ n f).sent = s.sent := rfl
@[simp] theorem modQ_sentQ (n : Nat) (f : Queue → Queue) : (s.modQ n f).sentQ = s.sentQ := rfl
@[simp] theorem modQ_cal (n : Nat) (f : Queue → Queue) : (s.modQ n f).cal = s.cal := rfl
@[simp] theorem modQ_trig (n : Nat) (f : Queue → Queue) : (s.modQ n f).trig = s.trig := rfl
@[simp] theorem modQ_ctx (n : Nat) (f : Queue → Queue) : (s.modQ n f).ctx = s.ctx := rfl
@[simp] theorem modQ_capMem (n : Nat) (f : Queue → Queue) : (s.modQ n f).capMem = s.capMem := rfl
@[simp] theorem modQ_capEcc (n : Nat) (f : Queue → Queue) : (s.modQ n f).capEcc = s.capEcc := rfl
@[simp] theorem modQ_firAt (n : Nat) (f : Queue → Queue) : (s.modQ n f).firAt = s.firAt := rfl
@[simp] theorem modQ_qmem (n : Nat) (f : Queue → Queue) : (s.modQ n f).qmem = s.qmem := rfl
@[simp] theorem modQ_arbMem (n : Nat) (f : Queue → Queue) : (s.modQ n f).arbMem = s.arbMem := rfl
@[simp] theorem modQ_arbTx (n : Nat) (f : Queue → Queue) : (s.modQ n f).arbTx = s.arbTx := rfl
@[simp] theorem modQ_net (n : Nat) (f : Queue → Queue) : (s.modQ n f).net = s.net := rfl
@[simp] theorem modQ_pair (n : Nat) (f : Queue → Queue) : (s.modQ n f).pair = s.pair := rfl
@[simp] theorem modQ_rim (n : Nat) (f : Queue → Queue) : (s.modQ n f).rim = s.rim := rfl
@[simp] theorem modQ_mram (n : Nat) (f : Queue → Queue) : (s.modQ n f).mram = s.mram := rfl
@[simp] theorem modQ_power (n : Nat) (f : Queue → Queue) : (s.modQ n f).power = s.power := rfl
@[simp] theorem modQ_free (n : Nat) (f : Queue → Queue) : (s.modQ n f).free = s.free := rfl
@[simp] theorem modQ_reg (n : Nat) (f : Queue → Queue) (a0 : Nat) : (s.modQ n f).reg a0 = s.reg a0 := rfl
@[simp] theorem modQ_fld (n : Nat) (f : Queue → Queue) (g0 : Fld) : (s.modQ n f).fld g0 = s.fld g0 := rfl
@[simp] theorem modQ_bit (n : Nat) (f : Queue → Queue) (g0 : Fld) : (s.modQ n f).bit g0 = s.bit g0 := rfl
@[simp] theorem modQ_sfld (n : Nat) (f : Queue → Queue) (g0 : Fld) : (s.modQ n f).sfld g0 = s.sfld g0 := rfl
@[simp] theorem modQ_stg (n : Nat) (f : Queue → Queue) (a0 : Nat) : (s.modQ n f).stg a0 = s.stg a0 := rfl
@[simp] theorem modQ_getChan (n : Nat) (f : Queue → Queue) (i : Nat) : (s.modQ n f).getChan i = s.getChan i := rfl
@[simp] theorem modQ_getGroup (n : Nat) (f : Queue → Queue) (i : Nat) : (s.modQ n f).getGroup i = s.getGroup i := rfl
@[simp] theorem modQ_getSlice (n : Nat) (f : Queue → Queue) (i : Nat) : (s.modQ n f).getSlice i = s.getSlice i := rfl
@[simp] theorem modQ_getSent (n : Nat) (f : Queue → Queue) (i : Nat) : (s.modQ n f).getSent i = s.getSent i := rfl
@[simp] theorem modQ_getCtx (n : Nat) (f : Queue → Queue) (i : Nat) : (s.modQ n f).getCtx i = s.getCtx i := rfl

/-! ### modPair -/

@[simp] theorem modPair_pending (f : Pair → Pair) : (s.modPair f).pending = s.pending := rfl
@[simp] theorem modPair_time (f : Pair → Pair) : (s.modPair f).time = s.time := rfl
@[simp] theorem modPair_regs (f : Pair → Pair) : (s.modPair f).regs = s.regs := rfl
@[simp] theorem modPair_staged (f : Pair → Pair) : (s.modPair f).staged = s.staged := rfl
@[simp] theorem modPair_commits (f : Pair → Pair) : (s.modPair f).commits = s.commits := rfl
@[simp] theorem modPair_latchQ (f : Pair → Pair) : (s.modPair f).latchQ = s.latchQ := rfl
@[simp] theorem modPair_latchM (f : Pair → Pair) : (s.modPair f).latchM = s.latchM := rfl
@[simp] theorem modPair_rdata (f : Pair → Pair) : (s.modPair f).rdata = s.rdata := rfl
@[simp] theorem modPair_qspi (f : Pair → Pair) : (s.modPair f).qspi = s.qspi := rfl
@[simp] theorem modPair_pins (f : Pair → Pair) : (s.modPair f).pins = s.pins := rfl
@[simp] theorem modPair_servo (f : Pair → Pair) : (s.modPair f).servo = s.servo := rfl
@[simp] theorem modPair_ptp (f : Pair → Pair) : (s.modPair f).ptp = s.ptp := rfl
@[simp] theorem modPair_grid (f : Pair → Pair) : (s.modPair f).grid = s.grid := rfl
@[simp] theorem modPair_wale (f : Pair → Pair) : (s.modPair f).wale = s.wale := rfl
@[simp] theorem modPair_group (f : Pair → Pair) : (s.modPair f).group = s.group := rfl
@[simp] theorem modPair_chan (f : Pair → Pair) : (s.modPair f).chan = s.chan := rfl
@[simp] theorem modPair_slice (f : Pair → Pair) : (s.modPair f).slice = s.slice := rfl
@[simp] theorem modPair_sent (f : Pair → Pair) : (s.modPair f).sent = s.sent := rfl
@[simp] theorem modPair_sentQ (f : Pair → Pair) : (s.modPair f).sentQ = s.sentQ := rfl
@[simp] theorem modPair_cal (f : Pair → Pair) : (s.modPair f).cal = s.cal := rfl
@[simp] theorem modPair_trig (f : Pair → Pair) : (s.modPair f).trig = s.trig := rfl
@[simp] theorem modPair_ctx (f : Pair → Pair) : (s.modPair f).ctx = s.ctx := rfl
@[simp] theorem modPair_capMem (f : Pair → Pair) : (s.modPair f).capMem = s.capMem := rfl
@[simp] theorem modPair_capEcc (f : Pair → Pair) : (s.modPair f).capEcc = s.capEcc := rfl
@[simp] theorem modPair_queue (f : Pair → Pair) : (s.modPair f).queue = s.queue := rfl
@[simp] theorem modPair_firAt (f : Pair → Pair) : (s.modPair f).firAt = s.firAt := rfl
@[simp] theorem modPair_qmem (f : Pair → Pair) : (s.modPair f).qmem = s.qmem := rfl
@[simp] theorem modPair_arbMem (f : Pair → Pair) : (s.modPair f).arbMem = s.arbMem := rfl
@[simp] theorem modPair_arbTx (f : Pair → Pair) : (s.modPair f).arbTx = s.arbTx := rfl
@[simp] theorem modPair_net (f : Pair → Pair) : (s.modPair f).net = s.net := rfl
@[simp] theorem modPair_rim (f : Pair → Pair) : (s.modPair f).rim = s.rim := rfl
@[simp] theorem modPair_mram (f : Pair → Pair) : (s.modPair f).mram = s.mram := rfl
@[simp] theorem modPair_power (f : Pair → Pair) : (s.modPair f).power = s.power := rfl
@[simp] theorem modPair_free (f : Pair → Pair) : (s.modPair f).free = s.free := rfl
@[simp] theorem modPair_reg (f : Pair → Pair) (a0 : Nat) : (s.modPair f).reg a0 = s.reg a0 := rfl
@[simp] theorem modPair_fld (f : Pair → Pair) (g0 : Fld) : (s.modPair f).fld g0 = s.fld g0 := rfl
@[simp] theorem modPair_bit (f : Pair → Pair) (g0 : Fld) : (s.modPair f).bit g0 = s.bit g0 := rfl
@[simp] theorem modPair_sfld (f : Pair → Pair) (g0 : Fld) : (s.modPair f).sfld g0 = s.sfld g0 := rfl
@[simp] theorem modPair_stg (f : Pair → Pair) (a0 : Nat) : (s.modPair f).stg a0 = s.stg a0 := rfl
@[simp] theorem modPair_self (f : Pair → Pair) : (s.modPair f).pair = f s.pair := rfl
@[simp] theorem modPair_getChan (f : Pair → Pair) (i : Nat) : (s.modPair f).getChan i = s.getChan i := rfl
@[simp] theorem modPair_getGroup (f : Pair → Pair) (i : Nat) : (s.modPair f).getGroup i = s.getGroup i := rfl
@[simp] theorem modPair_getSlice (f : Pair → Pair) (i : Nat) : (s.modPair f).getSlice i = s.getSlice i := rfl
@[simp] theorem modPair_getSent (f : Pair → Pair) (i : Nat) : (s.modPair f).getSent i = s.getSent i := rfl
@[simp] theorem modPair_getCtx (f : Pair → Pair) (i : Nat) : (s.modPair f).getCtx i = s.getCtx i := rfl
@[simp] theorem modPair_getQ (f : Pair → Pair) (i : Nat) : (s.modPair f).getQ i = s.getQ i := rfl

/-! ### modRim -/

@[simp] theorem modRim_pending (f : Rim → Rim) : (s.modRim f).pending = s.pending := rfl
@[simp] theorem modRim_time (f : Rim → Rim) : (s.modRim f).time = s.time := rfl
@[simp] theorem modRim_regs (f : Rim → Rim) : (s.modRim f).regs = s.regs := rfl
@[simp] theorem modRim_staged (f : Rim → Rim) : (s.modRim f).staged = s.staged := rfl
@[simp] theorem modRim_commits (f : Rim → Rim) : (s.modRim f).commits = s.commits := rfl
@[simp] theorem modRim_latchQ (f : Rim → Rim) : (s.modRim f).latchQ = s.latchQ := rfl
@[simp] theorem modRim_latchM (f : Rim → Rim) : (s.modRim f).latchM = s.latchM := rfl
@[simp] theorem modRim_rdata (f : Rim → Rim) : (s.modRim f).rdata = s.rdata := rfl
@[simp] theorem modRim_qspi (f : Rim → Rim) : (s.modRim f).qspi = s.qspi := rfl
@[simp] theorem modRim_pins (f : Rim → Rim) : (s.modRim f).pins = s.pins := rfl
@[simp] theorem modRim_servo (f : Rim → Rim) : (s.modRim f).servo = s.servo := rfl
@[simp] theorem modRim_ptp (f : Rim → Rim) : (s.modRim f).ptp = s.ptp := rfl
@[simp] theorem modRim_grid (f : Rim → Rim) : (s.modRim f).grid = s.grid := rfl
@[simp] theorem modRim_wale (f : Rim → Rim) : (s.modRim f).wale = s.wale := rfl
@[simp] theorem modRim_group (f : Rim → Rim) : (s.modRim f).group = s.group := rfl
@[simp] theorem modRim_chan (f : Rim → Rim) : (s.modRim f).chan = s.chan := rfl
@[simp] theorem modRim_slice (f : Rim → Rim) : (s.modRim f).slice = s.slice := rfl
@[simp] theorem modRim_sent (f : Rim → Rim) : (s.modRim f).sent = s.sent := rfl
@[simp] theorem modRim_sentQ (f : Rim → Rim) : (s.modRim f).sentQ = s.sentQ := rfl
@[simp] theorem modRim_cal (f : Rim → Rim) : (s.modRim f).cal = s.cal := rfl
@[simp] theorem modRim_trig (f : Rim → Rim) : (s.modRim f).trig = s.trig := rfl
@[simp] theorem modRim_ctx (f : Rim → Rim) : (s.modRim f).ctx = s.ctx := rfl
@[simp] theorem modRim_capMem (f : Rim → Rim) : (s.modRim f).capMem = s.capMem := rfl
@[simp] theorem modRim_capEcc (f : Rim → Rim) : (s.modRim f).capEcc = s.capEcc := rfl
@[simp] theorem modRim_queue (f : Rim → Rim) : (s.modRim f).queue = s.queue := rfl
@[simp] theorem modRim_firAt (f : Rim → Rim) : (s.modRim f).firAt = s.firAt := rfl
@[simp] theorem modRim_qmem (f : Rim → Rim) : (s.modRim f).qmem = s.qmem := rfl
@[simp] theorem modRim_arbMem (f : Rim → Rim) : (s.modRim f).arbMem = s.arbMem := rfl
@[simp] theorem modRim_arbTx (f : Rim → Rim) : (s.modRim f).arbTx = s.arbTx := rfl
@[simp] theorem modRim_net (f : Rim → Rim) : (s.modRim f).net = s.net := rfl
@[simp] theorem modRim_pair (f : Rim → Rim) : (s.modRim f).pair = s.pair := rfl
@[simp] theorem modRim_mram (f : Rim → Rim) : (s.modRim f).mram = s.mram := rfl
@[simp] theorem modRim_power (f : Rim → Rim) : (s.modRim f).power = s.power := rfl
@[simp] theorem modRim_free (f : Rim → Rim) : (s.modRim f).free = s.free := rfl
@[simp] theorem modRim_reg (f : Rim → Rim) (a0 : Nat) : (s.modRim f).reg a0 = s.reg a0 := rfl
@[simp] theorem modRim_fld (f : Rim → Rim) (g0 : Fld) : (s.modRim f).fld g0 = s.fld g0 := rfl
@[simp] theorem modRim_bit (f : Rim → Rim) (g0 : Fld) : (s.modRim f).bit g0 = s.bit g0 := rfl
@[simp] theorem modRim_sfld (f : Rim → Rim) (g0 : Fld) : (s.modRim f).sfld g0 = s.sfld g0 := rfl
@[simp] theorem modRim_stg (f : Rim → Rim) (a0 : Nat) : (s.modRim f).stg a0 = s.stg a0 := rfl
@[simp] theorem modRim_self (f : Rim → Rim) : (s.modRim f).rim = f s.rim := rfl
@[simp] theorem modRim_getChan (f : Rim → Rim) (i : Nat) : (s.modRim f).getChan i = s.getChan i := rfl
@[simp] theorem modRim_getGroup (f : Rim → Rim) (i : Nat) : (s.modRim f).getGroup i = s.getGroup i := rfl
@[simp] theorem modRim_getSlice (f : Rim → Rim) (i : Nat) : (s.modRim f).getSlice i = s.getSlice i := rfl
@[simp] theorem modRim_getSent (f : Rim → Rim) (i : Nat) : (s.modRim f).getSent i = s.getSent i := rfl
@[simp] theorem modRim_getCtx (f : Rim → Rim) (i : Nat) : (s.modRim f).getCtx i = s.getCtx i := rfl
@[simp] theorem modRim_getQ (f : Rim → Rim) (i : Nat) : (s.modRim f).getQ i = s.getQ i := rfl

/-! ### modCal -/

@[simp] theorem modCal_pending (f : Cal → Cal) : (s.modCal f).pending = s.pending := rfl
@[simp] theorem modCal_time (f : Cal → Cal) : (s.modCal f).time = s.time := rfl
@[simp] theorem modCal_regs (f : Cal → Cal) : (s.modCal f).regs = s.regs := rfl
@[simp] theorem modCal_staged (f : Cal → Cal) : (s.modCal f).staged = s.staged := rfl
@[simp] theorem modCal_commits (f : Cal → Cal) : (s.modCal f).commits = s.commits := rfl
@[simp] theorem modCal_latchQ (f : Cal → Cal) : (s.modCal f).latchQ = s.latchQ := rfl
@[simp] theorem modCal_latchM (f : Cal → Cal) : (s.modCal f).latchM = s.latchM := rfl
@[simp] theorem modCal_rdata (f : Cal → Cal) : (s.modCal f).rdata = s.rdata := rfl
@[simp] theorem modCal_qspi (f : Cal → Cal) : (s.modCal f).qspi = s.qspi := rfl
@[simp] theorem modCal_pins (f : Cal → Cal) : (s.modCal f).pins = s.pins := rfl
@[simp] theorem modCal_servo (f : Cal → Cal) : (s.modCal f).servo = s.servo := rfl
@[simp] theorem modCal_ptp (f : Cal → Cal) : (s.modCal f).ptp = s.ptp := rfl
@[simp] theorem modCal_grid (f : Cal → Cal) : (s.modCal f).grid = s.grid := rfl
@[simp] theorem modCal_wale (f : Cal → Cal) : (s.modCal f).wale = s.wale := rfl
@[simp] theorem modCal_group (f : Cal → Cal) : (s.modCal f).group = s.group := rfl
@[simp] theorem modCal_chan (f : Cal → Cal) : (s.modCal f).chan = s.chan := rfl
@[simp] theorem modCal_slice (f : Cal → Cal) : (s.modCal f).slice = s.slice := rfl
@[simp] theorem modCal_sent (f : Cal → Cal) : (s.modCal f).sent = s.sent := rfl
@[simp] theorem modCal_sentQ (f : Cal → Cal) : (s.modCal f).sentQ = s.sentQ := rfl
@[simp] theorem modCal_trig (f : Cal → Cal) : (s.modCal f).trig = s.trig := rfl
@[simp] theorem modCal_ctx (f : Cal → Cal) : (s.modCal f).ctx = s.ctx := rfl
@[simp] theorem modCal_capMem (f : Cal → Cal) : (s.modCal f).capMem = s.capMem := rfl
@[simp] theorem modCal_capEcc (f : Cal → Cal) : (s.modCal f).capEcc = s.capEcc := rfl
@[simp] theorem modCal_queue (f : Cal → Cal) : (s.modCal f).queue = s.queue := rfl
@[simp] theorem modCal_firAt (f : Cal → Cal) : (s.modCal f).firAt = s.firAt := rfl
@[simp] theorem modCal_qmem (f : Cal → Cal) : (s.modCal f).qmem = s.qmem := rfl
@[simp] theorem modCal_arbMem (f : Cal → Cal) : (s.modCal f).arbMem = s.arbMem := rfl
@[simp] theorem modCal_arbTx (f : Cal → Cal) : (s.modCal f).arbTx = s.arbTx := rfl
@[simp] theorem modCal_net (f : Cal → Cal) : (s.modCal f).net = s.net := rfl
@[simp] theorem modCal_pair (f : Cal → Cal) : (s.modCal f).pair = s.pair := rfl
@[simp] theorem modCal_rim (f : Cal → Cal) : (s.modCal f).rim = s.rim := rfl
@[simp] theorem modCal_mram (f : Cal → Cal) : (s.modCal f).mram = s.mram := rfl
@[simp] theorem modCal_power (f : Cal → Cal) : (s.modCal f).power = s.power := rfl
@[simp] theorem modCal_free (f : Cal → Cal) : (s.modCal f).free = s.free := rfl
@[simp] theorem modCal_reg (f : Cal → Cal) (a0 : Nat) : (s.modCal f).reg a0 = s.reg a0 := rfl
@[simp] theorem modCal_fld (f : Cal → Cal) (g0 : Fld) : (s.modCal f).fld g0 = s.fld g0 := rfl
@[simp] theorem modCal_bit (f : Cal → Cal) (g0 : Fld) : (s.modCal f).bit g0 = s.bit g0 := rfl
@[simp] theorem modCal_sfld (f : Cal → Cal) (g0 : Fld) : (s.modCal f).sfld g0 = s.sfld g0 := rfl
@[simp] theorem modCal_stg (f : Cal → Cal) (a0 : Nat) : (s.modCal f).stg a0 = s.stg a0 := rfl
@[simp] theorem modCal_self (f : Cal → Cal) : (s.modCal f).cal = f s.cal := rfl
@[simp] theorem modCal_getChan (f : Cal → Cal) (i : Nat) : (s.modCal f).getChan i = s.getChan i := rfl
@[simp] theorem modCal_getGroup (f : Cal → Cal) (i : Nat) : (s.modCal f).getGroup i = s.getGroup i := rfl
@[simp] theorem modCal_getSlice (f : Cal → Cal) (i : Nat) : (s.modCal f).getSlice i = s.getSlice i := rfl
@[simp] theorem modCal_getSent (f : Cal → Cal) (i : Nat) : (s.modCal f).getSent i = s.getSent i := rfl
@[simp] theorem modCal_getCtx (f : Cal → Cal) (i : Nat) : (s.modCal f).getCtx i = s.getCtx i := rfl
@[simp] theorem modCal_getQ (f : Cal → Cal) (i : Nat) : (s.modCal f).getQ i = s.getQ i := rfl

/-! ### modNet -/

@[simp] theorem modNet_pending (f : Net → Net) : (s.modNet f).pending = s.pending := rfl
@[simp] theorem modNet_time (f : Net → Net) : (s.modNet f).time = s.time := rfl
@[simp] theorem modNet_regs (f : Net → Net) : (s.modNet f).regs = s.regs := rfl
@[simp] theorem modNet_staged (f : Net → Net) : (s.modNet f).staged = s.staged := rfl
@[simp] theorem modNet_commits (f : Net → Net) : (s.modNet f).commits = s.commits := rfl
@[simp] theorem modNet_latchQ (f : Net → Net) : (s.modNet f).latchQ = s.latchQ := rfl
@[simp] theorem modNet_latchM (f : Net → Net) : (s.modNet f).latchM = s.latchM := rfl
@[simp] theorem modNet_rdata (f : Net → Net) : (s.modNet f).rdata = s.rdata := rfl
@[simp] theorem modNet_qspi (f : Net → Net) : (s.modNet f).qspi = s.qspi := rfl
@[simp] theorem modNet_pins (f : Net → Net) : (s.modNet f).pins = s.pins := rfl
@[simp] theorem modNet_servo (f : Net → Net) : (s.modNet f).servo = s.servo := rfl
@[simp] theorem modNet_ptp (f : Net → Net) : (s.modNet f).ptp = s.ptp := rfl
@[simp] theorem modNet_grid (f : Net → Net) : (s.modNet f).grid = s.grid := rfl
@[simp] theorem modNet_wale (f : Net → Net) : (s.modNet f).wale = s.wale := rfl
@[simp] theorem modNet_group (f : Net → Net) : (s.modNet f).group = s.group := rfl
@[simp] theorem modNet_chan (f : Net → Net) : (s.modNet f).chan = s.chan := rfl
@[simp] theorem modNet_slice (f : Net → Net) : (s.modNet f).slice = s.slice := rfl
@[simp] theorem modNet_sent (f : Net → Net) : (s.modNet f).sent = s.sent := rfl
@[simp] theorem modNet_sentQ (f : Net → Net) : (s.modNet f).sentQ = s.sentQ := rfl
@[simp] theorem modNet_cal (f : Net → Net) : (s.modNet f).cal = s.cal := rfl
@[simp] theorem modNet_trig (f : Net → Net) : (s.modNet f).trig = s.trig := rfl
@[simp] theorem modNet_ctx (f : Net → Net) : (s.modNet f).ctx = s.ctx := rfl
@[simp] theorem modNet_capMem (f : Net → Net) : (s.modNet f).capMem = s.capMem := rfl
@[simp] theorem modNet_capEcc (f : Net → Net) : (s.modNet f).capEcc = s.capEcc := rfl
@[simp] theorem modNet_queue (f : Net → Net) : (s.modNet f).queue = s.queue := rfl
@[simp] theorem modNet_firAt (f : Net → Net) : (s.modNet f).firAt = s.firAt := rfl
@[simp] theorem modNet_qmem (f : Net → Net) : (s.modNet f).qmem = s.qmem := rfl
@[simp] theorem modNet_arbMem (f : Net → Net) : (s.modNet f).arbMem = s.arbMem := rfl
@[simp] theorem modNet_arbTx (f : Net → Net) : (s.modNet f).arbTx = s.arbTx := rfl
@[simp] theorem modNet_pair (f : Net → Net) : (s.modNet f).pair = s.pair := rfl
@[simp] theorem modNet_rim (f : Net → Net) : (s.modNet f).rim = s.rim := rfl
@[simp] theorem modNet_mram (f : Net → Net) : (s.modNet f).mram = s.mram := rfl
@[simp] theorem modNet_power (f : Net → Net) : (s.modNet f).power = s.power := rfl
@[simp] theorem modNet_free (f : Net → Net) : (s.modNet f).free = s.free := rfl
@[simp] theorem modNet_reg (f : Net → Net) (a0 : Nat) : (s.modNet f).reg a0 = s.reg a0 := rfl
@[simp] theorem modNet_fld (f : Net → Net) (g0 : Fld) : (s.modNet f).fld g0 = s.fld g0 := rfl
@[simp] theorem modNet_bit (f : Net → Net) (g0 : Fld) : (s.modNet f).bit g0 = s.bit g0 := rfl
@[simp] theorem modNet_sfld (f : Net → Net) (g0 : Fld) : (s.modNet f).sfld g0 = s.sfld g0 := rfl
@[simp] theorem modNet_stg (f : Net → Net) (a0 : Nat) : (s.modNet f).stg a0 = s.stg a0 := rfl
@[simp] theorem modNet_self (f : Net → Net) : (s.modNet f).net = f s.net := rfl
@[simp] theorem modNet_getChan (f : Net → Net) (i : Nat) : (s.modNet f).getChan i = s.getChan i := rfl
@[simp] theorem modNet_getGroup (f : Net → Net) (i : Nat) : (s.modNet f).getGroup i = s.getGroup i := rfl
@[simp] theorem modNet_getSlice (f : Net → Net) (i : Nat) : (s.modNet f).getSlice i = s.getSlice i := rfl
@[simp] theorem modNet_getSent (f : Net → Net) (i : Nat) : (s.modNet f).getSent i = s.getSent i := rfl
@[simp] theorem modNet_getCtx (f : Net → Net) (i : Nat) : (s.modNet f).getCtx i = s.getCtx i := rfl
@[simp] theorem modNet_getQ (f : Net → Net) (i : Nat) : (s.modNet f).getQ i = s.getQ i := rfl

/-! ### modGrid -/

@[simp] theorem modGrid_pending (f : Grid → Grid) : (s.modGrid f).pending = s.pending := rfl
@[simp] theorem modGrid_time (f : Grid → Grid) : (s.modGrid f).time = s.time := rfl
@[simp] theorem modGrid_regs (f : Grid → Grid) : (s.modGrid f).regs = s.regs := rfl
@[simp] theorem modGrid_staged (f : Grid → Grid) : (s.modGrid f).staged = s.staged := rfl
@[simp] theorem modGrid_commits (f : Grid → Grid) : (s.modGrid f).commits = s.commits := rfl
@[simp] theorem modGrid_latchQ (f : Grid → Grid) : (s.modGrid f).latchQ = s.latchQ := rfl
@[simp] theorem modGrid_latchM (f : Grid → Grid) : (s.modGrid f).latchM = s.latchM := rfl
@[simp] theorem modGrid_rdata (f : Grid → Grid) : (s.modGrid f).rdata = s.rdata := rfl
@[simp] theorem modGrid_qspi (f : Grid → Grid) : (s.modGrid f).qspi = s.qspi := rfl
@[simp] theorem modGrid_pins (f : Grid → Grid) : (s.modGrid f).pins = s.pins := rfl
@[simp] theorem modGrid_servo (f : Grid → Grid) : (s.modGrid f).servo = s.servo := rfl
@[simp] theorem modGrid_ptp (f : Grid → Grid) : (s.modGrid f).ptp = s.ptp := rfl
@[simp] theorem modGrid_wale (f : Grid → Grid) : (s.modGrid f).wale = s.wale := rfl
@[simp] theorem modGrid_group (f : Grid → Grid) : (s.modGrid f).group = s.group := rfl
@[simp] theorem modGrid_chan (f : Grid → Grid) : (s.modGrid f).chan = s.chan := rfl
@[simp] theorem modGrid_slice (f : Grid → Grid) : (s.modGrid f).slice = s.slice := rfl
@[simp] theorem modGrid_sent (f : Grid → Grid) : (s.modGrid f).sent = s.sent := rfl
@[simp] theorem modGrid_sentQ (f : Grid → Grid) : (s.modGrid f).sentQ = s.sentQ := rfl
@[simp] theorem modGrid_cal (f : Grid → Grid) : (s.modGrid f).cal = s.cal := rfl
@[simp] theorem modGrid_trig (f : Grid → Grid) : (s.modGrid f).trig = s.trig := rfl
@[simp] theorem modGrid_ctx (f : Grid → Grid) : (s.modGrid f).ctx = s.ctx := rfl
@[simp] theorem modGrid_capMem (f : Grid → Grid) : (s.modGrid f).capMem = s.capMem := rfl
@[simp] theorem modGrid_capEcc (f : Grid → Grid) : (s.modGrid f).capEcc = s.capEcc := rfl
@[simp] theorem modGrid_queue (f : Grid → Grid) : (s.modGrid f).queue = s.queue := rfl
@[simp] theorem modGrid_firAt (f : Grid → Grid) : (s.modGrid f).firAt = s.firAt := rfl
@[simp] theorem modGrid_qmem (f : Grid → Grid) : (s.modGrid f).qmem = s.qmem := rfl
@[simp] theorem modGrid_arbMem (f : Grid → Grid) : (s.modGrid f).arbMem = s.arbMem := rfl
@[simp] theorem modGrid_arbTx (f : Grid → Grid) : (s.modGrid f).arbTx = s.arbTx := rfl
@[simp] theorem modGrid_net (f : Grid → Grid) : (s.modGrid f).net = s.net := rfl
@[simp] theorem modGrid_pair (f : Grid → Grid) : (s.modGrid f).pair = s.pair := rfl
@[simp] theorem modGrid_rim (f : Grid → Grid) : (s.modGrid f).rim = s.rim := rfl
@[simp] theorem modGrid_mram (f : Grid → Grid) : (s.modGrid f).mram = s.mram := rfl
@[simp] theorem modGrid_power (f : Grid → Grid) : (s.modGrid f).power = s.power := rfl
@[simp] theorem modGrid_free (f : Grid → Grid) : (s.modGrid f).free = s.free := rfl
@[simp] theorem modGrid_reg (f : Grid → Grid) (a0 : Nat) : (s.modGrid f).reg a0 = s.reg a0 := rfl
@[simp] theorem modGrid_fld (f : Grid → Grid) (g0 : Fld) : (s.modGrid f).fld g0 = s.fld g0 := rfl
@[simp] theorem modGrid_bit (f : Grid → Grid) (g0 : Fld) : (s.modGrid f).bit g0 = s.bit g0 := rfl
@[simp] theorem modGrid_sfld (f : Grid → Grid) (g0 : Fld) : (s.modGrid f).sfld g0 = s.sfld g0 := rfl
@[simp] theorem modGrid_stg (f : Grid → Grid) (a0 : Nat) : (s.modGrid f).stg a0 = s.stg a0 := rfl
@[simp] theorem modGrid_self (f : Grid → Grid) : (s.modGrid f).grid = f s.grid := rfl
@[simp] theorem modGrid_getChan (f : Grid → Grid) (i : Nat) : (s.modGrid f).getChan i = s.getChan i := rfl
@[simp] theorem modGrid_getGroup (f : Grid → Grid) (i : Nat) : (s.modGrid f).getGroup i = s.getGroup i := rfl
@[simp] theorem modGrid_getSlice (f : Grid → Grid) (i : Nat) : (s.modGrid f).getSlice i = s.getSlice i := rfl
@[simp] theorem modGrid_getSent (f : Grid → Grid) (i : Nat) : (s.modGrid f).getSent i = s.getSent i := rfl
@[simp] theorem modGrid_getCtx (f : Grid → Grid) (i : Nat) : (s.modGrid f).getCtx i = s.getCtx i := rfl
@[simp] theorem modGrid_getQ (f : Grid → Grid) (i : Nat) : (s.modGrid f).getQ i = s.getQ i := rfl

/-! ### modServo -/

@[simp] theorem modServo_pending (f : Servo → Servo) : (s.modServo f).pending = s.pending := rfl
@[simp] theorem modServo_time (f : Servo → Servo) : (s.modServo f).time = s.time := rfl
@[simp] theorem modServo_regs (f : Servo → Servo) : (s.modServo f).regs = s.regs := rfl
@[simp] theorem modServo_staged (f : Servo → Servo) : (s.modServo f).staged = s.staged := rfl
@[simp] theorem modServo_commits (f : Servo → Servo) : (s.modServo f).commits = s.commits := rfl
@[simp] theorem modServo_latchQ (f : Servo → Servo) : (s.modServo f).latchQ = s.latchQ := rfl
@[simp] theorem modServo_latchM (f : Servo → Servo) : (s.modServo f).latchM = s.latchM := rfl
@[simp] theorem modServo_rdata (f : Servo → Servo) : (s.modServo f).rdata = s.rdata := rfl
@[simp] theorem modServo_qspi (f : Servo → Servo) : (s.modServo f).qspi = s.qspi := rfl
@[simp] theorem modServo_pins (f : Servo → Servo) : (s.modServo f).pins = s.pins := rfl
@[simp] theorem modServo_ptp (f : Servo → Servo) : (s.modServo f).ptp = s.ptp := rfl
@[simp] theorem modServo_grid (f : Servo → Servo) : (s.modServo f).grid = s.grid := rfl
@[simp] theorem modServo_wale (f : Servo → Servo) : (s.modServo f).wale = s.wale := rfl
@[simp] theorem modServo_group (f : Servo → Servo) : (s.modServo f).group = s.group := rfl
@[simp] theorem modServo_chan (f : Servo → Servo) : (s.modServo f).chan = s.chan := rfl
@[simp] theorem modServo_slice (f : Servo → Servo) : (s.modServo f).slice = s.slice := rfl
@[simp] theorem modServo_sent (f : Servo → Servo) : (s.modServo f).sent = s.sent := rfl
@[simp] theorem modServo_sentQ (f : Servo → Servo) : (s.modServo f).sentQ = s.sentQ := rfl
@[simp] theorem modServo_cal (f : Servo → Servo) : (s.modServo f).cal = s.cal := rfl
@[simp] theorem modServo_trig (f : Servo → Servo) : (s.modServo f).trig = s.trig := rfl
@[simp] theorem modServo_ctx (f : Servo → Servo) : (s.modServo f).ctx = s.ctx := rfl
@[simp] theorem modServo_capMem (f : Servo → Servo) : (s.modServo f).capMem = s.capMem := rfl
@[simp] theorem modServo_capEcc (f : Servo → Servo) : (s.modServo f).capEcc = s.capEcc := rfl
@[simp] theorem modServo_queue (f : Servo → Servo) : (s.modServo f).queue = s.queue := rfl
@[simp] theorem modServo_firAt (f : Servo → Servo) : (s.modServo f).firAt = s.firAt := rfl
@[simp] theorem modServo_qmem (f : Servo → Servo) : (s.modServo f).qmem = s.qmem := rfl
@[simp] theorem modServo_arbMem (f : Servo → Servo) : (s.modServo f).arbMem = s.arbMem := rfl
@[simp] theorem modServo_arbTx (f : Servo → Servo) : (s.modServo f).arbTx = s.arbTx := rfl
@[simp] theorem modServo_net (f : Servo → Servo) : (s.modServo f).net = s.net := rfl
@[simp] theorem modServo_pair (f : Servo → Servo) : (s.modServo f).pair = s.pair := rfl
@[simp] theorem modServo_rim (f : Servo → Servo) : (s.modServo f).rim = s.rim := rfl
@[simp] theorem modServo_mram (f : Servo → Servo) : (s.modServo f).mram = s.mram := rfl
@[simp] theorem modServo_power (f : Servo → Servo) : (s.modServo f).power = s.power := rfl
@[simp] theorem modServo_free (f : Servo → Servo) : (s.modServo f).free = s.free := rfl
@[simp] theorem modServo_reg (f : Servo → Servo) (a0 : Nat) : (s.modServo f).reg a0 = s.reg a0 := rfl
@[simp] theorem modServo_fld (f : Servo → Servo) (g0 : Fld) : (s.modServo f).fld g0 = s.fld g0 := rfl
@[simp] theorem modServo_bit (f : Servo → Servo) (g0 : Fld) : (s.modServo f).bit g0 = s.bit g0 := rfl
@[simp] theorem modServo_sfld (f : Servo → Servo) (g0 : Fld) : (s.modServo f).sfld g0 = s.sfld g0 := rfl
@[simp] theorem modServo_stg (f : Servo → Servo) (a0 : Nat) : (s.modServo f).stg a0 = s.stg a0 := rfl
@[simp] theorem modServo_self (f : Servo → Servo) : (s.modServo f).servo = f s.servo := rfl
@[simp] theorem modServo_getChan (f : Servo → Servo) (i : Nat) : (s.modServo f).getChan i = s.getChan i := rfl
@[simp] theorem modServo_getGroup (f : Servo → Servo) (i : Nat) : (s.modServo f).getGroup i = s.getGroup i := rfl
@[simp] theorem modServo_getSlice (f : Servo → Servo) (i : Nat) : (s.modServo f).getSlice i = s.getSlice i := rfl
@[simp] theorem modServo_getSent (f : Servo → Servo) (i : Nat) : (s.modServo f).getSent i = s.getSent i := rfl
@[simp] theorem modServo_getCtx (f : Servo → Servo) (i : Nat) : (s.modServo f).getCtx i = s.getCtx i := rfl
@[simp] theorem modServo_getQ (f : Servo → Servo) (i : Nat) : (s.modServo f).getQ i = s.getQ i := rfl

/-! ### modPtp -/

@[simp] theorem modPtp_pending (f : Ptp → Ptp) : (s.modPtp f).pending = s.pending := rfl
@[simp] theorem modPtp_time (f : Ptp → Ptp) : (s.modPtp f).time = s.time := rfl
@[simp] theorem modPtp_regs (f : Ptp → Ptp) : (s.modPtp f).regs = s.regs := rfl
@[simp] theorem modPtp_staged (f : Ptp → Ptp) : (s.modPtp f).staged = s.staged := rfl
@[simp] theorem modPtp_commits (f : Ptp → Ptp) : (s.modPtp f).commits = s.commits := rfl
@[simp] theorem modPtp_latchQ (f : Ptp → Ptp) : (s.modPtp f).latchQ = s.latchQ := rfl
@[simp] theorem modPtp_latchM (f : Ptp → Ptp) : (s.modPtp f).latchM = s.latchM := rfl
@[simp] theorem modPtp_rdata (f : Ptp → Ptp) : (s.modPtp f).rdata = s.rdata := rfl
@[simp] theorem modPtp_qspi (f : Ptp → Ptp) : (s.modPtp f).qspi = s.qspi := rfl
@[simp] theorem modPtp_pins (f : Ptp → Ptp) : (s.modPtp f).pins = s.pins := rfl
@[simp] theorem modPtp_servo (f : Ptp → Ptp) : (s.modPtp f).servo = s.servo := rfl
@[simp] theorem modPtp_grid (f : Ptp → Ptp) : (s.modPtp f).grid = s.grid := rfl
@[simp] theorem modPtp_wale (f : Ptp → Ptp) : (s.modPtp f).wale = s.wale := rfl
@[simp] theorem modPtp_group (f : Ptp → Ptp) : (s.modPtp f).group = s.group := rfl
@[simp] theorem modPtp_chan (f : Ptp → Ptp) : (s.modPtp f).chan = s.chan := rfl
@[simp] theorem modPtp_slice (f : Ptp → Ptp) : (s.modPtp f).slice = s.slice := rfl
@[simp] theorem modPtp_sent (f : Ptp → Ptp) : (s.modPtp f).sent = s.sent := rfl
@[simp] theorem modPtp_sentQ (f : Ptp → Ptp) : (s.modPtp f).sentQ = s.sentQ := rfl
@[simp] theorem modPtp_cal (f : Ptp → Ptp) : (s.modPtp f).cal = s.cal := rfl
@[simp] theorem modPtp_trig (f : Ptp → Ptp) : (s.modPtp f).trig = s.trig := rfl
@[simp] theorem modPtp_ctx (f : Ptp → Ptp) : (s.modPtp f).ctx = s.ctx := rfl
@[simp] theorem modPtp_capMem (f : Ptp → Ptp) : (s.modPtp f).capMem = s.capMem := rfl
@[simp] theorem modPtp_capEcc (f : Ptp → Ptp) : (s.modPtp f).capEcc = s.capEcc := rfl
@[simp] theorem modPtp_queue (f : Ptp → Ptp) : (s.modPtp f).queue = s.queue := rfl
@[simp] theorem modPtp_firAt (f : Ptp → Ptp) : (s.modPtp f).firAt = s.firAt := rfl
@[simp] theorem modPtp_qmem (f : Ptp → Ptp) : (s.modPtp f).qmem = s.qmem := rfl
@[simp] theorem modPtp_arbMem (f : Ptp → Ptp) : (s.modPtp f).arbMem = s.arbMem := rfl
@[simp] theorem modPtp_arbTx (f : Ptp → Ptp) : (s.modPtp f).arbTx = s.arbTx := rfl
@[simp] theorem modPtp_net (f : Ptp → Ptp) : (s.modPtp f).net = s.net := rfl
@[simp] theorem modPtp_pair (f : Ptp → Ptp) : (s.modPtp f).pair = s.pair := rfl
@[simp] theorem modPtp_rim (f : Ptp → Ptp) : (s.modPtp f).rim = s.rim := rfl
@[simp] theorem modPtp_mram (f : Ptp → Ptp) : (s.modPtp f).mram = s.mram := rfl
@[simp] theorem modPtp_power (f : Ptp → Ptp) : (s.modPtp f).power = s.power := rfl
@[simp] theorem modPtp_free (f : Ptp → Ptp) : (s.modPtp f).free = s.free := rfl
@[simp] theorem modPtp_reg (f : Ptp → Ptp) (a0 : Nat) : (s.modPtp f).reg a0 = s.reg a0 := rfl
@[simp] theorem modPtp_fld (f : Ptp → Ptp) (g0 : Fld) : (s.modPtp f).fld g0 = s.fld g0 := rfl
@[simp] theorem modPtp_bit (f : Ptp → Ptp) (g0 : Fld) : (s.modPtp f).bit g0 = s.bit g0 := rfl
@[simp] theorem modPtp_sfld (f : Ptp → Ptp) (g0 : Fld) : (s.modPtp f).sfld g0 = s.sfld g0 := rfl
@[simp] theorem modPtp_stg (f : Ptp → Ptp) (a0 : Nat) : (s.modPtp f).stg a0 = s.stg a0 := rfl
@[simp] theorem modPtp_self (f : Ptp → Ptp) : (s.modPtp f).ptp = f s.ptp := rfl
@[simp] theorem modPtp_getChan (f : Ptp → Ptp) (i : Nat) : (s.modPtp f).getChan i = s.getChan i := rfl
@[simp] theorem modPtp_getGroup (f : Ptp → Ptp) (i : Nat) : (s.modPtp f).getGroup i = s.getGroup i := rfl
@[simp] theorem modPtp_getSlice (f : Ptp → Ptp) (i : Nat) : (s.modPtp f).getSlice i = s.getSlice i := rfl
@[simp] theorem modPtp_getSent (f : Ptp → Ptp) (i : Nat) : (s.modPtp f).getSent i = s.getSent i := rfl
@[simp] theorem modPtp_getCtx (f : Ptp → Ptp) (i : Nat) : (s.modPtp f).getCtx i = s.getCtx i := rfl
@[simp] theorem modPtp_getQ (f : Ptp → Ptp) (i : Nat) : (s.modPtp f).getQ i = s.getQ i := rfl

/-! ### modTime -/

@[simp] theorem modTime_pending (f : TimeBase → TimeBase) : (s.modTime f).pending = s.pending := rfl
@[simp] theorem modTime_regs (f : TimeBase → TimeBase) : (s.modTime f).regs = s.regs := rfl
@[simp] theorem modTime_staged (f : TimeBase → TimeBase) : (s.modTime f).staged = s.staged := rfl
@[simp] theorem modTime_commits (f : TimeBase → TimeBase) : (s.modTime f).commits = s.commits := rfl
@[simp] theorem modTime_latchQ (f : TimeBase → TimeBase) : (s.modTime f).latchQ = s.latchQ := rfl
@[simp] theorem modTime_latchM (f : TimeBase → TimeBase) : (s.modTime f).latchM = s.latchM := rfl
@[simp] theorem modTime_rdata (f : TimeBase → TimeBase) : (s.modTime f).rdata = s.rdata := rfl
@[simp] theorem modTime_qspi (f : TimeBase → TimeBase) : (s.modTime f).qspi = s.qspi := rfl
@[simp] theorem modTime_pins (f : TimeBase → TimeBase) : (s.modTime f).pins = s.pins := rfl
@[simp] theorem modTime_servo (f : TimeBase → TimeBase) : (s.modTime f).servo = s.servo := rfl
@[simp] theorem modTime_ptp (f : TimeBase → TimeBase) : (s.modTime f).ptp = s.ptp := rfl
@[simp] theorem modTime_grid (f : TimeBase → TimeBase) : (s.modTime f).grid = s.grid := rfl
@[simp] theorem modTime_wale (f : TimeBase → TimeBase) : (s.modTime f).wale = s.wale := rfl
@[simp] theorem modTime_group (f : TimeBase → TimeBase) : (s.modTime f).group = s.group := rfl
@[simp] theorem modTime_chan (f : TimeBase → TimeBase) : (s.modTime f).chan = s.chan := rfl
@[simp] theorem modTime_slice (f : TimeBase → TimeBase) : (s.modTime f).slice = s.slice := rfl
@[simp] theorem modTime_sent (f : TimeBase → TimeBase) : (s.modTime f).sent = s.sent := rfl
@[simp] theorem modTime_sentQ (f : TimeBase → TimeBase) : (s.modTime f).sentQ = s.sentQ := rfl
@[simp] theorem modTime_cal (f : TimeBase → TimeBase) : (s.modTime f).cal = s.cal := rfl
@[simp] theorem modTime_trig (f : TimeBase → TimeBase) : (s.modTime f).trig = s.trig := rfl
@[simp] theorem modTime_ctx (f : TimeBase → TimeBase) : (s.modTime f).ctx = s.ctx := rfl
@[simp] theorem modTime_capMem (f : TimeBase → TimeBase) : (s.modTime f).capMem = s.capMem := rfl
@[simp] theorem modTime_capEcc (f : TimeBase → TimeBase) : (s.modTime f).capEcc = s.capEcc := rfl
@[simp] theorem modTime_queue (f : TimeBase → TimeBase) : (s.modTime f).queue = s.queue := rfl
@[simp] theorem modTime_firAt (f : TimeBase → TimeBase) : (s.modTime f).firAt = s.firAt := rfl
@[simp] theorem modTime_qmem (f : TimeBase → TimeBase) : (s.modTime f).qmem = s.qmem := rfl
@[simp] theorem modTime_arbMem (f : TimeBase → TimeBase) : (s.modTime f).arbMem = s.arbMem := rfl
@[simp] theorem modTime_arbTx (f : TimeBase → TimeBase) : (s.modTime f).arbTx = s.arbTx := rfl
@[simp] theorem modTime_net (f : TimeBase → TimeBase) : (s.modTime f).net = s.net := rfl
@[simp] theorem modTime_pair (f : TimeBase → TimeBase) : (s.modTime f).pair = s.pair := rfl
@[simp] theorem modTime_rim (f : TimeBase → TimeBase) : (s.modTime f).rim = s.rim := rfl
@[simp] theorem modTime_mram (f : TimeBase → TimeBase) : (s.modTime f).mram = s.mram := rfl
@[simp] theorem modTime_power (f : TimeBase → TimeBase) : (s.modTime f).power = s.power := rfl
@[simp] theorem modTime_free (f : TimeBase → TimeBase) : (s.modTime f).free = s.free := rfl
@[simp] theorem modTime_reg (f : TimeBase → TimeBase) (a0 : Nat) : (s.modTime f).reg a0 = s.reg a0 := rfl
@[simp] theorem modTime_fld (f : TimeBase → TimeBase) (g0 : Fld) : (s.modTime f).fld g0 = s.fld g0 := rfl
@[simp] theorem modTime_bit (f : TimeBase → TimeBase) (g0 : Fld) : (s.modTime f).bit g0 = s.bit g0 := rfl
@[simp] theorem modTime_sfld (f : TimeBase → TimeBase) (g0 : Fld) : (s.modTime f).sfld g0 = s.sfld g0 := rfl
@[simp] theorem modTime_stg (f : TimeBase → TimeBase) (a0 : Nat) : (s.modTime f).stg a0 = s.stg a0 := rfl
@[simp] theorem modTime_self (f : TimeBase → TimeBase) : (s.modTime f).time = f s.time := rfl
@[simp] theorem modTime_getChan (f : TimeBase → TimeBase) (i : Nat) : (s.modTime f).getChan i = s.getChan i := rfl
@[simp] theorem modTime_getGroup (f : TimeBase → TimeBase) (i : Nat) : (s.modTime f).getGroup i = s.getGroup i := rfl
@[simp] theorem modTime_getSlice (f : TimeBase → TimeBase) (i : Nat) : (s.modTime f).getSlice i = s.getSlice i := rfl
@[simp] theorem modTime_getSent (f : TimeBase → TimeBase) (i : Nat) : (s.modTime f).getSent i = s.getSent i := rfl
@[simp] theorem modTime_getCtx (f : TimeBase → TimeBase) (i : Nat) : (s.modTime f).getCtx i = s.getCtx i := rfl
@[simp] theorem modTime_getQ (f : TimeBase → TimeBase) (i : Nat) : (s.modTime f).getQ i = s.getQ i := rfl

/-! ### modTrig -/

@[simp] theorem modTrig_pending (f : Trig → Trig) : (s.modTrig f).pending = s.pending := rfl
@[simp] theorem modTrig_time (f : Trig → Trig) : (s.modTrig f).time = s.time := rfl
@[simp] theorem modTrig_regs (f : Trig → Trig) : (s.modTrig f).regs = s.regs := rfl
@[simp] theorem modTrig_staged (f : Trig → Trig) : (s.modTrig f).staged = s.staged := rfl
@[simp] theorem modTrig_commits (f : Trig → Trig) : (s.modTrig f).commits = s.commits := rfl
@[simp] theorem modTrig_latchQ (f : Trig → Trig) : (s.modTrig f).latchQ = s.latchQ := rfl
@[simp] theorem modTrig_latchM (f : Trig → Trig) : (s.modTrig f).latchM = s.latchM := rfl
@[simp] theorem modTrig_rdata (f : Trig → Trig) : (s.modTrig f).rdata = s.rdata := rfl
@[simp] theorem modTrig_qspi (f : Trig → Trig) : (s.modTrig f).qspi = s.qspi := rfl
@[simp] theorem modTrig_pins (f : Trig → Trig) : (s.modTrig f).pins = s.pins := rfl
@[simp] theorem modTrig_servo (f : Trig → Trig) : (s.modTrig f).servo = s.servo := rfl
@[simp] theorem modTrig_ptp (f : Trig → Trig) : (s.modTrig f).ptp = s.ptp := rfl
@[simp] theorem modTrig_grid (f : Trig → Trig) : (s.modTrig f).grid = s.grid := rfl
@[simp] theorem modTrig_wale (f : Trig → Trig) : (s.modTrig f).wale = s.wale := rfl
@[simp] theorem modTrig_group (f : Trig → Trig) : (s.modTrig f).group = s.group := rfl
@[simp] theorem modTrig_chan (f : Trig → Trig) : (s.modTrig f).chan = s.chan := rfl
@[simp] theorem modTrig_slice (f : Trig → Trig) : (s.modTrig f).slice = s.slice := rfl
@[simp] theorem modTrig_sent (f : Trig → Trig) : (s.modTrig f).sent = s.sent := rfl
@[simp] theorem modTrig_sentQ (f : Trig → Trig) : (s.modTrig f).sentQ = s.sentQ := rfl
@[simp] theorem modTrig_cal (f : Trig → Trig) : (s.modTrig f).cal = s.cal := rfl
@[simp] theorem modTrig_ctx (f : Trig → Trig) : (s.modTrig f).ctx = s.ctx := rfl
@[simp] theorem modTrig_capMem (f : Trig → Trig) : (s.modTrig f).capMem = s.capMem := rfl
@[simp] theorem modTrig_capEcc (f : Trig → Trig) : (s.modTrig f).capEcc = s.capEcc := rfl
@[simp] theorem modTrig_queue (f : Trig → Trig) : (s.modTrig f).queue = s.queue := rfl
@[simp] theorem modTrig_firAt (f : Trig → Trig) : (s.modTrig f).firAt = s.firAt := rfl
@[simp] theorem modTrig_qmem (f : Trig → Trig) : (s.modTrig f).qmem = s.qmem := rfl
@[simp] theorem modTrig_arbMem (f : Trig → Trig) : (s.modTrig f).arbMem = s.arbMem := rfl
@[simp] theorem modTrig_arbTx (f : Trig → Trig) : (s.modTrig f).arbTx = s.arbTx := rfl
@[simp] theorem modTrig_net (f : Trig → Trig) : (s.modTrig f).net = s.net := rfl
@[simp] theorem modTrig_pair (f : Trig → Trig) : (s.modTrig f).pair = s.pair := rfl
@[simp] theorem modTrig_rim (f : Trig → Trig) : (s.modTrig f).rim = s.rim := rfl
@[simp] theorem modTrig_mram (f : Trig → Trig) : (s.modTrig f).mram = s.mram := rfl
@[simp] theorem modTrig_power (f : Trig → Trig) : (s.modTrig f).power = s.power := rfl
@[simp] theorem modTrig_free (f : Trig → Trig) : (s.modTrig f).free = s.free := rfl
@[simp] theorem modTrig_reg (f : Trig → Trig) (a0 : Nat) : (s.modTrig f).reg a0 = s.reg a0 := rfl
@[simp] theorem modTrig_fld (f : Trig → Trig) (g0 : Fld) : (s.modTrig f).fld g0 = s.fld g0 := rfl
@[simp] theorem modTrig_bit (f : Trig → Trig) (g0 : Fld) : (s.modTrig f).bit g0 = s.bit g0 := rfl
@[simp] theorem modTrig_sfld (f : Trig → Trig) (g0 : Fld) : (s.modTrig f).sfld g0 = s.sfld g0 := rfl
@[simp] theorem modTrig_stg (f : Trig → Trig) (a0 : Nat) : (s.modTrig f).stg a0 = s.stg a0 := rfl
@[simp] theorem modTrig_self (f : Trig → Trig) : (s.modTrig f).trig = f s.trig := rfl
@[simp] theorem modTrig_getChan (f : Trig → Trig) (i : Nat) : (s.modTrig f).getChan i = s.getChan i := rfl
@[simp] theorem modTrig_getGroup (f : Trig → Trig) (i : Nat) : (s.modTrig f).getGroup i = s.getGroup i := rfl
@[simp] theorem modTrig_getSlice (f : Trig → Trig) (i : Nat) : (s.modTrig f).getSlice i = s.getSlice i := rfl
@[simp] theorem modTrig_getSent (f : Trig → Trig) (i : Nat) : (s.modTrig f).getSent i = s.getSent i := rfl
@[simp] theorem modTrig_getCtx (f : Trig → Trig) (i : Nat) : (s.modTrig f).getCtx i = s.getCtx i := rfl
@[simp] theorem modTrig_getQ (f : Trig → Trig) (i : Nat) : (s.modTrig f).getQ i = s.getQ i := rfl

/-! ### modWale -/

@[simp] theorem modWale_pending (f : Wale → Wale) : (s.modWale f).pending = s.pending := rfl
@[simp] theorem modWale_time (f : Wale → Wale) : (s.modWale f).time = s.time := rfl
@[simp] theorem modWale_regs (f : Wale → Wale) : (s.modWale f).regs = s.regs := rfl
@[simp] theorem modWale_staged (f : Wale → Wale) : (s.modWale f).staged = s.staged := rfl
@[simp] theorem modWale_commits (f : Wale → Wale) : (s.modWale f).commits = s.commits := rfl
@[simp] theorem modWale_latchQ (f : Wale → Wale) : (s.modWale f).latchQ = s.latchQ := rfl
@[simp] theorem modWale_latchM (f : Wale → Wale) : (s.modWale f).latchM = s.latchM := rfl
@[simp] theorem modWale_rdata (f : Wale → Wale) : (s.modWale f).rdata = s.rdata := rfl
@[simp] theorem modWale_qspi (f : Wale → Wale) : (s.modWale f).qspi = s.qspi := rfl
@[simp] theorem modWale_pins (f : Wale → Wale) : (s.modWale f).pins = s.pins := rfl
@[simp] theorem modWale_servo (f : Wale → Wale) : (s.modWale f).servo = s.servo := rfl
@[simp] theorem modWale_ptp (f : Wale → Wale) : (s.modWale f).ptp = s.ptp := rfl
@[simp] theorem modWale_grid (f : Wale → Wale) : (s.modWale f).grid = s.grid := rfl
@[simp] theorem modWale_group (f : Wale → Wale) : (s.modWale f).group = s.group := rfl
@[simp] theorem modWale_chan (f : Wale → Wale) : (s.modWale f).chan = s.chan := rfl
@[simp] theorem modWale_slice (f : Wale → Wale) : (s.modWale f).slice = s.slice := rfl
@[simp] theorem modWale_sent (f : Wale → Wale) : (s.modWale f).sent = s.sent := rfl
@[simp] theorem modWale_sentQ (f : Wale → Wale) : (s.modWale f).sentQ = s.sentQ := rfl
@[simp] theorem modWale_cal (f : Wale → Wale) : (s.modWale f).cal = s.cal := rfl
@[simp] theorem modWale_trig (f : Wale → Wale) : (s.modWale f).trig = s.trig := rfl
@[simp] theorem modWale_ctx (f : Wale → Wale) : (s.modWale f).ctx = s.ctx := rfl
@[simp] theorem modWale_capMem (f : Wale → Wale) : (s.modWale f).capMem = s.capMem := rfl
@[simp] theorem modWale_capEcc (f : Wale → Wale) : (s.modWale f).capEcc = s.capEcc := rfl
@[simp] theorem modWale_queue (f : Wale → Wale) : (s.modWale f).queue = s.queue := rfl
@[simp] theorem modWale_firAt (f : Wale → Wale) : (s.modWale f).firAt = s.firAt := rfl
@[simp] theorem modWale_qmem (f : Wale → Wale) : (s.modWale f).qmem = s.qmem := rfl
@[simp] theorem modWale_arbMem (f : Wale → Wale) : (s.modWale f).arbMem = s.arbMem := rfl
@[simp] theorem modWale_arbTx (f : Wale → Wale) : (s.modWale f).arbTx = s.arbTx := rfl
@[simp] theorem modWale_net (f : Wale → Wale) : (s.modWale f).net = s.net := rfl
@[simp] theorem modWale_pair (f : Wale → Wale) : (s.modWale f).pair = s.pair := rfl
@[simp] theorem modWale_rim (f : Wale → Wale) : (s.modWale f).rim = s.rim := rfl
@[simp] theorem modWale_mram (f : Wale → Wale) : (s.modWale f).mram = s.mram := rfl
@[simp] theorem modWale_power (f : Wale → Wale) : (s.modWale f).power = s.power := rfl
@[simp] theorem modWale_free (f : Wale → Wale) : (s.modWale f).free = s.free := rfl
@[simp] theorem modWale_reg (f : Wale → Wale) (a0 : Nat) : (s.modWale f).reg a0 = s.reg a0 := rfl
@[simp] theorem modWale_fld (f : Wale → Wale) (g0 : Fld) : (s.modWale f).fld g0 = s.fld g0 := rfl
@[simp] theorem modWale_bit (f : Wale → Wale) (g0 : Fld) : (s.modWale f).bit g0 = s.bit g0 := rfl
@[simp] theorem modWale_sfld (f : Wale → Wale) (g0 : Fld) : (s.modWale f).sfld g0 = s.sfld g0 := rfl
@[simp] theorem modWale_stg (f : Wale → Wale) (a0 : Nat) : (s.modWale f).stg a0 = s.stg a0 := rfl
@[simp] theorem modWale_self (f : Wale → Wale) : (s.modWale f).wale = f s.wale := rfl
@[simp] theorem modWale_getChan (f : Wale → Wale) (i : Nat) : (s.modWale f).getChan i = s.getChan i := rfl
@[simp] theorem modWale_getGroup (f : Wale → Wale) (i : Nat) : (s.modWale f).getGroup i = s.getGroup i := rfl
@[simp] theorem modWale_getSlice (f : Wale → Wale) (i : Nat) : (s.modWale f).getSlice i = s.getSlice i := rfl
@[simp] theorem modWale_getSent (f : Wale → Wale) (i : Nat) : (s.modWale f).getSent i = s.getSent i := rfl
@[simp] theorem modWale_getCtx (f : Wale → Wale) (i : Nat) : (s.modWale f).getCtx i = s.getCtx i := rfl
@[simp] theorem modWale_getQ (f : Wale → Wale) (i : Nat) : (s.modWale f).getQ i = s.getQ i := rfl

/-! ### modPower -/

@[simp] theorem modPower_pending (f : Power → Power) : (s.modPower f).pending = s.pending := rfl
@[simp] theorem modPower_time (f : Power → Power) : (s.modPower f).time = s.time := rfl
@[simp] theorem modPower_regs (f : Power → Power) : (s.modPower f).regs = s.regs := rfl
@[simp] theorem modPower_staged (f : Power → Power) : (s.modPower f).staged = s.staged := rfl
@[simp] theorem modPower_commits (f : Power → Power) : (s.modPower f).commits = s.commits := rfl
@[simp] theorem modPower_latchQ (f : Power → Power) : (s.modPower f).latchQ = s.latchQ := rfl
@[simp] theorem modPower_latchM (f : Power → Power) : (s.modPower f).latchM = s.latchM := rfl
@[simp] theorem modPower_rdata (f : Power → Power) : (s.modPower f).rdata = s.rdata := rfl
@[simp] theorem modPower_qspi (f : Power → Power) : (s.modPower f).qspi = s.qspi := rfl
@[simp] theorem modPower_pins (f : Power → Power) : (s.modPower f).pins = s.pins := rfl
@[simp] theorem modPower_servo (f : Power → Power) : (s.modPower f).servo = s.servo := rfl
@[simp] theorem modPower_ptp (f : Power → Power) : (s.modPower f).ptp = s.ptp := rfl
@[simp] theorem modPower_grid (f : Power → Power) : (s.modPower f).grid = s.grid := rfl
@[simp] theorem modPower_wale (f : Power → Power) : (s.modPower f).wale = s.wale := rfl
@[simp] theorem modPower_group (f : Power → Power) : (s.modPower f).group = s.group := rfl
@[simp] theorem modPower_chan (f : Power → Power) : (s.modPower f).chan = s.chan := rfl
@[simp] theorem modPower_slice (f : Power → Power) : (s.modPower f).slice = s.slice := rfl
@[simp] theorem modPower_sent (f : Power → Power) : (s.modPower f).sent = s.sent := rfl
@[simp] theorem modPower_sentQ (f : Power → Power) : (s.modPower f).sentQ = s.sentQ := rfl
@[simp] theorem modPower_cal (f : Power → Power) : (s.modPower f).cal = s.cal := rfl
@[simp] theorem modPower_trig (f : Power → Power) : (s.modPower f).trig = s.trig := rfl
@[simp] theorem modPower_ctx (f : Power → Power) : (s.modPower f).ctx = s.ctx := rfl
@[simp] theorem modPower_capMem (f : Power → Power) : (s.modPower f).capMem = s.capMem := rfl
@[simp] theorem modPower_capEcc (f : Power → Power) : (s.modPower f).capEcc = s.capEcc := rfl
@[simp] theorem modPower_queue (f : Power → Power) : (s.modPower f).queue = s.queue := rfl
@[simp] theorem modPower_firAt (f : Power → Power) : (s.modPower f).firAt = s.firAt := rfl
@[simp] theorem modPower_qmem (f : Power → Power) : (s.modPower f).qmem = s.qmem := rfl
@[simp] theorem modPower_arbMem (f : Power → Power) : (s.modPower f).arbMem = s.arbMem := rfl
@[simp] theorem modPower_arbTx (f : Power → Power) : (s.modPower f).arbTx = s.arbTx := rfl
@[simp] theorem modPower_net (f : Power → Power) : (s.modPower f).net = s.net := rfl
@[simp] theorem modPower_pair (f : Power → Power) : (s.modPower f).pair = s.pair := rfl
@[simp] theorem modPower_rim (f : Power → Power) : (s.modPower f).rim = s.rim := rfl
@[simp] theorem modPower_mram (f : Power → Power) : (s.modPower f).mram = s.mram := rfl
@[simp] theorem modPower_free (f : Power → Power) : (s.modPower f).free = s.free := rfl
@[simp] theorem modPower_reg (f : Power → Power) (a0 : Nat) : (s.modPower f).reg a0 = s.reg a0 := rfl
@[simp] theorem modPower_fld (f : Power → Power) (g0 : Fld) : (s.modPower f).fld g0 = s.fld g0 := rfl
@[simp] theorem modPower_bit (f : Power → Power) (g0 : Fld) : (s.modPower f).bit g0 = s.bit g0 := rfl
@[simp] theorem modPower_sfld (f : Power → Power) (g0 : Fld) : (s.modPower f).sfld g0 = s.sfld g0 := rfl
@[simp] theorem modPower_stg (f : Power → Power) (a0 : Nat) : (s.modPower f).stg a0 = s.stg a0 := rfl
@[simp] theorem modPower_self (f : Power → Power) : (s.modPower f).power = f s.power := rfl
@[simp] theorem modPower_getChan (f : Power → Power) (i : Nat) : (s.modPower f).getChan i = s.getChan i := rfl
@[simp] theorem modPower_getGroup (f : Power → Power) (i : Nat) : (s.modPower f).getGroup i = s.getGroup i := rfl
@[simp] theorem modPower_getSlice (f : Power → Power) (i : Nat) : (s.modPower f).getSlice i = s.getSlice i := rfl
@[simp] theorem modPower_getSent (f : Power → Power) (i : Nat) : (s.modPower f).getSent i = s.getSent i := rfl
@[simp] theorem modPower_getCtx (f : Power → Power) (i : Nat) : (s.modPower f).getCtx i = s.getCtx i := rfl
@[simp] theorem modPower_getQ (f : Power → Power) (i : Nat) : (s.modPower f).getQ i = s.getQ i := rfl

/-! ### modMram -/

@[simp] theorem modMram_pending (f : Mram → Mram) : (s.modMram f).pending = s.pending := rfl
@[simp] theorem modMram_time (f : Mram → Mram) : (s.modMram f).time = s.time := rfl
@[simp] theorem modMram_regs (f : Mram → Mram) : (s.modMram f).regs = s.regs := rfl
@[simp] theorem modMram_staged (f : Mram → Mram) : (s.modMram f).staged = s.staged := rfl
@[simp] theorem modMram_commits (f : Mram → Mram) : (s.modMram f).commits = s.commits := rfl
@[simp] theorem modMram_latchQ (f : Mram → Mram) : (s.modMram f).latchQ = s.latchQ := rfl
@[simp] theorem modMram_latchM (f : Mram → Mram) : (s.modMram f).latchM = s.latchM := rfl
@[simp] theorem modMram_rdata (f : Mram → Mram) : (s.modMram f).rdata = s.rdata := rfl
@[simp] theorem modMram_qspi (f : Mram → Mram) : (s.modMram f).qspi = s.qspi := rfl
@[simp] theorem modMram_pins (f : Mram → Mram) : (s.modMram f).pins = s.pins := rfl
@[simp] theorem modMram_servo (f : Mram → Mram) : (s.modMram f).servo = s.servo := rfl
@[simp] theorem modMram_ptp (f : Mram → Mram) : (s.modMram f).ptp = s.ptp := rfl
@[simp] theorem modMram_grid (f : Mram → Mram) : (s.modMram f).grid = s.grid := rfl
@[simp] theorem modMram_wale (f : Mram → Mram) : (s.modMram f).wale = s.wale := rfl
@[simp] theorem modMram_group (f : Mram → Mram) : (s.modMram f).group = s.group := rfl
@[simp] theorem modMram_chan (f : Mram → Mram) : (s.modMram f).chan = s.chan := rfl
@[simp] theorem modMram_slice (f : Mram → Mram) : (s.modMram f).slice = s.slice := rfl
@[simp] theorem modMram_sent (f : Mram → Mram) : (s.modMram f).sent = s.sent := rfl
@[simp] theorem modMram_sentQ (f : Mram → Mram) : (s.modMram f).sentQ = s.sentQ := rfl
@[simp] theorem modMram_cal (f : Mram → Mram) : (s.modMram f).cal = s.cal := rfl
@[simp] theorem modMram_trig (f : Mram → Mram) : (s.modMram f).trig = s.trig := rfl
@[simp] theorem modMram_ctx (f : Mram → Mram) : (s.modMram f).ctx = s.ctx := rfl
@[simp] theorem modMram_capMem (f : Mram → Mram) : (s.modMram f).capMem = s.capMem := rfl
@[simp] theorem modMram_capEcc (f : Mram → Mram) : (s.modMram f).capEcc = s.capEcc := rfl
@[simp] theorem modMram_queue (f : Mram → Mram) : (s.modMram f).queue = s.queue := rfl
@[simp] theorem modMram_firAt (f : Mram → Mram) : (s.modMram f).firAt = s.firAt := rfl
@[simp] theorem modMram_qmem (f : Mram → Mram) : (s.modMram f).qmem = s.qmem := rfl
@[simp] theorem modMram_arbMem (f : Mram → Mram) : (s.modMram f).arbMem = s.arbMem := rfl
@[simp] theorem modMram_arbTx (f : Mram → Mram) : (s.modMram f).arbTx = s.arbTx := rfl
@[simp] theorem modMram_net (f : Mram → Mram) : (s.modMram f).net = s.net := rfl
@[simp] theorem modMram_pair (f : Mram → Mram) : (s.modMram f).pair = s.pair := rfl
@[simp] theorem modMram_rim (f : Mram → Mram) : (s.modMram f).rim = s.rim := rfl
@[simp] theorem modMram_power (f : Mram → Mram) : (s.modMram f).power = s.power := rfl
@[simp] theorem modMram_free (f : Mram → Mram) : (s.modMram f).free = s.free := rfl
@[simp] theorem modMram_reg (f : Mram → Mram) (a0 : Nat) : (s.modMram f).reg a0 = s.reg a0 := rfl
@[simp] theorem modMram_fld (f : Mram → Mram) (g0 : Fld) : (s.modMram f).fld g0 = s.fld g0 := rfl
@[simp] theorem modMram_bit (f : Mram → Mram) (g0 : Fld) : (s.modMram f).bit g0 = s.bit g0 := rfl
@[simp] theorem modMram_sfld (f : Mram → Mram) (g0 : Fld) : (s.modMram f).sfld g0 = s.sfld g0 := rfl
@[simp] theorem modMram_stg (f : Mram → Mram) (a0 : Nat) : (s.modMram f).stg a0 = s.stg a0 := rfl
@[simp] theorem modMram_self (f : Mram → Mram) : (s.modMram f).mram = f s.mram := rfl
@[simp] theorem modMram_getChan (f : Mram → Mram) (i : Nat) : (s.modMram f).getChan i = s.getChan i := rfl
@[simp] theorem modMram_getGroup (f : Mram → Mram) (i : Nat) : (s.modMram f).getGroup i = s.getGroup i := rfl
@[simp] theorem modMram_getSlice (f : Mram → Mram) (i : Nat) : (s.modMram f).getSlice i = s.getSlice i := rfl
@[simp] theorem modMram_getSent (f : Mram → Mram) (i : Nat) : (s.modMram f).getSent i = s.getSent i := rfl
@[simp] theorem modMram_getCtx (f : Mram → Mram) (i : Nat) : (s.modMram f).getCtx i = s.getCtx i := rfl
@[simp] theorem modMram_getQ (f : Mram → Mram) (i : Nat) : (s.modMram f).getQ i = s.getQ i := rfl

/-! ### modPins -/

@[simp] theorem modPins_pending (f : Pins → Pins) : (s.modPins f).pending = s.pending := rfl
@[simp] theorem modPins_time (f : Pins → Pins) : (s.modPins f).time = s.time := rfl
@[simp] theorem modPins_regs (f : Pins → Pins) : (s.modPins f).regs = s.regs := rfl
@[simp] theorem modPins_staged (f : Pins → Pins) : (s.modPins f).staged = s.staged := rfl
@[simp] theorem modPins_commits (f : Pins → Pins) : (s.modPins f).commits = s.commits := rfl
@[simp] theorem modPins_latchQ (f : Pins → Pins) : (s.modPins f).latchQ = s.latchQ := rfl
@[simp] theorem modPins_latchM (f : Pins → Pins) : (s.modPins f).latchM = s.latchM := rfl
@[simp] theorem modPins_rdata (f : Pins → Pins) : (s.modPins f).rdata = s.rdata := rfl
@[simp] theorem modPins_qspi (f : Pins → Pins) : (s.modPins f).qspi = s.qspi := rfl
@[simp] theorem modPins_servo (f : Pins → Pins) : (s.modPins f).servo = s.servo := rfl
@[simp] theorem modPins_ptp (f : Pins → Pins) : (s.modPins f).ptp = s.ptp := rfl
@[simp] theorem modPins_grid (f : Pins → Pins) : (s.modPins f).grid = s.grid := rfl
@[simp] theorem modPins_wale (f : Pins → Pins) : (s.modPins f).wale = s.wale := rfl
@[simp] theorem modPins_group (f : Pins → Pins) : (s.modPins f).group = s.group := rfl
@[simp] theorem modPins_chan (f : Pins → Pins) : (s.modPins f).chan = s.chan := rfl
@[simp] theorem modPins_slice (f : Pins → Pins) : (s.modPins f).slice = s.slice := rfl
@[simp] theorem modPins_sent (f : Pins → Pins) : (s.modPins f).sent = s.sent := rfl
@[simp] theorem modPins_sentQ (f : Pins → Pins) : (s.modPins f).sentQ = s.sentQ := rfl
@[simp] theorem modPins_cal (f : Pins → Pins) : (s.modPins f).cal = s.cal := rfl
@[simp] theorem modPins_trig (f : Pins → Pins) : (s.modPins f).trig = s.trig := rfl
@[simp] theorem modPins_ctx (f : Pins → Pins) : (s.modPins f).ctx = s.ctx := rfl
@[simp] theorem modPins_capMem (f : Pins → Pins) : (s.modPins f).capMem = s.capMem := rfl
@[simp] theorem modPins_capEcc (f : Pins → Pins) : (s.modPins f).capEcc = s.capEcc := rfl
@[simp] theorem modPins_queue (f : Pins → Pins) : (s.modPins f).queue = s.queue := rfl
@[simp] theorem modPins_firAt (f : Pins → Pins) : (s.modPins f).firAt = s.firAt := rfl
@[simp] theorem modPins_qmem (f : Pins → Pins) : (s.modPins f).qmem = s.qmem := rfl
@[simp] theorem modPins_arbMem (f : Pins → Pins) : (s.modPins f).arbMem = s.arbMem := rfl
@[simp] theorem modPins_arbTx (f : Pins → Pins) : (s.modPins f).arbTx = s.arbTx := rfl
@[simp] theorem modPins_net (f : Pins → Pins) : (s.modPins f).net = s.net := rfl
@[simp] theorem modPins_pair (f : Pins → Pins) : (s.modPins f).pair = s.pair := rfl
@[simp] theorem modPins_rim (f : Pins → Pins) : (s.modPins f).rim = s.rim := rfl
@[simp] theorem modPins_mram (f : Pins → Pins) : (s.modPins f).mram = s.mram := rfl
@[simp] theorem modPins_power (f : Pins → Pins) : (s.modPins f).power = s.power := rfl
@[simp] theorem modPins_free (f : Pins → Pins) : (s.modPins f).free = s.free := rfl
@[simp] theorem modPins_reg (f : Pins → Pins) (a0 : Nat) : (s.modPins f).reg a0 = s.reg a0 := rfl
@[simp] theorem modPins_fld (f : Pins → Pins) (g0 : Fld) : (s.modPins f).fld g0 = s.fld g0 := rfl
@[simp] theorem modPins_bit (f : Pins → Pins) (g0 : Fld) : (s.modPins f).bit g0 = s.bit g0 := rfl
@[simp] theorem modPins_sfld (f : Pins → Pins) (g0 : Fld) : (s.modPins f).sfld g0 = s.sfld g0 := rfl
@[simp] theorem modPins_stg (f : Pins → Pins) (a0 : Nat) : (s.modPins f).stg a0 = s.stg a0 := rfl
@[simp] theorem modPins_self (f : Pins → Pins) : (s.modPins f).pins = f s.pins := rfl
@[simp] theorem modPins_getChan (f : Pins → Pins) (i : Nat) : (s.modPins f).getChan i = s.getChan i := rfl
@[simp] theorem modPins_getGroup (f : Pins → Pins) (i : Nat) : (s.modPins f).getGroup i = s.getGroup i := rfl
@[simp] theorem modPins_getSlice (f : Pins → Pins) (i : Nat) : (s.modPins f).getSlice i = s.getSlice i := rfl
@[simp] theorem modPins_getSent (f : Pins → Pins) (i : Nat) : (s.modPins f).getSent i = s.getSent i := rfl
@[simp] theorem modPins_getCtx (f : Pins → Pins) (i : Nat) : (s.modPins f).getCtx i = s.getCtx i := rfl
@[simp] theorem modPins_getQ (f : Pins → Pins) (i : Nat) : (s.modPins f).getQ i = s.getQ i := rfl

/-! ### Instances in `chan` -/

@[simp] theorem getChan_setChan_same (n : Nat) (x : Chan) : (s.setChan n x).getChan n = x := sget_sset_same _ _ _ _
theorem getChan_setChan_ne (n k : Nat) (x : Chan) (h : k ≠ n) : (s.setChan n x).getChan k = s.getChan k := sget_sset_ne _ _ _ _ _ _ h
@[simp] theorem getChan_modChan_same (n : Nat) (f : Chan → Chan) : (s.modChan n f).getChan n = f (s.getChan n) := sget_sset_same _ _ _ _
theorem getChan_modChan_ne (n k : Nat) (f : Chan → Chan) (h : k ≠ n) : (s.modChan n f).getChan k = s.getChan k :=
  sget_sset_ne _ _ _ _ _ _ h

/-! ### Instances in `group` -/

@[simp] theorem getGroup_setGroup_same (n : Nat) (x : Group) : (s.setGroup n x).getGroup n = x := sget_sset_same _ _ _ _
theorem getGroup_setGroup_ne (n k : Nat) (x : Group) (h : k ≠ n) : (s.setGroup n x).getGroup k = s.getGroup k := sget_sset_ne _ _ _ _ _ _ h
@[simp] theorem getGroup_modGroup_same (n : Nat) (f : Group → Group) : (s.modGroup n f).getGroup n = f (s.getGroup n) := sget_sset_same _ _ _ _
theorem getGroup_modGroup_ne (n k : Nat) (f : Group → Group) (h : k ≠ n) : (s.modGroup n f).getGroup k = s.getGroup k :=
  sget_sset_ne _ _ _ _ _ _ h

/-! ### Instances in `slice` -/

@[simp] theorem getSlice_setSlice_same (n : Nat) (x : Slice) : (s.setSlice n x).getSlice n = x := sget_sset_same _ _ _ _
theorem getSlice_setSlice_ne (n k : Nat) (x : Slice) (h : k ≠ n) : (s.setSlice n x).getSlice k = s.getSlice k := sget_sset_ne _ _ _ _ _ _ h
@[simp] theorem getSlice_modSlice_same (n : Nat) (f : Slice → Slice) : (s.modSlice n f).getSlice n = f (s.getSlice n) := sget_sset_same _ _ _ _
theorem getSlice_modSlice_ne (n k : Nat) (f : Slice → Slice) (h : k ≠ n) : (s.modSlice n f).getSlice k = s.getSlice k :=
  sget_sset_ne _ _ _ _ _ _ h

/-! ### Instances in `sent` -/

@[simp] theorem getSent_setSent_same (n : Nat) (x : Sent) : (s.setSent n x).getSent n = x := sget_sset_same _ _ _ _
theorem getSent_setSent_ne (n k : Nat) (x : Sent) (h : k ≠ n) : (s.setSent n x).getSent k = s.getSent k := sget_sset_ne _ _ _ _ _ _ h
@[simp] theorem getSent_modSent_same (n : Nat) (f : Sent → Sent) : (s.modSent n f).getSent n = f (s.getSent n) := sget_sset_same _ _ _ _
theorem getSent_modSent_ne (n k : Nat) (f : Sent → Sent) (h : k ≠ n) : (s.modSent n f).getSent k = s.getSent k :=
  sget_sset_ne _ _ _ _ _ _ h

/-! ### Instances in `ctx` -/

@[simp] theorem getCtx_setCtx_same (n : Nat) (x : Ctx) : (s.setCtx n x).getCtx n = x := sget_sset_same _ _ _ _
theorem getCtx_setCtx_ne (n k : Nat) (x : Ctx) (h : k ≠ n) : (s.setCtx n x).getCtx k = s.getCtx k := sget_sset_ne _ _ _ _ _ _ h
@[simp] theorem getCtx_modCtx_same (n : Nat) (f : Ctx → Ctx) : (s.modCtx n f).getCtx n = f (s.getCtx n) := sget_sset_same _ _ _ _
theorem getCtx_modCtx_ne (n k : Nat) (f : Ctx → Ctx) (h : k ≠ n) : (s.modCtx n f).getCtx k = s.getCtx k :=
  sget_sset_ne _ _ _ _ _ _ h

/-! ### Instances in `queue` -/

@[simp] theorem getQ_setQ_same (n : Nat) (x : Queue) : (s.setQ n x).getQ n = x := sget_sset_same _ _ _ _
theorem getQ_setQ_ne (n k : Nat) (x : Queue) (h : k ≠ n) : (s.setQ n x).getQ k = s.getQ k := sget_sset_ne _ _ _ _ _ _ h
@[simp] theorem getQ_modQ_same (n : Nat) (f : Queue → Queue) : (s.modQ n f).getQ n = f (s.getQ n) := sget_sset_same _ _ _ _
theorem getQ_modQ_ne (n k : Nat) (f : Queue → Queue) (h : k ≠ n) : (s.modQ n f).getQ k = s.getQ k :=
  sget_sset_ne _ _ _ _ _ _ h

end Sys2Proof.Laws
end

