-- ==== Sys2Proof/Laws/Settle.lean ====
section
/-!
SUPPORT. What every command ends with: on a quiet state nothing, so that a command's own effect is all that happens; and how the shared
operations that raise interrupts and faults keep a state quiet.
-/

namespace Sys2Proof.Laws

open Sys2Proof Sys2Proof.Machine

/-- The parts of a quiet state. -/
theorem quiet_iff (s : State) : s.quiet = true ↔ s.power.held = false ∧ s.power.abandoned = false ∧ s.net.local_ = none
    ∧ s.arbTx.owner = none ∧ s.rim.fatalDue = false ∧ s.rim.due = [] ∧ s.fld F.NVM.BOOT_STS.STEP ≠ 9 := by
  simp [State.quiet, and_assoc]

/-- On a quiet state nothing is left to be done. -/
theorem settle_quiet (s : State) (h : s.quiet = true) : settle s = s := by
  obtain ⟨-, -, h1, h2, h3, h4, h5⟩ := (quiet_iff s).1 h
  have e1 : s.frameEnd = s := by rw [State.frameEnd, h1]
  have e2 : s.txDrop = s := by rw [State.txDrop, h1, h2]
  have e3 : State.serveDue 1024 s = s := by rw [State.serveDue, h4]
  have e4 : s.bootLast = s := by rw [State.bootLast, if_neg fun h => h5 h.1]
  simp [settle, e1, e2, e3, e4, h3, State.when]

theorem inReset_of_quiet (s : State) (h : s.quiet = true) : s.inReset = false := by
  obtain ⟨h0, h1, -⟩ := (quiet_iff s).1 h
  simp [State.inReset, h0, h1]

theorem sealed_of_quiet (t s : State) (h : t.quiet = true) (hp : t.pending = s.pending) : t.sealed s = t := by
  obtain ⟨h0, h1, -⟩ := (quiet_iff t).1 h
  cases t with
  | mk => simp_all [State.sealed]; rename_i p _; cases p; simp_all

/-- A command that meets a quiet state and leaves one has its own effect and nothing else. -/
theorem act_quiet (f : State → State) (s : State) (hs : s.quiet = true) (hf : (f s).quiet = true) (hp : (f s).pending = s.pending) :
    act f s = .next (f s) := by
  simp [act, inReset_of_quiet s hs, settle_quiet _ hf, sealed_of_quiet _ _ hf hp]

/-- The same of a register write, which starts the count of test-mode keys afresh (R428). -/
theorem actW_quiet (f : State → State) (s : State) (hs : s.quiet = true) (hf : (f s.otherWrite).quiet = true)
    (hp : (f s.otherWrite).pending = s.pending) : actW f s = .next (f s.otherWrite) := act_quiet _ s hs hf hp

/-- In reset no command but those of reset changes anything (R466). -/
theorem act_reset (f : State → State) (s : State) (h : s.inReset = true) : act f s = .next s := by simp [act, h]

/-- A command always completes, and leaves the queue of commands alone. -/
theorem act_next (f : State → State) (s : State) : ∃ t, act f s = .next t ∧ t.pending = s.pending := by
  refine ⟨_, rfl, ?_⟩
  split <;> rfl

/-! ## How updates keep a state quiet -/

/-- Quietness depends on a few parts of the state. -/
theorem quiet_congr (s t : State) (h1 : t.power.held = s.power.held) (h2 : t.power.abandoned = s.power.abandoned)
    (h3 : t.net.local_ = s.net.local_) (h4 : t.arbTx.owner = s.arbTx.owner) (h5 : t.rim.fatalDue = s.rim.fatalDue)
    (h6 : t.rim.due = s.rim.due) (h7 : t.fld F.NVM.BOOT_STS.STEP = s.fld F.NVM.BOOT_STS.STEP) : t.quiet = s.quiet := by
  simp only [State.quiet, h1, h2, h3, h4, h5, h6, h7]

theorem quiet_setReg (s : State) (a : Nat) (v : Reg) (h : a ≠ 0x005040) : (s.setReg a v).quiet = s.quiet := by
  apply quiet_congr <;> first | rfl | skip
  exact congrArg (fun r => getBits r _ _) (reg_setReg_ne s a _ v (Ne.symm h))

theorem quiet_setFld (s : State) (f : Fld) (x : Nat) (h : f.addr ≠ 0x005040) : (s.setFld f x).quiet = s.quiet :=
  quiet_setReg s _ _ h

theorem quiet_setBit (s : State) (f : Fld) (b : Bool) (h : f.addr ≠ 0x005040) : (s.setBit f b).quiet = s.quiet :=
  quiet_setReg s _ _ h

theorem quiet_setSfld (s : State) (f : Fld) (x : Int) (h : f.addr ≠ 0x005040) : (s.setSfld f x).quiet = s.quiet :=
  quiet_setReg s _ _ h

theorem quiet_count (s : State) (f : Fld) (k : Nat) (h : f.addr ≠ 0x005040) : (s.count f k).quiet = s.quiet :=
  quiet_setReg s _ _ h

theorem quiet_setFld64 (s : State) (l u : Fld) (x : Nat) (h : l.addr ≠ 0x005040) (h' : u.addr ≠ 0x005040) :
    (s.setFld64 l u x).quiet = s.quiet := by
  rw [State.setFld64, quiet_setFld _ _ _ h', quiet_setFld _ _ _ h]

@[simp] theorem quiet_setStg (s : State) (a : Nat) (v : Reg) : (s.setStg a v).quiet = s.quiet := rfl
@[simp] theorem quiet_setChan (s : State) (c : Nat) (x : Chan) : (s.setChan c x).quiet = s.quiet := rfl
@[simp] theorem quiet_modChan (s : State) (c : Nat) (f : Chan → Chan) : (s.modChan c f).quiet = s.quiet := rfl
@[simp] theorem quiet_setGroup (s : State) (g : Nat) (x : Group) : (s.setGroup g x).quiet = s.quiet := rfl
@[simp] theorem quiet_modGroup (s : State) (g : Nat) (f : Group → Group) : (s.modGroup g f).quiet = s.quiet := rfl
@[simp] theorem quiet_setSlice (s : State) (n : Nat) (x : Slice) : (s.setSlice n x).quiet = s.quiet := rfl
@[simp] theorem quiet_modSlice (s : State) (n : Nat) (f : Slice → Slice) : (s.modSlice n f).quiet = s.quiet := rfl
@[simp] theorem quiet_setSent (s : State) (n : Nat) (x : Sent) : (s.setSent n x).quiet = s.quiet := rfl
@[simp] theorem quiet_modSent (s : State) (n : Nat) (f : Sent → Sent) : (s.modSent n f).quiet = s.quiet := rfl
@[simp] theorem quiet_setCtx (s : State) (x : Nat) (v : Ctx) : (s.setCtx x v).quiet = s.quiet := rfl
@[simp] theorem quiet_modCtx (s : State) (x : Nat) (f : Ctx → Ctx) : (s.modCtx x f).quiet = s.quiet := rfl
@[simp] theorem quiet_setQ (s : State) (q : Nat) (v : Queue) : (s.setQ q v).quiet = s.quiet := rfl
@[simp] theorem quiet_modQ (s : State) (q : Nat) (f : Queue → Queue) : (s.modQ q f).quiet = s.quiet := rfl
@[simp] theorem quiet_modPair (s : State) (f : Pair → Pair) : (s.modPair f).quiet = s.quiet := rfl
@[simp] theorem quiet_modCal (s : State) (f : Cal → Cal) : (s.modCal f).quiet = s.quiet := rfl
@[simp] theorem quiet_modGrid (s : State) (f : Grid → Grid) : (s.modGrid f).quiet = s.quiet := rfl
@[simp] theorem quiet_modServo (s : State) (f : Servo → Servo) : (s.modServo f).quiet = s.quiet := rfl
@[simp] theorem quiet_modPtp (s : State) (f : Ptp → Ptp) : (s.modPtp f).quiet = s.quiet := rfl
@[simp] theorem quiet_modTime (s : State) (f : TimeBase → TimeBase) : (s.modTime f).quiet = s.quiet := rfl
@[simp] theorem quiet_modTrig (s : State) (f : Trig → Trig) : (s.modTrig f).quiet = s.quiet := rfl
@[simp] theorem quiet_modWale (s : State) (f : Wale → Wale) : (s.modWale f).quiet = s.quiet := rfl
@[simp] theorem quiet_modMram (s : State) (f : Mram → Mram) : (s.modMram f).quiet = s.quiet := rfl
@[simp] theorem quiet_modPins (s : State) (f : Pins → Pins) : (s.modPins f).quiet = s.quiet := rfl
@[simp] theorem quiet_otherWrite (s : State) : s.otherWrite.quiet = s.quiet := rfl

theorem quiet_modRim (s : State) (f : Rim → Rim) (h : (f s.rim).fatalDue = s.rim.fatalDue) (h' : (f s.rim).due = s.rim.due) :
    (s.modRim f).quiet = s.quiet := by
  apply quiet_congr <;> first | rfl | assumption


/-! ## Interrupts -/

/-- An interrupt bit whose page sends nothing in band changes one register only (R421, R425). -/
theorem raiseInt_quietly (s : State) (i : IntBit) (h : s.bit (F.HDR.INT_ROUTE.INBAND i.page) = false) :
    s.raiseInt i = s.setReg (0x1000 * i.page + 0x010) (s.reg (0x1000 * i.page + 0x010) ||| BitVec.ofNat 32 (2 ^ i.bit)) := by
  have h' : (s.setReg (0x1000 * i.page + 0x010) (s.reg (0x1000 * i.page + 0x010) ||| BitVec.ofNat 32 (2 ^ i.bit))).bit
      (F.HDR.INT_ROUTE.INBAND i.page) = false := by
    rw [← h, State.bit, State.bit, State.fld, State.fld, reg_setReg_ne]
    show (0x1000 * i.page + _ : Nat) ≠ _
    omega
  simp only [State.raiseInt, State.dueBits, h', Bool.false_eq_true, if_false]

/-- Raising an interrupt sets its bit. -/
theorem raiseInt_sets (s : State) (i : IntBit) :
    (s.raiseInt i).reg (0x1000 * i.page + 0x010) = s.reg (0x1000 * i.page + 0x010) ||| BitVec.ofNat 32 (2 ^ i.bit) := by
  simp only [State.raiseInt, State.dueBits]
  split
  · exact reg_setReg_same _ _ _
  · exact reg_setReg_same _ _ _

/-- Raising an interrupt leaves every other register. -/
theorem raiseInt_reg_ne (s : State) (i : IntBit) (a : Nat) (h : a ≠ 0x1000 * i.page + 0x010) : (s.raiseInt i).reg a = s.reg a := by
  simp only [State.raiseInt, State.dueBits]
  split
  · exact reg_setReg_ne _ _ _ _ h
  · exact reg_setReg_ne _ _ _ _ h

theorem raiseInt_fld (s : State) (i : IntBit) (f : Fld) (h : f.addr ≠ 0x1000 * i.page + 0x010) : (s.raiseInt i).fld f = s.fld f := by
  rw [State.fld, raiseInt_reg_ne _ _ _ h, State.fld]

theorem raiseInt_bit (s : State) (i : IntBit) (f : Fld) (h : f.addr ≠ 0x1000 * i.page + 0x010) : (s.raiseInt i).bit f = s.bit f := by
  rw [State.bit, raiseInt_fld _ _ _ h, State.bit]

theorem quiet_raiseInt (s : State) (i : IntBit) (h : s.bit (F.HDR.INT_ROUTE.INBAND i.page) = false) :
    (s.raiseInt i).quiet = s.quiet := by
  rw [raiseInt_quietly s i h]
  exact quiet_setReg _ _ _ (by omega)

end Sys2Proof.Laws
end

