-- ==== Sys2Proof/Laws/Faults.lean ====
section
/-!
SUPPORT. What raising an interrupt and a fault does (R413, R416, R419, R421, R431): which registers they touch, and that a fault that is not
FATAL, on a page that sends nothing in band, leaves a state quiet.
-/

namespace Sys2Proof.Laws

open Sys2Proof Sys2Proof.Machine

/-- From `s` to `t` only registers of the list and parts of the fault block have changed, and nothing has fallen due. -/
structure Mild (l : List Nat) (s t : State) : Prop where
  only : s.onlyRegs t
  regs : s.regsBut t l
  fatalDue : t.rim.fatalDue = s.rim.fatalDue
  due : t.rim.due = s.rim.due
  stalled : t.rim.stalled = s.rim.stalled
  testMode : t.rim.testMode = s.rim.testMode

variable {l : List Nat} {s t u : State}

theorem onlyRegs_refl (s : State) : s.onlyRegs s := rfl

theorem onlyRegs_trans (h : s.onlyRegs t) (h' : t.onlyRegs u) : s.onlyRegs u := by
  unfold State.onlyRegs at *
  rw [h', h]

theorem Mild.refl (l : List Nat) (s : State) : Mild l s s := ⟨rfl, fun _ _ => rfl, rfl, rfl, rfl, rfl⟩

theorem Mild.trans (h : Mild l s t) (h' : Mild l t u) : Mild l s u :=
  ⟨onlyRegs_trans h.only h'.only, fun a ha => (h'.regs a ha).trans (h.regs a ha), h'.fatalDue.trans h.fatalDue, h'.due.trans h.due,
    h'.stalled.trans h.stalled, h'.testMode.trans h.testMode⟩

theorem Mild.setReg (s : State) (a : Nat) (v : Reg) (h : a ∈ l) : Mild l s (s.setReg a v) :=
  ⟨rfl, fun b hb => reg_setReg_ne s a b v fun e => hb (e ▸ h), rfl, rfl, rfl, rfl⟩

theorem Mild.setFld (s : State) (f : Fld) (x : Nat) (h : f.addr ∈ l) : Mild l s (s.setFld f x) := Mild.setReg s _ _ h
theorem Mild.setBit (s : State) (f : Fld) (b : Bool) (h : f.addr ∈ l) : Mild l s (s.setBit f b) := Mild.setReg s _ _ h
theorem Mild.count (s : State) (f : Fld) (k : Nat) (h : f.addr ∈ l) : Mild l s (s.count f k) := Mild.setReg s _ _ h

theorem Mild.modRim (s : State) (f : Rim → Rim) (h1 : (f s.rim).fatalDue = s.rim.fatalDue) (h2 : (f s.rim).due = s.rim.due)
    (h3 : (f s.rim).stalled = s.rim.stalled) (h4 : (f s.rim).testMode = s.rim.testMode) : Mild l s (s.modRim f) :=
  ⟨rfl, fun _ _ => rfl, h1, h2, h3, h4⟩

theorem Mild.raiseInt (s : State) (i : IntBit) (hb : s.bit (F.HDR.INT_ROUTE.INBAND i.page) = false)
    (h : 0x1000 * i.page + 0x010 ∈ l) : Mild l s (s.raiseInt i) := by
  rw [raiseInt_quietly s i hb]
  exact Mild.setReg s _ _ h

theorem Mild.quiet (h : Mild l s t) (h5 : 0x005040 ∉ l) : t.quiet = s.quiet := by
  have ho : t = _ := h.only
  apply quiet_congr
  · rw [ho]
  · rw [ho]
  · rw [ho]
  · rw [ho]
  · exact h.fatalDue
  · exact h.due
  · exact congrArg (fun r => getBits r _ _) (h.regs _ h5)

theorem Mild.pending (h : Mild l s t) : t.pending = s.pending := by
  have ho : t = _ := h.only
  rw [ho]

theorem Mild.fld (h : Mild l s t) (f : Fld) (hf : f.addr ∉ l) : t.fld f = s.fld f :=
  congrArg (fun r => getBits r _ _) (h.regs _ hf)

theorem Mild.bit (h : Mild l s t) (f : Fld) (hf : f.addr ∉ l) : t.bit f = s.bit f := by rw [State.bit, h.fld f hf, State.bit]

/-- Taking an entry into the log (R430, R434). -/
theorem Mild.rimTake (s : State) (e : RimEntry) (h1 : 0x00604C ∈ l) (h2 : 0x006058 ∈ l) : Mild l s (s.rimTake e) := by
  unfold State.rimTake
  split
  · exact Mild.count _ _ _ h2
  · exact (Mild.setFld _ _ _ h1).trans ⟨rfl, fun _ _ => rfl, rfl, rfl, rfl, rfl⟩

/-- An event of the log (R433). -/
theorem Mild.rimEvent (s : State) (c d : Nat) (h1 : 0x00604C ∈ l) (h2 : 0x006058 ∈ l) : Mild l s (s.rimEvent c d) := by
  unfold State.rimEvent
  split
  · exact Mild.rimTake _ _ h1 h2
  · exact Mild.refl _ _

/-- First-fault capture (R419). -/
theorem Mild.captureFault (s : State) (f : FltBit) (h1 : 0x1000 * f.page + 0x020 ∈ l) (h2 : 0x1000 * f.page + 0x024 ∈ l) :
    Mild l s (s.captureFault f) := by
  simp only [State.captureFault]
  split
  · refine Mild.trans ?_ (Mild.modRim _ _ rfl rfl rfl rfl)
    refine Mild.trans ?_ (Mild.setFld _ _ _ h2)
    exact ((Mild.setBit _ _ _ h1).trans (Mild.setFld _ _ _ h1)).trans (Mild.setFld _ _ _ h1)
  · split
    · split
      · exact ((Mild.setBit _ _ _ h1).trans (Mild.setFld _ _ _ h1)).trans (Mild.setFld _ _ _ h1)
      · exact Mild.setBit _ _ _ h1
    · exact Mild.refl _ _

/-- The registers that one occurrence of a fault on page `p` may touch. -/
def faultRegs (p : Nat) : List Nat :=
  [0x1000 * p + 0x010, 0x1000 * p + 0x01C, 0x1000 * p + 0x020, 0x1000 * p + 0x024, 0x1000 * p + 0x028, 0x1000 * p + 0x02C, 0x00604C,
    0x006058]

theorem mem_faultRegs (p a : Nat) : a ∈ faultRegs p ↔ a = 0x1000 * p + 0x010 ∨ a = 0x1000 * p + 0x01C ∨ a = 0x1000 * p + 0x020
    ∨ a = 0x1000 * p + 0x024 ∨ a = 0x1000 * p + 0x028 ∨ a = 0x1000 * p + 0x02C ∨ a = 0x00604C ∨ a = 0x006058 := by
  simp [faultRegs]

/-- A fault of class CORR or CONT on a page that sends nothing in band. -/
theorem raiseFaultInj_mild (s : State) (f : FltBit) (inj : Bool) (hc : f.cls ≠ clsFatal)
    (hb : s.bit (F.HDR.INT_ROUTE.INBAND f.page) = false) : Mild (faultRegs f.page) s (s.raiseFaultInj f inj) := by
  have m : ∀ a, a ∈ faultRegs f.page ↔ _ := mem_faultRegs f.page
  have hne : 0x1000 * f.page + 0x018 ∉ faultRegs f.page := by rw [m]; omega
  have hcls : decide (f.cls = clsFatal) = false := by simp [hc]
  simp only [State.raiseFaultInj, State.when, hcls, Bool.false_eq_true, if_false]
  have h1 : Mild (faultRegs f.page) s (s.setFld (F.HDR.FLT_STS.FAULTS f.page) (s.fld (F.HDR.FLT_STS.FAULTS f.page) ||| 2 ^ f.bit)) :=
    Mild.setFld _ _ _ (by simp [faultRegs])
  generalize s.setFld (F.HDR.FLT_STS.FAULTS f.page) (s.fld (F.HDR.FLT_STS.FAULTS f.page) ||| 2 ^ f.bit) = s1 at h1 ⊢
  have h2 : Mild (faultRegs f.page) s1 (if f.cls = clsCorr then s1.count (F.HDR.FLT_CNT_CORR.CNT f.page)
    else if f.cls = clsCont then s1.count (F.HDR.FLT_CNT_CONT.CNT f.page) else s1) := by
    split
    · exact Mild.count _ _ _ (by simp [faultRegs])
    · split
      · exact Mild.count _ _ _ (by simp [faultRegs])
      · exact Mild.refl _ _
  generalize (if f.cls = clsCorr then s1.count (F.HDR.FLT_CNT_CORR.CNT f.page)
    else if f.cls = clsCont then s1.count (F.HDR.FLT_CNT_CONT.CNT f.page) else s1) = s2 at h2 ⊢
  have h3 : Mild (faultRegs f.page) s2 (s2.captureFault f) := Mild.captureFault _ _ (by simp [faultRegs]) (by simp [faultRegs])
  generalize s2.captureFault f = s3 at h3 ⊢
  have h123 := (h1.trans h2).trans h3
  refine h123.trans ?_
  split
  · have hb3 : s3.bit (F.HDR.INT_ROUTE.INBAND f.page) = false := by rw [h123.bit _ hne, hb]
    have h4 : Mild (faultRegs f.page) s3 (s3.raiseInt ⟨f.page, 31⟩) := Mild.raiseInt _ _ hb3 (by simp [faultRegs])
    refine h4.trans ?_
    split
    · exact Mild.rimTake _ _ (by simp [faultRegs]) (by simp [faultRegs])
    · exact Mild.refl _ _
  · exact Mild.refl _ _

theorem raiseFault_mild (s : State) (f : FltBit) (hc : f.cls ≠ clsFatal)
    (hb : s.bit (F.HDR.INT_ROUTE.INBAND f.page) = false) : Mild (faultRegs f.page) s (s.raiseFault f) :=
  raiseFaultInj_mild s f _ hc hb

/-! ## The fault bit itself -/

theorem rimTake_reg (s : State) (e : RimEntry) (a : Nat) (h1 : a ≠ 0x00604C) (h2 : a ≠ 0x006058) : (s.rimTake e).reg a = s.reg a := by
  unfold State.rimTake
  split
  · exact reg_count_ne _ _ _ _ h2
  · exact reg_setFld_ne _ _ _ _ h1

theorem captureFault_reg (s : State) (f : FltBit) (a : Nat) (h1 : a ≠ 0x1000 * f.page + 0x020) (h2 : a ≠ 0x1000 * f.page + 0x024) :
    (s.captureFault f).reg a = s.reg a :=
  (Mild.captureFault (l := [0x1000 * f.page + 0x020, 0x1000 * f.page + 0x024]) s f (by simp) (by simp)).regs a (by simp [h1, h2])

theorem drawFree_snd (s : State) : s.drawFree.2 = { s with free := s.free + 1 } := rfl

theorem rimCopyStart_store (s : State) : s.rimCopyStart.regs = s.regs := by
  simp only [State.rimCopyStart, State.savesAbandon, State.calSaveDrop, State.drawFree, State.modRim, State.modMram,
    State.modNet, State.modPower, State.modCal]

@[simp] theorem rimCopyStart_reg (s : State) (a : Nat) : s.rimCopyStart.reg a = s.reg a := by
  rw [State.reg, rimCopyStart_store, State.reg]
@[simp] theorem rimCopyStart_fld (s : State) (f : Fld) : s.rimCopyStart.fld f = s.fld f := by
  rw [State.fld, rimCopyStart_reg, State.fld]
@[simp] theorem rimCopyStart_bit (s : State) (f : Fld) : s.rimCopyStart.bit f = s.bit f := by
  rw [State.bit, rimCopyStart_fld, State.bit]

theorem rimFreeze_reg (s : State) (c a : Nat) (h1 : a ≠ 0x006048) (h2 : a ≠ 0x006010) : (s.rimFreeze c).reg a = s.reg a := by
  unfold State.rimFreeze
  split
  · rfl
  · rw [raiseInt_reg_ne _ _ _ h2, rimCopyStart_reg, reg_setFld_ne _ _ _ _ h1, reg_setBit_ne _ _ _ _ h1]

/-- Every occurrence of a fault, of whatever class, sets its bit in FLT_STS of its page (R413, R414). -/
theorem raiseFaultInj_sets (s : State) (f : FltBit) (inj : Bool) (hf : f.bit < 32) :
    (s.raiseFaultInj f inj).fld (F.HDR.FLT_STS.FAULTS f.page) = s.fld (F.HDR.FLT_STS.FAULTS f.page) ||| 2 ^ f.bit := by
  have key : (s.raiseFaultInj f inj).reg (0x1000 * f.page + 0x01C)
      = (s.setFld (F.HDR.FLT_STS.FAULTS f.page) (s.fld (F.HDR.FLT_STS.FAULTS f.page) ||| 2 ^ f.bit)).reg (0x1000 * f.page + 0x01C) := by
    simp only [State.raiseFaultInj, State.when]
    generalize s.setFld (F.HDR.FLT_STS.FAULTS f.page) (s.fld (F.HDR.FLT_STS.FAULTS f.page) ||| 2 ^ f.bit) = s1
    have h2 : (if f.cls = clsCorr then s1.count (F.HDR.FLT_CNT_CORR.CNT f.page)
        else if f.cls = clsCont then s1.count (F.HDR.FLT_CNT_CONT.CNT f.page) else s1).reg (0x1000 * f.page + 0x01C)
        = s1.reg (0x1000 * f.page + 0x01C) := by
      split
      · exact reg_count_ne _ _ _ _ (by show (0x1000 * f.page + _ : Nat) ≠ 0x1000 * f.page + _; omega)
      · split
        · exact reg_count_ne _ _ _ _ (by show (0x1000 * f.page + _ : Nat) ≠ 0x1000 * f.page + _; omega)
        · rfl
    rw [← h2]
    generalize (if f.cls = clsCorr then s1.count (F.HDR.FLT_CNT_CORR.CNT f.page)
        else if f.cls = clsCont then s1.count (F.HDR.FLT_CNT_CONT.CNT f.page) else s1) = s2
    rw [← captureFault_reg s2 f _ (by omega) (by omega)]
    generalize s2.captureFault f = s3
    have hi : ∀ (u : State) (b : Nat), (u.raiseInt ⟨f.page, b⟩).reg (0x1000 * f.page + 0x01C) = u.reg (0x1000 * f.page + 0x01C) :=
      fun u b => raiseInt_reg_ne _ _ _ (by show (0x1000 * f.page + _ : Nat) ≠ 0x1000 * f.page + _; omega)
    have ht : ∀ (u : State) (e : RimEntry), (u.rimTake e).reg (0x1000 * f.page + 0x01C) = u.reg (0x1000 * f.page + 0x01C) :=
      fun u e => rimTake_reg _ _ _ (by omega) (by omega)
    have hz : ∀ (u : State), ((u.rimFreeze 2).modRim fun r => { r with fatalDue := true }).reg (0x1000 * f.page + 0x01C)
        = u.reg (0x1000 * f.page + 0x01C) := fun u => rimFreeze_reg _ _ _ (by omega) (by omega)
    split
    · rw [hz]
      split
      · repeat' split
        all_goals simp only [hi, ht]
      · rfl
    · split
      · repeat' split
        all_goals simp only [hi, ht]
      · rfl
  have hlt : s.fld (F.HDR.FLT_STS.FAULTS f.page) ||| 2 ^ f.bit < 2 ^ 32 :=
    Nat.or_lt_two_pow (fld_lt s (F.HDR.FLT_STS.FAULTS f.page)) (Nat.pow_lt_pow_right (by decide) hf)
  have h3 := fld_setFld_same s (F.HDR.FLT_STS.FAULTS f.page) (s.fld (F.HDR.FLT_STS.FAULTS f.page) ||| 2 ^ f.bit) (by show (0 + 32 : Nat) ≤ 32; decide)
  rw [State.fld] at h3 ⊢
  show getBits ((s.raiseFaultInj f inj).reg (0x1000 * f.page + 0x01C)) 0 32 = _
  rw [key]
  exact h3.trans (Nat.mod_eq_of_lt hlt)

theorem raiseFault_sets (s : State) (f : FltBit) (hf : f.bit < 32) :
    (s.raiseFault f).fld (F.HDR.FLT_STS.FAULTS f.page) = s.fld (F.HDR.FLT_STS.FAULTS f.page) ||| 2 ^ f.bit :=
  raiseFaultInj_sets s f _ hf

theorem faultSet_raiseFault (s : State) (f : FltBit) (hf : f.bit < 32) : (s.raiseFault f).faultSet f = true := by
  rw [State.faultSet, raiseFault_sets s f hf, Nat.testBit_or, Nat.testBit_two_pow_self, Bool.or_true]

end Sys2Proof.Laws
end

