-- ==== Sys2Proof/Laws/Ops.lean ====
section
/-!
SUPPORT. What each shared operation can change: one lemma says which fields of the state it touches, and one per other field that it keeps it.
-/

namespace Sys2Proof.Laws

open Sys2Proof Sys2Proof.Machine

variable (s : State)

theorem modTime_setNow (n : Nat) (f : TimeBase → TimeBase) :
    (s.setNow n).modTime f = { s with time := ((s.setNow n).modTime f).time } := rfl

/-! ### raiseInt -/

theorem raiseInt_only (i : IntBit) : s.raiseInt i = { s with regs := (s.raiseInt i).regs, rim := (s.raiseInt i).rim } := by
  simp only [State.raiseInt, State.dueBits]
  split <;> rfl

@[simp] theorem raiseInt_pending (i : IntBit) : (s.raiseInt i).pending = s.pending := by rw [raiseInt_only s i]
@[simp] theorem raiseInt_time (i : IntBit) : (s.raiseInt i).time = s.time := by rw [raiseInt_only s i]
@[simp] theorem raiseInt_staged (i : IntBit) : (s.raiseInt i).staged = s.staged := by rw [raiseInt_only s i]
@[simp] theorem raiseInt_commits (i : IntBit) : (s.raiseInt i).commits = s.commits := by rw [raiseInt_only s i]
@[simp] theorem raiseInt_latchQ (i : IntBit) : (s.raiseInt i).latchQ = s.latchQ := by rw [raiseInt_only s i]
@[simp] theorem raiseInt_latchM (i : IntBit) : (s.raiseInt i).latchM = s.latchM := by rw [raiseInt_only s i]
@[simp] theorem raiseInt_rdata (i : IntBit) : (s.raiseInt i).rdata = s.rdata := by rw [raiseInt_only s i]
@[simp] theorem raiseInt_qspi (i : IntBit) : (s.raiseInt i).qspi = s.qspi := by rw [raiseInt_only s i]
@[simp] theorem raiseInt_pins (i : IntBit) : (s.raiseInt i).pins = s.pins := by rw [raiseInt_only s i]
@[simp] theorem raiseInt_servo (i : IntBit) : (s.raiseInt i).servo = s.servo := by rw [raiseInt_only s i]
@[simp] theorem raiseInt_ptp (i : IntBit) : (s.raiseInt i).ptp = s.ptp := by rw [raiseInt_only s i]
@[simp] theorem raiseInt_grid (i : IntBit) : (s.raiseInt i).grid = s.grid := by rw [raiseInt_only s i]
@[simp] theorem raiseInt_wale (i : IntBit) : (s.raiseInt i).wale = s.wale := by rw [raiseInt_only s i]
@[simp] theorem raiseInt_group (i : IntBit) : (s.raiseInt i).group = s.group := by rw [raiseInt_only s i]
@[simp] theorem raiseInt_chan (i : IntBit) : (s.raiseInt i).chan = s.chan := by rw [raiseInt_only s i]
@[simp] theorem raiseInt_slice (i : IntBit) : (s.raiseInt i).slice = s.slice := by rw [raiseInt_only s i]
@[simp] theorem raiseInt_sent (i : IntBit) : (s.raiseInt i).sent = s.sent := by rw [raiseInt_only s i]
@[simp] theorem raiseInt_sentQ (i : IntBit) : (s.raiseInt i).sentQ = s.sentQ := by rw [raiseInt_only s i]
@[simp] theorem raiseInt_cal (i : IntBit) : (s.raiseInt i).cal = s.cal := by rw [raiseInt_only s i]
@[simp] theorem raiseInt_trig (i : IntBit) : (s.raiseInt i).trig = s.trig := by rw [raiseInt_only s i]
@[simp] theorem raiseInt_ctx (i : IntBit) : (s.raiseInt i).ctx = s.ctx := by rw [raiseInt_only s i]
@[simp] theorem raiseInt_capMem (i : IntBit) : (s.raiseInt i).capMem = s.capMem := by rw [raiseInt_only s i]
@[simp] theorem raiseInt_capEcc (i : IntBit) : (s.raiseInt i).capEcc = s.capEcc := by rw [raiseInt_only s i]
@[simp] theorem raiseInt_queue (i : IntBit) : (s.raiseInt i).queue = s.queue := by rw [raiseInt_only s i]
@[simp] theorem raiseInt_firAt (i : IntBit) : (s.raiseInt i).firAt = s.firAt := by rw [raiseInt_only s i]
@[simp] theorem raiseInt_qmem (i : IntBit) : (s.raiseInt i).qmem = s.qmem := by rw [raiseInt_only s i]
@[simp] theorem raiseInt_arbMem (i : IntBit) : (s.raiseInt i).arbMem = s.arbMem := by rw [raiseInt_only s i]
@[simp] theorem raiseInt_arbTx (i : IntBit) : (s.raiseInt i).arbTx = s.arbTx := by rw [raiseInt_only s i]
@[simp] theorem raiseInt_net (i : IntBit) : (s.raiseInt i).net = s.net := by rw [raiseInt_only s i]
@[simp] theorem raiseInt_pair (i : IntBit) : (s.raiseInt i).pair = s.pair := by rw [raiseInt_only s i]
@[simp] theorem raiseInt_mram (i : IntBit) : (s.raiseInt i).mram = s.mram := by rw [raiseInt_only s i]
@[simp] theorem raiseInt_power (i : IntBit) : (s.raiseInt i).power = s.power := by rw [raiseInt_only s i]
@[simp] theorem raiseInt_free (i : IntBit) : (s.raiseInt i).free = s.free := by rw [raiseInt_only s i]
@[simp] theorem raiseInt_stg (i : IntBit) (a0 : Nat) : (s.raiseInt i).stg a0 = s.stg a0 := by rw [State.stg, raiseInt_staged, State.stg]
@[simp] theorem raiseInt_getChan (i : IntBit) (i0 : Nat) : (s.raiseInt i).getChan i0 = s.getChan i0 := by rw [State.getChan, raiseInt_chan, State.getChan]
@[simp] theorem raiseInt_getGroup (i : IntBit) (i0 : Nat) : (s.raiseInt i).getGroup i0 = s.getGroup i0 := by rw [State.getGroup, raiseInt_group, State.getGroup]
@[simp] theorem raiseInt_getSlice (i : IntBit) (i0 : Nat) : (s.raiseInt i).getSlice i0 = s.getSlice i0 := by rw [State.getSlice, raiseInt_slice, State.getSlice]
@[simp] theorem raiseInt_getSent (i : IntBit) (i0 : Nat) : (s.raiseInt i).getSent i0 = s.getSent i0 := by rw [State.getSent, raiseInt_sent, State.getSent]
@[simp] theorem raiseInt_getCtx (i : IntBit) (i0 : Nat) : (s.raiseInt i).getCtx i0 = s.getCtx i0 := by rw [State.getCtx, raiseInt_ctx, State.getCtx]
@[simp] theorem raiseInt_getQ (i : IntBit) (i0 : Nat) : (s.raiseInt i).getQ i0 = s.getQ i0 := by rw [State.getQ, raiseInt_queue, State.getQ]

/-! ### rimTake -/

theorem rimTake_only (e : RimEntry) : s.rimTake e = { s with regs := (s.rimTake e).regs, rim := (s.rimTake e).rim } := by
  unfold State.rimTake
  split <;> rfl

@[simp] theorem rimTake_pending (e : RimEntry) : (s.rimTake e).pending = s.pending := by rw [rimTake_only s e]
@[simp] theorem rimTake_time (e : RimEntry) : (s.rimTake e).time = s.time := by rw [rimTake_only s e]
@[simp] theorem rimTake_staged (e : RimEntry) : (s.rimTake e).staged = s.staged := by rw [rimTake_only s e]
@[simp] theorem rimTake_commits (e : RimEntry) : (s.rimTake e).commits = s.commits := by rw [rimTake_only s e]
@[simp] theorem rimTake_latchQ (e : RimEntry) : (s.rimTake e).latchQ = s.latchQ := by rw [rimTake_only s e]
@[simp] theorem rimTake_latchM (e : RimEntry) : (s.rimTake e).latchM = s.latchM := by rw [rimTake_only s e]
@[simp] theorem rimTake_rdata (e : RimEntry) : (s.rimTake e).rdata = s.rdata := by rw [rimTake_only s e]
@[simp] theorem rimTake_qspi (e : RimEntry) : (s.rimTake e).qspi = s.qspi := by rw [rimTake_only s e]
@[simp] theorem rimTake_pins (e : RimEntry) : (s.rimTake e).pins = s.pins := by rw [rimTake_only s e]
@[simp] theorem rimTake_servo (e : RimEntry) : (s.rimTake e).servo = s.servo := by rw [rimTake_only s e]
@[simp] theorem rimTake_ptp (e : RimEntry) : (s.rimTake e).ptp = s.ptp := by rw [rimTake_only s e]
@[simp] theorem rimTake_grid (e : RimEntry) : (s.rimTake e).grid = s.grid := by rw [rimTake_only s e]
@[simp] theorem rimTake_wale (e : RimEntry) : (s.rimTake e).wale = s.wale := by rw [rimTake_only s e]
@[simp] theorem rimTake_group (e : RimEntry) : (s.rimTake e).group = s.group := by rw [rimTake_only s e]
@[simp] theorem rimTake_chan (e : RimEntry) : (s.rimTake e).chan = s.chan := by rw [rimTake_only s e]
@[simp] theorem rimTake_slice (e : RimEntry) : (s.rimTake e).slice = s.slice := by rw [rimTake_only s e]
@[simp] theorem rimTake_sent (e : RimEntry) : (s.rimTake e).sent = s.sent := by rw [rimTake_only s e]
@[simp] theorem rimTake_sentQ (e : RimEntry) : (s.rimTake e).sentQ = s.sentQ := by rw [rimTake_only s e]
@[simp] theorem rimTake_cal (e : RimEntry) : (s.rimTake e).cal = s.cal := by rw [rimTake_only s e]
@[simp] theorem rimTake_trig (e : RimEntry) : (s.rimTake e).trig = s.trig := by rw [rimTake_only s e]
@[simp] theorem rimTake_ctx (e : RimEntry) : (s.rimTake e).ctx = s.ctx := by rw [rimTake_only s e]
@[simp] theorem rimTake_capMem (e : RimEntry) : (s.rimTake e).capMem = s.capMem := by rw [rimTake_only s e]
@[simp] theorem rimTake_capEcc (e : RimEntry) : (s.rimTake e).capEcc = s.capEcc := by rw [rimTake_only s e]
@[simp] theorem rimTake_queue (e : RimEntry) : (s.rimTake e).queue = s.queue := by rw [rimTake_only s e]
@[simp] theorem rimTake_firAt (e : RimEntry) : (s.rimTake e).firAt = s.firAt := by rw [rimTake_only s e]
@[simp] theorem rimTake_qmem (e : RimEntry) : (s.rimTake e).qmem = s.qmem := by rw [rimTake_only s e]
@[simp] theorem rimTake_arbMem (e : RimEntry) : (s.rimTake e).arbMem = s.arbMem := by rw [rimTake_only s e]
@[simp] theorem rimTake_arbTx (e : RimEntry) : (s.rimTake e).arbTx = s.arbTx := by rw [rimTake_only s e]
@[simp] theorem rimTake_net (e : RimEntry) : (s.rimTake e).net = s.net := by rw [rimTake_only s e]
@[simp] theorem rimTake_pair (e : RimEntry) : (s.rimTake e).pair = s.pair := by rw [rimTake_only s e]
@[simp] theorem rimTake_mram (e : RimEntry) : (s.rimTake e).mram = s.mram := by rw [rimTake_only s e]
@[simp] theorem rimTake_power (e : RimEntry) : (s.rimTake e).power = s.power := by rw [rimTake_only s e]
@[simp] theorem rimTake_free (e : RimEntry) : (s.rimTake e).free = s.free := by rw [rimTake_only s e]
@[simp] theorem rimTake_stg (e : RimEntry) (a0 : Nat) : (s.rimTake e).stg a0 = s.stg a0 := by rw [State.stg, rimTake_staged, State.stg]
@[simp] theorem rimTake_getChan (e : RimEntry) (i0 : Nat) : (s.rimTake e).getChan i0 = s.getChan i0 := by rw [State.getChan, rimTake_chan, State.getChan]
@[simp] theorem rimTake_getGroup (e : RimEntry) (i0 : Nat) : (s.rimTake e).getGroup i0 = s.getGroup i0 := by rw [State.getGroup, rimTake_group, State.getGroup]
@[simp] theorem rimTake_getSlice (e : RimEntry) (i0 : Nat) : (s.rimTake e).getSlice i0 = s.getSlice i0 := by rw [State.getSlice, rimTake_slice, State.getSlice]
@[simp] theorem rimTake_getSent (e : RimEntry) (i0 : Nat) : (s.rimTake e).getSent i0 = s.getSent i0 := by rw [State.getSent, rimTake_sent, State.getSent]
@[simp] theorem rimTake_getCtx (e : RimEntry) (i0 : Nat) : (s.rimTake e).getCtx i0 = s.getCtx i0 := by rw [State.getCtx, rimTake_ctx, State.getCtx]
@[simp] theorem rimTake_getQ (e : RimEntry) (i0 : Nat) : (s.rimTake e).getQ i0 = s.getQ i0 := by rw [State.getQ, rimTake_queue, State.getQ]

/-! ### rimEvent -/

theorem rimEvent_only (c d : Nat) : s.rimEvent c d = { s with regs := (s.rimEvent c d).regs, rim := (s.rimEvent c d).rim } := by
  unfold State.rimEvent
  split
  · exact rimTake_only _ _
  · rfl

@[simp] theorem rimEvent_pending (c d : Nat) : (s.rimEvent c d).pending = s.pending := by rw [rimEvent_only s c d]
@[simp] theorem rimEvent_time (c d : Nat) : (s.rimEvent c d).time = s.time := by rw [rimEvent_only s c d]
@[simp] theorem rimEvent_staged (c d : Nat) : (s.rimEvent c d).staged = s.staged := by rw [rimEvent_only s c d]
@[simp] theorem rimEvent_commits (c d : Nat) : (s.rimEvent c d).commits = s.commits := by rw [rimEvent_only s c d]
@[simp] theorem rimEvent_latchQ (c d : Nat) : (s.rimEvent c d).latchQ = s.latchQ := by rw [rimEvent_only s c d]
@[simp] theorem rimEvent_latchM (c d : Nat) : (s.rimEvent c d).latchM = s.latchM := by rw [rimEvent_only s c d]
@[simp] theorem rimEvent_rdata (c d : Nat) : (s.rimEvent c d).rdata = s.rdata := by rw [rimEvent_only s c d]
@[simp] theorem rimEvent_qspi (c d : Nat) : (s.rimEvent c d).qspi = s.qspi := by rw [rimEvent_only s c d]
@[simp] theorem rimEvent_pins (c d : Nat) : (s.rimEvent c d).pins = s.pins := by rw [rimEvent_only s c d]
@[simp] theorem rimEvent_servo (c d : Nat) : (s.rimEvent c d).servo = s.servo := by rw [rimEvent_only s c d]
@[simp] theorem rimEvent_ptp (c d : Nat) : (s.rimEvent c d).ptp = s.ptp := by rw [rimEvent_only s c d]
@[simp] theorem rimEvent_grid (c d : Nat) : (s.rimEvent c d).grid = s.grid := by rw [rimEvent_only s c d]
@[simp] theorem rimEvent_wale (c d : Nat) : (s.rimEvent c d).wale = s.wale := by rw [rimEvent_only s c d]
@[simp] theorem rimEvent_group (c d : Nat) : (s.rimEvent c d).group = s.group := by rw [rimEvent_only s c d]
@[simp] theorem rimEvent_chan (c d : Nat) : (s.rimEvent c d).chan = s.chan := by rw [rimEvent_only s c d]
@[simp] theorem rimEvent_slice (c d : Nat) : (s.rimEvent c d).slice = s.slice := by rw [rimEvent_only s c d]
@[simp] theorem rimEvent_sent (c d : Nat) : (s.rimEvent c d).sent = s.sent := by rw [rimEvent_only s c d]
@[simp] theorem rimEvent_sentQ (c d : Nat) : (s.rimEvent c d).sentQ = s.sentQ := by rw [rimEvent_only s c d]
@[simp] theorem rimEvent_cal (c d : Nat) : (s.rimEvent c d).cal = s.cal := by rw [rimEvent_only s c d]
@[simp] theorem rimEvent_trig (c d : Nat) : (s.rimEvent c d).trig = s.trig := by rw [rimEvent_only s c d]
@[simp] theorem rimEvent_ctx (c d : Nat) : (s.rimEvent c d).ctx = s.ctx := by rw [rimEvent_only s c d]
@[simp] theorem rimEvent_capMem (c d : Nat) : (s.rimEvent c d).capMem = s.capMem := by rw [rimEvent_only s c d]
@[simp] theorem rimEvent_capEcc (c d : Nat) : (s.rimEvent c d).capEcc = s.capEcc := by rw [rimEvent_only s c d]
@[simp] theorem rimEvent_queue (c d : Nat) : (s.rimEvent c d).queue = s.queue := by rw [rimEvent_only s c d]
@[simp] theorem rimEvent_firAt (c d : Nat) : (s.rimEvent c d).firAt = s.firAt := by rw [rimEvent_only s c d]
@[simp] theorem rimEvent_qmem (c d : Nat) : (s.rimEvent c d).qmem = s.qmem := by rw [rimEvent_only s c d]
@[simp] theorem rimEvent_arbMem (c d : Nat) : (s.rimEvent c d).arbMem = s.arbMem := by rw [rimEvent_only s c d]
@[simp] theorem rimEvent_arbTx (c d : Nat) : (s.rimEvent c d).arbTx = s.arbTx := by rw [rimEvent_only s c d]
@[simp] theorem rimEvent_net (c d : Nat) : (s.rimEvent c d).net = s.net := by rw [rimEvent_only s c d]
@[simp] theorem rimEvent_pair (c d : Nat) : (s.rimEvent c d).pair = s.pair := by rw [rimEvent_only s c d]
@[simp] theorem rimEvent_mram (c d : Nat) : (s.rimEvent c d).mram = s.mram := by rw [rimEvent_only s c d]
@[simp] theorem rimEvent_power (c d : Nat) : (s.rimEvent c d).power = s.power := by rw [rimEvent_only s c d]
@[simp] theorem rimEvent_free (c d : Nat) : (s.rimEvent c d).free = s.free := by rw [rimEvent_only s c d]
@[simp] theorem rimEvent_stg (c d : Nat) (a0 : Nat) : (s.rimEvent c d).stg a0 = s.stg a0 := by rw [State.stg, rimEvent_staged, State.stg]
@[simp] theorem rimEvent_getChan (c d : Nat) (i0 : Nat) : (s.rimEvent c d).getChan i0 = s.getChan i0 := by rw [State.getChan, rimEvent_chan, State.getChan]
@[simp] theorem rimEvent_getGroup (c d : Nat) (i0 : Nat) : (s.rimEvent c d).getGroup i0 = s.getGroup i0 := by rw [State.getGroup, rimEvent_group, State.getGroup]
@[simp] theorem rimEvent_getSlice (c d : Nat) (i0 : Nat) : (s.rimEvent c d).getSlice i0 = s.getSlice i0 := by rw [State.getSlice, rimEvent_slice, State.getSlice]
@[simp] theorem rimEvent_getSent (c d : Nat) (i0 : Nat) : (s.rimEvent c d).getSent i0 = s.getSent i0 := by rw [State.getSent, rimEvent_sent, State.getSent]
@[simp] theorem rimEvent_getCtx (c d : Nat) (i0 : Nat) : (s.rimEvent c d).getCtx i0 = s.getCtx i0 := by rw [State.getCtx, rimEvent_ctx, State.getCtx]
@[simp] theorem rimEvent_getQ (c d : Nat) (i0 : Nat) : (s.rimEvent c d).getQ i0 = s.getQ i0 := by rw [State.getQ, rimEvent_queue, State.getQ]

/-! ### captureFault -/

theorem captureFault_only (f : FltBit) : s.captureFault f = { s with regs := (s.captureFault f).regs, rim := (s.captureFault f).rim } := by
  exact (Mild.captureFault (l := [0x1000 * f.page + 0x020, 0x1000 * f.page + 0x024]) s f (by simp) (by simp)).only

@[simp] theorem captureFault_pending (f : FltBit) : (s.captureFault f).pending = s.pending := by rw [captureFault_only s f]
@[simp] theorem captureFault_time (f : FltBit) : (s.captureFault f).time = s.time := by rw [captureFault_only s f]
@[simp] theorem captureFault_staged (f : FltBit) : (s.captureFault f).staged = s.staged := by rw [captureFault_only s f]
@[simp] theorem captureFault_commits (f : FltBit) : (s.captureFault f).commits = s.commits := by rw [captureFault_only s f]
@[simp] theorem captureFault_latchQ (f : FltBit) : (s.captureFault f).latchQ = s.latchQ := by rw [captureFault_only s f]
@[simp] theorem captureFault_latchM (f : FltBit) : (s.captureFault f).latchM = s.latchM := by rw [captureFault_only s f]
@[simp] theorem captureFault_rdata (f : FltBit) : (s.captureFault f).rdata = s.rdata := by rw [captureFault_only s f]
@[simp] theorem captureFault_qspi (f : FltBit) : (s.captureFault f).qspi = s.qspi := by rw [captureFault_only s f]
@[simp] theorem captureFault_pins (f : FltBit) : (s.captureFault f).pins = s.pins := by rw [captureFault_only s f]
@[simp] theorem captureFault_servo (f : FltBit) : (s.captureFault f).servo = s.servo := by rw [captureFault_only s f]
@[simp] theorem captureFault_ptp (f : FltBit) : (s.captureFault f).ptp = s.ptp := by rw [captureFault_only s f]
@[simp] theorem captureFault_grid (f : FltBit) : (s.captureFault f).grid = s.grid := by rw [captureFault_only s f]
@[simp] theorem captureFault_wale (f : FltBit) : (s.captureFault f).wale = s.wale := by rw [captureFault_only s f]
@[simp] theorem captureFault_group (f : FltBit) : (s.captureFault f).group = s.group := by rw [captureFault_only s f]
@[simp] theorem captureFault_chan (f : FltBit) : (s.captureFault f).chan = s.chan := by rw [captureFault_only s f]
@[simp] theorem captureFault_slice (f : FltBit) : (s.captureFault f).slice = s.slice := by rw [captureFault_only s f]
@[simp] theorem captureFault_sent (f : FltBit) : (s.captureFault f).sent = s.sent := by rw [captureFault_only s f]
@[simp] theorem captureFault_sentQ (f : FltBit) : (s.captureFault f).sentQ = s.sentQ := by rw [captureFault_only s f]
@[simp] theorem captureFault_cal (f : FltBit) : (s.captureFault f).cal = s.cal := by rw [captureFault_only s f]
@[simp] theorem captureFault_trig (f : FltBit) : (s.captureFault f).trig = s.trig := by rw [captureFault_only s f]
@[simp] theorem captureFault_ctx (f : FltBit) : (s.captureFault f).ctx = s.ctx := by rw [captureFault_only s f]
@[simp] theorem captureFault_capMem (f : FltBit) : (s.captureFault f).capMem = s.capMem := by rw [captureFault_only s f]
@[simp] theorem captureFault_capEcc (f : FltBit) : (s.captureFault f).capEcc = s.capEcc := by rw [captureFault_only s f]
@[simp] theorem captureFault_queue (f : FltBit) : (s.captureFault f).queue = s.queue := by rw [captureFault_only s f]
@[simp] theorem captureFault_firAt (f : FltBit) : (s.captureFault f).firAt = s.firAt := by rw [captureFault_only s f]
@[simp] theorem captureFault_qmem (f : FltBit) : (s.captureFault f).qmem = s.qmem := by rw [captureFault_only s f]
@[simp] theorem captureFault_arbMem (f : FltBit) : (s.captureFault f).arbMem = s.arbMem := by rw [captureFault_only s f]
@[simp] theorem captureFault_arbTx (f : FltBit) : (s.captureFault f).arbTx = s.arbTx := by rw [captureFault_only s f]
@[simp] theorem captureFault_net (f : FltBit) : (s.captureFault f).net = s.net := by rw [captureFault_only s f]
@[simp] theorem captureFault_pair (f : FltBit) : (s.captureFault f).pair = s.pair := by rw [captureFault_only s f]
@[simp] theorem captureFault_mram (f : FltBit) : (s.captureFault f).mram = s.mram := by rw [captureFault_only s f]
@[simp] theorem captureFault_power (f : FltBit) : (s.captureFault f).power = s.power := by rw [captureFault_only s f]
@[simp] theorem captureFault_free (f : FltBit) : (s.captureFault f).free = s.free := by rw [captureFault_only s f]
@[simp] theorem captureFault_stg (f : FltBit) (a0 : Nat) : (s.captureFault f).stg a0 = s.stg a0 := by rw [State.stg, captureFault_staged, State.stg]
@[simp] theorem captureFault_getChan (f : FltBit) (i0 : Nat) : (s.captureFault f).getChan i0 = s.getChan i0 := by rw [State.getChan, captureFault_chan, State.getChan]
@[simp] theorem captureFault_getGroup (f : FltBit) (i0 : Nat) : (s.captureFault f).getGroup i0 = s.getGroup i0 := by rw [State.getGroup, captureFault_group, State.getGroup]
@[simp] theorem captureFault_getSlice (f : FltBit) (i0 : Nat) : (s.captureFault f).getSlice i0 = s.getSlice i0 := by rw [State.getSlice, captureFault_slice, State.getSlice]
@[simp] theorem captureFault_getSent (f : FltBit) (i0 : Nat) : (s.captureFault f).getSent i0 = s.getSent i0 := by rw [State.getSent, captureFault_sent, State.getSent]
@[simp] theorem captureFault_getCtx (f : FltBit) (i0 : Nat) : (s.captureFault f).getCtx i0 = s.getCtx i0 := by rw [State.getCtx, captureFault_ctx, State.getCtx]
@[simp] theorem captureFault_getQ (f : FltBit) (i0 : Nat) : (s.captureFault f).getQ i0 = s.getQ i0 := by rw [State.getQ, captureFault_queue, State.getQ]

/-! ### otherWrite -/

theorem otherWrite_only : s.otherWrite = { s with rim := (s.otherWrite).rim } := by
  rfl

@[simp] theorem otherWrite_pending : (s.otherWrite).pending = s.pending := by rw [otherWrite_only s]
@[simp] theorem otherWrite_time : (s.otherWrite).time = s.time := by rw [otherWrite_only s]
@[simp] theorem otherWrite_regs : (s.otherWrite).regs = s.regs := by rw [otherWrite_only s]
@[simp] theorem otherWrite_staged : (s.otherWrite).staged = s.staged := by rw [otherWrite_only s]
@[simp] theorem otherWrite_commits : (s.otherWrite).commits = s.commits := by rw [otherWrite_only s]
@[simp] theorem otherWrite_latchQ : (s.otherWrite).latchQ = s.latchQ := by rw [otherWrite_only s]
@[simp] theorem otherWrite_latchM : (s.otherWrite).latchM = s.latchM := by rw [otherWrite_only s]
@[simp] theorem otherWrite_rdata : (s.otherWrite).rdata = s.rdata := by rw [otherWrite_only s]
@[simp] theorem otherWrite_qspi : (s.otherWrite).qspi = s.qspi := by rw [otherWrite_only s]
@[simp] theorem otherWrite_pins : (s.otherWrite).pins = s.pins := by rw [otherWrite_only s]
@[simp] theorem otherWrite_servo : (s.otherWrite).servo = s.servo := by rw [otherWrite_only s]
@[simp] theorem otherWrite_ptp : (s.otherWrite).ptp = s.ptp := by rw [otherWrite_only s]
@[simp] theorem otherWrite_grid : (s.otherWrite).grid = s.grid := by rw [otherWrite_only s]
@[simp] theorem otherWrite_wale : (s.otherWrite).wale = s.wale := by rw [otherWrite_only s]
@[simp] theorem otherWrite_group : (s.otherWrite).group = s.group := by rw [otherWrite_only s]
@[simp] theorem otherWrite_chan : (s.otherWrite).chan = s.chan := by rw [otherWrite_only s]
@[simp] theorem otherWrite_slice : (s.otherWrite).slice = s.slice := by rw [otherWrite_only s]
@[simp] theorem otherWrite_sent : (s.otherWrite).sent = s.sent := by rw [otherWrite_only s]
@[simp] theorem otherWrite_sentQ : (s.otherWrite).sentQ = s.sentQ := by rw [otherWrite_only s]
@[simp] theorem otherWrite_cal : (s.otherWrite).cal = s.cal := by rw [otherWrite_only s]
@[simp] theorem otherWrite_trig : (s.otherWrite).trig = s.trig := by rw [otherWrite_only s]
@[simp] theorem otherWrite_ctx : (s.otherWrite).ctx = s.ctx := by rw [otherWrite_only s]
@[simp] theorem otherWrite_capMem : (s.otherWrite).capMem = s.capMem := by rw [otherWrite_only s]
@[simp] theorem otherWrite_capEcc : (s.otherWrite).capEcc = s.capEcc := by rw [otherWrite_only s]
@[simp] theorem otherWrite_queue : (s.otherWrite).queue = s.queue := by rw [otherWrite_only s]
@[simp] theorem otherWrite_firAt : (s.otherWrite).firAt = s.firAt := by rw [otherWrite_only s]
@[simp] theorem otherWrite_qmem : (s.otherWrite).qmem = s.qmem := by rw [otherWrite_only s]
@[simp] theorem otherWrite_arbMem : (s.otherWrite).arbMem = s.arbMem := by rw [otherWrite_only s]
@[simp] theorem otherWrite_arbTx : (s.otherWrite).arbTx = s.arbTx := by rw [otherWrite_only s]
@[simp] theorem otherWrite_net : (s.otherWrite).net = s.net := by rw [otherWrite_only s]
@[simp] theorem otherWrite_pair : (s.otherWrite).pair = s.pair := by rw [otherWrite_only s]
@[simp] theorem otherWrite_mram : (s.otherWrite).mram = s.mram := by rw [otherWrite_only s]
@[simp] theorem otherWrite_power : (s.otherWrite).power = s.power := by rw [otherWrite_only s]
@[simp] theorem otherWrite_free : (s.otherWrite).free = s.free := by rw [otherWrite_only s]
@[simp] theorem otherWrite_reg  (a0 : Nat) : (s.otherWrite).reg a0 = s.reg a0 := by rw [State.reg, otherWrite_regs, State.reg]
@[simp] theorem otherWrite_fld  (g0 : Fld) : (s.otherWrite).fld g0 = s.fld g0 := by rw [State.fld, otherWrite_reg, State.fld]
@[simp] theorem otherWrite_bit  (g0 : Fld) : (s.otherWrite).bit g0 = s.bit g0 := by rw [State.bit, otherWrite_fld, State.bit]
@[simp] theorem otherWrite_sfld  (g0 : Fld) : (s.otherWrite).sfld g0 = s.sfld g0 := by rw [State.sfld, otherWrite_fld, State.sfld]
@[simp] theorem otherWrite_stg  (a0 : Nat) : (s.otherWrite).stg a0 = s.stg a0 := by rw [State.stg, otherWrite_staged, State.stg]
@[simp] theorem otherWrite_getChan  (i0 : Nat) : (s.otherWrite).getChan i0 = s.getChan i0 := by rw [State.getChan, otherWrite_chan, State.getChan]
@[simp] theorem otherWrite_getGroup  (i0 : Nat) : (s.otherWrite).getGroup i0 = s.getGroup i0 := by rw [State.getGroup, otherWrite_group, State.getGroup]
@[simp] theorem otherWrite_getSlice  (i0 : Nat) : (s.otherWrite).getSlice i0 = s.getSlice i0 := by rw [State.getSlice, otherWrite_slice, State.getSlice]
@[simp] theorem otherWrite_getSent  (i0 : Nat) : (s.otherWrite).getSent i0 = s.getSent i0 := by rw [State.getSent, otherWrite_sent, State.getSent]
@[simp] theorem otherWrite_getCtx  (i0 : Nat) : (s.otherWrite).getCtx i0 = s.getCtx i0 := by rw [State.getCtx, otherWrite_ctx, State.getCtx]
@[simp] theorem otherWrite_getQ  (i0 : Nat) : (s.otherWrite).getQ i0 = s.getQ i0 := by rw [State.getQ, otherWrite_queue, State.getQ]

/-! ### setNow -/

theorem setNow_only (n : Nat) : s.setNow n = { s with time := (s.setNow n).time } := by
  rfl

@[simp] theorem setNow_pending (n : Nat) : (s.setNow n).pending = s.pending := by rw [setNow_only s n]
@[simp] theorem setNow_regs (n : Nat) : (s.setNow n).regs = s.regs := by rw [setNow_only s n]
@[simp] theorem setNow_staged (n : Nat) : (s.setNow n).staged = s.staged := by rw [setNow_only s n]
@[simp] theorem setNow_commits (n : Nat) : (s.setNow n).commits = s.commits := by rw [setNow_only s n]
@[simp] theorem setNow_latchQ (n : Nat) : (s.setNow n).latchQ = s.latchQ := by rw [setNow_only s n]
@[simp] theorem setNow_latchM (n : Nat) : (s.setNow n).latchM = s.latchM := by rw [setNow_only s n]
@[simp] theorem setNow_rdata (n : Nat) : (s.setNow n).rdata = s.rdata := by rw [setNow_only s n]
@[simp] theorem setNow_qspi (n : Nat) : (s.setNow n).qspi = s.qspi := by rw [setNow_only s n]
@[simp] theorem setNow_pins (n : Nat) : (s.setNow n).pins = s.pins := by rw [setNow_only s n]
@[simp] theorem setNow_servo (n : Nat) : (s.setNow n).servo = s.servo := by rw [setNow_only s n]
@[simp] theorem setNow_ptp (n : Nat) : (s.setNow n).ptp = s.ptp := by rw [setNow_only s n]
@[simp] theorem setNow_grid (n : Nat) : (s.setNow n).grid = s.grid := by rw [setNow_only s n]
@[simp] theorem setNow_wale (n : Nat) : (s.setNow n).wale = s.wale := by rw [setNow_only s n]
@[simp] theorem setNow_group (n : Nat) : (s.setNow n).group = s.group := by rw [setNow_only s n]
@[simp] theorem setNow_chan (n : Nat) : (s.setNow n).chan = s.chan := by rw [setNow_only s n]
@[simp] theorem setNow_slice (n : Nat) : (s.setNow n).slice = s.slice := by rw [setNow_only s n]
@[simp] theorem setNow_sent (n : Nat) : (s.setNow n).sent = s.sent := by rw [setNow_only s n]
@[simp] theorem setNow_sentQ (n : Nat) : (s.setNow n).sentQ = s.sentQ := by rw [setNow_only s n]
@[simp] theorem setNow_cal (n : Nat) : (s.setNow n).cal = s.cal := by rw [setNow_only s n]
@[simp] theorem setNow_trig (n : Nat) : (s.setNow n).trig = s.trig := by rw [setNow_only s n]
@[simp] theorem setNow_ctx (n : Nat) : (s.setNow n).ctx = s.ctx := by rw [setNow_only s n]
@[simp] theorem setNow_capMem (n : Nat) : (s.setNow n).capMem = s.capMem := by rw [setNow_only s n]
@[simp] theorem setNow_capEcc (n : Nat) : (s.setNow n).capEcc = s.capEcc := by rw [setNow_only s n]
@[simp] theorem setNow_queue (n : Nat) : (s.setNow n).queue = s.queue := by rw [setNow_only s n]
@[simp] theorem setNow_firAt (n : Nat) : (s.setNow n).firAt = s.firAt := by rw [setNow_only s n]
@[simp] theorem setNow_qmem (n : Nat) : (s.setNow n).qmem = s.qmem := by rw [setNow_only s n]
@[simp] theorem setNow_arbMem (n : Nat) : (s.setNow n).arbMem = s.arbMem := by rw [setNow_only s n]
@[simp] theorem setNow_arbTx (n : Nat) : (s.setNow n).arbTx = s.arbTx := by rw [setNow_only s n]
@[simp] theorem setNow_net (n : Nat) : (s.setNow n).net = s.net := by rw [setNow_only s n]
@[simp] theorem setNow_pair (n : Nat) : (s.setNow n).pair = s.pair := by rw [setNow_only s n]
@[simp] theorem setNow_rim (n : Nat) : (s.setNow n).rim = s.rim := by rw [setNow_only s n]
@[simp] theorem setNow_mram (n : Nat) : (s.setNow n).mram = s.mram := by rw [setNow_only s n]
@[simp] theorem setNow_power (n : Nat) : (s.setNow n).power = s.power := by rw [setNow_only s n]
@[simp] theorem setNow_free (n : Nat) : (s.setNow n).free = s.free := by rw [setNow_only s n]
@[simp] theorem setNow_reg (n : Nat) (a0 : Nat) : (s.setNow n).reg a0 = s.reg a0 := by rw [State.reg, setNow_regs, State.reg]
@[simp] theorem setNow_fld (n : Nat) (g0 : Fld) : (s.setNow n).fld g0 = s.fld g0 := by rw [State.fld, setNow_reg, State.fld]
@[simp] theorem setNow_bit (n : Nat) (g0 : Fld) : (s.setNow n).bit g0 = s.bit g0 := by rw [State.bit, setNow_fld, State.bit]
@[simp] theorem setNow_sfld (n : Nat) (g0 : Fld) : (s.setNow n).sfld g0 = s.sfld g0 := by rw [State.sfld, setNow_fld, State.sfld]
@[simp] theorem setNow_stg (n : Nat) (a0 : Nat) : (s.setNow n).stg a0 = s.stg a0 := by rw [State.stg, setNow_staged, State.stg]
@[simp] theorem setNow_getChan (n : Nat) (i0 : Nat) : (s.setNow n).getChan i0 = s.getChan i0 := by rw [State.getChan, setNow_chan, State.getChan]
@[simp] theorem setNow_getGroup (n : Nat) (i0 : Nat) : (s.setNow n).getGroup i0 = s.getGroup i0 := by rw [State.getGroup, setNow_group, State.getGroup]
@[simp] theorem setNow_getSlice (n : Nat) (i0 : Nat) : (s.setNow n).getSlice i0 = s.getSlice i0 := by rw [State.getSlice, setNow_slice, State.getSlice]
@[simp] theorem setNow_getSent (n : Nat) (i0 : Nat) : (s.setNow n).getSent i0 = s.getSent i0 := by rw [State.getSent, setNow_sent, State.getSent]
@[simp] theorem setNow_getCtx (n : Nat) (i0 : Nat) : (s.setNow n).getCtx i0 = s.getCtx i0 := by rw [State.getCtx, setNow_ctx, State.getCtx]
@[simp] theorem setNow_getQ (n : Nat) (i0 : Nat) : (s.setNow n).getQ i0 = s.getQ i0 := by rw [State.getQ, setNow_queue, State.getQ]

/-! ### runCycles -/

theorem runCycles_only (n : Nat) : s.runCycles n = { s with time := (s.runCycles n).time } := by
  unfold State.runCycles
  exact modTime_setNow s _ _

@[simp] theorem runCycles_pending (n : Nat) : (s.runCycles n).pending = s.pending := by rw [runCycles_only s n]
@[simp] theorem runCycles_regs (n : Nat) : (s.runCycles n).regs = s.regs := by rw [runCycles_only s n]
@[simp] theorem runCycles_staged (n : Nat) : (s.runCycles n).staged = s.staged := by rw [runCycles_only s n]
@[simp] theorem runCycles_commits (n : Nat) : (s.runCycles n).commits = s.commits := by rw [runCycles_only s n]
@[simp] theorem runCycles_latchQ (n : Nat) : (s.runCycles n).latchQ = s.latchQ := by rw [runCycles_only s n]
@[simp] theorem runCycles_latchM (n : Nat) : (s.runCycles n).latchM = s.latchM := by rw [runCycles_only s n]
@[simp] theorem runCycles_rdata (n : Nat) : (s.runCycles n).rdata = s.rdata := by rw [runCycles_only s n]
@[simp] theorem runCycles_qspi (n : Nat) : (s.runCycles n).qspi = s.qspi := by rw [runCycles_only s n]
@[simp] theorem runCycles_pins (n : Nat) : (s.runCycles n).pins = s.pins := by rw [runCycles_only s n]
@[simp] theorem runCycles_servo (n : Nat) : (s.runCycles n).servo = s.servo := by rw [runCycles_only s n]
@[simp] theorem runCycles_ptp (n : Nat) : (s.runCycles n).ptp = s.ptp := by rw [runCycles_only s n]
@[simp] theorem runCycles_grid (n : Nat) : (s.runCycles n).grid = s.grid := by rw [runCycles_only s n]
@[simp] theorem runCycles_wale (n : Nat) : (s.runCycles n).wale = s.wale := by rw [runCycles_only s n]
@[simp] theorem runCycles_group (n : Nat) : (s.runCycles n).group = s.group := by rw [runCycles_only s n]
@[simp] theorem runCycles_chan (n : Nat) : (s.runCycles n).chan = s.chan := by rw [runCycles_only s n]
@[simp] theorem runCycles_slice (n : Nat) : (s.runCycles n).slice = s.slice := by rw [runCycles_only s n]
@[simp] theorem runCycles_sent (n : Nat) : (s.runCycles n).sent = s.sent := by rw [runCycles_only s n]
@[simp] theorem runCycles_sentQ (n : Nat) : (s.runCycles n).sentQ = s.sentQ := by rw [runCycles_only s n]
@[simp] theorem runCycles_cal (n : Nat) : (s.runCycles n).cal = s.cal := by rw [runCycles_only s n]
@[simp] theorem runCycles_trig (n : Nat) : (s.runCycles n).trig = s.trig := by rw [runCycles_only s n]
@[simp] theorem runCycles_ctx (n : Nat) : (s.runCycles n).ctx = s.ctx := by rw [runCycles_only s n]
@[simp] theorem runCycles_capMem (n : Nat) : (s.runCycles n).capMem = s.capMem := by rw [runCycles_only s n]
@[simp] theorem runCycles_capEcc (n : Nat) : (s.runCycles n).capEcc = s.capEcc := by rw [runCycles_only s n]
@[simp] theorem runCycles_queue (n : Nat) : (s.runCycles n).queue = s.queue := by rw [runCycles_only s n]
@[simp] theorem runCycles_firAt (n : Nat) : (s.runCycles n).firAt = s.firAt := by rw [runCycles_only s n]
@[simp] theorem runCycles_qmem (n : Nat) : (s.runCycles n).qmem = s.qmem := by rw [runCycles_only s n]
@[simp] theorem runCycles_arbMem (n : Nat) : (s.runCycles n).arbMem = s.arbMem := by rw [runCycles_only s n]
@[simp] theorem runCycles_arbTx (n : Nat) : (s.runCycles n).arbTx = s.arbTx := by rw [runCycles_only s n]
@[simp] theorem runCycles_net (n : Nat) : (s.runCycles n).net = s.net := by rw [runCycles_only s n]
@[simp] theorem runCycles_pair (n : Nat) : (s.runCycles n).pair = s.pair := by rw [runCycles_only s n]
@[simp] theorem runCycles_rim (n : Nat) : (s.runCycles n).rim = s.rim := by rw [runCycles_only s n]
@[simp] theorem runCycles_mram (n : Nat) : (s.runCycles n).mram = s.mram := by rw [runCycles_only s n]
@[simp] theorem runCycles_power (n : Nat) : (s.runCycles n).power = s.power := by rw [runCycles_only s n]
@[simp] theorem runCycles_free (n : Nat) : (s.runCycles n).free = s.free := by rw [runCycles_only s n]
@[simp] theorem runCycles_reg (n : Nat) (a0 : Nat) : (s.runCycles n).reg a0 = s.reg a0 := by rw [State.reg, runCycles_regs, State.reg]
@[simp] theorem runCycles_fld (n : Nat) (g0 : Fld) : (s.runCycles n).fld g0 = s.fld g0 := by rw [State.fld, runCycles_reg, State.fld]
@[simp] theorem runCycles_bit (n : Nat) (g0 : Fld) : (s.runCycles n).bit g0 = s.bit g0 := by rw [State.bit, runCycles_fld, State.bit]
@[simp] theorem runCycles_sfld (n : Nat) (g0 : Fld) : (s.runCycles n).sfld g0 = s.sfld g0 := by rw [State.sfld, runCycles_fld, State.sfld]
@[simp] theorem runCycles_stg (n : Nat) (a0 : Nat) : (s.runCycles n).stg a0 = s.stg a0 := by rw [State.stg, runCycles_staged, State.stg]
@[simp] theorem runCycles_getChan (n : Nat) (i0 : Nat) : (s.runCycles n).getChan i0 = s.getChan i0 := by rw [State.getChan, runCycles_chan, State.getChan]
@[simp] theorem runCycles_getGroup (n : Nat) (i0 : Nat) : (s.runCycles n).getGroup i0 = s.getGroup i0 := by rw [State.getGroup, runCycles_group, State.getGroup]
@[simp] theorem runCycles_getSlice (n : Nat) (i0 : Nat) : (s.runCycles n).getSlice i0 = s.getSlice i0 := by rw [State.getSlice, runCycles_slice, State.getSlice]
@[simp] theorem runCycles_getSent (n : Nat) (i0 : Nat) : (s.runCycles n).getSent i0 = s.getSent i0 := by rw [State.getSent, runCycles_sent, State.getSent]
@[simp] theorem runCycles_getCtx (n : Nat) (i0 : Nat) : (s.runCycles n).getCtx i0 = s.getCtx i0 := by rw [State.getCtx, runCycles_ctx, State.getCtx]
@[simp] theorem runCycles_getQ (n : Nat) (i0 : Nat) : (s.runCycles n).getQ i0 = s.getQ i0 := by rw [State.getQ, runCycles_queue, State.getQ]

/-! ### reachCycles -/

theorem reachCycles_only (n : Nat) : s.reachCycles n = { s with time := (s.reachCycles n).time } := by
  unfold State.reachCycles
  exact runCycles_only s _

@[simp] theorem reachCycles_pending (n : Nat) : (s.reachCycles n).pending = s.pending := by rw [reachCycles_only s n]
@[simp] theorem reachCycles_regs (n : Nat) : (s.reachCycles n).regs = s.regs := by rw [reachCycles_only s n]
@[simp] theorem reachCycles_staged (n : Nat) : (s.reachCycles n).staged = s.staged := by rw [reachCycles_only s n]
@[simp] theorem reachCycles_commits (n : Nat) : (s.reachCycles n).commits = s.commits := by rw [reachCycles_only s n]
@[simp] theorem reachCycles_latchQ (n : Nat) : (s.reachCycles n).latchQ = s.latchQ := by rw [reachCycles_only s n]
@[simp] theorem reachCycles_latchM (n : Nat) : (s.reachCycles n).latchM = s.latchM := by rw [reachCycles_only s n]
@[simp] theorem reachCycles_rdata (n : Nat) : (s.reachCycles n).rdata = s.rdata := by rw [reachCycles_only s n]
@[simp] theorem reachCycles_qspi (n : Nat) : (s.reachCycles n).qspi = s.qspi := by rw [reachCycles_only s n]
@[simp] theorem reachCycles_pins (n : Nat) : (s.reachCycles n).pins = s.pins := by rw [reachCycles_only s n]
@[simp] theorem reachCycles_servo (n : Nat) : (s.reachCycles n).servo = s.servo := by rw [reachCycles_only s n]
@[simp] theorem reachCycles_ptp (n : Nat) : (s.reachCycles n).ptp = s.ptp := by rw [reachCycles_only s n]
@[simp] theorem reachCycles_grid (n : Nat) : (s.reachCycles n).grid = s.grid := by rw [reachCycles_only s n]
@[simp] theorem reachCycles_wale (n : Nat) : (s.reachCycles n).wale = s.wale := by rw [reachCycles_only s n]
@[simp] theorem reachCycles_group (n : Nat) : (s.reachCycles n).group = s.group := by rw [reachCycles_only s n]
@[simp] theorem reachCycles_chan (n : Nat) : (s.reachCycles n).chan = s.chan := by rw [reachCycles_only s n]
@[simp] theorem reachCycles_slice (n : Nat) : (s.reachCycles n).slice = s.slice := by rw [reachCycles_only s n]
@[simp] theorem reachCycles_sent (n : Nat) : (s.reachCycles n).sent = s.sent := by rw [reachCycles_only s n]
@[simp] theorem reachCycles_sentQ (n : Nat) : (s.reachCycles n).sentQ = s.sentQ := by rw [reachCycles_only s n]
@[simp] theorem reachCycles_cal (n : Nat) : (s.reachCycles n).cal = s.cal := by rw [reachCycles_only s n]
@[simp] theorem reachCycles_trig (n : Nat) : (s.reachCycles n).trig = s.trig := by rw [reachCycles_only s n]
@[simp] theorem reachCycles_ctx (n : Nat) : (s.reachCycles n).ctx = s.ctx := by rw [reachCycles_only s n]
@[simp] theorem reachCycles_capMem (n : Nat) : (s.reachCycles n).capMem = s.capMem := by rw [reachCycles_only s n]
@[simp] theorem reachCycles_capEcc (n : Nat) : (s.reachCycles n).capEcc = s.capEcc := by rw [reachCycles_only s n]
@[simp] theorem reachCycles_queue (n : Nat) : (s.reachCycles n).queue = s.queue := by rw [reachCycles_only s n]
@[simp] theorem reachCycles_firAt (n : Nat) : (s.reachCycles n).firAt = s.firAt := by rw [reachCycles_only s n]
@[simp] theorem reachCycles_qmem (n : Nat) : (s.reachCycles n).qmem = s.qmem := by rw [reachCycles_only s n]
@[simp] theorem reachCycles_arbMem (n : Nat) : (s.reachCycles n).arbMem = s.arbMem := by rw [reachCycles_only s n]
@[simp] theorem reachCycles_arbTx (n : Nat) : (s.reachCycles n).arbTx = s.arbTx := by rw [reachCycles_only s n]
@[simp] theorem reachCycles_net (n : Nat) : (s.reachCycles n).net = s.net := by rw [reachCycles_only s n]
@[simp] theorem reachCycles_pair (n : Nat) : (s.reachCycles n).pair = s.pair := by rw [reachCycles_only s n]
@[simp] theorem reachCycles_rim (n : Nat) : (s.reachCycles n).rim = s.rim := by rw [reachCycles_only s n]
@[simp] theorem reachCycles_mram (n : Nat) : (s.reachCycles n).mram = s.mram := by rw [reachCycles_only s n]
@[simp] theorem reachCycles_power (n : Nat) : (s.reachCycles n).power = s.power := by rw [reachCycles_only s n]
@[simp] theorem reachCycles_free (n : Nat) : (s.reachCycles n).free = s.free := by rw [reachCycles_only s n]
@[simp] theorem reachCycles_reg (n : Nat) (a0 : Nat) : (s.reachCycles n).reg a0 = s.reg a0 := by rw [State.reg, reachCycles_regs, State.reg]
@[simp] theorem reachCycles_fld (n : Nat) (g0 : Fld) : (s.reachCycles n).fld g0 = s.fld g0 := by rw [State.fld, reachCycles_reg, State.fld]
@[simp] theorem reachCycles_bit (n : Nat) (g0 : Fld) : (s.reachCycles n).bit g0 = s.bit g0 := by rw [State.bit, reachCycles_fld, State.bit]
@[simp] theorem reachCycles_sfld (n : Nat) (g0 : Fld) : (s.reachCycles n).sfld g0 = s.sfld g0 := by rw [State.sfld, reachCycles_fld, State.sfld]
@[simp] theorem reachCycles_stg (n : Nat) (a0 : Nat) : (s.reachCycles n).stg a0 = s.stg a0 := by rw [State.stg, reachCycles_staged, State.stg]
@[simp] theorem reachCycles_getChan (n : Nat) (i0 : Nat) : (s.reachCycles n).getChan i0 = s.getChan i0 := by rw [State.getChan, reachCycles_chan, State.getChan]
@[simp] theorem reachCycles_getGroup (n : Nat) (i0 : Nat) : (s.reachCycles n).getGroup i0 = s.getGroup i0 := by rw [State.getGroup, reachCycles_group, State.getGroup]
@[simp] theorem reachCycles_getSlice (n : Nat) (i0 : Nat) : (s.reachCycles n).getSlice i0 = s.getSlice i0 := by rw [State.getSlice, reachCycles_slice, State.getSlice]
@[simp] theorem reachCycles_getSent (n : Nat) (i0 : Nat) : (s.reachCycles n).getSent i0 = s.getSent i0 := by rw [State.getSent, reachCycles_sent, State.getSent]
@[simp] theorem reachCycles_getCtx (n : Nat) (i0 : Nat) : (s.reachCycles n).getCtx i0 = s.getCtx i0 := by rw [State.getCtx, reachCycles_ctx, State.getCtx]
@[simp] theorem reachCycles_getQ (n : Nat) (i0 : Nat) : (s.reachCycles n).getQ i0 = s.getQ i0 := by rw [State.getQ, reachCycles_queue, State.getQ]

/-! ### reachNs -/

theorem reachNs_only (n : Nat) : s.reachNs n = { s with time := (s.reachNs n).time } := by
  unfold State.reachNs
  exact runCycles_only s _

@[simp] theorem reachNs_pending (n : Nat) : (s.reachNs n).pending = s.pending := by rw [reachNs_only s n]
@[simp] theorem reachNs_regs (n : Nat) : (s.reachNs n).regs = s.regs := by rw [reachNs_only s n]
@[simp] theorem reachNs_staged (n : Nat) : (s.reachNs n).staged = s.staged := by rw [reachNs_only s n]
@[simp] theorem reachNs_commits (n : Nat) : (s.reachNs n).commits = s.commits := by rw [reachNs_only s n]
@[simp] theorem reachNs_latchQ (n : Nat) : (s.reachNs n).latchQ = s.latchQ := by rw [reachNs_only s n]
@[simp] theorem reachNs_latchM (n : Nat) : (s.reachNs n).latchM = s.latchM := by rw [reachNs_only s n]
@[simp] theorem reachNs_rdata (n : Nat) : (s.reachNs n).rdata = s.rdata := by rw [reachNs_only s n]
@[simp] theorem reachNs_qspi (n : Nat) : (s.reachNs n).qspi = s.qspi := by rw [reachNs_only s n]
@[simp] theorem reachNs_pins (n : Nat) : (s.reachNs n).pins = s.pins := by rw [reachNs_only s n]
@[simp] theorem reachNs_servo (n : Nat) : (s.reachNs n).servo = s.servo := by rw [reachNs_only s n]
@[simp] theorem reachNs_ptp (n : Nat) : (s.reachNs n).ptp = s.ptp := by rw [reachNs_only s n]
@[simp] theorem reachNs_grid (n : Nat) : (s.reachNs n).grid = s.grid := by rw [reachNs_only s n]
@[simp] theorem reachNs_wale (n : Nat) : (s.reachNs n).wale = s.wale := by rw [reachNs_only s n]
@[simp] theorem reachNs_group (n : Nat) : (s.reachNs n).group = s.group := by rw [reachNs_only s n]
@[simp] theorem reachNs_chan (n : Nat) : (s.reachNs n).chan = s.chan := by rw [reachNs_only s n]
@[simp] theorem reachNs_slice (n : Nat) : (s.reachNs n).slice = s.slice := by rw [reachNs_only s n]
@[simp] theorem reachNs_sent (n : Nat) : (s.reachNs n).sent = s.sent := by rw [reachNs_only s n]
@[simp] theorem reachNs_sentQ (n : Nat) : (s.reachNs n).sentQ = s.sentQ := by rw [reachNs_only s n]
@[simp] theorem reachNs_cal (n : Nat) : (s.reachNs n).cal = s.cal := by rw [reachNs_only s n]
@[simp] theorem reachNs_trig (n : Nat) : (s.reachNs n).trig = s.trig := by rw [reachNs_only s n]
@[simp] theorem reachNs_ctx (n : Nat) : (s.reachNs n).ctx = s.ctx := by rw [reachNs_only s n]
@[simp] theorem reachNs_capMem (n : Nat) : (s.reachNs n).capMem = s.capMem := by rw [reachNs_only s n]
@[simp] theorem reachNs_capEcc (n : Nat) : (s.reachNs n).capEcc = s.capEcc := by rw [reachNs_only s n]
@[simp] theorem reachNs_queue (n : Nat) : (s.reachNs n).queue = s.queue := by rw [reachNs_only s n]
@[simp] theorem reachNs_firAt (n : Nat) : (s.reachNs n).firAt = s.firAt := by rw [reachNs_only s n]
@[simp] theorem reachNs_qmem (n : Nat) : (s.reachNs n).qmem = s.qmem := by rw [reachNs_only s n]
@[simp] theorem reachNs_arbMem (n : Nat) : (s.reachNs n).arbMem = s.arbMem := by rw [reachNs_only s n]
@[simp] theorem reachNs_arbTx (n : Nat) : (s.reachNs n).arbTx = s.arbTx := by rw [reachNs_only s n]
@[simp] theorem reachNs_net (n : Nat) : (s.reachNs n).net = s.net := by rw [reachNs_only s n]
@[simp] theorem reachNs_pair (n : Nat) : (s.reachNs n).pair = s.pair := by rw [reachNs_only s n]
@[simp] theorem reachNs_rim (n : Nat) : (s.reachNs n).rim = s.rim := by rw [reachNs_only s n]
@[simp] theorem reachNs_mram (n : Nat) : (s.reachNs n).mram = s.mram := by rw [reachNs_only s n]
@[simp] theorem reachNs_power (n : Nat) : (s.reachNs n).power = s.power := by rw [reachNs_only s n]
@[simp] theorem reachNs_free (n : Nat) : (s.reachNs n).free = s.free := by rw [reachNs_only s n]
@[simp] theorem reachNs_reg (n : Nat) (a0 : Nat) : (s.reachNs n).reg a0 = s.reg a0 := by rw [State.reg, reachNs_regs, State.reg]
@[simp] theorem reachNs_fld (n : Nat) (g0 : Fld) : (s.reachNs n).fld g0 = s.fld g0 := by rw [State.fld, reachNs_reg, State.fld]
@[simp] theorem reachNs_bit (n : Nat) (g0 : Fld) : (s.reachNs n).bit g0 = s.bit g0 := by rw [State.bit, reachNs_fld, State.bit]
@[simp] theorem reachNs_sfld (n : Nat) (g0 : Fld) : (s.reachNs n).sfld g0 = s.sfld g0 := by rw [State.sfld, reachNs_fld, State.sfld]
@[simp] theorem reachNs_stg (n : Nat) (a0 : Nat) : (s.reachNs n).stg a0 = s.stg a0 := by rw [State.stg, reachNs_staged, State.stg]
@[simp] theorem reachNs_getChan (n : Nat) (i0 : Nat) : (s.reachNs n).getChan i0 = s.getChan i0 := by rw [State.getChan, reachNs_chan, State.getChan]
@[simp] theorem reachNs_getGroup (n : Nat) (i0 : Nat) : (s.reachNs n).getGroup i0 = s.getGroup i0 := by rw [State.getGroup, reachNs_group, State.getGroup]
@[simp] theorem reachNs_getSlice (n : Nat) (i0 : Nat) : (s.reachNs n).getSlice i0 = s.getSlice i0 := by rw [State.getSlice, reachNs_slice, State.getSlice]
@[simp] theorem reachNs_getSent (n : Nat) (i0 : Nat) : (s.reachNs n).getSent i0 = s.getSent i0 := by rw [State.getSent, reachNs_sent, State.getSent]
@[simp] theorem reachNs_getCtx (n : Nat) (i0 : Nat) : (s.reachNs n).getCtx i0 = s.getCtx i0 := by rw [State.getCtx, reachNs_ctx, State.getCtx]
@[simp] theorem reachNs_getQ (n : Nat) (i0 : Nat) : (s.reachNs n).getQ i0 = s.getQ i0 := by rw [State.getQ, reachNs_queue, State.getQ]

/-! ### linkSend -/

theorem linkSend_only (r : LinkRec) : s.linkSend r = { s with pair := (s.linkSend r).pair } := by
  unfold State.linkSend
  split <;> rfl

@[simp] theorem linkSend_pending (r : LinkRec) : (s.linkSend r).pending = s.pending := by rw [linkSend_only s r]
@[simp] theorem linkSend_time (r : LinkRec) : (s.linkSend r).time = s.time := by rw [linkSend_only s r]
@[simp] theorem linkSend_regs (r : LinkRec) : (s.linkSend r).regs = s.regs := by rw [linkSend_only s r]
@[simp] theorem linkSend_staged (r : LinkRec) : (s.linkSend r).staged = s.staged := by rw [linkSend_only s r]
@[simp] theorem linkSend_commits (r : LinkRec) : (s.linkSend r).commits = s.commits := by rw [linkSend_only s r]
@[simp] theorem linkSend_latchQ (r : LinkRec) : (s.linkSend r).latchQ = s.latchQ := by rw [linkSend_only s r]
@[simp] theorem linkSend_latchM (r : LinkRec) : (s.linkSend r).latchM = s.latchM := by rw [linkSend_only s r]
@[simp] theorem linkSend_rdata (r : LinkRec) : (s.linkSend r).rdata = s.rdata := by rw [linkSend_only s r]
@[simp] theorem linkSend_qspi (r : LinkRec) : (s.linkSend r).qspi = s.qspi := by rw [linkSend_only s r]
@[simp] theorem linkSend_pins (r : LinkRec) : (s.linkSend r).pins = s.pins := by rw [linkSend_only s r]
@[simp] theorem linkSend_servo (r : LinkRec) : (s.linkSend r).servo = s.servo := by rw [linkSend_only s r]
@[simp] theorem linkSend_ptp (r : LinkRec) : (s.linkSend r).ptp = s.ptp := by rw [linkSend_only s r]
@[simp] theorem linkSend_grid (r : LinkRec) : (s.linkSend r).grid = s.grid := by rw [linkSend_only s r]
@[simp] theorem linkSend_wale (r : LinkRec) : (s.linkSend r).wale = s.wale := by rw [linkSend_only s r]
@[simp] theorem linkSend_group (r : LinkRec) : (s.linkSend r).group = s.group := by rw [linkSend_only s r]
@[simp] theorem linkSend_chan (r : LinkRec) : (s.linkSend r).chan = s.chan := by rw [linkSend_only s r]
@[simp] theorem linkSend_slice (r : LinkRec) : (s.linkSend r).slice = s.slice := by rw [linkSend_only s r]
@[simp] theorem linkSend_sent (r : LinkRec) : (s.linkSend r).sent = s.sent := by rw [linkSend_only s r]
@[simp] theorem linkSend_sentQ (r : LinkRec) : (s.linkSend r).sentQ = s.sentQ := by rw [linkSend_only s r]
@[simp] theorem linkSend_cal (r : LinkRec) : (s.linkSend r).cal = s.cal := by rw [linkSend_only s r]
@[simp] theorem linkSend_trig (r : LinkRec) : (s.linkSend r).trig = s.trig := by rw [linkSend_only s r]
@[simp] theorem linkSend_ctx (r : LinkRec) : (s.linkSend r).ctx = s.ctx := by rw [linkSend_only s r]
@[simp] theorem linkSend_capMem (r : LinkRec) : (s.linkSend r).capMem = s.capMem := by rw [linkSend_only s r]
@[simp] theorem linkSend_capEcc (r : LinkRec) : (s.linkSend r).capEcc = s.capEcc := by rw [linkSend_only s r]
@[simp] theorem linkSend_queue (r : LinkRec) : (s.linkSend r).queue = s.queue := by rw [linkSend_only s r]
@[simp] theorem linkSend_firAt (r : LinkRec) : (s.linkSend r).firAt = s.firAt := by rw [linkSend_only s r]
@[simp] theorem linkSend_qmem (r : LinkRec) : (s.linkSend r).qmem = s.qmem := by rw [linkSend_only s r]
@[simp] theorem linkSend_arbMem (r : LinkRec) : (s.linkSend r).arbMem = s.arbMem := by rw [linkSend_only s r]
@[simp] theorem linkSend_arbTx (r : LinkRec) : (s.linkSend r).arbTx = s.arbTx := by rw [linkSend_only s r]
@[simp] theorem linkSend_net (r : LinkRec) : (s.linkSend r).net = s.net := by rw [linkSend_only s r]
@[simp] theorem linkSend_rim (r : LinkRec) : (s.linkSend r).rim = s.rim := by rw [linkSend_only s r]
@[simp] theorem linkSend_mram (r : LinkRec) : (s.linkSend r).mram = s.mram := by rw [linkSend_only s r]
@[simp] theorem linkSend_power (r : LinkRec) : (s.linkSend r).power = s.power := by rw [linkSend_only s r]
@[simp] theorem linkSend_free (r : LinkRec) : (s.linkSend r).free = s.free := by rw [linkSend_only s r]
@[simp] theorem linkSend_reg (r : LinkRec) (a0 : Nat) : (s.linkSend r).reg a0 = s.reg a0 := by rw [State.reg, linkSend_regs, State.reg]
@[simp] theorem linkSend_fld (r : LinkRec) (g0 : Fld) : (s.linkSend r).fld g0 = s.fld g0 := by rw [State.fld, linkSend_reg, State.fld]
@[simp] theorem linkSend_bit (r : LinkRec) (g0 : Fld) : (s.linkSend r).bit g0 = s.bit g0 := by rw [State.bit, linkSend_fld, State.bit]
@[simp] theorem linkSend_sfld (r : LinkRec) (g0 : Fld) : (s.linkSend r).sfld g0 = s.sfld g0 := by rw [State.sfld, linkSend_fld, State.sfld]
@[simp] theorem linkSend_stg (r : LinkRec) (a0 : Nat) : (s.linkSend r).stg a0 = s.stg a0 := by rw [State.stg, linkSend_staged, State.stg]
@[simp] theorem linkSend_getChan (r : LinkRec) (i0 : Nat) : (s.linkSend r).getChan i0 = s.getChan i0 := by rw [State.getChan, linkSend_chan, State.getChan]
@[simp] theorem linkSend_getGroup (r : LinkRec) (i0 : Nat) : (s.linkSend r).getGroup i0 = s.getGroup i0 := by rw [State.getGroup, linkSend_group, State.getGroup]
@[simp] theorem linkSend_getSlice (r : LinkRec) (i0 : Nat) : (s.linkSend r).getSlice i0 = s.getSlice i0 := by rw [State.getSlice, linkSend_slice, State.getSlice]
@[simp] theorem linkSend_getSent (r : LinkRec) (i0 : Nat) : (s.linkSend r).getSent i0 = s.getSent i0 := by rw [State.getSent, linkSend_sent, State.getSent]
@[simp] theorem linkSend_getCtx (r : LinkRec) (i0 : Nat) : (s.linkSend r).getCtx i0 = s.getCtx i0 := by rw [State.getCtx, linkSend_ctx, State.getCtx]
@[simp] theorem linkSend_getQ (r : LinkRec) (i0 : Nat) : (s.linkSend r).getQ i0 = s.getQ i0 := by rw [State.getQ, linkSend_queue, State.getQ]

/-! ### sendDecision -/

theorem sendDecision_only (d : Decision) : s.sendDecision d = { s with pair := (s.sendDecision d).pair } := by
  unfold State.sendDecision
  split
  · exact linkSend_only _ _
  · rfl

@[simp] theorem sendDecision_pending (d : Decision) : (s.sendDecision d).pending = s.pending := by rw [sendDecision_only s d]
@[simp] theorem sendDecision_time (d : Decision) : (s.sendDecision d).time = s.time := by rw [sendDecision_only s d]
@[simp] theorem sendDecision_regs (d : Decision) : (s.sendDecision d).regs = s.regs := by rw [sendDecision_only s d]
@[simp] theorem sendDecision_staged (d : Decision) : (s.sendDecision d).staged = s.staged := by rw [sendDecision_only s d]
@[simp] theorem sendDecision_commits (d : Decision) : (s.sendDecision d).commits = s.commits := by rw [sendDecision_only s d]
@[simp] theorem sendDecision_latchQ (d : Decision) : (s.sendDecision d).latchQ = s.latchQ := by rw [sendDecision_only s d]
@[simp] theorem sendDecision_latchM (d : Decision) : (s.sendDecision d).latchM = s.latchM := by rw [sendDecision_only s d]
@[simp] theorem sendDecision_rdata (d : Decision) : (s.sendDecision d).rdata = s.rdata := by rw [sendDecision_only s d]
@[simp] theorem sendDecision_qspi (d : Decision) : (s.sendDecision d).qspi = s.qspi := by rw [sendDecision_only s d]
@[simp] theorem sendDecision_pins (d : Decision) : (s.sendDecision d).pins = s.pins := by rw [sendDecision_only s d]
@[simp] theorem sendDecision_servo (d : Decision) : (s.sendDecision d).servo = s.servo := by rw [sendDecision_only s d]
@[simp] theorem sendDecision_ptp (d : Decision) : (s.sendDecision d).ptp = s.ptp := by rw [sendDecision_only s d]
@[simp] theorem sendDecision_grid (d : Decision) : (s.sendDecision d).grid = s.grid := by rw [sendDecision_only s d]
@[simp] theorem sendDecision_wale (d : Decision) : (s.sendDecision d).wale = s.wale := by rw [sendDecision_only s d]
@[simp] theorem sendDecision_group (d : Decision) : (s.sendDecision d).group = s.group := by rw [sendDecision_only s d]
@[simp] theorem sendDecision_chan (d : Decision) : (s.sendDecision d).chan = s.chan := by rw [sendDecision_only s d]
@[simp] theorem sendDecision_slice (d : Decision) : (s.sendDecision d).slice = s.slice := by rw [sendDecision_only s d]
@[simp] theorem sendDecision_sent (d : Decision) : (s.sendDecision d).sent = s.sent := by rw [sendDecision_only s d]
@[simp] theorem sendDecision_sentQ (d : Decision) : (s.sendDecision d).sentQ = s.sentQ := by rw [sendDecision_only s d]
@[simp] theorem sendDecision_cal (d : Decision) : (s.sendDecision d).cal = s.cal := by rw [sendDecision_only s d]
@[simp] theorem sendDecision_trig (d : Decision) : (s.sendDecision d).trig = s.trig := by rw [sendDecision_only s d]
@[simp] theorem sendDecision_ctx (d : Decision) : (s.sendDecision d).ctx = s.ctx := by rw [sendDecision_only s d]
@[simp] theorem sendDecision_capMem (d : Decision) : (s.sendDecision d).capMem = s.capMem := by rw [sendDecision_only s d]
@[simp] theorem sendDecision_capEcc (d : Decision) : (s.sendDecision d).capEcc = s.capEcc := by rw [sendDecision_only s d]
@[simp] theorem sendDecision_queue (d : Decision) : (s.sendDecision d).queue = s.queue := by rw [sendDecision_only s d]
@[simp] theorem sendDecision_firAt (d : Decision) : (s.sendDecision d).firAt = s.firAt := by rw [sendDecision_only s d]
@[simp] theorem sendDecision_qmem (d : Decision) : (s.sendDecision d).qmem = s.qmem := by rw [sendDecision_only s d]
@[simp] theorem sendDecision_arbMem (d : Decision) : (s.sendDecision d).arbMem = s.arbMem := by rw [sendDecision_only s d]
@[simp] theorem sendDecision_arbTx (d : Decision) : (s.sendDecision d).arbTx = s.arbTx := by rw [sendDecision_only s d]
@[simp] theorem sendDecision_net (d : Decision) : (s.sendDecision d).net = s.net := by rw [sendDecision_only s d]
@[simp] theorem sendDecision_rim (d : Decision) : (s.sendDecision d).rim = s.rim := by rw [sendDecision_only s d]
@[simp] theorem sendDecision_mram (d : Decision) : (s.sendDecision d).mram = s.mram := by rw [sendDecision_only s d]
@[simp] theorem sendDecision_power (d : Decision) : (s.sendDecision d).power = s.power := by rw [sendDecision_only s d]
@[simp] theorem sendDecision_free (d : Decision) : (s.sendDecision d).free = s.free := by rw [sendDecision_only s d]
@[simp] theorem sendDecision_reg (d : Decision) (a0 : Nat) : (s.sendDecision d).reg a0 = s.reg a0 := by rw [State.reg, sendDecision_regs, State.reg]
@[simp] theorem sendDecision_fld (d : Decision) (g0 : Fld) : (s.sendDecision d).fld g0 = s.fld g0 := by rw [State.fld, sendDecision_reg, State.fld]
@[simp] theorem sendDecision_bit (d : Decision) (g0 : Fld) : (s.sendDecision d).bit g0 = s.bit g0 := by rw [State.bit, sendDecision_fld, State.bit]
@[simp] theorem sendDecision_sfld (d : Decision) (g0 : Fld) : (s.sendDecision d).sfld g0 = s.sfld g0 := by rw [State.sfld, sendDecision_fld, State.sfld]
@[simp] theorem sendDecision_stg (d : Decision) (a0 : Nat) : (s.sendDecision d).stg a0 = s.stg a0 := by rw [State.stg, sendDecision_staged, State.stg]
@[simp] theorem sendDecision_getChan (d : Decision) (i0 : Nat) : (s.sendDecision d).getChan i0 = s.getChan i0 := by rw [State.getChan, sendDecision_chan, State.getChan]
@[simp] theorem sendDecision_getGroup (d : Decision) (i0 : Nat) : (s.sendDecision d).getGroup i0 = s.getGroup i0 := by rw [State.getGroup, sendDecision_group, State.getGroup]
@[simp] theorem sendDecision_getSlice (d : Decision) (i0 : Nat) : (s.sendDecision d).getSlice i0 = s.getSlice i0 := by rw [State.getSlice, sendDecision_slice, State.getSlice]
@[simp] theorem sendDecision_getSent (d : Decision) (i0 : Nat) : (s.sendDecision d).getSent i0 = s.getSent i0 := by rw [State.getSent, sendDecision_sent, State.getSent]
@[simp] theorem sendDecision_getCtx (d : Decision) (i0 : Nat) : (s.sendDecision d).getCtx i0 = s.getCtx i0 := by rw [State.getCtx, sendDecision_ctx, State.getCtx]
@[simp] theorem sendDecision_getQ (d : Decision) (i0 : Nat) : (s.sendDecision d).getQ i0 = s.getQ i0 := by rw [State.getQ, sendDecision_queue, State.getQ]

/-! ### drawFree -/

theorem drawFree_only : s.drawFree.2 = { s with free := (s.drawFree.2).free } := by
  rfl

@[simp] theorem drawFree_pending : (s.drawFree.2).pending = s.pending := by rw [drawFree_only s]
@[simp] theorem drawFree_time : (s.drawFree.2).time = s.time := by rw [drawFree_only s]
@[simp] theorem drawFree_regs : (s.drawFree.2).regs = s.regs := by rw [drawFree_only s]
@[simp] theorem drawFree_staged : (s.drawFree.2).staged = s.staged := by rw [drawFree_only s]
@[simp] theorem drawFree_commits : (s.drawFree.2).commits = s.commits := by rw [drawFree_only s]
@[simp] theorem drawFree_latchQ : (s.drawFree.2).latchQ = s.latchQ := by rw [drawFree_only s]
@[simp] theorem drawFree_latchM : (s.drawFree.2).latchM = s.latchM := by rw [drawFree_only s]
@[simp] theorem drawFree_rdata : (s.drawFree.2).rdata = s.rdata := by rw [drawFree_only s]
@[simp] theorem drawFree_qspi : (s.drawFree.2).qspi = s.qspi := by rw [drawFree_only s]
@[simp] theorem drawFree_pins : (s.drawFree.2).pins = s.pins := by rw [drawFree_only s]
@[simp] theorem drawFree_servo : (s.drawFree.2).servo = s.servo := by rw [drawFree_only s]
@[simp] theorem drawFree_ptp : (s.drawFree.2).ptp = s.ptp := by rw [drawFree_only s]
@[simp] theorem drawFree_grid : (s.drawFree.2).grid = s.grid := by rw [drawFree_only s]
@[simp] theorem drawFree_wale : (s.drawFree.2).wale = s.wale := by rw [drawFree_only s]
@[simp] theorem drawFree_group : (s.drawFree.2).group = s.group := by rw [drawFree_only s]
@[simp] theorem drawFree_chan : (s.drawFree.2).chan = s.chan := by rw [drawFree_only s]
@[simp] theorem drawFree_slice : (s.drawFree.2).slice = s.slice := by rw [drawFree_only s]
@[simp] theorem drawFree_sent : (s.drawFree.2).sent = s.sent := by rw [drawFree_only s]
@[simp] theorem drawFree_sentQ : (s.drawFree.2).sentQ = s.sentQ := by rw [drawFree_only s]
@[simp] theorem drawFree_cal : (s.drawFree.2).cal = s.cal := by rw [drawFree_only s]
@[simp] theorem drawFree_trig : (s.drawFree.2).trig = s.trig := by rw [drawFree_only s]
@[simp] theorem drawFree_ctx : (s.drawFree.2).ctx = s.ctx := by rw [drawFree_only s]
@[simp] theorem drawFree_capMem : (s.drawFree.2).capMem = s.capMem := by rw [drawFree_only s]
@[simp] theorem drawFree_capEcc : (s.drawFree.2).capEcc = s.capEcc := by rw [drawFree_only s]
@[simp] theorem drawFree_queue : (s.drawFree.2).queue = s.queue := by rw [drawFree_only s]
@[simp] theorem drawFree_firAt : (s.drawFree.2).firAt = s.firAt := by rw [drawFree_only s]
@[simp] theorem drawFree_qmem : (s.drawFree.2).qmem = s.qmem := by rw [drawFree_only s]
@[simp] theorem drawFree_arbMem : (s.drawFree.2).arbMem = s.arbMem := by rw [drawFree_only s]
@[simp] theorem drawFree_arbTx : (s.drawFree.2).arbTx = s.arbTx := by rw [drawFree_only s]
@[simp] theorem drawFree_net : (s.drawFree.2).net = s.net := by rw [drawFree_only s]
@[simp] theorem drawFree_pair : (s.drawFree.2).pair = s.pair := by rw [drawFree_only s]
@[simp] theorem drawFree_rim : (s.drawFree.2).rim = s.rim := by rw [drawFree_only s]
@[simp] theorem drawFree_mram : (s.drawFree.2).mram = s.mram := by rw [drawFree_only s]
@[simp] theorem drawFree_power : (s.drawFree.2).power = s.power := by rw [drawFree_only s]
@[simp] theorem drawFree_reg  (a0 : Nat) : (s.drawFree.2).reg a0 = s.reg a0 := by rw [State.reg, drawFree_regs, State.reg]
@[simp] theorem drawFree_fld  (g0 : Fld) : (s.drawFree.2).fld g0 = s.fld g0 := by rw [State.fld, drawFree_reg, State.fld]
@[simp] theorem drawFree_bit  (g0 : Fld) : (s.drawFree.2).bit g0 = s.bit g0 := by rw [State.bit, drawFree_fld, State.bit]
@[simp] theorem drawFree_sfld  (g0 : Fld) : (s.drawFree.2).sfld g0 = s.sfld g0 := by rw [State.sfld, drawFree_fld, State.sfld]
@[simp] theorem drawFree_stg  (a0 : Nat) : (s.drawFree.2).stg a0 = s.stg a0 := by rw [State.stg, drawFree_staged, State.stg]
@[simp] theorem drawFree_getChan  (i0 : Nat) : (s.drawFree.2).getChan i0 = s.getChan i0 := by rw [State.getChan, drawFree_chan, State.getChan]
@[simp] theorem drawFree_getGroup  (i0 : Nat) : (s.drawFree.2).getGroup i0 = s.getGroup i0 := by rw [State.getGroup, drawFree_group, State.getGroup]
@[simp] theorem drawFree_getSlice  (i0 : Nat) : (s.drawFree.2).getSlice i0 = s.getSlice i0 := by rw [State.getSlice, drawFree_slice, State.getSlice]
@[simp] theorem drawFree_getSent  (i0 : Nat) : (s.drawFree.2).getSent i0 = s.getSent i0 := by rw [State.getSent, drawFree_sent, State.getSent]
@[simp] theorem drawFree_getCtx  (i0 : Nat) : (s.drawFree.2).getCtx i0 = s.getCtx i0 := by rw [State.getCtx, drawFree_ctx, State.getCtx]
@[simp] theorem drawFree_getQ  (i0 : Nat) : (s.drawFree.2).getQ i0 = s.getQ i0 := by rw [State.getQ, drawFree_queue, State.getQ]

/-! ### roundFree -/

theorem roundFree_only (n : Int) (d : Nat) : (s.roundFree n d).2 = { s with free := ((s.roundFree n d).2).free } := by
  simp only [State.roundFree]
  split <;> rfl

@[simp] theorem roundFree_pending (n : Int) (d : Nat) : ((s.roundFree n d).2).pending = s.pending := by rw [roundFree_only s n d]
@[simp] theorem roundFree_time (n : Int) (d : Nat) : ((s.roundFree n d).2).time = s.time := by rw [roundFree_only s n d]
@[simp] theorem roundFree_regs (n : Int) (d : Nat) : ((s.roundFree n d).2).regs = s.regs := by rw [roundFree_only s n d]
@[simp] theorem roundFree_staged (n : Int) (d : Nat) : ((s.roundFree n d).2).staged = s.staged := by rw [roundFree_only s n d]
@[simp] theorem roundFree_commits (n : Int) (d : Nat) : ((s.roundFree n d).2).commits = s.commits := by rw [roundFree_only s n d]
@[simp] theorem roundFree_latchQ (n : Int) (d : Nat) : ((s.roundFree n d).2).latchQ = s.latchQ := by rw [roundFree_only s n d]
@[simp] theorem roundFree_latchM (n : Int) (d : Nat) : ((s.roundFree n d).2).latchM = s.latchM := by rw [roundFree_only s n d]
@[simp] theorem roundFree_rdata (n : Int) (d : Nat) : ((s.roundFree n d).2).rdata = s.rdata := by rw [roundFree_only s n d]
@[simp] theorem roundFree_qspi (n : Int) (d : Nat) : ((s.roundFree n d).2).qspi = s.qspi := by rw [roundFree_only s n d]
@[simp] theorem roundFree_pins (n : Int) (d : Nat) : ((s.roundFree n d).2).pins = s.pins := by rw [roundFree_only s n d]
@[simp] theorem roundFree_servo (n : Int) (d : Nat) : ((s.roundFree n d).2).servo = s.servo := by rw [roundFree_only s n d]
@[simp] theorem roundFree_ptp (n : Int) (d : Nat) : ((s.roundFree n d).2).ptp = s.ptp := by rw [roundFree_only s n d]
@[simp] theorem roundFree_grid (n : Int) (d : Nat) : ((s.roundFree n d).2).grid = s.grid := by rw [roundFree_only s n d]
@[simp] theorem roundFree_wale (n : Int) (d : Nat) : ((s.roundFree n d).2).wale = s.wale := by rw [roundFree_only s n d]
@[simp] theorem roundFree_group (n : Int) (d : Nat) : ((s.roundFree n d).2).group = s.group := by rw [roundFree_only s n d]
@[simp] theorem roundFree_chan (n : Int) (d : Nat) : ((s.roundFree n d).2).chan = s.chan := by rw [roundFree_only s n d]
@[simp] theorem roundFree_slice (n : Int) (d : Nat) : ((s.roundFree n d).2).slice = s.slice := by rw [roundFree_only s n d]
@[simp] theorem roundFree_sent (n : Int) (d : Nat) : ((s.roundFree n d).2).sent = s.sent := by rw [roundFree_only s n d]
@[simp] theorem roundFree_sentQ (n : Int) (d : Nat) : ((s.roundFree n d).2).sentQ = s.sentQ := by rw [roundFree_only s n d]
@[simp] theorem roundFree_cal (n : Int) (d : Nat) : ((s.roundFree n d).2).cal = s.cal := by rw [roundFree_only s n d]
@[simp] theorem roundFree_trig (n : Int) (d : Nat) : ((s.roundFree n d).2).trig = s.trig := by rw [roundFree_only s n d]
@[simp] theorem roundFree_ctx (n : Int) (d : Nat) : ((s.roundFree n d).2).ctx = s.ctx := by rw [roundFree_only s n d]
@[simp] theorem roundFree_capMem (n : Int) (d : Nat) : ((s.roundFree n d).2).capMem = s.capMem := by rw [roundFree_only s n d]
@[simp] theorem roundFree_capEcc (n : Int) (d : Nat) : ((s.roundFree n d).2).capEcc = s.capEcc := by rw [roundFree_only s n d]
@[simp] theorem roundFree_queue (n : Int) (d : Nat) : ((s.roundFree n d).2).queue = s.queue := by rw [roundFree_only s n d]
@[simp] theorem roundFree_firAt (n : Int) (d : Nat) : ((s.roundFree n d).2).firAt = s.firAt := by rw [roundFree_only s n d]
@[simp] theorem roundFree_qmem (n : Int) (d : Nat) : ((s.roundFree n d).2).qmem = s.qmem := by rw [roundFree_only s n d]
@[simp] theorem roundFree_arbMem (n : Int) (d : Nat) : ((s.roundFree n d).2).arbMem = s.arbMem := by rw [roundFree_only s n d]
@[simp] theorem roundFree_arbTx (n : Int) (d : Nat) : ((s.roundFree n d).2).arbTx = s.arbTx := by rw [roundFree_only s n d]
@[simp] theorem roundFree_net (n : Int) (d : Nat) : ((s.roundFree n d).2).net = s.net := by rw [roundFree_only s n d]
@[simp] theorem roundFree_pair (n : Int) (d : Nat) : ((s.roundFree n d).2).pair = s.pair := by rw [roundFree_only s n d]
@[simp] theorem roundFree_rim (n : Int) (d : Nat) : ((s.roundFree n d).2).rim = s.rim := by rw [roundFree_only s n d]
@[simp] theorem roundFree_mram (n : Int) (d : Nat) : ((s.roundFree n d).2).mram = s.mram := by rw [roundFree_only s n d]
@[simp] theorem roundFree_power (n : Int) (d : Nat) : ((s.roundFree n d).2).power = s.power := by rw [roundFree_only s n d]
@[simp] theorem roundFree_reg (n : Int) (d : Nat) (a0 : Nat) : ((s.roundFree n d).2).reg a0 = s.reg a0 := by rw [State.reg, roundFree_regs, State.reg]
@[simp] theorem roundFree_fld (n : Int) (d : Nat) (g0 : Fld) : ((s.roundFree n d).2).fld g0 = s.fld g0 := by rw [State.fld, roundFree_reg, State.fld]
@[simp] theorem roundFree_bit (n : Int) (d : Nat) (g0 : Fld) : ((s.roundFree n d).2).bit g0 = s.bit g0 := by rw [State.bit, roundFree_fld, State.bit]
@[simp] theorem roundFree_sfld (n : Int) (d : Nat) (g0 : Fld) : ((s.roundFree n d).2).sfld g0 = s.sfld g0 := by rw [State.sfld, roundFree_fld, State.sfld]
@[simp] theorem roundFree_stg (n : Int) (d : Nat) (a0 : Nat) : ((s.roundFree n d).2).stg a0 = s.stg a0 := by rw [State.stg, roundFree_staged, State.stg]
@[simp] theorem roundFree_getChan (n : Int) (d : Nat) (i0 : Nat) : ((s.roundFree n d).2).getChan i0 = s.getChan i0 := by rw [State.getChan, roundFree_chan, State.getChan]
@[simp] theorem roundFree_getGroup (n : Int) (d : Nat) (i0 : Nat) : ((s.roundFree n d).2).getGroup i0 = s.getGroup i0 := by rw [State.getGroup, roundFree_group, State.getGroup]
@[simp] theorem roundFree_getSlice (n : Int) (d : Nat) (i0 : Nat) : ((s.roundFree n d).2).getSlice i0 = s.getSlice i0 := by rw [State.getSlice, roundFree_slice, State.getSlice]
@[simp] theorem roundFree_getSent (n : Int) (d : Nat) (i0 : Nat) : ((s.roundFree n d).2).getSent i0 = s.getSent i0 := by rw [State.getSent, roundFree_sent, State.getSent]
@[simp] theorem roundFree_getCtx (n : Int) (d : Nat) (i0 : Nat) : ((s.roundFree n d).2).getCtx i0 = s.getCtx i0 := by rw [State.getCtx, roundFree_ctx, State.getCtx]
@[simp] theorem roundFree_getQ (n : Int) (d : Nat) (i0 : Nat) : ((s.roundFree n d).2).getQ i0 = s.getQ i0 := by rw [State.getQ, roundFree_queue, State.getQ]

/-! ### rimCopyStart -/

theorem rimCopyStart_only : s.rimCopyStart = { s with mram := (s.rimCopyStart).mram, rim := (s.rimCopyStart).rim, cal := (s.rimCopyStart).cal, power := (s.rimCopyStart).power, net := (s.rimCopyStart).net, free := (s.rimCopyStart).free } := by
  simp only [State.rimCopyStart, State.savesAbandon, State.calSaveDrop, State.drawFree, State.modRim, State.modMram,
    State.modNet, State.modPower, State.modCal]

@[simp] theorem rimCopyStart_pending : (s.rimCopyStart).pending = s.pending := by rw [rimCopyStart_only s]
@[simp] theorem rimCopyStart_time : (s.rimCopyStart).time = s.time := by rw [rimCopyStart_only s]
@[simp] theorem rimCopyStart_regs : (s.rimCopyStart).regs = s.regs := by rw [rimCopyStart_only s]
@[simp] theorem rimCopyStart_staged : (s.rimCopyStart).staged = s.staged := by rw [rimCopyStart_only s]
@[simp] theorem rimCopyStart_commits : (s.rimCopyStart).commits = s.commits := by rw [rimCopyStart_only s]
@[simp] theorem rimCopyStart_latchQ : (s.rimCopyStart).latchQ = s.latchQ := by rw [rimCopyStart_only s]
@[simp] theorem rimCopyStart_latchM : (s.rimCopyStart).latchM = s.latchM := by rw [rimCopyStart_only s]
@[simp] theorem rimCopyStart_rdata : (s.rimCopyStart).rdata = s.rdata := by rw [rimCopyStart_only s]
@[simp] theorem rimCopyStart_qspi : (s.rimCopyStart).qspi = s.qspi := by rw [rimCopyStart_only s]
@[simp] theorem rimCopyStart_pins : (s.rimCopyStart).pins = s.pins := by rw [rimCopyStart_only s]
@[simp] theorem rimCopyStart_servo : (s.rimCopyStart).servo = s.servo := by rw [rimCopyStart_only s]
@[simp] theorem rimCopyStart_ptp : (s.rimCopyStart).ptp = s.ptp := by rw [rimCopyStart_only s]
@[simp] theorem rimCopyStart_grid : (s.rimCopyStart).grid = s.grid := by rw [rimCopyStart_only s]
@[simp] theorem rimCopyStart_wale : (s.rimCopyStart).wale = s.wale := by rw [rimCopyStart_only s]
@[simp] theorem rimCopyStart_group : (s.rimCopyStart).group = s.group := by rw [rimCopyStart_only s]
@[simp] theorem rimCopyStart_chan : (s.rimCopyStart).chan = s.chan := by rw [rimCopyStart_only s]
@[simp] theorem rimCopyStart_slice : (s.rimCopyStart).slice = s.slice := by rw [rimCopyStart_only s]
@[simp] theorem rimCopyStart_sent : (s.rimCopyStart).sent = s.sent := by rw [rimCopyStart_only s]
@[simp] theorem rimCopyStart_sentQ : (s.rimCopyStart).sentQ = s.sentQ := by rw [rimCopyStart_only s]
@[simp] theorem rimCopyStart_trig : (s.rimCopyStart).trig = s.trig := by rw [rimCopyStart_only s]
@[simp] theorem rimCopyStart_ctx : (s.rimCopyStart).ctx = s.ctx := by rw [rimCopyStart_only s]
@[simp] theorem rimCopyStart_capMem : (s.rimCopyStart).capMem = s.capMem := by rw [rimCopyStart_only s]
@[simp] theorem rimCopyStart_capEcc : (s.rimCopyStart).capEcc = s.capEcc := by rw [rimCopyStart_only s]
@[simp] theorem rimCopyStart_queue : (s.rimCopyStart).queue = s.queue := by rw [rimCopyStart_only s]
@[simp] theorem rimCopyStart_firAt : (s.rimCopyStart).firAt = s.firAt := by rw [rimCopyStart_only s]
@[simp] theorem rimCopyStart_qmem : (s.rimCopyStart).qmem = s.qmem := by rw [rimCopyStart_only s]
@[simp] theorem rimCopyStart_arbMem : (s.rimCopyStart).arbMem = s.arbMem := by rw [rimCopyStart_only s]
@[simp] theorem rimCopyStart_arbTx : (s.rimCopyStart).arbTx = s.arbTx := by rw [rimCopyStart_only s]
@[simp] theorem rimCopyStart_pair : (s.rimCopyStart).pair = s.pair := by rw [rimCopyStart_only s]
@[simp] theorem rimCopyStart_stg  (a0 : Nat) : (s.rimCopyStart).stg a0 = s.stg a0 := by rw [State.stg, rimCopyStart_staged, State.stg]
@[simp] theorem rimCopyStart_getChan  (i0 : Nat) : (s.rimCopyStart).getChan i0 = s.getChan i0 := by rw [State.getChan, rimCopyStart_chan, State.getChan]
@[simp] theorem rimCopyStart_getGroup  (i0 : Nat) : (s.rimCopyStart).getGroup i0 = s.getGroup i0 := by rw [State.getGroup, rimCopyStart_group, State.getGroup]
@[simp] theorem rimCopyStart_getSlice  (i0 : Nat) : (s.rimCopyStart).getSlice i0 = s.getSlice i0 := by rw [State.getSlice, rimCopyStart_slice, State.getSlice]
@[simp] theorem rimCopyStart_getSent  (i0 : Nat) : (s.rimCopyStart).getSent i0 = s.getSent i0 := by rw [State.getSent, rimCopyStart_sent, State.getSent]
@[simp] theorem rimCopyStart_getCtx  (i0 : Nat) : (s.rimCopyStart).getCtx i0 = s.getCtx i0 := by rw [State.getCtx, rimCopyStart_ctx, State.getCtx]
@[simp] theorem rimCopyStart_getQ  (i0 : Nat) : (s.rimCopyStart).getQ i0 = s.getQ i0 := by rw [State.getQ, rimCopyStart_queue, State.getQ]

/-! ### Registers through the log and the quiet state -/

theorem rimEvent_reg (c d a : Nat) (h1 : a ≠ 0x00604C) (h2 : a ≠ 0x006058) : (s.rimEvent c d).reg a = s.reg a := by
  unfold State.rimEvent
  split
  · exact rimTake_reg _ _ _ h1 h2
  · rfl

theorem rimEvent_fld (c d : Nat) (f : Fld) (h1 : f.addr ≠ 0x00604C) (h2 : f.addr ≠ 0x006058) : (s.rimEvent c d).fld f = s.fld f :=
  congrArg (fun r => getBits r _ _) (rimEvent_reg s c d _ h1 h2)

theorem rimEvent_bit (c d : Nat) (f : Fld) (h1 : f.addr ≠ 0x00604C) (h2 : f.addr ≠ 0x006058) : (s.rimEvent c d).bit f = s.bit f := by
  rw [State.bit, rimEvent_fld _ _ _ _ h1 h2, State.bit]

@[simp] theorem quiet_rimEvent (c d : Nat) : (s.rimEvent c d).quiet = s.quiet :=
  (Mild.rimEvent (l := [0x00604C, 0x006058]) s c d (by simp) (by simp)).quiet (by decide)

@[simp] theorem quiet_rimTake (e : RimEntry) : (s.rimTake e).quiet = s.quiet :=
  (Mild.rimTake (l := [0x00604C, 0x006058]) s e (by simp) (by simp)).quiet (by decide)

theorem quiet_raiseFault (f : FltBit) (hc : f.cls ≠ clsFatal) (hb : s.bit (F.HDR.INT_ROUTE.INBAND f.page) = false) :
    (s.raiseFault f).quiet = s.quiet :=
  (raiseFault_mild s f hc hb).quiet (by rw [mem_faultRegs]; omega)

theorem quiet_time (x : TimeBase) : ({ s with time := x } : State).quiet = s.quiet := rfl

@[simp] theorem quiet_runCycles (n : Nat) : (s.runCycles n).quiet = s.quiet := by rw [runCycles_only]; exact quiet_time s _
@[simp] theorem quiet_reachCycles (n : Nat) : (s.reachCycles n).quiet = s.quiet := by rw [reachCycles_only]; exact quiet_time s _
@[simp] theorem quiet_reachNs (n : Nat) : (s.reachNs n).quiet = s.quiet := by rw [reachNs_only]; exact quiet_time s _
@[simp] theorem quiet_drawFree : s.drawFree.2.quiet = s.quiet := rfl
@[simp] theorem quiet_roundFree (n : Int) (d : Nat) : (s.roundFree n d).2.quiet = s.quiet := by rw [roundFree_only]; rfl
@[simp] theorem quiet_linkSend (r : LinkRec) : (s.linkSend r).quiet = s.quiet := by rw [linkSend_only]; rfl
@[simp] theorem quiet_sendDecision (d : Decision) : (s.sendDecision d).quiet = s.quiet := by rw [sendDecision_only]; rfl

/-! ### Latches of the two access paths (R173, R447) -/

@[simp] theorem latches_modLatches (p : Path) (f : Latches → Latches) : (s.modLatches p f).latches p = f (s.latches p) := by
  cases p <;> rfl

theorem latches_modLatches_ne (p q : Path) (f : Latches → Latches) (h : q ≠ p) : (s.modLatches p f).latches q = s.latches q := by
  cases p <;> cases q <;> first | rfl | exact absurd rfl h

@[simp] theorem quiet_modLatches (p : Path) (f : Latches → Latches) : (s.modLatches p f).quiet = s.quiet := by cases p <;> rfl
@[simp] theorem modLatches_pending (p : Path) (f : Latches → Latches) : (s.modLatches p f).pending = s.pending := by cases p <;> rfl
@[simp] theorem modLatches_reg (p : Path) (f : Latches → Latches) (a : Nat) : (s.modLatches p f).reg a = s.reg a := by cases p <;> rfl

/-- A read that answers `v` and leaves `s'`. -/
theorem act_answer (f : State → Reg × State) (s' : State) (v : Reg) (h : f s = (v, s')) (hs : s.quiet = true) (hq : s'.quiet = s.quiet)
    (hp : s'.pending = s.pending) : act (fun s => State.answer (f s)) s = .next { s' with rdata := [v] } := by
  have e : State.answer (f s) = { s' with rdata := [v] } := by rw [State.answer, h]
  have hq' : (State.answer (f s)).quiet = true := by rw [e]; exact hq.trans hs
  have hp' : (State.answer (f s)).pending = s.pending := by rw [e]; exact hp
  exact (act_quiet _ s hs hq' hp').trans (by rw [e])

end Sys2Proof.Laws
end

