-- ==== Sys2Proof/Laws/Calc.lean ====
section
/-!
SUPPORT. Laws for evaluating what a command leaves: fields of two registers, signed fields, and how every read of the state passes through
a conditional update.
-/

namespace Sys2Proof.Laws

open Sys2Proof Sys2Proof.Machine

theorem fld64_same (s : State) (l u : Fld) (x : Nat) (h1 : l.addr ≠ u.addr) (h4 : l.lo + l.width ≤ 32) (h5 : u.lo + u.width ≤ 32) :
    (s.setFld64 l u x).fld64 l u = x % 2 ^ (l.width + u.width) := by
  rw [State.setFld64, State.fld64, fld_setFld_same _ _ _ h5, fld_setFld_addr _ _ _ _ h1, fld_setFld_same _ _ _ h4, pow_add]
  rw [Nat.mod_mul]
theorem fld_setFld64 (s : State) (f l u : Fld) (x : Nat) (h1 : f.addr ≠ l.addr) (h2 : f.addr ≠ u.addr) : (s.setFld64 l u x).fld f = s.fld f := by
  rw [State.setFld64, fld_setFld_addr _ _ _ _ h2, fld_setFld_addr _ _ _ _ h1]
theorem bit_setFld64 (s : State) (f l u : Fld) (x : Nat) (h1 : f.addr ≠ l.addr) (h2 : f.addr ≠ u.addr) : (s.setFld64 l u x).bit f = s.bit f := by
  rw [State.bit, fld_setFld64 _ _ _ _ _ h1 h2, State.bit]
theorem reg_setFld64 (s : State) (a : Nat) (l u : Fld) (x : Nat) (h1 : a ≠ l.addr) (h2 : a ≠ u.addr) : (s.setFld64 l u x).reg a = s.reg a := by
  rw [State.setFld64, reg_setFld_ne _ _ _ _ h2, reg_setFld_ne _ _ _ _ h1]
theorem unsigned_signed64 (x : Nat) (h : x < 2 ^ 64) : unsigned 64 (signed 64 x) = x := by
  simp only [unsigned, signed, Nat.mod_eq_of_lt h]; split <;> omega
theorem sfld_setFld_other (s : State) (f g : Fld) (x : Nat)
    (h : f.addr ≠ g.addr ∨ f.lo + f.width ≤ g.lo ∨ g.lo + g.width ≤ f.lo) : (s.setFld g x).sfld f = s.sfld f := by
  rw [State.sfld, fld_setFld_other _ _ _ _ h, State.sfld]
theorem sfld_setBit_other (s : State) (f g : Fld) (x : Bool)
    (h : f.addr ≠ g.addr ∨ f.lo + f.width ≤ g.lo ∨ g.lo + g.width ≤ f.lo) : (s.setBit g x).sfld f = s.sfld f := sfld_setFld_other s f g _ h
theorem fld_setSfld_other (s : State) (f g : Fld) (x : Int)
    (h : f.addr ≠ g.addr ∨ f.lo + f.width ≤ g.lo ∨ g.lo + g.width ≤ f.lo) : (s.setSfld g x).fld f = s.fld f := fld_setFld_other s f g _ h
theorem sfld_setSfld_other (s : State) (f g : Fld) (x : Int)
    (h : f.addr ≠ g.addr ∨ f.lo + f.width ≤ g.lo ∨ g.lo + g.width ≤ f.lo) : (s.setSfld g x).sfld f = s.sfld f := sfld_setFld_other s f g _ h
theorem bit_setSfld_other (s : State) (f g : Fld) (x : Int)
    (h : f.addr ≠ g.addr ∨ f.lo + f.width ≤ g.lo ∨ g.lo + g.width ≤ f.lo) : (s.setSfld g x).bit f = s.bit f := bit_setFld_other s f g _ h
theorem fld_setSfld_same (s : State) (f : Fld) (x : Int) (h : f.lo + f.width ≤ 32) : (s.setSfld f x).fld f = unsigned f.width x := by
  rw [State.setSfld, fld_setFld_same _ _ _ h, Nat.mod_eq_of_lt]
  unfold unsigned
  have hp : (0 : Int) < ((2 ^ f.width : Nat) : Int) := by exact_mod_cast Nat.two_pow_pos _
  have h1 := Int.emod_lt_of_pos x hp
  have h2 := Int.emod_nonneg x (ne_of_gt hp)
  omega
theorem reg_setSfld_ne (s : State) (f : Fld) (b : Nat) (x : Int) (h : b ≠ f.addr) : (s.setSfld f x).reg b = s.reg b := reg_setReg_ne _ _ _ _ h
theorem bit_setFld_same (s : State) (f : Fld) (x : Nat) (h : f.lo + f.width ≤ 32) : (s.setFld f x).bit f = decide (x % 2 ^ f.width ≠ 0) := by
  rw [State.bit, fld_setFld_same _ _ _ h]
theorem sfld_raiseInt (s : State) (i : IntBit) (f : Fld) (h : f.addr ≠ 0x1000 * i.page + 0x010) : (s.raiseInt i).sfld f = s.sfld f := by
  rw [State.sfld, raiseInt_fld _ _ _ h, State.sfld]
theorem sfld_rimEvent (s : State) (c d : Nat) (f : Fld) (h1 : f.addr ≠ 0x00604C) (h2 : f.addr ≠ 0x006058) : (s.rimEvent c d).sfld f = s.sfld f := by
  rw [State.sfld, rimEvent_fld _ _ _ _ h1 h2, State.sfld]
theorem sfld_count_other (s : State) (f g : Fld) (k : Nat)
    (h : f.addr ≠ g.addr ∨ f.lo + f.width ≤ g.lo ∨ g.lo + g.width ≤ f.lo) : (s.count g k).sfld f = s.sfld f := sfld_setFld_other s f g _ h

@[simp] theorem when_true (s : State) (f : State → State) : s.when true f = f s := rfl
@[simp] theorem when_false (s : State) (f : State → State) : s.when false f = s := rfl
@[simp] theorem when_pending (s : State) (b : Bool) (f : State → State) : (s.when b f).pending = if b then (f s).pending else s.pending := by
  unfold State.when; split <;> rfl
@[simp] theorem ite_pending (c : Prop) [Decidable c] (s t : State) : (if c then s else t).pending = if c then s.pending else t.pending := by
  split <;> rfl
@[simp] theorem when_time (s : State) (b : Bool) (f : State → State) : (s.when b f).time = if b then (f s).time else s.time := by
  unfold State.when; split <;> rfl
@[simp] theorem ite_time (c : Prop) [Decidable c] (s t : State) : (if c then s else t).time = if c then s.time else t.time := by split <;> rfl
@[simp] theorem when_regs (s : State) (b : Bool) (f : State → State) : (s.when b f).regs = if b then (f s).regs else s.regs := by
  unfold State.when; split <;> rfl
@[simp] theorem ite_regs (c : Prop) [Decidable c] (s t : State) : (if c then s else t).regs = if c then s.regs else t.regs := by split <;> rfl
@[simp] theorem when_staged (s : State) (b : Bool) (f : State → State) : (s.when b f).staged = if b then (f s).staged else s.staged := by
  unfold State.when; split <;> rfl
@[simp] theorem ite_staged (c : Prop) [Decidable c] (s t : State) : (if c then s else t).staged = if c then s.staged else t.staged := by split <;> rfl
@[simp] theorem when_commits (s : State) (b : Bool) (f : State → State) : (s.when b f).commits = if b then (f s).commits else s.commits := by
  unfold State.when; split <;> rfl
@[simp] theorem ite_commits (c : Prop) [Decidable c] (s t : State) : (if c then s else t).commits = if c then s.commits else t.commits := by
  split <;> rfl
@[simp] theorem when_latchQ (s : State) (b : Bool) (f : State → State) : (s.when b f).latchQ = if b then (f s).latchQ else s.latchQ := by
  unfold State.when; split <;> rfl
@[simp] theorem ite_latchQ (c : Prop) [Decidable c] (s t : State) : (if c then s else t).latchQ = if c then s.latchQ else t.latchQ := by split <;> rfl
@[simp] theorem when_latchM (s : State) (b : Bool) (f : State → State) : (s.when b f).latchM = if b then (f s).latchM else s.latchM := by
  unfold State.when; split <;> rfl
@[simp] theorem ite_latchM (c : Prop) [Decidable c] (s t : State) : (if c then s else t).latchM = if c then s.latchM else t.latchM := by split <;> rfl
@[simp] theorem when_rdata (s : State) (b : Bool) (f : State → State) : (s.when b f).rdata = if b then (f s).rdata else s.rdata := by
  unfold State.when; split <;> rfl
@[simp] theorem ite_rdata (c : Prop) [Decidable c] (s t : State) : (if c then s else t).rdata = if c then s.rdata else t.rdata := by split <;> rfl
@[simp] theorem when_qspi (s : State) (b : Bool) (f : State → State) : (s.when b f).qspi = if b then (f s).qspi else s.qspi := by
  unfold State.when; split <;> rfl
@[simp] theorem ite_qspi (c : Prop) [Decidable c] (s t : State) : (if c then s else t).qspi = if c then s.qspi else t.qspi := by split <;> rfl
@[simp] theorem when_pins (s : State) (b : Bool) (f : State → State) : (s.when b f).pins = if b then (f s).pins else s.pins := by
  unfold State.when; split <;> rfl
@[simp] theorem ite_pins (c : Prop) [Decidable c] (s t : State) : (if c then s else t).pins = if c then s.pins else t.pins := by split <;> rfl
@[simp] theorem when_servo (s : State) (b : Bool) (f : State → State) : (s.when b f).servo = if b then (f s).servo else s.servo := by
  unfold State.when; split <;> rfl
@[simp] theorem ite_servo (c : Prop) [Decidable c] (s t : State) : (if c then s else t).servo = if c then s.servo else t.servo := by split <;> rfl
@[simp] theorem when_ptp (s : State) (b : Bool) (f : State → State) : (s.when b f).ptp = if b then (f s).ptp else s.ptp := by
  unfold State.when; split <;> rfl
@[simp] theorem ite_ptp (c : Prop) [Decidable c] (s t : State) : (if c then s else t).ptp = if c then s.ptp else t.ptp := by split <;> rfl
@[simp] theorem when_grid (s : State) (b : Bool) (f : State → State) : (s.when b f).grid = if b then (f s).grid else s.grid := by
  unfold State.when; split <;> rfl
@[simp] theorem ite_grid (c : Prop) [Decidable c] (s t : State) : (if c then s else t).grid = if c then s.grid else t.grid := by split <;> rfl
@[simp] theorem when_wale (s : State) (b : Bool) (f : State → State) : (s.when b f).wale = if b then (f s).wale else s.wale := by
  unfold State.when; split <;> rfl
@[simp] theorem ite_wale (c : Prop) [Decidable c] (s t : State) : (if c then s else t).wale = if c then s.wale else t.wale := by split <;> rfl
@[simp] theorem when_group (s : State) (b : Bool) (f : State → State) : (s.when b f).group = if b then (f s).group else s.group := by
  unfold State.when; split <;> rfl
@[simp] theorem ite_group (c : Prop) [Decidable c] (s t : State) : (if c then s else t).group = if c then s.group else t.group := by split <;> rfl
@[simp] theorem when_chan (s : State) (b : Bool) (f : State → State) : (s.when b f).chan = if b then (f s).chan else s.chan := by
  unfold State.when; split <;> rfl
@[simp] theorem ite_chan (c : Prop) [Decidable c] (s t : State) : (if c then s else t).chan = if c then s.chan else t.chan := by split <;> rfl
@[simp] theorem when_slice (s : State) (b : Bool) (f : State → State) : (s.when b f).slice = if b then (f s).slice else s.slice := by
  unfold State.when; split <;> rfl
@[simp] theorem ite_slice (c : Prop) [Decidable c] (s t : State) : (if c then s else t).slice = if c then s.slice else t.slice := by split <;> rfl
@[simp] theorem when_sent (s : State) (b : Bool) (f : State → State) : (s.when b f).sent = if b then (f s).sent else s.sent := by
  unfold State.when; split <;> rfl
@[simp] theorem ite_sent (c : Prop) [Decidable c] (s t : State) : (if c then s else t).sent = if c then s.sent else t.sent := by split <;> rfl
@[simp] theorem when_sentQ (s : State) (b : Bool) (f : State → State) : (s.when b f).sentQ = if b then (f s).sentQ else s.sentQ := by
  unfold State.when; split <;> rfl
@[simp] theorem ite_sentQ (c : Prop) [Decidable c] (s t : State) : (if c then s else t).sentQ = if c then s.sentQ else t.sentQ := by split <;> rfl
@[simp] theorem when_cal (s : State) (b : Bool) (f : State → State) : (s.when b f).cal = if b then (f s).cal else s.cal := by
  unfold State.when; split <;> rfl
@[simp] theorem ite_cal (c : Prop) [Decidable c] (s t : State) : (if c then s else t).cal = if c then s.cal else t.cal := by split <;> rfl
@[simp] theorem when_trig (s : State) (b : Bool) (f : State → State) : (s.when b f).trig = if b then (f s).trig else s.trig := by
  unfold State.when; split <;> rfl
@[simp] theorem ite_trig (c : Prop) [Decidable c] (s t : State) : (if c then s else t).trig = if c then s.trig else t.trig := by split <;> rfl
@[simp] theorem when_ctx (s : State) (b : Bool) (f : State → State) : (s.when b f).ctx = if b then (f s).ctx else s.ctx := by
  unfold State.when; split <;> rfl
@[simp] theorem ite_ctx (c : Prop) [Decidable c] (s t : State) : (if c then s else t).ctx = if c then s.ctx else t.ctx := by split <;> rfl
@[simp] theorem when_capMem (s : State) (b : Bool) (f : State → State) : (s.when b f).capMem = if b then (f s).capMem else s.capMem := by
  unfold State.when; split <;> rfl
@[simp] theorem ite_capMem (c : Prop) [Decidable c] (s t : State) : (if c then s else t).capMem = if c then s.capMem else t.capMem := by split <;> rfl
@[simp] theorem when_capEcc (s : State) (b : Bool) (f : State → State) : (s.when b f).capEcc = if b then (f s).capEcc else s.capEcc := by
  unfold State.when; split <;> rfl
@[simp] theorem ite_capEcc (c : Prop) [Decidable c] (s t : State) : (if c then s else t).capEcc = if c then s.capEcc else t.capEcc := by split <;> rfl
@[simp] theorem when_queue (s : State) (b : Bool) (f : State → State) : (s.when b f).queue = if b then (f s).queue else s.queue := by
  unfold State.when; split <;> rfl
@[simp] theorem ite_queue (c : Prop) [Decidable c] (s t : State) : (if c then s else t).queue = if c then s.queue else t.queue := by split <;> rfl
@[simp] theorem when_firAt (s : State) (b : Bool) (f : State → State) : (s.when b f).firAt = if b then (f s).firAt else s.firAt := by
  unfold State.when; split <;> rfl
@[simp] theorem ite_firAt (c : Prop) [Decidable c] (s t : State) : (if c then s else t).firAt = if c then s.firAt else t.firAt := by split <;> rfl
@[simp] theorem when_qmem (s : State) (b : Bool) (f : State → State) : (s.when b f).qmem = if b then (f s).qmem else s.qmem := by
  unfold State.when; split <;> rfl
@[simp] theorem ite_qmem (c : Prop) [Decidable c] (s t : State) : (if c then s else t).qmem = if c then s.qmem else t.qmem := by split <;> rfl
@[simp] theorem when_arbMem (s : State) (b : Bool) (f : State → State) : (s.when b f).arbMem = if b then (f s).arbMem else s.arbMem := by
  unfold State.when; split <;> rfl
@[simp] theorem ite_arbMem (c : Prop) [Decidable c] (s t : State) : (if c then s else t).arbMem = if c then s.arbMem else t.arbMem := by split <;> rfl
@[simp] theorem when_arbTx (s : State) (b : Bool) (f : State → State) : (s.when b f).arbTx = if b then (f s).arbTx else s.arbTx := by
  unfold State.when; split <;> rfl
@[simp] theorem ite_arbTx (c : Prop) [Decidable c] (s t : State) : (if c then s else t).arbTx = if c then s.arbTx else t.arbTx := by split <;> rfl
@[simp] theorem when_net (s : State) (b : Bool) (f : State → State) : (s.when b f).net = if b then (f s).net else s.net := by
  unfold State.when; split <;> rfl
@[simp] theorem ite_net (c : Prop) [Decidable c] (s t : State) : (if c then s else t).net = if c then s.net else t.net := by split <;> rfl
@[simp] theorem when_pair (s : State) (b : Bool) (f : State → State) : (s.when b f).pair = if b then (f s).pair else s.pair := by
  unfold State.when; split <;> rfl
@[simp] theorem ite_pair (c : Prop) [Decidable c] (s t : State) : (if c then s else t).pair = if c then s.pair else t.pair := by split <;> rfl
@[simp] theorem when_rim (s : State) (b : Bool) (f : State → State) : (s.when b f).rim = if b then (f s).rim else s.rim := by
  unfold State.when; split <;> rfl
@[simp] theorem ite_rim (c : Prop) [Decidable c] (s t : State) : (if c then s else t).rim = if c then s.rim else t.rim := by split <;> rfl
@[simp] theorem when_mram (s : State) (b : Bool) (f : State → State) : (s.when b f).mram = if b then (f s).mram else s.mram := by
  unfold State.when; split <;> rfl
@[simp] theorem ite_mram (c : Prop) [Decidable c] (s t : State) : (if c then s else t).mram = if c then s.mram else t.mram := by split <;> rfl
@[simp] theorem when_power (s : State) (b : Bool) (f : State → State) : (s.when b f).power = if b then (f s).power else s.power := by
  unfold State.when; split <;> rfl
@[simp] theorem ite_power (c : Prop) [Decidable c] (s t : State) : (if c then s else t).power = if c then s.power else t.power := by split <;> rfl
@[simp] theorem when_free (s : State) (b : Bool) (f : State → State) : (s.when b f).free = if b then (f s).free else s.free := by
  unfold State.when; split <;> rfl
@[simp] theorem ite_free (c : Prop) [Decidable c] (s t : State) : (if c then s else t).free = if c then s.free else t.free := by split <;> rfl
@[simp] theorem when_quiet (s : State) (b : Bool) (f : State → State) : (s.when b f).quiet = if b then (f s).quiet else s.quiet := by
  unfold State.when; split <;> rfl
@[simp] theorem ite_quiet (c : Prop) [Decidable c] (s t : State) : (if c then s else t).quiet = if c then s.quiet else t.quiet := by split <;> rfl
@[simp] theorem when_fld (s : State) (b : Bool) (f : State → State) (x : Fld) : (s.when b f).fld x = if b then (f s).fld x else s.fld x := by
  unfold State.when; split <;> rfl
@[simp] theorem ite_fld (c : Prop) [Decidable c] (s t : State) (x : Fld) : (if c then s else t).fld x = if c then s.fld x else t.fld x := by
  split <;> rfl
@[simp] theorem when_bit (s : State) (b : Bool) (f : State → State) (x : Fld) : (s.when b f).bit x = if b then (f s).bit x else s.bit x := by
  unfold State.when; split <;> rfl
@[simp] theorem ite_bit (c : Prop) [Decidable c] (s t : State) (x : Fld) : (if c then s else t).bit x = if c then s.bit x else t.bit x := by
  split <;> rfl
@[simp] theorem when_sfld (s : State) (b : Bool) (f : State → State) (x : Fld) : (s.when b f).sfld x = if b then (f s).sfld x else s.sfld x := by
  unfold State.when; split <;> rfl
@[simp] theorem ite_sfld (c : Prop) [Decidable c] (s t : State) (x : Fld) : (if c then s else t).sfld x = if c then s.sfld x else t.sfld x := by
  split <;> rfl
@[simp] theorem when_reg (s : State) (b : Bool) (f : State → State) (x : Nat) : (s.when b f).reg x = if b then (f s).reg x else s.reg x := by
  unfold State.when; split <;> rfl
@[simp] theorem ite_reg (c : Prop) [Decidable c] (s t : State) (x : Nat) : (if c then s else t).reg x = if c then s.reg x else t.reg x := by
  split <;> rfl
@[simp] theorem when_stg (s : State) (b : Bool) (f : State → State) (x : Nat) : (s.when b f).stg x = if b then (f s).stg x else s.stg x := by
  unfold State.when; split <;> rfl
@[simp] theorem ite_stg (c : Prop) [Decidable c] (s t : State) (x : Nat) : (if c then s else t).stg x = if c then s.stg x else t.stg x := by
  split <;> rfl
@[simp] theorem when_getChan (s : State) (b : Bool) (f : State → State) (x : Nat) : (s.when b f).getChan x = if b then (f s).getChan x else s.getChan x := by
  unfold State.when; split <;> rfl
@[simp] theorem ite_getChan (c : Prop) [Decidable c] (s t : State) (x : Nat) : (if c then s else t).getChan x = if c then s.getChan x else t.getChan x := by
  split <;> rfl
@[simp] theorem when_getGroup (s : State) (b : Bool) (f : State → State) (x : Nat) : (s.when b f).getGroup x = if b then (f s).getGroup x else s.getGroup x := by
  unfold State.when; split <;> rfl
@[simp] theorem ite_getGroup (c : Prop) [Decidable c] (s t : State) (x : Nat) : (if c then s else t).getGroup x = if c then s.getGroup x else t.getGroup x := by
  split <;> rfl
@[simp] theorem when_getSlice (s : State) (b : Bool) (f : State → State) (x : Nat) : (s.when b f).getSlice x = if b then (f s).getSlice x else s.getSlice x := by
  unfold State.when; split <;> rfl
@[simp] theorem ite_getSlice (c : Prop) [Decidable c] (s t : State) (x : Nat) : (if c then s else t).getSlice x = if c then s.getSlice x else t.getSlice x := by
  split <;> rfl
@[simp] theorem when_getCtx (s : State) (b : Bool) (f : State → State) (x : Nat) : (s.when b f).getCtx x = if b then (f s).getCtx x else s.getCtx x := by
  unfold State.when; split <;> rfl
@[simp] theorem ite_getCtx (c : Prop) [Decidable c] (s t : State) (x : Nat) : (if c then s else t).getCtx x = if c then s.getCtx x else t.getCtx x := by
  split <;> rfl
@[simp] theorem when_getQ (s : State) (b : Bool) (f : State → State) (x : Nat) : (s.when b f).getQ x = if b then (f s).getQ x else s.getQ x := by
  unfold State.when; split <;> rfl
@[simp] theorem ite_getQ (c : Prop) [Decidable c] (s t : State) (x : Nat) : (if c then s else t).getQ x = if c then s.getQ x else t.getQ x := by
  split <;> rfl
@[simp] theorem when_getSent (s : State) (b : Bool) (f : State → State) (x : Nat) : (s.when b f).getSent x = if b then (f s).getSent x else s.getSent x := by
  unfold State.when; split <;> rfl
@[simp] theorem ite_getSent (c : Prop) [Decidable c] (s t : State) (x : Nat) : (if c then s else t).getSent x = if c then s.getSent x else t.getSent x := by
  split <;> rfl
theorem freqToInt_def (s : State) : s.freqToInt = s.setSfld F.TIME.FREQ_ADJ.ADJ (s.sfld F.TIME.FREQ_INT.INT) := rfl
theorem cancelStep_def (s : State) : s.cancelStep = (s.setBit F.TIME.TIME_STATE.STEP_SCHED false).modServo fun v => { v with sched := none } := rfl

/-! ### Changes of registers and of the log alone -/

theorem onlyRegs_symm (s t : State) (h : s.onlyRegs t) : t.onlyRegs s := by
  unfold State.onlyRegs at *
  rw [h]

/-- A step that changes registers and the log alone does not matter to the comparison. -/
theorem onlyRegs_step (s t u : State) (h : t.onlyRegs u) : s.onlyRegs u ↔ s.onlyRegs t :=
  ⟨fun h' => onlyRegs_trans h' (onlyRegs_symm t u h), fun h' => onlyRegs_trans h' h⟩

@[simp] theorem onlyRegs_self (s : State) : s.onlyRegs s := rfl
@[simp] theorem onlyRegs_setReg (s t : State) (a : Nat) (v : Reg) : s.onlyRegs (t.setReg a v) ↔ s.onlyRegs t := onlyRegs_step s t _ rfl
@[simp] theorem onlyRegs_setFld (s t : State) (f : Fld) (x : Nat) : s.onlyRegs (t.setFld f x) ↔ s.onlyRegs t := onlyRegs_step s t _ rfl
@[simp] theorem onlyRegs_setBit (s t : State) (f : Fld) (b : Bool) : s.onlyRegs (t.setBit f b) ↔ s.onlyRegs t := onlyRegs_step s t _ rfl
@[simp] theorem onlyRegs_setSfld (s t : State) (f : Fld) (x : Int) : s.onlyRegs (t.setSfld f x) ↔ s.onlyRegs t := onlyRegs_step s t _ rfl
@[simp] theorem onlyRegs_count (s t : State) (f : Fld) (k : Nat) : s.onlyRegs (t.count f k) ↔ s.onlyRegs t := onlyRegs_step s t _ rfl
@[simp] theorem onlyRegs_modRim (s t : State) (f : Rim → Rim) : s.onlyRegs (t.modRim f) ↔ s.onlyRegs t := onlyRegs_step s t _ rfl
@[simp] theorem onlyRegs_otherWrite (s t : State) : s.onlyRegs t.otherWrite ↔ s.onlyRegs t := onlyRegs_step s t _ rfl
@[simp] theorem onlyRegs_raiseInt (s t : State) (i : IntBit) : s.onlyRegs (t.raiseInt i) ↔ s.onlyRegs t :=
  onlyRegs_step s t _ (raiseInt_only t i)
@[simp] theorem onlyRegs_rimEvent (s t : State) (c d : Nat) : s.onlyRegs (t.rimEvent c d) ↔ s.onlyRegs t :=
  onlyRegs_step s t _ (rimEvent_only t c d)
@[simp] theorem onlyRegs_rimTake (s t : State) (e : RimEntry) : s.onlyRegs (t.rimTake e) ↔ s.onlyRegs t :=
  onlyRegs_step s t _ (rimTake_only t e)
theorem onlyRegs_raiseFault (s t : State) (f : FltBit) (hc : f.cls ≠ clsFatal) (hb : t.bit (F.HDR.INT_ROUTE.INBAND f.page) = false) :
    s.onlyRegs (t.raiseFault f) ↔ s.onlyRegs t := onlyRegs_step s t _ (raiseFault_mild t f hc hb).only

end Sys2Proof.Laws
end

