-- ==== Sys2Proof/Laws/Memory.lean ====
section
/-!
SUPPORT. The laws of queue memory and capture memory: read after write, and that every operation that writes one of them keeps their
canonical form (`State.memWf`).
-/

namespace Sys2Proof.Laws

open Sys2Proof.Machine

variable (s : State)

/-- Right after reset both memories list nothing, which is canonical. -/
theorem memWf_reset : State.reset.memWf = true := rfl

/-- The canonical form looks at the two memories alone. -/
theorem memWf_congr (t : State) (hq : t.qmem = s.qmem) (hc : t.capMem = s.capMem) : t.memWf = s.memWf := by
  simp [State.memWf, hq, hc]

/-- A write of a word of queue memory keeps the canonical form. -/
theorem memWf_setQWord (a : Nat) (w : Word) (h : s.memWf = true) : (s.setQWord a w).memWf = true := by
  simp only [State.memWf, State.setQWord, Bool.and_eq_true] at h ⊢
  exact ⟨swf_sset (fun _ => 0#40) s.qmem a w h.1, h.2⟩

/-- A write of a word of capture memory keeps the canonical form. -/
theorem memWf_setCapWord (a : Nat) (w : Word) (h : s.memWf = true) : (s.setCapWord a w).memWf = true := by
  simp only [State.memWf, State.setCapWord, Bool.and_eq_true] at h ⊢
  exact ⟨h.1, swf_sset (fun _ => 0#40) s.capMem a w h.2⟩

/-- The word written is read back, -/
@[simp] theorem qWord_setQWord_same (a : Nat) (w : Word) : (s.setQWord a w).qWord a = w := sget_sset_same 0 s.qmem a w

/-- and every other word is as it was. -/
theorem qWord_setQWord_ne (a b : Nat) (w : Word) (h : b ≠ a) : (s.setQWord a w).qWord b = s.qWord b := sget_sset_ne 0 0 s.qmem a b w h

@[simp] theorem capWord_setCapWord_same (a : Nat) (w : Word) : (s.setCapWord a w).capWord a = w := sget_sset_same 0 s.capMem a w

theorem capWord_setCapWord_ne (a b : Nat) (w : Word) (h : b ≠ a) : (s.setCapWord a w).capWord b = s.capWord b :=
  sget_sset_ne 0 0 s.capMem a b w h

@[simp] theorem setQWord_regs (a : Nat) (w : Word) : (s.setQWord a w).regs = s.regs := rfl
@[simp] theorem setQWord_queue (a : Nat) (w : Word) : (s.setQWord a w).queue = s.queue := rfl
@[simp] theorem setQWord_capMem (a : Nat) (w : Word) : (s.setQWord a w).capMem = s.capMem := rfl
@[simp] theorem setCapWord_regs (a : Nat) (w : Word) : (s.setCapWord a w).regs = s.regs := rfl
@[simp] theorem setCapWord_qmem (a : Nat) (w : Word) : (s.setCapWord a w).qmem = s.qmem := rfl
@[simp] theorem setCapWord_ctx (a : Nat) (w : Word) : (s.setCapWord a w).ctx = s.ctx := rfl

end Sys2Proof.Laws
end

