-- ==== Sys2Proof/Laws/Servo.lean ====
section
/-!
SUPPORT. What entering a state of the servo changes (R64): TIME_STATE, FREQ_ADJ, the servo's own record and an entry of the log.
-/

namespace Sys2Proof.Laws

open Sys2Proof Sys2Proof.Machine

/-- Entering a state of the servo touches registers, the servo's record and the log. -/
theorem servoEnter_only (s : State) (st : Nat) :
    s.servoEnter st = { s with regs := (s.servoEnter st).regs, servo := (s.servoEnter st).servo, rim := (s.servoEnter st).rim } := by
  have w : ∀ (u : State) (b : Bool) (f : State → State),
      (∀ v : State, f v = { v with regs := (f v).regs, servo := (f v).servo, rim := (f v).rim }) →
      u.when b f = { u with regs := (u.when b f).regs, servo := (u.when b f).servo, rim := (u.when b f).rim } := by
    intro u b f h
    cases b
    · rfl
    · exact h u
  have tr : ∀ u v x : State, v = { u with regs := v.regs, servo := v.servo, rim := v.rim } →
      x = { v with regs := x.regs, servo := x.servo, rim := x.rim } → x = { u with regs := x.regs, servo := x.servo, rim := x.rim } := by
    intro u v x h1 h2
    rw [h2, h1]
  unfold State.servoEnter
  extract_lets old rateInt fresh ends s1 s2 s3 s4 s5
  have h1 : s1 = { s with regs := s1.regs, servo := s1.servo, rim := s1.rim } := rfl
  have h2 : s2 = { s1 with regs := s2.regs, servo := s2.servo, rim := s2.rim } := w _ _ _ fun _ => rfl
  have h3 : s3 = { s2 with regs := s3.regs, servo := s3.servo, rim := s3.rim } := w _ _ _ fun _ => rfl
  have h4 : s4 = { s3 with regs := s4.regs, servo := s4.servo, rim := s4.rim } := w _ _ _ fun _ => rfl
  have h5 : s5 = { s4 with regs := s5.regs, servo := s5.servo, rim := s5.rim } := w _ _ _ fun _ => rfl
  have h := tr _ _ _ (tr _ _ _ (tr _ _ _ (tr _ _ _ h1 h2) h3) h4) h5
  split
  · exact h
  · refine tr _ _ _ h ?_
    rw [rimEvent_only]
    rfl

@[simp] theorem servoEnter_pending (s : State) (st : Nat) : (s.servoEnter st).pending = s.pending := by rw [servoEnter_only s st]
@[simp] theorem servoEnter_time (s : State) (st : Nat) : (s.servoEnter st).time = s.time := by rw [servoEnter_only s st]
@[simp] theorem servoEnter_staged (s : State) (st : Nat) : (s.servoEnter st).staged = s.staged := by rw [servoEnter_only s st]
@[simp] theorem servoEnter_commits (s : State) (st : Nat) : (s.servoEnter st).commits = s.commits := by rw [servoEnter_only s st]
@[simp] theorem servoEnter_latchQ (s : State) (st : Nat) : (s.servoEnter st).latchQ = s.latchQ := by rw [servoEnter_only s st]
@[simp] theorem servoEnter_latchM (s : State) (st : Nat) : (s.servoEnter st).latchM = s.latchM := by rw [servoEnter_only s st]
@[simp] theorem servoEnter_rdata (s : State) (st : Nat) : (s.servoEnter st).rdata = s.rdata := by rw [servoEnter_only s st]
@[simp] theorem servoEnter_qspi (s : State) (st : Nat) : (s.servoEnter st).qspi = s.qspi := by rw [servoEnter_only s st]
@[simp] theorem servoEnter_pins (s : State) (st : Nat) : (s.servoEnter st).pins = s.pins := by rw [servoEnter_only s st]
@[simp] theorem servoEnter_ptp (s : State) (st : Nat) : (s.servoEnter st).ptp = s.ptp := by rw [servoEnter_only s st]
@[simp] theorem servoEnter_grid (s : State) (st : Nat) : (s.servoEnter st).grid = s.grid := by rw [servoEnter_only s st]
@[simp] theorem servoEnter_wale (s : State) (st : Nat) : (s.servoEnter st).wale = s.wale := by rw [servoEnter_only s st]
@[simp] theorem servoEnter_group (s : State) (st : Nat) : (s.servoEnter st).group = s.group := by rw [servoEnter_only s st]
@[simp] theorem servoEnter_chan (s : State) (st : Nat) : (s.servoEnter st).chan = s.chan := by rw [servoEnter_only s st]
@[simp] theorem servoEnter_slice (s : State) (st : Nat) : (s.servoEnter st).slice = s.slice := by rw [servoEnter_only s st]
@[simp] theorem servoEnter_sent (s : State) (st : Nat) : (s.servoEnter st).sent = s.sent := by rw [servoEnter_only s st]
@[simp] theorem servoEnter_sentQ (s : State) (st : Nat) : (s.servoEnter st).sentQ = s.sentQ := by rw [servoEnter_only s st]
@[simp] theorem servoEnter_cal (s : State) (st : Nat) : (s.servoEnter st).cal = s.cal := by rw [servoEnter_only s st]
@[simp] theorem servoEnter_trig (s : State) (st : Nat) : (s.servoEnter st).trig = s.trig := by rw [servoEnter_only s st]
@[simp] theorem servoEnter_ctx (s : State) (st : Nat) : (s.servoEnter st).ctx = s.ctx := by rw [servoEnter_only s st]
@[simp] theorem servoEnter_capMem (s : State) (st : Nat) : (s.servoEnter st).capMem = s.capMem := by rw [servoEnter_only s st]
@[simp] theorem servoEnter_capEcc (s : State) (st : Nat) : (s.servoEnter st).capEcc = s.capEcc := by rw [servoEnter_only s st]
@[simp] theorem servoEnter_queue (s : State) (st : Nat) : (s.servoEnter st).queue = s.queue := by rw [servoEnter_only s st]
@[simp] theorem servoEnter_firAt (s : State) (st : Nat) : (s.servoEnter st).firAt = s.firAt := by rw [servoEnter_only s st]
@[simp] theorem servoEnter_qmem (s : State) (st : Nat) : (s.servoEnter st).qmem = s.qmem := by rw [servoEnter_only s st]
@[simp] theorem servoEnter_arbMem (s : State) (st : Nat) : (s.servoEnter st).arbMem = s.arbMem := by rw [servoEnter_only s st]
@[simp] theorem servoEnter_arbTx (s : State) (st : Nat) : (s.servoEnter st).arbTx = s.arbTx := by rw [servoEnter_only s st]
@[simp] theorem servoEnter_net (s : State) (st : Nat) : (s.servoEnter st).net = s.net := by rw [servoEnter_only s st]
@[simp] theorem servoEnter_pair (s : State) (st : Nat) : (s.servoEnter st).pair = s.pair := by rw [servoEnter_only s st]
@[simp] theorem servoEnter_mram (s : State) (st : Nat) : (s.servoEnter st).mram = s.mram := by rw [servoEnter_only s st]
@[simp] theorem servoEnter_power (s : State) (st : Nat) : (s.servoEnter st).power = s.power := by rw [servoEnter_only s st]
@[simp] theorem servoEnter_free (s : State) (st : Nat) : (s.servoEnter st).free = s.free := by rw [servoEnter_only s st]

/-- Beside TIME_STATE and FREQ_ADJ only the log's own registers change. -/
theorem servoEnter_fld (s : State) (st : Nat) (f : Fld) (h1 : f.addr ≠ 0x001048) (h2 : f.addr ≠ 0x001088) (h3 : f.addr ≠ 0x00604C)
    (h4 : f.addr ≠ 0x006058) : (s.servoEnter st).fld f = s.fld f := by
  simp (disch := first | assumption | omega | exact Or.inl ‹_›) [State.servoEnter, State.freqToInt, State.setFreqAdj, State.pendBits,
    State.cancelStep, fld_setFld_other, fld_setBit_other, fld_setSfld_other, rimEvent_fld]

theorem servoEnter_bit (s : State) (st : Nat) (f : Fld) (h1 : f.addr ≠ 0x001048) (h2 : f.addr ≠ 0x001088) (h3 : f.addr ≠ 0x00604C)
    (h4 : f.addr ≠ 0x006058) : (s.servoEnter st).bit f = s.bit f := by
  rw [State.bit, servoEnter_fld s st f h1 h2 h3 h4, State.bit]

theorem servoEnter_sfld (s : State) (st : Nat) (f : Fld) (h1 : f.addr ≠ 0x001048) (h2 : f.addr ≠ 0x001088) (h3 : f.addr ≠ 0x00604C)
    (h4 : f.addr ≠ 0x006058) : (s.servoEnter st).sfld f = s.sfld f := by
  rw [State.sfld, servoEnter_fld s st f h1 h2 h3 h4, State.sfld]

@[simp] theorem quiet_servoEnter (s : State) (st : Nat) : (s.servoEnter st).quiet = s.quiet := by
  simp (disch := decide) [State.servoEnter, State.freqToInt, State.setFreqAdj, State.pendBits, State.cancelStep, quiet_setFld,
    quiet_setBit, quiet_setSfld]

/-- The servo is in the state it has entered. -/
theorem servoEnter_servoSt (s : State) (st : Nat) (h : st < 8) : (s.servoEnter st).servoSt = st := by
  have hm : st % 8 = st := by omega
  by_cases hh : s.servoSt = st
  · rw [State.servoSt] at *
    simp (disch := decide) [State.servoEnter, State.freqToInt, State.setFreqAdj, State.pendBits, State.cancelStep, State.servoSt, hh,
      fld_setBit_other, fld_setSfld_other]
  · simp (disch := decide) [State.servoEnter, State.freqToInt, State.setFreqAdj, State.pendBits, State.cancelStep, State.servoSt, hm,
      fld_setFld_same, rimEvent_fld]
    exact fun h' => absurd h' hh

/-- Outside PENDING no pending bit is set (R60). -/
theorem servoEnter_pendBits (s : State) (st : Nat) (h : st ≠ svPending) :
    (s.servoEnter st).bit F.TIME.TIME_STATE.BACK_PENDING = false ∧ (s.servoEnter st).bit F.TIME.TIME_STATE.FWD_PENDING = false := by
  constructor <;>
  simp (disch := decide) [State.servoEnter, State.freqToInt, State.setFreqAdj, State.pendBits, State.cancelStep, h, bit_setBit_same,
      bit_setBit_other, bit_setFld_other, rimEvent_bit]

/-- STOPPED cancels a scheduled step, and no other state does (R61). -/
theorem servoEnter_stepSched (s : State) (st : Nat) (h : st ≠ svStopped) : (s.servoEnter st).stepSched = s.stepSched := by
  simp (disch := decide) [State.servoEnter, State.freqToInt, State.setFreqAdj, State.pendBits, State.stepSched, h,
      bit_setBit_other, bit_setFld_other, bit_setSfld_other, rimEvent_bit]

theorem servoEnter_timeSet (s : State) (st : Nat) : (s.servoEnter st).timeSet = s.timeSet := by
  simp (disch := decide) [State.servoEnter, State.freqToInt, State.setFreqAdj, State.pendBits, State.cancelStep, State.timeSet,
      bit_setBit_other, bit_setFld_other, bit_setSfld_other, rimEvent_bit]

/-- A limited phase term (R57) is the slew limit against the offset, draws no free value, and leaves FREQ_INT as it is. -/
theorem phaseTerm_limited (s : State) (e : Int) (h : s.phaseLimited e = true) :
    s.phaseTerm e
      = ((if gainNum (s.fld F.TIME.SERVO_GAIN.KP) e < 0 then - ppmUnits s.slewPpm else ppmUnits s.slewPpm), s) := by
  simp [State.phaseTerm, h]

theorem integrate_limited (s : State) (e : Int) (h : s.phaseLimited e = true) : s.integrate e = s := by
  simp [State.integrate, h]

theorem integrate_first (s : State) (e : Int) (h : s.offsetFirst = true) : s.integrate e = s := by
  simp [State.integrate, h]

end Sys2Proof.Laws
end

