-- ==== Sys2Proof/WellFormed.lean ====
section
/-!
DEFINITION. When a command is well formed: its operands lie in the ranges that the spec gives the fields they stand for. The
types of `Instr` already bound every instance number and register value; what is left are times, list lengths and messages.
-/

namespace Sys2Proof

/-- Seconds have 48 bits and nanoseconds stay below 10^9 (R49). -/
def HubTime.ok (t : HubTime) : Bool := decide (t.sec < 2 ^ 48) && decide (t.ns < 1000000000)

/-- A stamp has an even nanoseconds count and a FRAC of 0 to 15 (R77, R175). -/
def Stamp.ok (t : Stamp) : Bool :=
  decide (t.sec < 2 ^ 48) && decide (t.ns < 1000000000) && decide (t.ns % 2 = 0) && decide (t.frac ≤ 15)

/-- A clockIdentity has 64 bits and a portNumber 16 (R69, R81). -/
def PortId.ok (p : PortId) : Bool := decide (p.clock < 2 ^ 64) && decide (p.port < 2 ^ 16)

def SyncMsg.ok (m : SyncMsg) : Bool :=
  decide (m.domain < 256) && m.src.ok && decide (m.seq < 2 ^ 16) && decide (-128 ≤ m.logInterval) && decide (m.logInterval ≤ 127)
    && m.origin.ok && m.rx.ok

def FollowUpMsg.ok (m : FollowUpMsg) : Bool :=
  decide (m.domain < 256) && m.src.ok && decide (m.seq < 2 ^ 16) && m.origin.ok

def AnnounceMsg.ok (m : AnnounceMsg) : Bool :=
  decide (m.domain < 256) && m.src.ok && decide (-128 ≤ m.logInterval) && decide (m.logInterval ≤ 127) && decide (m.utcOffset < 2 ^ 16)

def PdelayRespMsg.ok (m : PdelayRespMsg) : Bool := decide (m.seq < 2 ^ 16) && m.rx.ok

def PdelayReqMsg.ok (m : PdelayReqMsg) : Bool := m.src.ok && decide (m.seq < 2 ^ 16) && m.rx.ok && m.tx.ok

/-- A Pdelay message on the line: a 64-bit correction field, and the fields of a Pdelay_Resp in range (R73). -/
def PdelayMsg.ok (m : PdelayMsg) : Bool :=
  m.src.ok && decide (m.seq < 2 ^ 16) && decide (-(2 ^ 63) ≤ m.corr) && decide (m.corr < 2 ^ 63)
    && (match m.receipt with | some t => t.ok | none => true) && (match m.requester with | some p => p.ok | none => true)

def PtpMsg.ok : PtpMsg → Bool
  | .sync m => m.ok
  | .followUp m => m.ok
  | .announce m => m.ok
  | .pdelay m => m.ok
  | .other => true

/-- The fields of the hub header fit their widths (R349). -/
def HubHdr.ok (h : HubHdr) : Bool :=
  decide (h.stream < 64) && decide (h.ftype < 8) && decide (h.wcount < 512) && decide (h.hubId < 2 ^ 16)
    && decide (h.seq < 2 ^ 32) && decide (h.tickLo < 2 ^ 32) && decide (h.ns32 < 2 ^ 32) && decide (h.lost16 < 2 ^ 16)

def Body.ok : Body → Bool
  | .hub e h ws => decide (e < 2 ^ 16) && h.ok && decide (ws.length ≤ 288)
  | .ptp m => m.ok
  | .pause => true
  | .foreign => true

/-- An HSR tag: a path identifier of 4 bits, an LSDU size of 12 and a sequence number of 16 (R348). -/
def HsrTag.ok (t : HsrTag) : Bool := decide (t.path < 2 ^ 4) && decide (t.size < 2 ^ 12) && decide (t.seq < 2 ^ 16)

/-- Addresses have 48 bits, a PCP has 3, and an HSR tag is in range (R339, R348). -/
def Frame.ok (f : Frame) : Bool :=
  decide (f.dst < 2 ^ 48) && decide (f.src < 2 ^ 48)
    && (match f.prio with | some q => decide (q < 8) | none => true)
    && (match f.hsr with | some t => t.ok | none => true) && f.body.ok

def Decision.ok : Decision → Bool
  | .trigger _ recNo t idx src srcId late =>
    decide (recNo < 2 ^ 32) && t.ok && decide (idx < 2 ^ 64) && decide (src < 16) && decide (srcId < 2 ^ 16)
      && decide (late.length ≤ 64)
  | .sleep idx => decide (idx < 2 ^ 64)
  | .wake t => t.ok
  | .arm _ _ | .rearm _ | .abort _ | .release _ | .flush _ | .dumpNow _ _ | .qreset _ _ | .timeCmd _ => true

/-- A queue of a TICK record: an interrupt packet in its fates fits a packet of its queue, and the last SEQ has 32 bits (R383,
R389). -/
def TickQueue.ok (t : TickQueue) : Bool :=
  decide (t.lastSeq < 2 ^ 32) && t.fates.all fun x => match x.irqWords with
    | some ws => decide (ws.length ≤ 288)
    | none => true

/-- A TICK record: one entry for a queue, and an HSR sequence number of 16 bits (R383). -/
def TickRec.ok (r : TickRec) : Bool := decide (r.queues.length ≤ 64) && decide (r.hsr < 2 ^ 16) && r.queues.all TickQueue.ok

/-- A HEALTH record: the role and the calibration state have 3 bits (R411, R214), a page number has 12 bits and a time 32 (R383). -/
def HealthRec.ok (h : HealthRec) : Bool :=
  decide (h.role < 8) && decide (h.calState < 8) && decide (h.ownId < 2 ^ 16) && decide (h.hcFail.length ≤ 512)
    && h.due.all fun d => decide (d.page < 4096) && decide (d.ns32 < 2 ^ 32)

/-- A command is well formed. Register values, instance numbers and flags are bounded by their types; a pass has at most 65,536
conversions (R152, R154), and one that completes does so within 600 ns (R150). -/
def Instr.wf : Instr → Bool
  | .registerWrite _ _ _ | .secondBoundary | .hostOffsetSubmit _ | .srcChange _ | .freqIntWrite _ | .applyStep
  | .slewAccept | .servoRestart | .stepApplied | .holdoverEntry | .holdoverExpired | .pllUnlock | .refclkLoss => true
  | .syncRx _ m => m.ok
  | .followUpRx _ m => m.ok
  | .followUpTimeout => true
  | .announceRx _ m => m.ok
  | .masterSilence | .masterLost | .portSwitch | .pdelayReqSend _ _ => true
  | .pdelayRespRx _ m => m.ok
  | .pdelayFail _ => true
  | .pdelayReqRx _ m => m.ok
  | .tcEntryExpire _ | .ppsOutPulse => true
  | .ppsInEdge _ t => t.ok
  | .nowNsRead _ | .nowSecHiRead _ | .ppsInNsRead _ | .ppsInSecHiRead _ | .lastOffsetLoRead _
  | .pendingOffsetLoRead _ | .gridInstant _ | .tickCommitApply | .tickEnWrite _ | .tjMeasure _ | .wsyncAlign _
  | .qreset _ _ | .overloadChange _ _ | .excRegulate _ _ _ | .excLow _ | .exdMon _ | .blankEdge _ _
  | .blankGuardExpire _ | .blankCtlWrite _ _ | .weaveDelay _ => true
  | .conversionComplete _ r => decide (r.ns ≤ 600)
  | .convTimeout _ | .passEnd _ | .weaveWrite _ _ _ _ | .sliceCommitApply _ | .resLoRead _ _ | .resHiRead _ _ => true
  | .sentinelCrossing _ _ t => t.ok
  | .sentAdcComplete _ | .sentAdcTimeout | .sentCfgWrite _ _ | .evtNs32Read _ _ | .evtValueRead _ _ | .calPhaseEnd
  | .calDecide | .dwellAbandon | .rotationEnd | .selftestComplete _ _ | .sliceSwapApply _ | .calSaveDone _ | .saveNow
  | .reinit _ | .rotRestart | .calEnWrite _ | .calCommitApply | .streamMaxAge _ | .maxAgeWrite _
  | .rainPeriodicDump _ | .dumpNow _ _ | .rainCommitApply _ | .tapsWrite _ _ | .coefWrite _ _ _ _
  | .firsetCommitApply _ | .chtabCommitApply _ | .arm _ | .abort _ | .release _ | .swTrig _ | .ctxFillStart _
  | .triggerDecision _ | .timerTrigger _ | .holdoffExpire _ | .readoutStart | .readoutPacket _ | .scrubBurst
  | .rtxSend _ | .pendingMarkerWrite _ | .qCommitApply _ | .flush _ | .flushEffect _ | .dataLoRead _ _
  | .dataHiRead _ _ | .arbMemGrant _ | .arbTxGrant | .freeze _ _ | .classWrite _ _ _ => true
  | .starve a i _ => decide (a = .tx) || decide (i.val < 8)
  | .portModeWrite _ _ | .losChange _ _ | .portSyncChange _ _ _ _ _ | .portUp _ | .nodeModeWrite _ => true
  | .frameRx _ f _ _ => f.ok
  | .localFrameSend _ | .ddForget | .mgmtRequest | .keyStore _ | .keyStoreDone _ | .measCmd _ | .measAttempt _
  | .waleEcho _ | .lineMeasDone => true
  | .walePulseRx _ t _ => t.ok
  | .wclkLoss _ | .wsyncLost | .pairEnWrite _ | .yield | .rejoin | .forceActive | .pairCommit | .hcRestart => true
  | .codesRecordRx _ idx n codes => decide (idx < 2 ^ 64) && decide (n < 2 ^ 64) && decide (codes.length ≤ 65536)
  | .decisionRecordRx d => d.ok
  | .intervalClose => true
  | .tickRecordRx r => r.ok
  | .ackRx _ _ | .timeRecordRx _ _ => true
  | .stepRecordRx b _ => decide (b < 2 ^ 48)
  | .healthRecordRx h => h.ok
  | .configRecordRx _ _ _ | .factorsRecordRx _ _ _ _ _ => true
  | .mgmtRecordRx f _ => f.ok
  | .yieldRecordRx seqs hsr => decide (seqs.length = 64) && seqs.all (fun q => decide (q < 2 ^ 32)) && decide (hsr < 2 ^ 16)
  | .pairLinkRetry _ | .pairLinkDown | .pairLinkUp | .laneLoss _ | .startWaitExpire | .pairPresentChange _
  | .timeoutTakeover | .yieldNAssert _ | .yieldRecordTimeout | .yieldAbandon | .takeNAssert | .takeoverExdEnable
  | .ackTimeout | .rejoinAutoExpire | .standbyDacTrim _ _ | .pairCommitApply | .pairCommitAckTimeout
  | .fltStsWrite _ _ | .fltFirstRearm _ | .fltCaptureClose _ | .intStsWrite _ _ | .irqHoldoffExpire _
  | .testKeyWrite _ | .fltInjWrite _ _ | .rimCopyDone _ | .unfreeze | .rimSave | .rimClear | .rdSelWrite _
  | .rimSnapshotReady | .hostNote _ | .pfwAssert | .supplyRange _ | .fabricWdog _ | .commit _ | .commitAtTick _
  | .cancel _ | .scheduledCommitRelease _ | .wloRead _ _ _ | .whiRead _ _ | .lastIdxLoRead _ | .schedIdxLoRead _
  | .takeoverIdxLoRead _ | .read _ _ | .qread _ _ | .qreadPair _ _ | .write _ _ | .qwrite _ _ | .status _ | .badOp
  | .qspiTransactionEnd _ | .fabricRateMeasure _ | .fabricSlow | .reset | .resetRelease _ _ _ _
  | .bootRestart _ _ _ _ | .slathSave | .slathSaveDone _ | .sleep | .wake | .sleepEntered | .wakeAt | .wakeSettled
  | .healthLossWake | .sentinelArm _ | .pllRelock | .pfwDeassert | .takeNRelease | .excSenseRestored _
  | .supplyRestored _ | .wclkRestored | .jtagInstruction _ => true

end Sys2Proof
end

