-- ==== Sys2Proof/Tests/Slice0.lean ====
section
/-!
SUPPORT. Tests: one term per check of WellFormed.lean that the check refuses; computations whose results the spec or a standard that it
names gives; one command on a small state each; and the witnesses that the premises of the statements are met.
-/

set_option autoImplicit false
set_option linter.unusedVariables false
set_option maxRecDepth 20000
set_option Elab.async false

open Sys2Proof Sys2Proof.Machine

namespace Sys2Proof.Tests

/-! ## Ill-formed commands are refused -/

def port : PortId := ⟨1, 2⟩
def t0 : HubTime := ⟨1, 2⟩
def sync : SyncMsg := { domain := 0, src := port, seq := 1, logInterval := 0, twoStep := true, origin := t0, corr := 0, rx := t0, stampOk := true }
def fup : FollowUpMsg := { domain := 0, src := port, seq := 1, origin := t0, corr := 0 }
def ann : AnnounceMsg := { domain := 0, src := port, logInterval := 0, utcOffset := 37, utcValid := true, leap61 := false, leap59 := false }
def presp : PdelayRespMsg := { seq := 1, turnaround := 0, rx := t0, stampOk := true }
def preq : PdelayReqMsg := { src := port, seq := 1, rx := t0, tx := t0, stampOk := true }
def hdr : HubHdr := { stream := 1, pair := false, ctrl := false, ftype := 0, wcount := 2, hubId := 3, seq := 4, tickLo := 5, ns32 := 6, lost16 := 7 }
def frame (b : Body) : Frame := { dst := 1, src := 2, hsr := some ⟨0, 86, 3⟩, body := b, bytes := 100, fcsOk := true }
def tick : TickRec := { interval := 1, digest := 0, final := false, queues := [], hsr := 5 }
def health : HealthRec :=
  { role := 1, strap := true, fatal := false, cont := false, pfw := false, calState := 2, ownId := 9, hcFail := [], due := [] }
def conv : ConvIn := { raw := 0, ns := 500, cmFail := false, excFail := false, duty := none, idle := none }

theorem test_wf_accepts : ([.syncRx .a sync, .followUpRx .a fup, .announceRx .b ann, .pdelayRespRx .a presp, .pdelayReqRx .b preq,
    .ppsInEdge true ⟨1, 2, 15⟩, .frameRx .a (frame (.hub 1 hdr [])) true true, .tickRecordRx tick, .healthRecordRx health,
    .conversionComplete 0 conv, .starve .tx 65 5, .yieldRecordRx (List.replicate 64 0) 1] : List Instr).all Instr.wf = true := by decide

theorem test_wf_hubTime_sec : (Instr.syncRx .a { sync with rx := ⟨2 ^ 48, 0⟩ }).wf = false := by decide
theorem test_wf_hubTime_ns : (Instr.followUpRx .a { fup with origin := ⟨0, 1000000000⟩ }).wf = false := by decide
theorem test_wf_stamp_sec : (Instr.ppsInEdge true ⟨2 ^ 48, 0, 0⟩).wf = false := by decide
theorem test_wf_stamp_ns : (Instr.sentinelCrossing 0 true ⟨0, 1000000000, 0⟩).wf = false := by decide
theorem test_wf_stamp_odd : (Instr.ppsInEdge true ⟨0, 3, 0⟩).wf = false := by decide
theorem test_wf_stamp_frac : (Instr.walePulseRx 0 ⟨0, 2, 16⟩ .short).wf = false := by decide
theorem test_wf_portId_clock : (Instr.announceRx .a { ann with src := ⟨2 ^ 64, 0⟩ }).wf = false := by decide
theorem test_wf_portId_port : (Instr.announceRx .a { ann with src := ⟨0, 2 ^ 16⟩ }).wf = false := by decide
theorem test_wf_sync_domain : (Instr.syncRx .a { sync with domain := 256 }).wf = false := by decide
theorem test_wf_sync_seq : (Instr.syncRx .a { sync with seq := 2 ^ 16 }).wf = false := by decide
theorem test_wf_sync_interval : (Instr.syncRx .a { sync with logInterval := 128 }).wf = false := by decide
theorem test_wf_announce_interval : (Instr.announceRx .a { ann with logInterval := -129 }).wf = false := by decide
theorem test_wf_followUp_domain : (Instr.followUpRx .a { fup with domain := 256 }).wf = false := by decide
theorem test_wf_followUp_seq : (Instr.followUpRx .a { fup with seq := 2 ^ 16 }).wf = false := by decide
theorem test_wf_announce_utc : (Instr.announceRx .a { ann with utcOffset := 2 ^ 16 }).wf = false := by decide
theorem test_wf_announce_domain : (Instr.announceRx .a { ann with domain := 256 }).wf = false := by decide
theorem test_wf_pdelayResp_seq : (Instr.pdelayRespRx .a { presp with seq := 2 ^ 16 }).wf = false := by decide
theorem test_wf_pdelayReq_seq : (Instr.pdelayReqRx .a { preq with seq := 2 ^ 16 }).wf = false := by decide
theorem test_wf_pdelayReq_tx : (Instr.pdelayReqRx .a { preq with tx := ⟨0, 1000000000⟩ }).wf = false := by decide
theorem test_wf_conversion_time : (Instr.conversionComplete 0 { conv with ns := 601 }).wf = false := by decide
theorem test_wf_starve_requester : (Instr.starve .mem 8 5).wf = false := by decide
theorem test_wf_header_fields : ([{ hdr with stream := 64 }, { hdr with ftype := 8 }, { hdr with wcount := 512 }, { hdr with hubId := 2 ^ 16 },
    { hdr with seq := 2 ^ 32 }, { hdr with tickLo := 2 ^ 32 }, { hdr with ns32 := 2 ^ 32 }, { hdr with lost16 := 2 ^ 16 }] : List HubHdr).any
      (fun h => (Instr.frameRx .a (frame (.hub 1 h [])) true true).wf) = false := by decide
theorem test_wf_body_etherType : (Instr.frameRx .a (frame (.hub (2 ^ 16) hdr [])) true true).wf = false := by decide
theorem test_wf_body_words : (Instr.frameRx .a (frame (.hub 1 hdr (List.replicate 289 0))) true true).wf = false := by decide +kernel
theorem test_wf_body_ptp : (Instr.frameRx .a (frame (.ptp (.sync { sync with seq := 2 ^ 16 }))) true true).wf = false := by decide
theorem test_wf_frame_fields : ([{ frame .pause with dst := 2 ^ 48 }, { frame .pause with src := 2 ^ 48 },
    { frame .pause with hsr := some ⟨0, 86, 2 ^ 16⟩ }, { frame .pause with hsr := some ⟨16, 86, 3⟩ },
    { frame .pause with hsr := some ⟨0, 4096, 3⟩ }, { frame .pause with prio := some 8 },
    frame (.ptp (.pdelay ⟨true, port, 2 ^ 16, 0, none, none⟩)), frame (.ptp (.pdelay ⟨true, port, 1, 2 ^ 63, none, none⟩)),
    frame (.ptp (.pdelay ⟨true, port, 1, 0, some ⟨0, 1000000000⟩, none⟩)), frame (.ptp (.pdelay ⟨true, port, 1, 0, none, some ⟨2 ^ 64, 0⟩⟩))] : List Frame).any (fun f => (Instr.mgmtRecordRx f false).wf) = false := by decide
theorem test_wf_decision_fields : ([.trigger 0 (2 ^ 32) ⟨0, 0, 0⟩ 0 0 0 [], .trigger 0 0 ⟨0, 1, 0⟩ 0 0 0 [], .trigger 0 0 ⟨0, 0, 0⟩ (2 ^ 64) 0 0 [],
    .trigger 0 0 ⟨0, 0, 0⟩ 0 16 0 [], .trigger 0 0 ⟨0, 0, 0⟩ 0 0 (2 ^ 16) [], .trigger 0 0 ⟨0, 0, 0⟩ 0 0 0 (List.replicate 65 0),
    .sleep (2 ^ 64), .wake ⟨2 ^ 48, 0⟩] : List Decision).any (fun d => (Instr.decisionRecordRx d).wf) = false := by decide +kernel
theorem test_wf_tick_fields : ([{ tick with hsr := 2 ^ 16 }, { tick with queues := [⟨0, [], 0, 2 ^ 32⟩] },
    { tick with queues := [⟨0, [.take (some (List.replicate 289 0))], 0, 0⟩] },
    { tick with queues := List.replicate 65 ⟨0, [], 0, 0⟩ }] : List TickRec).any (fun r => (Instr.tickRecordRx r).wf) = false := by
  decide +kernel
theorem test_wf_health_fields : ([{ health with role := 8 }, { health with calState := 8 }, { health with ownId := 2 ^ 16 },
    { health with hcFail := List.replicate 513 0 }, { health with due := [⟨4096, 0, 0, 0, 0⟩] },
    { health with due := [⟨0, 0, 0, 0, 2 ^ 32⟩] }] : List HealthRec).any (fun r => (Instr.healthRecordRx r).wf) = false := by decide +kernel
theorem test_wf_codes_fields : ([.codesRecordRx 0 (2 ^ 64) 0 [], .codesRecordRx 0 0 (2 ^ 64) [], .stepRecordRx (2 ^ 48) 0] : List Instr).any
    Instr.wf = false := by decide
theorem test_wf_yield_fields : ([.yieldRecordRx [] 0, .yieldRecordRx (List.replicate 64 (2 ^ 32)) 0, .yieldRecordRx (List.replicate 64 0) (2 ^ 16)] :
    List Instr).any Instr.wf = false := by decide

/-- No row of the table has bits, so no word spells a command. -/
theorem test_decode_none : decodeTableWord 32 0x00010001 = none := rfl

/-! ## What the spec computes -/

/-- An odd number of ns is rounded toward minus infinity (chapter 2, before R49). -/
theorem test_even_ns : (evenNs 3, evenNs (-3)) = (2, -4) := by decide
/-- The worked example at R54: NS32 ten seconds after reset. -/
theorem test_ns32_example : ns32Of 10000000000 = 1410065408 := by decide
/-- R87: k = 5 at 1,000,000 ns is the same instant as k = 625 at 8,000 ns. -/
theorem test_shared_grid_instants : (State.reset.setFld F.TICK.TICK_PERIOD.PERIOD 1000000).gridTu 5
    = (State.reset.setFld F.TICK.TICK_PERIOD.PERIOD 8000).gridTu 625 := by decide +kernel
/-- The worked example at R108: the tick k = 124,999 of second S + 2, and k = 0 of S + 3. -/
theorem test_tick_index_example : (idxOf 8000 (1802000002 * 125000 + 124999), idxOf 8000 (1802000003 * 125000))
    = (236191744387143, 236191744393216) := by decide
/-- The worked example before R30: entry 13 of CHTAB_01. -/
theorem test_chtab_address : (F.CH.FE_CFG.MODE 29).addr = 0x000816C0 := by decide
/-- The example at R163: 1,234,567 and 1,234,570, and −3 and −4, with SHIFT 1. -/
theorem test_averager_value : (averagerValue 2469137 true 1, averagerValue 2469137 false 1, averagerValue (-7) true 1, averagerValue (-7) false 1)
    = ((1234569, false), (1234568, false), (-3, false), (-4, false)) := by decide
/-- The example at R172: the value 1,234,569 at k = 250 in RES_LO and RES_HI. -/
theorem test_result_example : (wordLo (packWord ⟨1234569, {}⟩), resHiOf { res := some (⟨1234569, {}⟩, 250), freshQ := true } .qspi)
    = (0x0012D689#32, 0x0001FA80) := by decide
/-- The worked example before R457: slot s of member 10 of CTX_004 is capture word 550,048 + s. -/
theorem test_capture_word_example : ((State.reset.setFld (F.CTX.REGION.BASE 4) 512).setFld (F.CTX.CTX_STS.C 4) 2576).cxAddr 4 10 0 = 550048 := by
  decide +kernel
/-- CRC-32C (R515): the published check value of the ASCII digits 1 to 9. -/
theorem test_crc32c_check : crc32c [0x31, 0x32, 0x33, 0x34, 0x35, 0x36, 0x37, 0x38, 0x39] = 0xE3069283#32 := by decide +kernel
/-- AES-CMAC (R356): the standard's example without a message and with one of 16 bytes. -/
theorem test_cmac_empty : bytesNat (cmac (bytesBE 16 0x2b7e151628aed2a6abf7158809cf4f3c) []) = 0xbb1d6929e95937287fa37d129b756746 := by
  decide +kernel
theorem test_cmac_block : bytesNat (cmac (bytesBE 16 0x2b7e151628aed2a6abf7158809cf4f3c) (bytesBE 16 0x6bc1bee22e409f96e93d7e117393172a))
    = 0x070a16b46b4d4144f79bdd9dd04a287c := by decide +kernel

/-! ## One command on a small state -/

/-- The state after a command. -/
def after (c : Instr) (s : State) : State :=
  match exec c s with
  | .next t => t
  | _ => s

/-- R78: hub time reads 0 right after reset. -/
theorem test_now_at_reset : (after (.nowNsRead .qspi) State.reset).rdata = [0#32] := by decide +kernel
/-- R79: FREQ_INT is clamped to ±2,147,484. -/
theorem test_freq_int_clamped : ((after (.freqIntWrite 0x7FFFFFFF#32) {}).reg 0x001084, (after (.freqIntWrite 0x80000000#32) {}).reg 0x001084)
    = (2147484#32, BitVec.ofInt 32 (-2147484)) := by decide +kernel
/-- R103: EN takes the grid to RUN (1). -/
theorem test_tick_enable : (after (.tickEnWrite 1#32) {}).gridSt = gridRun := by decide +kernel
/-- R72: t4 − t1 = 400 ns and a turnaround of 200 ns give 100 ns, which is 1,600 in 1/16 ns. -/
theorem test_pdelay_value : (after (.pdelayRespRx .a { seq := 7, turnaround := 200 * 65536, rx := ⟨0, 1400⟩, stampOk := true })
    { ptp := { pdA := { seq := 7, t1 := some ⟨0, 1000⟩ } } }).reg 0x002060 = 1600#32 := by decide +kernel
/-- R117: a firing overload detector shows in FE_STS [9] of its channel. -/
theorem test_overload_shows : ((after (.overloadChange 29 true) {}).reg (0x000816C0 + 0x18)).getLsbD 9 = true := by decide +kernel
/-- R121: the DAC code moves by at most 8. -/
theorem test_excitation_step : (after (.excRegulate 1 100#16 200)
    (((State.reset.setBit (F.FE.EXC_CTL.REG 1) true).setFld (F.FE.EXC_DAC.CODE 1) 100).setFld F.NVM.PWR_STS.STATE 1)).fld (F.FE.EXC_DAC.CODE 1)
      = 108 := by decide +kernel
/-- R158: an entry of the inactive bank is written; its reserved bits [6:0] stay 0. -/
theorem test_weave_write : (after (.weaveWrite 2 true 3 0xFFFFFFFF#32) {}).reg (weaveAddr 2 true 3) = 0xFFFFFF80#32 := by decide +kernel
/-- R240: MAX_AGE is written at once. -/
theorem test_max_age : (after (.maxAgeWrite 0xABCD1234#32) {}).fld F.RED.STREAM_CTL.MAX_AGE = 0x1234 := by decide +kernel
/-- R231: bank 0 is active after reset, so TAPS1 takes its value and TAPS0 stays. -/
theorem test_taps : (fun t : State => (t.fld (F.FIRSET.TAPS.TAPS0 3), t.fld (F.FIRSET.TAPS.TAPS1 3))) (after (.tapsWrite 3 0x00200010#32) {})
    = (State.reset.fld (F.FIRSET.TAPS.TAPS0 3), 0x20) := by decide +kernel
/-- R270: a software trigger to an idle context is ignored. -/
theorem test_sw_trigger_idle : (after (.swTrig 5) {}).getCtx 5 = {} := by decide +kernel
/-- R315: the host reads the low 32 bits of the word at RP, and then its high 8 bits. -/
theorem test_queue_read : (fun t : State => (t.rdata, (after (.dataHiRead .qspi 3) t).rdata))
    (after (.dataLoRead .qspi 3) ((((State.reset.setBit (F.Q.Q_CFG.EN 3) true).setBit (F.Q.Q_CFG.DRAIN 3) true).modQ 3
      fun x => { x with pkts := [⟨1, 4, 0, 0, none, false⟩], wp := 1, wp2 := 1 }).setQWord (State.reset.qAddr 3 0) 0xC012345678#40))
      = ([0x12345678#32], [0xC0#32]) := by decide +kernel
/-- R323: the class word of ARB_TX takes its value. -/
theorem test_class_write : (after (.classWrite .tx 2 0x5A5A5A5A#32) {}).reg 0x00C108 = 0x5A5A5A5A#32 := by decide +kernel
/-- R336: MODE 0 is OFF, another mode starts from DOWN. -/
theorem test_port_mode : ((after (.portModeWrite .a 0#32) {}).portState .a, (after (.portModeWrite .b 2#32) {}).portState .b) = (portOff, portDown) := by
  decide +kernel
/-- R360: STORE with no store in progress empties the slot. -/
theorem test_key_store : (after (.keyStore true) { mram := { key1 := some 5 } }).mram.key1 = none := by decide +kernel
/-- R401: YIELD on a SOLO hub has no effect. -/
theorem test_yield_solo : (after .yield {}).pair = {} := by decide +kernel
/-- R415: writing 1 clears a CONT bit of FLT_STS, and other bits stay. -/
theorem test_fault_clear : (after (.fltStsWrite 0x005#12 2#32) (State.reset.setReg 0x00501C 0x6#32)).reg 0x00501C = 4#32 := by decide +kernel
/-- R421: writing 1 clears a bit of INT_STS. -/
theorem test_int_clear : (after (.intStsWrite 0x001#12 1#32) (State.reset.setReg 0x001010 0x3#32)).reg 0x001010 = 2#32 := by decide +kernel
/-- R17: a write of an RWS field changes its staged value and not its running value. -/
theorem test_staged_write : (fun t : State => (t.stg 0x003044, t.reg 0x003044)) (after (.registerWrite .qspi 0x003044#24 16000#32) {})
    = (16000#32, State.reset.reg 0x003044) := by decide +kernel
/-- R466: while RESET_N is low no command but those of reset has an effect. -/
theorem test_held_in_reset : after (.tickEnWrite 1#32) (after .reset {}) = after .reset {} := by decide +kernel
/-- A step takes the command at the front of the queue and leaves the rest. -/
theorem test_step_queue : (match step { pending := [.maxAgeWrite 7#32, .sleep] } with | .next t => t.pending | _ => []) = [.sleep] := by
  decide +kernel

/-- A word differs from the next one. -/
theorem regNext (x : Reg) : x ≠ x + 1 := by
  intro h
  have h := congrArg BitVec.toNat h
  rw [BitVec.toNat_add] at h
  have := x.isLt
  simp at h
  omega

end Sys2Proof.Tests

open Sys2Proof.Tests

/-! ## The premises of the statements are met -/

/-- A hub with a key in slot 0. -/
def keyed : State := { mram := { ({} : State).mram with key0 := some 7 } }

/-- The tag of a request that no layout allows verifies (R356). -/
theorem test_tag_bad :
    keyed.reqVerified ⟨0, false, true, 6, 7, 5, 3, 0, 0, 0⟩ [549772591104#40, 552977080460#40, 549755813888#40, 1051414768402#40, 743494243511#40, 113844362282#40, 541165879296#40] = true := by
  decide +kernel

/-- The tag of a request to read verifies (R356). -/
theorem test_tag_read :
    keyed.reqVerified ⟨0, false, true, 6, 7, 5, 3, 0, 0, 0⟩ [549772591104#40, 549755854988#40, 549755813888#40, 936016604511#40, 819520033720#40, 890650626718#40, 347892350976#40] = true := by
  decide +kernel

/-- The tag of a request to write verifies (R356). -/
theorem test_tag_set :
    keyed.reqVerified ⟨0, false, true, 6, 7, 5, 3, 0, 0, 0⟩ [549772591104#40, 550829596812#40, 553491742447#40, 35184649786#40, 270736515289#40, 185214474580#40, 352187318272#40] = true := by
  decide +kernel

/-- The premises of `Obligations.TimeReadsAnswerAndLatch` are met, clause by clause. -/
theorem test_met_TimeReadsAnswerAndLatch :
    (∃ (p : Path) (s : State), s.quiet = true)
    ∧ (∃ (p : Path) (s : State) (lo : Nat) (hi : Nat), s.quiet = true ∧ (s.latches p).now = some (lo, hi))
    ∧ (∃ (p : Path) (s : State), s.quiet = true ∧ (s.latches p).now = none)
    ∧ (∃ (p : Path) (s : State), s.quiet = true)
    ∧ (∃ (p : Path) (s : State) (lo : Nat) (hi : Nat), s.quiet = true ∧ (s.latches p).pps = some (lo, hi))
    ∧ (∃ (p : Path) (s : State), s.quiet = true ∧ (s.latches p).pps = none)
    ∧ (∃ (p : Path) (s : State), s.quiet = true)
    ∧ (∃ (p : Path) (s : State), s.quiet = true) := by
  refine ⟨?_, ?_, ?_, ?_, ?_, ?_, ?_, ?_⟩
  · exact ⟨.qspi, (let b : State := {}; let b : State := { b with time := b.time }; b), by decide +kernel⟩
  · exact ⟨.qspi, (let b : State := {}; let p : Path := .qspi; let b : State := { b with time := b.time }; b.modLatches p (fun l => { l with now := some (5+0,7) })), 5+0, 7, by decide +kernel⟩
  · exact ⟨.qspi, (let b : State := {}; let b : State := { b with time := b.time }; b), by decide +kernel⟩
  · exact ⟨.qspi, (let b : State := {}; let b : State := { b with time := b.time }; b), by decide +kernel⟩
  · exact ⟨.qspi, (let b : State := {}; let p : Path := .qspi; let b : State := { b with time := b.time }; b.modLatches p (fun l => { l with pps := some (5+0,7) })), 5+0, 7, by decide +kernel⟩
  · exact ⟨.qspi, (let b : State := {}; let b : State := { b with time := b.time }; b), by decide +kernel⟩
  · exact ⟨.qspi, (let b : State := {}; let b : State := { b with time := b.time }; b), by decide +kernel⟩
  · exact ⟨.qspi, (let b : State := {}; let b : State := { b with time := b.time }; b), by decide +kernel⟩

/-- The premises of `Obligations.ServoTakesHostOffsetsAndSources` are met, clause by clause. -/
theorem test_met_ServoTakesHostOffsetsAndSources :
    (∃ (s : State) (v : Reg), s.quiet = true ∧ s.follows = false ∧ s.bit (F.HDR.INT_ROUTE.INBAND pgTIME) = false
      ∧ s.bit (F.HDR.INT_ROUTE.INBAND pgTICK) = false ∧ s.timeSrc = 2 ∧ s.stepSched = false
      ∧ (s.servoSt = svHoldover ∨ (s.servoSt ≤ svLocked ∧ s.servo.prev = none))
      ∧ (signed 64 (s.fld F.TIME.OFFSET_LO.OFS_LO + 2 ^ 32 * v.toNat)).natAbs ≤ s.stepThresh ∧ (s.sfld F.TIME.FREQ_INT.INT).natAbs ≤ 2147484
      ∧ s.fld F.TIME.SERVO_GAIN.KP * (signed 64 (s.fld F.TIME.OFFSET_LO.OFS_LO + 2 ^ 32 * v.toNat)).natAbs * 2 ^ 16 * 1000000 ≤ s.slewPpm * 2 ^ 32 * (nsPerSec))
    ∧ (∃ (s : State) (v : Reg) (p : Nat), s.quiet = true ∧ s.follows = false ∧ s.bit (F.HDR.INT_ROUTE.INBAND pgTIME) = false
      ∧ s.bit (F.HDR.INT_ROUTE.INBAND pgTICK) = false ∧ s.timeSrc = 2 ∧ s.stepSched = false ∧ (s.servoSt = svLocking ∨ s.servoSt = svLocked)
      ∧ s.servo.prev = some p ∧ p < s.nowNs ∧ (signed 64 (s.fld F.TIME.OFFSET_LO.OFS_LO + 2 ^ 32 * v.toNat)).natAbs ≤ s.stepThresh
      ∧ (s.sfld F.TIME.FREQ_INT.INT).natAbs ≤ 2147484
      ∧ s.fld F.TIME.SERVO_GAIN.KP * (signed 64 (s.fld F.TIME.OFFSET_LO.OFS_LO + 2 ^ 32 * v.toNat)).natAbs * 2 ^ 16 * 1000000 ≤ s.slewPpm * 2 ^ 32 * (s.nowNs - p))
    ∧ (∃ (s : State) (v : Reg), s.quiet = true ∧ s.follows = false ∧ s.bit (F.HDR.INT_ROUTE.INBAND pgTIME) = false
      ∧ s.bit (F.HDR.INT_ROUTE.INBAND pgTICK) = false ∧ s.timeSrc = 2 ∧ s.stepSched = false ∧ s.servoSt ≤ svLocked
      ∧ (signed 64 (s.fld F.TIME.OFFSET_LO.OFS_LO + 2 ^ 32 * v.toNat)).natAbs ≤ s.stepThresh ∧ (s.sfld F.TIME.FREQ_INT.INT).natAbs ≤ 2147484
      ∧ s.slewPpm * 2 ^ 32 * (nsPerSec) < s.fld F.TIME.SERVO_GAIN.KP * (signed 64 (s.fld F.TIME.OFFSET_LO.OFS_LO + 2 ^ 32 * v.toNat)).natAbs * 2 ^ 16 * 1000000
      ∧ s.servo.prev = none ∧ signed 64 (s.fld F.TIME.OFFSET_LO.OFS_LO + 2 ^ 32 * v.toNat) ≠ 0)
    ∧ (∃ (s : State) (v : Reg), s.quiet = true ∧ s.follows = false ∧ s.bit (F.HDR.INT_ROUTE.INBAND pgTIME) = false
      ∧ s.bit (F.HDR.INT_ROUTE.INBAND pgTICK) = false ∧ s.timeSrc = 2 ∧ s.stepSched = false ∧ s.mirrored = false ∧ s.servoSt ≠ svPending
      ∧ s.servoSt ≠ svStopped ∧ s.servo.slewAll = false
      ∧ s.stepThresh < (signed 64 (s.fld F.TIME.OFFSET_LO.OFS_LO + 2 ^ 32 * v.toNat)).natAbs
      ∧ (s.timeSet = false ∨ (signed 64 (s.fld F.TIME.OFFSET_LO.OFS_LO + 2 ^ 32 * v.toNat) < 0 ∧ s.bit F.TIME.TIME_CTL.STEP_FWD_EN = true)))
    ∧ (∃ (s : State) (v : Reg), s.quiet = true ∧ s.follows = false ∧ s.bit (F.HDR.INT_ROUTE.INBAND pgTIME) = false
      ∧ s.bit (F.HDR.INT_ROUTE.INBAND pgTICK) = false ∧ s.timeSrc = 2 ∧ s.stepSched = false ∧ s.servoSt ≠ svPending ∧ s.servoSt ≠ svStopped
      ∧ s.servo.slewAll = false ∧ s.stepThresh < (signed 64 (s.fld F.TIME.OFFSET_LO.OFS_LO + 2 ^ 32 * v.toNat)).natAbs ∧ s.timeSet = true
      ∧ (0 < signed 64 (s.fld F.TIME.OFFSET_LO.OFS_LO + 2 ^ 32 * v.toNat) ∨ s.bit F.TIME.TIME_CTL.STEP_FWD_EN = false))
    ∧ (∃ (s : State) (v : Reg), s.quiet = true ∧ s.follows = false ∧ s.bit (F.HDR.INT_ROUTE.INBAND pgTIME) = false
      ∧ s.bit (F.HDR.INT_ROUTE.INBAND pgTICK) = false ∧ s.timeSrc = 2 ∧ s.servoSt = svPending ∧ s.stepSched = false
      ∧ s.stepThresh < (signed 64 (s.fld F.TIME.OFFSET_LO.OFS_LO + 2 ^ 32 * v.toNat)).natAbs)
    ∧ (∃ (s : State) (v : Reg), s.quiet = true ∧ s.follows = false ∧ s.bit (F.HDR.INT_ROUTE.INBAND pgTIME) = false
      ∧ s.bit (F.HDR.INT_ROUTE.INBAND pgTICK) = false ∧ s.timeSrc = 2 ∧ s.stepSched = false ∧ s.servoSt = svPending
      ∧ (signed 64 (s.fld F.TIME.OFFSET_LO.OFS_LO + 2 ^ 32 * v.toNat)).natAbs ≤ s.stepThresh)
    ∧ (∃ (s : State) (v : Reg), s.quiet = true ∧ s.follows = false ∧ s.bit (F.HDR.INT_ROUTE.INBAND pgTIME) = false
      ∧ s.bit (F.HDR.INT_ROUTE.INBAND pgTICK) = false ∧ s.timeSrc = 2 ∧ (s.servoSt = svStopped ∨ s.stepSched = true))
    ∧ (∃ (s : State) (v : Reg), s.quiet = true ∧ s.follows = false ∧ s.bit (F.HDR.INT_ROUTE.INBAND pgTIME) = false
      ∧ s.bit (F.HDR.INT_ROUTE.INBAND pgTICK) = false ∧ s.timeSrc ≠ 2)
    ∧ (∃ (s : State) (v : Reg), s.quiet = true ∧ s.follows = false ∧ s.bit (F.HDR.INT_ROUTE.INBAND pgTIME) = false
      ∧ s.bit (F.HDR.INT_ROUTE.INBAND pgTICK) = false ∧ s.timeSrc = 2 ∧ s.stepSched = false ∧ s.servoSt = svLocking
      ∧ (signed 64 (s.fld F.TIME.OFFSET_LO.OFS_LO + 2 ^ 32 * v.toNat)).natAbs ≤ s.fld F.TIME.LOCK_CTL.LOCK_THRESH
      ∧ (signed 64 (s.fld F.TIME.OFFSET_LO.OFS_LO + 2 ^ 32 * v.toNat)).natAbs ≤ s.stepThresh ∧ s.lockCount ≤ s.servo.inRun + 1)
    ∧ (∃ (s : State) (v : Reg), s.quiet = true ∧ s.follows = false ∧ s.bit (F.HDR.INT_ROUTE.INBAND pgTIME) = false
      ∧ s.bit (F.HDR.INT_ROUTE.INBAND pgTICK) = false ∧ s.timeSrc = 2 ∧ s.stepSched = false ∧ s.servoSt = svLocked
      ∧ 4 * s.fld F.TIME.LOCK_CTL.LOCK_THRESH < (signed 64 (s.fld F.TIME.OFFSET_LO.OFS_LO + 2 ^ 32 * v.toNat)).natAbs
      ∧ (signed 64 (s.fld F.TIME.OFFSET_LO.OFS_LO + 2 ^ 32 * v.toNat)).natAbs ≤ s.stepThresh)
    ∧ (∃ (s : State) (src : BitVec 2), s.quiet = true ∧ s.follows = false ∧ s.bit (F.HDR.INT_ROUTE.INBAND pgTIME) = false
      ∧ s.bit (F.HDR.INT_ROUTE.INBAND pgTICK) = false ∧ s.timeSrc ≠ 0 ∧ srcOf src.toNat = 0
      ∧ (s.servoSt = svLocking ∨ s.servoSt = svLocked ∨ s.servoSt = svPending ∨ s.servoSt = svHoldover))
    ∧ (∃ (s : State) (src : BitVec 2), s.quiet = true ∧ s.follows = false ∧ s.bit (F.HDR.INT_ROUTE.INBAND pgTIME) = false
      ∧ s.bit (F.HDR.INT_ROUTE.INBAND pgTICK) = false ∧ s.timeSrc ≠ srcOf src.toNat
      ∧ (srcOf src.toNat ≠ 0 ∨ s.servoSt = svFree ∨ s.servoSt = svStopped))
    ∧ (∃ (s : State) (src : BitVec 2), s.quiet = true ∧ s.follows = false ∧ s.bit (F.HDR.INT_ROUTE.INBAND pgTIME) = false
      ∧ s.bit (F.HDR.INT_ROUTE.INBAND pgTICK) = false ∧ s.timeSrc = srcOf src.toNat)
    ∧ (∃ (s : State) (v : Reg), s.quiet = true ∧ s.follows = false ∧ s.bit (F.HDR.INT_ROUTE.INBAND pgTIME) = false
      ∧ s.bit (F.HDR.INT_ROUTE.INBAND pgTICK) = false ∧ (s.servoSt = svFree ∨ s.servoSt = svHoldover))
    ∧ (∃ (s : State) (v : Reg), s.quiet = true ∧ s.follows = false ∧ s.bit (F.HDR.INT_ROUTE.INBAND pgTIME) = false
      ∧ s.bit (F.HDR.INT_ROUTE.INBAND pgTICK) = false ∧ s.servoSt ≠ svFree ∧ s.servoSt ≠ svHoldover) := by
  refine ⟨?_, ?_, ?_, ?_, ?_, ?_, ?_, ?_, ?_, ?_, ?_, ?_, ?_, ?_, ?_, ?_⟩
  · exact ⟨(let b : State := {}; let b : State := (((b.setFld F.PAIR.PAIR_STS.ROLE (0)).setBit (F.HDR.INT_ROUTE.INBAND pgTIME) false).setBit (F.HDR.INT_ROUTE.INBAND pgTICK) false); let e : Int := (2278850462 % 900 : Nat) - 450; (((b.setFld F.TIME.TIME_CTL.SRC 2).setBit F.TIME.TIME_STATE.STEP_SCHED false |>.setSfld F.TIME.FREQ_INT.INT (100 - (399860151 % 200 : Nat)) |>.setFld F.TIME.SERVO_GAIN.KP 9).setFld64 F.TIME.OFFSET_LO.OFS_LO F.TIME.OFFSET_HI.OFS_HI (unsigned 64 e)).setFld F.TIME.TIME_STATE.STATE (svFree)), BitVec.ofNat 32 (unsigned 64 ((2278850462 % 900 : Nat) - 450 : Int) / 2 ^ 32), by decide +kernel⟩
  · exact ⟨(let b : State := {}; let b : State := (((b.setFld F.PAIR.PAIR_STS.ROLE (0)).setBit (F.HDR.INT_ROUTE.INBAND pgTIME) false).setBit (F.HDR.INT_ROUTE.INBAND pgTICK) false); let e : Int := (2278850462 % 900 : Nat) - 450; (({ (b.setFld F.TIME.TIME_CTL.SRC 2).setBit F.TIME.TIME_STATE.STEP_SCHED false |>.setSfld F.TIME.FREQ_INT.INT (100 - (399860151 % 200 : Nat)) with servo := { b.servo with prev := some (b.nowNs - 1000000000) }, time := { b.time with sec := b.time.sec + 2 } }).setFld64 F.TIME.OFFSET_LO.OFS_LO F.TIME.OFFSET_HI.OFS_HI (unsigned 64 e)).setFld F.TIME.TIME_STATE.STATE (svLocking + 0 % 2)), BitVec.ofNat 32 (unsigned 64 ((2278850462 % 900 : Nat) - 450 : Int) / 2 ^ 32), (let b : State := {}; let b : State := (((b.setFld F.PAIR.PAIR_STS.ROLE (0)).setBit (F.HDR.INT_ROUTE.INBAND pgTIME) false).setBit (F.HDR.INT_ROUTE.INBAND pgTICK) false); b.nowNs - 1000000000), by decide +kernel⟩
  · exact ⟨(let b : State := {}; let b : State := (((b.setFld F.PAIR.PAIR_STS.ROLE (0)).setBit (F.HDR.INT_ROUTE.INBAND pgTIME) false).setBit (F.HDR.INT_ROUTE.INBAND pgTICK) false); ((((b.setFld F.TIME.TIME_CTL.SRC 2).setBit F.TIME.TIME_STATE.STEP_SCHED false).setSfld F.TIME.FREQ_INT.INT (100 - (399860151 % 200 : Nat))).setFld F.TIME.STEP_THRESH.THRESH 100000000).setFld F.TIME.SLEW_LIMIT.LIMIT 1 |>.setFld F.TIME.SERVO_GAIN.KP 65535 |>.setFld F.TIME.OFFSET_LO.OFS_LO (90000000 + 0) |>.setFld F.TIME.TIME_STATE.STATE svFree), 0x0#32, by decide +kernel⟩
  · exact ⟨(let b : State := {}; let b : State := (((b.setFld F.PAIR.PAIR_STS.ROLE (0)).setBit (F.HDR.INT_ROUTE.INBAND pgTIME) false).setBit (F.HDR.INT_ROUTE.INBAND pgTICK) false); let e : Int := ((1 : Int)) * (1000000000000 + 2278850462 : Nat); (((((b.setFld F.TIME.TIME_CTL.SRC 2).setBit F.TIME.TIME_STATE.STEP_SCHED false).setBit F.TIME.TIME_STATE.TIME_SET (false) |>.setBit F.TIME.TIME_CTL.STEP_FWD_EN true).setFld64 F.TIME.OFFSET_LO.OFS_LO F.TIME.OFFSET_HI.OFS_HI (unsigned 64 e)).setFld F.TIME.TIME_STATE.STATE (svFree))), BitVec.ofNat 32 (unsigned 64 (((1 : Int)) * (1000000000000 + 2278850462 : Nat) : Int) / 2 ^ 32), by decide +kernel⟩
  · exact ⟨(let b : State := {}; let b : State := (((b.setFld F.PAIR.PAIR_STS.ROLE (0)).setBit (F.HDR.INT_ROUTE.INBAND pgTIME) false).setBit (F.HDR.INT_ROUTE.INBAND pgTICK) false); let e : Int := ((1 : Int)) * (1000000000000 + 2278850462 : Nat); (((((b.setFld F.TIME.TIME_CTL.SRC 2).setBit F.TIME.TIME_STATE.STEP_SCHED false).setBit F.TIME.TIME_STATE.TIME_SET true |>.setBit F.TIME.TIME_CTL.STEP_FWD_EN false).setFld64 F.TIME.OFFSET_LO.OFS_LO F.TIME.OFFSET_HI.OFS_HI (unsigned 64 e)).setFld F.TIME.TIME_STATE.STATE (svFree))), BitVec.ofNat 32 (unsigned 64 (((1 : Int)) * (1000000000000 + 2278850462 : Nat) : Int) / 2 ^ 32), by decide +kernel⟩
  · exact ⟨(let b : State := {}; let b : State := (((b.setFld F.PAIR.PAIR_STS.ROLE (0)).setBit (F.HDR.INT_ROUTE.INBAND pgTIME) false).setBit (F.HDR.INT_ROUTE.INBAND pgTICK) false); (b.setFld F.TIME.TIME_CTL.SRC 2).setFld F.TIME.TIME_STATE.STATE svPending |>.setBit F.TIME.TIME_STATE.STEP_SCHED false), BitVec.ofNat 32 (2905180566 + 1), by decide +kernel⟩
  · exact ⟨(let b : State := {}; let b : State := (((b.setFld F.PAIR.PAIR_STS.ROLE (0)).setBit (F.HDR.INT_ROUTE.INBAND pgTIME) false).setBit (F.HDR.INT_ROUTE.INBAND pgTICK) false); let e : Int := (2278850462 % 900 : Nat) - 450; (({ (b.setFld F.TIME.TIME_CTL.SRC 2).setBit F.TIME.TIME_STATE.STEP_SCHED false |>.setSfld F.TIME.FREQ_INT.INT (100 - (399860151 % 200 : Nat)) with servo := { b.servo with threeRun := 0 % 4 } }).setFld64 F.TIME.OFFSET_LO.OFS_LO F.TIME.OFFSET_HI.OFS_HI (unsigned 64 e)).setFld F.TIME.TIME_STATE.STATE (svPending)), BitVec.ofNat 32 (unsigned 64 ((2278850462 % 900 : Nat) - 450 : Int) / 2 ^ 32), by decide +kernel⟩
  · exact ⟨(let b : State := {}; let b : State := (((b.setFld F.PAIR.PAIR_STS.ROLE (0)).setBit (F.HDR.INT_ROUTE.INBAND pgTIME) false).setBit (F.HDR.INT_ROUTE.INBAND pgTICK) false); ((b.setFld F.TIME.TIME_CTL.SRC 2).setFld F.TIME.TIME_STATE.STATE (svStopped)).setBit F.TIME.TIME_STATE.STEP_SCHED (false)), BitVec.ofNat 32 (2905180566), by decide +kernel⟩
  · exact ⟨(let b : State := {}; let b : State := (((b.setFld F.PAIR.PAIR_STS.ROLE (0)).setBit (F.HDR.INT_ROUTE.INBAND pgTIME) false).setBit (F.HDR.INT_ROUTE.INBAND pgTICK) false); b.setFld F.TIME.TIME_CTL.SRC (0 % 3)), BitVec.ofNat 32 (2905180566), by decide +kernel⟩
  · exact ⟨(let b : State := {}; let b : State := (((b.setFld F.PAIR.PAIR_STS.ROLE (0)).setBit (F.HDR.INT_ROUTE.INBAND pgTIME) false).setBit (F.HDR.INT_ROUTE.INBAND pgTICK) false); let e : Int := (2278850462 % 900 : Nat) - 450; (({ (((b.setFld F.TIME.TIME_CTL.SRC 2).setBit F.TIME.TIME_STATE.STEP_SCHED false |>.setSfld F.TIME.FREQ_INT.INT (100 - (399860151 % 200 : Nat))).setFld F.TIME.LOCK_CTL.LOCK_THRESH 5000).setFld F.TIME.LOCK_CTL.LOCK_COUNT (0 % 4) with servo := { b.servo with inRun := 3 + 0 } }).setFld64 F.TIME.OFFSET_LO.OFS_LO F.TIME.OFFSET_HI.OFS_HI (unsigned 64 e)).setFld F.TIME.TIME_STATE.STATE (svLocking)), BitVec.ofNat 32 (unsigned 64 ((2278850462 % 900 : Nat) - 450 : Int) / 2 ^ 32), by decide +kernel⟩
  · exact ⟨(let b : State := {}; let b : State := (((b.setFld F.PAIR.PAIR_STS.ROLE (0)).setBit (F.HDR.INT_ROUTE.INBAND pgTIME) false).setBit (F.HDR.INT_ROUTE.INBAND pgTICK) false); let e : Int := (2278850462 % 900 : Nat) + 90; (((b.setFld F.TIME.TIME_CTL.SRC 2).setBit F.TIME.TIME_STATE.STEP_SCHED false |>.setSfld F.TIME.FREQ_INT.INT (100 - (399860151 % 200 : Nat)) |>.setFld F.TIME.LOCK_CTL.LOCK_THRESH (0 % 20)).setFld64 F.TIME.OFFSET_LO.OFS_LO F.TIME.OFFSET_HI.OFS_HI (unsigned 64 e)).setFld F.TIME.TIME_STATE.STATE (svLocked)), BitVec.ofNat 32 (unsigned 64 ((2278850462 % 900 : Nat) + 90 : Int) / 2 ^ 32), by decide +kernel⟩
  · exact ⟨(let b : State := {}; let b : State := (((b.setFld F.PAIR.PAIR_STS.ROLE (0)).setBit (F.HDR.INT_ROUTE.INBAND pgTIME) false).setBit (F.HDR.INT_ROUTE.INBAND pgTICK) false); (b.setFld F.TIME.TIME_CTL.SRC (1 + 0 % 2)).setFld F.TIME.TIME_STATE.STATE (1 + 0 % 4)), 0#2, by decide +kernel⟩
  · exact ⟨(let b : State := {}; let b : State := (((b.setFld F.PAIR.PAIR_STS.ROLE (0)).setBit (F.HDR.INT_ROUTE.INBAND pgTIME) false).setBit (F.HDR.INT_ROUTE.INBAND pgTICK) false); (b.setFld F.TIME.TIME_CTL.SRC 1).setFld F.TIME.TIME_STATE.STATE (0 % 6)), 2#2, by decide +kernel⟩
  · exact ⟨(let b : State := {}; let b : State := (((b.setFld F.PAIR.PAIR_STS.ROLE (0)).setBit (F.HDR.INT_ROUTE.INBAND pgTIME) false).setBit (F.HDR.INT_ROUTE.INBAND pgTICK) false); b), (let b : State := {}; let b : State := (((b.setFld F.PAIR.PAIR_STS.ROLE (0)).setBit (F.HDR.INT_ROUTE.INBAND pgTIME) false).setBit (F.HDR.INT_ROUTE.INBAND pgTICK) false); BitVec.ofNat 2 (b.fld F.TIME.TIME_CTL.SRC)), by decide +kernel⟩
  · exact ⟨(let b : State := {}; let b : State := (((b.setFld F.PAIR.PAIR_STS.ROLE (0)).setBit (F.HDR.INT_ROUTE.INBAND pgTIME) false).setBit (F.HDR.INT_ROUTE.INBAND pgTICK) false); b.setFld F.TIME.TIME_STATE.STATE (svFree)), BitVec.ofNat 32 (2905180566), by decide +kernel⟩
  · exact ⟨(let b : State := {}; let b : State := (((b.setFld F.PAIR.PAIR_STS.ROLE (0)).setBit (F.HDR.INT_ROUTE.INBAND pgTIME) false).setBit (F.HDR.INT_ROUTE.INBAND pgTICK) false); b.setFld F.TIME.TIME_STATE.STATE (1 + 0 % 3)), BitVec.ofNat 32 (2905180566), by decide +kernel⟩

/-- The premises of `Obligations.ServoCommandsEndPendingAndStopped` are met, clause by clause. -/
theorem test_met_ServoCommandsEndPendingAndStopped :
    (∃ (s : State), s.quiet = true ∧ s.follows = false ∧ s.mirrored = false ∧ s.bit (F.HDR.INT_ROUTE.INBAND pgTIME) = false
      ∧ s.bit (F.HDR.INT_ROUTE.INBAND pgTICK) = false ∧ s.servoSt = svPending ∧ s.stepSched = false)
    ∧ (∃ (s : State), s.quiet = true ∧ s.follows = false ∧ s.mirrored = false ∧ s.bit (F.HDR.INT_ROUTE.INBAND pgTIME) = false
      ∧ s.bit (F.HDR.INT_ROUTE.INBAND pgTICK) = false ∧ (s.servoSt ≠ svPending ∨ s.stepSched = true))
    ∧ (∃ (s : State), s.quiet = true ∧ s.follows = false ∧ s.mirrored = false ∧ s.bit (F.HDR.INT_ROUTE.INBAND pgTIME) = false
      ∧ s.bit (F.HDR.INT_ROUTE.INBAND pgTICK) = false ∧ s.servoSt = svPending ∧ s.stepSched = false
      ∧ (s.sfld F.TIME.FREQ_INT.INT).natAbs ≤ 2147484
      ∧ s.fld F.TIME.SERVO_GAIN.KP * (s.pendingOffset).natAbs * 2 ^ 16 * 1000000 ≤ s.slewPpm * 2 ^ 32 * (nsPerSec))
    ∧ (∃ (s : State), s.quiet = true ∧ s.follows = false ∧ s.mirrored = false ∧ s.bit (F.HDR.INT_ROUTE.INBAND pgTIME) = false
      ∧ s.bit (F.HDR.INT_ROUTE.INBAND pgTICK) = false ∧ s.servoSt = svPending ∧ s.stepSched = false
      ∧ (s.sfld F.TIME.FREQ_INT.INT).natAbs ≤ 2147484
      ∧ s.slewPpm * 2 ^ 32 * (nsPerSec) < s.fld F.TIME.SERVO_GAIN.KP * (s.pendingOffset).natAbs * 2 ^ 16 * 1000000 ∧ 2 ≤ s.lockCount)
    ∧ (∃ (s : State), s.quiet = true ∧ s.follows = false ∧ s.mirrored = false ∧ s.bit (F.HDR.INT_ROUTE.INBAND pgTIME) = false
      ∧ s.bit (F.HDR.INT_ROUTE.INBAND pgTICK) = false ∧ (s.servoSt ≠ svPending ∨ s.stepSched = true))
    ∧ (∃ (s : State), s.quiet = true ∧ s.follows = false ∧ s.mirrored = false ∧ s.bit (F.HDR.INT_ROUTE.INBAND pgTIME) = false
      ∧ s.bit (F.HDR.INT_ROUTE.INBAND pgTICK) = false ∧ s.servoSt = svStopped ∧ s.servo.pllBad = false ∧ s.servo.refBad = false)
    ∧ (∃ (s : State), s.quiet = true ∧ s.follows = false ∧ s.mirrored = false ∧ s.bit (F.HDR.INT_ROUTE.INBAND pgTIME) = false
      ∧ s.bit (F.HDR.INT_ROUTE.INBAND pgTICK) = false ∧ (s.servoSt ≠ svStopped ∨ s.servo.pllBad = true ∨ s.servo.refBad = true)) := by
  refine ⟨?_, ?_, ?_, ?_, ?_, ?_, ?_⟩
  · exact ⟨(let b : State := {}; let b : State := (((b.setFld F.PAIR.PAIR_STS.ROLE (0)).setBit (F.HDR.INT_ROUTE.INBAND pgTIME) false).setBit (F.HDR.INT_ROUTE.INBAND pgTICK) false); (b.setFld F.TIME.TIME_STATE.STATE svPending).setBit F.TIME.TIME_STATE.STEP_SCHED false), by decide +kernel⟩
  · exact ⟨(let b : State := {}; let b : State := (((b.setFld F.PAIR.PAIR_STS.ROLE (0)).setBit (F.HDR.INT_ROUTE.INBAND pgTIME) false).setBit (F.HDR.INT_ROUTE.INBAND pgTICK) false); (b.setFld F.TIME.TIME_STATE.STATE (0 % 6)).setBit F.TIME.TIME_STATE.STEP_SCHED true), by decide +kernel⟩
  · exact ⟨(let b : State := {}; let b : State := (((b.setFld F.PAIR.PAIR_STS.ROLE (0)).setBit (F.HDR.INT_ROUTE.INBAND pgTIME) false).setBit (F.HDR.INT_ROUTE.INBAND pgTICK) false); ((b.setFld F.TIME.TIME_STATE.STATE svPending).setBit F.TIME.TIME_STATE.STEP_SCHED false).setFld F.TIME.LOCK_CTL.LOCK_COUNT (0 % 5) |>.setFld64 F.TIME.PENDING_OFFSET_LO.PEND_LO F.TIME.PENDING_OFFSET_HI.PEND_HI (unsigned 64 ((2278850462 % 60 : Nat) - 30 : Int)) |>.setSfld F.TIME.FREQ_INT.INT (100 - (399860151 % 200 : Nat)) |>.setFld F.TIME.SERVO_GAIN.KP (86695099 % 65536)), by decide +kernel⟩
  · exact ⟨(let b : State := {}; let b : State := (((b.setFld F.PAIR.PAIR_STS.ROLE (0)).setBit (F.HDR.INT_ROUTE.INBAND pgTIME) false).setBit (F.HDR.INT_ROUTE.INBAND pgTICK) false); ((b.setFld F.TIME.TIME_STATE.STATE svPending).setBit F.TIME.TIME_STATE.STEP_SCHED false).setFld F.TIME.LOCK_CTL.LOCK_COUNT (2 + 0 % 5) |>.setFld64 F.TIME.PENDING_OFFSET_LO.PEND_LO F.TIME.PENDING_OFFSET_HI.PEND_HI (unsigned 64 ((2 * ((0 : Int) % 2) - 1) * (1000000000000 + 2278850462 : Nat))) |>.setSfld F.TIME.FREQ_INT.INT (100 - (399860151 % 200 : Nat)) |>.setFld F.TIME.SERVO_GAIN.KP (30000 + 0)), by decide +kernel⟩
  · exact ⟨(let b : State := {}; let b : State := (((b.setFld F.PAIR.PAIR_STS.ROLE (0)).setBit (F.HDR.INT_ROUTE.INBAND pgTIME) false).setBit (F.HDR.INT_ROUTE.INBAND pgTICK) false); (b.setFld F.TIME.TIME_STATE.STATE (0 % 6)).setBit F.TIME.TIME_STATE.STEP_SCHED true), by decide +kernel⟩
  · exact ⟨(let b : State := {}; let b : State := (((b.setFld F.PAIR.PAIR_STS.ROLE (0)).setBit (F.HDR.INT_ROUTE.INBAND pgTIME) false).setBit (F.HDR.INT_ROUTE.INBAND pgTICK) false); b.setFld F.TIME.TIME_STATE.STATE svStopped), by decide +kernel⟩
  · exact ⟨(let b : State := {}; let b : State := (((b.setFld F.PAIR.PAIR_STS.ROLE (0)).setBit (F.HDR.INT_ROUTE.INBAND pgTIME) false).setBit (F.HDR.INT_ROUTE.INBAND pgTICK) false); { b.setFld F.TIME.TIME_STATE.STATE (0 % 6) with servo := { b.servo with pllBad := true, refBad := false } }), by decide +kernel⟩

/-- The premises of `Obligations.PtpSyncAndFollowUp` are met, clause by clause. -/
theorem test_met_PtpSyncAndFollowUp :
    (∃ (s : State) (p : Port) (m : SyncMsg), s.quiet = true ∧ s.bit (F.HDR.INT_ROUTE.INBAND pgPTP) = false
      ∧ s.bit (F.HDR.INT_ROUTE.INBAND pgTIME) = false ∧ s.bit (F.HDR.INT_ROUTE.INBAND pgTICK) = false ∧ s.slaveFor m.domain = true
      ∧ s.accepts m.src = true ∧ m.src.clock < 2 ^ 64 ∧ m.src.port < 2 ^ 16 ∧ m.stampOk = true ∧ m.twoStep = true
      ∧ s.activeAfter p = portCode p ∧ s.ptp.twoStep = none)
    ∧ (∃ (s : State) (p : Port) (m : SyncMsg) (e : Int), s.quiet = true ∧ s.bit (F.HDR.INT_ROUTE.INBAND pgPTP) = false
      ∧ s.bit (F.HDR.INT_ROUTE.INBAND pgTIME) = false ∧ s.bit (F.HDR.INT_ROUTE.INBAND pgTICK) = false ∧ s.slaveFor m.domain = true
      ∧ s.accepts m.src = true ∧ m.src.clock < 2 ^ 64 ∧ m.src.port < 2 ^ 16 ∧ m.stampOk = true ∧ m.twoStep = false
      ∧ s.activeAfter p = portCode p ∧ s.ptp.twoStep = none ∧ s.timeSrc = 1 ∧ s.follows = false ∧ s.delayValid p = true
      ∧ s.beforeStep m.rx = false ∧ s.offsetOf p m.rx m.origin m.corr = e * 2 ^ 16)
    ∧ (∃ (s : State) (p : Port) (m : SyncMsg), s.quiet = true ∧ s.bit (F.HDR.INT_ROUTE.INBAND pgPTP) = false
      ∧ s.bit (F.HDR.INT_ROUTE.INBAND pgTIME) = false ∧ s.bit (F.HDR.INT_ROUTE.INBAND pgTICK) = false ∧ s.slaveFor m.domain = true
      ∧ s.accepts m.src = true ∧ m.src.clock < 2 ^ 64 ∧ m.src.port < 2 ^ 16 ∧ m.stampOk = true ∧ m.twoStep = false
      ∧ s.activeAfter p = portCode p ∧ s.ptp.twoStep = none ∧ (s.delayValid p = false ∨ s.beforeStep m.rx = true))
    ∧ (∃ (s : State) (p : Port) (m : SyncMsg), s.quiet = true ∧ s.bit (F.HDR.INT_ROUTE.INBAND pgPTP) = false
      ∧ s.bit (F.HDR.INT_ROUTE.INBAND pgTIME) = false ∧ s.bit (F.HDR.INT_ROUTE.INBAND pgTICK) = false ∧ s.slaveFor m.domain = true
      ∧ s.accepts m.src = true ∧ m.src.clock < 2 ^ 64 ∧ m.src.port < 2 ^ 16 ∧ m.stampOk = true ∧ s.activeAfter p ≠ portCode p)
    ∧ (∃ (s : State) (p : Port) (m : SyncMsg), s.quiet = true ∧ s.bit (F.HDR.INT_ROUTE.INBAND pgPTP) = false
      ∧ s.bit (F.HDR.INT_ROUTE.INBAND pgTIME) = false ∧ s.bit (F.HDR.INT_ROUTE.INBAND pgTICK) = false
      ∧ (s.slaveFor m.domain = false ∨ s.accepts m.src = false) ∧ m.stampOk = true)
    ∧ (∃ (s : State) (p : Port) (m : SyncMsg), s.quiet = true ∧ s.bit (F.HDR.INT_ROUTE.INBAND pgPTP) = false
      ∧ s.bit (F.HDR.INT_ROUTE.INBAND pgTIME) = false ∧ s.bit (F.HDR.INT_ROUTE.INBAND pgTICK) = false ∧ m.stampOk = false)
    ∧ (∃ (s : State) (p : Port) (m : FollowUpMsg) (w : TwoStep) (e : Int), s.quiet = true ∧ s.bit (F.HDR.INT_ROUTE.INBAND pgPTP) = false
      ∧ s.bit (F.HDR.INT_ROUTE.INBAND pgTIME) = false ∧ s.bit (F.HDR.INT_ROUTE.INBAND pgTICK) = false ∧ s.ptp.twoStep = some w ∧ w.port = p
      ∧ w.msg.src = m.src ∧ w.msg.seq = m.seq ∧ w.msg.domain = m.domain ∧ w.steps = s.servo.steps ∧ w.use = true ∧ s.time.cycles ≤ w.until_
      ∧ s.timeSrc = 1 ∧ s.follows = false ∧ s.delayValid p = true ∧ s.offsetOf p w.msg.rx m.origin (w.msg.corr + m.corr) = e * 2 ^ 16)
    ∧ (∃ (s : State) (p : Port) (m : FollowUpMsg) (w : TwoStep), s.quiet = true ∧ s.bit (F.HDR.INT_ROUTE.INBAND pgPTP) = false
      ∧ s.bit (F.HDR.INT_ROUTE.INBAND pgTIME) = false ∧ s.bit (F.HDR.INT_ROUTE.INBAND pgTICK) = false ∧ s.ptp.twoStep = some w ∧ w.port = p
      ∧ w.msg.src = m.src ∧ w.msg.seq = m.seq ∧ w.msg.domain = m.domain ∧ s.time.cycles ≤ w.until_
      ∧ (w.use = false ∨ w.steps ≠ s.servo.steps))
    ∧ (∃ (s : State) (p : Port) (m : FollowUpMsg) (w : TwoStep), s.quiet = true ∧ s.bit (F.HDR.INT_ROUTE.INBAND pgPTP) = false
      ∧ s.bit (F.HDR.INT_ROUTE.INBAND pgTIME) = false ∧ s.bit (F.HDR.INT_ROUTE.INBAND pgTICK) = false ∧ s.ptp.twoStep = some w ∧ w.port = p
      ∧ w.msg.src = m.src ∧ w.msg.seq = m.seq ∧ w.msg.domain = m.domain ∧ w.until_ < s.time.cycles)
    ∧ (∃ (s : State) (p : Port) (m : FollowUpMsg), s.quiet = true ∧ s.bit (F.HDR.INT_ROUTE.INBAND pgPTP) = false
      ∧ s.bit (F.HDR.INT_ROUTE.INBAND pgTIME) = false ∧ s.bit (F.HDR.INT_ROUTE.INBAND pgTICK) = false
      ∧ (s.ptp.twoStep.all (fun w => decide (w.port ≠ p ∨ w.msg.src ≠ m.src ∨ w.msg.seq ≠ m.seq ∨ w.msg.domain ≠ m.domain)) = true))
    ∧ (∃ (s : State) (w : TwoStep), s.quiet = true ∧ s.bit (F.HDR.INT_ROUTE.INBAND pgPTP) = false
      ∧ s.bit (F.HDR.INT_ROUTE.INBAND pgTIME) = false ∧ s.bit (F.HDR.INT_ROUTE.INBAND pgTICK) = false ∧ s.ptp.twoStep = some w) := by
  refine ⟨?_, ?_, ?_, ?_, ?_, ?_, ?_, ?_, ?_, ?_, ?_⟩
  · exact ⟨(let b : State := {}; let b : State := ((b.setBit (F.HDR.INT_ROUTE.INBAND pgPTP) false).setBit (F.HDR.INT_ROUTE.INBAND pgTIME) false).setBit (F.HDR.INT_ROUTE.INBAND pgTICK) false; ((((b.setBit F.PTP.PTP_CTL.SLAVE_EN true).setBit F.PTP.PTP_CTL.SEL_MODE false).setFld F.PTP.PTP_CTL.SLAVE_PORT (1 + 0 % 2)).setFld F.PTP.MASTER_PORT.PORT 0xFFFF).setFld64 F.PTP.MASTER_ID_LO.ID_LO F.PTP.MASTER_ID_HI.ID_HI (3531510670)), .a, (let b : State := {}; let b : State := ((b.setBit (F.HDR.INT_ROUTE.INBAND pgPTP) false).setBit (F.HDR.INT_ROUTE.INBAND pgTIME) false).setBit (F.HDR.INT_ROUTE.INBAND pgTICK) false; let s : State := (((((b.setBit F.PTP.PTP_CTL.SLAVE_EN true).setBit F.PTP.PTP_CTL.SEL_MODE false).setFld F.PTP.PTP_CTL.SLAVE_PORT (1 + 0 % 2)).setFld F.PTP.MASTER_PORT.PORT 0xFFFF).setFld64 F.PTP.MASTER_ID_LO.ID_LO F.PTP.MASTER_ID_HI.ID_HI (3531510670)); { domain := s.fld F.PTP.PTP_CTL.DOMAIN, src := ⟨3531510670, 3⟩, seq := 9, logInterval := 0, twoStep := true, origin := ⟨1, 2⟩, corr := 0, rx := ⟨1, 900⟩, stampOk := true }), by decide +kernel⟩
  · exact ⟨(let b : State := {}; let b : State := ((b.setBit (F.HDR.INT_ROUTE.INBAND pgPTP) false).setBit (F.HDR.INT_ROUTE.INBAND pgTIME) false).setBit (F.HDR.INT_ROUTE.INBAND pgTICK) false; let p : Port := .a; { (((((((b.setBit F.PTP.PTP_CTL.SLAVE_EN true).setBit F.PTP.PTP_CTL.SEL_MODE false).setFld F.PTP.PTP_CTL.SLAVE_PORT (1 + 0 % 2)).setFld F.PTP.MASTER_PORT.PORT 0xFFFF).setFld64 F.PTP.MASTER_ID_LO.ID_LO F.PTP.MASTER_ID_HI.ID_HI (3531510670)).setFld F.TIME.TIME_CTL.SRC 1).setFld F.PAIR.PAIR_STS.ROLE 0).setFld (linkDelayFld p) (16 * (0+1)) with servo := { b.servo with stepNew := none } }), .a, (let p : Port := .a; (let b : State := {}; let b : State := ((b.setBit (F.HDR.INT_ROUTE.INBAND pgPTP) false).setBit (F.HDR.INT_ROUTE.INBAND pgTIME) false).setBit (F.HDR.INT_ROUTE.INBAND pgTICK) false; let s : State := (let p : Port := .a; { (((((((b.setBit F.PTP.PTP_CTL.SLAVE_EN true).setBit F.PTP.PTP_CTL.SEL_MODE false).setFld F.PTP.PTP_CTL.SLAVE_PORT (1 + 0 % 2)).setFld F.PTP.MASTER_PORT.PORT 0xFFFF).setFld64 F.PTP.MASTER_ID_LO.ID_LO F.PTP.MASTER_ID_HI.ID_HI (3531510670)).setFld F.TIME.TIME_CTL.SRC 1).setFld F.PAIR.PAIR_STS.ROLE 0).setFld (linkDelayFld p) (16 * (0+1)) with servo := { b.servo with stepNew := none } }); { domain := s.fld F.PTP.PTP_CTL.DOMAIN, src := ⟨3531510670, 3⟩, seq := 9, logInterval := 0, twoStep := false, origin := ⟨1, 2⟩, corr := 65536 * (0 : Int), rx := ⟨1, 900⟩, stampOk := true })), (let p : Port := .a; (let b : State := {}; let b : State := ((b.setBit (F.HDR.INT_ROUTE.INBAND pgPTP) false).setBit (F.HDR.INT_ROUTE.INBAND pgTIME) false).setBit (F.HDR.INT_ROUTE.INBAND pgTICK) false; let s : State := (let p : Port := .a; { (((((((b.setBit F.PTP.PTP_CTL.SLAVE_EN true).setBit F.PTP.PTP_CTL.SEL_MODE false).setFld F.PTP.PTP_CTL.SLAVE_PORT (1 + 0 % 2)).setFld F.PTP.MASTER_PORT.PORT 0xFFFF).setFld64 F.PTP.MASTER_ID_LO.ID_LO F.PTP.MASTER_ID_HI.ID_HI (3531510670)).setFld F.TIME.TIME_CTL.SRC 1).setFld F.PAIR.PAIR_STS.ROLE 0).setFld (linkDelayFld p) (16 * (0+1)) with servo := { b.servo with stepNew := none } }); 898 - (0 : Int) - s.sfld (asymFld p) - (0 + 1 : Int))), by decide +kernel⟩
  · exact ⟨(let b : State := {}; let b : State := ((b.setBit (F.HDR.INT_ROUTE.INBAND pgPTP) false).setBit (F.HDR.INT_ROUTE.INBAND pgTIME) false).setBit (F.HDR.INT_ROUTE.INBAND pgTICK) false; { ((((b.setBit F.PTP.PTP_CTL.SLAVE_EN true).setBit F.PTP.PTP_CTL.SEL_MODE false).setFld F.PTP.PTP_CTL.SLAVE_PORT (1 + 0 % 2)).setFld F.PTP.MASTER_PORT.PORT 0xFFFF).setFld64 F.PTP.MASTER_ID_LO.ID_LO F.PTP.MASTER_ID_HI.ID_HI (3531510670) with servo := { b.servo with stepNew := some (1000 * 10 ^ 9) } }), .a, (let b : State := {}; let b : State := ((b.setBit (F.HDR.INT_ROUTE.INBAND pgPTP) false).setBit (F.HDR.INT_ROUTE.INBAND pgTIME) false).setBit (F.HDR.INT_ROUTE.INBAND pgTICK) false; let s : State := ({ ((((b.setBit F.PTP.PTP_CTL.SLAVE_EN true).setBit F.PTP.PTP_CTL.SEL_MODE false).setFld F.PTP.PTP_CTL.SLAVE_PORT (1 + 0 % 2)).setFld F.PTP.MASTER_PORT.PORT 0xFFFF).setFld64 F.PTP.MASTER_ID_LO.ID_LO F.PTP.MASTER_ID_HI.ID_HI (3531510670) with servo := { b.servo with stepNew := some (1000 * 10 ^ 9) } }); { domain := s.fld F.PTP.PTP_CTL.DOMAIN, src := ⟨3531510670, 3⟩, seq := 9, logInterval := 0, twoStep := false, origin := ⟨1, 2⟩, corr := 0, rx := ⟨1, 900⟩, stampOk := true }), by decide +kernel⟩
  · exact ⟨(let b : State := {}; let b : State := ((b.setBit (F.HDR.INT_ROUTE.INBAND pgPTP) false).setBit (F.HDR.INT_ROUTE.INBAND pgTIME) false).setBit (F.HDR.INT_ROUTE.INBAND pgTICK) false; ((((b.setBit F.PTP.PTP_CTL.SLAVE_EN true).setBit F.PTP.PTP_CTL.SEL_MODE false).setFld F.PTP.PTP_CTL.SLAVE_PORT (1 + 0 % 2)).setFld F.PTP.MASTER_PORT.PORT 0xFFFF).setFld64 F.PTP.MASTER_ID_LO.ID_LO F.PTP.MASTER_ID_HI.ID_HI (3531510670)), .b, (let b : State := {}; let b : State := ((b.setBit (F.HDR.INT_ROUTE.INBAND pgPTP) false).setBit (F.HDR.INT_ROUTE.INBAND pgTIME) false).setBit (F.HDR.INT_ROUTE.INBAND pgTICK) false; let s : State := (((((b.setBit F.PTP.PTP_CTL.SLAVE_EN true).setBit F.PTP.PTP_CTL.SEL_MODE false).setFld F.PTP.PTP_CTL.SLAVE_PORT (1 + 0 % 2)).setFld F.PTP.MASTER_PORT.PORT 0xFFFF).setFld64 F.PTP.MASTER_ID_LO.ID_LO F.PTP.MASTER_ID_HI.ID_HI (3531510670)); { domain := s.fld F.PTP.PTP_CTL.DOMAIN, src := ⟨3531510670, 3⟩, seq := 9, logInterval := 0, twoStep := true, origin := ⟨1, 2⟩, corr := 0, rx := ⟨1, 900⟩, stampOk := true }), by decide +kernel⟩
  · exact ⟨(let b : State := {}; let b : State := ((b.setBit (F.HDR.INT_ROUTE.INBAND pgPTP) false).setBit (F.HDR.INT_ROUTE.INBAND pgTIME) false).setBit (F.HDR.INT_ROUTE.INBAND pgTICK) false; b), .a, { domain := 999, src := ⟨3531510670, 3⟩, seq := 9, logInterval := 0, twoStep := true, origin := ⟨1, 2⟩, corr := 0, rx := ⟨1, 900⟩, stampOk := true }, by decide +kernel⟩
  · exact ⟨(let b : State := {}; let b : State := ((b.setBit (F.HDR.INT_ROUTE.INBAND pgPTP) false).setBit (F.HDR.INT_ROUTE.INBAND pgTIME) false).setBit (F.HDR.INT_ROUTE.INBAND pgTICK) false; ((((b.setBit F.PTP.PTP_CTL.SLAVE_EN true).setBit F.PTP.PTP_CTL.SEL_MODE false).setFld F.PTP.PTP_CTL.SLAVE_PORT (1 + 0 % 2)).setFld F.PTP.MASTER_PORT.PORT 0xFFFF).setFld64 F.PTP.MASTER_ID_LO.ID_LO F.PTP.MASTER_ID_HI.ID_HI (3531510670)), .a, (let b : State := {}; let b : State := ((b.setBit (F.HDR.INT_ROUTE.INBAND pgPTP) false).setBit (F.HDR.INT_ROUTE.INBAND pgTIME) false).setBit (F.HDR.INT_ROUTE.INBAND pgTICK) false; let s : State := (((((b.setBit F.PTP.PTP_CTL.SLAVE_EN true).setBit F.PTP.PTP_CTL.SEL_MODE false).setFld F.PTP.PTP_CTL.SLAVE_PORT (1 + 0 % 2)).setFld F.PTP.MASTER_PORT.PORT 0xFFFF).setFld64 F.PTP.MASTER_ID_LO.ID_LO F.PTP.MASTER_ID_HI.ID_HI (3531510670)); { domain := s.fld F.PTP.PTP_CTL.DOMAIN, src := ⟨3531510670, 3⟩, seq := 9, logInterval := 0, twoStep := true, origin := ⟨1, 2⟩, corr := 0, rx := ⟨1, 900⟩, stampOk := false }), by decide +kernel⟩
  · exact ⟨(let b : State := {}; let b : State := ((b.setBit (F.HDR.INT_ROUTE.INBAND pgPTP) false).setBit (F.HDR.INT_ROUTE.INBAND pgTIME) false).setBit (F.HDR.INT_ROUTE.INBAND pgTICK) false; let p : Port := .a; { ((b.setFld F.TIME.TIME_CTL.SRC 1).setFld F.PAIR.PAIR_STS.ROLE 0).setFld (linkDelayFld p) (16 * (0+1)) with ptp := { b.ptp with twoStep := some ⟨p, { domain := 3, src := ⟨4, 5⟩, seq := 7, logInterval := 0, twoStep := true, origin := ⟨1, 2⟩, corr := 0, rx := ⟨1, 2592015514⟩, stampOk := true }, b.servo.steps, b.time.cycles, true⟩ } }), .a, { domain := 3, src := ⟨4, 5⟩, seq := 7, origin := ⟨1, 500⟩, corr := 0x30000 - 65536 }, (let p : Port := .a; (let b : State := {}; let b : State := ((b.setBit (F.HDR.INT_ROUTE.INBAND pgPTP) false).setBit (F.HDR.INT_ROUTE.INBAND pgTIME) false).setBit (F.HDR.INT_ROUTE.INBAND pgTICK) false; ⟨p, { domain := 3, src := ⟨4, 5⟩, seq := 7, logInterval := 0, twoStep := true, origin := ⟨1, 2⟩, corr := 0, rx := ⟨1, 2592015514⟩, stampOk := true }, b.servo.steps, b.time.cycles, true⟩)), (let p : Port := .a; (let b : State := {}; let b : State := ((b.setBit (F.HDR.INT_ROUTE.INBAND pgPTP) false).setBit (F.HDR.INT_ROUTE.INBAND pgTIME) false).setBit (F.HDR.INT_ROUTE.INBAND pgTICK) false; let s : State := (let p : Port := .a; { ((b.setFld F.TIME.TIME_CTL.SRC 1).setFld F.PAIR.PAIR_STS.ROLE 0).setFld (linkDelayFld p) (16 * (0+1)) with ptp := { b.ptp with twoStep := some ⟨p, { domain := 3, src := ⟨4, 5⟩, seq := 7, logInterval := 0, twoStep := true, origin := ⟨1, 2⟩, corr := 0, rx := ⟨1, 2592015514⟩, stampOk := true }, b.servo.steps, b.time.cycles, true⟩ } }); (2592015514 : Int) - 500 - s.sfld (asymFld p) - 2 - (0+1 : Int))), by decide +kernel⟩
  · exact ⟨(let b : State := {}; let b : State := ((b.setBit (F.HDR.INT_ROUTE.INBAND pgPTP) false).setBit (F.HDR.INT_ROUTE.INBAND pgTIME) false).setBit (F.HDR.INT_ROUTE.INBAND pgTICK) false; let p : Port := .a; { b with ptp := { b.ptp with twoStep := some ⟨p, { domain := 3, src := ⟨4, 5⟩, seq := 7, logInterval := 0, twoStep := true, origin := ⟨1, 2⟩, corr := 0, rx := ⟨1, 2592015514⟩, stampOk := true }, b.servo.steps, b.time.cycles, false⟩ } }), .a, { domain := 3, src := ⟨4, 5⟩, seq := 7, origin := ⟨1, 500⟩, corr := 0 }, (let p : Port := .a; (let b : State := {}; let b : State := ((b.setBit (F.HDR.INT_ROUTE.INBAND pgPTP) false).setBit (F.HDR.INT_ROUTE.INBAND pgTIME) false).setBit (F.HDR.INT_ROUTE.INBAND pgTICK) false; ⟨p, { domain := 3, src := ⟨4, 5⟩, seq := 7, logInterval := 0, twoStep := true, origin := ⟨1, 2⟩, corr := 0, rx := ⟨1, 2592015514⟩, stampOk := true }, b.servo.steps, b.time.cycles, false⟩)), by decide +kernel⟩
  · exact ⟨(let b : State := {}; let b : State := ((b.setBit (F.HDR.INT_ROUTE.INBAND pgPTP) false).setBit (F.HDR.INT_ROUTE.INBAND pgTIME) false).setBit (F.HDR.INT_ROUTE.INBAND pgTICK) false; let p : Port := .a; { b with time := { b.time with cycles := 500000001 + 0 }, ptp := { b.ptp with twoStep := some ⟨p, { domain := 3, src := ⟨4, 5⟩, seq := 7, logInterval := 0, twoStep := true, origin := ⟨1, 2⟩, corr := 0, rx := ⟨1, 2592015514⟩, stampOk := true }, b.servo.steps, 0, true⟩ } }), .a, { domain := 3, src := ⟨4, 5⟩, seq := 7, origin := ⟨1, 500⟩, corr := 0 }, (let p : Port := .a; (let b : State := {}; let b : State := ((b.setBit (F.HDR.INT_ROUTE.INBAND pgPTP) false).setBit (F.HDR.INT_ROUTE.INBAND pgTIME) false).setBit (F.HDR.INT_ROUTE.INBAND pgTICK) false; ⟨p, { domain := 3, src := ⟨4, 5⟩, seq := 7, logInterval := 0, twoStep := true, origin := ⟨1, 2⟩, corr := 0, rx := ⟨1, 2592015514⟩, stampOk := true }, b.servo.steps, 0, true⟩)), by decide +kernel⟩
  · exact ⟨(let b : State := {}; let b : State := ((b.setBit (F.HDR.INT_ROUTE.INBAND pgPTP) false).setBit (F.HDR.INT_ROUTE.INBAND pgTIME) false).setBit (F.HDR.INT_ROUTE.INBAND pgTICK) false; let p : Port := .a; { b with ptp := { b.ptp with twoStep := some ⟨p, { domain := 3, src := ⟨4, 5⟩, seq := 7, logInterval := 0, twoStep := true, origin := ⟨1, 2⟩, corr := 0, rx := ⟨1, 2592015514⟩, stampOk := true }, b.servo.steps, 0, true⟩ } }), .b, { domain := 3, src := ⟨4, 5⟩, seq := 7, origin := ⟨1, 500⟩, corr := 0 }, by decide +kernel⟩
  · exact ⟨(let b : State := {}; let b : State := ((b.setBit (F.HDR.INT_ROUTE.INBAND pgPTP) false).setBit (F.HDR.INT_ROUTE.INBAND pgTIME) false).setBit (F.HDR.INT_ROUTE.INBAND pgTICK) false; { b with ptp := { b.ptp with twoStep := some ⟨.a, { domain := b.fld F.PTP.PTP_CTL.DOMAIN, src := ⟨3531510670, 3⟩, seq := 9, logInterval := 0, twoStep := true, origin := ⟨1, 2⟩, corr := 0, rx := ⟨1, 900⟩, stampOk := true }, 0, b.time.cycles, true⟩ } }), (let b : State := {}; let b : State := ((b.setBit (F.HDR.INT_ROUTE.INBAND pgPTP) false).setBit (F.HDR.INT_ROUTE.INBAND pgTIME) false).setBit (F.HDR.INT_ROUTE.INBAND pgTICK) false; ⟨.a, { domain := b.fld F.PTP.PTP_CTL.DOMAIN, src := ⟨3531510670, 3⟩, seq := 9, logInterval := 0, twoStep := true, origin := ⟨1, 2⟩, corr := 0, rx := ⟨1, 900⟩, stampOk := true }, 0, b.time.cycles, true⟩), by decide +kernel⟩

/-- The premises of `Obligations.PtpMasterIsFollowedAndLost` are met, clause by clause. -/
theorem test_met_PtpMasterIsFollowedAndLost :
    (∃ (s : State) (p : Port) (m : AnnounceMsg), s.quiet = true ∧ s.bit (F.HDR.INT_ROUTE.INBAND pgPTP) = false ∧ s.slaveFor m.domain = true
      ∧ s.bit F.PTP.PTP_CTL.SEL_MODE = true ∧ s.bit F.PTP.PTP_STS.HAS_MASTER = false ∧ s.ptp.silenced = false ∧ m.src.clock < 2 ^ 64
      ∧ m.src.port < 2 ^ 16 ∧ m.utcOffset < 2 ^ 16)
    ∧ (∃ (s : State) (p : Port) (m : AnnounceMsg), s.quiet = true ∧ s.bit (F.HDR.INT_ROUTE.INBAND pgPTP) = false ∧ s.slaveFor m.domain = true
      ∧ s.bit F.PTP.PTP_CTL.SEL_MODE = true ∧ s.ptp.silenced = true ∧ m.src.clock < 2 ^ 64 ∧ m.src.port < 2 ^ 16 ∧ m.utcOffset < 2 ^ 16)
    ∧ (∃ (s : State) (p : Port) (m : AnnounceMsg), s.quiet = true ∧ s.bit (F.HDR.INT_ROUTE.INBAND pgPTP) = false ∧ s.slaveFor m.domain = true
      ∧ s.ptp.silenced = false ∧ s.accepts m.src = true ∧ m.src.clock < 2 ^ 64 ∧ m.src.port < 2 ^ 16 ∧ m.utcOffset < 2 ^ 16)
    ∧ (∃ (s : State) (p : Port) (m : AnnounceMsg), s.quiet = true ∧ s.bit (F.HDR.INT_ROUTE.INBAND pgPTP) = false
      ∧ (s.slaveFor m.domain = false ∨ (s.accepts m.src = false
      ∧ (s.bit F.PTP.PTP_CTL.SEL_MODE = false ∨ (s.bit F.PTP.PTP_STS.HAS_MASTER = true ∧ s.ptp.silenced = false)))))
    ∧ (∃ (s : State), s.quiet = true ∧ s.bit (F.HDR.INT_ROUTE.INBAND pgPTP) = false ∧ s.bit F.PTP.PTP_CTL.SEL_MODE = true
      ∧ s.bit F.PTP.PTP_STS.HAS_MASTER = true)
    ∧ (∃ (s : State), s.quiet = true ∧ s.bit (F.HDR.INT_ROUTE.INBAND pgPTP) = false
      ∧ (s.bit F.PTP.PTP_CTL.SEL_MODE = false ∨ s.bit F.PTP.PTP_STS.HAS_MASTER = false))
    ∧ (∃ (s : State), s.quiet = true ∧ s.bit (F.HDR.INT_ROUTE.INBAND pgPTP) = false ∧ s.bit F.PTP.PTP_STS.HAS_MASTER = true)
    ∧ (∃ (s : State), s.quiet = true ∧ s.bit (F.HDR.INT_ROUTE.INBAND pgPTP) = false ∧ s.slaveAuto = true ∧ s.fld F.PTP.PTP_STS.ACTIVE_PORT = 1
      ∧ s.syncLoss ≤ s.ptp.missed)
    ∧ (∃ (s : State), s.quiet = true ∧ s.bit (F.HDR.INT_ROUTE.INBAND pgPTP) = false
      ∧ (s.slaveAuto = false ∨ s.fld F.PTP.PTP_STS.ACTIVE_PORT ≠ 1 ∨ s.ptp.missed < s.syncLoss)) := by
  refine ⟨?_, ?_, ?_, ?_, ?_, ?_, ?_, ?_, ?_⟩
  · exact ⟨(let b : State := {}; let b : State := b.setBit (F.HDR.INT_ROUTE.INBAND pgPTP) false; (((b.setBit F.PTP.PTP_CTL.SLAVE_EN true).setBit F.PTP.PTP_CTL.SEL_MODE true).setBit F.PTP.PTP_STS.HAS_MASTER false)), .a, (let b : State := {}; let b : State := b.setBit (F.HDR.INT_ROUTE.INBAND pgPTP) false; let s : State := ((((b.setBit F.PTP.PTP_CTL.SLAVE_EN true).setBit F.PTP.PTP_CTL.SEL_MODE true).setBit F.PTP.PTP_STS.HAS_MASTER false)); { domain := s.fld F.PTP.PTP_CTL.DOMAIN, src := ⟨3531510670 * 2 ^ 32 + 3218345618, 2905180566 % 65536⟩, logInterval := 1, utcOffset := 2592015514 % 65536, utcValid := true, leap61 := true, leap59 := false }), by decide +kernel⟩
  · exact ⟨(let b : State := {}; let b : State := b.setBit (F.HDR.INT_ROUTE.INBAND pgPTP) false; { (((b.setBit F.PTP.PTP_CTL.SLAVE_EN true).setBit F.PTP.PTP_CTL.SEL_MODE true).setBit F.PTP.PTP_STS.HAS_MASTER false) with ptp := { b.ptp with silenced := true } }), .a, (let b : State := {}; let b : State := b.setBit (F.HDR.INT_ROUTE.INBAND pgPTP) false; let s : State := ({ (((b.setBit F.PTP.PTP_CTL.SLAVE_EN true).setBit F.PTP.PTP_CTL.SEL_MODE true).setBit F.PTP.PTP_STS.HAS_MASTER false) with ptp := { b.ptp with silenced := true } }); { domain := s.fld F.PTP.PTP_CTL.DOMAIN, src := ⟨3531510670 * 2 ^ 32 + 3218345618, 2905180566 % 65536⟩, logInterval := 1, utcOffset := 2592015514 % 65536, utcValid := true, leap61 := true, leap59 := false }), by decide +kernel⟩
  · exact ⟨(let b : State := {}; let b : State := b.setBit (F.HDR.INT_ROUTE.INBAND pgPTP) false; (((b.setBit F.PTP.PTP_CTL.SLAVE_EN true).setBit F.PTP.PTP_CTL.SEL_MODE false).setFld F.PTP.MASTER_PORT.PORT 0xFFFF).setFld64 F.PTP.MASTER_ID_LO.ID_LO F.PTP.MASTER_ID_HI.ID_HI (3531510670 * 2 ^ 32 + 3218345618)), .a, (let b : State := {}; let b : State := b.setBit (F.HDR.INT_ROUTE.INBAND pgPTP) false; let s : State := ((((b.setBit F.PTP.PTP_CTL.SLAVE_EN true).setBit F.PTP.PTP_CTL.SEL_MODE false).setFld F.PTP.MASTER_PORT.PORT 0xFFFF).setFld64 F.PTP.MASTER_ID_LO.ID_LO F.PTP.MASTER_ID_HI.ID_HI (3531510670 * 2 ^ 32 + 3218345618)); { domain := s.fld F.PTP.PTP_CTL.DOMAIN, src := ⟨3531510670 * 2 ^ 32 + 3218345618, 2905180566 % 65536⟩, logInterval := 1, utcOffset := 2592015514 % 65536, utcValid := true, leap61 := true, leap59 := false }), by decide +kernel⟩
  · exact ⟨(let b : State := {}; let b : State := b.setBit (F.HDR.INT_ROUTE.INBAND pgPTP) false; (b.setBit F.PTP.PTP_CTL.SLAVE_EN (false)).setBit F.PTP.PTP_CTL.SEL_MODE false), .a, (let b : State := {}; let b : State := b.setBit (F.HDR.INT_ROUTE.INBAND pgPTP) false; let s : State := ((b.setBit F.PTP.PTP_CTL.SLAVE_EN (false)).setBit F.PTP.PTP_CTL.SEL_MODE false); { domain := s.fld F.PTP.PTP_CTL.DOMAIN, src := ⟨3531510670 * 2 ^ 32 + 3218345618, 2905180566 % 65536⟩, logInterval := 1, utcOffset := 2592015514 % 65536, utcValid := true, leap61 := true, leap59 := false }), by decide +kernel⟩
  · exact ⟨(let b : State := {}; let b : State := b.setBit (F.HDR.INT_ROUTE.INBAND pgPTP) false; (b.setBit F.PTP.PTP_CTL.SEL_MODE true).setBit F.PTP.PTP_STS.HAS_MASTER true), by decide +kernel⟩
  · exact ⟨(let b : State := {}; let b : State := b.setBit (F.HDR.INT_ROUTE.INBAND pgPTP) false; b.setBit F.PTP.PTP_CTL.SEL_MODE false), by decide +kernel⟩
  · exact ⟨(let b : State := {}; let b : State := b.setBit (F.HDR.INT_ROUTE.INBAND pgPTP) false; b.setBit F.PTP.PTP_STS.HAS_MASTER true), by decide +kernel⟩
  · exact ⟨(let b : State := {}; let b : State := b.setBit (F.HDR.INT_ROUTE.INBAND pgPTP) false; { (b.setFld F.PTP.PTP_CTL.SLAVE_PORT 0).setFld F.PTP.PTP_STS.ACTIVE_PORT 1 with ptp := { b.ptp with missed := 255 + 0 } }), by decide +kernel⟩
  · exact ⟨(let b : State := {}; let b : State := b.setBit (F.HDR.INT_ROUTE.INBAND pgPTP) false; b.setFld F.PTP.PTP_CTL.SLAVE_PORT (1 + 0 % 2)), by decide +kernel⟩

/-- The premises of `Obligations.PeerDelayIsMeasured` are met, clause by clause. -/
theorem test_met_PeerDelayIsMeasured :
    (∃ (s : State), s.quiet = true ∧ s.bit (F.HDR.INT_ROUTE.INBAND pgPTP) = false ∧ s.bit F.ARB_TX.ARB_CTL.FREEZE = false
      ∧ s.ptpPort .a = true ∧ s.ptpPort .b = true)
    ∧ (∃ (s : State) (okA : Bool) (okB : Bool), s.quiet = true ∧ s.bit (F.HDR.INT_ROUTE.INBAND pgPTP) = false
      ∧ s.bit F.ARB_TX.ARB_CTL.FREEZE = false ∧ s.ptpPort .a = true ∧ s.ptpPort .b = false ∧ okA = true)
    ∧ (∃ (s : State), s.quiet = true ∧ s.bit (F.HDR.INT_ROUTE.INBAND pgPTP) = false ∧ s.bit F.ARB_TX.ARB_CTL.FREEZE = false
      ∧ s.ptpPort .a = true ∧ s.ptpPort .b = true)
    ∧ (∃ (s : State) (okA : Bool) (okB : Bool), s.quiet = true ∧ s.bit (F.HDR.INT_ROUTE.INBAND pgPTP) = false
      ∧ s.bit F.ARB_TX.ARB_CTL.FREEZE = false ∧ s.ptpPort .a = false ∧ s.ptpPort .b = false)
    ∧ (∃ (s : State) (p : Port) (m : PdelayRespMsg) (t1 : HubTime) (d : Int), s.quiet = true ∧ s.bit (F.HDR.INT_ROUTE.INBAND pgPTP) = false
      ∧ s.bit F.ARB_TX.ARB_CTL.FREEZE = false ∧ (s.pd p).t1 = some t1 ∧ m.seq = (s.pd p).seq ∧ m.stampOk = true ∧ (s.pd p).skipNext = false
      ∧ ((((htNs m.rx : Int) - htNs t1) * 2 ^ 16 - m.turnaround) :: (s.pd p).hist.take 7).sum = d * ((2 * (((s.pd p).hist.take 7).length + 1) : Nat) : Int) * 2 ^ 12)
    ∧ (∃ (s : State) (p : Port) (m : PdelayRespMsg) (t1 : HubTime), s.quiet = true ∧ s.bit (F.HDR.INT_ROUTE.INBAND pgPTP) = false
      ∧ s.bit F.ARB_TX.ARB_CTL.FREEZE = false ∧ (s.pd p).t1 = some t1 ∧ m.seq = (s.pd p).seq ∧ m.stampOk = true ∧ (s.pd p).skipNext = true)
    ∧ (∃ (s : State) (p : Port) (m : PdelayRespMsg), s.quiet = true ∧ s.bit (F.HDR.INT_ROUTE.INBAND pgPTP) = false
      ∧ s.bit F.ARB_TX.ARB_CTL.FREEZE = false ∧ ((s.pd p).t1 = none ∨ m.seq ≠ (s.pd p).seq) ∧ m.stampOk = true)
    ∧ (∃ (s : State) (p : Port), s.quiet = true ∧ s.bit (F.HDR.INT_ROUTE.INBAND pgPTP) = false ∧ s.bit F.ARB_TX.ARB_CTL.FREEZE = false
      ∧ (s.pd p).asked = true ∧ (s.pd p).lost = false)
    ∧ (∃ (s : State) (p : Port) (m : PdelayReqMsg), s.quiet = true ∧ s.bit (F.HDR.INT_ROUTE.INBAND pgPTP) = false
      ∧ s.bit F.ARB_TX.ARB_CTL.FREEZE = false ∧ m.stampOk = true ∧ s.ptpPort p = true)
    ∧ (∃ (s : State) (p : Port) (m : PdelayReqMsg), s.quiet = true ∧ s.bit (F.HDR.INT_ROUTE.INBAND pgPTP) = false
      ∧ s.bit F.ARB_TX.ARB_CTL.FREEZE = false ∧ m.stampOk = false ∧ s.ptpPort p = true)
    ∧ (∃ (s : State) (p : Port) (e : TcEntry), s.quiet = true ∧ s.bit (F.HDR.INT_ROUTE.INBAND pgPTP) = false
      ∧ s.bit F.ARB_TX.ARB_CTL.FREEZE = false ∧ (s.tcSums p).getLast? = some e) := by
  refine ⟨?_, ?_, ?_, ?_, ?_, ?_, ?_, ?_, ?_, ?_, ?_⟩
  · exact ⟨(let b : State := {}; let b : State := (b.setBit (F.HDR.INT_ROUTE.INBAND pgPTP) false).setBit F.ARB_TX.ARB_CTL.FREEZE false; ((b.setFld (F.PORT.PORT_STS.STATE 0) 3).setFld (F.PORT.PORT_STS.STATE 1) 3).setFld F.HSR.HSR_CTL.NODE_MODE 0), by decide +kernel⟩
  · exact ⟨(let b : State := {}; let b : State := (b.setBit (F.HDR.INT_ROUTE.INBAND pgPTP) false).setBit F.ARB_TX.ARB_CTL.FREEZE false; ((b.setFld (F.PORT.PORT_STS.STATE 0) 3).setFld (F.PORT.PORT_STS.STATE 1) 3).setFld F.HSR.HSR_CTL.NODE_MODE 2), true, true, by decide +kernel⟩
  · exact ⟨(let b : State := {}; let b : State := (b.setBit (F.HDR.INT_ROUTE.INBAND pgPTP) false).setBit F.ARB_TX.ARB_CTL.FREEZE false; ((b.setFld (F.PORT.PORT_STS.STATE 0) 3).setFld (F.PORT.PORT_STS.STATE 1) 3).setFld F.HSR.HSR_CTL.NODE_MODE 0), by decide +kernel⟩
  · exact ⟨(let b : State := {}; let b : State := (b.setBit (F.HDR.INT_ROUTE.INBAND pgPTP) false).setBit F.ARB_TX.ARB_CTL.FREEZE false; (b.setFld (F.PORT.PORT_STS.STATE 0) 1).setFld (F.PORT.PORT_STS.STATE 1) 2), true, true, by decide +kernel⟩
  · exact ⟨(let b : State := {}; let b : State := (b.setBit (F.HDR.INT_ROUTE.INBAND pgPTP) false).setBit F.ARB_TX.ARB_CTL.FREEZE false; b.modPd (.a) fun d => { d with t1 := some ⟨10, 600⟩, seq := 5, hist := List.replicate (0 % 9) ((100 + (0 : Int)) * 2 ^ 16 - 2 ^ 13 * (0 : Int)), skipNext := false }), .a, { seq := 5, turnaround := 2 ^ 13 * (0 : Int), rx := ⟨10, 700 + 0⟩, stampOk := true }, ⟨10, 600⟩, (100 + (0 : Int)) * 8 - 0, by decide +kernel⟩
  · exact ⟨(let b : State := {}; let b : State := (b.setBit (F.HDR.INT_ROUTE.INBAND pgPTP) false).setBit F.ARB_TX.ARB_CTL.FREEZE false; b.modPd (.a) fun d => { d with t1 := some ⟨10, 600⟩, seq := 5, skipNext := true }), .a, { seq := 5, turnaround := 2 ^ 13 * (0 : Int), rx := ⟨10, 700 + 0⟩, stampOk := true }, ⟨10, 600⟩, by decide +kernel⟩
  · exact ⟨(let b : State := {}; let b : State := (b.setBit (F.HDR.INT_ROUTE.INBAND pgPTP) false).setBit F.ARB_TX.ARB_CTL.FREEZE false; b.modPd (.a) fun d => { d with t1 := none, seq := 5 }), .a, { seq := 6, turnaround := 2 ^ 13 * (0 : Int), rx := ⟨10, 700 + 0⟩, stampOk := true }, by decide +kernel⟩
  · exact ⟨(let b : State := {}; let b : State := (b.setBit (F.HDR.INT_ROUTE.INBAND pgPTP) false).setBit F.ARB_TX.ARB_CTL.FREEZE false; (((b.setFld (linkDelayFld .a) 77).setFld (linkDelayFld .b) 78).modPd .a fun d => { d with asked := true, lost := false }).modPd .b fun d => { d with asked := true, lost := false }), .a, by decide +kernel⟩
  · exact ⟨(let b : State := {}; let b : State := (b.setBit (F.HDR.INT_ROUTE.INBAND pgPTP) false).setBit F.ARB_TX.ARB_CTL.FREEZE false; ((b.setFld (F.PORT.PORT_STS.STATE 0) 3).setFld (F.PORT.PORT_STS.STATE 1) 3).setFld F.HSR.HSR_CTL.NODE_MODE 0), .a, { src := ⟨1, 2⟩, seq := 0, rx := ⟨1, 2⟩, tx := ⟨1, 9⟩, stampOk := true }, by decide +kernel⟩
  · exact ⟨(let b : State := {}; let b : State := (b.setBit (F.HDR.INT_ROUTE.INBAND pgPTP) false).setBit F.ARB_TX.ARB_CTL.FREEZE false; ((b.setFld (F.PORT.PORT_STS.STATE 0) 3).setFld (F.PORT.PORT_STS.STATE 1) 3).setFld F.HSR.HSR_CTL.NODE_MODE 0), .a, { src := ⟨1, 2⟩, seq := 0, rx := ⟨1, 2⟩, tx := ⟨1, 9⟩, stampOk := false }, by decide +kernel⟩
  · exact ⟨(let b : State := {}; let b : State := (b.setBit (F.HDR.INT_ROUTE.INBAND pgPTP) false).setBit F.ARB_TX.ARB_CTL.FREEZE false; { b with ptp := { b.ptp with tcA := [{ src := ⟨1, 2⟩, seq := 3, sum := 4, at_ := 5 }], tcB := [{ src := ⟨1, 2⟩, seq := 3, sum := 4, at_ := 1 }, { src := ⟨1, 2⟩, seq := 3, sum := 4, at_ := 5 }] } }), .a, { src := ⟨1, 2⟩, seq := 3, sum := 4, at_ := 5 }, by decide +kernel⟩

/-- The premises of `Obligations.HoldoverBeginsWithoutOffsets` are met, clause by clause. -/
theorem test_met_HoldoverBeginsWithoutOffsets :
    (∃ (s : State), s.quiet = true ∧ s.bit (F.HDR.INT_ROUTE.INBAND pgTIME) = false
      ∧ (s.servoSt = svLocking ∨ s.servoSt = svLocked ∨ s.servoSt = svPending) ∧ s.stepSched = false)
    ∧ (∃ (s : State), s.quiet = true ∧ s.bit (F.HDR.INT_ROUTE.INBAND pgTIME) = false
      ∧ (s.servoSt = svFree ∨ s.servoSt = svHoldover ∨ s.servoSt = svStopped ∨ s.stepSched = true))
    ∧ (∃ (s : State), s.quiet = true ∧ s.bit (F.HDR.INT_ROUTE.INBAND pgTIME) = false) := by
  refine ⟨?_, ?_, ?_⟩
  · exact ⟨(let b : State := {}; let b : State := b.setBit (F.HDR.INT_ROUTE.INBAND pgTIME) false; (b.setFld F.TIME.TIME_STATE.STATE (1 + 0 % 3)).setBit F.TIME.TIME_STATE.STEP_SCHED false), by decide +kernel⟩
  · exact ⟨(let b : State := {}; let b : State := b.setBit (F.HDR.INT_ROUTE.INBAND pgTIME) false; (b.setFld F.TIME.TIME_STATE.STATE (0)).setBit F.TIME.TIME_STATE.STEP_SCHED false), by decide +kernel⟩
  · exact ⟨(let b : State := {}; let b : State := b.setBit (F.HDR.INT_ROUTE.INBAND pgTIME) false; b), by decide +kernel⟩

/-- The premises of `Obligations.FatalTimeFaultsStopTheServo` are met, clause by clause. -/
theorem test_met_FatalTimeFaultsStopTheServo :
    (∃ (s : State), s.quiet = true ∧ s.role = roleSolo ∧ s.bit (F.HDR.INT_ROUTE.INBAND pgTIME) = false
      ∧ s.bit (F.HDR.INT_ROUTE.INBAND pgRIM) = false ∧ s.servoSt = svHoldover ∧ s.fld F.TIME.HOLDOVER_LIMIT.LIMIT ≠ 0)
    ∧ (∃ (s : State), s.quiet = true ∧ s.role = roleSolo ∧ s.bit (F.HDR.INT_ROUTE.INBAND pgTIME) = false
      ∧ s.bit (F.HDR.INT_ROUTE.INBAND pgRIM) = false ∧ (s.servoSt ≠ svHoldover ∨ s.fld F.TIME.HOLDOVER_LIMIT.LIMIT = 0))
    ∧ (∃ (s : State), s.quiet = true ∧ s.role = roleSolo ∧ s.bit (F.HDR.INT_ROUTE.INBAND pgTIME) = false
      ∧ s.bit (F.HDR.INT_ROUTE.INBAND pgRIM) = false)
    ∧ (∃ (s : State), s.quiet = true ∧ s.role = roleSolo ∧ s.bit (F.HDR.INT_ROUTE.INBAND pgTIME) = false
      ∧ s.bit (F.HDR.INT_ROUTE.INBAND pgRIM) = false) := by
  refine ⟨?_, ?_, ?_, ?_⟩
  · exact ⟨(let b : State := {}; let b : State := ((b.setFld F.PAIR.PAIR_STS.ROLE 0).setBit (F.HDR.INT_ROUTE.INBAND pgTIME) false).setBit (F.HDR.INT_ROUTE.INBAND pgRIM) false; (b.setFld F.TIME.TIME_STATE.STATE svHoldover).setFld F.TIME.HOLDOVER_LIMIT.LIMIT (7+0)), by decide +kernel⟩
  · exact ⟨(let b : State := {}; let b : State := ((b.setFld F.PAIR.PAIR_STS.ROLE 0).setBit (F.HDR.INT_ROUTE.INBAND pgTIME) false).setBit (F.HDR.INT_ROUTE.INBAND pgRIM) false; (b.setFld F.TIME.TIME_STATE.STATE (svHoldover)).setFld F.TIME.HOLDOVER_LIMIT.LIMIT 0), by decide +kernel⟩
  · exact ⟨(let b : State := {}; let b : State := ((b.setFld F.PAIR.PAIR_STS.ROLE 0).setBit (F.HDR.INT_ROUTE.INBAND pgTIME) false).setBit (F.HDR.INT_ROUTE.INBAND pgRIM) false; b), by decide +kernel⟩
  · exact ⟨(let b : State := {}; let b : State := ((b.setFld F.PAIR.PAIR_STS.ROLE 0).setBit (F.HDR.INT_ROUTE.INBAND pgTIME) false).setBit (F.HDR.INT_ROUTE.INBAND pgRIM) false; b), by decide +kernel⟩

/-- The premises of `Obligations.PpsPulsesAndStamps` are met, clause by clause. -/
theorem test_met_PpsPulsesAndStamps :
    (∃ (s : State), s.quiet = true ∧ s.bit (F.HDR.INT_ROUTE.INBAND pgTIME) = false ∧ s.bit F.TIME.PPS_OUT_CTL.EN = true
      ∧ (s.bit F.TIME.PPS_OUT_CTL.GATE = false ∨ (s.timeSet = true ∧ (s.servoSt = svLocked ∨ s.servoSt = svHoldover))))
    ∧ (∃ (s : State), s.quiet = true ∧ s.bit (F.HDR.INT_ROUTE.INBAND pgTIME) = false
      ∧ (s.bit F.TIME.PPS_OUT_CTL.EN = false ∨ (s.bit F.TIME.PPS_OUT_CTL.GATE = true ∧ (s.timeSet = false ∨ (s.servoSt ≠ svLocked
      ∧ s.servoSt ≠ svHoldover)))))
    ∧ (∃ (s : State) (rising : Bool) (st : Stamp), s.quiet = true ∧ s.bit (F.HDR.INT_ROUTE.INBAND pgTIME) = false
      ∧ s.bit F.TIME.PPS_IN_CTL.EN = true ∧ rising = !s.bit F.TIME.PPS_IN_CTL.EDGE ∧ st.sec < 2 ^ 48 ∧ st.ns < 2 ^ 30 ∧ st.frac < 16)
    ∧ (∃ (s : State) (rising : Bool) (st : Stamp), s.quiet = true ∧ s.bit (F.HDR.INT_ROUTE.INBAND pgTIME) = false
      ∧ (s.bit F.TIME.PPS_IN_CTL.EN = false ∨ rising = s.bit F.TIME.PPS_IN_CTL.EDGE)) := by
  refine ⟨?_, ?_, ?_, ?_⟩
  · exact ⟨(let b : State := {}; let b : State := b.setBit (F.HDR.INT_ROUTE.INBAND pgTIME) false; (b.setBit F.TIME.PPS_OUT_CTL.EN true).setBit F.TIME.PPS_OUT_CTL.GATE false), by decide +kernel⟩
  · exact ⟨(let b : State := {}; let b : State := b.setBit (F.HDR.INT_ROUTE.INBAND pgTIME) false; b.setBit F.TIME.PPS_OUT_CTL.EN false), by decide +kernel⟩
  · exact ⟨(let b : State := {}; let b : State := b.setBit (F.HDR.INT_ROUTE.INBAND pgTIME) false; ({ b with pins := { b.pins with ppsUnread := true } } : State).setBit F.TIME.PPS_IN_CTL.EN true), (let b : State := {}; let b : State := b.setBit (F.HDR.INT_ROUTE.INBAND pgTIME) false; let s : State := (({ b with pins := { b.pins with ppsUnread := true } } : State).setBit F.TIME.PPS_IN_CTL.EN true); !s.bit F.TIME.PPS_IN_CTL.EDGE), ⟨3844675722 + 2 ^ 40, 3531510670 % 1000000000, 0 % 16⟩, by decide +kernel⟩
  · exact ⟨(let b : State := {}; let b : State := b.setBit (F.HDR.INT_ROUTE.INBAND pgTIME) false; b), (let b : State := {}; let b : State := b.setBit (F.HDR.INT_ROUTE.INBAND pgTIME) false; let s : State := (b); s.bit F.TIME.PPS_IN_CTL.EDGE), ⟨1, 2, 3⟩, by decide +kernel⟩

/-- The premises of `Obligations.GridIsSwitchedAndTicksAreIssued` are met, clause by clause. -/
theorem test_met_GridIsSwitchedAndTicksAreIssued :
    (∃ (s : State) (v : Reg), s.quiet = true ∧ s.bit (F.HDR.INT_ROUTE.INBAND pgTICK) = false ∧ s.bit F.TICK.TICK_CTL.EN = false
      ∧ s.gridSt = gridOff ∧ v.getLsbD 0 = true)
    ∧ (∃ (s : State) (v : Reg), s.quiet = true ∧ s.bit (F.HDR.INT_ROUTE.INBAND pgTICK) = false ∧ s.gridSt ≠ gridSleep ∧ v.getLsbD 0 = false)
    ∧ (∃ (s : State) (v : Reg), s.quiet = true ∧ s.bit (F.HDR.INT_ROUTE.INBAND pgTICK) = false ∧ s.bit F.TICK.TICK_CTL.EN = true
      ∧ s.gridSt = gridWait ∧ s.booting = false ∧ v.getLsbD 0 = true ∧ v.getLsbD 1 = false)
    ∧ (∃ (s : State) (bad : BitVec 32), s.quiet = true ∧ s.bit (F.HDR.INT_ROUTE.INBAND pgTICK) = false
      ∧ (s.gridSt = gridRun ∨ s.gridSt = gridCatchup) ∧ s.countAt s.cycleTu ≤ s.grid.cur ∧ s.boundaryFirst = false
      ∧ s.gridFree s.grid.cur = true)
    ∧ (∃ (s : State) (bad : BitVec 32), s.quiet = true ∧ s.bit (F.HDR.INT_ROUTE.INBAND pgTICK) = false
      ∧ (s.gridSt = gridOff ∨ s.gridSt = gridWait ∨ s.gridSt = gridSleep ∨ s.gridFree s.grid.cur = false) ∧ s.countAt s.cycleTu ≤ s.grid.cur
      ∧ s.boundaryFirst = false) := by
  refine ⟨?_, ?_, ?_, ?_, ?_⟩
  · exact ⟨(let b : State := {}; let b : State := b.setBit (F.HDR.INT_ROUTE.INBAND pgTICK) false; (b.setBit F.TICK.TICK_CTL.EN false).setFld F.TICK.TICK_STS.STATE 0), BitVec.ofNat 32 (4157840774 ||| 1), by decide +kernel⟩
  · exact ⟨(let b : State := {}; let b : State := b.setBit (F.HDR.INT_ROUTE.INBAND pgTICK) false; b.setFld F.TICK.TICK_STS.STATE (0 % 4)), BitVec.ofNat 32 (4157840774 / 2 * 2), by decide +kernel⟩
  · exact ⟨(let b : State := {}; let b : State := b.setBit (F.HDR.INT_ROUTE.INBAND pgTICK) false; ((b.setBit F.TICK.TICK_CTL.EN true).setFld F.TICK.TICK_STS.STATE 1).setFld F.NVM.BOOT_STS.STEP 0), BitVec.ofNat 32 (4157840774 / 4 * 4 + 1), by decide +kernel⟩
  · exact ⟨(let b : State := {}; let b : State := b.setBit (F.HDR.INT_ROUTE.INBAND pgTICK) false; ({ b with commits := [], servo := { b.servo with sched := none }, grid := { b.grid with cur := b.countAt (b.finePos / 2 ^ 25) + 1 } } : State).setFld F.TICK.TICK_STS.STATE (gridRun)), BitVec.ofNat 32 (4157840774), by decide +kernel⟩
  · exact ⟨(let b : State := {}; let b : State := b.setBit (F.HDR.INT_ROUTE.INBAND pgTICK) false; (({ b with commits := [], servo := { b.servo with sched := none }, grid := { b.grid with cur := b.countAt (b.finePos / 2 ^ 25) + 1, last := some ⟨2 ^ 64 - 1, 5, 5, 0, 0⟩ } } : State).setFld F.TICK.TICK_STS.STATE (gridCatchup)).setBit F.TICK.TICK_CTL.EN (true)), 0#32, by decide +kernel⟩

/-- The premises of `Obligations.SecondsAndStepsOfHubTime` are met, clause by clause. -/
theorem test_met_SecondsAndStepsOfHubTime :
    (∃ (s : State), s.quiet = true ∧ s.leads = true ∧ s.mirrored = false ∧ s.bit (F.HDR.INT_ROUTE.INBAND pgTIME) = false
      ∧ s.bit (F.HDR.INT_ROUTE.INBAND pgTICK) = false ∧ (((List.range 64).all fun q => !s.bit (F.HDR.INT_ROUTE.INBAND (pgQ q))) = true)
      ∧ s.stepAt s.nextSecond = false ∧ s.tickCommitDue s.nextSecond = false ∧ s.timekeeper = false
      ∧ (((List.range 64).all fun q => !s.qOpen q) = true)
      ∧ (((List.range 64).all fun q => decide ((s.getQ q).wp = (s.getQ q).wp2) && decide ((s.getQ q).rp = (s.getQ q).rp2)) = true))
    ∧ (∃ (s : State) (q : Fin 64), s.quiet = true ∧ s.leads = true ∧ s.mirrored = false ∧ s.bit (F.HDR.INT_ROUTE.INBAND pgTIME) = false
      ∧ s.bit (F.HDR.INT_ROUTE.INBAND pgTICK) = false ∧ (((List.range 64).all fun q => !s.bit (F.HDR.INT_ROUTE.INBAND (pgQ q))) = true)
      ∧ s.stepAt s.nextSecond = false ∧ s.tickCommitDue s.nextSecond = false ∧ s.nextSecond < 2 ^ 48
      ∧ (((List.range 64).all fun q => decide ((s.getQ q).wp = (s.getQ q).wp2) && decide ((s.getQ q).rp = (s.getQ q).rp2)) = true)
      ∧ s.qOpen q.val = true ∧ (s.getQ q.val).pend = {} ∧ (s.getQ q.val).held = 0 ∧ 4 + 2 ≤ s.qFree q.val
      ∧ (((List.range 64).all fun r => decide (r = q.val) || !s.qOpen r) = true) ∧ (s.getQ q.val).wp < s.qMod q.val)
    ∧ (∃ (s : State) (q : Fin 64), s.quiet = true ∧ s.leads = true ∧ s.mirrored = false ∧ s.bit (F.HDR.INT_ROUTE.INBAND pgTIME) = false
      ∧ s.bit (F.HDR.INT_ROUTE.INBAND pgTICK) = false ∧ (((List.range 64).all fun q => !s.bit (F.HDR.INT_ROUTE.INBAND (pgQ q))) = true)
      ∧ s.stepAt s.nextSecond = false ∧ s.tickCommitDue s.nextSecond = false
      ∧ (((List.range 64).all fun q => decide ((s.getQ q).wp = (s.getQ q).wp2) && decide ((s.getQ q).rp = (s.getQ q).rp2)) = true)
      ∧ s.qOpen q.val = true ∧ (s.getQ q.val).pend = {} ∧ (s.getQ q.val).held = 0 ∧ 4 + 2 ≤ s.qFree q.val)
    ∧ (∃ (s : State), s.quiet = true ∧ s.leads = true ∧ s.mirrored = false ∧ s.bit (F.HDR.INT_ROUTE.INBAND pgTIME) = false
      ∧ s.bit (F.HDR.INT_ROUTE.INBAND pgTICK) = false ∧ (((List.range 64).all fun q => !s.bit (F.HDR.INT_ROUTE.INBAND (pgQ q))) = true)
      ∧ s.stepAt s.nextSecond = false ∧ s.tickCommitDue s.nextSecond = false ∧ s.timekeeper = true ∧ s.waleDriving 8 = false
      ∧ s.bit (F.HDR.INT_ROUTE.INBAND pgWALE) = false)
    ∧ (∃ (s : State) (bd : Nat) (e : Int), s.quiet = true ∧ s.leads = true ∧ s.mirrored = false
      ∧ s.bit (F.HDR.INT_ROUTE.INBAND pgTIME) = false ∧ s.bit (F.HDR.INT_ROUTE.INBAND pgTICK) = false
      ∧ (((List.range 64).all fun q => !s.bit (F.HDR.INT_ROUTE.INBAND (pgQ q))) = true) ∧ s.servo.sched = some (bd, e)
      ∧ 0 ≤ ((bd * nsPerSec : Nat) : Int) - e ∧ ((bd * nsPerSec : Nat) : Int) - e < (2 ^ 48 * nsPerSec : Nat) ∧ s.nowNs ≤ bd * nsPerSec
      ∧ s.fld F.TIME.FREQ_ADJ.ADJ = 0 ∧ s.tickCommitDue bd = false)
    ∧ (∃ (s : State) (bd : Nat) (e : Int) (q : Fin 64), s.quiet = true ∧ s.leads = true ∧ s.mirrored = false
      ∧ s.bit (F.HDR.INT_ROUTE.INBAND pgTIME) = false ∧ s.bit (F.HDR.INT_ROUTE.INBAND pgTICK) = false
      ∧ (((List.range 64).all fun q => !s.bit (F.HDR.INT_ROUTE.INBAND (pgQ q))) = true) ∧ s.servo.sched = some (bd, e)
      ∧ 0 ≤ ((bd * nsPerSec : Nat) : Int) - e ∧ ((bd * nsPerSec : Nat) : Int) - e < (2 ^ 48 * nsPerSec : Nat) ∧ s.nowNs ≤ bd * nsPerSec
      ∧ s.fld F.TIME.FREQ_ADJ.ADJ = 0 ∧ s.tickCommitDue bd = false ∧ (((List.range 512).all fun c => (s.getChan c).pkt.isNone) = true)
      ∧ (((List.range 64).all fun q => decide ((s.getQ q).wp = (s.getQ q).wp2) && decide ((s.getQ q).rp = (s.getQ q).rp2)) = true)
      ∧ s.qOpen q.val = true ∧ (s.getQ q.val).pend = {} ∧ (s.getQ q.val).held = 0 ∧ 5 + 2 ≤ s.qFree q.val)
    ∧ (∃ (s : State), s.quiet = true ∧ s.leads = true ∧ s.mirrored = false ∧ s.bit (F.HDR.INT_ROUTE.INBAND pgTIME) = false
      ∧ s.bit (F.HDR.INT_ROUTE.INBAND pgTICK) = false ∧ (((List.range 64).all fun q => !s.bit (F.HDR.INT_ROUTE.INBAND (pgQ q))) = true)
      ∧ s.tickCommitDue s.nextSecond = true ∧ s.stepAt s.nextSecond = false
      ∧ (s.stg F.TICK.TICK_PERIOD.PERIOD.addr ≠ s.reg F.TICK.TICK_PERIOD.PERIOD.addr)
      ∧ s.stg F.TICK.TICK_PERIOD.PERIOD.addr &&& 0xFFF00000#32 = 0#32 ∧ s.reg F.TICK.TICK_PERIOD.PERIOD.addr &&& 0xFFF00000#32 = 0#32)
    ∧ (∃ (s : State), s.quiet = true ∧ s.leads = true ∧ s.mirrored = false ∧ s.bit (F.HDR.INT_ROUTE.INBAND pgTIME) = false
      ∧ s.bit (F.HDR.INT_ROUTE.INBAND pgTICK) = false ∧ (((List.range 64).all fun q => !s.bit (F.HDR.INT_ROUTE.INBAND (pgQ q))) = true)
      ∧ (s.tickCommitDue s.nextSecond = false ∨ s.stepAt s.nextSecond = true)) := by
  refine ⟨?_, ?_, ?_, ?_, ?_, ?_, ?_, ?_⟩
  · exact ⟨(let b : State := {}; let b : State := ((b.setFld F.PAIR.PAIR_STS.ROLE 0).setBit (F.HDR.INT_ROUTE.INBAND pgTIME) false).setBit (F.HDR.INT_ROUTE.INBAND pgTICK) false; let b : State := (List.range 64).foldl (fun b r => (b.setBit (F.Q.Q_CFG.EN r) false).setBit (F.HDR.INT_ROUTE.INBAND (pgQ r)) false) b; { b.setBit F.WALE.WALE_STS.TK_ACTIVE false with commits := [], servo := { b.servo with sched := none }, queue := [] }), by decide +kernel⟩
  · exact ⟨(let b : State := {}; let b : State := ((b.setFld F.PAIR.PAIR_STS.ROLE 0).setBit (F.HDR.INT_ROUTE.INBAND pgTIME) false).setBit (F.HDR.INT_ROUTE.INBAND pgTICK) false; let b : State := (List.range 64).foldl (fun b r => (b.setBit (F.Q.Q_CFG.EN r) false).setBit (F.HDR.INT_ROUTE.INBAND (pgQ r)) false) b; let q : Nat := 5 + 0 % 3; let b : State := (b.setBit (F.Q.Q_CFG.EN q) true).setFld (F.Q.Q_CFG.SIZE_LOG2 q) (6 + 0 % 4); let b : State := { b with queue := [] }; let b : State := b.setQ q { wp := 60 + 0 % 4, wp2 := 60 + 0 % 4, rp := 60 + 0 % 4, rp2 := 60 + 0 % 4 }; { b with commits := [], servo := { b.servo with sched := none } }), Fin.ofNat 64 (5 + 0 % 3), by decide +kernel⟩
  · exact ⟨(let b : State := {}; let b : State := ((b.setFld F.PAIR.PAIR_STS.ROLE 0).setBit (F.HDR.INT_ROUTE.INBAND pgTIME) false).setBit (F.HDR.INT_ROUTE.INBAND pgTICK) false; let b : State := (List.range 64).foldl (fun b r => (b.setBit (F.Q.Q_CFG.EN r) false).setBit (F.HDR.INT_ROUTE.INBAND (pgQ r)) false) b; let q : Nat := 5 + 0 % 3; let b : State := (b.setBit (F.Q.Q_CFG.EN q) true).setFld (F.Q.Q_CFG.SIZE_LOG2 q) (6 + 0 % 4); let b : State := { b with queue := [] }; let b : State := b.setQ q { wp := 60 + 0 % 4, wp2 := 60 + 0 % 4, rp := 60 + 0 % 4, rp2 := 60 + 0 % 4 }; let b : State := b.setBit (F.Q.Q_CFG.EN 9) true; { b with commits := [], servo := { b.servo with sched := none } }), Fin.ofNat 64 (5 + 0 % 3), by decide +kernel⟩
  · exact ⟨(let b : State := {}; let b : State := ((b.setFld F.PAIR.PAIR_STS.ROLE 0).setBit (F.HDR.INT_ROUTE.INBAND pgTIME) false).setBit (F.HDR.INT_ROUTE.INBAND pgTICK) false; let b : State := { b with commits := [], servo := { b.servo with sched := none }, wale := { b.wale with driving := [] } }; (b.setBit F.WALE.WALE_STS.TK_ACTIVE true).setBit (F.HDR.INT_ROUTE.INBAND pgWALE) false), by decide +kernel⟩
  · exact ⟨(let b : State := {}; let b : State := ((b.setFld F.PAIR.PAIR_STS.ROLE 0).setBit (F.HDR.INT_ROUTE.INBAND pgTIME) false).setBit (F.HDR.INT_ROUTE.INBAND pgTICK) false; (b.setFld F.TIME.FREQ_ADJ.ADJ 0) |> fun b => ({ b with commits := [], servo := { b.servo with sched := some (b.time.sec + 1, ((1 : Int)) * (100 + 2 * (0 : Int))) } } : State)), (let b : State := {}; let b : State := ((b.setFld F.PAIR.PAIR_STS.ROLE 0).setBit (F.HDR.INT_ROUTE.INBAND pgTIME) false).setBit (F.HDR.INT_ROUTE.INBAND pgTICK) false; b.time.sec + 1), ((1 : Int)) * (100 + 2 * (0 : Int)), by decide +kernel⟩
  · exact ⟨(let b : State := {}; let b : State := ((b.setFld F.PAIR.PAIR_STS.ROLE 0).setBit (F.HDR.INT_ROUTE.INBAND pgTIME) false).setBit (F.HDR.INT_ROUTE.INBAND pgTICK) false; let b : State := (List.range 64).foldl (fun b r => (b.setBit (F.Q.Q_CFG.EN r) false).setBit (F.HDR.INT_ROUTE.INBAND (pgQ r)) false) b; let q : Nat := 5 + 0 % 3; let b : State := (b.setBit (F.Q.Q_CFG.EN q) true).setFld (F.Q.Q_CFG.SIZE_LOG2 q) (6 + 0 % 4); let b : State := { b with queue := [] }; let b : State := b.setQ q { wp := 60 + 0 % 4, wp2 := 60 + 0 % 4, rp := 60 + 0 % 4, rp2 := 60 + 0 % 4 }; let b : State := (List.range 512).foldl (fun b c => if (b.getChan c).pkt.isSome then b.modChan c (fun x => { x with pkt := none }) else b) b; (b.setFld F.TIME.FREQ_ADJ.ADJ 0) |> fun b => ({ b with commits := [], servo := { b.servo with sched := some (b.time.sec + 1, ((1 : Int)) * (100 + 2 * (0 : Int))) } } : State)), (let b : State := {}; let b : State := ((b.setFld F.PAIR.PAIR_STS.ROLE 0).setBit (F.HDR.INT_ROUTE.INBAND pgTIME) false).setBit (F.HDR.INT_ROUTE.INBAND pgTICK) false; b.time.sec + 1), ((1 : Int)) * (100 + 2 * (0 : Int)), Fin.ofNat 64 (5 + 0 % 3), by decide +kernel⟩
  · exact ⟨(let b : State := {}; let b : State := ((b.setFld F.PAIR.PAIR_STS.ROLE 0).setBit (F.HDR.INT_ROUTE.INBAND pgTIME) false).setBit (F.HDR.INT_ROUTE.INBAND pgTICK) false; let b : State := { b with commits := [{ page := pgTICK }] }; { (b.setFld F.TICK.TICK_PERIOD.PERIOD (10000 + 0)).setStg F.TICK.TICK_PERIOD.PERIOD.addr (BitVec.ofNat 32 (20000 + 0)) with servo := { b.servo with sched := none } }), by decide +kernel⟩
  · exact ⟨(let b : State := {}; let b : State := ((b.setFld F.PAIR.PAIR_STS.ROLE 0).setBit (F.HDR.INT_ROUTE.INBAND pgTIME) false).setBit (F.HDR.INT_ROUTE.INBAND pgTICK) false; { b with commits := [] }), by decide +kernel⟩

/-- The premises of `Obligations.TrimsAndWaleAlignment` are met, clause by clause. -/
theorem test_met_TrimsAndWaleAlignment :
    (∃ (s : State) (x : BitVec 16), s.quiet = true ∧ s.bit (F.HDR.INT_ROUTE.INBAND pgTICK) = false)
    ∧ (∃ (s : State) (x : BitVec 16) (c : Fin 512), s.quiet = true ∧ s.bit (F.HDR.INT_ROUTE.INBAND pgTICK) = false
      ∧ s.bit F.TICK.TRIM_CTL.TEMP_TRACK = false)
    ∧ (∃ (s : State) (arrival : Int), s.quiet = true ∧ s.bit (F.HDR.INT_ROUTE.INBAND pgTICK) = false ∧ s.waleOn = true ∧ s.timekeeper = false
      ∧ arrival.natAbs ≤ 64000 ∧ s.bit F.TICK.TICK_CTL.ALIGN_WALE = true ∧ (arrival - s.lineDly 8).natAbs ≤ 1024)
    ∧ (∃ (s : State) (arrival : Int), s.quiet = true ∧ s.bit (F.HDR.INT_ROUTE.INBAND pgTICK) = false ∧ s.waleOn = true ∧ s.timekeeper = false
      ∧ arrival.natAbs ≤ 64000 ∧ s.bit F.TICK.TICK_CTL.ALIGN_WALE = true ∧ 1024 < (arrival - s.lineDly 8).natAbs)
    ∧ (∃ (s : State) (arrival : Int), s.quiet = true ∧ s.bit (F.HDR.INT_ROUTE.INBAND pgTICK) = false ∧ s.waleOn = true
      ∧ arrival.natAbs ≤ 64000 ∧ (s.timekeeper = true ∨ s.bit F.TICK.TICK_CTL.ALIGN_WALE = false))
    ∧ (∃ (s : State) (arrival : Int), s.quiet = true ∧ s.bit (F.HDR.INT_ROUTE.INBAND pgTICK) = false
      ∧ (s.waleOn = false ∨ 64000 < arrival.natAbs)) := by
  refine ⟨?_, ?_, ?_, ?_, ?_, ?_⟩
  · exact ⟨(let b : State := {}; let b : State := b.setBit (F.HDR.INT_ROUTE.INBAND pgTICK) false; b), BitVec.ofNat 16 (4157840774), by decide +kernel⟩
  · exact ⟨(let b : State := {}; let b : State := b.setBit (F.HDR.INT_ROUTE.INBAND pgTICK) false; b.setBit F.TICK.TRIM_CTL.TEMP_TRACK false), BitVec.ofNat 16 (4157840774), Fin.ofNat 512 (3844675722), by decide +kernel⟩
  · exact ⟨(let b : State := {}; let b : State := b.setBit (F.HDR.INT_ROUTE.INBAND pgTICK) false; ((b.setBit F.TICK.TICK_CTL.ALIGN_WALE true).setFld F.WALE.WALE_CTL.ROLE 1).setBit F.WALE.WALE_STS.TK_ACTIVE false |>.setFld (F.WALE.LINE_DLY.DLY 8) (100 + 0)), (let b : State := {}; let b : State := b.setBit (F.HDR.INT_ROUTE.INBAND pgTICK) false; let s : State := (((b.setBit F.TICK.TICK_CTL.ALIGN_WALE true).setFld F.WALE.WALE_CTL.ROLE 1).setBit F.WALE.WALE_STS.TK_ACTIVE false |>.setFld (F.WALE.LINE_DLY.DLY 8) (100 + 0)); (1024 - (4157840774 % 2049 : Nat) : Int) + s.lineDly 8), by decide +kernel⟩
  · exact ⟨(let b : State := {}; let b : State := b.setBit (F.HDR.INT_ROUTE.INBAND pgTICK) false; (((({ b with grid := { b.grid with waleFails := 0 % 4 } } : State).setBit F.TICK.TICK_CTL.ALIGN_WALE true).setFld F.WALE.WALE_CTL.ROLE 1).setBit F.WALE.WALE_STS.TK_ACTIVE false)), (let b : State := {}; let b : State := b.setBit (F.HDR.INT_ROUTE.INBAND pgTICK) false; let s : State := ((((({ b with grid := { b.grid with waleFails := 0 % 4 } } : State).setBit F.TICK.TICK_CTL.ALIGN_WALE true).setFld F.WALE.WALE_CTL.ROLE 1).setBit F.WALE.WALE_STS.TK_ACTIVE false)); 1025 + (0 : Int) + s.lineDly 8), by decide +kernel⟩
  · exact ⟨(let b : State := {}; let b : State := b.setBit (F.HDR.INT_ROUTE.INBAND pgTICK) false; ((b.setBit F.TICK.TICK_CTL.ALIGN_WALE (false)).setFld F.WALE.WALE_CTL.ROLE 1).setBit F.WALE.WALE_STS.TK_ACTIVE (false)), 1024 - (4157840774 % 2049 : Nat), by decide +kernel⟩
  · exact ⟨(let b : State := {}; let b : State := b.setBit (F.HDR.INT_ROUTE.INBAND pgTICK) false; b), 64001 + (0 : Int), by decide +kernel⟩

/-- The premises of `Obligations.ExcitationIsRegulatedAndMonitored` are met, clause by clause. -/
theorem test_met_ExcitationIsRegulatedAndMonitored :
    (∃ (g : Fin 32) (s : State) (mean : BitVec 16) (need : Nat), s.quiet = true ∧ s.bit (F.HDR.INT_ROUTE.INBAND (pgFE g.val)) = false
      ∧ s.bit (F.FE.EXC_CTL.REG g.val) = true ∧ s.follows = false ∧ s.awake = true ∧ need ≤ 65535)
    ∧ (∃ (g : Fin 32) (s : State) (mean : BitVec 16) (need : Nat), s.quiet = true ∧ s.bit (F.HDR.INT_ROUTE.INBAND (pgFE g.val)) = false
      ∧ s.bit (F.FE.EXC_CTL.REG g.val) = true ∧ s.follows = false ∧ s.awake = true ∧ 65535 < need)
    ∧ (∃ (g : Fin 32) (s : State) (mean : BitVec 16) (need : Nat), s.quiet = true ∧ s.bit (F.HDR.INT_ROUTE.INBAND (pgFE g.val)) = false
      ∧ (s.bit (F.FE.EXC_CTL.REG g.val) = false ∨ s.follows = true ∨ s.awake = false))
    ∧ (∃ (g : Fin 32) (s : State), s.quiet = true ∧ s.bit (F.HDR.INT_ROUTE.INBAND (pgFE g.val)) = false ∧ s.fld (F.FE.EXC_MIN.MIN g.val) ≠ 0
      ∧ (s.getGroup g.val).excLow = false)
    ∧ (∃ (g : Fin 32) (s : State), s.quiet = true ∧ s.bit (F.HDR.INT_ROUTE.INBAND (pgFE g.val)) = false
      ∧ (s.fld (F.FE.EXC_MIN.MIN g.val) = 0 ∨ (s.getGroup g.val).excLow = true))
    ∧ (∃ (g : Fin 32) (s : State), s.quiet = true ∧ s.bit (F.HDR.INT_ROUTE.INBAND (pgFE g.val)) = false)
    ∧ (∃ (g : Fin 32) (s : State), s.quiet = true ∧ s.bit (F.HDR.INT_ROUTE.INBAND (pgFE g.val)) = false) := by
  refine ⟨?_, ?_, ?_, ?_, ?_, ?_, ?_⟩
  · exact ⟨0, (let b : State := {}; let g : Fin 32 := 0; let b : State := ((b).setBit (F.HDR.INT_ROUTE.INBAND (pgFE g.val)) false); ((b.setBit (F.FE.EXC_CTL.REG g.val) true).setFld F.PAIR.PAIR_STS.ROLE 0).setFld F.NVM.PWR_STS.STATE 1), BitVec.ofNat 16 (3844675722), 3531510670 % 65536, by decide +kernel⟩
  · exact ⟨0, (let b : State := {}; let g : Fin 32 := 0; let b : State := ((b).setBit (F.HDR.INT_ROUTE.INBAND (pgFE g.val)) false); ((b.setBit (F.FE.EXC_CTL.REG g.val) true).setFld F.PAIR.PAIR_STS.ROLE 0).setFld F.NVM.PWR_STS.STATE 1), BitVec.ofNat 16 (3844675722), 3531510670 + 65536, by decide +kernel⟩
  · exact ⟨0, (let b : State := {}; let g : Fin 32 := 0; let b : State := ((b).setBit (F.HDR.INT_ROUTE.INBAND (pgFE g.val)) false); b.setBit (F.FE.EXC_CTL.REG g.val) false), BitVec.ofNat 16 (3844675722), 3531510670, by decide +kernel⟩
  · exact ⟨0, (let b : State := {}; let g : Fin 32 := 0; let b : State := ((b).setBit (F.HDR.INT_ROUTE.INBAND (pgFE g.val)) false); b.setFld (F.FE.EXC_MIN.MIN g.val) (1 + 0)), by decide +kernel⟩
  · exact ⟨0, (let b : State := {}; let g : Fin 32 := 0; let b : State := ((b).setBit (F.HDR.INT_ROUTE.INBAND (pgFE g.val)) false); b.setFld (F.FE.EXC_MIN.MIN g.val) 0), by decide +kernel⟩
  · exact ⟨0, (let b : State := {}; let g : Fin 32 := 0; let b : State := ((b).setBit (F.HDR.INT_ROUTE.INBAND (pgFE g.val)) false); b), by decide +kernel⟩
  · exact ⟨0, (let b : State := {}; let g : Fin 32 := 0; let b : State := ((b).setBit (F.HDR.INT_ROUTE.INBAND (pgFE g.val)) false); b), by decide +kernel⟩

/-- The premises of `Obligations.OverloadAndDischarge` are met, clause by clause. -/
theorem test_met_OverloadAndDischarge :
    (∃ (s : State) (c : Fin 512) (firing : Bool), s.quiet = true)
    ∧ (∃ (s : State) (g : Fin 32) (mask : BitVec 16), s.quiet = true ∧ s.follows = false ∧ s.mirrored = false ∧ s.passRuns g.val = true)
    ∧ (∃ (s : State) (g : Fin 32) (mask : BitVec 16) (c : Fin 512), s.quiet = true ∧ s.leads = true ∧ s.mirrored = false
      ∧ s.passRuns g.val = false ∧ s.commitDue (pgCHTAB g.val) = false ∧ c.val / 16 = g.val ∧ mask.getLsbD (c.val % 16) = true
      ∧ s.fld (F.CH.FE_CFG.MODE c.val) = modeQchg ∧ (s.getChan c.val).swap = none ∧ s.bit (F.CH.FE_STS.AR_LOW c.val) = false)
    ∧ (∃ (s : State) (g : Fin 32) (mask : BitVec 16), s.quiet = true ∧ s.follows = true ∧ s.bit (F.HDR.INT_ROUTE.INBAND (pgPAIR)) = false) := by
  refine ⟨?_, ?_, ?_, ?_⟩
  · exact ⟨(let b : State := {}; b), ⟨4157840774 % 40, by omega⟩, true, by decide +kernel⟩
  · exact ⟨(let b : State := {}; let x : State := (((b.setFld F.PAIR.PAIR_STS.ROLE 0).setFld (F.CH.FE_CFG.MODE 3) modeQchg).setFld (F.CH.FE_CFG.MODE 5) modeQchg); let x := x.modSlice (x.serving 0) fun y => { y with pass := some { tick := ⟨1, 1, 1, 0, 0⟩, group := 0, ops := [] } }; x), 0, BitVec.ofNat 16 (3844675722), by decide +kernel⟩
  · exact ⟨(let b : State := {}; let x : State := (((b.setFld F.PAIR.PAIR_STS.ROLE 0).setFld (F.CH.FE_CFG.MODE 3) modeQchg).setFld (F.CH.FE_CFG.MODE 5) modeQchg); let x := x.modSlice (x.serving 0) fun y => { y with pass := none }; let x := x.modChan 3 fun y => { y with swap := none }; let x := x.setBit (F.CH.FE_STS.AR_LOW 3) false; { x with commits := [] }), 0, BitVec.ofNat 16 (3844675722 ||| 8), 3, by decide +kernel⟩
  · exact ⟨(let b : State := {}; ((b.setFld F.PAIR.PAIR_STS.ROLE (2 + 0 % 2)).setBit (F.HDR.INT_ROUTE.INBAND (pgPAIR)) false)), 0, BitVec.ofNat 16 (3844675722), by decide +kernel⟩

/-- The premises of `Obligations.BlankingIntervals` are met, clause by clause. -/
theorem test_met_BlankingIntervals :
    (∃ (s : State) (n : Fin 4) (level : Bool), s.quiet = true
      ∧ (((List.range 32).all fun g => decide (s.fld (F.FE.BLANK_CTL.SEL g) = 0) && !(s.getGroup g).blank && (s.getGroup g).guardAt.isNone) = true))
    ∧ (∃ (s : State) (n : Fin 4) (level : Bool), s.quiet = true
      ∧ (((List.range 32).all fun g => !s.bit (F.HDR.INT_ROUTE.INBAND (pgFE g))) = true))
    ∧ (∃ (s : State) (n : Fin 4) (g : Fin 32), s.quiet = true
      ∧ (((List.range 32).all fun g => !s.bit (F.HDR.INT_ROUTE.INBAND (pgFE g))) = true)
      ∧ (s.fld (F.FE.BLANK_CTL.SEL g.val)).testBit n.val = true ∧ (s.getGroup g.val).blank = false)
    ∧ (∃ (s : State) (n : Fin 4) (g : Fin 32), s.quiet = true
      ∧ (((List.range 32).all fun g => !s.bit (F.HDR.INT_ROUTE.INBAND (pgFE g))) = true)
      ∧ BitVec.ofNat 4 (s.fld (F.FE.BLANK_CTL.SEL g.val)) &&& ~~~ (s.pins.blankN ||| BitVec.ofNat 4 (2 ^ n.val)) = 0#4
      ∧ (s.getGroup g.val).blank = true ∧ (s.getGroup g.val).guardAt = none ∧ s.fld (F.FE.BLANK_CTL.GUARD g.val) ≠ 0)
    ∧ (∃ (s : State) (g : Fin 32) (v : Reg), s.quiet = true ∧ s.bit (F.HDR.INT_ROUTE.INBAND (pgFE g.val)) = false
      ∧ (s.getGroup g.val).blank = false ∧ BitVec.ofNat 4 (getBits v 0 4) &&& ~~~ s.pins.blankN ≠ 0#4)
    ∧ (∃ (s : State) (g : Fin 32) (v : Reg), s.quiet = true ∧ s.bit (F.HDR.INT_ROUTE.INBAND (pgFE g.val)) = false
      ∧ (s.getGroup g.val).blank = true ∧ (s.getGroup g.val).guardAt = none ∧ BitVec.ofNat 4 (getBits v 0 4) &&& ~~~ s.pins.blankN = 0#4
      ∧ getBits v 16 10 ≠ 0)
    ∧ (∃ (s : State) (g : Fin 32) (v : Reg), s.quiet = true ∧ (s.getGroup g.val).blank = false ∧ (s.getGroup g.val).guardAt = none
      ∧ BitVec.ofNat 4 (getBits v 0 4) &&& ~~~ s.pins.blankN = 0#4)
    ∧ (∃ (s : State) (g : Fin 32) (c0 : Nat), s.quiet = true ∧ s.bit (F.HDR.INT_ROUTE.INBAND (pgFE g.val)) = false
      ∧ (s.getGroup g.val).guardAt = some c0) := by
  refine ⟨?_, ?_, ?_, ?_, ?_, ?_, ?_, ?_⟩
  · exact ⟨(let b : State := {}; ((b.setFld (F.FE.BLANK_CTL.SEL 0) 0).setFld (F.FE.BLANK_CTL.SEL 1) 0).setFld (F.FE.BLANK_CTL.SEL 31) 0), 1, true, by decide +kernel⟩
  · exact ⟨(let b : State := {}; ((((((b).setBit (F.HDR.INT_ROUTE.INBAND (pgFE 0)) false)).setBit (F.HDR.INT_ROUTE.INBAND (pgFE 1)) false)).setBit (F.HDR.INT_ROUTE.INBAND (pgFE 31)) false)), 1, true, by decide +kernel⟩
  · exact ⟨(let b : State := {}; let g : Fin 32 := 0; let b : State := ((((((b).setBit (F.HDR.INT_ROUTE.INBAND (pgFE 0)) false)).setBit (F.HDR.INT_ROUTE.INBAND (pgFE 1)) false)).setBit (F.HDR.INT_ROUTE.INBAND (pgFE 31)) false); let b : State := b.modGroup g.val (fun x => { x with blank := false }); b.setFld (F.FE.BLANK_CTL.SEL g.val) 10), 1, 0, by decide +kernel⟩
  · exact ⟨(let b : State := {}; let g : Fin 32 := 0; let b : State := ((((((b).setBit (F.HDR.INT_ROUTE.INBAND (pgFE 0)) false)).setBit (F.HDR.INT_ROUTE.INBAND (pgFE 1)) false)).setBit (F.HDR.INT_ROUTE.INBAND (pgFE 31)) false); let b : State := b.modGroup g.val (fun x => { x with blank := true, guardAt := none }); (b.setFld (F.FE.BLANK_CTL.SEL g.val) (2)).setFld (F.FE.BLANK_CTL.GUARD g.val) 7), 1, 0, by decide +kernel⟩
  · exact ⟨(let b : State := {}; let g : Fin 32 := 0; (({ b with pins := { b.pins with blankN := 0xD } }).setBit (F.HDR.INT_ROUTE.INBAND (pgFE g.val)) false)), 0, BitVec.ofNat 32 (4157840774 ||| 2), by decide +kernel⟩
  · exact ⟨(let b : State := {}; let g : Fin 32 := 0; (((b).setBit (F.HDR.INT_ROUTE.INBAND (pgFE g.val)) false)).modGroup g.val fun x => { x with blank := true, guardAt := none }), 0, BitVec.ofNat 32 (4157840774 / 16 * 16 ||| 0x10000), by decide +kernel⟩
  · exact ⟨(let b : State := {}; let g : Fin 32 := 0; b.modGroup g.val fun x => { x with blank := false, guardAt := none }), 0, BitVec.ofNat 32 (4157840774 / 16 * 16), by decide +kernel⟩
  · exact ⟨(let b : State := {}; let g : Fin 32 := 0; ((b.modGroup g.val fun x => { x with guardAt := some 12, blank := true }).setBit (F.HDR.INT_ROUTE.INBAND (pgFE g.val)) false)), 0, 12, by decide +kernel⟩

/-- The premises of `Obligations.PassesConvertAndWait` are met, clause by clause. -/
theorem test_met_PassesConvertAndWait :
    (∃ (s : State) (sl : Fin 34) (p : Pass) (d : Nat) (o : Option (Nat × Bool)), s.quiet = true ∧ (s.getSlice sl.val).pass = some p
      ∧ s.stalledAt (pgSLICE sl.val) = false ∧ s.bit (F.HDR.INT_ROUTE.INBAND (pgSLICE sl.val)) = false ∧ p.ops = [.wait d o])
    ∧ (∃ (s : State) (sl : Fin 34) (p : Pass) (d : Nat) (o : Option (Nat × Bool)) (l : Nat) (j : Nat) (rest : List PassOp), s.quiet = true
      ∧ (s.getSlice sl.val).pass = some p ∧ s.stalledAt (pgSLICE sl.val) = false ∧ s.bit (F.HDR.INT_ROUTE.INBAND (pgSLICE sl.val)) = false
      ∧ p.ops = .wait d o :: .conv l false j :: rest ∧ p.skipped = false ∧ s.chEnabled (16 * p.group + l) = true)
    ∧ (∃ (s : State) (sl : Fin 34) (p : Pass) (r : ConvIn) (l : Nat) (j : Nat), s.quiet = true ∧ (s.getSlice sl.val).pass = some p
      ∧ s.stalledAt (pgSLICE sl.val) = false ∧ s.bit (F.HDR.INT_ROUTE.INBAND (pgSLICE sl.val)) = false ∧ p.ops = [.conv l false j]
      ∧ s.leads = true ∧ s.produces p.tick.idx = true ∧ s.pair.subBefore ≤ p.tick.idx ∧ s.cal.dwell = none ∧ p.group < 32 ∧ l < 16
      ∧ p.tick.bad.getLsbD p.group = false ∧ r.cmFail = false ∧ s.excApplies (16 * p.group + l) = false
      ∧ s.bit (F.CH.FE_STS.OPN_ACTIVE (16 * p.group + l)) = false ∧ s.bit (F.CH.FE_STS.AR_LOW (16 * p.group + l)) = false
      ∧ s.bit (F.CH.FE_CFG.AR_EN (16 * p.group + l)) = false ∧ s.avgN (16 * p.group + l) = 1 ∧ (s.getChan (16 * p.group + l)).win.cnt = 0
      ∧ (s.getChan (16 * p.group + l)).win.sum = 0 ∧ (s.getChan (16 * p.group + l)).win.fl = {})
    ∧ (∃ (s : State) (sl : Fin 34) (p : Pass) (r : ConvIn) (l : Nat) (j : Nat), s.quiet = true ∧ (s.getSlice sl.val).pass = some p
      ∧ s.stalledAt (pgSLICE sl.val) = false ∧ s.bit (F.HDR.INT_ROUTE.INBAND (pgSLICE sl.val)) = false ∧ p.ops = [.conv l false j]
      ∧ s.leads = true ∧ s.produces p.tick.idx = true ∧ s.pair.subBefore ≤ p.tick.idx ∧ s.cal.dwell = none ∧ p.group < 32 ∧ l < 16
      ∧ p.tick.bad.getLsbD p.group = false ∧ r.cmFail = false ∧ s.excApplies (16 * p.group + l) = false
      ∧ s.bit (F.CH.FE_STS.OPN_ACTIVE (16 * p.group + l)) = false ∧ s.bit (F.CH.FE_STS.AR_LOW (16 * p.group + l)) = false
      ∧ s.bit (F.CH.FE_CFG.AR_EN (16 * p.group + l)) = false ∧ s.avgAlign (16 * p.group + l) = false
      ∧ (s.getChan (16 * p.group + l)).win.cnt + 1 < s.avgN (16 * p.group + l))
    ∧ (∃ (s : State) (sl : Fin 34) (p : Pass) (r : ConvIn) (l : Nat) (j : Nat), s.quiet = true ∧ (s.getSlice sl.val).pass = some p
      ∧ s.stalledAt (pgSLICE sl.val) = false ∧ s.bit (F.HDR.INT_ROUTE.INBAND (pgSLICE sl.val)) = false ∧ p.ops = [.conv l false j]
      ∧ s.leads = true ∧ s.produces p.tick.idx = true ∧ s.pair.subBefore ≤ p.tick.idx ∧ s.cal.dwell = none ∧ p.group < 32 ∧ l < 16
      ∧ p.tick.bad.getLsbD p.group = false ∧ r.cmFail = true ∧ s.bit (F.CH.FE_STS.OPN_ACTIVE (16 * p.group + l)) = false
      ∧ s.avgN (16 * p.group + l) = 1 ∧ (s.getChan (16 * p.group + l)).win.cnt = 0 ∧ s.bit (F.HDR.INT_ROUTE.INBAND (pgFE p.group)) = false)
    ∧ (∃ (s : State) (sl : Fin 34) (p : Pass) (r : ConvIn) (l : Nat) (j : Nat), s.quiet = true ∧ (s.getSlice sl.val).pass = some p
      ∧ s.stalledAt (pgSLICE sl.val) = false ∧ s.bit (F.HDR.INT_ROUTE.INBAND (pgSLICE sl.val)) = false ∧ p.ops = [.conv l false j]
      ∧ s.leads = true ∧ s.produces p.tick.idx = true ∧ s.pair.subBefore ≤ p.tick.idx ∧ s.cal.dwell = none ∧ p.group < 32 ∧ l < 16
      ∧ p.tick.bad.getLsbD p.group = true ∧ s.avgN (16 * p.group + l) = 1 ∧ (s.getChan (16 * p.group + l)).win.cnt = 0
      ∧ (s.getChan (16 * p.group + l)).win.sum = 0)
    ∧ (∃ (s : State) (sl : Fin 34) (p : Pass) (r : ConvIn) (l : Nat) (j : Nat), s.quiet = true ∧ (s.getSlice sl.val).pass = some p
      ∧ s.stalledAt (pgSLICE sl.val) = false ∧ s.bit (F.HDR.INT_ROUTE.INBAND (pgSLICE sl.val)) = false ∧ p.ops = [.conv l true j] ∧ l < 16
      ∧ s.cal.dwell = none)
    ∧ (∃ (s : State) (sl : Fin 34) (p : Pass) (r : ConvIn) (l : Nat) (j : Nat), s.quiet = true ∧ (s.getSlice sl.val).pass = some p
      ∧ s.stalledAt (pgSLICE sl.val) = false ∧ s.bit (F.HDR.INT_ROUTE.INBAND (pgSLICE sl.val)) = false ∧ p.ops = [.conv l false j]
      ∧ s.cal.dwell = none ∧ p.tick.bad.getLsbD p.group = false ∧ s.follows = true ∧ s.pair.mirr = [] ∧ r.cmFail = false
      ∧ s.excApplies (16 * p.group + l) = false ∧ s.bit (F.CH.FE_STS.OPN_ACTIVE (16 * p.group + l)) = false ∧ p.group < 32 ∧ l < 16) := by
  refine ⟨?_, ?_, ?_, ?_, ?_, ?_, ?_, ?_⟩
  · exact ⟨(let b : State := {}; let sl : Fin 34 := 0; let x : State := ((b).setBit (F.HDR.INT_ROUTE.INBAND (pgSLICE sl.val)) false); let x : State := x.modSlice sl.val fun y => { y with pass := some ({ tick := ⟨77 + 0, 77, 5, 0, 0⟩, group := 1, ops := [.wait 5 none] }) }; x), 0, { tick := ⟨77 + 0, 77, 5, 0, 0⟩, group := 1, ops := [.wait 5 none] }, 5, none, by decide +kernel⟩
  · exact ⟨(let b : State := {}; (let sl : Fin 34 := 0; let x : State := ((b).setBit (F.HDR.INT_ROUTE.INBAND (pgSLICE sl.val)) false); let x : State := x.modSlice sl.val fun y => { y with pass := some ({ tick := ⟨77 + 0, 77, 5, 0, 0⟩, group := 1, ops := [.wait 5 none, .conv 3 false 7, .wait 9 none] }) }; x) |>.setFld (F.CH.FE_CFG.MODE 19) 1), 0, { tick := ⟨77 + 0, 77, 5, 0, 0⟩, group := 1, ops := [.wait 5 none, .conv 3 false 7, .wait 9 none] }, 5, none, 3, 7, [.wait 9 none], by decide +kernel⟩
  · exact ⟨(let b : State := {}; let x : State := (let sl : Fin 34 := 0; let x : State := ((b).setBit (F.HDR.INT_ROUTE.INBAND (pgSLICE sl.val)) false); let x : State := x.modSlice sl.val fun y => { y with pass := some ({ tick := ⟨77 + 0, 77, 5, 0, 0⟩, group := 1, ops := [.conv 3 false 7] }) }; x) |>.setFld F.PAIR.PAIR_STS.ROLE 0 |>.setFld (F.CH.FE_CFG.MODE 19) 1 |>.setBit (F.CH.FE_CFG.EXC_CHECK 19) false |>.setBit (F.CH.FE_CFG.AR_EN 19) false |>.setBit (F.CH.FE_STS.OPN_ACTIVE 19) false |>.setBit (F.CH.FE_STS.AR_LOW 19) false |>.setFld (F.CH.AVG_CFG.N_M1 19) 0 |>.setBit (F.CH.AVG_CFG.AVG_ALIGN 19) false; let x : State := x.modChan 19 (fun h => { h with win := {} }); { x with cal := { x.cal with dwell := none }, pair := { x.pair with yst := .none, subBefore := 0 } }), 0, { tick := ⟨77 + 0, 77, 5, 0, 0⟩, group := 1, ops := [.conv 3 false 7] }, { raw := BitVec.ofNat 24 (3844675722), ns := 400 + 0, cmFail := false, excFail := false, duty := none, idle := none }, 3, 7, by decide +kernel⟩
  · exact ⟨(let b : State := {}; let x : State := (let sl : Fin 34 := 0; let x : State := ((b).setBit (F.HDR.INT_ROUTE.INBAND (pgSLICE sl.val)) false); let x : State := x.modSlice sl.val fun y => { y with pass := some ({ tick := ⟨77 + 0, 77, 5, 0, 0⟩, group := 1, ops := [.conv 3 false 7] }) }; x) |>.setFld F.PAIR.PAIR_STS.ROLE 0 |>.setFld (F.CH.FE_CFG.MODE 19) 1 |>.setBit (F.CH.FE_CFG.EXC_CHECK 19) false |>.setBit (F.CH.FE_CFG.AR_EN 19) false |>.setBit (F.CH.FE_STS.OPN_ACTIVE 19) false |>.setBit (F.CH.FE_STS.AR_LOW 19) false |>.setFld (F.CH.AVG_CFG.N_M1 19) (9 + 0 % 4) |>.setBit (F.CH.AVG_CFG.AVG_ALIGN 19) false; let x : State := x.modChan 19 (fun h => { h with win := { cnt := 2 + 0 % 3, sum := 55 + 0 } }); { x with cal := { x.cal with dwell := none }, pair := { x.pair with yst := .none, subBefore := 0 } }), 0, { tick := ⟨77 + 0, 77, 5, 0, 0⟩, group := 1, ops := [.conv 3 false 7] }, { raw := BitVec.ofNat 24 (3844675722), ns := 400 + 0, cmFail := false, excFail := false, duty := none, idle := none }, 3, 7, by decide +kernel⟩
  · exact ⟨(let b : State := {}; let x : State := (let x : State := (let sl : Fin 34 := 0; let x : State := ((b).setBit (F.HDR.INT_ROUTE.INBAND (pgSLICE sl.val)) false); let x : State := x.modSlice sl.val fun y => { y with pass := some ({ tick := ⟨77 + 0, 77, 5, 0, 0⟩, group := 1, ops := [.conv 3 false 7] }) }; x) |>.setFld F.PAIR.PAIR_STS.ROLE 0 |>.setFld (F.CH.FE_CFG.MODE 19) 1 |>.setBit (F.CH.FE_CFG.EXC_CHECK 19) false |>.setBit (F.CH.FE_CFG.AR_EN 19) false |>.setBit (F.CH.FE_STS.OPN_ACTIVE 19) false |>.setBit (F.CH.FE_STS.AR_LOW 19) false |>.setFld (F.CH.AVG_CFG.N_M1 19) 0 |>.setBit (F.CH.AVG_CFG.AVG_ALIGN 19) false; let x : State := x.modChan 19 (fun h => { h with win := {} }); { x with cal := { x.cal with dwell := none }, pair := { x.pair with yst := .none, subBefore := 0 } }); ((x).setBit (F.HDR.INT_ROUTE.INBAND (pgFE 1)) false)), 0, { tick := ⟨77 + 0, 77, 5, 0, 0⟩, group := 1, ops := [.conv 3 false 7] }, { raw := BitVec.ofNat 24 (3844675722), ns := 400 + 0, cmFail := true, excFail := false, duty := none, idle := none }, 3, 7, by decide +kernel⟩
  · exact ⟨(let b : State := {}; let x : State := (let sl : Fin 34 := 0; let x : State := ((b).setBit (F.HDR.INT_ROUTE.INBAND (pgSLICE sl.val)) false); let x : State := x.modSlice sl.val fun y => { y with pass := some ({ tick := ⟨77 + 0, 77, 5, 2, 0⟩, group := 1, ops := [.conv 3 false 7] }) }; x) |>.setFld F.PAIR.PAIR_STS.ROLE 0 |>.setFld (F.CH.FE_CFG.MODE 19) 1 |>.setBit (F.CH.FE_CFG.EXC_CHECK 19) false |>.setBit (F.CH.FE_CFG.AR_EN 19) false |>.setBit (F.CH.FE_STS.OPN_ACTIVE 19) false |>.setBit (F.CH.FE_STS.AR_LOW 19) false |>.setFld (F.CH.AVG_CFG.N_M1 19) 0 |>.setBit (F.CH.AVG_CFG.AVG_ALIGN 19) false; let x : State := x.modChan 19 (fun h => { h with win := {} }); { x with cal := { x.cal with dwell := none }, pair := { x.pair with yst := .none, subBefore := 0 } }), 0, { tick := ⟨77 + 0, 77, 5, 2, 0⟩, group := 1, ops := [.conv 3 false 7] }, { raw := BitVec.ofNat 24 (3844675722), ns := 400 + 0, cmFail := false, excFail := false, duty := none, idle := none }, 3, 7, by decide +kernel⟩
  · exact ⟨(let b : State := {}; let x : State := (let sl : Fin 34 := 0; let x : State := ((b).setBit (F.HDR.INT_ROUTE.INBAND (pgSLICE sl.val)) false); let x : State := x.modSlice sl.val fun y => { y with pass := some ({ tick := ⟨77 + 0, 77, 5, 0, 0⟩, group := 1, ops := [.conv 3 true 7] }) }; x); { x with cal := { x.cal with dwell := none } }), 0, { tick := ⟨77 + 0, 77, 5, 0, 0⟩, group := 1, ops := [.conv 3 true 7] }, { raw := BitVec.ofNat 24 (3844675722), ns := 400 + 0, cmFail := false, excFail := false, duty := none, idle := none }, 3, 7, by decide +kernel⟩
  · exact ⟨(let b : State := {}; let x : State := (let sl : Fin 34 := 0; let x : State := ((b).setBit (F.HDR.INT_ROUTE.INBAND (pgSLICE sl.val)) false); let x : State := x.modSlice sl.val fun y => { y with pass := some ({ tick := ⟨77 + 0, 77, 5, 0, 0⟩, group := 1, ops := [.conv 3 false 7] }) }; x); { x |>.setFld (F.CH.FE_CFG.MODE 19) 0 |>.setBit (F.CH.FE_CFG.EXC_CHECK 19) false |>.setBit (F.CH.FE_STS.OPN_ACTIVE 19) false |>.setFld F.PAIR.PAIR_STS.ROLE (2 + 0 % 2) with cal := { x.cal with dwell := none }, pair := { x.pair with mirr := [] } }), 0, { tick := ⟨77 + 0, 77, 5, 0, 0⟩, group := 1, ops := [.conv 3 false 7] }, { raw := BitVec.ofNat 24 (3844675722), ns := 400 + 0, cmFail := false, excFail := false, duty := none, idle := none }, 3, 7, by decide +kernel⟩

/-- The premises of `Obligations.PassesEndAndTimeOut` are met, clause by clause. -/
theorem test_met_PassesEndAndTimeOut :
    (∃ (s : State) (sl : Fin 34) (p : Pass), s.quiet = true ∧ (s.getSlice sl.val).pass = some p ∧ s.stalledAt (pgSLICE sl.val) = false
      ∧ s.bit (F.HDR.INT_ROUTE.INBAND (pgSLICE sl.val)) = false ∧ p.ops = [])
    ∧ (∃ (s : State) (sl : Fin 34) (p : Pass), s.quiet = true ∧ (s.getSlice sl.val).pass = some p ∧ s.stalledAt (pgSLICE sl.val) = false
      ∧ s.bit (F.HDR.INT_ROUTE.INBAND (pgSLICE sl.val)) = false ∧ p.ops = [] ∧ (s.getSlice sl.val).later = [] ∧ s.leads = true
      ∧ s.mirrored = false ∧ p.group < 32 ∧ s.serving p.group = sl.val)
    ∧ (∃ (s : State) (sl : Fin 34) (p : Pass), s.quiet = true ∧ (s.getSlice sl.val).pass = some p ∧ s.stalledAt (pgSLICE sl.val) = false
      ∧ s.bit (F.HDR.INT_ROUTE.INBAND (pgSLICE sl.val)) = false ∧ p.ops = [] ∧ (s.getSlice sl.val).later = [] ∧ s.leads = true
      ∧ s.mirrored = false ∧ p.group < 32 ∧ s.serving p.group = sl.val ∧ s.commitDue (pgCHTAB p.group) = true
      ∧ s.commitDue (pgSLICE p.group) = true)
    ∧ (∃ (s : State) (sl : Fin 34) (p : Pass) (x : Pass) (rest : List Pass), s.quiet = true ∧ (s.getSlice sl.val).pass = some p
      ∧ s.stalledAt (pgSLICE sl.val) = false ∧ s.bit (F.HDR.INT_ROUTE.INBAND (pgSLICE sl.val)) = false ∧ p.ops = []
      ∧ (s.getSlice sl.val).later = x :: rest ∧ (s.getSlice sl.val).swapDue = false
      ∧ (x.ops.head?.map (fun o => (s.opSkipped x o).1) = some false) ∧ s.commits = [] ∧ s.follows = false)
    ∧ (∃ (s : State) (sl : Fin 34), s.quiet = true ∧ ((s.getSlice sl.val).pass.all (fun p => !p.ops.isEmpty) = true))
    ∧ (∃ (s : State) (sl : Fin 34) (p : Pass) (l : Nat) (j : Nat) (live : Bool) (rest : List PassOp), s.quiet = true
      ∧ (s.getSlice sl.val).pass = some p ∧ s.stalledAt (pgSLICE sl.val) = false ∧ s.bit (F.HDR.INT_ROUTE.INBAND (pgSLICE sl.val)) = false
      ∧ p.ops = .conv l live j :: rest)
    ∧ (∃ (s : State) (sl : Fin 34) (p : Pass) (l : Nat) (j : Nat) (live : Bool), s.quiet = true ∧ (s.getSlice sl.val).pass = some p
      ∧ s.stalledAt (pgSLICE sl.val) = false ∧ s.bit (F.HDR.INT_ROUTE.INBAND (pgSLICE sl.val)) = false ∧ p.ops = [.conv l live j]
      ∧ (s.getSlice sl.val).later = [] ∧ s.leads = true ∧ s.mirrored = false ∧ p.group < 32 ∧ s.serving p.group = sl.val ∧ s.rotates = false
      ∧ s.produces p.tick.idx = true ∧ l < 16)
    ∧ (∃ (s : State) (sl : Fin 34) (p : Pass) (l : Nat) (j : Nat), s.quiet = true ∧ (s.getSlice sl.val).pass = some p
      ∧ s.stalledAt (pgSLICE sl.val) = false ∧ s.bit (F.HDR.INT_ROUTE.INBAND (pgSLICE sl.val)) = false ∧ p.ops = [.conv l false j]
      ∧ (s.getSlice sl.val).later = [] ∧ s.leads = true ∧ s.mirrored = false ∧ p.group < 32 ∧ s.serving p.group = sl.val ∧ s.rotates = false
      ∧ s.produces p.tick.idx = true ∧ l < 16 ∧ s.chEnabled (16 * p.group + l) = true ∧ s.avgN (16 * p.group + l) = 1
      ∧ (s.getChan (16 * p.group + l)).win.cnt = 0 ∧ s.commits = [] ∧ (s.getGroup p.group).closeDue = false)
    ∧ (∃ (s : State) (sl : Fin 34) (i : Nat), s.quiet = true ∧ (s.getSlice sl.val).pass = none ∧ s.shadowTick sl.val = some i
      ∧ s.stalledAt (pgSLICE sl.val) = false) := by
  refine ⟨?_, ?_, ?_, ?_, ?_, ?_, ?_, ?_, ?_⟩
  · exact ⟨(let b : State := {}; let sl : Fin 34 := 0; let x : State := ((b).setBit (F.HDR.INT_ROUTE.INBAND (pgSLICE sl.val)) false); let x : State := x.modSlice sl.val fun y => { y with pass := some ({ tick := ⟨77 + 0, 77, 5, 0, 0⟩, group := 1, ops := [] }) }; x), 0, { tick := ⟨77 + 0, 77, 5, 0, 0⟩, group := 1, ops := [] }, by decide +kernel⟩
  · exact ⟨(let b : State := {}; let sl : Fin 34 := 1; let x : State := (let sl : Fin 34 := 1; let x : State := ((b).setBit (F.HDR.INT_ROUTE.INBAND (pgSLICE sl.val)) false); let x : State := x.modSlice sl.val fun y => { y with pass := some ({ tick := ⟨77 + 0, 77, 5, 0, 0⟩, group := 1, ops := [] }) }; x); let x : State := (x.setFld F.PAIR.PAIR_STS.ROLE 0); let x : State := x.modSlice sl.val (fun y => { y with later := [], swapDue := false }); let x : State := { x with regs := x.regs.filter (fun e => !(decide (0x7000 ≤ e.1) && decide (e.1 < 0x8000))) }; { x with commits := [], cal := { x.cal with dwell := none } }), 1, { tick := ⟨77 + 0, 77, 5, 0, 0⟩, group := 1, ops := [] }, by decide +kernel⟩
  · exact ⟨(let b : State := {}; let x : State := (let sl : Fin 34 := 1; let x : State := (let sl : Fin 34 := 1; let x : State := ((b).setBit (F.HDR.INT_ROUTE.INBAND (pgSLICE sl.val)) false); let x : State := x.modSlice sl.val fun y => { y with pass := some ({ tick := ⟨77 + 0, 77, 5, 0, 0⟩, group := 1, ops := [] }) }; x); let x : State := (x.setFld F.PAIR.PAIR_STS.ROLE 0); let x : State := x.modSlice sl.val (fun y => { y with later := [], swapDue := false }); let x : State := { x with regs := x.regs.filter (fun e => !(decide (0x7000 ≤ e.1) && decide (e.1 < 0x8000))) }; { x with commits := [{ page := pgCHTAB 1 }, { page := pgSLICE 1 }], cal := { x.cal with dwell := none } }); (x.setStg (F.CH.AVG_CFG.N_M1 17).addr 5#32).setStg (F.SLICE.SLICE_CTL.ACT_BANK 1).addr (BitVec.ofNat 32 (0 % 2))), 1, { tick := ⟨77 + 0, 77, 5, 0, 0⟩, group := 1, ops := [] }, by decide +kernel⟩
  · exact ⟨(let b : State := {}; let sl : Fin 34 := 0; let x : State := (let sl : Fin 34 := 0; let x : State := ((b).setBit (F.HDR.INT_ROUTE.INBAND (pgSLICE sl.val)) false); let x : State := x.modSlice sl.val fun y => { y with pass := some ({ tick := ⟨77 + 0, 77, 5, 0, 0⟩, group := 1, ops := [] }) }; x); let x : State := x.modSlice sl.val (fun y => { y with later := [{ tick := ⟨77 + 0, 77, 5, 0, 0⟩, group := 1, ops := [.wait 5 none] }], swapDue := false }); { x.setFld F.PAIR.PAIR_STS.ROLE 0 with commits := [] }), 0, { tick := ⟨77 + 0, 77, 5, 0, 0⟩, group := 1, ops := [] }, { tick := ⟨77 + 0, 77, 5, 0, 0⟩, group := 1, ops := [.wait 5 none] }, [], by decide +kernel⟩
  · exact ⟨(let b : State := {}; let sl : Fin 34 := 0; b.modSlice sl.val fun x => { x with pass := none}), 0, by decide +kernel⟩
  · exact ⟨(let b : State := {}; let sl : Fin 34 := 0; let x : State := ((b).setBit (F.HDR.INT_ROUTE.INBAND (pgSLICE sl.val)) false); let x : State := x.modSlice sl.val fun y => { y with pass := some ({ tick := ⟨77 + 0, 77, 5, 0, 0⟩, group := 1, ops := [.conv 3 true 7] }) }; x), 0, { tick := ⟨77 + 0, 77, 5, 0, 0⟩, group := 1, ops := [.conv 3 true 7] }, 3, 7, true, [], by decide +kernel⟩
  · exact ⟨(let b : State := {}; let sl : Fin 34 := 1; let x : State := (let sl : Fin 34 := 1; let x : State := ((b).setBit (F.HDR.INT_ROUTE.INBAND (pgSLICE sl.val)) false); let x : State := x.modSlice sl.val fun y => { y with pass := some ({ tick := ⟨77 + 0, 77, 5, 0, 0⟩, group := 1, ops := [.conv 3 true 7] }) }; x); let x : State := (x.setFld F.PAIR.PAIR_STS.ROLE 0); let x : State := x.modSlice sl.val (fun y => { y with later := [], swapDue := false }); let x : State := { x with regs := x.regs.filter (fun e => !(decide (0x7000 ≤ e.1) && decide (e.1 < 0x8000))) }; { x with commits := [], cal := { x.cal with dwell := none } }), 1, { tick := ⟨77 + 0, 77, 5, 0, 0⟩, group := 1, ops := [.conv 3 true 7] }, 3, 7, true, by decide +kernel⟩
  · exact ⟨(let b : State := {}; let x : State := (let sl : Fin 34 := 1; let x : State := (let sl : Fin 34 := 1; let x : State := ((b).setBit (F.HDR.INT_ROUTE.INBAND (pgSLICE sl.val)) false); let x : State := x.modSlice sl.val fun y => { y with pass := some ({ tick := ⟨77 + 0, 77, 5, 0, 0⟩, group := 1, ops := [.conv 3 false 7] }) }; x); let x : State := (x.setFld F.PAIR.PAIR_STS.ROLE 0); let x : State := x.modSlice sl.val (fun y => { y with later := [], swapDue := false }); let x : State := { x with regs := x.regs.filter (fun e => !(decide (0x7000 ≤ e.1) && decide (e.1 < 0x8000))) }; { x with commits := [], cal := { x.cal with dwell := none } }); let x : State := (x.setFld (F.CH.FE_CFG.MODE 19) 1).setFld (F.CH.AVG_CFG.N_M1 19) 0; let x : State := (x.modChan 19 (fun h => { h with win := {} })).modGroup 1 (fun y => { y with closeDue := false }); { x with pair := { x.pair with yst := .none } }), 1, { tick := ⟨77 + 0, 77, 5, 0, 0⟩, group := 1, ops := [.conv 3 false 7] }, 3, 7, by decide +kernel⟩
  · exact ⟨(let b : State := {}; let x : State := b.modSlice 1 fun y => { y with pass := some ({ tick := ⟨77 + 0, 77, 5, 0, 0⟩, group := 1, ops := [.conv 3 false 7] }) }; let x : State := x.modSlice 32 fun y => { y with pass := none, shadowGone := none }; { x with cal := { x.cal with dwell := some { duty := 32, slice := 1, group := 1, idle := none, startedAt := 0 } }, rim := { x.rim with stalled := [] } }), 32, 77 + 0, by decide +kernel⟩

/-- The premises of `Obligations.WeaveAndTableCommits` are met, clause by clause. -/
theorem test_met_WeaveAndTableCommits :
    (∃ (s : State) (sl : Fin 34) (bank : Bool) (e : Fin 256) (v : Reg), s.quiet = true ∧ sl.val < 32 ∧ s.actBank sl.val = !bank)
    ∧ (∃ (s : State) (sl : Fin 34) (bank : Bool) (e : Fin 256) (v : Reg), s.quiet = true ∧ sl.val < 32 ∧ s.actBank sl.val = bank
      ∧ s.bit (F.HDR.INT_ROUTE.INBAND (pgSLICE sl.val)) = false)
    ∧ (∃ (s : State) (sl : Fin 34) (bank : Bool) (e : Fin 256) (v : Reg), s.quiet = true ∧ 32 ≤ sl.val)
    ∧ (∃ (s : State) (sl : Fin 34), s.quiet = true ∧ 32 ≤ sl.val ∧ s.commits = [{ page := pgSLICE sl.val }])
    ∧ (∃ (s : State) (sl : Fin 34), s.quiet = true ∧ sl.val < 32 ∧ s.commitDue (pgSLICE sl.val) = true ∧ s.leads = true
      ∧ s.passRuns sl.val = false ∧ s.bit (F.HDR.INT_ROUTE.INBAND (pgSLICE sl.val)) = false)
    ∧ (∃ (s : State) (sl : Fin 34), s.quiet = true ∧ (s.commitDue (pgSLICE sl.val) = false ∨ (sl.val < 32 ∧ s.leads = true
      ∧ s.passRuns sl.val = true)))
    ∧ (∃ (s : State) (g : Fin 32), s.quiet = true ∧ s.commitDue (pgCHTAB g.val) = true ∧ s.follows = false ∧ s.passRuns g.val = false)
    ∧ (∃ (s : State) (g : Fin 32), s.quiet = true ∧ s.commitDue (pgCHTAB g.val) = true ∧ s.leads = true ∧ s.mirrored = false
      ∧ s.passRuns g.val = false)
    ∧ (∃ (s : State) (g : Fin 32), s.quiet = true ∧ (s.commitDue (pgCHTAB g.val) = false ∨ s.follows = true ∨ s.passRuns g.val = true)) := by
  refine ⟨?_, ?_, ?_, ?_, ?_, ?_, ?_, ?_, ?_⟩
  · exact ⟨(let b : State := {}; b), 0, (let b : State := {}; let s : State := (b); !s.actBank (0)), ⟨4157840774 % 256, by omega⟩, BitVec.ofNat 32 (3844675722), by decide +kernel⟩
  · exact ⟨(let b : State := {}; ((((b).setBit (F.HDR.INT_ROUTE.INBAND (pgSLICE 0)) false)).setBit (F.HDR.INT_ROUTE.INBAND (pgSLICE 1)) false)), 0, (let b : State := {}; let s : State := (((((b).setBit (F.HDR.INT_ROUTE.INBAND (pgSLICE 0)) false)).setBit (F.HDR.INT_ROUTE.INBAND (pgSLICE 1)) false)); s.actBank (0)), ⟨4157840774 % 256, by omega⟩, BitVec.ofNat 32 (3844675722), by decide +kernel⟩
  · exact ⟨(let b : State := {}; b), 32, true, ⟨4157840774 % 256, by omega⟩, BitVec.ofNat 32 (3844675722), by decide +kernel⟩
  · exact ⟨(let b : State := {}; { b with commits := [{ page := pgSLICE (32 + 0 % 2) }], staged := [(F.SLICE.SLICE_CTL.ACT_BANK (32 + 0 % 2)).addr].map fun a => (a, 0x5#32) }), 32, by decide +kernel⟩
  · exact ⟨(let b : State := {}; let n : Nat := 0; let x : State := b.modSlice (b.serving n) (fun y => { y with pass := none }); let x : State := ((x).setBit (F.HDR.INT_ROUTE.INBAND (pgSLICE n)) false); { (x.setFld F.PAIR.PAIR_STS.ROLE 0).setStg (F.SLICE.SLICE_CTL.ACT_BANK n).addr (BitVec.ofNat 32 (0 / 2 % 2)) with commits := [{ page := pgSLICE n }] }), 0, by decide +kernel⟩
  · exact ⟨(let b : State := {}; { b with commits := [] }), 0, by decide +kernel⟩
  · exact ⟨(let b : State := {}; { b.setFld F.PAIR.PAIR_STS.ROLE 0 with commits := [{ page := pgCHTAB 0 }, { page := pgCHTAB 1 }, { page := pgCHTAB 31 }] }), 0, by decide +kernel⟩
  · exact ⟨(let b : State := {}; let g : Fin 32 := 0; let x : State := b.modSlice (b.serving g.val) (fun y => { y with pass := none }); { (x.setFld F.PAIR.PAIR_STS.ROLE 0).setStg (F.CH.AVG_CFG.N_M1 (16 * g.val + 1)).addr 5#32 with commits := [{ page := pgCHTAB 0 }, { page := pgCHTAB 1 }, { page := pgCHTAB 31 }] }), 0, by decide +kernel⟩
  · exact ⟨(let b : State := {}; { b with commits := [] }), 0, by decide +kernel⟩

/-- The premises of `Obligations.ResultsAreReadInPairs` are met, clause by clause. -/
theorem test_met_ResultsAreReadInPairs :
    (∃ (p : Path) (c : Fin 512) (s : State) (w : Sample) (i : Nat), s.quiet = true ∧ (s.getChan c.val).res = some (w, i))
    ∧ (∃ (p : Path) (c : Fin 512) (s : State) (v : Reg), s.quiet = true ∧ sget none (s.latches p).res c.val = some v)
    ∧ (∃ (p : Path) (c : Fin 512) (s : State), s.quiet = true ∧ (s.getChan c.val).res = none)
    ∧ (∃ (p : Path) (c : Fin 512) (s : State), s.quiet = true ∧ sget none (s.latches p).res c.val = none) := by
  refine ⟨?_, ?_, ?_, ?_⟩
  · exact ⟨.qspi, 0, (let b : State := {}; let c : Fin 512 := 0; b.modChan c.val fun x => { x with res := some (⟨(3844675722 : Int) - 2 ^ 31, { ovr := true, blk := false }⟩, 77 + 0), freshQ := true, freshM := true }), ⟨(3844675722 : Int) - 2 ^ 31, { ovr := true, blk := false }⟩, 77 + 0, by decide +kernel⟩
  · exact ⟨.qspi, 0, (let b : State := {}; let p : Path := .qspi; let c : Fin 512 := 0; b.modLatches p fun l => { l with res := [(c.val, some 7#32)] }), 7#32, by decide +kernel⟩
  · exact ⟨.qspi, 0, (let b : State := {}; let c : Fin 512 := 0; b.modChan c.val fun x => { x with res := none }), by decide +kernel⟩
  · exact ⟨.qspi, 0, (let b : State := {}; b), by decide +kernel⟩

/-- The premises of `Obligations.SentinelsCrossAndConvert` are met, clause by clause. -/
theorem test_met_SentinelsCrossAndConvert :
    (∃ (n : Fin 16) (s : State), s.quiet = true ∧ s.bit (F.HDR.INT_ROUTE.INBAND pgSENT) = false ∧ s.sentWatches n.val = true)
    ∧ (∃ (n : Fin 16) (s : State), s.quiet = true ∧ s.bit (F.HDR.INT_ROUTE.INBAND pgSENT) = false ∧ s.sentWatches n.val = false)
    ∧ (∃ (n : Fin 16) (s : State) (below : Bool) (st : Stamp), s.quiet = true ∧ s.bit (F.HDR.INT_ROUTE.INBAND pgSENT) = false
      ∧ ((s.getSent n.val).armed = false ∨ s.sentWatches n.val = false ∨ s.bit (if below then F.SENT.CFG.EDGE_LO n.val else F.SENT.CFG.EDGE_HI n.val) = false))
    ∧ (∃ (n : Fin 16) (s : State) (below : Bool) (st : Stamp), s.quiet = true ∧ s.bit (F.HDR.INT_ROUTE.INBAND pgSENT) = false
      ∧ (s.getSent n.val).armed = true ∧ s.sentWatches n.val = true
      ∧ (s.bit (if below then F.SENT.CFG.EDGE_LO n.val else F.SENT.CFG.EDGE_HI n.val) = true) ∧ s.bit (F.SENT.CFG.TRIG_EN n.val) = false
      ∧ s.bit (F.SENT.CFG.WALE_EN n.val) = false ∧ (s.getSent n.val).latched.isSome = true ∧ (s.getSent n.val).pend = none)
    ∧ (∃ (n : Fin 16) (s : State) (below : Bool) (st : Stamp), s.quiet = true ∧ s.bit (F.HDR.INT_ROUTE.INBAND pgSENT) = false
      ∧ (s.getSent n.val).armed = true ∧ s.sentWatches n.val = true
      ∧ (s.bit (if below then F.SENT.CFG.EDGE_LO n.val else F.SENT.CFG.EDGE_HI n.val) = true) ∧ s.bit (F.SENT.CFG.TRIG_EN n.val) = false
      ∧ s.bit (F.SENT.CFG.WALE_EN n.val) = false ∧ (s.getSent n.val).latched.isSome = true ∧ (s.getSent n.val).pend.isSome = true)
    ∧ (∃ (n : Fin 16) (s : State) (below : Bool) (st : Stamp) (l : List Nat) (m : Nat), s.quiet = true
      ∧ s.bit (F.HDR.INT_ROUTE.INBAND pgSENT) = false ∧ (s.getSent n.val).armed = true ∧ s.sentWatches n.val = true
      ∧ (s.bit (if below then F.SENT.CFG.EDGE_LO n.val else F.SENT.CFG.EDGE_HI n.val) = true) ∧ s.bit (F.SENT.CFG.TRIG_EN n.val) = false
      ∧ s.bit (F.SENT.CFG.WALE_EN n.val) = false ∧ (s.getSent n.val).latched = none ∧ s.sentQ = l ++ [m] ∧ n.val < m
      ∧ s.sentWith st m = true ∧ (l.all (fun j => !s.sentWith st j) = true))
    ∧ (∃ (n : Fin 16) (s : State) (below : Bool) (st : Stamp), s.quiet = true ∧ s.bit (F.HDR.INT_ROUTE.INBAND pgSENT) = false
      ∧ (s.getSent n.val).armed = true ∧ s.sentWatches n.val = true
      ∧ (s.bit (if below then F.SENT.CFG.EDGE_LO n.val else F.SENT.CFG.EDGE_HI n.val) = true) ∧ s.bit (F.SENT.CFG.TRIG_EN n.val) = false
      ∧ s.bit (F.SENT.CFG.WALE_EN n.val) = false ∧ (s.getSent n.val).latched = none ∧ (s.sentQ.all (fun m => !s.sentWith st m) = true))
    ∧ (∃ (n : Fin 16) (s : State) (code : BitVec 24) (rest : List Nat) (st : Stamp) (below : Bool) (late : Bool) (dly : Nat), s.quiet = true
      ∧ s.bit (F.HDR.INT_ROUTE.INBAND pgSENT) = false ∧ s.sentQ = n.val :: rest ∧ (s.getSent n.val).latched = some (st, below, late, dly)
      ∧ (s.getSent n.val).pend = none ∧ (s.getSent n.val).old = none ∧ dly < 2 ^ 16 ∧ st.frac < 16)
    ∧ (∃ (n : Fin 16) (s : State) (code : BitVec 24) (rest : List Nat) (u : Stamp) (side : Bool), s.quiet = true
      ∧ s.bit (F.HDR.INT_ROUTE.INBAND pgSENT) = false ∧ s.sentQ = n.val :: rest ∧ (s.getSent n.val).latched.isSome = true
      ∧ (s.getSent n.val).pend = some (u, side) ∧ (s.getSent n.val).old = none)
    ∧ (∃ (n : Fin 16) (s : State) (below : Bool) (st : Stamp), s.quiet = true ∧ s.bit (F.HDR.INT_ROUTE.INBAND pgSENT) = false
      ∧ (s.getSent n.val).armed = true ∧ s.sentWatches n.val = true
      ∧ (s.bit (if below then F.SENT.CFG.EDGE_LO n.val else F.SENT.CFG.EDGE_HI n.val) = true) ∧ (s.getSent n.val).latched = none
      ∧ (s.sentQ.all (fun m => !s.sentWith st m) = true))
    ∧ (∃ (n : Fin 16) (s : State) (code : BitVec 24), s.quiet = true ∧ s.bit (F.HDR.INT_ROUTE.INBAND pgSENT) = false ∧ s.sentQ = [])
    ∧ (∃ (n : Fin 16) (s : State), s.quiet = true ∧ s.bit (F.HDR.INT_ROUTE.INBAND pgSENT) = false ∧ s.sentQ = [])
    ∧ (∃ (n : Fin 16) (s : State) (rest : List Nat) (st : Stamp) (below : Bool) (late : Bool) (dly : Nat), s.quiet = true
      ∧ s.bit (F.HDR.INT_ROUTE.INBAND pgSENT) = false ∧ s.sentQ = n.val :: rest ∧ (s.getSent n.val).latched = some (st, below, late, dly)
      ∧ (s.getSent n.val).pend = none ∧ (s.getSent n.val).old = none) := by
  refine ⟨?_, ?_, ?_, ?_, ?_, ?_, ?_, ?_, ?_, ?_, ?_, ?_, ?_⟩
  · exact ⟨0, (let b : State := {}; let n : Fin 16 := 0; let b : State := b.setBit (F.HDR.INT_ROUTE.INBAND pgSENT) false; let n : Fin 16 := 0; let b : State := (b.setBit (F.SENT.CFG.EN n.val) true).setFld (F.SENT.CFG.CH n.val) 3 |>.setFld (F.CH.FE_CFG.MODE 3) 1 |>.setFld F.NVM.PWR_STS.STATE 1; b), by decide +kernel⟩
  · exact ⟨0, (let b : State := {}; let n : Fin 16 := 0; let b : State := b.setBit (F.HDR.INT_ROUTE.INBAND pgSENT) false; b.setBit (F.SENT.CFG.EN n.val) false), by decide +kernel⟩
  · exact ⟨0, (let b : State := {}; let n : Fin 16 := 0; let b : State := b.setBit (F.HDR.INT_ROUTE.INBAND pgSENT) false; b.modSent n.val fun x => { x with armed := false }), true, ⟨3844675722, 3531510670 % 1000000000, 0 % 16⟩, by decide +kernel⟩
  · exact ⟨0, (let b : State := {}; let n : Fin 16 := 0; let b : State := b.setBit (F.HDR.INT_ROUTE.INBAND pgSENT) false; let n : Fin 16 := 0; let b : State := (b.setBit (F.SENT.CFG.EN n.val) true).setFld (F.SENT.CFG.CH n.val) 3 |>.setFld (F.CH.FE_CFG.MODE 3) 1 |>.setFld F.NVM.PWR_STS.STATE 1; let b := b.modSent n.val fun x => { x with latched := some (⟨3844675722, 3531510670 % 1000000000, 0 % 16⟩, true, true, 2), armed := true }; (((b.setBit (F.SENT.CFG.EDGE_LO n.val) true).setBit (F.SENT.CFG.EDGE_HI n.val) true).setBit (F.SENT.CFG.TRIG_EN n.val) false).setBit (F.SENT.CFG.WALE_EN n.val) false), true, ⟨3844675722, 3531510670 % 1000000000, 0 % 16⟩, by decide +kernel⟩
  · exact ⟨0, (let b : State := {}; let n : Fin 16 := 0; let b : State := b.setBit (F.HDR.INT_ROUTE.INBAND pgSENT) false; let n : Fin 16 := 0; let b : State := (b.setBit (F.SENT.CFG.EN n.val) true).setFld (F.SENT.CFG.CH n.val) 3 |>.setFld (F.CH.FE_CFG.MODE 3) 1 |>.setFld F.NVM.PWR_STS.STATE 1; let b := b.modSent n.val fun x => { x with latched := some (⟨3844675722, 3531510670 % 1000000000, 0 % 16⟩, true, true, 2), pend := some (⟨3844675722, 3531510670 % 1000000000, 0 % 16⟩, true), armed := true }; (((b.setBit (F.SENT.CFG.EDGE_LO n.val) true).setBit (F.SENT.CFG.EDGE_HI n.val) true).setBit (F.SENT.CFG.TRIG_EN n.val) false).setBit (F.SENT.CFG.WALE_EN n.val) false), true, ⟨3844675722, 3531510670 % 1000000000, 0 % 16⟩, by decide +kernel⟩
  · exact ⟨0, (let b : State := {}; let n : Fin 16 := 0; let b : State := b.setBit (F.HDR.INT_ROUTE.INBAND pgSENT) false; { (let n : Fin 16 := 0; let b : State := (b.setBit (F.SENT.CFG.EN n.val) true).setFld (F.SENT.CFG.CH n.val) 3 |>.setFld (F.CH.FE_CFG.MODE 3) 1 |>.setFld F.NVM.PWR_STS.STATE 1; let b := b.modSent n.val fun x => { x with armed := true }; (((b.setBit (F.SENT.CFG.EDGE_LO n.val) true).setBit (F.SENT.CFG.EDGE_HI n.val) true).setBit (F.SENT.CFG.TRIG_EN n.val) false).setBit (F.SENT.CFG.WALE_EN n.val) false).modSent 16 (fun x => { x with latched := some (⟨3844675722, 3531510670 % 1000000000, 0 % 16⟩, true, false, 1) }) with sentQ := [16] }), true, ⟨3844675722, 3531510670 % 1000000000, 0 % 16⟩, [], 16, by decide +kernel⟩
  · exact ⟨0, (let b : State := {}; let n : Fin 16 := 0; let b : State := b.setBit (F.HDR.INT_ROUTE.INBAND pgSENT) false; let n : Fin 16 := 0; let b : State := (b.setBit (F.SENT.CFG.EN n.val) true).setFld (F.SENT.CFG.CH n.val) 3 |>.setFld (F.CH.FE_CFG.MODE 3) 1 |>.setFld F.NVM.PWR_STS.STATE 1; let b := b.modSent n.val fun x => { x with armed := true }; (((b.setBit (F.SENT.CFG.EDGE_LO n.val) true).setBit (F.SENT.CFG.EDGE_HI n.val) true).setBit (F.SENT.CFG.TRIG_EN n.val) false).setBit (F.SENT.CFG.WALE_EN n.val) false), true, ⟨3844675722, 3531510670 % 1000000000, 0 % 16⟩, by decide +kernel⟩
  · exact ⟨0, (let b : State := {}; let n : Fin 16 := 0; let b : State := b.setBit (F.HDR.INT_ROUTE.INBAND pgSENT) false; { (b.modSent n.val fun x => { x with latched := some (⟨3844675722, 3531510670 % 1000000000, 0 % 16⟩, true, true, 2) }) with sentQ := [n.val, 5, 7] }), BitVec.ofNat 24 (3844675722), [5, 7], ⟨3844675722, 3531510670 % 1000000000, 0 % 16⟩, true, true, 2, by decide +kernel⟩
  · exact ⟨0, (let b : State := {}; let n : Fin 16 := 0; let b : State := b.setBit (F.HDR.INT_ROUTE.INBAND pgSENT) false; { (b.modSent n.val fun x => { x with latched := some (⟨3844675722, 3531510670 % 1000000000, 0 % 16⟩, true, true, 2), pend := some (⟨3844675722, 3531510670 % 1000000000, 0 % 16⟩, true) }) with sentQ := [n.val, 5, 7] }), BitVec.ofNat 24 (3844675722), [5, 7], ⟨3844675722, 3531510670 % 1000000000, 0 % 16⟩, true, by decide +kernel⟩
  · exact ⟨0, (let b : State := {}; let n : Fin 16 := 0; let b : State := b.setBit (F.HDR.INT_ROUTE.INBAND pgSENT) false; let n : Fin 16 := 0; let b : State := (b.setBit (F.SENT.CFG.EN n.val) true).setFld (F.SENT.CFG.CH n.val) 3 |>.setFld (F.CH.FE_CFG.MODE 3) 1 |>.setFld F.NVM.PWR_STS.STATE 1; let b := b.modSent n.val fun x => { x with armed := true }; (b.setBit (F.SENT.CFG.EDGE_LO n.val) true).setBit (F.SENT.CFG.EDGE_HI n.val) true), true, ⟨3844675722, 3531510670 % 1000000000, 0 % 16⟩, by decide +kernel⟩
  · exact ⟨0, (let b : State := {}; let b : State := b.setBit (F.HDR.INT_ROUTE.INBAND pgSENT) false; b), 77, by decide +kernel⟩
  · exact ⟨0, (let b : State := {}; let b : State := b.setBit (F.HDR.INT_ROUTE.INBAND pgSENT) false; b), by decide +kernel⟩
  · exact ⟨0, (let b : State := {}; let n : Fin 16 := 0; let b : State := b.setBit (F.HDR.INT_ROUTE.INBAND pgSENT) false; { (b.modSent n.val fun x => { x with latched := some (⟨3844675722, 3531510670 % 1000000000, 0 % 16⟩, true, true, 2) }) with sentQ := [n.val, 5, 7] }), [5, 7], ⟨3844675722, 3531510670 % 1000000000, 0 % 16⟩, true, true, 2, by decide +kernel⟩

/-- The premises of `Obligations.SentinelRegisters` are met, clause by clause. -/
theorem test_met_SentinelRegisters :
    (∃ (n : Fin 16) (p : Path) (s : State) (v : Reg), s.quiet = true ∧ s.bit (F.HDR.INT_ROUTE.INBAND pgSENT) = false ∧ v.getLsbD 0 = false)
    ∧ (∃ (n : Fin 16) (p : Path) (s : State) (v : Reg), s.quiet = true ∧ s.bit (F.HDR.INT_ROUTE.INBAND pgSENT) = false ∧ v.getLsbD 0 = true
      ∧ s.sentTaken n.val (getBits v 16 9) = true)
    ∧ (∃ (n : Fin 16) (p : Path) (s : State) (v : Reg), s.quiet = true ∧ s.bit (F.HDR.INT_ROUTE.INBAND pgSENT) = false ∧ v.getLsbD 0 = true
      ∧ s.sentTaken n.val (getBits v 16 9) = false ∧ sentBusy (s.getSent n.val) = false)
    ∧ (∃ (n : Fin 16) (p : Path) (s : State) (v : Reg), s.quiet = true ∧ s.bit (F.HDR.INT_ROUTE.INBAND pgSENT) = false ∧ v.getLsbD 0 = true
      ∧ s.sentTaken n.val (getBits v 16 9) = false ∧ sentBusy (s.getSent n.val) = true)
    ∧ (∃ (n : Fin 16) (p : Path) (s : State), s.quiet = true ∧ s.bit (F.HDR.INT_ROUTE.INBAND pgSENT) = false)
    ∧ (∃ (n : Fin 16) (p : Path) (s : State) (i : Reg) (v : Reg), s.quiet = true ∧ s.bit (F.HDR.INT_ROUTE.INBAND pgSENT) = false
      ∧ sget none (s.latches p).evt n.val = some (i, v))
    ∧ (∃ (n : Fin 16) (p : Path) (s : State), s.quiet = true ∧ s.bit (F.HDR.INT_ROUTE.INBAND pgSENT) = false
      ∧ sget none (s.latches p).evt n.val = none) := by
  refine ⟨?_, ?_, ?_, ?_, ?_, ?_, ?_⟩
  · exact ⟨0, .qspi, (let b : State := {}; let b : State := b.setBit (F.HDR.INT_ROUTE.INBAND pgSENT) false; b), BitVec.ofNat 32 (3844675722 / 2 * 2), by decide +kernel⟩
  · exact ⟨0, .qspi, (let b : State := {}; let b : State := b.setBit (F.HDR.INT_ROUTE.INBAND pgSENT) false; (b.setBit (F.SENT.CFG.EN 4) true).setFld (F.SENT.CFG.CH 4) 3), BitVec.ofNat 32 (3 * 65536 + 1), by decide +kernel⟩
  · exact ⟨0, .qspi, (let b : State := {}; let b : State := b.setBit (F.HDR.INT_ROUTE.INBAND pgSENT) false; b), BitVec.ofNat 32 (200 * 65536 + 1 + 0 % 16 * 256), by decide +kernel⟩
  · exact ⟨0, .qspi, (let b : State := {}; let n : Fin 16 := 0; let b : State := b.setBit (F.HDR.INT_ROUTE.INBAND pgSENT) false; b.modSent n.val fun x => { x with latched := some (⟨3844675722, 3531510670 % 1000000000, 0 % 16⟩, true, true, 2) }), BitVec.ofNat 32 (200 * 65536 + 1 + 0 % 16 * 256), by decide +kernel⟩
  · exact ⟨0, .qspi, (let b : State := {}; let b : State := b.setBit (F.HDR.INT_ROUTE.INBAND pgSENT) false; b), by decide +kernel⟩
  · exact ⟨0, .qspi, (let b : State := {}; let n : Fin 16 := 0; let p : Path := .qspi; let b : State := b.setBit (F.HDR.INT_ROUTE.INBAND pgSENT) false; b.modLatches p fun l => { l with evt := [(n.val, some (4#32, 7#32))] }), 4#32, 7#32, by decide +kernel⟩
  · exact ⟨0, .qspi, (let b : State := {}; let b : State := b.setBit (F.HDR.INT_ROUTE.INBAND pgSENT) false; b), by decide +kernel⟩

/-- The premises of `Obligations.DwellsEndOrAreAbandoned` are met, clause by clause. -/
theorem test_met_DwellsEndOrAreAbandoned :
    (∃ (d : Dwell) (s : State), s.quiet = true ∧ s.cal.dwell = some d ∧ d.slice < 34 ∧ s.phaseFull d = true)
    ∧ (∃ (d : Dwell) (s : State), s.quiet = true ∧ s.cal.dwell = some d ∧ d.slice < 34 ∧ s.phaseFull d = false)
    ∧ (∃ (d : Dwell) (s : State), s.quiet = true ∧ s.cal.dwell = some d ∧ d.slice < 34 ∧ s.fld F.CAL.DWELL_LIM.DWELL_MAX = 0)
    ∧ (∃ (d : Dwell) (s : State), s.quiet = true ∧ s.cal.dwell = some d ∧ d.slice < 34 ∧ s.fld F.CAL.DWELL_LIM.DWELL_MAX ≠ 0)
    ∧ (∃ (d : Dwell) (s : State), s.quiet = true ∧ s.cal.dwell = some d ∧ d.slice < 34)
    ∧ (∃ (d : Dwell) (s : State), s.quiet = true ∧ s.cal.dwell = some d ∧ d.slice < 34 ∧ s.fld F.CAL.DWELL_LIM.DWELL_MAX ≠ 0
      ∧ s.fld F.NVM.PWR_STS.STATE ≠ 1)
    ∧ (∃ (d : Dwell) (s : State), s.quiet = true ∧ s.cal.dwell = some d ∧ d.slice < 34 ∧ s.fld F.NVM.PWR_STS.STATE ≠ 1)
    ∧ (∃ (d : Dwell) (s : State), s.quiet = true ∧ s.cal.dwell = some d ∧ d.slice < 34 ∧ s.fld F.CAL.CAL_STS.PHASE ≠ 3
      ∧ s.phaseFull d = false)
    ∧ (∃ (d : Dwell) (s : State), s.quiet = true ∧ s.cal.dwell = some d ∧ d.slice < 34 ∧ s.fld F.CAL.CAL_STS.PHASE = 3
      ∧ qualAtLeast (s.fits d).one.2.2.2 (s.fld F.CAL.QUAL_LIM.QUAL_MAX) = false
      ∧ qualAtLeast (s.fits d).two.2.2.2 (s.fld F.CAL.QUAL_LIM.QUAL_MAX) = false
      ∧ qualAbove (s.fits d).one.2.2.2 (s.fld F.CAL.QUAL_LIM.SWAP_LIMIT) = false
      ∧ qualAbove (s.fits d).two.2.2.2 (s.fld F.CAL.QUAL_LIM.SWAP_LIMIT) = false ∧ bitStuck d.w1 = false ∧ bitStuck d.w2 = false)
    ∧ (∃ (d : Dwell) (s : State), s.quiet = true ∧ s.cal.dwell = some d ∧ d.slice < 34 ∧ s.fld F.NVM.PWR_STS.STATE ≠ 1
      ∧ s.bit (F.HDR.INT_ROUTE.INBAND pgCAL) = false ∧ s.fld F.CAL.CAL_STS.PHASE = 3 ∧ d.idle = none
      ∧ qualAtLeast (s.fits d).one.2.2.2 (s.fld F.CAL.QUAL_LIM.QUAL_MAX) = true
      ∧ qualAbove (s.fits d).one.2.2.2 (s.fld F.CAL.QUAL_LIM.SWAP_LIMIT) = false
      ∧ qualAbove (s.fits d).two.2.2.2 (s.fld F.CAL.QUAL_LIM.SWAP_LIMIT) = false ∧ bitStuck d.w1 = false ∧ bitStuck d.w2 = false) := by
  refine ⟨?_, ?_, ?_, ?_, ?_, ?_, ?_, ?_, ?_, ?_⟩
  · exact ⟨{ group := 3, slice := 5, duty := 32, idle := none, warm := 300000, w1 := {}, w2 := {}, startedAt := 7 }, (let b : State := {}; let b : State := { (b) with cal := { b.cal with dwell := some { group := 3, slice := 5, duty := 32, idle := none, warm := 300000, w1 := {}, w2 := {}, startedAt := 7 } } }; { ((b.setFld F.CAL.CAL_STS.PHASE 0).setFld F.CAL.CAL_CTL.WARMUP (0 % 200)) with cal := { b.cal with dwell := some { group := 3, slice := 5, duty := 32, idle := none, warm := 300000, w1 := {}, w2 := {}, startedAt := 7 } } }), by decide +kernel⟩
  · exact ⟨{ group := 3, slice := 5, duty := 32, idle := none, warm := 300000, w1 := {}, w2 := {}, startedAt := 7 }, (let b : State := {}; let b : State := { (b) with cal := { b.cal with dwell := some { group := 3, slice := 5, duty := 32, idle := none, warm := 300000, w1 := {}, w2 := {}, startedAt := 7 } } }; { (b.setFld F.CAL.CAL_STS.PHASE (1 + 0 % 3)) with cal := { b.cal with dwell := some { group := 3, slice := 5, duty := 32, idle := none, warm := 300000, w1 := {}, w2 := {}, startedAt := 7 } } }), by decide +kernel⟩
  · exact ⟨{ group := 3, slice := 5, duty := 32, idle := none, warm := 300000, w1 := {}, w2 := {}, startedAt := 7 }, (let b : State := {}; let b : State := { (b) with cal := { b.cal with dwell := some { group := 3, slice := 5, duty := 32, idle := none, warm := 300000, w1 := {}, w2 := {}, startedAt := 7 } } }; { (b.setFld F.CAL.DWELL_LIM.DWELL_MAX 0) with cal := { b.cal with dwell := some { group := 3, slice := 5, duty := 32, idle := none, warm := 300000, w1 := {}, w2 := {}, startedAt := 7 } } }), by decide +kernel⟩
  · exact ⟨{ group := 3, slice := 5, duty := 32, idle := none, warm := 300000, w1 := {}, w2 := {}, startedAt := 7 }, (let b : State := {}; let b : State := { (b) with cal := { b.cal with dwell := some { group := 3, slice := 5, duty := 32, idle := none, warm := 300000, w1 := {}, w2 := {}, startedAt := 7 } } }; { ((b.setFld F.CAL.DWELL_LIM.DWELL_MAX (1 + 0)).setFld F.NVM.PWR_STS.STATE 1) with cal := { b.cal with dwell := some { group := 3, slice := 5, duty := 32, idle := none, warm := 300000, w1 := {}, w2 := {}, startedAt := 7 } } }), by decide +kernel⟩
  · exact ⟨{ group := 3, slice := 5, duty := 32, idle := none, warm := 300000, w1 := {}, w2 := {}, startedAt := 7 }, (let b : State := {}; let b : State := { (b) with cal := { b.cal with dwell := some { group := 3, slice := 5, duty := 32, idle := none, warm := 300000, w1 := {}, w2 := {}, startedAt := 7 } } }; { (b.setFld F.NVM.PWR_STS.STATE 1) with cal := { b.cal with dwell := some { group := 3, slice := 5, duty := 32, idle := none, warm := 300000, w1 := {}, w2 := {}, startedAt := 7 } } }), by decide +kernel⟩
  · exact ⟨{ group := 3, slice := 5, duty := 32, idle := none, warm := 300000, w1 := {}, w2 := {}, startedAt := 7 }, (let b : State := {}; let b : State := { (b) with cal := { b.cal with dwell := some { group := 3, slice := 5, duty := 32, idle := none, warm := 300000, w1 := {}, w2 := {}, startedAt := 7 } } }; { ((b.setFld F.CAL.DWELL_LIM.DWELL_MAX (1 + 0)).setFld F.NVM.PWR_STS.STATE 3) with cal := { b.cal with dwell := some { group := 3, slice := 5, duty := 32, idle := none, warm := 300000, w1 := {}, w2 := {}, startedAt := 7 } } }), by decide +kernel⟩
  · exact ⟨{ group := 3, slice := 5, duty := 32, idle := none, warm := 300000, w1 := {}, w2 := {}, startedAt := 7 }, (let b : State := {}; let b : State := { (b) with cal := { b.cal with dwell := some { group := 3, slice := 5, duty := 32, idle := none, warm := 300000, w1 := {}, w2 := {}, startedAt := 7 } } }; { (b.setFld F.NVM.PWR_STS.STATE 3) with cal := { b.cal with dwell := some { group := 3, slice := 5, duty := 32, idle := none, warm := 300000, w1 := {}, w2 := {}, startedAt := 7 } } }), by decide +kernel⟩
  · exact ⟨{ group := 3, slice := 5, duty := 32, idle := none, warm := 300000, w1 := {}, w2 := {}, startedAt := 7 }, (let b : State := {}; let b : State := { (b) with cal := { b.cal with dwell := some { group := 3, slice := 5, duty := 32, idle := none, warm := 300000, w1 := {}, w2 := {}, startedAt := 7 } } }; { (b.setFld F.CAL.CAL_STS.PHASE (1 + 0 % 2)) with cal := { b.cal with dwell := some { group := 3, slice := 5, duty := 32, idle := none, warm := 300000, w1 := {}, w2 := {}, startedAt := 7 } } }), by decide +kernel⟩
  · exact ⟨{ group := 3, slice := 5, duty := 32, idle := none, warm := 300000, w1 := {}, w2 := {}, startedAt := 7 }, (let b : State := {}; let b : State := { (b) with cal := { b.cal with dwell := some { group := 3, slice := 5, duty := 32, idle := none, warm := 300000, w1 := {}, w2 := {}, startedAt := 7 } } }; { ((b.setFld F.CAL.CAL_STS.PHASE 3).setFld F.CAL.QUAL_LIM.QUAL_MAX (1 + 0) |>.setFld F.NVM.PWR_STS.STATE 1 |>.setBit (F.HDR.INT_ROUTE.INBAND pgCAL) false) with cal := { b.cal with dwell := some { group := 3, slice := 5, duty := 32, idle := none, warm := 300000, w1 := {}, w2 := {}, startedAt := 7 } } }), by decide +kernel⟩
  · exact ⟨{ group := 3, slice := 5, duty := 32, idle := none, warm := 300000, w1 := {}, w2 := {}, startedAt := 7 }, (let b : State := {}; let b : State := { (b) with cal := { b.cal with dwell := some { group := 3, slice := 5, duty := 32, idle := none, warm := 300000, w1 := {}, w2 := {}, startedAt := 7 } } }; { (((b.setFld F.CAL.CAL_STS.PHASE 3).setFld F.NVM.PWR_STS.STATE 3).setFld F.CAL.QUAL_LIM.QUAL_MAX 0 |>.setBit (F.HDR.INT_ROUTE.INBAND pgCAL) false) with cal := { b.cal with dwell := some { group := 3, slice := 5, duty := 32, idle := none, warm := 300000, w1 := {}, w2 := {}, startedAt := 7 } } }), by decide +kernel⟩

/-- The premises of `Obligations.RotationsAndSelfTests` are met, clause by clause. -/
theorem test_met_RotationsAndSelfTests :
    (∃ (s : State) (d : Dwell), s.quiet = true ∧ s.bit (F.HDR.INT_ROUTE.INBAND pgCAL) = false ∧ s.cal.dwell = some d ∧ d.slice < 34
      ∧ s.fld F.CAL.CAL_STS.PHASE = 3 ∧ bitStuck d.w1 = true ∧ s.bit F.CAL.CAL_CTL.AUTO_SWAP = false)
    ∧ (∃ (s : State) (d : Dwell), s.quiet = true ∧ s.bit (F.HDR.INT_ROUTE.INBAND pgCAL) = false ∧ s.cal.dwell = some d ∧ d.slice < 34
      ∧ s.fld F.CAL.CAL_STS.PHASE = 3 ∧ bitStuck d.w1 = true ∧ s.bit F.CAL.CAL_CTL.AUTO_SWAP = true ∧ s.slRole d.slice = roleWorking
      ∧ s.serving (s.slGroup d.slice) = d.slice ∧ (s.getSlice d.slice).pass = none ∧ s.spareLeft d.duty = true ∧ d.duty < 34)
    ∧ (∃ (s : State), s.quiet = true ∧ s.bit (F.HDR.INT_ROUTE.INBAND pgCAL) = false ∧ s.cal.dwell = none)
    ∧ (∃ (s : State), s.quiet = true ∧ s.bit (F.HDR.INT_ROUTE.INBAND pgCAL) = false ∧ s.cal.dwell = none)
    ∧ (∃ (s : State), s.quiet = true ∧ s.bit (F.HDR.INT_ROUTE.INBAND pgCAL) = false ∧ s.cal.dwell = none)
    ∧ (∃ (s : State), s.quiet = true ∧ s.bit (F.HDR.INT_ROUTE.INBAND pgCAL) = false ∧ s.rotationOver = false)
    ∧ (∃ (s : State), s.quiet = true ∧ s.bit (F.HDR.INT_ROUTE.INBAND pgCAL) = false ∧ s.rotationOver = true ∧ s.cal.changed = true
      ∧ s.cal.saving = none ∧ s.cal.lastSave = none)
    ∧ (∃ (s : State), s.quiet = true ∧ s.bit (F.HDR.INT_ROUTE.INBAND pgCAL) = false ∧ s.rotationOver = true ∧ s.calSt = calRun
      ∧ s.cal.changed = false)
    ∧ (∃ (s : State) (sl : Fin 34) (r : SelfTest), s.quiet = true ∧ s.bit (F.HDR.INT_ROUTE.INBAND pgCAL) = false ∧ s.cal.testing = [sl.val]
      ∧ s.calSt ≠ calSelftest ∧ s.booting = false ∧ selfTestOk r = true ∧ s.fld F.NVM.PWR_STS.STATE ≠ 1)
    ∧ (∃ (s : State) (sl : Fin 34) (r : SelfTest), s.quiet = true ∧ s.bit (F.HDR.INT_ROUTE.INBAND pgCAL) = false ∧ s.cal.testing = [sl.val]
      ∧ s.calSt ≠ calSelftest ∧ s.booting = false ∧ selfTestOk r = true)
    ∧ (∃ (s : State) (sl : Fin 34) (r : SelfTest), s.quiet = true ∧ s.bit (F.HDR.INT_ROUTE.INBAND pgCAL) = false ∧ s.cal.testing = [sl.val]
      ∧ s.calSt ≠ calSelftest ∧ s.booting = false ∧ s.spareLeft sl.val = true ∧ selfTestOk r = false)
    ∧ (∃ (s : State) (sl : Fin 34) (r : SelfTest), s.quiet = true ∧ s.bit (F.HDR.INT_ROUTE.INBAND pgCAL) = false ∧ s.cal.testing = [sl.val]
      ∧ s.calSt = calSelftest ∧ s.booting = false ∧ selfTestOk r = true
      ∧ (((List.range 34).all fun n => !s.bit (F.CAL.EST_STS.SELFTEST_FAIL n)) = true) ∧ s.commitDue pgCAL = false)
    ∧ (∃ (s : State) (sl : Fin 34) (r : SelfTest), s.quiet = true ∧ s.bit (F.HDR.INT_ROUTE.INBAND pgCAL) = false
      ∧ s.cal.testing.contains sl.val = false ∧ s.booting = false)
    ∧ (∃ (s : State) (sl : Fin 34) (r : SelfTest), s.quiet = true ∧ s.bit (F.HDR.INT_ROUTE.INBAND pgCAL) = false
      ∧ s.cal.testing.contains sl.val = true ∧ s.calSt = calSelftest ∧ ((s.cal.testing.filter fun x => decide (x ≠ sl.val)) ≠ []))
    ∧ (∃ (s : State) (g : Fin 32) (m : Nat), s.quiet = true ∧ s.bit (F.HDR.INT_ROUTE.INBAND pgCAL) = false
      ∧ (s.getSlice (s.serving g.val)).swapDue = true ∧ (s.getSlice (s.serving g.val)).pass = none ∧ s.slGroup (s.serving g.val) = g.val
      ∧ s.replacement (s.serving g.val) = some m ∧ m < 34)
    ∧ (∃ (s : State) (g : Fin 32), s.quiet = true ∧ s.bit (F.HDR.INT_ROUTE.INBAND pgCAL) = false
      ∧ (s.getSlice (s.serving g.val)).swapDue = false)
    ∧ (∃ (s : State) (g : Fin 32), s.quiet = true ∧ s.bit (F.HDR.INT_ROUTE.INBAND pgCAL) = false
      ∧ (s.getSlice (s.serving g.val)).pass.isSome = true) := by
  refine ⟨?_, ?_, ?_, ?_, ?_, ?_, ?_, ?_, ?_, ?_, ?_, ?_, ?_, ?_, ?_, ?_, ?_⟩
  · exact ⟨(let b : State := {}; let b : State := b.setBit (F.HDR.INT_ROUTE.INBAND pgCAL) false; { (((b.setFld F.CAL.CAL_STS.PHASE 3).setFld F.CAL.QUAL_LIM.QUAL_MAX (1 + 0) |>.setFld F.NVM.PWR_STS.STATE 1 |>.setBit (F.HDR.INT_ROUTE.INBAND pgCAL) false).setBit F.CAL.CAL_CTL.AUTO_SWAP false) with cal := { b.cal with dwell := some { group := 3, slice := 5, duty := 32, idle := none, warm := 300000, w1 := { n := 4096, carry := [(1, 256)] }, w2 := {}, startedAt := 7 } } }), { group := 3, slice := 5, duty := 32, idle := none, warm := 300000, w1 := { n := 4096, carry := [(1, 256)] }, w2 := {}, startedAt := 7 }, by decide +kernel⟩
  · exact ⟨(let b : State := {}; let b : State := b.setBit (F.HDR.INT_ROUTE.INBAND pgCAL) false; { ((((b.setFld F.CAL.CAL_STS.PHASE 3).setFld F.CAL.QUAL_LIM.QUAL_MAX (1 + 0) |>.setFld F.NVM.PWR_STS.STATE 1 |>.setBit (F.HDR.INT_ROUTE.INBAND pgCAL) false).setBit F.CAL.CAL_CTL.AUTO_SWAP true |>.setRoleGroup 5 0 5 |>.setRoleGroup 32 1 3).modSlice 5 fun x => { x with pass := none }) with cal := { b.cal with dwell := some { group := 3, slice := 5, duty := 32, idle := none, warm := 300000, w1 := { n := 4096, carry := [(1, 256)] }, w2 := {}, startedAt := 7 } } }), { group := 3, slice := 5, duty := 32, idle := none, warm := 300000, w1 := { n := 4096, carry := [(1, 256)] }, w2 := {}, startedAt := 7 }, by decide +kernel⟩
  · exact ⟨(let b : State := {}; let b : State := b.setBit (F.HDR.INT_ROUTE.INBAND pgCAL) false; { b with cal := { b.cal with dwell := none } }), by decide +kernel⟩
  · exact ⟨(let b : State := {}; let b : State := b.setBit (F.HDR.INT_ROUTE.INBAND pgCAL) false; { b with cal := { b.cal with dwell := none } }), by decide +kernel⟩
  · exact ⟨(let b : State := {}; let b : State := b.setBit (F.HDR.INT_ROUTE.INBAND pgCAL) false; { b with cal := { b.cal with dwell := none } }), by decide +kernel⟩
  · exact ⟨(let b : State := {}; let b : State := b.setBit (F.HDR.INT_ROUTE.INBAND pgCAL) false; b.setFld F.CAL.CAL_STS.STATE calOff), by decide +kernel⟩
  · exact ⟨(let b : State := {}; let b : State := b.setBit (F.HDR.INT_ROUTE.INBAND pgCAL) false; { ((b.setFld F.CAL.CAL_STS.STATE (2 + 0 % 2)).setFld F.NVM.PWR_STS.STATE 1) with cal := { b.cal with first := false, nextGroup := 32, dwell := none, testing := [], changed := true, saving := none, lastSave := none } }), by decide +kernel⟩
  · exact ⟨(let b : State := {}; let b : State := b.setBit (F.HDR.INT_ROUTE.INBAND pgCAL) false; { ((b.setFld F.CAL.CAL_STS.STATE calRun).setFld F.NVM.PWR_STS.STATE 1) with cal := { b.cal with first := false, nextGroup := 32, dwell := none, testing := [], changed := false } }), by decide +kernel⟩
  · exact ⟨(let b : State := {}; let b : State := b.setBit (F.HDR.INT_ROUTE.INBAND pgCAL) false; { (((b).setFld F.CAL.CAL_STS.STATE calRun).setFld F.NVM.PWR_STS.STATE 3).setFld F.NVM.BOOT_STS.STEP 10 with cal := { b.cal with testing := [33] } }), 33, ⟨5, 2 ^ 23, -2 ^ 23, 9, false⟩, by decide +kernel⟩
  · exact ⟨(let b : State := {}; let b : State := b.setBit (F.HDR.INT_ROUTE.INBAND pgCAL) false; { (((b).setFld F.CAL.CAL_STS.STATE calRun).setFld F.NVM.PWR_STS.STATE 3).setFld F.NVM.BOOT_STS.STEP 10 |>.setFld F.NVM.PWR_STS.STATE 1 with cal := { b.cal with testing := [33] } }), 33, ⟨5, 2 ^ 23, -2 ^ 23, 9, false⟩, by decide +kernel⟩
  · exact ⟨(let b : State := {}; let b : State := b.setBit (F.HDR.INT_ROUTE.INBAND pgCAL) false; { ((((b).setFld F.CAL.CAL_STS.STATE calRun).setFld F.NVM.PWR_STS.STATE 3).setFld F.NVM.BOOT_STS.STEP 10 |>.setFld F.NVM.PWR_STS.STATE 1).setRoleGroup 33 2 0 with cal := { b.cal with testing := [33] } }), 33, ⟨5, 2 ^ 23, -2 ^ 23, 99, false⟩, by decide +kernel⟩
  · exact ⟨(let b : State := {}; let b : State := b.setBit (F.HDR.INT_ROUTE.INBAND pgCAL) false; { (((List.range 34).foldl (fun s n => s.setBit (F.CAL.EST_STS.SELFTEST_FAIL n) false) (((b).setFld F.CAL.CAL_STS.STATE calSelftest).setFld F.NVM.PWR_STS.STATE 3)).setFld F.NVM.BOOT_STS.STEP 10 |>.setFld F.NVM.PWR_STS.STATE 1) with cal := { b.cal with testing := [33] } }), 33, ⟨5, 2 ^ 23, -2 ^ 23, 9, false⟩, by decide +kernel⟩
  · exact ⟨(let b : State := {}; let b : State := b.setBit (F.HDR.INT_ROUTE.INBAND pgCAL) false; { b.setFld F.NVM.BOOT_STS.STEP 10 with cal := { b.cal with testing := [5] } }), 33, ⟨5, 2 ^ 23, -2 ^ 23, 9, false⟩, by decide +kernel⟩
  · exact ⟨(let b : State := {}; let b : State := b.setBit (F.HDR.INT_ROUTE.INBAND pgCAL) false; { (((b).setFld F.CAL.CAL_STS.STATE calSelftest).setFld F.NVM.PWR_STS.STATE 3) with cal := { b.cal with testing := [6, 7, 33] } }), 7, ⟨5, 2 ^ 23, -2 ^ 23, 9, false⟩, by decide +kernel⟩
  · exact ⟨(let b : State := {}; let b : State := b.setBit (F.HDR.INT_ROUTE.INBAND pgCAL) false; let g : Fin 32 := 0; ((b.setRoleGroup g.val 0 g.val).setRoleGroup 32 2 0 |>.setRoleGroup 33 2 0).modSlice ((b.setRoleGroup g.val 0 g.val).serving g.val) fun x => { x with swapDue := true, swapFor := some (32), pass := none }), 0, 32, by decide +kernel⟩
  · exact ⟨(let b : State := {}; let b : State := b.setBit (F.HDR.INT_ROUTE.INBAND pgCAL) false; let g : Fin 32 := 0; b.modSlice (b.serving g.val) fun x => { x with swapDue := false }), 0, by decide +kernel⟩
  · exact ⟨(let b : State := {}; let b : State := b.setBit (F.HDR.INT_ROUTE.INBAND pgCAL) false; let g : Fin 32 := 0; let g : Fin 32 := 0; b.modSlice (b.serving g.val) fun x => { x with swapDue := true, pass := some ({ tick := ⟨77 + 0, 77, 5, 0, 0⟩, group := 1, ops := [] }) }), 0, by decide +kernel⟩

/-- The premises of `Obligations.CalibrationCopiesAndStates` are met, clause by clause. -/
theorem test_met_CalibrationCopiesAndStates :
    (∃ (s : State) (cp : Bool) (x : CalCopy), s.quiet = true ∧ s.bit (F.HDR.INT_ROUTE.INBAND pgNVM) = false ∧ s.cal.saving = some (cp, x))
    ∧ (∃ (s : State) (cp : Bool) (x : CalCopy), s.quiet = true ∧ s.bit (F.HDR.INT_ROUTE.INBAND pgNVM) = false ∧ s.cal.saving = some (cp, x))
    ∧ (∃ (s : State) (ok : Bool), s.quiet = true ∧ s.bit (F.HDR.INT_ROUTE.INBAND pgNVM) = false ∧ s.cal.saving = none)
    ∧ (∃ (s : State), s.quiet = true ∧ s.bit (F.HDR.INT_ROUTE.INBAND pgNVM) = false ∧ s.cal.saving.isSome = true)
    ∧ (∃ (s : State) (n : Nat), s.quiet = true ∧ s.bit (F.HDR.INT_ROUTE.INBAND pgNVM) = false ∧ s.cal.lastSave = some n
      ∧ s.smoothNs < n + nsPerSec)
    ∧ (∃ (s : State), s.quiet = true ∧ s.bit (F.HDR.INT_ROUTE.INBAND pgNVM) = false ∧ s.calSt = calStopped)
    ∧ (∃ (s : State) (n : Nat), s.quiet = true ∧ s.bit (F.HDR.INT_ROUTE.INBAND pgNVM) = false ∧ s.cal.saving = none ∧ s.cal.lastSave = some n
      ∧ n + nsPerSec ≤ s.smoothNs ∧ s.calSt ≠ calStopped)
    ∧ (∃ (s : State), s.quiet = true ∧ s.bit (F.HDR.INT_ROUTE.INBAND pgNVM) = false ∧ s.cal.saving = none ∧ s.cal.lastSave = none
      ∧ s.calSt ≠ calStopped)
    ∧ (∃ (s : State), s.quiet = true ∧ s.bit (F.HDR.INT_ROUTE.INBAND pgNVM) = false
      ∧ (s.calSt = calRun ∨ s.calSt = calSingle ∨ s.calSt = calNoSpare) ∧ s.commitDue pgCAL = false)
    ∧ (∃ (s : State), s.quiet = true ∧ s.bit (F.HDR.INT_ROUTE.INBAND pgNVM) = false
      ∧ (s.calSt = calOff ∨ s.calSt = calSelftest ∨ s.calSt = calStopped))
    ∧ (∃ (s : State), s.quiet = true ∧ s.bit (F.HDR.INT_ROUTE.INBAND pgNVM) = false ∧ s.calSt ≠ calOff)
    ∧ (∃ (s : State), s.quiet = true ∧ s.bit (F.HDR.INT_ROUTE.INBAND pgNVM) = false ∧ s.calSt = calOff ∧ s.commitDue pgCAL = false)
    ∧ (∃ (s : State), s.quiet = true ∧ s.bit (F.HDR.INT_ROUTE.INBAND pgNVM) = false ∧ s.calSt = calOff ∧ s.fld F.NVM.PWR_STS.STATE ≠ 1
      ∧ s.commitDue pgCAL = false)
    ∧ (∃ (s : State), s.quiet = true ∧ s.bit (F.HDR.INT_ROUTE.INBAND pgNVM) = false ∧ s.calSt = calOff ∧ s.commits = [{ page := pgCAL }])
    ∧ (∃ (s : State), s.quiet = true ∧ s.bit (F.HDR.INT_ROUTE.INBAND pgNVM) = false ∧ s.commitDue pgCAL = false)
    ∧ (∃ (s : State), s.quiet = true ∧ s.bit (F.HDR.INT_ROUTE.INBAND pgNVM) = false ∧ s.cal.dwell.isSome = true ∧ s.calSt = calRun)
    ∧ (∃ (s : State) (g : Nat), s.quiet = true ∧ s.bit (F.HDR.INT_ROUTE.INBAND pgNVM) = false ∧ s.calOn = true ∧ s.cal.dwell = none
      ∧ s.grid.last.isSome = true ∧ s.calNext = some g ∧ (s.getSlice (s.serving g)).pass = none ∧ s.commits = [{ page := pgCAL }])
    ∧ (∃ (s : State) (ok : Bool), s.quiet = true ∧ s.bit (F.HDR.INT_ROUTE.INBAND pgNVM) = false ∧ s.calSt ≠ calStopped)
    ∧ (∃ (s : State), s.quiet = true ∧ s.bit (F.HDR.INT_ROUTE.INBAND pgNVM) = false ∧ s.calSt = calStopped)
    ∧ (∃ (s : State), s.quiet = true ∧ s.bit (F.HDR.INT_ROUTE.INBAND pgNVM) = false ∧ s.calSt = calStopped) := by
  refine ⟨?_, ?_, ?_, ?_, ?_, ?_, ?_, ?_, ?_, ?_, ?_, ?_, ?_, ?_, ?_, ?_, ?_, ?_, ?_, ?_⟩
  · exact ⟨(let b : State := {}; let b : State := b.setBit (F.HDR.INT_ROUTE.INBAND pgNVM) false; { b with cal := { b.cal with saving := some (true, { gen := 5 + 0 }) } }), true, { gen := 5 + 0 }, by decide +kernel⟩
  · exact ⟨(let b : State := {}; let b : State := b.setBit (F.HDR.INT_ROUTE.INBAND pgNVM) false; { b with cal := { b.cal with saving := some (true, { gen := 5 + 0 }) } }), true, { gen := 5 + 0 }, by decide +kernel⟩
  · exact ⟨(let b : State := {}; let b : State := b.setBit (F.HDR.INT_ROUTE.INBAND pgNVM) false; { b with cal := { b.cal with saving := none } }), true, by decide +kernel⟩
  · exact ⟨(let b : State := {}; let b : State := b.setBit (F.HDR.INT_ROUTE.INBAND pgNVM) false; { b with cal := { b.cal with saving := some (true, { gen := 5 + 0 }) } }), by decide +kernel⟩
  · exact ⟨(let b : State := {}; let b : State := b.setBit (F.HDR.INT_ROUTE.INBAND pgNVM) false; { b with cal := { b.cal with lastSave := some (b.smoothNs - 99) } }), (let b : State := {}; let b : State := b.setBit (F.HDR.INT_ROUTE.INBAND pgNVM) false; b.smoothNs - 99), by decide +kernel⟩
  · exact ⟨(let b : State := {}; let b : State := b.setBit (F.HDR.INT_ROUTE.INBAND pgNVM) false; ((b).setFld F.CAL.CAL_STS.STATE calStopped).setFld F.NVM.PWR_STS.STATE 3), by decide +kernel⟩
  · exact ⟨(let b : State := {}; let b : State := b.setBit (F.HDR.INT_ROUTE.INBAND pgNVM) false; { (((b).setFld F.CAL.CAL_STS.STATE calRun).setFld F.NVM.PWR_STS.STATE 3) with time := { b.time with sec := 9, ns := 0, jump := 0 }, cal := { b.cal with saving := none, lastSave := some 5 } }), 5, by decide +kernel⟩
  · exact ⟨(let b : State := {}; let b : State := b.setBit (F.HDR.INT_ROUTE.INBAND pgNVM) false; ((b).setFld F.CAL.CAL_STS.STATE calRun).setFld F.NVM.PWR_STS.STATE 3), by decide +kernel⟩
  · exact ⟨(let b : State := {}; let b : State := b.setBit (F.HDR.INT_ROUTE.INBAND pgNVM) false; { ((b.setFld F.CAL.CAL_STS.STATE (2 + 0 % 3))) with cal := { b.cal with dwell := some { group := 3, slice := 5, duty := 32, idle := none, warm := 300000, w1 := {}, w2 := {}, startedAt := 7 } } }), by decide +kernel⟩
  · exact ⟨(let b : State := {}; let b : State := b.setBit (F.HDR.INT_ROUTE.INBAND pgNVM) false; ((b).setFld F.CAL.CAL_STS.STATE (0)).setFld F.NVM.PWR_STS.STATE 3), by decide +kernel⟩
  · exact ⟨(let b : State := {}; let b : State := b.setBit (F.HDR.INT_ROUTE.INBAND pgNVM) false; ((b).setFld F.CAL.CAL_STS.STATE (1 + 0 % 5)).setFld F.NVM.PWR_STS.STATE 3), by decide +kernel⟩
  · exact ⟨(let b : State := {}; let b : State := b.setBit (F.HDR.INT_ROUTE.INBAND pgNVM) false; ((b).setFld F.CAL.CAL_STS.STATE calOff).setFld F.NVM.PWR_STS.STATE 3|>.setFld F.NVM.PWR_STS.STATE 1), by decide +kernel⟩
  · exact ⟨(let b : State := {}; let b : State := b.setBit (F.HDR.INT_ROUTE.INBAND pgNVM) false; ((b).setFld F.CAL.CAL_STS.STATE calOff).setFld F.NVM.PWR_STS.STATE 3), by decide +kernel⟩
  · exact ⟨(let b : State := {}; let b : State := b.setBit (F.HDR.INT_ROUTE.INBAND pgNVM) false; { (((b).setFld F.CAL.CAL_STS.STATE calOff).setFld F.NVM.PWR_STS.STATE 3) with commits := [{ page := pgCAL }], staged := [(F.CAL.CAL_TOL.GAIN_TOL.addr, 0x12345678#32)] }), by decide +kernel⟩
  · exact ⟨(let b : State := {}; let b : State := b.setBit (F.HDR.INT_ROUTE.INBAND pgNVM) false; { b with commits := [] }), by decide +kernel⟩
  · exact ⟨(let b : State := {}; let b : State := b.setBit (F.HDR.INT_ROUTE.INBAND pgNVM) false; { ({ (((b).setFld F.CAL.CAL_STS.STATE calRun).setFld F.NVM.PWR_STS.STATE 3) with cal := { b.cal with dwell := some { group := 3, slice := 5, duty := 32, idle := none, warm := 300000, w1 := {}, w2 := {}, startedAt := 7 } } }) with commits := [{ page := pgCAL }] }), by decide +kernel⟩
  · exact ⟨(let b : State := {}; let b : State := b.setBit (F.HDR.INT_ROUTE.INBAND pgNVM) false; { ((b.setFld F.CAL.CAL_STS.STATE (2 + 0 % 2)).setFld F.NVM.PWR_STS.STATE 1 |>.setFld (F.CH.FE_CFG.MODE 48) 1 |>.setReg (weaveAddr 3 false 0) 0#32 |>.setReg (weaveAddr 3 true 0) 0#32).modSlice 3 fun x => { x with pass := none } with cal := { b.cal with dwell := none, nextGroup := 3, testing := [] }, grid := { b.grid with last := some ⟨77 + 0, 77, 5, 0, 0⟩ }, commits := [{ page := pgCAL }], staged := [(F.CAL.CAL_TOL.GAIN_TOL.addr, 0x12345678#32)] }), 3, by decide +kernel⟩
  · exact ⟨(let b : State := {}; let b : State := b.setBit (F.HDR.INT_ROUTE.INBAND pgNVM) false; ((b).setFld F.CAL.CAL_STS.STATE (0 % 5)).setFld F.NVM.PWR_STS.STATE 3), true, by decide +kernel⟩
  · exact ⟨(let b : State := {}; let b : State := b.setBit (F.HDR.INT_ROUTE.INBAND pgNVM) false; ((b).setFld F.CAL.CAL_STS.STATE calStopped).setFld F.NVM.PWR_STS.STATE 3), by decide +kernel⟩
  · exact ⟨(let b : State := {}; let b : State := b.setBit (F.HDR.INT_ROUTE.INBAND pgNVM) false; ((b).setFld F.CAL.CAL_STS.STATE calStopped).setFld F.NVM.PWR_STS.STATE 3), by decide +kernel⟩

/-- The premises of `Obligations.StreamPacketsClose` are met, clause by clause. -/
theorem test_met_StreamPacketsClose :
    (∃ (s : State) (c : Fin 512) (p : OpenPkt), s.quiet = true ∧ s.role = roleStandby ∧ (s.getChan c.val).pkt = some p
      ∧ p.openedAt + s.maxAgeNs ≤ (s.reachNs (p.openedAt + s.maxAgeNs)).nowNs)
    ∧ (∃ (s : State) (c : Fin 512) (p : OpenPkt), s.quiet = true ∧ (s.getChan c.val).pkt = some p
      ∧ p.openedAt + s.maxAgeNs ≤ (s.reachNs (p.openedAt + s.maxAgeNs)).nowNs)
    ∧ (∃ (s : State) (c : Fin 512), s.quiet = true ∧ (s.getChan c.val).pkt = none)
    ∧ (∃ (s : State) (v : Reg), s.quiet = true)
    ∧ (∃ (s : State) (v : Reg), s.quiet = true ∧ (((List.range 512).all fun c => (s.getChan c).pkt.isNone) = true)) := by
  refine ⟨?_, ?_, ?_, ?_, ?_⟩
  · exact ⟨(let b : State := {}; let c : Fin 512 := 0; (b.setFld F.PAIR.PAIR_STS.ROLE 2).modChan c.val fun x => { x with pkt := some { words := [3, 2], firstIdx := 9, lastN := 40, openedAt := 0, stride := 3 } }), 0, { words := [3, 2], firstIdx := 9, lastN := 40, openedAt := 0, stride := 3 }, by decide +kernel⟩
  · exact ⟨(let b : State := {}; let c : Fin 512 := 0; (b.setFld F.PAIR.PAIR_STS.ROLE 0).modChan c.val fun x => { x with pkt := some { words := [3, 2], firstIdx := 9, lastN := 40, openedAt := 0, stride := 3 } }), 0, { words := [3, 2], firstIdx := 9, lastN := 40, openedAt := 0, stride := 3 }, by decide +kernel⟩
  · exact ⟨(let b : State := {}; let c : Fin 512 := 0; b.modChan c.val fun x => { x with pkt := none }), 0, by decide +kernel⟩
  · exact ⟨(let b : State := {}; (b.modChan 5 fun x => { x with pkt := some { words := [3, 2], firstIdx := 9, lastN := 40, openedAt := 0, stride := 3 } }).modChan 7 fun x => { x with pkt := some { words := [3], firstIdx := 9, lastN := 40, openedAt := b.nowNs } }), BitVec.ofNat 32 (3844675722 % 9), by decide +kernel⟩
  · exact ⟨(let b : State := {}; b), BitVec.ofNat 32 (3844675722), by decide +kernel⟩

/-- The premises of `Obligations.RainDumpsAndTakesItsValues` are met, clause by clause. -/
theorem test_met_RainDumpsAndTakesItsValues :
    (∃ (s : State) (g : Fin 32) (mask : BitVec 16), s.quiet = true ∧ s.follows = false ∧ s.mirrored = false)
    ∧ (∃ (s : State) (g : Fin 32) (mask : BitVec 16), s.quiet = true ∧ s.follows = false)
    ∧ (∃ (s : State) (g : Fin 32) (mask : BitVec 16), s.quiet = true ∧ s.follows = true)
    ∧ (∃ (s : State) (c : Fin 512) (i : Nat), s.quiet = true ∧ s.streamNext = some i ∧ (s.follows = true ∨ s.passRuns (c.val / 16) = false)
      ∧ s.rainPeriodDue c.val (i / 131072) = true ∧ s.bit (F.RAIN.RAIN_CFG.CLEAR_ON_DUMP c.val) = true ∧ s.commits = []
      ∧ s.bit (F.HDR.INT_ROUTE.INBAND (pgRAIN (c.val / 16))) = false)
    ∧ (∃ (s : State) (c : Fin 512), s.quiet = true
      ∧ (s.streamNext = none ∨ s.rainCan c.val = false ∨ s.fld (F.RAIN.DUMP_PERIOD.PERIOD c.val) = 0))
    ∧ (∃ (s : State) (c : Fin 512) (i : Nat), s.quiet = true ∧ s.role = roleStandby ∧ s.streamNext = some i
      ∧ s.rainPeriodDue c.val (i / 131072) = true ∧ s.bit (F.RAIN.RAIN_CFG.RES_COUNT c.val) = false
      ∧ s.bit (F.RAIN.RAIN_CFG.CLEAR_ON_DUMP c.val) = true ∧ s.commits = [] ∧ s.bit (F.HDR.INT_ROUTE.INBAND (pgRAIN (c.val / 16))) = false)
    ∧ (∃ (s : State) (c : Fin 512), s.quiet = true ∧ (s.rainCan c.val = true ∨ s.commitDue (pgRAIN (c.val / 16)) = false))
    ∧ (∃ (s : State) (c : Fin 512) (l : List Nat), s.quiet = true ∧ s.rainCan c.val = false ∧ l.contains (c.val % 16) = true
      ∧ (l.any (fun x => decide (x ≠ c.val % 16)) = true) ∧ s.commits = [{ page := pgRAIN (c.val / 16), chans := l }])
    ∧ (∃ (s : State) (c : Fin 512), s.quiet = true ∧ s.rainCan c.val = false
      ∧ s.commits = [{ page := pgRAIN (c.val / 16), chans := [c.val % 16] }]) := by
  refine ⟨?_, ?_, ?_, ?_, ?_, ?_, ?_, ?_, ?_⟩
  · exact ⟨(let b : State := {}; (b.setFld F.PAIR.PAIR_STS.ROLE 0).setBit (F.CH.RED_CFG.RAIN_EN 3) true |>.setFld (F.CH.FE_CFG.MODE 3) 1), 0, BitVec.ofNat 16 (3844675722), by decide +kernel⟩
  · exact ⟨(let b : State := {}; (b.setFld F.PAIR.PAIR_STS.ROLE 1).setBit (F.CH.RED_CFG.RAIN_EN 3) true |>.setFld (F.CH.FE_CFG.MODE 3) 1), 0, BitVec.ofNat 16 (3844675722), by decide +kernel⟩
  · exact ⟨(let b : State := {}; b.setFld F.PAIR.PAIR_STS.ROLE (2 + 0 % 2)), 0, BitVec.ofNat 16 (3844675722), by decide +kernel⟩
  · exact ⟨(let b : State := {}; let c : Fin 512 := 0; let b : State := { b with commits := [], pair := { b.pair with streamIdx := none } }; let b : State := ({ b with servo := { b.servo with sched := none }, grid := { b.grid with cur := b.countAt (b.finePos / 2 ^ 25) + 1, notBefore := 0 } } : State).setFld F.TICK.TICK_STS.STATE gridRun; let b : State := b.modSlice (b.serving (c.val / 16)) (fun x => { x with pass := none }); let b : State := b.modChan c.val (fun x => { x with rain := { x.rain with lastS := none, stack := [5, -3, 900] } }); ((b.setFld F.PAIR.PAIR_STS.ROLE (0)).setBit (F.HDR.INT_ROUTE.INBAND (pgRAIN (c.val / 16))) false) |>.setFld (F.RAIN.DUMP_PERIOD.PERIOD c.val) 1 |>.setBit (F.CH.RED_CFG.RAIN_EN c.val) true |>.setFld (F.CH.FE_CFG.MODE c.val) 1 |>.setBit (F.RAIN.RAIN_CFG.CLEAR_ON_DUMP c.val) true), 0, (let b : State := {}; (((b.servo.sched.isSome) && false) |> fun _ => let b : State := ({ b with commits := [], servo := { b.servo with sched := none }, pair := { b.pair with streamIdx := none }, grid := { b.grid with cur := b.countAt (b.finePos / 2 ^ 25) + 1, notBefore := 0 } } : State).setFld F.TICK.TICK_STS.STATE gridRun; b.curIdx)), by decide +kernel⟩
  · exact ⟨(let b : State := {}; let c : Fin 512 := 0; b.setBit (F.CH.RED_CFG.RAIN_EN c.val) false), 0, by decide +kernel⟩
  · exact ⟨(let b : State := {}; let c : Fin 512 := 0; let b : State := { b with commits := [], pair := { b.pair with streamIdx := none } }; let b : State := ({ b with servo := { b.servo with sched := none }, grid := { b.grid with cur := b.countAt (b.finePos / 2 ^ 25) + 1, notBefore := 0 } } : State).setFld F.TICK.TICK_STS.STATE gridRun; let b : State := b.modSlice (b.serving (c.val / 16)) (fun x => { x with pass := none }); let b : State := b.modChan c.val (fun x => { x with rain := { x.rain with lastS := none, stack := [5, -3, 900] } }); ((b.setFld F.PAIR.PAIR_STS.ROLE 2).setBit (F.HDR.INT_ROUTE.INBAND (pgRAIN (c.val / 16))) false) |>.setFld (F.RAIN.DUMP_PERIOD.PERIOD c.val) 1 |>.setBit (F.CH.RED_CFG.RAIN_EN c.val) true |>.setFld (F.CH.FE_CFG.MODE c.val) 1 |>.setBit (F.RAIN.RAIN_CFG.CLEAR_ON_DUMP c.val) true |>.setBit (F.RAIN.RAIN_CFG.RES_COUNT c.val) false), 0, (let b : State := {}; (((b.servo.sched.isSome) && false) |> fun _ => let b : State := ({ b with commits := [], servo := { b.servo with sched := none }, pair := { b.pair with streamIdx := none }, grid := { b.grid with cur := b.countAt (b.finePos / 2 ^ 25) + 1, notBefore := 0 } } : State).setFld F.TICK.TICK_STS.STATE gridRun; b.curIdx)), by decide +kernel⟩
  · exact ⟨(let b : State := {}; let c : Fin 512 := 0; { (b.setBit (F.CH.RED_CFG.RAIN_EN c.val) true).setFld (F.CH.FE_CFG.MODE c.val) 1 with commits := [{ page := pgRAIN (c.val / 16), chans := [c.val % 16] }] }), 0, by decide +kernel⟩
  · exact ⟨(let b : State := {}; let c : Fin 512 := 0; { b.setBit (F.CH.RED_CFG.RAIN_EN c.val) false with commits := [{ page := pgRAIN (c.val / 16), chans := [0, 1, 5] }], staged := [((F.RAIN.HYST.HYST c.val).addr, 0x12345678#32)] }), 0, [0, 1, 5], by decide +kernel⟩
  · exact ⟨(let b : State := {}; let c : Fin 512 := 0; { b.setBit (F.CH.RED_CFG.RAIN_EN c.val) false with commits := [{ page := pgRAIN (c.val / 16), chans := [c.val % 16] }], staged := [((F.RAIN.HYST.HYST c.val).addr, 0x12345678#32)] }), 0, by decide +kernel⟩

/-- The premises of `Obligations.CoefficientSetsAndTheirBanks` are met, clause by clause. -/
theorem test_met_CoefficientSetsAndTheirBanks :
    (∃ (fs : Fin 16) (s : State) (v : Reg), s.quiet = true ∧ s.bit (F.HDR.INT_ROUTE.INBAND (pgFIRSET fs.val)) = false)
    ∧ (∃ (fs : Fin 16) (s : State) (bank : Bool) (i : Fin 128) (v : Reg), s.quiet = true
      ∧ s.bit (F.HDR.INT_ROUTE.INBAND (pgFIRSET fs.val)) = false ∧ s.bit (F.FIRSET.FIRSET_CTL.ACT_BANK fs.val) = !bank)
    ∧ (∃ (fs : Fin 16) (s : State) (bank : Bool) (i : Fin 128) (v : Reg), s.quiet = true
      ∧ s.bit (F.HDR.INT_ROUTE.INBAND (pgFIRSET fs.val)) = false ∧ s.bit (F.FIRSET.FIRSET_CTL.ACT_BANK fs.val) = bank)
    ∧ (∃ (fs : Fin 16) (s : State), s.quiet = true ∧ s.bit (F.HDR.INT_ROUTE.INBAND (pgFIRSET fs.val)) = false ∧ s.tickComing = true
      ∧ s.commits = [{ page := pgFIRSET fs.val }]
      ∧ (s.merged (F.FIRSET.FIRSET_CTL.ACT_BANK fs.val).addr 1).getLsbD 0 = !s.bit (F.FIRSET.FIRSET_CTL.ACT_BANK fs.val))
    ∧ (∃ (fs : Fin 16) (s : State), s.quiet = true ∧ s.bit (F.HDR.INT_ROUTE.INBAND (pgFIRSET fs.val)) = false ∧ s.tickComing = true
      ∧ s.commits = [{ page := pgFIRSET fs.val }]
      ∧ (s.merged (F.FIRSET.FIRSET_CTL.ACT_BANK fs.val).addr 1).getLsbD 0 = s.bit (F.FIRSET.FIRSET_CTL.ACT_BANK fs.val))
    ∧ (∃ (fs : Fin 16) (s : State), s.quiet = true ∧ s.bit (F.HDR.INT_ROUTE.INBAND (pgFIRSET fs.val)) = false
      ∧ (s.tickComing = false ∨ s.commitDue (pgFIRSET fs.val) = false)) := by
  refine ⟨?_, ?_, ?_, ?_, ?_, ?_⟩
  · exact ⟨0, (let b : State := {}; let fs : Fin 16 := 0; let b : State := ((b).setBit (F.HDR.INT_ROUTE.INBAND (pgFIRSET fs.val)) false); b), BitVec.ofNat 32 (3844675722), by decide +kernel⟩
  · exact ⟨0, (let b : State := {}; let fs : Fin 16 := 0; let b : State := ((b).setBit (F.HDR.INT_ROUTE.INBAND (pgFIRSET fs.val)) false); b), (let b : State := {}; let fs : Fin 16 := 0; let b : State := ((b).setBit (F.HDR.INT_ROUTE.INBAND (pgFIRSET fs.val)) false); let s : State := (b); !s.bit (F.FIRSET.FIRSET_CTL.ACT_BANK fs.val)), ⟨4157840774 % 128, by omega⟩, BitVec.ofNat 32 (3844675722), by decide +kernel⟩
  · exact ⟨0, (let b : State := {}; let fs : Fin 16 := 0; let b : State := ((b).setBit (F.HDR.INT_ROUTE.INBAND (pgFIRSET fs.val)) false); b), (let b : State := {}; let fs : Fin 16 := 0; let b : State := ((b).setBit (F.HDR.INT_ROUTE.INBAND (pgFIRSET fs.val)) false); let s : State := (b); s.bit (F.FIRSET.FIRSET_CTL.ACT_BANK fs.val)), ⟨4157840774 % 128, by omega⟩, BitVec.ofNat 32 (3844675722), by decide +kernel⟩
  · exact ⟨0, (let b : State := {}; let fs : Fin 16 := 0; let b : State := ((b).setBit (F.HDR.INT_ROUTE.INBAND (pgFIRSET fs.val)) false); let b : State := { b with commits := [] }; let b : State := ({ b with servo := { b.servo with sched := none }, grid := { b.grid with cur := b.countAt (b.finePos / 2 ^ 25) + 1, notBefore := 0 } } : State).setFld F.TICK.TICK_STS.STATE gridRun; { b with commits := [{ page := pgFIRSET fs.val }], staged := [((F.FIRSET.FIRSET_CTL.ACT_BANK fs.val).addr, if b.bit (F.FIRSET.FIRSET_CTL.ACT_BANK fs.val) then 0#32 else 1#32)] }), by decide +kernel⟩
  · exact ⟨0, (let b : State := {}; let fs : Fin 16 := 0; let b : State := ((b).setBit (F.HDR.INT_ROUTE.INBAND (pgFIRSET fs.val)) false); let b : State := { b with commits := [] }; let b : State := ({ b with servo := { b.servo with sched := none }, grid := { b.grid with cur := b.countAt (b.finePos / 2 ^ 25) + 1, notBefore := 0 } } : State).setFld F.TICK.TICK_STS.STATE gridRun; { b with commits := [{ page := pgFIRSET fs.val }], staged := [((F.FIRSET.FIRSET_CTL.ACT_BANK fs.val).addr, if b.bit (F.FIRSET.FIRSET_CTL.ACT_BANK fs.val) then 1#32 else 0#32)] }), by decide +kernel⟩
  · exact ⟨0, (let b : State := {}; let fs : Fin 16 := 0; let b : State := ((b).setBit (F.HDR.INT_ROUTE.INBAND (pgFIRSET fs.val)) false); { b.setFld F.TICK.TICK_STS.STATE gridOff with commits := [{ page := pgFIRSET fs.val }] }), by decide +kernel⟩

/-- The premises of `Obligations.ContextsAreArmed` are met, clause by clause. -/
theorem test_met_ContextsAreArmed :
    (∃ (x : Fin 256) (s : State), s.quiet = true ∧ s.bit (F.HDR.INT_ROUTE.INBAND pgTRIG) = false ∧ s.leads = true ∧ s.mirrored = false
      ∧ s.commits = [] ∧ s.cxSt x.val = cxIdle ∧ s.armCode x.val ((s.cxSet x.val).filter (s.cxTakes x.val)) = 0
      ∧ (s.getCtx x.val).hwmSeen = false ∧ s.cxDiv x.val = 0)
    ∧ (∃ (x : Fin 256) (s : State), s.quiet = true ∧ s.bit (F.HDR.INT_ROUTE.INBAND pgTRIG) = false ∧ s.leads = true ∧ s.mirrored = false
      ∧ s.commits = [] ∧ s.cxSt x.val = cxIdle ∧ s.armCode x.val ((s.cxSet x.val).filter (s.cxTakes x.val)) ≠ 0)
    ∧ (∃ (x : Fin 256) (s : State), s.quiet = true ∧ s.bit (F.HDR.INT_ROUTE.INBAND pgTRIG) = false ∧ s.leads = true ∧ s.mirrored = false
      ∧ s.commits = [] ∧ s.cxSt x.val = cxIdle ∧ s.armCode x.val ((s.cxSet x.val).filter (s.cxTakes x.val)) = 0
      ∧ (s.getCtx x.val).hwmSeen = true ∧ s.cxDiv x.val < 4)
    ∧ (∃ (x : Fin 256) (s : State), s.quiet = true ∧ s.bit (F.HDR.INT_ROUTE.INBAND pgTRIG) = false ∧ s.leads = true ∧ s.mirrored = false
      ∧ s.commits = [] ∧ s.cxSt x.val ≠ cxIdle)
    ∧ (∃ (x : Fin 256) (s : State), s.quiet = true ∧ s.bit (F.HDR.INT_ROUTE.INBAND pgTRIG) = false ∧ s.leads = true ∧ s.mirrored = false
      ∧ s.commits = [] ∧ s.cxSt x.val ≠ cxHoldoff)
    ∧ (∃ (x : Fin 256) (s : State), s.quiet = true ∧ s.bit (F.HDR.INT_ROUTE.INBAND pgTRIG) = false ∧ s.leads = true ∧ s.mirrored = false
      ∧ s.commits = [] ∧ s.cxSt x.val = cxHoldoff ∧ s.fld (F.CTX.CTX_CFG.HOLDOFF_MODE x.val) = 2
      ∧ (s.getCtx x.val).ignored < s.fld (F.CTX.HOLDOFF_CNT.CNT x.val))
    ∧ (∃ (x : Fin 256) (s : State) (tr : Trigger), s.quiet = true ∧ s.bit (F.HDR.INT_ROUTE.INBAND pgTRIG) = false ∧ s.leads = true
      ∧ s.mirrored = false ∧ s.commits = [] ∧ s.cxSt x.val = cxHoldoff ∧ s.fld (F.CTX.CTX_CFG.HOLDOFF_MODE x.val) = 1
      ∧ (s.getCtx x.val).acc = some tr
      ∧ tr.t + 8 * s.fld (F.CTX.HOLDOFF_NS.NS x.val) ≤ 8 * (s.reachNs (ceilDiv (tr.t + 8 * s.fld (F.CTX.HOLDOFF_NS.NS x.val)) 8)).nowNs
      ∧ s.armCode x.val ((s.cxSet x.val).filter (s.cxTakes x.val)) = 0 ∧ (s.getCtx x.val).hwmSeen = false ∧ s.cxDiv x.val = 0)
    ∧ (∃ (x : Fin 256) (s : State), s.quiet = true ∧ s.bit (F.HDR.INT_ROUTE.INBAND pgTRIG) = false ∧ s.leads = true ∧ s.mirrored = false
      ∧ s.commits = [] ∧ s.cxSt x.val = cxDone ∧ s.bit (F.CTX.CTX_CFG.RO_MODE x.val) = true ∧ s.bit (F.CTX.CTX_CFG.REARM_MODE x.val) = true
      ∧ s.fld (F.CTX.CTX_CFG.HOLDOFF_MODE x.val) = 0 ∧ s.armCode x.val ((s.cxSet x.val).filter (s.cxTakes x.val)) = 0
      ∧ (s.getCtx x.val).hwmSeen = false ∧ s.cxDiv x.val = 0)
    ∧ (∃ (x : Fin 256) (s : State), s.quiet = true ∧ s.bit (F.HDR.INT_ROUTE.INBAND pgTRIG) = false ∧ s.leads = true ∧ s.mirrored = false
      ∧ s.commits = [] ∧ s.cxSt x.val = cxDone ∧ s.bit (F.CTX.CTX_CFG.RO_MODE x.val) = true ∧ s.bit (F.CTX.CTX_CFG.REARM_MODE x.val) = true
      ∧ s.holdoffOver x.val = false)
    ∧ (∃ (x : Fin 256) (s : State), s.quiet = true ∧ s.bit (F.HDR.INT_ROUTE.INBAND pgTRIG) = false ∧ s.leads = true ∧ s.mirrored = false
      ∧ s.commits = [] ∧ s.cxSt x.val = cxHoldoff ∧ s.fld (F.CTX.CTX_CFG.HOLDOFF_MODE x.val) = 2
      ∧ s.fld (F.CTX.HOLDOFF_CNT.CNT x.val) ≤ (s.getCtx x.val).ignored ∧ s.armCode x.val ((s.cxSet x.val).filter (s.cxTakes x.val)) = 0
      ∧ (s.getCtx x.val).hwmSeen = false ∧ s.cxDiv x.val = 0) := by
  refine ⟨?_, ?_, ?_, ?_, ?_, ?_, ?_, ?_, ?_, ?_⟩
  · exact ⟨0, (let b : State := {}; let x : Fin 256 := 0; let b : State := (b.setBit (F.HDR.INT_ROUTE.INBAND pgTRIG) false).setFld F.PAIR.PAIR_STS.ROLE 0; let b := (((b.setFld F.PAIR.PAIR_STS.ROLE 0).setFld (F.CTX.CTX_STS.STATE x.val) cxIdle).setFld (F.CTX.REGION.BASE x.val) 4).setFld (F.CTX.REGION.LEN x.val) 2; let b := ((b.setFld (F.CTX.ARM.PRE x.val) 5).setFld (F.CTX.POST.POST x.val) 6).setFld (F.CTX.TRIG_SRC.EN x.val) 1; let b := (((b.setFld (F.CTX.CHSET.CH x.val 0) 8).setFld (F.CH.FE_CFG.MODE 3) 1).setReg (weaveAddr 0 false 0) 0x0C000000#32).setReg (weaveAddr 0 false 1) 0xC0000000#32; let b := ((b.setFld (F.SLICE.SLICE_CTL.ACT_BANK 0) 0).setFld (F.CTX.CTX_STS.DIV_LOG2 x.val) 0).setBit (F.CTX.CTX_CFG.TAP x.val) false; let b := ((List.range 15).foldl (fun (s : State) j => s.setFld (F.CTX.CHSET.CH x.val (j+1)) 0) b); let b := [0, 1, 255].foldl (fun (s : State) y => if y = x.val then s else s.setFld (F.CTX.CTX_STS.STATE y) 0) b; let b := (b.setFld F.TICK.TICK_PERIOD.PERIOD 10000).setFld (F.CH.AVG_CFG.N_M1 3) 0; b), by decide +kernel⟩
  · exact ⟨0, (let b : State := {}; let x : Fin 256 := 0; let b : State := (b.setBit (F.HDR.INT_ROUTE.INBAND pgTRIG) false).setFld F.PAIR.PAIR_STS.ROLE 0; (b.setFld (F.CTX.CTX_STS.STATE x.val) cxIdle).setFld (F.CTX.REGION.LEN x.val) 0), by decide +kernel⟩
  · exact ⟨0, (let b : State := {}; let x : Fin 256 := 0; let b : State := (b.setBit (F.HDR.INT_ROUTE.INBAND pgTRIG) false).setFld F.PAIR.PAIR_STS.ROLE 0; let b := (((b.setFld F.PAIR.PAIR_STS.ROLE 0).setFld (F.CTX.CTX_STS.STATE x.val) cxIdle).setFld (F.CTX.REGION.BASE x.val) 4).setFld (F.CTX.REGION.LEN x.val) 2; let b := ((b.setFld (F.CTX.ARM.PRE x.val) 5).setFld (F.CTX.POST.POST x.val) 6).setFld (F.CTX.TRIG_SRC.EN x.val) 1; let b := (((b.setFld (F.CTX.CHSET.CH x.val 0) 8).setFld (F.CH.FE_CFG.MODE 3) 1).setReg (weaveAddr 0 false 0) 0x0C000000#32).setReg (weaveAddr 0 false 1) 0xC0000000#32; let b := ((b.setFld (F.SLICE.SLICE_CTL.ACT_BANK 0) 0).setFld (F.CTX.CTX_STS.DIV_LOG2 x.val) 0).setBit (F.CTX.CTX_CFG.TAP x.val) false; let b := ((List.range 15).foldl (fun (s : State) j => s.setFld (F.CTX.CHSET.CH x.val (j+1)) 0) b); let b := [0, 1, 255].foldl (fun (s : State) y => if y = x.val then s else s.setFld (F.CTX.CTX_STS.STATE y) 0) b; let b := (b.setFld F.TICK.TICK_PERIOD.PERIOD 10000).setFld (F.CH.AVG_CFG.N_M1 3) 0; let b := b.setFld (F.CTX.CTX_STS.DIV_LOG2 x.val) (0 % 4); b.modCtx x.val fun c => { c with hwmSeen := true }), by decide +kernel⟩
  · exact ⟨0, (let b : State := {}; let x : Fin 256 := 0; let b : State := (b.setBit (F.HDR.INT_ROUTE.INBAND pgTRIG) false).setFld F.PAIR.PAIR_STS.ROLE 0; b.setFld (F.CTX.CTX_STS.STATE x.val) (1 + 0 % 6)), by decide +kernel⟩
  · exact ⟨0, (let b : State := {}; let x : Fin 256 := 0; let b : State := (b.setBit (F.HDR.INT_ROUTE.INBAND pgTRIG) false).setFld F.PAIR.PAIR_STS.ROLE 0; b.setFld (F.CTX.CTX_STS.STATE x.val) (0 % 6)), by decide +kernel⟩
  · exact ⟨0, (let b : State := {}; let x : Fin 256 := 0; let b : State := (b.setBit (F.HDR.INT_ROUTE.INBAND pgTRIG) false).setFld F.PAIR.PAIR_STS.ROLE 0; ((b.setFld (F.CTX.CTX_STS.STATE x.val) 6).setFld (F.CTX.CTX_CFG.HOLDOFF_MODE x.val) 2).setFld (F.CTX.HOLDOFF_CNT.CNT x.val) 30 |>.modCtx x.val fun c => { c with ignored := 4 }), by decide +kernel⟩
  · exact ⟨0, (let b : State := {}; let x : Fin 256 := 0; let b : State := (b.setBit (F.HDR.INT_ROUTE.INBAND pgTRIG) false).setFld F.PAIR.PAIR_STS.ROLE 0; let b0 := b; let b := (((b.setFld F.PAIR.PAIR_STS.ROLE 0).setFld (F.CTX.CTX_STS.STATE x.val) cxHoldoff).setFld (F.CTX.REGION.BASE x.val) 4).setFld (F.CTX.REGION.LEN x.val) 2; let b := ((b.setFld (F.CTX.ARM.PRE x.val) 5).setFld (F.CTX.POST.POST x.val) 6).setFld (F.CTX.TRIG_SRC.EN x.val) 1; let b := (((b.setFld (F.CTX.CHSET.CH x.val 0) 8).setFld (F.CH.FE_CFG.MODE 3) 1).setReg (weaveAddr 0 false 0) 0x0C000000#32).setReg (weaveAddr 0 false 1) 0xC0000000#32; let b := ((b.setFld (F.SLICE.SLICE_CTL.ACT_BANK 0) 0).setFld (F.CTX.CTX_STS.DIV_LOG2 x.val) 0).setBit (F.CTX.CTX_CFG.TAP x.val) false; let b := ((List.range 15).foldl (fun (s : State) j => s.setFld (F.CTX.CHSET.CH x.val (j+1)) 0) b); let b := [0, 1, 255].foldl (fun (s : State) y => if y = x.val then s else s.setFld (F.CTX.CTX_STS.STATE y) 0) b; let b := (b.setFld F.TICK.TICK_PERIOD.PERIOD 10000).setFld (F.CH.AVG_CFG.N_M1 3) 0; let b := (b.setFld (F.CTX.CTX_CFG.HOLDOFF_MODE x.val) 1).setFld (F.CTX.HOLDOFF_NS.NS x.val) (100 + 0); b.modCtx x.val fun c => { c with acc := some { t := 8 * b0.nowNs, src := 1, srcId := 3, arrival := b0.nowNs }, hwmSeen := false }), (let b : State := {}; let x : Fin 256 := 0; let b : State := (b.setBit (F.HDR.INT_ROUTE.INBAND pgTRIG) false).setFld F.PAIR.PAIR_STS.ROLE 0; { t := 8 * b.nowNs, src := 1, srcId := 3, arrival := b.nowNs }), by decide +kernel⟩
  · exact ⟨0, (let b : State := {}; let x : Fin 256 := 0; let b : State := (b.setBit (F.HDR.INT_ROUTE.INBAND pgTRIG) false).setFld F.PAIR.PAIR_STS.ROLE 0; let b := (((b.setFld F.PAIR.PAIR_STS.ROLE 0).setFld (F.CTX.CTX_STS.STATE x.val) cxDone).setFld (F.CTX.REGION.BASE x.val) 4).setFld (F.CTX.REGION.LEN x.val) 2; let b := ((b.setFld (F.CTX.ARM.PRE x.val) 5).setFld (F.CTX.POST.POST x.val) 6).setFld (F.CTX.TRIG_SRC.EN x.val) 1; let b := (((b.setFld (F.CTX.CHSET.CH x.val 0) 8).setFld (F.CH.FE_CFG.MODE 3) 1).setReg (weaveAddr 0 false 0) 0x0C000000#32).setReg (weaveAddr 0 false 1) 0xC0000000#32; let b := ((b.setFld (F.SLICE.SLICE_CTL.ACT_BANK 0) 0).setFld (F.CTX.CTX_STS.DIV_LOG2 x.val) 0).setBit (F.CTX.CTX_CFG.TAP x.val) false; let b := ((List.range 15).foldl (fun (s : State) j => s.setFld (F.CTX.CHSET.CH x.val (j+1)) 0) b); let b := [0, 1, 255].foldl (fun (s : State) y => if y = x.val then s else s.setFld (F.CTX.CTX_STS.STATE y) 0) b; let b := (b.setFld F.TICK.TICK_PERIOD.PERIOD 10000).setFld (F.CH.AVG_CFG.N_M1 3) 0; ((b.setFld (F.CTX.CTX_CFG.HOLDOFF_MODE x.val) 0).setBit (F.CTX.CTX_CFG.RO_MODE x.val) true).setBit (F.CTX.CTX_CFG.REARM_MODE x.val) true), by decide +kernel⟩
  · exact ⟨0, (let b : State := {}; let x : Fin 256 := 0; let b : State := (b.setBit (F.HDR.INT_ROUTE.INBAND pgTRIG) false).setFld F.PAIR.PAIR_STS.ROLE 0; ((b.setFld (F.CTX.CTX_STS.STATE x.val) 5).setFld (F.CTX.CTX_CFG.HOLDOFF_MODE x.val) 2).setFld (F.CTX.HOLDOFF_CNT.CNT x.val) 30 |>.setBit (F.CTX.CTX_CFG.RO_MODE x.val) true |>.setBit (F.CTX.CTX_CFG.REARM_MODE x.val) true |>.modCtx x.val fun c => { c with ignored := 4 }), by decide +kernel⟩
  · exact ⟨0, (let b : State := {}; let x : Fin 256 := 0; let b : State := (b.setBit (F.HDR.INT_ROUTE.INBAND pgTRIG) false).setFld F.PAIR.PAIR_STS.ROLE 0; let b := (((b.setFld F.PAIR.PAIR_STS.ROLE 0).setFld (F.CTX.CTX_STS.STATE x.val) cxHoldoff).setFld (F.CTX.REGION.BASE x.val) 4).setFld (F.CTX.REGION.LEN x.val) 2; let b := ((b.setFld (F.CTX.ARM.PRE x.val) 5).setFld (F.CTX.POST.POST x.val) 6).setFld (F.CTX.TRIG_SRC.EN x.val) 1; let b := (((b.setFld (F.CTX.CHSET.CH x.val 0) 8).setFld (F.CH.FE_CFG.MODE 3) 1).setReg (weaveAddr 0 false 0) 0x0C000000#32).setReg (weaveAddr 0 false 1) 0xC0000000#32; let b := ((b.setFld (F.SLICE.SLICE_CTL.ACT_BANK 0) 0).setFld (F.CTX.CTX_STS.DIV_LOG2 x.val) 0).setBit (F.CTX.CTX_CFG.TAP x.val) false; let b := ((List.range 15).foldl (fun (s : State) j => s.setFld (F.CTX.CHSET.CH x.val (j+1)) 0) b); let b := [0, 1, 255].foldl (fun (s : State) y => if y = x.val then s else s.setFld (F.CTX.CTX_STS.STATE y) 0) b; let b := (b.setFld F.TICK.TICK_PERIOD.PERIOD 10000).setFld (F.CH.AVG_CFG.N_M1 3) 0; let b := (b.setFld (F.CTX.CTX_CFG.HOLDOFF_MODE x.val) 2).setFld (F.CTX.HOLDOFF_CNT.CNT x.val) 3; b.modCtx x.val fun c => { c with ignored := 3 + 0 }), by decide +kernel⟩

/-- The premises of `Obligations.ContextsFillAbortAndRelease` are met, clause by clause. -/
theorem test_met_ContextsFillAbortAndRelease :
    (∃ (x : Fin 256) (s : State), s.quiet = true ∧ s.bit (F.HDR.INT_ROUTE.INBAND pgTRIG) = false ∧ s.leads = true ∧ s.mirrored = false
      ∧ s.gridSt = gridRun ∧ s.cxSt x.val = cxRearm)
    ∧ (∃ (x : Fin 256) (s : State), s.quiet = true ∧ s.bit (F.HDR.INT_ROUTE.INBAND pgTRIG) = false ∧ s.leads = true ∧ s.mirrored = false
      ∧ (s.cxSt x.val = cxRearm ∨ s.cxSt x.val = cxFill ∨ s.cxSt x.val = cxArmed ∨ s.cxSt x.val = cxHoldoff))
    ∧ (∃ (x : Fin 256) (s : State), s.quiet = true ∧ s.bit (F.HDR.INT_ROUTE.INBAND pgTRIG) = false ∧ s.leads = true ∧ s.mirrored = false
      ∧ s.cxSt x.val = cxPost)
    ∧ (∃ (x : Fin 256) (s : State), s.quiet = true ∧ s.bit (F.HDR.INT_ROUTE.INBAND pgTRIG) = false ∧ s.leads = true ∧ s.mirrored = false
      ∧ s.cxSt x.val = cxDone ∧ s.bit (F.CTX.CTX_CFG.RO_MODE x.val) = true ∧ s.bit (F.CTX.CTX_CFG.REARM_MODE x.val) = false)
    ∧ (∃ (x : Fin 256) (s : State), s.quiet = true ∧ s.bit (F.HDR.INT_ROUTE.INBAND pgTRIG) = false ∧ s.leads = true ∧ s.mirrored = false
      ∧ s.cxSt x.val = cxDone ∧ s.bit (F.CTX.CTX_CFG.RO_MODE x.val) = false)
    ∧ (∃ (x : Fin 256) (s : State), s.quiet = true ∧ s.bit (F.HDR.INT_ROUTE.INBAND pgTRIG) = false ∧ s.leads = true ∧ s.mirrored = false
      ∧ (s.cxSt x.val = cxFill ∨ s.cxSt x.val = cxArmed) ∧ s.fld F.NVM.PWR_STS.STATE ≠ 3 ∧ s.srcOn x.val 0 = true)
    ∧ (∃ (x : Fin 256) (s : State), s.quiet = true ∧ s.bit (F.HDR.INT_ROUTE.INBAND pgTRIG) = false ∧ s.leads = true ∧ s.mirrored = false
      ∧ (s.cxSt x.val = cxFill ∨ s.cxSt x.val = cxArmed) ∧ s.fld F.NVM.PWR_STS.STATE ≠ 3 ∧ s.srcOn x.val 6 = true
      ∧ 0 < s.fld (F.CTX.TIMER_PERIOD.MS x.val))
    ∧ (∃ (x : Fin 256) (s : State), s.quiet = true ∧ s.bit (F.HDR.INT_ROUTE.INBAND pgTRIG) = false
      ∧ (s.gridSt ≠ gridRun ∨ s.cxSt x.val ≠ cxRearm))
    ∧ (∃ (x : Fin 256) (s : State), s.quiet = true ∧ s.bit (F.HDR.INT_ROUTE.INBAND pgTRIG) = false ∧ s.leads = true ∧ s.mirrored = false
      ∧ (s.cxSt x.val = cxIdle ∨ s.cxSt x.val = cxDone))
    ∧ (∃ (x : Fin 256) (s : State), s.quiet = true ∧ s.bit (F.HDR.INT_ROUTE.INBAND pgTRIG) = false ∧ s.leads = true
      ∧ (s.cxSt x.val = cxRearm ∨ s.cxSt x.val = cxFill ∨ s.cxSt x.val = cxArmed ∨ s.cxSt x.val = cxHoldoff))
    ∧ (∃ (x : Fin 256) (s : State), s.quiet = true ∧ s.bit (F.HDR.INT_ROUTE.INBAND pgTRIG) = false ∧ s.leads = true ∧ s.mirrored = false
      ∧ s.cxSt x.val ≠ cxDone)
    ∧ (∃ (x : Fin 256) (s : State), s.quiet = true ∧ s.bit (F.HDR.INT_ROUTE.INBAND pgTRIG) = false ∧ s.follows = true)
    ∧ (∃ (x : Fin 256) (s : State), s.quiet = true ∧ s.bit (F.HDR.INT_ROUTE.INBAND pgTRIG) = false ∧ s.follows = true)
    ∧ (∃ (x : Fin 256) (s : State), s.quiet = true ∧ s.bit (F.HDR.INT_ROUTE.INBAND pgTRIG) = false ∧ s.follows = true)
    ∧ (∃ (x : Fin 256) (s : State), s.quiet = true ∧ s.bit (F.HDR.INT_ROUTE.INBAND pgTRIG) = false ∧ s.follows = true)
    ∧ (∃ (x : Fin 256) (s : State), s.quiet = true ∧ s.bit (F.HDR.INT_ROUTE.INBAND pgTRIG) = false ∧ s.leads = true ∧ s.mirrored = false
      ∧ (s.cxSt x.val = cxIdle ∨ s.srcOn x.val 0 = false))
    ∧ (∃ (x : Fin 256) (s : State), s.quiet = true ∧ s.bit (F.HDR.INT_ROUTE.INBAND pgTRIG) = false ∧ s.leads = true ∧ s.mirrored = false
      ∧ s.cxSt x.val ≠ cxIdle ∧ s.cxSt x.val ≠ cxFill ∧ s.cxSt x.val ≠ cxArmed ∧ s.srcOn x.val 0 = true)
    ∧ (∃ (x : Fin 256) (s : State), s.quiet = true ∧ s.bit (F.HDR.INT_ROUTE.INBAND pgTRIG) = false
      ∧ (s.cxSt x.val = cxIdle ∨ s.srcOn x.val 6 = false ∨ s.fld (F.CTX.TIMER_PERIOD.MS x.val) = 0))
    ∧ (∃ (x : Fin 256) (s : State), s.quiet = true ∧ s.bit (F.HDR.INT_ROUTE.INBAND pgTRIG) = false ∧ s.leads = true ∧ s.mirrored = false
      ∧ s.cxSt x.val ≠ cxIdle ∧ s.cxSt x.val ≠ cxFill ∧ s.cxSt x.val ≠ cxArmed ∧ s.srcOn x.val 6 = true
      ∧ 0 < s.fld (F.CTX.TIMER_PERIOD.MS x.val))
    ∧ (∃ (x : Fin 256) (s : State), s.quiet = true ∧ s.bit (F.HDR.INT_ROUTE.INBAND pgTRIG) = false
      ∧ (s.leads = false ∨ s.yielding = true ∨ s.stalledAt pgTRIG = true))
    ∧ (∃ (x : Fin 256) (s : State), s.quiet = true ∧ s.bit (F.HDR.INT_ROUTE.INBAND pgTRIG) = false ∧ (s.getCtx x.val).waiting = [])
    ∧ (∃ (x : Fin 256) (s : State) (tr : Trigger), s.quiet = true ∧ s.bit (F.HDR.INT_ROUTE.INBAND pgTRIG) = false ∧ s.leads = true
      ∧ s.mirrored = false ∧ s.yielding = false ∧ s.stalledAt pgTRIG = false ∧ (s.getCtx x.val).waiting = [tr]
      ∧ (s.cxSt x.val = cxFill ∨ s.cxSt x.val = cxArmed) ∧ tr.asleep = false ∧ 8 * (tr.arrival + nsPerSec) < tr.t)
    ∧ (∃ (x : Fin 256) (s : State) (tr : Trigger), s.quiet = true ∧ s.bit (F.HDR.INT_ROUTE.INBAND pgTRIG) = false ∧ s.leads = true
      ∧ s.mirrored = false ∧ s.yielding = false ∧ s.stalledAt pgTRIG = false ∧ (s.getCtx x.val).waiting = [tr] ∧ tr.asleep = false
      ∧ tr.t ≤ 8 * (tr.arrival + nsPerSec) ∧ s.grid.runs = [] ∧ s.grid.backs = [] ∧ s.gridSt ≠ gridCatchup ∧ s.cxSt x.val = cxFill
      ∧ s.bit (F.CTX.ARM.PRE_STRICT x.val) = true)
    ∧ (∃ (x : Fin 256) (s : State) (tr : Trigger), s.quiet = true ∧ s.bit (F.HDR.INT_ROUTE.INBAND pgTRIG) = false ∧ s.leads = true
      ∧ s.mirrored = false ∧ s.yielding = false ∧ s.stalledAt pgTRIG = false ∧ (s.getCtx x.val).waiting = [tr] ∧ tr.asleep = false
      ∧ tr.t ≤ 8 * (tr.arrival + nsPerSec) ∧ s.grid.runs = [] ∧ s.grid.backs = [] ∧ s.gridSt ≠ gridCatchup
      ∧ (s.cxSt x.val = cxArmed ∨ s.cxSt x.val = cxFill ∧ s.bit (F.CTX.ARM.PRE_STRICT x.val) = false) ∧ s.cxPostEff x.val = 0
      ∧ (((List.range 256).all fun y => !s.srcOn y 5) = true) ∧ s.bit (F.CTX.CTX_CFG.RING_TX_EN x.val) = false
      ∧ s.bit (F.CTX.CTX_CFG.WALE_TX_EN x.val) = false)
    ∧ (∃ (x : Fin 256) (s : State) (tr : Trigger), s.quiet = true ∧ s.bit (F.HDR.INT_ROUTE.INBAND pgTRIG) = false ∧ s.leads = true
      ∧ s.mirrored = false ∧ s.yielding = false ∧ s.stalledAt pgTRIG = false ∧ (s.getCtx x.val).waiting = [tr] ∧ tr.asleep = false
      ∧ tr.t ≤ 8 * (tr.arrival + nsPerSec) ∧ s.grid.runs = [] ∧ s.grid.backs = [] ∧ s.gridSt ≠ gridCatchup ∧ s.cxSt x.val = cxFill
      ∧ s.bit (F.CTX.ARM.PRE_STRICT x.val) = false ∧ s.cxPostEff x.val ≠ 0
      ∧ (((s.getCtx x.val).members.any fun m => !m.done && m.trigPos.isNone && !memberEnds m) = true)
      ∧ (((List.range 256).all fun y => !s.srcOn y 5) = true) ∧ s.bit (F.CTX.CTX_CFG.RING_TX_EN x.val) = false
      ∧ s.bit (F.CTX.CTX_CFG.WALE_TX_EN x.val) = false)
    ∧ (∃ (x : Fin 256) (s : State) (tr : Trigger), s.quiet = true ∧ s.bit (F.HDR.INT_ROUTE.INBAND pgTRIG) = false ∧ s.leads = true
      ∧ s.mirrored = false ∧ s.yielding = false ∧ s.stalledAt pgTRIG = false ∧ (s.getCtx x.val).waiting = [tr] ∧ s.cxSt x.val = cxArmed
      ∧ tr.asleep = false ∧ tr.t ≤ 8 * (tr.arrival + nsPerSec) ∧ s.grid.runs = [] ∧ s.grid.backs = [] ∧ s.gridSt ≠ gridCatchup
      ∧ s.cxPostEff x.val ≠ 0 ∧ (((s.getCtx x.val).members.any fun m => !m.done && m.trigPos.isNone && !memberEnds m) = true)
      ∧ (((List.range 256).all fun y => !s.srcOn y 5) = true) ∧ s.bit (F.CTX.CTX_CFG.RING_TX_EN x.val) = false
      ∧ s.bit (F.CTX.CTX_CFG.WALE_TX_EN x.val) = false) := by
  refine ⟨?_, ?_, ?_, ?_, ?_, ?_, ?_, ?_, ?_, ?_, ?_, ?_, ?_, ?_, ?_, ?_, ?_, ?_, ?_, ?_, ?_, ?_, ?_, ?_, ?_, ?_⟩
  · exact ⟨0, (let b : State := {}; let x : Fin 256 := 0; let b : State := (b.setBit (F.HDR.INT_ROUTE.INBAND pgTRIG) false).setFld F.PAIR.PAIR_STS.ROLE 0; ((b.setFld F.TICK.TICK_STS.STATE gridRun).setFld (F.CTX.CTX_STS.STATE x.val) cxRearm).setFld (F.CTX.ARM.PRE x.val) (0 % 2)), by decide +kernel⟩
  · exact ⟨0, (let b : State := {}; let x : Fin 256 := 0; let b : State := (b.setBit (F.HDR.INT_ROUTE.INBAND pgTRIG) false).setFld F.PAIR.PAIR_STS.ROLE 0; (b.modCtx x.val fun c => { c with waiting := [{ t := 8 * b.nowNs, src := 1, srcId := 3, arrival := b.nowNs }] }).setFld (F.CTX.CTX_STS.STATE x.val) (1 + 0 % 4)), by decide +kernel⟩
  · exact ⟨0, (let b : State := {}; let x : Fin 256 := 0; let b : State := (b.setBit (F.HDR.INT_ROUTE.INBAND pgTRIG) false).setFld F.PAIR.PAIR_STS.ROLE 0; b.setFld (F.CTX.CTX_STS.STATE x.val) cxPost), by decide +kernel⟩
  · exact ⟨0, (let b : State := {}; let x : Fin 256 := 0; let b : State := (b.setBit (F.HDR.INT_ROUTE.INBAND pgTRIG) false).setFld F.PAIR.PAIR_STS.ROLE 0; ((b.setFld (F.CTX.CTX_STS.STATE x.val) cxDone).setBit (F.CTX.CTX_CFG.RO_MODE x.val) true).setBit (F.CTX.CTX_CFG.REARM_MODE x.val) false), by decide +kernel⟩
  · exact ⟨0, (let b : State := {}; let x : Fin 256 := 0; let b : State := (b.setBit (F.HDR.INT_ROUTE.INBAND pgTRIG) false).setFld F.PAIR.PAIR_STS.ROLE 0; (b.setFld (F.CTX.CTX_STS.STATE x.val) cxDone).setBit (F.CTX.CTX_CFG.RO_MODE x.val) false), by decide +kernel⟩
  · exact ⟨0, (let b : State := {}; let x : Fin 256 := 0; let b : State := (b.setBit (F.HDR.INT_ROUTE.INBAND pgTRIG) false).setFld F.PAIR.PAIR_STS.ROLE 0; (b.setFld (F.CTX.CTX_STS.STATE x.val) (2 + 0 % 2)).setFld F.NVM.PWR_STS.STATE 1 |>.setFld (F.CTX.TRIG_SRC.EN x.val) 1), by decide +kernel⟩
  · exact ⟨0, (let b : State := {}; let x : Fin 256 := 0; let b : State := (b.setBit (F.HDR.INT_ROUTE.INBAND pgTRIG) false).setFld F.PAIR.PAIR_STS.ROLE 0; ((b.setFld (F.CTX.CTX_STS.STATE x.val) (2 + 0 % 2) |>.setFld F.NVM.PWR_STS.STATE 1).setFld (F.CTX.TRIG_SRC.EN x.val) 64).setFld (F.CTX.TIMER_PERIOD.MS x.val) 20), by decide +kernel⟩
  · exact ⟨0, (let b : State := {}; let x : Fin 256 := 0; let b : State := (b.setBit (F.HDR.INT_ROUTE.INBAND pgTRIG) false).setFld F.PAIR.PAIR_STS.ROLE 0; b.setFld (F.CTX.CTX_STS.STATE x.val) (0)), by decide +kernel⟩
  · exact ⟨0, (let b : State := {}; let x : Fin 256 := 0; let b : State := (b.setBit (F.HDR.INT_ROUTE.INBAND pgTRIG) false).setFld F.PAIR.PAIR_STS.ROLE 0; b.setFld (F.CTX.CTX_STS.STATE x.val) (0)), by decide +kernel⟩
  · exact ⟨0, (let b : State := {}; let x : Fin 256 := 0; let b : State := (b.setBit (F.HDR.INT_ROUTE.INBAND pgTRIG) false).setFld F.PAIR.PAIR_STS.ROLE 0; (b.modCtx x.val fun c => { c with waiting := [{ t := 8 * b.nowNs, src := 1, srcId := 3, arrival := b.nowNs }] }).setFld (F.CTX.CTX_STS.STATE x.val) (1 + 0 % 4) |>.setFld F.PAIR.PAIR_STS.ROLE 1 |>.setFld F.PAIR.PAIR_STS.PARTNER_ROLE 2), by decide +kernel⟩
  · exact ⟨0, (let b : State := {}; let x : Fin 256 := 0; let b : State := (b.setBit (F.HDR.INT_ROUTE.INBAND pgTRIG) false).setFld F.PAIR.PAIR_STS.ROLE 0; b.setFld (F.CTX.CTX_STS.STATE x.val) (0 % 5)), by decide +kernel⟩
  · exact ⟨0, (let b : State := {}; let b : State := (b.setBit (F.HDR.INT_ROUTE.INBAND pgTRIG) false).setFld F.PAIR.PAIR_STS.ROLE 0; b.setFld F.PAIR.PAIR_STS.ROLE (2 + 0 % 2)), by decide +kernel⟩
  · exact ⟨0, (let b : State := {}; let b : State := (b.setBit (F.HDR.INT_ROUTE.INBAND pgTRIG) false).setFld F.PAIR.PAIR_STS.ROLE 0; b.setFld F.PAIR.PAIR_STS.ROLE (2 + 0 % 2)), by decide +kernel⟩
  · exact ⟨0, (let b : State := {}; let b : State := (b.setBit (F.HDR.INT_ROUTE.INBAND pgTRIG) false).setFld F.PAIR.PAIR_STS.ROLE 0; b.setFld F.PAIR.PAIR_STS.ROLE (2 + 0 % 2)), by decide +kernel⟩
  · exact ⟨0, (let b : State := {}; let b : State := (b.setBit (F.HDR.INT_ROUTE.INBAND pgTRIG) false).setFld F.PAIR.PAIR_STS.ROLE 0; b.setFld F.PAIR.PAIR_STS.ROLE (2 + 0 % 2)), by decide +kernel⟩
  · exact ⟨0, (let b : State := {}; let x : Fin 256 := 0; let b : State := (b.setBit (F.HDR.INT_ROUTE.INBAND pgTRIG) false).setFld F.PAIR.PAIR_STS.ROLE 0; b.setFld (F.CTX.CTX_STS.STATE x.val) 0), by decide +kernel⟩
  · exact ⟨0, (let b : State := {}; let x : Fin 256 := 0; let b : State := (b.setBit (F.HDR.INT_ROUTE.INBAND pgTRIG) false).setFld F.PAIR.PAIR_STS.ROLE 0; (b.setFld (F.CTX.CTX_STS.STATE x.val) (1)).setFld (F.CTX.TRIG_SRC.EN x.val) 1), by decide +kernel⟩
  · exact ⟨0, (let b : State := {}; let x : Fin 256 := 0; let b : State := (b.setBit (F.HDR.INT_ROUTE.INBAND pgTRIG) false).setFld F.PAIR.PAIR_STS.ROLE 0; b.setFld (F.CTX.CTX_STS.STATE x.val) 0), by decide +kernel⟩
  · exact ⟨0, (let b : State := {}; let x : Fin 256 := 0; let b : State := (b.setBit (F.HDR.INT_ROUTE.INBAND pgTRIG) false).setFld F.PAIR.PAIR_STS.ROLE 0; ((b.setFld (F.CTX.CTX_STS.STATE x.val) (1)).setFld (F.CTX.TRIG_SRC.EN x.val) 64).setFld (F.CTX.TIMER_PERIOD.MS x.val) 20), by decide +kernel⟩
  · exact ⟨0, (let b : State := {}; let x : Fin 256 := 0; let b : State := (b.setBit (F.HDR.INT_ROUTE.INBAND pgTRIG) false).setFld F.PAIR.PAIR_STS.ROLE 0; (b.modCtx x.val fun c => { c with waiting := [{ t := 8 * b.nowNs, src := 1, srcId := 3, arrival := b.nowNs }] }).setFld F.PAIR.PAIR_STS.ROLE (2 + 0 % 2)), by decide +kernel⟩
  · exact ⟨0, (let b : State := {}; let x : Fin 256 := 0; let b : State := (b.setBit (F.HDR.INT_ROUTE.INBAND pgTRIG) false).setFld F.PAIR.PAIR_STS.ROLE 0; b.modCtx x.val fun c => { c with waiting := [] }), by decide +kernel⟩
  · exact ⟨0, (let b : State := {}; let x : Fin 256 := 0; let b : State := (b.setBit (F.HDR.INT_ROUTE.INBAND pgTRIG) false).setFld F.PAIR.PAIR_STS.ROLE 0; (b.modCtx x.val fun c => { c with waiting := [{ t := 8 * (b.nowNs + nsPerSec) + 1 + 0, src := 1, srcId := 3, arrival := b.nowNs }] }).setFld (F.CTX.CTX_STS.STATE x.val) (2 + 0 % 2)), (let b : State := {}; let x : Fin 256 := 0; let b : State := (b.setBit (F.HDR.INT_ROUTE.INBAND pgTRIG) false).setFld F.PAIR.PAIR_STS.ROLE 0; { t := 8 * (b.nowNs + nsPerSec) + 1 + 0, src := 1, srcId := 3, arrival := b.nowNs }), by decide +kernel⟩
  · exact ⟨0, (let b : State := {}; let x : Fin 256 := 0; let b : State := (b.setBit (F.HDR.INT_ROUTE.INBAND pgTRIG) false).setFld F.PAIR.PAIR_STS.ROLE 0; (b.modCtx x.val fun c => { c with waiting := [{ t := 8 * b.nowNs, src := 1, srcId := 3, arrival := b.nowNs }] }).setFld (F.CTX.CTX_STS.STATE x.val) 2 |>.setBit (F.CTX.ARM.PRE_STRICT x.val) true |>.setFld F.TICK.TICK_STS.STATE 2), (let b : State := {}; let x : Fin 256 := 0; let b : State := (b.setBit (F.HDR.INT_ROUTE.INBAND pgTRIG) false).setFld F.PAIR.PAIR_STS.ROLE 0; { t := 8 * b.nowNs, src := 1, srcId := 3, arrival := b.nowNs }), by decide +kernel⟩
  · exact ⟨0, (let b : State := {}; let x : Fin 256 := 0; let b : State := (b.setBit (F.HDR.INT_ROUTE.INBAND pgTRIG) false).setFld F.PAIR.PAIR_STS.ROLE 0; let b0 := b; let b := ((b.setFld (F.CTX.CTX_STS.STATE x.val) (2)).setFld (F.CTX.ARM_INFO.POST_EFF x.val) 0).setBit (F.CTX.CTX_CFG.RING_TX_EN x.val) false |>.setBit (F.CTX.ARM.PRE_STRICT x.val) false; let b := (b.setBit (F.CTX.CTX_CFG.WALE_TX_EN x.val) false).setFld F.TICK.TICK_STS.STATE 2; let b := [0, 1, 255].foldl (fun (s : State) y => s.setFld (F.CTX.TRIG_SRC.EN y) 2) b; b.modCtx x.val fun c => { c with waiting := [{ t := 8 * b0.nowNs, src := 1, srcId := 3, arrival := b0.nowNs }], members := [{ ch := 3 }] }), (let b : State := {}; let x : Fin 256 := 0; let b : State := (b.setBit (F.HDR.INT_ROUTE.INBAND pgTRIG) false).setFld F.PAIR.PAIR_STS.ROLE 0; { t := 8 * b.nowNs, src := 1, srcId := 3, arrival := b.nowNs }), by decide +kernel⟩
  · exact ⟨0, (let b : State := {}; let x : Fin 256 := 0; let b : State := (b.setBit (F.HDR.INT_ROUTE.INBAND pgTRIG) false).setFld F.PAIR.PAIR_STS.ROLE 0; let b0 := b; let b := ((b.setFld (F.CTX.CTX_STS.STATE x.val) 2).setFld (F.CTX.ARM_INFO.POST_EFF x.val) (1 + 0)).setBit (F.CTX.CTX_CFG.RING_TX_EN x.val) false |>.setBit (F.CTX.ARM.PRE_STRICT x.val) false; let b := (b.setBit (F.CTX.CTX_CFG.WALE_TX_EN x.val) false).setFld F.TICK.TICK_STS.STATE 2; let b := [0, 1, 255].foldl (fun (s : State) y => s.setFld (F.CTX.TRIG_SRC.EN y) 2) b; b.modCtx x.val fun c => { c with waiting := [{ t := 8 * b0.nowNs, src := 1, srcId := 3, arrival := b0.nowNs }], members := [{ ch := 3 }] }), (let b : State := {}; let x : Fin 256 := 0; let b : State := (b.setBit (F.HDR.INT_ROUTE.INBAND pgTRIG) false).setFld F.PAIR.PAIR_STS.ROLE 0; { t := 8 * b.nowNs, src := 1, srcId := 3, arrival := b.nowNs }), by decide +kernel⟩
  · exact ⟨0, (let b : State := {}; let x : Fin 256 := 0; let b : State := (b.setBit (F.HDR.INT_ROUTE.INBAND pgTRIG) false).setFld F.PAIR.PAIR_STS.ROLE 0; let b0 := b; let b := ((b.setFld (F.CTX.CTX_STS.STATE x.val) cxArmed).setFld (F.CTX.ARM_INFO.POST_EFF x.val) (1 + 0)).setBit (F.CTX.CTX_CFG.RING_TX_EN x.val) false; let b := (b.setBit (F.CTX.CTX_CFG.WALE_TX_EN x.val) false).setFld F.TICK.TICK_STS.STATE 2; let b := [0, 1, 255].foldl (fun (s : State) y => s.setFld (F.CTX.TRIG_SRC.EN y) 2) b; b.modCtx x.val fun c => { c with waiting := [{ t := 8 * b0.nowNs, src := 1, srcId := 3, arrival := b0.nowNs }], members := [{ ch := 3 }] }), (let b : State := {}; let x : Fin 256 := 0; let b : State := (b.setBit (F.HDR.INT_ROUTE.INBAND pgTRIG) false).setFld F.PAIR.PAIR_STS.ROLE 0; { t := 8 * b.nowNs, src := 1, srcId := 3, arrival := b.nowNs }), by decide +kernel⟩

/-- The premises of `Obligations.RecordsAreReadOut` are met, clause by clause. -/
theorem test_met_RecordsAreReadOut :
    (∃ (s : State) (x : Fin 256) (c : Nat), s.quiet = true ∧ s.stalledAt pgTRIG = false ∧ s.bit F.ARB_MEM.ARB_CTL.FREEZE = false
      ∧ s.bit (F.HDR.INT_ROUTE.INBAND pgTRIG) = false ∧ s.trig.order = [(c, x.val)] ∧ s.trig.rd0 = none)
    ∧ (∃ (s : State) (e : Fin 2) (x : Fin 256) (g : Engine), s.quiet = true ∧ s.stalledAt pgTRIG = false
      ∧ s.bit F.ARB_MEM.ARB_CTL.FREEZE = false ∧ s.bit (F.HDR.INT_ROUTE.INBAND pgTRIG) = false ∧ s.role = roleStandby
      ∧ s.engine e.val = some g ∧ g.ctx = x.val ∧ g.phase = 0 ∧ (s.getCtx x.val).released = false)
    ∧ (∃ (s : State), s.quiet = true ∧ s.stalledAt pgTRIG = false ∧ s.bit F.ARB_MEM.ARB_CTL.FREEZE = false
      ∧ s.bit (F.HDR.INT_ROUTE.INBAND pgTRIG) = false ∧ s.trig.order = [])
    ∧ (∃ (s : State), s.quiet = true ∧ s.stalledAt pgTRIG = false ∧ s.bit F.ARB_MEM.ARB_CTL.FREEZE = false
      ∧ s.bit (F.HDR.INT_ROUTE.INBAND pgTRIG) = false ∧ s.trig.rd0.isSome = true ∧ s.trig.rd1.isSome = true)
    ∧ (∃ (s : State) (x : Fin 256) (y : Fin 256) (c : Nat) (d : Nat), s.quiet = true ∧ s.stalledAt pgTRIG = false
      ∧ s.bit F.ARB_MEM.ARB_CTL.FREEZE = false ∧ s.bit (F.HDR.INT_ROUTE.INBAND pgTRIG) = false ∧ s.trig.order = [(d, y.val), (c, x.val)]
      ∧ (c < d ∨ c = d ∧ x.val < y.val) ∧ s.trig.rd0.isSome = true ∧ s.trig.rd1 = none)
    ∧ (∃ (s : State) (e : Fin 2), s.quiet = true ∧ s.stalledAt pgTRIG = false ∧ s.bit F.ARB_MEM.ARB_CTL.FREEZE = false
      ∧ s.bit (F.HDR.INT_ROUTE.INBAND pgTRIG) = false ∧ s.engine e.val = none)
    ∧ (∃ (s : State) (e : Fin 2) (x : Fin 256) (g : Engine) (m : Member), s.quiet = true ∧ s.stalledAt pgTRIG = false
      ∧ s.bit F.ARB_MEM.ARB_CTL.FREEZE = false ∧ s.bit (F.HDR.INT_ROUTE.INBAND pgTRIG) = false ∧ s.role = roleStandby
      ∧ s.engine e.val = some g ∧ g.ctx = x.val ∧ g.phase = 1 ∧ (s.getCtx x.val).released = false ∧ (s.getCtx x.val).held[g.k]? = some m
      ∧ 0 < m.count)
    ∧ (∃ (s : State) (e : Fin 2) (x : Fin 256) (g : Engine), s.quiet = true ∧ s.stalledAt pgTRIG = false
      ∧ s.bit F.ARB_MEM.ARB_CTL.FREEZE = false ∧ s.bit (F.HDR.INT_ROUTE.INBAND pgTRIG) = false ∧ s.role = roleStandby
      ∧ s.engine e.val = some g ∧ g.ctx = x.val ∧ g.phase = 2 ∧ (s.getCtx x.val).released = false ∧ s.capEcc = []
      ∧ (s.enginePacket g).1 ≠ [])
    ∧ (∃ (s : State) (e : Fin 2) (x : Fin 256) (g : Engine), s.quiet = true ∧ s.stalledAt pgTRIG = false
      ∧ s.bit F.ARB_MEM.ARB_CTL.FREEZE = false ∧ s.bit (F.HDR.INT_ROUTE.INBAND pgTRIG) = false ∧ s.role = roleStandby
      ∧ s.engine e.val = some g ∧ g.ctx = x.val ∧ (g.phase = 3 ∨ (s.getCtx x.val).released = true)
      ∧ s.bit (F.CTX.CTX_CFG.REARM_MODE x.val) = false)
    ∧ (∃ (s : State) (e : Fin 2) (x : Fin 256) (g : Engine), s.quiet = true ∧ s.stalledAt pgTRIG = false
      ∧ s.bit F.ARB_MEM.ARB_CTL.FREEZE = false ∧ s.bit (F.HDR.INT_ROUTE.INBAND pgTRIG) = false ∧ s.leads = true ∧ s.mirrored = false
      ∧ s.engine e.val = some g ∧ g.ctx = x.val ∧ g.phase = 0 ∧ (s.getCtx x.val).released = false
      ∧ s.qAccepts (s.fld (F.CTX.CTX_CFG.RO_Q x.val)) 14 = true ∧ s.commits = [])
    ∧ (∃ (s : State) (now : Bool), s.quiet = true ∧ s.stalledAt pgTRIG = false ∧ s.bit F.ARB_MEM.ARB_CTL.FREEZE = false
      ∧ s.bit (F.HDR.INT_ROUTE.INBAND pgTRIG) = false ∧ s.leads = false)
    ∧ (∃ (s : State) (now : Bool), s.quiet = true ∧ s.stalledAt pgTRIG = false ∧ s.bit F.ARB_MEM.ARB_CTL.FREEZE = false
      ∧ s.bit (F.HDR.INT_ROUTE.INBAND pgTRIG) = false ∧ s.leads = true)
    ∧ (∃ (s : State), s.quiet = true ∧ s.stalledAt pgTRIG = false ∧ s.bit F.ARB_MEM.ARB_CTL.FREEZE = false
      ∧ s.bit (F.HDR.INT_ROUTE.INBAND pgTRIG) = false ∧ s.bit F.TRIG.TRIG_CTL.SCRUB_EN = false)
    ∧ (∃ (s : State), s.quiet = true ∧ s.stalledAt pgTRIG = false ∧ s.bit F.ARB_MEM.ARB_CTL.FREEZE = false
      ∧ s.bit (F.HDR.INT_ROUTE.INBAND pgTRIG) = false ∧ s.bit F.TRIG.TRIG_CTL.SCRUB_EN = true ∧ s.stalledAt pgARBMEM = false
      ∧ s.capEcc = [])
    ∧ (∃ (s : State), s.quiet = true ∧ s.stalledAt pgTRIG = false ∧ s.bit F.ARB_MEM.ARB_CTL.FREEZE = false
      ∧ s.bit (F.HDR.INT_ROUTE.INBAND pgTRIG) = false ∧ s.bit F.TRIG.TRIG_CTL.SCRUB_EN = true ∧ s.stalledAt pgARBMEM = false
      ∧ s.capEcc = [(s.trig.scrub, 1)])
    ∧ (∃ (s : State) (now : Bool), s.quiet = true ∧ s.stalledAt pgTRIG = false ∧ s.bit F.ARB_MEM.ARB_CTL.FREEZE = false
      ∧ s.bit (F.HDR.INT_ROUTE.INBAND pgTRIG) = false ∧ s.leads = true ∧ s.bit F.TRIG.TRIG_CTL.RING_RX_EN = false) := by
  refine ⟨?_, ?_, ?_, ?_, ?_, ?_, ?_, ?_, ?_, ?_, ?_, ?_, ?_, ?_, ?_, ?_⟩
  · exact ⟨(let b : State := {}; let b : State := (b.setBit (F.HDR.INT_ROUTE.INBAND pgTRIG) false).setBit F.ARB_MEM.ARB_CTL.FREEZE false; { b with trig := { b.trig with order := [(12, (0 : Fin 256).val)] } }), 0, 12, by decide +kernel⟩
  · exact ⟨(let b : State := {}; let b : State := (b.setBit (F.HDR.INT_ROUTE.INBAND pgTRIG) false).setBit F.ARB_MEM.ARB_CTL.FREEZE false; let g : Engine := { ctx := (0 : Fin 256).val }; { b.setFld F.PAIR.PAIR_STS.ROLE 2 with trig := { b.trig with rd0 := some g, rd1 := some g } }), 0, 0, { ctx := (0 : Fin 256).val }, by decide +kernel⟩
  · exact ⟨(let b : State := {}; let b : State := (b.setBit (F.HDR.INT_ROUTE.INBAND pgTRIG) false).setBit F.ARB_MEM.ARB_CTL.FREEZE false; { b with trig := { b.trig with order := [] } }), by decide +kernel⟩
  · exact ⟨(let b : State := {}; let b : State := (b.setBit (F.HDR.INT_ROUTE.INBAND pgTRIG) false).setBit F.ARB_MEM.ARB_CTL.FREEZE false; { b with trig := { b.trig with order := [(12, 5)], rd0 := some { ctx := 1 }, rd1 := some { ctx := 2 } } }), by decide +kernel⟩
  · exact ⟨(let b : State := {}; let b : State := (b.setBit (F.HDR.INT_ROUTE.INBAND pgTRIG) false).setBit F.ARB_MEM.ARB_CTL.FREEZE false; { b with trig := { b.trig with order := [(12, 7), (12, 5)], rd0 := some { ctx := 9 }, rd1 := none } }), 5, 7, 12, 12, by decide +kernel⟩
  · exact ⟨(let b : State := {}; let b : State := (b.setBit (F.HDR.INT_ROUTE.INBAND pgTRIG) false).setBit F.ARB_MEM.ARB_CTL.FREEZE false; { b with trig := { b.trig with rd0 := none, rd1 := none } }), 0, by decide +kernel⟩
  · exact ⟨(let b : State := {}; let b : State := (b.setBit (F.HDR.INT_ROUTE.INBAND pgTRIG) false).setBit F.ARB_MEM.ARB_CTL.FREEZE false; let g : Engine := { ctx := (0 : Fin 256).val, phase := 1 }; let b : State := { b.setFld F.PAIR.PAIR_STS.ROLE 2 with capEcc := [], trig := { b.trig with rd0 := some g, rd1 := some g } }; b.modCtx g.ctx fun c => { c with released := false, held := [{ ch := 3, count := 5 + 0, preActual := 2 }] }), 0, 0, { ctx := (0 : Fin 256).val, phase := 1 }, { ch := 3, count := 5 + 0, preActual := 2 }, by decide +kernel⟩
  · exact ⟨(let b : State := {}; let b : State := (b.setBit (F.HDR.INT_ROUTE.INBAND pgTRIG) false).setBit F.ARB_MEM.ARB_CTL.FREEZE false; let g : Engine := { ctx := (0 : Fin 256).val, phase := 2 }; let b : State := { b.setFld F.PAIR.PAIR_STS.ROLE 2 with capEcc := [], trig := { b.trig with rd0 := some g, rd1 := some g } }; b.modCtx g.ctx (fun c => { c with released := false, held := [{ ch := 3, count := 5 + 0, preActual := 2 }] }) |>.setFld (F.CTX.CTX_STS.C g.ctx) 100), 0, 0, { ctx := (0 : Fin 256).val, phase := 2 }, by decide +kernel⟩
  · exact ⟨(let b : State := {}; let b : State := (b.setBit (F.HDR.INT_ROUTE.INBAND pgTRIG) false).setBit F.ARB_MEM.ARB_CTL.FREEZE false; let g : Engine := { ctx := (0 : Fin 256).val, phase := 3 }; let b : State := { b.setFld F.PAIR.PAIR_STS.ROLE 2 with capEcc := [], trig := { b.trig with rd0 := some g, rd1 := some g } }; b.setBit (F.CTX.CTX_CFG.REARM_MODE g.ctx) false), 0, 0, { ctx := (0 : Fin 256).val, phase := 3 }, by decide +kernel⟩
  · exact ⟨(let b : State := {}; let b : State := (b.setBit (F.HDR.INT_ROUTE.INBAND pgTRIG) false).setBit F.ARB_MEM.ARB_CTL.FREEZE false; let g : Engine := { ctx := (0 : Fin 256).val, phase := 0 }; let b : State := { b.setFld F.PAIR.PAIR_STS.ROLE 2 with capEcc := [], trig := { b.trig with rd0 := some g, rd1 := some g } }; b.setFld F.PAIR.PAIR_STS.ROLE 0 |>.setFld (F.CTX.CTX_CFG.RO_Q g.ctx) 5 |>.setBit (F.Q.Q_CFG.EN 5) true |>.setFld (F.Q.Q_CFG.SIZE_LOG2 5) 10 |>.modQ 5 (fun x => { x with pkts := [], wp := 0, wp2 := 0, rp := 0, rp2 := 0, pend := {} }) |>.modCtx g.ctx fun c => { c with released := false }), 0, 0, { ctx := (0 : Fin 256).val }, by decide +kernel⟩
  · exact ⟨(let b : State := {}; let b : State := (b.setBit (F.HDR.INT_ROUTE.INBAND pgTRIG) false).setBit F.ARB_MEM.ARB_CTL.FREEZE false; b.setFld F.PAIR.PAIR_STS.ROLE (2 + 0 % 2)), true, by decide +kernel⟩
  · exact ⟨(let b : State := {}; let b : State := (b.setBit (F.HDR.INT_ROUTE.INBAND pgTRIG) false).setBit F.ARB_MEM.ARB_CTL.FREEZE false; (b.setFld F.PAIR.PAIR_STS.ROLE 0).setBit F.TRIG.TRIG_CTL.RING_RX_EN true), true, by decide +kernel⟩
  · exact ⟨(let b : State := {}; let b : State := (b.setBit (F.HDR.INT_ROUTE.INBAND pgTRIG) false).setBit F.ARB_MEM.ARB_CTL.FREEZE false; b.setBit F.TRIG.TRIG_CTL.SCRUB_EN false), by decide +kernel⟩
  · exact ⟨(let b : State := {}; let b : State := (b.setBit (F.HDR.INT_ROUTE.INBAND pgTRIG) false).setBit F.ARB_MEM.ARB_CTL.FREEZE false; b.setBit F.TRIG.TRIG_CTL.SCRUB_EN true), by decide +kernel⟩
  · exact ⟨(let b : State := {}; let b : State := (b.setBit (F.HDR.INT_ROUTE.INBAND pgTRIG) false).setBit F.ARB_MEM.ARB_CTL.FREEZE false; { b.setBit F.TRIG.TRIG_CTL.SCRUB_EN true with capEcc := [(b.trig.scrub, 1)] }), by decide +kernel⟩
  · exact ⟨(let b : State := {}; let b : State := (b.setBit (F.HDR.INT_ROUTE.INBAND pgTRIG) false).setBit F.ARB_MEM.ARB_CTL.FREEZE false; (b.setFld F.PAIR.PAIR_STS.ROLE 0).setBit F.TRIG.TRIG_CTL.RING_RX_EN false), true, by decide +kernel⟩

/-- The premises of `Obligations.QueuesFlushAndTakeMarkers` are met, clause by clause. -/
theorem test_met_QueuesFlushAndTakeMarkers :
    (∃ (q : Fin 64) (s : State), s.quiet = true ∧ s.bit (F.HDR.INT_ROUTE.INBAND (pgQ q.val)) = false ∧ s.leads = true ∧ s.mirrored = false
      ∧ (s.getQ q.val).wp = (s.getQ q.val).wp2 ∧ (s.getQ q.val).rp = (s.getQ q.val).rp2 ∧ s.qOpen q.val = true)
    ∧ (∃ (q : Fin 64) (s : State), s.quiet = true ∧ s.bit (F.HDR.INT_ROUTE.INBAND (pgQ q.val)) = false ∧ s.leads = true ∧ s.mirrored = false
      ∧ s.qOpen q.val = false)
    ∧ (∃ (q : Fin 64) (s : State), s.quiet = true ∧ s.bit (F.HDR.INT_ROUTE.INBAND (pgQ q.val)) = false ∧ s.leads = true
      ∧ s.qOpen q.val = true)
    ∧ (∃ (q : Fin 64) (s : State), s.quiet = true ∧ s.bit (F.HDR.INT_ROUTE.INBAND (pgQ q.val)) = false ∧ s.follows = true)
    ∧ (∃ (q : Fin 64) (s : State), s.quiet = true ∧ s.bit (F.HDR.INT_ROUTE.INBAND (pgQ q.val)) = false
      ∧ (s.getQ q.val).wp = (s.getQ q.val).wp2 ∧ (s.getQ q.val).rp = (s.getQ q.val).rp2
      ∧ (s.bit (F.Q.Q_STS.FLUSHING q.val) = false ∨ s.follows = true))
    ∧ (∃ (q : Fin 64) (s : State), s.quiet = true ∧ s.bit (F.HDR.INT_ROUTE.INBAND (pgQ q.val)) = false ∧ s.leads = false)
    ∧ (∃ (q : Fin 64) (s : State), s.quiet = true ∧ s.bit (F.HDR.INT_ROUTE.INBAND (pgQ q.val)) = false
      ∧ (s.getQ q.val).wp = (s.getQ q.val).wp2 ∧ (s.getQ q.val).rp = (s.getQ q.val).rp2 ∧ pendAny (s.getQ q.val).pend = false)
    ∧ (∃ (q : Fin 64) (s : State), s.quiet = true ∧ s.bit (F.HDR.INT_ROUTE.INBAND (pgQ q.val)) = false ∧ s.leads = true ∧ s.mirrored = false
      ∧ (s.getQ q.val).wp ≠ (s.getQ q.val).wp2 ∧ (s.getQ q.val).pend = {})
    ∧ (∃ (q : Fin 64) (s : State), s.quiet = true ∧ s.bit (F.HDR.INT_ROUTE.INBAND (pgQ q.val)) = false ∧ s.leads = true ∧ s.mirrored = false
      ∧ (s.getQ q.val).wp = (s.getQ q.val).wp2 ∧ (s.getQ q.val).rp = (s.getQ q.val).rp2 ∧ s.bit (F.Q.Q_STS.FLUSHING q.val) = true
      ∧ s.stalledAt (pgQ q.val) = false ∧ (s.getQ q.val).pend = {})
    ∧ (∃ (q : Fin 64) (s : State), s.quiet = true ∧ s.bit (F.HDR.INT_ROUTE.INBAND (pgQ q.val)) = false ∧ s.leads = true ∧ s.mirrored = false
      ∧ (s.getQ q.val).wp = (s.getQ q.val).wp2 ∧ (s.getQ q.val).rp = (s.getQ q.val).rp2 ∧ pendAny (s.getQ q.val).pend = true
      ∧ s.qFits q.val ((pendWords (s.getQ q.val).pend).length + 1) = true) := by
  refine ⟨?_, ?_, ?_, ?_, ?_, ?_, ?_, ?_, ?_, ?_⟩
  · exact ⟨0, (let b : State := {}; let q : Fin 64 := 0; let b : State := ((b).setBit (F.HDR.INT_ROUTE.INBAND (pgQ q.val)) false).setFld F.PAIR.PAIR_STS.ROLE 0 |>.setFld (F.Q.Q_CFG.SIZE_LOG2 q.val) 10; b.setBit (F.Q.Q_CFG.EN q.val) true), by decide +kernel⟩
  · exact ⟨0, (let b : State := {}; let q : Fin 64 := 0; let b : State := ((b).setBit (F.HDR.INT_ROUTE.INBAND (pgQ q.val)) false).setFld F.PAIR.PAIR_STS.ROLE 0 |>.setFld (F.Q.Q_CFG.SIZE_LOG2 q.val) 10; b.setBit (F.Q.Q_CFG.EN q.val) false), by decide +kernel⟩
  · exact ⟨0, (let b : State := {}; let q : Fin 64 := 0; let b : State := ((b).setBit (F.HDR.INT_ROUTE.INBAND (pgQ q.val)) false).setFld F.PAIR.PAIR_STS.ROLE 0 |>.setFld (F.Q.Q_CFG.SIZE_LOG2 q.val) 10; b.setBit (F.Q.Q_CFG.EN q.val) true |>.setFld F.PAIR.PAIR_STS.ROLE 1 |>.setFld F.PAIR.PAIR_STS.PARTNER_ROLE 2), by decide +kernel⟩
  · exact ⟨0, (let b : State := {}; let q : Fin 64 := 0; let b : State := ((b).setBit (F.HDR.INT_ROUTE.INBAND (pgQ q.val)) false).setFld F.PAIR.PAIR_STS.ROLE 0 |>.setFld (F.Q.Q_CFG.SIZE_LOG2 q.val) 10; b.setFld F.PAIR.PAIR_STS.ROLE (2 + 0 % 2)), by decide +kernel⟩
  · exact ⟨0, (let b : State := {}; let q : Fin 64 := 0; let b : State := ((b).setBit (F.HDR.INT_ROUTE.INBAND (pgQ q.val)) false).setFld F.PAIR.PAIR_STS.ROLE 0 |>.setFld (F.Q.Q_CFG.SIZE_LOG2 q.val) 10; b.setBit (F.Q.Q_STS.FLUSHING q.val) false), by decide +kernel⟩
  · exact ⟨0, (let b : State := {}; let q : Fin 64 := 0; let b : State := ((b).setBit (F.HDR.INT_ROUTE.INBAND (pgQ q.val)) false).setFld F.PAIR.PAIR_STS.ROLE 0 |>.setFld (F.Q.Q_CFG.SIZE_LOG2 q.val) 10; b.setFld F.PAIR.PAIR_STS.ROLE (2 + 0 % 2)), by decide +kernel⟩
  · exact ⟨0, (let b : State := {}; let q : Fin 64 := 0; let b : State := ((b).setBit (F.HDR.INT_ROUTE.INBAND (pgQ q.val)) false).setFld F.PAIR.PAIR_STS.ROLE 0 |>.setFld (F.Q.Q_CFG.SIZE_LOG2 q.val) 10; b.modQ q.val fun x => { x with pend := {} }), by decide +kernel⟩
  · exact ⟨0, (let b : State := {}; let q : Fin 64 := 0; let b : State := ((b).setBit (F.HDR.INT_ROUTE.INBAND (pgQ q.val)) false).setFld F.PAIR.PAIR_STS.ROLE 0 |>.setFld (F.Q.Q_CFG.SIZE_LOG2 q.val) 10; (b.setBit (F.Q.Q_CFG.EN q.val) true).modQ q.val fun x => { x with pkts := [⟨5, 1, 0, 0, none, false⟩], wp := 5, wp2 := 7, pend := {} }), by decide +kernel⟩
  · exact ⟨0, (let b : State := {}; let q : Fin 64 := 0; let b : State := ((b).setBit (F.HDR.INT_ROUTE.INBAND (pgQ q.val)) false).setFld F.PAIR.PAIR_STS.ROLE 0 |>.setFld (F.Q.Q_CFG.SIZE_LOG2 q.val) 10; (b.setBit (F.Q.Q_STS.FLUSHING q.val) true).modQ q.val fun x => { x with pkts := [⟨5, 1, 0, 0, none, false⟩], wp := 5, wp2 := 5 }), by decide +kernel⟩
  · exact ⟨0, (let b : State := {}; let q : Fin 64 := 0; let b : State := ((b).setBit (F.HDR.INT_ROUTE.INBAND (pgQ q.val)) false).setFld F.PAIR.PAIR_STS.ROLE 0 |>.setFld (F.Q.Q_CFG.SIZE_LOG2 q.val) 10; (b.setBit (F.Q.Q_CFG.EN q.val) true).modQ q.val fun x => { x with pend := { timeStep := some 77, epoch := some ⟨5, 6⟩} }), by decide +kernel⟩

/-- The premises of `Obligations.QueuesAreReadAndCommitted` are met, clause by clause. -/
theorem test_met_QueuesAreReadAndCommitted :
    (∃ (q : Fin 64) (p : Path) (s : State), s.quiet = true ∧ s.bit (F.HDR.INT_ROUTE.INBAND (pgQ q.val)) = false ∧ s.mirrored = false
      ∧ (s.getQ q.val).wp = (s.getQ q.val).wp2 ∧ (s.getQ q.val).rp = (s.getQ q.val).rp2 ∧ s.qHost q.val = true ∧ s.qLevel q.val ≠ 0
      ∧ s.stalledAt (pgQ q.val) = false)
    ∧ (∃ (q : Fin 64) (p : Path) (s : State), s.quiet = true ∧ s.bit (F.HDR.INT_ROUTE.INBAND (pgQ q.val)) = false ∧ s.mirrored = false
      ∧ (s.getQ q.val).wp = (s.getQ q.val).wp2 ∧ (s.getQ q.val).rp = (s.getQ q.val).rp2 ∧ s.qHost q.val = true ∧ s.qLevel q.val = 0)
    ∧ (∃ (q : Fin 64) (p : Path) (s : State), s.quiet = true ∧ s.bit (F.HDR.INT_ROUTE.INBAND (pgQ q.val)) = false ∧ s.mirrored = false
      ∧ (s.getQ q.val).wp = (s.getQ q.val).wp2 ∧ (s.getQ q.val).rp = (s.getQ q.val).rp2 ∧ s.qHost q.val = false)
    ∧ (∃ (q : Fin 64) (p : Path) (s : State), s.quiet = true ∧ s.bit (F.HDR.INT_ROUTE.INBAND (pgQ q.val)) = false ∧ s.mirrored = false
      ∧ (s.getQ q.val).wp = (s.getQ q.val).wp2 ∧ (s.getQ q.val).rp = (s.getQ q.val).rp2 ∧ s.qHost q.val = false)
    ∧ (∃ (q : Fin 64) (p : Path) (s : State), s.quiet = true ∧ s.bit (F.HDR.INT_ROUTE.INBAND (pgQ q.val)) = false ∧ s.mirrored = false
      ∧ (s.getQ q.val).wp = (s.getQ q.val).wp2 ∧ (s.getQ q.val).rp = (s.getQ q.val).rp2 ∧ s.qHost q.val = true
      ∧ sget none (s.latches p).data q.val = none)
    ∧ (∃ (q : Fin 64) (p : Path) (s : State) (v : Reg), s.quiet = true ∧ s.bit (F.HDR.INT_ROUTE.INBAND (pgQ q.val)) = false
      ∧ s.mirrored = false ∧ (s.getQ q.val).wp = (s.getQ q.val).wp2 ∧ (s.getQ q.val).rp = (s.getQ q.val).rp2 ∧ s.qHost q.val = true
      ∧ sget none (s.latches p).data q.val = some v)
    ∧ (∃ (q : Fin 64) (p : Path) (s : State), s.quiet = true ∧ s.bit (F.HDR.INT_ROUTE.INBAND (pgQ q.val)) = false ∧ s.mirrored = false
      ∧ (s.getQ q.val).wp = (s.getQ q.val).wp2 ∧ (s.getQ q.val).rp = (s.getQ q.val).rp2 ∧ s.commits = [{ page := pgQ q.val }]
      ∧ s.qEn q.val = false ∧ (s.merged (F.Q.Q_CFG.EN q.val).addr 1).getLsbD 0 = false)
    ∧ (∃ (q : Fin 64) (p : Path) (s : State), s.quiet = true ∧ s.bit (F.HDR.INT_ROUTE.INBAND (pgQ q.val)) = false ∧ s.mirrored = false
      ∧ (s.getQ q.val).wp = (s.getQ q.val).wp2 ∧ (s.getQ q.val).rp = (s.getQ q.val).rp2 ∧ s.commitDue (pgQ q.val) = false)
    ∧ (∃ (q : Fin 64) (p : Path) (s : State), s.quiet = true ∧ s.bit (F.HDR.INT_ROUTE.INBAND (pgQ q.val)) = false ∧ s.mirrored = false
      ∧ (s.getQ q.val).wp = (s.getQ q.val).wp2 ∧ (s.getQ q.val).rp = (s.getQ q.val).rp2 ∧ s.commits = [{ page := pgQ q.val }]
      ∧ s.qEn q.val = false ∧ getBits (s.stg (F.Q.Q_CFG.EN q.val).addr) 0 1 = 1)
    ∧ (∃ (q : Fin 64) (p : Path) (s : State), s.quiet = true ∧ s.bit (F.HDR.INT_ROUTE.INBAND (pgQ q.val)) = false ∧ s.mirrored = false
      ∧ (s.getQ q.val).wp = (s.getQ q.val).wp2 ∧ (s.getQ q.val).rp = (s.getQ q.val).rp2 ∧ s.commits = [{ page := pgQ q.val }]
      ∧ s.qEn q.val = true ∧ getBits (s.stg (F.Q.Q_CFG.EN q.val).addr) 0 1 = 0) := by
  refine ⟨?_, ?_, ?_, ?_, ?_, ?_, ?_, ?_, ?_, ?_⟩
  · exact ⟨0, .qspi, (let b : State := {}; let q : Fin 64 := 0; let b : State := ((b).setBit (F.HDR.INT_ROUTE.INBAND (pgQ q.val)) false).setFld F.PAIR.PAIR_STS.ROLE 0 |>.setFld (F.Q.Q_CFG.SIZE_LOG2 q.val) 10; let b := (b.setBit (F.Q.Q_CFG.DRAIN q.val) true).modQ q.val fun x => { x with pkts := [⟨2, 1, 0, 0, none, false⟩], wp := 2 + 0 % 2, wp2 := 2 + 0 % 2, rp := 0 % 2, rp2 := 0 % 2 }; b.setQWord (b.qAddr q.val (0 % 2)) (BitVec.ofNat 40 (3844675722 * 256 + 9))), by decide +kernel⟩
  · exact ⟨0, .qspi, (let b : State := {}; let q : Fin 64 := 0; let b : State := ((b).setBit (F.HDR.INT_ROUTE.INBAND (pgQ q.val)) false).setFld F.PAIR.PAIR_STS.ROLE 0 |>.setFld (F.Q.Q_CFG.SIZE_LOG2 q.val) 10; b.setBit (F.Q.Q_CFG.DRAIN q.val) true), by decide +kernel⟩
  · exact ⟨0, .qspi, (let b : State := {}; let q : Fin 64 := 0; let b : State := ((b).setBit (F.HDR.INT_ROUTE.INBAND (pgQ q.val)) false).setFld F.PAIR.PAIR_STS.ROLE 0 |>.setFld (F.Q.Q_CFG.SIZE_LOG2 q.val) 10; b.setBit (F.Q.Q_CFG.DRAIN q.val) false), by decide +kernel⟩
  · exact ⟨0, .qspi, (let b : State := {}; let q : Fin 64 := 0; let b : State := ((b).setBit (F.HDR.INT_ROUTE.INBAND (pgQ q.val)) false).setFld F.PAIR.PAIR_STS.ROLE 0 |>.setFld (F.Q.Q_CFG.SIZE_LOG2 q.val) 10; b.setBit (F.Q.Q_CFG.DRAIN q.val) false), by decide +kernel⟩
  · exact ⟨0, .qspi, (let b : State := {}; let q : Fin 64 := 0; let b : State := ((b).setBit (F.HDR.INT_ROUTE.INBAND (pgQ q.val)) false).setFld F.PAIR.PAIR_STS.ROLE 0 |>.setFld (F.Q.Q_CFG.SIZE_LOG2 q.val) 10; let b := (b.setBit (F.Q.Q_CFG.DRAIN q.val) true).modQ q.val fun x => { x with pkts := [⟨2, 1, 0, 0, none, false⟩], wp := 1 + 0 % 2, wp2 := 1 + 0 % 2, rp := 1, rp2 := 1 }; b.setQWord (b.qAddr q.val 1) (BitVec.ofNat 40 (3844675722 * 256 + 9))), by decide +kernel⟩
  · exact ⟨0, .qspi, (let b : State := {}; let q : Fin 64 := 0; let p : Path := .qspi; let b : State := ((b).setBit (F.HDR.INT_ROUTE.INBAND (pgQ q.val)) false).setFld F.PAIR.PAIR_STS.ROLE 0 |>.setFld (F.Q.Q_CFG.SIZE_LOG2 q.val) 10; (b.setBit (F.Q.Q_CFG.DRAIN q.val) true).modLatches p fun l => { l with data := [(q.val, some 7#32)] }), 7#32, by decide +kernel⟩
  · exact ⟨0, .qspi, (let b : State := {}; let q : Fin 64 := 0; let b : State := ((b).setBit (F.HDR.INT_ROUTE.INBAND (pgQ q.val)) false).setFld F.PAIR.PAIR_STS.ROLE 0 |>.setFld (F.Q.Q_CFG.SIZE_LOG2 q.val) 10; { b.setBit (F.Q.Q_CFG.EN q.val) false with commits := [{ page := pgQ q.val }], staged := [((F.Q.Q_CFG.EN q.val).addr, 0x00100C08#32)] }), by decide +kernel⟩
  · exact ⟨0, .qspi, (let b : State := {}; let q : Fin 64 := 0; let b : State := ((b).setBit (F.HDR.INT_ROUTE.INBAND (pgQ q.val)) false).setFld F.PAIR.PAIR_STS.ROLE 0 |>.setFld (F.Q.Q_CFG.SIZE_LOG2 q.val) 10; { b with commits := [] }), by decide +kernel⟩
  · exact ⟨0, .qspi, (let b : State := {}; let q : Fin 64 := 0; let b : State := ((b).setBit (F.HDR.INT_ROUTE.INBAND (pgQ q.val)) false).setFld F.PAIR.PAIR_STS.ROLE 0 |>.setFld (F.Q.Q_CFG.SIZE_LOG2 q.val) 10; ({ b.setBit (F.Q.Q_CFG.EN q.val) false with commits := [{ page := pgQ q.val }], staged := [((F.Q.Q_CFG.EN q.val).addr, 0x00100C09#32)] } : State).modQ q.val fun x => { x with disWords := 0, disPkts := 0 % 2 }), by decide +kernel⟩
  · exact ⟨0, .qspi, (let b : State := {}; let q : Fin 64 := 0; let b : State := ((b).setBit (F.HDR.INT_ROUTE.INBAND (pgQ q.val)) false).setFld F.PAIR.PAIR_STS.ROLE 0 |>.setFld (F.Q.Q_CFG.SIZE_LOG2 q.val) 10; ({ b.setBit (F.Q.Q_CFG.EN q.val) true with commits := [{ page := pgQ q.val }], staged := [((F.Q.Q_CFG.EN q.val).addr, 0x00100C08#32)] } : State).modQ q.val fun x => { x with pkts := [⟨5, 1, 0, 0, none, false⟩], wp := 5, wp2 := 5 }), by decide +kernel⟩

/-- The premises of `Obligations.ArbitersGrantAndFreeze` are met, clause by clause. -/
theorem test_met_ArbitersGrantAndFreeze :
    (∃ (s : State) (req : BitVec 8) (i : Fin 8), s.quiet = true ∧ s.bit (F.HDR.INT_ROUTE.INBAND pgARBMEM) = false
      ∧ s.bit (F.HDR.INT_ROUTE.INBAND pgARBTX) = false ∧ s.stalledAt pgARBMEM = false ∧ s.arbMem.owner = none
      ∧ s.bit F.ARB_MEM.ARB_CTL.FREEZE = false ∧ (s.arbPick .mem ((List.range 8).filter fun i => req.getLsbD i) = some i.val))
    ∧ (∃ (s : State) (req : BitVec 8) (i : Fin 8), s.quiet = true ∧ s.bit (F.HDR.INT_ROUTE.INBAND pgARBMEM) = false
      ∧ s.bit (F.HDR.INT_ROUTE.INBAND pgARBTX) = false ∧ s.stalledAt pgARBMEM = false ∧ s.arbMem.owner = none
      ∧ s.bit F.ARB_MEM.ARB_CTL.FREEZE = false ∧ (s.arbPick .mem ((List.range 8).filter fun i => req.getLsbD i) = some i.val) ∧ i.val < 4)
    ∧ (∃ (s : State) (req : BitVec 8) (o : Fin 8), s.quiet = true ∧ s.bit (F.HDR.INT_ROUTE.INBAND pgARBMEM) = false
      ∧ s.bit (F.HDR.INT_ROUTE.INBAND pgARBTX) = false ∧ s.stalledAt pgARBMEM = false ∧ s.arbMem.owner = some o.val
      ∧ req.getLsbD o.val = true ∧ s.bit F.ARB_MEM.ARB_CTL.FREEZE = false
      ∧ (((List.range 8).any fun i => req.getLsbD i && decide (i ≠ o.val)) = false))
    ∧ (∃ (s : State) (req : BitVec 8), s.quiet = true ∧ s.bit (F.HDR.INT_ROUTE.INBAND pgARBMEM) = false
      ∧ s.bit (F.HDR.INT_ROUTE.INBAND pgARBTX) = false ∧ s.stalledAt pgARBMEM = true)
    ∧ (∃ (s : State) (req : BitVec 8), s.quiet = true ∧ s.bit (F.HDR.INT_ROUTE.INBAND pgARBMEM) = false
      ∧ s.bit (F.HDR.INT_ROUTE.INBAND pgARBTX) = false ∧ s.stalledAt pgARBMEM = false ∧ s.arbMem.owner = none
      ∧ s.bit F.ARB_MEM.ARB_CTL.FREEZE = true)
    ∧ (∃ (s : State), s.quiet = true ∧ s.bit (F.HDR.INT_ROUTE.INBAND pgARBMEM) = false ∧ s.bit (F.HDR.INT_ROUTE.INBAND pgARBTX) = false
      ∧ (s.txStopped = true ∨ s.stalledAt pgARBTX = true))
    ∧ (∃ (s : State) (i : Fin 64) (p : Pkt) (l : List Pkt), s.quiet = true ∧ s.bit (F.HDR.INT_ROUTE.INBAND pgARBMEM) = false
      ∧ s.bit (F.HDR.INT_ROUTE.INBAND pgARBTX) = false ∧ s.txStopped = false ∧ s.stalledAt pgARBTX = false
      ∧ s.bit F.ARB_TX.ARB_CTL.FREEZE = false ∧ s.arbPick .tx s.txRequests = some i.val ∧ (s.getQ i.val).wp = (s.getQ i.val).wp2
      ∧ (s.getQ i.val).rp = (s.getQ i.val).rp2 ∧ (s.getQ i.val).pkts = p :: l ∧ s.qLevel i.val ≠ 0 ∧ s.fenced = false ∧ s.portUp .a = true)
    ∧ (∃ (s : State) (f : Frame) (e : Nat) (h : HubHdr) (ws : List Word), s.quiet = true ∧ s.bit (F.HDR.INT_ROUTE.INBAND pgARBMEM) = false
      ∧ s.bit (F.HDR.INT_ROUTE.INBAND pgARBTX) = false ∧ s.txStopped = false ∧ s.stalledAt pgARBTX = false
      ∧ s.bit F.ARB_TX.ARB_CTL.FREEZE = false ∧ s.arbPick .tx s.txRequests = some 64 ∧ s.net.mgmtTx = [(f, none)] ∧ f.body = .hub e h ws
      ∧ s.netSends = true ∧ s.portUp .a = true)
    ∧ (∃ (s : State), s.quiet = true ∧ s.bit (F.HDR.INT_ROUTE.INBAND pgARBMEM) = false ∧ s.bit (F.HDR.INT_ROUTE.INBAND pgARBTX) = false
      ∧ s.txStopped = false ∧ s.stalledAt pgARBTX = false ∧ s.arbPick .tx s.txRequests = none)
    ∧ (∃ (s : State) (p : Port) (f : Frame), s.quiet = true ∧ s.bit (F.HDR.INT_ROUTE.INBAND pgARBMEM) = false
      ∧ s.bit (F.HDR.INT_ROUTE.INBAND pgARBTX) = false ∧ s.txStopped = false ∧ s.stalledAt pgARBTX = false
      ∧ s.bit F.ARB_TX.ARB_CTL.FREEZE = false ∧ s.net.ptpTx = [(p, f)] ∧ s.portUp p = true ∧ s.arbPick .tx s.txRequests = some 65)
    ∧ (∃ (s : State), s.quiet = true ∧ s.bit (F.HDR.INT_ROUTE.INBAND pgARBMEM) = false ∧ s.bit (F.HDR.INT_ROUTE.INBAND pgARBTX) = false
      ∧ s.bit F.ARB_MEM.ARB_CTL.FREEZE = false ∧ s.memMayFreeze = true ∧ s.arbMem.owner = none)
    ∧ (∃ (s : State), s.quiet = true ∧ s.bit (F.HDR.INT_ROUTE.INBAND pgARBMEM) = false ∧ s.bit (F.HDR.INT_ROUTE.INBAND pgARBTX) = false
      ∧ s.bit F.ARB_MEM.ARB_CTL.FREEZE = false ∧ s.memMayFreeze = false)
    ∧ (∃ (s : State), s.quiet = true ∧ s.bit (F.HDR.INT_ROUTE.INBAND pgARBMEM) = false ∧ s.bit (F.HDR.INT_ROUTE.INBAND pgARBTX) = false
      ∧ s.bit F.ARB_MEM.ARB_CTL.FREEZE = false ∧ s.memMayFreeze = true ∧ s.arbMem.owner.isSome = true)
    ∧ (∃ (s : State), s.quiet = true ∧ s.bit (F.HDR.INT_ROUTE.INBAND pgARBMEM) = false ∧ s.bit (F.HDR.INT_ROUTE.INBAND pgARBTX) = false
      ∧ s.bit F.ARB_MEM.ARB_CTL.FREEZE = true)
    ∧ (∃ (s : State) (a : Arbiter) (on : Bool), s.quiet = true ∧ s.bit (F.HDR.INT_ROUTE.INBAND pgARBMEM) = false
      ∧ s.bit (F.HDR.INT_ROUTE.INBAND pgARBTX) = false ∧ s.arbFrozen a = on)
    ∧ (∃ (s : State), s.quiet = true ∧ s.bit (F.HDR.INT_ROUTE.INBAND pgARBMEM) = false ∧ s.bit (F.HDR.INT_ROUTE.INBAND pgARBTX) = false
      ∧ s.bit F.ARB_TX.ARB_CTL.FREEZE = false)
    ∧ (∃ (s : State), s.quiet = true ∧ s.bit (F.HDR.INT_ROUTE.INBAND pgARBMEM) = false ∧ s.bit (F.HDR.INT_ROUTE.INBAND pgARBTX) = false
      ∧ s.bit F.ARB_TX.ARB_CTL.FREEZE = true)
    ∧ (∃ (s : State) (w : Fin 5) (v : Reg), s.quiet = true ∧ s.bit (F.HDR.INT_ROUTE.INBAND pgARBMEM) = false
      ∧ s.bit (F.HDR.INT_ROUTE.INBAND pgARBTX) = false ∧ w.val < 4)
    ∧ (∃ (s : State) (w : Fin 5) (v : Reg), s.quiet = true ∧ s.bit (F.HDR.INT_ROUTE.INBAND pgARBMEM) = false
      ∧ s.bit (F.HDR.INT_ROUTE.INBAND pgARBTX) = false ∧ w.val = 4 ∧ v.toNat % 4 ≠ s.arbClass .tx 64 ∧ v.toNat / 4 % 4 = s.arbClass .tx 65
      ∧ s.arbTx.served.length = 4)
    ∧ (∃ (s : State) (w : Fin 5) (v : Reg), s.quiet = true ∧ s.bit (F.HDR.INT_ROUTE.INBAND pgARBMEM) = false
      ∧ s.bit (F.HDR.INT_ROUTE.INBAND pgARBTX) = false ∧ w.val = 0)
    ∧ (∃ (s : State) (w : Fin 5) (v : Reg), s.quiet = true ∧ s.bit (F.HDR.INT_ROUTE.INBAND pgARBMEM) = false
      ∧ s.bit (F.HDR.INT_ROUTE.INBAND pgARBTX) = false ∧ w.val ≠ 0)
    ∧ (∃ (s : State) (a : Arbiter) (i : Fin 66) (ns : Nat), s.quiet = true ∧ s.bit (F.HDR.INT_ROUTE.INBAND pgARBMEM) = false
      ∧ s.bit (F.HDR.INT_ROUTE.INBAND pgARBTX) = false
      ∧ (s.arbFrozen a = true ∨ ((s.arb a).waiting.find? fun e => decide (e.1 = i.val)) = none))
    ∧ (∃ (s : State) (a : Arbiter) (i : Fin 66) (ns : Nat), s.quiet = true ∧ s.bit (F.HDR.INT_ROUTE.INBAND pgARBMEM) = false
      ∧ s.bit (F.HDR.INT_ROUTE.INBAND pgARBTX) = false ∧ (s.starveNs a = 0 ∨ ns ≤ s.starveNs a ∨ (s.arb a).starved.contains i.val = true))
    ∧ (∃ (s : State) (i : Fin 66) (ns : Nat), s.quiet = true ∧ s.bit (F.HDR.INT_ROUTE.INBAND pgARBMEM) = false
      ∧ s.bit (F.HDR.INT_ROUTE.INBAND pgARBTX) = false ∧ s.bit F.ARB_MEM.ARB_CTL.FREEZE = false
      ∧ ((s.arbMem.waiting.find? fun e => decide (e.1 = i.val)).isSome = true) ∧ s.arbMem.starved.contains i.val = false ∧ i.val < 8
      ∧ s.fld F.ARB_MEM.STARVE_NS.NS ≠ 0 ∧ s.fld F.ARB_MEM.STARVE_NS.NS < ns)
    ∧ (∃ (s : State) (i : Fin 66) (ns : Nat), s.quiet = true ∧ s.bit (F.HDR.INT_ROUTE.INBAND pgARBMEM) = false
      ∧ s.bit (F.HDR.INT_ROUTE.INBAND pgARBTX) = false ∧ s.bit F.ARB_TX.ARB_CTL.FREEZE = false
      ∧ ((s.arbTx.waiting.find? fun e => decide (e.1 = i.val)).isSome = true) ∧ s.arbTx.starved.contains i.val = false
      ∧ s.fld F.ARB_TX.STARVE_NS.NS ≠ 0 ∧ s.fld F.ARB_TX.STARVE_NS.NS < ns) := by
  refine ⟨?_, ?_, ?_, ?_, ?_, ?_, ?_, ?_, ?_, ?_, ?_, ?_, ?_, ?_, ?_, ?_, ?_, ?_, ?_, ?_, ?_, ?_, ?_, ?_, ?_⟩
  · exact ⟨(let b : State := {}; let b : State := ((b.setBit (F.HDR.INT_ROUTE.INBAND pgARBMEM) false).setBit (F.HDR.INT_ROUTE.INBAND pgARBTX) false); b.setBit F.ARB_MEM.ARB_CTL.FREEZE false), 8#8, 3, by decide +kernel⟩
  · exact ⟨(let b : State := {}; let b : State := ((b.setBit (F.HDR.INT_ROUTE.INBAND pgARBMEM) false).setBit (F.HDR.INT_ROUTE.INBAND pgARBTX) false); let b := b.setBit F.ARB_MEM.ARB_CTL.FREEZE false; let b := b.setFld (arbClassFld .mem (1)) 0 |>.setFld (arbClassFld .mem (2)) 2; b.modTrig fun y => { y with wr := [(0, 1024), (40, 7), (9, 1024), (0, 1024)] }), 6#8, 1, by decide +kernel⟩
  · exact ⟨(let b : State := {}; let b : State := ((b.setBit (F.HDR.INT_ROUTE.INBAND pgARBMEM) false).setBit (F.HDR.INT_ROUTE.INBAND pgARBTX) false); { b.setBit F.ARB_MEM.ARB_CTL.FREEZE false with arbMem := { b.arbMem with owner := some 5 } }), 32#8, 5, by decide +kernel⟩
  · exact ⟨(let b : State := {}; let b : State := ((b.setBit (F.HDR.INT_ROUTE.INBAND pgARBMEM) false).setBit (F.HDR.INT_ROUTE.INBAND pgARBTX) false); { b with rim := { b.rim with stalled := pgARBMEM :: b.rim.stalled } }), 7#8, by decide +kernel⟩
  · exact ⟨(let b : State := {}; let b : State := ((b.setBit (F.HDR.INT_ROUTE.INBAND pgARBMEM) false).setBit (F.HDR.INT_ROUTE.INBAND pgARBTX) false); { b.setBit F.ARB_MEM.ARB_CTL.FREEZE true with arbMem := { b.arbMem with owner := none } }), 7#8, by decide +kernel⟩
  · exact ⟨(let b : State := {}; let b : State := ((b.setBit (F.HDR.INT_ROUTE.INBAND pgARBMEM) false).setBit (F.HDR.INT_ROUTE.INBAND pgARBTX) false); { b with rim := { b.rim with stalled := pgARBTX :: b.rim.stalled } }), by decide +kernel⟩
  · exact ⟨(let b : State := {}; let b : State := ((b.setBit (F.HDR.INT_ROUTE.INBAND pgARBMEM) false).setBit (F.HDR.INT_ROUTE.INBAND pgARBTX) false); let q : Fin 64 := 3; let b := ((b.setFld (F.PORT.PORT_STS.STATE 0) 3).setFld (F.PORT.PORT_STS.STATE 1) 3).setBit F.ARB_TX.ARB_CTL.FREEZE false |>.setFld F.PAIR.PAIR_STS.ROLE 0 |>.setFld F.HSR.HSR_CTL.NODE_MODE (1 + 0 % 2); let b := (List.range 66).foldl (fun (s : State) j => if j < 3 ∨ j = 63 ∨ 63 < j then s.setFld (arbClassFld .tx j) 1 else s) b; let b := { b with queue := [], pins := { b.pins with takeIn := false }, rim := { b.rim with stalled := [] }, net := { b.net with ptpTx := [], mgmtTx := [] }, pair := { b.pair with yst := .none } }; let b := (b.setFld (arbClassFld .tx q.val) 0).setFld (F.Q.Q_CFG.EN q.val) 1 |>.setFld (F.Q.Q_CFG.SIZE_LOG2 q.val) 10 |>.setBit (F.Q.Q_CFG.DRAIN q.val) false; b.modQ q.val fun x => { x with pkts := [⟨4, 1, 0, 0, none, false⟩, ⟨3, 2, 0, 0, none, false⟩], wp := 7, wp2 := 7, rp := 0, rp2 := 0 }), 3, ⟨4, 1, 0, 0, none, false⟩, [⟨3, 2, 0, 0, none, false⟩], by decide +kernel⟩
  · exact ⟨(let b : State := {}; let b : State := ((b.setBit (F.HDR.INT_ROUTE.INBAND pgARBMEM) false).setBit (F.HDR.INT_ROUTE.INBAND pgARBTX) false); let b := ((b.setFld (F.PORT.PORT_STS.STATE 0) 3).setFld (F.PORT.PORT_STS.STATE 1) 3).setBit F.ARB_TX.ARB_CTL.FREEZE false |>.setFld (arbClassFld .tx 64) 0 |>.setFld F.PAIR.PAIR_STS.ROLE 0 |>.setFld F.HSR.HSR_CTL.NODE_MODE (1 + 0 % 2); { b with queue := [], rim := { b.rim with stalled := [] }, pair := { b.pair with yst := .none }, net := { b.net with ptpTx := [], mgmtTx := [({ dst := 5, src := 3, body := .hub 0x88B5 ⟨0, false, true, 6, 7, 5, 3, 0, 0, 0⟩ [4294967296#40, 0#40, 0#40], bytes := 100, fcsOk := true }, none)] } }), { dst := 5, src := 3, body := .hub 0x88B5 ⟨0, false, true, 6, 7, 5, 3, 0, 0, 0⟩ [4294967296#40, 0#40, 0#40], bytes := 100, fcsOk := true }, 0x88B5, ⟨0, false, true, 6, 7, 5, 3, 0, 0, 0⟩, [4294967296#40, 0#40, 0#40], by decide +kernel⟩
  · exact ⟨(let b : State := {}; let b : State := ((b.setBit (F.HDR.INT_ROUTE.INBAND pgARBMEM) false).setBit (F.HDR.INT_ROUTE.INBAND pgARBTX) false); { b with queue := [], net := { b.net with ptpTx := [], mgmtTx := [] }, pair := { b.pair with yst := .none }, rim := { b.rim with stalled := [] } }), by decide +kernel⟩
  · exact ⟨(let b : State := {}; let b : State := ((b.setBit (F.HDR.INT_ROUTE.INBAND pgARBMEM) false).setBit (F.HDR.INT_ROUTE.INBAND pgARBTX) false); let b := ((b.setFld (F.PORT.PORT_STS.STATE 0) 3).setFld (F.PORT.PORT_STS.STATE 1) 3).setBit F.ARB_TX.ARB_CTL.FREEZE false; { b with net := { b.net with ptpTx := [(.a, (b.pdelayFrame ⟨false, ⟨5, 6⟩, 7, 0, none, none⟩))] } }), .a, (let b : State := {}; let b : State := ((b.setBit (F.HDR.INT_ROUTE.INBAND pgARBMEM) false).setBit (F.HDR.INT_ROUTE.INBAND pgARBTX) false); let s : State := (let b := ((b.setFld (F.PORT.PORT_STS.STATE 0) 3).setFld (F.PORT.PORT_STS.STATE 1) 3).setBit F.ARB_TX.ARB_CTL.FREEZE false; { b with net := { b.net with ptpTx := [(.a, (b.pdelayFrame ⟨false, ⟨5, 6⟩, 7, 0, none, none⟩))] } }); s.pdelayFrame ⟨false, ⟨5, 6⟩, 7, 0, none, none⟩), by decide +kernel⟩
  · exact ⟨(let b : State := {}; let b : State := ((b.setBit (F.HDR.INT_ROUTE.INBAND pgARBMEM) false).setBit (F.HDR.INT_ROUTE.INBAND pgARBTX) false); ([0, 1].foldl (fun (s : State) y => s.setFld (F.CTX.CTX_STS.STATE y) 0) b).setBit F.ARB_MEM.ARB_CTL.FREEZE false), by decide +kernel⟩
  · exact ⟨(let b : State := {}; let b : State := ((b.setBit (F.HDR.INT_ROUTE.INBAND pgARBMEM) false).setBit (F.HDR.INT_ROUTE.INBAND pgARBTX) false); (b.setFld (F.CTX.CTX_STS.STATE 1) 3).setBit F.ARB_MEM.ARB_CTL.FREEZE false), by decide +kernel⟩
  · exact ⟨(let b : State := {}; let b : State := ((b.setBit (F.HDR.INT_ROUTE.INBAND pgARBMEM) false).setBit (F.HDR.INT_ROUTE.INBAND pgARBTX) false); { ([0, 1].foldl (fun (s : State) y => s.setFld (F.CTX.CTX_STS.STATE y) 0) b).setBit F.ARB_MEM.ARB_CTL.FREEZE false with arbMem := { b.arbMem with owner := some 3 } }), by decide +kernel⟩
  · exact ⟨(let b : State := {}; let b : State := ((b.setBit (F.HDR.INT_ROUTE.INBAND pgARBMEM) false).setBit (F.HDR.INT_ROUTE.INBAND pgARBTX) false); { b.setBit F.ARB_MEM.ARB_CTL.FREEZE true with arbMem := { b.arbMem with waiting := [(3, 5)] } }), by decide +kernel⟩
  · exact ⟨(let b : State := {}; let b : State := ((b.setBit (F.HDR.INT_ROUTE.INBAND pgARBMEM) false).setBit (F.HDR.INT_ROUTE.INBAND pgARBTX) false); b), .mem, (let b : State := {}; let b : State := ((b.setBit (F.HDR.INT_ROUTE.INBAND pgARBMEM) false).setBit (F.HDR.INT_ROUTE.INBAND pgARBTX) false); b.arbFrozen (.mem)), by decide +kernel⟩
  · exact ⟨(let b : State := {}; let b : State := ((b.setBit (F.HDR.INT_ROUTE.INBAND pgARBMEM) false).setBit (F.HDR.INT_ROUTE.INBAND pgARBTX) false); { b.setBit F.ARB_TX.ARB_CTL.FREEZE false with net := { b.net with ptpTx := [(.a, (b.pdelayFrame ⟨false, ⟨5, 6⟩, 7, 0, none, none⟩))] } }), by decide +kernel⟩
  · exact ⟨(let b : State := {}; let b : State := ((b.setBit (F.HDR.INT_ROUTE.INBAND pgARBMEM) false).setBit (F.HDR.INT_ROUTE.INBAND pgARBTX) false); { b.setBit F.ARB_TX.ARB_CTL.FREEZE true with arbTx := { b.arbTx with waiting := [(3, 5)] } }), by decide +kernel⟩
  · exact ⟨(let b : State := {}; let b : State := ((b.setBit (F.HDR.INT_ROUTE.INBAND pgARBMEM) false).setBit (F.HDR.INT_ROUTE.INBAND pgARBTX) false); b), 0, BitVec.ofNat 32 (3844675722), by decide +kernel⟩
  · exact ⟨(let b : State := {}; let b : State := ((b.setBit (F.HDR.INT_ROUTE.INBAND pgARBMEM) false).setBit (F.HDR.INT_ROUTE.INBAND pgARBTX) false); { b with arbTx := { b.arbTx with served := [5, 6, 7, 8] } }), 4, (let b : State := {}; let b : State := ((b.setBit (F.HDR.INT_ROUTE.INBAND pgARBMEM) false).setBit (F.HDR.INT_ROUTE.INBAND pgARBTX) false); let s : State := ({ b with arbTx := { b.arbTx with served := [5, 6, 7, 8] } }); BitVec.ofNat 32 ((s.arbClass .tx 64 + 1 + 0 % 3) % 4 + 4 * s.arbClass .tx 65)), by decide +kernel⟩
  · exact ⟨(let b : State := {}; let b : State := ((b.setBit (F.HDR.INT_ROUTE.INBAND pgARBMEM) false).setBit (F.HDR.INT_ROUTE.INBAND pgARBTX) false); b), 0, BitVec.ofNat 32 (3844675722), by decide +kernel⟩
  · exact ⟨(let b : State := {}; let b : State := ((b.setBit (F.HDR.INT_ROUTE.INBAND pgARBMEM) false).setBit (F.HDR.INT_ROUTE.INBAND pgARBTX) false); b), 1, BitVec.ofNat 32 (3844675722), by decide +kernel⟩
  · exact ⟨(let b : State := {}; let b : State := ((b.setBit (F.HDR.INT_ROUTE.INBAND pgARBMEM) false).setBit (F.HDR.INT_ROUTE.INBAND pgARBTX) false); b.modArb (.mem) fun x => { x with waiting := [] }), .mem, 5, 77, by decide +kernel⟩
  · exact ⟨(let b : State := {}; let b : State := ((b.setBit (F.HDR.INT_ROUTE.INBAND pgARBMEM) false).setBit (F.HDR.INT_ROUTE.INBAND pgARBTX) false); (b.setFld F.ARB_TX.STARVE_NS.NS (100 + 0)).setFld F.ARB_MEM.STARVE_NS.NS 0 |>.modArb (.mem) fun x => { x with waiting := [(5, 0)] }), .mem, 5, 77, by decide +kernel⟩
  · exact ⟨(let b : State := {}; let b : State := ((b.setBit (F.HDR.INT_ROUTE.INBAND pgARBMEM) false).setBit (F.HDR.INT_ROUTE.INBAND pgARBTX) false); (b.setBit F.ARB_MEM.ARB_CTL.FREEZE false).setFld F.ARB_MEM.STARVE_NS.NS (1 + 0) |>.modArb .mem fun x => { x with waiting := [(7, 0), (3, b.elapsedNs)], starved := [1] }), 7, 9999, by decide +kernel⟩
  · exact ⟨(let b : State := {}; let b : State := ((b.setBit (F.HDR.INT_ROUTE.INBAND pgARBMEM) false).setBit (F.HDR.INT_ROUTE.INBAND pgARBTX) false); (b.setBit F.ARB_TX.ARB_CTL.FREEZE false).setFld F.ARB_TX.STARVE_NS.NS (1 + 0) |>.modArb .tx fun x => { x with waiting := [(65, 0), (31, b.elapsedNs)], starved := [1] }), 65, 9999, by decide +kernel⟩

/-- The premises of `Obligations.PortsChangeState` are met, clause by clause. -/
theorem test_met_PortsChangeState :
    (∃ (p : Port) (s : State) (v : Reg), s.quiet = true ∧ s.bit (F.HDR.INT_ROUTE.INBAND (pgPORT (portNum p))) = false
      ∧ s.bit (F.HDR.INT_ROUTE.INBAND pgHSR) = false ∧ v.toNat % 4 = 0)
    ∧ (∃ (p : Port) (s : State) (v : Reg), s.quiet = true ∧ s.bit (F.HDR.INT_ROUTE.INBAND (pgPORT (portNum p))) = false
      ∧ s.bit (F.HDR.INT_ROUTE.INBAND pgHSR) = false ∧ v.toNat % 4 ≠ 0 ∧ v.toNat % 4 ≠ s.portMode p)
    ∧ (∃ (p : Port) (s : State) (l : Bool), s.quiet = true ∧ s.bit (F.HDR.INT_ROUTE.INBAND (pgPORT (portNum p))) = false
      ∧ s.bit (F.HDR.INT_ROUTE.INBAND pgHSR) = false ∧ s.portMode p ≠ 0 ∧ l ≠ s.bit (F.PORT.PORT_CTL.LOS_POL (portNum p))
      ∧ s.bit (F.PORT.PORT_STS.LOS (portNum p)) = false)
    ∧ (∃ (p : Port) (s : State) (an : Bool) (n : Nat), s.quiet = true ∧ s.bit (F.HDR.INT_ROUTE.INBAND (pgPORT (portNum p))) = false
      ∧ s.bit (F.HDR.INT_ROUTE.INBAND pgHSR) = false ∧ s.portMode p ≠ 0 ∧ s.portState p = portDown
      ∧ s.bit (F.PORT.PORT_STS.LOS (portNum p)) = false)
    ∧ (∃ (p : Port) (s : State) (sync : Bool) (rf : Bool) (an : Bool) (n : Nat), s.quiet = true
      ∧ s.bit (F.HDR.INT_ROUTE.INBAND (pgPORT (portNum p))) = false ∧ s.bit (F.HDR.INT_ROUTE.INBAND pgHSR) = false ∧ s.portMode p = 0)
    ∧ (∃ (p : Port) (s : State) (rf : Bool) (an : Bool) (n : Nat), s.quiet = true
      ∧ s.bit (F.HDR.INT_ROUTE.INBAND (pgPORT (portNum p))) = false ∧ s.bit (F.HDR.INT_ROUTE.INBAND pgHSR) = false ∧ s.portMode p ≠ 0)
    ∧ (∃ (p : Port) (s : State) (an : Bool) (n : Nat), s.quiet = true ∧ s.bit (F.HDR.INT_ROUTE.INBAND (pgPORT (portNum p))) = false
      ∧ s.bit (F.HDR.INT_ROUTE.INBAND pgHSR) = false ∧ s.portMode p ≠ 0 ∧ s.portState p = portIsUp
      ∧ s.bit (F.PORT.PORT_STS.LOS (portNum p)) = false)
    ∧ (∃ (p : Port) (s : State) (an : Bool) (n : Nat), s.quiet = true ∧ s.bit (F.HDR.INT_ROUTE.INBAND (pgPORT (portNum p))) = false
      ∧ s.bit (F.HDR.INT_ROUTE.INBAND pgHSR) = false ∧ s.portMode p ≠ 0 ∧ s.portState p = portIsUp
      ∧ s.bit (F.PORT.PORT_STS.LOS (portNum p)) = false)
    ∧ (∃ (p : Port) (s : State) (l : Bool), s.quiet = true ∧ s.bit (F.HDR.INT_ROUTE.INBAND (pgPORT (portNum p))) = false
      ∧ s.bit (F.HDR.INT_ROUTE.INBAND pgHSR) = false ∧ (l != s.bit (F.PORT.PORT_CTL.LOS_POL (portNum p))) = false ∧ s.portMode p ≠ 0
      ∧ (s.getPort p).sync = true ∧ s.portState p = portDown)
    ∧ (∃ (p : Port) (s : State) (l : Bool), s.quiet = true ∧ s.bit (F.HDR.INT_ROUTE.INBAND (pgPORT (portNum p))) = false
      ∧ s.bit (F.HDR.INT_ROUTE.INBAND pgHSR) = false ∧ s.portMode p = 0 ∧ s.portState p = portOff)
    ∧ (∃ (p : Port) (s : State) (v : Reg), s.quiet = true ∧ s.bit (F.HDR.INT_ROUTE.INBAND (pgPORT (portNum p))) = false
      ∧ s.bit (F.HDR.INT_ROUTE.INBAND pgHSR) = false ∧ v.toNat % 4 ≠ 0 ∧ v.toNat % 4 = s.portMode p)
    ∧ (∃ (p : Port) (s : State), s.quiet = true ∧ s.bit (F.HDR.INT_ROUTE.INBAND (pgPORT (portNum p))) = false
      ∧ s.bit (F.HDR.INT_ROUTE.INBAND pgHSR) = false
      ∧ (s.portState p ≠ portSync ∨ s.bit (F.PORT.PORT_STS.RF (portNum p)) = true ∨ s.anWaits p = true))
    ∧ (∃ (p : Port) (s : State), s.quiet = true ∧ s.bit (F.HDR.INT_ROUTE.INBAND (pgPORT (portNum p))) = false
      ∧ s.bit (F.HDR.INT_ROUTE.INBAND pgHSR) = false ∧ s.portState p = portSync ∧ s.bit (F.PORT.PORT_STS.RF (portNum p)) = false
      ∧ s.anWaits p = false) := by
  refine ⟨?_, ?_, ?_, ?_, ?_, ?_, ?_, ?_, ?_, ?_, ?_, ?_, ?_⟩
  · exact ⟨.a, (let b : State := {}; let p : Port := .a; let b : State := ((((((b).setBit (F.HDR.INT_ROUTE.INBAND (pgARBTX)) false)).setBit (F.HDR.INT_ROUTE.INBAND (pgHSR)) false)).setBit (F.HDR.INT_ROUTE.INBAND (pgPORT (portNum p))) false); b.setFld (F.PORT.PORT_STS.STATE (portNum p)) (0 % 4)), BitVec.ofNat 32 (3844675722 / 4 * 4), by decide +kernel⟩
  · exact ⟨.a, (let b : State := {}; let p : Port := .a; let b : State := ((((((b).setBit (F.HDR.INT_ROUTE.INBAND (pgARBTX)) false)).setBit (F.HDR.INT_ROUTE.INBAND (pgHSR)) false)).setBit (F.HDR.INT_ROUTE.INBAND (pgPORT (portNum p))) false); (b.setFld (F.PORT.PORT_STS.STATE (portNum p)) (0 % 4)).setFld (F.PORT.PORT_CTL.MODE (portNum p)) (0 % 2)), BitVec.ofNat 32 (3844675722 / 4 * 4 + 2), by decide +kernel⟩
  · exact ⟨.a, (let b : State := {}; let p : Port := .a; let b : State := ((((((b).setBit (F.HDR.INT_ROUTE.INBAND (pgARBTX)) false)).setBit (F.HDR.INT_ROUTE.INBAND (pgHSR)) false)).setBit (F.HDR.INT_ROUTE.INBAND (pgPORT (portNum p))) false); ((b.setFld (F.PORT.PORT_STS.STATE (portNum p)) (1 + 0 % 3)).setFld (F.PORT.PORT_CTL.MODE (portNum p)) 2).setBit (F.PORT.PORT_STS.LOS (portNum p)) false), (let b : State := {}; let p : Port := .a; let b : State := ((((((b).setBit (F.HDR.INT_ROUTE.INBAND (pgARBTX)) false)).setBit (F.HDR.INT_ROUTE.INBAND (pgHSR)) false)).setBit (F.HDR.INT_ROUTE.INBAND (pgPORT (portNum p))) false); !b.bit (F.PORT.PORT_CTL.LOS_POL (portNum p))), by decide +kernel⟩
  · exact ⟨.a, (let b : State := {}; let p : Port := .a; let b : State := ((((((b).setBit (F.HDR.INT_ROUTE.INBAND (pgARBTX)) false)).setBit (F.HDR.INT_ROUTE.INBAND (pgHSR)) false)).setBit (F.HDR.INT_ROUTE.INBAND (pgPORT (portNum p))) false); ((b.setFld (F.PORT.PORT_STS.STATE (portNum p)) portDown).setFld (F.PORT.PORT_CTL.MODE (portNum p)) 2).setBit (F.PORT.PORT_STS.LOS (portNum p)) false), true, 5 * 0, by decide +kernel⟩
  · exact ⟨.a, (let b : State := {}; let p : Port := .a; let b : State := ((((((b).setBit (F.HDR.INT_ROUTE.INBAND (pgARBTX)) false)).setBit (F.HDR.INT_ROUTE.INBAND (pgHSR)) false)).setBit (F.HDR.INT_ROUTE.INBAND (pgPORT (portNum p))) false); b.setFld (F.PORT.PORT_CTL.MODE (portNum p)) 0), true, true, false, 5, by decide +kernel⟩
  · exact ⟨.a, (let b : State := {}; let p : Port := .a; let b : State := ((((((b).setBit (F.HDR.INT_ROUTE.INBAND (pgARBTX)) false)).setBit (F.HDR.INT_ROUTE.INBAND (pgHSR)) false)).setBit (F.HDR.INT_ROUTE.INBAND (pgPORT (portNum p))) false); (b.setFld (F.PORT.PORT_CTL.MODE (portNum p)) 2).setFld (F.PORT.PORT_STS.STATE (portNum p)) (1 + 0 % 3)), true, false, 5, by decide +kernel⟩
  · exact ⟨.a, (let b : State := {}; let p : Port := .a; let b : State := ((((((b).setBit (F.HDR.INT_ROUTE.INBAND (pgARBTX)) false)).setBit (F.HDR.INT_ROUTE.INBAND (pgHSR)) false)).setBit (F.HDR.INT_ROUTE.INBAND (pgPORT (portNum p))) false); ((b.setFld (F.PORT.PORT_CTL.MODE (portNum p)) 2).setFld (F.PORT.PORT_STS.STATE (portNum p)) 3).setBit (F.PORT.PORT_STS.LOS (portNum p)) false), false, 5, by decide +kernel⟩
  · exact ⟨.a, (let b : State := {}; let p : Port := .a; let b : State := ((((((b).setBit (F.HDR.INT_ROUTE.INBAND (pgARBTX)) false)).setBit (F.HDR.INT_ROUTE.INBAND (pgHSR)) false)).setBit (F.HDR.INT_ROUTE.INBAND (pgPORT (portNum p))) false); ((b.setFld (F.PORT.PORT_CTL.MODE (portNum p)) 2).setFld (F.PORT.PORT_STS.STATE (portNum p)) 3).setBit (F.PORT.PORT_STS.LOS (portNum p)) false), false, 5, by decide +kernel⟩
  · exact ⟨.a, (let b : State := {}; let p : Port := .a; let b : State := ((((((b).setBit (F.HDR.INT_ROUTE.INBAND (pgARBTX)) false)).setBit (F.HDR.INT_ROUTE.INBAND (pgHSR)) false)).setBit (F.HDR.INT_ROUTE.INBAND (pgPORT (portNum p))) false); ((b.setFld (F.PORT.PORT_STS.STATE (portNum p)) 1).setFld (F.PORT.PORT_CTL.MODE (portNum p)) 2).modPort p fun x => { x with sync := true }), (let b : State := {}; let p : Port := .a; let b : State := ((((((b).setBit (F.HDR.INT_ROUTE.INBAND (pgARBTX)) false)).setBit (F.HDR.INT_ROUTE.INBAND (pgHSR)) false)).setBit (F.HDR.INT_ROUTE.INBAND (pgPORT (portNum p))) false); b.bit (F.PORT.PORT_CTL.LOS_POL (portNum p))), by decide +kernel⟩
  · exact ⟨.a, (let b : State := {}; let p : Port := .a; let b : State := ((((((b).setBit (F.HDR.INT_ROUTE.INBAND (pgARBTX)) false)).setBit (F.HDR.INT_ROUTE.INBAND (pgHSR)) false)).setBit (F.HDR.INT_ROUTE.INBAND (pgPORT (portNum p))) false); (b.setFld (F.PORT.PORT_STS.STATE (portNum p)) 0).setFld (F.PORT.PORT_CTL.MODE (portNum p)) 0), true, by decide +kernel⟩
  · exact ⟨.a, (let b : State := {}; let p : Port := .a; let b : State := ((((((b).setBit (F.HDR.INT_ROUTE.INBAND (pgARBTX)) false)).setBit (F.HDR.INT_ROUTE.INBAND (pgHSR)) false)).setBit (F.HDR.INT_ROUTE.INBAND (pgPORT (portNum p))) false); (b.setFld (F.PORT.PORT_STS.STATE (portNum p)) (0 % 4)).setFld (F.PORT.PORT_CTL.MODE (portNum p)) 2), BitVec.ofNat 32 (3844675722 / 4 * 4 + 2), by decide +kernel⟩
  · exact ⟨.a, (let b : State := {}; let p : Port := .a; let b : State := ((((((b).setBit (F.HDR.INT_ROUTE.INBAND (pgARBTX)) false)).setBit (F.HDR.INT_ROUTE.INBAND (pgHSR)) false)).setBit (F.HDR.INT_ROUTE.INBAND (pgPORT (portNum p))) false); b.setFld (F.PORT.PORT_STS.STATE (portNum p)) (1)), by decide +kernel⟩
  · exact ⟨.a, (let b : State := {}; let p : Port := .a; let b : State := ((((((b).setBit (F.HDR.INT_ROUTE.INBAND (pgARBTX)) false)).setBit (F.HDR.INT_ROUTE.INBAND (pgHSR)) false)).setBit (F.HDR.INT_ROUTE.INBAND (pgPORT (portNum p))) false); ((b.setFld (F.PORT.PORT_STS.STATE (portNum p)) portSync).setBit (F.PORT.PORT_STS.RF (portNum p)) false).setBit (F.PORT.PORT_STS.AN_DONE (portNum p)) true), by decide +kernel⟩

/-- The premises of `Obligations.RingFramesAreForwardedOrRemoved` are met, clause by clause. -/
theorem test_met_RingFramesAreForwardedOrRemoved :
    (∃ (p : Port) (s : State) (v : Reg), s.inReset = false ∧ s.rim.fatalDue = false ∧ s.rim.due = [] ∧ s.fld F.NVM.BOOT_STS.STEP ≠ 9
      ∧ s.arbTx.owner = none ∧ s.bit (F.HDR.INT_ROUTE.INBAND (pgPORT (portNum p))) = false ∧ s.bit (F.HDR.INT_ROUTE.INBAND pgHSR) = false
      ∧ s.net.local_ = none)
    ∧ (∃ (p : Port) (s : State) (f : Frame) (fits : Bool) (n : Nat), s.inReset = false ∧ s.rim.fatalDue = false ∧ s.rim.due = []
      ∧ s.fld F.NVM.BOOT_STS.STEP ≠ 9 ∧ s.arbTx.owner = none ∧ s.bit (F.HDR.INT_ROUTE.INBAND (pgPORT (portNum p))) = false
      ∧ s.bit (F.HDR.INT_ROUTE.INBAND pgHSR) = false ∧ s.net.local_ = none ∧ s.portUp p = true ∧ s.stalledAt pgHSR = false ∧ f.fcsOk = true
      ∧ f.bytes ≤ 2000 ∧ f.body ≠ .pause ∧ s.nodeMode = 1 ∧ f.hsrSeq = some n ∧ f.src = s.ownMac)
    ∧ (∃ (p : Port) (s : State) (f : Frame) (fits : Bool) (n : Nat), s.inReset = false ∧ s.rim.fatalDue = false ∧ s.rim.due = []
      ∧ s.fld F.NVM.BOOT_STS.STEP ≠ 9 ∧ s.arbTx.owner = none ∧ s.bit (F.HDR.INT_ROUTE.INBAND (pgPORT (portNum p))) = false
      ∧ s.bit (F.HDR.INT_ROUTE.INBAND pgHSR) = false ∧ s.net.local_ = none ∧ s.portUp p = true ∧ s.stalledAt pgHSR = false ∧ f.fcsOk = true
      ∧ f.bytes ≤ 2000 ∧ f.body ≠ .pause ∧ s.nodeMode = 1 ∧ f.hsrSeq = some n ∧ f.src ≠ s.ownMac ∧ f.src ≠ s.streamMac ∧ f.body = .foreign
      ∧ s.dupHas f.src n (some p) = true)
    ∧ (∃ (p : Port) (s : State) (f : Frame) (fits : Bool) (n : Nat), s.inReset = false ∧ s.rim.fatalDue = false ∧ s.rim.due = []
      ∧ s.fld F.NVM.BOOT_STS.STEP ≠ 9 ∧ s.arbTx.owner = none ∧ s.bit (F.HDR.INT_ROUTE.INBAND (pgPORT (portNum p))) = false
      ∧ s.bit (F.HDR.INT_ROUTE.INBAND pgHSR) = false ∧ s.net.local_ = none ∧ s.portUp p = true ∧ s.stalledAt pgHSR = false ∧ f.fcsOk = true
      ∧ f.bytes ≤ 2000 ∧ f.body ≠ .pause ∧ s.forwards p = true ∧ f.hsrSeq = some n ∧ f.src ≠ s.ownMac ∧ f.src ≠ s.streamMac
      ∧ f.dst ≠ s.ownMac ∧ f.body = .foreign ∧ s.dupHas f.src n (some p) = false ∧ s.net.dup.length < 1024
      ∧ (s.getPort (otherPort p)).busy ≤ s.tenths ∧ (s.getPort (otherPort p)).fwd = [])
    ∧ (∃ (p : Port) (s : State) (f : Frame) (n : Nat), s.inReset = false ∧ s.rim.fatalDue = false ∧ s.rim.due = []
      ∧ s.fld F.NVM.BOOT_STS.STEP ≠ 9 ∧ s.arbTx.owner = none ∧ s.bit (F.HDR.INT_ROUTE.INBAND (pgPORT (portNum p))) = false
      ∧ s.bit (F.HDR.INT_ROUTE.INBAND pgHSR) = false ∧ s.net.local_ = none ∧ s.portUp p = true ∧ s.stalledAt pgHSR = false ∧ f.fcsOk = true
      ∧ f.bytes ≤ 2000 ∧ f.body ≠ .pause ∧ s.forwards p = true ∧ f.hsrSeq = some n ∧ f.src ≠ s.ownMac ∧ f.src ≠ s.streamMac
      ∧ f.dst ≠ s.ownMac ∧ f.body = .foreign ∧ s.dupHas f.src n (some p) = false ∧ s.net.dup.length < 1024
      ∧ s.tenths < (s.getPort (otherPort p)).busy ∧ (s.getPort (otherPort p)).fwd = [])
    ∧ (∃ (p : Port) (s : State) (f : Frame) (n : Nat), s.inReset = false ∧ s.rim.fatalDue = false ∧ s.rim.due = []
      ∧ s.fld F.NVM.BOOT_STS.STEP ≠ 9 ∧ s.arbTx.owner = none ∧ s.bit (F.HDR.INT_ROUTE.INBAND (pgPORT (portNum p))) = false
      ∧ s.bit (F.HDR.INT_ROUTE.INBAND pgHSR) = false ∧ s.net.local_ = none ∧ s.portUp p = true ∧ s.stalledAt pgHSR = false ∧ f.fcsOk = true
      ∧ f.bytes ≤ 2000 ∧ f.body ≠ .pause ∧ s.forwards p = true ∧ f.hsrSeq = some n ∧ f.src ≠ s.ownMac ∧ f.src ≠ s.streamMac
      ∧ f.dst ≠ s.ownMac ∧ f.body = .foreign ∧ s.dupHas f.src n (some p) = false ∧ s.net.dup.length < 1024
      ∧ s.tenths < (s.getPort (otherPort p)).busy ∧ (s.getPort (otherPort p)).fwd = [])
    ∧ (∃ (p : Port) (s : State) (f : Frame) (fits : Bool), s.inReset = false ∧ s.rim.fatalDue = false ∧ s.rim.due = []
      ∧ s.fld F.NVM.BOOT_STS.STEP ≠ 9 ∧ s.arbTx.owner = none ∧ s.bit (F.HDR.INT_ROUTE.INBAND (pgPORT (portNum p))) = false
      ∧ s.bit (F.HDR.INT_ROUTE.INBAND pgHSR) = false ∧ s.net.local_ = none ∧ s.portUp p = true ∧ s.stalledAt pgHSR = false ∧ f.fcsOk = true
      ∧ f.bytes ≤ 2000 ∧ f.body ≠ .pause ∧ s.nodeMode = 1 ∧ f.hsrSeq = none ∧ f.src ≠ s.ownMac ∧ f.src ≠ s.streamMac ∧ f.body = .foreign)
    ∧ (∃ (p : Port) (s : State) (f : Frame) (ok : Bool) (fits : Bool), s.inReset = false ∧ s.rim.fatalDue = false ∧ s.rim.due = []
      ∧ s.fld F.NVM.BOOT_STS.STEP ≠ 9 ∧ s.arbTx.owner = none ∧ s.bit (F.HDR.INT_ROUTE.INBAND (pgPORT (portNum p))) = false
      ∧ s.bit (F.HDR.INT_ROUTE.INBAND pgHSR) = false ∧ s.portUp p = false)
    ∧ (∃ (p : Port) (s : State) (f : Frame) (fits : Bool), s.inReset = false ∧ s.rim.fatalDue = false ∧ s.rim.due = []
      ∧ s.fld F.NVM.BOOT_STS.STEP ≠ 9 ∧ s.arbTx.owner = none ∧ s.bit (F.HDR.INT_ROUTE.INBAND (pgPORT (portNum p))) = false
      ∧ s.bit (F.HDR.INT_ROUTE.INBAND pgHSR) = false ∧ s.net.local_ = none ∧ s.portUp p = true ∧ s.stalledAt pgHSR = false ∧ f.fcsOk = false
      ∧ f.bytes ≤ 2000 ∧ f.body = .foreign ∧ s.nodeMode = 2)
    ∧ (∃ (p : Port) (s : State) (f : Frame) (fits : Bool) (h : HubHdr) (u : Word) (v : Word) (w : Word), s.inReset = false
      ∧ s.rim.fatalDue = false ∧ s.rim.due = [] ∧ s.fld F.NVM.BOOT_STS.STEP ≠ 9 ∧ s.arbTx.owner = none
      ∧ s.bit (F.HDR.INT_ROUTE.INBAND (pgPORT (portNum p))) = false ∧ s.bit (F.HDR.INT_ROUTE.INBAND pgHSR) = false ∧ p = .a
      ∧ s.net.local_ = none ∧ s.portUp p = true ∧ s.stalledAt pgHSR = false ∧ f.fcsOk = true ∧ f.bytes ≤ 2000 ∧ f.body ≠ .pause
      ∧ s.nodeMode = 2 ∧ f.hsrSeq = none ∧ f.body = .hub (s.fld F.HSR.ETHERTYPE.TYPE) h [u, v, w] ∧ h.ftype = 7 ∧ s.hubTakes f h = true
      ∧ s.bit F.TRIG.TRIG_CTL.RING_RX_EN = true ∧ s.bit F.NVM.PWR_CTL.WAKE_RING_EN = false
      ∧ (((List.range 256).all fun x => !s.srcOn x 4) = true) ∧ s.bit (F.HDR.INT_ROUTE.INBAND pgTRIG) = false)
    ∧ (∃ (p : Port) (s : State) (f : Frame) (fits : Bool) (h : HubHdr) (ws : List Word), s.inReset = false ∧ s.rim.fatalDue = false
      ∧ s.rim.due = [] ∧ s.fld F.NVM.BOOT_STS.STEP ≠ 9 ∧ s.arbTx.owner = none ∧ s.bit (F.HDR.INT_ROUTE.INBAND (pgPORT (portNum p))) = false
      ∧ s.bit (F.HDR.INT_ROUTE.INBAND pgHSR) = false ∧ p = .a ∧ s.net.local_ = none ∧ s.portUp p = true ∧ s.stalledAt pgHSR = false
      ∧ f.fcsOk = true ∧ f.bytes ≤ 2000 ∧ f.body ≠ .pause ∧ s.nodeMode = 2 ∧ f.hsrSeq = none
      ∧ f.body = .hub (s.fld F.HSR.ETHERTYPE.TYPE) h ws ∧ h.ftype = 6 ∧ s.hubTakes f h = true ∧ s.bit F.HSR.HSR_CTL.MGMT_EN = true)
    ∧ (∃ (p : Port) (s : State) (f : Frame), s.inReset = false ∧ s.rim.fatalDue = false ∧ s.rim.due = [] ∧ s.fld F.NVM.BOOT_STS.STEP ≠ 9
      ∧ s.arbTx.owner = none ∧ s.bit (F.HDR.INT_ROUTE.INBAND (pgPORT (portNum p))) = false ∧ s.bit (F.HDR.INT_ROUTE.INBAND pgHSR) = false
      ∧ s.net.local_ = some (f, true, true) ∧ (s.getPort p).fwd = [] ∧ s.portUp p = true ∧ s.stalledAt pgHSR = false)
    ∧ (∃ (p : Port) (s : State), s.inReset = false ∧ s.rim.fatalDue = false ∧ s.rim.due = [] ∧ s.fld F.NVM.BOOT_STS.STEP ≠ 9
      ∧ s.arbTx.owner = none ∧ s.bit (F.HDR.INT_ROUTE.INBAND (pgPORT (portNum p))) = false ∧ s.bit (F.HDR.INT_ROUTE.INBAND pgHSR) = false
      ∧ s.net.local_ = none)
    ∧ (∃ (p : Port) (s : State), s.inReset = false ∧ s.rim.fatalDue = false ∧ s.rim.due = [] ∧ s.fld F.NVM.BOOT_STS.STEP ≠ 9
      ∧ s.arbTx.owner = none ∧ s.bit (F.HDR.INT_ROUTE.INBAND (pgPORT (portNum p))) = false ∧ s.bit (F.HDR.INT_ROUTE.INBAND pgHSR) = false
      ∧ s.net.local_ = none ∧ s.net.dup = [])
    ∧ (∃ (p : Port) (s : State) (l : List DupEntry) (e : DupEntry), s.inReset = false ∧ s.rim.fatalDue = false ∧ s.rim.due = []
      ∧ s.fld F.NVM.BOOT_STS.STEP ≠ 9 ∧ s.arbTx.owner = none ∧ s.bit (F.HDR.INT_ROUTE.INBAND (pgPORT (portNum p))) = false
      ∧ s.bit (F.HDR.INT_ROUTE.INBAND pgHSR) = false ∧ s.net.local_ = none ∧ s.net.dup = l ++ [e]) := by
  refine ⟨?_, ?_, ?_, ?_, ?_, ?_, ?_, ?_, ?_, ?_, ?_, ?_, ?_, ?_, ?_⟩
  · exact ⟨.a, (let b : State := {}; let p : Port := .a; let b : State := (((((((b).setBit (F.HDR.INT_ROUTE.INBAND (pgARBTX)) false)).setBit (F.HDR.INT_ROUTE.INBAND (pgHSR)) false)).setBit (F.HDR.INT_ROUTE.INBAND (pgPORT (portNum p))) false)).setFld F.NVM.BOOT_STS.STEP 10; b), BitVec.ofNat 32 (3844675722), by decide +kernel⟩
  · exact ⟨.a, (let b : State := {}; let p : Port := .a; let b : State := (((((((b).setBit (F.HDR.INT_ROUTE.INBAND (pgARBTX)) false)).setBit (F.HDR.INT_ROUTE.INBAND (pgHSR)) false)).setBit (F.HDR.INT_ROUTE.INBAND (pgPORT (portNum p))) false)).setFld F.NVM.BOOT_STS.STEP 10; let b : State := ((b.setFld (F.PORT.PORT_STS.STATE 0) 3).setFld (F.PORT.PORT_STS.STATE 1) 3); let b : State := (b.setFld F.HSR.HSR_CTL.NODE_MODE 1).setFld F.PAIR.PAIR_STS.ROLE 0; let b : State := (b.setFld (F.PORT.PORT_CTL.MODE 0) 3).setFld (F.PORT.PORT_CTL.MODE 1) 3; let b : State := ((((((((b).setBit (F.HDR.INT_ROUTE.INBAND (pgTRIG)) false)).setBit (F.HDR.INT_ROUTE.INBAND (pgHSR)) false)).setBit (F.HDR.INT_ROUTE.INBAND (pgPORT 1)) false)).setBit (F.HDR.INT_ROUTE.INBAND (pgPORT 0)) false); let b : State := ((b.setFld64 F.HSR.OWN_MAC_LO.MAC_LO F.HSR.OWN_MAC_HI.MAC_HI 0xABCDEF).setFld64 F.HSR.STREAM_MAC_LO.MAC_LO F.HSR.STREAM_MAC_HI.MAC_HI 0xABCDE0); b), { dst := 0x0123, src := 0xABCDEF, hsr := (some ⟨0, 86, 9⟩), body := .foreign, bytes := 100, fcsOk := true }, true, 9, by decide +kernel⟩
  · exact ⟨.a, (let b : State := {}; let p : Port := .a; let b : State := (((((((b).setBit (F.HDR.INT_ROUTE.INBAND (pgARBTX)) false)).setBit (F.HDR.INT_ROUTE.INBAND (pgHSR)) false)).setBit (F.HDR.INT_ROUTE.INBAND (pgPORT (portNum p))) false)).setFld F.NVM.BOOT_STS.STEP 10; let b : State := ((b.setFld (F.PORT.PORT_STS.STATE 0) 3).setFld (F.PORT.PORT_STS.STATE 1) 3); let b : State := (b.setFld F.HSR.HSR_CTL.NODE_MODE 1).setFld F.PAIR.PAIR_STS.ROLE 0; let b : State := (b.setFld (F.PORT.PORT_CTL.MODE 0) 3).setFld (F.PORT.PORT_CTL.MODE 1) 3; let b : State := ((((((((b).setBit (F.HDR.INT_ROUTE.INBAND (pgTRIG)) false)).setBit (F.HDR.INT_ROUTE.INBAND (pgHSR)) false)).setBit (F.HDR.INT_ROUTE.INBAND (pgPORT 1)) false)).setBit (F.HDR.INT_ROUTE.INBAND (pgPORT 0)) false); let b : State := ((b.setFld64 F.HSR.OWN_MAC_LO.MAC_LO F.HSR.OWN_MAC_HI.MAC_HI 0xABCDEF).setFld64 F.HSR.STREAM_MAC_LO.MAC_LO F.HSR.STREAM_MAC_HI.MAC_HI 0xABCDE0); let p : Port := .a; { b with net := { b.net with dup := [⟨3 + 0, 9, p, 4⟩] } }), { dst := 0x0123, src := 3 + 0, hsr := (some ⟨0, 86, 9⟩), body := .foreign, bytes := 100, fcsOk := true }, true, 9, by decide +kernel⟩
  · exact ⟨.a, (let b : State := {}; let p : Port := .a; let b : State := (((((((b).setBit (F.HDR.INT_ROUTE.INBAND (pgARBTX)) false)).setBit (F.HDR.INT_ROUTE.INBAND (pgHSR)) false)).setBit (F.HDR.INT_ROUTE.INBAND (pgPORT (portNum p))) false)).setFld F.NVM.BOOT_STS.STEP 10; let b : State := ((b.setFld (F.PORT.PORT_STS.STATE 0) 3).setFld (F.PORT.PORT_STS.STATE 1) 3); let b : State := (b.setFld F.HSR.HSR_CTL.NODE_MODE 1).setFld F.PAIR.PAIR_STS.ROLE 0; let b : State := (b.setFld (F.PORT.PORT_CTL.MODE 0) 3).setFld (F.PORT.PORT_CTL.MODE 1) 3; let b : State := ((((((((b).setBit (F.HDR.INT_ROUTE.INBAND (pgTRIG)) false)).setBit (F.HDR.INT_ROUTE.INBAND (pgHSR)) false)).setBit (F.HDR.INT_ROUTE.INBAND (pgPORT 1)) false)).setBit (F.HDR.INT_ROUTE.INBAND (pgPORT 0)) false); let b : State := ((b.setFld64 F.HSR.OWN_MAC_LO.MAC_LO F.HSR.OWN_MAC_HI.MAC_HI 0xABCDEF).setFld64 F.HSR.STREAM_MAC_LO.MAC_LO F.HSR.STREAM_MAC_HI.MAC_HI 0xABCDE0); b), { dst := 0x0123, src := 3 + 0, hsr := (some ⟨0, 86, 9⟩), body := .foreign, bytes := 100, fcsOk := true }, true, 9, by decide +kernel⟩
  · exact ⟨.a, (let b : State := {}; let p : Port := .a; let b : State := (((((((b).setBit (F.HDR.INT_ROUTE.INBAND (pgARBTX)) false)).setBit (F.HDR.INT_ROUTE.INBAND (pgHSR)) false)).setBit (F.HDR.INT_ROUTE.INBAND (pgPORT (portNum p))) false)).setFld F.NVM.BOOT_STS.STEP 10; let b : State := ((b.setFld (F.PORT.PORT_STS.STATE 0) 3).setFld (F.PORT.PORT_STS.STATE 1) 3); let b : State := (b.setFld F.HSR.HSR_CTL.NODE_MODE 1).setFld F.PAIR.PAIR_STS.ROLE 0; let b : State := (b.setFld (F.PORT.PORT_CTL.MODE 0) 3).setFld (F.PORT.PORT_CTL.MODE 1) 3; let b : State := ((((((((b).setBit (F.HDR.INT_ROUTE.INBAND (pgTRIG)) false)).setBit (F.HDR.INT_ROUTE.INBAND (pgHSR)) false)).setBit (F.HDR.INT_ROUTE.INBAND (pgPORT 1)) false)).setBit (F.HDR.INT_ROUTE.INBAND (pgPORT 0)) false); let b : State := ((b.setFld64 F.HSR.OWN_MAC_LO.MAC_LO F.HSR.OWN_MAC_HI.MAC_HI 0xABCDEF).setFld64 F.HSR.STREAM_MAC_LO.MAC_LO F.HSR.STREAM_MAC_HI.MAC_HI 0xABCDE0); let p : Port := .a; let b : State := b.modPort (otherPort p) (fun x => { x with fwd := [], busy := b.tenths + 900 + 0 }); b), { dst := 0x0123, src := 3 + 0, hsr := (some ⟨0, 86, 9⟩), body := .foreign, bytes := 100, fcsOk := true }, 9, by decide +kernel⟩
  · exact ⟨.a, (let b : State := {}; let p : Port := .a; let b : State := (((((((b).setBit (F.HDR.INT_ROUTE.INBAND (pgARBTX)) false)).setBit (F.HDR.INT_ROUTE.INBAND (pgHSR)) false)).setBit (F.HDR.INT_ROUTE.INBAND (pgPORT (portNum p))) false)).setFld F.NVM.BOOT_STS.STEP 10; let b : State := ((b.setFld (F.PORT.PORT_STS.STATE 0) 3).setFld (F.PORT.PORT_STS.STATE 1) 3); let b : State := (b.setFld F.HSR.HSR_CTL.NODE_MODE 1).setFld F.PAIR.PAIR_STS.ROLE 0; let b : State := (b.setFld (F.PORT.PORT_CTL.MODE 0) 3).setFld (F.PORT.PORT_CTL.MODE 1) 3; let b : State := ((((((((b).setBit (F.HDR.INT_ROUTE.INBAND (pgTRIG)) false)).setBit (F.HDR.INT_ROUTE.INBAND (pgHSR)) false)).setBit (F.HDR.INT_ROUTE.INBAND (pgPORT 1)) false)).setBit (F.HDR.INT_ROUTE.INBAND (pgPORT 0)) false); let b : State := ((b.setFld64 F.HSR.OWN_MAC_LO.MAC_LO F.HSR.OWN_MAC_HI.MAC_HI 0xABCDEF).setFld64 F.HSR.STREAM_MAC_LO.MAC_LO F.HSR.STREAM_MAC_HI.MAC_HI 0xABCDE0); let p : Port := .a; let b : State := b.modPort (otherPort p) (fun x => { x with fwd := [], busy := b.tenths + 900 + 0 }); b), { dst := 0x0123, src := 3 + 0, hsr := (some ⟨0, 86, 9⟩), body := .foreign, bytes := 100, fcsOk := true }, 9, by decide +kernel⟩
  · exact ⟨.a, (let b : State := {}; let p : Port := .a; let b : State := (((((((b).setBit (F.HDR.INT_ROUTE.INBAND (pgARBTX)) false)).setBit (F.HDR.INT_ROUTE.INBAND (pgHSR)) false)).setBit (F.HDR.INT_ROUTE.INBAND (pgPORT (portNum p))) false)).setFld F.NVM.BOOT_STS.STEP 10; let b : State := ((b.setFld (F.PORT.PORT_STS.STATE 0) 3).setFld (F.PORT.PORT_STS.STATE 1) 3); let b : State := (b.setFld F.HSR.HSR_CTL.NODE_MODE 1).setFld F.PAIR.PAIR_STS.ROLE 0; let b : State := (b.setFld (F.PORT.PORT_CTL.MODE 0) 3).setFld (F.PORT.PORT_CTL.MODE 1) 3; let b : State := ((((((((b).setBit (F.HDR.INT_ROUTE.INBAND (pgTRIG)) false)).setBit (F.HDR.INT_ROUTE.INBAND (pgHSR)) false)).setBit (F.HDR.INT_ROUTE.INBAND (pgPORT 1)) false)).setBit (F.HDR.INT_ROUTE.INBAND (pgPORT 0)) false); let b : State := ((b.setFld64 F.HSR.OWN_MAC_LO.MAC_LO F.HSR.OWN_MAC_HI.MAC_HI 0xABCDEF).setFld64 F.HSR.STREAM_MAC_LO.MAC_LO F.HSR.STREAM_MAC_HI.MAC_HI 0xABCDE0); b), { dst := 0x0123, src := 3 + 0, hsr := none, body := .foreign, bytes := 100, fcsOk := true }, true, by decide +kernel⟩
  · exact ⟨.a, (let b : State := {}; let p : Port := .a; let b : State := (((((((b).setBit (F.HDR.INT_ROUTE.INBAND (pgARBTX)) false)).setBit (F.HDR.INT_ROUTE.INBAND (pgHSR)) false)).setBit (F.HDR.INT_ROUTE.INBAND (pgPORT (portNum p))) false)).setFld F.NVM.BOOT_STS.STEP 10; b.setFld (F.PORT.PORT_STS.STATE (portNum p)) (0 % 3)), { dst := 0x0123, src := 3 + 0, hsr := (some ⟨0, 86, 9⟩), body := .foreign, bytes := 100, fcsOk := true }, true, true, by decide +kernel⟩
  · exact ⟨.a, (let b : State := {}; let p : Port := .a; let b : State := (((((((b).setBit (F.HDR.INT_ROUTE.INBAND (pgARBTX)) false)).setBit (F.HDR.INT_ROUTE.INBAND (pgHSR)) false)).setBit (F.HDR.INT_ROUTE.INBAND (pgPORT (portNum p))) false)).setFld F.NVM.BOOT_STS.STEP 10; let b : State := ((b.setFld (F.PORT.PORT_STS.STATE 0) 3).setFld (F.PORT.PORT_STS.STATE 1) 3); let b : State := (b.setFld F.HSR.HSR_CTL.NODE_MODE 1).setFld F.PAIR.PAIR_STS.ROLE 0; let b : State := (b.setFld (F.PORT.PORT_CTL.MODE 0) 3).setFld (F.PORT.PORT_CTL.MODE 1) 3; let b : State := ((((((((b).setBit (F.HDR.INT_ROUTE.INBAND (pgTRIG)) false)).setBit (F.HDR.INT_ROUTE.INBAND (pgHSR)) false)).setBit (F.HDR.INT_ROUTE.INBAND (pgPORT 1)) false)).setBit (F.HDR.INT_ROUTE.INBAND (pgPORT 0)) false); let b : State := ((b.setFld64 F.HSR.OWN_MAC_LO.MAC_LO F.HSR.OWN_MAC_HI.MAC_HI 0xABCDEF).setFld64 F.HSR.STREAM_MAC_LO.MAC_LO F.HSR.STREAM_MAC_HI.MAC_HI 0xABCDE0); b.setFld F.HSR.HSR_CTL.NODE_MODE 2), {  dst := 0x0123, src := 3 + 0, hsr := (some ⟨0, 86, 9⟩), body := .foreign, bytes := 100, fcsOk := false }, true, by decide +kernel⟩
  · exact ⟨.a, (let b : State := {}; let p : Port := .a; let b : State := (((((((b).setBit (F.HDR.INT_ROUTE.INBAND (pgARBTX)) false)).setBit (F.HDR.INT_ROUTE.INBAND (pgHSR)) false)).setBit (F.HDR.INT_ROUTE.INBAND (pgPORT (portNum p))) false)).setFld F.NVM.BOOT_STS.STEP 10; let b : State := ((b.setFld (F.PORT.PORT_STS.STATE 0) 3).setFld (F.PORT.PORT_STS.STATE 1) 3); let b : State := (b.setFld F.HSR.HSR_CTL.NODE_MODE 1).setFld F.PAIR.PAIR_STS.ROLE 0; let b : State := (b.setFld (F.PORT.PORT_CTL.MODE 0) 3).setFld (F.PORT.PORT_CTL.MODE 1) 3; let b : State := ((((((((b).setBit (F.HDR.INT_ROUTE.INBAND (pgTRIG)) false)).setBit (F.HDR.INT_ROUTE.INBAND (pgHSR)) false)).setBit (F.HDR.INT_ROUTE.INBAND (pgPORT 1)) false)).setBit (F.HDR.INT_ROUTE.INBAND (pgPORT 0)) false); let b : State := ((b.setFld64 F.HSR.OWN_MAC_LO.MAC_LO F.HSR.OWN_MAC_HI.MAC_HI 0xABCDEF).setFld64 F.HSR.STREAM_MAC_LO.MAC_LO F.HSR.STREAM_MAC_HI.MAC_HI 0xABCDE0); let b : State := (List.range 256).foldl (fun (s : State) x => if x < 2 ∨ x = 255 then s.setFld (F.CTX.TRIG_SRC.EN x) 0 else s) b; ((b.setFld F.HSR.HSR_CTL.NODE_MODE 2).setBit F.TRIG.TRIG_CTL.RING_RX_EN true).setBit F.NVM.PWR_CTL.WAKE_RING_EN false), (let b : State := {}; let p : Port := .a; let b : State := (((((((b).setBit (F.HDR.INT_ROUTE.INBAND (pgARBTX)) false)).setBit (F.HDR.INT_ROUTE.INBAND (pgHSR)) false)).setBit (F.HDR.INT_ROUTE.INBAND (pgPORT (portNum p))) false)).setFld F.NVM.BOOT_STS.STEP 10; let s : State := (let b : State := ((b.setFld (F.PORT.PORT_STS.STATE 0) 3).setFld (F.PORT.PORT_STS.STATE 1) 3); let b : State := (b.setFld F.HSR.HSR_CTL.NODE_MODE 1).setFld F.PAIR.PAIR_STS.ROLE 0; let b : State := (b.setFld (F.PORT.PORT_CTL.MODE 0) 3).setFld (F.PORT.PORT_CTL.MODE 1) 3; let b : State := ((((((((b).setBit (F.HDR.INT_ROUTE.INBAND (pgTRIG)) false)).setBit (F.HDR.INT_ROUTE.INBAND (pgHSR)) false)).setBit (F.HDR.INT_ROUTE.INBAND (pgPORT 1)) false)).setBit (F.HDR.INT_ROUTE.INBAND (pgPORT 0)) false); let b : State := ((b.setFld64 F.HSR.OWN_MAC_LO.MAC_LO F.HSR.OWN_MAC_HI.MAC_HI 0xABCDEF).setFld64 F.HSR.STREAM_MAC_LO.MAC_LO F.HSR.STREAM_MAC_HI.MAC_HI 0xABCDE0); let b : State := (List.range 256).foldl (fun (s : State) x => if x < 2 ∨ x = 255 then s.setFld (F.CTX.TRIG_SRC.EN x) 0 else s) b; ((b.setFld F.HSR.HSR_CTL.NODE_MODE 2).setBit F.TRIG.TRIG_CTL.RING_RX_EN true).setBit F.NVM.PWR_CTL.WAKE_RING_EN false); { dst := s.trigMac, src := 3 + 0, body := .hub (s.fld F.HSR.ETHERTYPE.TYPE) ⟨0, false, true, 7, 3, 9, 3, 0, 0, 0⟩ [0x8005030000, 0x8000000007, 0x8000000FFF], bytes := 100, fcsOk := true }), true, ⟨0, false, true, 7, 3, 9, 3, 0, 0, 0⟩, 0x8005030000, 0x8000000007, 0x8000000FFF, by decide +kernel⟩
  · exact ⟨.a, (let b : State := {}; let p : Port := .a; let b : State := (((((((b).setBit (F.HDR.INT_ROUTE.INBAND (pgARBTX)) false)).setBit (F.HDR.INT_ROUTE.INBAND (pgHSR)) false)).setBit (F.HDR.INT_ROUTE.INBAND (pgPORT (portNum p))) false)).setFld F.NVM.BOOT_STS.STEP 10; let b : State := ((b.setFld (F.PORT.PORT_STS.STATE 0) 3).setFld (F.PORT.PORT_STS.STATE 1) 3); let b : State := (b.setFld F.HSR.HSR_CTL.NODE_MODE 1).setFld F.PAIR.PAIR_STS.ROLE 0; let b : State := (b.setFld (F.PORT.PORT_CTL.MODE 0) 3).setFld (F.PORT.PORT_CTL.MODE 1) 3; let b : State := ((((((((b).setBit (F.HDR.INT_ROUTE.INBAND (pgTRIG)) false)).setBit (F.HDR.INT_ROUTE.INBAND (pgHSR)) false)).setBit (F.HDR.INT_ROUTE.INBAND (pgPORT 1)) false)).setBit (F.HDR.INT_ROUTE.INBAND (pgPORT 0)) false); let b : State := ((b.setFld64 F.HSR.OWN_MAC_LO.MAC_LO F.HSR.OWN_MAC_HI.MAC_HI 0xABCDEF).setFld64 F.HSR.STREAM_MAC_LO.MAC_LO F.HSR.STREAM_MAC_HI.MAC_HI 0xABCDE0); (b.setFld F.HSR.HSR_CTL.NODE_MODE 2).setBit F.HSR.HSR_CTL.MGMT_EN true), (let b : State := {}; let p : Port := .a; let b : State := (((((((b).setBit (F.HDR.INT_ROUTE.INBAND (pgARBTX)) false)).setBit (F.HDR.INT_ROUTE.INBAND (pgHSR)) false)).setBit (F.HDR.INT_ROUTE.INBAND (pgPORT (portNum p))) false)).setFld F.NVM.BOOT_STS.STEP 10; let s : State := (let b : State := ((b.setFld (F.PORT.PORT_STS.STATE 0) 3).setFld (F.PORT.PORT_STS.STATE 1) 3); let b : State := (b.setFld F.HSR.HSR_CTL.NODE_MODE 1).setFld F.PAIR.PAIR_STS.ROLE 0; let b : State := (b.setFld (F.PORT.PORT_CTL.MODE 0) 3).setFld (F.PORT.PORT_CTL.MODE 1) 3; let b : State := ((((((((b).setBit (F.HDR.INT_ROUTE.INBAND (pgTRIG)) false)).setBit (F.HDR.INT_ROUTE.INBAND (pgHSR)) false)).setBit (F.HDR.INT_ROUTE.INBAND (pgPORT 1)) false)).setBit (F.HDR.INT_ROUTE.INBAND (pgPORT 0)) false); let b : State := ((b.setFld64 F.HSR.OWN_MAC_LO.MAC_LO F.HSR.OWN_MAC_HI.MAC_HI 0xABCDEF).setFld64 F.HSR.STREAM_MAC_LO.MAC_LO F.HSR.STREAM_MAC_HI.MAC_HI 0xABCDE0); (b.setFld F.HSR.HSR_CTL.NODE_MODE 2).setBit F.HSR.HSR_CTL.MGMT_EN true); { dst := s.ownMac, src := 3 + 0, body := .hub (s.fld F.HSR.ETHERTYPE.TYPE) ⟨0, false, true, 6, 7, s.fld F.HSR.HUB_ID.OWN_ID, 3, 0, 0, 0⟩ [1, 2], bytes := 100, fcsOk := true }), true, (let b : State := {}; let p : Port := .a; let b : State := (((((((b).setBit (F.HDR.INT_ROUTE.INBAND (pgARBTX)) false)).setBit (F.HDR.INT_ROUTE.INBAND (pgHSR)) false)).setBit (F.HDR.INT_ROUTE.INBAND (pgPORT (portNum p))) false)).setFld F.NVM.BOOT_STS.STEP 10; let s : State := (let b : State := ((b.setFld (F.PORT.PORT_STS.STATE 0) 3).setFld (F.PORT.PORT_STS.STATE 1) 3); let b : State := (b.setFld F.HSR.HSR_CTL.NODE_MODE 1).setFld F.PAIR.PAIR_STS.ROLE 0; let b : State := (b.setFld (F.PORT.PORT_CTL.MODE 0) 3).setFld (F.PORT.PORT_CTL.MODE 1) 3; let b : State := ((((((((b).setBit (F.HDR.INT_ROUTE.INBAND (pgTRIG)) false)).setBit (F.HDR.INT_ROUTE.INBAND (pgHSR)) false)).setBit (F.HDR.INT_ROUTE.INBAND (pgPORT 1)) false)).setBit (F.HDR.INT_ROUTE.INBAND (pgPORT 0)) false); let b : State := ((b.setFld64 F.HSR.OWN_MAC_LO.MAC_LO F.HSR.OWN_MAC_HI.MAC_HI 0xABCDEF).setFld64 F.HSR.STREAM_MAC_LO.MAC_LO F.HSR.STREAM_MAC_HI.MAC_HI 0xABCDE0); (b.setFld F.HSR.HSR_CTL.NODE_MODE 2).setBit F.HSR.HSR_CTL.MGMT_EN true); ⟨0, false, true, 6, 7, s.fld F.HSR.HUB_ID.OWN_ID, 3, 0, 0, 0⟩), [1, 2], by decide +kernel⟩
  · exact ⟨.a, (let b : State := {}; let p : Port := .a; let b : State := (((((((b).setBit (F.HDR.INT_ROUTE.INBAND (pgARBTX)) false)).setBit (F.HDR.INT_ROUTE.INBAND (pgHSR)) false)).setBit (F.HDR.INT_ROUTE.INBAND (pgPORT (portNum p))) false)).setFld F.NVM.BOOT_STS.STEP 10; let b : State := ((b.setFld (F.PORT.PORT_STS.STATE 0) 3).setFld (F.PORT.PORT_STS.STATE 1) 3); let b : State := (b.setFld F.HSR.HSR_CTL.NODE_MODE 1).setFld F.PAIR.PAIR_STS.ROLE 0; let b : State := (b.setFld (F.PORT.PORT_CTL.MODE 0) 3).setFld (F.PORT.PORT_CTL.MODE 1) 3; let b : State := ((((((((b).setBit (F.HDR.INT_ROUTE.INBAND (pgTRIG)) false)).setBit (F.HDR.INT_ROUTE.INBAND (pgHSR)) false)).setBit (F.HDR.INT_ROUTE.INBAND (pgPORT 1)) false)).setBit (F.HDR.INT_ROUTE.INBAND (pgPORT 0)) false); let b : State := ((b.setFld64 F.HSR.OWN_MAC_LO.MAC_LO F.HSR.OWN_MAC_HI.MAC_HI 0xABCDEF).setFld64 F.HSR.STREAM_MAC_LO.MAC_LO F.HSR.STREAM_MAC_HI.MAC_HI 0xABCDE0); { b.modPort (.a) (fun x => { x with fwd := [], busy := 20 * b.time.cycles + 0 }) with net := { b.net with local_ := some ({ dst := 0x0123, src := 0xABCDEF, hsr := (some ⟨0, 86, 9⟩), body := .foreign, bytes := 100, fcsOk := true }, true, true) } }), { dst := 0x0123, src := 0xABCDEF, hsr := (some ⟨0, 86, 9⟩), body := .foreign, bytes := 100, fcsOk := true }, by decide +kernel⟩
  · exact ⟨.a, (let b : State := {}; let p : Port := .a; let b : State := (((((((b).setBit (F.HDR.INT_ROUTE.INBAND (pgARBTX)) false)).setBit (F.HDR.INT_ROUTE.INBAND (pgHSR)) false)).setBit (F.HDR.INT_ROUTE.INBAND (pgPORT (portNum p))) false)).setFld F.NVM.BOOT_STS.STEP 10; { b with net := { b.net with local_ := none } }), by decide +kernel⟩
  · exact ⟨.a, (let b : State := {}; let p : Port := .a; let b : State := (((((((b).setBit (F.HDR.INT_ROUTE.INBAND (pgARBTX)) false)).setBit (F.HDR.INT_ROUTE.INBAND (pgHSR)) false)).setBit (F.HDR.INT_ROUTE.INBAND (pgPORT (portNum p))) false)).setFld F.NVM.BOOT_STS.STEP 10; { b with net := { b.net with dup := [] } }), by decide +kernel⟩
  · exact ⟨.a, (let b : State := {}; let p : Port := .a; let b : State := (((((((b).setBit (F.HDR.INT_ROUTE.INBAND (pgARBTX)) false)).setBit (F.HDR.INT_ROUTE.INBAND (pgHSR)) false)).setBit (F.HDR.INT_ROUTE.INBAND (pgPORT (portNum p))) false)).setFld F.NVM.BOOT_STS.STEP 10; { b with net := { b.net with dup := [⟨3, 9, .a, 9⟩, ⟨4, 8, .b, 5⟩] } }), [⟨3, 9, .a, 9⟩], ⟨4, 8, .b, 5⟩, by decide +kernel⟩

/-- The premises of `Obligations.ManagementIsAuthenticatedAndKeysAreStored` are met, clause by clause. -/
theorem test_met_ManagementIsAuthenticatedAndKeysAreStored_1 :
    (∃ (s : State) (f : Frame) (l : List Frame) (e : Nat) (h : HubHdr) (ws : List Word), s.quiet = true
      ∧ s.bit (F.HDR.INT_ROUTE.INBAND pgHSR) = false ∧ s.net.mgmtRx = f :: l ∧ f.body = .hub e h ws ∧ s.bit F.HSR.HSR_CTL.MGMT_EN = true
      ∧ s.reqVerified h (ws.take h.wcount) = false)
    ∧ (∃ (s : State) (f : Frame) (l : List Frame) (e : Nat) (h : HubHdr) (ws : List Word), s.quiet = true
      ∧ s.bit (F.HDR.INT_ROUTE.INBAND pgHSR) = false ∧ s.net.mgmtRx = f :: l ∧ f.body = .hub e h ws ∧ s.bit F.HSR.HSR_CTL.MGMT_EN = true
      ∧ s.reqVerified h (ws.take h.wcount) = true ∧ h.seq ≤ s.fld (lastCtrFld (reqSlot (ws.take h.wcount))))
    ∧ (∃ (s : State), s.quiet = true ∧ s.bit (F.HDR.INT_ROUTE.INBAND pgHSR) = false ∧ s.net.mgmtRx = []) := by
  refine ⟨?_, ?_, ?_⟩
  · exact ⟨(let b : State := {}; let b : State := ((b).setBit (F.HDR.INT_ROUTE.INBAND (pgHSR)) false); { b.setBit F.HSR.HSR_CTL.MGMT_EN true with net := { b.net with mgmtRx := [{ dst := 5, src := 3 + 0, body := .hub 0x88B5 ⟨0, false, true, 6, 7, 5, 3, 0, 0, 0⟩ [1, 2, 3, 4, 5, 6, 7], bytes := 100, fcsOk := true }] }, mram := { b.mram with key0 := none, key1 := none } }), { dst := 5, src := 3 + 0, body := .hub 0x88B5 ⟨0, false, true, 6, 7, 5, 3, 0, 0, 0⟩ [1, 2, 3, 4, 5, 6, 7], bytes := 100, fcsOk := true }, [], 0x88B5, ⟨0, false, true, 6, 7, 5, 3, 0, 0, 0⟩, [1, 2, 3, 4, 5, 6, 7], by decide +kernel⟩
  · exact ⟨(let b : State := {}; let b : State := ((b).setBit (F.HDR.INT_ROUTE.INBAND (pgHSR)) false); { (b.setBit F.HSR.HSR_CTL.MGMT_EN true).setFld F.HSR.LAST_CTR_0.CTR 7 with net := { b.net with mgmtRx := [{ dst := 5, src := 3, body := .hub 0x88B5 ⟨0, false, true, 6, 7, 5, 3, 0, 0, 0⟩ [549772591104#40, 549755854988#40, 549755813888#40, 936016604511#40, 819520033720#40, 890650626718#40, 347892350976#40], bytes := 100, fcsOk := true }] }, mram := { b.mram with key0 := some 7 } }), { dst := 5, src := 3, body := .hub 0x88B5 ⟨0, false, true, 6, 7, 5, 3, 0, 0, 0⟩ [549772591104#40, 549755854988#40, 549755813888#40, 936016604511#40, 819520033720#40, 890650626718#40, 347892350976#40], bytes := 100, fcsOk := true }, [], 0x88B5, ⟨0, false, true, 6, 7, 5, 3, 0, 0, 0⟩, [549772591104#40, 549755854988#40, 549755813888#40, 936016604511#40, 819520033720#40, 890650626718#40, 347892350976#40], by decide +kernel, by decide +kernel, by decide +kernel, by decide +kernel, by decide +kernel, test_tag_read, by decide +kernel⟩
  · exact ⟨(let b : State := {}; let b : State := ((b).setBit (F.HDR.INT_ROUTE.INBAND (pgHSR)) false); { b with net := { b.net with mgmtRx := [] } }), by decide +kernel⟩

/-- The premises of `Obligations.ManagementIsAuthenticatedAndKeysAreStored` are met, clause by clause. -/
theorem test_met_ManagementIsAuthenticatedAndKeysAreStored_2 :
    (∃ (s : State) (f : Frame) (l : List Frame), s.quiet = true ∧ s.bit (F.HDR.INT_ROUTE.INBAND pgHSR) = false ∧ s.net.mgmtRx = f :: l
      ∧ s.bit F.HSR.HSR_CTL.MGMT_EN = false)
    ∧ (∃ (s : State) (f : Frame) (l : List Frame) (e : Nat) (h : HubHdr) (ws : List Word), s.quiet = true
      ∧ s.bit (F.HDR.INT_ROUTE.INBAND pgHSR) = false ∧ s.net.mgmtRx = f :: l ∧ f.body = .hub e h ws ∧ s.bit F.HSR.HSR_CTL.MGMT_EN = true
      ∧ s.reqVerified h (ws.take h.wcount) = true ∧ s.fld (lastCtrFld (reqSlot (ws.take h.wcount))) < h.seq ∧ s.follows = false
      ∧ reqStatus h.wcount (ws.take h.wcount) ≠ 0)
    ∧ (∃ (s : State) (f : Frame) (l : List Frame) (e : Nat) (h : HubHdr) (ws : List Word), s.quiet = true
      ∧ s.bit (F.HDR.INT_ROUTE.INBAND pgHSR) = false ∧ s.net.mgmtRx = f :: l ∧ f.body = .hub e h ws ∧ s.bit F.HSR.HSR_CTL.MGMT_EN = true
      ∧ s.reqVerified h (ws.take h.wcount) = true ∧ s.fld (lastCtrFld (reqSlot (ws.take h.wcount))) < h.seq ∧ s.follows = false
      ∧ reqStatus h.wcount (ws.take h.wcount) = 0 ∧ reqCmds (ws.take h.wcount) = [some (false, 1, F.TRIG.RTX_T0_SEC_LO.SEC_LO.addr, 0)]) := by
  refine ⟨?_, ?_, ?_⟩
  · exact ⟨(let b : State := {}; let b : State := ((b).setBit (F.HDR.INT_ROUTE.INBAND (pgHSR)) false); { b.setBit F.HSR.HSR_CTL.MGMT_EN false with net := { b.net with mgmtRx := [{ dst := 5, src := 3, body := .hub 0x88B5 ⟨0, false, true, 6, 7, 5, 3, 0, 0, 0⟩ [549772591104#40, 549755854988#40, 549755813888#40, 936016604511#40, 819520033720#40, 890650626718#40, 347892350976#40], bytes := 100, fcsOk := true }] } }), { dst := 5, src := 3, body := .hub 0x88B5 ⟨0, false, true, 6, 7, 5, 3, 0, 0, 0⟩ [549772591104#40, 549755854988#40, 549755813888#40, 936016604511#40, 819520033720#40, 890650626718#40, 347892350976#40], bytes := 100, fcsOk := true }, [], by decide +kernel⟩
  · exact ⟨(let b : State := {}; let b : State := ((b).setBit (F.HDR.INT_ROUTE.INBAND (pgHSR)) false); { (b.setBit F.HSR.HSR_CTL.MGMT_EN true).setFld F.HSR.LAST_CTR_0.CTR 1 |>.setFld F.PAIR.PAIR_STS.ROLE 0 with net := { b.net with mgmtRx := [{ dst := 5, src := 3, body := .hub 0x88B5 ⟨0, false, true, 6, 7, 5, 3, 0, 0, 0⟩ [549772591104#40, 552977080460#40, 549755813888#40, 1051414768402#40, 743494243511#40, 113844362282#40, 541165879296#40], bytes := 100, fcsOk := true }] }, mram := { b.mram with key0 := some 7 } }), { dst := 5, src := 3, body := .hub 0x88B5 ⟨0, false, true, 6, 7, 5, 3, 0, 0, 0⟩ [549772591104#40, 552977080460#40, 549755813888#40, 1051414768402#40, 743494243511#40, 113844362282#40, 541165879296#40], bytes := 100, fcsOk := true }, [], 0x88B5, ⟨0, false, true, 6, 7, 5, 3, 0, 0, 0⟩, [549772591104#40, 552977080460#40, 549755813888#40, 1051414768402#40, 743494243511#40, 113844362282#40, 541165879296#40], by decide +kernel, by decide +kernel, by decide +kernel, by decide +kernel, by decide +kernel, test_tag_bad, by decide +kernel, by decide +kernel, by decide +kernel⟩
  · exact ⟨(let b : State := {}; let b : State := ((b).setBit (F.HDR.INT_ROUTE.INBAND (pgHSR)) false); { (b.setBit F.HSR.HSR_CTL.MGMT_EN true).setFld F.HSR.LAST_CTR_0.CTR 1 |>.setFld F.PAIR.PAIR_STS.ROLE 0 with net := { b.net with mgmtRx := [{ dst := 5, src := 3, body := .hub 0x88B5 ⟨0, false, true, 6, 7, 5, 3, 0, 0, 0⟩ [549772591104#40, 549755854988#40, 549755813888#40, 936016604511#40, 819520033720#40, 890650626718#40, 347892350976#40], bytes := 100, fcsOk := true }] }, mram := { b.mram with key0 := some 7 } }), { dst := 5, src := 3, body := .hub 0x88B5 ⟨0, false, true, 6, 7, 5, 3, 0, 0, 0⟩ [549772591104#40, 549755854988#40, 549755813888#40, 936016604511#40, 819520033720#40, 890650626718#40, 347892350976#40], bytes := 100, fcsOk := true }, [], 0x88B5, ⟨0, false, true, 6, 7, 5, 3, 0, 0, 0⟩, [549772591104#40, 549755854988#40, 549755813888#40, 936016604511#40, 819520033720#40, 890650626718#40, 347892350976#40], by decide +kernel, by decide +kernel, by decide +kernel, by decide +kernel, by decide +kernel, test_tag_read, by decide +kernel, by decide +kernel, by decide +kernel, by decide +kernel⟩

/-- The premises of `Obligations.ManagementIsAuthenticatedAndKeysAreStored` are met, clause by clause. -/
theorem test_met_ManagementIsAuthenticatedAndKeysAreStored_3 :
    (∃ (s : State) (f : Frame) (l : List Frame) (e : Nat) (h : HubHdr) (ws : List Word) (v : Reg), s.quiet = true
      ∧ s.bit (F.HDR.INT_ROUTE.INBAND pgHSR) = false ∧ s.net.mgmtRx = f :: l ∧ f.body = .hub e h ws ∧ s.bit F.HSR.HSR_CTL.MGMT_EN = true
      ∧ s.reqVerified h (ws.take h.wcount) = true ∧ s.fld (lastCtrFld (reqSlot (ws.take h.wcount))) < h.seq ∧ s.follows = false
      ∧ reqStatus h.wcount (ws.take h.wcount) = 0 ∧ reqCmds (ws.take h.wcount) = [some (true, 1, F.TRIG.RTX_T0_SEC_LO.SEC_LO.addr, v)])
    ∧ (∃ (s : State) (f : Frame) (l : List Frame) (e : Nat) (h : HubHdr) (ws : List Word), s.quiet = true
      ∧ s.bit (F.HDR.INT_ROUTE.INBAND pgHSR) = false ∧ s.net.mgmtRx = f :: l ∧ f.body = .hub e h ws ∧ s.bit F.HSR.HSR_CTL.MGMT_EN = true
      ∧ s.reqVerified h (ws.take h.wcount) = true ∧ s.fld (lastCtrFld (reqSlot (ws.take h.wcount))) < h.seq)
    ∧ (∃ (s : State) (slot : Bool), s.quiet = true ∧ s.bit (F.HDR.INT_ROUTE.INBAND pgHSR) = false ∧ s.net.keyStore = none) := by
  refine ⟨?_, ?_, ?_⟩
  · exact ⟨(let b : State := {}; let b : State := ((b).setBit (F.HDR.INT_ROUTE.INBAND (pgHSR)) false); { (b.setBit F.HSR.HSR_CTL.MGMT_EN true).setFld F.HSR.LAST_CTR_0.CTR 1 |>.setFld F.PAIR.PAIR_STS.ROLE 0 with net := { b.net with mgmtRx := [{ dst := 5, src := 3, body := .hub 0x88B5 ⟨0, false, true, 6, 7, 5, 3, 0, 0, 0⟩ [549772591104#40, 550829596812#40, 553491742447#40, 35184649786#40, 270736515289#40, 185214474580#40, 352187318272#40], bytes := 100, fcsOk := true }] }, mram := { b.mram with key0 := some 7 } }), { dst := 5, src := 3, body := .hub 0x88B5 ⟨0, false, true, 6, 7, 5, 3, 0, 0, 0⟩ [549772591104#40, 550829596812#40, 553491742447#40, 35184649786#40, 270736515289#40, 185214474580#40, 352187318272#40], bytes := 100, fcsOk := true }, [], 0x88B5, ⟨0, false, true, 6, 7, 5, 3, 0, 0, 0⟩, [549772591104#40, 550829596812#40, 553491742447#40, 35184649786#40, 270736515289#40, 185214474580#40, 352187318272#40], 0xDEADBEEF, by decide +kernel, by decide +kernel, by decide +kernel, by decide +kernel, by decide +kernel, test_tag_set, by decide +kernel, by decide +kernel, by decide +kernel, by decide +kernel⟩
  · exact ⟨(let b : State := {}; let b : State := ((b).setBit (F.HDR.INT_ROUTE.INBAND (pgHSR)) false); { (b.setBit F.HSR.HSR_CTL.MGMT_EN true).setFld F.HSR.LAST_CTR_0.CTR 1 with net := { b.net with mgmtRx := [{ dst := 5, src := 3, body := .hub 0x88B5 ⟨0, false, true, 6, 7, 5, 3, 0, 0, 0⟩ [549772591104#40, 549755854988#40, 549755813888#40, 936016604511#40, 819520033720#40, 890650626718#40, 347892350976#40], bytes := 100, fcsOk := true }] }, mram := { b.mram with key0 := some 7 } }), { dst := 5, src := 3, body := .hub 0x88B5 ⟨0, false, true, 6, 7, 5, 3, 0, 0, 0⟩ [549772591104#40, 549755854988#40, 549755813888#40, 936016604511#40, 819520033720#40, 890650626718#40, 347892350976#40], bytes := 100, fcsOk := true }, [], 0x88B5, ⟨0, false, true, 6, 7, 5, 3, 0, 0, 0⟩, [549772591104#40, 549755854988#40, 549755813888#40, 936016604511#40, 819520033720#40, 890650626718#40, 347892350976#40], by decide +kernel, by decide +kernel, by decide +kernel, by decide +kernel, by decide +kernel, test_tag_read, by decide +kernel⟩
  · exact ⟨(let b : State := {}; let b : State := ((b).setBit (F.HDR.INT_ROUTE.INBAND (pgHSR)) false); { b with net := { b.net with keyData := [7#32, 8#32, 9#32, 10#32] } }), true, by decide +kernel⟩

/-- The premises of `Obligations.ManagementIsAuthenticatedAndKeysAreStored` are met, clause by clause. -/
theorem test_met_ManagementIsAuthenticatedAndKeysAreStored_4 :
    (∃ (s : State) (slot : Bool), s.quiet = true ∧ s.bit (F.HDR.INT_ROUTE.INBAND pgHSR) = false ∧ s.net.keyStore.isSome = true)
    ∧ (∃ (s : State) (ok : Bool), s.quiet = true ∧ s.bit (F.HDR.INT_ROUTE.INBAND pgHSR) = false ∧ s.net.keyStore = none)
    ∧ (∃ (s : State) (slot : Bool) (key : BitVec 128), s.quiet = true ∧ s.bit (F.HDR.INT_ROUTE.INBAND pgHSR) = false
      ∧ s.net.keyStore = some (slot, key)) := by
  refine ⟨?_, ?_, ?_⟩
  · exact ⟨(let b : State := {}; let b : State := ((b).setBit (F.HDR.INT_ROUTE.INBAND (pgHSR)) false); { b with net := { b.net with keyStore := some (true, 7) } }), true, by decide +kernel⟩
  · exact ⟨(let b : State := {}; let b : State := ((b).setBit (F.HDR.INT_ROUTE.INBAND (pgHSR)) false); { b with net := { b.net with keyStore := none } }), true, by decide +kernel⟩
  · exact ⟨(let b : State := {}; let b : State := ((b).setBit (F.HDR.INT_ROUTE.INBAND (pgHSR)) false); { b with net := { b.net with keyStore := some (true, 7) } }), true, 7, by decide +kernel⟩

/-- The premises of `Obligations.ManagementIsAuthenticatedAndKeysAreStored` are met, clause by clause. -/
theorem test_met_ManagementIsAuthenticatedAndKeysAreStored_5 :
    (∃ (s : State) (slot : Bool) (key : BitVec 128), s.quiet = true ∧ s.bit (F.HDR.INT_ROUTE.INBAND pgHSR) = false
      ∧ s.net.keyStore = some (slot, key)) := by
  exact ⟨(let b : State := {}; let b : State := ((b).setBit (F.HDR.INT_ROUTE.INBAND (pgHSR)) false); { b with net := { b.net with keyStore := some (true, 7) } }), true, 7, by decide +kernel⟩

/-- The premises of `Obligations.WaleLinesAreMeasured` are met, clause by clause. -/
theorem test_met_WaleLinesAreMeasured :
    (∃ (s : State) (v : BitVec 9), s.quiet = true ∧ s.bit (F.HDR.INT_ROUTE.INBAND pgWALE) = false ∧ s.wale.todo = [] ∧ v ≠ 0)
    ∧ (∃ (s : State) (v : BitVec 9), s.quiet = true ∧ s.bit (F.HDR.INT_ROUTE.INBAND pgWALE) = false ∧ s.wale.todo = [] ∧ v = 0)
    ∧ (∃ (s : State) (v : BitVec 9) (n : Nat) (l : List Nat), s.quiet = true ∧ s.bit (F.HDR.INT_ROUTE.INBAND pgWALE) = false
      ∧ s.wale.todo = n :: l)
    ∧ (∃ (s : State) (d : Option Int), s.quiet = true ∧ s.bit (F.HDR.INT_ROUTE.INBAND pgWALE) = false
      ∧ (s.wale.todo = [] ∨ 16 ≤ s.wale.valid ∨ 64 ≤ s.wale.tries))
    ∧ (∃ (s : State) (d : Option Int) (n : Nat) (l : List Nat), s.quiet = true ∧ s.bit (F.HDR.INT_ROUTE.INBAND pgWALE) = false
      ∧ s.wale.todo = n :: l ∧ s.wale.valid < 16 ∧ s.wale.tries < 64 ∧ s.waleOn = false)
    ∧ (∃ (s : State) (d : Int) (n : Nat) (l : List Nat), s.quiet = true ∧ s.bit (F.HDR.INT_ROUTE.INBAND pgWALE) = false ∧ s.wale.todo = n :: l
      ∧ s.wale.valid < 16 ∧ s.wale.tries < 64 ∧ s.waleOn = true ∧ s.waleDriving n = false)
    ∧ (∃ (s : State) (n : Nat) (l : List Nat), s.quiet = true ∧ s.bit (F.HDR.INT_ROUTE.INBAND pgWALE) = false ∧ s.wale.todo = n :: l
      ∧ s.wale.valid < 16 ∧ s.wale.tries < 64 ∧ s.waleOn = true ∧ s.waleDriving n = false)
    ∧ (∃ (s : State) (n : Nat) (x : Nat) (l : List Nat), s.quiet = true ∧ s.bit (F.HDR.INT_ROUTE.INBAND pgWALE) = false ∧ n < 9
      ∧ s.wale.todo = n :: l ∧ 16 ≤ s.wale.valid ∧ s.wale.sum = 16 * (x : Int) ∧ x < 2 ^ 16)
    ∧ (∃ (s : State) (n : Nat) (l : List Nat), s.quiet = true ∧ s.bit (F.HDR.INT_ROUTE.INBAND pgWALE) = false ∧ n < 9 ∧ s.wale.todo = n :: l
      ∧ s.wale.valid < 16 ∧ 64 ≤ s.wale.tries)
    ∧ (∃ (s : State), s.quiet = true ∧ s.bit (F.HDR.INT_ROUTE.INBAND pgWALE) = false ∧ (s.wale.todo = [] ∨ s.wale.valid < 16
      ∧ s.wale.tries < 64))
    ∧ (∃ (s : State) (n : Fin 9), s.quiet = true ∧ s.bit (F.HDR.INT_ROUTE.INBAND pgWALE) = false
      ∧ (s.timekeeper = false ∨ s.bit F.WALE.WALE_CTL.ECHO_EN = false))
    ∧ (∃ (s : State) (n : Fin 9), s.quiet = true ∧ s.bit (F.HDR.INT_ROUTE.INBAND pgWALE) = false ∧ s.timekeeper = true
      ∧ s.bit F.WALE.WALE_CTL.ECHO_EN = true ∧ s.waleDriving n.val = false) := by
  refine ⟨?_, ?_, ?_, ?_, ?_, ?_, ?_, ?_, ?_, ?_, ?_, ?_⟩
  · exact ⟨(let b : State := {}; let b : State := ((b).setBit (F.HDR.INT_ROUTE.INBAND (pgWALE)) false); b), BitVec.ofNat 9 (1 + 3531510670 % 511), by decide +kernel⟩
  · exact ⟨(let b : State := {}; let b : State := ((b).setBit (F.HDR.INT_ROUTE.INBAND (pgWALE)) false); { b with wale := { b.wale with todo := [] } }), 0, by decide +kernel⟩
  · exact ⟨(let b : State := {}; let b : State := ((b).setBit (F.HDR.INT_ROUTE.INBAND (pgWALE)) false); { b with wale := { b.wale with todo := [3, 8], valid := 0, tries := 40, sum := 9 } }), BitVec.ofNat 9 (3531510670), 3, [8], by decide +kernel⟩
  · exact ⟨(let b : State := {}; let b : State := ((b).setBit (F.HDR.INT_ROUTE.INBAND (pgWALE)) false); { b with wale := { b.wale with todo := [], valid := 16 } }), some 7, by decide +kernel⟩
  · exact ⟨(let b : State := {}; let b : State := ((b).setBit (F.HDR.INT_ROUTE.INBAND (pgWALE)) false); { b.setFld F.WALE.WALE_CTL.ROLE 0 with wale := { b.wale with todo := [3, 8], valid := 5, tries := 40, sum := 9 } }), some 7, 3, [8], by decide +kernel⟩
  · exact ⟨(let b : State := {}; let b : State := ((b).setBit (F.HDR.INT_ROUTE.INBAND (pgWALE)) false); { b.setFld F.WALE.WALE_CTL.ROLE 1 with wale := { b.wale with todo := [3, 8], valid := 0, tries := 40, sum := 9 } }), 70 + 0, 3, [8], by decide +kernel⟩
  · exact ⟨(let b : State := {}; let b : State := ((b).setBit (F.HDR.INT_ROUTE.INBAND (pgWALE)) false); { b.setFld F.WALE.WALE_CTL.ROLE 1 with wale := { b.wale with todo := [3, 8], valid := 0, tries := 40, sum := 9 } }), 3, [8], by decide +kernel⟩
  · exact ⟨(let b : State := {}; let b : State := ((b).setBit (F.HDR.INT_ROUTE.INBAND (pgWALE)) false); { b with wale := { b.wale with todo := [8], valid := 16, tries := 40, sum := 16 * (500 + (0 : Int)) } }), 8, 500 + 0, [], by decide +kernel⟩
  · exact ⟨(let b : State := {}; let b : State := ((b).setBit (F.HDR.INT_ROUTE.INBAND (pgWALE)) false); { b with wale := { b.wale with todo := [3, 4, 5], valid := 15, tries := 64, sum := 9 } }), 3, [4, 5], by decide +kernel⟩
  · exact ⟨(let b : State := {}; let b : State := ((b).setBit (F.HDR.INT_ROUTE.INBAND (pgWALE)) false); { b with wale := { b.wale with todo := [], valid := 15, tries := 63 } }), by decide +kernel⟩
  · exact ⟨(let b : State := {}; let b : State := ((b).setBit (F.HDR.INT_ROUTE.INBAND (pgWALE)) false); b.setBit F.WALE.WALE_CTL.ECHO_EN false), 0, by decide +kernel⟩
  · exact ⟨(let b : State := {}; let b : State := ((b).setBit (F.HDR.INT_ROUTE.INBAND (pgWALE)) false); (b.setBit F.WALE.WALE_STS.TK_ACTIVE true).setBit F.WALE.WALE_CTL.ECHO_EN true), 0, by decide +kernel⟩

/-- The premises of `Obligations.WalePulsesAndClockAreFollowed` are met, clause by clause. -/
theorem test_met_WalePulsesAndClockAreFollowed :
    (∃ (s : State) (n : Fin 9) (st : Stamp), s.quiet = true ∧ s.bit (F.HDR.INT_ROUTE.INBAND pgWALE) = false ∧ s.waleOn = true ∧ n.val < 8
      ∧ (s.fld F.NVM.PWR_CTL.WAKE_WALE).testBit n.val = false ∧ s.role = roleSolo
      ∧ (((List.range 256).all fun y => decide (s.cxSt y = cxIdle)) = true) ∧ s.ownEdge n.val st = false ∧ st.frac < 16)
    ∧ (∃ (s : State) (st : Stamp), s.quiet = true ∧ s.bit (F.HDR.INT_ROUTE.INBAND pgWALE) = false ∧ s.waleOn = true ∧ nearSecond st = true)
    ∧ (∃ (s : State) (n : Fin 9) (st : Stamp), s.quiet = true ∧ s.bit (F.HDR.INT_ROUTE.INBAND pgWALE) = false ∧ s.waleOn = true ∧ n.val < 8
      ∧ s.ownEdge n.val st = false ∧ st.frac < 16)
    ∧ (∃ (s : State) (n : Fin 9) (st : Stamp) (c : WaleClass), s.quiet = true ∧ s.bit (F.HDR.INT_ROUTE.INBAND pgWALE) = false
      ∧ (s.waleOn = false ∨ c = .short ∧ (n.val = 8 ∨ s.ownEdge n.val st = true) ∨ c = .wide ∧ (n.val < 8 ∨ nearSecond st = false)))
    ∧ (∃ (s : State) (n : Fin 9) (st : Stamp), s.quiet = true ∧ s.bit (F.HDR.INT_ROUTE.INBAND pgWALE) = false ∧ s.waleOn = true
      ∧ (s.wale.driving.any (fun e => decide (e.1 = n.val)) = true))
    ∧ (∃ (s : State) (n : Fin 9) (st : Stamp), s.quiet = true ∧ s.bit (F.HDR.INT_ROUTE.INBAND pgWALE) = false
      ∧ (s.wale.driving.any (fun e => decide (e.1 = n.val)) = false))
    ∧ (∃ (s : State), s.quiet = true ∧ s.bit (F.HDR.INT_ROUTE.INBAND pgWALE) = false ∧ s.waleOn = false)
    ∧ (∃ (s : State), s.quiet = true ∧ s.bit (F.HDR.INT_ROUTE.INBAND pgWALE) = false ∧ s.waleOn = false)
    ∧ (∃ (s : State), s.quiet = true ∧ s.bit (F.HDR.INT_ROUTE.INBAND pgWALE) = false ∧ (s.waleOn = false ∨ s.wale.wsyncGone = true))
    ∧ (∃ (s : State) (long : Bool), s.quiet = true ∧ s.bit (F.HDR.INT_ROUTE.INBAND pgWALE) = false ∧ s.waleOn = true ∧ (long = true →
      s.bit F.WALE.WALE_STS.REF_WCLK = false) ∧ s.bit F.WALE.WALE_CTL.TK_BACKUP = true ∧ s.timekeeper = false)
    ∧ (∃ (s : State) (long : Bool), s.quiet = true ∧ s.bit (F.HDR.INT_ROUTE.INBAND pgWALE) = false ∧ s.waleOn = true ∧ (long = true →
      s.bit F.WALE.WALE_STS.REF_WCLK = false) ∧ (s.bit F.WALE.WALE_CTL.TK_BACKUP = false ∨ s.timekeeper = true))
    ∧ (∃ (s : State), s.quiet = true ∧ s.bit (F.HDR.INT_ROUTE.INBAND pgWALE) = false ∧ s.bit F.WALE.WALE_STS.REF_WCLK = true
      ∧ s.role = roleSolo ∧ s.bit (F.HDR.INT_ROUTE.INBAND pgTIME) = false ∧ s.bit (F.HDR.INT_ROUTE.INBAND pgRIM) = false)
    ∧ (∃ (s : State), s.quiet = true ∧ s.bit (F.HDR.INT_ROUTE.INBAND pgWALE) = false ∧ s.waleOn = true)
    ∧ (∃ (s : State), s.quiet = true ∧ s.bit (F.HDR.INT_ROUTE.INBAND pgWALE) = false ∧ s.waleOn = true ∧ s.wale.wsyncGone = false) := by
  refine ⟨?_, ?_, ?_, ?_, ?_, ?_, ?_, ?_, ?_, ?_, ?_, ?_, ?_, ?_⟩
  · exact ⟨(let b : State := {}; let b : State := ((b).setBit (F.HDR.INT_ROUTE.INBAND (pgWALE)) false); ([0,1,255].foldl (fun (s : State) y => s.setFld (F.CTX.CTX_STS.STATE y) 0) b).setFld F.WALE.WALE_CTL.ROLE 1 |>.setFld F.NVM.PWR_CTL.WAKE_WALE 0 |>.setFld F.PAIR.PAIR_STS.ROLE 0 |>.modWale fun w => { w with driving := [] }), 0, ⟨3844675722, 3531510670 % 1000000000, 0 % 16⟩, by decide +kernel⟩
  · exact ⟨(let b : State := {}; let b : State := ((b).setBit (F.HDR.INT_ROUTE.INBAND (pgWALE)) false); b.setFld F.WALE.WALE_CTL.ROLE (1 + 0 % 2)), ⟨4157840774, 900, 3⟩, by decide +kernel⟩
  · exact ⟨(let b : State := {}; let b : State := ((b).setBit (F.HDR.INT_ROUTE.INBAND (pgWALE)) false); b.setFld F.WALE.WALE_CTL.ROLE 1 |>.modWale fun w => { w with driving := [] }), 0, ⟨3844675722, 3531510670 % 1000000000, 0 % 16⟩, by decide +kernel⟩
  · exact ⟨(let b : State := {}; let b : State := ((b).setBit (F.HDR.INT_ROUTE.INBAND (pgWALE)) false); b), 8, ⟨5, 500000000, 3⟩, .short, by decide +kernel⟩
  · exact ⟨(let b : State := {}; let b : State := ((b).setBit (F.HDR.INT_ROUTE.INBAND (pgWALE)) false); b.setFld F.WALE.WALE_CTL.ROLE 1 |>.modWale fun w => { w with driving := [(7, 1, 5, 80), (8, 2, 9, 80)] }), 8, ⟨3844675722, 3531510670 % 1000000000, 0 % 16⟩, by decide +kernel⟩
  · exact ⟨(let b : State := {}; let b : State := ((b).setBit (F.HDR.INT_ROUTE.INBAND (pgWALE)) false); b.modWale fun w => { w with driving := [] }), 8, ⟨3844675722, 3531510670 % 1000000000, 0 % 16⟩, by decide +kernel⟩
  · exact ⟨(let b : State := {}; let b : State := ((b).setBit (F.HDR.INT_ROUTE.INBAND (pgWALE)) false); b.setFld F.WALE.WALE_CTL.ROLE 0), by decide +kernel⟩
  · exact ⟨(let b : State := {}; let b : State := ((b).setBit (F.HDR.INT_ROUTE.INBAND (pgWALE)) false); b.setFld F.WALE.WALE_CTL.ROLE 0), by decide +kernel⟩
  · exact ⟨(let b : State := {}; let b : State := ((b).setBit (F.HDR.INT_ROUTE.INBAND (pgWALE)) false); b.setFld F.WALE.WALE_CTL.ROLE 0), by decide +kernel⟩
  · exact ⟨(let b : State := {}; let b : State := ((b).setBit (F.HDR.INT_ROUTE.INBAND (pgWALE)) false); ((b.setFld F.WALE.WALE_CTL.ROLE 1).setBit F.WALE.WALE_STS.REF_WCLK false).setBit F.WALE.WALE_CTL.TK_BACKUP true |>.setBit F.WALE.WALE_STS.TK_ACTIVE false), true, by decide +kernel⟩
  · exact ⟨(let b : State := {}; let b : State := ((b).setBit (F.HDR.INT_ROUTE.INBAND (pgWALE)) false); ((b.setFld F.WALE.WALE_CTL.ROLE 1).setBit F.WALE.WALE_STS.REF_WCLK false).setBit F.WALE.WALE_CTL.TK_BACKUP (true) |>.setBit F.WALE.WALE_STS.TK_ACTIVE true), true, by decide +kernel⟩
  · exact ⟨(let b : State := {}; let b : State := ((b).setBit (F.HDR.INT_ROUTE.INBAND (pgWALE)) false); (((((b.setBit F.WALE.WALE_STS.REF_WCLK true).setFld F.PAIR.PAIR_STS.ROLE 0).setBit (F.HDR.INT_ROUTE.INBAND (pgRIM)) false)).setBit (F.HDR.INT_ROUTE.INBAND (pgTIME)) false)), by decide +kernel⟩
  · exact ⟨(let b : State := {}; let b : State := ((b).setBit (F.HDR.INT_ROUTE.INBAND (pgWALE)) false); b.setFld F.WALE.WALE_CTL.ROLE 1), by decide +kernel⟩
  · exact ⟨(let b : State := {}; let b : State := ((b).setBit (F.HDR.INT_ROUTE.INBAND (pgWALE)) false); b.setFld F.WALE.WALE_CTL.ROLE 1), by decide +kernel⟩

/-- The premises of `Obligations.PairRolesAreEntered` are met, clause by clause. -/
theorem test_met_PairRolesAreEntered :
    (∃ (s : State), s.quiet = true ∧ s.bit (F.HDR.INT_ROUTE.INBAND pgPAIR) = false ∧ s.role = roleSolo ∧ s.pair.staging = [])
    ∧ (∃ (s : State), s.quiet = true ∧ s.bit (F.HDR.INT_ROUTE.INBAND pgPAIR) = false ∧ s.role = roleActive
      ∧ s.fld F.PAIR.PAIR_STS.PARTNER_ROLE ≠ roleStandby ∧ s.fld F.PAIR.PAIR_STS.PARTNER_ROLE ≠ roleJoining ∧ s.pair.staging = [])
    ∧ (∃ (s : State) (en : Bool), s.quiet = true ∧ s.bit (F.HDR.INT_ROUTE.INBAND pgPAIR) = false ∧ s.role = roleStandby)
    ∧ (∃ (s : State), s.quiet = true ∧ s.bit (F.HDR.INT_ROUTE.INBAND pgPAIR) = false ∧ s.role = roleActive ∧ s.mirrored = true)
    ∧ (∃ (s : State), s.quiet = true ∧ s.bit (F.HDR.INT_ROUTE.INBAND pgPAIR) = false ∧ s.role ≠ roleSolo ∧ s.role ≠ roleStandby)
    ∧ (∃ (s : State), s.quiet = true ∧ s.bit (F.HDR.INT_ROUTE.INBAND pgPAIR) = false ∧ s.role = roleSolo)
    ∧ (∃ (s : State), s.quiet = true ∧ s.bit (F.HDR.INT_ROUTE.INBAND pgPAIR) = false
      ∧ (s.role ≠ roleJoining ∨ s.bit F.PAIR.PAIR_STS.LINK_UP = true))
    ∧ (∃ (s : State), s.quiet = true ∧ s.bit (F.HDR.INT_ROUTE.INBAND pgPAIR) = false
      ∧ (s.role ≠ roleJoining ∨ s.bit F.PAIR.PAIR_STS.LINK_UP = true))
    ∧ (∃ (s : State), s.quiet = true ∧ s.bit (F.HDR.INT_ROUTE.INBAND pgPAIR) = false ∧ s.role = roleJoining
      ∧ s.bit F.PAIR.PAIR_STS.LINK_UP = false ∧ s.pins.present = true)
    ∧ (∃ (s : State), s.quiet = true ∧ s.bit (F.HDR.INT_ROUTE.INBAND pgPAIR) = false ∧ (s.role ≠ roleYielded
      ∧ s.role ≠ roleFailed ∨ s.anyFatal = true ∨ s.bit F.PAIR.PAIR_STS.LINK_UP = false))
    ∧ (∃ (s : State), s.quiet = true ∧ s.bit (F.HDR.INT_ROUTE.INBAND pgPAIR) = false ∧ (s.role ≠ roleYielded
      ∧ s.role ≠ roleFailed ∨ s.bit F.PAIR.PAIR_CTL.REJOIN_AUTO = false))
    ∧ (∃ (s : State), s.quiet = true ∧ s.bit (F.HDR.INT_ROUTE.INBAND pgPAIR) = false ∧ s.role = roleJoining
      ∧ s.bit F.PAIR.PAIR_STS.LINK_UP = false ∧ s.pair.staging = [])
    ∧ (∃ (s : State), s.quiet = true ∧ s.bit (F.HDR.INT_ROUTE.INBAND pgPAIR) = false ∧ s.role = roleJoining
      ∧ s.bit F.PAIR.PAIR_STS.LINK_UP = false ∧ s.pins.present = false ∧ s.pair.staging = [])
    ∧ (∃ (s : State), s.quiet = true ∧ s.bit (F.HDR.INT_ROUTE.INBAND pgPAIR) = false ∧ (s.role = roleYielded ∨ s.role = roleFailed)
      ∧ s.anyFatal = false ∧ s.bit F.PAIR.PAIR_STS.LINK_UP = true ∧ s.fld F.PAIR.PAIR_STS.PARTNER_ROLE ≠ roleActive)
    ∧ (∃ (s : State), s.quiet = true ∧ s.bit (F.HDR.INT_ROUTE.INBAND pgPAIR) = false ∧ (s.role = roleYielded ∨ s.role = roleFailed)
      ∧ s.bit F.PAIR.PAIR_CTL.REJOIN_AUTO = true ∧ s.anyFatal = false ∧ s.bit F.PAIR.PAIR_STS.LINK_UP = true
      ∧ s.fld F.PAIR.PAIR_STS.PARTNER_ROLE ≠ roleActive)
    ∧ (∃ (s : State) (v : Bool), s.quiet = true ∧ s.bit (F.HDR.INT_ROUTE.INBAND pgPAIR) = false ∧ s.role ≠ roleJoining)
    ∧ (∃ (s : State), s.quiet = true ∧ s.bit (F.HDR.INT_ROUTE.INBAND pgPAIR) = false ∧ s.role = roleJoining
      ∧ s.bit F.PAIR.PAIR_STS.LINK_UP = false) := by
  refine ⟨?_, ?_, ?_, ?_, ?_, ?_, ?_, ?_, ?_, ?_, ?_, ?_, ?_, ?_, ?_, ?_, ?_⟩
  · exact ⟨(let b : State := {}; let b : State := ((((b).setBit (F.HDR.INT_ROUTE.INBAND (pgRIM)) false)).setBit (F.HDR.INT_ROUTE.INBAND (pgPAIR)) false); (b).setFld F.PAIR.PAIR_STS.ROLE 0), by decide +kernel⟩
  · exact ⟨(let b : State := {}; let b : State := ((((b).setBit (F.HDR.INT_ROUTE.INBAND (pgRIM)) false)).setBit (F.HDR.INT_ROUTE.INBAND (pgPAIR)) false); ((b).setFld F.PAIR.PAIR_STS.ROLE 1).setFld F.PAIR.PAIR_STS.PARTNER_ROLE (1)), by decide +kernel⟩
  · exact ⟨(let b : State := {}; let b : State := ((((b).setBit (F.HDR.INT_ROUTE.INBAND (pgRIM)) false)).setBit (F.HDR.INT_ROUTE.INBAND (pgPAIR)) false); (b).setFld F.PAIR.PAIR_STS.ROLE 2), true, by decide +kernel⟩
  · exact ⟨(let b : State := {}; let b : State := ((((b).setBit (F.HDR.INT_ROUTE.INBAND (pgRIM)) false)).setBit (F.HDR.INT_ROUTE.INBAND (pgPAIR)) false); ((b).setFld F.PAIR.PAIR_STS.ROLE 1).setFld F.PAIR.PAIR_STS.PARTNER_ROLE (2 + 0 % 2)), by decide +kernel⟩
  · exact ⟨(let b : State := {}; let b : State := ((((b).setBit (F.HDR.INT_ROUTE.INBAND (pgRIM)) false)).setBit (F.HDR.INT_ROUTE.INBAND (pgPAIR)) false); (b).setFld F.PAIR.PAIR_STS.ROLE (1 + 2 * (0 % 2))), by decide +kernel⟩
  · exact ⟨(let b : State := {}; let b : State := ((((b).setBit (F.HDR.INT_ROUTE.INBAND (pgRIM)) false)).setBit (F.HDR.INT_ROUTE.INBAND (pgPAIR)) false); (b).setFld F.PAIR.PAIR_STS.ROLE 0), by decide +kernel⟩
  · exact ⟨(let b : State := {}; let b : State := ((((b).setBit (F.HDR.INT_ROUTE.INBAND (pgRIM)) false)).setBit (F.HDR.INT_ROUTE.INBAND (pgPAIR)) false); ((b).setFld F.PAIR.PAIR_STS.ROLE (0 % 5)).setBit F.PAIR.PAIR_STS.LINK_UP true), by decide +kernel⟩
  · exact ⟨(let b : State := {}; let b : State := ((((b).setBit (F.HDR.INT_ROUTE.INBAND (pgRIM)) false)).setBit (F.HDR.INT_ROUTE.INBAND (pgPAIR)) false); ((b).setFld F.PAIR.PAIR_STS.ROLE (0 % 5)).setBit F.PAIR.PAIR_STS.LINK_UP true), by decide +kernel⟩
  · exact ⟨(let b : State := {}; let b : State := ((((b).setBit (F.HDR.INT_ROUTE.INBAND (pgRIM)) false)).setBit (F.HDR.INT_ROUTE.INBAND (pgPAIR)) false); { (((b).setFld F.PAIR.PAIR_STS.ROLE 3).setBit F.PAIR.PAIR_STS.LINK_UP false) with pins := { b.pins with present := true } }), by decide +kernel⟩
  · exact ⟨(let b : State := {}; let b : State := ((((b).setBit (F.HDR.INT_ROUTE.INBAND (pgRIM)) false)).setBit (F.HDR.INT_ROUTE.INBAND (pgPAIR)) false); ((b).setFld F.PAIR.PAIR_STS.ROLE (0 % 6)).setBit F.PAIR.PAIR_STS.LINK_UP false), by decide +kernel⟩
  · exact ⟨(let b : State := {}; let b : State := ((((b).setBit (F.HDR.INT_ROUTE.INBAND (pgRIM)) false)).setBit (F.HDR.INT_ROUTE.INBAND (pgPAIR)) false); ((b).setFld F.PAIR.PAIR_STS.ROLE (0 % 6)).setBit F.PAIR.PAIR_CTL.REJOIN_AUTO false), by decide +kernel⟩
  · exact ⟨(let b : State := {}; let b : State := ((((b).setBit (F.HDR.INT_ROUTE.INBAND (pgRIM)) false)).setBit (F.HDR.INT_ROUTE.INBAND (pgPAIR)) false); ((b).setFld F.PAIR.PAIR_STS.ROLE 3).setBit F.PAIR.PAIR_STS.LINK_UP false), by decide +kernel⟩
  · exact ⟨(let b : State := {}; let b : State := ((((b).setBit (F.HDR.INT_ROUTE.INBAND (pgRIM)) false)).setBit (F.HDR.INT_ROUTE.INBAND (pgPAIR)) false); ((b).setFld F.PAIR.PAIR_STS.ROLE 3).setBit F.PAIR.PAIR_STS.LINK_UP false), by decide +kernel⟩
  · exact ⟨(let b : State := {}; let b : State := ((((b).setBit (F.HDR.INT_ROUTE.INBAND (pgRIM)) false)).setBit (F.HDR.INT_ROUTE.INBAND (pgPAIR)) false); ((((((b.setFld (F.HDR.FLT_STS.FAULTS pgTIME) 0).setFld (F.HDR.FLT_STS.FAULTS pgNVM) 0).setFld (F.HDR.FLT_STS.FAULTS pgRIM) 0)).setFld F.PAIR.PAIR_STS.ROLE (4 + 0 % 2)).setFld F.PAIR.PAIR_STS.PARTNER_ROLE 7).setBit F.PAIR.PAIR_STS.LINK_UP true), by decide +kernel⟩
  · exact ⟨(let b : State := {}; let b : State := ((((b).setBit (F.HDR.INT_ROUTE.INBAND (pgRIM)) false)).setBit (F.HDR.INT_ROUTE.INBAND (pgPAIR)) false); (((((((b.setFld (F.HDR.FLT_STS.FAULTS pgTIME) 0).setFld (F.HDR.FLT_STS.FAULTS pgNVM) 0).setFld (F.HDR.FLT_STS.FAULTS pgRIM) 0)).setFld F.PAIR.PAIR_STS.ROLE (4 + 0 % 2)).setFld F.PAIR.PAIR_STS.PARTNER_ROLE 7).setBit F.PAIR.PAIR_STS.LINK_UP true).setBit F.PAIR.PAIR_CTL.REJOIN_AUTO true), by decide +kernel⟩
  · exact ⟨(let b : State := {}; let b : State := ((((b).setBit (F.HDR.INT_ROUTE.INBAND (pgRIM)) false)).setBit (F.HDR.INT_ROUTE.INBAND (pgPAIR)) false); (b).setFld F.PAIR.PAIR_STS.ROLE (0 % 3)), true, by decide +kernel⟩
  · exact ⟨(let b : State := {}; let b : State := ((((b).setBit (F.HDR.INT_ROUTE.INBAND (pgRIM)) false)).setBit (F.HDR.INT_ROUTE.INBAND (pgPAIR)) false); ((b).setFld F.PAIR.PAIR_STS.ROLE 3).setBit F.PAIR.PAIR_STS.LINK_UP false), by decide +kernel⟩

/-- The premises of `Obligations.PairLinkRunsAndFails` are met, clause by clause. -/
theorem test_met_PairLinkRunsAndFails :
    (∃ (s : State), s.quiet = true ∧ s.bit (F.HDR.INT_ROUTE.INBAND pgPAIR) = false)
    ∧ (∃ (s : State), s.quiet = true ∧ s.bit (F.HDR.INT_ROUTE.INBAND pgPAIR) = false ∧ s.bit F.PAIR.PAIR_STS.LINK_UP = true
      ∧ s.role ≠ roleJoining)
    ∧ (∃ (s : State), s.quiet = true ∧ s.bit (F.HDR.INT_ROUTE.INBAND pgPAIR) = false ∧ s.bit F.PAIR.PAIR_STS.LINK_UP = true
      ∧ s.pair.lane1 = true)
    ∧ (∃ (s : State), s.quiet = true ∧ s.bit (F.HDR.INT_ROUTE.INBAND pgPAIR) = false ∧ s.bit F.PAIR.PAIR_STS.LINK_UP = true
      ∧ s.pair.lane0 = true)
    ∧ (∃ (s : State), s.quiet = true ∧ s.bit (F.HDR.INT_ROUTE.INBAND pgPAIR) = false ∧ s.bit F.PAIR.PAIR_STS.LINK_UP = false)
    ∧ (∃ (s : State) (lane : Bool), s.quiet = true ∧ s.bit (F.HDR.INT_ROUTE.INBAND pgPAIR) = false ∧ s.bit F.PAIR.PAIR_STS.LINK_UP = false)
    ∧ (∃ (s : State) (lane : Bool), s.quiet = true ∧ s.bit (F.HDR.INT_ROUTE.INBAND pgPAIR) = false ∧ s.bit F.PAIR.PAIR_STS.LINK_UP = true
      ∧ ((if lane then s.pair.lane0 else s.pair.lane1) = false))
    ∧ (∃ (s : State) (r : Nat), s.quiet = true ∧ s.bit (F.HDR.INT_ROUTE.INBAND pgPAIR) = false ∧ s.bit F.PAIR.PAIR_STS.LINK_UP = false)
    ∧ (∃ (s : State) (r : Nat), s.quiet = true ∧ s.bit (F.HDR.INT_ROUTE.INBAND pgPAIR) = false ∧ s.bit F.PAIR.PAIR_STS.LINK_UP = true
      ∧ s.pair.tryRec ≠ r)
    ∧ (∃ (s : State) (r : Nat), s.quiet = true ∧ s.bit (F.HDR.INT_ROUTE.INBAND pgPAIR) = false ∧ s.bit F.PAIR.PAIR_STS.LINK_UP = true
      ∧ s.pair.tryRec = r ∧ s.pair.tries < 3)
    ∧ (∃ (s : State) (r : Nat), s.quiet = true ∧ s.bit (F.HDR.INT_ROUTE.INBAND pgPAIR) = false ∧ s.bit F.PAIR.PAIR_STS.LINK_UP = true
      ∧ s.pair.tryRec = r ∧ s.pair.tries = 3 ∧ s.role ≠ roleJoining) := by
  refine ⟨?_, ?_, ?_, ?_, ?_, ?_, ?_, ?_, ?_, ?_, ?_⟩
  · exact ⟨(let b : State := {}; let b : State := ((((b).setBit (F.HDR.INT_ROUTE.INBAND (pgRIM)) false)).setBit (F.HDR.INT_ROUTE.INBAND (pgPAIR)) false); b), by decide +kernel⟩
  · exact ⟨(let b : State := {}; let b : State := ((((b).setBit (F.HDR.INT_ROUTE.INBAND (pgRIM)) false)).setBit (F.HDR.INT_ROUTE.INBAND (pgPAIR)) false); ((b).setFld F.PAIR.PAIR_STS.ROLE (0 % 3)).setBit F.PAIR.PAIR_STS.LINK_UP true), by decide +kernel⟩
  · exact ⟨(let b : State := {}; let b : State := ((((b).setBit (F.HDR.INT_ROUTE.INBAND (pgRIM)) false)).setBit (F.HDR.INT_ROUTE.INBAND (pgPAIR)) false); (b).setBit F.PAIR.PAIR_STS.LINK_UP true), by decide +kernel⟩
  · exact ⟨(let b : State := {}; let b : State := ((((b).setBit (F.HDR.INT_ROUTE.INBAND (pgRIM)) false)).setBit (F.HDR.INT_ROUTE.INBAND (pgPAIR)) false); (b).setBit F.PAIR.PAIR_STS.LINK_UP true), by decide +kernel⟩
  · exact ⟨(let b : State := {}; let b : State := ((((b).setBit (F.HDR.INT_ROUTE.INBAND (pgRIM)) false)).setBit (F.HDR.INT_ROUTE.INBAND (pgPAIR)) false); (b).setBit F.PAIR.PAIR_STS.LINK_UP false), by decide +kernel⟩
  · exact ⟨(let b : State := {}; let b : State := ((((b).setBit (F.HDR.INT_ROUTE.INBAND (pgRIM)) false)).setBit (F.HDR.INT_ROUTE.INBAND (pgPAIR)) false); (b).setBit F.PAIR.PAIR_STS.LINK_UP false), true, by decide +kernel⟩
  · exact ⟨(let b : State := {}; let b : State := ((((b).setBit (F.HDR.INT_ROUTE.INBAND (pgRIM)) false)).setBit (F.HDR.INT_ROUTE.INBAND (pgPAIR)) false); { ((b).setBit F.PAIR.PAIR_STS.LINK_UP true) with pair := { b.pair with lane0 := false, lane1 := false } }), true, by decide +kernel⟩
  · exact ⟨(let b : State := {}; let b : State := ((((b).setBit (F.HDR.INT_ROUTE.INBAND (pgRIM)) false)).setBit (F.HDR.INT_ROUTE.INBAND (pgPAIR)) false); (b).setBit F.PAIR.PAIR_STS.LINK_UP false), 5, by decide +kernel⟩
  · exact ⟨(let b : State := {}; let b : State := ((((b).setBit (F.HDR.INT_ROUTE.INBAND (pgRIM)) false)).setBit (F.HDR.INT_ROUTE.INBAND (pgPAIR)) false); { ((b).setBit F.PAIR.PAIR_STS.LINK_UP true) with pair := { b.pair with tryRec := 5, tries := 3 } }), 6, by decide +kernel⟩
  · exact ⟨(let b : State := {}; let b : State := ((((b).setBit (F.HDR.INT_ROUTE.INBAND (pgRIM)) false)).setBit (F.HDR.INT_ROUTE.INBAND (pgPAIR)) false); { ((b).setBit F.PAIR.PAIR_STS.LINK_UP true) with pair := { b.pair with tryRec := 5, tries := 0 % 3 } }), 5, by decide +kernel⟩
  · exact ⟨(let b : State := {}; let b : State := ((((b).setBit (F.HDR.INT_ROUTE.INBAND (pgRIM)) false)).setBit (F.HDR.INT_ROUTE.INBAND (pgPAIR)) false); { ((b).setFld F.PAIR.PAIR_STS.ROLE (0 % 3)).setBit F.PAIR.PAIR_STS.LINK_UP true with pair := { b.pair with tryRec := 5, tries := 3 } }), 5, by decide +kernel⟩

/-- The premises of `Obligations.RecordsReachAFollowingHub` are met, clause by clause. -/
theorem test_met_RecordsReachAFollowingHub :
    (∃ (s : State) (g : Fin 32) (i : Nat) (n : Nat) (l : List Reg), s.quiet = true ∧ s.bit (F.HDR.INT_ROUTE.INBAND pgPAIR) = false
      ∧ s.follows = true ∧ s.pair.executing = true ∧ s.late = false)
    ∧ (∃ (s : State) (g : Fin 32) (i : Nat) (n : Nat) (l : List Reg), s.quiet = true ∧ s.bit (F.HDR.INT_ROUTE.INBAND pgPAIR) = false
      ∧ s.follows = true ∧ s.pair.executing = true ∧ s.late = false ∧ s.commits = []
      ∧ ((((s.mirrorTick i).mirrorBoundary g.val (some i) fun _ => none).codeTargets g.val n).length = l.length))
    ∧ (∃ (s : State) (g : Fin 32) (i : Nat) (n : Nat) (l : Nat) (j : Nat) (w : Reg), s.quiet = true
      ∧ s.bit (F.HDR.INT_ROUTE.INBAND pgPAIR) = false ∧ s.follows = true ∧ s.pair.executing = true ∧ s.late = false ∧ s.commits = []
      ∧ ((((s.mirrorTick i).mirrorBoundary g.val (some i) fun _ => none).codeTargets g.val n) = [(l, j)])
      ∧ ((s.mirrorTick i).mirrorBoundary g.val (some i) (fun _ => none) = s) ∧ (s.getGroup g.val).arLow.getLsbD l = w.getLsbD 7
      ∧ (codeFlags w).blk = false)
    ∧ (∃ (s : State) (g : Fin 32) (i : Nat) (n : Nat) (l : List Reg), s.quiet = true ∧ s.bit (F.HDR.INT_ROUTE.INBAND pgPAIR) = false
      ∧ s.late = false
      ∧ (s.follows = false ∨ s.pair.executing = false ∨ (((s.mirrorTick i).mirrorBoundary g.val (some i) fun _ => none).codeTargets g.val n).length ≠ l.length))
    ∧ (∃ (s : State) (g : Fin 32) (i : Nat) (n : Nat) (l : List Reg), s.quiet = true ∧ s.bit (F.HDR.INT_ROUTE.INBAND pgPAIR) = false
      ∧ s.late = true)
    ∧ (∃ (s : State) (d : Decision), s.quiet = true ∧ s.bit (F.HDR.INT_ROUTE.INBAND pgPAIR) = false ∧ s.follows = true
      ∧ s.pair.executing = true ∧ s.late = false)
    ∧ (∃ (s : State) (q : Fin 64), s.quiet = true ∧ s.bit (F.HDR.INT_ROUTE.INBAND pgPAIR) = false ∧ s.follows = true ∧ s.pair.executing = true
      ∧ s.late = false ∧ s.qOpen q.val = true)
    ∧ (∃ (s : State) (x : Fin 256), s.quiet = true ∧ s.bit (F.HDR.INT_ROUTE.INBAND pgPAIR) = false ∧ s.follows = true
      ∧ s.pair.executing = true ∧ s.late = false ∧ (s.cxSt x.val = cxRearm ∨ s.cxSt x.val = cxFill ∨ s.cxSt x.val = cxArmed))
    ∧ (∃ (s : State) (g : Fin 32) (m : BitVec 16), s.quiet = true ∧ s.bit (F.HDR.INT_ROUTE.INBAND pgPAIR) = false ∧ s.follows = true
      ∧ s.pair.executing = true ∧ s.late = false)
    ∧ (∃ (s : State) (i : Nat), s.quiet = true ∧ s.bit (F.HDR.INT_ROUTE.INBAND pgPAIR) = false ∧ s.follows = true ∧ s.pair.executing = true
      ∧ s.late = false ∧ s.pwr = pwAwake ∧ i ≤ s.lastIdx ∧ s.cal.dwell = none ∧ s.commits = [])
    ∧ (∃ (s : State) (d : Decision), s.quiet = true ∧ s.bit (F.HDR.INT_ROUTE.INBAND pgPAIR) = false ∧ s.late = false
      ∧ (s.follows = false ∨ s.pair.executing = false))
    ∧ (∃ (s : State) (d : Decision), s.quiet = true ∧ s.bit (F.HDR.INT_ROUTE.INBAND pgPAIR) = false ∧ s.late = true)
    ∧ (∃ (s : State) (n : Nat) (e : Int), s.quiet = true ∧ s.bit (F.HDR.INT_ROUTE.INBAND pgPAIR) = false ∧ s.follows = true ∧ s.late = false)
    ∧ (∃ (s : State) (n : Nat) (e : Int), s.quiet = true ∧ s.bit (F.HDR.INT_ROUTE.INBAND pgPAIR) = false ∧ s.late = false ∧ s.follows = false)
    ∧ (∃ (s : State) (n : Nat) (e : Int), s.quiet = true ∧ s.bit (F.HDR.INT_ROUTE.INBAND pgPAIR) = false ∧ s.late = true)
    ∧ (∃ (s : State) (c : Fin 512) (x0 : BitVec 24) (x1 : BitVec 24) (x2 : BitVec 24) (x3 : BitVec 24), s.quiet = true
      ∧ s.bit (F.HDR.INT_ROUTE.INBAND pgPAIR) = false ∧ s.follows = true ∧ s.late = false)
    ∧ (∃ (s : State) (c : Fin 512) (x0 : BitVec 24) (x1 : BitVec 24) (x2 : BitVec 24) (x3 : BitVec 24), s.quiet = true
      ∧ s.bit (F.HDR.INT_ROUTE.INBAND pgPAIR) = false ∧ s.late = false ∧ s.follows = false)
    ∧ (∃ (s : State) (c : Fin 512) (x0 : BitVec 24) (x1 : BitVec 24) (x2 : BitVec 24) (x3 : BitVec 24), s.quiet = true
      ∧ s.bit (F.HDR.INT_ROUTE.INBAND pgPAIR) = false ∧ s.late = true)
    ∧ (∃ (s : State) (o : Int) (d : Reg), s.quiet = true ∧ s.bit (F.HDR.INT_ROUTE.INBAND pgPAIR) = false ∧ s.late = false ∧ s.follows = false)
    ∧ (∃ (s : State) (o : Int) (d : Reg), s.quiet = true ∧ s.bit (F.HDR.INT_ROUTE.INBAND pgPAIR) = false ∧ s.follows = true ∧ s.late = false)
    ∧ (∃ (s : State) (o : Int) (d : Reg), s.quiet = true ∧ s.bit (F.HDR.INT_ROUTE.INBAND pgPAIR) = false ∧ s.late = true)
    ∧ (∃ (s : State) (f : Frame) (slot : Bool), s.quiet = true ∧ s.bit (F.HDR.INT_ROUTE.INBAND pgPAIR) = false ∧ s.late = false
      ∧ s.role = roleActive)
    ∧ (∃ (s : State) (f : Frame) (slot : Bool), s.quiet = true ∧ s.bit (F.HDR.INT_ROUTE.INBAND pgPAIR) = false ∧ s.late = false
      ∧ s.role ≠ roleActive)
    ∧ (∃ (s : State) (f : Frame) (slot : Bool), s.quiet = true ∧ s.bit (F.HDR.INT_ROUTE.INBAND pgPAIR) = false ∧ s.late = true) := by
  refine ⟨?_, ?_, ?_, ?_, ?_, ?_, ?_, ?_, ?_, ?_, ?_, ?_, ?_, ?_, ?_, ?_, ?_, ?_, ?_, ?_, ?_, ?_, ?_, ?_⟩
  · exact ⟨(let b : State := {}; let b : State := ((((b).setBit (F.HDR.INT_ROUTE.INBAND (pgRIM)) false)).setBit (F.HDR.INT_ROUTE.INBAND (pgPAIR)) false); { (b).setFld F.PAIR.PAIR_STS.ROLE (2 + 0 % 2) with pair := { b.pair with executing := true, lateFrom := false, forceTake := false } }), 3, 70, 70, [0x10#32], by decide +kernel⟩
  · exact ⟨(let b : State := {}; let b : State := ((((b).setBit (F.HDR.INT_ROUTE.INBAND (pgRIM)) false)).setBit (F.HDR.INT_ROUTE.INBAND (pgPAIR)) false); let b : State := { b with commits := [] }; let b := (((b.setFld (F.CH.FE_CFG.MODE 48) 1).setReg (weaveAddr 3 false 0) 0#32 |>.setReg (weaveAddr 3 true 0) 0#32 |>.setReg (weaveAddr 3 false 1) 0xC0000000#32 |>.setReg (weaveAddr 3 true 1) 0xC0000000#32).modGroup 3 fun x => { x with arLow := 0 }); { (b).setFld F.PAIR.PAIR_STS.ROLE (2 + 0 % 2) with pair := { b.pair with executing := true, lateFrom := false, forceTake := false } }), 3, 70, 70, [0x100#32], by decide +kernel⟩
  · exact ⟨(let b : State := {}; let b : State := ((((b).setBit (F.HDR.INT_ROUTE.INBAND (pgRIM)) false)).setBit (F.HDR.INT_ROUTE.INBAND (pgPAIR)) false); let b : State := { b with commits := [] }; let b := (((b.setFld (F.CH.FE_CFG.MODE 48) 1).setReg (weaveAddr 3 false 0) 0#32 |>.setReg (weaveAddr 3 true 0) 0#32 |>.setReg (weaveAddr 3 false 1) 0xC0000000#32 |>.setReg (weaveAddr 3 true 1) 0xC0000000#32).modGroup 3 fun x => { x with arLow := 0 }); let b : State := { b with pair := { b.pair with streamIdx := some 70 } }; { (b).setFld F.PAIR.PAIR_STS.ROLE (2 + 0 % 2) with pair := { b.pair with executing := true, lateFrom := false, forceTake := false } }), 3, 70, 70, 0, 70, 0x7100#32, by decide +kernel⟩
  · exact ⟨(let b : State := {}; let b : State := ((((b).setBit (F.HDR.INT_ROUTE.INBAND (pgRIM)) false)).setBit (F.HDR.INT_ROUTE.INBAND (pgPAIR)) false); let b := (((b.setFld (F.CH.FE_CFG.MODE 48) 1).setReg (weaveAddr 3 false 0) 0#32 |>.setReg (weaveAddr 3 true 0) 0#32 |>.setReg (weaveAddr 3 false 1) 0xC0000000#32 |>.setReg (weaveAddr 3 true 1) 0xC0000000#32).modGroup 3 fun x => { x with arLow := 0 }); (({ (b).setFld F.PAIR.PAIR_STS.ROLE (1 + 0 % 3) with pair := { b.pair with executing := true, lateFrom := false, forceTake := false } }).modPair fun p => { p with lateFrom := false, forceTake := false })), 3, 70, 70, [1, 2, 3, 4], by decide +kernel⟩
  · exact ⟨(let b : State := {}; let b : State := ((((b).setBit (F.HDR.INT_ROUTE.INBAND (pgRIM)) false)).setBit (F.HDR.INT_ROUTE.INBAND (pgPAIR)) false); { (b).setFld F.PAIR.PAIR_STS.ROLE (1 + 0 % 2) with pair := { b.pair with lateFrom := true, forceTake := false } }), 3, 70, 70, [0x10#32], by decide +kernel⟩
  · exact ⟨(let b : State := {}; let b : State := ((((b).setBit (F.HDR.INT_ROUTE.INBAND (pgRIM)) false)).setBit (F.HDR.INT_ROUTE.INBAND (pgPAIR)) false); { (b).setFld F.PAIR.PAIR_STS.ROLE (2 + 0 % 2) with pair := { b.pair with executing := true, lateFrom := false, forceTake := false } }), .abort 3, by decide +kernel⟩
  · exact ⟨(let b : State := {}; let b : State := ((((b).setBit (F.HDR.INT_ROUTE.INBAND (pgRIM)) false)).setBit (F.HDR.INT_ROUTE.INBAND (pgPAIR)) false); ({ (b).setFld F.PAIR.PAIR_STS.ROLE (2 + 0 % 2) with pair := { b.pair with executing := true, lateFrom := false, forceTake := false } } : State).setBit (F.Q.Q_CFG.EN 2) true), 2, by decide +kernel⟩
  · exact ⟨(let b : State := {}; let b : State := ((((b).setBit (F.HDR.INT_ROUTE.INBAND (pgRIM)) false)).setBit (F.HDR.INT_ROUTE.INBAND (pgPAIR)) false); ({ (b).setFld F.PAIR.PAIR_STS.ROLE (2 + 0 % 2) with pair := { b.pair with executing := true, lateFrom := false, forceTake := false } } : State).setFld (F.CTX.CTX_STS.STATE 3) (1 + 0 % 3)), 3, by decide +kernel⟩
  · exact ⟨(let b : State := {}; let b : State := ((((b).setBit (F.HDR.INT_ROUTE.INBAND (pgRIM)) false)).setBit (F.HDR.INT_ROUTE.INBAND (pgPAIR)) false); ({ (b).setFld F.PAIR.PAIR_STS.ROLE (2 + 0 % 2) with pair := { b.pair with executing := true, lateFrom := false, forceTake := false } } : State)), 3, 0x8001#16, by decide +kernel⟩
  · exact ⟨(let b : State := {}; let b : State := ((((b).setBit (F.HDR.INT_ROUTE.INBAND (pgRIM)) false)).setBit (F.HDR.INT_ROUTE.INBAND (pgPAIR)) false); (({ (b).setFld F.PAIR.PAIR_STS.ROLE (2 + 0 % 2) with pair := { b.pair with executing := true, lateFrom := false, forceTake := false } } : State).setFld F.NVM.PWR_STS.STATE 1).modCal (fun c => { c with dwell := none }) |> fun s => { s with commits := [] }), 0, by decide +kernel⟩
  · exact ⟨(let b : State := {}; let b : State := ((((b).setBit (F.HDR.INT_ROUTE.INBAND (pgRIM)) false)).setBit (F.HDR.INT_ROUTE.INBAND (pgPAIR)) false); (({ (b).setFld F.PAIR.PAIR_STS.ROLE (0 % 2) with pair := { b.pair with executing := true, lateFrom := false, forceTake := false } }).modPair fun p => { p with lateFrom := false, forceTake := false })), .abort 3, by decide +kernel⟩
  · exact ⟨(let b : State := {}; let b : State := ((((b).setBit (F.HDR.INT_ROUTE.INBAND (pgRIM)) false)).setBit (F.HDR.INT_ROUTE.INBAND (pgPAIR)) false); { (b).setFld F.PAIR.PAIR_STS.ROLE (1 + 0 % 2) with pair := { b.pair with lateFrom := true, forceTake := false } }), .abort 3, by decide +kernel⟩
  · exact ⟨(let b : State := {}; let b : State := ((((b).setBit (F.HDR.INT_ROUTE.INBAND (pgRIM)) false)).setBit (F.HDR.INT_ROUTE.INBAND (pgPAIR)) false); (((b).setFld F.PAIR.PAIR_STS.ROLE (2 + 0 % 2)).modPair fun p => { p with lateFrom := false, forceTake := false })), 50, -77 - 0, by decide +kernel⟩
  · exact ⟨(let b : State := {}; let b : State := ((((b).setBit (F.HDR.INT_ROUTE.INBAND (pgRIM)) false)).setBit (F.HDR.INT_ROUTE.INBAND (pgPAIR)) false); (((b).setFld F.PAIR.PAIR_STS.ROLE (0 % 2)).modPair fun p => { p with lateFrom := false, forceTake := false })), 50, -77 - 0, by decide +kernel⟩
  · exact ⟨(let b : State := {}; let b : State := ((((b).setBit (F.HDR.INT_ROUTE.INBAND (pgRIM)) false)).setBit (F.HDR.INT_ROUTE.INBAND (pgPAIR)) false); { (b).setFld F.PAIR.PAIR_STS.ROLE (1 + 0 % 2) with pair := { b.pair with lateFrom := true, forceTake := false } }), 50, -77 - 0, by decide +kernel⟩
  · exact ⟨(let b : State := {}; let b : State := ((((b).setBit (F.HDR.INT_ROUTE.INBAND (pgRIM)) false)).setBit (F.HDR.INT_ROUTE.INBAND (pgPAIR)) false); (((b).setFld F.PAIR.PAIR_STS.ROLE (2 + 0 % 2)).modPair fun p => { p with lateFrom := false, forceTake := false })), 7, 1, 2, 3, 4, by decide +kernel⟩
  · exact ⟨(let b : State := {}; let b : State := ((((b).setBit (F.HDR.INT_ROUTE.INBAND (pgRIM)) false)).setBit (F.HDR.INT_ROUTE.INBAND (pgPAIR)) false); (((b).setFld F.PAIR.PAIR_STS.ROLE (0 % 2)).modPair fun p => { p with lateFrom := false, forceTake := false })), 7, 1, 2, 3, 4, by decide +kernel⟩
  · exact ⟨(let b : State := {}; let b : State := ((((b).setBit (F.HDR.INT_ROUTE.INBAND (pgRIM)) false)).setBit (F.HDR.INT_ROUTE.INBAND (pgPAIR)) false); { (b).setFld F.PAIR.PAIR_STS.ROLE (1 + 0 % 2) with pair := { b.pair with lateFrom := true, forceTake := false } }), 7, 1, 2, 3, 4, by decide +kernel⟩
  · exact ⟨(let b : State := {}; let b : State := ((((b).setBit (F.HDR.INT_ROUTE.INBAND (pgRIM)) false)).setBit (F.HDR.INT_ROUTE.INBAND (pgPAIR)) false); (((b).setFld F.PAIR.PAIR_STS.ROLE (0 % 2)).modPair fun p => { p with lateFrom := false, forceTake := false })), -5, 77#32, by decide +kernel⟩
  · exact ⟨(let b : State := {}; let b : State := ((((b).setBit (F.HDR.INT_ROUTE.INBAND (pgRIM)) false)).setBit (F.HDR.INT_ROUTE.INBAND (pgPAIR)) false); (((((((b).setFld F.PAIR.PAIR_STS.ROLE (2 + 0 % 2)).modPair fun p => { p with lateFrom := false, forceTake := false })).setBit (F.HDR.INT_ROUTE.INBAND (pgTICK)) false)).setBit (F.HDR.INT_ROUTE.INBAND (pgTIME)) false)), -6 - 2 * 0, 77#32, by decide +kernel⟩
  · exact ⟨(let b : State := {}; let b : State := ((((b).setBit (F.HDR.INT_ROUTE.INBAND (pgRIM)) false)).setBit (F.HDR.INT_ROUTE.INBAND (pgPAIR)) false); { (b).setFld F.PAIR.PAIR_STS.ROLE (1 + 0 % 2) with pair := { b.pair with lateFrom := true, forceTake := false } }), -5, 77#32, by decide +kernel⟩
  · exact ⟨(let b : State := {}; let b : State := ((((b).setBit (F.HDR.INT_ROUTE.INBAND (pgRIM)) false)).setBit (F.HDR.INT_ROUTE.INBAND (pgPAIR)) false); (((b).setFld F.PAIR.PAIR_STS.ROLE 1).modPair fun p => { p with lateFrom := false, forceTake := false })), { dst := 0x0123, src := 3 + 0, hsr := (some ⟨0, 86, 9⟩), body := .foreign, bytes := 100, fcsOk := true }, true, by decide +kernel⟩
  · exact ⟨(let b : State := {}; let b : State := ((((b).setBit (F.HDR.INT_ROUTE.INBAND (pgRIM)) false)).setBit (F.HDR.INT_ROUTE.INBAND (pgPAIR)) false); (((b).setFld F.PAIR.PAIR_STS.ROLE (2 * (0 % 3))).modPair fun p => { p with lateFrom := false, forceTake := false })), { dst := 0x0123, src := 3 + 0, hsr := (some ⟨0, 86, 9⟩), body := .foreign, bytes := 100, fcsOk := true }, true, by decide +kernel⟩
  · exact ⟨(let b : State := {}; let b : State := ((((b).setBit (F.HDR.INT_ROUTE.INBAND (pgRIM)) false)).setBit (F.HDR.INT_ROUTE.INBAND (pgPAIR)) false); { (b).setFld F.PAIR.PAIR_STS.ROLE (1 + 0 % 2) with pair := { b.pair with lateFrom := true, forceTake := false } }), { dst := 0x0123, src := 3 + 0, hsr := (some ⟨0, 86, 9⟩), body := .foreign, bytes := 100, fcsOk := true }, true, by decide +kernel⟩

/-- The premises of `Obligations.HealthAndConfigurationAreCompared` are met, clause by clause. -/
theorem test_met_HealthAndConfigurationAreCompared :
    (∃ (s : State) (r : HealthRec), s.quiet = true ∧ s.bit (F.HDR.INT_ROUTE.INBAND pgPAIR) = false ∧ s.role = roleSolo
      ∧ (s.late = false ∨ r.role ≠ roleActive) ∧ r.role < 8 ∧ r.role ≠ roleJoining ∧ r.calState < 8)
    ∧ (∃ (s : State) (r : HealthRec), s.quiet = true ∧ s.bit (F.HDR.INT_ROUTE.INBAND pgPAIR) = false ∧ s.role = roleActive ∧ s.late = false
      ∧ s.mirrored = false ∧ r.role < 8 ∧ r.role ≠ roleStandby ∧ r.role ≠ roleJoining ∧ r.calState < 8 ∧ s.bit F.RIM.RIM_CTL.IRQ_QEN = false
      ∧ s.pair.partnerStrap ≠ some r.strap ∧ s.bit F.PAIR.PAIR_STS.STRAP = r.strap ∧ s.bit F.PAIR.PAIR_STS.LINK_UP = true)
    ∧ (∃ (s : State) (r : HealthRec), s.quiet = true ∧ s.bit (F.HDR.INT_ROUTE.INBAND pgPAIR) = false ∧ s.role = roleStandby ∧ s.late = false
      ∧ r.role < 8 ∧ r.role ≠ roleJoining ∧ r.calState < 8
      ∧ (s.bit F.PAIR.PAIR_STS.LINK_UP = false ∨ s.bit F.PAIR.PAIR_STS.STRAP ≠ r.strap ∨ s.pair.partnerStrap = some r.strap))
    ∧ (∃ (s : State) (r : HealthRec), s.quiet = true ∧ s.bit (F.HDR.INT_ROUTE.INBAND pgPAIR) = false ∧ s.role = roleJoining ∧ s.late = false
      ∧ r.role = roleJoining ∧ r.strap = true ∧ s.bit F.PAIR.PAIR_STS.STRAP = false ∧ s.bit F.PAIR.PAIR_STS.LINK_UP = true
      ∧ s.pair.staging = [])
    ∧ (∃ (s : State) (r : HealthRec), s.quiet = true ∧ s.bit (F.HDR.INT_ROUTE.INBAND pgPAIR) = false ∧ s.role = roleJoining ∧ s.late = false
      ∧ r.role = roleActive ∧ s.bit F.PAIR.PAIR_STS.LINK_UP = true ∧ s.pair.executing = false)
    ∧ (∃ (s : State) (r : HealthRec), s.quiet = true ∧ s.bit (F.HDR.INT_ROUTE.INBAND pgPAIR) = false ∧ s.late = true ∧ r.role = roleActive)
    ∧ (∃ (s : State) (d : Reg), s.quiet = true ∧ s.bit (F.HDR.INT_ROUTE.INBAND pgPAIR) = false ∧ s.role = roleStandby
      ∧ s.pair.executing = true ∧ s.late = false ∧ s.pair.ownDigest = some d)
    ∧ (∃ (s : State) (d : Reg) (o : Reg), s.quiet = true ∧ s.bit (F.HDR.INT_ROUTE.INBAND pgPAIR) = false ∧ s.role = roleJoining
      ∧ s.pair.executing = true ∧ s.late = false ∧ s.pair.ownDigest = some o ∧ o ≠ d)
    ∧ (∃ (s : State) (d : Reg) (o : Reg), s.quiet = true ∧ s.bit (F.HDR.INT_ROUTE.INBAND pgPAIR) = false ∧ s.role = roleStandby
      ∧ s.pair.executing = true ∧ s.late = false ∧ s.pair.ownDigest = some o ∧ o ≠ d ∧ 1 ≤ s.pair.cfgBad)
    ∧ (∃ (s : State) (d : Reg) (o : Reg), s.quiet = true ∧ s.bit (F.HDR.INT_ROUTE.INBAND pgPAIR) = false ∧ s.role = roleStandby
      ∧ s.pair.executing = true ∧ s.late = false ∧ s.pair.ownDigest = some o ∧ o ≠ d ∧ s.pair.cfgBad = 0)
    ∧ (∃ (s : State) (d : Reg), s.quiet = true ∧ s.bit (F.HDR.INT_ROUTE.INBAND pgPAIR) = false ∧ s.follows = true ∧ s.pair.executing = true
      ∧ s.late = false ∧ s.pair.ownDigest = none)
    ∧ (∃ (s : State) (d : Reg) (c : Option (Nat × Reg)), s.quiet = true ∧ s.bit (F.HDR.INT_ROUTE.INBAND pgPAIR) = false ∧ s.follows = true
      ∧ s.pair.executing = true ∧ s.late = false)
    ∧ (∃ (s : State) (d : Reg) (x : Reg) (i : Nat), s.quiet = true ∧ s.bit (F.HDR.INT_ROUTE.INBAND pgPAIR) = false ∧ s.role = roleStandby
      ∧ s.pair.executing = true ∧ s.late = false ∧ s.stgDigest = x ∧ s.aheadBy i 1000000 = true ∧ s.bit F.PAIR.PAIR_STS.LINK_UP = true)
    ∧ (∃ (s : State) (d : Reg) (x : Reg) (i : Nat), s.quiet = true ∧ s.bit (F.HDR.INT_ROUTE.INBAND pgPAIR) = false ∧ s.role = roleStandby
      ∧ s.pair.executing = true ∧ s.late = false ∧ s.stgDigest ≠ x ∧ s.bit F.PAIR.PAIR_STS.LINK_UP = true)
    ∧ (∃ (s : State) (d : Reg) (x : Reg) (i : Nat), s.quiet = true ∧ s.bit (F.HDR.INT_ROUTE.INBAND pgPAIR) = false ∧ s.role = roleActive
      ∧ s.late = false ∧ s.pair.commitWait = true ∧ s.pair.commitIdx = i ∧ s.stgDigest = x)
    ∧ (∃ (s : State) (d : Reg) (x : Reg) (i : Nat), s.quiet = true ∧ s.bit (F.HDR.INT_ROUTE.INBAND pgPAIR) = false ∧ s.role = roleActive
      ∧ s.late = false ∧ s.pair.commitWait = true ∧ s.pair.commitIdx = i ∧ s.stgDigest ≠ x)
    ∧ (∃ (s : State) (d : Reg) (c : Option (Nat × Reg)) (x : Bool), s.quiet = true ∧ s.bit (F.HDR.INT_ROUTE.INBAND pgPAIR) = false
      ∧ s.late = false ∧ (s.follows = true ∧ s.pair.executing = false ∨ s.follows = false
      ∧ (c = none ∨ s.role ≠ roleActive ∨ s.pair.commitWait = false)))
    ∧ (∃ (s : State) (d : Reg) (c : Option (Nat × Reg)) (x : Bool), s.quiet = true ∧ s.bit (F.HDR.INT_ROUTE.INBAND pgPAIR) = false
      ∧ s.late = true) := by
  refine ⟨?_, ?_, ?_, ?_, ?_, ?_, ?_, ?_, ?_, ?_, ?_, ?_, ?_, ?_, ?_, ?_, ?_, ?_⟩
  · exact ⟨(let b : State := {}; let b : State := ((((b).setBit (F.HDR.INT_ROUTE.INBAND (pgRIM)) false)).setBit (F.HDR.INT_ROUTE.INBAND (pgPAIR)) false); (((b).setFld F.PAIR.PAIR_STS.ROLE 0).modPair fun p => { p with lateFrom := false, forceTake := false })), { role := 1, strap := true, fatal := true, cont := true, pfw := true, calState := 2, ownId := 9, hcFail := [], due := [] }, by decide +kernel⟩
  · exact ⟨(let b : State := {}; let b : State := ((((b).setBit (F.HDR.INT_ROUTE.INBAND (pgRIM)) false)).setBit (F.HDR.INT_ROUTE.INBAND (pgPAIR)) false); ((((((((b).setFld F.PAIR.PAIR_STS.ROLE 1).modPair fun p => { p with lateFrom := false, forceTake := false })).setFld F.PAIR.PAIR_STS.PARTNER_ROLE 7).setBit F.PAIR.PAIR_STS.LINK_UP true).setBit F.RIM.RIM_CTL.IRQ_QEN false).setBit F.PAIR.PAIR_STS.STRAP true).modPair fun p => { p with partnerStrap := none}), { role := 4, strap := true, fatal := true, cont := true, pfw := true, calState := 2, ownId := 9, hcFail := [3, 500], due := [] }, by decide +kernel⟩
  · exact ⟨(let b : State := {}; let b : State := ((((b).setBit (F.HDR.INT_ROUTE.INBAND (pgRIM)) false)).setBit (F.HDR.INT_ROUTE.INBAND (pgPAIR)) false); ((((b).setFld F.PAIR.PAIR_STS.ROLE 2).modPair fun p => { p with lateFrom := false, forceTake := false })).setBit F.PAIR.PAIR_STS.LINK_UP false), { role := 1, strap := true, fatal := true, cont := true, pfw := true, calState := 2, ownId := 9, hcFail := [], due := [] }, by decide +kernel⟩
  · exact ⟨(let b : State := {}; let b : State := ((((b).setBit (F.HDR.INT_ROUTE.INBAND (pgRIM)) false)).setBit (F.HDR.INT_ROUTE.INBAND (pgPAIR)) false); (((((b).setFld F.PAIR.PAIR_STS.ROLE 3).modPair fun p => { p with lateFrom := false, forceTake := false })).setBit F.PAIR.PAIR_STS.LINK_UP true).setBit F.PAIR.PAIR_STS.STRAP false), { role := 3, strap := true, fatal := true, cont := true, pfw := true, calState := 2, ownId := 9, hcFail := [], due := [] }, by decide +kernel⟩
  · exact ⟨(let b : State := {}; let b : State := ((((b).setBit (F.HDR.INT_ROUTE.INBAND (pgRIM)) false)).setBit (F.HDR.INT_ROUTE.INBAND (pgPAIR)) false); (((((b).setFld F.PAIR.PAIR_STS.ROLE 3).modPair fun p => { p with lateFrom := false, forceTake := false })).setBit F.PAIR.PAIR_STS.LINK_UP true).modPair fun p => { p with executing := false }), { role := 1, strap := true, fatal := true, cont := true, pfw := true, calState := 2, ownId := 9, hcFail := [], due := [] }, by decide +kernel⟩
  · exact ⟨(let b : State := {}; let b : State := ((((b).setBit (F.HDR.INT_ROUTE.INBAND (pgRIM)) false)).setBit (F.HDR.INT_ROUTE.INBAND (pgPAIR)) false); { (b).setFld F.PAIR.PAIR_STS.ROLE (1 + 0 % 2) with pair := { b.pair with lateFrom := true, forceTake := false } }), { role := 1, strap := true, fatal := true, cont := true, pfw := true, calState := 2, ownId := 9, hcFail := [], due := [] }, by decide +kernel⟩
  · exact ⟨(let b : State := {}; let b : State := ((((b).setBit (F.HDR.INT_ROUTE.INBAND (pgRIM)) false)).setBit (F.HDR.INT_ROUTE.INBAND (pgPAIR)) false); { (b).setFld F.PAIR.PAIR_STS.ROLE 2 with pair := { b.pair with executing := true, lateFrom := false, forceTake := false, ownDigest := some 77#32, cfgBad := 0 } }), 77#32, by decide +kernel⟩
  · exact ⟨(let b : State := {}; let b : State := ((((b).setBit (F.HDR.INT_ROUTE.INBAND (pgRIM)) false)).setBit (F.HDR.INT_ROUTE.INBAND (pgPAIR)) false); { (b).setFld F.PAIR.PAIR_STS.ROLE 3 with pair := { b.pair with executing := true, lateFrom := false, forceTake := false, ownDigest := some 77#32, cfgBad := 0 } }), 78#32, 77#32, by decide +kernel⟩
  · exact ⟨(let b : State := {}; let b : State := ((((b).setBit (F.HDR.INT_ROUTE.INBAND (pgRIM)) false)).setBit (F.HDR.INT_ROUTE.INBAND (pgPAIR)) false); { (b).setFld F.PAIR.PAIR_STS.ROLE 2 with pair := { b.pair with executing := true, lateFrom := false, forceTake := false, ownDigest := some 77#32, cfgBad := 1 } }), 78#32, 77#32, by decide +kernel⟩
  · exact ⟨(let b : State := {}; let b : State := ((((b).setBit (F.HDR.INT_ROUTE.INBAND (pgRIM)) false)).setBit (F.HDR.INT_ROUTE.INBAND (pgPAIR)) false); { (b).setFld F.PAIR.PAIR_STS.ROLE 2 with pair := { b.pair with executing := true, lateFrom := false, forceTake := false, ownDigest := some 77#32, cfgBad := 0 } }), 78#32, 77#32, by decide +kernel⟩
  · exact ⟨(let b : State := {}; let b : State := ((((b).setBit (F.HDR.INT_ROUTE.INBAND (pgRIM)) false)).setBit (F.HDR.INT_ROUTE.INBAND (pgPAIR)) false); { (b).setFld F.PAIR.PAIR_STS.ROLE (2 + 0 % 2) with pair := { b.pair with executing := true, lateFrom := false, forceTake := false, ownDigest := none } }), 78#32, by decide +kernel⟩
  · exact ⟨(let b : State := {}; let b : State := ((((b).setBit (F.HDR.INT_ROUTE.INBAND (pgRIM)) false)).setBit (F.HDR.INT_ROUTE.INBAND (pgPAIR)) false); { (b).setFld F.PAIR.PAIR_STS.ROLE (2 + 0 % 2) with pair := { b.pair with executing := true, lateFrom := false, forceTake := false } }), 78#32, none, by decide +kernel⟩
  · exact ⟨(let b : State := {}; let b : State := ((((b).setBit (F.HDR.INT_ROUTE.INBAND (pgRIM)) false)).setBit (F.HDR.INT_ROUTE.INBAND (pgPAIR)) false); ((({ (b).setFld F.PAIR.PAIR_STS.ROLE 2 with pair := { b.pair with executing := true, lateFrom := false, forceTake := false } } : State)).setBit F.PAIR.PAIR_STS.LINK_UP true).setFld F.TICK.TICK_PERIOD.PERIOD 10000), 78#32, (let b : State := {}; let b : State := ((((b).setBit (F.HDR.INT_ROUTE.INBAND (pgRIM)) false)).setBit (F.HDR.INT_ROUTE.INBAND (pgPAIR)) false); let s : State := (((({ (b).setFld F.PAIR.PAIR_STS.ROLE 2 with pair := { b.pair with executing := true, lateFrom := false, forceTake := false } } : State)).setBit F.PAIR.PAIR_STS.LINK_UP true).setFld F.TICK.TICK_PERIOD.PERIOD 10000); s.stgDigest), 2 ^ 63, by decide +kernel, by decide +kernel, by decide +kernel, by decide +kernel, by decide +kernel, rfl, by decide +kernel, by decide +kernel⟩
  · exact ⟨(let b : State := {}; let b : State := ((((b).setBit (F.HDR.INT_ROUTE.INBAND (pgRIM)) false)).setBit (F.HDR.INT_ROUTE.INBAND (pgPAIR)) false); (({ (b).setFld F.PAIR.PAIR_STS.ROLE 2 with pair := { b.pair with executing := true, lateFrom := false, forceTake := false } } : State)).setBit F.PAIR.PAIR_STS.LINK_UP true), 78#32, (let b : State := {}; let b : State := ((((b).setBit (F.HDR.INT_ROUTE.INBAND (pgRIM)) false)).setBit (F.HDR.INT_ROUTE.INBAND (pgPAIR)) false); let s : State := ((({ (b).setFld F.PAIR.PAIR_STS.ROLE 2 with pair := { b.pair with executing := true, lateFrom := false, forceTake := false } } : State)).setBit F.PAIR.PAIR_STS.LINK_UP true); s.stgDigest + 1), 2 ^ 63, by decide +kernel, by decide +kernel, by decide +kernel, by decide +kernel, by decide +kernel, regNext _, by decide +kernel⟩
  · exact ⟨(let b : State := {}; let b : State := ((((b).setBit (F.HDR.INT_ROUTE.INBAND (pgRIM)) false)).setBit (F.HDR.INT_ROUTE.INBAND (pgPAIR)) false); ((((b).setFld F.PAIR.PAIR_STS.ROLE 1).modPair fun p => { p with lateFrom := false, forceTake := false })).modPair fun p => { p with commitWait := true, commitIdx := 9 }), 78#32, (let b : State := {}; let b : State := ((((b).setBit (F.HDR.INT_ROUTE.INBAND (pgRIM)) false)).setBit (F.HDR.INT_ROUTE.INBAND (pgPAIR)) false); let s : State := (((((b).setFld F.PAIR.PAIR_STS.ROLE 1).modPair fun p => { p with lateFrom := false, forceTake := false })).modPair fun p => { p with commitWait := true, commitIdx := 9 }); s.stgDigest), 9, by decide +kernel, by decide +kernel, by decide +kernel, by decide +kernel, by decide +kernel, by decide +kernel, rfl⟩
  · exact ⟨(let b : State := {}; let b : State := ((((b).setBit (F.HDR.INT_ROUTE.INBAND (pgRIM)) false)).setBit (F.HDR.INT_ROUTE.INBAND (pgPAIR)) false); ((((b).setFld F.PAIR.PAIR_STS.ROLE 1).modPair fun p => { p with lateFrom := false, forceTake := false })).modPair fun p => { p with commitWait := true, commitIdx := 9 }), 78#32, (let b : State := {}; let b : State := ((((b).setBit (F.HDR.INT_ROUTE.INBAND (pgRIM)) false)).setBit (F.HDR.INT_ROUTE.INBAND (pgPAIR)) false); let s : State := (((((b).setFld F.PAIR.PAIR_STS.ROLE 1).modPair fun p => { p with lateFrom := false, forceTake := false })).modPair fun p => { p with commitWait := true, commitIdx := 9 }); s.stgDigest + 1), 9, by decide +kernel, by decide +kernel, by decide +kernel, by decide +kernel, by decide +kernel, by decide +kernel, regNext _⟩
  · exact ⟨(let b : State := {}; let b : State := ((((b).setBit (F.HDR.INT_ROUTE.INBAND (pgRIM)) false)).setBit (F.HDR.INT_ROUTE.INBAND (pgPAIR)) false); ((((b).setFld F.PAIR.PAIR_STS.ROLE (0 % 3)).modPair fun p => { p with lateFrom := false, forceTake := false })).modPair fun p => { p with executing := false }), 78#32, none, true, by decide +kernel⟩
  · exact ⟨(let b : State := {}; let b : State := ((((b).setBit (F.HDR.INT_ROUTE.INBAND (pgRIM)) false)).setBit (F.HDR.INT_ROUTE.INBAND (pgPAIR)) false); { (b).setFld F.PAIR.PAIR_STS.ROLE (1 + 0 % 2) with pair := { b.pair with lateFrom := true, forceTake := false } }), 78#32, none, true, by decide +kernel⟩

/-- The premises of `Obligations.IntervalsAreClosedAndAcknowledged` are met, clause by clause. -/
theorem test_met_IntervalsAreClosedAndAcknowledged :
    (∃ (s : State), s.quiet = true ∧ s.bit (F.HDR.INT_ROUTE.INBAND pgPAIR) = false ∧ s.mirrored = true ∧ s.pair.yst = .none
      ∧ s.bit F.PAIR.PAIR_STS.LINK_UP = true)
    ∧ (∃ (s : State) (y : Nat) (c : Nat), s.quiet = true ∧ s.bit (F.HDR.INT_ROUTE.INBAND pgPAIR) = false ∧ s.mirrored = true
      ∧ s.pair.yst = .deciding y c ∧ s.passesDone y = true ∧ s.bit F.PAIR.PAIR_STS.LINK_UP = true)
    ∧ (∃ (s : State), s.quiet = true ∧ s.bit (F.HDR.INT_ROUTE.INBAND pgPAIR) = false ∧ s.role ≠ roleActive)
    ∧ (∃ (s : State), s.quiet = true ∧ s.bit (F.HDR.INT_ROUTE.INBAND pgPAIR) = false ∧ s.role = roleActive ∧ s.mirrored = false)
    ∧ (∃ (s : State) (r : TickRec), s.quiet = true ∧ s.bit (F.HDR.INT_ROUTE.INBAND pgPAIR) = false ∧ s.role = roleStandby
      ∧ s.pair.executing = true ∧ s.late = false ∧ s.bit F.PAIR.PAIR_STS.LINK_UP = true ∧ r.queues = []
      ∧ r.digest = intervalDigest s.pair.words)
    ∧ (∃ (s : State) (r : TickRec), s.quiet = true ∧ s.bit (F.HDR.INT_ROUTE.INBAND pgPAIR) = false ∧ s.role = roleStandby
      ∧ s.pair.executing = true ∧ s.late = false ∧ s.bit F.PAIR.PAIR_STS.LINK_UP = true ∧ r.queues = []
      ∧ r.digest ≠ intervalDigest s.pair.words)
    ∧ (∃ (s : State) (r : TickRec) (q : Fin 64) (n : Nat) (l : Nat) (p : Pkt) (ps : List Pkt), s.quiet = true
      ∧ s.bit (F.HDR.INT_ROUTE.INBAND pgPAIR) = false ∧ s.role = roleStandby ∧ s.pair.executing = true ∧ s.late = false
      ∧ s.bit F.PAIR.PAIR_STS.LINK_UP = true ∧ r.queues = [⟨q, [], 1, n⟩] ∧ (s.getQ q.val).pkts = p :: ps ∧ sget 0 s.pair.older q.val = 0
      ∧ r.digest = intervalDigest s.pair.words)
    ∧ (∃ (s : State) (r : TickRec), s.quiet = true ∧ s.bit (F.HDR.INT_ROUTE.INBAND pgPAIR) = false ∧ s.role = roleJoining
      ∧ s.pair.executing = true ∧ s.late = false ∧ s.bit F.PAIR.PAIR_STS.LINK_UP = true ∧ s.pair.convAt = none
      ∧ (s.joinChans ≠ 0 ∨ s.joinCtxs ≠ 0))
    ∧ (∃ (s : State) (r : TickRec), s.quiet = true ∧ s.bit (F.HDR.INT_ROUTE.INBAND pgPAIR) = false ∧ s.late = false
      ∧ (s.follows = false ∨ s.pair.executing = false))
    ∧ (∃ (s : State) (r : TickRec), s.quiet = true ∧ s.bit (F.HDR.INT_ROUTE.INBAND pgPAIR) = false ∧ s.late = true)
    ∧ (∃ (s : State) (i : Nat) (a : Bool), s.quiet = true ∧ s.bit (F.HDR.INT_ROUTE.INBAND pgPAIR) = false ∧ s.late = false
      ∧ (s.role ≠ roleActive ∨ (s.pair.unacked.any fun u => decide (u.interval = i)) = false))
    ∧ (∃ (s : State) (i : Nat) (a : Bool), s.quiet = true ∧ s.bit (F.HDR.INT_ROUTE.INBAND pgPAIR) = false ∧ s.late = true)
    ∧ (∃ (s : State) (i : Nat) (y : Nat) (c : Nat) (u : Unacked), s.quiet = true ∧ s.bit (F.HDR.INT_ROUTE.INBAND pgPAIR) = false
      ∧ s.role = roleActive ∧ s.late = false ∧ s.pair.unacked = [u] ∧ u.interval = i ∧ u.queues = [] ∧ u.final = true
      ∧ s.pair.yst = .finalSent y c ∧ s.bit F.PAIR.PAIR_STS.LINK_UP = true)
    ∧ (∃ (s : State), s.quiet = true ∧ s.bit (F.HDR.INT_ROUTE.INBAND pgPAIR) = false
      ∧ (s.role ≠ roleActive ∨ s.mirrored = false ∨ s.pair.unacked = [] ∨ s.mirrorLag < s.pairTimeout + 2 ∨ s.fenced = true))
    ∧ (∃ (s : State) (i : Nat) (u : Unacked), s.quiet = true ∧ s.bit (F.HDR.INT_ROUTE.INBAND pgPAIR) = false ∧ s.role = roleActive
      ∧ s.late = false ∧ s.pair.unacked = [u] ∧ u.interval = i ∧ u.queues = [] ∧ u.final = false)
    ∧ (∃ (s : State) (i : Nat) (u : Unacked), s.quiet = true ∧ s.bit (F.HDR.INT_ROUTE.INBAND pgPAIR) = false ∧ s.role = roleActive
      ∧ s.late = false ∧ s.pair.unacked = [u] ∧ u.interval = i ∧ u.queues = [])
    ∧ (∃ (s : State), s.quiet = true ∧ s.bit (F.HDR.INT_ROUTE.INBAND pgPAIR) = false ∧ s.mirrored = true ∧ s.pair.unacked ≠ []
      ∧ s.pairTimeout + 2 ≤ s.mirrorLag ∧ s.pins.takeIn = false) := by
  refine ⟨?_, ?_, ?_, ?_, ?_, ?_, ?_, ?_, ?_, ?_, ?_, ?_, ?_, ?_, ?_, ?_, ?_⟩
  · exact ⟨(let b : State := {}; let b : State := ((((b).setBit (F.HDR.INT_ROUTE.INBAND (pgRIM)) false)).setBit (F.HDR.INT_ROUTE.INBAND (pgPAIR)) false); { (((b).setFld F.PAIR.PAIR_STS.ROLE 1).setFld F.PAIR.PAIR_STS.PARTNER_ROLE (2 + 0 % 2)).setBit F.PAIR.PAIR_STS.LINK_UP true with pair := { b.pair with words := [(3, 7)], interval := 0 } }), by decide +kernel⟩
  · exact ⟨(let b : State := {}; let b : State := ((((b).setBit (F.HDR.INT_ROUTE.INBAND (pgRIM)) false)).setBit (F.HDR.INT_ROUTE.INBAND (pgPAIR)) false); { (((List.range 34).foldl (fun (s : State) n => s.modSlice n fun x => { x with pass := none, later := [] }) ((((b).setFld F.PAIR.PAIR_STS.ROLE 1).setFld F.PAIR.PAIR_STS.PARTNER_ROLE (2 + 0 % 2)).setBit F.PAIR.PAIR_STS.LINK_UP true))) with pair := { b.pair with words := [(3, 7)], interval := 0, yst := .deciding b.lastIdx 1 } }), (let b : State := {}; let b : State := ((((b).setBit (F.HDR.INT_ROUTE.INBAND (pgRIM)) false)).setBit (F.HDR.INT_ROUTE.INBAND (pgPAIR)) false); b.lastIdx), 1, by decide +kernel⟩
  · exact ⟨(let b : State := {}; let b : State := ((((b).setBit (F.HDR.INT_ROUTE.INBAND (pgRIM)) false)).setBit (F.HDR.INT_ROUTE.INBAND (pgPAIR)) false); (b).setFld F.PAIR.PAIR_STS.ROLE (2 * (0 % 2))), by decide +kernel⟩
  · exact ⟨(let b : State := {}; let b : State := ((((b).setBit (F.HDR.INT_ROUTE.INBAND (pgRIM)) false)).setBit (F.HDR.INT_ROUTE.INBAND (pgPAIR)) false); ((b).setFld F.PAIR.PAIR_STS.ROLE 1).setFld F.PAIR.PAIR_STS.PARTNER_ROLE 7), by decide +kernel⟩
  · exact ⟨(let b : State := {}; let b : State := ((((b).setBit (F.HDR.INT_ROUTE.INBAND (pgRIM)) false)).setBit (F.HDR.INT_ROUTE.INBAND (pgPAIR)) false); (({ (b).setFld F.PAIR.PAIR_STS.ROLE 2 with pair := { b.pair with executing := true, lateFrom := false, forceTake := false, words := [(3, 7)] } } : State)).setBit F.PAIR.PAIR_STS.LINK_UP true), { interval := 5 + 0, digest := (intervalDigest [(3, 7)]), final := false, queues := [], hsr := 77 }, by decide +kernel⟩
  · exact ⟨(let b : State := {}; let b : State := ((((b).setBit (F.HDR.INT_ROUTE.INBAND (pgRIM)) false)).setBit (F.HDR.INT_ROUTE.INBAND (pgPAIR)) false); (({ (b).setFld F.PAIR.PAIR_STS.ROLE 2 with pair := { b.pair with executing := true, lateFrom := false, forceTake := false, words := [(3, 7)] } } : State)).setBit F.PAIR.PAIR_STS.LINK_UP true), { interval := 5 + 0, digest := (intervalDigest [(3, 8)]), final := false, queues := [], hsr := 77 }, by decide +kernel⟩
  · exact ⟨(let b : State := {}; let b : State := ((((b).setBit (F.HDR.INT_ROUTE.INBAND (pgRIM)) false)).setBit (F.HDR.INT_ROUTE.INBAND (pgPAIR)) false); (((({ (b).setFld F.PAIR.PAIR_STS.ROLE 2 with pair := { b.pair with executing := true, lateFrom := false, forceTake := false, words := [(3, 7)], older := [] } } : State)).setBit F.PAIR.PAIR_STS.LINK_UP true).modQ 2 fun x => { x with pkts := [{ len := 5, typ := 3 }, { len := 4, typ := 3 }], held := 2 })), { interval := 5 + 0, digest := (intervalDigest [(3, 7)]), final := false, queues := [⟨2, [], 1, 77⟩], hsr := 77 }, 2, 77, 0, { len := 5, typ := 3 }, [{ len := 4, typ := 3 }], by decide +kernel⟩
  · exact ⟨(let b : State := {}; let b : State := ((((b).setBit (F.HDR.INT_ROUTE.INBAND (pgRIM)) false)).setBit (F.HDR.INT_ROUTE.INBAND (pgPAIR)) false); ((({ (b).setFld F.PAIR.PAIR_STS.ROLE 3 with pair := { b.pair with executing := true, lateFrom := false, forceTake := false, words := [(3, 7)], convAt := none } } : State)).setBit F.PAIR.PAIR_STS.LINK_UP true).modCtx 5 fun c => { c with conv := false }), { interval := 5 + 0, digest := 7, final := false, queues := [], hsr := 77 }, by decide +kernel⟩
  · exact ⟨(let b : State := {}; let b : State := ((((b).setBit (F.HDR.INT_ROUTE.INBAND (pgRIM)) false)).setBit (F.HDR.INT_ROUTE.INBAND (pgPAIR)) false); (({ (b).setFld F.PAIR.PAIR_STS.ROLE (0 % 2) with pair := { b.pair with executing := true, lateFrom := false, forceTake := false } }).modPair fun p => { p with lateFrom := false, forceTake := false })), { interval := 5 + 0, digest := 7, final := false, queues := [], hsr := 77 }, by decide +kernel⟩
  · exact ⟨(let b : State := {}; let b : State := ((((b).setBit (F.HDR.INT_ROUTE.INBAND (pgRIM)) false)).setBit (F.HDR.INT_ROUTE.INBAND (pgPAIR)) false); { (b).setFld F.PAIR.PAIR_STS.ROLE (1 + 0 % 2) with pair := { b.pair with lateFrom := true, forceTake := false } }), { interval := 5 + 0, digest := 7, final := false, queues := [], hsr := 77 }, by decide +kernel⟩
  · exact ⟨(let b : State := {}; let b : State := ((((b).setBit (F.HDR.INT_ROUTE.INBAND (pgRIM)) false)).setBit (F.HDR.INT_ROUTE.INBAND (pgPAIR)) false); ((((b).setFld F.PAIR.PAIR_STS.ROLE 1).modPair fun p => { p with lateFrom := false, forceTake := false })).modPair fun p => { p with unacked := [] }), 4, true, by decide +kernel⟩
  · exact ⟨(let b : State := {}; let b : State := ((((b).setBit (F.HDR.INT_ROUTE.INBAND (pgRIM)) false)).setBit (F.HDR.INT_ROUTE.INBAND (pgPAIR)) false); { (b).setFld F.PAIR.PAIR_STS.ROLE (1 + 0 % 2) with pair := { b.pair with lateFrom := true, forceTake := false } }), 4, true, by decide +kernel⟩
  · exact ⟨(let b : State := {}; let b : State := ((((b).setBit (F.HDR.INT_ROUTE.INBAND (pgRIM)) false)).setBit (F.HDR.INT_ROUTE.INBAND (pgPAIR)) false); (((((b).setFld F.PAIR.PAIR_STS.ROLE 1).modPair fun p => { p with lateFrom := false, forceTake := false })).setBit F.PAIR.PAIR_STS.LINK_UP true).modPair fun p => { p with yst := .finalSent 3 1, unacked := [⟨4, [], some ⟨9, 9, 0, 0, 0⟩, true⟩] }), 4, 3, 1, ⟨4, [], some ⟨9, 9, 0, 0, 0⟩, true⟩, by decide +kernel⟩
  · exact ⟨(let b : State := {}; let b : State := ((((b).setBit (F.HDR.INT_ROUTE.INBAND (pgRIM)) false)).setBit (F.HDR.INT_ROUTE.INBAND (pgPAIR)) false); ((((b).setFld F.PAIR.PAIR_STS.ROLE (0 % 4)).modPair fun p => { p with lateFrom := false, forceTake := false })).modPair fun p => { p with unacked := [] }), by decide +kernel⟩
  · exact ⟨(let b : State := {}; let b : State := ((((b).setBit (F.HDR.INT_ROUTE.INBAND (pgRIM)) false)).setBit (F.HDR.INT_ROUTE.INBAND (pgPAIR)) false); { (b).setFld F.PAIR.PAIR_STS.ROLE 1 with pair := { b.pair with lateFrom := false, forceTake := false, unacked := [⟨4, [], some ⟨9, 9, 0, 0, 0⟩, false⟩] } }), 4, ⟨4, [], some ⟨9, 9, 0, 0, 0⟩, false⟩, by decide +kernel⟩
  · exact ⟨(let b : State := {}; let b : State := ((((b).setBit (F.HDR.INT_ROUTE.INBAND (pgRIM)) false)).setBit (F.HDR.INT_ROUTE.INBAND (pgPAIR)) false); { (b).setFld F.PAIR.PAIR_STS.ROLE 1 with pair := { b.pair with lateFrom := false, forceTake := false, unacked := [⟨4, [], some ⟨9, 9, 0, 0, 0⟩, false⟩] } }), 4, ⟨4, [], some ⟨9, 9, 0, 0, 0⟩, false⟩, by decide +kernel⟩
  · exact ⟨(let b : State := {}; let b : State := ((((b).setBit (F.HDR.INT_ROUTE.INBAND (pgRIM)) false)).setBit (F.HDR.INT_ROUTE.INBAND (pgPAIR)) false); let b : State := ((b).setFld F.PAIR.PAIR_STS.ROLE 1).setFld F.PAIR.PAIR_STS.PARTNER_ROLE 2; { b.setFld F.PAIR.PAIR_CTL.PAIR_TIMEOUT 3 with pair := { b.pair with unacked := [⟨4, [], some ⟨9, 9, 0, 0, 0⟩, false⟩], lastC := some ⟨9, 9, 0, 0, 0⟩ }, grid := { b.grid with runs := [(⟨9, 9, 0, 0, 0⟩, 10000, 20)] } }), by decide +kernel⟩

/-- The premises of `Obligations.PairCommitsAndHealthWindows` are met, clause by clause. -/
theorem test_met_PairCommitsAndHealthWindows :
    (∃ (s : State), s.quiet = true ∧ s.bit (F.HDR.INT_ROUTE.INBAND pgPAIR) = false ∧ s.role = roleActive
      ∧ s.fld F.PAIR.PAIR_STS.PARTNER_ROLE = roleStandby ∧ s.aheadBy s.commitTick 1000000 = true ∧ s.bit F.PAIR.PAIR_STS.LINK_UP = true)
    ∧ (∃ (s : State), s.quiet = true ∧ s.bit (F.HDR.INT_ROUTE.INBAND pgPAIR) = false ∧ s.role = roleActive
      ∧ s.fld F.PAIR.PAIR_STS.PARTNER_ROLE ≠ roleStandby)
    ∧ (∃ (s : State), s.quiet = true ∧ s.bit (F.HDR.INT_ROUTE.INBAND pgPAIR) = false ∧ s.role = roleActive
      ∧ s.fld F.PAIR.PAIR_STS.PARTNER_ROLE = roleStandby ∧ s.aheadBy s.commitTick 1000000 = false)
    ∧ (∃ (s : State), s.quiet = true ∧ s.bit (F.HDR.INT_ROUTE.INBAND pgPAIR) = false ∧ s.role = roleActive ∧ s.pair.commitWait = true)
    ∧ (∃ (s : State), s.quiet = true ∧ s.bit (F.HDR.INT_ROUTE.INBAND pgPAIR) = false ∧ s.gridSt = gridRun
      ∧ s.pair.commitIdx ≤ idxOf s.tickPeriod s.grid.cur ∧ s.bit F.PAIR.COMMIT_STS.SCHED = true)
    ∧ (∃ (s : State), s.quiet = true ∧ s.bit (F.HDR.INT_ROUTE.INBAND pgPAIR) = false ∧ s.role ≠ roleActive)
    ∧ (∃ (s : State), s.quiet = true ∧ s.bit (F.HDR.INT_ROUTE.INBAND pgPAIR) = false ∧ (s.role ≠ roleActive ∨ s.pair.commitWait = false))
    ∧ (∃ (s : State), s.quiet = true ∧ s.bit (F.HDR.INT_ROUTE.INBAND pgPAIR) = false
      ∧ (s.gridSt ≠ gridRun ∨ idxOf s.tickPeriod s.grid.cur < s.pair.commitIdx ∨ s.bit F.PAIR.COMMIT_STS.SCHED = false))
    ∧ (∃ (s : State), s.quiet = true ∧ s.bit (F.HDR.INT_ROUTE.INBAND pgPAIR) = false) := by
  refine ⟨?_, ?_, ?_, ?_, ?_, ?_, ?_, ?_, ?_⟩
  · exact ⟨(let b : State := {}; let b : State := ((((b).setBit (F.HDR.INT_ROUTE.INBAND (pgRIM)) false)).setBit (F.HDR.INT_ROUTE.INBAND (pgPAIR)) false); (((((b).setFld F.PAIR.PAIR_STS.ROLE 1).setFld F.PAIR.PAIR_STS.PARTNER_ROLE 2).setBit F.PAIR.PAIR_STS.LINK_UP true).setFld64 F.PAIR.COMMIT_TICK_LO.IDX_LO F.PAIR.COMMIT_TICK_HI.IDX_HI (2 ^ 63)).setFld F.TICK.TICK_PERIOD.PERIOD 10000), by decide +kernel⟩
  · exact ⟨(let b : State := {}; let b : State := ((((b).setBit (F.HDR.INT_ROUTE.INBAND (pgRIM)) false)).setBit (F.HDR.INT_ROUTE.INBAND (pgPAIR)) false); ((b).setFld F.PAIR.PAIR_STS.ROLE 1).setFld F.PAIR.PAIR_STS.PARTNER_ROLE 7), by decide +kernel⟩
  · exact ⟨(let b : State := {}; let b : State := ((((b).setBit (F.HDR.INT_ROUTE.INBAND (pgRIM)) false)).setBit (F.HDR.INT_ROUTE.INBAND (pgPAIR)) false); ((((b).setFld F.PAIR.PAIR_STS.ROLE 1).setFld F.PAIR.PAIR_STS.PARTNER_ROLE 2).setFld64 F.PAIR.COMMIT_TICK_LO.IDX_LO F.PAIR.COMMIT_TICK_HI.IDX_HI 0).setFld F.TICK.TICK_PERIOD.PERIOD 10000), by decide +kernel⟩
  · exact ⟨(let b : State := {}; let b : State := ((((b).setBit (F.HDR.INT_ROUTE.INBAND (pgRIM)) false)).setBit (F.HDR.INT_ROUTE.INBAND (pgPAIR)) false); { (b).setFld F.PAIR.PAIR_STS.ROLE 1 with pair := { b.pair with commitWait := true, commitIdx := 0 } }), by decide +kernel⟩
  · exact ⟨(let b : State := {}; let b : State := ((((b).setBit (F.HDR.INT_ROUTE.INBAND (pgRIM)) false)).setBit (F.HDR.INT_ROUTE.INBAND (pgPAIR)) false); (b.setFld F.TICK.TICK_STS.STATE gridRun).setBit F.PAIR.COMMIT_STS.SCHED true), by decide +kernel⟩
  · exact ⟨(let b : State := {}; let b : State := ((((b).setBit (F.HDR.INT_ROUTE.INBAND (pgRIM)) false)).setBit (F.HDR.INT_ROUTE.INBAND (pgPAIR)) false); (b).setFld F.PAIR.PAIR_STS.ROLE (2 * (0 % 3))), by decide +kernel⟩
  · exact ⟨(let b : State := {}; let b : State := ((((b).setBit (F.HDR.INT_ROUTE.INBAND (pgRIM)) false)).setBit (F.HDR.INT_ROUTE.INBAND (pgPAIR)) false); { (b).setFld F.PAIR.PAIR_STS.ROLE (0 % 3) with pair := { b.pair with commitWait := false } }), by decide +kernel⟩
  · exact ⟨(let b : State := {}; let b : State := ((((b).setBit (F.HDR.INT_ROUTE.INBAND (pgRIM)) false)).setBit (F.HDR.INT_ROUTE.INBAND (pgPAIR)) false); (b.setFld F.TICK.TICK_STS.STATE 0).setBit F.PAIR.COMMIT_STS.SCHED (decide (true))), by decide +kernel⟩
  · exact ⟨(let b : State := {}; let b : State := ((((b).setBit (F.HDR.INT_ROUTE.INBAND (pgRIM)) false)).setBit (F.HDR.INT_ROUTE.INBAND (pgPAIR)) false); { b with pair := { b.pair with hc := [(3, { n := 4, sum := 7, sq := 9, mean := 5#32, rms := 6#32 })] } }), by decide +kernel⟩

/-- The premises of `Obligations.YieldsAndTakeovers` are met, clause by clause. -/
theorem test_met_YieldsAndTakeovers :
    (∃ (s : State), s.quiet = true ∧ s.bit (F.HDR.INT_ROUTE.INBAND pgPAIR) = false ∧ s.role = roleActive
      ∧ s.fld F.PAIR.PAIR_STS.PARTNER_ROLE = roleStandby ∧ s.pair.yst = .none)
    ∧ (∃ (s : State), s.quiet = true ∧ s.bit (F.HDR.INT_ROUTE.INBAND pgPAIR) = false
      ∧ (s.role ≠ roleActive ∨ s.fld F.PAIR.PAIR_STS.PARTNER_ROLE ≠ roleStandby ∨ s.pair.yst ≠ .none))
    ∧ (∃ (s : State) (low : Bool), s.quiet = true ∧ s.bit (F.HDR.INT_ROUTE.INBAND pgPAIR) = false
      ∧ (s.role ≠ roleStandby ∨ s.yieldAsserted = true ∨ low = false ∨ s.bit F.PAIR.PAIR_STS.YIELD_DRV = true))
    ∧ (∃ (s : State), s.quiet = true ∧ s.bit (F.HDR.INT_ROUTE.INBAND pgPAIR) = false ∧ s.bit F.PAIR.PAIR_STS.YIELD_DRV = false
      ∧ s.pins.yieldIn = false ∧ s.role = roleStandby ∧ s.pair.yieldRec = false)
    ∧ (∃ (s : State), s.quiet = true ∧ s.bit (F.HDR.INT_ROUTE.INBAND pgPAIR) = false ∧ s.bit F.PAIR.PAIR_STS.YIELD_DRV = false
      ∧ s.pins.yieldIn = false ∧ s.role = roleStandby ∧ s.pair.yieldRec = true)
    ∧ (∃ (s : State) (l : List Nat) (n : Nat), s.quiet = true ∧ s.bit (F.HDR.INT_ROUTE.INBAND pgPAIR) = false ∧ s.role = roleStandby
      ∧ s.late = false ∧ s.pair.yieldSeen = true)
    ∧ (∃ (s : State) (l : List Nat) (n : Nat), s.quiet = true ∧ s.bit (F.HDR.INT_ROUTE.INBAND pgPAIR) = false ∧ s.role = roleStandby
      ∧ s.late = false ∧ s.pair.yieldSeen = false)
    ∧ (∃ (s : State) (a : Nat) (m : Nat) (n : Nat) (p : Pkt) (ps : List Pkt), s.quiet = true ∧ s.bit (F.HDR.INT_ROUTE.INBAND pgPAIR) = false
      ∧ s.role = roleStandby ∧ s.late = false ∧ s.pair.yieldSeen = false ∧ s.pair.lastSeqs = [m] ∧ m < 2 ^ 32 - 1 ∧ a = m + 1
      ∧ s.qHost 0 = false ∧ (s.getQ 0).pkts = p :: ps ∧ sget 0 s.pair.older 0 = 0)
    ∧ (∃ (s : State) (l : List Nat) (n : Nat), s.quiet = true ∧ s.bit (F.HDR.INT_ROUTE.INBAND pgPAIR) = false ∧ s.late = false
      ∧ s.role ≠ roleStandby)
    ∧ (∃ (s : State) (l : List Nat) (n : Nat), s.quiet = true ∧ s.bit (F.HDR.INT_ROUTE.INBAND pgPAIR) = false ∧ s.late = true)
    ∧ (∃ (s : State), s.quiet = true ∧ s.bit (F.HDR.INT_ROUTE.INBAND pgPAIR) = false ∧ s.role = roleStandby ∧ s.pair.yieldSeen = true
      ∧ s.pair.yieldRec = false)
    ∧ (∃ (s : State), s.quiet = true ∧ s.bit (F.HDR.INT_ROUTE.INBAND pgPAIR) = false
      ∧ (s.role ≠ roleStandby ∨ s.pair.yieldSeen = false ∨ s.pair.yieldRec = true))
    ∧ (∃ (s : State), s.quiet = true ∧ s.bit (F.HDR.INT_ROUTE.INBAND pgPAIR) = false ∧ s.takeoverDue = true ∧ s.pair.forceTake = false)
    ∧ (∃ (s : State), s.quiet = true ∧ s.bit (F.HDR.INT_ROUTE.INBAND pgPAIR) = false ∧ s.takeoverDue = true ∧ s.pair.forceTake = true
      ∧ s.tickComing = true ∧ s.boundaryFirst = false)
    ∧ (∃ (s : State), s.quiet = true ∧ s.bit (F.HDR.INT_ROUTE.INBAND pgPAIR) = false ∧ s.takeoverDue = false)
    ∧ (∃ (s : State) (y : Nat) (c : Nat), s.quiet = true ∧ s.bit (F.HDR.INT_ROUTE.INBAND pgPAIR) = false ∧ s.pair.yst = .finalSent y c)
    ∧ (∃ (s : State), s.quiet = true ∧ s.bit (F.HDR.INT_ROUTE.INBAND pgPAIR) = false ∧ s.bit F.PAIR.PAIR_STS.TAKE_DRV = false
      ∧ s.role = roleActive)
    ∧ (∃ (s : State), s.quiet = true ∧ s.bit (F.HDR.INT_ROUTE.INBAND pgPAIR) = false
      ∧ (s.bit F.PAIR.PAIR_STS.TAKE_DRV = true ∨ s.role ≠ roleActive))
    ∧ (∃ (s : State), s.quiet = true ∧ s.bit (F.HDR.INT_ROUTE.INBAND pgPAIR) = false
      ∧ ((match s.pair.yst with | .finalSent _ _ => true | _ => false) = false))
    ∧ (∃ (s : State), s.quiet = true ∧ s.bit (F.HDR.INT_ROUTE.INBAND pgPAIR) = false ∧ s.pair.exdWait = false)
    ∧ (∃ (s : State) (g : Fin 32) (n : Nat), s.quiet = true ∧ s.bit (F.HDR.INT_ROUTE.INBAND pgPAIR) = false ∧ s.follows = false)
    ∧ (∃ (s : State), s.quiet = true ∧ s.bit (F.HDR.INT_ROUTE.INBAND pgPAIR) = false)
    ∧ (∃ (s : State), s.quiet = true ∧ s.bit (F.HDR.INT_ROUTE.INBAND pgPAIR) = false ∧ s.pair.exdWait = true)
    ∧ (∃ (s : State) (g : Fin 32) (n : Nat), s.quiet = true ∧ s.bit (F.HDR.INT_ROUTE.INBAND pgPAIR) = false ∧ s.follows = true) := by
  refine ⟨?_, ?_, ?_, ?_, ?_, ?_, ?_, ?_, ?_, ?_, ?_, ?_, ?_, ?_, ?_, ?_, ?_, ?_, ?_, ?_, ?_, ?_, ?_, ?_⟩
  · exact ⟨(let b : State := {}; let b : State := ((((b).setBit (F.HDR.INT_ROUTE.INBAND (pgRIM)) false)).setBit (F.HDR.INT_ROUTE.INBAND (pgPAIR)) false); ((b).setFld F.PAIR.PAIR_STS.ROLE 1).setFld F.PAIR.PAIR_STS.PARTNER_ROLE 2), by decide +kernel⟩
  · exact ⟨(let b : State := {}; let b : State := ((((b).setBit (F.HDR.INT_ROUTE.INBAND (pgRIM)) false)).setBit (F.HDR.INT_ROUTE.INBAND (pgPAIR)) false); (b).setFld F.PAIR.PAIR_STS.ROLE (2 * (0 % 3))), by decide +kernel⟩
  · exact ⟨(let b : State := {}; let b : State := ((((b).setBit (F.HDR.INT_ROUTE.INBAND (pgRIM)) false)).setBit (F.HDR.INT_ROUTE.INBAND (pgPAIR)) false); ((b).setFld F.PAIR.PAIR_STS.ROLE (0 % 2)).setBit F.PAIR.PAIR_STS.YIELD_DRV false), true, by decide +kernel⟩
  · exact ⟨(let b : State := {}; let b : State := ((((b).setBit (F.HDR.INT_ROUTE.INBAND (pgRIM)) false)).setBit (F.HDR.INT_ROUTE.INBAND (pgPAIR)) false); (((b).setFld F.PAIR.PAIR_STS.ROLE 2).setBit F.PAIR.PAIR_STS.YIELD_DRV false).modPins fun p => { p with yieldIn := false }), by decide +kernel⟩
  · exact ⟨(let b : State := {}; let b : State := ((((b).setBit (F.HDR.INT_ROUTE.INBAND (pgRIM)) false)).setBit (F.HDR.INT_ROUTE.INBAND (pgPAIR)) false); { ((b).setFld F.PAIR.PAIR_STS.ROLE 2).setBit F.PAIR.PAIR_STS.YIELD_DRV false with pins := { b.pins with yieldIn := false }, pair := { b.pair with yieldRec := true } }), by decide +kernel⟩
  · exact ⟨(let b : State := {}; let b : State := ((((b).setBit (F.HDR.INT_ROUTE.INBAND (pgRIM)) false)).setBit (F.HDR.INT_ROUTE.INBAND (pgPAIR)) false); { (((b).setFld F.PAIR.PAIR_STS.ROLE 2).modPair fun p => { p with lateFrom := false, forceTake := false }) with pair := { b.pair with lateFrom := false, forceTake := false, yieldSeen := true } }), [5, 6], 9, by decide +kernel⟩
  · exact ⟨(let b : State := {}; let b : State := ((((b).setBit (F.HDR.INT_ROUTE.INBAND (pgRIM)) false)).setBit (F.HDR.INT_ROUTE.INBAND (pgPAIR)) false); { (b).setFld F.PAIR.PAIR_STS.ROLE 2 with pair := { b.pair with lateFrom := false, forceTake := false, yieldSeen := false } }), [5, 6], 9, by decide +kernel⟩
  · exact ⟨(let b : State := {}; let b : State := ((((b).setBit (F.HDR.INT_ROUTE.INBAND (pgRIM)) false)).setBit (F.HDR.INT_ROUTE.INBAND (pgPAIR)) false); (((b).setFld F.PAIR.PAIR_STS.ROLE 2).setBit (F.Q.Q_CFG.DRAIN 0) false).modQ 0 (fun x => { x with pkts := [{ len := 5, typ := 3 }, { len := 4, typ := 3 }], held := 2 }) |>.modPair fun p => { p with lateFrom := false, forceTake := false, yieldSeen := false, lastSeqs := [5], older := [] }), 6, 5, 9, { len := 5, typ := 3 }, [{ len := 4, typ := 3 }], by decide +kernel⟩
  · exact ⟨(let b : State := {}; let b : State := ((((b).setBit (F.HDR.INT_ROUTE.INBAND (pgRIM)) false)).setBit (F.HDR.INT_ROUTE.INBAND (pgPAIR)) false); (((b).setFld F.PAIR.PAIR_STS.ROLE (0 % 2)).modPair fun p => { p with lateFrom := false, forceTake := false })), [5, 6], 9, by decide +kernel⟩
  · exact ⟨(let b : State := {}; let b : State := ((((b).setBit (F.HDR.INT_ROUTE.INBAND (pgRIM)) false)).setBit (F.HDR.INT_ROUTE.INBAND (pgPAIR)) false); { (b).setFld F.PAIR.PAIR_STS.ROLE (1 + 0 % 2) with pair := { b.pair with lateFrom := true, forceTake := false } }), [5, 6], 9, by decide +kernel⟩
  · exact ⟨(let b : State := {}; let b : State := ((((b).setBit (F.HDR.INT_ROUTE.INBAND (pgRIM)) false)).setBit (F.HDR.INT_ROUTE.INBAND (pgPAIR)) false); { (b).setFld F.PAIR.PAIR_STS.ROLE 2 with pair := { b.pair with yieldSeen := true } }), by decide +kernel⟩
  · exact ⟨(let b : State := {}; let b : State := ((((b).setBit (F.HDR.INT_ROUTE.INBAND (pgRIM)) false)).setBit (F.HDR.INT_ROUTE.INBAND (pgPAIR)) false); (b).setFld F.PAIR.PAIR_STS.ROLE (0 % 2)), by decide +kernel⟩
  · exact ⟨(let b : State := {}; let b : State := ((((b).setBit (F.HDR.INT_ROUTE.INBAND (pgRIM)) false)).setBit (F.HDR.INT_ROUTE.INBAND (pgPAIR)) false); { ((b).setFld F.PAIR.PAIR_STS.ROLE 2).setFld F.NVM.PWR_STS.STATE 1 |>.setFld F.PAIR.PAIR_CTL.PAIR_TIMEOUT 3 with pair := { b.pair with forceTake := false, yieldSeen := false, lastC := some ⟨9, 9, 0, 0, 0⟩ }, grid := { b.grid with runs := [(⟨9, 9, 0, 0, 0⟩, 10000, 20)] } }), by decide +kernel⟩
  · exact ⟨(let b : State := {}; let b : State := ((((b).setBit (F.HDR.INT_ROUTE.INBAND (pgRIM)) false)).setBit (F.HDR.INT_ROUTE.INBAND (pgPAIR)) false); let b : State := ({ b with servo := { b.servo with sched := none }, grid := { b.grid with cur := b.countAt (b.finePos / 2 ^ 25) + 1, notBefore := 0 } } : State).setFld F.TICK.TICK_STS.STATE gridRun; { ((b).setFld F.PAIR.PAIR_STS.ROLE 2).setFld F.NVM.PWR_STS.STATE 1 with pair := { b.pair with forceTake := true } }), by decide +kernel⟩
  · exact ⟨(let b : State := {}; let b : State := ((((b).setBit (F.HDR.INT_ROUTE.INBAND (pgRIM)) false)).setBit (F.HDR.INT_ROUTE.INBAND (pgPAIR)) false); (b).setFld F.PAIR.PAIR_STS.ROLE (0 % 2)), by decide +kernel⟩
  · exact ⟨(let b : State := {}; let b : State := ((((b).setBit (F.HDR.INT_ROUTE.INBAND (pgRIM)) false)).setBit (F.HDR.INT_ROUTE.INBAND (pgPAIR)) false); { b with pair := { b.pair with yst := .finalSent 5 1, yieldAt := 90 } }), 5, 1, by decide +kernel⟩
  · exact ⟨(let b : State := {}; let b : State := ((((b).setBit (F.HDR.INT_ROUTE.INBAND (pgRIM)) false)).setBit (F.HDR.INT_ROUTE.INBAND (pgPAIR)) false); ((b).setFld F.PAIR.PAIR_STS.ROLE 1).setBit F.PAIR.PAIR_STS.TAKE_DRV false), by decide +kernel⟩
  · exact ⟨(let b : State := {}; let b : State := ((((b).setBit (F.HDR.INT_ROUTE.INBAND (pgRIM)) false)).setBit (F.HDR.INT_ROUTE.INBAND (pgPAIR)) false); ((b).setFld F.PAIR.PAIR_STS.ROLE (2 * (0 % 2))).setBit F.PAIR.PAIR_STS.TAKE_DRV false), by decide +kernel⟩
  · exact ⟨(let b : State := {}; let b : State := ((((b).setBit (F.HDR.INT_ROUTE.INBAND (pgRIM)) false)).setBit (F.HDR.INT_ROUTE.INBAND (pgPAIR)) false); { b with pair := { b.pair with yst := .none} }), by decide +kernel⟩
  · exact ⟨(let b : State := {}; let b : State := ((((b).setBit (F.HDR.INT_ROUTE.INBAND (pgRIM)) false)).setBit (F.HDR.INT_ROUTE.INBAND (pgPAIR)) false); { b with pair := { b.pair with exdWait := false } }), by decide +kernel⟩
  · exact ⟨(let b : State := {}; let b : State := ((((b).setBit (F.HDR.INT_ROUTE.INBAND (pgRIM)) false)).setBit (F.HDR.INT_ROUTE.INBAND (pgPAIR)) false); (b).setFld F.PAIR.PAIR_STS.ROLE (0 % 2)), 0, 2905180566, by decide +kernel⟩
  · exact ⟨(let b : State := {}; let b : State := ((((b).setBit (F.HDR.INT_ROUTE.INBAND (pgRIM)) false)).setBit (F.HDR.INT_ROUTE.INBAND (pgPAIR)) false); b), by decide +kernel⟩
  · exact ⟨(let b : State := {}; let b : State := ((((b).setBit (F.HDR.INT_ROUTE.INBAND (pgRIM)) false)).setBit (F.HDR.INT_ROUTE.INBAND (pgPAIR)) false); { (b).setFld F.PAIR.PAIR_STS.ROLE 1 with pair := { b.pair with exdWait := true } }), by decide +kernel⟩
  · exact ⟨(let b : State := {}; let b : State := ((((b).setBit (F.HDR.INT_ROUTE.INBAND (pgRIM)) false)).setBit (F.HDR.INT_ROUTE.INBAND (pgPAIR)) false); (b).setFld F.PAIR.PAIR_STS.ROLE (2 + 0 % 2)), 0, 2905180566, by decide +kernel⟩

/-- The premises of `Obligations.FaultAndInterruptBitsAreCleared` are met, clause by clause. -/
theorem test_met_FaultAndInterruptBitsAreCleared :
    (∃ (p : BitVec 12) (s : State) (v : Reg), s.quiet = true ∧ (pageRows p.toNat).isSome = true)
    ∧ (∃ (p : BitVec 12) (s : State), s.quiet = true ∧ (pageRows p.toNat).isSome = true)
    ∧ (∃ (p : BitVec 12) (s : State) (c : Nat), s.quiet = true ∧ s.rim.capture = [(p.toNat, c)])
    ∧ (∃ (p : BitVec 12) (s : State) (v : Reg), s.quiet = true ∧ (pageRows p.toNat).isSome = true)
    ∧ (∃ (p : BitVec 12) (s : State) (q : BitVec 12) (v : Reg), s.quiet = true ∧ (pageRows q.toNat).isNone = true ∧ isCapwin q.toNat = false
      ∧ s.bit (F.HDR.INT_ROUTE.INBAND pgHOST) = false)
    ∧ (∃ (p : BitVec 12) (s : State) (c : Nat), s.quiet = true ∧ s.irqHold p.toNat = some (c, 0))
    ∧ (∃ (p : BitVec 12) (s : State) (c : Nat) (n : Nat), s.quiet = true ∧ s.irqHold p.toNat = some (c, n + 1)
      ∧ s.bit F.RIM.RIM_CTL.IRQ_QEN = true ∧ s.follows = false ∧ s.queuesTake = true
      ∧ ((let r := s.reachCycles (c + s.irqHoldCycles); (r.writeIrqPacket (r.ownIrqWords p.toNat)).1) = true))
    ∧ (∃ (p : BitVec 12) (s : State) (c : Nat) (n : Nat), s.quiet = true ∧ s.irqHold p.toNat = some (c, n + 1) ∧ s.queuesTake = false)
    ∧ (∃ (p : BitVec 12) (s : State) (c : Nat) (n : Nat), s.quiet = true ∧ s.irqHold p.toNat = some (c, n + 1)
      ∧ (s.bit F.RIM.RIM_CTL.IRQ_QEN = false ∨ s.follows = true))
    ∧ (∃ (p : BitVec 12) (s : State), s.quiet = true ∧ s.irqHold p.toNat = none)
    ∧ (∃ (p : BitVec 12) (s : State), s.quiet = true ∧ ((s.rim.capture.find? fun e => decide (e.1 = p.toNat)) = none))
    ∧ (∃ (p : BitVec 12) (s : State) (q : BitVec 12) (v : Reg), s.quiet = true ∧ (pageRows q.toNat).isNone = true ∧ isCapwin q.toNat = false
      ∧ s.bit (F.HDR.INT_ROUTE.INBAND pgHOST) = false)
    ∧ (∃ (p : BitVec 12) (s : State) (q : BitVec 12), s.quiet = true ∧ (pageRows q.toNat).isNone = true ∧ isCapwin q.toNat = false
      ∧ s.bit (F.HDR.INT_ROUTE.INBAND pgHOST) = false) := by
  refine ⟨?_, ?_, ?_, ?_, ?_, ?_, ?_, ?_, ?_, ?_, ?_, ?_, ?_⟩
  · exact ⟨0x006, (let b : State := {}; b), BitVec.ofNat 32 (3844675722), by decide +kernel⟩
  · exact ⟨0x006, (let b : State := {}; b), by decide +kernel⟩
  · exact ⟨0x006, (let b : State := {}; { b with rim := { b.rim with capture := [((0x006 : BitVec 12).toNat, b.time.cycles)] } }), (let b : State := {}; let p : BitVec 12 := 0x006; b.time.cycles), by decide +kernel⟩
  · exact ⟨0x006, (let b : State := {}; b), BitVec.ofNat 32 (3844675722), by decide +kernel⟩
  · exact ⟨0x006, (let b : State := {}; ((b).setBit (F.HDR.INT_ROUTE.INBAND (pgHOST)) false)), 0xE00, BitVec.ofNat 32 (3844675722), by decide +kernel⟩
  · exact ⟨0x006, (let b : State := {}; { b with rim := { b.rim with hold := [((0x006 : BitVec 12).toNat, 5, 0)] } }), 5, by decide +kernel⟩
  · exact ⟨0x006, (let b : State := {}; let b : State := b.setFld F.RIM.RIM_CTL.IRQ_Q 2; let b : State := ((((b.setBit (F.Q.Q_CFG.EN 2) true).setFld (F.Q.Q_CFG.POLICY 2) 0).setFld (F.Q.Q_CFG.SIZE_LOG2 2) 8).modQ 2 fun x => { x with held := 0, pkts := [], pend := {}, heldFree := 0, read := 0 }).setBit (F.Q.Q_STS.FLUSHING 2) false; { (b.setBit F.RIM.RIM_CTL.IRQ_QEN true).setFld F.PAIR.PAIR_STS.ROLE 0 with rim := { b.rim with hold := [((0x006 : BitVec 12).toNat, 5, 3 + 0)] } }), 5, 2 + 0, by decide +kernel⟩
  · exact ⟨0x006, (let b : State := {}; { (b.setBit F.RIM.RIM_CTL.IRQ_QEN true).setFld F.PAIR.PAIR_STS.ROLE (4 + 0 % 2) with rim := { b.rim with hold := [((0x006 : BitVec 12).toNat, 5, 3 + 0)] } }), 5, 2 + 0, by decide +kernel⟩
  · exact ⟨0x006, (let b : State := {}; { (b.setBit F.RIM.RIM_CTL.IRQ_QEN true).setFld F.PAIR.PAIR_STS.ROLE 2 with rim := { b.rim with hold := [((0x006 : BitVec 12).toNat, 5, 3 + 0)] } }), 5, 2 + 0, by decide +kernel⟩
  · exact ⟨0x006, (let b : State := {}; { b with rim := { b.rim with hold := [] } }), by decide +kernel⟩
  · exact ⟨0x006, (let b : State := {}; { b with rim := { b.rim with capture := [] } }), by decide +kernel⟩
  · exact ⟨0x006, (let b : State := {}; ((b).setBit (F.HDR.INT_ROUTE.INBAND (pgHOST)) false)), 0xE00, BitVec.ofNat 32 (3844675722), by decide +kernel⟩
  · exact ⟨0x006, (let b : State := {}; ((b).setBit (F.HDR.INT_ROUTE.INBAND (pgHOST)) false)), 0xE00, by decide +kernel⟩

/-- The premises of `Obligations.TestModeInjectsFaults` are met, clause by clause. -/
theorem test_met_TestModeInjectsFaults :
    (∃ (s : State), s.quiet = true ∧ s.rim.key = 0)
    ∧ (∃ (s : State), s.quiet = true ∧ s.rim.key = 1)
    ∧ (∃ (s : State), s.quiet = true ∧ s.rim.key = 2)
    ∧ (∃ (s : State) (v : BitVec 16), s.quiet = true ∧ s.rim.key < 3 ∧ testKeys.getD s.rim.key 0 ≠ v.toNat ∧ v ≠ 0x7E51)
    ∧ (∃ (s : State) (p : BitVec 12) (v : Reg), s.quiet = true ∧ (pageRows p.toNat).isSome = true ∧ s.rim.testMode = false)
    ∧ (∃ (s : State) (p : BitVec 12) (v : Reg), s.quiet = true ∧ (pageRows p.toNat).isSome = true ∧ s.rim.testMode = true
      ∧ (v.getLsbD 31 = false ∨ faultOf p.toNat (v.toNat % 32) = none))
    ∧ (∃ (s : State) (v : Reg), s.quiet = true ∧ s.rim.testMode = true ∧ v.getLsbD 31 = true ∧ v.toNat % 32 = 0
      ∧ s.faultSet Flt.driveCheck = false ∧ s.bit F.RIM.RIM_STS.FROZEN = false ∧ s.bit (F.HDR.INT_ROUTE.INBAND pgWALE) = false)
    ∧ (∃ (s : State) (v : Reg), s.quiet = true ∧ s.rim.testMode = true ∧ v.getLsbD 31 = true ∧ v.toNat % 32 = 0)
    ∧ (∃ (s : State) (v : Reg), s.quiet = true ∧ s.rim.testMode = true ∧ v.getLsbD 31 = true ∧ v.toNat % 32 = 0 ∧ (s.getSlice 3).pass = none
      ∧ s.shadowTick 3 = none ∧ s.bit (F.HDR.INT_ROUTE.INBAND (pgSLICE 3)) = false)
    ∧ (∃ (s : State) (q : BitVec 12) (v : Reg), s.quiet = true ∧ (pageRows q.toNat).isNone = true ∧ isCapwin q.toNat = false
      ∧ s.bit (F.HDR.INT_ROUTE.INBAND pgHOST) = false)
    ∧ (∃ (s : State) (v : BitVec 16), s.quiet = true ∧ s.rim.key ≠ 0 ∧ testKeys.getD s.rim.key 0 ≠ v.toNat ∧ v = 0x7E51) := by
  refine ⟨?_, ?_, ?_, ?_, ?_, ?_, ?_, ?_, ?_, ?_, ?_⟩
  · exact ⟨(let b : State := {}; b), by decide +kernel⟩
  · exact ⟨(let b : State := {}; { b with rim := { b.rim with key := 1 } }), by decide +kernel⟩
  · exact ⟨(let b : State := {}; { b with rim := { b.rim with key := 2 }, power := { b.power with testEn := true } }), by decide +kernel⟩
  · exact ⟨(let b : State := {}; { b with rim := { b.rim with key := 0 % 3 } }), 0x1234, by decide +kernel⟩
  · exact ⟨(let b : State := {}; b), 0x011, 0x80000000#32, by decide +kernel⟩
  · exact ⟨(let b : State := {}; { b with rim := { b.rim with testMode := true } }), 0x011, 0x00000000#32, by decide +kernel⟩
  · exact ⟨(let b : State := {}; (((({ b with rim := { b.rim with testMode := true } } : State).setFld (F.HDR.FLT_STS.FAULTS pgWALE) 0).setBit F.RIM.RIM_STS.FROZEN false).setBit (F.HDR.INT_ROUTE.INBAND (pgWALE)) false)), 0x80000000#32, by decide +kernel⟩
  · exact ⟨(let b : State := {}; ({ b with rim := { b.rim with testMode := true } } : State)), 0x80000000#32, by decide +kernel⟩
  · exact ⟨(let b : State := {}; ((({ b with rim := { b.rim with testMode := true } } : State).modSlice 3 fun x => { x with pass := none }).modCal fun c => { c with dwell := none }).setBit (F.HDR.INT_ROUTE.INBAND (pgSLICE 3)) false), 0x80000000#32, by decide +kernel⟩
  · exact ⟨(let b : State := {}; ((b).setBit (F.HDR.INT_ROUTE.INBAND (pgHOST)) false)), 0xE00, 0x80000000#32, by decide +kernel⟩
  · exact ⟨(let b : State := {}; { b with rim := { b.rim with key := 1 + 0 % 2 } }), 0x7E51, by decide +kernel⟩

/-- The premises of `Obligations.RimLogIsKeptSavedAndRead` are met, clause by clause. -/
theorem test_met_RimLogIsKeptSavedAndRead :
    (∃ (s : State) (v : Reg), s.quiet = true ∧ s.bit (F.HDR.INT_ROUTE.INBAND pgRIM) = false ∧ s.bit F.RIM.RIM_CTL.LOG_EVT = true
      ∧ s.bit F.RIM.RIM_STS.FROZEN = false)
    ∧ (∃ (s : State) (v : Reg), s.quiet = true ∧ s.bit (F.HDR.INT_ROUTE.INBAND pgRIM) = false ∧ s.bit F.RIM.RIM_CTL.LOG_EVT = true
      ∧ s.bit F.RIM.RIM_STS.FROZEN = true)
    ∧ (∃ (s : State), s.quiet = true ∧ s.bit (F.HDR.INT_ROUTE.INBAND pgRIM) = false ∧ s.bit F.RIM.RIM_STS.FROZEN = false)
    ∧ (∃ (s : State), s.quiet = true ∧ s.bit (F.HDR.INT_ROUTE.INBAND pgRIM) = false ∧ s.bit F.RIM.RIM_STS.FROZEN = true)
    ∧ (∃ (s : State), s.quiet = true ∧ s.bit (F.HDR.INT_ROUTE.INBAND pgRIM) = false ∧ s.bit F.RIM.RIM_STS.FROZEN = true ∧ s.rim.saving = none
      ∧ s.power.pfw = false)
    ∧ (∃ (s : State), s.quiet = true ∧ s.bit (F.HDR.INT_ROUTE.INBAND pgRIM) = false ∧ s.rim.saving = none)
    ∧ (∃ (s : State), s.quiet = true ∧ s.bit (F.HDR.INT_ROUTE.INBAND pgRIM) = false ∧ s.rim.saving.isSome = true)
    ∧ (∃ (s : State) (ok : Bool), s.quiet = true ∧ s.bit (F.HDR.INT_ROUTE.INBAND pgRIM) = false ∧ s.rim.saving = none)
    ∧ (∃ (s : State), s.quiet = true ∧ s.bit (F.HDR.INT_ROUTE.INBAND pgRIM) = false
      ∧ (s.bit F.RIM.RIM_STS.FROZEN = false ∨ s.rim.saving.isSome = true ∨ s.power.pfw = true))
    ∧ (∃ (s : State) (v : Reg), s.quiet = true ∧ s.bit (F.HDR.INT_ROUTE.INBAND pgRIM) = false ∧ s.bit F.RIM.RIM_CTL.LOG_EVT = false)
    ∧ (∃ (s : State), s.quiet = true ∧ s.bit (F.HDR.INT_ROUTE.INBAND pgRIM) = false ∧ s.rim.rdDue = false)
    ∧ (∃ (s : State) (c : Bool) (l : List RimEntry), s.quiet = true ∧ s.bit (F.HDR.INT_ROUTE.INBAND pgRIM) = false
      ∧ s.rim.saving = some (c, l))
    ∧ (∃ (s : State) (c : Bool) (l : List RimEntry), s.quiet = true ∧ s.bit (F.HDR.INT_ROUTE.INBAND pgRIM) = false
      ∧ s.rim.saving = some (c, l))
    ∧ (∃ (s : State) (v : Reg), s.quiet = true ∧ s.bit (F.HDR.INT_ROUTE.INBAND pgRIM) = false)
    ∧ (∃ (s : State) (e : RimEntry), s.quiet = true ∧ s.bit (F.HDR.INT_ROUTE.INBAND pgRIM) = false ∧ s.rim.rdDue = true
      ∧ s.rimSource[s.fld F.RIM.RD_SEL.AGE]? = some e)
    ∧ (∃ (s : State), s.quiet = true ∧ s.bit (F.HDR.INT_ROUTE.INBAND pgRIM) = false ∧ s.rim.rdDue = true
      ∧ s.rimSource[s.fld F.RIM.RD_SEL.AGE]? = none) := by
  refine ⟨?_, ?_, ?_, ?_, ?_, ?_, ?_, ?_, ?_, ?_, ?_, ?_, ?_, ?_, ?_, ?_⟩
  · exact ⟨(let b : State := {}; let b : State := ((b).setBit (F.HDR.INT_ROUTE.INBAND (pgRIM)) false); (b.setBit F.RIM.RIM_CTL.LOG_EVT true).setBit F.RIM.RIM_STS.FROZEN false), BitVec.ofNat 32 (3844675722), by decide +kernel⟩
  · exact ⟨(let b : State := {}; let b : State := ((b).setBit (F.HDR.INT_ROUTE.INBAND (pgRIM)) false); (b.setBit F.RIM.RIM_CTL.LOG_EVT true).setBit F.RIM.RIM_STS.FROZEN true), BitVec.ofNat 32 (3844675722), by decide +kernel⟩
  · exact ⟨(let b : State := {}; let b : State := ((b).setBit (F.HDR.INT_ROUTE.INBAND (pgRIM)) false); ({ b with rim := { b.rim with log := [⟨1, 2, 3, 4⟩] } } : State).setBit F.RIM.RIM_STS.FROZEN false), by decide +kernel⟩
  · exact ⟨(let b : State := {}; let b : State := ((b).setBit (F.HDR.INT_ROUTE.INBAND (pgRIM)) false); ({ b with rim := { b.rim with log := [⟨1, 2, 3, 4⟩] } } : State).setBit F.RIM.RIM_STS.FROZEN true), by decide +kernel⟩
  · exact ⟨(let b : State := {}; let b : State := ((b).setBit (F.HDR.INT_ROUTE.INBAND (pgRIM)) false); b.setBit F.RIM.RIM_STS.FROZEN true), by decide +kernel⟩
  · exact ⟨(let b : State := {}; let b : State := ((b).setBit (F.HDR.INT_ROUTE.INBAND (pgRIM)) false); { b with rim := { b.rim with log := [⟨1, 2, 3, 4⟩] } }), by decide +kernel⟩
  · exact ⟨(let b : State := {}; let b : State := ((b).setBit (F.HDR.INT_ROUTE.INBAND (pgRIM)) false); { b with rim := { b.rim with saving := some (true, []) } }), by decide +kernel⟩
  · exact ⟨(let b : State := {}; let b : State := ((b).setBit (F.HDR.INT_ROUTE.INBAND (pgRIM)) false); { b with rim := { b.rim with saving := none } }), true, by decide +kernel⟩
  · exact ⟨(let b : State := {}; let b : State := ((b).setBit (F.HDR.INT_ROUTE.INBAND (pgRIM)) false); b.setBit F.RIM.RIM_STS.FROZEN false), by decide +kernel⟩
  · exact ⟨(let b : State := {}; let b : State := ((b).setBit (F.HDR.INT_ROUTE.INBAND (pgRIM)) false); b.setBit F.RIM.RIM_CTL.LOG_EVT false), BitVec.ofNat 32 (3844675722), by decide +kernel⟩
  · exact ⟨(let b : State := {}; let b : State := ((b).setBit (F.HDR.INT_ROUTE.INBAND (pgRIM)) false); { b with rim := { b.rim with rdDue := false } }), by decide +kernel⟩
  · exact ⟨(let b : State := {}; let b : State := ((b).setBit (F.HDR.INT_ROUTE.INBAND (pgRIM)) false); { b with rim := { b.rim with saving := some (true, [⟨1, 2, 3, 4⟩]) } }), true, [⟨1, 2, 3, 4⟩], by decide +kernel⟩
  · exact ⟨(let b : State := {}; let b : State := ((b).setBit (F.HDR.INT_ROUTE.INBAND (pgRIM)) false); { b with rim := { b.rim with saving := some (true, [⟨1, 2, 3, 4⟩]) } }), true, [⟨1, 2, 3, 4⟩], by decide +kernel⟩
  · exact ⟨(let b : State := {}; let b : State := ((b).setBit (F.HDR.INT_ROUTE.INBAND (pgRIM)) false); b), BitVec.ofNat 32 (3844675722), by decide +kernel⟩
  · exact ⟨(let b : State := {}; let b : State := ((b).setBit (F.HDR.INT_ROUTE.INBAND (pgRIM)) false); ({ b with rim := { b.rim with rdDue := true, log := [⟨1, 2, 3, 4⟩, ⟨5, 6, 7, 8⟩] } } : State).setReg F.RIM.RD_SEL.AGE.addr 1#32), ⟨5, 6, 7, 8⟩, by decide +kernel⟩
  · exact ⟨(let b : State := {}; let b : State := ((b).setBit (F.HDR.INT_ROUTE.INBAND (pgRIM)) false); ({ b with rim := { b.rim with rdDue := true, log := [⟨1, 2, 3, 4⟩, ⟨5, 6, 7, 8⟩] } } : State).setReg F.RIM.RD_SEL.AGE.addr 2#32), by decide +kernel⟩

/-- The premises of `Obligations.PowerAndSuppliesAreWatched` are met, clause by clause. -/
theorem test_met_PowerAndSuppliesAreWatched :
    (∃ (s : State), s.quiet = true ∧ 9 ≤ s.fld F.NVM.BOOT_STS.STEP ∧ s.role = roleSolo ∧ s.bit (F.HDR.INT_ROUTE.INBAND pgRIM) = false)
    ∧ (∃ (s : State), s.quiet = true ∧ s.fld F.NVM.BOOT_STS.STEP < 9)
    ∧ (∃ (s : State), s.quiet = true)
    ∧ (∃ (s : State) (n : Fin 5), s.quiet = true ∧ s.role = roleSolo ∧ s.bit (F.HDR.INT_ROUTE.INBAND pgRIM) = false)
    ∧ (∃ (s : State) (n : Fin 5), s.quiet = true)
    ∧ (∃ (s : State) (p : BitVec 12), s.quiet = true ∧ (pageRows p.toNat).isSome = true ∧ s.role = roleSolo
      ∧ s.bit (F.HDR.INT_ROUTE.INBAND pgRIM) = false)
    ∧ (∃ (s : State) (p : BitVec 12), s.quiet = true ∧ (pageRows p.toNat).isNone = true)
    ∧ (∃ (s : State), s.quiet = true ∧ 9 ≤ s.fld F.NVM.BOOT_STS.STEP ∧ s.power.pfw = true) := by
  refine ⟨?_, ?_, ?_, ?_, ?_, ?_, ?_, ?_⟩
  · exact ⟨(let b : State := {}; (((b.setFld F.PAIR.PAIR_STS.ROLE 0).setBit (F.HDR.INT_ROUTE.INBAND (pgRIM)) false)).setFld F.NVM.BOOT_STS.STEP 10), by decide +kernel⟩
  · exact ⟨(let b : State := {}; b.setFld F.NVM.BOOT_STS.STEP (0 % 9)), by decide +kernel⟩
  · exact ⟨(let b : State := {}; b), by decide +kernel⟩
  · exact ⟨(let b : State := {}; ((b.setFld F.PAIR.PAIR_STS.ROLE 0).setBit (F.HDR.INT_ROUTE.INBAND (pgRIM)) false)), 0, by decide +kernel⟩
  · exact ⟨(let b : State := {}; b), 0, by decide +kernel⟩
  · exact ⟨(let b : State := {}; ((b.setFld F.PAIR.PAIR_STS.ROLE 0).setBit (F.HDR.INT_ROUTE.INBAND (pgRIM)) false)), 0x00B, by decide +kernel⟩
  · exact ⟨(let b : State := {}; b), 0xE00, by decide +kernel⟩
  · exact ⟨(let b : State := {}; { (b.setFld F.NVM.BOOT_STS.STEP 10) with power := { b.power with pfw := true } }), by decide +kernel⟩

/-- The premises of `Obligations.CommitsAreRequestedRefusedAndWithdrawn` are met, clause by clause. -/
theorem test_met_CommitsAreRequestedRefusedAndWithdrawn :
    (∃ (p : BitVec 12) (s : State), s.quiet = true ∧ hasRws p.toNat = true ∧ s.bit (F.HDR.INT_ROUTE.INBAND pgCHIP) = false
      ∧ s.bit (F.HDR.INT_ROUTE.INBAND pgRED) = false ∧ s.commitOf p.toNat = none ∧ s.otherWrite.commitReason p.toNat none false = 0)
    ∧ (∃ (p : BitVec 12) (s : State), s.quiet = true ∧ hasRws p.toNat = true ∧ s.bit (F.HDR.INT_ROUTE.INBAND pgCHIP) = false
      ∧ s.bit (F.HDR.INT_ROUTE.INBAND pgRED) = false ∧ s.commitOf p.toNat = none
      ∧ s.otherWrite.commitReason p.toNat (some s.atIdx) false = 0)
    ∧ (∃ (p : BitVec 12) (s : State), s.quiet = true ∧ hasRws p.toNat = true ∧ s.bit (F.HDR.INT_ROUTE.INBAND pgCHIP) = false
      ∧ s.bit (F.HDR.INT_ROUTE.INBAND pgRED) = false ∧ s.commitOf p.toNat = none ∧ s.otherWrite.commitReason p.toNat none false ≠ 0)
    ∧ (∃ (p : BitVec 12) (s : State), s.quiet = true ∧ hasRws p.toNat = true ∧ s.bit (F.HDR.INT_ROUTE.INBAND pgCHIP) = false
      ∧ s.bit (F.HDR.INT_ROUTE.INBAND pgRED) = false ∧ s.commitOf p.toNat = none
      ∧ s.otherWrite.commitReason p.toNat (some s.atIdx) false ≠ 0)
    ∧ (∃ (p : BitVec 12) (s : State), s.quiet = true ∧ hasRws p.toNat = true ∧ s.bit (F.HDR.INT_ROUTE.INBAND pgCHIP) = false
      ∧ s.bit (F.HDR.INT_ROUTE.INBAND pgRED) = false ∧ (s.commitOf p.toNat).isSome = true)
    ∧ (∃ (p : BitVec 12) (s : State) (x : Fin 256), s.quiet = true ∧ hasRws p.toNat = true ∧ s.bit (F.HDR.INT_ROUTE.INBAND pgCHIP) = false
      ∧ s.bit (F.HDR.INT_ROUTE.INBAND pgRED) = false ∧ s.commitOf (pgCTX x.val) = none
      ∧ s.otherWrite.commitReason (pgCTX x.val) none false = 0 ∧ s.cxSt x.val = cxIdle)
    ∧ (∃ (p : BitVec 12) (s : State) (x : Fin 256), s.quiet = true ∧ hasRws p.toNat = true ∧ s.bit (F.HDR.INT_ROUTE.INBAND pgCHIP) = false
      ∧ s.bit (F.HDR.INT_ROUTE.INBAND pgRED) = false ∧ s.commitOf (pgCTX x.val) = none
      ∧ s.otherWrite.commitReason (pgCTX x.val) none false = 0 ∧ s.cxSt x.val ≠ cxIdle)
    ∧ (∃ (p : BitVec 12) (s : State), s.quiet = true ∧ hasRws p.toNat = true ∧ s.bit (F.HDR.INT_ROUTE.INBAND pgCHIP) = false
      ∧ s.bit (F.HDR.INT_ROUTE.INBAND pgRED) = false ∧ (s.commitOf p.toNat).isSome = true)
    ∧ (∃ (p : BitVec 12) (s : State) (q : BitVec 12), s.quiet = true ∧ hasRws p.toNat = true ∧ s.bit (F.HDR.INT_ROUTE.INBAND pgCHIP) = false
      ∧ s.bit (F.HDR.INT_ROUTE.INBAND pgRED) = false ∧ hasRws q.toNat = false
      ∧ ((pageRows q.toNat).isSome = true ∨ isCapwin q.toNat = true))
    ∧ (∃ (p : BitVec 12) (s : State) (q : BitVec 12), s.quiet = true ∧ hasRws p.toNat = true ∧ s.bit (F.HDR.INT_ROUTE.INBAND pgCHIP) = false
      ∧ s.bit (F.HDR.INT_ROUTE.INBAND pgRED) = false ∧ (pageRows q.toNat).isNone = true ∧ isCapwin q.toNat = false
      ∧ s.bit (F.HDR.INT_ROUTE.INBAND pgHOST) = false)
    ∧ (∃ (p : BitVec 12) (s : State) (q : BitVec 12), s.quiet = true ∧ hasRws p.toNat = true ∧ s.bit (F.HDR.INT_ROUTE.INBAND pgCHIP) = false
      ∧ s.bit (F.HDR.INT_ROUTE.INBAND pgRED) = false ∧ hasRws q.toNat = false
      ∧ ((pageRows q.toNat).isSome = true ∨ isCapwin q.toNat = true))
    ∧ (∃ (p : BitVec 12) (s : State) (q : BitVec 12), s.quiet = true ∧ hasRws p.toNat = true ∧ s.bit (F.HDR.INT_ROUTE.INBAND pgCHIP) = false
      ∧ s.bit (F.HDR.INT_ROUTE.INBAND pgRED) = false ∧ (pageRows q.toNat).isNone = true ∧ isCapwin q.toNat = false
      ∧ s.bit (F.HDR.INT_ROUTE.INBAND pgHOST) = false)
    ∧ (∃ (p : BitVec 12) (s : State) (q : BitVec 12), s.quiet = true ∧ hasRws p.toNat = true ∧ s.bit (F.HDR.INT_ROUTE.INBAND pgCHIP) = false
      ∧ s.bit (F.HDR.INT_ROUTE.INBAND pgRED) = false ∧ hasRws q.toNat = false
      ∧ ((pageRows q.toNat).isSome = true ∨ isCapwin q.toNat = true))
    ∧ (∃ (p : BitVec 12) (s : State) (q : BitVec 12), s.quiet = true ∧ hasRws p.toNat = true ∧ s.bit (F.HDR.INT_ROUTE.INBAND pgCHIP) = false
      ∧ s.bit (F.HDR.INT_ROUTE.INBAND pgRED) = false ∧ (pageRows q.toNat).isNone = true ∧ isCapwin q.toNat = false
      ∧ s.bit (F.HDR.INT_ROUTE.INBAND pgHOST) = false)
    ∧ (∃ (p : BitVec 12) (s : State) (q : BitVec 12), s.quiet = true ∧ hasRws p.toNat = true ∧ s.bit (F.HDR.INT_ROUTE.INBAND pgCHIP) = false
      ∧ s.bit (F.HDR.INT_ROUTE.INBAND pgRED) = false ∧ (s.gridSt ≠ gridRun ∨ s.commitOf q.toNat = none))
    ∧ (∃ (p : BitVec 12) (s : State), s.quiet = true ∧ hasRws p.toNat = true ∧ s.bit (F.HDR.INT_ROUTE.INBAND pgCHIP) = false
      ∧ s.bit (F.HDR.INT_ROUTE.INBAND pgRED) = false)
    ∧ (∃ (p : BitVec 12) (s : State) (q : BitVec 12) (c : Commit) (i : Nat), s.quiet = true ∧ hasRws p.toNat = true
      ∧ s.bit (F.HDR.INT_ROUTE.INBAND pgCHIP) = false ∧ s.bit (F.HDR.INT_ROUTE.INBAND pgRED) = false ∧ 0x040 ≤ q.toNat ∧ q.toNat < 0x060
      ∧ s.gridSt = gridRun ∧ s.commits = [c] ∧ c.page = q.toNat ∧ c.at_ = some i ∧ i ≤ idxOf s.tickPeriod s.grid.cur) := by
  refine ⟨?_, ?_, ?_, ?_, ?_, ?_, ?_, ?_, ?_, ?_, ?_, ?_, ?_, ?_, ?_, ?_, ?_⟩
  · exact ⟨0x100, (let b : State := {}; let b : State := ((((b).setBit (F.HDR.INT_ROUTE.INBAND (pgRED)) false)).setBit (F.HDR.INT_ROUTE.INBAND (pgCHIP)) false); b.setFld F.PAIR.PAIR_STS.ROLE 0 |>.setFld F.PAIR.PAIR_STS.PARTNER_ROLE 7), by decide +kernel⟩
  · exact ⟨0x100, (let b : State := {}; let b : State := ((((b).setBit (F.HDR.INT_ROUTE.INBAND (pgRED)) false)).setBit (F.HDR.INT_ROUTE.INBAND (pgCHIP)) false); b.setFld F.PAIR.PAIR_STS.ROLE 0 |>.setFld F.PAIR.PAIR_STS.PARTNER_ROLE 7 |>.setFld64 F.CHIP.AT_IDX_LO.IDX_LO F.CHIP.AT_IDX_HI.IDX_HI (2 ^ 63 + 5) |>.setFld64 F.TICK.LAST_IDX_LO.IDX_LO F.TICK.LAST_IDX_HI.IDX_HI 77), by decide +kernel⟩
  · exact ⟨0x100, (let b : State := {}; let b : State := ((((b).setBit (F.HDR.INT_ROUTE.INBAND (pgRED)) false)).setBit (F.HDR.INT_ROUTE.INBAND (pgCHIP)) false); b.setFld F.PAIR.PAIR_STS.ROLE 2), by decide +kernel⟩
  · exact ⟨0x100, (let b : State := {}; let b : State := ((((b).setBit (F.HDR.INT_ROUTE.INBAND (pgRED)) false)).setBit (F.HDR.INT_ROUTE.INBAND (pgCHIP)) false); b.setFld F.PAIR.PAIR_STS.ROLE 2), by decide +kernel⟩
  · exact ⟨0x100, (let b : State := {}; let b : State := ((((b).setBit (F.HDR.INT_ROUTE.INBAND (pgRED)) false)).setBit (F.HDR.INT_ROUTE.INBAND (pgCHIP)) false); { b with commits := [{ page := (0x100 : BitVec 12).toNat, at_ := some 5 }] }), by decide +kernel⟩
  · exact ⟨0x100, (let b : State := {}; let b : State := ((((b).setBit (F.HDR.INT_ROUTE.INBAND (pgRED)) false)).setBit (F.HDR.INT_ROUTE.INBAND (pgCHIP)) false); (b.setFld F.PAIR.PAIR_STS.ROLE 0 |>.setFld F.PAIR.PAIR_STS.PARTNER_ROLE 7 |>.setFld (F.CTX.CTX_STS.STATE (0)) 0 |>.setStg (F.CTX.POST.POST (0)).addr 0x12345#32)), 0, by decide +kernel⟩
  · exact ⟨0x100, (let b : State := {}; let b : State := ((((b).setBit (F.HDR.INT_ROUTE.INBAND (pgRED)) false)).setBit (F.HDR.INT_ROUTE.INBAND (pgCHIP)) false); (b.setFld F.PAIR.PAIR_STS.ROLE 0 |>.setFld F.PAIR.PAIR_STS.PARTNER_ROLE 7 |>.setFld (F.CTX.CTX_STS.STATE (0)) 2)), 0, by decide +kernel⟩
  · exact ⟨0x100, (let b : State := {}; let b : State := ((((b).setBit (F.HDR.INT_ROUTE.INBAND (pgRED)) false)).setBit (F.HDR.INT_ROUTE.INBAND (pgCHIP)) false); { b with commits := [{ page := (0x100 : BitVec 12).toNat, at_ := some 5 }] }), by decide +kernel⟩
  · exact ⟨0x100, (let b : State := {}; let b : State := ((((b).setBit (F.HDR.INT_ROUTE.INBAND (pgRED)) false)).setBit (F.HDR.INT_ROUTE.INBAND (pgCHIP)) false); b), 0x004, by decide +kernel⟩
  · exact ⟨0x100, (let b : State := {}; let b : State := ((((b).setBit (F.HDR.INT_ROUTE.INBAND (pgRED)) false)).setBit (F.HDR.INT_ROUTE.INBAND (pgCHIP)) false); ((b).setBit (F.HDR.INT_ROUTE.INBAND (pgHOST)) false)), 0xE00, by decide +kernel⟩
  · exact ⟨0x100, (let b : State := {}; let b : State := ((((b).setBit (F.HDR.INT_ROUTE.INBAND (pgRED)) false)).setBit (F.HDR.INT_ROUTE.INBAND (pgCHIP)) false); b), 0x004, by decide +kernel⟩
  · exact ⟨0x100, (let b : State := {}; let b : State := ((((b).setBit (F.HDR.INT_ROUTE.INBAND (pgRED)) false)).setBit (F.HDR.INT_ROUTE.INBAND (pgCHIP)) false); ((b).setBit (F.HDR.INT_ROUTE.INBAND (pgHOST)) false)), 0xE00, by decide +kernel⟩
  · exact ⟨0x100, (let b : State := {}; let b : State := ((((b).setBit (F.HDR.INT_ROUTE.INBAND (pgRED)) false)).setBit (F.HDR.INT_ROUTE.INBAND (pgCHIP)) false); b), 0x004, by decide +kernel⟩
  · exact ⟨0x100, (let b : State := {}; let b : State := ((((b).setBit (F.HDR.INT_ROUTE.INBAND (pgRED)) false)).setBit (F.HDR.INT_ROUTE.INBAND (pgCHIP)) false); ((b).setBit (F.HDR.INT_ROUTE.INBAND (pgHOST)) false)), 0xE00, by decide +kernel⟩
  · exact ⟨0x100, (let b : State := {}; let b : State := ((((b).setBit (F.HDR.INT_ROUTE.INBAND (pgRED)) false)).setBit (F.HDR.INT_ROUTE.INBAND (pgCHIP)) false); { b.setFld F.TICK.TICK_STS.STATE (0 % 2 * 2) with commits := [] }), 0x041, by decide +kernel⟩
  · exact ⟨0x100, (let b : State := {}; let b : State := ((((b).setBit (F.HDR.INT_ROUTE.INBAND (pgRED)) false)).setBit (F.HDR.INT_ROUTE.INBAND (pgCHIP)) false); { b with commits := [{ page := (0x100 : BitVec 12).toNat, at_ := some 5 }, { page := 3 }] }), by decide +kernel⟩
  · exact ⟨0x100, (let b : State := {}; let b : State := ((((b).setBit (F.HDR.INT_ROUTE.INBAND (pgRED)) false)).setBit (F.HDR.INT_ROUTE.INBAND (pgCHIP)) false); { b.setFld F.TICK.TICK_STS.STATE gridRun with commits := [{ page := 0x041, at_ := some 0, sched := true }] }), 0x041, { page := 0x041, at_ := some 0, sched := true }, 0, by decide +kernel⟩

/-- The premises of `Obligations.RegistersAreWrittenAndReadByAddress` are met, clause by clause. -/
theorem test_met_RegistersAreWrittenAndReadByAddress :
    (∃ (s : State) (v : Reg), s.quiet = true ∧ s.bit (F.HDR.INT_ROUTE.INBAND pgHOST) = false)
    ∧ (∃ (s : State) (p : Path) (v : Reg), s.quiet = true ∧ s.bit (F.HDR.INT_ROUTE.INBAND pgHOST) = false)
    ∧ (∃ (s : State) (a : BitVec 24) (v : Reg), s.quiet = true ∧ s.bit (F.HDR.INT_ROUTE.INBAND pgHOST) = false ∧ mgmtProtected a.toNat = true)
    ∧ (∃ (s : State) (a : BitVec 24) (l : List Reg), s.quiet = true ∧ s.bit (F.HDR.INT_ROUTE.INBAND pgHOST) = false ∧ s.qspi.ignore = true)
    ∧ (∃ (s : State) (a : BitVec 24) (l : List Reg), s.quiet = true ∧ s.bit (F.HDR.INT_ROUTE.INBAND pgHOST) = false ∧ s.qspi.ignore = true)
    ∧ (∃ (s : State) (a : BitVec 24) (l : List Bool), s.quiet = true ∧ s.bit (F.HDR.INT_ROUTE.INBAND pgHOST) = false ∧ s.qspi.ignore = true)
    ∧ (∃ (s : State) (a : BitVec 24) (l : List Bool), s.quiet = true ∧ s.bit (F.HDR.INT_ROUTE.INBAND pgHOST) = false ∧ s.qspi.ignore = true)
    ∧ (∃ (s : State) (a : BitVec 24) (l : List Bool), s.quiet = true ∧ s.bit (F.HDR.INT_ROUTE.INBAND pgHOST) = false ∧ s.qspi.ignore = true)
    ∧ (∃ (s : State) (n : Nat), s.quiet = true ∧ s.bit (F.HDR.INT_ROUTE.INBAND pgHOST) = false ∧ s.qspi.ignore = true)
    ∧ (∃ (s : State), s.quiet = true ∧ s.bit (F.HDR.INT_ROUTE.INBAND pgHOST) = false ∧ s.qspi.ignore = true)
    ∧ (∃ (s : State) (part : Bool), s.quiet = true ∧ s.bit (F.HDR.INT_ROUTE.INBAND pgHOST) = false ∧ (s.qspi.ignore = true ∨ part = false))
    ∧ (∃ (s : State) (r : Bool), s.quiet = true ∧ s.bit (F.HDR.INT_ROUTE.INBAND pgHOST) = false ∧ s.qspi.ignore = false ∧ s.qspi.late = true)
    ∧ (∃ (s : State) (w : BitVec 17) (r : Bool), s.quiet = true ∧ s.bit (F.HDR.INT_ROUTE.INBAND pgHOST) = false
      ∧ (s.qspi.late = true ∨ r = false))
    ∧ (∃ (s : State) (w : BitVec 17), s.quiet = true ∧ s.bit (F.HDR.INT_ROUTE.INBAND pgHOST) = false ∧ s.qspi.late = true)
    ∧ (∃ (s : State) (v : Reg), s.quiet = true ∧ s.bit (F.HDR.INT_ROUTE.INBAND pgHOST) = false ∧ s.qspi.ignore = false)
    ∧ (∃ (s : State) (v : Reg) (x : Reg), s.quiet = true ∧ s.bit (F.HDR.INT_ROUTE.INBAND pgHOST) = false ∧ s.qspi.ignore = false)
    ∧ (∃ (s : State) (p : Path) (x : Fin 256) (v : Reg), s.quiet = true ∧ s.bit (F.HDR.INT_ROUTE.INBAND pgHOST) = false
      ∧ s.commitOf (pgCTX x.val) = none)
    ∧ (∃ (s : State) (p : Path) (x : Fin 256) (v : Reg), s.quiet = true ∧ s.bit (F.HDR.INT_ROUTE.INBAND pgHOST) = false
      ∧ (s.commitOf (pgCTX x.val)).isSome = true)
    ∧ (∃ (s : State) (p : Path) (a : BitVec 24) (v : Reg), s.quiet = true ∧ s.bit (F.HDR.INT_ROUTE.INBAND pgHOST) = false
      ∧ (pageRows (pageOf (a.toNat / 4 * 4))).isNone = true ∧ isCapwin (pageOf (a.toNat / 4 * 4)) = false)
    ∧ (∃ (s : State), s.quiet = true ∧ s.bit (F.HDR.INT_ROUTE.INBAND pgHOST) = false ∧ s.qspi.ignore = false ∧ s.qspi.late = false)
    ∧ (∃ (s : State), s.quiet = true ∧ s.bit (F.HDR.INT_ROUTE.INBAND pgHOST) = false ∧ s.qspi.ignore = false ∧ s.qspi.late = false)
    ∧ (∃ (s : State), s.quiet = true ∧ s.bit (F.HDR.INT_ROUTE.INBAND pgHOST) = false ∧ s.qspi.ignore = false ∧ s.qspi.late = false)
    ∧ (∃ (s : State), s.quiet = true ∧ s.bit (F.HDR.INT_ROUTE.INBAND pgHOST) = false ∧ s.qspi.ignore = false ∧ s.qspi.late = false)
    ∧ (∃ (s : State) (n : Nat), s.quiet = true ∧ s.bit (F.HDR.INT_ROUTE.INBAND pgHOST) = false ∧ s.qspi.ignore = false) := by
  refine ⟨?_, ?_, ?_, ?_, ?_, ?_, ?_, ?_, ?_, ?_, ?_, ?_, ?_, ?_, ?_, ?_, ?_, ?_, ?_, ?_, ?_, ?_, ?_, ?_⟩
  · exact ⟨(let b : State := {}; let b : State := ((b).setBit (F.HDR.INT_ROUTE.INBAND (pgHOST)) false); b), BitVec.ofNat 32 (3844675722), by decide +kernel⟩
  · exact ⟨(let b : State := {}; let b : State := ((b).setBit (F.HDR.INT_ROUTE.INBAND (pgHOST)) false); b), .qspi, BitVec.ofNat 32 (3844675722), by decide +kernel⟩
  · exact ⟨(let b : State := {}; let b : State := ((b).setBit (F.HDR.INT_ROUTE.INBAND (pgHOST)) false); b), 0x00405C, 7#32, by decide +kernel⟩
  · exact ⟨(let b : State := {}; let b : State := ((b).setBit (F.HDR.INT_ROUTE.INBAND (pgHOST)) false); { b with qspi := { b.qspi with ignore := true } }), 0x00405C, [7#32], by decide +kernel⟩
  · exact ⟨(let b : State := {}; let b : State := ((b).setBit (F.HDR.INT_ROUTE.INBAND (pgHOST)) false); { b with qspi := { b.qspi with ignore := true } }), 0x00405C, [7#32], by decide +kernel⟩
  · exact ⟨(let b : State := {}; let b : State := ((b).setBit (F.HDR.INT_ROUTE.INBAND (pgHOST)) false); { b with qspi := { b.qspi with ignore := true } }), 0x00405C, [true], by decide +kernel⟩
  · exact ⟨(let b : State := {}; let b : State := ((b).setBit (F.HDR.INT_ROUTE.INBAND (pgHOST)) false); { b with qspi := { b.qspi with ignore := true } }), 0x00405C, [true], by decide +kernel⟩
  · exact ⟨(let b : State := {}; let b : State := ((b).setBit (F.HDR.INT_ROUTE.INBAND (pgHOST)) false); { b with qspi := { b.qspi with ignore := true } }), 0x00405C, [true], by decide +kernel⟩
  · exact ⟨(let b : State := {}; let b : State := ((b).setBit (F.HDR.INT_ROUTE.INBAND (pgHOST)) false); { b with qspi := { b.qspi with ignore := true } }), 3, by decide +kernel⟩
  · exact ⟨(let b : State := {}; let b : State := ((b).setBit (F.HDR.INT_ROUTE.INBAND (pgHOST)) false); { b with qspi := { b.qspi with ignore := true } }), by decide +kernel⟩
  · exact ⟨(let b : State := {}; let b : State := ((b).setBit (F.HDR.INT_ROUTE.INBAND (pgHOST)) false); { b with qspi := { b.qspi with ignore := true, late := true } }), true, by decide +kernel⟩
  · exact ⟨(let b : State := {}; let b : State := ((b).setBit (F.HDR.INT_ROUTE.INBAND (pgHOST)) false); { b with qspi := { b.qspi with ignore := false, late := true } }), true, by decide +kernel⟩
  · exact ⟨(let b : State := {}; let b : State := ((b).setBit (F.HDR.INT_ROUTE.INBAND (pgHOST)) false); b), 3, false, by decide +kernel⟩
  · exact ⟨(let b : State := {}; let b : State := ((b).setBit (F.HDR.INT_ROUTE.INBAND (pgHOST)) false); { b with qspi := { b.qspi with late := true } }), 3, by decide +kernel⟩
  · exact ⟨(let b : State := {}; let b : State := ((b).setBit (F.HDR.INT_ROUTE.INBAND (pgHOST)) false); b), BitVec.ofNat 32 (3844675722), by decide +kernel⟩
  · exact ⟨(let b : State := {}; let b : State := ((b).setBit (F.HDR.INT_ROUTE.INBAND (pgHOST)) false); b), BitVec.ofNat 32 (3844675722), 7#32, by decide +kernel⟩
  · exact ⟨(let b : State := {}; let b : State := ((b).setBit (F.HDR.INT_ROUTE.INBAND (pgHOST)) false); b), .qspi, 0, BitVec.ofNat 32 (3844675722), by decide +kernel⟩
  · exact ⟨(let b : State := {}; let b : State := ((b).setBit (F.HDR.INT_ROUTE.INBAND (pgHOST)) false); { b with commits := [{ page := pgCTX (0 : Fin 256).val, at_ := some 5 }] }), .qspi, 0, BitVec.ofNat 32 (3844675722), by decide +kernel⟩
  · exact ⟨(let b : State := {}; let b : State := ((b).setBit (F.HDR.INT_ROUTE.INBAND (pgHOST)) false); b), .qspi, 0x00405C + 0x400000, 7#32, by decide +kernel⟩
  · exact ⟨(let b : State := {}; let b : State := ((b).setBit (F.HDR.INT_ROUTE.INBAND (pgHOST)) false); b), by decide +kernel⟩
  · exact ⟨(let b : State := {}; let b : State := ((b).setBit (F.HDR.INT_ROUTE.INBAND (pgHOST)) false); b), by decide +kernel⟩
  · exact ⟨(let b : State := {}; let b : State := ((b).setBit (F.HDR.INT_ROUTE.INBAND (pgHOST)) false); b), by decide +kernel⟩
  · exact ⟨(let b : State := {}; let b : State := ((b).setBit (F.HDR.INT_ROUTE.INBAND (pgHOST)) false); b), by decide +kernel⟩
  · exact ⟨(let b : State := {}; let b : State := ((b).setBit (F.HDR.INT_ROUTE.INBAND (pgHOST)) false); b), 0, by decide +kernel⟩

/-- The premises of `Obligations.TransactionsWindowsAndIndexPairs` are met, clause by clause. -/
theorem test_met_TransactionsWindowsAndIndexPairs :
    (∃ (p : Path) (s : State), s.quiet = true ∧ s.bit (F.HDR.INT_ROUTE.INBAND pgHOST) = false ∧ s.qspi.ignore = false ∧ s.qspi.late = false)
    ∧ (∃ (p : Path) (s : State), s.quiet = true ∧ s.bit (F.HDR.INT_ROUTE.INBAND pgHOST) = false ∧ s.qspi.ignore = false ∧ s.qspi.late = false)
    ∧ (∃ (p : Path) (s : State), s.quiet = true ∧ s.bit (F.HDR.INT_ROUTE.INBAND pgHOST) = false ∧ s.qspi.ignore = false ∧ s.qspi.late = false)
    ∧ (∃ (p : Path) (s : State) (w : BitVec 17) (a : Nat) (l : List (Word × Bool)) (x : Word), s.quiet = true
      ∧ s.bit (F.HDR.INT_ROUTE.INBAND pgHOST) = false ∧ s.qspi.ignore = false ∧ s.qspi.late = false ∧ s.winWord w.toNat = some a
      ∧ s.bit F.ARB_MEM.ARB_CTL.FREEZE = false ∧ s.bursts p = [(a / 16, l)] ∧ l.getD (a % 16) (0, false) = (x, false))
    ∧ (∃ (p : Path) (s : State) (w : BitVec 17), s.quiet = true ∧ s.bit (F.HDR.INT_ROUTE.INBAND pgHOST) = false ∧ s.qspi.ignore = false
      ∧ s.qspi.late = false ∧ s.winWord w.toNat = none)
    ∧ (∃ (p : Path) (s : State) (w : BitVec 17) (a : Nat) (v : Reg), s.quiet = true ∧ s.bit (F.HDR.INT_ROUTE.INBAND pgHOST) = false
      ∧ s.qspi.ignore = false ∧ s.qspi.late = false ∧ s.winWord w.toNat = some a ∧ sget none (s.latches p).cap w.toNat = some v)
    ∧ (∃ (p : Path) (s : State) (w : BitVec 17), s.quiet = true ∧ s.bit (F.HDR.INT_ROUTE.INBAND pgHOST) = false ∧ s.qspi.ignore = false
      ∧ s.qspi.late = false ∧ s.winWord w.toNat = none)
    ∧ (∃ (p : Path) (s : State), s.quiet = true ∧ s.bit (F.HDR.INT_ROUTE.INBAND pgHOST) = false ∧ s.qspi.ignore = false ∧ s.qspi.late = false)
    ∧ (∃ (p : Path) (s : State), s.quiet = true ∧ s.bit (F.HDR.INT_ROUTE.INBAND pgHOST) = false ∧ s.qspi.ignore = false ∧ s.qspi.late = false)
    ∧ (∃ (p : Path) (s : State), s.quiet = true ∧ s.bit (F.HDR.INT_ROUTE.INBAND pgHOST) = false ∧ s.qspi.ignore = false ∧ s.qspi.late = false) := by
  refine ⟨?_, ?_, ?_, ?_, ?_, ?_, ?_, ?_, ?_, ?_⟩
  · exact ⟨.qspi, (let b : State := {}; let b : State := ((b).setBit (F.HDR.INT_ROUTE.INBAND (pgHOST)) false); b), by decide +kernel⟩
  · exact ⟨.qspi, (let b : State := {}; let b : State := ((b).setBit (F.HDR.INT_ROUTE.INBAND (pgHOST)) false); b), by decide +kernel⟩
  · exact ⟨.qspi, (let b : State := {}; let b : State := ((b).setBit (F.HDR.INT_ROUTE.INBAND (pgHOST)) false); b), by decide +kernel⟩
  · exact ⟨.qspi, (let b : State := {}; let b : State := ((b).setBit (F.HDR.INT_ROUTE.INBAND (pgHOST)) false); let b : State := { b with qspi := { b.qspi with bufQ := [(5, (List.range 16).map fun i => (BitVec.ofNat 40 (i * 1000 + 77), false))], bufM := [(5, (List.range 16).map fun i => (BitVec.ofNat 40 (i * 1000 + 77), false))] } }; (b.setFld F.HOST.CAPWIN_BASE.BLOCK 0).setBit F.ARB_MEM.ARB_CTL.FREEZE false), 80 + BitVec.ofNat 17 0, 80 + 0, (List.range 16).map fun i => (BitVec.ofNat 40 (i * 1000 + 77), false), BitVec.ofNat 40 (0 * 1000 + 77), by decide +kernel⟩
  · exact ⟨.qspi, (let b : State := {}; let b : State := ((b).setBit (F.HDR.INT_ROUTE.INBAND (pgHOST)) false); b.setFld F.HOST.CAPWIN_BASE.BLOCK 1280), 3, by decide +kernel⟩
  · exact ⟨.qspi, (let b : State := {}; let p : Path := .qspi; let b : State := ((b).setBit (F.HDR.INT_ROUTE.INBAND (pgHOST)) false); (b.setFld F.HOST.CAPWIN_BASE.BLOCK 0).modLatches p fun l => { l with cap := [(80 + 0, some 9#32)] }), 80 + BitVec.ofNat 17 0, 80 + 0, 9#32, by decide +kernel⟩
  · exact ⟨.qspi, (let b : State := {}; let b : State := ((b).setBit (F.HDR.INT_ROUTE.INBAND (pgHOST)) false); b.setFld F.HOST.CAPWIN_BASE.BLOCK 1280), 3, by decide +kernel⟩
  · exact ⟨.qspi, (let b : State := {}; let b : State := ((b).setBit (F.HDR.INT_ROUTE.INBAND (pgHOST)) false); b), by decide +kernel⟩
  · exact ⟨.qspi, (let b : State := {}; let b : State := ((b).setBit (F.HDR.INT_ROUTE.INBAND (pgHOST)) false); { b with commits := [{ page := b.fld F.CHIP.SCHED_SEL.PAGE, at_ := some (2 ^ 33 + 5) }] }), by decide +kernel⟩
  · exact ⟨.qspi, (let b : State := {}; let b : State := ((b).setBit (F.HDR.INT_ROUTE.INBAND (pgHOST)) false); b), by decide +kernel⟩

/-- The premises of `Obligations.SlathSavesAndSleep` are met, clause by clause. -/
theorem test_met_SlathSavesAndSleep :
    (∃ (s : State), s.quiet = true ∧ s.bit (F.HDR.INT_ROUTE.INBAND pgNVM) = false ∧ s.bit (F.HDR.INT_ROUTE.INBAND pgTICK) = false
      ∧ s.power.saving = none)
    ∧ (∃ (s : State), s.quiet = true ∧ s.bit (F.HDR.INT_ROUTE.INBAND pgNVM) = false ∧ s.bit (F.HDR.INT_ROUTE.INBAND pgTICK) = false
      ∧ s.power.saving.isSome = true)
    ∧ (∃ (s : State) (ok : Bool), s.quiet = true ∧ s.bit (F.HDR.INT_ROUTE.INBAND pgNVM) = false
      ∧ s.bit (F.HDR.INT_ROUTE.INBAND pgTICK) = false ∧ s.power.saving = none)
    ∧ (∃ (s : State) (c : Bool) (x : SlathCopy), s.quiet = true ∧ s.bit (F.HDR.INT_ROUTE.INBAND pgNVM) = false
      ∧ s.bit (F.HDR.INT_ROUTE.INBAND pgTICK) = false ∧ s.power.saving = some (c, x))
    ∧ (∃ (s : State) (c : Bool) (x : SlathCopy), s.quiet = true ∧ s.bit (F.HDR.INT_ROUTE.INBAND pgNVM) = false
      ∧ s.bit (F.HDR.INT_ROUTE.INBAND pgTICK) = false ∧ s.power.saving = some (c, x))
    ∧ (∃ (s : State), s.quiet = true ∧ s.bit (F.HDR.INT_ROUTE.INBAND pgNVM) = false ∧ s.bit (F.HDR.INT_ROUTE.INBAND pgTICK) = false
      ∧ s.pwr = pwAwake ∧ s.role = roleSolo ∧ s.cal.dwell = none)
    ∧ (∃ (s : State), s.quiet = true ∧ s.bit (F.HDR.INT_ROUTE.INBAND pgNVM) = false ∧ s.bit (F.HDR.INT_ROUTE.INBAND pgTICK) = false
      ∧ (s.pwr ≠ pwAwake ∨ s.leads = false))
    ∧ (∃ (s : State), s.quiet = true ∧ s.bit (F.HDR.INT_ROUTE.INBAND pgNVM) = false ∧ s.bit (F.HDR.INT_ROUTE.INBAND pgTICK) = false
      ∧ s.pwr = pwEntering ∧ s.anyPass = false ∧ s.power.wakeHeld = false ∧ s.wakeAtDue = false)
    ∧ (∃ (s : State), s.quiet = true ∧ s.bit (F.HDR.INT_ROUTE.INBAND pgNVM) = false ∧ s.bit (F.HDR.INT_ROUTE.INBAND pgTICK) = false
      ∧ (s.pwr ≠ pwEntering ∨ s.anyPass = true))
    ∧ (∃ (s : State), s.quiet = true ∧ s.bit (F.HDR.INT_ROUTE.INBAND pgNVM) = false ∧ s.bit (F.HDR.INT_ROUTE.INBAND pgTICK) = false
      ∧ s.pwr = pwEntering ∧ s.anyPass = false ∧ s.power.wakeHeld = true ∧ s.role = roleSolo)
    ∧ (∃ (s : State), s.quiet = true ∧ s.bit (F.HDR.INT_ROUTE.INBAND pgNVM) = false ∧ s.bit (F.HDR.INT_ROUTE.INBAND pgTICK) = false
      ∧ s.pwr ≠ pwEntering ∧ (s.pwr ≠ pwAsleep ∨ s.follows = true))
    ∧ (∃ (s : State), s.quiet = true ∧ s.bit (F.HDR.INT_ROUTE.INBAND pgNVM) = false ∧ s.bit (F.HDR.INT_ROUTE.INBAND pgTICK) = false
      ∧ (s.pwr ≠ pwAsleep ∨ s.bit F.NVM.PWR_CTL.WAKE_AT_EN = false))
    ∧ (∃ (s : State), s.quiet = true ∧ s.bit (F.HDR.INT_ROUTE.INBAND pgNVM) = false ∧ s.bit (F.HDR.INT_ROUTE.INBAND pgTICK) = false
      ∧ s.pwr ≠ pwWaking)
    ∧ (∃ (s : State), s.quiet = true ∧ s.bit (F.HDR.INT_ROUTE.INBAND pgNVM) = false ∧ s.bit (F.HDR.INT_ROUTE.INBAND pgTICK) = false
      ∧ (s.pwr ≠ pwAsleep ∨ s.role ≠ roleStandby))
    ∧ (∃ (s : State), s.quiet = true ∧ s.bit (F.HDR.INT_ROUTE.INBAND pgNVM) = false ∧ s.bit (F.HDR.INT_ROUTE.INBAND pgTICK) = false
      ∧ s.pwr = pwEntering)
    ∧ (∃ (s : State), s.quiet = true ∧ s.bit (F.HDR.INT_ROUTE.INBAND pgNVM) = false ∧ s.bit (F.HDR.INT_ROUTE.INBAND pgTICK) = false
      ∧ s.pwr = pwAsleep ∧ s.role = roleSolo)
    ∧ (∃ (s : State), s.quiet = true ∧ s.bit (F.HDR.INT_ROUTE.INBAND pgNVM) = false ∧ s.bit (F.HDR.INT_ROUTE.INBAND pgTICK) = false
      ∧ s.pwr = pwAsleep ∧ s.role = roleSolo ∧ s.bit F.NVM.PWR_CTL.WAKE_AT_EN = true ∧ s.time.sec < 2 ^ 48 ∧ s.time.ns < nsPerSec
      ∧ s.time.acc < 2 ^ 32)
    ∧ (∃ (s : State), s.quiet = true ∧ s.bit (F.HDR.INT_ROUTE.INBAND pgNVM) = false ∧ s.bit (F.HDR.INT_ROUTE.INBAND pgTICK) = false
      ∧ s.pwr = pwWaking)
    ∧ (∃ (s : State), s.quiet = true ∧ s.bit (F.HDR.INT_ROUTE.INBAND pgNVM) = false ∧ s.bit (F.HDR.INT_ROUTE.INBAND pgTICK) = false
      ∧ s.pwr = pwAsleep ∧ s.role = roleStandby) := by
  refine ⟨?_, ?_, ?_, ?_, ?_, ?_, ?_, ?_, ?_, ?_, ?_, ?_, ?_, ?_, ?_, ?_, ?_, ?_, ?_⟩
  · exact ⟨(let b : State := {}; let b : State := ((((b).setBit (F.HDR.INT_ROUTE.INBAND (pgTICK)) false)).setBit (F.HDR.INT_ROUTE.INBAND (pgNVM)) false); b), by decide +kernel⟩
  · exact ⟨(let b : State := {}; let b : State := ((((b).setBit (F.HDR.INT_ROUTE.INBAND (pgTICK)) false)).setBit (F.HDR.INT_ROUTE.INBAND (pgNVM)) false); { b with power := { b.power with saving := some (true, {}) } }), by decide +kernel⟩
  · exact ⟨(let b : State := {}; let b : State := ((((b).setBit (F.HDR.INT_ROUTE.INBAND (pgTICK)) false)).setBit (F.HDR.INT_ROUTE.INBAND (pgNVM)) false); { b with power := { b.power with saving := none } }), true, by decide +kernel⟩
  · exact ⟨(let b : State := {}; let b : State := ((((b).setBit (F.HDR.INT_ROUTE.INBAND (pgTICK)) false)).setBit (F.HDR.INT_ROUTE.INBAND (pgNVM)) false); { b with power := { b.power with saving := some (true, { gen := 5, valid := true, image := [(4188, 7#32)], marks := [3] }) } }), true, { gen := 5, valid := true, image := [(4188, 7#32)], marks := [3] }, by decide +kernel⟩
  · exact ⟨(let b : State := {}; let b : State := ((((b).setBit (F.HDR.INT_ROUTE.INBAND (pgTICK)) false)).setBit (F.HDR.INT_ROUTE.INBAND (pgNVM)) false); { b with power := { b.power with saving := some (true, { gen := 5, valid := true, image := [(4188, 7#32)], marks := [3] }) } }), true, { gen := 5, valid := true, image := [(4188, 7#32)], marks := [3] }, by decide +kernel⟩
  · exact ⟨(let b : State := {}; let b : State := ((((b).setBit (F.HDR.INT_ROUTE.INBAND (pgTICK)) false)).setBit (F.HDR.INT_ROUTE.INBAND (pgNVM)) false); ((b.setFld F.PAIR.PAIR_STS.ROLE 0).setFld F.NVM.PWR_STS.STATE 1)), by decide +kernel⟩
  · exact ⟨(let b : State := {}; let b : State := ((((b).setBit (F.HDR.INT_ROUTE.INBAND (pgTICK)) false)).setBit (F.HDR.INT_ROUTE.INBAND (pgNVM)) false); ((b.setFld F.PAIR.PAIR_STS.ROLE (2 * (0 % 2))).setFld F.NVM.PWR_STS.STATE (3))), by decide +kernel⟩
  · exact ⟨(let b : State := {}; let b : State := ((((b).setBit (F.HDR.INT_ROUTE.INBAND (pgTICK)) false)).setBit (F.HDR.INT_ROUTE.INBAND (pgNVM)) false); ((b).setFld F.NVM.PWR_STS.STATE 2).setBit F.NVM.PWR_CTL.WAKE_AT_EN false), by decide +kernel⟩
  · exact ⟨(let b : State := {}; let b : State := ((((b).setBit (F.HDR.INT_ROUTE.INBAND (pgTICK)) false)).setBit (F.HDR.INT_ROUTE.INBAND (pgNVM)) false); ((b).setFld F.NVM.PWR_STS.STATE 1)), by decide +kernel⟩
  · exact ⟨(let b : State := {}; let b : State := ((((b).setBit (F.HDR.INT_ROUTE.INBAND (pgTICK)) false)).setBit (F.HDR.INT_ROUTE.INBAND (pgNVM)) false); ((b.setFld F.PAIR.PAIR_STS.ROLE 0).setFld F.NVM.PWR_STS.STATE 2).modPower fun p => { p with wakeHeld := true }), by decide +kernel⟩
  · exact ⟨(let b : State := {}; let b : State := ((((b).setBit (F.HDR.INT_ROUTE.INBAND (pgTICK)) false)).setBit (F.HDR.INT_ROUTE.INBAND (pgNVM)) false); ((b).setFld F.NVM.PWR_STS.STATE 1)), by decide +kernel⟩
  · exact ⟨(let b : State := {}; let b : State := ((((b).setBit (F.HDR.INT_ROUTE.INBAND (pgTICK)) false)).setBit (F.HDR.INT_ROUTE.INBAND (pgNVM)) false); ((b).setFld F.NVM.PWR_STS.STATE 1)), by decide +kernel⟩
  · exact ⟨(let b : State := {}; let b : State := ((((b).setBit (F.HDR.INT_ROUTE.INBAND (pgTICK)) false)).setBit (F.HDR.INT_ROUTE.INBAND (pgNVM)) false); ((b).setFld F.NVM.PWR_STS.STATE 1)), by decide +kernel⟩
  · exact ⟨(let b : State := {}; let b : State := ((((b).setBit (F.HDR.INT_ROUTE.INBAND (pgTICK)) false)).setBit (F.HDR.INT_ROUTE.INBAND (pgNVM)) false); ((b).setFld F.NVM.PWR_STS.STATE 1)), by decide +kernel⟩
  · exact ⟨(let b : State := {}; let b : State := ((((b).setBit (F.HDR.INT_ROUTE.INBAND (pgTICK)) false)).setBit (F.HDR.INT_ROUTE.INBAND (pgNVM)) false); ((b).setFld F.NVM.PWR_STS.STATE 2)), by decide +kernel⟩
  · exact ⟨(let b : State := {}; let b : State := ((((b).setBit (F.HDR.INT_ROUTE.INBAND (pgTICK)) false)).setBit (F.HDR.INT_ROUTE.INBAND (pgNVM)) false); ((b.setFld F.PAIR.PAIR_STS.ROLE 0).setFld F.NVM.PWR_STS.STATE 3)), by decide +kernel⟩
  · exact ⟨(let b : State := {}; let b : State := ((((b).setBit (F.HDR.INT_ROUTE.INBAND (pgTICK)) false)).setBit (F.HDR.INT_ROUTE.INBAND (pgNVM)) false); ((b.setFld F.PAIR.PAIR_STS.ROLE 0).setFld F.NVM.PWR_STS.STATE 3).setBit F.NVM.PWR_CTL.WAKE_AT_EN true), by decide +kernel⟩
  · exact ⟨(let b : State := {}; let b : State := ((((b).setBit (F.HDR.INT_ROUTE.INBAND (pgTICK)) false)).setBit (F.HDR.INT_ROUTE.INBAND (pgNVM)) false); { ((b).setFld F.NVM.PWR_STS.STATE 4) with power := { b.power with wokeAt := 900 } }), by decide +kernel⟩
  · exact ⟨(let b : State := {}; let b : State := ((((b).setBit (F.HDR.INT_ROUTE.INBAND (pgTICK)) false)).setBit (F.HDR.INT_ROUTE.INBAND (pgNVM)) false); ((b.setFld F.PAIR.PAIR_STS.ROLE 2).setFld F.NVM.PWR_STS.STATE 3)), by decide +kernel⟩

/-- The premises of `Obligations.ResetStartUpFabricAndScan` are met, clause by clause. -/
theorem test_met_ResetStartUpFabricAndScan :
    (∃ (s : State) (st : Bool) (te : Bool) (bf : BitVec 25) (r : BitVec 16), s.power.held = true ∧ s.power.pfw = false
      ∧ s.mram.calNewer = none)
    ∧ (∃ (s : State) (st : Bool) (te : Bool) (bf : BitVec 25) (r : BitVec 16), s.power.held = true ∧ s.power.pfw = false
      ∧ s.mram.calNewer.isSome = true)
    ∧ (∃ (s : State) (st : Bool) (te : Bool) (bf : BitVec 25) (r : BitVec 16), s.power.held = false
      ∧ (s.power.abandoned = true ∨ s.fld F.NVM.BOOT_STS.STEP ≠ 0))
    ∧ (∃ (s : State) (st : Bool) (te : Bool) (bf : BitVec 25) (r : BitVec 16), s.power.held = true ∧ s.power.pfw = true)
    ∧ (∃ (s : State) (st : Bool) (te : Bool) (bf : BitVec 25) (r : BitVec 16), s.power.abandoned = true ∧ s.power.held = false
      ∧ s.power.pfw = false ∧ s.mram.calNewer = none)
    ∧ (∃ (s : State) (st : Bool) (te : Bool) (bf : BitVec 25) (r : BitVec 16), s.power.abandoned = true ∧ s.power.held = false
      ∧ s.power.pfw = false ∧ s.mram.calNewer.isSome = true)
    ∧ (∃ (s : State) (st : Bool) (te : Bool) (bf : BitVec 25) (r : BitVec 16), (s.power.abandoned = false ∨ s.power.held = true ∨ s.power.pfw = true))
    ∧ (∃ (s : State) (sl : Fin 34) (r : SelfTest), s.quiet = true ∧ s.booting = true ∧ (s.selfTestDone sl.val r).calSt ≠ calSelftest)
    ∧ (∃ (s : State) (r : BitVec 16), s.quiet = true)
    ∧ (∃ (s : State) (c : Nat), s.quiet = true ∧ s.bit (F.HDR.INT_ROUTE.INBAND pgNVM) = false ∧ 5 ≤ s.fld F.NVM.BOOT_STS.STEP
      ∧ s.power.slow = some (c, false))
    ∧ (∃ (s : State), s.quiet = true ∧ (s.power.slow = none ∨ (s.power.slow.map Prod.snd) = some true ∨ s.fld F.NVM.BOOT_STS.STEP < 5)) := by
  refine ⟨?_, ?_, ?_, ?_, ?_, ?_, ?_, ?_, ?_, ?_, ?_⟩
  · exact ⟨(let b : State := {}; { b with power := { b.power with held := true }, mram := { b.mram with calA := { b.mram.calA with valid := false }, calB := { b.mram.calB with valid := false } } }), true, true, 0, 300, by decide +kernel⟩
  · exact ⟨(let b : State := {}; { b with power := { b.power with held := true }, mram := { b.mram with calA := { b.mram.calA with valid := true } } }), true, true, 0, 300, by decide +kernel⟩
  · exact ⟨(let b : State := {}; b.setFld F.NVM.BOOT_STS.STEP 10), true, true, 0, 300, by decide +kernel⟩
  · exact ⟨(let b : State := {}; { b with power := { b.power with held := true, pfw := true } }), true, true, 0, 300, by decide +kernel⟩
  · exact ⟨(let b : State := {}; { b with power := { b.power with abandoned := true }, mram := { b.mram with calA := { b.mram.calA with valid := false }, calB := { b.mram.calB with valid := false } } }), true, true, 0, 300, by decide +kernel⟩
  · exact ⟨(let b : State := {}; { b with power := { b.power with abandoned := true }, mram := { b.mram with calA := { b.mram.calA with valid := true } } }), true, true, 0, 300, by decide +kernel⟩
  · exact ⟨(let b : State := {}; b), true, true, 0, 300, by decide +kernel⟩
  · exact ⟨(let b : State := {}; ((((b.setFld F.NVM.BOOT_STS.STEP 6).setFld F.CAL.CAL_STS.STATE 1).modCal fun c => { c with testing := [33] }).setFld F.NVM.PWR_STS.STATE 0)), 33, ⟨0, 0, 0, 0, false⟩, by decide +kernel⟩
  · exact ⟨(let b : State := {}; b), BitVec.ofNat 16 (3844675722 % (300 * (1 + 0 % 5))), by decide +kernel⟩
  · exact ⟨(let b : State := {}; ((((b.setFld F.NVM.BOOT_STS.STEP 10).setFld F.CHIP.FABRIC_RATE.RATE 0xFF).modPower fun p => { p with slow := some (7, false) }).setBit (F.HDR.INT_ROUTE.INBAND (pgNVM)) false)), 7, by decide +kernel⟩
  · exact ⟨(let b : State := {}; b.modPower fun p => { p with slow := none}), by decide +kernel⟩

/-- The premises of `Obligations.TickPeriodIsChecked` are met, clause by clause. -/
theorem test_met_TickPeriodIsChecked :
    (∃ (s : State), s.quiet = true ∧ s.bit (F.HDR.INT_ROUTE.INBAND pgCHIP) = false ∧ s.bit (F.HDR.INT_ROUTE.INBAND pgRED) = false
      ∧ s.commitOf pgTICK = none ∧ (¬ (s.stgFld F.TICK.TICK_PERIOD.PERIOD ∣ 1000000000 ∧ 8000 ≤ s.stgFld F.TICK.TICK_PERIOD.PERIOD)))
    ∧ (∃ (s : State), s.quiet = true ∧ s.bit (F.HDR.INT_ROUTE.INBAND pgCHIP) = false ∧ s.bit (F.HDR.INT_ROUTE.INBAND pgRED) = false
      ∧ s.commitOf pgTICK = none ∧ (¬ (s.stgFld F.TICK.TICK_PERIOD.PERIOD ∣ 1000000000 ∧ 8000 ≤ s.stgFld F.TICK.TICK_PERIOD.PERIOD))) := by
  refine ⟨?_, ?_⟩
  · exact ⟨(let b : State := {}; ((((((b).setBit (F.HDR.INT_ROUTE.INBAND (pgRED)) false)).setBit (F.HDR.INT_ROUTE.INBAND (pgCHIP)) false) : State).setStg F.TICK.TICK_PERIOD.PERIOD.addr (7999#32)).setStg F.TICK.TICK_PHASE.PHASE_NS.addr 0#32), by decide +kernel⟩
  · exact ⟨(let b : State := {}; ((((((b).setBit (F.HDR.INT_ROUTE.INBAND (pgRED)) false)).setBit (F.HDR.INT_ROUTE.INBAND (pgCHIP)) false) : State).setStg F.TICK.TICK_PERIOD.PERIOD.addr (7999#32)).setStg F.TICK.TICK_PHASE.PHASE_NS.addr 0#32), by decide +kernel⟩

/-- The premises of `Obligations.TickPhaseIsChecked` are met, clause by clause. -/
theorem test_met_TickPhaseIsChecked :
    (∃ (s : State), s.quiet = true ∧ s.bit (F.HDR.INT_ROUTE.INBAND pgCHIP) = false ∧ s.bit (F.HDR.INT_ROUTE.INBAND pgRED) = false
      ∧ s.commitOf pgTICK = none
      ∧ s.stgFld F.TICK.TICK_PERIOD.PERIOD * 64 ≤ s.stgFld F.TICK.TICK_PHASE.PHASE_NS * 64 + s.stgFld F.TICK.TICK_PHASE_FRAC.FRAC)
    ∧ (∃ (s : State), s.quiet = true ∧ s.bit (F.HDR.INT_ROUTE.INBAND pgCHIP) = false ∧ s.bit (F.HDR.INT_ROUTE.INBAND pgRED) = false
      ∧ s.commitOf pgTICK = none
      ∧ s.stgFld F.TICK.TICK_PERIOD.PERIOD * 64 ≤ s.stgFld F.TICK.TICK_PHASE.PHASE_NS * 64 + s.stgFld F.TICK.TICK_PHASE_FRAC.FRAC) := by
  refine ⟨?_, ?_⟩
  · exact ⟨(let b : State := {}; ((((((b).setBit (F.HDR.INT_ROUTE.INBAND (pgRED)) false)).setBit (F.HDR.INT_ROUTE.INBAND (pgCHIP)) false) : State).setStg F.TICK.TICK_PERIOD.PERIOD.addr 8000#32).setStg F.TICK.TICK_PHASE.PHASE_NS.addr (8000#32)), by decide +kernel⟩
  · exact ⟨(let b : State := {}; ((((((b).setBit (F.HDR.INT_ROUTE.INBAND (pgRED)) false)).setBit (F.HDR.INT_ROUTE.INBAND (pgCHIP)) false) : State).setStg F.TICK.TICK_PERIOD.PERIOD.addr 8000#32).setStg F.TICK.TICK_PHASE.PHASE_NS.addr (8000#32)), by decide +kernel⟩
end

/-!
The family of the scope: every command completes and a queue of commands drains (R1), the state after reset (R16, R49, R466), and
registers written and read by address (R17, R446 to R460).
-/

namespace Sys2Proof.ScopeProofs

open Sys2Proof Sys2Proof.Machine Sys2Proof.Laws

/-! ## Every command completes and leaves the queue of commands alone -/

theorem pfwAbandon_pending (s : State) : s.pfwAbandon.pending = s.pending := rfl

/-- A command that acts through `act` completes: what it did is sealed, and in reset it did nothing. -/
theorem next_of_sealed {o : Host.Outcome State Fault Refusal} {t s : State} (h : o = .next (if s.inReset then s else t.sealed s)) :
    ∃ t, o = .next t ∧ t.pending = s.pending := by
  refine ⟨_, h, ?_⟩
  split <;> rfl

/-- A change of an input completes: in reset the level `u` is all that is kept (R466). -/
theorem next_of_level {o : Host.Outcome State Fault Refusal} {u t s : State}
    (h : o = if s.inReset then .next u else .next (if s.inReset then s else t.sealed s)) (hu : u.pending = s.pending) :
    ∃ t, o = .next t ∧ t.pending = s.pending := by
  by_cases hr : s.inReset = true
  · exact ⟨u, h.trans (if_pos hr), hu⟩
  · exact next_of_sealed (h.trans (if_neg hr))

theorem modPort_pending (s : State) (p : Port) (f : PortSt → PortSt) : (s.modPort p f).pending = s.pending := by
  cases p <;> rfl

/-- PFW_N completes, whether the hub is in reset, starts up or runs (R439, R467). -/
theorem pfwAssert_next (s : State) : ∃ t, execPfwAssert s = .next t ∧ t.pending = s.pending := by
  unfold execPfwAssert
  split
  · exact ⟨_, rfl, rfl⟩
  · split
    · exact ⟨_, rfl, pfwAbandon_pending s⟩
    · exact act_next _ s

theorem boot_pending (s : State) (strap testEn : Bool) (bist : BitVec 25) (rate : BitVec 16) (late : Nat) :
    (s.boot strap testEn bist rate late).pending = s.pending := by
  unfold State.boot
  split
  · exact pfwAbandon_pending s
  · rfl

theorem bootAgain_pending (s : State) (strap testEn : Bool) (bist : BitVec 25) (rate : BitVec 16) :
    (s.bootAgain strap testEn bist rate).pending = s.pending := boot_pending s.drawFree.2 strap testEn bist rate _

/-- Every command of the table completes and leaves the queue of commands alone: those that act through `act` because it seals the queue,
those of the pins, the supplies and reset because they do not reach it. -/
theorem exec_next (c : Instr) (s : State) : ∃ t, exec c s = .next t ∧ t.pending = s.pending := by
  cases c with
  | blankEdge n level => exact next_of_level rfl rfl
  | pairPresentChange present => exact next_of_level rfl rfl
  | yieldNAssert low => exact next_of_level rfl rfl
  | takeNAssert => exact next_of_level rfl rfl
  | takeNRelease => exact next_of_level rfl rfl
  | losChange p level => exact next_of_level rfl (modPort_pending s p _)
  | pfwAssert => exact pfwAssert_next s
  | pfwDeassert => exact ⟨_, rfl, rfl⟩
  | supplyRestored which => exact ⟨_, rfl, rfl⟩
  | jtagInstruction op => exact ⟨_, rfl, rfl⟩
  | reset => exact ⟨_, rfl, rfl⟩
  | resetRelease strap testEn bist rate =>
    refine ⟨_, rfl, ?_⟩
    split
    · exact boot_pending s strap testEn bist rate 0
    · rfl
  | bootRestart strap testEn bist rate =>
    refine ⟨_, rfl, ?_⟩
    split
    · exact bootAgain_pending s strap testEn bist rate
    · rfl
  | _ => exact next_of_sealed rfl

/-- A step on a queue that is not empty takes its front command and leaves the rest (R1). -/
theorem step_next_of_cons (c : Instr) (l : List Instr) (s : State) (h : s.pending = c :: l) :
    ∃ t, step s = .next t ∧ t.pending = l := by
  rw [step, h]
  exact exec_next c { s with pending := l }

/-- A queue of `n` commands is empty after `n` steps. -/
theorem run_drains (n : Nat) (s : State) (h : s.pending.length = n) : ∃ t, Host.Core.run core n s = .next t ∧ t.pending = [] := by
  induction n generalizing s with
  | zero => exact ⟨s, rfl, List.eq_nil_of_length_eq_zero h⟩
  | succ n ih =>
    obtain ⟨c, l, hp⟩ := List.exists_cons_of_length_eq_add_one h
    obtain ⟨t, hstep, ht⟩ := step_next_of_cons c l s hp
    have hlen : t.pending.length = n := by simpa [ht, hp] using h
    have hrun : Host.Core.run core (n + 1) s = Host.Core.run core n t := by
      simp only [Host.Core.run, show core.step s = .next t from hstep]
    rw [hrun]
    exact ih t hlen

/-- Settles O2: commands complete one by one, then by induction on the length of the queue. -/
theorem queuesOfCommandsDrain : Obligations.QueuesOfCommandsDrain := by
  unfold Obligations.QueuesOfCommandsDrain
  exact ⟨exec_next, fun s => run_drains _ s rfl⟩

/-! ## The state after reset -/

/-- No interrupt bit is set after reset, on whatever page (R16, R421). -/
theorem resetWord_intSts (p : Nat) : resetWord (0x1000 * p + 0x010) = 0 := by
  have hp : pageOf (0x1000 * p + 0x010) = p := by simp only [pageOf]; omega
  have ho : offOf (0x1000 * p + 0x010) = 0x010 := by simp only [offOf]; omega
  simp only [resetWord, hp, ho, rowOf]
  cases pageRows p with
  | none => simp
  | some l => simp [rowsHDR, hitRow]

theorem reset_pendingBits (p : Nat) : State.reset.pendingBits p = 0 := by
  have h : State.reset.reg (0x1000 * p + 0x010) = 0 := resetWord_intSts p
  rw [State.pendingBits, h]
  exact BitVec.zero_and

theorem reset_irqAsserted (n : Nat) : State.reset.irqAsserted n = false := by
  simp [State.irqAsserted, reset_pendingBits]

/-- Settles O3: reset holds the tables' values by definition, and no interrupt is pending on any page. -/
theorem resetStateIsAsTheTablesSay : Obligations.ResetStateIsAsTheTablesSay := by
  unfold Obligations.ResetStateIsAsTheTablesSay
  refine ⟨fun a => ⟨rfl, rfl⟩, rfl, rfl, rfl, ?_, ?_, ?_, ?_, rfl, ?_, reset_irqAsserted 0⟩
  · decide +kernel
  · decide +kernel
  · decide +kernel
  · decide +kernel
  · decide +kernel

/-! ## What a command leaves of a quiet state -/

/-- A command that acts through `f` ends in what `f` leaves, where `f` keeps the state quiet and the queue of commands. -/
theorem act_eq {f : State → State} {s t : State} (hs : s.quiet = true) (hf : f s = t) (hq : t.quiet = s.quiet)
    (hp : t.pending = s.pending) : act f s = .next t := by
  subst hf
  exact act_quiet f s hs (hq.trans hs) hp

/-- A command that does nothing to a quiet state leaves it as it was. -/
theorem act_idle {f : State → State} {s : State} (hs : s.quiet = true) (hf : f s = s) : act f s = .next s := act_eq hs hf rfl rfl

/-! ## Writes by address (R17, R445 to R447, R450) -/

theorem reg32_zero : reg32 0 = 0#32 := rfl
theorem and_reg32_ones (v : Reg) : v &&& reg32 0xFFFFFFFF = v := BitVec.and_allOnes
theorem and_not_reg32_ones (v : Reg) : v &&& ~~~ reg32 0xFFFFFFFF = 0#32 := BitVec.and_zero
theorem and_not_reg32_zero (v : Reg) : v &&& ~~~ reg32 0 = v := BitVec.and_allOnes

/-- A register of read-write bits alone takes the value written (R17). -/
theorem plainWrite_rw (s : State) (r : RegRow) (a : Nat) (v : Reg) (hrw : r.rw = 0xFFFFFFFF) (hrws : r.rws = 0) (hw1c : r.w1c = 0) :
    s.plainWrite r a v = s.setReg a v := by
  have hv : ((s.reg a &&& ~~~ reg32 r.rw) ||| (v &&& reg32 r.rw)) &&& ~~~ (v &&& reg32 r.w1c) = v := by
    rw [hrw, hw1c, and_reg32_ones, and_not_reg32_ones, BitVec.zero_or, reg32_zero, BitVec.and_zero]
    exact and_not_reg32_zero v
  rw [State.plainWrite, if_pos hrws, hv]

/-- Staged bits alone leave the running value as it is written anew (R17). -/
theorem plainWrite_rws (s : State) (r : RegRow) (a : Nat) (v : Reg) (hrw : r.rw = 0) (hrws : r.rws ≠ 0) (hw1c : r.w1c = 0) :
    s.plainWrite r a v = (if (s.commitOf (pageOf a)).isSome then
      (s.setReg a (s.reg a)).setBit (F.HDR.STAGE_CTL.WR_IGNORED (pageOf a)) true
      else (s.setReg a (s.reg a)).setStg a ((s.stg a &&& ~~~ reg32 r.rws) ||| (v &&& reg32 r.rws))) := by
  have hv : ((s.reg a &&& ~~~ reg32 r.rw) ||| (v &&& reg32 r.rw)) &&& ~~~ (v &&& reg32 r.w1c) = s.reg a := by
    rw [hrw, hw1c, and_not_reg32_zero, reg32_zero, BitVec.and_zero, BitVec.or_zero]
    exact and_not_reg32_zero (s.reg a)
  simp only [State.plainWrite, if_neg hrws, hv]
  rfl

/-- A register that is written with its own value reads as before, as does every other. -/
theorem reg_setReg_self (s : State) (a b : Nat) : (s.setReg a (s.reg a)).reg b = s.reg b := by
  by_cases h : b = a
  · subst h; exact reg_setReg_same s b _
  · exact reg_setReg_ne s a b _ h

/-- A write of a word-aligned register other than TEST_KEY, on a page of the register space (R428, R446). -/
theorem busWrite_eq_regWrite (s : State) (a : Nat) (v : Reg) (rows : List RegRow) (ha : a % 4 = 0) (hk : a ≠ F.RIM.TEST_KEY.KEY.addr)
    (hc : isCapwin (pageOf a) = false) (hr : pageRows (pageOf a) = some rows) : s.busWrite a v = s.otherWrite.regWrite a v := by
  have haln : a / 4 * 4 = a := by omega
  simp [State.busWrite, haln, hk, hc, hr]

theorem rowOf_scratch : rowOf 0x00405C = some ⟨0x05C, 0x0, 1, 0xFFFFFFFF, 0x0, 0x0, 0x0, 0x0⟩ := rfl
theorem rowOf_addrErrCnt : rowOf 0x004058 = some ⟨0x058, 0x0, 1, 0x0, 0x0, 0xFFFFFFFF, 0x0, 0x0⟩ := rfl
theorem rowOf_atIdxLo : rowOf 0x000050 = some ⟨0x050, 0x0, 1, 0xFFFFFFFF, 0x0, 0x0, 0x0, 0x0⟩ := rfl

theorem busWrite_scratch (s : State) (v : Reg) : s.busWrite 0x00405C v = s.otherWrite.setReg F.HOST.SCRATCH.DATA.addr v := by
  rw [busWrite_eq_regWrite s 0x00405C v rowsHOST rfl (by decide) rfl rfl, State.regWrite, rowOf_scratch]
  exact plainWrite_rw s.otherWrite ⟨_, _, _, _, _, _, _, _⟩ _ v rfl rfl rfl

theorem busWrite_atIdxLo (s : State) (v : Reg) : s.busWrite 0x000050 v = s.otherWrite.setReg F.CHIP.AT_IDX_LO.IDX_LO.addr v := by
  rw [busWrite_eq_regWrite s 0x000050 v rowsCHIP rfl (by decide) rfl rfl, State.regWrite, rowOf_atIdxLo]
  exact plainWrite_rw s.otherWrite ⟨_, _, _, _, _, _, _, _⟩ _ v rfl rfl rfl

/-- The word behind SCRATCH is reserved: a write is ignored (R18). -/
theorem busWrite_afterScratch (s : State) (v : Reg) : s.busWrite 0x004060 v = s.otherWrite :=
  busWrite_eq_regWrite s 0x004060 v rowsHOST rfl (by decide) rfl rfl

/-- An address that names no page is an address error (R446). -/
theorem busWrite_noPage (s : State) (a : Nat) (v : Reg) (hr : (pageRows (pageOf (a / 4 * 4))).isNone = true)
    (hc : isCapwin (pageOf (a / 4 * 4)) = false) : s.busWrite a v = s.otherWrite.addrErr := by
  have hk : a / 4 * 4 ≠ F.RIM.TEST_KEY.KEY.addr := by
    intro h
    rw [h] at hr
    exact absurd hr (by decide)
  simp [State.busWrite, hk, hc, hr]

/-- The pages that in-band access does not reach have registers (R357). -/
theorem pageRows_of_mgmtProtected (a : Nat) (h : mgmtProtected a = true) : (pageRows (pageOf (a / 4 * 4))).isNone = false := by
  have hp : pageOf (a / 4 * 4) = pageOf a := by simp only [pageOf]; omega
  simp only [mgmtProtected, Bool.or_eq_true, Bool.and_eq_true, decide_eq_true_eq] at h
  rcases h with h | ⟨⟨h, -⟩, -⟩
  · rw [hp, h]; rfl
  · rw [hp, h]; rfl

/-! ### The POST register of a context -/

/-- POST lies at byte offset 0x048 of the page of its context (R445, R454). -/
theorem post_page (x : Fin 256) : pageOf (0x100048 + 0x1000 * x.val) = pgCTX x.val := by simp only [pageOf, pgCTX]; omega
theorem post_off (x : Fin 256) : offOf (0x100048 + 0x1000 * x.val) = 0x048 := by simp only [offOf]; omega
theorem post_toNat (x : Fin 256) : (BitVec.ofNat 24 (0x100048 + 0x1000 * x.val)).toNat = 0x100048 + 0x1000 * x.val := by
  rw [BitVec.toNat_ofNat, Nat.mod_eq_of_lt (by omega)]

theorem pageRows_ctx (x : Fin 256) : pageRows (pgCTX x.val) = some rowsCTX := by
  simp only [pageRows, pgCTX, pgCHIP, pgTIME, pgPTP, pgTICK, pgHOST, pgNVM, pgRIM, pgCAL, pgSENT, pgRED, pgTRIG, pgARBMEM, pgARBTX, pgPAIR,
    pgHSR, pgWALE]
  repeat rw [if_neg (by omega)]
  exact if_pos (by omega)

theorem rowOf_post (x : Fin 256) : rowOf (0x100048 + 0x1000 * x.val) = some ⟨0x048, 0x0, 1, 0x0, 0xFFFFF, 0x0, 0x0, 0x0⟩ := by
  rw [rowOf, post_page, pageRows_ctx, post_off]
  rfl

/-- A write of POST goes to its register alone, which holds staged bits (R17). -/
theorem busWrite_post (s : State) (x : Fin 256) (v : Reg) : s.busWrite (0x100048 + 0x1000 * x.val) v
    = s.otherWrite.plainWrite ⟨0x048, 0x0, 1, 0x0, 0xFFFFF, 0x0, 0x0, 0x0⟩ (0x100048 + 0x1000 * x.val) v := by
  have hx := x.isLt
  have hcap : isCapwin (pageOf (0x100048 + 0x1000 * x.val)) = false := by
    rw [post_page]
    simp only [isCapwin, pgCTX, Bool.and_eq_false_iff, decide_eq_false_iff_not]
    omega
  have hrows : pageRows (pageOf (0x100048 + 0x1000 * x.val)) = some rowsCTX := by rw [post_page, pageRows_ctx]
  rw [busWrite_eq_regWrite s _ v rowsCTX (by omega) (by simp; omega) hcap hrows, State.regWrite, rowOf_post]
  simp only [post_page, post_off]
  rw [if_neg (by decide), if_neg (by simp only [pgCTX]; omega), State.writeInst, if_neg (by simp only [pgCTX]; omega)]
  have h1 : isSlicePage (pgCTX x.val) = false := by
    simp only [isSlicePage, pgCTX, Bool.and_eq_false_iff, decide_eq_false_iff_not]; omega
  have h2 : isFirsetPage (pgCTX x.val) = false := by
    simp only [isFirsetPage, pgCTX, Bool.and_eq_false_iff, decide_eq_false_iff_not]; omega
  simp [h1, h2]

/-! ## Errors that the host page notes (R446, R458, R460) -/

/-- A host error is noted: bit `k` of HOST_STS is set, the counter at `n` counts and interrupt bit `b` of the HOST page is raised. -/
def hostNoted (s : State) (k n b : Nat) : State := ((s.setBit ⟨0x004044, k, 1⟩ true).count ⟨n, 0, 32⟩).raiseInt ⟨pgHOST, b⟩

theorem addrErr_eq_hostNoted (s : State) : s.addrErr = hostNoted s 2 0x004058 2 := rfl
theorem lateWord_eq_hostNoted (s : State) :
    s.lateWord = { hostNoted s 1 0x00404C 0 with qspi := { (hostNoted s 1 0x00404C 0).qspi with late := true } } := rfl

section HostNoted

variable (s : State) (k n b : Nat)

theorem hostNoted_bit (hk : k < 32) (hn : n ≠ 0x004044) : (hostNoted s k n b).bit ⟨0x004044, k, 1⟩ = true := by
  rw [hostNoted, raiseInt_bit _ _ _ (show (0x004044 : Nat) ≠ 0x004010 by decide), bit_count_other _ _ _ _ (Or.inl (Ne.symm hn)),
    bit_setBit_same _ _ _ (show k + 1 ≤ 32 from hk) rfl]

theorem hostNoted_count (hn : n ≠ 0x004044) (hn' : n ≠ 0x004010) :
    (hostNoted s k n b).fld ⟨n, 0, 32⟩ = min (2 ^ 32 - 1) (s.fld ⟨n, 0, 32⟩ + 1) := by
  rw [hostNoted, raiseInt_fld _ _ _ hn', fld_count_same _ _ _ (le_refl 32), fld_setBit_other _ _ _ _ (Or.inl hn)]

theorem hostNoted_irq (hb : b < 32) : ((hostNoted s k n b).reg (0x1000 * pgHOST + 0x010)).getLsbD b = true := by
  rw [hostNoted, raiseInt_sets, BitVec.getLsbD_or, BitVec.getLsbD_ofNat, Nat.testBit_two_pow_self]
  simp [hb]

/-- Where the HOST page sends nothing in band, a host error touches its three registers alone and leaves nothing due. -/
theorem hostNoted_mild (hq : s.bit (F.HDR.INT_ROUTE.INBAND pgHOST) = false) (hn : n ≠ 0x004018) :
    Mild [0x004044, n, 0x1000 * pgHOST + 0x010] s (hostNoted s k n b) := by
  have h1 : Mild [0x004044, n, 0x1000 * pgHOST + 0x010] s (s.setBit ⟨0x004044, k, 1⟩ true) := Mild.setBit _ _ _ (by simp)
  have h2 := h1.trans (Mild.count _ ⟨n, 0, 32⟩ 1 (by simp))
  refine h2.trans (Mild.raiseInt _ _ ?_ (by simp))
  rw [h2.bit _ (by simp [pgHOST]; omega), hq]

theorem hostNoted_quiet (hq : s.bit (F.HDR.INT_ROUTE.INBAND pgHOST) = false) (hn : n ≠ 0x004018) (hn' : n ≠ 0x005040) :
    (hostNoted s k n b).quiet = s.quiet :=
  (hostNoted_mild s k n b hq hn).quiet (by simp; omega)

end HostNoted

/-! ## Reads by address (R458, R460) -/

/-- A register of the HOST page without staged bits answers its running value (R17). -/
theorem busRead_host (s : State) (p : Path) (a : Nat) (inc : Bool) (r : RegRow) (hr : rowOf a = some r) (hrws : r.rws = 0)
    (ha : a % 4 = 0) (hp : pageOf a = pgHOST) (ho : 0x040 ≤ offOf a) : s.busRead p a inc = (s.reg a, s) := by
  have haln : a / 4 * 4 = a := by omega
  have hv : s.plainRead r a = s.reg a := by
    rw [State.plainRead, hrws, reg32_zero, BitVec.and_zero, BitVec.or_zero]
    exact and_not_reg32_zero (s.reg a)
  have hnone : s.readBlock p pgHOST (offOf a) = none := rfl
  simp only [State.busRead, haln, hp, hr, hnone, hv, if_neg (Nat.not_lt.2 ho)]
  rfl

/-- Words that are read without effect answer their values in order and leave the state as it was. -/
theorem readMany_values (s : State) (inc : Bool) (l : List (Nat × Bool)) (val : Nat → Reg)
    (h : ∀ e ∈ l, s.readOne inc e.1 e.2 = (val e.1, s)) : s.readMany inc l = (l.map fun e => val e.1, s) := by
  induction l with
  | nil => rfl
  | cons e l ih =>
    have he := h e List.mem_cons_self
    have hl := ih fun e' he' => h e' (List.mem_cons_of_mem _ he')
    simp only [State.readMany, he, hl, List.map_cons]

/-- The words of SCRATCH and of ADDR_ERR_CNT, each ready in time. -/
theorem readOne_host (s : State) (inc : Bool) (a : Nat) (hl : s.qspi.late = false) (ha : a = 0x004058 ∨ a = 0x00405C) :
    s.readOne inc a true = (s.reg a, s) := by
  rw [State.readOne, hl]
  rcases ha with rfl | rfl
  · exact busRead_host s .qspi _ inc _ rowOf_addrErrCnt rfl rfl rfl (by decide)
  · exact busRead_host s .qspi _ inc _ rowOf_scratch rfl rfl rfl (by decide)

/-- A QSPI read of these words answers their values in order (R458). -/
theorem qspiRead_host (s : State) (inc : Bool) (l : List (Nat × Bool)) (hi : s.qspi.ignore = false) (hl : s.qspi.late = false)
    (h : ∀ e ∈ l, (e.1 = 0x004058 ∨ e.1 = 0x00405C) ∧ e.2 = true) :
    s.qspiRead inc l = { s with rdata := l.map fun e => s.reg e.1 } := by
  have hm : s.readMany inc l = (l.map fun e => s.reg e.1, s) := by
    refine readMany_values s inc l s.reg fun e he => ?_
    obtain ⟨ha, hready⟩ := h e he
    rw [hready]
    exact readOne_host s inc e.1 hl ha
  rw [State.qspiRead, hi, hm]
  rfl

/-! ### Late words -/

/-- What a read of one late word leaves: it answers 0 (R458, R460). -/
def lateRead (s : State) : State := { s.lateWord with rdata := [0] }

theorem qspiRead_late (s : State) (inc : Bool) (a : Nat) (ready : Bool) (hi : s.qspi.ignore = false)
    (hl : s.qspi.late = true ∨ ready = false) : s.qspiRead inc [(a, ready)] = lateRead s := by
  have hone : s.readOne inc a ready = (0, s.lateWord) := by
    rw [State.readOne, if_pos (by rcases hl with h | h <;> simp [h])]
  simp only [State.qspiRead, hi, State.readMany, hone]
  rfl

/-- A late word is counted, marked and spoils the rest of the transaction. -/
theorem lateRead_effect (s : State) (hq : s.bit (F.HDR.INT_ROUTE.INBAND pgHOST) = false) :
    (lateRead s).rdata = [0] ∧ (lateRead s).bit F.HOST.HOST_STS.LATE = true ∧ (lateRead s).qspi = { s.qspi with late := true }
    ∧ (lateRead s).fld F.HOST.LATE_CNT.CNT = min (2 ^ F.HOST.LATE_CNT.CNT.width - 1) (s.fld F.HOST.LATE_CNT.CNT + 1)
    ∧ ((lateRead s).reg (0x1000 * pgHOST + 0x010)).getLsbD Irq.late.bit = true
    ∧ s.regsBut (lateRead s) [F.HOST.HOST_STS.LATE.addr, F.HOST.LATE_CNT.CNT.addr, 0x1000 * pgHOST + 0x010] := by
  have hqspi : (hostNoted s 1 0x00404C 0).qspi = s.qspi := raiseInt_qspi _ _
  refine ⟨rfl, hostNoted_bit s 1 0x00404C 0 (by decide) (by decide), ?_, hostNoted_count s 1 0x00404C 0 (by decide) (by decide),
    hostNoted_irq s 1 0x00404C 0 (by decide), (hostNoted_mild s 1 0x00404C 0 hq (by decide)).regs⟩
  show { (hostNoted s 1 0x00404C 0).qspi with late := true } = _
  rw [hqspi]

/-- A command that reads one late word completes there. -/
theorem act_lateRead {f : State → State} {s : State} (hs : s.quiet = true) (hq : s.bit (F.HDR.INT_ROUTE.INBAND pgHOST) = false)
    (hf : f s = lateRead s) : act f s = .next (lateRead s) :=
  act_eq hs hf (hostNoted_quiet s 1 0x00404C 0 hq (by decide) (by decide)) (hostNoted_mild s 1 0x00404C 0 hq (by decide)).pending

/-! ## The commands of the host interface on a quiet state -/

section HostCommands

variable {s : State} (hs : s.quiet = true)

theorem exec_read (a : BitVec 24) (l : List Bool) : exec (.read a l) s = act (·.qspiRead true (incAddrs a.toNat l)) s := rfl
theorem exec_qread (a : BitVec 24) (l : List Bool) : exec (.qread a l) s = act (·.qspiRead true (incAddrs a.toNat l)) s := rfl
theorem exec_qreadPair (a : BitVec 24) (l : List Bool) :
    exec (.qreadPair a l) s = act (·.qspiRead false (pairAddrs a.toNat l)) s := rfl
theorem exec_write (a : BitVec 24) (l : List Reg) : exec (.write a l) s = act (·.qspiWrite a.toNat l) s := rfl
theorem exec_qwrite (a : BitVec 24) (l : List Reg) : exec (.qwrite a l) s = act (·.qspiWrite a.toNat l) s := rfl
theorem exec_status (n : Nat) : exec (.status n) s = act (·.status n) s := rfl
theorem exec_badOp : exec .badOp s = act State.badOp s := rfl
theorem exec_qspiTransactionEnd (part : Bool) : exec (.qspiTransactionEnd part) s = act (·.qspiEnd part) s := rfl
theorem exec_wloRead (p : Path) (w : BitVec 17) (r : Bool) : exec (.wloRead p w r) s = act (·.wloRead p w.toNat r) s := rfl
theorem exec_whiRead (p : Path) (w : BitVec 17) : exec (.whiRead p w) s = act (·.whiRead p w.toNat) s := rfl
theorem exec_registerWrite (p : Path) (a : BitVec 24) (v : Reg) : exec (.registerWrite p a v) s
    = act (fun s => if p = .inband ∧ mgmtProtected a.toNat = true then s else s.busWrite a.toNat v) s := rfl

theorem qspiRead_ignored (inc : Bool) (l : List (Nat × Bool)) (h : s.qspi.ignore = true) : s.qspiRead inc l = s := if_pos h
theorem qspiWrite_ignored (a : Nat) (l : List Reg) (h : s.qspi.ignore = true) : s.qspiWrite a l = s := if_pos h
theorem status_ignored (n : Nat) (h : s.qspi.ignore = true) : s.status n = s := if_pos h
theorem badOp_ignored (h : s.qspi.ignore = true) : s.badOp = s := if_pos h

theorem qspiEnd_whole (part : Bool) (h : s.qspi.ignore = true ∨ part = false) :
    s.qspiEnd part = { s with qspi := { s.qspi with ignore := false, late := false } } := by
  have hw : (part && !s.qspi.ignore) = false := by rcases h with h | h <;> simp [h]
  simp [State.qspiEnd, State.when, hw]

theorem writeMany_one (a : Nat) (v : Reg) : s.writeMany a [v] = s.busWrite a v := rfl
theorem writeMany_two (a : Nat) (v x : Reg) : s.writeMany a [v, x] = (s.busWrite a v).busWrite ((a + 4) % 2 ^ 24) x := rfl

theorem qspiWrite_scratch (v : Reg) (h : s.qspi.ignore = false) :
    s.qspiWrite 0x00405C [v] = s.otherWrite.setReg F.HOST.SCRATCH.DATA.addr v := by
  rw [State.qspiWrite, if_neg (by simp [h]), writeMany_one, busWrite_scratch]

/-- A burst that begins at SCRATCH writes it; the word behind it is reserved. -/
theorem qspiWrite_scratch_pair (v x : Reg) (h : s.qspi.ignore = false) :
    s.qspiWrite 0x00405C [v, x] = s.otherWrite.setReg F.HOST.SCRATCH.DATA.addr v := by
  rw [State.qspiWrite, if_neg (by simp [h]), writeMany_two, show (0x00405C + 4) % 2 ^ 24 = 0x004060 from rfl, busWrite_afterScratch,
    busWrite_scratch]
  rfl

include hs

/-- In-band access does not reach a protected register (R357, R359). -/
theorem registerWrite_protected (a : BitVec 24) (v : Reg) (h : mgmtProtected a.toNat = true) :
    exec (.registerWrite .inband a v) s = .next s := by
  rw [exec_registerWrite]
  exact act_idle hs (if_pos ⟨rfl, h⟩)

/-- A write that the access path reaches does what a write by address does. -/
theorem registerWrite_next (p : Path) (a : BitVec 24) (v : Reg) {t : State} (hacc : p = .inband → mgmtProtected a.toNat = false)
    (hw : s.busWrite a.toNat v = t) (hq : t.quiet = s.quiet) (hp : t.pending = s.pending) :
    exec (.registerWrite p a v) s = .next t := by
  rw [exec_registerWrite]
  refine act_eq hs ((if_neg ?_).trans hw) hq hp
  rintro ⟨hpath, hprot⟩
  exact absurd hprot (by simp [hacc hpath])

theorem registerWrite_scratch (v : Reg) :
    exec (.registerWrite .qspi 0x00405C v) s = .next (s.otherWrite.setReg F.HOST.SCRATCH.DATA.addr v) :=
  registerWrite_next hs .qspi 0x00405C v nofun (busWrite_scratch s v) (quiet_setReg _ _ _ (by decide)) rfl

theorem registerWrite_atIdxLo (p : Path) (v : Reg) : exec (.registerWrite p (BitVec.ofNat 24 F.CHIP.AT_IDX_LO.IDX_LO.addr) v) s
    = .next (s.otherWrite.setReg F.CHIP.AT_IDX_LO.IDX_LO.addr v) :=
  registerWrite_next hs p _ v (fun _ => rfl) (busWrite_atIdxLo s v) (quiet_setReg _ _ _ (by decide)) rfl

/-- A context page is open to in-band access, so that both paths write POST alike (R357, R447). -/
theorem registerWrite_post (p : Path) (x : Fin 256) (v : Reg) {t : State} (hw : s.busWrite (0x100048 + 0x1000 * x.val) v = t)
    (hq : t.quiet = s.quiet) (hp : t.pending = s.pending) :
    exec (.registerWrite p (BitVec.ofNat 24 (0x100048 + 0x1000 * x.val)) v) s = .next t := by
  have hopen : mgmtProtected (0x100048 + 0x1000 * x.val) = false := by
    simp only [mgmtProtected, post_page, pgCTX, pgHOST, pgHSR, Bool.or_eq_false_iff, Bool.and_eq_false_iff, decide_eq_false_iff_not]
    omega
  refine registerWrite_next hs p _ v ?_ ?_ hq hp
  · rw [post_toNat]; exact fun _ => hopen
  · rw [post_toNat]; exact hw

/-- With no commit waiting a write of POST stages its bits and leaves its running value (R17). -/
theorem registerWrite_post_staged (p : Path) (x : Fin 256) (v : Reg) (h : s.commitOf (pgCTX x.val) = none) :
    ∃ t, exec (.registerWrite p (BitVec.ofNat 24 (0x100048 + 0x1000 * x.val)) v) s = .next t
      ∧ t.stg (F.CTX.POST.POST x.val).addr = (s.stg (F.CTX.POST.POST x.val).addr &&& ~~~0xFFFFF#32) ||| (v &&& 0xFFFFF#32)
      ∧ (∀ a, t.reg a = s.reg a) ∧ t.commits = s.commits ∧ t.ctx = s.ctx := by
  have hw : s.busWrite (0x100048 + 0x1000 * x.val) v
      = (s.otherWrite.setReg (0x100048 + 0x1000 * x.val) (s.otherWrite.reg (0x100048 + 0x1000 * x.val))).setStg
        (0x100048 + 0x1000 * x.val)
        ((s.stg (0x100048 + 0x1000 * x.val) &&& ~~~ 0xFFFFF#32) ||| (v &&& 0xFFFFF#32)) := by
    have hc : s.otherWrite.commitOf (pgCTX x.val) = none := h
    rw [busWrite_post, plainWrite_rws _ _ _ _ rfl (by simp) rfl, post_page, hc]
    rfl
  refine ⟨_, registerWrite_post hs p x v hw (quiet_setReg s.otherWrite _ _ (by omega)) rfl, stg_setStg_same _ _ _, fun a => ?_, rfl, rfl⟩
  exact reg_setReg_self s.otherWrite _ a

/-- While a commit of its page waits, a write of POST sets WR_IGNORED alone (R450). -/
theorem registerWrite_post_ignored (p : Path) (x : Fin 256) (v : Reg) (h : (s.commitOf (pgCTX x.val)).isSome = true) :
    ∃ t, exec (.registerWrite p (BitVec.ofNat 24 (0x100048 + 0x1000 * x.val)) v) s = .next t
      ∧ t.stg (F.CTX.POST.POST x.val).addr = s.stg (F.CTX.POST.POST x.val).addr
      ∧ t.bit (F.HDR.STAGE_CTL.WR_IGNORED (pgCTX x.val)) = true
      ∧ s.regsBut t [(F.HDR.STAGE_CTL.WR_IGNORED (pgCTX x.val)).addr] ∧ t.staged = s.staged := by
  have hw : s.busWrite (0x100048 + 0x1000 * x.val) v
      = (s.otherWrite.setReg (0x100048 + 0x1000 * x.val) (s.otherWrite.reg (0x100048 + 0x1000 * x.val))).setBit
        (F.HDR.STAGE_CTL.WR_IGNORED (pgCTX x.val)) true := by
    have hc : (s.otherWrite.commitOf (pgCTX x.val)).isSome = true := h
    rw [busWrite_post, plainWrite_rws _ _ _ _ rfl (by simp) rfl, post_page, if_pos hc]
  have hq : ∀ t : State, (t.setBit (F.HDR.STAGE_CTL.WR_IGNORED (pgCTX x.val)) true).quiet = t.quiet :=
    fun t => quiet_setBit t _ _ (by simp only [pgCTX]; omega)
  refine ⟨_, registerWrite_post hs p x v hw ((hq _).trans (quiet_setReg s.otherWrite _ _ (by omega))) rfl, rfl,
    bit_setBit_same _ _ _ (show 28 + 1 ≤ 32 by decide) rfl, fun a ha => ?_, rfl⟩
  rw [reg_setBit_ne _ _ _ _ (by simpa using ha)]
  exact reg_setReg_self s.otherWrite _ a

/-- A write of an address that names no page is an address error, on either path (R446). -/
theorem registerWrite_noPage (hb : s.bit (F.HDR.INT_ROUTE.INBAND pgHOST) = false) (p : Path) (a : BitVec 24) (v : Reg)
    (hr : (pageRows (pageOf (a.toNat / 4 * 4))).isNone = true) (hc : isCapwin (pageOf (a.toNat / 4 * 4)) = false) :
    exec (.registerWrite p a v) s = .next (hostNoted s.otherWrite 2 0x004058 2) := by
  have hopen : mgmtProtected a.toNat = false := by
    by_contra h
    exact absurd hr (by simp [pageRows_of_mgmtProtected _ (Bool.not_eq_false _ ▸ h)])
  exact registerWrite_next hs p a v (fun _ => hopen) (busWrite_noPage s a.toNat v hr hc)
    (hostNoted_quiet s.otherWrite 2 0x004058 2 hb (by decide) (by decide)) (hostNoted_mild s.otherWrite 2 0x004058 2 hb (by decide)).pending

/-- Words that are ready are read without effect, whatever the burst. -/
theorem act_qspiRead_host (inc : Bool) (l : List (Nat × Bool)) (hi : s.qspi.ignore = false) (hl : s.qspi.late = false)
    (h : ∀ e ∈ l, (e.1 = 0x004058 ∨ e.1 = 0x00405C) ∧ e.2 = true) :
    act (·.qspiRead inc l) s = .next { s with rdata := l.map fun e => s.reg e.1 } :=
  act_eq hs (qspiRead_host s inc l hi hl h) rfl rfl

end HostCommands

/-- Settles O55: each clause is the law of its command above; late words and address errors are host errors that are noted. -/
theorem registersAreWrittenAndReadByAddress : Obligations.RegistersAreWrittenAndReadByAddress := by
  unfold Obligations.RegistersAreWrittenAndReadByAddress
  intro s hs hb
  obtain ⟨hdata, hlate, hqspi, hcnt, hirq, hregs⟩ := lateRead_effect s hb
  have hread : ∀ (inc : Bool) (a : Nat) (r : Bool), s.qspi.ignore = false → (s.qspi.late = true ∨ r = false) →
      act (·.qspiRead inc [(a, r)]) s = .next (lateRead s) :=
    fun inc a r hi hl => act_lateRead hs hb (qspiRead_late s inc a r hi hl)
  refine ⟨registerWrite_scratch hs, registerWrite_atIdxLo hs, registerWrite_protected hs, ?_, ?_, ?_, ?_, ?_, ?_, ?_, ?_, ?_, ?_, ?_, ?_, ?_,
    ?_, registerWrite_post_ignored hs, ?_, ?_, ?_, ?_, ?_, ?_⟩
  · exact fun a l h => (exec_write a l).trans (act_idle hs (qspiWrite_ignored _ l h))
  · exact fun a l h => (exec_qwrite a l).trans (act_idle hs (qspiWrite_ignored _ l h))
  · exact fun a l h => (exec_read a l).trans (act_idle hs (qspiRead_ignored _ _ h))
  · exact fun a l h => (exec_qread a l).trans (act_idle hs (qspiRead_ignored _ _ h))
  · exact fun a l h => (exec_qreadPair a l).trans (act_idle hs (qspiRead_ignored _ _ h))
  · exact fun n h => (exec_status n).trans (act_idle hs (status_ignored n h))
  · exact fun h => exec_badOp.trans (act_idle hs (badOp_ignored h))
  · exact fun part h => (exec_qspiTransactionEnd part).trans (act_eq hs (qspiEnd_whole part h) rfl rfl)
  · exact fun r hi hl => ⟨_, (exec_read _ _).trans (hread true _ r hi (.inl hl)), hdata, hcnt, hirq⟩
  · intro w r hl
    exact ⟨_, (exec_wloRead _ w r).trans (act_lateRead hs hb (if_pos ⟨rfl, hl⟩)), hdata, hlate, hqspi, hcnt, hirq⟩
  · intro w hl
    exact ⟨_, (exec_whiRead _ w).trans (act_lateRead hs hb (if_pos ⟨rfl, hl⟩)), hdata, hlate, hcnt, hirq⟩
  · exact fun v hi => (exec_write _ _).trans (act_eq hs (qspiWrite_scratch v hi) (quiet_setReg _ _ _ (by decide)) rfl)
  · exact fun v x hi => (exec_qwrite _ _).trans (act_eq hs (qspiWrite_scratch_pair v x hi) (quiet_setReg _ _ _ (by decide)) rfl)
  · intro p x v h
    obtain ⟨t, ht, hstg, hreg, hcommits, hctx⟩ := registerWrite_post_staged hs p x v h
    exact ⟨t, ht, hstg, fun a => hreg a.val, congrArg (fun r => getBits r _ _) (hreg _), hcommits, hctx⟩
  · intro p a v hr hc
    exact ⟨_, registerWrite_noPage hs hb p a v hr hc, hostNoted_bit s.otherWrite 2 0x004058 2 (by decide) (by decide),
      hostNoted_count s.otherWrite 2 0x004058 2 (by decide) (by decide), hostNoted_irq s.otherWrite 2 0x004058 2 (by decide),
      (hostNoted_mild s.otherWrite 2 0x004058 2 hb (by decide)).regs⟩
  · exact fun hi hl => (exec_read _ _).trans (act_qspiRead_host hs true [(0x00405C, true)] hi hl (by simp))
  · exact fun hi _ => ⟨_, (exec_read _ _).trans (hread true _ false hi (.inr rfl)), hdata, hlate, hqspi, hcnt, hirq, hregs⟩
  · exact fun hi hl => (exec_qread _ _).trans (act_qspiRead_host hs true [(0x004058, true), (0x00405C, true)] hi hl (by simp))
  · exact fun hi hl => (exec_qreadPair _ _).trans
      (act_qspiRead_host hs false [(0x004058, true), (0x00405C, true), (0x004058, true)] hi hl (by simp))
  · exact fun n hi => (exec_status n).trans (act_eq hs (if_neg (by simp [hi])) rfl rfl)

end Sys2Proof.ScopeProofs

/-!
The family of the time base and network time: reads of hub time (R78), the servo (R55 to R65), PTP (R67 to R75, R81, R82), PPS (R76,
R77) and second boundaries (R53).
-/

namespace Sys2Proof.TimeProofs

open Sys2Proof Sys2Proof.Machine Sys2Proof.Laws Sys2Proof.ScopeProofs

/-! ## Reads of hub time and of the PPS_IN stamp (R78, R513) -/

theorem exec_nowNsRead (s : State) (p : Path) : exec (.nowNsRead p) s = act (fun s => State.answer (s.readNowNs p)) s := rfl
theorem exec_nowSecHiRead (s : State) (p : Path) : exec (.nowSecHiRead p) s = act (fun s => State.answer (s.readNowSecHi p)) s := rfl
theorem exec_ppsInNsRead (s : State) (p : Path) : exec (.ppsInNsRead p) s = act (fun s => State.answer (s.readPpsNs p)) s := rfl
theorem exec_ppsInSecHiRead (s : State) (p : Path) : exec (.ppsInSecHiRead p) s = act (fun s => State.answer (s.readPpsSecHi p)) s := rfl
theorem exec_lastOffsetLoRead (s : State) (p : Path) : exec (.lastOffsetLoRead p) s = act (fun s => State.answer (s.readLastOffsetLo p)) s := rfl
theorem exec_pendingOffsetLoRead (s : State) (p : Path) : exec (.pendingOffsetLoRead p) s = act (fun s => State.answer (s.readPendOffsetLo p)) s := rfl

section Reads

variable {s : State} (hs : s.quiet = true) (p : Path)
include hs

theorem nowNsRead_next : exec (.nowNsRead p) s
    = .next { s.modLatches p (fun l => { l with now := some (s.time.sec % 2 ^ 32, s.time.sec / 2 ^ 32) }) with
        rdata := [BitVec.ofNat 32 s.time.ns] } :=
  (exec_nowNsRead s p).trans <| act_answer s (·.readNowNs p) _ _ rfl hs (quiet_modLatches _ _ _) (modLatches_pending _ _ _)

theorem nowSecHiRead_latched (lo hi : Nat) (h : (s.latches p).now = some (lo, hi)) : exec (.nowSecHiRead p) s
    = .next { s.modLatches p (fun l => { l with now := none }) with rdata := [BitVec.ofNat 32 (hi % 2 ^ 16)] } := by
  have e : s.readNowSecHi p = (BitVec.ofNat 32 (hi % 2 ^ 16), s.modLatches p fun l => { l with now := none }) := by
    simp only [State.readNowSecHi, h]
  exact (exec_nowSecHiRead s p).trans (act_answer s (·.readNowSecHi p) _ _ e hs (quiet_modLatches _ _ _) (modLatches_pending _ _ _))

theorem nowSecHiRead_live (h : (s.latches p).now = none) : exec (.nowSecHiRead p) s
    = .next { s with rdata := [BitVec.ofNat 32 (2 ^ 31 + s.time.sec / 2 ^ 32 % 2 ^ 16)] } := by
  have e : s.readNowSecHi p = (BitVec.ofNat 32 (2 ^ 31 + s.time.sec / 2 ^ 32 % 2 ^ 16), s) := by
    simp only [State.readNowSecHi, h]
  exact (exec_nowSecHiRead s p).trans (act_answer s (·.readNowSecHi p) _ _ e hs rfl rfl)

theorem ppsInNsRead_next : exec (.ppsInNsRead p) s
    = .next { (s.readPpsNs p).2 with rdata := [s.reg F.TIME.PPS_IN_NS.NS.addr] } :=
  (exec_ppsInNsRead s p).trans <| act_answer s (·.readPpsNs p) _ _ rfl hs (by simp [State.readPpsNs]) (by simp [State.readPpsNs])

theorem ppsInSecHiRead_latched (lo hi : Nat) (h : (s.latches p).pps = some (lo, hi)) : exec (.ppsInSecHiRead p) s
    = .next { s.modLatches p (fun l => { l with pps := none }) with rdata := [BitVec.ofNat 32 hi] } := by
  have e : s.readPpsSecHi p = (BitVec.ofNat 32 hi, s.modLatches p fun l => { l with pps := none }) := by
    simp only [State.readPpsSecHi, h]
  exact (exec_ppsInSecHiRead s p).trans (act_answer s (·.readPpsSecHi p) _ _ e hs (quiet_modLatches _ _ _) (modLatches_pending _ _ _))

theorem ppsInSecHiRead_live (h : (s.latches p).pps = none) : exec (.ppsInSecHiRead p) s
    = .next { s with rdata := [s.reg F.TIME.PPS_IN_SEC_HI.SEC_HI.addr ||| 0x80000000#32] } := by
  have e : s.readPpsSecHi p = (s.reg F.TIME.PPS_IN_SEC_HI.SEC_HI.addr ||| 0x80000000#32, s) := by
    simp only [State.readPpsSecHi, h]
  exact (exec_ppsInSecHiRead s p).trans (act_answer s (·.readPpsSecHi p) _ _ e hs rfl rfl)

theorem lastOffsetLoRead_next : exec (.lastOffsetLoRead p) s
    = .next { s.modLatches p (fun l => { l with lastOffset := some (s.reg F.TIME.LAST_OFFSET_HI.LAST_HI.addr) }) with
        rdata := [s.reg F.TIME.LAST_OFFSET_LO.LAST_LO.addr] } :=
  (exec_lastOffsetLoRead s p).trans <| act_answer s (·.readLastOffsetLo p) _ _ rfl hs (quiet_modLatches _ _ _) (modLatches_pending _ _ _)

theorem pendingOffsetLoRead_next : exec (.pendingOffsetLoRead p) s
    = .next { s.modLatches p (fun l => { l with pendOffset := some (s.reg F.TIME.PENDING_OFFSET_HI.PEND_HI.addr) }) with
        rdata := [s.reg F.TIME.PENDING_OFFSET_LO.PEND_LO.addr] } :=
  (exec_pendingOffsetLoRead s p).trans <| act_answer s (·.readPendOffsetLo p) _ _ rfl hs (quiet_modLatches _ _ _) (modLatches_pending _ _ _)

end Reads

/-- Settles O5: each clause is the law of its read above; the read of PPS_IN_NS latches the two seconds registers and notes the stamp
as read. -/
theorem timeReadsAnswerAndLatch : Obligations.TimeReadsAnswerAndLatch := by
  unfold Obligations.TimeReadsAnswerAndLatch
  intro p s hs
  refine ⟨nowNsRead_next hs p, nowSecHiRead_latched hs p, nowSecHiRead_live hs p, ⟨_, ppsInNsRead_next hs p, rfl, ?_⟩,
    ppsInSecHiRead_latched hs p, ppsInSecHiRead_live hs p, lastOffsetLoRead_next hs p, pendingOffsetLoRead_next hs p⟩
  cases p <;> exact ⟨rfl, rfl, rfl⟩

/-! ## Time runs on (R49, R50) -/

/-- An instant of hub time has a seconds count of 48 bits (R49). -/
theorem htNs_timeOfNs_lt (n : Nat) : htNs (timeOfNs n) < 2 ^ 48 * nsPerSec := by
  simp only [htNs, timeOfNs, nsPerSec]
  omega

/-- Hub time that has run, be it by no cycle, lies below 2^48 s: the seconds count has wrapped where it reached that (R49). -/
theorem runCycles_nowNs_lt (s : State) (n : Nat) : (s.runCycles n).nowNs < 2 ^ 48 * nsPerSec := htNs_timeOfNs_lt _

theorem nowNs_congr {s t : State} (h : t.time.sec = s.time.sec) (h' : t.time.ns = s.time.ns) : t.nowNs = s.nowNs := by
  rw [State.nowNs, h, h', State.nowNs]

theorem reachNs_nowNs_lt (s : State) (n : Nat) : (s.reachNs n).nowNs < 2 ^ 48 * nsPerSec := runCycles_nowNs_lt s _

/-- A command that acts through `f` on a quiet state answers nothing but `f s`, where that is quiet and keeps the queue of commands. -/
theorem next_unique {f : State → State} {s t : State} (hs : s.quiet = true) (hq : (f s).quiet = s.quiet)
    (hp : (f s).pending = s.pending) (h : act f s = .next t) : t = f s := by
  rw [act_quiet f s hs (hq.trans hs) hp] at h
  exact (Host.Outcome.next.inj h).symm

/-! ## PPS_OUT at the last second boundary (R49, R76) -/

/-- The instant of the next pulse (R76). -/
def ppsInstant (s : State) : Nat := (((s.ppsNext * nsPerSec : Nat) : Int) + s.ppsOffset).toNat

/-- Whether or not a pulse is given, hub time runs on to its instant, and beside it only the record of the pulses changes. -/
theorem ppsPulse_cases (s : State) : ∃ (x y : TimeBase) (p : Pins), s.reachNs (ppsInstant s) = { s with time := x }
    ∧ s.ppsPulse = { s with time := y, pins := p } ∧ y.sec = x.sec ∧ y.ns = x.ns := by
  have h : ∀ (u : State) (f g : TimeBase → TimeBase) (k : Pins → Pins) (c : Bool), u = { s with time := u.time } →
      (∀ v, (f v).sec = v.sec ∧ (f v).ns = v.ns ∧ (g v).sec = v.sec ∧ (g v).ns = v.ns) →
      ∃ (y : TimeBase) (p : Pins), (if c then (u.modTime f).modPins k else u.modTime g) = { s with time := y, pins := p }
        ∧ y.sec = u.time.sec ∧ y.ns = u.time.ns := by
    intro u f g k c hu hfg
    obtain ⟨hf, hf', hg, hg'⟩ := hfg u.time
    rw [hu]
    cases c
    · exact ⟨_, _, rfl, hg, hg'⟩
    · exact ⟨_, _, rfl, hf, hf'⟩
  obtain ⟨y, p, hpulse, hsec, hns⟩ := h (s.reachNs (ppsInstant s)) (fun t => { t with pulsed := some s.ppsNext })
    (fun t => { t with ppsSeen := s.ppsNext + 1 }) _ _ (reachNs_only s _) fun _ => ⟨rfl, rfl, rfl, rfl⟩
  exact ⟨_, y, p, reachNs_only s _, hpulse, hsec, hns⟩

theorem ppsPulse_nowNs (s : State) : s.ppsPulse.nowNs = (s.reachNs (ppsInstant s)).nowNs := by
  obtain ⟨x, y, p, hrun, hp, hsec, hns⟩ := ppsPulse_cases s
  rw [hp, hrun]
  exact nowNs_congr hsec hns

theorem ppsPulse_next (s : State) (hs : s.quiet = true) {t : State} (h : exec .ppsOutPulse s = .next t) : t = s.ppsPulse := by
  obtain ⟨x, y, p, -, hp, -⟩ := ppsPulse_cases s
  exact next_unique (f := State.ppsPulse) hs (by rw [hp]; rfl) (by rw [hp]) h

/-- The last even nanosecond that the seconds count of 48 bits can show, with PPS_OUT enabled and no gate. -/
def lastNs : State :=
  (({ time := { sec := 2 ^ 48 - 1, ns := 999999998 } } : State).setBit F.TIME.PPS_OUT_CTL.EN true).setBit F.TIME.PPS_OUT_CTL.GATE false

/-- Refutes O13: at `lastNs` the next pulse is that of boundary 2^48, which the 48 bits of the seconds count do not hold (R49). The
pulse is given as hub time wraps to 0, so that hub time after it is not at or behind that boundary. -/
theorem not_ppsPulsesAndStamps : ¬ Obligations.PpsPulsesAndStamps := by
  unfold Obligations.PpsPulsesAndStamps
  intro h
  have hs : lastNs.quiet = true := by decide +kernel
  have hin : lastNs.bit (F.HDR.INT_ROUTE.INBAND pgTIME) = false := by decide +kernel
  have hen : lastNs.bit F.TIME.PPS_OUT_CTL.EN = true := by decide +kernel
  have hgate : lastNs.bit F.TIME.PPS_OUT_CTL.GATE = false := by decide +kernel
  obtain ⟨hpulse, -⟩ := h lastNs hs hin
  obtain ⟨t, ht, -, -, -, hreached, -⟩ := hpulse hen (Or.inl hgate)
  have hgoal : ((lastNs.ppsNext * nsPerSec : Nat) : Int) + lastNs.ppsOffset = ((2 ^ 48 * nsPerSec : Nat) : Int) := by decide +kernel
  have hlt : t.nowNs < 2 ^ 48 * nsPerSec := by
    rw [ppsPulse_next lastNs hs ht, ppsPulse_nowNs]
    exact reachNs_nowNs_lt lastNs _
  rw [hgoal] at hreached
  omega

/-! ## The second boundary that the seconds count cannot show (R49, R53) -/

theorem lastNs_secondBoundary_quiet : lastNs.secondBoundary.quiet = true := by decide +kernel
theorem lastNs_secondBoundary_pending : lastNs.secondBoundary.pending = lastNs.pending := by decide +kernel

/-- At the boundary behind `lastNs` hub time wraps to 0. -/
theorem lastNs_secondBoundary_nowNs : lastNs.secondBoundary.nowNs = 0 := by decide +kernel

/-- Refutes O15: the boundary behind `lastNs` is 2^48, which the 48 bits of the seconds count do not hold (R49). SECOND_BOUNDARY runs
hub time on to it, and hub time wraps to 0, where the statement has it at or behind that boundary. -/
theorem not_secondsAndStepsOfHubTime : ¬ Obligations.SecondsAndStepsOfHubTime := by
  unfold Obligations.SecondsAndStepsOfHubTime
  intro h
  have hs : lastNs.quiet = true := by decide +kernel
  obtain ⟨hboundary, -⟩ := h lastNs hs (by decide +kernel) (by decide +kernel) (by decide +kernel) (by decide +kernel) (by decide +kernel)
  obtain ⟨t, ht, -, -, hreached, -⟩ :=
    hboundary (by decide +kernel) (by decide +kernel) (by decide +kernel) (by decide +kernel) (by decide +kernel)
  have hnext : lastNs.nextSecond = 2 ^ 48 := by decide +kernel
  have hnow : t.nowNs = 0 := by
    rw [next_unique (f := State.secondBoundary) hs (lastNs_secondBoundary_quiet.trans hs.symm) lastNs_secondBoundary_pending ht,
      lastNs_secondBoundary_nowNs]
  rw [hnext, hnow] at hreached
  exact absurd hreached (by decide)

/-! ## What moves the servo (R55 to R64) -/

/-- From `s` to `t` the servo has moved: registers of the list, the servo's record, the log, records on the pairing link and free values
may have changed, and nothing has fallen due. -/
structure Moved (l : List Nat) (s t : State) : Prop where
  only : t = { s with regs := t.regs, servo := t.servo, rim := t.rim, pair := t.pair, free := t.free }
  regs : s.regsBut t l
  fatalDue : t.rim.fatalDue = s.rim.fatalDue
  due : t.rim.due = s.rim.due

namespace Moved

variable {l l' : List Nat} {s t u : State}

theorem refl (l : List Nat) (s : State) : Moved l s s := ⟨rfl, fun _ _ => rfl, rfl, rfl⟩

theorem trans (h : Moved l s t) (h' : Moved l t u) : Moved l s u := by
  refine ⟨?_, fun a ha => (h'.regs a ha).trans (h.regs a ha), h'.fatalDue.trans h.fatalDue, h'.due.trans h.due⟩
  rw [h'.only, h.only]

theorem mono (h : Moved l s t) (hl : ∀ a ∈ l, a ∈ l') : Moved l' s t :=
  ⟨h.only, fun a ha => h.regs a fun ha' => ha (hl a ha'), h.fatalDue, h.due⟩

theorem of_mild (h : Mild l s t) : Moved l s t := by
  refine ⟨?_, h.regs, h.fatalDue, h.due⟩
  have ho : t = { s with regs := t.regs, rim := t.rim } := h.only
  rw [ho]

theorem setReg (s : State) (a : Nat) (v : Reg) (h : a ∈ l) : Moved l s (s.setReg a v) := of_mild (Mild.setReg s a v h)
theorem setFld (s : State) (f : Fld) (x : Nat) (h : f.addr ∈ l) : Moved l s (s.setFld f x) := setReg s _ _ h
theorem setBit (s : State) (f : Fld) (b : Bool) (h : f.addr ∈ l) : Moved l s (s.setBit f b) := setReg s _ _ h
theorem setSfld (s : State) (f : Fld) (x : Int) (h : f.addr ∈ l) : Moved l s (s.setSfld f x) := setReg s _ _ h
theorem setFld64 (s : State) (f g : Fld) (x : Nat) (h : f.addr ∈ l) (h' : g.addr ∈ l) : Moved l s (s.setFld64 f g x) :=
  (setFld s f _ h).trans (setFld _ g _ h')
theorem modServo (s : State) (f : Servo → Servo) : Moved l s (s.modServo f) := ⟨rfl, fun _ _ => rfl, rfl, rfl⟩
theorem otherWrite (s : State) : Moved l s s.otherWrite := ⟨rfl, fun _ _ => rfl, rfl, rfl⟩
theorem raiseInt (s : State) (i : IntBit) (hb : s.bit (F.HDR.INT_ROUTE.INBAND i.page) = false) (h : 0x1000 * i.page + 0x010 ∈ l) :
    Moved l s (s.raiseInt i) := of_mild (Mild.raiseInt s i hb h)

theorem linkSend (s : State) (r : LinkRec) : Moved l s (s.linkSend r) := by
  rw [linkSend_only]; exact ⟨rfl, fun _ _ => rfl, rfl, rfl⟩

theorem roundFree (s : State) (n : Int) (d : Nat) : Moved l s (s.roundFree n d).2 := by
  rw [roundFree_only]; exact ⟨rfl, fun _ _ => rfl, rfl, rfl⟩

/-- A part of a command that is done under a condition. -/
theorem when (s : State) (b : Bool) (f : State → State) (h : ∀ u, Moved l u (f u)) : Moved l s (s.when b f) := by
  cases b
  · exact refl l s
  · exact h s

theorem fld (h : Moved l s t) (f : Fld) (hf : f.addr ∉ l) : t.fld f = s.fld f := congrArg (fun r => getBits r _ _) (h.regs _ hf)
theorem bit (h : Moved l s t) (f : Fld) (hf : f.addr ∉ l) : t.bit f = s.bit f := by rw [State.bit, h.fld f hf, State.bit]
theorem sfld (h : Moved l s t) (f : Fld) (hf : f.addr ∉ l) : t.sfld f = s.sfld f := by rw [State.sfld, h.fld f hf, State.sfld]
theorem time (h : Moved l s t) : t.time = s.time := by rw [h.only]
theorem ptp (h : Moved l s t) : t.ptp = s.ptp := by rw [h.only]
theorem pending (h : Moved l s t) : t.pending = s.pending := by rw [h.only]
theorem nowNs (h : Moved l s t) : t.nowNs = s.nowNs := by rw [State.nowNs, h.time, State.nowNs]

theorem quiet (h : Moved l s t) (hl : 0x005040 ∉ l) : t.quiet = s.quiet := by
  apply quiet_congr
  · rw [h.only]
  · rw [h.only]
  · rw [h.only]
  · rw [h.only]
  · exact h.fatalDue
  · exact h.due
  · exact h.fld F.NVM.BOOT_STS.STEP hl

end Moved

/-- A command that moves the servo of a quiet state ends in what it leaves. -/
theorem act_moved {f : State → State} {l : List Nat} {s : State} (hs : s.quiet = true) (h : Moved l s (f s)) (hl : 0x005040 ∉ l) :
    act f s = .next (f s) := act_eq hs rfl (h.quiet hl) h.pending

/-! ### Entering a state (R64) -/

/-- What the servo keeps of its record as it enters state `st` at `cycles` (R56, R60, R61, R64, R79). -/
def enterRec (old st cycles : Nat) (v : Servo) : Servo :=
  { v with
    prev := if st = svFree ∨ st = svPending ∨ st = svHoldover ∨ st = svStopped ∨ old = svPending ∨ old = svHoldover then none else v.prev
    inRun := 0, outRun := 0, threeRun := 0
    slewAll := if st = svFree ∨ st = svStopped then false else v.slewAll
    sched := if st = svStopped then none else v.sched
    holdAt := if st = svHoldover then some cycles else v.holdAt }

@[simp] theorem freqToInt_servo (s : State) : s.freqToInt.servo = s.servo := rfl
@[simp] theorem pendBits_servo (s : State) (fwd back : Bool) : (s.pendBits fwd back).servo = s.servo := rfl
@[simp] theorem cancelStep_servo (s : State) : s.cancelStep.servo = { s.servo with sched := none } := rfl
@[simp] theorem freqToInt_time (s : State) : s.freqToInt.time = s.time := rfl
@[simp] theorem pendBits_time (s : State) (fwd back : Bool) : (s.pendBits fwd back).time = s.time := rfl
@[simp] theorem cancelStep_time (s : State) : s.cancelStep.time = s.time := rfl

theorem servoEnter_servo (s : State) (st : Nat) : (s.servoEnter st).servo = enterRec s.servoSt st s.time.cycles s.servo := by
  have hm : ∀ (u : State) (f : Servo → Servo), (u.modServo f).servo = f u.servo := fun _ _ => rfl
  simp only [State.servoEnter, ite_servo, rimEvent_servo, setFld_servo, ite_self, when_servo, pendBits_servo, cancelStep_servo,
    freqToInt_servo, hm, when_time, modServo_time, freqToInt_time, pendBits_time, cancelStep_time, enterRec]
  by_cases hstop : st = svStopped
  · simp [hstop, (by decide : svStopped ≠ svHoldover)]
  · by_cases hhold : st = svHoldover
    · simp [hhold, (by decide : svHoldover ≠ svStopped)]
    · simp [hstop, hhold, or_assoc]

theorem Moved.pendBits {l : List Nat} (s : State) (fwd back : Bool) (h : 0x001048 ∈ l) : Moved l s (s.pendBits fwd back) :=
  (Moved.setBit s _ _ h).trans (Moved.setBit _ _ _ h)

theorem Moved.cancelStep {l : List Nat} (s : State) (h : 0x001048 ∈ l) : Moved l s s.cancelStep :=
  (Moved.setBit s _ _ h).trans (Moved.modServo _ _)

theorem Moved.rimEvent {l : List Nat} (s : State) (c d : Nat) (h : 0x00604C ∈ l) (h' : 0x006058 ∈ l) : Moved l s (s.rimEvent c d) :=
  Moved.of_mild (Mild.rimEvent s c d h h')

/-- The states in which the rate is FREQ_INT alone (R60, R64). -/
abbrev rateIntStates : List Nat := [svFree, svPending, svHoldover, svStopped]

/-- Entering a state touches TIME_STATE and the log; FREQ_ADJ with it where the rate becomes FREQ_INT (R60, R64). -/
theorem servoEnter_moved {l : List Nat} (s : State) (st : Nat) (h : 0x001048 ∈ l) (h' : 0x00604C ∈ l) (h'' : 0x006058 ∈ l)
    (hr : st ∈ rateIntStates → 0x001088 ∈ l) : Moved l s (s.servoEnter st) := by
  have hrate : ∀ u : State, Moved l u (u.when
      (decide (st = svFree) || decide (st = svPending) || decide (st = svHoldover) || decide (st = svStopped)) State.freqToInt) := by
    intro u
    by_cases hst : st ∈ rateIntStates
    · exact Moved.when _ _ _ fun v => Moved.setSfld v _ _ (hr hst)
    · have hn : (decide (st = svFree) || decide (st = svPending) || decide (st = svHoldover) || decide (st = svStopped)) = false := by
        simpa [and_assoc] using hst
      rw [hn]
      exact Moved.refl l u
  unfold State.servoEnter
  extract_lets old rateInt fresh ends s1 s2 s3 s4 s5
  have h12 : Moved l s s2 := (Moved.modServo s _).trans (hrate s1)
  have h23 : Moved l s2 s3 := Moved.when _ _ _ fun u => Moved.pendBits u _ _ h
  have h34 : Moved l s3 s4 := Moved.when _ _ _ fun u => Moved.cancelStep u h
  have h45 : Moved l s4 s5 := Moved.when _ _ _ fun u => Moved.modServo u _
  have h15 : Moved l s s5 := ((h12.trans h23).trans h34).trans h45
  split
  · exact h15
  · exact h15.trans ((Moved.setFld s5 _ _ h).trans (Moved.rimEvent _ _ _ h' h''))

/-- A 32-bit field that takes the signed value of another takes its bits. -/
theorem unsigned_signed32 (x : Nat) (h : x < 2 ^ 32) : unsigned 32 (signed 32 x) = x := by
  simp only [unsigned, signed, Nat.mod_eq_of_lt h]
  split <;> omega

/-- In FREE, PENDING, HOLDOVER and STOPPED the rate is FREQ_INT (R60, R64). -/
theorem servoEnter_freqAdj (s : State) (st : Nat) (h : st ∈ rateIntStates) :
    (s.servoEnter st).fld F.TIME.FREQ_ADJ.ADJ = s.fld F.TIME.FREQ_INT.INT := by
  have hrate : (decide (st = svFree) || decide (st = svPending) || decide (st = svHoldover) || decide (st = svStopped)) = true := by
    simpa [or_assoc] using h
  have hsame : unsigned 32 (s.sfld F.TIME.FREQ_INT.INT) = s.fld F.TIME.FREQ_INT.INT := unsigned_signed32 _ (fld_lt s _)
  simp (disch := decide) [State.servoEnter, State.pendBits, State.cancelStep, hrate, rimEvent_fld, fld_setFld_other,
    fld_setBit_other, freqToInt_def, fld_setSfld_same, hsame]

/-- The bit of INT_STS that an interrupt sets. -/
theorem raiseInt_irq (s : State) (i : IntBit) (hb : i.bit < 32) : ((s.raiseInt i).reg (0x1000 * i.page + 0x010)).getLsbD i.bit = true := by
  rw [raiseInt_sets, BitVec.getLsbD_or, BitVec.getLsbD_ofNat, Nat.testBit_two_pow_self]
  simp [hb]

/-- Raising an interrupt clears no bit of INT_STS. -/
theorem raiseInt_keeps_irq (s : State) (i : IntBit) (a b : Nat) (h : (s.reg a).getLsbD b = true) :
    ((s.raiseInt i).reg a).getLsbD b = true := by
  by_cases ha : a = 0x1000 * i.page + 0x010
  · subst ha
    rw [raiseInt_sets, BitVec.getLsbD_or, h, Bool.true_or]
  · rw [raiseInt_reg_ne _ _ _ ha, h]

/-! ## Holdover (R60, R64, R65) -/

/-- What a run of `n` cycles does: hub time, the phase of the accumulator and the mark of a crossed boundary move, and the cycles count
(R50). -/
theorem runCycles_cases (s : State) (n : Nat) : ∃ x a c, s.runCycles n
    = (s.setNow x).modTime fun t => { t with acc := a, cycles := t.cycles + n, crossed := c } := ⟨_, _, _, rfl⟩

theorem runCycles_cycles (s : State) (n : Nat) : (s.runCycles n).time.cycles = s.time.cycles + n := by
  obtain ⟨x, a, c, h⟩ := runCycles_cases s n
  rw [h]
  rfl

/-- Elapsed time has run on to `c` (R50). -/
theorem reachCycles_cycles (s : State) (c : Nat) : c ≤ (s.reachCycles c).time.cycles := by
  rw [State.reachCycles, runCycles_cycles]
  omega

theorem exec_holdoverEntry (s : State) : exec .holdoverEntry s = act State.holdoverEntry s := rfl
theorem exec_pllRelock (s : State) :
    exec .pllRelock s = act (fun s => s.modServo fun v => { v with pllBad := false, refBad := false }) s := rfl

/-- Where no offset can be missed, HOLDOVER_ENTRY does nothing. -/
theorem holdoverEntry_idle (s : State) (h : s.servoSt = svFree ∨ s.servoSt = svHoldover ∨ s.servoSt = svStopped ∨ s.stepSched = true) :
    s.holdoverEntry = s := by
  refine if_neg fun ⟨hst, hsched⟩ => ?_
  rcases h with h | h | h | h
  · simp [h] at hst
  · simp [h] at hst
  · simp [h] at hst
  · simp [h] at hsched

/-- Settles O11: HOLDOVER_ENTRY is a run of time, the entry into HOLDOVER and its interrupt. -/
theorem holdoverBeginsWithoutOffsets : Obligations.HoldoverBeginsWithoutOffsets := by
  unfold Obligations.HoldoverBeginsWithoutOffsets
  intro s hs hb
  refine ⟨fun hst hsched => ?_, fun h => (exec_holdoverEntry s).trans (act_idle hs (holdoverEntry_idle s h)),
    (exec_pllRelock s).trans (act_eq hs rfl rfl rfl)⟩
  have hf : s.holdoverEntry
      = ((s.reachCycles (s.servo.lastCycles + s.lossCycles)).servoEnter svHoldover).raiseInt Irq.holdover := if_pos ⟨hst, hsched⟩
  have hrun := reachCycles_cycles s (s.servo.lastCycles + s.lossCycles)
  have hq : (s.reachCycles (s.servo.lastCycles + s.lossCycles)).quiet = s.quiet := quiet_reachCycles s _
  have hb' : (s.reachCycles (s.servo.lastCycles + s.lossCycles)).bit (F.HDR.INT_ROUTE.INBAND pgTIME) = false := (reachCycles_bit s _ _).trans hb
  have hint : (s.reachCycles (s.servo.lastCycles + s.lossCycles)).fld F.TIME.FREQ_INT.INT = s.fld F.TIME.FREQ_INT.INT := reachCycles_fld s _ _
  have hp : (s.reachCycles (s.servo.lastCycles + s.lossCycles)).pending = s.pending := reachCycles_pending s _
  generalize s.reachCycles (s.servo.lastCycles + s.lossCycles) = u at hf hrun hq hb' hint hp
  have hqt : ((u.servoEnter svHoldover).raiseInt Irq.holdover).quiet = s.quiet := by
    have hbt : (u.servoEnter svHoldover).bit (F.HDR.INT_ROUTE.INBAND pgTIME) = false :=
      (servoEnter_bit u svHoldover (F.HDR.INT_ROUTE.INBAND pgTIME) (by decide) (by decide) (by decide) (by decide)).trans hb'
    rw [quiet_raiseInt _ Irq.holdover hbt, quiet_servoEnter, hq]
  have hservo : ((u.servoEnter svHoldover).raiseInt Irq.holdover).servo = enterRec u.servoSt svHoldover u.time.cycles u.servo := by
    rw [raiseInt_servo, servoEnter_servo]
  have htime : ((u.servoEnter svHoldover).raiseInt Irq.holdover).time = u.time := by simp
  obtain ⟨hback, hfwd⟩ := servoEnter_pendBits u svHoldover (by decide)
  refine ⟨_, (exec_holdoverEntry s).trans (act_eq (f := State.holdoverEntry) hs hf hqt (by simp [hp])), ?_, ?_, htime ▸ hrun, ?_, raiseInt_irq _ _ (by decide), ?_, ?_, ?_, ?_⟩
  · rw [State.servoSt, raiseInt_fld _ _ _ (by decide)]
    exact servoEnter_servoSt u svHoldover (by decide)
  · rw [raiseInt_fld _ _ _ (by decide), servoEnter_freqAdj u svHoldover (by decide), hint]
  · rw [hservo, htime]; rfl
  · rw [raiseInt_bit _ _ _ (by decide), hback]
  · rw [raiseInt_bit _ _ _ (by decide), hfwd]
  · rw [hservo]; simp [enterRec]
  · rw [raiseInt_fld _ _ _ (by decide), servoEnter_fld u svHoldover _ (by decide) (by decide) (by decide) (by decide), hint]

/-! ## Offsets at the servo (R56, R57, R59, R60, R63, R64) -/

namespace Moved

variable {l : List Nat} {s t : State}

theorem servoSt (h : Moved l s t) (hl : 0x001048 ∉ l) : t.servoSt = s.servoSt := h.fld F.TIME.TIME_STATE.STATE hl
theorem stepSched (h : Moved l s t) (hl : 0x001048 ∉ l) : t.stepSched = s.stepSched := h.bit F.TIME.TIME_STATE.STEP_SCHED hl
theorem timeSet (h : Moved l s t) (hl : 0x001048 ∉ l) : t.timeSet = s.timeSet := h.bit F.TIME.TIME_STATE.TIME_SET hl
theorem stepThresh (h : Moved l s t) (hl : 0x001074 ∉ l) : t.stepThresh = s.stepThresh := by
  simp only [State.stepThresh, h.fld F.TIME.STEP_THRESH.THRESH hl]
theorem slewPpm (h : Moved l s t) (hl : 0x001078 ∉ l) : t.slewPpm = s.slewPpm := by
  simp only [State.slewPpm, h.fld F.TIME.SLEW_LIMIT.LIMIT hl]
theorem lockCount (h : Moved l s t) (hl : 0x001080 ∉ l) : t.lockCount = s.lockCount := by
  simp only [State.lockCount, h.fld F.TIME.LOCK_CTL.LOCK_COUNT hl]
theorem timeSrc (h : Moved l s t) (hl : 0x001040 ∉ l) : t.timeSrc = s.timeSrc := by
  simp only [State.timeSrc, h.fld F.TIME.TIME_CTL.SRC hl]
theorem role (h : Moved l s t) (hl : 0x00D048 ∉ l) : t.role = s.role := h.fld F.PAIR.PAIR_STS.ROLE hl
theorem follows (h : Moved l s t) (hl : 0x00D048 ∉ l) : t.follows = s.follows := by simp only [State.follows, h.role hl]
theorem mirrored (h : Moved l s t) (hl : 0x00D048 ∉ l) : t.mirrored = s.mirrored := by
  simp only [State.mirrored, h.role hl, h.fld F.PAIR.PAIR_STS.PARTNER_ROLE hl]

end Moved

/-- Neither TIME nor TICK sends interrupts in band (R425), so that what the servo raises leaves nothing due. -/
def timeQuiet (s : State) : Prop := s.bit (F.HDR.INT_ROUTE.INBAND pgTIME) = false ∧ s.bit (F.HDR.INT_ROUTE.INBAND pgTICK) = false

theorem Moved.timeQuiet {l : List Nat} {s t : State} (h : Moved l s t) (hl : 0x001018 ∉ l) (hl' : 0x003018 ∉ l)
    (hs : timeQuiet s) : timeQuiet t :=
  ⟨(h.bit (F.HDR.INT_ROUTE.INBAND pgTIME) hl).trans hs.1, (h.bit (F.HDR.INT_ROUTE.INBAND pgTICK) hl').trans hs.2⟩

/-! ### Lock (R61, R64) -/

/-- What the runs of offsets touch: INT_STS and STATE of TIME, the same of TICK, and the log. -/
def lockRegs : List Nat := [0x001010, 0x001048, 0x003010, 0x003050, 0x00604C, 0x006058]

theorem markTimeSet_moved (s : State) (hs : timeQuiet s) : Moved lockRegs s s.markTimeSet := by
  unfold State.markTimeSet
  split
  · exact Moved.refl _ s
  · extract_lets u
    have hu : Moved lockRegs s u := Moved.setBit s _ _ (by decide)
    split
    · have hv : Moved lockRegs s (u.setFld F.TICK.TICK_STS.STATE 2) := hu.trans (Moved.setFld u _ _ (by decide))
      exact hv.trans (Moved.raiseInt _ Irq.resumed (hv.timeQuiet (by decide) (by decide) hs).2 (by decide))
    · exact hu

theorem markTimeSet_timeSet (s : State) : s.markTimeSet.timeSet = true := by
  unfold State.markTimeSet
  split
  · assumption
  · extract_lets u
    have hu : u.timeSet = true := bit_setBit_same _ _ _ (by decide) rfl
    split
    · exact ((raiseInt_bit _ _ _ (by decide)).trans (bit_setFld_other _ _ _ _ (by decide))).trans hu
    · exact hu

/-- Marking the time as set leaves every other field of the TIME page. -/
theorem markTimeSet_fld (s : State) (f : Fld) (h : f.addr ≠ 0x001048 ∨ f.lo + f.width ≤ 4 ∨ 4 + 1 ≤ f.lo) (h' : f.addr ≠ 0x003050)
    (h'' : f.addr ≠ 0x003010) : s.markTimeSet.fld f = s.fld f := by
  unfold State.markTimeSet
  split
  · rfl
  · extract_lets u
    have hu : u.fld f = s.fld f := fld_setBit_other _ _ _ _ h
    split
    · exact ((raiseInt_fld _ Irq.resumed _ h'').trans (fld_setFld_addr _ _ _ _ h')).trans hu
    · exact hu

theorem markTimeSet_servo (s : State) : s.markTimeSet.servo = s.servo := by
  unfold State.markTimeSet
  split
  · rfl
  · extract_lets u
    split
    · exact raiseInt_servo _ _
    · rfl

/-- The run of small offsets in LOCKING that one of magnitude `mag` leaves (R64). -/
def inRunAfter (s : State) (mag : Nat) : Nat := if mag ≤ s.fld F.TIME.LOCK_CTL.LOCK_THRESH then s.servo.inRun + 1 else 0

/-- The servo enters LOCKED, and hub time counts as set (R61, R64). -/
def lockedNow (s : State) : State :=
  ((s.servoEnter svLocked).modServo fun v => { v with slewAll := false }).markTimeSet.raiseInt Irq.locked

theorem lockStep_locking (s : State) (mag : Nat) (h : s.servoSt = svLocking) : s.lockStep mag
    = if s.lockCount ≤ inRunAfter s mag then lockedNow (s.modServo fun v => { v with inRun := inRunAfter s mag })
      else s.modServo fun v => { v with inRun := inRunAfter s mag } := by
  unfold State.lockStep
  extract_lets th
  rw [if_pos h]
  rfl

/-- In LOCKED an offset unlocks or is counted (R64). -/
theorem lockStep_locked (s : State) (mag : Nat) (h : s.servoSt = svLocked) : ∃ n, s.lockStep mag
    = (if 4 * s.fld F.TIME.LOCK_CTL.LOCK_THRESH < mag then s.servoEnter svLocking
      else if s.lockCount ≤ n then (s.modServo fun v => { v with outRun := n }).servoEnter svLocking
      else s.modServo fun v => { v with outRun := n }) := by
  refine ⟨if s.fld F.TIME.LOCK_CTL.LOCK_THRESH < mag then s.servo.outRun + 1 else 0, ?_⟩
  unfold State.lockStep
  extract_lets th
  rw [if_neg (by rw [h]; decide), if_pos h]
  rfl

theorem lockStep_else (s : State) (mag : Nat) (h : s.servoSt ≠ svLocking) (h' : s.servoSt ≠ svLocked) : s.lockStep mag = s := by
  unfold State.lockStep
  extract_lets th
  rw [if_neg h, if_neg h']

theorem enter_lock_moved (s : State) (st : Nat) (h : st ∉ rateIntStates) : Moved lockRegs s (s.servoEnter st) :=
  servoEnter_moved s st (by decide) (by decide) (by decide) fun h' => absurd h' h

theorem lockedNow_moved (s : State) (hs : timeQuiet s) : Moved lockRegs s (lockedNow s) := by
  have h1 : Moved lockRegs s ((s.servoEnter svLocked).modServo fun v => { v with slewAll := false }) :=
    (enter_lock_moved s svLocked (by decide)).trans (Moved.modServo _ _)
  have h2 := h1.trans (markTimeSet_moved _ (h1.timeQuiet (by decide) (by decide) hs))
  exact h2.trans (Moved.raiseInt _ Irq.locked (h2.timeQuiet (by decide) (by decide) hs).1 (by decide))

theorem lockStep_moved (s : State) (mag : Nat) (hs : timeQuiet s) : Moved lockRegs s (s.lockStep mag) := by
  by_cases h : s.servoSt = svLocking
  · rw [lockStep_locking s mag h]
    have hm : Moved lockRegs s (s.modServo fun v => { v with inRun := inRunAfter s mag }) := Moved.modServo s _
    split
    · exact hm.trans (lockedNow_moved _ (hm.timeQuiet (by decide) (by decide) hs))
    · exact hm
  · by_cases h' : s.servoSt = svLocked
    · obtain ⟨n, hn⟩ := lockStep_locked s mag h'
      rw [hn]
      split
      · exact enter_lock_moved s _ (by decide)
      · split
        · exact (Moved.modServo s _).trans (enter_lock_moved _ _ (by decide))
        · exact Moved.modServo s _
    · rw [lockStep_else s mag h h']
      exact Moved.refl _ s

/-- Entering a lock state from one leaves the time of the last offset. -/
theorem servoEnter_keeps_prev (s : State) (st : Nat) (h : st ∉ rateIntStates) (hold : s.servoSt = svLocking ∨ s.servoSt = svLocked) :
    (s.servoEnter st).servo.prev = s.servo.prev ∧ (s.servoEnter st).servo.lastCycles = s.servo.lastCycles := by
  rw [servoEnter_servo]
  simp only [List.mem_cons, List.not_mem_nil, or_false, not_or] at h
  obtain ⟨h1, h2, h3, h4⟩ := h
  rcases hold with hold | hold <;> simp [enterRec, h1, h2, h3, h4, hold]

theorem lockedNow_servo (s : State) : (lockedNow s).servo = { (s.servoEnter svLocked).servo with slewAll := false } := by
  rw [lockedNow, raiseInt_servo, markTimeSet_servo]
  rfl

theorem lockStep_keeps_prev (s : State) (mag : Nat) :
    (s.lockStep mag).servo.prev = s.servo.prev ∧ (s.lockStep mag).servo.lastCycles = s.servo.lastCycles := by
  by_cases h : s.servoSt = svLocking
  · rw [lockStep_locking s mag h]
    split
    · rw [lockedNow_servo]
      exact servoEnter_keeps_prev _ svLocked (by decide) (Or.inl h)
    · exact ⟨rfl, rfl⟩
  · by_cases h' : s.servoSt = svLocked
    · obtain ⟨n, hn⟩ := lockStep_locked s mag h'
      rw [hn]
      split
      · exact servoEnter_keeps_prev s _ (by decide) (Or.inr h')
      · split
        · exact servoEnter_keeps_prev (s.modServo _) _ (by decide) (Or.inr h')
        · exact ⟨rfl, rfl⟩
    · rw [lockStep_else s mag h h']
      exact ⟨rfl, rfl⟩

theorem lockedNow_servoSt (s : State) : (lockedNow s).servoSt = svLocked := by
  rw [lockedNow, State.servoSt, raiseInt_fld _ _ _ (by decide), markTimeSet_fld _ _ (by decide) (by decide) (by decide)]
  exact servoEnter_servoSt s svLocked (by decide)

theorem lockedNow_timeSet (s : State) : (lockedNow s).timeSet = true := by
  rw [lockedNow, State.timeSet, raiseInt_bit _ _ _ (by decide)]
  exact markTimeSet_timeSet _

theorem lockedNow_irq (s : State) : ((lockedNow s).reg (0x1000 * pgTIME + 0x010)).getLsbD Irq.locked.bit = true :=
  raiseInt_irq _ Irq.locked (by decide)

/-- No interrupt of the TIME page is cleared as the servo follows its runs. -/
theorem lockedNow_keeps_irq (s : State) (b : Nat) (h : (s.reg 0x001010).getLsbD b = true) : ((lockedNow s).reg 0x001010).getLsbD b = true := by
  refine raiseInt_keeps_irq _ _ _ _ ?_
  have hreg : ((s.servoEnter svLocked).modServo fun v => { v with slewAll := false }).markTimeSet.reg 0x001010 = s.reg 0x001010 := by
    have h1 : (s.servoEnter svLocked).reg 0x001010 = s.reg 0x001010 :=
      (servoEnter_moved (l := [0x001048, 0x00604C, 0x006058]) s svLocked (by decide) (by decide) (by decide) (by decide)).regs _ (by decide)
    rw [← h1]
    refine BitVec.eq_of_toNat_eq ?_
    have h2 := markTimeSet_fld ((s.servoEnter svLocked).modServo fun v => { v with slewAll := false }) ⟨0x001010, 0, 32⟩ (by decide)
      (by decide) (by decide)
    rw [State.fld, State.fld, getBits_all, getBits_all] at h2
    exact h2
  rw [hreg, h]

/-! ### The rate (R50, R56, R57) -/

theorem signed_unsigned32 (x : Int) (h : -2 ^ 31 ≤ x) (h' : x < 2 ^ 31) : signed 32 (unsigned 32 x) = x := by
  have hpow : ((2 ^ 32 : Nat) : Int) = 4294967296 := by norm_num
  have hnat : ((unsigned 32 x : Nat) : Int) = x % 4294967296 := by
    rw [unsigned, ← hpow, Int.toNat_of_nonneg (Int.emod_nonneg x (by norm_num))]
  generalize unsigned 32 x = n at hnat
  simp only [signed]
  rw [Nat.mod_eq_of_lt (by omega)]
  split <;> omega

/-- A signed register reads the value written to it, where it holds that value. -/
theorem sfld_setSfld_same (s : State) (a : Nat) (x : Int) (h : -2 ^ 31 ≤ x) (h' : x < 2 ^ 31) :
    (s.setSfld ⟨a, 0, 32⟩ x).sfld ⟨a, 0, 32⟩ = x := by
  rw [State.sfld, fld_setSfld_same _ _ _ (le_refl 32)]
  exact signed_unsigned32 x h h'

theorem clampInt_bounds (lo hi x : Int) (h : lo ≤ hi) : lo ≤ clampInt lo hi x ∧ clampInt lo hi x ≤ hi := by
  unfold clampInt
  split
  · omega
  · split <;> omega

/-- FREQ_INT is clamped to 500 ppm (R57, R79). -/
theorem clampInt_intLimit (x : Int) : -2147484 ≤ clampInt (-intLimit) intLimit x ∧ clampInt (-intLimit) intLimit x ≤ 2147484 :=
  clampInt_bounds (-2147484) 2147484 x (by norm_num)

theorem natAbs_clampInt (x : Int) : (clampInt (-intLimit) intLimit x).natAbs ≤ 2147484 := by
  obtain ⟨hlo, hhi⟩ := clampInt_intLimit x
  omega

/-- A quotient whose rounding is free is one of the two nearest integers (log entry 3). -/
theorem roundFree_cases (s : State) (n : Int) (d : Nat) :
    (s.roundFree n d).1 = n / (d : Int) ∨ ((s.roundFree n d).1 = n / (d : Int) + 1 ∧ n % (d : Int) ≠ 0) := by
  simp only [State.roundFree]
  split
  · exact Or.inl rfl
  · next hn =>
    simp only
    split
    · exact Or.inr ⟨rfl, hn⟩
    · exact Or.inl rfl

/-- It lies within one divisor of the dividend. -/
theorem roundFree_near (s : State) (n : Int) (d : Nat) (hd : 0 < d) : ((s.roundFree n d).1 * (d : Int) - n).natAbs < d := by
  have hd' : (0 : Int) < d := by exact_mod_cast hd
  have hdiv := Int.mul_ediv_add_emod n d
  have hlo := Int.emod_nonneg n hd'.ne'
  have hhi := Int.emod_lt_of_pos n hd'
  rcases roundFree_cases s n d with h | ⟨h, hr⟩
  · rw [h, mul_comm]
    omega
  · rw [h, Int.add_mul, one_mul, mul_comm]
    omega

/-- A quotient whose rounding is free is small where its dividend is. -/
theorem roundFree_small (s : State) (n : Int) (d : Nat) (b : Int) (hd : 0 < d) (hn : (n.natAbs : Int) ≤ b * d) :
    -(b + 1) < (s.roundFree n d).1 ∧ (s.roundFree n d).1 < b + 1 := by
  have hd' : (0 : Int) < d := by exact_mod_cast hd
  have hnear := roundFree_near s n d hd
  generalize (s.roundFree n d).1 = q at hnear ⊢
  have hup : q * d < (b + 1) * d := by rw [Int.add_mul]; omega
  have hlo : -(b + 1) * d < q * d := by rw [Int.neg_mul, Int.add_mul]; omega
  exact ⟨lt_of_mul_lt_mul_right hlo hd'.le, lt_of_mul_lt_mul_right hup hd'.le⟩

theorem gainNum_natAbs (k : Nat) (e : Int) : (gainNum k e).natAbs = k * e.natAbs * 2 ^ 16 := by
  simp [gainNum, Int.natAbs_mul]

theorem slewPpm_le (s : State) : s.slewPpm ≤ 1000 := by
  simp only [State.slewPpm]
  split
  · omega
  · split <;> omega

/-- A rate of at most 1,000 ppm, in units of 2^-32. -/
theorem ppmUnits_bounds (p : Nat) (h : p ≤ 1000) : 0 ≤ ppmUnits p ∧ ppmUnits p ≤ 4294968 := by
  simp only [ppmUnits, roundHalfUp]
  omega

/-- The offset counts as the previous one from now on (R56, R57, R64). -/
def offsetUsed (u : State) : State := u.modServo fun v => { v with prev := some u.nowNs, lastCycles := u.time.cycles }

/-- FREQ_ADJ takes the sum of the integral term and `ph`, and the offset is the latest one. -/
def setRate (u : State) (ph : Int) : State := offsetUsed (u.setFreqAdj (u.sfld F.TIME.FREQ_INT.INT + ph))

theorem setRate_servo (u : State) (ph : Int) : (setRate u ph).servo = { u.servo with prev := some u.nowNs, lastCycles := u.time.cycles } := by
  have hm : Moved [0x001088] u (u.setFreqAdj (u.sfld F.TIME.FREQ_INT.INT + ph)) := Moved.setSfld _ _ _ (by decide)
  have hu : (setRate u ph).servo = { (u.setFreqAdj (u.sfld F.TIME.FREQ_INT.INT + ph)).servo with
      prev := some (u.setFreqAdj (u.sfld F.TIME.FREQ_INT.INT + ph)).nowNs
      lastCycles := (u.setFreqAdj (u.sfld F.TIME.FREQ_INT.INT + ph)).time.cycles } := rfl
  rw [hu, hm.nowNs, hm.time]
  rfl

theorem setRate_freqInt (u : State) (ph : Int) : (setRate u ph).fld F.TIME.FREQ_INT.INT = u.fld F.TIME.FREQ_INT.INT :=
  fld_setSfld_other _ _ _ _ (by decide)

theorem setRate_freqAdj (u : State) (ph : Int) (h : -2 ^ 31 ≤ u.sfld F.TIME.FREQ_INT.INT + ph) (h' : u.sfld F.TIME.FREQ_INT.INT + ph < 2 ^ 31) :
    (setRate u ph).sfld F.TIME.FREQ_ADJ.ADJ = u.sfld F.TIME.FREQ_INT.INT + ph := sfld_setSfld_same u _ _ h h'

/-- The state as the rate has been set for offset `e`, before the runs of offsets are followed (R57). -/
def rated (s : State) (e : Int) : State := setRate ((s.phaseTerm e).2.integrate e) (s.phaseTerm e).1

theorem useOffset_eq (s : State) (e : Int) : s.useOffset e = (rated s e).lockStep e.natAbs := by
  have h : State.useOffset = State.useOffset := rfl
  conv at h => rhs; delta State.useOffset
  rw [congrFun (congrFun h s) e, rated]
  generalize s.phaseTerm e = x
  obtain ⟨ph, u⟩ := x
  dsimp only
  generalize u.integrate e = w
  rfl

theorem phaseTerm_moved {l : List Nat} (s : State) (e : Int) : Moved l s (s.phaseTerm e).2 := by
  unfold State.phaseTerm
  extract_lets num
  split
  · exact Moved.refl l s
  · exact Moved.roundFree s _ _

/-- The registers of the rate: FREQ_INT and FREQ_ADJ. -/
def rateRegs : List Nat := [0x001084, 0x001088]

theorem integrate_moved (s : State) (e : Int) : Moved rateRegs s (s.integrate e) := by
  unfold State.integrate
  split
  · exact Moved.refl _ s
  · exact (Moved.roundFree s _ _).trans (Moved.setSfld _ _ _ (by decide))

theorem integrated_moved (s : State) (e : Int) : Moved rateRegs s ((s.phaseTerm e).2.integrate e) :=
  (phaseTerm_moved s e).trans (integrate_moved _ e)

theorem offsetUsed_moved {l : List Nat} (u : State) : Moved l u (offsetUsed u) := Moved.modServo u _

theorem setRate_moved (u : State) (ph : Int) : Moved rateRegs u (setRate u ph) :=
  (Moved.setSfld u F.TIME.FREQ_ADJ.ADJ _ (by decide)).trans (offsetUsed_moved _)

theorem rated_moved (s : State) (e : Int) : Moved rateRegs s (rated s e) := (integrated_moved s e).trans (setRate_moved _ _)

theorem phaseTerm_servo (s : State) (e : Int) : (s.phaseTerm e).2.servo = s.servo := by
  unfold State.phaseTerm
  extract_lets num
  split
  · rfl
  · exact roundFree_servo _ _ _

theorem integrate_servo (s : State) (e : Int) : (s.integrate e).servo = s.servo := by
  unfold State.integrate
  split
  · rfl
  · exact roundFree_servo _ _ _

/-- The offset counts as the previous one from now on (R56, R64). -/
theorem rated_servo (s : State) (e : Int) :
    (rated s e).servo = { s.servo with prev := some s.nowNs, lastCycles := s.time.cycles } := by
  have hm := integrated_moved s e
  rw [rated, setRate_servo, hm.nowNs, hm.time, integrate_servo, phaseTerm_servo]

theorem offsetFirst_congr {s t : State} (h : t.nowNs = s.nowNs) (h' : t.servo = s.servo) : t.offsetFirst = s.offsetFirst := by
  simp only [State.offsetFirst, h, h']

theorem offsetSpan_congr {s t : State} (h : t.nowNs = s.nowNs) (h' : t.servo = s.servo) : t.offsetSpan = s.offsetSpan := by
  simp only [State.offsetSpan, h, h']

/-- A limited phase term, or the first offset, leaves FREQ_INT (R56, R57). -/
theorem rated_freqInt_kept (s : State) (e : Int) (h : s.phaseLimited e = true ∨ s.offsetFirst = true) :
    (rated s e).fld F.TIME.FREQ_INT.INT = s.fld F.TIME.FREQ_INT.INT := by
  have hm : Moved [] s (s.phaseTerm e).2 := phaseTerm_moved s e
  have hint : (s.phaseTerm e).2.integrate e = (s.phaseTerm e).2 := by
    rcases h with h | h
    · rw [phaseTerm_limited s e h]
      exact integrate_limited s e h
    · refine integrate_first _ e ?_
      rw [offsetFirst_congr hm.nowNs (phaseTerm_servo s e), h]
  rw [rated, setRate_freqInt, hint, hm.fld _ (by decide)]

theorem sfld_of_fld {s t : State} {f : Fld} (h : t.fld f = s.fld f) : t.sfld f = s.sfld f := by rw [State.sfld, h, State.sfld]

/-- FREQ_ADJ is the sum of the integral and the phase term, where its register holds that (R57). -/
theorem rated_freqAdj (s : State) (e : Int) (h : -2 ^ 31 ≤ (rated s e).sfld F.TIME.FREQ_INT.INT + (s.phaseTerm e).1)
    (h' : (rated s e).sfld F.TIME.FREQ_INT.INT + (s.phaseTerm e).1 < 2 ^ 31) :
    (rated s e).sfld F.TIME.FREQ_ADJ.ADJ = (rated s e).sfld F.TIME.FREQ_INT.INT + (s.phaseTerm e).1 := by
  have hint : (rated s e).sfld F.TIME.FREQ_INT.INT = ((s.phaseTerm e).2.integrate e).sfld F.TIME.FREQ_INT.INT :=
    sfld_of_fld (setRate_freqInt _ _)
  rw [hint] at h h' ⊢
  exact setRate_freqAdj _ _ h h'

/-- A phase term within the slew limit is -kp e / t up to its rounding, and below 1,001 ppm (R57). -/
theorem phaseTerm_within (s : State) (e : Int) (hd : 0 < s.offsetSpan)
    (h : s.fld F.TIME.SERVO_GAIN.KP * e.natAbs * 2 ^ 16 * 1000000 ≤ s.slewPpm * 2 ^ 32 * s.offsetSpan) :
    ((s.phaseTerm e).1 * (s.offsetSpan : Int) + (s.fld F.TIME.SERVO_GAIN.KP : Int) * e * 2 ^ 16).natAbs < s.offsetSpan
    ∧ -4294969 < (s.phaseTerm e).1 ∧ (s.phaseTerm e).1 < 4294969 := by
  have hnat := gainNum_natAbs (s.fld F.TIME.SERVO_GAIN.KP) e
  have hlim : s.phaseLimited e = false := by
    rw [State.phaseLimited, hnat]
    exact decide_eq_false (by omega)
  have hph : (s.phaseTerm e).1 = (s.roundFree (gainNum (s.fld F.TIME.SERVO_GAIN.KP) e) s.offsetSpan).1 := by
    simp [State.phaseTerm, hlim]
  have hle : s.slewPpm * 2 ^ 32 * s.offsetSpan ≤ 1000 * 2 ^ 32 * s.offsetSpan :=
    Nat.mul_le_mul_right _ (Nat.mul_le_mul_right _ (slewPpm_le s))
  have hsmall : ((gainNum (s.fld F.TIME.SERVO_GAIN.KP) e).natAbs : Int) ≤ 4294968 * (s.offsetSpan : Int) := by
    rw [hnat]
    omega
  have hnear := roundFree_near s (gainNum (s.fld F.TIME.SERVO_GAIN.KP) e) s.offsetSpan hd
  rw [hph]
  refine ⟨?_, roundFree_small s _ _ 4294968 hd hsmall⟩
  rw [gainNum, sub_neg_eq_add] at hnear
  exact hnear

/-- With the phase term within the slew limit FREQ_ADJ moves by it (R57). -/
theorem rated_within (s : State) (e : Int) (hd : 0 < s.offsetSpan)
    (h : s.fld F.TIME.SERVO_GAIN.KP * e.natAbs * 2 ^ 16 * 1000000 ≤ s.slewPpm * 2 ^ 32 * s.offsetSpan)
    (hi : ((rated s e).sfld F.TIME.FREQ_INT.INT).natAbs ≤ 2147484) :
    (((rated s e).sfld F.TIME.FREQ_ADJ.ADJ - (rated s e).sfld F.TIME.FREQ_INT.INT) * (s.offsetSpan : Int)
      + (s.fld F.TIME.SERVO_GAIN.KP : Int) * e * 2 ^ 16).natAbs < s.offsetSpan := by
  obtain ⟨hnear, hlo, hhi⟩ := phaseTerm_within s e hd h
  rw [rated_freqAdj s e (by omega) (by omega), add_sub_cancel_left]
  exact hnear

/-- A phase term beyond the slew limit is the limit, against the offset (R57, log entry 74). -/
theorem rated_limited (s : State) (e : Int)
    (h : s.slewPpm * 2 ^ 32 * s.offsetSpan < s.fld F.TIME.SERVO_GAIN.KP * e.natAbs * 2 ^ 16 * 1000000)
    (hi : (s.sfld F.TIME.FREQ_INT.INT).natAbs ≤ 2147484) :
    (rated s e).sfld F.TIME.FREQ_ADJ.ADJ
      = s.sfld F.TIME.FREQ_INT.INT + (if 0 < e then -ppmUnits s.slewPpm else ppmUnits s.slewPpm) := by
  have hlim : s.phaseLimited e = true := by
    rw [State.phaseLimited, gainNum_natAbs]
    exact decide_eq_true h
  have hkp : 0 < (s.fld F.TIME.SERVO_GAIN.KP : Int) := by
    rcases Nat.eq_zero_or_pos (s.fld F.TIME.SERVO_GAIN.KP) with h0 | h0
    · simp [h0] at h
    · exact_mod_cast h0
  have hsign : gainNum (s.fld F.TIME.SERVO_GAIN.KP) e < 0 ↔ 0 < e := by
    rw [gainNum, neg_lt_zero, mul_pos_iff_of_pos_right (by norm_num), mul_pos_iff_of_pos_left hkp]
  have hph : (s.phaseTerm e).1 = if 0 < e then -ppmUnits s.slewPpm else ppmUnits s.slewPpm := by
    simp only [phaseTerm_limited s e hlim, hsign]
  have hint : (rated s e).sfld F.TIME.FREQ_INT.INT = s.sfld F.TIME.FREQ_INT.INT := sfld_of_fld (rated_freqInt_kept s e (Or.inl hlim))
  obtain ⟨hlo, hhi⟩ := ppmUnits_bounds s.slewPpm (slewPpm_le s)
  have hb : -4294968 ≤ (s.phaseTerm e).1 ∧ (s.phaseTerm e).1 ≤ 4294968 := by
    rw [hph]
    split <;> omega
  rw [rated_freqAdj s e (by omega) (by omega), hint, hph]

/-- With a previous offset the integral term moves by -ki e / t up to its rounding, clamped to 500 ppm (R57). -/
theorem rated_freqInt (s : State) (e : Int) (h : s.phaseLimited e = false) (hf : s.offsetFirst = false) :
    ∃ d : Int, (d = gainNum (s.fld F.TIME.SERVO_GAIN.KI) e / (s.offsetSpan : Int) ∨ d = gainNum (s.fld F.TIME.SERVO_GAIN.KI) e / (s.offsetSpan : Int) + 1)
      ∧ (rated s e).sfld F.TIME.FREQ_INT.INT = clampInt (-intLimit) intLimit (s.sfld F.TIME.FREQ_INT.INT + d) := by
  have hm : Moved [] s (s.phaseTerm e).2 := phaseTerm_moved s e
  generalize hu : (s.phaseTerm e).2 = u at hm
  have hserv : u.servo = s.servo := by rw [← hu, phaseTerm_servo]
  have hspan : u.offsetSpan = s.offsetSpan := offsetSpan_congr hm.nowNs hserv
  have hlim' : u.phaseLimited e = false := by
    rw [← h]
    simp only [State.phaseLimited, hspan, hm.slewPpm (by decide), hm.fld F.TIME.SERVO_GAIN.KP (by decide)]
  have hf' : u.offsetFirst = false := (offsetFirst_congr hm.nowNs hserv).trans hf
  have hint : u.integrate e = (u.roundFree (gainNum (u.fld F.TIME.SERVO_GAIN.KI) e) u.offsetSpan).2.setSfld F.TIME.FREQ_INT.INT
      (clampInt (-intLimit) intLimit ((u.roundFree (gainNum (u.fld F.TIME.SERVO_GAIN.KI) e) u.offsetSpan).2.sfld F.TIME.FREQ_INT.INT
        + (u.roundFree (gainNum (u.fld F.TIME.SERVO_GAIN.KI) e) u.offsetSpan).1)) := by
    simp [State.integrate, hlim', hf']
  have hsame : (rated s e).sfld F.TIME.FREQ_INT.INT = (u.integrate e).sfld F.TIME.FREQ_INT.INT := by
    rw [← hu]
    exact sfld_of_fld (setRate_freqInt _ _)
  obtain ⟨hlo, hhi⟩ := clampInt_intLimit (s.sfld F.TIME.FREQ_INT.INT + (u.roundFree (gainNum (s.fld F.TIME.SERVO_GAIN.KI) e) s.offsetSpan).1)
  refine ⟨(u.roundFree (gainNum (s.fld F.TIME.SERVO_GAIN.KI) e) s.offsetSpan).1, ?_, ?_⟩
  · exact (roundFree_cases u _ _).imp_right And.left
  · rw [hsame, hint, roundFree_sfld, hspan, hm.fld F.TIME.SERVO_GAIN.KI (by decide), hm.sfld F.TIME.FREQ_INT.INT (by decide)]
    exact sfld_setSfld_same _ _ _ (by omega) (by omega)

/-! ### An accepted offset (R56, R57, R64) -/

/-- The registers an accepted offset touches. -/
def useRegs : List Nat := [0x001010, 0x001048, 0x001084, 0x001088, 0x003010, 0x003050, 0x00604C, 0x006058]

theorem rated_timeQuiet (s : State) (e : Int) (hs : timeQuiet s) : timeQuiet (rated s e) :=
  (rated_moved s e).timeQuiet (by decide) (by decide) hs

theorem useOffset_moved (s : State) (e : Int) (hs : timeQuiet s) : Moved useRegs s (s.useOffset e) := by
  rw [useOffset_eq]
  exact ((rated_moved s e).mono (by decide)).trans ((lockStep_moved _ _ (rated_timeQuiet s e hs)).mono (by decide))

theorem useOffset_prev (s : State) (e : Int) :
    (s.useOffset e).servo.prev = some s.nowNs ∧ (s.useOffset e).servo.lastCycles = s.time.cycles := by
  obtain ⟨hprev, hlast⟩ := lockStep_keeps_prev (rated s e) e.natAbs
  rw [useOffset_eq, hprev, hlast, rated_servo]
  exact ⟨rfl, rfl⟩

/-- The runs of offsets leave the rate. -/
theorem useOffset_rate (s : State) (e : Int) (f : Fld) (hf : f.addr ∉ lockRegs) (hs : timeQuiet s) :
    (s.useOffset e).fld f = (rated s e).fld f := by
  rw [useOffset_eq]
  exact (lockStep_moved _ _ (rated_timeQuiet s e hs)).fld f hf

theorem rated_servoSt (s : State) (e : Int) : (rated s e).servoSt = s.servoSt := (rated_moved s e).servoSt (by decide)

/-- The LOCK_COUNT-th small offset in a row locks (R64). -/
theorem useOffset_locks (s : State) (e : Int) (hst : s.servoSt = svLocking) (hsmall : e.natAbs ≤ s.fld F.TIME.LOCK_CTL.LOCK_THRESH)
    (hrun : s.lockCount ≤ s.servo.inRun + 1) : ∃ n, s.useOffset e = lockedNow ((rated s e).modServo fun v => { v with inRun := n }) := by
  have hin : inRunAfter (rated s e) e.natAbs = s.servo.inRun + 1 := by
    have hth : (rated s e).fld F.TIME.LOCK_CTL.LOCK_THRESH = s.fld F.TIME.LOCK_CTL.LOCK_THRESH := (rated_moved s e).fld _ (by decide)
    rw [inRunAfter, hth, if_pos hsmall, rated_servo]
  refine ⟨s.servo.inRun + 1, ?_⟩
  rw [useOffset_eq, lockStep_locking _ _ ((rated_servoSt s e).trans hst), hin, (rated_moved s e).lockCount (by decide), if_pos hrun]

/-- An offset that does not end the run leaves LOCKING. -/
theorem useOffset_locking (s : State) (e : Int) (hst : s.servoSt = svLocking)
    (h : ¬ (e.natAbs ≤ s.fld F.TIME.LOCK_CTL.LOCK_THRESH ∧ s.lockCount ≤ s.servo.inRun + 1)) (hl : s.lockCount ≠ 0) :
    ∃ n, s.useOffset e = (rated s e).modServo fun v => { v with inRun := n } := by
  have hth : (rated s e).fld F.TIME.LOCK_CTL.LOCK_THRESH = s.fld F.TIME.LOCK_CTL.LOCK_THRESH := (rated_moved s e).fld _ (by decide)
  have hin : ¬ s.lockCount ≤ inRunAfter (rated s e) e.natAbs := by
    rw [inRunAfter, hth, rated_servo]
    split
    · next hle => exact fun hc => h ⟨hle, hc⟩
    · omega
  refine ⟨inRunAfter (rated s e) e.natAbs, ?_⟩
  rw [useOffset_eq, lockStep_locking _ _ ((rated_servoSt s e).trans hst), (rated_moved s e).lockCount (by decide), if_neg hin]

/-- One offset above four times LOCK_THRESH unlocks (R64). -/
theorem useOffset_unlocks (s : State) (e : Int) (hst : s.servoSt = svLocked) (hbig : 4 * s.fld F.TIME.LOCK_CTL.LOCK_THRESH < e.natAbs) :
    s.useOffset e = (rated s e).servoEnter svLocking := by
  have hth : (rated s e).fld F.TIME.LOCK_CTL.LOCK_THRESH = s.fld F.TIME.LOCK_CTL.LOCK_THRESH := (rated_moved s e).fld _ (by decide)
  obtain ⟨n, hn⟩ := lockStep_locked (rated s e) e.natAbs ((rated_servoSt s e).trans hst)
  rw [useOffset_eq, hn, hth, if_pos hbig]

theorem useOffset_first (s : State) (e : Int) (hs : timeQuiet s) (h : s.phaseLimited e = true ∨ s.offsetFirst = true) :
    (s.useOffset e).fld F.TIME.FREQ_INT.INT = s.fld F.TIME.FREQ_INT.INT :=
  (useOffset_rate s e _ (by decide) hs).trans (rated_freqInt_kept s e h)

/-- A phase term within the slew limit is -kp e / t up to its rounding (R57). -/
theorem useOffset_within (s : State) (e : Int) (hs : timeQuiet s) (hd : 0 < s.offsetSpan)
    (h : s.fld F.TIME.SERVO_GAIN.KP * e.natAbs * 2 ^ 16 * 1000000 ≤ s.slewPpm * 2 ^ 32 * s.offsetSpan)
    (hi : ((s.useOffset e).sfld F.TIME.FREQ_INT.INT).natAbs ≤ 2147484) :
    (((s.useOffset e).sfld F.TIME.FREQ_ADJ.ADJ - (s.useOffset e).sfld F.TIME.FREQ_INT.INT) * (s.offsetSpan : Int)
      + (s.fld F.TIME.SERVO_GAIN.KP : Int) * e * 2 ^ 16).natAbs < s.offsetSpan := by
  have hint := sfld_of_fld (useOffset_rate s e F.TIME.FREQ_INT.INT (by decide) hs)
  have hadj := sfld_of_fld (useOffset_rate s e F.TIME.FREQ_ADJ.ADJ (by decide) hs)
  rw [hint] at hi ⊢
  rw [hadj]
  exact rated_within s e hd h hi

/-- A phase term beyond the slew limit is the limit, against the offset (R57, log entry 74). -/
theorem useOffset_limited (s : State) (e : Int) (hs : timeQuiet s)
    (h : s.slewPpm * 2 ^ 32 * s.offsetSpan < s.fld F.TIME.SERVO_GAIN.KP * e.natAbs * 2 ^ 16 * 1000000)
    (hi : (s.sfld F.TIME.FREQ_INT.INT).natAbs ≤ 2147484) :
    (s.useOffset e).sfld F.TIME.FREQ_ADJ.ADJ
      = s.sfld F.TIME.FREQ_INT.INT + (if 0 < e then -ppmUnits s.slewPpm else ppmUnits s.slewPpm) :=
  (sfld_of_fld (useOffset_rate s e F.TIME.FREQ_ADJ.ADJ (by decide) hs)).trans (rated_limited s e h hi)

/-! ### An offset arrives (R59, R60, R63, R64) -/

/-- LAST_OFFSET has taken the offset (R63). -/
def submitted (s : State) (e : Int) : State := s.setFld64 F.TIME.LAST_OFFSET_LO.LAST_LO F.TIME.LAST_OFFSET_HI.LAST_HI (unsigned 64 e)

/-- The registers of LAST_OFFSET. -/
def lastRegs : List Nat := [0x001064, 0x001068]

theorem submitted_moved (s : State) (e : Int) : Moved lastRegs s (submitted s e) := Moved.setFld64 s _ _ _ (by decide) (by decide)

theorem unsigned64_lt (e : Int) : unsigned 64 e < 2 ^ 64 := by
  have h := Int.emod_lt_of_pos e (show (0 : Int) < ((2 ^ 64 : Nat) : Int) by norm_num)
  have h' := Int.emod_nonneg e (show ((2 ^ 64 : Nat) : Int) ≠ 0 by norm_num)
  rw [unsigned]
  omega

theorem submitted_last (s : State) (e : Int) :
    (submitted s e).fld64 F.TIME.LAST_OFFSET_LO.LAST_LO F.TIME.LAST_OFFSET_HI.LAST_HI = unsigned 64 e :=
  (fld64_same s _ _ _ (by decide) (by decide) (by decide)).trans (Nat.mod_eq_of_lt (unsigned64_lt e))

/-- In STOPPED, and while a step is scheduled, an offset is only recorded (R61, R63, R64). -/
theorem servoOffset_recorded (s : State) (e : Int) (h : s.servoSt = svStopped ∨ s.stepSched = true) : s.servoOffset e = submitted s e := by
  have hm := submitted_moved s e
  have h' : (submitted s e).servoSt = svStopped ∨ (submitted s e).stepSched = true := by
    rwa [hm.servoSt (by decide), hm.stepSched (by decide)]
  unfold State.servoOffset
  extract_lets u
  exact if_pos h'

/-- What an offset leaves of the run that ends PENDING (R60). -/
def threeRunAfter (s : State) (e : Int) : Nat := if s.stepThresh < e.natAbs then 0 else s.servo.threeRun + 1

/-- The run of offsets within STEP_THRESH is `n` long with the latest one (R60). -/
def threeCounted (u : State) (n : Nat) : State := u.modServo fun v => { v with threeRun := n, lastCycles := u.time.cycles }

/-- PENDING_OFFSET takes the offset, which is counted (R60). -/
def pendTaken (s : State) (e : Int) (n : Nat) : State :=
  threeCounted (s.setFld64 F.TIME.PENDING_OFFSET_LO.PEND_LO F.TIME.PENDING_OFFSET_HI.PEND_HI (unsigned 64 e)) n

theorem servoOffset_pending (s : State) (e : Int) (h : s.servoSt = svPending) (hs : s.stepSched = false) : s.servoOffset e
    = if 3 ≤ threeRunAfter s e then ((pendTaken (submitted s e) e (threeRunAfter s e)).servoEnter svLocking).raiseInt Irq.pendCleared
      else pendTaken (submitted s e) e (threeRunAfter s e) := by
  have hm := submitted_moved s e
  have hst : (submitted s e).servoSt = svPending := (hm.servoSt (by decide)).trans h
  have hsch : (submitted s e).stepSched = false := (hm.stepSched (by decide)).trans hs
  have hservo : (submitted s e).servo = s.servo := rfl
  have hrun : (if decide ((submitted s e).stepThresh < e.natAbs) = true then 0 else (submitted s e).servo.threeRun + 1)
      = threeRunAfter s e := by
    rw [hm.stepThresh (by decide), threeRunAfter, hservo]
    by_cases hb : s.stepThresh < e.natAbs
    · rw [decide_eq_true hb, if_pos rfl, if_pos hb]
    · rw [decide_eq_false hb, if_neg Bool.false_ne_true, if_neg hb]
  unfold State.servoOffset
  extract_lets u big v n w
  have hu : u = submitted s e := rfl
  have hn : n = threeRunAfter s e := hrun
  have hw : w = pendTaken (submitted s e) e (threeRunAfter s e) := by rw [← hn]; rfl
  rw [if_neg (by rw [hu, hst, hsch]; decide), if_pos (hu ▸ hst), hw, hn]

/-- The offset is beyond STEP_THRESH (R59). -/
theorem servoOffset_big (s : State) (e : Int) (hst : s.servoSt ≠ svPending) (hst' : s.servoSt ≠ svStopped) (hs : s.stepSched = false)
    (hall : s.servo.slewAll = false) (h : s.stepThresh < e.natAbs) : s.servoOffset e = (submitted s e).stepOffset e := by
  have hm := submitted_moved s e
  have hu1 : (submitted s e).servoSt = s.servoSt := hm.servoSt (by decide)
  have hu2 : (submitted s e).stepSched = false := (hm.stepSched (by decide)).trans hs
  have hu3 : (submitted s e).stepThresh = s.stepThresh := hm.stepThresh (by decide)
  have hu4 : (submitted s e).servo = s.servo := rfl
  unfold State.servoOffset
  extract_lets u big
  have hu : u = submitted s e := rfl
  have hbig : big = true := decide_eq_true (by rw [hu, hu3]; exact h)
  clear_value u big
  subst hu
  rw [hu1, hu2, if_neg (by simp [hst']), if_neg hst, hu4, hbig, hall, if_pos (by rfl)]

/-- The servo of FREE or HOLDOVER locks on to the first offset it accepts (R64). -/
def lockingOn (s : State) : State := if s.servoSt = svFree ∨ s.servoSt = svHoldover then s.servoEnter svLocking else s

/-- The offset is within STEP_THRESH, or all are slewed (R57 to R59). -/
theorem servoOffset_small (s : State) (e : Int) (hst : s.servoSt ≠ svPending) (hst' : s.servoSt ≠ svStopped) (hs : s.stepSched = false)
    (h : e.natAbs ≤ s.stepThresh ∨ s.servo.slewAll = true) : s.servoOffset e = (lockingOn (submitted s e)).useOffset e := by
  have hm := submitted_moved s e
  have hu1 : (submitted s e).servoSt = s.servoSt := hm.servoSt (by decide)
  have hu2 : (submitted s e).stepSched = false := (hm.stepSched (by decide)).trans hs
  have hu3 : (submitted s e).stepThresh = s.stepThresh := hm.stepThresh (by decide)
  have hu4 : (submitted s e).servo = s.servo := rfl
  unfold State.servoOffset
  extract_lets u big v n w
  have hu : u = submitted s e := rfl
  have hbig : (big && !u.servo.slewAll) = false := by
    have hb : big = decide (s.stepThresh < e.natAbs) := by rw [← hu3, ← hu]
    rw [hb, hu, hu4]
    rcases h with h | h
    · rw [decide_eq_false (by omega), Bool.false_and]
    · rw [h, Bool.not_true, Bool.and_false]
  rw [if_neg (by rw [hu, hu1, hu2]; simp [hst']), if_neg (by rw [hu, hu1]; exact hst), hbig, if_neg (by decide)]
  rfl

/-- A command whose meaning is `t` ends in it, where `t` has only moved the servo. -/
theorem act_moved_eq {f : State → State} {l : List Nat} {s t : State} (hs : s.quiet = true) (hf : f s = t) (hm : Moved l s t)
    (hl : 0x005040 ∉ l) : act f s = .next t := act_eq hs hf (hm.quiet hl) hm.pending

theorem Moved.fld64 {l : List Nat} {s t : State} (h : Moved l s t) (f g : Fld) (hf : f.addr ∉ l) (hg : g.addr ∉ l) :
    t.fld64 f g = s.fld64 f g := by rw [State.fld64, h.fld f hf, h.fld g hg, State.fld64]

/-! ### Scheduled and pending steps (R59, R60, R61) -/

/-- A step by `e` rests for the boundary that `b` names (R61). -/
def stepSet (s : State) (b : Nat) (e : Int) : State :=
  (s.setBit F.TIME.TIME_STATE.STEP_SCHED true).modServo fun v => { v with sched := some (b, evenNs e) }

/-- The second boundary of a step scheduled now: the first at least 10 us ahead (R61). -/
def stepBoundary (s : State) : Nat := ceilDiv (s.nowNs + 10000) nsPerSec % 2 ^ 48

theorem scheduleStep_cases (s : State) (e : Int) : ∃ b r, s.scheduleStep e
    = (stepSet s (stepBoundary s) e).when b fun u => u.linkSend r := ⟨_, _, rfl⟩

theorem stepSet_moved (s : State) (b : Nat) (e : Int) : Moved [0x001048] s (stepSet s b e) :=
  (Moved.setBit s F.TIME.TIME_STATE.STEP_SCHED true (by decide)).trans (Moved.modServo _ _)

theorem scheduleStep_moved (s : State) (e : Int) : Moved [0x001048] s (s.scheduleStep e) := by
  obtain ⟨b, r, h⟩ := scheduleStep_cases s e
  rw [h]
  exact (stepSet_moved s _ e).trans (Moved.when _ _ _ fun u => Moved.linkSend u r)

theorem scheduleStep_regs (s : State) (e : Int) : (s.scheduleStep e).regs = (s.setBit F.TIME.TIME_STATE.STEP_SCHED true).regs := by
  obtain ⟨b, r, h⟩ := scheduleStep_cases s e
  have hs : (stepSet s (stepBoundary s) e).regs = (s.setBit F.TIME.TIME_STATE.STEP_SCHED true).regs := rfl
  rw [h, ← hs]
  cases b
  · rfl
  · exact linkSend_regs _ r

theorem scheduleStep_servo (s : State) (e : Int) :
    (s.scheduleStep e).servo = { s.servo with sched := some (stepBoundary s, evenNs e) } := by
  obtain ⟨b, r, h⟩ := scheduleStep_cases s e
  have hs : (stepSet s (stepBoundary s) e).servo = { s.servo with sched := some (stepBoundary s, evenNs e) } := rfl
  rw [h, ← hs]
  cases b
  · rfl
  · exact linkSend_servo _ r

theorem scheduleStep_fld (s : State) (e : Int) (f : Fld) (h : f.addr ≠ 0x001048 ∨ f.lo + f.width ≤ 7 ∨ 7 + 1 ≤ f.lo) :
    (s.scheduleStep e).fld f = s.fld f := by
  have hr : (s.scheduleStep e).fld f = (s.setBit F.TIME.TIME_STATE.STEP_SCHED true).fld f := by
    rw [State.fld, State.reg, scheduleStep_regs]
    rfl
  rw [hr]
  exact fld_setBit_other _ _ _ _ h

theorem scheduleStep_stepSched (s : State) (e : Int) : (s.scheduleStep e).stepSched = true := by
  have hr : (s.scheduleStep e).stepSched = (s.setBit F.TIME.TIME_STATE.STEP_SCHED true).stepSched := by
    rw [State.stepSched, State.bit, State.fld, State.reg, scheduleStep_regs]
    rfl
  rw [hr]
  exact bit_setBit_same s F.TIME.TIME_STATE.STEP_SCHED true (by decide) rfl

/-- Elapsed time of the latest offset, without the offset itself (R64). -/
def offsetSeen (u : State) : State := u.modServo fun v => { v with lastCycles := u.time.cycles }

theorem offsetSeen_moved {l : List Nat} (u : State) : Moved l u (offsetSeen u) := Moved.modServo u _

/-- A forward step that is enabled, and any step before the time is set, is scheduled (R59). -/
theorem stepOffset_schedules (s : State) (e : Int)
    (h : s.timeSet = false ∨ (e < 0 ∧ s.bit F.TIME.TIME_CTL.STEP_FWD_EN = true)) : s.stepOffset e = (offsetSeen s).scheduleStep e := by
  unfold State.stepOffset
  extract_lets fwd u
  refine if_pos ?_
  rcases h with h | ⟨h, h'⟩
  · exact Or.inl h
  · exact Or.inr ⟨decide_eq_true h, h'⟩

/-- PENDING_OFFSET takes the offset of a step that the host must answer (R59). -/
def stepPends (s : State) (e : Int) : State :=
  (offsetSeen s).setFld64 F.TIME.PENDING_OFFSET_LO.PEND_LO F.TIME.PENDING_OFFSET_HI.PEND_HI (unsigned 64 e)

/-- The interrupt of a pending step (R59). -/
def pendIrq (e : Int) : IntBit := if e < 0 then Irq.fwdPending else Irq.backPending

/-- Any other step is pending (R59). -/
theorem stepOffset_pends (s : State) (e : Int) (h : s.timeSet = true) (h' : ¬ (e < 0 ∧ s.bit F.TIME.TIME_CTL.STEP_FWD_EN = true)) :
    s.stepOffset e
      = (((stepPends s e).servoEnter svPending).pendBits (decide (e < 0)) (!decide (e < 0))).raiseInt (pendIrq e) := by
  have hn : ¬ ((offsetSeen s).timeSet = false ∨ (decide (e < 0) = true ∧ (offsetSeen s).bit F.TIME.TIME_CTL.STEP_FWD_EN = true)) := by
    rintro (hc | ⟨hc, hc'⟩)
    · exact Bool.false_ne_true (hc.symm.trans h)
    · exact h' ⟨of_decide_eq_true hc, hc'⟩
  have hi : (if decide (e < 0) = true then Irq.fwdPending else Irq.backPending) = pendIrq e := by
    rw [pendIrq]
    by_cases he : e < 0 <;> simp [he]
  unfold State.stepOffset
  extract_lets fwd u v
  rw [← hi]
  exact if_neg hn

/-- The registers an offset that arrives touches, beside LAST_OFFSET. -/
def servoRegs : List Nat := [0x001010, 0x001048, 0x00106C, 0x001070, 0x001084, 0x001088, 0x003010, 0x003050, 0x00604C, 0x006058]

theorem pendIrq_page (e : Int) : (pendIrq e).page = pgTIME := by
  rw [pendIrq]
  split <;> rfl

theorem stepPends_moved (s : State) (e : Int) : Moved [0x00106C, 0x001070] s (stepPends s e) :=
  (offsetSeen_moved s).trans (Moved.setFld64 _ _ _ _ (by decide) (by decide))

theorem entered_pending_moved (u : State) (b b' : Bool) (e : Int) (hs : timeQuiet u) :
    Moved [0x001010, 0x001048, 0x001088, 0x00604C, 0x006058] u
      (((u.servoEnter svPending).pendBits b b').raiseInt (pendIrq e)) := by
  have h1 : Moved [0x001010, 0x001048, 0x001088, 0x00604C, 0x006058] u ((u.servoEnter svPending).pendBits b b') :=
    (servoEnter_moved u svPending (by decide) (by decide) (by decide) fun _ => by decide).trans (Moved.pendBits _ _ _ (by decide))
  refine h1.trans (Moved.raiseInt _ _ ?_ ?_)
  · rw [pendIrq_page]
    exact (h1.timeQuiet (by decide) (by decide) hs).1
  · rw [pendIrq_page]
    decide

theorem stepOffset_moved (s : State) (e : Int) (hs : timeQuiet s) : Moved servoRegs s (s.stepOffset e) := by
  by_cases h : s.timeSet = false ∨ (e < 0 ∧ s.bit F.TIME.TIME_CTL.STEP_FWD_EN = true)
  · rw [stepOffset_schedules s e h]
    exact ((offsetSeen_moved s).trans (scheduleStep_moved _ e)).mono (by decide)
  · rw [not_or, Bool.not_eq_false] at h
    rw [stepOffset_pends s e h.1 h.2]
    have hp := stepPends_moved s e
    exact (hp.mono (by decide)).trans
      ((entered_pending_moved _ _ _ e (hp.timeQuiet (by decide) (by decide) hs)).mono (by decide))

theorem threeCounted_moved {l : List Nat} (u : State) (n : Nat) : Moved l u (threeCounted u n) := Moved.modServo u _

theorem pendTaken_moved (s : State) (e : Int) (n : Nat) : Moved [0x00106C, 0x001070] s (pendTaken s e n) :=
  (Moved.setFld64 s _ _ _ (by decide) (by decide)).trans (threeCounted_moved _ n)

/-- PENDING ends in LOCKING, and PEND_CLEARED is raised (R60). -/
theorem pending_ends_moved (u : State) (hs : timeQuiet u) :
    Moved [0x001010, 0x001048, 0x00604C, 0x006058] u ((u.servoEnter svLocking).raiseInt Irq.pendCleared) := by
  have h1 : Moved [0x001010, 0x001048, 0x00604C, 0x006058] u (u.servoEnter svLocking) :=
    servoEnter_moved u svLocking (by decide) (by decide) (by decide) (by decide)
  exact h1.trans (Moved.raiseInt _ Irq.pendCleared (h1.timeQuiet (by decide) (by decide) hs).1 (by decide))

theorem lockingOn_moved (s : State) : Moved [0x001048, 0x00604C, 0x006058] s (lockingOn s) := by
  unfold lockingOn
  split
  · exact servoEnter_moved s svLocking (by decide) (by decide) (by decide) (by decide)
  · exact Moved.refl _ s

theorem lockingOn_self (s : State) (h : s.servoSt ≠ svFree) (h' : s.servoSt ≠ svHoldover) : lockingOn s = s :=
  if_neg fun hc => hc.elim h h'

/-- Coming from HOLDOVER, or without an offset before, the offset is a first one (R56). -/
theorem lockingOn_prev (s : State) (h : s.servoSt = svHoldover ∨ s.servo.prev = none) : (lockingOn s).servo.prev = none := by
  unfold lockingOn
  split
  · rw [servoEnter_servo]
    rcases h with h | h
    · exact if_pos (by simp [h])
    · simp [enterRec, h]
  · next hn => exact h.resolve_left fun hc => hn (Or.inr hc)

/-- An offset leaves LAST_OFFSET to its own value and moves only the servo (R57 to R64). -/
theorem servoOffset_after (s : State) (e : Int) (hs : timeQuiet s) : Moved servoRegs (submitted s e) (s.servoOffset e) := by
  have hm := submitted_moved s e
  have hq : timeQuiet (submitted s e) := hm.timeQuiet (by decide) (by decide) hs
  by_cases hrec : s.servoSt = svStopped ∨ s.stepSched = true
  · rw [servoOffset_recorded s e hrec]
    exact Moved.refl _ _
  rw [not_or, Bool.not_eq_true] at hrec
  obtain ⟨hstop, hsched⟩ := hrec
  by_cases hpend : s.servoSt = svPending
  · rw [servoOffset_pending s e hpend hsched]
    have hp := pendTaken_moved (submitted s e) e (threeRunAfter s e)
    split
    · exact (hp.mono (by decide)).trans ((pending_ends_moved _ (hp.timeQuiet (by decide) (by decide) hq)).mono (by decide))
    · exact hp.mono (by decide)
  by_cases hsmall : e.natAbs ≤ s.stepThresh ∨ s.servo.slewAll = true
  · rw [servoOffset_small s e hpend hstop hsched hsmall]
    have hl := lockingOn_moved (submitted s e)
    exact (hl.mono (by decide)).trans ((useOffset_moved _ e (hl.timeQuiet (by decide) (by decide) hq)).mono (by decide))
  · rw [not_or, Bool.not_eq_true, Nat.not_le] at hsmall
    rw [servoOffset_big s e hpend hstop hsched hsmall.2 hsmall.1]
    exact stepOffset_moved _ e hq

theorem servoOffset_last (s : State) (e : Int) (hs : timeQuiet s) :
    (s.servoOffset e).fld64 F.TIME.LAST_OFFSET_LO.LAST_LO F.TIME.LAST_OFFSET_HI.LAST_HI = unsigned 64 e :=
  ((servoOffset_after s e hs).fld64 _ _ (by decide) (by decide)).trans (submitted_last s e)

theorem servoOffset_moved (s : State) (e : Int) (hs : timeQuiet s) : Moved (lastRegs ++ servoRegs) s (s.servoOffset e) :=
  ((submitted_moved s e).mono (by decide)).trans ((servoOffset_after s e hs).mono (by decide))

/-! ### Offsets of the host (R55) -/

/-- A quiet hub whose servo takes the offsets of the host. -/
structure HostSource (s : State) : Prop where
  quiet : s.quiet = true
  leads : s.follows = false
  silent : timeQuiet s
  source : s.timeSrc = 2

/-- The offset that a write of `v` to OFFSET_HI submits (R55). -/
abbrev offsetIn (s : State) (v : Reg) : Int := signed 64 (s.fld F.TIME.OFFSET_LO.OFS_LO + 2 ^ 32 * v.toNat)

/-- OFFSET_HI has been written. -/
def hostWritten (s : State) (v : Reg) : State := s.otherWrite.setFld F.TIME.OFFSET_HI.OFS_HI v.toNat

theorem hostWritten_moved (s : State) (v : Reg) : Moved [0x001060] s (hostWritten s v) :=
  (Moved.otherWrite s).trans (Moved.setFld _ _ _ (by decide))

theorem hostWritten_servo (s : State) (v : Reg) : (hostWritten s v).servo = s.servo := rfl

theorem offsetIn_bits (s : State) (v : Reg) : unsigned 64 (offsetIn s v) = s.fld F.TIME.OFFSET_LO.OFS_LO + 2 ^ 32 * v.toNat := by
  have hlo : s.fld F.TIME.OFFSET_LO.OFS_LO < 2 ^ 32 := fld_lt s _
  have hhi : v.toNat < 2 ^ 32 := v.isLt
  exact unsigned_signed64 _ (by omega)

theorem hostWritten_offset (s : State) (v : Reg) :
    signed 64 ((hostWritten s v).fld64 F.TIME.OFFSET_LO.OFS_LO F.TIME.OFFSET_HI.OFS_HI) = offsetIn s v := by
  have hhi : (hostWritten s v).fld F.TIME.OFFSET_HI.OFS_HI = v.toNat :=
    (fld_setFld_same _ _ _ (by decide)).trans (Nat.mod_eq_of_lt v.isLt)
  rw [State.fld64, hhi, (hostWritten_moved s v).fld F.TIME.OFFSET_LO.OFS_LO (by decide)]

theorem exec_hostOffsetSubmit (v : Reg) (s : State) :
    exec (.hostOffsetSubmit v) s = act (fun s => s.otherWrite.writeOffsetHi v.toNat) s := rfl

section
variable {s : State} {v : Reg} (h : HostSource s)
include h

theorem HostSource.otherWrite_source : s.otherWrite.timeSrc = 2 :=
  ((Moved.otherWrite (l := []) s).timeSrc (by decide)).trans h.source

theorem HostSource.writeOffsetHi : s.otherWrite.writeOffsetHi v.toNat = (hostWritten s v).servoOffset (offsetIn s v) := by
  have hf : (hostWritten s v).follows = false := ((hostWritten_moved s v).follows (by decide)).trans h.leads
  rw [← hostWritten_offset s v]
  unfold State.writeOffsetHi
  rw [h.otherWrite_source, if_neg (by decide)]
  exact if_neg (by rw [← hostWritten, hf]; decide)

theorem HostSource.written_silent : timeQuiet (hostWritten s v) := (hostWritten_moved s v).timeQuiet (by decide) (by decide) h.silent

/-- A write of OFFSET_HI is an offset at the servo. -/
theorem HostSource.submits : exec (.hostOffsetSubmit v) s = .next ((hostWritten s v).servoOffset (offsetIn s v)) := by
  rw [exec_hostOffsetSubmit, ← h.writeOffsetHi]
  refine act_moved (l := 0x001060 :: lastRegs ++ servoRegs) h.quiet ?_ (by decide)
  rw [h.writeOffsetHi]
  exact ((hostWritten_moved s v).mono (by decide)).trans ((servoOffset_moved _ _ h.written_silent).mono (by decide))

theorem HostSource.last : ((hostWritten s v).servoOffset (offsetIn s v)).fld64 F.TIME.LAST_OFFSET_LO.LAST_LO F.TIME.LAST_OFFSET_HI.LAST_HI
    = s.fld F.TIME.OFFSET_LO.OFS_LO + 2 ^ 32 * v.toNat :=
  (servoOffset_last _ _ h.written_silent).trans (offsetIn_bits s v)

theorem HostSource.time : ((hostWritten s v).servoOffset (offsetIn s v)).time = s.time :=
  (servoOffset_moved _ _ h.written_silent).time.trans (hostWritten_moved s v).time
end

/-- The state in which an offset of the host within STEP_THRESH is used. -/
def hostEntered (s : State) (v : Reg) : State := lockingOn (submitted (hostWritten s v) (offsetIn s v))

/-- What is touched until then. -/
def enteredRegs : List Nat := [0x001048, 0x001060, 0x001064, 0x001068, 0x00604C, 0x006058]

theorem hostSubmitted_moved (s : State) (v : Reg) :
    Moved [0x001060, 0x001064, 0x001068] s (submitted (hostWritten s v) (offsetIn s v)) :=
  ((hostWritten_moved s v).mono (by decide)).trans ((submitted_moved _ _).mono (by decide))

theorem hostEntered_moved (s : State) (v : Reg) : Moved enteredRegs s (hostEntered s v) :=
  ((hostSubmitted_moved s v).mono (by decide)).trans ((lockingOn_moved _).mono (by decide))

theorem hostEntered_silent (s : State) (v : Reg) (h : timeQuiet s) : timeQuiet (hostEntered s v) :=
  (hostEntered_moved s v).timeQuiet (by decide) (by decide) h

theorem hostSubmitted_servo (s : State) (v : Reg) : (submitted (hostWritten s v) (offsetIn s v)).servo = s.servo := rfl

theorem hostEntered_prev (s : State) (v : Reg) (h : s.servoSt = svHoldover ∨ s.servo.prev = none) : (hostEntered s v).servo.prev = none := by
  refine lockingOn_prev _ (h.imp (fun h => ?_) fun h => ?_)
  · exact ((hostSubmitted_moved s v).servoSt (by decide)).trans h
  · rw [hostSubmitted_servo, h]

/-- In LOCKING and LOCKED an offset changes no state before it is used. -/
theorem hostEntered_lock (s : State) (v : Reg) (h : s.servoSt = svLocking ∨ s.servoSt = svLocked) :
    hostEntered s v = submitted (hostWritten s v) (offsetIn s v) := by
  have hst := (hostSubmitted_moved s v).servoSt (by decide)
  refine lockingOn_self _ ?_ ?_
  · rw [hst]
    rcases h with h | h <;> rw [h] <;> decide
  · rw [hst]
    rcases h with h | h <;> rw [h] <;> decide

theorem offsetSpan_none {s : State} (h : s.servo.prev = none) : s.offsetSpan = nsPerSec := by rw [State.offsetSpan, h]
theorem offsetFirst_none {s : State} (h : s.servo.prev = none) : s.offsetFirst = true := by rw [State.offsetFirst, h]
theorem offsetSpan_some {s : State} {p : Nat} (h : s.servo.prev = some p) (hp : p < s.nowNs) : s.offsetSpan = s.nowNs - p := by
  rw [State.offsetSpan, h]
  exact if_neg (by omega)
theorem offsetFirst_some {s : State} {p : Nat} (h : s.servo.prev = some p) (hp : p < s.nowNs) : s.offsetFirst = false := by
  rw [State.offsetFirst, h]
  exact decide_eq_false (by omega)

theorem phaseLimited_eq (s : State) (e : Int) : s.phaseLimited e
    = decide (s.slewPpm * 2 ^ 32 * s.offsetSpan < s.fld F.TIME.SERVO_GAIN.KP * e.natAbs * 2 ^ 16 * 1000000) := by
  rw [State.phaseLimited, gainNum_natAbs]

section
variable {s : State} {v : Reg}

theorem hostEntered_uses (hsched : s.stepSched = false) (hsmall : (offsetIn s v).natAbs ≤ s.stepThresh) (hst : s.servoSt ≠ svPending) (hst' : s.servoSt ≠ svStopped) :
    (hostWritten s v).servoOffset (offsetIn s v) = (hostEntered s v).useOffset (offsetIn s v) := by
  have hm := hostWritten_moved s v
  refine servoOffset_small _ _ ?_ ?_ ?_ (Or.inl ?_)
  · rwa [hm.servoSt (by decide)]
  · rwa [hm.servoSt (by decide)]
  · rwa [hm.stepSched (by decide)]
  · rwa [hm.stepThresh (by decide)]

/-- What a write that submits an offset within STEP_THRESH leaves. -/
theorem HostSource.used (h : HostSource s) (hsched : s.stepSched = false) (hsmall : (offsetIn s v).natAbs ≤ s.stepThresh) (hst : s.servoSt ≠ svPending) (hst' : s.servoSt ≠ svStopped) :
    exec (.hostOffsetSubmit v) s = .next ((hostEntered s v).useOffset (offsetIn s v))
    ∧ ((hostEntered s v).useOffset (offsetIn s v)).fld64 F.TIME.LAST_OFFSET_LO.LAST_LO F.TIME.LAST_OFFSET_HI.LAST_HI
        = s.fld F.TIME.OFFSET_LO.OFS_LO + 2 ^ 32 * v.toNat
    ∧ ((hostEntered s v).useOffset (offsetIn s v)).servo.prev = some s.nowNs
    ∧ ((hostEntered s v).useOffset (offsetIn s v)).servo.lastCycles = s.time.cycles
    ∧ ((hostEntered s v).useOffset (offsetIn s v)).time = s.time := by
  obtain ⟨hprev, hlast⟩ := useOffset_prev (hostEntered s v) (offsetIn s v)
  rw [(hostEntered_moved s v).nowNs] at hprev
  rw [(hostEntered_moved s v).time] at hlast
  rw [← hostEntered_uses hsched hsmall hst hst'] at hprev hlast ⊢
  exact ⟨h.submits, h.last, hprev, hlast, h.time⟩

/-- The first offset moves the phase term alone (R56, R57). -/
theorem hostUsed_first (hq : timeQuiet s) (hst : s.servoSt = svHoldover ∨ (s.servoSt ≤ svLocked ∧ s.servo.prev = none))
    (hint : (s.sfld F.TIME.FREQ_INT.INT).natAbs ≤ 2147484)
    (hkp : s.fld F.TIME.SERVO_GAIN.KP * (offsetIn s v).natAbs * 2 ^ 16 * 1000000 ≤ s.slewPpm * 2 ^ 32 * nsPerSec) :
    ((hostEntered s v).useOffset (offsetIn s v)).fld F.TIME.FREQ_INT.INT = s.fld F.TIME.FREQ_INT.INT
    ∧ ((((hostEntered s v).useOffset (offsetIn s v)).sfld F.TIME.FREQ_ADJ.ADJ - s.sfld F.TIME.FREQ_INT.INT) * ((nsPerSec : Nat) : Int)
      + (s.fld F.TIME.SERVO_GAIN.KP : Int) * offsetIn s v * 2 ^ 16).natAbs < nsPerSec := by
  have hm := hostEntered_moved s v
  have hsil := hostEntered_silent s v hq
  have hprev := hostEntered_prev s v (hst.imp id And.right)
  have hspan := offsetSpan_none hprev
  have hkept : ((hostEntered s v).useOffset (offsetIn s v)).fld F.TIME.FREQ_INT.INT = s.fld F.TIME.FREQ_INT.INT :=
    (useOffset_first _ _ hsil (Or.inr (offsetFirst_none hprev))).trans (hm.fld _ (by decide))
  have hw := useOffset_within (hostEntered s v) (offsetIn s v) hsil (by rw [hspan]; decide)
    (by rw [hspan, hm.slewPpm (by decide), hm.fld F.TIME.SERVO_GAIN.KP (by decide)]; exact hkp) (by rw [sfld_of_fld hkept]; exact hint)
  rw [hspan, sfld_of_fld hkept, hm.fld F.TIME.SERVO_GAIN.KP (by decide)] at hw
  exact ⟨hkept, hw⟩

/-- The first offset beyond the slew limit moves the rate by the limit (R57, R58). -/
theorem hostUsed_firstLimited (hq : timeQuiet s) (hprev' : s.servo.prev = none) (hint : (s.sfld F.TIME.FREQ_INT.INT).natAbs ≤ 2147484)
    (hkp : s.slewPpm * 2 ^ 32 * nsPerSec < s.fld F.TIME.SERVO_GAIN.KP * (offsetIn s v).natAbs * 2 ^ 16 * 1000000) :
    ((hostEntered s v).useOffset (offsetIn s v)).fld F.TIME.FREQ_INT.INT = s.fld F.TIME.FREQ_INT.INT
    ∧ ((hostEntered s v).useOffset (offsetIn s v)).sfld F.TIME.FREQ_ADJ.ADJ
      = s.sfld F.TIME.FREQ_INT.INT + (if 0 < offsetIn s v then -ppmUnits s.slewPpm else ppmUnits s.slewPpm) := by
  have hm := hostEntered_moved s v
  have hsil := hostEntered_silent s v hq
  have hprev := hostEntered_prev s v (Or.inr hprev')
  have hi := hm.sfld F.TIME.FREQ_INT.INT (by decide)
  refine ⟨(useOffset_first _ _ hsil (Or.inr (offsetFirst_none hprev))).trans (hm.fld _ (by decide)), ?_⟩
  have hl := useOffset_limited (hostEntered s v) (offsetIn s v) hsil
    (by rw [offsetSpan_none hprev, hm.slewPpm (by decide), hm.fld F.TIME.SERVO_GAIN.KP (by decide)]; exact hkp) (by rw [hi]; exact hint)
  rwa [hi, hm.slewPpm (by decide)] at hl

/-- A later offset moves the integral and the phase term by the time since the one before (R56, R57). -/
theorem hostUsed_later {p : Nat} (hq : timeQuiet s) (hst : s.servoSt = svLocking ∨ s.servoSt = svLocked) (hprev : s.servo.prev = some p) (hp : p < s.nowNs)
    (hkp : s.fld F.TIME.SERVO_GAIN.KP * (offsetIn s v).natAbs * 2 ^ 16 * 1000000 ≤ s.slewPpm * 2 ^ 32 * (s.nowNs - p)) :
    (((hostEntered s v).useOffset (offsetIn s v)).sfld F.TIME.FREQ_INT.INT
        = clampInt (-intLimit) intLimit (s.sfld F.TIME.FREQ_INT.INT + gainNum (s.fld F.TIME.SERVO_GAIN.KI) (offsetIn s v) / ((s.nowNs - p : Nat) : Int))
      ∨ ((hostEntered s v).useOffset (offsetIn s v)).sfld F.TIME.FREQ_INT.INT
        = clampInt (-intLimit) intLimit (s.sfld F.TIME.FREQ_INT.INT + gainNum (s.fld F.TIME.SERVO_GAIN.KI) (offsetIn s v) / ((s.nowNs - p : Nat) : Int) + 1))
    ∧ ((((hostEntered s v).useOffset (offsetIn s v)).sfld F.TIME.FREQ_ADJ.ADJ - ((hostEntered s v).useOffset (offsetIn s v)).sfld F.TIME.FREQ_INT.INT)
        * ((s.nowNs - p : Nat) : Int) + (s.fld F.TIME.SERVO_GAIN.KP : Int) * offsetIn s v * 2 ^ 16).natAbs < s.nowNs - p := by
  have hm := hostEntered_moved s v
  have hsil := hostEntered_silent s v hq
  have hprev' : (hostEntered s v).servo.prev = some p := by rw [hostEntered_lock s v hst, hostSubmitted_servo, hprev]
  have hp' : p < (hostEntered s v).nowNs := by rwa [hm.nowNs]
  have hspan : (hostEntered s v).offsetSpan = s.nowNs - p := by rw [offsetSpan_some hprev' hp', hm.nowNs]
  have hkp' : (hostEntered s v).fld F.TIME.SERVO_GAIN.KP * (offsetIn s v).natAbs * 2 ^ 16 * 1000000
      ≤ (hostEntered s v).slewPpm * 2 ^ 32 * (hostEntered s v).offsetSpan := by
    rwa [hspan, hm.slewPpm (by decide), hm.fld F.TIME.SERVO_GAIN.KP (by decide)]
  have hlim : (hostEntered s v).phaseLimited (offsetIn s v) = false := by
    rw [phaseLimited_eq]
    exact decide_eq_false (Nat.not_lt.mpr hkp')
  obtain ⟨d, hd, hint⟩ := rated_freqInt (hostEntered s v) (offsetIn s v) hlim (offsetFirst_some hprev' hp')
  rw [← sfld_of_fld (useOffset_rate _ _ F.TIME.FREQ_INT.INT (by decide) hsil), hm.sfld F.TIME.FREQ_INT.INT (by decide)] at hint
  rw [hspan, hm.fld F.TIME.SERVO_GAIN.KI (by decide)] at hd
  have hw := useOffset_within (hostEntered s v) (offsetIn s v) hsil (by rw [hspan]; exact Nat.sub_pos_of_lt hp) hkp'
    (by rw [hint]; exact natAbs_clampInt _)
  rw [hspan, hm.fld F.TIME.SERVO_GAIN.KP (by decide)] at hw
  refine ⟨?_, hw⟩
  rw [hint]
  rcases hd with hd | hd
  · exact Or.inl (by rw [hd])
  · exact Or.inr (by rw [hd, add_assoc])

/-- The LOCK_COUNT-th small offset in a row locks (R61, R64). -/
theorem hostUsed_locks (hst : s.servoSt = svLocking) (hlock : (offsetIn s v).natAbs ≤ s.fld F.TIME.LOCK_CTL.LOCK_THRESH)
    (hrun : s.lockCount ≤ s.servo.inRun + 1) :
    ((hostEntered s v).useOffset (offsetIn s v)).servoSt = svLocked ∧ ((hostEntered s v).useOffset (offsetIn s v)).timeSet = true
    ∧ ((hostEntered s v).useOffset (offsetIn s v)).servo.slewAll = false
    ∧ (((hostEntered s v).useOffset (offsetIn s v)).reg (0x1000 * pgTIME + 0x010)).getLsbD Irq.locked.bit = true := by
  have hm := hostEntered_moved s v
  have he := hostEntered_lock s v (Or.inl hst)
  obtain ⟨n, hn⟩ := useOffset_locks (hostEntered s v) (offsetIn s v)
    (by rw [he, (hostSubmitted_moved s v).servoSt (by decide), hst]) (by rwa [hm.fld F.TIME.LOCK_CTL.LOCK_THRESH (by decide)])
    (by rw [hm.lockCount (by decide), he, hostSubmitted_servo]; exact hrun)
  rw [hn]
  refine ⟨lockedNow_servoSt _, lockedNow_timeSet _, ?_, lockedNow_irq _⟩
  rw [lockedNow_servo]

/-- One offset above four times LOCK_THRESH unlocks (R64). -/
theorem hostUsed_unlocks (hst : s.servoSt = svLocked) (hbig : 4 * s.fld F.TIME.LOCK_CTL.LOCK_THRESH < (offsetIn s v).natAbs) :
    ((hostEntered s v).useOffset (offsetIn s v)).servoSt = svLocking := by
  have hm := hostEntered_moved s v
  have he := hostEntered_lock s v (Or.inr hst)
  rw [useOffset_unlocks (hostEntered s v) (offsetIn s v) (by rw [he, (hostSubmitted_moved s v).servoSt (by decide), hst])
    (by rwa [hm.fld F.TIME.LOCK_CTL.LOCK_THRESH (by decide)])]
  exact servoEnter_servoSt _ svLocking (by decide)
end

/-! ### Offsets of the host beyond STEP_THRESH, in PENDING, and in STOPPED (R59 to R61, R63) -/

section
variable {s : State} {v : Reg}

/-- In STOPPED, and while a step is scheduled, the offset is only recorded (R61, R63, R64). -/
theorem hostOffset_recorded (hst : s.servoSt = svStopped ∨ s.stepSched = true) :
    (hostWritten s v).servoOffset (offsetIn s v) = submitted (hostWritten s v) (offsetIn s v) := by
  have hm := hostWritten_moved s v
  refine servoOffset_recorded _ _ ?_
  rwa [hm.servoSt (by decide), hm.stepSched (by decide)]

/-- Before the time is set, and forward where that is enabled, the step is scheduled (R59, R61). -/
theorem hostOffset_scheduled (hst : s.servoSt ≠ svPending) (hst' : s.servoSt ≠ svStopped) (hsched : s.stepSched = false)
    (hall : s.servo.slewAll = false) (hbig : s.stepThresh < (offsetIn s v).natAbs)
    (hstep : s.timeSet = false ∨ (offsetIn s v < 0 ∧ s.bit F.TIME.TIME_CTL.STEP_FWD_EN = true)) :
    (hostWritten s v).servoOffset (offsetIn s v)
      = (offsetSeen (submitted (hostWritten s v) (offsetIn s v))).scheduleStep (offsetIn s v) := by
  have hm := hostWritten_moved s v
  have hm' := hostSubmitted_moved s v
  rw [servoOffset_big _ _ (by rwa [hm.servoSt (by decide)]) (by rwa [hm.servoSt (by decide)]) (by rwa [hm.stepSched (by decide)])
    (by rwa [hostWritten_servo]) (by rwa [hm.stepThresh (by decide)])]
  refine stepOffset_schedules _ _ ?_
  rwa [hm'.timeSet (by decide), hm'.bit _ (by decide)]

/-- The state in which a step of the host becomes pending. -/
def hostPends (s : State) (v : Reg) : State := stepPends (submitted (hostWritten s v) (offsetIn s v)) (offsetIn s v)

/-- Any other step is pending (R59). -/
theorem hostOffset_pends (hst : s.servoSt ≠ svPending) (hst' : s.servoSt ≠ svStopped) (hsched : s.stepSched = false)
    (hall : s.servo.slewAll = false) (hbig : s.stepThresh < (offsetIn s v).natAbs) (hset : s.timeSet = true)
    (hstep : ¬ (offsetIn s v < 0 ∧ s.bit F.TIME.TIME_CTL.STEP_FWD_EN = true)) :
    (hostWritten s v).servoOffset (offsetIn s v)
      = (((hostPends s v).servoEnter svPending).pendBits (decide (offsetIn s v < 0)) (!decide (offsetIn s v < 0))).raiseInt
          (pendIrq (offsetIn s v)) := by
  have hm := hostWritten_moved s v
  have hm' := hostSubmitted_moved s v
  rw [servoOffset_big _ _ (by rwa [hm.servoSt (by decide)]) (by rwa [hm.servoSt (by decide)]) (by rwa [hm.stepSched (by decide)])
    (by rwa [hostWritten_servo]) (by rwa [hm.stepThresh (by decide)])]
  refine stepOffset_pends _ _ ?_ ?_
  · rwa [hm'.timeSet (by decide)]
  · rwa [hm'.bit _ (by decide)]

/-- In PENDING the offset becomes the pending one (R60). -/
theorem hostOffset_pending (hst : s.servoSt = svPending) (hsched : s.stepSched = false) :
    (hostWritten s v).servoOffset (offsetIn s v)
      = if 3 ≤ threeRunAfter s (offsetIn s v) then
          ((pendTaken (submitted (hostWritten s v) (offsetIn s v)) (offsetIn s v) (threeRunAfter s (offsetIn s v))).servoEnter
            svLocking).raiseInt Irq.pendCleared
        else pendTaken (submitted (hostWritten s v) (offsetIn s v)) (offsetIn s v) (threeRunAfter s (offsetIn s v)) := by
  have hm := hostWritten_moved s v
  have hrun : threeRunAfter (hostWritten s v) (offsetIn s v) = threeRunAfter s (offsetIn s v) := by
    rw [threeRunAfter, hm.stepThresh (by decide), hostWritten_servo, threeRunAfter]
  rw [servoOffset_pending _ _ (by rwa [hm.servoSt (by decide)]) (by rwa [hm.stepSched (by decide)]), hrun]
end

theorem hostPends_moved (s : State) (v : Reg) : Moved [0x001060, 0x001064, 0x001068, 0x00106C, 0x001070] s (hostPends s v) :=
  ((hostSubmitted_moved s v).mono (by decide)).trans ((stepPends_moved _ _).mono (by decide))

theorem setFld64_pend (s : State) (e : Int) :
    (s.setFld64 F.TIME.PENDING_OFFSET_LO.PEND_LO F.TIME.PENDING_OFFSET_HI.PEND_HI (unsigned 64 e)).fld64
      F.TIME.PENDING_OFFSET_LO.PEND_LO F.TIME.PENDING_OFFSET_HI.PEND_HI = unsigned 64 e :=
  (fld64_same s _ _ _ (by decide) (by decide) (by decide)).trans (Nat.mod_eq_of_lt (unsigned64_lt e))

theorem stepPends_pend (s : State) (e : Int) :
    (stepPends s e).fld64 F.TIME.PENDING_OFFSET_LO.PEND_LO F.TIME.PENDING_OFFSET_HI.PEND_HI = unsigned 64 e := setFld64_pend _ e

theorem pendTaken_pend (s : State) (e : Int) (n : Nat) :
    (pendTaken s e n).fld64 F.TIME.PENDING_OFFSET_LO.PEND_LO F.TIME.PENDING_OFFSET_HI.PEND_HI = unsigned 64 e :=
  ((threeCounted_moved (l := []) _ n).fld64 _ _ (by decide) (by decide)).trans (setFld64_pend s e)

theorem pendTaken_servo (s : State) (e : Int) (n : Nat) :
    (pendTaken s e n).servo.threeRun = n ∧ (pendTaken s e n).servo.prev = s.servo.prev := ⟨rfl, rfl⟩

/-- What the entry into PENDING with its pending bits and its interrupt leaves (R59, R60). -/
theorem entered_pending (u : State) (e : Int) (he : e ≠ 0) :
    (((u.servoEnter svPending).pendBits (decide (e < 0)) (!decide (e < 0))).raiseInt (pendIrq e)).servoSt = svPending
    ∧ (((u.servoEnter svPending).pendBits (decide (e < 0)) (!decide (e < 0))).raiseInt (pendIrq e)).stepSched = u.stepSched
    ∧ (((u.servoEnter svPending).pendBits (decide (e < 0)) (!decide (e < 0))).raiseInt (pendIrq e)).bit F.TIME.TIME_STATE.FWD_PENDING
        = decide (e < 0)
    ∧ (((u.servoEnter svPending).pendBits (decide (e < 0)) (!decide (e < 0))).raiseInt (pendIrq e)).bit F.TIME.TIME_STATE.BACK_PENDING
        = decide (0 < e)
    ∧ (((u.servoEnter svPending).pendBits (decide (e < 0)) (!decide (e < 0))).raiseInt (pendIrq e)).fld F.TIME.FREQ_ADJ.ADJ
        = u.fld F.TIME.FREQ_INT.INT := by
  have hpage : 0x1000 * (pendIrq e).page + 0x010 = 0x001010 := by
    rw [pendIrq_page]
    rfl
  have hback : (!decide (e < 0)) = decide (0 < e) := by
    rw [← decide_not]
    exact decide_eq_decide.mpr (by omega)
  rw [hback]
  refine ⟨?_, ?_, ?_, ?_, ?_⟩
  · rw [State.servoSt, raiseInt_fld _ _ _ (by rw [hpage]; decide), State.pendBits, fld_setBit_other _ _ _ _ (by decide),
      fld_setBit_other _ _ _ _ (by decide)]
    exact servoEnter_servoSt u svPending (by decide)
  · rw [State.stepSched, raiseInt_bit _ _ _ (by rw [hpage]; decide), State.pendBits, bit_setBit_other _ _ _ _ (by decide),
      bit_setBit_other _ _ _ _ (by decide)]
    exact servoEnter_stepSched u svPending (by decide)
  · rw [raiseInt_bit _ _ _ (by rw [hpage]; decide), State.pendBits, bit_setBit_other _ _ _ _ (by decide),
      bit_setBit_same _ _ _ (by decide) rfl]
  · rw [raiseInt_bit _ _ _ (by rw [hpage]; decide), State.pendBits, bit_setBit_same _ _ _ (by decide) rfl]
  · rw [raiseInt_fld _ _ _ (by rw [hpage]; decide), State.pendBits, fld_setBit_other _ _ _ _ (by decide),
      fld_setBit_other _ _ _ _ (by decide), servoEnter_freqAdj u svPending (by decide)]

/-- The interrupt says which way the pending step goes (R59). -/
theorem entered_pending_irq (u : State) (e : Int) :
    (0 < e → ((u.raiseInt (pendIrq e)).reg (0x1000 * pgTIME + 0x010)).getLsbD Irq.backPending.bit = true)
    ∧ (e < 0 → ((u.raiseInt (pendIrq e)).reg (0x1000 * pgTIME + 0x010)).getLsbD Irq.fwdPending.bit = true) := by
  constructor
  · intro he
    rw [pendIrq, if_neg (by omega)]
    exact raiseInt_irq u Irq.backPending (by decide)
  · intro he
    rw [pendIrq, if_pos he]
    exact raiseInt_irq u Irq.fwdPending (by decide)

/-- What the end of PENDING leaves (R60). -/
theorem pending_ends (u : State) (hst : u.servoSt = svPending) :
    ((u.servoEnter svLocking).raiseInt Irq.pendCleared).servoSt = svLocking
    ∧ ((u.servoEnter svLocking).raiseInt Irq.pendCleared).servo.prev = none
    ∧ ((u.servoEnter svLocking).raiseInt Irq.pendCleared).bit F.TIME.TIME_STATE.BACK_PENDING = false
    ∧ ((u.servoEnter svLocking).raiseInt Irq.pendCleared).bit F.TIME.TIME_STATE.FWD_PENDING = false
    ∧ (((u.servoEnter svLocking).raiseInt Irq.pendCleared).reg (0x1000 * pgTIME + 0x010)).getLsbD Irq.pendCleared.bit = true := by
  obtain ⟨hback, hfwd⟩ := servoEnter_pendBits u svLocking (by decide)
  refine ⟨?_, ?_, ?_, ?_, raiseInt_irq _ Irq.pendCleared (by decide)⟩
  · rw [State.servoSt, raiseInt_fld _ _ _ (by decide)]
    exact servoEnter_servoSt u svLocking (by decide)
  · rw [raiseInt_servo, servoEnter_servo, hst]
    rfl
  · rw [raiseInt_bit _ _ _ (by decide), hback]
  · rw [raiseInt_bit _ _ _ (by decide), hfwd]

/-! ### The source and FREQ_INT (R55, R61, R79) -/

theorem exec_srcChange (src : BitVec 2) (s : State) : exec (.srcChange src) s = act (fun s => s.otherWrite.setSrc src.toNat) s := rfl
theorem exec_freqIntWrite (v : Reg) (s : State) : exec (.freqIntWrite v) s = act (fun s => s.otherWrite.writeFreqInt v.toNat) s := rfl

/-- SRC has been written. -/
def srcWritten (s : State) (v : Nat) : State := s.setFld F.TIME.TIME_CTL.SRC v

/-- The next offset has no previous one (R56). -/
def prevGone (s : State) : State := s.modServo fun x => { x with prev := none }

theorem setSrc_same (s : State) (v : Nat) (h : (srcWritten s v).timeSrc = s.timeSrc) : s.setSrc v = srcWritten s v := by
  unfold State.setSrc
  exact if_pos (Or.inr h)

/-- A change of the source that does not end anything. -/
theorem setSrc_changed (s : State) (v : Nat) (hf : (srcWritten s v).follows = false) (h : (srcWritten s v).timeSrc ≠ s.timeSrc) :
    s.setSrc v = if (prevGone (srcWritten s v)).timeSrc = 0 then
        (if (prevGone (srcWritten s v)).cancelStep.servoSt = svFree ∨ (prevGone (srcWritten s v)).cancelStep.servoSt = svStopped then
          (prevGone (srcWritten s v)).cancelStep else (prevGone (srcWritten s v)).cancelStep.servoEnter svFree)
      else prevGone (srcWritten s v) := by
  unfold State.setSrc
  refine if_neg ?_
  rintro (hc | hc)
  · exact Bool.false_ne_true (hf.symm.trans hc)
  · exact h hc

theorem srcWritten_moved (s : State) (v : Nat) : Moved [0x001040] s (srcWritten s v) := Moved.setFld s _ _ (by decide)

theorem srcWritten_src (s : State) (v : Nat) (hv : v < 4) : (srcWritten s v).fld F.TIME.TIME_CTL.SRC = v :=
  (fld_setFld_same s _ _ (by decide)).trans (Nat.mod_eq_of_lt hv)

theorem srcWritten_timeSrc (s : State) (v : Nat) (hv : v < 4) : (srcWritten s v).timeSrc = srcOf v := by
  rw [State.timeSrc, srcWritten_src s v hv]

theorem prevGone_moved {l : List Nat} (s : State) : Moved l s (prevGone s) := Moved.modServo s _

theorem cancelStep_stepSched (s : State) : s.cancelStep.stepSched = false := by
  rw [State.cancelStep]
  exact bit_setBit_same s F.TIME.TIME_STATE.STEP_SCHED false (by decide) rfl

theorem cancelStep_servoSt (s : State) : s.cancelStep.servoSt = s.servoSt := by
  rw [State.cancelStep]
  exact fld_setBit_other s F.TIME.TIME_STATE.STATE F.TIME.TIME_STATE.STEP_SCHED false (by decide)

theorem cancelStep_timeSet (s : State) : s.cancelStep.timeSet = s.timeSet := by
  rw [State.cancelStep]
  exact bit_setBit_other s F.TIME.TIME_STATE.TIME_SET F.TIME.TIME_STATE.STEP_SCHED false (by decide)

/-- The state in which the servo loses its source. -/
def srcGone (s : State) (v : Nat) : State := (prevGone (srcWritten s.otherWrite v)).cancelStep

theorem srcChanged_moved (s : State) (v : Nat) : Moved [0x001040] s (prevGone (srcWritten s.otherWrite v)) :=
  ((Moved.otherWrite s).trans (srcWritten_moved _ v)).trans (prevGone_moved _)

theorem srcGone_moved (s : State) (v : Nat) : Moved [0x001040, 0x001048] s (srcGone s v) :=
  ((srcChanged_moved s v).mono (by decide)).trans (Moved.cancelStep _ (by decide))

/-- FREQ_INT takes a clamped value, and FREQ_ADJ with it (R79). -/
def freqWritten (s : State) (v : Nat) : State :=
  (s.setSfld F.TIME.FREQ_INT.INT (clampInt (-intLimit) intLimit (signed 32 v))).freqToInt

theorem writeFreqInt_free (s : State) (v : Nat) (h : s.servoSt = svFree ∨ s.servoSt = svHoldover) : s.writeFreqInt v = freqWritten s v :=
  if_pos h

theorem freqWritten_moved (s : State) (v : Nat) : Moved [0x001084, 0x001088] s (freqWritten s v) :=
  (Moved.setSfld s F.TIME.FREQ_INT.INT _ (by decide)).trans (Moved.setSfld _ F.TIME.FREQ_ADJ.ADJ _ (by decide))

theorem freqWritten_freqInt (s : State) (v : Nat) :
    (freqWritten s v).fld F.TIME.FREQ_INT.INT = unsigned 32 (clampInt (-intLimit) intLimit (signed 32 v)) := by
  rw [freqWritten, freqToInt_def, fld_setSfld_other _ _ _ _ (by decide), fld_setSfld_same _ _ _ (by decide)]

/-- The rate is the written value alone. -/
theorem freqWritten_freqAdj (s : State) (v : Nat) : (freqWritten s v).fld F.TIME.FREQ_ADJ.ADJ = (freqWritten s v).fld F.TIME.FREQ_INT.INT := by
  rw [freqWritten, freqToInt_def, fld_setSfld_same _ _ _ (by decide), fld_setSfld_other _ _ _ _ (by decide)]
  exact unsigned_signed32 _ (fld_lt _ _)

/-! ### The clauses of the servo's offsets and sources -/

section
variable {s : State} {v : Reg} (h : HostSource s)
include h

theorem HostSource.scheduled (hst : s.servoSt ≠ svPending) (hst' : s.servoSt ≠ svStopped) (hsched : s.stepSched = false)
    (hall : s.servo.slewAll = false) (hbig : s.stepThresh < (offsetIn s v).natAbs)
    (hstep : s.timeSet = false ∨ (offsetIn s v < 0 ∧ s.bit F.TIME.TIME_CTL.STEP_FWD_EN = true)) :
    ∃ t, exec (.hostOffsetSubmit v) s = .next t
      ∧ t.fld64 F.TIME.LAST_OFFSET_LO.LAST_LO F.TIME.LAST_OFFSET_HI.LAST_HI = s.fld F.TIME.OFFSET_LO.OFS_LO + 2 ^ 32 * v.toNat
      ∧ t.stepSched = true
      ∧ t.servo.sched = some (ceilDiv (s.nowNs + 10000) nsPerSec % 2 ^ 48, evenNs (offsetIn s v))
      ∧ t.servoSt = s.servoSt ∧ t.fld F.TIME.FREQ_ADJ.ADJ = s.fld F.TIME.FREQ_ADJ.ADJ ∧ t.time = s.time := by
  have hm : Moved [0x001060, 0x001064, 0x001068] s (offsetSeen (submitted (hostWritten s v) (offsetIn s v))) :=
    (hostSubmitted_moved s v).trans (offsetSeen_moved _)
  have heq := hostOffset_scheduled hst hst' hsched hall hbig hstep
  have hlast := h.last (v := v)
  have htime := h.time (v := v)
  rw [heq] at hlast htime
  refine ⟨_, h.submits.trans (congrArg _ heq), hlast, scheduleStep_stepSched _ _, ?_, ?_, ?_, htime⟩
  · rw [scheduleStep_servo, stepBoundary, hm.nowNs]
  · rw [State.servoSt, scheduleStep_fld _ _ _ (by decide)]
    exact hm.servoSt (by decide)
  · rw [scheduleStep_fld _ _ _ (by decide), hm.fld _ (by decide)]

theorem HostSource.pends (hst : s.servoSt ≠ svPending) (hst' : s.servoSt ≠ svStopped) (hsched : s.stepSched = false)
    (hall : s.servo.slewAll = false) (hbig : s.stepThresh < (offsetIn s v).natAbs) (hset : s.timeSet = true)
    (hstep : 0 < offsetIn s v ∨ s.bit F.TIME.TIME_CTL.STEP_FWD_EN = false) :
    ∃ t, exec (.hostOffsetSubmit v) s = .next t
      ∧ t.fld64 F.TIME.LAST_OFFSET_LO.LAST_LO F.TIME.LAST_OFFSET_HI.LAST_HI = s.fld F.TIME.OFFSET_LO.OFS_LO + 2 ^ 32 * v.toNat
      ∧ t.fld64 F.TIME.PENDING_OFFSET_LO.PEND_LO F.TIME.PENDING_OFFSET_HI.PEND_HI = s.fld F.TIME.OFFSET_LO.OFS_LO + 2 ^ 32 * v.toNat
      ∧ t.servoSt = svPending ∧ t.stepSched = false
      ∧ t.bit F.TIME.TIME_STATE.FWD_PENDING = decide (offsetIn s v < 0)
      ∧ t.bit F.TIME.TIME_STATE.BACK_PENDING = decide (0 < offsetIn s v)
      ∧ t.fld F.TIME.FREQ_ADJ.ADJ = s.fld F.TIME.FREQ_INT.INT ∧ t.fld F.TIME.FREQ_INT.INT = s.fld F.TIME.FREQ_INT.INT
      ∧ (0 < offsetIn s v → (t.reg (0x1000 * pgTIME + 0x010)).getLsbD Irq.backPending.bit = true)
      ∧ (offsetIn s v < 0 → (t.reg (0x1000 * pgTIME + 0x010)).getLsbD Irq.fwdPending.bit = true) ∧ t.time = s.time := by
  have hn : ¬ (offsetIn s v < 0 ∧ s.bit F.TIME.TIME_CTL.STEP_FWD_EN = true) := by
    rintro ⟨hneg, hen⟩
    rcases hstep with hstep | hstep
    · omega
    · exact Bool.false_ne_true (hstep.symm.trans hen)
  have hm := hostPends_moved s v
  have hsil : timeQuiet (hostPends s v) := hm.timeQuiet (by decide) (by decide) h.silent
  have hafter := entered_pending_moved (hostPends s v) (decide (offsetIn s v < 0)) (!decide (offsetIn s v < 0)) (offsetIn s v) hsil
  have hirq := entered_pending_irq (((hostPends s v).servoEnter svPending).pendBits (decide (offsetIn s v < 0))
    (!decide (offsetIn s v < 0))) (offsetIn s v)
  obtain ⟨hstate, hs', hfwd, hback, hadj⟩ := entered_pending (hostPends s v) (offsetIn s v) (by omega)
  have hpend : (hostPends s v).fld64 F.TIME.PENDING_OFFSET_LO.PEND_LO F.TIME.PENDING_OFFSET_HI.PEND_HI
      = s.fld F.TIME.OFFSET_LO.OFS_LO + 2 ^ 32 * v.toNat := (stepPends_pend _ _).trans (offsetIn_bits s v)
  have heq := hostOffset_pends hst hst' hsched hall hbig hset hn
  have hlast := h.last (v := v)
  have htime := h.time (v := v)
  rw [heq] at hlast htime
  refine ⟨_, h.submits.trans (congrArg _ heq), hlast, ?_, hstate, ?_, hfwd, hback, ?_, ?_, hirq.1, hirq.2, htime⟩
  · rw [hafter.fld64 _ _ (by decide) (by decide), hpend]
  · rw [hs', hm.stepSched (by decide), hsched]
  · rw [hadj, hm.fld _ (by decide)]
  · rw [hafter.fld _ (by decide), hm.fld _ (by decide)]

/-- The state in which PENDING has taken an offset of the host. -/
def hostPending (s : State) (v : Reg) : State :=
  pendTaken (submitted (hostWritten s v) (offsetIn s v)) (offsetIn s v) (threeRunAfter s (offsetIn s v))

omit h in
theorem hostPending_moved (s : State) (v : Reg) : Moved [0x001060, 0x001064, 0x001068, 0x00106C, 0x001070] s (hostPending s v) :=
  ((hostSubmitted_moved s v).mono (by decide)).trans ((pendTaken_moved _ _ _).mono (by decide))

omit h in
theorem hostPending_pend (s : State) (v : Reg) : (hostPending s v).fld64 F.TIME.PENDING_OFFSET_LO.PEND_LO F.TIME.PENDING_OFFSET_HI.PEND_HI
    = s.fld F.TIME.OFFSET_LO.OFS_LO + 2 ^ 32 * v.toNat := (pendTaken_pend _ _ _).trans (offsetIn_bits s v)

/-- A run of fewer than three offsets keeps PENDING (R60). -/
theorem HostSource.pending (hst : s.servoSt = svPending) (hsched : s.stepSched = false) (hrun : threeRunAfter s (offsetIn s v) < 3) :
    exec (.hostOffsetSubmit v) s = .next (hostPending s v)
      ∧ (hostPending s v).fld64 F.TIME.LAST_OFFSET_LO.LAST_LO F.TIME.LAST_OFFSET_HI.LAST_HI = s.fld F.TIME.OFFSET_LO.OFS_LO + 2 ^ 32 * v.toNat
      ∧ (hostPending s v).time = s.time := by
  have heq : (hostWritten s v).servoOffset (offsetIn s v) = hostPending s v :=
    (hostOffset_pending hst hsched).trans (if_neg (by omega))
  rw [← heq]
  exact ⟨h.submits, h.last, h.time⟩

/-- The third offset within STEP_THRESH ends PENDING (R60). -/
theorem HostSource.pendingEnds (hst : s.servoSt = svPending) (hsched : s.stepSched = false) (hrun : 3 ≤ threeRunAfter s (offsetIn s v)) :
    exec (.hostOffsetSubmit v) s = .next (((hostPending s v).servoEnter svLocking).raiseInt Irq.pendCleared)
      ∧ (((hostPending s v).servoEnter svLocking).raiseInt Irq.pendCleared).fld64 F.TIME.LAST_OFFSET_LO.LAST_LO F.TIME.LAST_OFFSET_HI.LAST_HI
          = s.fld F.TIME.OFFSET_LO.OFS_LO + 2 ^ 32 * v.toNat
      ∧ (((hostPending s v).servoEnter svLocking).raiseInt Irq.pendCleared).time = s.time := by
  have heq : (hostWritten s v).servoOffset (offsetIn s v) = ((hostPending s v).servoEnter svLocking).raiseInt Irq.pendCleared :=
    (hostOffset_pending hst hsched).trans (if_pos hrun)
  rw [← heq]
  exact ⟨h.submits, h.last, h.time⟩

theorem HostSource.pendingSmall (hst : s.servoSt = svPending) (hsched : s.stepSched = false)
    (hsmall : (offsetIn s v).natAbs ≤ s.stepThresh) :
    ∃ t, exec (.hostOffsetSubmit v) s = .next t
      ∧ t.fld64 F.TIME.PENDING_OFFSET_LO.PEND_LO F.TIME.PENDING_OFFSET_HI.PEND_HI = s.fld F.TIME.OFFSET_LO.OFS_LO + 2 ^ 32 * v.toNat
      ∧ t.fld64 F.TIME.LAST_OFFSET_LO.LAST_LO F.TIME.LAST_OFFSET_HI.LAST_HI = s.fld F.TIME.OFFSET_LO.OFS_LO + 2 ^ 32 * v.toNat
      ∧ (t.servoSt = (if 2 ≤ s.servo.threeRun then svLocking else svPending)) ∧ (2 ≤ s.servo.threeRun → (t.servo.prev = none
      ∧ t.bit F.TIME.TIME_STATE.BACK_PENDING = false ∧ t.bit F.TIME.TIME_STATE.FWD_PENDING = false
      ∧ (t.reg (0x1000 * pgTIME + 0x010)).getLsbD Irq.pendCleared.bit = true)) ∧ (s.servo.threeRun < 2 →
      t.servo.threeRun = s.servo.threeRun + 1) ∧ t.fld F.TIME.FREQ_ADJ.ADJ = s.fld F.TIME.FREQ_ADJ.ADJ
      ∧ t.fld F.TIME.FREQ_INT.INT = s.fld F.TIME.FREQ_INT.INT ∧ t.time = s.time := by
  have hrun : threeRunAfter s (offsetIn s v) = s.servo.threeRun + 1 := if_neg (by omega)
  have hm := hostPending_moved s v
  have hst' : (hostPending s v).servoSt = svPending := (hm.servoSt (by decide)).trans hst
  have hpend := hostPending_pend s v
  by_cases h2 : 2 ≤ s.servo.threeRun
  · obtain ⟨hexec, hlast, htime⟩ := h.pendingEnds (v := v) hst hsched (by omega)
    obtain ⟨hlock, hprev, hback, hfwd, hirq⟩ := pending_ends (hostPending s v) hst'
    have hafter := pending_ends_moved (hostPending s v) (hm.timeQuiet (by decide) (by decide) h.silent)
    refine ⟨_, hexec, ?_, hlast, ?_, fun _ => ⟨hprev, hback, hfwd, hirq⟩, fun hc => absurd hc (by omega), ?_, ?_, htime⟩
    · rw [hafter.fld64 _ _ (by decide) (by decide), hpend]
    · rw [if_pos h2, hlock]
    · rw [hafter.fld _ (by decide), hm.fld _ (by decide)]
    · rw [hafter.fld _ (by decide), hm.fld _ (by decide)]
  · obtain ⟨hexec, hlast, htime⟩ := h.pending (v := v) hst hsched (by omega)
    refine ⟨_, hexec, hpend, hlast, ?_, fun hc => absurd hc h2, fun _ => ?_, hm.fld _ (by decide), hm.fld _ (by decide), htime⟩
    · rw [if_neg h2, hst']
    · exact (pendTaken_servo _ _ _).1.trans hrun
end

section
variable {s : State} (hs : s.quiet = true) (hf : s.follows = false)
include hs hf

/-- A change of SRC to NONE ends LOCKING, LOCKED, PENDING and HOLDOVER in FREE (R55, R61). -/
theorem srcChange_none (src : BitVec 2) (hne : s.timeSrc ≠ 0) (h0 : srcOf src.toNat = 0) (hst : s.servoSt ≠ svFree) (hst' : s.servoSt ≠ svStopped) :
    ∃ t, exec (.srcChange src) s = .next t ∧ t.timeSrc = 0 ∧ t.servoSt = svFree ∧ t.stepSched = false ∧ t.servo.sched = none
      ∧ t.bit F.TIME.TIME_STATE.BACK_PENDING = false ∧ t.bit F.TIME.TIME_STATE.FWD_PENDING = false
      ∧ t.fld F.TIME.FREQ_INT.INT = s.fld F.TIME.FREQ_INT.INT ∧ t.fld F.TIME.FREQ_ADJ.ADJ = s.fld F.TIME.FREQ_INT.INT
      ∧ t.timeSet = s.timeSet ∧ t.time = s.time := by
  have hm := srcChanged_moved s src.toNat
  have hg := srcGone_moved s src.toNat
  have hsrc : (srcWritten s.otherWrite src.toNat).timeSrc = 0 := (srcWritten_timeSrc _ _ src.isLt).trans h0
  have hsrc' : (prevGone (srcWritten s.otherWrite src.toNat)).timeSrc = 0 := hsrc
  have hfree : (srcGone s src.toNat).servoSt = s.servoSt := (cancelStep_servoSt _).trans (hm.servoSt (by decide))
  have heq : s.otherWrite.setSrc src.toNat = (srcGone s src.toNat).servoEnter svFree := by
    rw [setSrc_changed _ _ ((hm.follows (by decide)).trans hf) (fun hc => hne (hc.symm.trans hsrc)), if_pos hsrc']
    refine if_neg ?_
    rw [← srcGone, hfree]
    exact fun hc => hc.elim hst hst'
  have he : Moved [0x001040, 0x001048, 0x001088, 0x00604C, 0x006058] s ((srcGone s src.toNat).servoEnter svFree) :=
    (hg.mono (by decide)).trans (servoEnter_moved _ svFree (by decide) (by decide) (by decide) fun _ => by decide)
  obtain ⟨hback, hfwd⟩ := servoEnter_pendBits (srcGone s src.toNat) svFree (by decide)
  refine ⟨_, (exec_srcChange src s).trans (act_moved_eq hs heq he (by decide)), ?_, servoEnter_servoSt _ svFree (by decide), ?_, ?_,
    hback, hfwd, he.fld _ (by decide), ?_, ?_, he.time⟩
  · have hs1 := (servoEnter_moved (l := [0x001048, 0x001088, 0x00604C, 0x006058]) (srcGone s src.toNat) svFree (by decide) (by decide)
      (by decide) fun _ => by decide).timeSrc (by decide)
    rw [hs1]
    exact ((Moved.cancelStep (l := [0x001048]) _ (by decide)).timeSrc (by decide)).trans hsrc'
  · rw [servoEnter_stepSched _ _ (by decide)]
    exact cancelStep_stepSched _
  · rw [servoEnter_servo]
    rfl
  · rw [servoEnter_freqAdj _ _ (by decide), hg.fld _ (by decide)]
  · rw [servoEnter_timeSet]
    exact (cancelStep_timeSet _).trans (hm.timeSet (by decide))

/-- Any other change of the source keeps STATE (R55). -/
theorem srcChange_other (src : BitVec 2) (hne : s.timeSrc ≠ srcOf src.toNat)
    (hst : srcOf src.toNat ≠ 0 ∨ s.servoSt = svFree ∨ s.servoSt = svStopped) :
    ∃ t, exec (.srcChange src) s = .next t ∧ t.fld F.TIME.TIME_CTL.SRC = src.toNat ∧ t.servoSt = s.servoSt ∧ t.servo.prev = none
      ∧ s.regsBut t [F.TIME.TIME_CTL.SRC.addr, F.TIME.TIME_STATE.STATE.addr] ∧ (srcOf src.toNat = 0 ∨ t.stepSched = s.stepSched)
      ∧ t.time = s.time := by
  have hm := srcChanged_moved s src.toNat
  have hg := srcGone_moved s src.toNat
  have hsrc : (srcWritten s.otherWrite src.toNat).timeSrc = srcOf src.toNat := srcWritten_timeSrc _ _ src.isLt
  have hsrc' : (prevGone (srcWritten s.otherWrite src.toNat)).timeSrc = srcOf src.toNat := hsrc
  have hval : (prevGone (srcWritten s.otherWrite src.toNat)).fld F.TIME.TIME_CTL.SRC = src.toNat := srcWritten_src _ _ src.isLt
  have hfree : (srcGone s src.toNat).servoSt = s.servoSt := (cancelStep_servoSt _).trans (hm.servoSt (by decide))
  have hset := setSrc_changed s.otherWrite src.toNat ((hm.follows (by decide)).trans hf) (fun hc => hne (hc.symm.trans hsrc))
  rw [hsrc'] at hset
  by_cases h0 : srcOf src.toNat = 0
  · have heq : s.otherWrite.setSrc src.toNat = srcGone s src.toNat := by
      rw [hset, if_pos h0]
      refine if_pos ?_
      rw [← srcGone, hfree]
      exact hst.resolve_left (not_not_intro h0)
    refine ⟨_, (exec_srcChange src s).trans (act_moved_eq hs heq hg (by decide)), ?_, hfree, rfl, hg.regs, Or.inl h0, hg.time⟩
    exact ((Moved.cancelStep (l := [0x001048]) _ (by decide)).fld _ (by decide)).trans hval
  · have heq : s.otherWrite.setSrc src.toNat = prevGone (srcWritten s.otherWrite src.toNat) := by rw [hset, if_neg h0]
    exact ⟨_, (exec_srcChange src s).trans (act_moved_eq hs heq hm (by decide)), hval, hm.servoSt (by decide), rfl,
      (hm.mono (by decide)).regs, Or.inr (hm.stepSched (by decide)), hm.time⟩

omit hf in
/-- A write of the source that runs changes nothing but the field. -/
theorem srcChange_same (src : BitVec 2) (h : s.timeSrc = srcOf src.toNat) :
    ∃ t, exec (.srcChange src) s = .next t ∧ t.fld F.TIME.TIME_CTL.SRC = src.toNat ∧ t.servo = s.servo ∧ s.onlyRegs t
      ∧ s.regsBut t [F.TIME.TIME_CTL.SRC.addr] := by
  have hm : Moved [0x001040] s (srcWritten s.otherWrite src.toNat) := (Moved.otherWrite s).trans (srcWritten_moved _ _)
  have heq : s.otherWrite.setSrc src.toNat = srcWritten s.otherWrite src.toNat :=
    setSrc_same _ _ ((srcWritten_timeSrc _ _ src.isLt).trans h.symm)
  exact ⟨_, (exec_srcChange src s).trans (act_moved_eq hs heq hm (by decide)), srcWritten_src _ _ src.isLt, rfl, rfl, hm.regs⟩

omit hf in
/-- In FREE and HOLDOVER FREQ_INT takes the clamped value (R79). -/
theorem freqIntWrite_free (v : Reg) (h : s.servoSt = svFree ∨ s.servoSt = svHoldover) :
    ∃ t, exec (.freqIntWrite v) s = .next t
      ∧ t.fld F.TIME.FREQ_INT.INT = unsigned 32 (clampInt (-intLimit) intLimit (signed 32 v.toNat))
      ∧ t.fld F.TIME.FREQ_ADJ.ADJ = t.fld F.TIME.FREQ_INT.INT ∧ t.servoSt = s.servoSt ∧ s.onlyRegs t
      ∧ s.regsBut t [F.TIME.FREQ_INT.INT.addr, F.TIME.FREQ_ADJ.ADJ.addr] := by
  have hm : Moved [0x001084, 0x001088] s (freqWritten s.otherWrite v.toNat) := (Moved.otherWrite s).trans (freqWritten_moved _ _)
  have heq : s.otherWrite.writeFreqInt v.toNat = freqWritten s.otherWrite v.toNat := writeFreqInt_free _ _ h
  exact ⟨_, (exec_freqIntWrite v s).trans (act_moved_eq hs heq hm (by decide)), freqWritten_freqInt _ _, freqWritten_freqAdj _ _,
    hm.servoSt (by decide), rfl, hm.regs⟩
end

/-- FREE, LOCKING and LOCKED are neither PENDING nor STOPPED. -/
theorem ne_of_le_svLocked {n : Nat} (h : n ≤ svLocked) : n ≠ svPending ∧ n ≠ svStopped := by
  constructor <;> rintro rfl <;> exact absurd h (by decide)

/-- Settles O6: each offset of the host is one case of `servoOffset`, and each write of SRC or FREQ_INT one of its own. -/
theorem servoTakesHostOffsetsAndSources : Obligations.ServoTakesHostOffsetsAndSources := by
  unfold Obligations.ServoTakesHostOffsetsAndSources
  intro s hs hf htime htick
  have host : s.timeSrc = 2 → HostSource s := fun hsrc => ⟨hs, hf, ⟨htime, htick⟩, hsrc⟩
  refine ⟨?_, ?_, ?_, ?_, ?_, ?_, ?_, ?_, ?_, ?_, ?_, ?_, ?_, ?_, ?_, ?_⟩
  · intro v hsrc hsched hst hsmall hint hkp
    have hne : s.servoSt ≠ svPending ∧ s.servoSt ≠ svStopped := by
      rcases hst with hst | ⟨hst, -⟩
      · rw [hst]
        decide
      · exact ne_of_le_svLocked hst
    obtain ⟨hexec, hlast, hprev, hcyc, ht⟩ := (host hsrc).used (v := v) hsched hsmall hne.1 hne.2
    obtain ⟨hkept, hadj⟩ := hostUsed_first (v := v) ⟨htime, htick⟩ hst hint hkp
    exact ⟨_, hexec, hlast, hkept, hadj, hprev, hcyc, ht⟩
  · intro v p hsrc hsched hst hprev' hp hsmall _ hkp
    have hne : s.servoSt ≠ svPending ∧ s.servoSt ≠ svStopped := by
      rcases hst with hst | hst <;> rw [hst] <;> decide
    obtain ⟨hexec, hlast, hprev, hcyc, ht⟩ := (host hsrc).used (v := v) hsched hsmall hne.1 hne.2
    obtain ⟨hint, hadj⟩ := hostUsed_later (v := v) ⟨htime, htick⟩ hst hprev' hp hkp
    exact ⟨_, hexec, hlast, hint, hadj, hprev, hcyc, ht⟩
  · intro v hsrc hsched hst hsmall hint hkp hprev' _
    have hne := ne_of_le_svLocked hst
    obtain ⟨hexec, hlast, hprev, hcyc, ht⟩ := (host hsrc).used (v := v) hsched hsmall hne.1 hne.2
    obtain ⟨hkept, hadj⟩ := hostUsed_firstLimited (v := v) ⟨htime, htick⟩ hprev' hint hkp
    exact ⟨_, hexec, hlast, hkept, hadj, hprev, hcyc, ht⟩
  · intro v hsrc hsched _ hst hst' hall hbig hstep
    exact (host hsrc).scheduled hst hst' hsched hall hbig hstep
  · intro v hsrc hsched hst hst' hall hbig hset hstep
    exact (host hsrc).pends hst hst' hsched hall hbig hset hstep
  · intro v hsrc hst hsched hbig
    have hrun : threeRunAfter s (offsetIn s v) = 0 := if_pos hbig
    have hm := hostPending_moved s v
    obtain ⟨hexec, hlast, ht⟩ := (host hsrc).pending (v := v) hst hsched (by omega)
    exact ⟨_, hexec, hostPending_pend s v, hlast, (hm.servoSt (by decide)).trans hst, hm.fld _ (by decide),
      (pendTaken_servo _ _ _).1.trans hrun, ht⟩
  · intro v hsrc hsched hst hsmall
    exact (host hsrc).pendingSmall hst hsched hsmall
  · intro v hsrc hst
    have heq := hostOffset_recorded (v := v) hst
    have hlast := (host hsrc).last (v := v)
    rw [heq] at hlast
    exact ⟨_, (host hsrc).submits.trans (congrArg _ heq), hlast, rfl, (hostSubmitted_moved s v).regs⟩
  · intro v hsrc
    exact act_eq (f := fun s => s.otherWrite.writeOffsetHi v.toNat) hs (if_pos hsrc) rfl rfl
  · intro v hsrc hsched hst hlock hsmall hrun
    obtain ⟨hexec, hlast, hprev, hcyc, -⟩ := (host hsrc).used (v := v) hsched hsmall (by rw [hst]; decide) (by rw [hst]; decide)
    obtain ⟨hstate, hset, hall, hirq⟩ := hostUsed_locks (v := v) hst hlock hrun
    exact ⟨_, hexec, hlast, hstate, hset, hall, hirq, hprev, hcyc⟩
  · intro v hsrc hsched hst hbig hsmall
    obtain ⟨hexec, hlast, hprev, hcyc, ht⟩ := (host hsrc).used (v := v) hsched hsmall (by rw [hst]; decide) (by rw [hst]; decide)
    exact ⟨_, hexec, hlast, hostUsed_unlocks hst hbig, hprev, hcyc, ht⟩
  · intro src hne h0 hst
    refine srcChange_none hs hf src hne h0 ?_ ?_ <;> rcases hst with hst | hst | hst | hst <;> rw [hst] <;> decide
  · intro src hne hst
    exact srcChange_other hs hf src hne hst
  · intro src h
    exact srcChange_same hs src h
  · intro v h
    exact freqIntWrite_free hs v h
  · intro v h h'
    exact act_eq (f := fun s => s.otherWrite.writeFreqInt v.toNat) hs (if_neg fun hc => hc.elim h h') rfl rfl

/-! ## Commands of TIME_CMD (R60, R65) -/

theorem exec_applyStep (s : State) : exec .applyStep s = act (fun s => s.otherWrite.writeTimeCmd 1) s := rfl
theorem exec_slewAccept (s : State) : exec .slewAccept s = act (fun s => s.otherWrite.writeTimeCmd 2) s := rfl
theorem exec_servoRestart (s : State) : exec .servoRestart s = act (fun s => s.otherWrite.writeTimeCmd 4) s := rfl

/-- On a hub that neither follows nor is mirrored TIME_CMD acts at once (R387). -/
theorem writeTimeCmd_alone (s : State) (v : Nat) (hf : s.follows = false) (hm : s.mirrored = false) : s.writeTimeCmd v = s.timeCmd v := by
  rw [State.writeTimeCmd, State.ifNotFollowing, hf, if_neg Bool.false_ne_true, State.sendDecision, hm, if_neg Bool.false_ne_true]

theorem timeCmd_apply (s : State) : s.timeCmd 1 = s.applyStepCmd := rfl
theorem timeCmd_slew (s : State) : s.timeCmd 2 = s.slewAcceptCmd := rfl
theorem timeCmd_restart (s : State) : s.timeCmd 4 = s.servoRestartCmd := rfl

/-- A hub that writes TIME_CMD for itself. -/
theorem otherWrite_timeCmd (s : State) (v : Nat) (hf : s.follows = false) (hm : s.mirrored = false) :
    s.otherWrite.writeTimeCmd v = s.otherWrite.timeCmd v := by
  have h : Moved [] s s.otherWrite := Moved.otherWrite s
  exact writeTimeCmd_alone _ _ ((h.follows (by decide)).trans hf) ((h.mirrored (by decide)).trans hm)

theorem applyStepCmd_else (s : State) (h : s.servoSt ≠ svPending ∨ s.stepSched = true) : s.applyStepCmd = s :=
  if_neg fun ⟨hst, hs⟩ => h.elim (fun hc => hc hst) fun hc => Bool.false_ne_true (hs.symm.trans hc)

theorem slewAcceptCmd_else (s : State) (h : s.servoSt ≠ svPending ∨ s.stepSched = true) : s.slewAcceptCmd = s :=
  if_neg fun ⟨hst, hs⟩ => h.elim (fun hc => hc hst) fun hc => Bool.false_ne_true (hs.symm.trans hc)

theorem servoRestartCmd_else (s : State) (h : s.servoSt ≠ svStopped ∨ s.servo.pllBad = true ∨ s.servo.refBad = true) :
    s.servoRestartCmd = s := by
  refine if_neg fun ⟨hst, hp, hr⟩ => ?_
  rcases h with h | h | h
  · exact h hst
  · exact Bool.false_ne_true (hp.symm.trans h)
  · exact Bool.false_ne_true (hr.symm.trans h)

/-- A command that is ignored leaves the write alone. -/
theorem otherWrite_ignored {f : State → State} {s : State} (hs : s.quiet = true) (h : f s.otherWrite = s.otherWrite) :
    act (fun s => f s.otherWrite) s = .next s.otherWrite := act_eq hs h rfl rfl

/-! ### SLEW_ACCEPT (R57, R58, R60) -/

/-- PENDING has ended by SLEW_ACCEPT, and later offsets are slewed until LOCKED (R60). -/
def slewStarted (s : State) : State :=
  ((s.servoEnter svLocking).modServo fun v => { v with slewAll := true }).raiseInt Irq.pendCleared

theorem slewAcceptCmd_pending (s : State) (h : s.servoSt = svPending) (hs : s.stepSched = false) :
    s.slewAcceptCmd = (slewStarted s).useOffset s.pendingOffset := if_pos ⟨h, hs⟩

theorem slewStarted_moved (s : State) (hq : timeQuiet s) : Moved [0x001010, 0x001048, 0x00604C, 0x006058] s (slewStarted s) := by
  have h1 : Moved [0x001010, 0x001048, 0x00604C, 0x006058] s ((s.servoEnter svLocking).modServo fun v => { v with slewAll := true }) :=
    (servoEnter_moved s svLocking (by decide) (by decide) (by decide) (by decide)).trans (Moved.modServo _ _)
  exact h1.trans (Moved.raiseInt _ Irq.pendCleared (h1.timeQuiet (by decide) (by decide) hq).1 (by decide))

theorem slewStarted_servo (s : State) :
    (slewStarted s).servo = { enterRec s.servoSt svLocking s.time.cycles s.servo with slewAll := true } := by
  rw [slewStarted, raiseInt_servo, ← servoEnter_servo]
  rfl

theorem slewStarted_servoSt (s : State) : (slewStarted s).servoSt = svLocking := by
  rw [slewStarted, State.servoSt, raiseInt_fld _ _ _ (by decide)]
  exact servoEnter_servoSt s svLocking (by decide)

/-- No pending bit is set. -/
def unpended (s : State) : Prop := s.bit F.TIME.TIME_STATE.BACK_PENDING = false ∧ s.bit F.TIME.TIME_STATE.FWD_PENDING = false

theorem slewStarted_unpended (s : State) : unpended (slewStarted s) := by
  obtain ⟨hback, hfwd⟩ := servoEnter_pendBits s svLocking (by decide)
  exact ⟨(raiseInt_bit _ _ _ (by decide)).trans hback, (raiseInt_bit _ _ _ (by decide)).trans hfwd⟩

theorem slewStarted_irq (s : State) : ((slewStarted s).reg 0x001010).getLsbD Irq.pendCleared.bit = true :=
  raiseInt_irq _ Irq.pendCleared (by decide)

/-- LOCKED has no pending bit set. -/
theorem lockedNow_unpended (s : State) : unpended (lockedNow s) := by
  obtain ⟨hback, hfwd⟩ := servoEnter_pendBits s svLocked (by decide)
  constructor
  · rw [lockedNow, raiseInt_bit _ _ _ (by decide), State.bit, markTimeSet_fld _ _ (by decide) (by decide) (by decide)]
    exact hback
  · rw [lockedNow, raiseInt_bit _ _ _ (by decide), State.bit, markTimeSet_fld _ _ (by decide) (by decide) (by decide)]
    exact hfwd

theorem lockCount_pos (s : State) : s.lockCount ≠ 0 := by
  simp only [State.lockCount]
  split
  · decide
  · assumption

/-- An offset used in LOCKING leaves the pending bits clear and every interrupt of TIME (R60, R64). -/
theorem useOffset_unpended (s : State) (e : Int) (hst : s.servoSt = svLocking) (hun : unpended s) (hb : (s.reg 0x001010).getLsbD b = true) :
    unpended (s.useOffset e) ∧ ((s.useOffset e).reg 0x001010).getLsbD b = true := by
  have hm := rated_moved s e
  by_cases hl : e.natAbs ≤ s.fld F.TIME.LOCK_CTL.LOCK_THRESH ∧ s.lockCount ≤ s.servo.inRun + 1
  · obtain ⟨n, hn⟩ := useOffset_locks s e hst hl.1 hl.2
    have hm' : Moved rateRegs s ((rated s e).modServo fun v => { v with inRun := n }) := hm.trans (Moved.modServo _ _)
    rw [hn]
    exact ⟨lockedNow_unpended _, lockedNow_keeps_irq _ _ (by rw [hm'.regs _ (by decide), hb])⟩
  · obtain ⟨n, hn⟩ := useOffset_locking s e hst hl (lockCount_pos s)
    have hm' : Moved rateRegs s ((rated s e).modServo fun v => { v with inRun := n }) := hm.trans (Moved.modServo _ _)
    rw [hn]
    exact ⟨⟨(hm'.bit _ (by decide)).trans hun.1, (hm'.bit _ (by decide)).trans hun.2⟩, by rw [hm'.regs _ (by decide), hb]⟩

/-- An offset used in LOCKING without a run before it locks where the one suffices (R64). -/
theorem useOffset_servoSt (s : State) (e : Int) (hst : s.servoSt = svLocking) (hrun : s.servo.inRun = 0) : (s.useOffset e).servoSt
    = if s.lockCount ≤ 1 ∧ e.natAbs ≤ s.fld F.TIME.LOCK_CTL.LOCK_THRESH then svLocked else svLocking := by
  by_cases hl : e.natAbs ≤ s.fld F.TIME.LOCK_CTL.LOCK_THRESH ∧ s.lockCount ≤ s.servo.inRun + 1
  · obtain ⟨n, hn⟩ := useOffset_locks s e hst hl.1 hl.2
    rw [hn, lockedNow_servoSt, if_pos ⟨by rw [hrun] at hl; exact hl.2, hl.1⟩]
  · obtain ⟨n, hn⟩ := useOffset_locking s e hst hl (lockCount_pos s)
    have hm : Moved rateRegs s ((rated s e).modServo fun v => { v with inRun := n }) :=
      (rated_moved s e).trans (Moved.modServo _ _)
    rw [hn, if_neg fun hc => hl ⟨hc.2, by rw [hrun]; exact hc.1⟩, hm.servoSt (by decide), hst]

/-- An offset that cannot lock leaves later ones slewed (R60). -/
theorem useOffset_slewAll (s : State) (e : Int) (hst : s.servoSt = svLocking) (hrun : s.servo.inRun = 0) (hl : 2 ≤ s.lockCount) :
    (s.useOffset e).servo.slewAll = s.servo.slewAll := by
  obtain ⟨n, hn⟩ := useOffset_locking s e hst (fun hc => by omega) (lockCount_pos s)
  have hserv : ((rated s e).modServo fun v => { v with inRun := n }).servo = { (rated s e).servo with inRun := n } := rfl
  rw [hn, hserv, rated_servo]

section
variable {s : State} (hs : s.quiet = true) (hf : s.follows = false) (hmir : s.mirrored = false) (hq : timeQuiet s)
  (hst : s.servoSt = svPending) (hsched : s.stepSched = false)
include hs hf hmir hst hsched

/-- APPLY_STEP schedules the pending offset (R60, R61). -/
theorem applyStep_pending : exec .applyStep s = .next (s.otherWrite.scheduleStep s.pendingOffset) := by
  have heq : s.otherWrite.writeTimeCmd 1 = s.otherWrite.scheduleStep s.pendingOffset := by
    rw [otherWrite_timeCmd s 1 hf hmir, timeCmd_apply]
    exact if_pos ⟨hst, hsched⟩
  exact (exec_applyStep s).trans
    (act_moved_eq hs heq ((Moved.otherWrite s).trans (scheduleStep_moved _ _)) (by decide))

include hq

theorem slewAccept_pending : exec .slewAccept s = .next ((slewStarted s.otherWrite).useOffset s.pendingOffset)
    ∧ Moved (0x001048 :: useRegs) s ((slewStarted s.otherWrite).useOffset s.pendingOffset) := by
  have hw : Moved [] s s.otherWrite := Moved.otherWrite s
  have hsl := slewStarted_moved s.otherWrite (hw.timeQuiet (by decide) (by decide) hq)
  have hm : Moved (0x001048 :: useRegs) s ((slewStarted s.otherWrite).useOffset s.pendingOffset) :=
    (hw.mono (by decide)).trans ((hsl.mono (by decide)).trans ((useOffset_moved _ _
      (hsl.timeQuiet (by decide) (by decide) (hw.timeQuiet (by decide) (by decide) hq))).mono (by decide)))
  have heq : s.otherWrite.writeTimeCmd 2 = (slewStarted s.otherWrite).useOffset s.pendingOffset := by
    rw [otherWrite_timeCmd s 2 hf hmir, timeCmd_slew]
    exact slewAcceptCmd_pending s.otherWrite hst hsched
  exact ⟨(exec_slewAccept s).trans (act_moved_eq hs heq hm (by decide)), hm⟩
end

/-- The state in which the pending offset of SLEW_ACCEPT is used: in LOCKING, without an offset before it (R56, R60). -/
theorem slewStarted_first (s : State) (hst : s.servoSt = svPending) :
    (slewStarted s.otherWrite).servo.prev = none ∧ (slewStarted s.otherWrite).servo.inRun = 0
      ∧ (slewStarted s.otherWrite).servo.slewAll = true := by
  have hst' : s.otherWrite.servoSt = svPending := hst
  rw [slewStarted_servo, hst']
  exact ⟨rfl, rfl, rfl⟩

theorem slewStarted_other_moved (s : State) (hq : timeQuiet s) :
    Moved [0x001010, 0x001048, 0x00604C, 0x006058] s (slewStarted s.otherWrite) :=
  (Moved.otherWrite s).trans
    (slewStarted_moved _ ((Moved.otherWrite (l := []) s).timeQuiet (by decide) (by decide) hq))

/-! ### SERVO_RESTART (R65) -/

/-- The injected causes of TIME and the expiry of HOLDOVER have ended (R65, R429). -/
def causesEnded (s : State) : State :=
  (s.modServo fun v => { v with expired := false }).modRim fun r =>
    { r with injected := r.injected.filter fun e => decide (e.1 ≠ pgTIME) }

theorem causesEnded_moved {l : List Nat} (s : State) : Moved l s (causesEnded s) := ⟨rfl, fun _ _ => rfl, rfl, rfl⟩

theorem servoRestart_stopped {s : State} (hs : s.quiet = true) (hf : s.follows = false) (hmir : s.mirrored = false)
    (hst : s.servoSt = svStopped) (hpll : s.servo.pllBad = false) (href : s.servo.refBad = false) :
    exec .servoRestart s = .next ((causesEnded s.otherWrite).servoEnter svFree)
    ∧ Moved [0x001048, 0x001088, 0x00604C, 0x006058] s ((causesEnded s.otherWrite).servoEnter svFree) := by
  have hm : Moved [0x001048, 0x001088, 0x00604C, 0x006058] s ((causesEnded s.otherWrite).servoEnter svFree) :=
    ((Moved.otherWrite s).trans (causesEnded_moved _)).trans
      (servoEnter_moved _ svFree (by decide) (by decide) (by decide) fun _ => by decide)
  have heq : s.otherWrite.writeTimeCmd 4 = (causesEnded s.otherWrite).servoEnter svFree := by
    rw [otherWrite_timeCmd s 4 hf hmir, timeCmd_restart]
    exact if_pos ⟨hst, hpll, href⟩
  exact ⟨(exec_servoRestart s).trans (act_moved_eq hs heq hm (by decide)), hm⟩

theorem applyStep_schedules {s : State} (hs : s.quiet = true) (hf : s.follows = false) (hmir : s.mirrored = false) (hst : s.servoSt = svPending) (hsched : s.stepSched = false) :
    ∃ t, exec .applyStep s = .next t ∧ t.stepSched = true
      ∧ t.servo.sched = some (ceilDiv (s.nowNs + 10000) nsPerSec % 2 ^ 48, evenNs s.pendingOffset) ∧ t.servoSt = svPending
      ∧ t.bit F.TIME.TIME_STATE.FWD_PENDING = s.bit F.TIME.TIME_STATE.FWD_PENDING
      ∧ t.bit F.TIME.TIME_STATE.BACK_PENDING = s.bit F.TIME.TIME_STATE.BACK_PENDING ∧ s.regsBut t [F.TIME.TIME_STATE.STATE.addr]
      ∧ t.time = s.time := by
  have hw : Moved [] s s.otherWrite := Moved.otherWrite s
  refine ⟨_, applyStep_pending hs hf hmir hst hsched, scheduleStep_stepSched _ _, ?_, ?_, ?_, ?_, ?_, ?_⟩
  · rw [scheduleStep_servo, stepBoundary, hw.nowNs]
  · exact (scheduleStep_fld _ _ _ (by decide)).trans hst
  · rw [State.bit, scheduleStep_fld _ _ _ (by decide)]
    rfl
  · rw [State.bit, scheduleStep_fld _ _ _ (by decide)]
    rfl
  · exact (hw.mono (by decide)).trans (scheduleStep_moved _ _) |>.regs
  · exact (scheduleStep_moved s.otherWrite _).time
theorem slewAccept_slews {s : State} (hs : s.quiet = true) (hf : s.follows = false) (hmir : s.mirrored = false) (hq : timeQuiet s) (hst : s.servoSt = svPending) (hsched : s.stepSched = false)
    (hint : (s.sfld F.TIME.FREQ_INT.INT).natAbs ≤ 2147484)
    (hkp : s.fld F.TIME.SERVO_GAIN.KP * (s.pendingOffset).natAbs * 2 ^ 16 * 1000000 ≤ s.slewPpm * 2 ^ 32 * nsPerSec) :
    ∃ t, exec .slewAccept s = .next t ∧ (t.servoSt = (if s.lockCount ≤ 1
      ∧ (s.pendingOffset).natAbs ≤ s.fld F.TIME.LOCK_CTL.LOCK_THRESH then svLocked else svLocking))
      ∧ t.bit F.TIME.TIME_STATE.BACK_PENDING = false ∧ t.bit F.TIME.TIME_STATE.FWD_PENDING = false
      ∧ (t.reg (0x1000 * pgTIME + 0x010)).getLsbD Irq.pendCleared.bit = true ∧ t.fld F.TIME.FREQ_INT.INT = s.fld F.TIME.FREQ_INT.INT
      ∧ (((t.sfld F.TIME.FREQ_ADJ.ADJ) - (s.sfld F.TIME.FREQ_INT.INT)) * ((nsPerSec : Nat) : Int)
        + ((s.fld F.TIME.SERVO_GAIN.KP : Nat) : Int) * (s.pendingOffset) * 2 ^ 16).natAbs < nsPerSec
      ∧ t.servo.prev = some s.nowNs ∧ t.servo.lastCycles = s.time.cycles ∧ t.time = s.time := by
  have hsl := slewStarted_other_moved s hq
  have hsil : timeQuiet (slewStarted s.otherWrite) := hsl.timeQuiet (by decide) (by decide) hq
  have hlocking := slewStarted_servoSt s.otherWrite
  obtain ⟨hexec, hm⟩ := slewAccept_pending hs hf hmir hq hst hsched
  obtain ⟨hnone, hrun, -⟩ := slewStarted_first s hst
  have hkept : ((slewStarted s.otherWrite).useOffset s.pendingOffset).fld F.TIME.FREQ_INT.INT = s.fld F.TIME.FREQ_INT.INT :=
    (useOffset_first _ _ hsil (Or.inr (offsetFirst_none hnone))).trans (hsl.fld _ (by decide))
  have hspan := offsetSpan_none hnone
  obtain ⟨⟨hback, hfwd⟩, hirq⟩ := useOffset_unpended _ s.pendingOffset hlocking (slewStarted_unpended _) (slewStarted_irq _)
  obtain ⟨hprev, hcyc⟩ := useOffset_prev (slewStarted s.otherWrite) s.pendingOffset
  rw [hsl.nowNs] at hprev
  rw [hsl.time] at hcyc
  have hw := useOffset_within (slewStarted s.otherWrite) s.pendingOffset hsil (by rw [hspan]; decide)
    (by rw [hspan, hsl.slewPpm (by decide), hsl.fld F.TIME.SERVO_GAIN.KP (by decide)]; exact hkp) (by rw [sfld_of_fld hkept]; exact hint)
  rw [hspan, sfld_of_fld hkept, hsl.fld F.TIME.SERVO_GAIN.KP (by decide)] at hw
  refine ⟨_, hexec, ?_, hback, hfwd, hirq, hkept, hw, hprev, hcyc, hm.time⟩
  rw [useOffset_servoSt _ _ hlocking hrun, hsl.lockCount (by decide), hsl.fld F.TIME.LOCK_CTL.LOCK_THRESH (by decide)]
theorem slewAccept_limited {s : State} (hs : s.quiet = true) (hf : s.follows = false) (hmir : s.mirrored = false) (hq : timeQuiet s) (hst : s.servoSt = svPending) (hsched : s.stepSched = false)
    (hint : (s.sfld F.TIME.FREQ_INT.INT).natAbs ≤ 2147484)
    (hkp : s.slewPpm * 2 ^ 32 * nsPerSec < s.fld F.TIME.SERVO_GAIN.KP * (s.pendingOffset).natAbs * 2 ^ 16 * 1000000)
    (hcount : 2 ≤ s.lockCount) :
    ∃ t, exec .slewAccept s = .next t ∧ t.servoSt = svLocking ∧ t.servo.slewAll = true ∧ t.bit F.TIME.TIME_STATE.BACK_PENDING = false
      ∧ t.bit F.TIME.TIME_STATE.FWD_PENDING = false ∧ (t.reg (0x1000 * pgTIME + 0x010)).getLsbD Irq.pendCleared.bit = true
      ∧ t.fld F.TIME.FREQ_INT.INT = s.fld F.TIME.FREQ_INT.INT
      ∧ (t.sfld F.TIME.FREQ_ADJ.ADJ = s.sfld F.TIME.FREQ_INT.INT
        + (if 0 < s.pendingOffset then -ppmUnits s.slewPpm else ppmUnits s.slewPpm))
      ∧ t.servo.prev = some s.nowNs ∧ t.servo.lastCycles = s.time.cycles ∧ t.time = s.time := by
  have hsl := slewStarted_other_moved s hq
  have hsil : timeQuiet (slewStarted s.otherWrite) := hsl.timeQuiet (by decide) (by decide) hq
  have hlocking := slewStarted_servoSt s.otherWrite
  obtain ⟨hexec, hm⟩ := slewAccept_pending hs hf hmir hq hst hsched
  obtain ⟨hnone, hrun, hall⟩ := slewStarted_first s hst
  have hkept : ((slewStarted s.otherWrite).useOffset s.pendingOffset).fld F.TIME.FREQ_INT.INT = s.fld F.TIME.FREQ_INT.INT :=
    (useOffset_first _ _ hsil (Or.inr (offsetFirst_none hnone))).trans (hsl.fld _ (by decide))
  obtain ⟨⟨hback, hfwd⟩, hirq⟩ := useOffset_unpended _ s.pendingOffset hlocking (slewStarted_unpended _) (slewStarted_irq _)
  obtain ⟨hprev, hcyc⟩ := useOffset_prev (slewStarted s.otherWrite) s.pendingOffset
  rw [hsl.nowNs] at hprev
  rw [hsl.time] at hcyc
  have hi := hsl.sfld F.TIME.FREQ_INT.INT (by decide)
  have hlc := hsl.lockCount (by decide)
  have hl := useOffset_limited (slewStarted s.otherWrite) s.pendingOffset hsil
    (by rw [offsetSpan_none hnone, hsl.slewPpm (by decide), hsl.fld F.TIME.SERVO_GAIN.KP (by decide)]; exact hkp) (by rw [hi]; exact hint)
  rw [hi, hsl.slewPpm (by decide)] at hl
  refine ⟨_, hexec, ?_, ?_, hback, hfwd, hirq, hkept, hl, hprev, hcyc, hm.time⟩
  · rw [useOffset_servoSt _ _ hlocking hrun, hlc, if_neg fun hc => by omega]
  · rw [useOffset_slewAll _ _ hlocking hrun (by rw [hlc]; exact hcount), hall]
theorem servoRestart_frees {s : State} (hs : s.quiet = true) (hf : s.follows = false) (hmir : s.mirrored = false) (hst : s.servoSt = svStopped) (hpll : s.servo.pllBad = false) (href : s.servo.refBad = false) :
    ∃ t, exec .servoRestart s = .next t ∧ t.servoSt = svFree ∧ t.timeSet = s.timeSet ∧ t.fld F.TIME.FREQ_ADJ.ADJ = s.fld F.TIME.FREQ_INT.INT
      ∧ t.fld F.TIME.FREQ_INT.INT = s.fld F.TIME.FREQ_INT.INT ∧ t.servo.prev = none ∧ t.time = s.time := by
  obtain ⟨hexec, hm⟩ := servoRestart_stopped hs hf hmir hst hpll href
  refine ⟨_, hexec, servoEnter_servoSt _ svFree (by decide), ?_, ?_, hm.fld _ (by decide), ?_, hm.time⟩
  · exact servoEnter_timeSet _ _
  · exact servoEnter_freqAdj _ _ (by decide)
  · rw [servoEnter_servo]
    rfl

/-- Settles O7: each command has one case in which it acts, and is ignored in the others. -/
theorem servoCommandsEndPendingAndStopped : Obligations.ServoCommandsEndPendingAndStopped := by
  unfold Obligations.ServoCommandsEndPendingAndStopped
  intro s hs hf hmir htime htick
  have hq : timeQuiet s := ⟨htime, htick⟩
  refine ⟨applyStep_schedules hs hf hmir, ?_, slewAccept_slews hs hf hmir hq, slewAccept_limited hs hf hmir hq, ?_,
    servoRestart_frees hs hf hmir, ?_⟩
  · intro h
    refine otherWrite_ignored (f := fun s => s.writeTimeCmd 1) hs ?_
    rw [otherWrite_timeCmd s 1 hf hmir, timeCmd_apply]
    exact applyStepCmd_else s.otherWrite h
  · intro h
    refine otherWrite_ignored (f := fun s => s.writeTimeCmd 2) hs ?_
    rw [otherWrite_timeCmd s 2 hf hmir, timeCmd_slew]
    exact slewAcceptCmd_else s.otherWrite h
  · intro h
    refine otherWrite_ignored (f := fun s => s.writeTimeCmd 4) hs ?_
    rw [otherWrite_timeCmd s 4 hf hmir, timeCmd_restart]
    exact servoRestartCmd_else s.otherWrite h

/-! ## What the PTP engine touches (R67 to R75) -/

/-- From `s` to `t` the PTP engine has worked: registers of the list, its own record, hub time, what waits for ARB_TX, the log and free
values may have changed, and nothing has fallen due. -/
structure Heard (l : List Nat) (s t : State) : Prop where
  only : t = { s with regs := t.regs, ptp := t.ptp, time := t.time, net := t.net, arbTx := t.arbTx, rim := t.rim, free := t.free }
  regs : s.regsBut t l
  fatalDue : t.rim.fatalDue = s.rim.fatalDue
  due : t.rim.due = s.rim.due
  toHost : t.net.local_ = s.net.local_
  owner : t.arbTx.owner = s.arbTx.owner

namespace Heard

variable {l l' : List Nat} {s t u : State}

theorem refl (l : List Nat) (s : State) : Heard l s s := ⟨rfl, fun _ _ => rfl, rfl, rfl, rfl, rfl⟩

theorem trans (h : Heard l s t) (h' : Heard l t u) : Heard l s u := by
  refine ⟨?_, fun a ha => (h'.regs a ha).trans (h.regs a ha), h'.fatalDue.trans h.fatalDue, h'.due.trans h.due,
    h'.toHost.trans h.toHost, h'.owner.trans h.owner⟩
  rw [h'.only, h.only]

theorem mono (h : Heard l s t) (hl : ∀ a ∈ l, a ∈ l') : Heard l' s t :=
  ⟨h.only, fun a ha => h.regs a fun ha' => ha (hl a ha'), h.fatalDue, h.due, h.toHost, h.owner⟩

theorem of_mild (h : Mild l s t) : Heard l s t := by
  have ho : t = { s with regs := t.regs, rim := t.rim } := h.only
  refine ⟨?_, h.regs, h.fatalDue, h.due, ?_, ?_⟩
  · rw [ho]
  · rw [ho]
  · rw [ho]

theorem setReg (s : State) (a : Nat) (v : Reg) (h : a ∈ l) : Heard l s (s.setReg a v) := of_mild (Mild.setReg s a v h)
theorem setFld (s : State) (f : Fld) (x : Nat) (h : f.addr ∈ l) : Heard l s (s.setFld f x) := setReg s _ _ h
theorem setBit (s : State) (f : Fld) (b : Bool) (h : f.addr ∈ l) : Heard l s (s.setBit f b) := setReg s _ _ h
theorem setSfld (s : State) (f : Fld) (x : Int) (h : f.addr ∈ l) : Heard l s (s.setSfld f x) := setReg s _ _ h
theorem count (s : State) (f : Fld) (k : Nat) (h : f.addr ∈ l) : Heard l s (s.count f k) := setReg s _ _ h
theorem setFld64 (s : State) (f g : Fld) (x : Nat) (h : f.addr ∈ l) (h' : g.addr ∈ l) : Heard l s (s.setFld64 f g x) :=
  (setFld s f _ h).trans (setFld _ g _ h')
theorem modPtp (s : State) (f : Ptp → Ptp) : Heard l s (s.modPtp f) := ⟨rfl, fun _ _ => rfl, rfl, rfl, rfl, rfl⟩
theorem raiseInt (s : State) (i : IntBit) (hb : s.bit (F.HDR.INT_ROUTE.INBAND i.page) = false) (h : 0x1000 * i.page + 0x010 ∈ l) :
    Heard l s (s.raiseInt i) := of_mild (Mild.raiseInt s i hb h)
theorem of_time (h : t = { s with time := t.time }) : Heard l s t := by
  rw [h]
  exact ⟨rfl, fun _ _ => rfl, rfl, rfl, rfl, rfl⟩
theorem reach (s : State) (n : Nat) : Heard l s (s.reachCycles n) := of_time (reachCycles_only s n)
theorem roundFree (s : State) (n : Int) (d : Nat) : Heard l s (s.roundFree n d).2 := by
  rw [roundFree_only]; exact ⟨rfl, fun _ _ => rfl, rfl, rfl, rfl, rfl⟩

/-- A part of a command that is done under a condition. -/
theorem when (s : State) (b : Bool) (f : State → State) (h : Heard l s (f s)) : Heard l s (s.when b f) := by
  cases b
  · exact refl l s
  · exact h

theorem fld (h : Heard l s t) (f : Fld) (hf : f.addr ∉ l) : t.fld f = s.fld f := congrArg (fun r => getBits r _ _) (h.regs _ hf)
theorem bit (h : Heard l s t) (f : Fld) (hf : f.addr ∉ l) : t.bit f = s.bit f := by rw [State.bit, h.fld f hf, State.bit]
theorem sfld (h : Heard l s t) (f : Fld) (hf : f.addr ∉ l) : t.sfld f = s.sfld f := by rw [State.sfld, h.fld f hf, State.sfld]
theorem fld64 (h : Heard l s t) (f g : Fld) (hf : f.addr ∉ l) (hg : g.addr ∉ l) : t.fld64 f g = s.fld64 f g := by
  rw [State.fld64, h.fld f hf, h.fld g hg, State.fld64]
theorem servo (h : Heard l s t) : t.servo = s.servo := by rw [h.only]
theorem pending (h : Heard l s t) : t.pending = s.pending := by rw [h.only]

theorem quiet (h : Heard l s t) (hl : 0x005040 ∉ l) : t.quiet = s.quiet := by
  apply quiet_congr
  · rw [h.only]
  · rw [h.only]
  · exact h.toHost
  · exact h.owner
  · exact h.fatalDue
  · exact h.due
  · exact h.fld F.NVM.BOOT_STS.STEP hl

theorem role (h : Heard l s t) (hl : 0x00D048 ∉ l) : t.role = s.role := h.fld F.PAIR.PAIR_STS.ROLE hl
theorem follows (h : Heard l s t) (hl : 0x00D048 ∉ l) : t.follows = s.follows := by simp only [State.follows, h.role hl]
theorem timeSrc (h : Heard l s t) (hl : 0x001040 ∉ l) : t.timeSrc = s.timeSrc := by simp only [State.timeSrc, h.fld F.TIME.TIME_CTL.SRC hl]
theorem timeQuiet (h : Heard l s t) (hl : 0x001018 ∉ l) (hl' : 0x003018 ∉ l) (hs : timeQuiet s) : TimeProofs.timeQuiet t :=
  ⟨(h.bit (F.HDR.INT_ROUTE.INBAND pgTIME) hl).trans hs.1, (h.bit (F.HDR.INT_ROUTE.INBAND pgTICK) hl').trans hs.2⟩

end Heard

/-- A command of the PTP engine whose meaning is `t` ends in it. -/
theorem act_heard_eq {f : State → State} {l : List Nat} {s t : State} (hs : s.quiet = true) (hf : f s = t) (hm : Heard l s t)
    (hl : 0x005040 ∉ l) : act f s = .next t := act_eq hs hf (hm.quiet hl) hm.pending

/-! ### The current master and the active port (R69, R70) -/

theorem setMaster_heard {l : List Nat} (s : State) (p : PortId) (h : 0x002054 ∈ l) (h' : 0x002058 ∈ l) (h'' : 0x00205C ∈ l) :
    Heard l s (s.setMaster p) :=
  ((Heard.setFld64 s F.PTP.CUR_MASTER_LO.ID_LO F.PTP.CUR_MASTER_HI.ID_HI _ h' h).trans (Heard.setFld _ F.PTP.PTP_STS.CUR_PORT _ h'')).trans
    (Heard.setBit _ F.PTP.PTP_STS.HAS_MASTER _ h'')

/-- `p` is the current master. -/
def masterIs (s : State) (p : PortId) : Prop :=
  s.bit F.PTP.PTP_STS.HAS_MASTER = true ∧ s.fld64 F.PTP.CUR_MASTER_LO.ID_LO F.PTP.CUR_MASTER_HI.ID_HI = p.clock
    ∧ s.fld F.PTP.PTP_STS.CUR_PORT = p.port

theorem setMaster_masterIs (s : State) (p : PortId) (hc : p.clock < 2 ^ 64) (hp : p.port < 2 ^ 16) : masterIs (s.setMaster p) p := by
  refine ⟨bit_setBit_same _ F.PTP.PTP_STS.HAS_MASTER true (by decide) rfl, ?_, ?_⟩
  · have h64 : (s.setFld64 F.PTP.CUR_MASTER_LO.ID_LO F.PTP.CUR_MASTER_HI.ID_HI p.clock).fld64 F.PTP.CUR_MASTER_LO.ID_LO
        F.PTP.CUR_MASTER_HI.ID_HI = p.clock :=
      (fld64_same s _ _ _ (by decide) (by decide) (by decide)).trans (Nat.mod_eq_of_lt hc)
    rw [State.setMaster, State.fld64, fld_setBit_other _ _ _ _ (by decide), fld_setFld_other _ _ _ _ (by decide),
      fld_setBit_other _ _ _ _ (by decide), fld_setFld_other _ _ _ _ (by decide), ← State.fld64, h64]
  · rw [State.setMaster, fld_setBit_other _ _ _ _ (by decide), fld_setFld_same _ _ _ (by decide)]
    exact Nat.mod_eq_of_lt hp

/-- The master stays where its registers do. -/
theorem masterIs_of_fld {s t : State} {p : PortId} (h : masterIs s p) (hb : t.bit F.PTP.PTP_STS.HAS_MASTER = s.bit F.PTP.PTP_STS.HAS_MASTER)
    (hlo : t.fld F.PTP.CUR_MASTER_LO.ID_LO = s.fld F.PTP.CUR_MASTER_LO.ID_LO) (hhi : t.fld F.PTP.CUR_MASTER_HI.ID_HI = s.fld F.PTP.CUR_MASTER_HI.ID_HI)
    (hp : t.fld F.PTP.PTP_STS.CUR_PORT = s.fld F.PTP.PTP_STS.CUR_PORT) : masterIs t p := by
  obtain ⟨hm, hc, hport⟩ := h
  exact ⟨hb.trans hm, by rw [State.fld64, hlo, hhi, ← State.fld64, hc], hp.trans hport⟩

theorem portMoved_heard {l : List Nat} (s : State) (hb : s.bit (F.HDR.INT_ROUTE.INBAND pgPTP) = false) (h : 0x002080 ∈ l) (h' : 0x002010 ∈ l) :
    Heard l s s.portMoved :=
  (Heard.count s F.PTP.PORT_SWITCH_CNT.CNT 1 h).trans
    (Heard.raiseInt _ Irq.portSwitch ((bit_count_other s _ _ _ (by decide)).trans hb) h')

theorem portMoved_fld (s : State) (f : Fld) (h : f.addr ≠ 0x002080) (h' : f.addr ≠ 0x002010) : s.portMoved.fld f = s.fld f :=
  (raiseInt_fld _ Irq.portSwitch f h').trans (fld_count_other s f _ _ (Or.inl h))

theorem portMoved_ptp (s : State) : s.portMoved.ptp = s.ptp := raiseInt_ptp _ _
theorem portMoved_time (s : State) : s.portMoved.time = s.time := raiseInt_time _ _

/-- The active port has been noted, and a move to it counted (R70). -/
def portNoted (s : State) (p : Port) : State :=
  (s.setFld F.PTP.PTP_STS.ACTIVE_PORT (s.activeAfter p)).when
    (s.slaveAuto && decide (s.fld F.PTP.PTP_STS.ACTIVE_PORT = 2) && decide (s.activeAfter p = 1)) State.portMoved

/-- The Syncs that the active port misses are counted while the other delivers (R70). -/
def missCounted (u : State) (n : Nat) (p : Port) : State :=
  u.modPtp fun x => { x with missed := if n = portCode p then 0 else x.missed + 1 }

theorem syncOn_eq (s : State) (p : Port) : s.syncOn p = missCounted (portNoted s p) (s.activeAfter p) p := rfl

theorem portNoted_ptp (s : State) (p : Port) : (portNoted s p).ptp = s.ptp := by
  unfold portNoted
  cases s.slaveAuto && decide (s.fld F.PTP.PTP_STS.ACTIVE_PORT = 2) && decide (s.activeAfter p = 1)
  · rfl
  · exact portMoved_ptp _

theorem portNoted_time (s : State) (p : Port) : (portNoted s p).time = s.time := by
  unfold portNoted
  cases s.slaveAuto && decide (s.fld F.PTP.PTP_STS.ACTIVE_PORT = 2) && decide (s.activeAfter p = 1)
  · rfl
  · exact portMoved_time _

theorem portNoted_set (s : State) (p : Port) (f : Fld) (h : f.addr ≠ 0x002080) (h' : f.addr ≠ 0x002010) :
    (portNoted s p).fld f = (s.setFld F.PTP.PTP_STS.ACTIVE_PORT (s.activeAfter p)).fld f := by
  unfold portNoted
  cases s.slaveAuto && decide (s.fld F.PTP.PTP_STS.ACTIVE_PORT = 2) && decide (s.activeAfter p = 1)
  · rfl
  · exact portMoved_fld _ f h h'

theorem activeAfter_lt (s : State) (p : Port) : s.activeAfter p < 4 := by
  have hlt : s.fld F.PTP.PTP_STS.ACTIVE_PORT < 2 ^ 2 := fld_lt s _
  have hp : portCode p < 4 := by cases p <;> decide
  simp only [State.activeAfter]
  split
  · omega
  · split
    · omega
    · split
      · exact hp
      · split <;> omega

theorem syncOn_active (s : State) (p : Port) : (s.syncOn p).fld F.PTP.PTP_STS.ACTIVE_PORT = s.activeAfter p := by
  have h : (s.syncOn p).fld F.PTP.PTP_STS.ACTIVE_PORT = (portNoted s p).fld F.PTP.PTP_STS.ACTIVE_PORT := by
    rw [syncOn_eq]
    rfl
  rw [h, portNoted_set _ _ _ (by decide) (by decide), fld_setFld_same _ _ _ (by decide)]
  exact Nat.mod_eq_of_lt (activeAfter_lt s p)

theorem syncOn_fld (s : State) (p : Port) (f : Fld) (h : f.addr ≠ 0x002080) (h' : f.addr ≠ 0x002010)
    (h'' : f.addr ≠ 0x00205C ∨ f.lo + f.width ≤ 0 ∨ 0 + 2 ≤ f.lo) : (s.syncOn p).fld f = s.fld f := by
  have hs : (s.syncOn p).fld f = (portNoted s p).fld f := by
    rw [syncOn_eq]
    rfl
  rw [hs, portNoted_set _ _ _ h h']
  exact fld_setFld_other _ _ _ _ h''

theorem syncOn_ptp (s : State) (p : Port) :
    (s.syncOn p).ptp = { s.ptp with missed := if s.activeAfter p = portCode p then 0 else s.ptp.missed + 1 } := by
  have h : (s.syncOn p).ptp
      = { (portNoted s p).ptp with missed := if s.activeAfter p = portCode p then 0 else (portNoted s p).ptp.missed + 1 } := by
    rw [syncOn_eq]
    rfl
  rw [h, portNoted_ptp]

theorem syncOn_time (s : State) (p : Port) : (s.syncOn p).time = s.time := by
  have h : (s.syncOn p).time = (portNoted s p).time := by
    rw [syncOn_eq]
    rfl
  rw [h, portNoted_time]

theorem syncOn_heard {l : List Nat} (s : State) (p : Port) (hb : s.bit (F.HDR.INT_ROUTE.INBAND pgPTP) = false) (h : 0x002080 ∈ l)
    (h' : 0x002010 ∈ l) (h'' : 0x00205C ∈ l) : Heard l s (s.syncOn p) := by
  rw [syncOn_eq]
  have h1 : Heard l s (s.setFld F.PTP.PTP_STS.ACTIVE_PORT (s.activeAfter p)) := Heard.setFld s _ _ h''
  refine (h1.trans (Heard.when _ _ _ (portMoved_heard _ ?_ h h'))).trans (Heard.modPtp _ _)
  exact (bit_setFld_other s _ _ _ (by decide)).trans hb

/-! ## Syncs and Follow_Ups (R63, R69 to R71) -/

/-- Elapsed time of the latest Sync of the accepted master (R82). -/
def syncNoted (u : State) : State := u.modPtp fun x => { x with lastSync := u.time.cycles }

/-- A Sync of the accepted master has been heard on port `p` (R69, R70). -/
def syncHeard (s : State) (p : Port) (m : SyncMsg) : State := (syncNoted (s.setMaster m.src)).syncOn p

/-- A Sync on the active port has been counted (R70). -/
def syncCounted (u : State) (m : SyncMsg) : State := (u.count F.PTP.SYNC_RX_CNT.CNT).setBit F.PTP.PTP_STS.TWO_STEP m.twoStep

theorem activeAfter_congr {s t : State} {p : Port} (h : t.fld F.PTP.PTP_CTL.SLAVE_PORT = s.fld F.PTP.PTP_CTL.SLAVE_PORT)
    (h' : t.fld F.PTP.PTP_STS.ACTIVE_PORT = s.fld F.PTP.PTP_STS.ACTIVE_PORT) : t.activeAfter p = s.activeAfter p := by
  simp only [State.activeAfter, h, h']

/-- Naming the master leaves the active port. -/
theorem setMaster_active (s : State) (p : PortId) : (s.setMaster p).fld F.PTP.PTP_STS.ACTIVE_PORT = s.fld F.PTP.PTP_STS.ACTIVE_PORT := by
  rw [State.setMaster, fld_setBit_other _ _ _ _ (by decide), fld_setFld_other _ _ _ _ (by decide), State.setFld64,
    fld_setFld_other _ _ _ _ (by decide), fld_setFld_other _ _ _ _ (by decide)]

theorem syncNoted_fld (u : State) (f : Fld) : (syncNoted u).fld f = u.fld f := rfl
theorem syncNoted_heard {l : List Nat} (u : State) : Heard l u (syncNoted u) := Heard.modPtp u _

section
variable (s : State) (p : Port) (m : SyncMsg)

theorem noted_activeAfter : (syncNoted (s.setMaster m.src)).activeAfter p = s.activeAfter p := by
  have h : Heard [0x002054, 0x002058, 0x00205C] s (s.setMaster m.src) := setMaster_heard s m.src (by decide) (by decide) (by decide)
  exact activeAfter_congr (h.fld F.PTP.PTP_CTL.SLAVE_PORT (by decide)) (setMaster_active s m.src)

theorem syncHeard_active : (syncHeard s p m).fld F.PTP.PTP_STS.ACTIVE_PORT = s.activeAfter p := by
  rw [syncHeard, syncOn_active, noted_activeAfter]

theorem syncHeard_masterIs (hc : m.src.clock < 2 ^ 64) (hp : m.src.port < 2 ^ 16) : masterIs (syncHeard s p m) m.src := by
  have h := setMaster_masterIs s m.src hc hp
  refine masterIs_of_fld h ?_ ?_ ?_ ?_
  · rw [syncHeard, State.bit, syncOn_fld _ _ _ (by decide) (by decide) (by decide)]
    rfl
  · rw [syncHeard, syncOn_fld _ _ _ (by decide) (by decide) (by decide), syncNoted_fld]
  · rw [syncHeard, syncOn_fld _ _ _ (by decide) (by decide) (by decide), syncNoted_fld]
  · rw [syncHeard, syncOn_fld _ _ _ (by decide) (by decide) (by decide), syncNoted_fld]

theorem syncHeard_ptp : (syncHeard s p m).ptp
    = { s.ptp with lastSync := s.time.cycles, missed := if s.activeAfter p = portCode p then 0 else s.ptp.missed + 1 } := by
  rw [syncHeard, syncOn_ptp, noted_activeAfter]
  rfl

theorem syncHeard_time : (syncHeard s p m).time = s.time := by
  rw [syncHeard, syncOn_time]
  rfl

/-- The registers that a Sync touches, beside those of the servo. -/
def syncRegs : List Nat := [0x002010, 0x002054, 0x002058, 0x00205C, 0x002080]

theorem syncHeard_heard (hb : s.bit (F.HDR.INT_ROUTE.INBAND pgPTP) = false) : Heard syncRegs s (syncHeard s p m) := by
  have h : Heard syncRegs s (syncNoted (s.setMaster m.src)) :=
    (setMaster_heard s m.src (by decide) (by decide) (by decide)).trans (syncNoted_heard _)
  exact h.trans (syncOn_heard _ p ((h.bit (F.HDR.INT_ROUTE.INBAND pgPTP) (by decide)).trans hb) (by decide) (by decide) (by decide))

theorem syncCounted_heard : Heard [0x002074, 0x00205C] s (syncCounted s m) :=
  (Heard.count s F.PTP.SYNC_RX_CNT.CNT 1 (by decide)).trans (Heard.setBit _ F.PTP.PTP_STS.TWO_STEP _ (by decide))

theorem syncCounted_twoStep : (syncCounted s m).bit F.PTP.PTP_STS.TWO_STEP = m.twoStep := bit_setBit_same _ _ _ (by decide) rfl

theorem syncCounted_cnt : (syncCounted s m).fld F.PTP.SYNC_RX_CNT.CNT = min (2 ^ 32 - 1) (s.fld F.PTP.SYNC_RX_CNT.CNT + 1) :=
  (fld_setBit_other _ _ _ _ (by decide)).trans (fld_count_same s _ 1 (by decide))

/-- A Sync that no slave of its domain accepts is not taken (R69). -/
theorem syncTake_ignored (h : s.slaveFor m.domain = false ∨ s.accepts m.src = false) : s.syncTake p m = s := if_pos h

theorem syncTake_accepted (h : s.slaveFor m.domain = true) (h' : s.accepts m.src = true) : s.syncTake p m
    = if (syncHeard s p m).fld F.PTP.PTP_STS.ACTIVE_PORT ≠ portCode p then syncHeard s p m
      else if m.stampOk = false then (syncCounted (syncHeard s p m) m).fuMiss
      else if m.twoStep then ((syncCounted (syncHeard s p m) m).fuMiss).modPtp fun x => { x with
        twoStep := some ⟨p, m, (syncCounted (syncHeard s p m) m).fuMiss.servo.steps, (syncCounted (syncHeard s p m) m).fuMiss.time.cycles,
          (syncCounted (syncHeard s p m) m).fuMiss.syncUse p m.rx⟩ }
      else if (syncCounted (syncHeard s p m) m).fuMiss.syncUse p m.rx then
        (syncCounted (syncHeard s p m) m).fuMiss.ptpOffset p m.rx m.origin m.corr
      else (syncCounted (syncHeard s p m) m).fuMiss := by
  refine if_neg ?_
  rw [h, h']
  decide

theorem fuMiss_none (h : s.ptp.twoStep = none) : s.fuMiss = s := by rw [State.fuMiss, h]
theorem fuMiss_some {w : TwoStep} (h : s.ptp.twoStep = some w) :
    s.fuMiss = (s.count F.PTP.FU_MISS_CNT.CNT).modPtp fun x => { x with twoStep := none } := by rw [State.fuMiss, h]

theorem fuMiss_heard : Heard [0x00207C] s s.fuMiss := by
  rcases h : s.ptp.twoStep with _ | w
  · rw [fuMiss_none s h]
    exact Heard.refl _ s
  · rw [fuMiss_some s h]
    exact (Heard.count s F.PTP.FU_MISS_CNT.CNT 1 (by decide)).trans (Heard.modPtp _ _)

/-- What a Sync on the active port leaves before it yields an offset. -/
def syncReady : State := syncCounted (syncHeard s p m) m

/-- The registers of a Sync that is counted. -/
def readyRegs : List Nat := 0x002074 :: syncRegs

theorem syncReady_heard (hb : s.bit (F.HDR.INT_ROUTE.INBAND pgPTP) = false) : Heard readyRegs s (syncReady s p m) :=
  ((syncHeard_heard s p m hb).mono (by decide)).trans ((syncCounted_heard _ m).mono (by decide))

theorem syncReady_ptp : (syncReady s p m).ptp = (syncHeard s p m).ptp := rfl
theorem syncReady_time : (syncReady s p m).time = s.time := (syncHeard_time s p m)

theorem syncReady_masterIs (hc : m.src.clock < 2 ^ 64) (hp : m.src.port < 2 ^ 16) : masterIs (syncReady s p m) m.src := by
  have h : ∀ f : Fld, f.addr ≠ 0x002074 → (f.addr ≠ 0x00205C ∨ f.lo + f.width ≤ 3 ∨ 3 + 1 ≤ f.lo) →
      (syncReady s p m).fld f = (syncHeard s p m).fld f := fun f hf hf' =>
    (fld_setBit_other _ _ _ _ hf').trans (fld_count_other _ _ _ _ (Or.inl hf))
  refine masterIs_of_fld (syncHeard_masterIs s p m hc hp) ?_ (h _ (by decide) (by decide)) (h _ (by decide) (by decide))
    (h _ (by decide) (by decide))
  rw [State.bit, h _ (by decide) (by decide), State.bit]

theorem syncReady_active : (syncReady s p m).fld F.PTP.PTP_STS.ACTIVE_PORT = s.activeAfter p := by
  rw [← syncHeard_active s p m]
  exact (fld_setBit_other _ _ _ _ (by decide)).trans (fld_count_other _ _ _ _ (by decide))

theorem syncReady_cnt (hb : s.bit (F.HDR.INT_ROUTE.INBAND pgPTP) = false) :
    (syncReady s p m).fld F.PTP.SYNC_RX_CNT.CNT = min (2 ^ 32 - 1) (s.fld F.PTP.SYNC_RX_CNT.CNT + 1) := by
  rw [syncReady, syncCounted_cnt, (syncHeard_heard s p m hb).fld _ (by decide)]

theorem delayValid_congr {s t : State} {p : Port} (h : t.fld (linkDelayFld p) = s.fld (linkDelayFld p)) : t.delayValid p = s.delayValid p := by
  rw [State.delayValid, h, State.delayValid]

theorem linkDelayFld_addr (p : Port) : (linkDelayFld p).addr = 0x002060 ∨ (linkDelayFld p).addr = 0x002064 := by
  cases p
  · exact Or.inl rfl
  · exact Or.inr rfl

theorem Heard.linkDelay {l : List Nat} {s t : State} (h : Heard l s t) (p : Port) (hl : 0x002060 ∉ l) (hl' : 0x002064 ∉ l) :
    t.fld (linkDelayFld p) = s.fld (linkDelayFld p) := by
  refine h.fld _ ?_
  rcases linkDelayFld_addr p with ha | ha <;> rw [ha] <;> assumption

theorem Heard.asym {l : List Nat} {s t : State} (h : Heard l s t) (p : Port) (hl : 0x002068 ∉ l) (hl' : 0x00206C ∉ l) :
    t.sfld (asymFld p) = s.sfld (asymFld p) := by
  cases p
  · exact h.sfld F.PTP.ASYM_A.ASYM hl
  · exact h.sfld F.PTP.ASYM_B.ASYM hl'

theorem beforeStep_congr {s t : State} {rx : HubTime} (h : t.servo = s.servo) (h' : t.nowNs = s.nowNs) : t.beforeStep rx = s.beforeStep rx := by
  simp only [State.beforeStep, h, h']

theorem nowNs_of_time {s t : State} (h : t.time = s.time) : t.nowNs = s.nowNs := by rw [State.nowNs, h, State.nowNs]

theorem syncReady_use (hb : s.bit (F.HDR.INT_ROUTE.INBAND pgPTP) = false) : (syncReady s p m).syncUse p m.rx = s.syncUse p m.rx := by
  have h := syncReady_heard s p m hb
  rw [State.syncUse, delayValid_congr (h.linkDelay p (by decide) (by decide)), beforeStep_congr h.servo (nowNs_of_time (syncReady_time s p m)),
    State.syncUse]

/-- On the active port, with no Sync waiting for its Follow_Up. -/
theorem syncTake_active (h : s.slaveFor m.domain = true) (h' : s.accepts m.src = true) (ha : s.activeAfter p = portCode p)
    (hw : s.ptp.twoStep = none) (hok : m.stampOk = true) (hb : s.bit (F.HDR.INT_ROUTE.INBAND pgPTP) = false) : s.syncTake p m
      = if m.twoStep then (syncReady s p m).modPtp fun x => { x with
          twoStep := some ⟨p, m, s.servo.steps, s.time.cycles, s.syncUse p m.rx⟩ }
        else if s.syncUse p m.rx then (syncReady s p m).ptpOffset p m.rx m.origin m.corr
        else syncReady s p m := by
  have hnone : (syncCounted (syncHeard s p m) m).fuMiss = syncReady s p m := by
    refine fuMiss_none _ ?_
    have hp : (syncCounted (syncHeard s p m) m).ptp = (syncHeard s p m).ptp := rfl
    rw [hp, syncHeard_ptp]
    exact hw
  rw [syncTake_accepted s p m h h', syncHeard_active, if_neg (not_not_intro ha), hok, if_neg (by decide), hnone,
    (syncReady_heard s p m hb).servo, syncReady_time, syncReady_use s p m hb]

/-- On the other port a Sync is not counted (R70). -/
theorem syncTake_other (h : s.slaveFor m.domain = true) (h' : s.accepts m.src = true) (ha : s.activeAfter p ≠ portCode p) :
    s.syncTake p m = syncHeard s p m := by
  rw [syncTake_accepted s p m h h', syncHeard_active, if_pos ha]

theorem syncRx_ok (hok : m.stampOk = true) : s.syncRx p m = s.syncTake p m := by
  rw [State.syncRx, hok]
  rfl

theorem syncRx_lost (hok : m.stampOk = false) : s.syncRx p m = (s.tsOverflow p).syncTake p m := by
  rw [State.syncRx, hok]
  rfl
end

theorem exec_syncRx (p : Port) (m : SyncMsg) (s : State) : exec (.syncRx p m) s = act (fun s => s.syncRx p m) s := rfl
theorem exec_followUpRx (p : Port) (m : FollowUpMsg) (s : State) : exec (.followUpRx p m) s = act (fun s => s.followUpRx p m) s := rfl
theorem exec_followUpTimeout (s : State) : exec .followUpTimeout s = act State.fuTimeout s := rfl

/-! ### The offset of a Sync (R55, R71) -/

theorem roundFree_exact (s : State) (e : Int) (d : Nat) (hd : 0 < d) : s.roundFree (e * d) d = (e, s) := by
  have hd' : (d : Int) ≠ 0 := by exact_mod_cast hd.ne'
  rw [State.roundFree, Int.mul_emod_left, if_pos rfl, Int.mul_ediv_cancel _ hd']

/-- An offset of whole nanoseconds reaches the servo as it is. -/
theorem ptpOffset_exact (s : State) (p : Port) (rx origin : HubTime) (corr e : Int) (hsrc : s.timeSrc = 1) (hf : s.follows = false)
    (hd : s.delayValid p = true) (he : s.offsetOf p rx origin corr = e * 2 ^ 16) : s.ptpOffset p rx origin corr = s.servoOffset e := by
  have hr : s.roundFree (s.offsetOf p rx origin corr - 0) (2 ^ 16) = (e, s) := by
    have hpow : ((2 ^ 16 : Nat) : Int) = 2 ^ 16 := by norm_num
    rw [he, sub_zero, ← hpow]
    exact roundFree_exact s e (2 ^ 16) (by norm_num)
  unfold State.ptpOffset
  rw [if_pos ⟨hsrc, hf⟩, if_pos hd]
  -- a name for the rounding keeps the kernel from evaluating the quotient as the pairs are taken apart
  obtain ⟨round, hround⟩ : ∃ r, r = State.roundFree := ⟨_, rfl⟩
  rw [← hround] at hr ⊢
  dsimp only
  rw [hr]

theorem offsetOf_congr {s t : State} {p : Port} (h : t.fld (linkDelayFld p) = s.fld (linkDelayFld p))
    (h' : t.sfld (asymFld p) = s.sfld (asymFld p)) (rx origin : HubTime) (corr : Int) : t.offsetOf p rx origin corr = s.offsetOf p rx origin corr := by
  rw [State.offsetOf, h, h', State.offsetOf]

/-- The offset that a message gives to the servo of a quiet hub whose source is PTP. -/
theorem act_offset {f : State → State} {l : List Nat} {s u : State} {p : Port} {rx origin : HubTime} {corr e : Int} (hs : s.quiet = true)
    (hq : timeQuiet s) (hu : Heard l s u) (hf : f s = u.ptpOffset p rx origin corr) (hsrc : s.timeSrc = 1) (hlead : s.follows = false)
    (hd : s.delayValid p = true) (he : s.offsetOf p rx origin corr = e * 2 ^ 16)
    (hl : ∀ a ∈ l, a ∈ 0x00207C :: readyRegs) : act f s = .next (u.servoOffset e) ∧ Moved (lastRegs ++ servoRegs) u (u.servoOffset e)
      ∧ (u.servoOffset e).fld64 F.TIME.LAST_OFFSET_LO.LAST_LO F.TIME.LAST_OFFSET_HI.LAST_HI = unsigned 64 e := by
  have hu' := hu.mono hl
  have hlink := hu'.linkDelay p (by decide) (by decide)
  have hqu : timeQuiet u := hu'.timeQuiet (by decide) (by decide) hq
  have hm := servoOffset_moved u e hqu
  have heq : f s = u.servoOffset e := by
    rw [hf]
    refine ptpOffset_exact u p rx origin corr e ((hu'.timeSrc (by decide)).trans hsrc) ((hu'.follows (by decide)).trans hlead)
      ((delayValid_congr hlink).trans hd) ?_
    rw [offsetOf_congr hlink (hu'.asym p (by decide) (by decide)), he]
  exact ⟨act_eq hs heq ((hm.quiet (by decide)).trans (hu'.quiet (by decide))) (hm.pending.trans hu'.pending), hm, servoOffset_last u e hqu⟩

/-! ### Stamps that are lost, Follow_Ups, and the end of their wait (R71, R75) -/

/-- The next Pdelay exchange of the port is not counted (R75). -/
def skipMarked (s : State) (p : Port) : State := s.modPd p fun d => { d with skipNext := true }

theorem tsOverflow_eq (s : State) (p : Port) : s.tsOverflow p = (skipMarked s p).raiseFault Flt.tsOvf := by
  cases p <;> rfl

theorem modPd_pd (s : State) (p : Port) (f : Pdelay → Pdelay) : (s.modPd p f).pd p = f (s.pd p) := by cases p <;> rfl
theorem modPd_heard {l : List Nat} (s : State) (p : Port) (f : Pdelay → Pdelay) : Heard l s (s.modPd p f) := Heard.modPtp s _

section
variable (s : State) (p : Port) (hb : s.bit (F.HDR.INT_ROUTE.INBAND pgPTP) = false)
include hb

theorem tsOverflow_mild : Mild (faultRegs pgPTP) (skipMarked s p) (s.tsOverflow p) := by
  rw [tsOverflow_eq]
  exact raiseFault_mild _ Flt.tsOvf (by decide) hb

theorem tsOverflow_heard : Heard (faultRegs pgPTP) s (s.tsOverflow p) :=
  (modPd_heard s p _).trans (Heard.of_mild (tsOverflow_mild s p hb))

theorem tsOverflow_ptp : (s.tsOverflow p).ptp = (skipMarked s p).ptp := by
  have h : s.tsOverflow p = { skipMarked s p with regs := (s.tsOverflow p).regs, rim := (s.tsOverflow p).rim } := (tsOverflow_mild s p hb).only
  rw [h]

theorem tsOverflow_net : (s.tsOverflow p).net = s.net := by
  have h : s.tsOverflow p = { skipMarked s p with regs := (s.tsOverflow p).regs, rim := (s.tsOverflow p).rim } := (tsOverflow_mild s p hb).only
  rw [h]
  rfl
end

theorem pd_congr {s t : State} (h : t.ptp = s.ptp) (p : Port) : t.pd p = s.pd p := by
  cases p
  · exact congrArg Ptp.pdA h
  · exact congrArg Ptp.pdB h

theorem tsOverflow_skip (s : State) (p : Port) (hb : s.bit (F.HDR.INT_ROUTE.INBAND pgPTP) = false) : ((s.tsOverflow p).pd p).skipNext = true := by
  rw [pd_congr (tsOverflow_ptp s p hb), skipMarked, modPd_pd]

theorem tsOverflow_faultSet (s : State) (p : Port) : (s.tsOverflow p).faultSet Flt.tsOvf = true := by
  rw [tsOverflow_eq]
  exact faultSet_raiseFault _ Flt.tsOvf (by decide)

theorem Heard.faultSet {l : List Nat} {s t : State} (h : Heard l s t) (hl : 0x00201C ∉ l) : t.faultSet Flt.tsOvf = s.faultSet Flt.tsOvf := by
  rw [State.faultSet, h.fld (F.HDR.FLT_STS.FAULTS pgPTP) hl, State.faultSet]

theorem fuMiss_pd (s : State) (p : Port) : s.fuMiss.pd p = s.pd p := by
  rcases h : s.ptp.twoStep with _ | w
  · rw [fuMiss_none s h]
  · rw [fuMiss_some s h]
    cases p <;> rfl

theorem syncHeard_pd (s : State) (p q : Port) (m : SyncMsg) : (syncHeard s p m).pd q = s.pd q := by
  have h := syncHeard_ptp s p m
  cases q
  · exact (congrArg Ptp.pdA h).trans rfl
  · exact (congrArg Ptp.pdB h).trans rfl

theorem syncCounted_pd (s : State) (m : SyncMsg) (q : Port) : (syncCounted s m).pd q = s.pd q := by cases q <;> rfl

/-- A Sync without its stamp yields no offset, and leaves the peer delay (R75). -/
theorem syncTake_lost (s : State) (p : Port) (m : SyncMsg) (hok : m.stampOk = false) (hb : s.bit (F.HDR.INT_ROUTE.INBAND pgPTP) = false) :
    Heard (0x00207C :: readyRegs) s (s.syncTake p m) ∧ ∀ q, (s.syncTake p m).pd q = s.pd q := by
  by_cases hacc : s.slaveFor m.domain = true ∧ s.accepts m.src = true
  · rw [syncTake_accepted s p m hacc.1 hacc.2, hok]
    have hh := syncHeard_heard s p m hb
    split
    · exact ⟨hh.mono (by decide), fun q => syncHeard_pd s p q m⟩
    · have hc : Heard readyRegs s (syncCounted (syncHeard s p m) m) := syncReady_heard s p m hb
      rw [if_pos rfl]
      refine ⟨(hc.mono (by decide)).trans ((fuMiss_heard _).mono (by decide)), fun q => ?_⟩
      rw [fuMiss_pd, syncCounted_pd, syncHeard_pd]
  · have hno : s.slaveFor m.domain = false ∨ s.accepts m.src = false := by
      rwa [not_and_or, Bool.not_eq_true, Bool.not_eq_true] at hacc
    rw [syncTake_ignored s p m hno]
    exact ⟨Heard.refl _ s, fun _ => rfl⟩

/-- The two-step Sync no longer waits. -/
def waitEnded (s : State) : State := s.modPtp fun x => { x with twoStep := none }

/-- A Follow_Up matches the two-step Sync that waits (R71). -/
def Matches (w : TwoStep) (p : Port) (m : FollowUpMsg) : Prop :=
  w.port = p ∧ w.msg.src = m.src ∧ w.msg.seq = m.seq ∧ w.msg.domain = m.domain

section
variable {s : State} {p : Port} {m : FollowUpMsg} {w : TwoStep} (hw : s.ptp.twoStep = some w) (hm : Matches w p m)
include hw

theorem followUpRx_other (hn : ¬ Matches w p m) : s.followUpRx p m = s := by
  unfold State.followUpRx
  rw [hw]
  exact if_neg hn

include hm

/-- A Follow_Up later than one Sync interval is missed (R71). -/
theorem followUpRx_late (hl : w.until_ < s.time.cycles) : s.followUpRx p m = s.fuMiss := by
  unfold State.followUpRx
  rw [hw]
  exact (if_pos hm).trans (if_pos hl)

/-- A Follow_Up in time gives the offset, unless a step came or the Sync could not be used (R63, R71). -/
theorem followUpRx_inTime (hl : s.time.cycles ≤ w.until_) : s.followUpRx p m
    = if w.use = true ∧ s.servo.steps = w.steps then (waitEnded s).ptpOffset p w.msg.rx m.origin (w.msg.corr + m.corr) else waitEnded s := by
  unfold State.followUpRx
  rw [hw]
  exact (if_pos hm).trans (if_neg (Nat.not_lt.mpr hl))
end

theorem followUpRx_none {s : State} (p : Port) (m : FollowUpMsg) (h : s.ptp.twoStep = none) : s.followUpRx p m = s := by
  rw [State.followUpRx, h]

theorem waitEnded_heard {l : List Nat} (s : State) : Heard l s (waitEnded s) := Heard.modPtp s _

/-- What giving up a two-step Sync leaves (R71). -/
theorem fuMiss_gives_up (s : State) {w : TwoStep} (h : s.ptp.twoStep = some w) : s.fuMiss.ptp.twoStep = none
    ∧ s.fuMiss.fld F.PTP.FU_MISS_CNT.CNT = min (2 ^ 32 - 1) (s.fld F.PTP.FU_MISS_CNT.CNT + 1) ∧ s.fuMiss.time = s.time := by
  rw [fuMiss_some s h]
  exact ⟨rfl, fld_count_same s F.PTP.FU_MISS_CNT.CNT 1 (by decide), rfl⟩

/-- Settles O8: a Sync and a Follow_Up each have few cases, and the offset is the servo's. -/
theorem ptpSyncAndFollowUp : Obligations.PtpSyncAndFollowUp := by
  unfold Obligations.PtpSyncAndFollowUp
  intro s hs hb htime htick
  have hq : timeQuiet s := ⟨htime, htick⟩
  refine ⟨?_, ?_, ?_, ?_, ?_, ?_, ?_, ?_, ?_, ?_, ?_⟩
  · intro p m hdom hacc hc hport hok htwo ha hw
    have hr := syncReady_heard s p m hb
    have heq := (syncRx_ok s p m hok).trans (syncTake_active s p m hdom hacc ha hw hok hb)
    rw [htwo, if_pos rfl] at heq
    obtain ⟨hmas, hid, hcur⟩ := syncReady_masterIs s p m hc hport
    refine ⟨_, (exec_syncRx p m s).trans (act_heard_eq hs heq (hr.trans (Heard.modPtp _ _)) (by decide)), rfl, ?_, ?_, ?_, ?_, hr.servo, hmas,
      hid, hcur⟩
    · exact (syncCounted_twoStep _ m).trans htwo
    · exact syncReady_cnt s p m hb
    · exact (syncReady_active s p m).trans ha
    · exact congrArg Ptp.lastSync (syncHeard_ptp s p m)
  · intro p m e hdom hacc hc hport hok htwo ha hw hsrc hf hd hbef he
    have hr := syncReady_heard s p m hb
    have huse : s.syncUse p m.rx = true := by rw [State.syncUse, hd, hbef]; rfl
    have heq := (syncRx_ok s p m hok).trans (syncTake_active s p m hdom hacc ha hw hok hb)
    rw [htwo, if_neg Bool.false_ne_true, huse, if_pos rfl] at heq
    obtain ⟨hexec, hmv, hlast⟩ := act_offset (f := fun s => s.syncRx p m) hs hq hr heq hsrc hf hd he (by decide)
    refine ⟨_, (exec_syncRx p m s).trans hexec, hlast, ?_, ?_, ?_, ?_⟩
    · rw [hmv.ptp, syncReady_ptp, syncHeard_ptp]
      exact hw
    · rw [hmv.bit _ (by decide)]
      exact (syncCounted_twoStep _ m).trans htwo
    · rw [hmv.fld _ (by decide), syncReady_cnt s p m hb]
    · rw [hmv.ptp, syncReady_ptp, syncHeard_ptp]
  · intro p m hdom hacc hc hport hok htwo ha hw hno
    have hr := syncReady_heard s p m hb
    have huse : s.syncUse p m.rx = false := by
      rw [State.syncUse]
      rcases hno with hno | hno <;> rw [hno]
      · rfl
      · exact Bool.and_false _
    have heq := (syncRx_ok s p m hok).trans (syncTake_active s p m hdom hacc ha hw hok hb)
    rw [htwo, if_neg Bool.false_ne_true, huse, if_neg Bool.false_ne_true] at heq
    obtain ⟨hmas, hid, hcur⟩ := syncReady_masterIs s p m hc hport
    refine ⟨_, (exec_syncRx p m s).trans (act_heard_eq hs heq hr (by decide)), syncReady_cnt s p m hb, (syncCounted_twoStep _ m).trans htwo,
      hr.servo, ?_, hr.fld64 _ _ (by decide) (by decide), hmas, hid, hcur⟩
    rw [syncReady_ptp, syncHeard_ptp]
    exact hw
  · intro p m hdom hacc hc hport hok ha
    have hr := syncHeard_heard s p m hb
    have heq := (syncRx_ok s p m hok).trans (syncTake_other s p m hdom hacc ha)
    have hptp := syncHeard_ptp s p m
    rw [if_neg ha] at hptp
    obtain ⟨hmas, hid, hcur⟩ := syncHeard_masterIs s p m hc hport
    exact ⟨_, (exec_syncRx p m s).trans (act_heard_eq hs heq hr (by decide)), syncHeard_active s p m, by rw [hptp], hr.servo, by rw [hptp],
      by rw [hptp], hr.fld _ (by decide), hmas, hid, hcur⟩
  · intro p m hno hok
    exact (exec_syncRx p m s).trans (act_idle hs ((syncRx_ok s p m hok).trans (syncTake_ignored s p m hno)))
  · intro p m hok
    have ht := tsOverflow_heard s p hb
    obtain ⟨hh, hpd⟩ := syncTake_lost (s.tsOverflow p) p m hok ((ht.bit (F.HDR.INT_ROUTE.INBAND pgPTP) (by decide)).trans hb)
    have hall : Heard (0x00207C :: readyRegs ++ faultRegs pgPTP) s ((s.tsOverflow p).syncTake p m) :=
      (ht.mono (by decide)).trans (hh.mono (by decide))
    refine ⟨_, (exec_syncRx p m s).trans (act_heard_eq hs (syncRx_lost s p m hok) hall (by decide)), ?_, ?_, hall.servo,
      hall.fld64 _ _ (by decide) (by decide)⟩
    · rw [hh.faultSet (by decide), tsOverflow_faultSet]
    · rw [hpd, tsOverflow_skip s p hb]
  · intro p m w e hw hport hsrc' hseq hdom hsteps huse hl hsrc hf hd he
    have heq := followUpRx_inTime (m := m) hw ⟨hport, hsrc', hseq, hdom⟩ hl
    rw [if_pos ⟨huse, hsteps.symm⟩] at heq
    obtain ⟨hexec, hmv, hlast⟩ := act_offset (f := fun s => s.followUpRx p m) (l := []) hs hq (waitEnded_heard s) heq hsrc hf hd he (by decide)
    refine ⟨_, (exec_followUpRx p m s).trans hexec, ?_, hlast⟩
    rw [hmv.ptp]
    rfl
  · intro p m w hw hport hsrc' hseq hdom hl hno
    have heq := followUpRx_inTime (m := m) hw ⟨hport, hsrc', hseq, hdom⟩ hl
    rw [if_neg] at heq
    · exact (exec_followUpRx p m s).trans (act_heard_eq (l := []) hs heq (waitEnded_heard s) (by decide))
    · rintro ⟨huse, hsteps⟩
      rcases hno with hno | hno
      · exact Bool.false_ne_true (hno.symm.trans huse)
      · exact hno hsteps.symm
  · intro p m w hw hport hsrc' hseq hdom hl
    obtain ⟨hnone, hcnt, -⟩ := fuMiss_gives_up s hw
    have hh := fuMiss_heard s
    exact ⟨_, (exec_followUpRx p m s).trans (act_heard_eq hs (followUpRx_late (m := m) hw ⟨hport, hsrc', hseq, hdom⟩ hl) hh (by decide)),
      hnone, hcnt, hh.regs, hh.servo⟩
  · intro p m hall
    refine (exec_followUpRx p m s).trans (act_idle hs ?_)
    rcases hw : s.ptp.twoStep with _ | w
    · exact followUpRx_none p m hw
    · refine followUpRx_other hw ?_
      rintro ⟨h1, h2, h3, h4⟩
      rw [hw] at hall
      simp [h1, h2, h3, h4] at hall
  · intro w hw
    have hrw : (s.reachCycles w.until_).ptp.twoStep = some w := by rw [reachCycles_ptp, hw]
    have heq : s.fuTimeout = (s.reachCycles w.until_).fuMiss := by rw [State.fuTimeout, hw]
    obtain ⟨hnone, hcnt, ht⟩ := fuMiss_gives_up (s.reachCycles w.until_) hrw
    have hh : Heard [0x00207C] s (s.reachCycles w.until_).fuMiss := (Heard.reach s _).trans (fuMiss_heard _)
    refine ⟨_, (exec_followUpTimeout s).trans (act_heard_eq (f := State.fuTimeout) hs heq hh (by decide)), hnone, ?_, hh.regs, hh.servo, ?_⟩
    · rw [hcnt, reachCycles_fld]
    · rw [ht]
      exact reachCycles_cycles s _

/-! ## Announces, and the loss of the master (R69, R70, R81, R82) -/

theorem exec_announceRx (p : Port) (m : AnnounceMsg) (s : State) : exec (.announceRx p m) s = act (fun s => s.announceRx m) s := rfl
theorem exec_masterSilence (s : State) : exec .masterSilence s = act State.masterSilence s := rfl
theorem exec_masterLost (s : State) : exec .masterLost s = act State.masterLost s := rfl
theorem exec_portSwitch (s : State) : exec .portSwitch s = act State.portSwitch s := rfl

/-- The source of the Announce is the current master, and no silence holds (R69). -/
def unsilenced (s : State) (m : AnnounceMsg) : State := (s.setMaster m.src).modPtp fun x => { x with silenced := false }

/-- The source has been adopted; after a silence that is a change of the master (R69). -/
def adopted (s : State) (m : AnnounceMsg) : State := (unsilenced s m).when s.ptp.silenced fun u => u.raiseInt Irq.masterChange

/-- Elapsed time and interval of the latest Announce (R69). -/
def annNoted (u : State) (m : AnnounceMsg) : State := u.modPtp fun x => { x with lastAnn := u.time.cycles, annLog := m.logInterval }

/-- The UTC fields of an accepted source are kept (R81). -/
def utcKept (u : State) (m : AnnounceMsg) : State :=
  (((u.setFld F.PTP.UTC_INFO.UTC_OFFSET m.utcOffset).setBit F.PTP.UTC_INFO.UTC_VALID m.utcValid).setBit F.PTP.UTC_INFO.LEAP61
    m.leap61).setBit F.PTP.UTC_INFO.LEAP59 m.leap59

/-- An accepted Announce has been taken, up to the interrupt of a change of UTC. -/
def announced (u : State) (m : AnnounceMsg) : State := utcKept (annNoted (u.setMaster m.src) m) m

/-- The source of an Announce may be adopted (R69). -/
def mayAdopt (s : State) : Bool := s.bit F.PTP.PTP_CTL.SEL_MODE && (!s.bit F.PTP.PTP_STS.HAS_MASTER || s.ptp.silenced)

/-- An accepted Announce raises UTC_CHANGE where the fields change (R82). -/
theorem announceRx_cases (s : State) (m : AnnounceMsg) (hdom : s.slaveFor m.domain = true) : ∃ b, s.announceRx m
    = if (if mayAdopt s = true then adopted s m else s).accepts m.src = false then if mayAdopt s = true then adopted s m else s
      else (announced (if mayAdopt s = true then adopted s m else s) m).when b fun u => u.raiseInt Irq.utcChange :=
  ⟨_, if_neg (by rw [hdom]; decide)⟩

theorem announceRx_foreign (s : State) (m : AnnounceMsg) (h : s.slaveFor m.domain = false) : s.announceRx m = s := if_pos h

theorem masterIs_accepts {s : State} {p : PortId} (h : masterIs s p) (hsel : s.bit F.PTP.PTP_CTL.SEL_MODE = true)
    (hsil : s.ptp.silenced = false) : s.accepts p = true := by
  obtain ⟨hm, hc, hp⟩ := h
  rw [State.accepts, if_pos hsel, State.isCurMaster, hm, hc, hp, hsil]
  simp

/-- The registers that an Announce touches. -/
def annRegs : List Nat := [0x002010, 0x002054, 0x002058, 0x00205C, 0x002070]

section
variable (s : State) (m : AnnounceMsg)

theorem unsilenced_heard : Heard annRegs s (unsilenced s m) :=
  (setMaster_heard s m.src (by decide) (by decide) (by decide)).trans (Heard.modPtp _ _)

theorem adopted_heard (hb : s.bit (F.HDR.INT_ROUTE.INBAND pgPTP) = false) : Heard annRegs s (adopted s m) := by
  have h := unsilenced_heard s m
  exact h.trans (Heard.when _ _ _ (Heard.raiseInt _ Irq.masterChange ((h.bit (F.HDR.INT_ROUTE.INBAND pgPTP) (by decide)).trans hb) (by decide)))

theorem adopted_cases : adopted s m = unsilenced s m ∨ adopted s m = (unsilenced s m).raiseInt Irq.masterChange := by
  rw [adopted]
  cases s.ptp.silenced
  · exact Or.inl rfl
  · exact Or.inr rfl

theorem adopted_fld (f : Fld) (h : f.addr ≠ 0x002010) : (adopted s m).fld f = (unsilenced s m).fld f := by
  rcases adopted_cases s m with h' | h' <;> rw [h']
  exact raiseInt_fld _ Irq.masterChange f h

theorem adopted_silenced : (adopted s m).ptp.silenced = false := by
  rcases adopted_cases s m with h' | h' <;> rw [h']
  · rfl
  · rw [raiseInt_ptp]
    rfl

theorem adopted_time : (adopted s m).time = s.time := by
  rcases adopted_cases s m with h' | h' <;> rw [h']
  · rfl
  · rw [raiseInt_time]
    rfl

theorem adopted_masterIs (hc : m.src.clock < 2 ^ 64) (hp : m.src.port < 2 ^ 16) : masterIs (adopted s m) m.src := by
  have h : masterIs (unsilenced s m) m.src := setMaster_masterIs s m.src hc hp
  refine masterIs_of_fld h ?_ (adopted_fld s m _ (by decide)) (adopted_fld s m _ (by decide)) (adopted_fld s m _ (by decide))
  rw [State.bit, adopted_fld s m _ (by decide), State.bit]

theorem annNoted_heard {l : List Nat} : Heard l s (annNoted s m) := Heard.modPtp s _

theorem utcKept_heard : Heard [0x002070] s (utcKept s m) :=
  (((Heard.setFld s F.PTP.UTC_INFO.UTC_OFFSET _ (by decide)).trans (Heard.setBit _ F.PTP.UTC_INFO.UTC_VALID _ (by decide))).trans
    (Heard.setBit _ F.PTP.UTC_INFO.LEAP61 _ (by decide))).trans (Heard.setBit _ F.PTP.UTC_INFO.LEAP59 _ (by decide))

theorem announced_heard : Heard [0x002054, 0x002058, 0x00205C, 0x002070] s (announced s m) :=
  ((setMaster_heard s m.src (by decide) (by decide) (by decide)).trans (annNoted_heard _ m)).trans ((utcKept_heard _ m).mono (by decide))

/-- The fields of UTC_INFO that an Announce leaves (R81). -/
def utcIs (t : State) (m : AnnounceMsg) : Prop :=
  t.fld F.PTP.UTC_INFO.UTC_OFFSET = m.utcOffset ∧ t.bit F.PTP.UTC_INFO.UTC_VALID = m.utcValid ∧ t.bit F.PTP.UTC_INFO.LEAP61 = m.leap61
    ∧ t.bit F.PTP.UTC_INFO.LEAP59 = m.leap59

theorem utcKept_utcIs (h : m.utcOffset < 2 ^ 16) : utcIs (utcKept s m) m := by
  unfold utcKept
  refine ⟨?_, ?_, ?_, ?_⟩
  · rw [fld_setBit_other _ _ _ _ (by decide), fld_setBit_other _ _ _ _ (by decide), fld_setBit_other _ _ _ _ (by decide),
      fld_setFld_same _ _ _ (by decide)]
    exact Nat.mod_eq_of_lt h
  · rw [bit_setBit_other _ _ _ _ (by decide), bit_setBit_other _ _ _ _ (by decide), bit_setBit_same _ _ _ (by decide) rfl]
  · rw [bit_setBit_other _ _ _ _ (by decide), bit_setBit_same _ _ _ (by decide) rfl]
  · rw [bit_setBit_same _ _ _ (by decide) rfl]

theorem announced_masterIs (hc : m.src.clock < 2 ^ 64) (hp : m.src.port < 2 ^ 16) : masterIs (announced s m) m.src := by
  have h := utcKept_heard (annNoted (s.setMaster m.src) m) m
  exact masterIs_of_fld (s := annNoted (s.setMaster m.src) m) (setMaster_masterIs s m.src hc hp) (h.bit _ (by decide)) (h.fld _ (by decide))
    (h.fld _ (by decide)) (h.fld _ (by decide))

theorem announced_ptp : (announced s m).ptp = { s.ptp with lastAnn := s.time.cycles, annLog := m.logInterval } := rfl

/-- What an accepted Announce leaves, whether or not UTC_CHANGE is raised (R69, R81). -/
def annTaken (s t : State) (m : AnnounceMsg) : Prop :=
  masterIs t m.src ∧ utcIs t m ∧ t.ptp.lastAnn = s.time.cycles ∧ t.ptp.annLog = m.logInterval ∧ t.ptp.silenced = false

theorem announced_when (b : Bool) (hc : m.src.clock < 2 ^ 64) (hp : m.src.port < 2 ^ 16) (hu : m.utcOffset < 2 ^ 16)
    (hsil : s.ptp.silenced = false) : annTaken s ((announced s m).when b fun u => u.raiseInt Irq.utcChange) m := by
  have hm := announced_masterIs s m hc hp
  have hi : utcIs (announced s m) m := utcKept_utcIs _ m hu
  have hptp := announced_ptp s m
  cases b
  · have h0 : (announced s m).when false (fun u => u.raiseInt Irq.utcChange) = announced s m := rfl
    rw [h0]
    exact ⟨hm, hi, by rw [hptp], by rw [hptp], by rw [hptp]; exact hsil⟩
  · have h1 : (announced s m).when true (fun u => u.raiseInt Irq.utcChange) = (announced s m).raiseInt Irq.utcChange := rfl
    have hf : ∀ f : Fld, f.addr ≠ 0x002010 → ((announced s m).raiseInt Irq.utcChange).fld f = (announced s m).fld f :=
      fun f hf => raiseInt_fld _ Irq.utcChange f hf
    have hbit : ∀ f : Fld, f.addr ≠ 0x002010 → ((announced s m).raiseInt Irq.utcChange).bit f = (announced s m).bit f :=
      fun f hf => raiseInt_bit _ Irq.utcChange f hf
    obtain ⟨hoff, hval, h61, h59⟩ := hi
    rw [h1]
    refine ⟨masterIs_of_fld hm (hbit _ (by decide)) (hf _ (by decide)) (hf _ (by decide)) (hf _ (by decide)),
      ⟨(hf _ (by decide)).trans hoff, (hbit _ (by decide)).trans hval, (hbit _ (by decide)).trans h61, (hbit _ (by decide)).trans h59⟩, ?_, ?_, ?_⟩
    · rw [raiseInt_ptp, hptp]
    · rw [raiseInt_ptp, hptp]
    · rw [raiseInt_ptp, hptp]
      exact hsil

theorem announced_when_heard (b : Bool) (hb : s.bit (F.HDR.INT_ROUTE.INBAND pgPTP) = false) :
    Heard annRegs s ((announced s m).when b fun u => u.raiseInt Irq.utcChange) := by
  have h := (announced_heard s m).mono (l' := annRegs) (by decide)
  exact h.trans (Heard.when _ _ _ (Heard.raiseInt _ Irq.utcChange ((h.bit (F.HDR.INT_ROUTE.INBAND pgPTP) (by decide)).trans hb) (by decide)))
end

/-- An accepted Announce with no adoption before it (R69, R81). -/
theorem announceRx_accepted {s : State} {m : AnnounceMsg} (hs : s.quiet = true) (hb : s.bit (F.HDR.INT_ROUTE.INBAND pgPTP) = false)
    (hdom : s.slaveFor m.domain = true) (hno : mayAdopt s = false) (hacc : s.accepts m.src = true) (hsil : s.ptp.silenced = false)
    (hc : m.src.clock < 2 ^ 64) (hp : m.src.port < 2 ^ 16) (hu : m.utcOffset < 2 ^ 16) :
    ∃ t, act (fun s => s.announceRx m) s = .next t ∧ annTaken s t m ∧ t.servo = s.servo := by
  obtain ⟨b, h⟩ := announceRx_cases s m hdom
  rw [hno, if_neg Bool.false_ne_true, hacc, if_neg (by decide)] at h
  have hh := announced_when_heard s m b hb
  exact ⟨_, act_heard_eq (f := fun s => s.announceRx m) hs h hh (by decide), announced_when s m b hc hp hu hsil, hh.servo⟩

/-- An adoption is an accepted Announce (R69). -/
theorem announceRx_adopts {s : State} {m : AnnounceMsg} (hs : s.quiet = true) (hb : s.bit (F.HDR.INT_ROUTE.INBAND pgPTP) = false)
    (hdom : s.slaveFor m.domain = true) (hsel : s.bit F.PTP.PTP_CTL.SEL_MODE = true)
    (hno : s.bit F.PTP.PTP_STS.HAS_MASTER = false ∨ s.ptp.silenced = true)
    (hc : m.src.clock < 2 ^ 64) (hp : m.src.port < 2 ^ 16) (hu : m.utcOffset < 2 ^ 16) :
    ∃ t, act (fun s => s.announceRx m) s = .next t ∧ annTaken s t m ∧ t.servo = s.servo
      ∧ (s.ptp.silenced = true → (t.reg (0x1000 * pgPTP + 0x010)).getLsbD Irq.masterChange.bit = true) := by
  have hmay : mayAdopt s = true := by
    rw [mayAdopt, hsel]
    rcases hno with hno | hno <;> rw [hno]
    · rfl
    · exact Bool.or_true _
  have ha := adopted_heard s m hb
  have hacc : (adopted s m).accepts m.src = true :=
    masterIs_accepts (adopted_masterIs s m hc hp) ((ha.bit _ (by decide)).trans hsel) (adopted_silenced s m)
  obtain ⟨b, h⟩ := announceRx_cases s m hdom
  rw [hmay, if_pos rfl, hacc, if_neg (by decide)] at h
  have hh := announced_when_heard (adopted s m) m b ((ha.bit (F.HDR.INT_ROUTE.INBAND pgPTP) (by decide)).trans hb)
  have htaken := announced_when (adopted s m) m b hc hp hu (adopted_silenced s m)
  rw [annTaken, adopted_time] at htaken
  refine ⟨_, act_heard_eq (f := fun s => s.announceRx m) hs h (ha.trans hh) (by decide), htaken, (ha.trans hh).servo, fun hsil => ?_⟩
  have h0 : ((adopted s m).reg (0x1000 * pgPTP + 0x010)).getLsbD Irq.masterChange.bit = true := by
    have had : adopted s m = (unsilenced s m).raiseInt Irq.masterChange := by
      rw [adopted, hsil]
      rfl
    rw [had]
    exact raiseInt_irq _ Irq.masterChange (by decide)
  have h1 : ((announced (adopted s m) m).reg (0x1000 * pgPTP + 0x010)).getLsbD Irq.masterChange.bit = true := by
    rw [(announced_heard (adopted s m) m).regs _ (by decide)]
    exact h0
  cases b
  · exact h1
  · exact raiseInt_keeps_irq _ _ _ _ h1

/-- Settles O9: an Announce is adopted, accepted or ignored; the timed commands run on to their instants. -/
theorem ptpMasterIsFollowedAndLost : Obligations.PtpMasterIsFollowedAndLost := by
  unfold Obligations.PtpMasterIsFollowedAndLost
  intro s hs hb
  refine ⟨?_, ?_, ?_, ?_, ?_, ?_, ?_, ?_, ?_⟩
  · intro p m hdom hsel hmas hsil hc hp hu
    obtain ⟨t, ht, ⟨⟨h1, h2, h3⟩, ⟨h4, h5, h6, h7⟩, h8, h9, h10⟩, h11, -⟩ := announceRx_adopts hs hb hdom hsel (Or.inl hmas) hc hp hu
    exact ⟨t, (exec_announceRx p m s).trans ht, h1, h2, h3, h4, h5, h6, h7, h8, h9, h10, h11⟩
  · intro p m hdom hsel hsil hc hp hu
    obtain ⟨t, ht, ⟨⟨h1, h2, h3⟩, ⟨h4, h5, h6, h7⟩, h8, h9, h10⟩, h11, h12⟩ := announceRx_adopts hs hb hdom hsel (Or.inr hsil) hc hp hu
    exact ⟨t, (exec_announceRx p m s).trans ht, h1, h2, h3, h4, h5, h6, h7, h8, h9, h10, h11, h12 hsil⟩
  · intro p m hdom hsil hacc hc hp hu
    have hno : mayAdopt s = false := by
      rw [mayAdopt, hsil, Bool.or_false]
      rcases hsel : s.bit F.PTP.PTP_CTL.SEL_MODE with _ | _
      · rfl
      · rw [State.accepts, if_pos hsel, State.isCurMaster] at hacc
        simp only [Bool.and_eq_true] at hacc
        rw [hacc.1.1.1]
        rfl
    obtain ⟨t, ht, ⟨⟨h1, h2, h3⟩, ⟨h4, h5, h6, h7⟩, h8, h9, h10⟩, h11⟩ := announceRx_accepted hs hb hdom hno hacc hsil hc hp hu
    exact ⟨t, (exec_announceRx p m s).trans ht, h1, h2, h3, h4, h5, h6, h7, h8, h9, h10, h11⟩
  · intro p m h
    refine (exec_announceRx p m s).trans (act_idle hs ?_)
    rcases hdom : s.slaveFor m.domain with _ | _
    · exact announceRx_foreign s m hdom
    · obtain ⟨hacc, hsel⟩ := h.resolve_left (by rw [hdom]; decide)
      have hno : mayAdopt s = false := by
        rw [mayAdopt]
        rcases hsel with hsel | ⟨hmas, hsil⟩
        · rw [hsel]
          rfl
        · rw [hmas, hsil]
          exact Bool.and_false _
      obtain ⟨b, heq⟩ := announceRx_cases s m hdom
      rw [hno, if_neg Bool.false_ne_true, hacc, if_pos rfl] at heq
      exact heq
  · intro hsel hmas
    have heq : s.masterSilence = ((s.reachCycles (s.ptp.lastAnn + 3 * logCycles s.ptp.annLog)).modPtp fun x => { x with
        silenced := true }).setBit F.PTP.PTP_STS.HAS_MASTER false := by
      rw [State.masterSilence, hsel, hmas]
      rfl
    have hh : Heard [F.PTP.PTP_STS.HAS_MASTER.addr] s (((s.reachCycles (s.ptp.lastAnn + 3 * logCycles s.ptp.annLog)).modPtp fun x => { x with
        silenced := true }).setBit F.PTP.PTP_STS.HAS_MASTER false) :=
      ((Heard.reach s _).trans (Heard.modPtp _ _)).trans (Heard.setBit _ _ _ (by decide))
    exact ⟨_, (exec_masterSilence s).trans (act_heard_eq (f := State.masterSilence) hs heq hh (by decide)),
      bit_setBit_same _ F.PTP.PTP_STS.HAS_MASTER _ (by decide) rfl, rfl, hh.regs, reachCycles_cycles s _⟩
  · intro h
    refine (exec_masterSilence s).trans (act_idle hs (if_neg ?_))
    rcases h with h | h <;> simp [h]
  · intro hmas
    have heq : s.masterLost = (s.reachCycles (s.ptp.lastSync + s.lossCycles)).raiseInt Irq.masterLost := if_pos hmas
    have hh : Heard [0x1000 * pgPTP + 0x010] s ((s.reachCycles (s.ptp.lastSync + s.lossCycles)).raiseInt Irq.masterLost) :=
      (Heard.reach s _).trans (Heard.raiseInt _ Irq.masterLost ((reachCycles_bit s _ _).trans hb) (by decide))
    refine ⟨_, (exec_masterLost s).trans (act_heard_eq (f := State.masterLost) hs heq hh (by decide)), ?_, raiseInt_irq _ Irq.masterLost (by decide), hh.regs⟩
    rw [raiseInt_time]
    exact reachCycles_cycles s _
  · intro hauto hact hmiss
    have heq : s.portSwitch = ((s.setFld F.PTP.PTP_STS.ACTIVE_PORT 2).modPtp fun x => { x with missed := 0 }).portMoved :=
      if_pos (by rw [hauto, hact, decide_eq_true hmiss]; decide)
    have hh : Heard [0x00205C, 0x002080, 0x002010] s ((s.setFld F.PTP.PTP_STS.ACTIVE_PORT 2).modPtp fun x => { x with missed := 0 }).portMoved :=
      ((Heard.setFld s _ _ (by decide)).trans (Heard.modPtp _ _)).trans
        (portMoved_heard _ ((bit_setFld_other s _ _ _ (by decide)).trans hb) (by decide) (by decide))
    refine ⟨_, (exec_portSwitch s).trans (act_heard_eq (f := State.portSwitch) hs heq hh (by decide)), ?_, ?_, ?_,
      raiseInt_irq _ Irq.portSwitch (by decide), hh.servo⟩
    · rw [portMoved_fld _ _ (by decide) (by decide)]
      exact fld_setFld_same s F.PTP.PTP_STS.ACTIVE_PORT 2 (by decide)
    · rw [portMoved_ptp]
      rfl
    · rw [State.portMoved, raiseInt_fld _ _ _ (by decide), fld_count_same _ _ _ (by decide)]
      exact congrArg (fun n => min _ (n + 1)) (fld_setFld_addr s _ _ _ (by decide))
  · intro h
    refine (exec_portSwitch s).trans (act_idle hs (if_neg ?_))
    rcases h with h | h | h
    · simp [h]
    · simp [h]
    · simp [Nat.not_le.mpr h]

/-! ## Peer delay and the transparent clock (R67, R72 to R75) -/

theorem exec_pdelayReqSend (okA okB : Bool) (s : State) :
    exec (.pdelayReqSend okA okB) s = act (fun s => s.pdelayReqSend okA okB) s := rfl
theorem exec_pdelayRespRx (p : Port) (m : PdelayRespMsg) (s : State) : exec (.pdelayRespRx p m) s = act (fun s => s.pdelayRespRx p m) s := rfl
theorem exec_pdelayFail (p : Port) (s : State) : exec (.pdelayFail p) s = act (fun s => s.pdelayFail p) s := rfl
theorem exec_pdelayReqRx (p : Port) (m : PdelayReqMsg) (s : State) : exec (.pdelayReqRx p m) s = act (fun s => s.pdelayReqRx p m) s := rfl
theorem exec_tcEntryExpire (p : Port) (s : State) : exec (.tcEntryExpire p) s = act (fun s => s.tcExpire p) s := rfl

/-! ### A message waits for ARB_TX (R320) -/

theorem txAsk_cases (s : State) (i : Nat) : ∃ w, s.txAsk i = { s with arbTx := { s.arbTx with waiting := w } } := by
  unfold State.txAsk
  split
  · exact ⟨s.arbTx.waiting, rfl⟩
  · exact ⟨_, rfl⟩

section
variable (s : State) (p : Port) (m : PdelayMsg) (hf : s.bit F.ARB_TX.ARB_CTL.FREEZE = false)
include hf

theorem ptpSend_cases : ∃ w, s.ptpSend p m
    = { s.modNet (fun n => { n with ptpTx := n.ptpTx ++ [(p, s.pdelayFrame m)] }) with arbTx := { s.arbTx with waiting := w } } := by
  obtain ⟨w, hw⟩ := txAsk_cases (s.modNet fun n => { n with ptpTx := n.ptpTx ++ [(p, s.pdelayFrame m)] }) 65
  refine ⟨w, ?_⟩
  rw [State.ptpSend, hf, if_neg Bool.false_ne_true, hw]
  rfl

theorem ptpSend_heard {l : List Nat} : Heard l s (s.ptpSend p m) := by
  obtain ⟨w, hw⟩ := ptpSend_cases s p m hf
  rw [hw]
  exact ⟨rfl, fun _ _ => rfl, rfl, rfl, rfl, rfl⟩

theorem ptpSend_sends : (s.ptpSend p m).net.ptpTx = s.net.ptpTx ++ [(p, s.pdelayFrame m)] ∧ (s.ptpSend p m).ptp = s.ptp
    ∧ (s.ptpSend p m).time = s.time ∧ (s.ptpSend p m).regs = s.regs := by
  obtain ⟨w, hw⟩ := ptpSend_cases s p m hf
  rw [hw]
  exact ⟨rfl, rfl, rfl, rfl⟩
end

/-! ### Requests (R67) -/

/-- The exchange that a Pdelay_Req begins on a port (R67, R72). -/
def asked (s : State) (p : Port) (ok : Bool) : State :=
  s.modPd p fun d => { d with seq := (d.seq + 1) % 2 ^ 16, t1 := if ok then some s.now else none, asked := true
                              lastResp := if d.asked then d.lastResp else s.time.cycles }

/-- The request has gone out. -/
def reqSent (s : State) (p : Port) (ok : Bool) : State :=
  (asked s p ok).ptpSend p ((asked s p ok).pdelayReq p ((asked s p ok).pd p).seq)

theorem pdelaySend_used (s : State) (p : Port) (ok : Bool) (h : s.ptpPort p = true) :
    s.pdelaySend p ok = if ok then reqSent s p ok else (reqSent s p ok).tsOverflow p := if_neg (by rw [h]; decide)

theorem pdelaySend_unused (s : State) (p : Port) (ok : Bool) (h : s.ptpPort p = false) : s.pdelaySend p ok = s := if_pos h

theorem asked_heard {l : List Nat} (s : State) (p : Port) (ok : Bool) : Heard l s (asked s p ok) := modPd_heard s p _
theorem asked_keeps (s : State) (p : Port) (ok : Bool) : (asked s p ok).regs = s.regs ∧ (asked s p ok).net = s.net
    ∧ (asked s p ok).time = s.time ∧ (asked s p ok).ptp.pdAt = s.ptp.pdAt := by cases p <;> exact ⟨rfl, rfl, rfl, rfl⟩

theorem fld_of_regs {s t : State} (h : t.regs = s.regs) (f : Fld) : t.fld f = s.fld f := by rw [State.fld, State.reg, h, State.fld, State.reg]
theorem bit_of_regs {s t : State} (h : t.regs = s.regs) (f : Fld) : t.bit f = s.bit f := by rw [State.bit, fld_of_regs h, State.bit]
theorem pdelayFrame_of_regs {s t : State} (h : t.regs = s.regs) (m : PdelayMsg) : t.pdelayFrame m = s.pdelayFrame m := by
  simp only [State.pdelayFrame, State.ownMac, State.fld64, bit_of_regs h, fld_of_regs h]
theorem portId_of_regs {s t : State} (h : t.regs = s.regs) (p : Port) : t.portId p = s.portId p := by
  simp only [State.portId, State.fld64, fld_of_regs h]
theorem ptpPort_of_regs {s t : State} (h : t.regs = s.regs) (p : Port) : t.ptpPort p = s.ptpPort p := by
  simp only [State.ptpPort, State.portUp, fld_of_regs h]
theorem now_of_time {s t : State} (h : t.time = s.time) : t.now = s.now := by rw [State.now, h, State.now]

/-- The frame of the request that a port sends next. -/
def reqFrame (s : State) (p : Port) : Port × Frame :=
  (p, s.pdelayFrame ⟨false, s.portId p, ((s.pd p).seq + 1) % 2 ^ 16, 0, none, none⟩)

theorem reqFrame_congr {s t : State} {p : Port} (h : t.regs = s.regs) (h' : t.pd p = s.pd p) : reqFrame t p = reqFrame s p := by
  rw [reqFrame, h', portId_of_regs h, pdelayFrame_of_regs h, reqFrame]

section
variable (s : State) (p : Port) (ok : Bool) (hf : s.bit F.ARB_TX.ARB_CTL.FREEZE = false)
include hf

theorem asked_unfrozen : (asked s p ok).bit F.ARB_TX.ARB_CTL.FREEZE = false :=
  ((asked_heard (l := []) s p ok).bit _ (by decide)).trans hf

theorem reqSent_heard {l : List Nat} : Heard l s (reqSent s p ok) :=
  (asked_heard s p ok).trans (ptpSend_heard _ p _ (asked_unfrozen s p ok hf))

/-- What a request leaves: its frame, and the exchange it begins. -/
theorem reqSent_leaves : (reqSent s p ok).net.ptpTx = s.net.ptpTx ++ [reqFrame s p] ∧ (reqSent s p ok).ptp = (asked s p ok).ptp
    ∧ (reqSent s p ok).time = s.time ∧ (reqSent s p ok).regs = s.regs := by
  obtain ⟨hr, hn, ht, -⟩ := asked_keeps s p ok
  obtain ⟨htx, hptp, htime, hregs⟩ := ptpSend_sends (asked s p ok) p ((asked s p ok).pdelayReq p ((asked s p ok).pd p).seq)
    (asked_unfrozen s p ok hf)
  refine ⟨?_, hptp, htime.trans ht, hregs.trans hr⟩
  have hseq : ((asked s p ok).pd p).seq = ((s.pd p).seq + 1) % 2 ^ 16 := congrArg Pdelay.seq (modPd_pd s p _)
  rw [reqSent, htx, hn, State.pdelayReq, hseq, portId_of_regs hr, pdelayFrame_of_regs hr, reqFrame]
end

/-- Elapsed time has run on to the next request (R67). -/
def reqDue (s : State) : State :=
  match s.ptp.pdAt with
  | some c => s.reachCycles (c + logCycles s.logPdelay)
  | none => s

/-- The requests of the ports go out at one time (R67). -/
def reqTimed (s : State) : State := (reqDue s).modPtp fun x => { x with pdAt := some (reqDue s).time.cycles }

theorem pdelayReqSend_eq (s : State) (okA okB : Bool) : s.pdelayReqSend okA okB = ((reqTimed s).pdelaySend .a okA).pdelaySend .b okB := rfl

theorem reqDue_cases (s : State) : reqDue s = s ∧ s.ptp.pdAt = none ∨ ∃ c, s.ptp.pdAt = some c ∧ reqDue s = s.reachCycles (c + logCycles s.logPdelay) := by
  unfold reqDue
  rcases s.ptp.pdAt with _ | c
  · exact Or.inl ⟨rfl, rfl⟩
  · exact Or.inr ⟨c, rfl, rfl⟩

theorem reqDue_heard {l : List Nat} (s : State) : Heard l s (reqDue s) := by
  rcases reqDue_cases s with ⟨h, -⟩ | ⟨c, -, h⟩
  · rw [h]
    exact Heard.refl _ s
  · rw [h]
    exact Heard.reach s _

theorem reqDue_keeps (s : State) : (reqDue s).regs = s.regs ∧ (reqDue s).net = s.net ∧ (reqDue s).ptp = s.ptp := by
  rcases reqDue_cases s with ⟨h, -⟩ | ⟨c, -, h⟩
  · rw [h]
    exact ⟨rfl, rfl, rfl⟩
  · rw [h]
    exact ⟨reachCycles_regs s _, reachCycles_net s _, reachCycles_ptp s _⟩

/-- No request goes out sooner than 2^LOG_PDELAY s after the last (R67). -/
theorem reqDue_cycles (s : State) : s.ptp.pdAt.all (fun c => decide (c + logCycles s.logPdelay ≤ (reqDue s).time.cycles)) = true := by
  rcases reqDue_cases s with ⟨-, h⟩ | ⟨c, hc, h⟩
  · rw [h]
    rfl
  · rw [hc, h]
    exact decide_eq_true (reachCycles_cycles s _)

theorem reqTimed_heard {l : List Nat} (s : State) : Heard l s (reqTimed s) := (reqDue_heard s).trans (Heard.modPtp _ _)
theorem reqTimed_keeps (s : State) : (reqTimed s).regs = s.regs ∧ (reqTimed s).net = s.net
    ∧ (reqTimed s).ptp = { s.ptp with pdAt := some (reqTimed s).time.cycles } := by
  obtain ⟨hr, hn, hp⟩ := reqDue_keeps s
  have h : (reqTimed s).ptp = { (reqDue s).ptp with pdAt := some (reqDue s).time.cycles } := rfl
  refine ⟨hr, hn, ?_⟩
  rw [h, hp]
  rfl

theorem asked_other (s : State) (ok : Bool) : (asked s .a ok).ptp.pdB = s.ptp.pdB ∧ (asked s .b ok).ptp.pdA = s.ptp.pdA := ⟨rfl, rfl⟩
theorem asked_pdA (s : State) (ok : Bool) : (asked s .a ok).ptp.pdA.t1 = (if ok then some s.now else none)
    ∧ (asked s .a ok).ptp.pdA.seq = (s.ptp.pdA.seq + 1) % 2 ^ 16 := ⟨rfl, rfl⟩
theorem asked_pdB (s : State) (ok : Bool) : (asked s .b ok).ptp.pdB.t1 = (if ok then some s.now else none)
    ∧ (asked s .b ok).ptp.pdB.seq = (s.ptp.pdB.seq + 1) % 2 ^ 16 := ⟨rfl, rfl⟩

theorem reqTimed_unfrozen (s : State) (hf : s.bit F.ARB_TX.ARB_CTL.FREEZE = false) : (reqTimed s).bit F.ARB_TX.ARB_CTL.FREEZE = false :=
  (bit_of_regs (reqTimed_keeps s).1 _).trans hf

/-- A request whose stamp is lost (R75). -/
theorem reqLost_heard (u : State) (p : Port) (hfu : u.bit F.ARB_TX.ARB_CTL.FREEZE = false)
    (hbu : u.bit (F.HDR.INT_ROUTE.INBAND pgPTP) = false) : Heard (faultRegs pgPTP) u ((reqSent u p false).tsOverflow p) := by
  have h := reqSent_heard (l := faultRegs pgPTP) u p false hfu
  exact h.trans (tsOverflow_heard _ p ((h.bit _ (by decide)).trans hbu))

theorem modPd_ptp_congr {s t : State} (h : t.ptp = s.ptp) (p : Port) (f : Pdelay → Pdelay) : (t.modPd p f).ptp = (s.modPd p f).ptp := by
  have hm : ∀ u : State, (u.modPd p f).ptp = (match p with
      | .a => { u.ptp with pdA := f u.ptp.pdA }
      | .b => { u.ptp with pdB := f u.ptp.pdB }) := fun u => by cases p <;> rfl
  rw [hm, hm, h]

theorem reqLost_ptp (u : State) (p : Port) (hfu : u.bit F.ARB_TX.ARB_CTL.FREEZE = false)
    (hbu : u.bit (F.HDR.INT_ROUTE.INBAND pgPTP) = false) :
    ((reqSent u p false).tsOverflow p).ptp = (skipMarked (asked u p false) p).ptp := by
  have h := reqSent_heard (l := []) u p false hfu
  rw [tsOverflow_ptp _ p ((h.bit _ (by decide)).trans hbu)]
  exact modPd_ptp_congr (reqSent_leaves u p false hfu).2.1 p _

theorem Heard.ptpPort {l : List Nat} {s t : State} (h : Heard l s t) (p : Port) (h1 : 0x00E044 ∉ l) (h2 : 0x00F044 ∉ l) (h3 : 0x010040 ∉ l) :
    t.ptpPort p = s.ptpPort p := by
  have hup : t.fld (F.PORT.PORT_STS.STATE (portNum p)) = s.fld (F.PORT.PORT_STS.STATE (portNum p)) := by
    cases p
    · exact h.fld _ h1
    · exact h.fld _ h2
  rw [State.ptpPort, State.portUp, hup, h.fld F.HSR.HSR_CTL.NODE_MODE h3, State.ptpPort, State.portUp]

section
variable {s : State} (hs : s.quiet = true) (hb : s.bit (F.HDR.INT_ROUTE.INBAND pgPTP) = false) (hf : s.bit F.ARB_TX.ARB_CTL.FREEZE = false)
include hs hf

theorem pdelayReqSend_both (ha : s.ptpPort .a = true) (hpb : s.ptpPort .b = true) :
    ∃ t, exec (.pdelayReqSend true true) s = .next t ∧ t.ptp.pdAt = some t.time.cycles
      ∧ (s.ptp.pdAt.all (fun c => decide (c + logCycles s.logPdelay ≤ t.time.cycles)) = true) ∧ t.ptp.pdA.t1 = some t.now
      ∧ t.ptp.pdB.t1 = some t.now ∧ t.ptp.pdA.seq = (s.ptp.pdA.seq + 1) % 2 ^ 16 ∧ t.ptp.pdB.seq = (s.ptp.pdB.seq + 1) % 2 ^ 16
      ∧ t.net.ptpTx = s.net.ptpTx ++ [reqFrame s .a, reqFrame s .b] ∧ t.regs = s.regs := by
  obtain ⟨hr0, hn0, hp0⟩ := reqTimed_keeps s
  have hf0 := reqTimed_unfrozen s hf
  have hf1 := (reqSent_heard (l := []) (reqTimed s) .a true hf0).bit F.ARB_TX.ARB_CTL.FREEZE (by decide)
  obtain ⟨htx1, hp1, ht1, hr1⟩ := reqSent_leaves (reqTimed s) .a true hf0
  obtain ⟨htx2, hp2, ht2, hr2⟩ := reqSent_leaves (reqSent (reqTimed s) .a true) .b true (hf1.trans hf0)
  have heq : s.pdelayReqSend true true = reqSent (reqSent (reqTimed s) .a true) .b true := by
    rw [pdelayReqSend_eq, pdelaySend_used _ .a true ((ptpPort_of_regs hr0 .a).trans ha), if_pos rfl,
      pdelaySend_used _ .b true ((ptpPort_of_regs (hr1.trans hr0) .b).trans hpb), if_pos rfl]
  have hh : Heard [] s (reqSent (reqSent (reqTimed s) .a true) .b true) :=
    (reqTimed_heard s).trans ((reqSent_heard _ .a true hf0).trans (reqSent_heard _ .b true (hf1.trans hf0)))
  have hpdB : (reqSent (reqTimed s) .a true).ptp.pdB = s.ptp.pdB := by rw [hp1, (asked_other _ true).1, hp0]
  have hframe : reqFrame (reqTimed s) .a = reqFrame s .a := reqFrame_congr hr0 ((congrArg Ptp.pdA hp0).trans rfl)
  have hframe' : reqFrame (reqSent (reqTimed s) .a true) .b = reqFrame s .b := reqFrame_congr (hr1.trans hr0) hpdB
  have hnow := now_of_time ht1
  have hnow' := now_of_time ht2
  refine ⟨_, (exec_pdelayReqSend true true s).trans (act_heard_eq (f := fun s => s.pdelayReqSend true true) hs heq hh (by decide)),
    ?_, ?_, ?_, ?_, ?_, ?_, ?_, ?_⟩
  · rw [hp2, (asked_keeps _ .b true).2.2.2, hp1, (asked_keeps _ .a true).2.2.2, ht2, ht1, hp0]
  · rw [ht2, ht1]
    exact reqDue_cycles s
  · rw [hp2, (asked_other _ true).2, hp1, (asked_pdA _ true).1, hnow', hnow, if_pos rfl]
  · rw [hp2, (asked_pdB _ true).1, hnow', if_pos rfl]
  · rw [hp2, (asked_other _ true).2, hp1, (asked_pdA _ true).2, hp0]
  · rw [hp2, (asked_pdB _ true).2, hpdB]
  · rw [htx2, htx1, hn0, hframe, hframe', List.append_assoc, List.singleton_append]
  · rw [hr2, hr1, hr0]

theorem pdelayReqSend_one (okB : Bool) (ha : s.ptpPort .a = true) (hpb : s.ptpPort .b = false) :
    ∃ t, exec (.pdelayReqSend true okB) s = .next t ∧ t.ptp.pdAt = some t.time.cycles ∧ t.ptp.pdA.t1 = some t.now ∧ t.ptp.pdB = s.ptp.pdB
      ∧ t.net.ptpTx = s.net.ptpTx ++ [reqFrame s .a] ∧ t.regs = s.regs := by
  obtain ⟨hr0, hn0, hp0⟩ := reqTimed_keeps s
  have hf0 := reqTimed_unfrozen s hf
  obtain ⟨htx1, hp1, ht1, hr1⟩ := reqSent_leaves (reqTimed s) .a true hf0
  have heq : s.pdelayReqSend true okB = reqSent (reqTimed s) .a true := by
    rw [pdelayReqSend_eq, pdelaySend_used _ .a true ((ptpPort_of_regs hr0 .a).trans ha), if_pos rfl,
      pdelaySend_unused _ .b okB ((ptpPort_of_regs (hr1.trans hr0) .b).trans hpb)]
  have hh : Heard [] s (reqSent (reqTimed s) .a true) := (reqTimed_heard s).trans (reqSent_heard _ .a true hf0)
  have hframe : reqFrame (reqTimed s) .a = reqFrame s .a := reqFrame_congr hr0 ((congrArg Ptp.pdA hp0).trans rfl)
  refine ⟨_, (exec_pdelayReqSend true okB s).trans (act_heard_eq (f := fun s => s.pdelayReqSend true okB) hs heq hh (by decide)),
    ?_, ?_, ?_, ?_, ?_⟩
  · rw [hp1, (asked_keeps _ .a true).2.2.2, ht1, hp0]
  · rw [hp1, (asked_pdA _ true).1, now_of_time ht1, if_pos rfl]
  · rw [hp1, (asked_other _ true).1, hp0]
  · rw [htx1, hn0, hframe]
  · rw [hr1, hr0]

include hb

theorem pdelayReqSend_lost (ha : s.ptpPort .a = true) (hpb : s.ptpPort .b = true) :
    ∃ t, exec (.pdelayReqSend false false) s = .next t ∧ t.faultSet Flt.tsOvf = true
      ∧ t.ptp.pdA.t1 = none ∧ t.ptp.pdB.t1 = none ∧ t.ptp.pdA.skipNext = true ∧ t.ptp.pdB.skipNext = true := by
  obtain ⟨hr0, -, -⟩ := reqTimed_keeps s
  have hf0 := reqTimed_unfrozen s hf
  have hb0 : (reqTimed s).bit (F.HDR.INT_ROUTE.INBAND pgPTP) = false := (bit_of_regs hr0 _).trans hb
  have h1 := reqLost_heard (reqTimed s) .a hf0 hb0
  have hf1 := (h1.bit F.ARB_TX.ARB_CTL.FREEZE (by decide)).trans hf0
  have hb1 := (h1.bit (F.HDR.INT_ROUTE.INBAND pgPTP) (by decide)).trans hb0
  have h2 := reqLost_heard ((reqSent (reqTimed s) .a false).tsOverflow .a) .b hf1 hb1
  have hport : ((reqSent (reqTimed s) .a false).tsOverflow .a).ptpPort .b = true :=
    (h1.ptpPort .b (by decide) (by decide) (by decide)).trans ((ptpPort_of_regs hr0 .b).trans hpb)
  have heq : s.pdelayReqSend false false
      = (reqSent ((reqSent (reqTimed s) .a false).tsOverflow .a) .b false).tsOverflow .b := by
    rw [pdelayReqSend_eq, pdelaySend_used _ .a false ((ptpPort_of_regs hr0 .a).trans ha), if_neg Bool.false_ne_true,
      pdelaySend_used _ .b false hport, if_neg Bool.false_ne_true]
  have hptp1 := reqLost_ptp (reqTimed s) .a hf0 hb0
  have hptp2 := reqLost_ptp ((reqSent (reqTimed s) .a false).tsOverflow .a) .b hf1 hb1
  have hA : ((reqSent ((reqSent (reqTimed s) .a false).tsOverflow .a) .b false).tsOverflow .b).ptp.pdA
      = (skipMarked (asked (reqTimed s) .a false) .a).ptp.pdA := by
    rw [hptp2, ← hptp1]
    rfl
  refine ⟨_, (exec_pdelayReqSend false false s).trans (act_heard_eq (f := fun s => s.pdelayReqSend false false) hs heq
    ((reqTimed_heard s).trans (h1.trans h2)) (by decide)), tsOverflow_faultSet _ .b, ?_, ?_, ?_, ?_⟩
  · rw [hA]
    rfl
  · rw [hptp2]
    rfl
  · rw [hA]
    rfl
  · rw [hptp2]
    rfl

omit hb hf in
theorem pdelayReqSend_none (okA okB : Bool) (ha : s.ptpPort .a = false) (hpb : s.ptpPort .b = false) :
    ∃ t, exec (.pdelayReqSend okA okB) s = .next t ∧ t.ptp = { s.ptp with pdAt := some t.time.cycles } ∧ t.net = s.net ∧ t.regs = s.regs := by
  obtain ⟨hr0, hn0, hp0⟩ := reqTimed_keeps s
  have heq : s.pdelayReqSend okA okB = reqTimed s := by
    rw [pdelayReqSend_eq, pdelaySend_unused _ .a okA ((ptpPort_of_regs hr0 .a).trans ha),
      pdelaySend_unused _ .b okB ((ptpPort_of_regs hr0 .b).trans hpb)]
  exact ⟨_, (exec_pdelayReqSend okA okB s).trans (act_heard_eq (l := []) (f := fun s => s.pdelayReqSend okA okB) hs heq (reqTimed_heard s)
    (by decide)), hp0, hn0, hr0⟩
end

/-! ### Responses (R72, R75) -/

/-- The exchange in progress has ended. -/
def exchangeEnded (s : State) (p : Port) : State := s.modPd p fun d => { d with t1 := none }

/-- Twice the delay of an exchange in 2^-16 ns (R72). -/
abbrev turnOf (t1 : HubTime) (m : PdelayRespMsg) : Int := ((htNs m.rx : Int) - htNs t1) * 2 ^ 16 - m.turnaround

/-- The link delay of the mean `v` of the exchanges `h` (R72). -/
def delayTaken (u : State) (p : Port) (h : List Int) (v : Int) : State :=
  (u.setSfld (linkDelayFld p) v).modPd p fun d => { d with hist := h, lastResp := u.time.cycles, lost := false }

section
variable {s : State} {p : Port} {m : PdelayRespMsg} {t1 : HubTime} (ht : (s.pd p).t1 = some t1) (hseq : m.seq = (s.pd p).seq)
  (hok : m.stampOk = true)
include ht hseq hok

theorem pdelayRespRx_skips (hskip : (s.pd p).skipNext = true) :
    s.pdelayRespRx p m = s.modPd p fun d => { d with t1 := none, skipNext := false } := by
  have h2 : (exchangeEnded s p).modPd p (fun d => { d with skipNext := false }) = s.modPd p fun d => { d with t1 := none, skipNext := false } := by
    cases p <;> rfl
  unfold State.pdelayRespRx
  extract_lets d
  have hd : d = s.pd p := rfl
  rw [hd, ht, ← h2]
  refine (if_neg (not_not_intro hseq)).trans ((if_neg (by rw [hok]; decide)).trans (if_pos hskip))

theorem pdelayRespRx_takes (hskip : (s.pd p).skipNext = false) {v : Int}
    (hr : (exchangeEnded s p).roundFree ((turnOf t1 m :: (s.pd p).hist).take 8).sum
      (2 * ((turnOf t1 m :: (s.pd p).hist).take 8).length * 2 ^ 12) = (v, exchangeEnded s p)) :
    s.pdelayRespRx p m = delayTaken (exchangeEnded s p) p ((turnOf t1 m :: (s.pd p).hist).take 8) v := by
  unfold State.pdelayRespRx
  extract_lets d
  have hd : d = s.pd p := rfl
  rw [hd, ht]
  -- a name for the rounding keeps the kernel from evaluating the quotient as the pair is taken apart
  obtain ⟨round, hround⟩ : ∃ r, r = State.roundFree := ⟨_, rfl⟩
  rw [← hround] at hr ⊢
  refine (if_neg (not_not_intro hseq)).trans ((if_neg (by rw [hok]; decide)).trans ((if_neg (by rw [hskip]; decide)).trans ?_))
  dsimp only
  unfold exchangeEnded at hr
  rw [hr]
  rfl
end

/-- A response that no exchange waits for is ignored (R72). -/
theorem pdelayRespRx_ignored {s : State} {p : Port} {m : PdelayRespMsg} (h : (s.pd p).t1 = none ∨ m.seq ≠ (s.pd p).seq)
    (hok : m.stampOk = true) : s.pdelayRespRx p m = s := by
  unfold State.pdelayRespRx
  extract_lets d
  have hd : d = s.pd p := rfl
  rcases ht : (s.pd p).t1 with _ | t1
  · rw [hd]
    exact if_pos hok
  · have hseq : m.seq ≠ (s.pd p).seq := h.resolve_left (by rw [ht]; exact Option.some_ne_none t1)
    rw [hd]
    exact (if_pos hseq).trans (if_pos hok)

theorem linkDelayFld_word (p : Port) : (linkDelayFld p).lo + (linkDelayFld p).width ≤ 32 ∧ (linkDelayFld p).width = 32 := by
  cases p <;> exact ⟨by decide, rfl⟩

theorem setSfld_pd (s : State) (f : Fld) (x : Int) (p : Port) : (s.setSfld f x).pd p = s.pd p := by cases p <;> rfl

theorem delayTaken_heard (u : State) (p : Port) (h : List Int) (v : Int) : Heard [(linkDelayFld p).addr] u (delayTaken u p h v) :=
  (Heard.setSfld u _ _ (List.mem_singleton_self _)).trans (modPd_heard _ p _)

theorem delayTaken_fld (u : State) (p : Port) (h : List Int) (v : Int) : (delayTaken u p h v).fld (linkDelayFld p) = unsigned 32 v := by
  have hm := (modPd_heard (l := []) (u.setSfld (linkDelayFld p) v) p fun d => { d with hist := h, lastResp := u.time.cycles, lost := false }).fld
    (linkDelayFld p) List.not_mem_nil
  rw [delayTaken, hm, fld_setSfld_same _ _ _ (linkDelayFld_word p).1, (linkDelayFld_word p).2]

theorem delayTaken_pd (u : State) (p : Port) (h : List Int) (v : Int) :
    (delayTaken u p h v).pd p = { u.pd p with hist := h, lastResp := u.time.cycles, lost := false } := by
  rw [delayTaken, modPd_pd, setSfld_pd]

/-- The mean of whole sixteenths of a nanosecond is exact (R72). -/
theorem mean_exact (s : State) (d : Int) (h : List Int) (hh : h ≠ []) (hsum : h.sum = d * ((2 * h.length : Nat) : Int) * 2 ^ 12) :
    s.roundFree h.sum (2 * h.length * 2 ^ 12) = (d, s) := by
  have hd : d * ((2 * h.length : Nat) : Int) * 2 ^ 12 = d * ((2 * h.length * 2 ^ 12 : Nat) : Int) := by
    push_cast
    ring
  rw [hsum, hd]
  exact roundFree_exact s d _ (by have := List.length_pos_iff.mpr hh; positivity)

/-! ### Failure, answers and pending sums (R72 to R74) -/

/-- The link delay of a port has become invalid (R72). -/
def delayLost (u : State) (p : Port) : State :=
  (u.setFld (linkDelayFld p) 0xFFFFFFFF).modPd p fun d => { d with hist := [], lost := true }

theorem pdelayFail_loses {s : State} {p : Port} (h : (s.pd p).asked = true) (h' : (s.pd p).lost = false) : s.pdelayFail p
    = (delayLost (s.reachCycles ((s.pd p).lastResp + 3 * logCycles s.logPdelay)) p).raiseInt Irq.pdelayFail :=
  if_pos (by rw [h, h']; rfl)

theorem delayLost_heard (u : State) (p : Port) : Heard [(linkDelayFld p).addr] u (delayLost u p) :=
  (Heard.setFld u _ _ (List.mem_singleton_self _)).trans (modPd_heard _ p _)

theorem delayLost_fld (u : State) (p : Port) : (delayLost u p).fld (linkDelayFld p) = 0xFFFFFFFF := by
  have hm := (modPd_heard (l := []) (u.setFld (linkDelayFld p) 0xFFFFFFFF) p fun d => { d with hist := [], lost := true }).fld
    (linkDelayFld p) List.not_mem_nil
  rw [delayLost, hm, fld_setFld_same _ _ _ (linkDelayFld_word p).1, (linkDelayFld_word p).2]
  rfl

theorem delayLost_pd (u : State) (p : Port) : ((delayLost u p).pd p).hist = [] ∧ ((delayLost u p).pd p).lost = true := by
  rw [delayLost, modPd_pd]
  exact ⟨rfl, rfl⟩

/-- The counter of the answers of a port (R73). -/
def respCnt : Port → Fld
  | .a => F.PTP.PDELAY_RESP_CNT.A
  | .b => F.PTP.PDELAY_RESP_CNT.B

theorem respCnt_addr (p : Port) : (respCnt p).addr = 0x002084 := by cases p <;> rfl

/-- A Pdelay_Req with its stamps is answered and counted (R73). -/
theorem pdelayReqRx_answers {s : State} {p : Port} {m : PdelayReqMsg} (hok : m.stampOk = true) (hport : s.ptpPort p = true)
    (hf : s.bit F.ARB_TX.ARB_CTL.FREEZE = false) : s.pdelayReqRx p m = (s.ptpSend p (s.pdelayResp p m)).count (respCnt p) := by
  have hn : ¬ s.bit F.ARB_TX.ARB_CTL.FREEZE = true := by rw [hf]; decide
  cases p <;> exact (if_neg (by rw [hport]; decide)).trans ((if_neg (by rw [hok]; decide)).trans (if_neg hn))

/-- Without its stamps no answer is formed (R75). -/
theorem pdelayReqRx_lost {s : State} {p : Port} {m : PdelayReqMsg} (hok : m.stampOk = false) (hport : s.ptpPort p = true) :
    s.pdelayReqRx p m = s.tsOverflow p := (if_neg (by rw [hport]; decide)).trans (if_pos hok)

theorem tcExpire_some {s : State} {p : Port} {e : TcEntry} (h : (s.tcSums p).getLast? = some e) : s.tcExpire p
    = ((s.reachCycles (e.at_ + 500000000)).setTcSums p (s.tcSums p).dropLast).count F.PTP.FU_MISS_CNT.CNT := by
  rw [State.tcExpire, h]

theorem setTcSums_heard {l : List Nat} (s : State) (p : Port) (e : List TcEntry) : Heard l s (s.setTcSums p e) := Heard.modPtp s _
theorem count_setTcSums (s : State) (p : Port) (e : List TcEntry) (f : Fld) : ((s.setTcSums p e).count f).tcSums p = e := by
  cases p <;> rfl

/-- Settles O10: each message and each timed command of the peer delay has few cases. -/
theorem peerDelayIsMeasured : Obligations.PeerDelayIsMeasured := by
  unfold Obligations.PeerDelayIsMeasured
  intro s hs hb hf
  refine ⟨?_, ?_, ?_, ?_, ?_, ?_, ?_, ?_, ?_, ?_, ?_⟩
  · exact pdelayReqSend_both hs hf
  · intro okA okB ha hpb hok
    subst hok
    exact pdelayReqSend_one hs hf okB ha hpb
  · exact pdelayReqSend_lost hs hb hf
  · exact pdelayReqSend_none hs
  · intro p m t1 d ht hseq hok hskip hsum
    have hlist : (turnOf t1 m :: (s.pd p).hist).take 8 = turnOf t1 m :: (s.pd p).hist.take 7 := rfl
    have hr := mean_exact (exchangeEnded s p) d _ (List.cons_ne_nil (turnOf t1 m) ((s.pd p).hist.take 7)) (by rw [hsum, List.length_cons])
    rw [← hlist] at hr
    have heq := pdelayRespRx_takes ht hseq hok hskip hr
    have hend : (exchangeEnded s p).pd p = { s.pd p with t1 := none } := modPd_pd s p _
    have htime : (exchangeEnded s p).time = s.time := rfl
    have hh : Heard [(linkDelayFld p).addr] s (delayTaken (exchangeEnded s p) p ((turnOf t1 m :: (s.pd p).hist).take 8) d) :=
      (modPd_heard s p _).trans (delayTaken_heard _ p _ d)
    refine ⟨_, (exec_pdelayRespRx p m s).trans (act_heard_eq (f := fun s => s.pdelayRespRx p m) hs heq hh ?_), delayTaken_fld _ p _ d, ?_, ?_, ?_,
      ?_, hh.regs⟩
    · rcases linkDelayFld_addr p with ha | ha <;> rw [ha] <;> decide
    · rw [delayTaken_pd, hend]
    · rw [delayTaken_pd, htime]
    · rw [delayTaken_pd]
    · rw [delayTaken_pd]
  · intro p m t1 ht hseq hok hskip
    exact (exec_pdelayRespRx p m s).trans (act_heard_eq (l := []) (f := fun s => s.pdelayRespRx p m) hs (pdelayRespRx_skips ht hseq hok hskip)
      (modPd_heard s p _) (by decide))
  · intro p m h hok
    exact (exec_pdelayRespRx p m s).trans (act_idle hs (pdelayRespRx_ignored h hok))
  · intro p hasked hlost
    have heq := pdelayFail_loses hasked hlost
    have hfail := delayLost_heard (s.reachCycles ((s.pd p).lastResp + 3 * logCycles s.logPdelay)) p
    have hne : (linkDelayFld p).addr ≠ 0x002010 := by
      rcases linkDelayFld_addr p with ha | ha <;> rw [ha] <;> decide
    have hin : (F.HDR.INT_ROUTE.INBAND pgPTP).addr ∉ [(linkDelayFld p).addr] := by
      rcases linkDelayFld_addr p with ha | ha <;> rw [ha] <;> decide
    have hh : Heard [(linkDelayFld p).addr, 0x1000 * pgPTP + 0x010] s
        ((delayLost (s.reachCycles ((s.pd p).lastResp + 3 * logCycles s.logPdelay)) p).raiseInt Irq.pdelayFail) :=
      (Heard.reach s _).trans ((hfail.mono (by simp)).trans
        (Heard.raiseInt _ Irq.pdelayFail ((hfail.bit _ hin).trans ((reachCycles_bit s _ _).trans hb)) (by simp)))
    obtain ⟨hhist, hl⟩ := delayLost_pd (s.reachCycles ((s.pd p).lastResp + 3 * logCycles s.logPdelay)) p
    refine ⟨_, (exec_pdelayFail p s).trans (act_heard_eq (f := fun s => s.pdelayFail p) hs heq hh ?_), ?_, ?_, ?_, ?_,
      raiseInt_irq _ Irq.pdelayFail (by decide), hh.regs⟩
    · rcases linkDelayFld_addr p with ha | ha <;> rw [ha] <;> decide
    · rw [raiseInt_fld _ Irq.pdelayFail _ hne, delayLost_fld]
    · rw [pd_congr (raiseInt_ptp _ _), hhist]
    · rw [pd_congr (raiseInt_ptp _ _), hl]
    · rw [raiseInt_time]
      exact reachCycles_cycles s _
  · intro p m hok hport
    have heq := pdelayReqRx_answers hok hport hf
    have hsend := ptpSend_heard (l := []) s p (s.pdelayResp p m) hf
    obtain ⟨htx, -, -, -⟩ := ptpSend_sends s p (s.pdelayResp p m) hf
    have hh : Heard [F.PTP.PDELAY_RESP_CNT.A.addr, F.PTP.PDELAY_RESP_CNT.B.addr] s ((s.ptpSend p (s.pdelayResp p m)).count (respCnt p)) :=
      (hsend.mono (by simp)).trans (Heard.count _ _ _ (by rw [respCnt_addr]; decide))
    refine ⟨_, (exec_pdelayReqRx p m s).trans (act_heard_eq (f := fun s => s.pdelayReqRx p m) hs heq hh (by decide)), htx, ?_, ?_, hh.regs⟩
    · rintro rfl
      rw [respCnt, fld_count_same _ _ _ (by decide), hsend.fld _ (by decide)]
    · rintro rfl
      rw [respCnt, fld_count_same _ _ _ (by decide), hsend.fld _ (by decide)]
  · intro p m hok hport
    exact ⟨_, (exec_pdelayReqRx p m s).trans (act_heard_eq (f := fun s => s.pdelayReqRx p m) hs (pdelayReqRx_lost hok hport)
      (tsOverflow_heard s p hb) (by decide)), tsOverflow_faultSet s p, tsOverflow_skip s p hb, by rw [tsOverflow_net s p hb]⟩
  · intro p e he
    have hh : Heard [F.PTP.FU_MISS_CNT.CNT.addr] s
        (((s.reachCycles (e.at_ + 500000000)).setTcSums p (s.tcSums p).dropLast).count F.PTP.FU_MISS_CNT.CNT) :=
      ((Heard.reach s _).trans (setTcSums_heard _ p _)).trans (Heard.count _ _ _ (by decide))
    refine ⟨_, (exec_tcEntryExpire p s).trans (act_heard_eq (f := fun s => s.tcExpire p) hs (tcExpire_some he) hh (by decide)),
      count_setTcSums _ p _ _, ?_, ?_, hh.regs⟩
    · exact reachCycles_cycles s _
    · rw [fld_count_same _ _ _ (by decide), (setTcSums_heard (l := []) _ p _).fld _ (by decide), reachCycles_fld]

/-! ## The fatal faults of time (R64, R65, R416, R434) -/

theorem exec_holdoverExpired (s : State) : exec .holdoverExpired s = act State.holdoverExpire s := rfl
theorem exec_pllUnlock (s : State) :
    exec .pllUnlock s = act (fun s => (s.modServo fun v => { v with pllBad := true }).timeFatal Flt.pllUnlock) s := rfl
theorem exec_refclkLoss (s : State) :
    exec .refclkLoss s = act (fun s => (s.modServo fun v => { v with refBad := true }).timeFatal Flt.refclkLoss) s := rfl

/-! ### The freeze of the log (R434, R435) -/

theorem rimCopyStart_keeps (s : State) : s.rimCopyStart.power.held = s.power.held ∧ s.rimCopyStart.power.abandoned = s.power.abandoned
    ∧ s.rimCopyStart.net.local_ = s.net.local_ ∧ s.rimCopyStart.rim.fatalDue = s.rim.fatalDue ∧ s.rimCopyStart.rim.due = s.rim.due := by
  simp only [State.rimCopyStart, State.savesAbandon, State.calSaveDrop, State.drawFree]
  exact ⟨rfl, rfl, rfl, rfl, rfl⟩

theorem quiet_rimCopyStart (s : State) : s.rimCopyStart.quiet = s.quiet := by
  obtain ⟨hheld, hab, hloc, hfat, hdue⟩ := rimCopyStart_keeps s
  exact quiet_congr _ _ hheld hab hloc (by rw [rimCopyStart_only]) hfat hdue (fld_of_regs (by rw [rimCopyStart_only]) _)

/-- The log has been marked as frozen, and its copy begins (R434, R435). -/
def freezing (s : State) (cause : Nat) : State :=
  ((s.setBit F.RIM.RIM_STS.FROZEN true).setFld F.RIM.RIM_STS.CAUSE cause).rimCopyStart

theorem rimFreeze_cases (s : State) (cause : Nat) : s.bit F.RIM.RIM_STS.FROZEN = true ∧ s.rimFreeze cause = s
    ∨ s.rimFreeze cause = (freezing s cause).raiseInt Irq.frozen := by
  rw [State.rimFreeze]
  rcases h : s.bit F.RIM.RIM_STS.FROZEN with _ | _
  · exact Or.inr (if_neg Bool.false_ne_true)
  · exact Or.inl ⟨rfl, if_pos rfl⟩

theorem freezing_regs (s : State) (cause : Nat) :
    (freezing s cause).regs = ((s.setBit F.RIM.RIM_STS.FROZEN true).setFld F.RIM.RIM_STS.CAUSE cause).regs := by
  rw [freezing, rimCopyStart_only]

theorem rimFreeze_frozen (s : State) (cause : Nat) : (s.rimFreeze cause).bit F.RIM.RIM_STS.FROZEN = true := by
  rcases rimFreeze_cases s cause with ⟨h, h'⟩ | h'
  · rw [h', h]
  · rw [h', raiseInt_bit _ Irq.frozen _ (by decide), bit_of_regs (freezing_regs s cause), bit_setFld_other _ _ _ _ (by decide),
      bit_setBit_same _ _ _ (by decide) rfl]

theorem quiet_rimFreeze (s : State) (cause : Nat) (hb : s.bit (F.HDR.INT_ROUTE.INBAND pgRIM) = false) : (s.rimFreeze cause).quiet = s.quiet := by
  rcases rimFreeze_cases s cause with ⟨-, h'⟩ | h'
  · rw [h']
  · have hb' : (freezing s cause).bit (F.HDR.INT_ROUTE.INBAND pgRIM) = false := by
      rw [bit_of_regs (freezing_regs s cause), bit_setFld_other _ _ _ _ (by decide), bit_setBit_other _ _ _ _ (by decide), hb]
    rw [h', quiet_raiseInt _ Irq.frozen hb', freezing, quiet_rimCopyStart, quiet_setFld _ _ _ (by decide), quiet_setBit _ _ _ (by decide)]

theorem rimFreeze_keeps (s : State) (cause : Nat) : (s.rimFreeze cause).servo = s.servo ∧ (s.rimFreeze cause).time = s.time
    ∧ (s.rimFreeze cause).pending = s.pending := by
  rcases rimFreeze_cases s cause with ⟨-, h'⟩ | h'
  · rw [h']
    exact ⟨rfl, rfl, rfl⟩
  · rw [h', raiseInt_servo, raiseInt_time, raiseInt_pending, freezing, rimCopyStart_only]
    exact ⟨rfl, rfl, rfl⟩

/-! ### A FATAL fault (R414 to R416) -/

/-- A FATAL fault is logged as any other, then it freezes the log and waits for its effect on the pair (R416, R434). -/
theorem raiseFault_fatal (s : State) (f : FltBit) (hc : f.cls = clsFatal) (hb : s.bit (F.HDR.INT_ROUTE.INBAND f.page) = false) :
    ∃ u, Mild (faultRegs f.page) s u ∧ s.raiseFault f = (u.rimFreeze 2).modRim fun r => { r with fatalDue := true } := by
  have m : ∀ a, a ∈ faultRegs f.page ↔ _ := mem_faultRegs f.page
  have hne : 0x1000 * f.page + 0x018 ∉ faultRegs f.page := by rw [m]; omega
  have hint : 0x1000 * f.page + 0x010 ∈ faultRegs f.page := by simp [faultRegs]
  have hcorr : f.cls ≠ clsCorr := by rw [hc]; decide
  have hcont : f.cls ≠ clsCont := by rw [hc]; decide
  unfold State.raiseFault State.raiseFaultInj
  extract_lets fld old new s1 s2 s3 s4
  have h1 : Mild (faultRegs f.page) s s1 := Mild.setFld s fld _ (by simp [fld, faultRegs])
  have h2 : s2 = s1 := (if_neg hcorr).trans (if_neg hcont)
  have h3 : Mild (faultRegs f.page) s s3 := by
    have hs3 : s3 = s1.captureFault f := by rw [← h2]
    rw [hs3]
    exact h1.trans (Mild.captureFault _ _ (by simp [faultRegs]) (by simp [faultRegs]))
  refine ⟨s4, ?_, if_pos (decide_eq_true hc)⟩
  have hb3 : s3.bit (F.HDR.INT_ROUTE.INBAND f.page) = false := (h3.bit _ hne).trans hb
  have hirq : ∀ (u : State) (b : Nat), u.bit (F.HDR.INT_ROUTE.INBAND f.page) = false → Mild (faultRegs f.page) u (u.raiseInt ⟨f.page, b⟩) :=
    fun u b hu => Mild.raiseInt u ⟨f.page, b⟩ hu hint
  have hwhen : ∀ (u v : State) (b : Bool), Mild (faultRegs f.page) u v → Mild (faultRegs f.page) u (u.when b fun _ => v) := by
    intro u v b hv
    cases b
    · exact Mild.refl _ u
    · exact hv
  refine h3.trans (hwhen s3 _ _ ?_)
  have h31 := hirq s3 31 hb3
  have h30 := hwhen _ _ (decide (f.cls = clsFatal)) (hirq (s3.raiseInt ⟨f.page, 31⟩) 30 ((h31.bit _ hne).trans hb3))
  exact (h31.trans h30).trans (hwhen _ _ _ (Mild.rimTake _ _ (by simp [faultRegs]) (by simp [faultRegs])))

/-- The registers that a FATAL fault of the time page touches. -/
def fatalRegs : List Nat := faultRegs pgTIME ++ [0x006048, 0x006010]

section
variable {s : State} {f : FltBit} (hpage : f.page = pgTIME) (hc : f.cls = clsFatal)
  (htime : s.bit (F.HDR.INT_ROUTE.INBAND pgTIME) = false)
include hpage hc htime

/-- What a FATAL fault of the time page leaves. -/
theorem raiseFault_fatal_leaves : s.regsBut (s.raiseFault f) fatalRegs ∧ (s.raiseFault f).servo = s.servo ∧ (s.raiseFault f).time = s.time
    ∧ (s.raiseFault f).pending = s.pending ∧ (s.raiseFault f).bit F.RIM.RIM_STS.FROZEN = true := by
  obtain ⟨u, hu, heq⟩ := raiseFault_fatal s f hc (by rw [hpage, htime])
  rw [hpage] at hu
  have ho : u = { s with regs := u.regs, rim := u.rim } := hu.only
  obtain ⟨hserv, ht, hp⟩ := rimFreeze_keeps u 2
  rw [heq]
  refine ⟨fun a ha => ?_, hserv.trans (by rw [ho]), ht.trans (by rw [ho]), hp.trans (by rw [ho]), rimFreeze_frozen u 2⟩
  rw [fatalRegs, List.mem_append, not_or] at ha
  have hne : a ≠ 0x006048 ∧ a ≠ 0x006010 := by simpa using ha.2
  exact (rimFreeze_reg u 2 a hne.1 hne.2).trans (hu.regs a ha.1)

/-- Beside its effect on the pair a FATAL fault leaves nothing due. -/
theorem raiseFault_fatal_due (hs : s.quiet = true) (hrim : s.bit (F.HDR.INT_ROUTE.INBAND pgRIM) = false) :
    ∃ v : State, v.quiet = true ∧ s.raiseFault f = v.modRim fun r => { r with fatalDue := true } := by
  obtain ⟨u, hu, heq⟩ := raiseFault_fatal s f hc (by rw [hpage, htime])
  rw [hpage] at hu
  refine ⟨u.rimFreeze 2, ?_, heq⟩
  rw [quiet_rimFreeze u 2 ((hu.bit _ (by decide)).trans hrim), hu.quiet (by decide), hs]
end

/-! ### The end of a command on a SOLO hub -/

/-- The effect of a FATAL fault on the pair has been taken (R416). -/
def fatalTaken (u : State) : State := u.modRim fun r => { r with fatalDue := false }

theorem fatalRole_solo (s : State) (h : s.role = roleSolo) : s.fatalRole = s := by
  rw [State.fatalRole, h, if_neg (by decide), State.follows, h]
  exact if_neg (by decide)

/-- A SOLO hub has no partner that a FATAL fault concerns (R416). -/
theorem settle_solo (u : State) (hq : (fatalTaken u).quiet = true) (hr : u.role = roleSolo) : settle u = fatalTaken u := by
  obtain ⟨-, -, h1, h2, -, h4, h5⟩ := (quiet_iff _).1 hq
  have h1' : u.net.local_ = none := h1
  have h2' : u.arbTx.owner = none := h2
  have e1 : u.frameEnd = u := by rw [State.frameEnd, h1']
  have e2 : u.txDrop = u := by rw [State.txDrop, h1', h2']
  have e3 : u.when u.rim.fatalDue (fun s => (s.modRim fun r => { r with fatalDue := false }).fatalRole) = fatalTaken u := by
    rcases hf : u.rim.fatalDue with _ | _
    · have hrim : ({ u.rim with fatalDue := false } : Rim) = u.rim := by rw [← hf]
      have hu : fatalTaken u = { u with rim := { u.rim with fatalDue := false } } := rfl
      rw [hu, hrim]
      rfl
    · exact fatalRole_solo (fatalTaken u) hr
  have e4 : State.serveDue 1024 (fatalTaken u) = fatalTaken u := by rw [State.serveDue, h4]
  have e5 : (fatalTaken u).bootLast = fatalTaken u := if_neg fun h => h5 h.1
  have hsettle : settle u = (State.serveDue 1024 (u.frameEnd.txDrop.when u.frameEnd.txDrop.rim.fatalDue fun s =>
      (s.modRim fun r => { r with fatalDue := false }).fatalRole)).bootLast := rfl
  rw [hsettle, e1, e2, e3, e4, e5]

/-- A command that ends in a FATAL fault on a quiet SOLO hub. -/
theorem act_solo {f : State → State} {s u : State} (hs : s.quiet = true) (hu : f s = u) (hq : (fatalTaken u).quiet = true)
    (hr : u.role = roleSolo) (hp : u.pending = s.pending) : act f s = .next (fatalTaken u) := by
  have hp' : (fatalTaken u).pending = s.pending := hp
  rw [act, inReset_of_quiet s hs, if_neg Bool.false_ne_true, hu, settle_solo u hq hr, sealed_of_quiet _ _ hq hp']

/-- A state in which the effect of a FATAL fault waits is quiet once it is taken, also where the servo has moved since. -/
theorem fatalTaken_quiet {l : List Nat} {v w : State} (hv : v.quiet = true) (hm : Moved l (v.modRim fun r => { r with fatalDue := true }) w)
    (hl : 0x005040 ∉ l) : (fatalTaken w).quiet = true := by
  obtain ⟨h1, h2, h3, h4, -, h6, h7⟩ := (quiet_iff v).1 hv
  have hpow : w.power = v.power := by rw [hm.only]; rfl
  have hnet : w.net = v.net := by rw [hm.only]; rfl
  have harb : w.arbTx = v.arbTx := by rw [hm.only]; rfl
  have hdue : w.rim.due = v.rim.due := hm.due
  have hstep : w.fld F.NVM.BOOT_STS.STEP = v.fld F.NVM.BOOT_STS.STEP := hm.fld _ hl
  exact (quiet_iff _).2 ⟨hpow ▸ h1, hpow ▸ h2, hnet ▸ h3, harb ▸ h4, rfl, hdue.trans h6, hstep.trans_ne h7⟩

/-- STOPPED has no step scheduled (R61). -/
theorem servoEnter_stopped_stepSched (s : State) : (s.servoEnter svStopped).stepSched = false := by
  simp (disch := decide) [State.servoEnter, State.freqToInt, State.setFreqAdj, State.pendBits, State.stepSched, State.cancelStep,
      bit_setBit_same, bit_setFld_other, rimEvent_bit]

/-- What a fatal time fault leaves of the servo and of the log (R64, R434). -/
structure Stopped (b : State) (f : FltBit) (t : State) : Prop where
  stopped : t.servoSt = svStopped
  fault : t.faultSet f = true
  frozen : t.bit F.RIM.RIM_STS.FROZEN = true
  unscheduled : t.stepSched = false
  rate : t.fld F.TIME.FREQ_ADJ.ADJ = b.fld F.TIME.FREQ_INT.INT
  timeSet : t.timeSet = b.timeSet
  time : t.time = b.time
  servo : t.servo = enterRec b.servoSt svStopped b.time.cycles b.servo

section
variable {b : State} {f : FltBit} (hpage : f.page = pgTIME) (hc : f.cls = clsFatal)
  (htime : b.bit (F.HDR.INT_ROUTE.INBAND pgTIME) = false)
include hpage hc htime

theorem timeFatal_stopped (hbit : f.bit < 32) : Stopped b f (fatalTaken (b.timeFatal f)) := by
  obtain ⟨hregs, hserv, ht, -, hfroz⟩ := raiseFault_fatal_leaves hpage hc htime
  have hfld : ∀ g : Fld, g.addr ∉ fatalRegs → (b.raiseFault f).fld g = b.fld g := fun g hg =>
    congrArg (fun r => getBits r _ _) (hregs _ hg)
  have hst : (b.raiseFault f).servoSt = b.servoSt := hfld _ (by decide)
  have hset : (b.raiseFault f).timeSet = b.timeSet := by rw [State.timeSet, State.bit, hfld _ (by decide)]; rfl
  refine ⟨servoEnter_servoSt _ svStopped (by decide), ?_, ?_, servoEnter_stopped_stepSched _, ?_, ?_, ?_, ?_⟩
  · have hf : (fatalTaken (b.timeFatal f)).faultSet f = (b.raiseFault f).faultSet f := by
      have hl := servoEnter_fld (b.raiseFault f) svStopped (F.HDR.FLT_STS.FAULTS f.page)
      rw [hpage] at hl
      rw [State.faultSet, State.faultSet, hpage]
      exact congrArg (fun x => Nat.testBit x f.bit) (hl (by decide) (by decide) (by decide) (by decide))
    rw [hf, faultSet_raiseFault b f hbit]
  · exact (servoEnter_bit _ svStopped F.RIM.RIM_STS.FROZEN (by decide) (by decide) (by decide) (by decide)).trans hfroz
  · exact (servoEnter_freqAdj _ svStopped (by decide)).trans (hfld _ (by decide))
  · exact (servoEnter_timeSet _ svStopped).trans hset
  · exact (servoEnter_time _ svStopped).trans ht
  · have h := servoEnter_servo (b.raiseFault f) svStopped
    rw [hst, hserv, ht] at h
    exact h

/-- A command that ends in a fatal time fault, on a quiet SOLO hub. -/
theorem act_timeFatal {g : State → State} {s : State} (hs : s.quiet = true) (hg : g s = b.timeFatal f) (hb : b.quiet = true)
    (hrim : b.bit (F.HDR.INT_ROUTE.INBAND pgRIM) = false) (hr : b.role = roleSolo) (hp : b.pending = s.pending) :
    act g s = .next (fatalTaken (b.timeFatal f)) := by
  obtain ⟨hregs, -, -, hpend, -⟩ := raiseFault_fatal_leaves hpage hc htime
  obtain ⟨v, hv, heq⟩ := raiseFault_fatal_due hpage hc htime hb hrim
  have hm : Moved [0x001048, 0x001088, 0x00604C, 0x006058] (b.raiseFault f) (b.timeFatal f) :=
    servoEnter_moved _ svStopped (by decide) (by decide) (by decide) fun _ => by decide
  have hrole : (b.raiseFault f).role = b.role := congrArg (fun r => getBits r _ _) (hregs _ (by decide))
  exact act_solo hs hg (fatalTaken_quiet hv (heq ▸ hm) (by decide)) ((hm.role (by decide)).trans (hrole.trans hr))
    (hm.pending.trans (hpend.trans hp))
end

/-- Settles O12: each command is a fatal time fault, which stops the servo and freezes the log. -/
theorem fatalTimeFaultsStopTheServo : Obligations.FatalTimeFaultsStopTheServo := by
  unfold Obligations.FatalTimeFaultsStopTheServo
  intro s hs hr htime hrim
  refine ⟨fun hst hlim => ?_, fun h => ?_, ?_, ?_⟩
  · have hexp : s.holdoverExpire = ((s.reachCycles (s.servo.holdAt.getD 0 + s.fld F.TIME.HOLDOVER_LIMIT.LIMIT * 500000000)).modServo fun v =>
        { v with expired := true }).timeFatal Flt.holdoverExpired := if_pos ⟨hst, hlim⟩
    have hrun := reachCycles_cycles s (s.servo.holdAt.getD 0 + s.fld F.TIME.HOLDOVER_LIMIT.LIMIT * 500000000)
    have hq := quiet_reachCycles s (s.servo.holdAt.getD 0 + s.fld F.TIME.HOLDOVER_LIMIT.LIMIT * 500000000)
    have hregs := reachCycles_regs s (s.servo.holdAt.getD 0 + s.fld F.TIME.HOLDOVER_LIMIT.LIMIT * 500000000)
    have hp := reachCycles_pending s (s.servo.holdAt.getD 0 + s.fld F.TIME.HOLDOVER_LIMIT.LIMIT * 500000000)
    obtain ⟨u, hu⟩ : ∃ u, u = s.reachCycles (s.servo.holdAt.getD 0 + s.fld F.TIME.HOLDOVER_LIMIT.LIMIT * 500000000) := ⟨_, rfl⟩
    rw [← hu] at hexp hrun hq hregs hp
    have hb : (u.modServo fun v => { v with expired := true }).bit (F.HDR.INT_ROUTE.INBAND pgTIME) = false := (bit_of_regs hregs _).trans htime
    have hrim' : (u.modServo fun v => { v with expired := true }).bit (F.HDR.INT_ROUTE.INBAND pgRIM) = false := (bit_of_regs hregs _).trans hrim
    have hrole : (u.modServo fun v => { v with expired := true }).role = roleSolo := (fld_of_regs hregs _).trans hr
    have hstop := timeFatal_stopped (f := Flt.holdoverExpired) rfl rfl hb (by decide)
    refine ⟨_, (exec_holdoverExpired s).trans (act_timeFatal (g := State.holdoverExpire) rfl rfl hb hs hexp (hq.trans hs) hrim' hrole hp),
      hstop.stopped, hstop.fault, ?_, hstop.frozen, hstop.rate.trans (fld_of_regs hregs _), ?_⟩
    · rw [hstop.servo]
      rfl
    · rw [hstop.time]
      exact hrun
  · refine (exec_holdoverExpired s).trans (act_idle hs (if_neg ?_))
    rintro ⟨hst, hlim⟩
    exact h.elim (fun h => h hst) hlim
  · have hstop := timeFatal_stopped (f := Flt.pllUnlock) (b := s.modServo fun v => { v with pllBad := true }) rfl rfl htime (by decide)
    refine ⟨_, (exec_pllUnlock s).trans (act_timeFatal (f := Flt.pllUnlock) (b := s.modServo fun v => { v with pllBad := true }) rfl rfl htime hs
      rfl hs hrim hr rfl), hstop.stopped, hstop.fault, ?_, hstop.frozen, hstop.unscheduled, hstop.rate, hstop.timeSet, hstop.time⟩
    rw [hstop.servo]
    rfl
  · have hstop := timeFatal_stopped (f := Flt.refclkLoss) (b := s.modServo fun v => { v with refBad := true }) rfl rfl htime (by decide)
    refine ⟨_, (exec_refclkLoss s).trans (act_timeFatal (f := Flt.refclkLoss) (b := s.modServo fun v => { v with refBad := true }) rfl rfl htime hs
      rfl hs hrim hr rfl), hstop.stopped, hstop.fault, ?_, hstop.frozen, hstop.unscheduled, hstop.rate, hstop.timeSet, hstop.time⟩
    rw [hstop.servo]
    rfl

end Sys2Proof.TimeProofs

/-!
The family of the ticks and the in-phase holds: the tick grid and its page (R83 to R109), trims and wale alignment (R98 to R102), passes
(R148 to R165), and the pulses and the clock of the wale bus (R362 to R373).
-/


namespace Sys2Proof.TickProofs

open Sys2Proof Sys2Proof.Machine Sys2Proof.Laws Sys2Proof.ScopeProofs Sys2Proof.TimeProofs

/-! ## Staged values (R17) -/

theorem takeStaged_stg (s : State) (e : Nat × Nat) (a : Nat) : (s.takeStaged e).stg a = s.stg a := rfl

/-- A register whose staged bits have been taken already takes nothing more. -/
theorem takeStaged_merged (s : State) (a m : Nat) : (s.takeStaged (a, m)).merged a m = s.merged a m := by
  have hreg : (s.takeStaged (a, m)).reg a = s.merged a m := reg_setReg_same s a _
  have hbits : ∀ x y k : Reg, (((x &&& ~~~k) ||| (y &&& k)) &&& ~~~k) ||| (y &&& k) = (x &&& ~~~k) ||| (y &&& k) := by
    intro x y k
    ext i hi
    simp only [BitVec.getElem_or, BitVec.getElem_and, BitVec.getElem_not]
    cases x[i] <;> cases y[i] <;> cases k[i] <;> rfl
  simp only [State.merged, hreg, takeStaged_stg]
  exact hbits _ _ _

theorem merged_congr {s t : State} {a : Nat} (m : Nat) (hr : t.reg a = s.reg a) (hs : t.stg a = s.stg a) : t.merged a m = s.merged a m := by
  simp only [State.merged, hr, hs]

theorem each_takeStaged_stg (s : State) (l : List (Nat × Nat)) (a : Nat) : (s.each l State.takeStaged).stg a = s.stg a := by
  induction l generalizing s with
  | nil => rfl
  | cons e l ih => exact (ih (s.takeStaged e)).trans (takeStaged_stg s e a)

theorem each_takeStaged_reg_other (s : State) (l : List (Nat × Nat)) (a : Nat) (h : ∀ e ∈ l, e.1 ≠ a) :
    (s.each l State.takeStaged).reg a = s.reg a := by
  induction l generalizing s with
  | nil => rfl
  | cons e l ih =>
    have hne : e.1 ≠ a := h e List.mem_cons_self
    exact (ih (s.takeStaged e) fun e' he' => h e' (List.mem_cons_of_mem _ he')).trans (reg_setReg_ne s _ _ _ (Ne.symm hne))

/-- Where a list names a register with one mask alone, taking it makes the register's staged bits running (R17). -/
theorem each_takeStaged_reg (s : State) (l : List (Nat × Nat)) (a m : Nat) (hm : ∀ e ∈ l, e.1 = a → e.2 = m) (h : (a, m) ∈ l) :
    (s.each l State.takeStaged).reg a = s.merged a m := by
  induction l generalizing s with
  | nil => exact absurd h List.not_mem_nil
  | cons e l ih =>
    have hm' : ∀ e' ∈ l, e'.1 = a → e'.2 = m := fun e' he' => hm e' (List.mem_cons_of_mem _ he')
    show ((s.takeStaged e).each l State.takeStaged).reg a = _
    by_cases hl : (a, m) ∈ l
    · rw [ih _ hm' hl]
      by_cases ha : e.1 = a
      · rw [show e = (a, m) from Prod.ext ha (hm e List.mem_cons_self ha), takeStaged_merged]
      · exact merged_congr m (reg_setReg_ne s _ _ _ (Ne.symm ha)) rfl
    · have he : e = (a, m) := ((List.mem_cons.1 h).resolve_right hl).symm
      rw [each_takeStaged_reg_other _ _ _ fun e' he' ha => hl (by rw [← ha, ← hm' e' he' ha]; exact he'), he]
      exact reg_setReg_same s a _

theorem withStaged_stg (s : State) (l : List Nat) (a : Nat) : (s.withStaged l).stg a = s.stg a := by
  induction l generalizing s with
  | nil => rfl
  | cons p l ih => exact (ih (s.each (rwsRegs p) State.takeStaged)).trans (each_takeStaged_stg s (rwsRegs p) a)

/-- A field that lies in the staged bits of its register reads its staged value once they are merged. -/
theorem getBits_merged (s : State) (f : Fld) (m : Nat) (hm : ∀ i < f.width, f.lo + i < 32 ∧ m.testBit (f.lo + i) = true) :
    getBits (s.merged f.addr m) f.lo f.width = s.stgFld f := by
  apply Nat.eq_of_testBit_eq
  intro i
  rw [State.stgFld, getBits_testBit, getBits_testBit]
  by_cases hi : i < f.width
  · obtain ⟨h32, hbit⟩ := hm i hi
    have hmask : (BitVec.ofNat 32 m).getLsbD (f.lo + i) = true := by
      rw [BitVec.getLsbD_ofNat, hbit, decide_eq_true h32, Bool.true_and]
    rw [State.merged, BitVec.getLsbD_or, BitVec.getLsbD_and, BitVec.getLsbD_and, BitVec.getLsbD_not, hmask]
    simp
  · simp [hi]

/-! ## The checks of the TICK page (R83, R84, R452) -/

theorem withStaged_single (s : State) (p : Nat) : s.withStaged [p] = s.each (rwsRegs p) State.takeStaged := rfl

/-- With the TICK page staged on top of whatever else counts as in effect, a field of it reads its staged value. -/
theorem fld_withStaged_tick (s : State) (l : List Nat) (f : Fld) (m : Nat) (hmem : (f.addr, m) ∈ rwsRegs pgTICK)
    (hone : ∀ e ∈ rwsRegs pgTICK, e.1 = f.addr → e.2 = m) (hm : ∀ i < f.width, f.lo + i < 32 ∧ m.testBit (f.lo + i) = true) :
    ((s.withStaged l).withStaged [pgTICK]).fld f = s.stgFld f := by
  have hreg : ((s.withStaged l).withStaged [pgTICK]).reg f.addr = (s.withStaged l).merged f.addr m := by
    rw [withStaged_single]
    exact each_takeStaged_reg (s.withStaged l) (rwsRegs pgTICK) f.addr m hone hmem
  rw [State.fld, hreg, getBits_merged _ f m hm, State.stgFld, withStaged_stg, State.stgFld]

theorem tickPeriod_withStaged (s : State) (l : List Nat) :
    ((s.withStaged l).withStaged [pgTICK]).tickPeriod = s.stgFld F.TICK.TICK_PERIOD.PERIOD :=
  fld_withStaged_tick s l F.TICK.TICK_PERIOD.PERIOD 0x3FFFFFFF (by decide +kernel) (by decide +kernel) (by decide)

theorem phaseTu_withStaged (s : State) (l : List Nat) : ((s.withStaged l).withStaged [pgTICK]).phaseTu
    = s.stgFld F.TICK.TICK_PHASE.PHASE_NS * 64 + s.stgFld F.TICK.TICK_PHASE_FRAC.FRAC := by
  rw [State.phaseTu, fld_withStaged_tick s l F.TICK.TICK_PHASE.PHASE_NS 0x3FFFFFFF (by decide +kernel) (by decide +kernel) (by decide),
    fld_withStaged_tick s l F.TICK.TICK_PHASE_FRAC.FRAC 0x3F (by decide +kernel) (by decide +kernel) (by decide)]

theorem periodOk_iff (p : Nat) : periodOk p = true ↔ p ∣ 1000000000 ∧ 8000 ≤ p := by
  simp [periodOk, Nat.dvd_iff_mod_eq_zero, and_comm]

/-- The staged values of the TICK page break R83 or R84. -/
def stagedTickBad (s : State) : Prop :=
  ¬ (s.stgFld F.TICK.TICK_PERIOD.PERIOD ∣ 1000000000 ∧ 8000 ≤ s.stgFld F.TICK.TICK_PERIOD.PERIOD)
    ∨ s.stgFld F.TICK.TICK_PERIOD.PERIOD * 64 ≤ s.stgFld F.TICK.TICK_PHASE.PHASE_NS * 64 + s.stgFld F.TICK.TICK_PHASE_FRAC.FRAC

/-- A configuration that would run with such values is refused with reason 1, whatever else it holds (R452). -/
theorem configReason_stagedTickBad (s before : State) (l : List Nat) (h : stagedTickBad s) :
    ((s.withStaged l).withStaged [pgTICK]).configReason before pgTICK = 1 := by
  have hbad : ((s.withStaged l).withStaged [pgTICK]).fieldsBad before pgTICK = ((s.withStaged l).withStaged [pgTICK]).tickBad := if_pos rfl
  rw [State.configReason, hbad]
  refine if_pos ?_
  rw [State.tickBad, tickPeriod_withStaged, phaseTu_withStaged, Bool.or_eq_true, decide_eq_true_eq, Bool.not_eq_true',
    Bool.eq_false_iff, ne_eq, periodOk_iff]
  exact h

theorem checkConfigs_ne_nil (s : State) (p : Nat) (at_ : Option Nat) : s.checkConfigs p at_ ≠ [] := by
  cases at_ <;> simp [State.checkConfigs]

theorem foldl_min_replicate (n k : Nat) : (List.replicate k n).foldl min n = n := by
  induction k with
  | zero => rfl
  | succ k ih => rw [List.replicate_succ, List.foldl_cons, Nat.min_self, ih]

/-- A request of a TICK page with such values meets reason 1 in every configuration that it is checked in (R452). -/
theorem commitReason_stagedTickBad (s : State) (at_ : Option Nat) (pair : Bool) (h : stagedTickBad s) :
    s.commitReason pgTICK at_ pair = 1 := by
  have hall : ∀ r ∈ (s.checkConfigs pgTICK at_).map fun e => e.1.configReason e.2 pgTICK, r = 1 := by
    intro r hr
    simp only [State.checkConfigs, List.mem_map] at hr
    obtain ⟨e, ⟨m, -, rfl⟩, rfl⟩ := hr
    exact configReason_stagedTickBad s _ _ h
  obtain ⟨k, hk⟩ := Nat.exists_eq_succ_of_ne_zero fun h0 => checkConfigs_ne_nil s pgTICK at_ (List.eq_nil_of_length_eq_zero h0)
  have hmap : ((s.checkConfigs pgTICK at_).map fun e => e.1.configReason e.2 pgTICK) = 1 :: List.replicate k 1 := by
    rw [← List.replicate_succ, List.eq_replicate_iff]
    exact ⟨(List.length_map _).trans hk, hall⟩
  have hkeep : (1 :: List.replicate k 1).filter (fun r : Nat => decide (r ≠ 0)) = 1 :: List.replicate k 1 := by
    rw [List.filter_eq_self]
    intro r hr
    rw [← List.replicate_succ] at hr
    rw [List.eq_of_mem_replicate hr]
    rfl
  simp only [State.commitReason, hmap, hkeep]
  exact foldl_min_replicate 1 k

/-! ## A refused commit (R452) -/

/-- The registers that a refusal of reason 1 on the TICK page touches. -/
def refusalRegs : List Nat := [0x003034, 0x000058, 0x00005C, 0x000010, 0x00604C, 0x006058]

/-- A refusal of reason 1. -/
def tickRefused (s : State) : State :=
  ((((((s.setBit (F.HDR.STAGE_CTL.REFUSED pgTICK) true).setFld (F.HDR.STAGE_CTL.REASON pgTICK) 1).setFld F.CHIP.REFUSE_INFO.REASON 1).setFld
    F.CHIP.REFUSE_INFO.PAGE pgTICK).count F.CHIP.REFUSE_CNT.CNT).raiseInt Irq.commitRefused).rimEvent evCommitRefused pgTICK

theorem commitRefuse_tick (s : State) : s.commitRefuse pgTICK 1 = tickRefused s := rfl

theorem tickRefused_mild (s : State) (hb : s.bit (F.HDR.INT_ROUTE.INBAND pgCHIP) = false) : Mild refusalRegs s (tickRefused s) := by
  have h : Mild refusalRegs s (((((s.setBit (F.HDR.STAGE_CTL.REFUSED pgTICK) true).setFld (F.HDR.STAGE_CTL.REASON pgTICK) 1).setFld
      F.CHIP.REFUSE_INFO.REASON 1).setFld F.CHIP.REFUSE_INFO.PAGE pgTICK).count F.CHIP.REFUSE_CNT.CNT) :=
    ((((Mild.setBit _ _ _ (by decide)).trans (Mild.setFld _ _ _ (by decide))).trans (Mild.setFld _ _ _ (by decide))).trans
      (Mild.setFld _ _ _ (by decide))).trans (Mild.count _ _ _ (by decide))
  exact (h.trans (Mild.raiseInt _ Irq.commitRefused ((h.bit _ (by decide)).trans hb) (by decide))).trans
    (Mild.rimEvent _ _ _ (by decide) (by decide))

theorem tickRefused_fld (s : State) (f : Fld) (h : f.addr = 0x003034) : (tickRefused s).fld f
    = ((s.setBit (F.HDR.STAGE_CTL.REFUSED pgTICK) true).setFld (F.HDR.STAGE_CTL.REASON pgTICK) 1).fld f := by
  rw [tickRefused, rimEvent_fld _ _ _ _ (by simp [h]) (by simp [h]), raiseInt_fld _ _ _ (by simp [h]), fld_count_other _ _ _ _ (by simp [h]),
    fld_setFld_addr _ _ _ _ (by simp [h]), fld_setFld_addr _ _ _ _ (by simp [h])]

theorem tickRefused_refused (s : State) : (tickRefused s).bit (F.HDR.STAGE_CTL.REFUSED pgTICK) = true := by
  rw [State.bit, tickRefused_fld _ _ rfl, ← State.bit, bit_setFld_other _ _ _ _ (by decide), bit_setBit_same _ _ _ (by decide) rfl]

theorem tickRefused_reason (s : State) : (tickRefused s).fld (F.HDR.STAGE_CTL.REASON pgTICK) = 1 := by
  rw [tickRefused_fld _ _ rfl, fld_setFld_same _ _ _ (by decide)]
  rfl

/-- What a refused commit of the TICK page leaves of the grid and of the requests that wait. -/
def gridKept (s t : State) : Prop :=
  t.tickPeriod = s.tickPeriod ∧ t.phaseTu = s.phaseTu ∧ t.grid = s.grid ∧ t.gridSt = s.gridSt ∧ t.commits = s.commits

theorem tickRefused_gridKept (s : State) (hb : s.bit (F.HDR.INT_ROUTE.INBAND pgCHIP) = false) : gridKept s (tickRefused s) := by
  have hm := tickRefused_mild s hb
  have hfld : ∀ f : Fld, f.addr ∉ refusalRegs → (tickRefused s).fld f = s.fld f := hm.fld
  refine ⟨hfld _ (by decide), ?_, ?_, hfld _ (by decide), ?_⟩
  · rw [State.phaseTu, hfld _ (by decide), hfld _ (by decide), State.phaseTu]
  · rw [hm.only]
  · rw [hm.only]

/-- A commit of the TICK page, at once or at a tick, is one request of it. -/
theorem exec_commit_tick (s : State) (c : Instr) (hc : c ∈ [Instr.commit 0x003, Instr.commitAtTick 0x003]) :
    ∃ at_ : State → Option Nat, exec c s = act (fun u => u.otherWrite.commitRequest pgTICK (at_ u) false) s := by
  simp only [List.mem_cons, List.not_mem_nil, or_false] at hc
  rcases hc with rfl | rfl
  · exact ⟨fun _ => none, rfl⟩
  · exact ⟨fun u => some u.atIdx, rfl⟩

/-- A commit of the TICK page whose staged values break R83 or R84 is refused with reason 1, and nothing of the grid changes. -/
theorem tickCommit_refused {s : State} (hs : s.quiet = true) (hb : s.bit (F.HDR.INT_ROUTE.INBAND pgCHIP) = false)
    (hfree : s.commitOf pgTICK = none) (hbad : stagedTickBad s) (c : Instr) (hc : c ∈ [Instr.commit 0x003, Instr.commitAtTick 0x003]) :
    ∃ t, exec c s = .next t ∧ t.bit (F.HDR.STAGE_CTL.REFUSED pgTICK) = true ∧ t.fld (F.HDR.STAGE_CTL.REASON pgTICK) = 1
      ∧ gridKept s t := by
  obtain ⟨at_, hexec⟩ := exec_commit_tick s c hc
  have hw : s.otherWrite.commitOf pgTICK = none := hfree
  have hreq : s.otherWrite.commitRequest pgTICK (at_ s) false = tickRefused s.otherWrite := by
    rw [State.commitRequest, hw, if_neg (by simp)]
    simp only [commitReason_stagedTickBad s.otherWrite (at_ s) false hbad]
    exact (if_neg (by decide)).trans (commitRefuse_tick _)
  have hm := tickRefused_mild s.otherWrite hb
  refine ⟨_, hexec.trans (act_eq hs hreq ((hm.quiet (by decide)).trans (quiet_otherWrite s)) hm.pending), tickRefused_refused _,
    tickRefused_reason _, tickRefused_gridKept s.otherWrite hb⟩

/-- Settles O59: TPS is the quotient of R83, and a period that R83 does not admit meets reason 1. -/
theorem tickPeriodIsChecked : Obligations.TickPeriodIsChecked := by
  unfold Obligations.TickPeriodIsChecked
  refine ⟨fun s => ⟨rfl, fun _ h => ?_, fun h => ?_⟩, fun s hs hb _ hfree hbad c hc => tickCommit_refused hs hb hfree (.inl hbad) c hc⟩
  · exact Nat.div_le_div_left h (by decide)
  · rw [State.tps, h]
    rfl

/-- Settles O60: a phase that is not below the staged period meets reason 1. -/
theorem tickPhaseIsChecked : Obligations.TickPhaseIsChecked := by
  unfold Obligations.TickPhaseIsChecked
  exact ⟨fun s => rfl, fun s hs hb _ hfree hbad c hc => tickCommit_refused hs hb hfree (.inr hbad) c hc⟩

end Sys2Proof.TickProofs

namespace Sys2Proof.TickProofs

open Sys2Proof Sys2Proof.Machine Sys2Proof.Laws Sys2Proof.ScopeProofs Sys2Proof.TimeProofs

/-! ## What keeps a state quiet, whatever else it changes -/

/-- From `s` to `t` only registers of the list have changed, and beside registers nothing that a command settles at its end. -/
structure Calm (l : List Nat) (s t : State) : Prop where
  regs : s.regsBut t l
  pending : t.pending = s.pending
  power : t.power = s.power
  net : t.net = s.net
  arbTx : t.arbTx = s.arbTx
  fatalDue : t.rim.fatalDue = s.rim.fatalDue
  due : t.rim.due = s.rim.due

namespace Calm

variable {l : List Nat} {s t u : State}

theorem refl (l : List Nat) (s : State) : Calm l s s := ⟨fun _ _ => rfl, rfl, rfl, rfl, rfl, rfl, rfl⟩

theorem trans (h : Calm l s t) (h' : Calm l t u) : Calm l s u :=
  ⟨fun a ha => (h'.regs a ha).trans (h.regs a ha), h'.pending.trans h.pending, h'.power.trans h.power, h'.net.trans h.net,
    h'.arbTx.trans h.arbTx, h'.fatalDue.trans h.fatalDue, h'.due.trans h.due⟩

theorem mono {l' : List Nat} (h : Calm l s t) (hl : ∀ a ∈ l, a ∈ l') : Calm l' s t :=
  ⟨fun a ha => h.regs a fun hm => ha (hl a hm), h.pending, h.power, h.net, h.arbTx, h.fatalDue, h.due⟩

theorem of_mild (h : Mild l s t) : Calm l s t := by
  have ho : t = { s with regs := t.regs, rim := t.rim } := h.only
  exact ⟨h.regs, h.pending, by rw [ho], by rw [ho], by rw [ho], h.fatalDue, h.due⟩

theorem setReg (s : State) (a : Nat) (v : Reg) (h : a ∈ l) : Calm l s (s.setReg a v) := of_mild (Mild.setReg s a v h)
theorem setFld (s : State) (f : Fld) (x : Nat) (h : f.addr ∈ l) : Calm l s (s.setFld f x) := setReg s _ _ h
theorem setBit (s : State) (f : Fld) (b : Bool) (h : f.addr ∈ l) : Calm l s (s.setBit f b) := setReg s _ _ h
theorem setSfld (s : State) (f : Fld) (x : Int) (h : f.addr ∈ l) : Calm l s (s.setSfld f x) := setReg s _ _ h
theorem count (s : State) (f : Fld) (k : Nat) (h : f.addr ∈ l) : Calm l s (s.count f k) := setReg s _ _ h
theorem modGrid (s : State) (f : Grid → Grid) : Calm l s (s.modGrid f) := ⟨fun _ _ => rfl, rfl, rfl, rfl, rfl, rfl, rfl⟩
theorem modWale (s : State) (f : Wale → Wale) : Calm l s (s.modWale f) := ⟨fun _ _ => rfl, rfl, rfl, rfl, rfl, rfl, rfl⟩
theorem modServo (s : State) (f : Servo → Servo) : Calm l s (s.modServo f) := ⟨fun _ _ => rfl, rfl, rfl, rfl, rfl, rfl, rfl⟩
theorem raiseInt (s : State) (i : IntBit) (hb : s.bit (F.HDR.INT_ROUTE.INBAND i.page) = false) (h : 0x1000 * i.page + 0x010 ∈ l) :
    Calm l s (s.raiseInt i) := of_mild (Mild.raiseInt s i hb h)

theorem withFree (s : State) (k : Nat) : Calm l s { s with free := k } := ⟨fun _ _ => rfl, rfl, rfl, rfl, rfl, rfl, rfl⟩

theorem roundFree (s : State) (n : Int) (d : Nat) : Calm l s (s.roundFree n d).2 := by
  rw [roundFree_only]; exact ⟨fun _ _ => rfl, rfl, rfl, rfl, rfl, rfl, rfl⟩

theorem reachCycles (s : State) (n : Nat) : Calm l s (s.reachCycles n) := by
  constructor <;> simp [State.regsBut]

theorem fld (h : Calm l s t) (f : Fld) (hf : f.addr ∉ l) : t.fld f = s.fld f := congrArg (fun r => getBits r _ _) (h.regs _ hf)
theorem bit (h : Calm l s t) (f : Fld) (hf : f.addr ∉ l) : t.bit f = s.bit f := by rw [State.bit, h.fld f hf, State.bit]
theorem sfld (h : Calm l s t) (f : Fld) (hf : f.addr ∉ l) : t.sfld f = s.sfld f := by rw [State.sfld, h.fld f hf, State.sfld]

theorem quiet (h : Calm l s t) (hl : 0x005040 ∉ l) : t.quiet = s.quiet := by
  apply quiet_congr
  · rw [h.power]
  · rw [h.power]
  · rw [h.net]
  · rw [h.arbTx]
  · exact h.fatalDue
  · exact h.due
  · exact h.fld F.NVM.BOOT_STS.STEP hl

/-- A command that leaves a quiet state calm has its own effect and nothing else. -/
theorem act {f : State → State} (hs : s.quiet = true) (hf : f s = t) (h : Calm l s t) (hl : 0x005040 ∉ l) : Machine.act f s = .next t :=
  act_eq hs hf (h.quiet hl) h.pending

end Calm

/-- A relation that every step over a list keeps holds from its beginning to its end. -/
theorem each_rel {α : Type} (R : State → State → Prop) (hr : ∀ s, R s s) (ht : ∀ {s t u}, R s t → R t u → R s u) (l : List α)
    (f : State → α → State) (h : ∀ s, ∀ a ∈ l, R s (f s a)) (s : State) : R s (s.each l f) := by
  induction l generalizing s with
  | nil => exact hr s
  | cons a l ih =>
    exact ht (h s a List.mem_cons_self) (ih (fun s b hb => h s b (List.mem_cons_of_mem a hb)) (f s a))

/-! ## TJ and the factory part of the trims (R98, R99) -/

/-- The factory part of one trim moves by at most one code toward its new value (R99). -/
def trimMove (s : State) (c : Nat) : State :=
  let x := clampInt (sget 0 s.grid.trimF c - 1) (sget 0 s.grid.trimF c + 1) (s.trimFactory c).1
  (s.trimFactory c).2.modGrid fun g => { g with trimF := sset 0 g.trimF c x }

theorem tjMeasure_eq (s : State) (x : Nat) : s.tjMeasure x
    = ((s.setFld F.TICK.TJ.TEMP x).each (List.range 512) trimMove).modGrid fun g => { g with trimDue := true } := rfl

/-- The new value of a trim may draw a free value, and changes nothing else. -/
theorem trimFactory_free (s : State) (c : Nat) : ∃ k, (s.trimFactory c).2 = { s with free := k } := by
  rw [State.trimFactory]
  obtain ⟨cold, mid, hot⟩ := s.trimCodes c
  dsimp only
  split
  · exact ⟨s.free, rfl⟩
  · generalize (if s.sfld F.TICK.TJ.TEMP < 400 then _ else _ : Int × Nat) = q
    obtain ⟨num, den⟩ := q
    dsimp only
    split
    · exact ⟨_, roundFree_only _ _ _⟩
    · exact ⟨s.free, rfl⟩

theorem trimFactory_untracked (s : State) (c : Nat) (h : s.bit F.TICK.TRIM_CTL.TEMP_TRACK = false) :
    (s.trimFactory c).1 = (s.trimCodes c).2.1 := by
  rw [State.trimFactory]
  obtain ⟨cold, mid, hot⟩ := s.trimCodes c
  exact congrArg Prod.fst (if_pos h)

/-- What the moves of some trims change: the factory parts, and free values. -/
def TrimsMoved (s t : State) : Prop := ∃ k m, t = { s with grid := { s.grid with trimF := m }, free := k }

theorem trimMove_eq (s : State) (c : Nat) : ∃ k, trimMove s c = { s with free := k, grid := { s.grid with trimF :=
    (sset 0 s.grid.trimF c (clampInt (sget 0 s.grid.trimF c - 1) (sget 0 s.grid.trimF c + 1) (s.trimFactory c).1)) } } := by
  obtain ⟨k, hk⟩ := trimFactory_free s c
  exact ⟨k, congrArg (fun u : State => u.modGrid fun g => { g with trimF :=
    (sset 0 g.trimF c (clampInt (sget 0 s.grid.trimF c - 1) (sget 0 s.grid.trimF c + 1) (s.trimFactory c).1)) }) hk⟩

theorem trimMove_moved (s : State) (c : Nat) : TrimsMoved s (trimMove s c) := by
  obtain ⟨k, hk⟩ := trimMove_eq s c
  exact ⟨k, _, hk⟩

theorem TrimsMoved.trans {s t u : State} (h : TrimsMoved s t) (h' : TrimsMoved t u) : TrimsMoved s u := by
  obtain ⟨_, _, rfl⟩ := h
  obtain ⟨k, m, rfl⟩ := h'
  exact ⟨k, m, rfl⟩

theorem trimMoves_moved (s : State) (l : List Nat) : TrimsMoved s (s.each l trimMove) :=
  each_rel TrimsMoved (fun s => ⟨s.free, s.grid.trimF, rfl⟩) TrimsMoved.trans l trimMove (fun s c _ => trimMove_moved s c) s

theorem trimMove_other (s : State) (c d : Nat) (h : d ≠ c) : sget 0 (trimMove s c).grid.trimF d = sget 0 s.grid.trimF d := by
  obtain ⟨k, hk⟩ := trimMove_eq s c
  rw [hk]
  exact sget_sset_ne _ _ _ _ _ _ h

theorem trimMove_same (s : State) (c : Nat) : sget 0 (trimMove s c).grid.trimF c
    = clampInt (sget 0 s.grid.trimF c - 1) (sget 0 s.grid.trimF c + 1) (s.trimFactory c).1 := by
  obtain ⟨k, hk⟩ := trimMove_eq s c
  rw [hk]
  exact sget_sset_same _ _ _ _

theorem trimMoves_other (s : State) (l : List Nat) (d : Nat) (h : d ∉ l) :
    sget 0 (s.each l trimMove).grid.trimF d = sget 0 s.grid.trimF d := by
  refine each_rel (fun s t => sget 0 t.grid.trimF d = sget 0 s.grid.trimF d) (fun _ => rfl) (fun h h' => h'.trans h) l trimMove ?_ s
  exact fun s c hc => trimMove_other s c d fun e => h (e ▸ hc)

/-- Over a list without repetition each trim moves once, toward the value found as its turn comes. -/
theorem trimMoves_same (s : State) (l : List Nat) (hl : l.Nodup) (d : Nat) (h : d ∈ l) :
    ∃ u, TrimsMoved s u ∧ sget 0 (s.each l trimMove).grid.trimF d
      = clampInt (sget 0 s.grid.trimF d - 1) (sget 0 s.grid.trimF d + 1) (u.trimFactory d).1 := by
  induction l generalizing s with
  | nil => exact absurd h List.not_mem_nil
  | cons c l ih =>
    obtain ⟨hc, hl⟩ := List.nodup_cons.1 hl
    rcases List.mem_cons.1 h with rfl | hd
    · exact ⟨s, ⟨s.free, s.grid.trimF, rfl⟩, (trimMoves_other _ l d hc).trans (trimMove_same s d)⟩
    · obtain ⟨u, hu, hval⟩ := ih (trimMove s c) hl hd
      rw [trimMove_other s c d fun e => hc (e ▸ hd)] at hval
      exact ⟨u, (trimMove_moved s c).trans hu, hval⟩

theorem clampInt_natAbs_le (a x : Int) : (clampInt (a - 1) (a + 1) x - a).natAbs ≤ 1 := by
  unfold clampInt
  split
  · omega
  · split <;> omega

theorem exec_tjMeasure (x : BitVec 16) (s : State) : exec (.tjMeasure x) s = act (fun s => s.tjMeasure x.toNat) s := rfl

/-- The moves of all trims, and what TJ_MEASURE leaves. -/
theorem tjMeasure_next {s : State} (hs : s.quiet = true) (x : BitVec 16) :
    exec (.tjMeasure x) s = .next (s.tjMeasure x.toNat) ∧ Calm [F.TICK.TJ.TEMP.addr] s (s.tjMeasure x.toNat) := by
  have hcalm : Calm [F.TICK.TJ.TEMP.addr] s (s.tjMeasure x.toNat) := by
    rw [tjMeasure_eq]
    obtain ⟨k, m, hm⟩ := trimMoves_moved (s.setFld F.TICK.TJ.TEMP x.toNat) (List.range 512)
    rw [hm]
    exact (Calm.setFld s F.TICK.TJ.TEMP x.toNat (by decide)).trans ⟨fun _ _ => rfl, rfl, rfl, rfl, rfl, rfl, rfl⟩
  exact ⟨(exec_tjMeasure x s).trans (hcalm.act hs rfl (by decide)), hcalm⟩

theorem tjMeasure_temp (s : State) (x : BitVec 16) : (s.tjMeasure x.toNat).fld F.TICK.TJ.TEMP = x.toNat := by
  obtain ⟨k, m, hm⟩ := trimMoves_moved (s.setFld F.TICK.TJ.TEMP x.toNat) (List.range 512)
  rw [tjMeasure_eq, hm]
  exact (fld_setFld_same s F.TICK.TJ.TEMP _ (by decide)).trans (Nat.mod_eq_of_lt x.isLt)

/-- Making the trims due leaves their factory parts. -/
theorem trimDue_trimF (s : State) : (s.modGrid fun g => { g with trimDue := true }).grid.trimF = s.grid.trimF := rfl

/-- Each trim of the hub has moved once by TJ_MEASURE. -/
theorem tjMeasure_trim (s : State) (x c : Nat) (hc : c < 512) :
    ∃ u, TrimsMoved (s.setFld F.TICK.TJ.TEMP x) u ∧ sget 0 (s.tjMeasure x).grid.trimF c
      = clampInt (sget 0 s.grid.trimF c - 1) (sget 0 s.grid.trimF c + 1) (u.trimFactory c).1 := by
  rw [tjMeasure_eq, trimDue_trimF]
  exact trimMoves_same (s.setFld F.TICK.TJ.TEMP x) (List.range 512) List.nodup_range c (List.mem_range.2 hc)

theorem tjMeasure_untracked (s : State) (x : Nat) (c : Fin 512) (h : s.bit F.TICK.TRIM_CTL.TEMP_TRACK = false) :
    sget 0 (s.tjMeasure x).grid.trimF c.val
      = clampInt (sget 0 s.grid.trimF c.val - 1) (sget 0 s.grid.trimF c.val + 1) (s.trimCodes c.val).2.1 := by
  obtain ⟨u, ⟨k, m, rfl⟩, hval⟩ := tjMeasure_trim s x c.val c.isLt
  rw [hval, trimFactory_untracked]
  · rfl
  · exact (bit_setFld_other s _ F.TICK.TJ.TEMP x (by decide)).trans h

/-! ## Wale alignment (R102, R365) -/

/-- The registers of the wale page that a phase pulse touches. -/
theorem phaseSeen_calm (s : State) : Calm [F.WALE.WALE_STS.WSYNC_OK.addr] s s.phaseSeen :=
  (Calm.setBit s F.WALE.WALE_STS.WSYNC_OK true (by decide)).trans (Calm.modWale _ _)

theorem phaseSeen_ok (s : State) : s.phaseSeen.bit F.WALE.WALE_STS.WSYNC_OK = true := bit_setBit_same s _ true (by decide) rfl

theorem exec_wsyncAlign (a : Int) (s : State) : exec (.wsyncAlign a) s = act (fun s => s.wsyncArrive a) s := rfl

/-- A pulse within 1 µs of the second on a hub of the bus is a phase pulse, and aligns a hub other than the timekeeper. -/
theorem wsyncArrive_near (s : State) (a : Int) (hon : s.waleOn = true) (ha : a.natAbs ≤ 64000) :
    s.wsyncArrive a = if s.timekeeper then s.phaseSeen else s.phaseSeen.wsyncAlign (a - s.lineDly 8) := by
  have htk : s.phaseSeen.timekeeper = s.timekeeper := bit_setBit_other s F.WALE.WALE_STS.TK_ACTIVE F.WALE.WALE_STS.WSYNC_OK true (by decide)
  have hdly : s.phaseSeen.lineDly 8 = s.lineDly 8 := by
    have hf : ∀ f : Fld, f.addr ≠ F.WALE.WALE_STS.WSYNC_OK.addr → s.phaseSeen.fld f = s.fld f :=
      fun f hf => (phaseSeen_calm s).fld f (by simpa using hf)
    rw [State.lineDly, State.lineDly, htk, hf _ (by decide), hf _ (by decide)]
  rw [State.wsyncArrive, if_neg (by simp [hon]; omega)]
  simp only [htk, hdly]

theorem wsyncAlign_off (s : State) (d : Int) (h : s.bit F.TICK.TICK_CTL.ALIGN_WALE = false) : s.wsyncAlign d = s := if_pos h

theorem wsyncAlign_near (s : State) (d : Int) (h : s.bit F.TICK.TICK_CTL.ALIGN_WALE = true) (hd : d.natAbs ≤ 1024) :
    s.wsyncAlign d = s.modGrid fun g => { g with waleFails := 0, waleTarget := d } := by
  rw [State.wsyncAlign, if_neg (by simp [h]), if_neg (by omega)]

/-- A second that fails the alignment (R102). -/
def alignFailed (s : State) : State :=
  (s.modGrid fun g => { g with waleFails := s.grid.waleFails + 1, waleTarget := if 3 ≤ s.grid.waleFails + 1 then 0 else s.sfld F.TICK.WALE_CORR.CORR }).raiseInt
    Irq.alignFail

theorem wsyncAlign_far (s : State) (d : Int) (h : s.bit F.TICK.TICK_CTL.ALIGN_WALE = true) (hd : 1024 < d.natAbs) :
    s.wsyncAlign d = alignFailed s := by
  rw [State.wsyncAlign, if_neg (by simp [h]), if_pos hd]
  rfl

section
variable {s : State} (hs : s.quiet = true) {a : Int} (hon : s.waleOn = true) (ha : a.natAbs ≤ 64000)
include hs hon ha

theorem wsyncAlign_targets (htk : s.timekeeper = false) (hal : s.bit F.TICK.TICK_CTL.ALIGN_WALE = true) (hd : (a - s.lineDly 8).natAbs ≤ 1024) :
    exec (.wsyncAlign a) s = .next (s.phaseSeen.modGrid fun g => { g with waleFails := 0, waleTarget := a - s.lineDly 8 }) := by
  have hf : s.wsyncArrive a = s.phaseSeen.modGrid fun g => { g with waleFails := 0, waleTarget := a - s.lineDly 8 } := by
    rw [wsyncArrive_near s a hon ha, htk, if_neg Bool.false_ne_true, wsyncAlign_near _ _ ?_ hd]
    exact ((phaseSeen_calm s).bit _ (by decide)).trans hal
  exact (exec_wsyncAlign a s).trans (((phaseSeen_calm s).trans (Calm.modGrid _ _)).act hs hf (by decide))

theorem wsyncAlign_fails (hb : s.bit (F.HDR.INT_ROUTE.INBAND pgTICK) = false) (htk : s.timekeeper = false)
    (hal : s.bit F.TICK.TICK_CTL.ALIGN_WALE = true) (hd : 1024 < (a - s.lineDly 8).natAbs) :
    exec (.wsyncAlign a) s = .next (alignFailed s.phaseSeen)
      ∧ Calm [0x1000 * pgTICK + 0x010, F.WALE.WALE_STS.WSYNC_OK.addr] s (alignFailed s.phaseSeen) := by
  have hseen : Calm [0x1000 * pgTICK + 0x010, F.WALE.WALE_STS.WSYNC_OK.addr] s s.phaseSeen :=
    (Calm.setBit s F.WALE.WALE_STS.WSYNC_OK true (by decide)).trans (Calm.modWale _ _)
  have hcalm : Calm [0x1000 * pgTICK + 0x010, F.WALE.WALE_STS.WSYNC_OK.addr] s (alignFailed s.phaseSeen) :=
    (hseen.trans (Calm.modGrid _ _)).trans (Calm.raiseInt _ Irq.alignFail ((hseen.bit _ (by decide)).trans hb) (by decide))
  have hf : s.wsyncArrive a = alignFailed s.phaseSeen := by
    rw [wsyncArrive_near s a hon ha, htk, if_neg Bool.false_ne_true, wsyncAlign_far _ _ ?_ hd]
    exact ((phaseSeen_calm s).bit _ (by decide)).trans hal
  exact ⟨(exec_wsyncAlign a s).trans (hcalm.act hs hf (by decide)), hcalm⟩

theorem wsyncAlign_seen (h : s.timekeeper = true ∨ s.bit F.TICK.TICK_CTL.ALIGN_WALE = false) :
    exec (.wsyncAlign a) s = .next s.phaseSeen := by
  have hf : s.wsyncArrive a = s.phaseSeen := by
    rw [wsyncArrive_near s a hon ha]
    rcases h with h | h
    · exact if_pos h
    · rw [wsyncAlign_off _ _ (((phaseSeen_calm s).bit _ (by decide)).trans h), ite_self]
  exact (exec_wsyncAlign a s).trans ((phaseSeen_calm s).act hs hf (by decide))
end

/-- Settles O16: TJ_MEASURE moves every trim once, and an arrival of WSYNC is near, far or no phase pulse. -/
theorem trimsAndWaleAlignment : Obligations.TrimsAndWaleAlignment := by
  unfold Obligations.TrimsAndWaleAlignment
  intro s hs hb
  refine ⟨fun x => ?_, fun x c hT => ⟨_, (tjMeasure_next hs x).1, tjMeasure_untracked s x.toNat c hT⟩, ?_, ?_, ?_, ?_⟩
  · obtain ⟨hnext, hcalm⟩ := tjMeasure_next hs x
    refine ⟨_, hnext, tjMeasure_temp s x, rfl, ?_, hcalm.regs⟩
    rw [List.all_eq_true]
    intro c hc
    obtain ⟨u, -, hval⟩ := tjMeasure_trim s x.toNat c (List.mem_range.1 hc)
    rw [decide_eq_true_eq, hval]
    exact clampInt_natAbs_le _ _
  · intro a hon htk ha hal hd
    exact ⟨_, wsyncAlign_targets hs hon ha htk hal hd, rfl, rfl, phaseSeen_ok s, rfl, (phaseSeen_calm s).regs⟩
  · intro a hon htk ha hal hd
    obtain ⟨hnext, hcalm⟩ := wsyncAlign_fails hs hon ha hb htk hal hd
    have hgrid : (alignFailed s.phaseSeen).grid = { s.grid with
        waleFails := s.grid.waleFails + 1
        waleTarget := if 3 ≤ s.grid.waleFails + 1 then 0 else s.phaseSeen.sfld F.TICK.WALE_CORR.CORR } := raiseInt_grid _ _
    have hcorr : s.phaseSeen.sfld F.TICK.WALE_CORR.CORR = s.sfld F.TICK.WALE_CORR.CORR := (phaseSeen_calm s).sfld _ (by decide)
    refine ⟨_, hnext, by rw [hgrid], ?_, raiseInt_irq _ Irq.alignFail (by decide), hcalm.regs⟩
    rw [hgrid, hcorr]
    exact if_congr (by omega) rfl rfl
  · intro a hon ha h
    exact ⟨_, wsyncAlign_seen hs hon ha h, rfl, phaseSeen_ok s, rfl, (phaseSeen_calm s).regs⟩
  · intro a h
    exact (exec_wsyncAlign a s).trans (act_idle hs (if_pos h))

end Sys2Proof.TickProofs

namespace Sys2Proof.TickProofs

open Sys2Proof Sys2Proof.Machine Sys2Proof.Laws Sys2Proof.ScopeProofs Sys2Proof.TimeProofs

/-! ## The grid instant that the seconds count cannot show (R49, R89) -/

/-- What the issue of tick `t` begins with. -/
def tickMarked (s : State) (t : Tick) : State :=
  let s := ((s.tickWake.tickCount t).tickCommits t.idx).tickSteps
  let s := (s.takeoverTick).mirrorSilent t.idx
  s.when s.leads fun s => s.mirrorTick t.idx

/-- The issue of a tick, once the strobe's place is known. (The definition is unfolded alone: beside its own name the kernel would evaluate
`strobeFine` of an unknown state.) -/
theorem issueTick_of_strobe {s s' : State} {n fine : Nat} (bad : BitVec 32) (h : s.strobeFine (s.gridTu n) = (fine, s')) {t : Tick}
    (ht : t = ⟨idxOf s'.tickPeriod n, n % 2 ^ 64, s'.gridTu n, bad, fine⟩) :
    s.issueTick n bad = ((tickMarked s' t).strobeEcho bad).each (List.range 32) fun s g => s.passBegin t g := by
  obtain ⟨issue, hissue⟩ : ∃ f, f = State.issueTick := ⟨_, rfl⟩
  rw [← hissue]
  delta State.issueTick at hissue
  rw [hissue]
  beta_reduce
  rw [h, ht]
  rfl

/-- The grid runs, its trims are in place, hub time reads the last even nanosecond before 2^48 s, and the next grid instant is that of
boundary 2^48. -/
def lastTick : State :=
  ({ time := { sec := 2 ^ 48 - 1, ns := 999999998 }, grid := { cur := 2 ^ 48 * 125000, trimDue := false } } : State).setFld
    F.TICK.TICK_STS.STATE gridRun

theorem lastTick_quiet : lastTick.quiet = true := by decide +kernel

/-- The instant is reached as hub time wraps to 0. -/
def wrapped : State := (lastTick.reachTu (lastTick.gridTu lastTick.grid.cur)).modGrid fun g => { g with cur := lastTick.grid.cur + 1 }

/-- The tick of that instant; its strobe is as late as the delay line can make it. -/
def wrappedTick : Tick := ⟨0, 2 ^ 48 * 125000 % 2 ^ 64, 2 ^ 48 * 64000000000, 0, 127⟩

theorem wrapped_fine : wrapped.strobeFine (wrapped.gridTu (2 ^ 48 * 125000)) = (127, wrapped) := by decide +kernel
theorem wrapped_tickWake : wrapped.tickWake = wrapped := by decide +kernel

/-- The tick counts as the last one. -/
def wrappedTicked : State := wrapped.tickCount wrappedTick

/-- What a tick moves by one step stands still. -/
theorem wrappedTicked_tickSteps : wrappedTicked.tickSteps = wrappedTicked := by decide +kernel
theorem wrappedTicked_tickCommits : wrappedTicked.tickCommits 0 = wrappedTicked := by decide +kernel
theorem wrappedTicked_takeover : wrappedTicked.takeoverTick.mirrorSilent 0 = wrappedTicked := by decide +kernel

/-- The stream of the hub has begun its part of the tick. -/
def wrappedStream : State := wrappedTicked.modPair fun p => { p with streamIdx := some 0 }

theorem each_fixed {α : Type} (s : State) (l : List α) (f : State → α → State) (h : ∀ a ∈ l, f s a = s) : s.each l f = s := by
  induction l with
  | nil => rfl
  | cons a l ih =>
    show (f s a).each l f = s
    rw [h a List.mem_cons_self]
    exact ih fun b hb => h b (List.mem_cons_of_mem a hb)

/-- No dump of RAIN is due or waits. -/
theorem wrappedStream_dumpTick : ∀ c < 512, wrappedStream.dumpTick 0 c = wrappedStream := by decide +kernel

/-- No history begins and no trigger waits. -/
theorem wrappedStream_trigTick : ∀ x < 256, (wrappedStream.cxFillTick x 0).trigTick x = wrappedStream := by decide +kernel

theorem wrappedStream_tickStream : wrappedStream.tickStream 0 = wrappedStream := by
  have hdump := each_fixed wrappedStream (List.range 512) (fun s c => s.dumpTick 0 c) fun c hc =>
    wrappedStream_dumpTick c (List.mem_range.1 hc)
  have htrig := each_fixed wrappedStream (List.range 256) (fun s x => (s.cxFillTick x 0).trigTick x) fun x hx =>
    wrappedStream_trigTick x (List.mem_range.1 hx)
  rw [State.tickStream]
  simp only [hdump, htrig]

theorem wrappedTicked_mirrorTick : (wrappedTicked.when wrappedTicked.leads fun s => s.mirrorTick 0) = wrappedStream := by
  have hleads : wrappedTicked.leads = true := by decide +kernel
  have hnone : wrappedTicked.pair.streamIdx = none := by decide +kernel
  rw [hleads]
  show wrappedTicked.mirrorTick 0 = wrappedStream
  rw [State.mirrorTick, hnone]
  exact wrappedStream_tickStream

theorem wrappedStream_strobeEcho : wrappedStream.strobeEcho 0 = wrappedStream := by decide +kernel

/-- No group converts anything. -/
theorem wrappedStream_passBegin : ∀ g < 32, wrappedStream.passBegin wrappedTick g = wrappedStream := by decide +kernel

theorem wrapped_issueTick : wrapped.issueTick (2 ^ 48 * 125000) 0 = wrappedStream := by
  have hidx : idxOf wrapped.tickPeriod (2 ^ 48 * 125000) = 0 := by decide +kernel
  have htick : wrappedTick =
      ⟨idxOf wrapped.tickPeriod (2 ^ 48 * 125000), 2 ^ 48 * 125000 % 2 ^ 64, wrapped.gridTu (2 ^ 48 * 125000), 0, 127⟩ := by
    rw [hidx]
    decide +kernel
  have hmarked : tickMarked wrapped wrappedTick = wrappedStream := by
    show ((((wrappedTicked.tickCommits 0).tickSteps.takeoverTick).mirrorSilent 0).when
      (((wrappedTicked.tickCommits 0).tickSteps.takeoverTick).mirrorSilent 0).leads fun s => s.mirrorTick 0) = wrappedStream
    rw [wrappedTicked_tickCommits, wrappedTicked_tickSteps, wrappedTicked_takeover, wrappedTicked_mirrorTick]
  rw [issueTick_of_strobe 0 wrapped_fine htick, hmarked, wrappedStream_strobeEcho]
  exact each_fixed _ _ _ fun g hg => wrappedStream_passBegin g (List.mem_range.1 hg)

theorem lastTick_decides : (lastTick.gridSettle.when lastTick.gridSettle.boundaryFirst State.tickCommitApply) = lastTick := by decide +kernel

/-- At `lastTick` GRID_INSTANT issues the tick, and hub time has wrapped. -/
theorem lastTick_gridInstant : lastTick.gridInstant 0 = wrappedStream := by
  have hcur : lastTick.grid.cur = 2 ^ 48 * 125000 := rfl
  have hissue : (wrapped.gridSt = gridRun ∨ wrapped.gridSt = gridCatchup) ∧ wrapped.gridFree (2 ^ 48 * 125000) = true := by decide +kernel
  have hrun : wrapped.gridResume = wrapped := by decide +kernel
  rw [State.gridInstant]
  simp only [lastTick_decides]
  show wrapped.gridDecide lastTick.grid.cur 0 = wrappedStream
  rw [hcur, State.gridDecide, if_pos hissue, hrun, wrapped_issueTick]

/-- Refutes O14: at `lastTick` the coming grid instant is that of boundary 2^48, which the 48 bits of the seconds count do not hold (R49).
It is issued as hub time wraps to 0, where the statement has hub time at the instant. -/
theorem not_gridIsSwitchedAndTicksAreIssued : ¬ Obligations.GridIsSwitchedAndTicksAreIssued := by
  unfold Obligations.GridIsSwitchedAndTicksAreIssued
  intro h
  obtain ⟨-, -, -, hissued, -⟩ := h lastTick lastTick_quiet (by decide +kernel)
  obtain ⟨t, ht, -, -, -, -, -, hreached, -⟩ :=
    hissued 0 (by decide +kernel) (by decide +kernel) (by decide +kernel) (by decide +kernel)
  have hquiet : wrappedStream.quiet = true := by decide +kernel
  have hnext : t = wrappedStream := by
    rw [← lastTick_gridInstant]
    refine next_unique (f := fun s => s.gridInstant 0) lastTick_quiet ?_ ?_ ht
    · rw [lastTick_gridInstant, hquiet, lastTick_quiet]
    · rw [lastTick_gridInstant]
      rfl
  have hback : ¬ lastTick.gridTu lastTick.grid.cur * 2 ^ 25 < wrappedStream.finePos + lastTick.cycleStep := by decide +kernel
  exact hback (hnext ▸ hreached)

end Sys2Proof.TickProofs

namespace Sys2Proof.TickProofs

open Sys2Proof Sys2Proof.Machine Sys2Proof.Laws Sys2Proof.ScopeProofs Sys2Proof.TimeProofs

/-! ## What the queues and the in-band interrupts can change

Whether a fact about the state survives an operation is asked of the few ways in which the operation can write the state, and proved once
for every fact that survives those (`QueueKept`). -/

theorem when_of_true (s : State) (f : State → State) {b : Bool} (hb : b = true) : s.when b f = f s := if_pos hb
theorem when_of_false (s : State) (f : State → State) {b : Bool} (hb : b = false) : s.when b f = s :=
  if_neg (hb ▸ Bool.false_ne_true)

/-- An address of the rim page, of page RED or of a page of a queue. -/
abbrev queueAddr (a : Nat) : Prop := a / 0x1000 = pgRIM ∨ a / 0x1000 = pgRED ∨ 0x200 ≤ a / 0x1000

theorem queueAddr_add {a b : Nat} (h : 0x200000 ≤ a) : queueAddr (a + b) := by
  simp only [queueAddr]
  omega

theorem queueAddr_page {p o : Nat} (hp : p = pgRIM ∨ p = pgRED ∨ 0x200 ≤ p) (ho : o < 0x1000) : queueAddr (0x1000 * p + o) := by
  simp only [queueAddr] at hp ⊢
  omega

/-- A fact about the state that survives what the queues write: registers of their pages, their packets and memory, what the pair and the
contexts note of them, free values, and the rim but for a FATAL fault that waits. -/
structure QueueKept (P : State → Prop) : Prop where
  setReg : ∀ {t} (a v), queueAddr a → P t → P (t.setReg a v)
  store : ∀ {t} (queue qmem pair ctx free), P t → P { t with queue := queue, qmem := qmem, pair := pair, ctx := ctx, free := free }
  rim : ∀ {t} (r), r.fatalDue = t.rim.fatalDue → P t → P { t with rim := r }
  waiting : ∀ {t} (l), P t → P { t with arbTx := { t.arbTx with waiting := l } }

namespace QueueKept

/-- A fact that holds of both branches holds of the choice. -/
theorem ite {P : State → Prop} {c : Prop} [Decidable c] {s t : State} (hs : P s) (ht : P t) : P (if c then s else t) := by
  split
  · exact hs
  · exact ht

theorem when {P : State → Prop} {t : State} (h : P t) {b : Bool} {f : State → State} (hf : P t → P (f t)) : P (t.when b f) := ite (hf h) h

/-- Where the condition fails nothing is done. -/
theorem skip {P : State → Prop} {t : State} (h : P t) {b : Bool} {f : State → State} (hb : b = false) : P (t.when b f) := by
  rw [when_of_false t f hb]
  exact h

theorem each {P : State → Prop} {t : State} (h : P t) {α : Type} {l : List α} {f : State → α → State}
    (hf : ∀ t, ∀ a ∈ l, P t → P (f t a)) : P (t.each l f) := by
  induction l generalizing t with
  | nil => exact h
  | cons a l ih => exact ih (hf t a List.mem_cons_self h) fun t b hb => hf t b (List.mem_cons_of_mem a hb)

variable {P : State → Prop} (k : QueueKept P) {t : State} (h : P t)
include k h

theorem setFld {f : Fld} {x : Nat} (ha : queueAddr f.addr) : P (t.setFld f x) := k.setReg _ _ ha h
theorem setBit {f : Fld} {x : Bool} (ha : queueAddr f.addr) : P (t.setBit f x) := k.setReg _ _ ha h
theorem count {f : Fld} {n : Nat} (ha : queueAddr f.addr) : P (t.count f n) := k.setReg _ _ ha h
theorem setQ {q : Nat} {x : Queue} : P (t.setQ q x) := k.store _ t.qmem t.pair t.ctx t.free h
theorem modQ {q : Nat} {f : Queue → Queue} : P (t.modQ q f) := k.setQ h
theorem setQWord {a : Nat} {w : Word} : P (t.setQWord a w) := k.store t.queue _ t.pair t.ctx t.free h
theorem modPair {f : Pair → Pair} : P (t.modPair f) := k.store t.queue t.qmem _ t.ctx t.free h
theorem modCtx {x : Nat} {f : Ctx → Ctx} : P (t.modCtx x f) := k.store t.queue t.qmem t.pair _ t.free h
theorem drawFree : P t.drawFree.2 := k.store t.queue t.qmem t.pair t.ctx _ h

theorem dueBits {p : Nat} {v : Reg} : P (t.dueBits p v) := by
  unfold State.dueBits
  exact ite (k.rim _ rfl h) h

omit h in
theorem page {p : Nat} (hp : p = pgRIM ∨ p = pgRED ∨ 0x200 ≤ p) :
    ∀ {t : State} (o v), o < 0x1000 → P t → P (t.setReg (0x1000 * p + o) v) := fun _ _ ho h => k.setReg _ _ (queueAddr_page hp ho) h

/-- An interrupt of any page whose registers may be written. -/
theorem raiseIntAt {i : IntBit} (hreg : ∀ {t : State} (o v), o < 0x1000 → P t → P (t.setReg (0x1000 * i.page + o) v)) :
    P (t.raiseInt i) := k.dueBits (hreg _ _ (by decide) h)

theorem raiseInt {i : IntBit} (hp : i.page = pgRIM ∨ i.page = pgRED ∨ 0x200 ≤ i.page) : P (t.raiseInt i) := k.raiseIntAt h (k.page hp)

theorem rimTake {e : RimEntry} : P (t.rimTake e) := by
  unfold State.rimTake
  exact ite (k.count h (.inl rfl)) (k.rim _ rfl (k.setFld h (.inl rfl)))

/-! ### Packets and losses -/

theorem hwmMark {q : Nat} : P (t.hwmMark q) := each h fun _ _ _ h => when h fun h => k.modCtx h

theorem qWatch {q : Nat} : P (t.qWatch q) := by
  unfold State.qWatch
  exact when (when (when h fun h => k.hwmMark h) fun h => k.setFld h (queueAddr_add (by decide))) fun h =>
    k.raiseInt (k.setBit h (queueAddr_add (by decide))) (.inr (.inr (Nat.le_add_right _ _)))

theorem txAsk {i : Nat} : P (t.txAsk i) := by
  unfold State.txAsk
  exact ite h (k.waiting _ h)

theorem heldLost {q n : Nat} : P (t.heldLost q n) := by
  unfold State.heldLost
  exact when h fun h => k.modPair h

theorem qLose {q typ : Nat} : P (t.qLose q typ) := by
  unfold State.qLose
  exact when (when (k.count h (queueAddr_add (by decide))) fun h => k.raiseInt h (.inr (.inr (Nat.le_add_right _ _)))) fun h =>
    k.raiseInt (k.count h (.inr (.inl rfl))) (.inr (.inl rfl))

theorem qStore {q p : Nat} {l : List Word} : P (t.qStore q p l) := by
  induction l generalizing t p with
  | nil => exact h
  | cons w ws ih => exact ih (k.setQWord h)

theorem qPublish {q n : Nat} : P (t.qPublish q n) := by
  unfold State.qPublish
  exact when (k.qWatch (k.setQ h)) fun h => k.txAsk h

/-- The words written go to the partner's comparison on a hub that leads a pair or follows. -/
theorem noted {b : Bool} {f : Pair → Pair} : P (t.when b fun s => s.modPair f) := when h fun h => k.modPair h

theorem qPut {q typ : Nat} {l : List Word} {e : Option HubTime} {gap : Bool} : P (t.qPut q typ l e gap) := by
  unfold State.qPut
  have hput := k.count (f := F.Q.WR_PKT_CNT.CNT q) (n := 1) (k.setQ (q := q) (x := { t.getQ q with
    pkts := (t.getQ q).pkts ++ [⟨l.length, typ, 0, 0, e, gap⟩], held := (t.getQ q).held + 1 })
    (k.qStore (q := q) (p := (t.getQ q).wp + heldWords (t.getQ q)) (l := l) h)) (queueAddr_add (by decide))
  exact ite (k.noted hput) (k.qPublish (k.noted hput))

theorem gapAdd {q p n : Nat} : P (t.gapAdd q p n) := by
  unfold State.gapAdd
  exact ite h (k.setQWord h)

theorem qMarkLoss {q typ : Nat} {inPlace : Bool} : P (t.qMarkLoss q typ inPlace) := by
  unfold State.qMarkLoss
  exact ite (k.gapAdd (k.qLose h)) (k.qPut (k.qLose h))

theorem fate {q : Nat} {f : Fate} : P (t.fate q f) := by
  unfold State.fate
  exact k.noted h

theorem qRoom {q skip n : Nat} : P (t.qRoom q skip n) := by
  unfold State.qRoom
  refine each (k.noted (k.heldLost (k.setQ ?_))) fun _ _ _ h => k.qLose h
  exact when (when (k.qStore h) fun h => k.count h (queueAddr_add (by decide))) fun h => ite (k.setQWord h) (k.gapAdd h)

theorem qMakeRoom {q need : Nat} : ∀ u ∈ t.qMakeRoom q need, P u := by
  unfold State.qMakeRoom
  dsimp only
  generalize (if 0 < (t.getQ q).read then 1 else 0) = skip
  generalize (if ((t.getQ q).pkts.drop skip).isEmpty then 0 else 5) = gap
  intro u hu
  split at hu
  · exact Option.some.inj hu ▸ h
  · split at hu
    · exact absurd hu (Option.not_mem_none u)
    · exact Option.some.inj hu ▸ k.qRoom (k.fate h)

theorem qTake {q typ : Nat} {l : List Word} : P (t.qTake q typ l) := by
  unfold State.qTake
  exact k.qPut (k.fate h)

theorem qLost {q typ : Nat} {l : List Word} : P (t.qLost q typ l) := by
  unfold State.qLost
  exact k.qMarkLoss (k.fate h)

theorem qFullPolicy {q typ : Nat} {l : List Word} : P (t.qFullPolicy q typ l).2 := by
  unfold State.qFullPolicy
  split
  · have hroom := k.qMakeRoom (q := q) (need := l.length + 1) h
    split
    case h_1 s hm => exact k.qTake (hroom s hm)
    case h_2 => exact k.qLost h
  · exact k.qLost h

theorem flushOver {q : Nat} : P (t.flushOver q) := by
  unfold State.flushOver
  exact k.raiseInt (k.count (k.setBit h (queueAddr_add (by decide))) (queueAddr_add (by decide))) (.inr (.inr (Nat.le_add_right _ _)))

/-! ### A fault of a queue -/

section
variable {f : FltBit} (hreg : ∀ {t : State} (o v), o < 0x1000 → P t → P (t.setReg (0x1000 * f.page + o) v))
include hreg

theorem captureFault : P (t.captureFault f) := by
  unfold State.captureFault
  have hcls {x y : Nat} {t : State} (h : P t) :
      P ((t.setFld (F.HDR.FLT_FIRST.CLASS f.page) x).setFld (F.HDR.FLT_FIRST.SOURCE f.page) y) :=
    hreg 0x020 _ (by decide) (hreg 0x020 _ (by decide) h)
  exact ite (k.rim _ rfl (hreg 0x024 _ (by decide) (hcls (hreg 0x020 _ (by decide) h))))
    (ite (ite (hcls (hreg 0x020 _ (by decide) h)) (hreg 0x020 _ (by decide) h)) h)

/-- One occurrence of a fault that is not FATAL. -/
theorem raiseFault (hc : f.cls ≠ clsFatal) : P (t.raiseFault f) := by
  have hcls : decide (f.cls = clsFatal) = false := decide_eq_false hc
  unfold State.raiseFault State.raiseFaultInj
  refine skip (when (k.captureFault ?_ hreg) fun h => when (skip (k.raiseIntAt h hreg) hcls) fun h => k.rimTake h) hcls
  exact ite (hreg 0x028 _ (by decide) (hreg 0x01C _ (by decide) h))
    (ite (hreg 0x02C _ (by decide) (hreg 0x01C _ (by decide) h)) (hreg 0x01C _ (by decide) h))
end

theorem qReset {q : Nat} : P (t.qReset q) := by
  unfold State.qReset
  have hq : 0x200 ≤ pgQ q := Nat.le_add_right _ _
  refine k.raiseInt (k.raiseFault ?_ (k.page (.inr (.inr hq))) (by decide : clsCont ≠ clsFatal)) (.inr (.inr hq))
  refine when ?_ fun h => k.flushOver h
  exact k.setBit (k.count (k.qPut (k.heldLost (k.setQ (k.drawFree h)))) (queueAddr_add (by decide))) (queueAddr_add (by decide))

theorem qCheck {q : Nat} : P (t.qCheck q) := by
  unfold State.qCheck
  exact ite h (k.qReset h)

/-! ### Offers -/

theorem qPendPut {q : Nat} : P (t.qPendPut q) := by
  unfold State.qPendPut
  exact ite h (k.qPut (k.modQ h))

theorem qPendLost {q : Nat} {inPlace : Bool} : P (t.qPendLost q inPlace) := by
  unfold State.qPendLost
  exact k.qMarkLoss (k.modQ h)

theorem qWritePend {q : Nat} : P (t.qWritePend q) := by
  unfold State.qWritePend
  refine ite h (ite (k.qPendPut (k.fate h)) (ite ?_ h))
  have hroom := k.qMakeRoom (q := q) (need := (pendWords (t.getQ q).pend).length + 1) h
  split
  case h_1 s hm => exact k.qPendPut (k.fate (hroom s hm))
  case h_2 => exact k.qPendLost (k.fate h)

theorem qDiscard {q typ : Nat} : P (t.qDiscard q typ) := by
  unfold State.qDiscard
  exact k.modQ (k.qLose (k.count h (queueAddr_add (by decide))))

theorem qOffer {q typ : Nat} {l : List Word} : P (t.qOffer q typ l).2 := by
  unfold State.qOffer
  split
  · exact k.qDiscard (k.fate h)
  · dsimp only
    split
    · exact k.qTake (k.qWritePend h)
    · exact k.qFullPolicy (k.qWritePend h)

theorem offer {q typ : Nat} {l : List Word} : P (t.offer q typ l) := by
  unfold State.offer
  exact ite (k.modPair h) (ite (k.qOffer (k.qCheck h)) h)

/-! ### Interrupts in band -/

theorem writeIrqPacket {l : List Word} : P (t.writeIrqPacket l).2 := by
  unfold State.writeIrqPacket
  split
  · exact h
  · dsimp only
    exact when (k.qOffer (k.qCheck h)) fun h => k.count h (.inl rfl)

theorem setIrqHold {p : Nat} {v : Option (Nat × Nat)} : P (t.setIrqHold p v) := k.rim _ rfl h

theorem irqPacket {p n : Nat} : P (t.irqPacket p n) := by
  unfold State.irqPacket
  exact ite (k.setIrqHold (k.count (k.writeIrqPacket h) (.inl rfl))) (k.setIrqHold (k.writeIrqPacket h))

theorem irqDue {p : Nat} : P (t.irqDue p) := by
  unfold State.irqDue
  refine ite (k.modPair h) (ite h ?_)
  split
  · exact ite (k.setIrqHold h) (k.irqPacket h)
  · exact k.irqPacket h

theorem serveDue {n : Nat} : P (State.serveDue n t) := by
  induction n generalizing t with
  | zero => exact h
  | succ n ih =>
    unfold State.serveDue
    split
    · exact h
    · refine ih (each ?_ fun _ _ _ h => k.irqDue h)
      exact k.rim _ rfl h

end QueueKept
end Sys2Proof.TickProofs

namespace Sys2Proof.TickProofs

open Sys2Proof Sys2Proof.Machine Sys2Proof.Laws Sys2Proof.ScopeProofs Sys2Proof.TimeProofs

/-! ## A command that leaves in-band interrupts due -/

/-- Of what a command settles at its end, at most in-band interrupts wait. -/
def OnlyDue (u : State) : Prop :=
  u.net.local_ = none ∧ u.arbTx.owner = none ∧ u.rim.fatalDue = false ∧ u.fld F.NVM.BOOT_STS.STEP ≠ 9

theorem OnlyDue.of_quiet {s : State} (hs : s.quiet = true) : OnlyDue s := by
  obtain ⟨-, -, hlocal, howner, hfatal, -, hstep⟩ := (quiet_iff s).1 hs
  exact ⟨hlocal, howner, hfatal, hstep⟩

theorem OnlyDue.setReg {u : State} (h : OnlyDue u) {a : Nat} {v : Reg} (ha : a ≠ 0x005040) : OnlyDue (u.setReg a v) := by
  obtain ⟨hlocal, howner, hfatal, hstep⟩ := h
  refine ⟨hlocal, howner, hfatal, ?_⟩
  rw [State.fld, reg_setReg_ne u a _ v fun e => ha e.symm]
  exact hstep

theorem OnlyDue.kept : QueueKept OnlyDue where
  setReg _ _ ha h := h.setReg fun e => absurd (e ▸ ha) (by decide)
  store _ _ _ _ _ h := h
  rim _ hr h := by
    obtain ⟨hlocal, howner, hfatal, hstep⟩ := h
    exact ⟨hlocal, howner, hr.trans hfatal, hstep⟩
  waiting _ h := h

theorem settle_onlyDue {u : State} (h : OnlyDue u) : settle u = State.serveDue 1024 u := by
  obtain ⟨-, -, -, hstep⟩ := OnlyDue.kept.serveDue (n := 1024) h
  obtain ⟨hlocal, howner, hfatal, -⟩ := h
  have hframe : u.frameEnd = u := by rw [State.frameEnd, hlocal]
  have htx : u.txDrop = u := by rw [State.txDrop, hlocal, howner]
  have hboot : (State.serveDue 1024 u).bootLast = State.serveDue 1024 u := by rw [State.bootLast, if_neg fun h => hstep h.1]
  rw [settle, hframe, htx, hfatal]
  exact hboot

/-- Such a command has its own effect, and then serves the interrupts. -/
theorem act_onlyDue {f : State → State} {s u : State} (hs : s.quiet = true) (hf : f s = u) (h : OnlyDue u) :
    act f s = .next ((State.serveDue 1024 u).sealed s) := by
  rw [act, inReset_of_quiet s hs, if_neg Bool.false_ne_true, hf, settle_onlyDue h]

/-! ## A trigger pulse on the wale bus (R366, R368) -/

/-- The registers of the wale page are those of `w`, and at most in-band interrupts wait. -/
def WaleKept (w t : State) : Prop := OnlyDue t ∧ ∀ a, a / 0x1000 = pgWALE → t.reg a = w.reg a

namespace WaleKept

variable {w t : State}

theorem setReg (h : WaleKept w t) {a : Nat} {v : Reg} (ha : a / 0x1000 ≠ pgWALE) (ha' : a ≠ 0x005040) : WaleKept w (t.setReg a v) :=
  ⟨h.1.setReg ha', fun b hb => (reg_setReg_ne t a b v fun e => ha (e ▸ hb)).trans (h.2 b hb)⟩

theorem setFld (h : WaleKept w t) {f : Fld} {x : Nat} (ha : f.addr / 0x1000 ≠ pgWALE) (ha' : f.addr ≠ 0x005040) : WaleKept w (t.setFld f x) :=
  h.setReg ha ha'

theorem kept : QueueKept (WaleKept w) where
  setReg a v ha h := by
    have hne : a / 0x1000 ≠ pgWALE ∧ a ≠ 0x005040 := by
      simp only [queueAddr, pgRIM, pgRED, pgWALE] at ha ⊢
      omega
    exact h.setReg hne.1 hne.2
  store _ _ _ _ _ h := h
  rim r hr h := ⟨OnlyDue.kept.rim r hr h.1, h.2⟩
  waiting _ h := h

section
variable (h : WaleKept w t)
include h

theorem rimEvent {c d : Nat} : WaleKept w (t.rimEvent c d) := QueueKept.ite (kept.rimTake h) h

theorem raiseInt {i : IntBit} (hp : i.page = pgTICK) : WaleKept w (t.raiseInt i) :=
  kept.dueBits (h.setReg (by rw [hp]; decide) (by rw [hp]; decide))

theorem roundFree {n : Int} {d : Nat} : WaleKept w (t.roundFree n d).2 := by
  rw [roundFree_only]
  exact h

theorem deliver {x : Nat} {r : Trigger} : WaleKept w (t.deliver x r) := by
  unfold State.deliver
  refine QueueKept.ite (QueueKept.ite h h) (QueueKept.ite h (QueueKept.ite ?_ h))
  exact h.setFld (f := F.CTX.TRIG_IGNORED.CNT x) (by simp only [pgWALE]; omega) (by simp only []; omega)

theorem waleTriggers {n i : Nat} : WaleKept w (t.waleTriggers n i) := by
  unfold State.waleTriggers
  exact QueueKept.ite h (QueueKept.each h fun t x _ h => QueueKept.ite h.deliver h)

theorem modGrid {f : Grid → Grid} : WaleKept w (t.modGrid f) := h
theorem modPower {f : Power → Power} : WaleKept w (t.modPower f) := h

theorem gridSettle : WaleKept w t.gridSettle := by
  unfold State.gridSettle State.gridSkip
  refine QueueKept.ite (modGrid (QueueKept.when h.modGrid ?_)) h
  exact fun h => h.setFld (f := F.TICK.SKIP_CNT.CNT) (by decide) (by decide)

theorem wakeAs {cause i : Nat} : WaleKept w (t.wakeAs cause i) := by
  have hset := ((h.setFld (f := F.NVM.PWR_STS.STATE) (x := pwWaking) (by decide) (by decide)).setFld (f := F.NVM.PWR_STS.WAKE_CAUSE)
    (x := cause) (by decide) (by decide)).setFld (f := F.NVM.PWR_CTL.WAKE_AT_EN) (x := b2n false) (by decide) (by decide)
  unfold State.wakeAs
  dsimp only
  generalize hr : State.roundFree _ _ _ = r
  have hround : WaleKept w r.2 := hr ▸ hset.roundFree
  obtain ⟨sec, u⟩ := r
  refine QueueKept.when (setFld (f := F.TICK.TICK_STS.STATE) ?_ (by decide) (by decide)) fun h => h.raiseInt rfl
  refine modGrid (gridSettle (rimEvent (modPower ?_)))
  exact hround.setFld (f := F.NVM.SLEEP_TIME.SEC) (by decide) (by decide)

theorem wakeBy {cause : Nat} : WaleKept w (t.wakeBy cause) := by
  unfold State.wakeBy
  refine QueueKept.ite (wakeAs ?_) h
  rw [sendDecision_only]
  exact h
end
end WaleKept

/-- The pulse is counted for its line and noted. -/
def pulseNoted (s : State) (n : Nat) (st : Stamp) : State :=
  (((s.count (F.WALE.RX_CNT.CNT n)).setFld F.WALE.LAST_RX.NS32 (ns32Of (stampNs st))).setFld F.WALE.LAST_RX_INFO.LINE n).setFld
    F.WALE.LAST_RX_INFO.FRAC st.frac

theorem pulseNoted_calm (s : State) (n : Nat) (st : Stamp) :
    Calm [(F.WALE.RX_CNT.CNT n).addr, F.WALE.LAST_RX.NS32.addr, F.WALE.LAST_RX_INFO.LINE.addr] s (pulseNoted s n st) :=
  (((Calm.count s _ 1 (by simp)).trans (Calm.setFld _ _ _ (by simp))).trans (Calm.setFld _ _ _ (by simp))).trans
    (Calm.setFld _ _ _ (by simp))

/-- What the wale page tells of the pulse. -/
structure PulseTold (s : State) (n : Nat) (st : Stamp) (t : State) : Prop where
  cnt : t.fld (F.WALE.RX_CNT.CNT n) = min (2 ^ (F.WALE.RX_CNT.CNT n).width - 1) (s.fld (F.WALE.RX_CNT.CNT n) + 1)
  ns32 : t.fld F.WALE.LAST_RX.NS32 = ns32Of (stampNs st)
  line : t.fld F.WALE.LAST_RX_INFO.LINE = n
  frac : t.fld F.WALE.LAST_RX_INFO.FRAC = st.frac

theorem pulseNoted_told (s : State) {n : Nat} {st : Stamp} (hn : n < 8) (hfrac : st.frac < 16) : PulseTold s n st (pulseNoted s n st) := by
  have hother (f : Fld) (x : Nat) (u : State) (hf : 0x0110A8 ≤ f.addr) : (u.setFld f x).fld (F.WALE.RX_CNT.CNT n) = u.fld (F.WALE.RX_CNT.CNT n) :=
    fld_setFld_addr u _ f x (by simp only []; omega)
  refine ⟨?_, ?_, ?_, ?_⟩
  · rw [pulseNoted, hother _ _ _ (by decide), hother _ _ _ (by decide), hother _ _ _ (by decide), 
      fld_count_same s (F.WALE.RX_CNT.CNT n) 1 (Nat.le_refl 32)]
  · rw [pulseNoted, fld_setFld_addr _ _ _ _ (by decide), fld_setFld_addr _ _ _ _ (by decide), fld_setFld_same _ _ _ (by decide)]
    exact Nat.mod_eq_of_lt (Nat.mod_lt _ (by decide))
  · rw [pulseNoted, fld_setFld_other _ _ _ _ (by decide), fld_setFld_same _ _ _ (by decide)]
    exact Nat.mod_eq_of_lt hn
  · rw [pulseNoted, fld_setFld_same _ _ _ (by decide)]
    exact Nat.mod_eq_of_lt hfrac

theorem PulseTold.of_page {s : State} {n : Nat} {st : Stamp} {w t : State} (h : PulseTold s n st w) (hn : n < 8)
    (hpage : ∀ a, a / 0x1000 = pgWALE → t.reg a = w.reg a) : PulseTold s n st t := by
  have hfld (f : Fld) (hf : f.addr / 0x1000 = pgWALE) : t.fld f = w.fld f := congrArg (fun r => getBits r _ _) (hpage _ hf)
  have hcnt : (F.WALE.RX_CNT.CNT n).addr / 0x1000 = pgWALE := by
    simp only [pgWALE]
    omega
  exact ⟨(hfld _ hcnt).trans h.cnt, (hfld _ (by decide)).trans h.ns32, (hfld _ (by decide)).trans h.line, (hfld _ (by decide)).trans h.frac⟩

theorem pulseTime_snd (s : State) (n : Nat) (st : Stamp) : (s.pulseTime n st).2 = (s.roundFree (8 * (stampUnits st : Int) - s.lineDly n) 8).2 := rfl

/-- The instant of the pulse is found, with a free choice where it is not a whole unit. -/
def pulseSeen (s : State) (n : Nat) (st : Stamp) : State := ((pulseNoted s n st).pulseTime n st).2

theorem pulseSeen_free (s : State) (n : Nat) (st : Stamp) : ∃ k, pulseSeen s n st = { pulseNoted s n st with free := k } := by
  rw [pulseSeen, pulseTime_snd]
  exact ⟨_, roundFree_only _ _ _⟩

theorem pulseSeen_calm (s : State) (n : Nat) (st : Stamp) :
    Calm [(F.WALE.RX_CNT.CNT n).addr, F.WALE.LAST_RX.NS32.addr, F.WALE.LAST_RX_INFO.LINE.addr] s (pulseSeen s n st) := by
  obtain ⟨k, hk⟩ := pulseSeen_free s n st
  rw [hk]
  exact (pulseNoted_calm s n st).trans (Calm.withFree _ k)

theorem pulseSeen_told (s : State) {n : Nat} {st : Stamp} (hn : n < 8) (hfrac : st.frac < 16) : PulseTold s n st (pulseSeen s n st) := by
  obtain ⟨k, hk⟩ := pulseSeen_free s n st
  rw [hk]
  exact (pulseNoted_told s hn hfrac).of_page hn fun a _ => (Calm.withFree (l := []) (pulseNoted s n st) k).regs a List.not_mem_nil

theorem pulseSeen_wale (s : State) (n : Nat) (st : Stamp) : (pulseSeen s n st).wale = s.wale := by
  obtain ⟨k, hk⟩ := pulseSeen_free s n st
  rw [hk]
  rfl

theorem triggerPulse_of_time (s : State) {n : Nat} {st : Stamp} {r : Nat × State} (hr : (pulseNoted s n st).pulseTime n st = r) :
    s.triggerPulse n st = (r.2.waleTriggers n r.1).when (((r.2.waleTriggers n r.1).fld F.NVM.PWR_CTL.WAKE_WALE).testBit n) fun s =>
      s.wakeBy wkWale := by
  unfold State.triggerPulse
  dsimp only
  rw [← pulseNoted, hr]

/-- The pulse reaches the engine, and may wake the hub. -/
theorem triggerPulse_eq (s : State) (n : Nat) (st : Stamp) : ∃ i, s.triggerPulse n st = ((pulseSeen s n st).waleTriggers n i).when
    ((((pulseSeen s n st).waleTriggers n i).fld F.NVM.PWR_CTL.WAKE_WALE).testBit n) fun s => s.wakeBy wkWale :=
  ⟨_, triggerPulse_of_time s rfl⟩

/-- Contexts in IDLE do not see the pulse (R267). -/
theorem waleTriggers_idle {s : State} (n i : Nat) (hf : s.follows = false) (hidle : ∀ x < 256, s.cxSt x = cxIdle) : s.waleTriggers n i = s := by
  unfold State.waleTriggers
  split
  · rfl
  · refine each_fixed s _ _ fun x hx => ?_
    have hdeliver (r : Trigger) : s.deliver x r = s := by
      rw [State.deliver, if_neg (by simp [hf]), if_pos (.inl (hidle x (List.mem_range.1 hx)))]
    split
    · exact hdeliver _
    · rfl

theorem exec_walePulseRx (n : Fin 9) (st : Stamp) (c : WaleClass) (s : State) :
    exec (.walePulseRx n st c) s = act (fun s => s.pulseRx n.val st c) s := rfl

section
variable {s : State} (hs : s.quiet = true)
include hs

/-- On a SOLO hub that is not woken by the line and whose contexts are all in IDLE the pulse is noted and nothing else. -/
theorem shortPulse_idle {n : Nat} {st : Stamp} (hon : s.waleOn = true) (hn : n < 8) (hwake : (s.fld F.NVM.PWR_CTL.WAKE_WALE).testBit n = false)
    (hrole : s.role = roleSolo) (hidle : ∀ x < 256, s.cxSt x = cxIdle) (hown : s.ownEdge n st = false) :
    act (fun s => s.pulseRx n st .short) s = .next (pulseSeen s n st) := by
  have hcalm := pulseSeen_calm s n st
  have hfld (f : Fld) (hf : f.addr < 0x011080 ∨ 0x0110B0 ≤ f.addr) : (pulseSeen s n st).fld f = s.fld f :=
    hcalm.fld f (by simp; omega)
  have hfollows : (pulseSeen s n st).follows = false := by
    rw [State.follows, State.role, hfld _ (by decide)]
    rw [State.role] at hrole
    simp [hrole]
  have hcx : ∀ x < 256, (pulseSeen s n st).cxSt x = cxIdle := fun x hx =>
    (hfld (F.CTX.CTX_STS.STATE x) (.inr (by simp only []; omega))).trans (hidle x hx)
  have hrx : s.pulseRx n st .short = pulseSeen s n st := by
    rw [State.pulseRx, if_neg (by simp [hon])]
    obtain ⟨i, hi⟩ := triggerPulse_eq s n st
    rw [if_pos ⟨hn, hown⟩, hi, waleTriggers_idle _ _ hfollows hcx]
    exact when_of_false _ _ ((congrArg (fun x => Nat.testBit x n) (hfld _ (by decide))).trans hwake)
  exact hcalm.act hs hrx (by simp; omega)

/-- Any short pulse of another hub. -/
theorem shortPulse_told {n : Nat} {st : Stamp} (hon : s.waleOn = true) (hn : n < 8) (hown : s.ownEdge n st = false) (hfrac : st.frac < 16) :
    ∃ t, act (fun s => s.pulseRx n st .short) s = .next t ∧ PulseTold s n st t := by
  have hrx : s.pulseRx n st .short = s.triggerPulse n st := by
    rw [State.pulseRx, if_neg (by simp [hon])]
    exact if_pos ⟨hn, hown⟩
  have hseen : WaleKept (pulseSeen s n st) (pulseSeen s n st) := by
    refine ⟨OnlyDue.of_quiet (((pulseSeen_calm s n st).quiet ?_).trans hs), fun _ _ => rfl⟩
    simp
    omega
  have hkept : WaleKept (pulseSeen s n st) (s.triggerPulse n st) := by
    obtain ⟨i, hi⟩ := triggerPulse_eq s n st
    rw [hi]
    exact QueueKept.when hseen.waleTriggers fun h => h.wakeBy
  refine ⟨_, act_onlyDue hs hrx hkept.1, ?_⟩
  exact (pulseSeen_told s hn hfrac).of_page hn (WaleKept.kept.serveDue hkept).2

/-- A pulse on WSYNC near a second boundary (R365). -/
theorem widePulse_seen {st : Stamp} (hon : s.waleOn = true) (hnear : nearSecond st = true) :
    act (fun s => s.pulseRx 8 st .wide) s = .next s.phaseSeen := by
  have hrx : s.pulseRx 8 st .wide = s.phaseSeen := by
    rw [State.pulseRx, if_neg (by simp [hon])]
    exact if_pos ⟨rfl, hnear⟩
  exact (phaseSeen_calm s).act hs hrx (by decide)

/-- Edges that go no further. -/
theorem pulseRx_idle {n : Nat} {st : Stamp} {c : WaleClass} (h : s.waleOn = false ∨ c = .short ∧ (n = 8 ∨ s.ownEdge n st = true) ∨
    c = .wide ∧ (n < 8 ∨ nearSecond st = false)) : act (fun s => s.pulseRx n st c) s = .next s := by
  refine act_idle hs ?_
  by_cases hon : s.waleOn = false
  · exact if_pos hon
  refine (if_neg hon).trans ?_
  rcases h.resolve_left hon with ⟨rfl, hline⟩ | ⟨rfl, hline⟩
  · refine if_neg fun ⟨hn, hown⟩ => ?_
    rcases hline with rfl | hline
    · exact absurd hn (by decide)
    · exact Bool.false_ne_true (hown.symm.trans hline)
  · refine if_neg fun ⟨hn, hnear⟩ => ?_
    rcases hline with hline | hline
    · exact absurd (hn ▸ hline) (by decide)
    · exact Bool.false_ne_true (hline.symm.trans hnear)

/-- A drive that the own receiver misses (R366). -/
theorem unseen_driveCheck (hb : s.bit (F.HDR.INT_ROUTE.INBAND pgWALE) = false) {n : Nat} {st : Stamp} (hon : s.waleOn = true)
    (hdrive : s.wale.driving.any (fun e => decide (e.1 = n)) = true) :
    act (fun s => s.pulseRx n st .unseen) s = .next (s.raiseFault Flt.driveCheck) := by
  have hrx : s.pulseRx n st .unseen = s.raiseFault Flt.driveCheck := by
    rw [State.pulseRx, if_neg (by simp [hon])]
    exact if_pos hdrive
  exact (Calm.of_mild (raiseFault_mild s Flt.driveCheck (by decide) hb)).act hs hrx (by decide)

theorem unseen_idle {n : Nat} {st : Stamp} (hdrive : s.wale.driving.any (fun e => decide (e.1 = n)) = false) :
    act (fun s => s.pulseRx n st .unseen) s = .next s := by
  refine act_idle hs ?_
  rw [State.pulseRx]
  split
  · rfl
  · exact if_neg (by simp [hdrive])

end

/-! ## The clock and the phase pulse of the bus (R363 to R365, R368) -/

/-- The gap in WCLK is noted. -/
def clockLost (s : State) : State := (s.setBit F.WALE.WALE_STS.WCLK_OK false).raiseInt Irq.wclkLost

/-- A backup takes the bus over (R364). -/
def clockTaken (s : State) : State := (((clockLost s).setBit F.WALE.WALE_STS.TK_ACTIVE true).raiseInt Irq.tkTaken).waleZero

section
variable {s : State} (hb : s.bit (F.HDR.INT_ROUTE.INBAND pgWALE) = false)
include hb

theorem clockLost_calm : Calm [F.WALE.WALE_STS.WCLK_OK.addr, 0x1000 * pgWALE + 0x010] s (clockLost s) :=
  (Calm.setBit s F.WALE.WALE_STS.WCLK_OK false (by decide)).trans
    (Calm.raiseInt _ Irq.wclkLost ((bit_setBit_other s _ _ false (by decide)).trans hb) (by decide))

theorem clockTaken_calm : Calm [F.WALE.WALE_STS.WCLK_OK.addr, 0x1000 * pgWALE + 0x010, F.TICK.WALE_CORR.CORR.addr] s (clockTaken s) := by
  have hlost : Calm [F.WALE.WALE_STS.WCLK_OK.addr, 0x1000 * pgWALE + 0x010, F.TICK.WALE_CORR.CORR.addr] s (clockLost s) :=
    (clockLost_calm hb).mono (by simp)
  have htaken := hlost.trans (Calm.setBit _ F.WALE.WALE_STS.TK_ACTIVE true (by decide))
  exact ((htaken.trans (Calm.raiseInt _ Irq.tkTaken ((htaken.bit _ (by decide)).trans hb) (by decide))).trans
    (Calm.setFld _ F.TICK.WALE_CORR.CORR 0 (by decide))).trans (Calm.modGrid _ fun g => { g with waleTarget := 0, waleFails := 0 })
end

/-- WALE_STS but for WCLK_OK is as it was. -/
theorem clockLost_bit (s : State) (f : Fld) (hf : f.addr ≠ 0x011010)
    (h : f.addr ≠ 0x011044 ∨ f.lo + f.width ≤ 2 ∨ 2 + 1 ≤ f.lo) : (clockLost s).bit f = s.bit f :=
  (raiseInt_bit _ Irq.wclkLost f hf).trans (bit_setBit_other s f F.WALE.WALE_STS.WCLK_OK false h)

theorem clockLost_ok (s : State) : (clockLost s).bit F.WALE.WALE_STS.WCLK_OK = false :=
  (raiseInt_bit _ Irq.wclkLost _ (by decide)).trans (bit_setBit_same s _ false (by decide) rfl)

theorem clockLost_irq (s : State) : ((clockLost s).reg (0x1000 * pgWALE + 0x010)).getLsbD Irq.wclkLost.bit = true :=
  raiseInt_irq _ Irq.wclkLost (by decide)

theorem clockLost_timekeeper (s : State) : (clockLost s).timekeeper = s.timekeeper :=
  clockLost_bit s F.WALE.WALE_STS.TK_ACTIVE (by decide) (by decide)

theorem clockLost_servo (s : State) : (clockLost s).servo = s.servo := by rw [clockLost, raiseInt_only]; rfl

theorem clockTaken_bit (s : State) (f : Fld) (hf : f.addr ≠ 0x011010 ∧ f.addr ≠ 0x003064)
    (h : f.addr ≠ 0x011044 ∨ f.lo + f.width ≤ 4 ∨ 4 + 1 ≤ f.lo) : (clockTaken s).bit f = (clockLost s).bit f :=
  (bit_setFld_other _ f F.TICK.WALE_CORR.CORR 0 (.inl hf.2)).trans
    ((raiseInt_bit _ Irq.tkTaken f hf.1).trans (bit_setBit_other _ f F.WALE.WALE_STS.TK_ACTIVE true h))

theorem clockTaken_timekeeper (s : State) : (clockTaken s).timekeeper = true :=
  (bit_setFld_other _ F.WALE.WALE_STS.TK_ACTIVE F.TICK.WALE_CORR.CORR 0 (by decide)).trans
    ((raiseInt_bit _ Irq.tkTaken _ (by decide)).trans (bit_setBit_same _ _ true (by decide) rfl))

theorem clockTaken_lost (s : State) : ((clockTaken s).reg (0x1000 * pgWALE + 0x010)).getLsbD Irq.wclkLost.bit = true := by
  rw [clockTaken, State.waleZero]
  refine (congrArg (fun r => BitVec.getLsbD r _) (reg_setFld_ne _ F.TICK.WALE_CORR.CORR _ 0 (by decide))).trans ?_
  refine raiseInt_keeps_irq _ Irq.tkTaken _ _ ?_
  rw [reg_setBit_ne _ _ _ _ (by decide)]
  exact raiseInt_irq _ Irq.wclkLost (by decide)

theorem clockTaken_taken (s : State) : ((clockTaken s).reg (0x1000 * pgWALE + 0x010)).getLsbD Irq.tkTaken.bit = true := by
  rw [clockTaken, State.waleZero]
  refine (congrArg (fun r => BitVec.getLsbD r _) (reg_setFld_ne _ F.TICK.WALE_CORR.CORR _ 0 (by decide))).trans ?_
  exact raiseInt_irq _ Irq.tkTaken (by decide)

theorem clockTaken_corr (s : State) : (clockTaken s).sfld F.TICK.WALE_CORR.CORR = 0 := by
  have hfld : (clockTaken s).fld F.TICK.WALE_CORR.CORR = 0 := fld_setFld_same _ F.TICK.WALE_CORR.CORR 0 (by decide)
  rw [State.sfld, hfld]
  rfl

theorem clockTaken_servo (s : State) : (clockTaken s).servo = s.servo := by
  rw [← clockLost_servo s, clockTaken, raiseInt_only]
  rfl

/-- What a gap in WCLK does to the bus, whatever it does to the servo (R364). -/
theorem wclkStop_eq (s : State) (long : Bool) (hon : s.waleOn = true) : s.wclkStop long =
    (if s.bit F.WALE.WALE_CTL.TK_BACKUP = true ∧ s.timekeeper = false then clockTaken s else clockLost s).when
      (long && s.bit F.WALE.WALE_STS.REF_WCLK) State.refLost := by
  have hbackup : (clockLost s).bit F.WALE.WALE_CTL.TK_BACKUP = s.bit F.WALE.WALE_CTL.TK_BACKUP := clockLost_bit s _ (by decide) (by decide)
  have htk : (clockLost s).timekeeper = s.timekeeper := clockLost_bit s F.WALE.WALE_STS.TK_ACTIVE (by decide) (by decide)
  have href : (clockLost s).bit F.WALE.WALE_STS.REF_WCLK = s.bit F.WALE.WALE_STS.REF_WCLK := clockLost_bit s _ (by decide) (by decide)
  have href' : (clockTaken s).bit F.WALE.WALE_STS.REF_WCLK = s.bit F.WALE.WALE_STS.REF_WCLK :=
    (clockTaken_bit s _ (by decide) (by decide)).trans href
  have hzero : (((clockLost s).setBit F.WALE.WALE_STS.TK_ACTIVE true).raiseInt Irq.tkTaken).tkZero = clockTaken s :=
    if_pos ((raiseInt_bit _ Irq.tkTaken F.WALE.WALE_STS.TK_ACTIVE (by decide)).trans (bit_setBit_same _ _ true (by decide) rfl))
  have hbus : (s.when s.waleOn fun s =>
      ((s.setBit F.WALE.WALE_STS.WCLK_OK false).raiseInt Irq.wclkLost).when
        (((s.setBit F.WALE.WALE_STS.WCLK_OK false).raiseInt Irq.wclkLost).bit F.WALE.WALE_CTL.TK_BACKUP
          && !((s.setBit F.WALE.WALE_STS.WCLK_OK false).raiseInt Irq.wclkLost).timekeeper) fun s =>
        ((s.setBit F.WALE.WALE_STS.TK_ACTIVE true).raiseInt Irq.tkTaken).tkZero)
      = if s.bit F.WALE.WALE_CTL.TK_BACKUP = true ∧ s.timekeeper = false then clockTaken s else clockLost s := by
    rw [hon, State.when, if_pos rfl, ← clockLost, hbackup, htk, State.when]
    simp only [hzero, Bool.and_eq_true, Bool.not_eq_true']
  unfold State.wclkStop
  rw [hbus]
  dsimp only
  split
  · rw [href']
  · rw [href]

/-- A hub off the bus has no part in it but the reference. -/
theorem wclkStop_off (s : State) (long : Bool) (hon : s.waleOn = false) :
    s.wclkStop long = s.when (long && s.bit F.WALE.WALE_STS.REF_WCLK) State.refLost := by
  unfold State.wclkStop
  simp only [when_of_false s _ hon]

theorem exec_wclkLoss (long : Bool) (s : State) : exec (.wclkLoss long) s = act (fun s => s.wclkStop long) s := rfl
theorem exec_wclkRestored (s : State) : exec .wclkRestored s = act State.wclkBack s := rfl
theorem exec_wsyncLost (s : State) : exec .wsyncLost s = act State.wsyncGo s := rfl

section
variable {s : State} (hs : s.quiet = true)
include hs

theorem wclkLoss_off (hon : s.waleOn = false) : exec (.wclkLoss false) s = .next s := by
  refine (exec_wclkLoss false s).trans (act_idle hs ?_)
  exact (wclkStop_off s false hon).trans (when_of_false s _ rfl)

theorem wclkRestored_off (hon : s.waleOn = false) : exec .wclkRestored s = .next s :=
  (exec_wclkRestored s).trans (act_idle hs (by rw [State.wclkBack, hon]; rfl))

theorem wclkRestored_on (hon : s.waleOn = true) : exec .wclkRestored s = .next (s.setBit F.WALE.WALE_STS.WCLK_OK true) := by
  refine (exec_wclkRestored s).trans ((Calm.setBit s F.WALE.WALE_STS.WCLK_OK true (List.mem_singleton.2 rfl)).act hs ?_ (by decide))
  rw [State.wclkBack, hon]
  rfl

variable (hb : s.bit (F.HDR.INT_ROUTE.INBAND pgWALE) = false)
include hb

theorem wclkLoss_takes {long : Bool} (hon : s.waleOn = true) (hlong : long = true → s.bit F.WALE.WALE_STS.REF_WCLK = false)
    (hbackup : s.bit F.WALE.WALE_CTL.TK_BACKUP = true) (htk : s.timekeeper = false) :
    exec (.wclkLoss long) s = .next (clockTaken s) := by
  refine (exec_wclkLoss long s).trans ((clockTaken_calm hb).act hs ?_ (by decide))
  rw [wclkStop_eq s long hon, if_pos ⟨hbackup, htk⟩]
  exact when_of_false _ _ (by cases long <;> simp [hlong])

theorem wclkLoss_notes {long : Bool} (hon : s.waleOn = true) (hlong : long = true → s.bit F.WALE.WALE_STS.REF_WCLK = false)
    (h : s.bit F.WALE.WALE_CTL.TK_BACKUP = false ∨ s.timekeeper = true) : exec (.wclkLoss long) s = .next (clockLost s) := by
  refine (exec_wclkLoss long s).trans ((clockLost_calm hb).act hs ?_ (by decide))
  rw [wclkStop_eq s long hon, if_neg ?_]
  · exact when_of_false _ _ (by cases long <;> simp [hlong])
  · rintro ⟨h1, h2⟩
    rcases h with h | h
    · exact Bool.false_ne_true (h.symm.trans h1)
    · exact Bool.false_ne_true (h2.symm.trans h)

omit hs in
/-- A long gap ends in the loss of the reference, whatever the bus makes of it. -/
theorem wclkStop_refLost (href : s.bit F.WALE.WALE_STS.REF_WCLK = true) : ∃ u, s.wclkStop true = u.refLost
    ∧ Calm [F.WALE.WALE_STS.WCLK_OK.addr, 0x1000 * pgWALE + 0x010, F.TICK.WALE_CORR.CORR.addr] s u := by
  by_cases hon : s.waleOn = true
  · refine ⟨if s.bit F.WALE.WALE_CTL.TK_BACKUP = true ∧ s.timekeeper = false then clockTaken s else clockLost s, ?_, ?_⟩
    · rw [wclkStop_eq s true hon, href]
      rfl
    · exact QueueKept.ite (clockTaken_calm hb) ((clockLost_calm hb).mono (by simp))
  · refine ⟨s, ?_, Calm.refl _ s⟩
    rw [wclkStop_off s true (Bool.eq_false_iff.2 hon), href]
    rfl

theorem wclkLoss_stops (href : s.bit F.WALE.WALE_STS.REF_WCLK = true) (hrole : s.role = roleSolo)
    (htime : s.bit (F.HDR.INT_ROUTE.INBAND pgTIME) = false) (hrim : s.bit (F.HDR.INT_ROUTE.INBAND pgRIM) = false) :
    ∃ t, exec (.wclkLoss true) s = .next t ∧ t.servoSt = svStopped ∧ t.faultSet Flt.refclkLoss = true ∧ t.servo.refBad = true := by
  obtain ⟨u, hstop, hcalm⟩ := wclkStop_refLost hb href
  have hu := hcalm.trans (Calm.modServo u fun v => { v with refBad := true })
  have htime' := (hu.bit (F.HDR.INT_ROUTE.INBAND pgTIME) (by decide)).trans htime
  have hstopped := timeFatal_stopped (f := Flt.refclkLoss) (b := u.modServo fun v => { v with refBad := true }) rfl rfl htime' (by decide)
  refine ⟨_, (exec_wclkLoss true s).trans (act_timeFatal (f := Flt.refclkLoss) rfl rfl htime' hs hstop ((hu.quiet (by decide)).trans hs)
    ((hu.bit _ (by decide)).trans hrim) ((hu.fld _ (by decide)).trans hrole) hu.pending), hstopped.stopped, hstopped.fault, ?_⟩
  rw [hstopped.servo]
  rfl

end

/-- The phase pulse is missing (R368). -/
def pulseMissed (s : State) : State :=
  ((s.setBit F.WALE.WALE_STS.WSYNC_OK false).modWale fun w => { w with wsyncGone := true }).raiseInt Irq.wsyncLost

theorem pulseMissed_wale (s : State) : (pulseMissed s).wale = { s.wale with wsyncGone := true } := by
  rw [pulseMissed, raiseInt_wale]
  rfl

theorem pulseMissed_time (s : State) : (pulseMissed s).time = s.time := by
  rw [pulseMissed, raiseInt_time]
  rfl

theorem pulseMissed_ok (s : State) : (pulseMissed s).bit F.WALE.WALE_STS.WSYNC_OK = false :=
  (raiseInt_bit _ Irq.wsyncLost _ (by decide)).trans (bit_setBit_same s _ false (by decide) rfl)

theorem pulseMissed_irq (s : State) : ((pulseMissed s).reg (0x1000 * pgWALE + 0x010)).getLsbD Irq.wsyncLost.bit = true :=
  raiseInt_irq _ Irq.wsyncLost (by decide)

/-- It has been missing for 3 s. -/
def pulseGone (s : State) : State := pulseMissed (s.reachCycles (s.wale.wsyncAt + 1500000000))

theorem pulseGone_wale (s : State) : (pulseGone s).wale = { s.wale with wsyncGone := true } := by
  rw [pulseGone, pulseMissed_wale, reachCycles_wale]

theorem pulseGone_time (s : State) : s.wale.wsyncAt + 1500000000 ≤ (pulseGone s).time.cycles := by
  rw [pulseGone, pulseMissed_time]
  exact reachCycles_cycles s _

theorem pulseGone_ok (s : State) : (pulseGone s).bit F.WALE.WALE_STS.WSYNC_OK = false := pulseMissed_ok _
theorem pulseGone_irq (s : State) : ((pulseGone s).reg (0x1000 * pgWALE + 0x010)).getLsbD Irq.wsyncLost.bit = true := pulseMissed_irq _

theorem wsyncGo_eq (s : State) (hon : s.waleOn = true) (hgone : s.wale.wsyncGone = false) : s.wsyncGo = pulseGone s := by
  unfold State.wsyncGo
  rw [if_pos ⟨hon, hgone⟩, pulseGone, pulseMissed]

theorem pulseGone_calm {s : State} (hb : s.bit (F.HDR.INT_ROUTE.INBAND pgWALE) = false) :
    Calm [F.WALE.WALE_STS.WSYNC_OK.addr, 0x1000 * pgWALE + 0x010] s (pulseGone s) := by
  have hcalm : Calm [F.WALE.WALE_STS.WSYNC_OK.addr, 0x1000 * pgWALE + 0x010] s
      (((s.reachCycles (s.wale.wsyncAt + 1500000000)).setBit F.WALE.WALE_STS.WSYNC_OK false).modWale fun w => { w with wsyncGone := true }) :=
    ((Calm.reachCycles s _).trans (Calm.setBit _ _ false (by decide))).trans (Calm.modWale _ _)
  exact hcalm.trans (Calm.raiseInt _ Irq.wsyncLost ((hcalm.bit _ (by decide)).trans hb) (by decide))

theorem wsyncLost_next {s : State} (hs : s.quiet = true) (hb : s.bit (F.HDR.INT_ROUTE.INBAND pgWALE) = false) (hon : s.waleOn = true)
    (hgone : s.wale.wsyncGone = false) : exec .wsyncLost s = .next (pulseGone s) :=
  (exec_wsyncLost s).trans ((pulseGone_calm hb).act hs (wsyncGo_eq s hon hgone) (by decide))

theorem wsyncLost_idle {s : State} (hs : s.quiet = true) (h : s.waleOn = false ∨ s.wale.wsyncGone = true) : exec .wsyncLost s = .next s := by
  refine (exec_wsyncLost s).trans (act_idle hs (if_neg fun ⟨hon, hgone⟩ => ?_))
  rcases h with h | h
  · exact Bool.false_ne_true (h.symm.trans hon)
  · exact Bool.false_ne_true (hgone.symm.trans h)

/-- Settles O42: each command has one effect on the wale page, and on the servo at most the loss of its reference. -/
theorem walePulsesAndClockAreFollowed : Obligations.WalePulsesAndClockAreFollowed := by
  unfold Obligations.WalePulsesAndClockAreFollowed
  intro s hs hb
  refine ⟨?_, ?_, ?_, ?_, ?_, ?_, wclkLoss_off hs, wclkRestored_off hs, wsyncLost_idle hs, ?_, ?_, wclkLoss_stops hs hb,
    wclkRestored_on hs, ?_⟩
  · intro n st hon hn hwake hrole hidle hown hfrac
    have hcx : ∀ x < 256, s.cxSt x = cxIdle := fun x hx => of_decide_eq_true (List.all_eq_true.1 hidle x (List.mem_range.2 hx))
    have htold := pulseSeen_told s hn hfrac
    exact ⟨_, (exec_walePulseRx n st .short s).trans (shortPulse_idle hs hon hn hwake hrole hcx hown), htold.cnt, htold.ns32, htold.line,
      htold.frac, (pulseSeen_calm s n.val st).regs, pulseSeen_wale s n.val st⟩
  · intro st hon hnear
    exact ⟨_, (exec_walePulseRx 8 st .wide s).trans (widePulse_seen hs hon hnear), phaseSeen_ok s, rfl, (phaseSeen_calm s).regs⟩
  · intro n st hon hn hown hfrac
    obtain ⟨t, hnext, htold⟩ := shortPulse_told hs hon hn hown hfrac
    exact ⟨t, (exec_walePulseRx n st .short s).trans hnext, htold.cnt, htold.ns32, htold.line, htold.frac⟩
  · intro n st c h
    exact (exec_walePulseRx n st c s).trans (pulseRx_idle hs h)
  · intro n st hon hdrive
    refine ⟨_, (exec_walePulseRx n st .unseen s).trans (unseen_driveCheck hs hb hon hdrive), faultSet_raiseFault s _ (by decide), ?_⟩
    rw [(raiseFault_mild s Flt.driveCheck (by decide) hb).only]
  · intro n st hdrive
    exact (exec_walePulseRx n st .unseen s).trans (unseen_idle hs hdrive)
  · intro long hon hlong hbackup htk
    have hcalm := clockTaken_calm hb
    exact ⟨_, wclkLoss_takes hs hb hon hlong hbackup htk, (clockTaken_bit s _ (by decide) (by decide)).trans (clockLost_ok s),
      clockTaken_timekeeper s, clockTaken_lost s, clockTaken_taken s, clockTaken_corr s, hcalm.regs, clockTaken_servo s⟩
  · intro long hon hlong h
    exact ⟨_, wclkLoss_notes hs hb hon hlong h, clockLost_ok s, clockLost_timekeeper s, clockLost_irq s, (clockLost_calm hb).regs, clockLost_servo s⟩
  · intro hon hgone
    exact ⟨_, wsyncLost_next hs hb hon hgone, pulseGone_ok s, pulseGone_wale s, pulseGone_time s, pulseGone_irq s,
      (pulseGone_calm hb).regs⟩

end Sys2Proof.TickProofs

namespace Sys2Proof.TickProofs

open Sys2Proof Sys2Proof.Machine Sys2Proof.Laws Sys2Proof.ScopeProofs Sys2Proof.TimeProofs

/-! ## A replacement that is no slice (R150, R210, R211) -/

/-- A pass of SLICE_0 with one conversion left. -/
def slowPass : Pass := { tick := ⟨0, 0, 0, 0, 0⟩, group := 0, ops := [.conv 0 false 0] }

/-- SLICE_0 converts, and waits to be replaced by number 3640, which is no slice. The row of weights that number 3640 would have on the CAL
page, at 0x7210 + 0x40 · 3640, lies over FLT_STS of SLICE_0, at 0x4001C. -/
def misnamedSpare : State :=
  (({} : State).setFld (F.SLICE.SLICE_STS.ROLE 3640) roleIdle).setSlice 0 { pass := some slowPass, swapDue := true, swapFor := some 3640 }

theorem misnamedSpare_quiet : misnamedSpare.quiet = true := by decide +kernel

theorem exec_convTimeout (sl : Fin 34) (s : State) : exec (.convTimeout sl) s = act (fun s => s.convTimeout sl.val) s := rfl

/-- As the pass is abandoned the replacement takes effect, and clears the fault just raised. -/
theorem misnamedSpare_convTimeout : (misnamedSpare.convTimeout 0).quiet = misnamedSpare.quiet
    ∧ (misnamedSpare.convTimeout 0).pending = misnamedSpare.pending
    ∧ (misnamedSpare.convTimeout 0).faultSet (Flt.convTimeout 0) = false := by decide +kernel

/-- Refutes O21: at `misnamedSpare`, a state the model admits though no run reaches it, the conversion that times out leaves no
CONV_TIMEOUT in FLT_STS of its slice. The statement does not say that `swapFor` names a slice. -/
theorem not_passesEndAndTimeOut : ¬ Obligations.PassesEndAndTimeOut := by
  unfold Obligations.PassesEndAndTimeOut
  intro h
  obtain ⟨-, -, -, -, -, -, htimesOut, -⟩ := h misnamedSpare misnamedSpare_quiet
  obtain ⟨t, ht, -, -, -, hfault, -⟩ := htimesOut 0 slowPass 0 0 false (by decide +kernel) (by decide +kernel) (by decide +kernel)
    (by decide +kernel) (by decide +kernel) (by decide +kernel) (by decide +kernel) (by decide +kernel) (by decide +kernel)
    (by decide +kernel) (by decide +kernel) (by decide +kernel)
  obtain ⟨hquiet, hpending, hclear⟩ := misnamedSpare_convTimeout
  have hnext : t = misnamedSpare.convTimeout 0 :=
    next_unique (f := fun s => s.convTimeout 0) misnamedSpare_quiet hquiet hpending ((exec_convTimeout 0 misnamedSpare).symm.trans ht)
  exact Bool.false_ne_true (hclear.symm.trans (hnext ▸ hfault))

end Sys2Proof.TickProofs

namespace Sys2Proof.TickProofs

open Sys2Proof Sys2Proof.Machine Sys2Proof.Laws Sys2Proof.ScopeProofs Sys2Proof.TimeProofs

/-! ## What the chain behind the averager can change (R226 to R298)

The same way as for the queues: what a fact must survive to survive a word at the averager output (`ChainKept`). -/

/-- An address of the rim page, of pages RED and TRIG, of a RAIN page, of a page of a context or a queue, or of the counters of the FIR and
of STREAM and STATS of a channel. -/
abbrev chainAddr (a : Nat) : Prop :=
  a / 0x1000 = pgRIM ∨ a / 0x1000 = pgRED ∨ a / 0x1000 = pgTRIG ∨ (0x0B0 ≤ a / 0x1000 ∧ a / 0x1000 < 0x0D0) ∨ 0x100 ≤ a / 0x1000
    ∨ (0x080 ≤ a / 0x1000 ∧ a / 0x1000 < 0x0A0 ∧ 0x24 ≤ a % 0x80 ∧ a % 0x80 ≤ 0x30)

theorem chainAddr_of_queueAddr {a : Nat} (h : queueAddr a) : chainAddr a := by
  simp only [queueAddr, chainAddr] at h ⊢
  omega

theorem chainAddr_trig {a : Nat} (h : a / 0x1000 = pgTRIG) : chainAddr a := .inr (.inr (.inl h))

theorem chainAddr_add {a b : Nat} (h : 0x100000 ≤ a) : chainAddr (a + b) := by
  simp only [chainAddr]
  omega

theorem chainAddr_counter {o c : Nat} (hc : c < 512) (h : 0x0800A4 ≤ o ∧ o ≤ 0x0800B0) :
    chainAddr (o + 0x1000 * (c / 16) + 0x80 * (c % 16)) := by
  simp only [chainAddr]
  omega

theorem chainAddr_rain {a c : Nat} (hc : c < 512) (h : a / 0x1000 = pgRAIN (c / 16)) : chainAddr a := by
  simp only [chainAddr, pgRAIN] at h ⊢
  omega

/-- What the chain leaves of a channel: the averager and the latest word. -/
def wordOf (x : Chan) : Window × Option (Sample × Nat) × Bool × Bool × Int := (x.win, x.res, x.freshQ, x.freshM, x.lastVal)

/-- A fact about the state that survives what the chain writes: registers of those addresses, what the queues and contexts hold, history
in capture memory, and the parts of a channel behind the averager. -/
structure ChainKept (P : State → Prop) : Prop where
  reg : ∀ {t} (a v), chainAddr a → P t → P (t.setReg a v)
  store : ∀ {t} (queue qmem pair ctx free), P t → P { t with queue := queue, qmem := qmem, pair := pair, ctx := ctx, free := free }
  rim : ∀ {t} (r), r.fatalDue = t.rim.fatalDue → P t → P { t with rim := r }
  waiting : ∀ {t} (l), P t → P { t with arbTx := { t.arbTx with waiting := l } }
  capture : ∀ {t} (trig capMem capEcc), P t → P { t with trig := trig, capMem := capMem, capEcc := capEcc }
  chan : ∀ {t} (c) (f : Chan → Chan), (∀ x, wordOf (f x) = wordOf x) → P t → P (t.modChan c f)

/-- What the measurements of a member change: a period that is no whole unit draws a free value (R285). -/
theorem measResults_snd (t : State) (set : Nat) (m : Meas) (hm : m.used ≠ 0) : (t.measResults set m).2
    = (if m.crossings < 2 then (0, t) else t.roundTie (m.lastX - m.firstX) (64 * (m.crossings - 1))).2 := by
  unfold State.measResults
  refine (congrArg Prod.snd (if_neg hm)).trans ?_
  generalize (if m.crossings < 2 then (0, t) else t.roundTie (m.lastX - m.firstX) (64 * (m.crossings - 1))) = r
  generalize rmsOf m.sq m.used = q
  obtain ⟨_, _⟩ := r
  obtain ⟨_, _⟩ := q
  rfl

theorem rainBin_le (log : Bool) (shift r : Nat) : rainBin log shift r ≤ 31 := by
  have hsat (x : Nat) : satNat 31 x ≤ 31 := by
    unfold satNat
    split <;> omega
  unfold rainBin
  split
  · split
    · exact Nat.zero_le 31
    · exact hsat _
  · exact hsat _

namespace ChainKept

variable {P : State → Prop} (k : ChainKept P)
include k

theorem queue : QueueKept P where
  setReg a v ha h := k.reg a v (chainAddr_of_queueAddr ha) h
  store := k.store
  rim := k.rim
  waiting := k.waiting

variable {t : State} (h : P t)
include h

theorem setFld {f : Fld} {x : Nat} (ha : chainAddr f.addr) : P (t.setFld f x) := k.reg _ _ ha h
theorem setBit {f : Fld} {x : Bool} (ha : chainAddr f.addr) : P (t.setBit f x) := k.reg _ _ ha h
theorem count {f : Fld} {n : Nat} (ha : chainAddr f.addr) : P (t.count f n) := k.reg _ _ ha h
theorem modTrig {f : Trig → Trig} : P (t.modTrig f) := k.capture _ t.capMem t.capEcc h
theorem modCtx {x : Nat} {f : Ctx → Ctx} : P (t.modCtx x f) := k.queue.modCtx h
theorem setCapWord {a : Nat} {w : Word} : P (t.setCapWord a w) := k.capture t.trig _ _ h
theorem modMember {x n : Nat} {f : Member → Member} : P (t.modMember x n f) := k.modCtx h

theorem roundFree {n : Int} {d : Nat} : P (t.roundFree n d).2 := by
  rw [roundFree_only]
  exact k.store t.queue t.qmem t.pair t.ctx _ h

theorem raiseTrig {i : IntBit} (hp : i.page = pgTRIG) : P (t.raiseInt i) :=
  k.queue.raiseIntAt h fun o v ho h => k.reg _ _ (chainAddr_trig (by rw [hp]; simp only [pgTRIG]; omega)) h

/-! ### History in capture memory (R263, R286 to R289) -/

theorem rateStep {x cause r : Nat} : P (t.rateStep x cause r) := by
  unfold State.rateStep
  exact k.raiseTrig (k.count (k.modCtx (k.setBit (k.setFld h (chainAddr_add (by decide))) (chainAddr_add (by decide))))
    (chainAddr_trig rfl)) rfl

theorem rateReduce {w : Nat} : P (t.rateReduce w) := by
  unfold State.rateReduce
  dsimp only
  split
  · exact h
  · exact k.modTrig (k.modCtx (k.rateStep h))

theorem setWriter {w level since : Nat} : P (t.setWriter w level since) := by
  unfold State.setWriter
  exact QueueKept.when (k.setFld (k.modTrig h) (chainAddr_trig (a := 0x00A04C) rfl)) fun h =>
    k.setFld h (chainAddr_trig (a := 0x00A050) rfl)

theorem writerCheck {w : Nat} : P (t.writerCheck w) := by
  unfold State.writerCheck
  exact QueueKept.ite (k.rateReduce h) h

theorem writerTake {x : Nat} : P (t.writerTake x) := by
  unfold State.writerTake
  exact k.writerCheck (QueueKept.when (k.setWriter h) fun h => QueueKept.each h fun t y _ h => QueueKept.ite (k.modCtx h) h)

theorem storeSlot {x n : Nat} {w : Word} {idx : Nat} {mark : Bool} : P (t.storeSlot x n w idx mark) := by
  unfold State.storeSlot
  exact k.writerTake (k.modMember (k.setCapWord h))

theorem storeRates {x n idx fuel : Nat} : P (t.storeRates x n idx fuel) := by
  induction fuel generalizing t with
  | zero => exact h
  | succ fuel ih =>
    unfold State.storeRates
    split
    · exact h
    · exact ih (k.storeSlot (k.modMember h))

theorem storeDue {x n idx : Nat} : P (t.storeDue x n idx) := by
  unfold State.storeDue
  exact k.storeRates (QueueKept.each (k.modMember h) fun _ _ _ h => k.storeSlot h)

/-! ### The record of a context (R275, R280, R285, R292) -/

theorem roundTie {num den : Nat} : P (t.roundTie num den).2 := by
  unfold State.roundTie
  split
  · exact k.roundFree h
  · exact h

theorem measResults {set : Nat} {m : Meas} : P (t.measResults set m).2 := by
  by_cases hm : m.used = 0
  · unfold State.measResults
    rw [if_pos hm]
    exact h
  · rw [measResults_snd t set m hm]
    split
    · exact h
    · exact k.roundTie h

theorem memberFill {c pre pe set trig : Nat} {m : Member} : P (t.memberFill c pre pe set trig m).2 := by
  unfold State.memberFill
  exact k.measResults h

theorem membersFill {c pre pe set trig : Nat} {l : List Member} : P (t.membersFill c pre pe set trig l).2 := by
  induction l generalizing t with
  | nil => exact h
  | cons m l ih => exact ih (k.memberFill (c := c) (pre := pre) (pe := pe) (set := set) (trig := trig) (m := m) h)

theorem recTick {x : Nat} : P (t.recTick x) := by
  unfold State.recTick
  exact k.setFld (k.setFld (k.setFld (k.setFld h (chainAddr_add (by decide))) (chainAddr_add (by decide))) (chainAddr_add (by decide)))
    (chainAddr_add (by decide))

theorem cxEnter {x st : Nat} : P (t.cxEnter x st) := k.setFld h (chainAddr_add (by decide))

theorem setCtx {x : Nat} {c : Ctx} : P (t.setCtx x c) := k.store t.queue t.qmem t.pair _ t.free h


theorem recFill {x : Nat} : P (t.recFill x) := by
  unfold State.recFill
  dsimp only
  generalize hr : State.membersFill _ _ _ _ _ _ _ = r
  have hfill : P r.2 := hr ▸ k.membersFill (k.recTick h)
  obtain ⟨ms, u⟩ := r
  refine k.setFld (k.setFld (k.setFld (k.setFld (k.setFld (k.setFld (k.setFld (k.setFld (k.setFld (k.setCtx hfill) ?_) ?_) ?_) ?_) ?_) ?_) ?_) ?_) ?_
    <;> exact chainAddr_add (by decide)

theorem cxFinish {x : Nat} : P (t.cxFinish x) := by
  unfold State.cxFinish
  exact k.raiseTrig (k.count (QueueKept.when (k.modCtx (k.cxEnter (k.recFill h))) fun h => k.modTrig h) (chainAddr_add (by decide))) rfl

theorem cxCheckDone {x : Nat} : P (t.cxCheckDone x) := by
  unfold State.cxCheckDone
  exact QueueKept.ite (k.cxFinish h) h

theorem memberDone {x n : Nat} : P (t.memberDone x n) := k.cxCheckDone (k.modMember h)

/-! ### Words and triggers at a tap (R263, R267, R271) -/

theorem memberWord {x n : Nat} {w : Sample} {idx g i : Nat} : P (t.memberWord x n w idx g i) := by
  have hdone {t : State} {o : Option Nat} (h : P t) {c : Nat → Prop} [DecidablePred c] :
      P (match o with
        | some p => if c p then t.memberDone x n else t
        | none => t) := by
    split
    · exact QueueKept.ite (k.memberDone h) h
    · exact h
  unfold State.memberWord
  refine hdone (QueueKept.when ?_ fun h => k.cxEnter h)
  dsimp only
  split
  · refine k.modMember (k.modMember ?_)
    exact QueueKept.ite (k.storeSlot (k.storeDue h)) (k.modMember (k.storeDue h))
  · refine k.modMember ?_
    exact QueueKept.ite (k.storeSlot (k.storeDue h)) (k.modMember (k.storeDue h))

theorem captureWord {c : Nat} {fir : Bool} {w : Sample} {idx n i : Nat} : P (t.captureWord c fir w idx n i) := by
  unfold State.captureWord
  exact QueueKept.each h fun t x _ h => QueueKept.ite (QueueKept.each h fun t m _ h => QueueKept.ite (k.memberWord h) h) h

theorem cxIgnore {x : Nat} : P (t.cxIgnore x) := k.modCtx (k.count h (chainAddr_add (by decide)))

theorem deliver {x : Nat} {r : Trigger} : P (t.deliver x r) := by
  unfold State.deliver
  exact QueueKept.ite (QueueKept.ite (k.modTrig h) h) (QueueKept.ite h (QueueKept.ite (k.cxIgnore h) (k.modCtx h)))

theorem levelWord {c : Nat} {fir : Bool} {w : Sample} {idx n : Nat} : P (t.levelWord c fir w idx n) := by
  unfold State.levelWord
  refine QueueKept.ite h (QueueKept.each h fun t x _ h => QueueKept.ite ?_ h)
  exact QueueKept.when (k.setCtx h) fun h => k.deliver (k.roundFree h)

/-! ### The reducers (R239 to R252) -/

theorem setPkt {c : Nat} {p : Option OpenPkt} : P (t.modChan c fun x => { x with pkt := p }) := k.chan c _ (fun _ => rfl) h
theorem setStats {c : Nat} {w : StatsWin} : P (t.modChan c fun x => { x with stats := w }) := k.chan c _ (fun _ => rfl) h
theorem modFir {c : Nat} (f : Fir → Fir) : P (t.modChan c fun x => { x with fir := f x.fir }) := k.chan c _ (fun _ => rfl) h
theorem modRain {c : Nat} {f : Rain → Rain} : P (t.modRain c f) := k.chan c _ (fun _ => rfl) h

theorem modJoin {c : Nat} {f : JoinCh → JoinCh} : P (t.modJoin c f) := by
  unfold State.modJoin
  exact QueueKept.when h fun h => k.chan c _ (fun _ => rfl) h

theorem drawTruth : P t.drawTruth.2 := k.store t.queue t.qmem t.pair t.ctx _ h

theorem reducerOffer {c typ : Nat} {l : List Word} : P (t.reducerOffer c typ l) := by
  unfold State.reducerOffer
  exact QueueKept.ite (k.queue.offer h) h

section
variable {c : Nat} (hc : c < 512)
include hc

theorem streamClose : P (t.streamClose c) := by
  unfold State.streamClose
  split
  · exact h
  · exact k.reducerOffer (k.count (k.count (k.setPkt h) (chainAddr_counter hc (by decide))) (.inr (.inl rfl)))

theorem streamAge : P (t.streamAge c) := by
  unfold State.streamAge
  split
  · exact QueueKept.ite (k.streamClose h hc) h
  · exact h

theorem streamWord {w : Sample} {idx n : Nat} : P (t.streamWord c w idx n) := by
  have hopen : P (match ((t.streamAge c).getChan c).pkt with
      | some p =>
        let d := n - p.lastN
        if n ≤ p.lastN ∨ (p.stride ≠ 0 ∧ d ≠ p.stride) ∨ 4194303 < d then (t.streamAge c).streamClose c else t.streamAge c
      | none => t.streamAge c) := by
    split
    · exact QueueKept.ite (k.streamClose (k.streamAge h hc) hc) (k.streamAge h hc)
    · exact k.streamAge h hc
  unfold State.streamWord
  exact QueueKept.ite (k.streamClose (k.setPkt hopen) hc) (k.setPkt hopen)

theorem statsClose {short : Bool} : P (t.statsClose c short) := by
  unfold State.statsClose
  refine QueueKept.ite (k.setStats (k.setStats h)) (k.reducerOffer (k.count (QueueKept.when (k.setStats h) fun h => ?_) (.inr (.inl rfl))))
  exact k.count h (chainAddr_counter hc (by decide))

theorem statsWord {w : Sample} {idx i : Nat} : P (t.statsWord c w idx i) := by
  unfold State.statsWord
  have hadd {u : State} {b : Bool} {x : StatsWin} (h : P u) :
      P ((u.when b fun s => s.modJoin c fun j => { j with stats := true }).modChan c fun y => { y with stats := x }) := by
    refine k.setStats (QueueKept.when h fun h => ?_)
    exact k.modJoin h
  have hold {b : Bool} : P (if b then t.statsClose c false else t) := QueueKept.ite (k.statsClose h hc) h
  exact QueueKept.ite (k.statsClose (hadd hold) hc) (hadd hold)

theorem rainCount {r n : Nat} : P (t.rainCount c r n) := by
  unfold State.rainCount
  have hbin := rainBin_le (t.bit (F.RAIN.RAIN_CFG.BIN_MODE c)) (t.fld (F.RAIN.RAIN_CFG.BIN_SHIFT c)) r
  refine k.count (k.count h (chainAddr_rain hc ?_)) (chainAddr_rain hc ?_) <;> simp only [pgRAIN] <;> omega

theorem rainPush {v : Int} : P (t.rainPush c v) := by
  have hpage : ∀ {t : State} (o v), o < 0x1000 → P t → P (t.setReg (0x1000 * pgRAIN (c / 16) + o) v) := fun o v ho h =>
    k.reg _ _ (chainAddr_rain hc (by simp only [pgRAIN]; omega)) h
  unfold State.rainPush
  refine k.modRain (QueueKept.when (QueueKept.ite h ?_) fun h => ?_)
  · refine k.queue.raiseIntAt (k.queue.raiseFault (k.setFld (k.count (k.modRain ?_) (chainAddr_rain hc ?_)) (chainAddr_rain hc ?_)) hpage
      (by decide : clsCont ≠ clsFatal)) hpage
    · split
      · exact k.rainCount h hc
      · exact h
    · simp only [pgRAIN]
      omega
    · simp only [pgRAIN]
      omega
  · exact k.modJoin h

theorem rainCycles {n : Nat} : P (t.rainCycles c n) := by
  induction n generalizing t with
  | zero => exact h
  | succ n ih =>
    unfold State.rainCycles
    split
    · exact QueueKept.ite (ih (k.modRain (k.rainCount h hc))) h
    · exact h

theorem rainTurn {v : Int} {dir : Nat} : P (t.rainTurn c v dir) := by
  unfold State.rainTurn
  exact k.modRain (k.rainCycles (k.rainPush h hc) hc)

theorem rainWord {w : Sample} {idx : Nat} : P (t.rainWord c w idx) := by
  unfold State.rainWord
  refine QueueKept.ite h ?_
  have hseen : P (t.modRain c fun r => { r with ovrSeen := r.ovrSeen || w.fl.ovr, lastIdx := idx }) := k.modRain h
  refine QueueKept.ite (k.modRain (k.rainPush hseen hc)) (QueueKept.ite ?_ (QueueKept.ite ?_ ?_))
  · exact QueueKept.ite (k.modRain hseen) (QueueKept.ite (k.modRain hseen) hseen)
  · exact QueueKept.ite (k.modRain hseen) (QueueKept.ite (k.rainTurn hseen hc) hseen)
  · exact QueueKept.ite (k.modRain hseen) (QueueKept.ite (k.rainTurn hseen hc) hseen)

/-! ### The taps and the FIR (R226 to R236) -/

theorem tapWord {fir : Bool} {w : Sample} {idx n i : Nat} : P (t.tapWord c fir w idx n i) := by
  unfold State.tapWord
  refine k.levelWord (k.captureWord (k.chan c _ (fun x => ?_) (QueueKept.ite ?_ h)))
  · cases fir <;> rfl
  · refine QueueKept.when (QueueKept.when (QueueKept.when h fun h => ?_) fun h => ?_) fun h => ?_
    · exact k.streamWord h hc
    · exact k.statsWord h hc
    · exact k.rainWord h hc

theorem firOut : P (t.firOut c) := by
  unfold State.firOut
  refine k.tapWord (k.modFir (QueueKept.when h fun h => ?_) fun f => { f with phase := 0, started := true }) hc
  exact k.count h (chainAddr_counter hc (by decide))

omit hc in
theorem firJoin : P (t.firJoin c) := by
  unfold State.firJoin
  refine QueueKept.ite h (QueueKept.ite ?_ (k.modJoin h))
  exact k.modJoin (k.drawTruth (k.modJoin h))

theorem firWord {w : Sample} {idx n m : Nat} : P (t.firWord c w idx n m) := by
  unfold State.firWord
  have hin {f : Fir} : P ((t.modChan c fun x => { x with fir := f }).firJoin c) := k.firJoin (k.modFir h fun _ => f)
  exact QueueKept.ite (k.firOut hin hc) hin

/-- A word at the averager output. -/
theorem chainWord {w : Sample} {idx n m : Nat} : P (t.chainWord c w idx n m) := by
  unfold State.chainWord
  exact QueueKept.ite h (QueueKept.ite (k.firWord (k.tapWord h hc) hc) (k.tapWord h hc))

end

end ChainKept
end Sys2Proof.TickProofs

namespace Sys2Proof.TickProofs

open Sys2Proof Sys2Proof.Machine Sys2Proof.Laws Sys2Proof.ScopeProofs Sys2Proof.TimeProofs

/-! ## What a word at the averager output leaves (R161 to R172) -/

/-- A register of a channel that the chain leaves. -/
theorem not_chainAddr_chan {o c : Nat} (hc : c < 512) (ho : 0x080040 ≤ o ∧ o < 0x0800A4 ∨ 0x0800B0 < o ∧ o < 0x0800C0) :
    ¬ chainAddr (o + 0x1000 * (c / 16) + 0x80 * (c % 16)) := by
  simp only [chainAddr, pgRIM, pgRED, pgTRIG]
  omega

/-- From `w` to `t` the chain behind the averager and the queues have been at work, and at most in-band interrupts wait. -/
structure Chained (w t : State) : Prop where
  due : OnlyDue t
  reg : ∀ a, ¬ chainAddr a → t.reg a = w.reg a
  slice : t.slice = w.slice
  word : ∀ c, wordOf (t.getChan c) = wordOf (w.getChan c)

namespace Chained

variable {w t u : State}

theorem refl (h : OnlyDue w) : Chained w w := ⟨h, fun _ _ => rfl, rfl, fun _ => rfl⟩

theorem kept : ChainKept (Chained w) where
  reg a v ha h := {
    due := h.due.setReg fun e => absurd (e ▸ ha) (by decide)
    reg := fun b hb => (reg_setReg_ne _ a b v fun e => hb (e ▸ ha)).trans (h.reg b hb)
    slice := h.slice
    word := h.word }
  store _ _ _ _ _ h := ⟨h.due, h.reg, h.slice, h.word⟩
  rim r hr h := ⟨OnlyDue.kept.rim r hr h.due, h.reg, h.slice, h.word⟩
  waiting _ h := ⟨h.due, h.reg, h.slice, h.word⟩
  capture _ _ _ h := ⟨h.due, h.reg, h.slice, h.word⟩
  chan c f hf h := by
    refine ⟨h.due, h.reg, h.slice, fun d => ?_⟩
    by_cases hd : d = c
    · rw [hd, getChan_modChan_same, hf]
      exact h.word c
    · rw [getChan_modChan_ne _ _ _ _ hd]
      exact h.word d

theorem fld (h : Chained w t) (f : Fld) (hf : ¬ chainAddr f.addr) : t.fld f = w.fld f := congrArg (fun r => getBits r _ _) (h.reg _ hf)

end Chained

/-- The registers that a word at the averager output of channel `c` touches. -/
abbrev wordAddr (c a : Nat) : Prop := chainAddr a ∨ a = (F.CH.SAT_CNT.CNT c).addr ∨ a = (F.CH.WIN_CNT.CNT c).addr

theorem not_wordAddr_chan {o c : Nat} (hc : c < 512)
    (ho : (0x080040 ≤ o ∧ o < 0x0800A4 ∨ 0x0800B0 < o ∧ o < 0x0800C0) ∧ o ≠ 0x080080 ∧ o ≠ 0x080088) :
    ¬ wordAddr c (o + 0x1000 * (c / 16) + 0x80 * (c % 16)) := by
  obtain ⟨ho, hsat, hwin⟩ := ho
  have := not_chainAddr_chan hc ho
  simp only [wordAddr]
  omega

/-- A register of the page of a group or a slice. -/
theorem not_wordAddr_page {a c : Nat} (ha : 0x020000 ≤ a ∧ a < 0x080000) : ¬ wordAddr c a := by
  simp only [wordAddr, chainAddr, pgRIM, pgRED, pgTRIG]
  omega

/-- From `u` to `t` channel `c` has given the word `x` of tick `idx`. -/
structure Emitted (u : State) (c : Nat) (x : Sample) (idx : Nat) (t : State) : Prop where
  due : OnlyDue t
  reg : ∀ a, ¬ wordAddr c a → t.reg a = u.reg a
  cnt : t.fld (F.CH.WIN_CNT.CNT c) = min (2 ^ (F.CH.WIN_CNT.CNT c).width - 1) (u.fld (F.CH.WIN_CNT.CNT c) + 1)
  slice : t.slice = u.slice
  word : wordOf (t.getChan c) = ({}, some (x, idx), true, true, (u.getChan c).lastVal)

theorem Emitted.chained {u w t : State} {c : Nat} {x : Sample} {idx : Nat} (hc : c < 512) (h : Emitted u c x idx w) (hw : Chained w t) :
    Emitted u c x idx t where
  due := hw.due
  reg a ha := (hw.reg a fun hm => ha (.inl hm)).trans (h.reg a ha)
  cnt := by
    rw [hw.fld _ (not_chainAddr_chan hc (by decide))]
    exact h.cnt
  slice := hw.slice.trans h.slice
  word := (hw.word c).trans h.word

/-- The word of a window, as it closes: what it counts, and what the latest-result registers take. -/
def windowClosed (u : State) (c : Nat) (sat : Bool) (x : Sample) (idx : Nat) : State :=
  (((u.when sat fun s => s.count (F.CH.SAT_CNT.CNT c)).count (F.CH.WIN_CNT.CNT c)).modJoin c fun j => { j with avg := true }).modChan c
    fun h => { h with win := {}, res := some (x, idx), freshQ := true, freshM := true }

theorem windowClosed_emitted {u : State} {c : Nat} (hc : c < 512) (h : OnlyDue u) (sat : Bool) (x : Sample) (idx : Nat) :
    Emitted u c x idx (windowClosed u c sat x idx) := by
  have hsat : OnlyDue (u.when sat fun s => s.count (F.CH.SAT_CNT.CNT c)) :=
    QueueKept.when h fun h => h.setReg (by simp only []; omega)
  have hcount : OnlyDue ((u.when sat fun s => s.count (F.CH.SAT_CNT.CNT c)).count (F.CH.WIN_CNT.CNT c)) :=
    hsat.setReg (by simp only []; omega)
  have hjoin := Chained.kept.modJoin (c := c) (f := fun j => { j with avg := true }) (Chained.refl hcount)
  have hreg (a : Nat) (ha : a ≠ (F.CH.SAT_CNT.CNT c).addr) :
      (u.when sat fun s => s.count (F.CH.SAT_CNT.CNT c)).reg a = u.reg a := by
    cases sat
    · rfl
    · exact reg_setFld_ne u _ a _ ha
  refine ⟨hjoin.due, fun a ha => ?_, ?_, ?_, ?_⟩
  · refine (hjoin.reg a fun hm => ha (.inl hm)).trans ?_
    exact (reg_setFld_ne _ _ a _ fun e => ha (.inr (.inr e))).trans (hreg a fun e => ha (.inr (.inl e)))
  · refine (hjoin.fld _ (not_chainAddr_chan hc (by decide))).trans ((fld_count_same _ (F.CH.WIN_CNT.CNT c) 1 (Nat.le_refl 32)).trans ?_)
    rw [State.fld, hreg _ (by simp only []; omega), State.fld]
  · refine hjoin.slice.trans ?_
    cases sat <;> rfl
  · rw [windowClosed, getChan_modChan_same]
    have hlast : wordOf (State.getChan _ c) = wordOf (u.getChan c) := (hjoin.word c).trans (by cases sat <;> rfl)
    simp only [wordOf, Prod.mk.injEq] at hlast ⊢
    exact ⟨trivial, trivial, trivial, trivial, hlast.2.2.2.2⟩

/-- The word that a window gives when its sum and flags are those of `w` (R163, R164). -/
def windowWord (u : State) (c : Nat) (w : Window) : Sample :=
  let y := averagerValue w.sum (u.bit (F.CH.AVG_CFG.RND c)) (u.fld (F.CH.AVG_CFG.SHIFT c))
  ⟨y.1, { w.fl with ovr := w.fl.ovr || y.2, rtr := w.fl.rtr || false }⟩

theorem avgEmit_eq (u : State) (c : Nat) (hcnt : (u.getChan c).win.cnt ≠ 0) : ∃ sat m, u.avgEmit c false
    = (windowClosed u c sat (windowWord u c (u.getChan c).win) (u.getChan c).win.lastIdx).chainWord c
        (windowWord u c (u.getChan c).win) (u.getChan c).win.lastIdx (u.getChan c).win.lastN m := by
  let sat := (averagerValue (u.getChan c).win.sum (u.bit (F.CH.AVG_CFG.RND c)) (u.fld (F.CH.AVG_CFG.SHIFT c))).2
  let closed := windowClosed u c sat (windowWord u c (u.getChan c).win) (u.getChan c).win.lastIdx
  exact ⟨sat, (u.getChan c).win.lastOrd / closed.avgN c, if_neg hcnt⟩

theorem avgEmit_emitted {u : State} {c : Nat} (hc : c < 512) (h : OnlyDue u) (hcnt : (u.getChan c).win.cnt ≠ 0) :
    Emitted u c (windowWord u c (u.getChan c).win) (u.getChan c).win.lastIdx (u.avgEmit c false) := by
  obtain ⟨sat, m, hemit⟩ := avgEmit_eq u c hcnt
  rw [hemit]
  have hw := windowClosed_emitted hc h sat (windowWord u c (u.getChan c).win) (u.getChan c).win.lastIdx
  exact hw.chained hc (Chained.kept.chainWord (Chained.refl hw.due) hc)

/-- The window of a channel with one conversion more (R161, R162, R164). -/
def windowTaken (u : State) (c : Nat) (x : Sample) (idx n j : Nat) : Window :=
  let w := (u.getChan c).win
  { cnt := w.cnt + 1, sum := w.sum + x.val, fl := orFlags w.fl x.fl, m := if w.cnt = 0 then j / u.avgN c else w.m,
    lastIdx := idx, lastN := n, lastOrd := j }

def withWindow (u : State) (c : Nat) (w : Window) : State := u.modChan c fun h => { h with win := w }

theorem getChan_withWindow (u : State) (c : Nat) (w : Window) : (withWindow u c w).getChan c = { u.getChan c with win := w } :=
  getChan_modChan_same _ _ _

/-- A conversion that no window closes before joins the window. -/
theorem avgEnter_eq (u : State) (c : Nat) (x : Sample) (idx n j : Nat)
    (h : ¬ (0 < (u.getChan c).win.cnt ∧ u.avgAlign c = true ∧ (u.getChan c).win.m < j / u.avgN c)) :
    u.avgEnter c x idx n j =
      if (u.avgAlign c = true ∧ (windowTaken u c x idx n j).m * u.avgN c + u.avgN c ≤ j + 1)
        ∨ (u.avgAlign c = false ∧ u.avgN c ≤ (windowTaken u c x idx n j).cnt)
      then (withWindow u c (windowTaken u c x idx n j)).avgClose c else withWindow u c (windowTaken u c x idx n j) := by
  unfold State.avgEnter
  dsimp only
  rw [if_neg h]
  rfl

/-- With N = 1 a conversion closes the window that it opens (R162, R163). -/
theorem avgEnter_single {u : State} {c : Nat} (hc : c < 512) (h : OnlyDue u) (hN : u.avgN c = 1) (hcnt : (u.getChan c).win.cnt = 0)
    (x : Sample) (idx n j : Nat) : Emitted u c (windowWord u c (windowTaken u c x idx n j)) idx (u.avgEnter c x idx n j) := by
  have hcnt' : (windowTaken u c x idx n j).cnt = 1 := congrArg (· + 1) hcnt
  have hm : (windowTaken u c x idx n j).m = j := by simp only [windowTaken, hcnt, if_true, hN, Nat.div_one]
  have henter : u.avgEnter c x idx n j = (withWindow u c (windowTaken u c x idx n j)).avgClose c := by
    rw [avgEnter_eq u c x idx n j (by omega), if_pos]
    rw [hm, hcnt', hN]
    cases u.avgAlign c <;> simp
  have hemit : Emitted u c (windowWord u c (windowTaken u c x idx n j)) idx ((withWindow u c (windowTaken u c x idx n j)).avgEmit c false) := by
    have hw := avgEmit_emitted (u := withWindow u c (windowTaken u c x idx n j)) hc h (by rw [getChan_withWindow, hcnt']; exact Nat.one_ne_zero)
    rw [getChan_withWindow] at hw
    refine ⟨hw.due, hw.reg, hw.cnt, hw.slice, hw.word.trans ?_⟩
    rw [getChan_withWindow]
    rfl
  have hfull : ((withWindow u c (windowTaken u c x idx n j)).avgEmit c false).avgN c = 1 := by
    rw [← hN, State.avgN, State.fld, hemit.reg]
    · rfl
    · exact not_wordAddr_chan hc (by decide)
  have hclose : (withWindow u c (windowTaken u c x idx n j)).avgClose c = (withWindow u c (windowTaken u c x idx n j)).avgEmit c false := by
    rw [State.avgClose, hfull, getChan_withWindow, hcnt']
    exact if_neg fun h => absurd h.2 (Nat.lt_irrefl 1)
  rw [henter, hclose]
  exact hemit

/-! ## The word of a conversion with N = 1 (R155, R161) -/

/-- The value of the word of a conversion (R97, R130). -/
def convValue (u : State) (c : Nat) (code : Int) (fl : Flags) : Int :=
  if fl.blk then (u.getChan c).lastVal else rangeValue code (u.bit (F.CH.FE_STS.AR_LOW c)) (u.ownFactor c)

theorem convOut_leads {u : State} {p : Pass} (hlead : u.leads = true) (hprod : u.produces p.tick.idx = true)
    (hsub : u.pair.subBefore ≤ p.tick.idx) (n l j : Nat) (code : Int) (fl : Flags) : ∃ w, u.convOut n p l j code fl
    = ((u.avgEnter (16 * p.group + l) ⟨convValue u (16 * p.group + l) code fl, fl⟩ p.tick.idx p.tick.n j).modChan (16 * p.group + l)
        fun x => { x with lastVal := convValue u (16 * p.group + l) code fl }).modPass n fun q => { q with codes := w :: q.codes } := by
  have hnot : ¬ p.tick.idx < u.pair.subBefore := by omega
  refine ⟨codeWord code (u.bit (F.CH.FE_STS.AR_LOW (16 * p.group + l))) fl, ?_⟩
  unfold State.convOut
  dsimp only
  rw [if_pos hlead, if_neg (by simp [hprod])]
  simp only [hnot, decide_false, Bool.false_eq_true, false_and, if_false, Bool.or_false]
  rfl

/-- With no operation left after it the pass has nothing more to do at once. -/
theorem passNext_last {u : State} {n : Nat} {q : Pass} (hpass : (u.getSlice n).pass = some q) (hops : q.ops.drop 1 = []) :
    u.passNext n = u.modPass n fun q => { q with ops := q.ops.drop 1 } := by
  have hget : ((u.modPass n fun q => { q with ops := q.ops.drop 1 }).getSlice n).pass = some { q with ops := [] } := by
    rw [State.modPass, getSlice_modSlice_same, hpass, ← hops]
    rfl
  rw [State.passNext, State.passSettle, hget]
  rfl

end Sys2Proof.TickProofs

namespace Sys2Proof.TickProofs

open Sys2Proof Sys2Proof.Machine Sys2Proof.Laws Sys2Proof.ScopeProofs Sys2Proof.TimeProofs

/-- After the word `x` of tick `idx`, of a conversion of value `v`, the pass of slice `n` has nothing left. -/
structure WordOut (u : State) (n c : Nat) (x : Sample) (idx : Nat) (v : Int) (t : State) : Prop where
  reg : ∀ a, ¬ wordAddr c a → t.reg a = u.reg a
  cnt : t.fld (F.CH.WIN_CNT.CNT c) = min (2 ^ (F.CH.WIN_CNT.CNT c).width - 1) (u.fld (F.CH.WIN_CNT.CNT c) + 1)
  word : wordOf (t.getChan c) = ({}, some (x, idx), true, true, v)
  ops : (t.getSlice n).pass.map Pass.ops = some []

section
variable {s u : State} {n : Nat} {p : Pass} {l j : Nat} {live : Bool} (hpass : (u.getSlice n).pass = some p) (hops : p.ops = [.conv l live j])
include hpass hops

/-- The conversion of a pass with nothing left after it gives its word, and the pass has nothing left. -/
theorem convOut_wordOut (due : OnlyDue u) (hlead : u.leads = true) (hprod : u.produces p.tick.idx = true)
    (hsub : u.pair.subBefore ≤ p.tick.idx) (hc : 16 * p.group + l < 512) (hN : u.avgN (16 * p.group + l) = 1)
    (hcnt : (u.getChan (16 * p.group + l)).win.cnt = 0) (code : Int) (fl : Flags) (v : Int)
    (hv : convValue u (16 * p.group + l) code fl = v) :
    OnlyDue ((u.convOut n p l j code fl).passNext n) ∧ WordOut u n (16 * p.group + l)
      (windowWord u (16 * p.group + l) (windowTaken u (16 * p.group + l) ⟨v, fl⟩ p.tick.idx p.tick.n j)) p.tick.idx v
      (State.serveDue 1024 ((u.convOut n p l j code fl).passNext n)) := by
  obtain ⟨w, hout⟩ := convOut_leads hlead hprod hsub n l j code fl
  have hemit := avgEnter_single hc due hN hcnt ⟨v, fl⟩ p.tick.idx p.tick.n j
  rw [hv] at hout
  generalize (u.avgEnter _ _ _ _ _) = e at hemit hout
  have hcodes : (((e.modChan (16 * p.group + l) fun x => { x with lastVal := v }).modPass n fun q =>
      { q with codes := w :: q.codes }).getSlice n).pass = some { p with codes := w :: p.codes } := by
    have hslice : (State.getSlice (e.modChan (16 * p.group + l) fun x => { x with lastVal := v }) n).pass = some p := by
      rw [State.getSlice, State.modChan, State.setChan, hemit.slice]
      exact hpass
    rw [State.modPass, getSlice_modSlice_same, hslice]
    rfl
  rw [hout, passNext_last hcodes (by simp [hops])]
  generalize hT : State.modPass (State.modPass _ _ _) _ _ = T
  have hdue : OnlyDue T := hT ▸ hemit.due
  have hserve := Chained.kept.queue.serveDue (n := 1024) (Chained.refl hdue)
  refine ⟨hdue, ?_, ?_, ?_, ?_⟩
  · intro a ha
    rw [hserve.reg a fun hm => ha (.inl hm), ← hT]
    exact hemit.reg a ha
  · rw [hserve.fld _ (not_chainAddr_chan hc (by decide)), ← hT]
    exact hemit.cnt
  · have hchan : T.getChan (16 * p.group + l) = { e.getChan (16 * p.group + l) with lastVal := v } := by
      rw [← hT]
      exact getChan_modChan_same e (16 * p.group + l) fun x => { x with lastVal := v }
    have hword := hemit.word
    rw [hserve.word, hchan]
    simp only [wordOf, Prod.mk.injEq] at hword ⊢
    obtain ⟨hwin, hres, hfreshQ, hfreshM, -⟩ := hword
    exact ⟨hwin, hres, hfreshQ, hfreshM, trivial⟩
  · rw [State.getSlice, hserve.slice, ← State.getSlice, ← hT, State.modPass, getSlice_modSlice_same, hcodes]
    simp [hops]
end

/-! ## What a conversion does first (R155) -/

/-- The conversion is counted, with the longest duration so far. -/
def converted (s : State) (n : Nat) (r : ConvIn) : State :=
  (s.count (F.SLICE.CONV_CNT.CNT n)).setFld (F.SLICE.CONV_TMAX.TMAX n) (max (s.fld (F.SLICE.CONV_TMAX.TMAX n)) (satNat 1023 r.ns))

theorem converted_calm (s : State) (n : Nat) (r : ConvIn) :
    Calm [(F.SLICE.CONV_CNT.CNT n).addr, (F.SLICE.CONV_TMAX.TMAX n).addr] s (converted s n r) :=
  (Calm.count s _ 1 (by simp)).trans (Calm.setFld _ _ _ (by simp))

theorem converted_cnt (s : State) (n : Nat) (r : ConvIn) : (converted s n r).fld (F.SLICE.CONV_CNT.CNT n)
    = min (2 ^ (F.SLICE.CONV_CNT.CNT n).width - 1) (s.fld (F.SLICE.CONV_CNT.CNT n) + 1) :=
  (fld_setFld_addr _ _ _ _ (by simp only []; omega)).trans (fld_count_same s (F.SLICE.CONV_CNT.CNT n) 1 (Nat.le_refl 32))

theorem converted_tmax (s : State) (n : Nat) (r : ConvIn) :
    (converted s n r).fld (F.SLICE.CONV_TMAX.TMAX n) = max (s.fld (F.SLICE.CONV_TMAX.TMAX n)) (satNat 1023 r.ns) := by
  refine (fld_setFld_same _ (F.SLICE.CONV_TMAX.TMAX n) _ (by simp only []; omega)).trans (Nat.mod_eq_of_lt ?_)
  have hfld : s.fld (F.SLICE.CONV_TMAX.TMAX n) < 2 ^ 10 := fld_lt s (F.SLICE.CONV_TMAX.TMAX n)
  have hsat : satNat 1023 r.ns ≤ 1023 := by
    unfold satNat
    split <;> omega
  exact Nat.max_lt.2 ⟨hfld, Nat.lt_succ_of_le hsat⟩

section
variable {s : State} {n : Nat} {p : Pass} {l j : Nat} {r : ConvIn} (hpass : (s.getSlice n).pass = some p)
  (hstall : s.stalledAt (pgSLICE n) = false)
include hpass hstall

theorem passHead_of_pass : s.passHead n = p.ops.head?.map fun o => (p, o) := by
  rw [State.passHead, hstall, if_neg Bool.false_ne_true, hpass]

theorem convComplete_eq {live : Bool} (hops : p.ops = [.conv l live j]) (hdwell : s.cal.dwell = none) :
    s.convComplete n r = (if live then (converted s n r).liveConv n p l r else (converted s n r).holdConv n p l j r).passNext n := by
  have hmax : (s.count (F.SLICE.CONV_CNT.CNT n)).fld (F.SLICE.CONV_TMAX.TMAX n) = s.fld (F.SLICE.CONV_TMAX.TMAX n) :=
    fld_count_other _ _ _ _ (by simp only []; omega)
  have hshadow : (converted s n r).shadowConv n p.tick.idx r = (r, converted s n r) := by
    rw [State.shadowConv, show (converted s n r).cal.dwell = none from hdwell]
  unfold State.convComplete
  rw [passHead_of_pass hpass hstall, hops]
  cases live
  · simp only [List.head?_cons, Option.map_some, hmax]
    rw [← converted, if_neg Bool.false_ne_true, if_neg Bool.false_ne_true, hshadow]
  · simp only [List.head?_cons, Option.map_some, hmax]
    rfl

end

theorem calSample_idle {u : State} (h : u.cal.dwell = none) (n : Nat) (raw c : Int) (ok : Bool) (duty idle : Option (BitVec 24)) :
    u.calSample n raw c ok duty idle = u := by
  rw [State.calSample, h]

/-- After a bad strobe echo a BLK word takes the place of the conversion (R97). -/
theorem holdConv_bad {u : State} {p : Pass} (hdwell : u.cal.dwell = none) (hbad : p.tick.bad.getLsbD p.group = true) (n l j : Nat)
    (r : ConvIn) : u.holdConv n p l j r = u.convOut n p l j 0 blkFlags := by
  unfold State.holdConv
  dsimp only
  rw [calSample_idle hdwell, if_pos hbad]

/-- The flags of a conversion that passes the checks of its hold (R117, R128, R203). -/
def holdFlags (p : Pass) (l : Nat) : Flags := { ovr := p.ovrAt.getLsbD l, rtr := p.rtrAt.getLsbD l, cals := p.cals }

/-- The result of the common-mode check is shown (R134). -/
def checkShown (u : State) (c : Nat) (r : ConvIn) : State := u.setBit (F.CH.FE_STS.CM_FAIL c) r.cmFail

theorem openCheck_passes {u : State} {c : Nat} (h : u.bit (F.CH.FE_STS.OPN_ACTIVE c) = false) (idx : Nat) :
    u.openCheck c idx false = (false, u) := by
  unfold State.openCheck
  dsimp only
  rw [if_neg Bool.false_ne_true, if_pos h]
  rfl

/-- OPN begins with a hold that fails its checks, and the conversion is counted (R135, R136). -/
def openBegun (u : State) (c idx : Nat) : State :=
  ((u.modChan c fun x => { x with opnPass := 0, opnHold := some idx, opnHoldOk := false }).opnBegin c).count (F.CH.OPN_CNT.CNT c)

theorem openCheck_fails {u : State} {c : Nat} (h : u.bit (F.CH.FE_STS.OPN_ACTIVE c) = false) (idx : Nat) :
    u.openCheck c idx true = (true, openBegun u c idx) := by
  unfold State.openCheck
  dsimp only
  rw [if_pos rfl, h]
  rfl

theorem autorange_idle {u : State} {c : Nat} {fl : Flags}
    (h : u.bit (F.CH.FE_CFG.AR_EN c) = false ∨ u.leads = false ∨ fl.opn = true) (code : Int) : u.autorange c code fl = u := by
  refine if_pos ?_
  rcases h with h | h | h
  · exact .inl h
  · exact .inr (.inl h)
  · exact .inr (.inr (.inr (.inr (.inr h))))

section
variable {u : State} {p : Pass} {l : Nat} {r : ConvIn} (hdwell : u.cal.dwell = none) (hbad : p.tick.bad.getLsbD p.group = false)
include hdwell hbad

/-- A hold that passes its checks (R134). -/
theorem holdConv_passes (hcm : r.cmFail = false) (hexc : (checkShown u (16 * p.group + l) r).excApplies (16 * p.group + l) = false)
    (hopn : (checkShown u (16 * p.group + l) r).bit (F.CH.FE_STS.OPN_ACTIVE (16 * p.group + l)) = false)
    (har : (checkShown u (16 * p.group + l) r).bit (F.CH.FE_CFG.AR_EN (16 * p.group + l)) = false
      ∨ (checkShown u (16 * p.group + l) r).leads = false) (n j : Nat) :
    u.holdConv n p l j r = (checkShown u (16 * p.group + l) r).convOut n p l j (correct p.par r.raw.toInt) (holdFlags p l) := by
  unfold State.holdConv
  dsimp only
  rw [calSample_idle hdwell, if_neg (by simp [hbad]), ← checkShown, hcm, hexc, Bool.false_and, Bool.false_and, Bool.or_false,
    openCheck_passes hopn]
  dsimp only
  rw [autorange_idle (har.imp_right .inl)]
  rfl

/-- A hold outside the common-mode window (R134, R135). -/
theorem holdConv_cmFails (hcm : r.cmFail = true)
    (hopn : (checkShown u (16 * p.group + l) r).bit (F.CH.FE_STS.OPN_ACTIVE (16 * p.group + l)) = false) (n j : Nat) :
    u.holdConv n p l j r = (openBegun (checkShown u (16 * p.group + l) r) (16 * p.group + l) p.tick.idx).convOut n p l j
      (correct p.par r.raw.toInt) { holdFlags p l with opn := true } := by
  unfold State.holdConv
  dsimp only
  rw [calSample_idle hdwell, if_neg (by simp [hbad]), ← checkShown, hcm, Bool.true_or, openCheck_fails hopn]
  dsimp only
  rw [autorange_idle (.inr (.inr rfl))]
  rfl
end

/-! ## From the conversion to its word -/

/-- The registers that a conversion of slice `n` on channel `c` touches before its word leaves the averager. -/
def convRegs (n c : Nat) : List Nat :=
  [(F.SLICE.CONV_CNT.CNT n).addr, (F.SLICE.CONV_TMAX.TMAX n).addr, (F.CH.FE_STS.CM_FAIL c).addr, (F.CH.OPN_CNT.CNT c).addr,
    (F.FE.OPEN_STS.NOW (c / 16)).addr, 0x1000 * pgFE (c / 16) + 0x010]

theorem not_convRegs_chan {n o c : Nat} (hn : n < 34) (hc : c < 512) (ho : 0x080040 ≤ o ∧ o < 0x0800C0 ∧ o ≠ 0x080058 ∧ o ≠ 0x080060) :
    o + 0x1000 * (c / 16) + 0x80 * (c % 16) ∉ convRegs n c := by
  simp [convRegs, pgFE]
  omega

theorem not_convRegs_low {n a c : Nat} (ha : a < 0x020000) : a ∉ convRegs n c := by
  simp [convRegs, pgFE]
  omega

theorem exec_conversionComplete (sl : Fin 34) (r : ConvIn) (s : State) :
    exec (.conversionComplete sl r) s = act (fun s => s.convComplete sl.val r) s := rfl

theorem leads_of_calm {s u : State} {l : List Nat} (h : Calm l s u) (hl : 0x00D048 ∉ l) : u.leads = s.leads := by
  rw [State.leads, State.role, h.fld _ hl, State.leads, State.role]

theorem windowWord_of_calm {s u : State} {n c : Nat} (hn : n < 34) (hc : c < 512) (h : Calm (convRegs n c) s u)
    (hwin : (u.getChan c).win = (s.getChan c).win) (x : Sample) (idx g j : Nat) :
    windowWord u c (windowTaken u c x idx g j) = windowWord s c (windowTaken s c x idx g j) := by
  rw [windowWord, windowTaken, State.avgN, h.bit _ (not_convRegs_chan hn hc (by decide)), h.fld _ (not_convRegs_chan hn hc (by decide)),
    h.fld _ (not_convRegs_chan hn hc (by decide)), hwin]
  rfl

end Sys2Proof.TickProofs

namespace Sys2Proof.TickProofs

open Sys2Proof Sys2Proof.Machine Sys2Proof.Laws Sys2Proof.ScopeProofs Sys2Proof.TimeProofs

/-- What a conversion makes of the state before its code goes out. -/
structure Measured (s : State) (n c : Nat) (r : ConvIn) (u : State) : Prop where
  calm : Calm (convRegs n c) s u
  slice : u.slice = s.slice
  pair : u.pair = s.pair
  win : (u.getChan c).win = (s.getChan c).win
  last : (u.getChan c).lastVal = (s.getChan c).lastVal
  cnt : u.fld (F.SLICE.CONV_CNT.CNT n) = min (2 ^ (F.SLICE.CONV_CNT.CNT n).width - 1) (s.fld (F.SLICE.CONV_CNT.CNT n) + 1)
  tmax : u.fld (F.SLICE.CONV_TMAX.TMAX n) = max (s.fld (F.SLICE.CONV_TMAX.TMAX n)) (satNat 1023 r.ns)

namespace Measured

variable {s u : State} {n c : Nat} {r : ConvIn} (h : Measured s n c r u)
include h

theorem leads : u.leads = s.leads := leads_of_calm h.calm (not_convRegs_low (by decide))

theorem produces (i : Nat) : u.produces i = s.produces i := by rw [State.produces, h.pair, State.produces]

theorem pass : (u.getSlice n).pass = (s.getSlice n).pass := by rw [State.getSlice, h.slice, State.getSlice]

theorem avgN (hn : n < 34) (hc : c < 512) : u.avgN c = s.avgN c :=
  congrArg (· + 1) (h.calm.fld (F.CH.AVG_CFG.N_M1 c) (not_convRegs_chan hn hc (by decide)))

end Measured

section
variable {s : State} {n : Nat} {p : Pass} {l j : Nat} {r : ConvIn} (hs : s.quiet = true) (hpass : (s.getSlice n).pass = some p)
  (hstall : s.stalledAt (pgSLICE n) = false) (hops : p.ops = [.conv l false j]) (hdwell : s.cal.dwell = none) (hn : n < 34)
  (hc : 16 * p.group + l < 512)
include hs hpass hstall hops hdwell hn hc

/-- A conversion with N = 1 completes: after what it makes of the state, its word leaves the averager. -/
theorem conversion_wordOut {u : State} (hu : Measured s n (16 * p.group + l) r u) {code : Int} {fl : Flags} {v : Int}
    (hconv : (converted s n r).holdConv n p l j r = u.convOut n p l j code fl)
    (hlead : s.leads = true) (hprod : s.produces p.tick.idx = true) (hsub : s.pair.subBefore ≤ p.tick.idx)
    (hN : s.avgN (16 * p.group + l) = 1) (hcnt : (s.getChan (16 * p.group + l)).win.cnt = 0)
    (hv : convValue u (16 * p.group + l) code fl = v) :
    ∃ t, act (fun s => s.convComplete n r) s = .next t ∧ WordOut u n (16 * p.group + l)
      (windowWord s (16 * p.group + l) (windowTaken s (16 * p.group + l) ⟨v, fl⟩ p.tick.idx p.tick.n j)) p.tick.idx v t := by
  have hquiet : u.quiet = true := (hu.calm.quiet (not_convRegs_low (by decide))).trans hs
  obtain ⟨hdue, hout⟩ := convOut_wordOut (hu.pass.trans hpass) hops (OnlyDue.of_quiet hquiet) (hu.leads.trans hlead)
    ((hu.produces _).trans hprod) (hu.pair ▸ hsub) hc ((hu.avgN hn hc).trans hN) (hu.win ▸ hcnt) code fl v hv
  have hdone : s.convComplete n r = (u.convOut n p l j code fl).passNext n := by
    rw [convComplete_eq hpass hstall hops hdwell, if_neg Bool.false_ne_true, hconv]
  refine ⟨_, act_onlyDue hs hdone hdue, ?_⟩
  rw [windowWord_of_calm hn hc hu.calm hu.win] at hout
  exact ⟨hout.reg, hout.cnt, hout.word, hout.ops⟩

end

theorem converted_measured {s : State} {n : Nat} (c : Nat) (r : ConvIn) : Measured s n c r (converted s n r) :=
  ⟨(converted_calm s n r).mono (by simp [convRegs]), rfl, rfl, rfl, rfl, converted_cnt s n r, converted_tmax s n r⟩

theorem checkShown_measured {s : State} {n : Nat} (hn : n < 34) (c : Nat) (r : ConvIn) :
    Measured s n c r (checkShown (converted s n r) c r) := by
  have hfld (f : Fld) (hf : f.addr < 0x080000) : (checkShown (converted s n r) c r).fld f = (converted s n r).fld f :=
    fld_setFld_addr _ _ _ _ (by simp only []; omega)
  refine ⟨(converted_measured c r).calm.trans (Calm.setBit _ _ _ (by simp [convRegs])), rfl, rfl, rfl, rfl, ?_, ?_⟩
  · exact (hfld _ (by simp only []; omega)).trans (converted_cnt s n r)
  · exact (hfld _ (by simp only []; omega)).trans (converted_tmax s n r)

/-- The check itself is one bit of FE_STS. -/
theorem checkShown_bit {s : State} {n c : Nat} (hn : n < 34) (r : ConvIn) (lo : Nat) (hlo : lo < 7 ∨ 7 < lo) :
    (checkShown (converted s n r) c r).bit ⟨(F.CH.FE_STS.CM_FAIL c).addr, lo, 1⟩ = s.bit ⟨(F.CH.FE_STS.CM_FAIL c).addr, lo, 1⟩ := by
  refine (bit_setBit_other _ _ (F.CH.FE_STS.CM_FAIL c) _ (.inr (by simp only []; omega))).trans ?_
  exact (converted_calm s n r).bit _ (by simp; omega)

theorem checkShown_shows (u : State) (c : Nat) (r : ConvIn) : (checkShown u c r).bit (F.CH.FE_STS.CM_FAIL c) = r.cmFail :=
  bit_setBit_same u (F.CH.FE_STS.CM_FAIL c) r.cmFail (show 7 + 1 ≤ 32 by decide) rfl

theorem checkShown_excApplies {s : State} {n c : Nat} (hn : n < 34) (hc : c < 512) (r : ConvIn) :
    (checkShown (converted s n r) c r).excApplies c = s.excApplies c := by
  have h := (checkShown_measured (s := s) hn c r).calm
  rw [State.excApplies, h.fld _ (not_convRegs_chan hn hc (by decide)), h.bit _ (not_convRegs_chan hn hc (by decide)), State.excApplies]

/-! ## OPN begins (R135) -/

/-- The registers that the beginning of OPN touches. -/
def openRegs (c : Nat) : List Nat :=
  [(F.CH.FE_STS.CM_FAIL c).addr, (F.CH.OPN_CNT.CNT c).addr, (F.FE.OPEN_STS.NOW (c / 16)).addr, 0x1000 * pgFE (c / 16) + 0x010]

/-- OPN is shown, before OPEN is raised and the conversion counted. -/
def openShown (u : State) (c idx : Nat) : State :=
  let u := ((u.modChan c fun x => { x with opnPass := 0, opnHold := some idx, opnHoldOk := false }).setBit (F.CH.FE_STS.OPN_ACTIVE c) true).setFld
    (F.FE.OPEN_STS.NOW (c / 16)) (u.fld (F.FE.OPEN_STS.NOW (c / 16)) ||| 2 ^ (c % 16))
  u.setFld (F.FE.OPEN_STS.SEEN (c / 16)) (u.fld (F.FE.OPEN_STS.SEEN (c / 16)) ||| 2 ^ (c % 16))

theorem openBegun_eq (u : State) (c idx : Nat) :
    openBegun u c idx = ((openShown u c idx).raiseInt (Irq.open_ (c / 16))).count (F.CH.OPN_CNT.CNT c) := rfl

theorem openShown_calm (u : State) (c idx : Nat) : Calm (openRegs c) u (openShown u c idx) := by
  have hchan : Calm (openRegs c) u (u.modChan c fun x => { x with opnPass := 0, opnHold := some idx, opnHoldOk := false }) :=
    ⟨fun _ _ => rfl, rfl, rfl, rfl, rfl, rfl, rfl⟩
  exact ((hchan.trans (Calm.setBit _ _ _ (by simp [openRegs]))).trans (Calm.setFld _ _ _ (by simp [openRegs]))).trans
    (Calm.setFld _ _ _ (by simp [openRegs]))

theorem openBegun_calm {u : State} {c : Nat} (idx : Nat) (hb : u.bit (F.HDR.INT_ROUTE.INBAND (pgFE (c / 16))) = false) :
    Calm (openRegs c) u (openBegun u c idx) := by
  have hshown := openShown_calm u c idx
  have hb' : (openShown u c idx).bit (F.HDR.INT_ROUTE.INBAND (pgFE (c / 16))) = false :=
    (hshown.bit _ (by simp [openRegs, pgFE]; omega)).trans hb
  rw [openBegun_eq]
  exact (hshown.trans (Calm.raiseInt _ (Irq.open_ (c / 16)) hb' (by simp [openRegs]))).trans (Calm.count _ _ _ (by simp [openRegs]))

/-- A bit that is set in a field of 16 bits is seen there. -/
theorem testBit_setFld_or (u : State) (f : Fld) (hf : f.lo + f.width ≤ 32) {x k : Nat} (hk : k < f.width) :
    ((u.setFld f (x ||| 2 ^ k)).fld f).testBit k = true := by
  rw [fld_setFld_same _ _ _ hf, Nat.testBit_mod_two_pow, Nat.testBit_or, Nat.testBit_two_pow_self]
  simp [hk]

/-- What OPN shows of a channel and its group. -/
structure OpenTold (u : State) (c : Nat) (t : State) : Prop where
  active : t.bit (F.CH.FE_STS.OPN_ACTIVE c) = true
  now : (t.fld (F.FE.OPEN_STS.NOW (c / 16))).testBit (c % 16) = true
  seen : (t.fld (F.FE.OPEN_STS.SEEN (c / 16))).testBit (c % 16) = true
  cnt : t.fld (F.CH.OPN_CNT.CNT c) = min (2 ^ (F.CH.OPN_CNT.CNT c).width - 1) (u.fld (F.CH.OPN_CNT.CNT c) + 1)
  irq : (t.reg (0x1000 * pgFE (c / 16) + 0x010)).getLsbD (Irq.open_ (c / 16)).bit = true

theorem openBegun_told (u : State) (c idx : Nat) : OpenTold u c (openBegun u c idx) := by
  have hafter (f : Fld) (hf : f.addr ≠ (F.CH.OPN_CNT.CNT c).addr) (hf' : f.addr ≠ 0x1000 * pgFE (c / 16) + 0x010) :
      (openBegun u c idx).fld f = (openShown u c idx).fld f := by
    rw [openBegun_eq]
    exact (fld_setFld_addr _ _ _ _ hf).trans (raiseInt_fld _ _ _ hf')
  refine ⟨?_, ?_, ?_, ?_, ?_⟩
  · rw [State.bit, hafter _ (by simp only []; omega) (by simp only [pgFE]; omega), ← State.bit]
    refine (bit_setFld_other _ _ (F.FE.OPEN_STS.SEEN (c / 16)) _ (.inl (by simp only []; omega))).trans ?_
    refine (bit_setFld_other _ _ (F.FE.OPEN_STS.NOW (c / 16)) _ (.inl (by simp only []; omega))).trans ?_
    exact bit_setBit_same _ (F.CH.FE_STS.OPN_ACTIVE c) true (show 6 + 1 ≤ 32 by decide) rfl
  · rw [hafter _ (by simp only []; omega) (by simp only [pgFE]; omega)]
    refine (congrArg (fun x => Nat.testBit x (c % 16)) (fld_setFld_other _ _ (F.FE.OPEN_STS.SEEN (c / 16)) _ (.inr (.inr ?_)))).trans ?_
    · exact Nat.le_refl 16
    · exact testBit_setFld_or _ (F.FE.OPEN_STS.NOW (c / 16)) (Nat.le_refl 32) (Nat.mod_lt c (by decide))
  · rw [hafter _ (by simp only []; omega) (by simp only [pgFE]; omega)]
    exact testBit_setFld_or _ (F.FE.OPEN_STS.SEEN (c / 16)) (show 0 + 16 ≤ 32 by decide) (Nat.mod_lt c (by decide))
  · have hold : ((openShown u c idx).raiseInt (Irq.open_ (c / 16))).fld (F.CH.OPN_CNT.CNT c) = u.fld (F.CH.OPN_CNT.CNT c) := by
      rw [raiseInt_fld _ _ _ (by simp only [pgFE]; omega)]
      refine (fld_setFld_addr _ _ _ _ ?_).trans ((fld_setFld_addr _ _ _ _ ?_).trans (fld_setFld_addr _ _ _ _ ?_)) <;> simp only [] <;> omega
    rw [openBegun_eq]
    exact (fld_count_same _ (F.CH.OPN_CNT.CNT c) 1 (Nat.le_refl 32)).trans (by rw [hold])
  · rw [openBegun_eq]
    refine (congrArg (fun v : Reg => v.getLsbD _) (reg_setFld_ne _ _ _ _ (by simp only [pgFE]; omega))).trans ?_
    exact raiseInt_irq _ (Irq.open_ (c / 16)) (show 0 < 32 by decide)

end Sys2Proof.TickProofs

namespace Sys2Proof.TickProofs

open Sys2Proof Sys2Proof.Machine Sys2Proof.Laws Sys2Proof.ScopeProofs Sys2Proof.TimeProofs

/-! ## The operations of a pass (R153 to R156) -/

theorem Calm.modSlice {l : List Nat} (s : State) (n : Nat) (f : Slice → Slice) : Calm l s (s.modSlice n f) :=
  ⟨fun _ _ => rfl, rfl, rfl, rfl, rfl, rfl, rfl⟩
theorem Calm.modChan {l : List Nat} (s : State) (c : Nat) (f : Chan → Chan) : Calm l s (s.modChan c f) :=
  ⟨fun _ _ => rfl, rfl, rfl, rfl, rfl, rfl, rfl⟩
theorem Calm.modPair {l : List Nat} (s : State) (f : Pair → Pair) : Calm l s (s.modPair f) := ⟨fun _ _ => rfl, rfl, rfl, rfl, rfl, rfl, rfl⟩

theorem modPass_eq {s : State} {n : Nat} {p : Pass} (hpass : (s.getSlice n).pass = some p) (f : Pass → Pass) :
    s.modPass n f = s.modSlice n fun x => { x with pass := some (f p) } := by
  rw [State.modPass, State.modSlice, State.modSlice, hpass]
  rfl

theorem getSlice_modPass {s : State} {n : Nat} {p : Pass} (hpass : (s.getSlice n).pass = some p) (f : Pass → Pass) :
    ((s.modPass n f).getSlice n).pass = some (f p) := by
  rw [modPass_eq hpass, getSlice_modSlice_same]

/-- An operation that is not passed over stays at the front (R153, R156). -/
theorem passNext_stays {s : State} {n : Nat} {p : Pass} {o : PassOp} {rest : List PassOp} (hpass : (s.getSlice n).pass = some p)
    (hops : p.ops.drop 1 = o :: rest) (hskip : (s.opSkipped p o).1 = false) :
    s.passNext n = s.modPass n fun q => { q with ops := q.ops.drop 1 } := by
  have hnext := getSlice_modPass hpass fun q => { q with ops := q.ops.drop 1 }
  have hskip' : ((s.modPass n fun q => { q with ops := q.ops.drop 1 }).opSkipped { p with ops := p.ops.drop 1 } o).1 = false := by
    rw [← hskip]
    cases o with
    | wait d own => cases own <;> rfl
    | conv l live j => rfl
  rw [State.passNext, State.passSettle, hnext]
  simp only [hops, List.length_cons] at hskip' hnext ⊢
  unfold State.passSkip
  rw [hnext]
  dsimp only
  exact if_pos hskip'

theorem exec_weaveDelay (sl : Fin 34) (s : State) : exec (.weaveDelay sl) s = act (fun s => s.weaveDelay sl.val) s := rfl

section
variable {s : State} {n : Nat} {p : Pass} {d : Nat} {o : Option (Nat × Bool)} (hs : s.quiet = true) (hpass : (s.getSlice n).pass = some p)
  (hstall : s.stalledAt (pgSLICE n) = false)
include hs hpass hstall

/-- A wait at the front ends. -/
theorem weaveDelay_next {rest : List PassOp} (hops : p.ops = .wait d o :: rest)
    (hnext : s.passNext n = s.modPass n fun q => { q with ops := q.ops.drop 1 }) :
    act (fun s => s.weaveDelay n) s = .next (s.modSlice n fun x => { x with pass := some { p with ops := rest } }) := by
  have hwait : s.weaveDelay n = s.modSlice n fun x => { x with pass := some { p with ops := rest } } := by
    rw [State.weaveDelay, passHead_of_pass hpass hstall, hops]
    refine hnext.trans ((modPass_eq hpass _).trans ?_)
    rw [hops]
    rfl
  exact (Calm.modSlice (l := []) _ _ _).act hs hwait List.not_mem_nil

end

/-! ## Conversions that give no word of their own -/

/-- A conversion that joins an open window (R161). -/
theorem avgEnter_joins {u : State} {c : Nat} (hal : u.avgAlign c = false) (hcnt : (u.getChan c).win.cnt + 1 < u.avgN c) (x : Sample)
    (idx n j : Nat) : u.avgEnter c x idx n j = withWindow u c (windowTaken u c x idx n j) := by
  have hlen : ¬ u.avgN c ≤ (windowTaken u c x idx n j).cnt := Nat.not_le.2 hcnt
  rw [avgEnter_eq u c x idx n j (by simp [hal]), if_neg (by simp [hal, hlen])]

theorem windowWord_opens {s : State} {c : Nat} (hsum : (s.getChan c).win.sum = 0) (hfl : (s.getChan c).win.fl = {}) (v : Int) (fl : Flags)
    (idx n j : Nat) : windowWord s c (windowTaken s c ⟨v, fl⟩ idx n j)
      = ⟨(averagerValue v (s.bit (F.CH.AVG_CFG.RND c)) (s.fld (F.CH.AVG_CFG.SHIFT c))).1,
          { fl with ovr := fl.ovr || (averagerValue v (s.bit (F.CH.AVG_CFG.RND c)) (s.fld (F.CH.AVG_CFG.SHIFT c))).2 }⟩ := by
  simp only [windowWord, windowTaken, hsum, hfl, orFlags, Int.zero_add, Bool.false_or, Bool.or_false]

/-! ## A conversion completes (R155, R156) -/

section
variable {s : State} {n : Nat} {p : Pass} {l j : Nat} {r : ConvIn} (hs : s.quiet = true) (hpass : (s.getSlice n).pass = some p)
  (hstall : s.stalledAt (pgSLICE n) = false) (hdwell : s.cal.dwell = none)
include hs hpass hstall hdwell

/-- A conversion that leaves nothing to settle, and after it nothing of its pass. -/
theorem conversion_calm {u : State} {live : Bool} {q : Pass} {regs : List Nat} (hops : p.ops = [.conv l live j])
    (hu : (if live then (converted s n r).liveConv n p l r else (converted s n r).holdConv n p l j r) = u)
    (hpass' : (u.getSlice n).pass = some q) (hq : q.ops = p.ops) (hcalm : Calm regs s u) (hl : 0x005040 ∉ regs) :
    act (fun s => s.convComplete n r) s = .next (u.modPass n fun q => { q with ops := q.ops.drop 1 })
      ∧ ((u.modPass n fun q => { q with ops := q.ops.drop 1 }).getSlice n).pass = some { q with ops := [] } := by
  have hdrop : q.ops.drop 1 = [] := by rw [hq, hops]; rfl
  have hdone : s.convComplete n r = u.modPass n fun q => { q with ops := q.ops.drop 1 } := by
    rw [convComplete_eq hpass hstall hops hdwell, hu, passNext_last hpass' hdrop]
  refine ⟨(hcalm.trans (Calm.modSlice _ _ _)).act hs hdone hl, ?_⟩
  rw [getSlice_modPass hpass', hdrop]

end

/-- A live code is shown and counted (R156). -/
def liveShown (u : State) (n l : Nat) (code : Int) : State :=
  ((u.setFld (F.SLICE.LIVE_CODE.CH n) l).setSfld (F.SLICE.LIVE_CODE.CODE n) code).count (F.SLICE.LIVE_CNT.CNT n)

theorem liveShown_calm (u : State) (n l : Nat) (code : Int) :
    Calm [(F.SLICE.LIVE_CODE.CH n).addr, (F.SLICE.LIVE_CNT.CNT n).addr] u (liveShown u n l code) :=
  ((Calm.setFld _ _ _ (by simp)).trans (Calm.setSfld _ _ _ (by simp))).trans (Calm.count _ _ _ (by simp))

theorem liveShown_code (u : State) (n l : Nat) (code : Int) :
    (liveShown u n l code).fld (F.SLICE.LIVE_CODE.CODE n) = unsigned (F.SLICE.LIVE_CODE.CODE n).width code :=
  (fld_setFld_addr _ _ _ _ (by simp only []; omega)).trans
    (fld_setSfld_same _ (F.SLICE.LIVE_CODE.CODE n) _ (show 0 + 24 ≤ 32 by decide))

theorem liveShown_ch (u : State) (n : Nat) {l : Nat} (hl : l < 16) (code : Int) :
    (liveShown u n l code).fld (F.SLICE.LIVE_CODE.CH n) = l := by
  refine (fld_setFld_addr _ _ _ _ (by simp only []; omega)).trans ?_
  refine (fld_setSfld_other _ _ (F.SLICE.LIVE_CODE.CODE n) _ (.inr (.inr (by decide : 0 + 24 ≤ 28)))).trans ?_
  exact (fld_setFld_same _ (F.SLICE.LIVE_CODE.CH n) _ (Nat.le_refl 32)).trans (Nat.mod_eq_of_lt hl)

theorem liveShown_cnt (u : State) (n l : Nat) (code : Int) : (liveShown u n l code).fld (F.SLICE.LIVE_CNT.CNT n)
    = min (2 ^ (F.SLICE.LIVE_CNT.CNT n).width - 1) (u.fld (F.SLICE.LIVE_CNT.CNT n) + 1) := by
  refine (fld_count_same _ (F.SLICE.LIVE_CNT.CNT n) 1 (Nat.le_refl 32)).trans ?_
  rw [State.setSfld, fld_setFld_addr _ _ _ _ (by simp only []; omega), fld_setFld_addr _ _ _ _ (by simp only []; omega)]

theorem liveConv_eq {u : State} (hdwell : u.cal.dwell = none) (n : Nat) (p : Pass) (l : Nat) (r : ConvIn) :
    u.liveConv n p l r = liveShown u n l (correct p.par r.raw.toInt) := by
  unfold State.liveConv
  dsimp only
  rw [calSample_idle hdwell]
  rfl

end Sys2Proof.TickProofs

namespace Sys2Proof.TickProofs

open Sys2Proof Sys2Proof.Machine Sys2Proof.Laws Sys2Proof.ScopeProofs Sys2Proof.TimeProofs

/-! ## A standby keeps its own codes (R386) -/

theorem leads_of_follows {s : State} (h : s.follows = true) : s.leads = false := by
  simp only [State.follows, State.leads, Bool.or_eq_true, decide_eq_true_eq, Bool.or_eq_false_iff, decide_eq_false_iff_not] at h ⊢
  simp only [roleStandby, roleJoining, roleSolo, roleActive] at h ⊢
  omega

theorem follows_of_calm {s u : State} {l : List Nat} (h : Calm l s u) (hl : 0x00D048 ∉ l) : u.follows = s.follows := by
  rw [State.follows, State.role, h.fld _ hl, State.follows, State.role]

/-- The own codes of the last 256 instants, with one more. -/
def ownKept (u : State) (o : OwnCode) : State :=
  u.modPair fun q => { q with own := o :: q.own.filter fun e => decide (o.n < e.n + 256) }

theorem ownKept_fld (u : State) (o : OwnCode) (f : Fld) : (ownKept u o).fld f = u.fld f := rfl
theorem modPass_fld (u : State) (n : Nat) (g : Pass → Pass) (f : Fld) : (u.modPass n g).fld f = u.fld f := rfl

/-- An own code that no mirrored code waits for. -/
theorem ownKeep_alone {u : State} (h : u.pair.mirr = []) (o : OwnCode) :
    u.ownKeep o = ownKept u o := by
  have hm : (ownKept u o).pair.mirr = [] := h
  unfold State.ownKeep
  dsimp only
  rw [← ownKept, hm]
  rfl

theorem convOut_follows {u : State} (h : u.follows = true) (n : Nat) (p : Pass) (l j : Nat) (code : Int) (fl : Flags) :
    u.convOut n p l j code fl = u.ownKeep ⟨p.tick.idx, p.tick.n, p.group, l, j, code, fl, u.bit (F.CH.FE_STS.AR_LOW (16 * p.group + l)),
      u.parked (16 * p.group + l)⟩ := by
  unfold State.convOut
  dsimp only
  rw [leads_of_follows h, if_neg Bool.false_ne_true, if_pos h]

theorem parked_of_calm {s u : State} {n c : Nat} (hn : n < 34) (hc : c < 512) (h : Calm (convRegs n c) s u) (hp : u.pair = s.pair) :
    u.parked c = s.parked c := by
  rw [State.parked, h.fld _ (not_convRegs_chan hn hc (by decide)), leads_of_calm h (not_convRegs_low (by decide)), hp, State.parked]

/-! ## What a conversion of a tick hold leaves (R155 to R163) -/

/-- A conversion whose hold passes its checks goes out as it is. -/
theorem converted_holdConv_passes {s : State} {n : Nat} {p : Pass} {l : Nat} {r : ConvIn} (hdwell : s.cal.dwell = none) (hn : n < 34)
    (hc : 16 * p.group + l < 512) (hbad : p.tick.bad.getLsbD p.group = false) (hcm : r.cmFail = false)
    (hexc : s.excApplies (16 * p.group + l) = false) (hopn : s.bit (F.CH.FE_STS.OPN_ACTIVE (16 * p.group + l)) = false)
    (har : s.bit (F.CH.FE_CFG.AR_EN (16 * p.group + l)) = false ∨ s.leads = false) (j : Nat) : (converted s n r).holdConv n p l j r
      = (checkShown (converted s n r) (16 * p.group + l) r).convOut n p l j (correct p.par r.raw.toInt) (holdFlags p l) := by
  have hcalm := (checkShown_measured (s := s) hn (16 * p.group + l) r).calm
  refine holdConv_passes (u := converted s n r) hdwell hbad hcm ((checkShown_excApplies hn hc r).trans hexc)
    ((checkShown_bit hn r 6 (by decide)).trans hopn) (har.imp (fun h => ?_) fun h => ?_) n j
  · exact (hcalm.bit _ (not_convRegs_chan hn hc (by decide))).trans h
  · exact (leads_of_calm hcalm (not_convRegs_low (by decide))).trans h

section
variable {s : State} {n : Nat} {p : Pass} {l j : Nat} {r : ConvIn} (hs : s.quiet = true) (hpass : (s.getSlice n).pass = some p)
  (hstall : s.stalledAt (pgSLICE n) = false) (hops : p.ops = [.conv l false j]) (hdwell : s.cal.dwell = none) (hn : n < 34)
  (hc : 16 * p.group + l < 512)
include hs hpass hstall hops hdwell hn hc

/-- On a hub that follows the code is kept. -/
theorem conversion_kept (hbad : p.tick.bad.getLsbD p.group = false) (hfol : s.follows = true) (hmirr : s.pair.mirr = [])
    (hcm : r.cmFail = false) (hexc : s.excApplies (16 * p.group + l) = false)
    (hopn : s.bit (F.CH.FE_STS.OPN_ACTIVE (16 * p.group + l)) = false) : ∃ t, act (fun s => s.convComplete n r) s = .next t
    ∧ t.pair.own.head? = some ⟨p.tick.idx, p.tick.n, p.group, l, j, correct p.par r.raw.toInt, holdFlags p l,
        s.bit (F.CH.FE_STS.AR_LOW (16 * p.group + l)), s.parked (16 * p.group + l)⟩
    ∧ t.fld (F.SLICE.CONV_CNT.CNT n) = min (2 ^ (F.SLICE.CONV_CNT.CNT n).width - 1) (s.fld (F.SLICE.CONV_CNT.CNT n) + 1)
    ∧ (t.getSlice n).pass = some { p with ops := [] } ∧ t.queue = s.queue := by
  have hu := checkShown_measured (s := s) hn (16 * p.group + l) r
  have hfol' : (checkShown (converted s n r) (16 * p.group + l) r).follows = true :=
    (follows_of_calm hu.calm (not_convRegs_low (by decide))).trans hfol
  have hconv : (converted s n r).holdConv n p l j r
      = ownKept (checkShown (converted s n r) (16 * p.group + l) r) ⟨p.tick.idx, p.tick.n, p.group, l, j, correct p.par r.raw.toInt,
          holdFlags p l, s.bit (F.CH.FE_STS.AR_LOW (16 * p.group + l)), s.parked (16 * p.group + l)⟩ := by
    rw [converted_holdConv_passes hdwell hn hc hbad hcm hexc hopn (.inr (leads_of_follows hfol)), convOut_follows hfol',
      ownKeep_alone (u := checkShown (converted s n r) (16 * p.group + l) r) hmirr, parked_of_calm hn hc hu.calm hu.pair,
      checkShown_bit hn r 11 (by decide)]
  obtain ⟨hact, hend⟩ := conversion_calm hs hpass hstall hdwell hops ((if_neg Bool.false_ne_true).trans hconv) hpass rfl
    (hu.calm.trans (Calm.modPair _ _)) (not_convRegs_low (by decide))
  refine ⟨_, hact, rfl, ?_, hend, rfl⟩
  rw [modPass_fld, ownKept_fld]
  exact hu.cnt

end

/-- A conversion has joined the window, and its value is the last. -/
def windowJoined (u : State) (c : Nat) (w : Window) (v : Int) : State := (withWindow u c w).modChan c fun x => { x with lastVal := v }

theorem windowJoined_getChan (u : State) (c : Nat) (w : Window) (v : Int) :
    (windowJoined u c w v).getChan c = { u.getChan c with win := w, lastVal := v } := by
  rw [windowJoined, getChan_modChan_same, getChan_withWindow]

theorem windowJoined_calm {l : List Nat} (u : State) (c : Nat) (w : Window) (v : Int) : Calm l u (windowJoined u c w v) :=
  (Calm.modChan _ _ _).trans (Calm.modChan _ _ _)

theorem windowJoined_getSlice (u : State) (c : Nat) (w : Window) (v : Int) (n : Nat) : (windowJoined u c w v).getSlice n = u.getSlice n := rfl
theorem windowJoined_fld (u : State) (c : Nat) (w : Window) (v : Int) (f : Fld) : (windowJoined u c w v).fld f = u.fld f := rfl
theorem windowJoined_queue (u : State) (c : Nat) (w : Window) (v : Int) : (windowJoined u c w v).queue = u.queue := rfl
theorem modPass_getChan (u : State) (n : Nat) (g : Pass → Pass) (c : Nat) : (u.modPass n g).getChan c = u.getChan c := rfl
theorem modPass_queue (u : State) (n : Nat) (g : Pass → Pass) : (u.modPass n g).queue = u.queue := rfl

section
variable {s : State} {n : Nat} {p : Pass} {l j : Nat} {r : ConvIn} (hs : s.quiet = true) (hpass : (s.getSlice n).pass = some p)
  (hstall : s.stalledAt (pgSLICE n) = false) (hops : p.ops = [.conv l false j]) (hdwell : s.cal.dwell = none) (hn : n < 34)
  (hc : 16 * p.group + l < 512)
include hs hpass hstall hops hdwell hn hc

/-- A conversion joins a longer window. -/
theorem conversion_joins {u : State} (hu : Measured s n (16 * p.group + l) r u) {code : Int} {fl : Flags}
    (hconv : (converted s n r).holdConv n p l j r = u.convOut n p l j code fl) (hlead : s.leads = true)
    (hprod : s.produces p.tick.idx = true) (hsub : s.pair.subBefore ≤ p.tick.idx)
    (hal : s.avgAlign (16 * p.group + l) = false) (hcnt : (s.getChan (16 * p.group + l)).win.cnt + 1 < s.avgN (16 * p.group + l))
    {v : Int} (hv : convValue u (16 * p.group + l) code fl = v) : ∃ t, act (fun s => s.convComplete n r) s = .next t
    ∧ (∀ f, t.fld f = u.fld f)
    ∧ t.getChan (16 * p.group + l) = { u.getChan (16 * p.group + l) with
        win := windowTaken u (16 * p.group + l) ⟨v, fl⟩ p.tick.idx p.tick.n j, lastVal := v }
    ∧ (t.getSlice n).pass.map Pass.ops = some [] ∧ t.queue = u.queue := by
  obtain ⟨w, hout⟩ := convOut_leads (hu.leads.trans hlead) ((hu.produces _).trans hprod) (hu.pair ▸ hsub) n l j code fl
  rw [hv, avgEnter_joins ((hu.calm.bit _ (not_convRegs_chan hn hc (by decide))).trans hal) (by rw [hu.avgN hn hc, hu.win]; exact hcnt),
    ← windowJoined] at hout
  obtain ⟨hact, hend⟩ := conversion_calm hs hpass hstall hdwell hops ((if_neg Bool.false_ne_true).trans (hconv.trans hout))
    (getSlice_modPass ((congrArg Slice.pass (windowJoined_getSlice u _ _ _ n)).trans (hu.pass.trans hpass)) _) rfl
    ((hu.calm.trans (windowJoined_calm u _ _ _)).trans (Calm.modSlice _ _ _)) (not_convRegs_low (by decide))
  refine ⟨_, hact, fun f => ?_, ?_, by rw [hend]; rfl, ?_⟩
  · rw [modPass_fld, modPass_fld, windowJoined_fld]
  · rw [modPass_getChan, modPass_getChan, windowJoined_getChan]
  · rw [modPass_queue, modPass_queue, windowJoined_queue]

end

end Sys2Proof.TickProofs

namespace Sys2Proof.TickProofs

open Sys2Proof Sys2Proof.Machine Sys2Proof.Laws Sys2Proof.ScopeProofs Sys2Proof.TimeProofs

/-! ## The obligation -/

theorem wordOf_eq {x : Chan} {y : Sample} {i : Nat} {v : Int} (h : wordOf x = ({}, some (y, i), true, true, v)) :
    x.win = {} ∧ x.res = some (y, i) ∧ x.freshQ = true ∧ x.freshM = true ∧ x.lastVal = v := by
  simpa only [wordOf, Prod.mk.injEq] using h

/-- A field of the page of a group or a slice, after a word. -/
theorem WordOut.page {u t : State} {n c : Nat} {x : Sample} {i : Nat} {v : Int} (h : WordOut u n c x i v t) (f : Fld)
    (hf : 0x020000 ≤ f.addr ∧ f.addr < 0x080000) : t.fld f = u.fld f :=
  congrArg (fun r => getBits r _ _) (h.reg _ (not_wordAddr_page hf))

theorem checkShown_getChan (s : State) (n c d : Nat) (r : ConvIn) : (checkShown (converted s n r) c r).getChan d = s.getChan d := rfl
theorem checkShown_queue (s : State) (n c : Nat) (r : ConvIn) : (checkShown (converted s n r) c r).queue = s.queue := rfl

/-- OPN leaves what the averager has of a channel. -/
theorem openBegun_getChan (u : State) (c idx : Nat) :
    (openBegun u c idx).getChan c = { u.getChan c with opnPass := 0, opnHold := some idx, opnHoldOk := false } := by
  simp [openBegun_eq, openShown]

theorem openBegun_slice (u : State) (c idx : Nat) : (openBegun u c idx).slice = u.slice := by simp [openBegun_eq, openShown]
theorem openBegun_pair (u : State) (c idx : Nat) : (openBegun u c idx).pair = u.pair := by simp [openBegun_eq, openShown]

theorem openBegun_measured {s : State} {n c : Nat} (hn : n < 34) (r : ConvIn) (idx : Nat)
    (hb : s.bit (F.HDR.INT_ROUTE.INBAND (pgFE (c / 16))) = false) :
    Measured s n c r (openBegun (checkShown (converted s n r) c r) c idx) := by
  have hu := checkShown_measured (s := s) hn c r
  have hb' : (checkShown (converted s n r) c r).bit (F.HDR.INT_ROUTE.INBAND (pgFE (c / 16))) = false :=
    (hu.calm.bit _ (by simp [convRegs, pgFE]; omega)).trans hb
  generalize checkShown (converted s n r) c r = u at *
  have hcalm := openBegun_calm idx hb'
  refine ⟨hu.calm.trans (hcalm.mono ?_), (openBegun_slice u c idx).trans hu.slice, (openBegun_pair u c idx).trans hu.pair, ?_, ?_, ?_, ?_⟩
  · simp [openRegs, convRegs]
  · rw [openBegun_getChan]
    exact hu.win
  · rw [openBegun_getChan]
    exact hu.last
  · exact (hcalm.fld _ (by simp [openRegs, pgFE]; omega)).trans hu.cnt
  · exact (hcalm.fld _ (by simp [openRegs, pgFE]; omega)).trans hu.tmax

theorem openBegun_cmFail (u : State) (c idx : Nat) :
    (openBegun u c idx).bit (F.CH.FE_STS.CM_FAIL c) = u.bit (F.CH.FE_STS.CM_FAIL c) := by
  have hafter : (openBegun u c idx).bit (F.CH.FE_STS.CM_FAIL c) = (openShown u c idx).bit (F.CH.FE_STS.CM_FAIL c) :=
    (bit_count_other _ _ (F.CH.OPN_CNT.CNT c) 1 (.inl (by simp only []; omega))).trans (raiseInt_bit _ _ _ (by simp only [pgFE]; omega))
  refine hafter.trans ?_
  refine (bit_setFld_other _ _ (F.FE.OPEN_STS.SEEN (c / 16)) _ (.inl (by simp only []; omega))).trans ?_
  refine (bit_setFld_other _ _ (F.FE.OPEN_STS.NOW (c / 16)) _ (.inl (by simp only []; omega))).trans ?_
  exact bit_setBit_other _ _ (F.CH.FE_STS.OPN_ACTIVE c) true (.inr (.inr (Nat.le_refl 7)))

theorem checkShown_opnCnt (s : State) (n c : Nat) (r : ConvIn) :
    (checkShown (converted s n r) c r).fld (F.CH.OPN_CNT.CNT c) = s.fld (F.CH.OPN_CNT.CNT c) :=
  (fld_setFld_addr _ _ _ _ (by simp only []; omega)).trans ((converted_calm s n r).fld _ (by simp; omega))

/-- What a word and what was measured before it leave counted. -/
theorem WordOut.counts {s u t : State} {n c : Nat} {r : ConvIn} {x : Sample} {i : Nat} {v : Int} (h : WordOut u n c x i v t)
    (hu : Measured s n c r u) (hn : n < 34) (hc : c < 512) :
    t.fld (F.SLICE.CONV_CNT.CNT n) = min (2 ^ (F.SLICE.CONV_CNT.CNT n).width - 1) (s.fld (F.SLICE.CONV_CNT.CNT n) + 1)
    ∧ t.fld (F.SLICE.CONV_TMAX.TMAX n) = max (s.fld (F.SLICE.CONV_TMAX.TMAX n)) (satNat 1023 r.ns)
    ∧ t.fld (F.CH.WIN_CNT.CNT c) = min (2 ^ (F.CH.WIN_CNT.CNT c).width - 1) (s.fld (F.CH.WIN_CNT.CNT c) + 1) := by
  refine ⟨?_, ?_, ?_⟩
  · exact (h.page _ (by simp only []; omega)).trans hu.cnt
  · exact (h.page _ (by simp only []; omega)).trans hu.tmax
  · rw [h.cnt, hu.calm.fld _ (not_convRegs_chan hn hc (by decide))]

/-- What OPN shows is still shown after the word. -/
theorem OpenTold.after {u w t : State} {n c : Nat} {x : Sample} {i : Nat} {v : Int} (h : OpenTold u c w) (ht : WordOut w n c x i v t)
    (hc : c < 512) : OpenTold u c t := by
  have hbit (lo w' : Nat) : t.fld ⟨(F.CH.FE_STS.CM_FAIL c).addr, lo, w'⟩ = w.fld ⟨(F.CH.FE_STS.CM_FAIL c).addr, lo, w'⟩ :=
    congrArg (fun r => getBits r _ _) (ht.reg _ (not_wordAddr_chan hc (by decide)))
  have hpage (a : Nat) (ha : 0x020000 ≤ a ∧ a < 0x080000) : t.reg a = w.reg a := ht.reg a (not_wordAddr_page ha)
  refine ⟨?_, ?_, ?_, ?_, ?_⟩
  · rw [State.bit, hbit]
    exact h.active
  · rw [ht.page _ (by simp only []; omega)]
    exact h.now
  · rw [ht.page _ (by simp only []; omega)]
    exact h.seen
  · rw [State.fld, ht.reg _ (not_wordAddr_chan hc (by decide))]
    exact h.cnt
  · rw [hpage _ (by simp only [pgFE]; omega)]
    exact h.irq

theorem liveShown_getSlice (u : State) (n l : Nat) (code : Int) (k : Nat) : (liveShown u n l code).getSlice k = u.getSlice k := rfl
theorem liveShown_chan (u : State) (n l : Nat) (code : Int) : (liveShown u n l code).chan = u.chan := rfl
theorem modPass_chan (u : State) (n : Nat) (g : Pass → Pass) : (u.modPass n g).chan = u.chan := rfl

/-- A live conversion reaches LIVE_CODE alone (R156). -/
theorem conversion_live {s : State} {n : Nat} {p : Pass} {l j : Nat} {r : ConvIn} (hs : s.quiet = true)
    (hpass : (s.getSlice n).pass = some p) (hstall : s.stalledAt (pgSLICE n) = false) (hdwell : s.cal.dwell = none)
    (hops : p.ops = [.conv l true j]) (hn : n < 34) (hl : l < 16) : ∃ t, act (fun s => s.convComplete n r) s = .next t
    ∧ t.fld (F.SLICE.LIVE_CODE.CH n) = l
    ∧ t.fld (F.SLICE.LIVE_CODE.CODE n) = unsigned (F.SLICE.LIVE_CODE.CODE n).width (correct p.par r.raw.toInt)
    ∧ t.fld (F.SLICE.LIVE_CNT.CNT n) = min (2 ^ (F.SLICE.LIVE_CNT.CNT n).width - 1) (s.fld (F.SLICE.LIVE_CNT.CNT n) + 1)
    ∧ t.fld (F.SLICE.CONV_CNT.CNT n) = min (2 ^ (F.SLICE.CONV_CNT.CNT n).width - 1) (s.fld (F.SLICE.CONV_CNT.CNT n) + 1)
    ∧ t.fld (F.SLICE.CONV_TMAX.TMAX n) = max (s.fld (F.SLICE.CONV_TMAX.TMAX n)) (satNat 1023 r.ns)
    ∧ (t.getSlice n).pass = some { p with ops := [] } ∧ t.chan = s.chan := by
  have hconv := liveConv_eq (u := converted s n r) hdwell n p l r
  have hbefore := converted_calm s n r
  have hconvs := converted_cnt s n r
  have htmax := converted_tmax s n r
  have hslice : (converted s n r).getSlice n = s.getSlice n := rfl
  have hchan : (converted s n r).chan = s.chan := rfl
  have hlive : (converted s n r).fld (F.SLICE.LIVE_CNT.CNT n) = s.fld (F.SLICE.LIVE_CNT.CNT n) := hbefore.fld _ (by simp)
  generalize correct p.par r.raw.toInt = code at *
  have hshown := liveShown_calm (converted s n r) n l code
  obtain ⟨hact, hend⟩ := conversion_calm hs hpass hstall hdwell hops ((if_pos rfl).trans hconv)
    ((congrArg Slice.pass (liveShown_getSlice (converted s n r) n l code n)).trans ((congrArg Slice.pass hslice).trans hpass)) rfl
    ((hbefore.mono fun a ha => List.mem_append_left _ ha).trans (hshown.mono fun a ha => List.mem_append_right _ ha)) (by simp; omega)
  refine ⟨_, hact, ?_, ?_, ?_, ?_, ?_, hend, ?_⟩
  · rw [modPass_fld, liveShown_ch _ n hl]
  · rw [modPass_fld, liveShown_code]
  · rw [modPass_fld, liveShown_cnt, hlive]
  · rw [modPass_fld, hshown.fld _ (by simp)]
    exact hconvs
  · rw [modPass_fld, hshown.fld _ (by simp)]
    exact htmax
  · exact (modPass_chan _ n _).trans ((liveShown_chan (converted s n r) n l code).trans hchan)

section
variable {s : State} {n : Nat} {p : Pass} {l j : Nat} {r : ConvIn} (hs : s.quiet = true) (hpass : (s.getSlice n).pass = some p)
  (hstall : s.stalledAt (pgSLICE n) = false) (hops : p.ops = [.conv l false j]) (hdwell : s.cal.dwell = none) (hn : n < 34)
  (hc : 16 * p.group + l < 512) (hlead : s.leads = true) (hprod : s.produces p.tick.idx = true) (hsub : s.pair.subBefore ≤ p.tick.idx)
  (hbad : p.tick.bad.getLsbD p.group = false) (hN : s.avgN (16 * p.group + l) = 1)
  (hcnt : (s.getChan (16 * p.group + l)).win.cnt = 0)
include hs hpass hstall hops hdwell hn hc hlead hprod hsub hbad hN hcnt

/-- With N = 1 a hold that passes its checks gives the word of its code (R161, R163). -/
theorem conversion_passes_word (hcm : r.cmFail = false) (hexc : s.excApplies (16 * p.group + l) = false)
    (hopn : s.bit (F.CH.FE_STS.OPN_ACTIVE (16 * p.group + l)) = false) (hlow : s.bit (F.CH.FE_STS.AR_LOW (16 * p.group + l)) = false)
    (har : s.bit (F.CH.FE_CFG.AR_EN (16 * p.group + l)) = false) : ∃ u t, act (fun s => s.convComplete n r) s = .next t
    ∧ Measured s n (16 * p.group + l) r u ∧ u.bit (F.CH.FE_STS.CM_FAIL (16 * p.group + l)) = false
    ∧ WordOut u n (16 * p.group + l) (windowWord s (16 * p.group + l) (windowTaken s (16 * p.group + l)
        ⟨correct p.par r.raw.toInt, holdFlags p l⟩ p.tick.idx p.tick.n j)) p.tick.idx (correct p.par r.raw.toInt) t := by
  have hu := checkShown_measured (s := s) hn (16 * p.group + l) r
  have hlow' := (checkShown_bit (s := s) (c := 16 * p.group + l) hn r 11 (by decide)).trans hlow
  obtain ⟨t, ht, hout⟩ := conversion_wordOut hs hpass hstall hops hdwell hn hc hu
    (converted_holdConv_passes hdwell hn hc hbad hcm hexc hopn (.inl har) j) hlead hprod hsub hN hcnt
    (v := correct p.par r.raw.toInt) (by rw [convValue, hlow']; rfl)
  exact ⟨_, t, ht, hu, (checkShown_shows _ _ r).trans hcm, hout⟩

/-- With N = 1 a hold outside the common-mode window begins OPN and gives a word with OPN (R134, R135). -/
theorem conversion_cmFails_word (hcm : r.cmFail = true) (hopn : s.bit (F.CH.FE_STS.OPN_ACTIVE (16 * p.group + l)) = false)
    (hb : s.bit (F.HDR.INT_ROUTE.INBAND (pgFE ((16 * p.group + l) / 16))) = false) : ∃ u v t,
    act (fun s => s.convComplete n r) s = .next t ∧ Measured s n (16 * p.group + l) r u
    ∧ u.bit (F.CH.FE_STS.CM_FAIL (16 * p.group + l)) = true ∧ OpenTold s (16 * p.group + l) u
    ∧ WordOut u n (16 * p.group + l) (windowWord s (16 * p.group + l) (windowTaken s (16 * p.group + l)
        ⟨v, { holdFlags p l with opn := true }⟩ p.tick.idx p.tick.n j)) p.tick.idx v t := by
  have hu := openBegun_measured (s := s) (c := 16 * p.group + l) hn r p.tick.idx hb
  have hconv := holdConv_cmFails (u := converted s n r) hdwell hbad hcm ((checkShown_bit hn r 6 (by decide)).trans hopn) n j
  obtain ⟨t, ht, hout⟩ := conversion_wordOut hs hpass hstall hops hdwell hn hc hu hconv hlead hprod hsub hN hcnt rfl
  obtain ⟨hactive, hnow, hseen, hopns, hirq⟩ :=
    openBegun_told (checkShown (converted s n r) (16 * p.group + l) r) (16 * p.group + l) p.tick.idx
  rw [checkShown_opnCnt] at hopns
  exact ⟨_, _, t, ht, hu, (openBegun_cmFail _ _ _).trans ((checkShown_shows _ _ r).trans hcm), ⟨hactive, hnow, hseen, hopns, hirq⟩, hout⟩

end

theorem WordOut.cmFail {u t : State} {n c : Nat} {x : Sample} {i : Nat} {v : Int} (h : WordOut u n c x i v t) (hc : c < 512) :
    t.bit (F.CH.FE_STS.CM_FAIL c) = u.bit (F.CH.FE_STS.CM_FAIL c) := by
  rw [State.bit, State.fld, h.reg _ (not_wordAddr_chan hc (by decide)), State.bit, State.fld]

/-- Settles O20: what a pass does next, and the word, the code or the live code that a conversion gives. -/
theorem passesConvertAndWait : Obligations.PassesConvertAndWait := by
  unfold Obligations.PassesConvertAndWait
  intro s hs
  refine ⟨?_, ?_, ?_, ?_, ?_, ?_, ?_, ?_⟩
  · intro sl p d o hpass hstall _ hops
    exact (exec_weaveDelay sl s).trans (weaveDelay_next hs hpass hstall hops (passNext_last hpass (by rw [hops]; rfl)))
  · intro sl p d o l j rest hpass hstall _ hops hskip hen
    refine (exec_weaveDelay sl s).trans (weaveDelay_next hs hpass hstall hops (passNext_stays hpass (by rw [hops]; rfl) ?_))
    simp [State.opSkipped, hen, hskip]
  · intro sl p r l j hpass hstall _ hops hlead hprod hsub hdwell hg hl hbad hcm hexc hopn hlow har hN hcnt hsum hfl
    have hc : 16 * p.group + l < 512 := by omega
    obtain ⟨u, t, ht, hu, hshow, hout⟩ := conversion_passes_word hs hpass hstall hops hdwell sl.isLt hc hlead hprod hsub hbad hN hcnt
      hcm hexc hopn hlow har
    obtain ⟨hwin, hres, hfreshQ, hfreshM, hlast⟩ := wordOf_eq hout.word
    obtain ⟨hconvs, htmax, hwins⟩ := hout.counts hu sl.isLt hc
    refine ⟨t, (exec_conversionComplete sl r s).trans ht, hconvs, htmax, ?_, hfreshQ, hfreshM, hlast, hwin, hwins,
      (hout.cmFail hc).trans hshow, hout.ops⟩
    rw [hres, windowWord_opens hsum hfl]
    rfl
  · intro sl p r l j hpass hstall _ hops hlead hprod hsub hdwell hg hl hbad hcm hexc hopn hlow har hal hcnt
    have hc : 16 * p.group + l < 512 := by omega
    have hu := checkShown_measured (s := s) sl.isLt (16 * p.group + l) r
    have hconv := converted_holdConv_passes (r := r) hdwell sl.isLt hc hbad hcm hexc hopn (.inl har) j
    have hlow' := (checkShown_bit (s := s) (c := 16 * p.group + l) sl.isLt r 11 (by decide)).trans hlow
    have hchan := checkShown_getChan s sl.val (16 * p.group + l) (16 * p.group + l) r
    have hqueue := checkShown_queue s sl.val (16 * p.group + l) r
    obtain ⟨t, ht, hfld, hget, hend, hq⟩ := conversion_joins hs hpass hstall hops hdwell sl.isLt hc hu hconv hlead hprod hsub hal hcnt
      (v := correct p.par r.raw.toInt) (by rw [convValue, hlow']; rfl)
    generalize checkShown (converted s sl.val r) (16 * p.group + l) r = u at *
    rw [hchan] at hget
    refine ⟨t, (exec_conversionComplete sl r s).trans ht, (hfld _).trans hu.cnt, (hfld _).trans hu.tmax, ?_, ?_, ?_, ?_, ?_, hend,
      hq.trans hqueue⟩
    · rw [hget, windowTaken, hu.win]
    · rw [hget, windowTaken, hu.win]
    · rw [hget, windowTaken]
    · rw [hget]
    · rw [hget]
  · intro sl p r l j hpass hstall _ hops hlead hprod hsub hdwell hg hl hbad hcm hopn hN hcnt hb
    have hc : 16 * p.group + l < 512 := by omega
    have hgroup : (16 * p.group + l) / 16 = p.group := by omega
    have hlocal : (16 * p.group + l) % 16 = l := by omega
    obtain ⟨u, v, t, ht, hu, hshow, htold, hout⟩ := conversion_cmFails_word hs hpass hstall hops hdwell sl.isLt hc hlead hprod hsub hbad hN
      hcnt hcm hopn (by rw [hgroup]; exact hb)
    obtain ⟨-, hres, -, -, -⟩ := wordOf_eq hout.word
    obtain ⟨hconvs, htmax, -⟩ := hout.counts hu sl.isLt hc
    obtain ⟨hactive, hnow, hseen, hopnCnt, hirq⟩ := htold.after hout hc
    rw [hgroup, hlocal] at hnow hseen
    rw [hgroup] at hirq
    refine ⟨t, (exec_conversionComplete sl r s).trans ht, hconvs, htmax, (hout.cmFail hc).trans hshow, hactive, hnow, hseen, hopnCnt,
      hirq, ?_⟩
    rw [hres]
    simp [windowWord, windowTaken, orFlags]
  · intro sl p r l j hpass hstall _ hops hlead hprod hsub hdwell hg hl hbad hN hcnt hsum
    have hc : 16 * p.group + l < 512 := by omega
    have hu := converted_measured (s := s) (n := sl.val) (16 * p.group + l) r
    have hconv := holdConv_bad (u := converted s sl.val r) hdwell hbad sl.val l j r
    obtain ⟨t, ht, hout⟩ := conversion_wordOut hs hpass hstall hops hdwell sl.isLt hc hu hconv hlead hprod hsub hN hcnt
      (v := (s.getChan (16 * p.group + l)).lastVal) hu.last
    obtain ⟨-, hres, -, -, hlast⟩ := wordOf_eq hout.word
    obtain ⟨hconvs, htmax, -⟩ := hout.counts hu sl.isLt hc
    refine ⟨t, (exec_conversionComplete sl r s).trans ht, hconvs, htmax, ?_, hlast⟩
    rw [hres]
    simp [windowWord, windowTaken, orFlags, blkFlags, hsum]
  · intro sl p r l j hpass hstall _ hops hl hdwell
    obtain ⟨t, ht, hch, hcode, hlive, hconvs, htmax, hend, hchan⟩ := conversion_live (r := r) hs hpass hstall hdwell hops sl.isLt hl
    exact ⟨t, (exec_conversionComplete sl r s).trans ht, hch, hcode, hlive, hconvs, htmax, hend, hchan⟩
  · intro sl p r l j hpass hstall _ hops hdwell hbad hfol hmirr hcm hexc hopn hg hl
    obtain ⟨t, ht, hown, hcnt, hend, hq⟩ := conversion_kept hs hpass hstall hops hdwell sl.isLt (by omega) hbad hfol hmirr hcm hexc hopn
    exact ⟨t, (exec_conversionComplete sl r s).trans ht, hown, hcnt, hend, hq⟩

end Sys2Proof.TickProofs

/-!
The family of the inputs and the excitation: excitation and its monitors (R119 to R124), overload and discharge (R116 to R128), and blanking
(R139 to R142).
-/

namespace Sys2Proof.InputProofs

open Sys2Proof Sys2Proof.Machine Sys2Proof.Laws Sys2Proof.ScopeProofs Sys2Proof.TimeProofs Sys2Proof.TickProofs

/-! ## Excitation (R119 to R124) -/

theorem exec_excRegulate (g : Fin 32) (mean : BitVec 16) (need : Nat) (s : State) :
    exec (.excRegulate g mean need) s = act (fun s => s.excRegulate g.val mean.toNat need) s := rfl
theorem exec_excLow (g : Fin 32) (s : State) : exec (.excLow g) s = act (fun s => s.excFalls g.val) s := rfl
theorem exec_excSenseRestored (g : Fin 32) (s : State) : exec (.excSenseRestored g) s = act (fun s => s.excRises g.val) s := rfl
theorem exec_exdMon (g : Fin 32) (s : State) : exec (.exdMon g) s = act (fun s => s.raiseFault (Flt.exdMon g.val)) s := rfl

/-! ### The step of the DAC code (R121) -/

theorem dacStep_near (cur need : Nat) : dacStep cur need ≤ cur + 8 ∧ cur ≤ dacStep cur need + 8 := by
  unfold dacStep
  dsimp only
  split
  · omega
  · split <;> omega

theorem dacStep_lt (cur need : Nat) (h : cur < 2 ^ 16) : dacStep cur need < 2 ^ 16 := by
  unfold dacStep
  dsimp only
  split
  · omega
  · split <;> omega

/-- Toward a code beyond its range the DAC moves up, as far as its range goes. -/
theorem dacStep_beyond (cur need : Nat) (hc : cur < 2 ^ 16) (h : 65535 < need) : dacStep cur need = min 65535 (cur + 8) := by
  unfold dacStep
  dsimp only
  split
  · omega
  · split <;> omega

/-! ### A mean of the sense monitor (R120, R121) -/

/-- The mean is shown. -/
def sensed (s : State) (g mean : Nat) : State := s.setFld (F.FE.EXC_SENSE.SENSE g) mean

/-- The mean is shown, and the DAC code has moved. -/
def regulated (s : State) (g mean need : Nat) : State :=
  (sensed s g mean).setFld (F.FE.EXC_DAC.CODE g) (dacStep (s.fld (F.FE.EXC_DAC.CODE g)) need)

theorem sensed_mild (s : State) (g mean : Nat) : Mild [(F.FE.EXC_SENSE.SENSE g).addr] s (sensed s g mean) := Mild.setFld s _ _ (by simp)

theorem regulated_mild (s : State) (g mean need : Nat) :
    Mild [(F.FE.EXC_SENSE.SENSE g).addr, (F.FE.EXC_DAC.CODE g).addr] s (regulated s g mean need) :=
  (Mild.setFld s _ _ (by simp)).trans (Mild.setFld _ _ _ (by simp))

theorem sensed_sense (s : State) (g : Nat) (mean : BitVec 16) : (sensed s g mean.toNat).fld (F.FE.EXC_SENSE.SENSE g) = mean.toNat :=
  (fld_setFld_same s (F.FE.EXC_SENSE.SENSE g) _ (by simp only []; omega)).trans (Nat.mod_eq_of_lt mean.isLt)

theorem regulated_sense (s : State) (g need : Nat) (mean : BitVec 16) :
    (regulated s g mean.toNat need).fld (F.FE.EXC_SENSE.SENSE g) = mean.toNat :=
  (fld_setFld_addr _ _ _ _ (by simp only []; omega)).trans (sensed_sense s g mean)

theorem regulated_code (s : State) (g mean need : Nat) :
    (regulated s g mean need).fld (F.FE.EXC_DAC.CODE g) = dacStep (s.fld (F.FE.EXC_DAC.CODE g)) need :=
  (fld_setFld_same _ (F.FE.EXC_DAC.CODE g) _ (by simp only []; omega)).trans
    (Nat.mod_eq_of_lt (dacStep_lt _ _ (fld_lt s (F.FE.EXC_DAC.CODE g))))

/-- REG is set on a hub that is awake and does not follow: it regulates (R121). -/
def regulates (s : State) (g : Nat) : Bool := s.bit (F.FE.EXC_CTL.REG g) && !s.follows && s.awake

theorem sensed_regulates (s : State) (g mean : Nat) : regulates (sensed s g mean) g = regulates s g := by
  have hfld (f : Fld) (h : f.addr ≠ (F.FE.EXC_SENSE.SENSE g).addr) : (sensed s g mean).fld f = s.fld f := fld_setFld_addr s f _ _ h
  have hreg : (sensed s g mean).bit (F.FE.EXC_CTL.REG g) = s.bit (F.FE.EXC_CTL.REG g) := by
    rw [State.bit, hfld _ (by simp only []; omega), State.bit]
  have hfol : (sensed s g mean).follows = s.follows := by
    rw [State.follows, State.role, hfld _ (by simp only []; omega), State.follows, State.role]
  have hawake : (sensed s g mean).awake = s.awake := by rw [State.awake, hfld _ (by simp only []; omega), State.awake]
  rw [regulates, hreg, hfol, hawake, regulates]

theorem excRegulate_eq (s : State) (g mean need : Nat) : s.excRegulate g mean need
    = if regulates s g then (regulated s g mean need).when (decide (65535 < need)) fun s => s.raiseInt (Irq.excLimit g)
      else sensed s g mean := by
  have hcode : (sensed s g mean).fld (F.FE.EXC_DAC.CODE g) = s.fld (F.FE.EXC_DAC.CODE g) := fld_setFld_addr _ _ _ _ (by simp only []; omega)
  rw [← sensed_regulates s g mean, regulated, ← hcode]
  rfl

section
variable {s : State} (hs : s.quiet = true) {g : Fin 32} (mean : BitVec 16) {need : Nat}
include hs

theorem excRegulate_within (hon : regulates s g.val = true) (hneed : need ≤ 65535) :
    exec (.excRegulate g mean need) s = .next (regulated s g.val mean.toNat need) := by
  have hf : s.excRegulate g.val mean.toNat need = regulated s g.val mean.toNat need := by
    rw [excRegulate_eq, if_pos hon, when_of_false _ _ (decide_eq_false (by omega))]
  exact (exec_excRegulate g mean need s).trans
    ((Calm.of_mild (regulated_mild s g.val mean.toNat need)).act hs hf (by simp; omega))

theorem excRegulate_beyond (hon : regulates s g.val = true) (hneed : 65535 < need)
    (hb : s.bit (F.HDR.INT_ROUTE.INBAND (pgFE g.val)) = false) :
    exec (.excRegulate g mean need) s = .next ((regulated s g.val mean.toNat need).raiseInt (Irq.excLimit g.val)) := by
  have hf : s.excRegulate g.val mean.toNat need = (regulated s g.val mean.toNat need).raiseInt (Irq.excLimit g.val) := by
    rw [excRegulate_eq, if_pos hon, when_of_true _ _ (decide_eq_true hneed)]
  have hm := regulated_mild s g.val mean.toNat need
  have hb' : (regulated s g.val mean.toNat need).bit (F.HDR.INT_ROUTE.INBAND (pgFE g.val)) = false :=
    (hm.bit _ (by simp [pgFE]; omega)).trans hb
  exact (exec_excRegulate g mean need s).trans (act_eq hs hf
    ((quiet_raiseInt _ (Irq.excLimit g.val) hb').trans (hm.quiet (by simp; omega))) ((raiseInt_pending _ _).trans hm.pending))

theorem excRegulate_off (hoff : regulates s g.val = false) :
    exec (.excRegulate g mean need) s = .next (sensed s g.val mean.toNat) := by
  have hf : s.excRegulate g.val mean.toNat need = sensed s g.val mean.toNat := by
    rw [excRegulate_eq, if_neg (hoff ▸ Bool.false_ne_true)]
  exact (exec_excRegulate g mean need s).trans
    ((Calm.of_mild (sensed_mild s g.val mean.toNat)).act hs hf (by simp; omega))

end

/-! ### The comparator and the output monitor (R122, R123) -/

/-- Low sense is noted with its time, and raises EXC_LOW. -/
def excLowNoted (s : State) (g : Nat) : State :=
  (s.modGroup g fun x => { x with excLow := true, excLowAt := s.time.cycles }).raiseInt (Irq.excLow g)

theorem excFalls_noted (s : State) (g : Nat) (hmin : s.fld (F.FE.EXC_MIN.MIN g) ≠ 0) (hlow : (s.getGroup g).excLow = false) :
    s.excFalls g = excLowNoted s g := if_neg (by simp [hmin, hlow])

theorem excLow_next {s : State} (hs : s.quiet = true) (g : Fin 32) (hb : s.bit (F.HDR.INT_ROUTE.INBAND (pgFE g.val)) = false)
    (hmin : s.fld (F.FE.EXC_MIN.MIN g.val) ≠ 0) (hlow : (s.getGroup g.val).excLow = false) :
    exec (.excLow g) s = .next (excLowNoted s g.val) :=
  (exec_excLow g s).trans
    (act_eq hs (excFalls_noted s g.val hmin hlow) (quiet_raiseInt _ (Irq.excLow g.val) hb) (raiseInt_pending _ _))

theorem excLowNoted_group (s : State) (g : Nat) :
    (excLowNoted s g).getGroup g = { s.getGroup g with excLow := true, excLowAt := s.time.cycles } :=
  (raiseInt_getGroup _ _ _).trans (getGroup_modGroup_same s g _)

theorem exdMon_next {s : State} (hs : s.quiet = true) (g : Fin 32) (hb : s.bit (F.HDR.INT_ROUTE.INBAND (pgFE g.val)) = false) :
    exec (.exdMon g) s = .next (s.raiseFault (Flt.exdMon g.val)) :=
  (exec_exdMon g s).trans ((Calm.of_mild (raiseFault_mild s (Flt.exdMon g.val) (by decide : clsCont ≠ clsFatal) hb)).act hs rfl (by rw [mem_faultRegs]; omega))

/-- A fault of the output monitor leaves the block registers of its group. -/
theorem exdMon_fld (s : State) (g : Fin 32) (hb : s.bit (F.HDR.INT_ROUTE.INBAND (pgFE g.val)) = false) (f : Fld)
    (hf : 0x1000 * pgFE g.val + 0x040 ≤ f.addr ∧ f.addr < 0x1000 * pgFE g.val + 0x1000) :
    (s.raiseFault (Flt.exdMon g.val)).fld f = s.fld f :=
  (raiseFault_mild s (Flt.exdMon g.val) (by decide : clsCont ≠ clsFatal) hb).fld f (by rw [mem_faultRegs]; simp only [pgFE] at hf ⊢; omega)

/-- Settles O17: a mean regulates or is only shown; the comparator notes low sense once; the monitor raises its fault. -/
theorem excitationIsRegulatedAndMonitored : Obligations.ExcitationIsRegulatedAndMonitored := by
  unfold Obligations.ExcitationIsRegulatedAndMonitored
  intro g s hs hb
  have hon (hreg : s.bit (F.FE.EXC_CTL.REG g.val) = true) (hfol : s.follows = false) (hawake : s.awake = true) :
      regulates s g.val = true := by simp [regulates, hreg, hfol, hawake]
  refine ⟨?_, ?_, ?_, ?_, ?_, ?_, ?_⟩
  · intro mean need hreg hfol hawake hneed
    have hcode := regulated_code s g.val mean.toNat need
    exact ⟨_, excRegulate_within hs mean (hon hreg hfol hawake) hneed, regulated_sense s g.val need mean, hcode,
      hcode ▸ (dacStep_near _ _).1, hcode ▸ (dacStep_near _ _).2, (regulated_mild s g.val mean.toNat need).regs⟩
  · intro mean need hreg hfol hawake hneed
    refine ⟨_, excRegulate_beyond hs mean (hon hreg hfol hawake) hneed hb, ?_, ?_, raiseInt_irq _ (Irq.excLimit g.val) (by decide : 3 < 32)⟩
    · exact (raiseInt_fld _ _ _ (by simp only [pgFE]; omega)).trans (regulated_sense s g.val need mean)
    · rw [raiseInt_fld _ _ _ (by simp only [pgFE]; omega), regulated_code]
      exact dacStep_beyond _ _ (fld_lt s (F.FE.EXC_DAC.CODE g.val)) hneed
  · intro mean need h
    have hoff : regulates s g.val = false := by
      rcases h with h | h | h <;> simp [regulates, h]
    have hm := sensed_mild s g.val mean.toNat
    exact ⟨_, excRegulate_off hs mean hoff, sensed_sense s g.val mean, hm.only, hm.regs⟩
  · intro hmin hlow
    have hgroup := excLowNoted_group s g.val
    refine ⟨_, excLow_next hs g hb hmin hlow, by rw [hgroup], by rw [hgroup], raiseInt_irq _ (Irq.excLow g.val) (by decide : 2 < 32), ?_⟩
    intro a ha
    exact raiseInt_reg_ne _ (Irq.excLow g.val) a (by simpa using ha)
  · exact fun h => (exec_excLow g s).trans (act_idle hs (if_pos h))
  · exact (exec_excSenseRestored g s).trans (act_eq hs rfl rfl rfl)
  · exact ⟨_, exdMon_next hs g hb, faultSet_raiseFault s _ (by simp only []; omega),
      exdMon_fld s g hb _ (by simp only [pgFE]; omega), exdMon_fld s g hb _ (by simp only [pgFE]; omega)⟩

end Sys2Proof.InputProofs

namespace Sys2Proof.InputProofs

open Sys2Proof Sys2Proof.Machine Sys2Proof.Laws Sys2Proof.ScopeProofs Sys2Proof.TimeProofs Sys2Proof.TickProofs

/-! ## Blanking (R139 to R142) -/

theorem exec_blankEdge {s : State} (hs : s.quiet = true) (n : Fin 4) (level : Bool) :
    exec (.blankEdge n level) s = act (fun s => s.blankEdge n.val level) s :=
  if_neg (inReset_of_quiet s hs ▸ Bool.false_ne_true)

theorem exec_blankCtlWrite (g : Fin 32) (v : Reg) (s : State) :
    exec (.blankCtlWrite g v) s = act (fun s => s.otherWrite.writeBlankCtl g.val v) s := rfl

theorem exec_blankGuardExpire (g : Fin 32) (s : State) : exec (.blankGuardExpire g) s = act (fun s => s.guardExpire g.val) s := rfl

/-! ### What blanking touches -/

/-- The registers of a group that its interval and its guard touch. -/
def blankRegs (d : Nat) : List Nat :=
  [(F.FE.BLANK_START.NS32 d).addr, (F.FE.BLANK_END.NS32 d).addr, (F.FE.BLANK_STS.ACTIVE d).addr, 0x1000 * pgFE d + 0x010]

/-- From `s` to `t` blanking has been evaluated for the groups of `l`. -/
structure Blanked (l : List Nat) (s t : State) : Prop where
  calm : Calm (l.flatMap blankRegs) s t
  time : t.time = s.time
  staged : t.staged = s.staged
  pins : t.pins = s.pins
  group : ∀ d, d ∉ l → t.getGroup d = s.getGroup d

theorem not_mem_blankRegs {l : List Nat} {a : Nat} (h : ∀ d ∈ l, a ∉ blankRegs d) : a ∉ l.flatMap blankRegs := by
  simpa only [List.mem_flatMap, not_exists, not_and] using h

namespace Blanked

variable {l : List Nat} {s t u : State} {d : Nat}

theorem refl (l : List Nat) (s : State) : Blanked l s s := ⟨Calm.refl _ s, rfl, rfl, rfl, fun _ _ => rfl⟩

theorem trans (h : Blanked l s t) (h' : Blanked l t u) : Blanked l s u :=
  ⟨h.calm.trans h'.calm, h'.time.trans h.time, h'.staged.trans h.staged, h'.pins.trans h.pins,
    fun d hd => (h'.group d hd).trans (h.group d hd)⟩

theorem mono {l' : List Nat} (h : Blanked l s t) (hl : ∀ d ∈ l, d ∈ l') : Blanked l' s t := by
  refine ⟨h.calm.mono fun a ha => ?_, h.time, h.staged, h.pins, fun d hd => h.group d fun hm => hd (hl d hm)⟩
  obtain ⟨d, hd, ha⟩ := List.mem_flatMap.1 ha
  exact List.mem_flatMap.2 ⟨d, hl d hd, ha⟩

theorem modGroup (h : Blanked [d] s t) (f : Group → Group) : Blanked [d] s (t.modGroup d f) :=
  h.trans ⟨⟨fun _ _ => rfl, rfl, rfl, rfl, rfl, rfl, rfl⟩, rfl, rfl, rfl, fun e he =>
    getGroup_modGroup_ne t d e f (by simpa using he)⟩

theorem setFld (h : Blanked [d] s t) (f : Fld) (x : Nat) (hf : f.addr ∈ blankRegs d) : Blanked [d] s (t.setFld f x) :=
  h.trans ⟨Calm.setFld t f x (by simpa using hf), rfl, rfl, rfl, fun _ _ => rfl⟩

theorem setBit (h : Blanked [d] s t) (f : Fld) (b : Bool) (hf : f.addr ∈ blankRegs d) : Blanked [d] s (t.setBit f b) :=
  h.setFld f _ hf

/-- INT_ROUTE and BLANK_CTL of every page are left alone. -/
theorem reg (h : Blanked l s t) (a : Nat) (ha : a % 0x1000 = 0x018 ∨ a % 0x1000 = 0x054) : t.reg a = s.reg a := by
  refine h.calm.regs a (not_mem_blankRegs fun d _ => ?_)
  simp only [blankRegs, pgFE, List.mem_cons, List.not_mem_nil, or_false]
  omega

/-- The page of a group that is not evaluated is left alone. -/
theorem page (h : Blanked l s t) (hd : d ∉ l) (a : Nat) (ha : a / 0x1000 = pgFE d) : t.reg a = s.reg a := by
  refine h.calm.regs a (not_mem_blankRegs fun e he => ?_)
  have hne : e ≠ d := fun h => hd (h ▸ he)
  simp only [blankRegs, pgFE, List.mem_cons, List.not_mem_nil, or_false] at ha ⊢
  omega

theorem inband (h : Blanked l s t) (d : Nat) : t.bit (F.HDR.INT_ROUTE.INBAND (pgFE d)) = s.bit (F.HDR.INT_ROUTE.INBAND (pgFE d)) := by
  rw [State.bit, State.fld, h.reg _ (by simp only [pgFE]; omega), State.bit, State.fld]

theorem raiseInt (h : Blanked [d] s t) (hb : s.bit (F.HDR.INT_ROUTE.INBAND (pgFE d)) = false) (b : Nat) :
    Blanked [d] s (t.raiseInt ⟨pgFE d, b⟩) :=
  h.trans ⟨Calm.raiseInt t _ ((h.inband d).trans hb) (by simp [blankRegs]), raiseInt_time _ _, raiseInt_staged _ _, raiseInt_pins _ _,
    fun _ _ => raiseInt_getGroup _ _ _⟩

theorem quiet (h : Blanked l s t) : t.quiet = s.quiet :=
  h.calm.quiet (not_mem_blankRegs fun d _ => by simp [blankRegs, pgFE]; omega)

theorem ns32 (h : Blanked l s t) : t.ns32 = s.ns32 := by rw [State.ns32, State.nowNs, h.time, State.ns32, State.nowNs]

end Blanked

theorem blankStart_blanked (s : State) (d : Nat) (hb : s.bit (F.HDR.INT_ROUTE.INBAND (pgFE d)) = false) :
    Blanked [d] s (s.blankStart d) := by
  unfold State.blankStart
  exact ((((Blanked.refl [d] s).modGroup _).setFld _ _ (by simp [blankRegs])).setFld _ _ (by simp [blankRegs])).setBit _ _
    (by simp [blankRegs]) |>.raiseInt hb _

theorem blankEnd_blanked (s : State) (d : Nat) (hb : s.bit (F.HDR.INT_ROUTE.INBAND (pgFE d)) = false) :
    Blanked [d] s (s.blankEnd d) := by
  unfold State.blankEnd
  exact ((((Blanked.refl [d] s).modGroup _).setFld _ _ (by simp [blankRegs])).setBit _ _ (by simp [blankRegs])).setBit _ _
    (by simp [blankRegs]) |>.raiseInt hb _

theorem guardCheck_blanked {s t : State} {d : Nat} (h : Blanked [d] s t) (hb : s.bit (F.HDR.INT_ROUTE.INBAND (pgFE d)) = false) :
    Blanked [d] s (t.guardCheck d) := by
  unfold State.guardCheck
  split
  · split
    · exact h.trans (blankEnd_blanked t d ((h.inband d).trans hb))
    · exact h
  · exact h

/-! ### What the interval of a group does (R139) -/

section
variable {s : State} {g : Nat}

/-- The guard of the interval begins. -/
def guardBegun (s : State) (g : Nat) : State :=
  (s.modGroup g fun x => { x with guardAt := some s.time.cycles }).setBit (F.FE.BLANK_STS.IN_GUARD g) true

/-- The guard that ran ends with a new request. -/
def guardDropped (s : State) (g : Nat) : State := (s.modGroup g fun x => { x with guardAt := none }).setBit (F.FE.BLANK_STS.IN_GUARD g) false

theorem blankEval_held (ha : s.blankAsked g = true) (hx : (s.getGroup g).blank = true) : s.blankEval g = guardDropped s g := by
  simp only [State.blankEval, ha, hx, if_true, guardDropped]

theorem blankEval_starts (ha : s.blankAsked g = true) (hx : (s.getGroup g).blank = false) : s.blankEval g = s.blankStart g := by
  simp only [State.blankEval, ha, hx, if_true, Bool.false_eq_true, if_false]

theorem blankEval_guards (ha : s.blankAsked g = false) (hx : (s.getGroup g).blank = true) (hg : (s.getGroup g).guardAt = none) :
    s.blankEval g = (guardBegun s g).guardCheck g := by
  simp only [State.blankEval, ha, hx, hg, Bool.false_eq_true, if_false, and_self, if_true, guardBegun]

theorem blankEval_waits (ha : s.blankAsked g = false) (hx : ¬ ((s.getGroup g).blank = true ∧ (s.getGroup g).guardAt = none)) :
    s.blankEval g = s.guardCheck g := by
  simp only [State.blankEval, ha, hx, Bool.false_eq_true, if_false]

theorem guardCheck_none (h : (s.getGroup g).guardAt = none) : s.guardCheck g = s := by rw [State.guardCheck, h]

/-- Without a request, an interval or a guard nothing happens. -/
theorem blankEval_idle (ha : s.blankAsked g = false) (hx : (s.getGroup g).blank = false) (hg : (s.getGroup g).guardAt = none) :
    s.blankEval g = s := by
  rw [blankEval_waits ha (by simp [hx]), guardCheck_none hg]

theorem blankEval_blanked (s : State) (g : Nat) (hb : s.bit (F.HDR.INT_ROUTE.INBAND (pgFE g)) = false) :
    Blanked [g] s (s.blankEval g) := by
  have hguard (b : Bool) (f : Group → Group) : Blanked [g] s ((s.modGroup g f).setBit (F.FE.BLANK_STS.IN_GUARD g) b) :=
    ((Blanked.refl [g] s).modGroup f).setBit _ _ (by simp [blankRegs])
  cases ha : s.blankAsked g
  · by_cases hx : (s.getGroup g).blank = true ∧ (s.getGroup g).guardAt = none
    · obtain ⟨hx, hg⟩ := hx
      rw [blankEval_guards ha hx hg]
      exact guardCheck_blanked (hguard true _) hb
    · rw [blankEval_waits ha hx]
      exact guardCheck_blanked (Blanked.refl _ s) hb
  · cases hx : (s.getGroup g).blank
    · rw [blankEval_starts ha hx]
      exact blankStart_blanked s g hb
    · rw [blankEval_held ha hx]
      exact hguard false _

theorem each_blankEval_blanked (l : List Nat) (s : State) (hb : ∀ d ∈ l, s.bit (F.HDR.INT_ROUTE.INBAND (pgFE d)) = false) :
    Blanked l s (s.each l State.blankEval) := by
  induction l generalizing s with
  | nil => exact Blanked.refl [] s
  | cons d l ih =>
    have hd := blankEval_blanked s d (hb d List.mem_cons_self)
    have hl : ∀ e ∈ l, (s.blankEval d).bit (F.HDR.INT_ROUTE.INBAND (pgFE e)) = false := fun e he =>
      (hd.inband e).trans (hb e (List.mem_cons_of_mem d he))
    exact (hd.mono (by simp)).trans ((ih _ hl).mono fun e he => List.mem_cons_of_mem d he)

/-- The interval of the group has started at the NS32 given (R142). -/
structure Started (g ns : Nat) (t : State) : Prop where
  blank : (t.getGroup g).blank = true
  active : t.bit (F.FE.BLANK_STS.ACTIVE g) = true
  start : t.fld (F.FE.BLANK_START.NS32 g) = ns
  end_ : t.fld (F.FE.BLANK_END.NS32 g) = 0
  irq : (t.reg (0x1000 * pgFE g + 0x010)).getLsbD (Irq.blankStart g).bit = true

/-- The guard of the group runs since the cycle given. -/
structure Guarded (g c : Nat) (t : State) : Prop where
  guardAt : (t.getGroup g).guardAt = some c
  blank : (t.getGroup g).blank = true
  inGuard : t.bit (F.FE.BLANK_STS.IN_GUARD g) = true

theorem ns32_lt (s : State) : s.ns32 < 2 ^ 32 := Nat.mod_lt _ (by decide)

theorem blankStart_started (s : State) (g : Nat) : Started g s.ns32 (s.blankStart g) := by
  unfold State.blankStart
  refine ⟨?_, ?_, ?_, ?_, raiseInt_irq _ (Irq.blankStart g) (by decide : 4 < 32)⟩
  · rw [raiseInt_getGroup, setBit_getGroup, setFld_getGroup, setFld_getGroup, getGroup_modGroup_same]
  · rw [raiseInt_bit _ _ _ (by simp only [pgFE]; omega)]
    exact bit_setBit_same _ _ _ (by decide : 0 + 1 ≤ 32) rfl
  · rw [raiseInt_fld _ _ _ (by simp only [pgFE]; omega), fld_setBit_other _ _ _ _ (.inl (by simp only []; omega)),
      fld_setFld_addr _ _ _ _ (by simp only []; omega)]
    exact (fld_setFld_same _ (F.FE.BLANK_START.NS32 g) _ (by decide : 0 + 32 ≤ 32)).trans (Nat.mod_eq_of_lt (ns32_lt s))
  · rw [raiseInt_fld _ _ _ (by simp only [pgFE]; omega), fld_setBit_other _ _ _ _ (.inl (by simp only []; omega))]
    exact fld_setFld_same _ (F.FE.BLANK_END.NS32 g) _ (by decide : 0 + 32 ≤ 32)

/-- A guard of some length does not end as it begins. -/
theorem guardBegun_lasts (h : s.fld (F.FE.BLANK_CTL.GUARD g) ≠ 0) : (guardBegun s g).guardCheck g = guardBegun s g := by
  have hat : ((guardBegun s g).getGroup g).guardAt = some s.time.cycles := by
    rw [guardBegun, setBit_getGroup, getGroup_modGroup_same]
  have hfld : (guardBegun s g).fld (F.FE.BLANK_CTL.GUARD g) = s.fld (F.FE.BLANK_CTL.GUARD g) :=
    fld_setBit_other _ _ _ _ (.inl (by simp only []; omega))
  have htime : (guardBegun s g).time = s.time := rfl
  rw [State.guardCheck, hat]
  refine if_neg ?_
  rw [State.guardCycles, hfld, htime]
  omega

theorem guardBegun_guarded (hx : (s.getGroup g).blank = true) : Guarded g s.time.cycles (guardBegun s g) := by
  have hgroup : (guardBegun s g).getGroup g = { s.getGroup g with guardAt := some s.time.cycles } := by
    rw [guardBegun, setBit_getGroup, getGroup_modGroup_same]
  exact ⟨by rw [hgroup], by rw [hgroup]; exact hx, bit_setBit_same _ _ _ (by decide : 1 + 1 ≤ 32) rfl⟩

/-- What is left of a group by the evaluation of others. -/
theorem Started.kept {l : List Nat} {u t : State} {ns : Nat} (h : Started g ns u) (hk : Blanked l u t) (hg : g ∉ l) : Started g ns t := by
  have hpage (o : Nat) (ho : o < 0x1000) : t.reg (0x1000 * pgFE g + o) = u.reg (0x1000 * pgFE g + o) :=
    hk.page hg _ (by simp only [pgFE]; omega)
  have hfld (f : Fld) (hf : f.addr / 0x1000 = pgFE g) : t.fld f = u.fld f := congrArg (fun r => getBits r _ _) (hk.page hg _ hf)
  refine ⟨by rw [hk.group g hg]; exact h.blank, ?_, ?_, ?_, by rw [hpage _ (by decide)]; exact h.irq⟩
  · rw [State.bit, hfld _ (by simp only [pgFE]; omega)]
    exact h.active
  · rw [hfld _ (by simp only [pgFE]; omega)]
    exact h.start
  · rw [hfld _ (by simp only [pgFE]; omega)]
    exact h.end_

theorem Guarded.kept {l : List Nat} {u t : State} {c : Nat} (h : Guarded g c u) (hk : Blanked l u t) (hg : g ∉ l) : Guarded g c t := by
  have hgroup := hk.group g hg
  refine ⟨by rw [hgroup]; exact h.guardAt, by rw [hgroup]; exact h.blank, ?_⟩
  rw [State.bit, State.fld, hk.page hg _ (by simp only [pgFE]; omega)]
  exact h.inGuard

end

/-! ### An edge on a pin (R139) -/

theorem getLsbD_setBlank (p : Pins) (n : Fin 4) (level : Bool) : (Pins.setBlank n.val level p).blankN.getLsbD n.val = level := by
  have hbit : (BitVec.ofNat 4 (2 ^ n.val)).getLsbD n.val = true := by
    rw [BitVec.getLsbD_ofNat, Nat.testBit_two_pow_self, decide_eq_true n.isLt]
    rfl
  cases level
  · simp only [Pins.setBlank, Bool.false_eq_true, if_false, BitVec.getLsbD_and, BitVec.getLsbD_not, hbit]
    simp
  · simp only [Pins.setBlank, if_true, BitVec.getLsbD_or, hbit, Bool.or_true]

/-- The pin has its new level. -/
def pinSet (s : State) (n : Nat) (level : Bool) : State := s.modPins (Pins.setBlank n level)

theorem blankEdge_eq (s : State) (n : Nat) (level : Bool) : s.blankEdge n level = (pinSet s n level).each (List.range 32) State.blankEval := rfl

section
variable {s : State} (hs : s.quiet = true) (n : Fin 4) (level : Bool)
  (hb : ((List.range 32).all fun g => !s.bit (F.HDR.INT_ROUTE.INBAND (pgFE g))) = true)
include hs hb

omit hs in
theorem fe_quietly {d : Nat} (hd : d ∈ List.range 32) : (pinSet s n.val level).bit (F.HDR.INT_ROUTE.INBAND (pgFE d)) = false := by
  have h : s.bit (F.HDR.INT_ROUTE.INBAND (pgFE d)) = false := by simpa using List.all_eq_true.1 hb d hd
  exact h

theorem blankEdge_next : exec (.blankEdge n level) s = .next (s.blankEdge n.val level)
    ∧ Blanked (List.range 32) (pinSet s n.val level) (s.blankEdge n.val level) := by
  have hall := each_blankEval_blanked (List.range 32) (pinSet s n.val level) fun d hd => fe_quietly n level hb hd
  exact ⟨(exec_blankEdge hs n level).trans (act_eq hs rfl hall.quiet hall.calm.pending), hall⟩

omit hs in
/-- The evaluation of group `g` alone decides what an edge leaves of it. -/
theorem blankEdge_group (g : Fin 32) : ∃ l l' u, g.val ∉ l ∧ g.val ∉ l' ∧ Blanked l (pinSet s n.val level) u
    ∧ Blanked l' (u.blankEval g.val) (s.blankEdge n.val level) := by
  obtain ⟨l, l', hl⟩ := List.append_of_mem (List.mem_range.2 g.isLt)
  have hnd : (l ++ g.val :: l').Nodup := hl ▸ List.nodup_range
  have hmem : ∀ d ∈ l ++ g.val :: l', (pinSet s n.val level).bit (F.HDR.INT_ROUTE.INBAND (pgFE d)) = false := fun d hd =>
    fe_quietly n level hb (hl ▸ hd)
  have hbefore := each_blankEval_blanked l (pinSet s n.val level) fun d hd => hmem d (by simp [hd])
  generalize hu : (pinSet s n.val level).each l State.blankEval = u at hbefore
  have hg := blankEval_blanked u g.val ((hbefore.inband g.val).trans (hmem g.val (by simp)))
  have hafter := each_blankEval_blanked l' (u.blankEval g.val) fun d hd =>
    (hg.inband d).trans ((hbefore.inband d).trans (hmem d (by simp [hd])))
  refine ⟨l, l', u, ?_, ?_, hbefore, ?_⟩
  · exact fun h => (List.nodup_append.1 hnd).2.2 _ h _ List.mem_cons_self rfl
  · exact (List.nodup_cons.1 (List.nodup_append.1 hnd).2.1).1
  · have heach : s.blankEdge n.val level = (u.blankEval g.val).each l' State.blankEval := by
      rw [blankEdge_eq, hl, ← hu]
      simp only [State.each, List.foldl_append, List.foldl_cons]
    rw [heach]
    exact hafter

end

/-- A request as the group's selection and the level of the pins have it. -/
theorem blankAsked_congr {s t : State} {g : Nat} (hr : t.reg (F.FE.BLANK_CTL.SEL g).addr = s.reg (F.FE.BLANK_CTL.SEL g).addr)
    (hp : t.pins = s.pins) : t.blankAsked g = s.blankAsked g := by
  rw [State.blankAsked, State.fld, hr, hp, State.blankAsked, State.fld]

/-- A selected pin that goes low asks for the interval. -/
theorem pinSet_asked (s : State) (n : Fin 4) (g : Nat) (h : (s.fld (F.FE.BLANK_CTL.SEL g)).testBit n.val = true) :
    (pinSet s n.val false).blankAsked g = true := by
  have hlow : (pinSet s n.val false).pins.blankN.getLsbD n.val = false := getLsbD_setBlank s.pins n false
  have hsel : (pinSet s n.val false).fld (F.FE.BLANK_CTL.SEL g) = s.fld (F.FE.BLANK_CTL.SEL g) := rfl
  rw [State.blankAsked, decide_eq_true_eq, hsel]
  intro h0
  have hn : (BitVec.ofNat 4 (s.fld (F.FE.BLANK_CTL.SEL g)) &&& ~~~ (pinSet s n.val false).pins.blankN).getLsbD n.val = true := by
    rw [BitVec.getLsbD_and, BitVec.getLsbD_not, BitVec.getLsbD_ofNat, hlow, h, decide_eq_true n.isLt]
    rfl
  rw [h0] at hn
  simp at hn

/-! ### A write of BLANK_CTL (R139) -/

/-- The write has set the selection and the guard. -/
def ctlSet (s : State) (g : Nat) (v : Reg) : State :=
  (s.otherWrite.setFld (F.FE.BLANK_CTL.SEL g) (getBits v 0 4)).setFld (F.FE.BLANK_CTL.GUARD g) (getBits v 16 10)

theorem ctlSet_mild (s : State) (g : Nat) (v : Reg) : Mild [(F.FE.BLANK_CTL.SEL g).addr] s.otherWrite (ctlSet s g v) :=
  (Mild.setFld _ _ _ (by simp)).trans (Mild.setFld _ _ _ (by simp))

theorem ctlSet_guard (s : State) (g : Nat) (v : Reg) : (ctlSet s g v).fld (F.FE.BLANK_CTL.GUARD g) = getBits v 16 10 :=
  (fld_setFld_same _ (F.FE.BLANK_CTL.GUARD g) _ (by decide : 16 + 10 ≤ 32)).trans (Nat.mod_eq_of_lt (getBits_lt v 16 10))

theorem ctlSet_sel (s : State) (g : Nat) (v : Reg) : (ctlSet s g v).fld (F.FE.BLANK_CTL.SEL g) = getBits v 0 4 :=
  (fld_setFld_other _ _ (F.FE.BLANK_CTL.GUARD g) _ (.inr (.inl (by decide : 0 + 4 ≤ 16)))).trans
    ((fld_setFld_same _ (F.FE.BLANK_CTL.SEL g) _ (by decide : 0 + 4 ≤ 32)).trans (Nat.mod_eq_of_lt (getBits_lt v 0 4)))

theorem ctlSet_getGroup (s : State) (g : Nat) (v : Reg) (d : Nat) : (ctlSet s g v).getGroup d = s.getGroup d := rfl

theorem ctlSet_asked (s : State) (g : Nat) (v : Reg) :
    (ctlSet s g v).blankAsked g = decide (BitVec.ofNat 4 (getBits v 0 4) &&& ~~~ s.pins.blankN ≠ 0#4) := by
  rw [State.blankAsked, ctlSet_sel]
  rfl

section
variable {s : State} (hs : s.quiet = true) (g : Fin 32) (v : Reg) {t : State} (ht : (ctlSet s g.val v).blankEval g.val = t)
  (hk : Blanked [g.val] (ctlSet s g.val v) t)
include hs ht hk

/-- A write whose evaluation is known leaves that, with the selection and the guard that it wrote. -/
theorem blankCtlWrite_next : exec (.blankCtlWrite g v) s = .next t ∧ t.fld (F.FE.BLANK_CTL.SEL g.val) = getBits v 0 4
    ∧ t.fld (F.FE.BLANK_CTL.GUARD g.val) = getBits v 16 10 := by
  have hm := ctlSet_mild s g.val v
  have hreg : t.reg (F.FE.BLANK_CTL.SEL g.val).addr = (ctlSet s g.val v).reg (F.FE.BLANK_CTL.SEL g.val).addr := hk.reg _ (by simp only []; omega)
  refine ⟨?_, ?_, ?_⟩
  · exact (exec_blankCtlWrite g v s).trans
      (act_eq hs ht (hk.quiet.trans ((hm.quiet (by simp; omega)).trans (quiet_otherWrite s))) (hk.calm.pending.trans hm.pending))
  · rw [State.fld, hreg]
    exact ctlSet_sel s g.val v
  · rw [State.fld, hreg]
    exact ctlSet_guard s g.val v

end

theorem ctlSet_inband (s : State) (g d : Nat) (v : Reg) :
    (ctlSet s g v).bit (F.HDR.INT_ROUTE.INBAND (pgFE d)) = s.bit (F.HDR.INT_ROUTE.INBAND (pgFE d)) :=
  (ctlSet_mild s g v).bit _ (by simp [pgFE]; omega)

/-! ### The end of the guard (R139, R142) -/

/-- Time has run to the end of the guard. -/
def guardReached (s : State) (g c : Nat) : State := s.reachCycles (c + s.guardCycles g)

theorem guardReached_cycles (s : State) (g c : Nat) : c + s.guardCycles g ≤ (guardReached s g c).time.cycles := reachCycles_cycles s _

theorem guardExpire_eq (s : State) (g c : Nat) (h : (s.getGroup g).guardAt = some c) : s.guardExpire g = (guardReached s g c).blankEnd g := by
  have hat : ((guardReached s g c).getGroup g).guardAt = some c := by rw [guardReached, reachCycles_getGroup, h]
  have hlen : (guardReached s g c).guardCycles g = s.guardCycles g := by rw [State.guardCycles, guardReached, reachCycles_fld, State.guardCycles]
  have hexp : s.guardExpire g = (guardReached s g c).guardCheck g := by rw [State.guardExpire, h, guardReached]
  rw [hexp, State.guardCheck, hat]
  refine if_pos ?_
  rw [hlen]
  exact guardReached_cycles s g c

/-- The interval of the group has ended (R142). -/
structure Ended (g ns : Nat) (t : State) : Prop where
  blank : (t.getGroup g).blank = false
  guardAt : (t.getGroup g).guardAt = none
  active : t.bit (F.FE.BLANK_STS.ACTIVE g) = false
  inGuard : t.bit (F.FE.BLANK_STS.IN_GUARD g) = false
  end_ : t.fld (F.FE.BLANK_END.NS32 g) = ns
  irq : (t.reg (0x1000 * pgFE g + 0x010)).getLsbD (Irq.blankEnd g).bit = true

theorem blankEnd_ended (s : State) (g : Nat) : Ended g s.ns32 (s.blankEnd g) := by
  unfold State.blankEnd
  refine ⟨?_, ?_, ?_, ?_, ?_, raiseInt_irq _ (Irq.blankEnd g) (by decide : 5 < 32)⟩
  · rw [raiseInt_getGroup, setBit_getGroup, setBit_getGroup, setFld_getGroup, getGroup_modGroup_same]
  · rw [raiseInt_getGroup, setBit_getGroup, setBit_getGroup, setFld_getGroup, getGroup_modGroup_same]
  · rw [raiseInt_bit _ _ _ (by simp only [pgFE]; omega), bit_setBit_other _ _ _ _ (.inr (.inl (by decide : 0 + 1 ≤ 1)))]
    exact bit_setBit_same _ _ _ (by decide : 0 + 1 ≤ 32) rfl
  · rw [raiseInt_bit _ _ _ (by simp only [pgFE]; omega)]
    exact bit_setBit_same _ _ _ (by decide : 1 + 1 ≤ 32) rfl
  · rw [raiseInt_fld _ _ _ (by simp only [pgFE]; omega), fld_setBit_other _ _ _ _ (.inl (by simp only []; omega)),
      fld_setBit_other _ _ _ _ (.inl (by simp only []; omega))]
    exact (fld_setFld_same _ (F.FE.BLANK_END.NS32 g) _ (by decide : 0 + 32 ≤ 32)).trans (Nat.mod_eq_of_lt (ns32_lt s))

/-- The end of the guard ends the interval, and not before its time. -/
theorem blankGuardExpire_next {s : State} (hs : s.quiet = true) (g : Fin 32) {c : Nat}
    (hb : s.bit (F.HDR.INT_ROUTE.INBAND (pgFE g.val)) = false) (h : (s.getGroup g.val).guardAt = some c) :
    ∃ t, exec (.blankGuardExpire g) s = .next t ∧ Ended g.val t.ns32 t ∧ c + s.guardCycles g.val ≤ t.time.cycles := by
  have hb' : (guardReached s g.val c).bit (F.HDR.INT_ROUTE.INBAND (pgFE g.val)) = false := by
    rw [guardReached, reachCycles_bit]
    exact hb
  have hk := blankEnd_blanked (guardReached s g.val c) g.val hb'
  refine ⟨_, (exec_blankGuardExpire g s).trans (act_eq hs (guardExpire_eq s g.val c h) (hk.quiet.trans ?_) (hk.calm.pending.trans ?_)), ?_, ?_⟩
  · rw [guardReached, quiet_reachCycles]
  · rw [guardReached, reachCycles_pending]
  · rw [hk.ns32]
    exact blankEnd_ended _ _
  · rw [hk.time]
    exact guardReached_cycles s g.val c

/-- Settles O19: an edge or a write evaluates the interval of a group, which starts, guards or stays; the end of the guard ends it. -/
theorem blankingIntervals : Obligations.BlankingIntervals := by
  unfold Obligations.BlankingIntervals
  intro s hs
  refine ⟨?_, ?_, ?_, ?_, ?_, ?_, ?_, ?_⟩
  · intro n level h
    have hidle : s.blankEdge n.val level = pinSet s n.val level := by
      refine each_fixed (pinSet s n.val level) (List.range 32) State.blankEval fun g hg => ?_
      have hg := List.all_eq_true.1 h g hg
      simp only [Bool.and_eq_true, decide_eq_true_eq, Bool.not_eq_true', Option.isNone_iff_eq_none] at hg
      obtain ⟨⟨hsel, hx⟩, hguard⟩ := hg
      have hsel' : (pinSet s n.val level).fld (F.FE.BLANK_CTL.SEL g) = 0 := hsel
      exact blankEval_idle (by simp [State.blankAsked, hsel']) hx hguard
    exact (exec_blankEdge hs n level).trans (act_eq hs hidle rfl rfl)
  · intro n level hb
    obtain ⟨hnext, hall⟩ := blankEdge_next hs n level hb
    exact ⟨_, hnext, by rw [hall.pins]; exact getLsbD_setBlank s.pins n level, hall.time, hall.staged⟩
  · intro n g hb hsel hx
    obtain ⟨l, l', u, hg, hg', hbefore, hafter⟩ := blankEdge_group n false hb g
    have hask : u.blankAsked g.val = true := (blankAsked_congr (hbefore.reg _ (by simp only []; omega)) hbefore.pins).trans (pinSet_asked s n g.val hsel)
    have hstart := blankStart_started u g.val
    rw [← blankEval_starts hask (by rw [hbefore.group _ hg]; exact hx), hbefore.ns32] at hstart
    have ht := hstart.kept hafter hg'
    exact ⟨_, (blankEdge_next hs n false hb).1, ht.blank, ht.active, ht.start, ht.end_, ht.irq⟩
  · intro n g hb hpins hx hguard hlen
    obtain ⟨l, l', u, hg, hg', hbefore, hafter⟩ := blankEdge_group n true hb g
    have hctl : u.reg (F.FE.BLANK_CTL.SEL g.val).addr = s.reg (F.FE.BLANK_CTL.SEL g.val).addr := hbefore.reg _ (by simp only []; omega)
    have hask : u.blankAsked g.val = false := by
      refine (blankAsked_congr (s := pinSet s n.val true) hctl hbefore.pins).trans ?_
      rw [State.blankAsked]
      exact decide_eq_false fun h => h hpins
    have hgroup : u.getGroup g.val = s.getGroup g.val := hbefore.group _ hg
    have hrun := guardBegun_guarded (s := u) (g := g.val) (by rw [hgroup]; exact hx)
    rw [← guardBegun_lasts (by rw [State.fld, hctl]; exact hlen), ← blankEval_guards hask (by rw [hgroup]; exact hx)
      (by rw [hgroup]; exact hguard), hbefore.time] at hrun
    have ht := hrun.kept hafter hg'
    exact ⟨_, (blankEdge_next hs n true hb).1, ht.guardAt, ht.blank, ht.inGuard⟩
  · intro g v hb hx hpins
    have heval : (ctlSet s g.val v).blankEval g.val = (ctlSet s g.val v).blankStart g.val :=
      blankEval_starts ((ctlSet_asked s g.val v).trans (decide_eq_true hpins)) hx
    obtain ⟨hnext, hsel, hlen⟩ := blankCtlWrite_next hs g v heval (blankStart_blanked _ _ ((ctlSet_inband s g.val g.val v).trans hb))
    have ht := blankStart_started (ctlSet s g.val v) g.val
    exact ⟨_, hnext, hsel, hlen, ht.blank, ht.active, ht.start, ht.end_, ht.irq⟩
  · intro g v hb hx hguard hpins hlen
    have heval : (ctlSet s g.val v).blankEval g.val = guardBegun (ctlSet s g.val v) g.val :=
      (blankEval_guards ((ctlSet_asked s g.val v).trans (decide_eq_false fun h => h hpins)) hx hguard).trans
        (guardBegun_lasts (by rw [ctlSet_guard]; exact hlen))
    have hk := blankEval_blanked (ctlSet s g.val v) g.val ((ctlSet_inband s g.val g.val v).trans hb)
    obtain ⟨hnext, hsel, hlen'⟩ := blankCtlWrite_next hs g v heval (heval ▸ hk)
    have ht := guardBegun_guarded (s := ctlSet s g.val v) (g := g.val) hx
    exact ⟨_, hnext, hsel, hlen', ht.blank, ht.guardAt, ht.inGuard⟩
  · intro g v hx hguard hpins
    have heval : (ctlSet s g.val v).blankEval g.val = ctlSet s g.val v :=
      blankEval_idle ((ctlSet_asked s g.val v).trans (decide_eq_false fun h => h hpins)) hx hguard
    obtain ⟨hnext, hsel, hlen⟩ := blankCtlWrite_next hs g v heval (Blanked.refl _ _)
    have hm := ctlSet_mild s g.val v
    exact ⟨_, hnext, hsel, hlen, hm.only, hm.regs⟩
  · intro g c0 hb hguard
    obtain ⟨t, hnext, ht, hcycles⟩ := blankGuardExpire_next hs g hb hguard
    exact ⟨t, hnext, ht.blank, ht.guardAt, ht.active, ht.inGuard, ht.end_, hcycles, ht.irq⟩

end Sys2Proof.InputProofs

namespace Sys2Proof.InputProofs

open Sys2Proof Sys2Proof.Machine Sys2Proof.Laws Sys2Proof.ScopeProofs Sys2Proof.TimeProofs Sys2Proof.TickProofs

/-! ## What queues and contexts leave of the channels -/

section
variable (s : State)

theorem chan_queueKept : QueueKept fun t => t.chan = s.chan := ⟨fun _ _ _ h => h, fun _ _ _ _ _ h => h, fun _ _ h => h, fun _ h => h⟩

@[simp] theorem offer_chan (q typ : Nat) (l : List Word) : (s.offer q typ l).chan = s.chan := (chan_queueKept s).offer rfl

theorem each_chan {α : Type} (l : List α) (f : State → α → State) (h : ∀ t a, (f t a).chan = t.chan) : (s.each l f).chan = s.chan :=
  QueueKept.each (P := fun t => t.chan = s.chan) rfl fun t a _ ht => (h t a).trans ht

@[simp] theorem setCapWord_chan (a : Nat) (w : Word) : (s.setCapWord a w).chan = s.chan := rfl
@[simp] theorem modMember_chan (x k : Nat) (f : Member → Member) : (s.modMember x k f).chan = s.chan := rfl

@[simp] theorem rateStep_chan (x cause r : Nat) : (s.rateStep x cause r).chan = s.chan := by simp [State.rateStep]

@[simp] theorem rateReduce_chan (w : Nat) : (s.rateReduce w).chan = s.chan := by
  unfold State.rateReduce
  dsimp only
  split <;> simp

@[simp] theorem setWriter_chan (w level since : Nat) : (s.setWriter w level since).chan = s.chan := by simp [State.setWriter]
@[simp] theorem writerCheck_chan (w : Nat) : (s.writerCheck w).chan = s.chan := by simp [State.writerCheck]
@[simp] theorem writerTake_chan (x : Nat) : (s.writerTake x).chan = s.chan := by simp [State.writerTake, each_chan]
@[simp] theorem storeSlot_chan (x k : Nat) (w : Word) (idx : Nat) (mark : Bool) : (s.storeSlot x k w idx mark).chan = s.chan := by
  simp [State.storeSlot]

@[simp] theorem storeRates_chan (x k idx fuel : Nat) : (s.storeRates x k idx fuel).chan = s.chan := by
  induction fuel generalizing s with
  | zero => rfl
  | succ fuel ih =>
    unfold State.storeRates
    split <;> simp [ih]

@[simp] theorem storeDue_chan (x k idx : Nat) : (s.storeDue x k idx).chan = s.chan := by simp [State.storeDue, each_chan]

@[simp] theorem roundTie_chan (num den : Nat) : (s.roundTie num den).2.chan = s.chan := by
  unfold State.roundTie
  split <;> simp

@[simp] theorem measResults_chan (set : Nat) (m : Meas) : (s.measResults set m).2.chan = s.chan := by
  by_cases hm : m.used = 0
  · rw [State.measResults, if_pos hm]
  · rw [measResults_snd s set m hm]
    split <;> simp

@[simp] theorem membersFill_chan (c pre pe set trig : Nat) (l : List Member) : (s.membersFill c pre pe set trig l).2.chan = s.chan := by
  induction l generalizing s with
  | nil => rfl
  | cons m l ih => exact (ih _).trans (measResults_chan s set m.meas)

@[simp] theorem recTick_chan (x : Nat) : (s.recTick x).chan = s.chan := by simp [State.recTick]
@[simp] theorem recFill_chan (x : Nat) : (s.recFill x).chan = s.chan := by simp [State.recFill]
@[simp] theorem cxEnter_chan (x st : Nat) : (s.cxEnter x st).chan = s.chan := by simp [State.cxEnter]
/-- What a context does once its record is held (R267, R290). -/
def recordClosed (u : State) (x : Nat) : State :=
  let u := (u.cxEnter x cxDone).modCtx x fun c => { c with released := false, hwmSeen := false, lastHigh := c.bufHigh }
  let u := u.when (u.bit (F.CTX.CTX_CFG.RO_MODE x) = false) fun u => u.modTrig fun t => { t with order := t.order ++ [(u.time.cycles, x)] }
  (u.count (F.CTX.RECORD_CNT.CNT x)).raiseInt Irq.recordDone

theorem cxFinish_eq (x : Nat) : s.cxFinish x = recordClosed (s.recFill x) x := by unfold State.cxFinish; rfl

theorem recordClosed_chan (u : State) (x : Nat) : (recordClosed u x).chan = u.chan := by
  unfold recordClosed
  simp only [raiseInt_chan, count_chan, when_chan, modTrig_chan, modCtx_chan, cxEnter_chan, ite_self]

@[simp] theorem cxFinish_chan (x : Nat) : (s.cxFinish x).chan = s.chan := by rw [cxFinish_eq, recordClosed_chan, recFill_chan]
@[simp] theorem memberDone_chan (x k : Nat) : (s.memberDone x k).chan = s.chan := by simp [State.memberDone, State.cxCheckDone]

@[simp] theorem memberWord_chan (x k : Nat) (w : Sample) (idx n i : Nat) : (s.memberWord x k w idx n i).chan = s.chan := by
  unfold State.memberWord
  dsimp only
  split <;> split <;> simp

@[simp] theorem captureWord_chan (c : Nat) (fir : Bool) (w : Sample) (idx n i : Nat) : (s.captureWord c fir w idx n i).chan = s.chan := by
  simp [State.captureWord, each_chan]

@[simp] theorem captureMark_chan (c : Nat) (fir : Bool) (m : ChMarker) (idx : Nat) : (s.captureMark c fir m idx).chan = s.chan := by
  simp [State.captureMark, each_chan]

@[simp] theorem deliver_chan (x : Nat) (r : Trigger) : (s.deliver x r).chan = s.chan := by simp [State.deliver, State.cxIgnore]

@[simp] theorem levelWord_chan (c : Nat) (fir : Bool) (w : Sample) (idx n : Nat) : (s.levelWord c fir w idx n).chan = s.chan := by
  simp [State.levelWord, each_chan]

end

end Sys2Proof.InputProofs

namespace Sys2Proof.InputProofs

open Sys2Proof Sys2Proof.Machine Sys2Proof.Laws Sys2Proof.ScopeProofs Sys2Proof.TimeProofs Sys2Proof.TickProofs

/-! ## What the chain leaves of the front ends and the windows -/

/-- What the chain behind the averager leaves of channel `d`: what its front end waits for, and its window. -/
def frontAt (s : State) (d : Nat) : Option (Nat × Nat) × Bool × Option Bool × Window :=
  ((s.getChan d).rngAt, (s.getChan d).dis, (s.getChan d).swap, (s.getChan d).win)

theorem frontAt_congr {s t : State} (h : t.chan = s.chan) (d : Nat) : frontAt t d = frontAt s d := by
  rw [frontAt, State.getChan, h, frontAt, State.getChan]

section
variable (s : State) (c d : Nat)

@[simp] theorem frontAt_modChan (f : Chan → Chan)
    (hf : ∀ x, (f x).rngAt = x.rngAt ∧ (f x).dis = x.dis ∧ (f x).swap = x.swap ∧ (f x).win = x.win) :
    frontAt (s.modChan c f) d = frontAt s d := by
  by_cases hd : d = c
  · obtain ⟨hrng, hdis, hswap, hwin⟩ := hf (s.getChan c)
    rw [hd, frontAt, getChan_modChan_same, hrng, hdis, hswap, hwin, frontAt]
  · rw [frontAt, getChan_modChan_ne _ _ _ _ hd, frontAt]

@[simp] theorem frontAt_setReg (a : Nat) (v : Reg) : frontAt (s.setReg a v) d = frontAt s d := frontAt_congr rfl d
@[simp] theorem frontAt_setFld (f : Fld) (x : Nat) : frontAt (s.setFld f x) d = frontAt s d := frontAt_congr rfl d
@[simp] theorem frontAt_setBit (f : Fld) (b : Bool) : frontAt (s.setBit f b) d = frontAt s d := frontAt_congr rfl d
@[simp] theorem frontAt_count (f : Fld) (k : Nat) : frontAt (s.count f k) d = frontAt s d := frontAt_congr rfl d
@[simp] theorem frontAt_raiseInt (i : IntBit) : frontAt (s.raiseInt i) d = frontAt s d := frontAt_congr (raiseInt_chan s i) d
@[simp] theorem frontAt_drawTruth : frontAt s.drawTruth.2 d = frontAt s d := frontAt_congr rfl d

@[simp] theorem frontAt_raiseFault (f : FltBit) (hf : f.cls ≠ clsFatal) : frontAt (s.raiseFault f) d = frontAt s d :=
  frontAt_congr ((chan_queueKept s).raiseFault rfl (fun _ _ _ h => h) hf) d

@[simp] theorem frontAt_when (b : Bool) (f : State → State) (hf : ∀ t, frontAt (f t) d = frontAt t d) :
    frontAt (s.when b f) d = frontAt s d := by
  cases b
  · rfl
  · exact hf s

@[simp] theorem frontAt_ite (p : Prop) [Decidable p] (t u : State) : frontAt (if p then t else u) d = if p then frontAt t d else frontAt u d :=
  apply_ite (fun t => frontAt t d) p t u

@[simp] theorem frontAt_each {α : Type} (l : List α) (f : State → α → State) (hf : ∀ t a, frontAt (f t a) d = frontAt t d) :
    frontAt (s.each l f) d = frontAt s d :=
  QueueKept.each (P := fun t => frontAt t d = frontAt s d) rfl fun t a _ h => (hf t a).trans h

@[simp] theorem frontAt_captureWord (fir : Bool) (w : Sample) (idx n i : Nat) : frontAt (s.captureWord c fir w idx n i) d = frontAt s d :=
  frontAt_congr (captureWord_chan s c fir w idx n i) d
@[simp] theorem frontAt_captureMark (fir : Bool) (m : ChMarker) (idx : Nat) : frontAt (s.captureMark c fir m idx) d = frontAt s d :=
  frontAt_congr (captureMark_chan s c fir m idx) d
@[simp] theorem frontAt_levelWord (fir : Bool) (w : Sample) (idx n : Nat) : frontAt (s.levelWord c fir w idx n) d = frontAt s d :=
  frontAt_congr (levelWord_chan s c fir w idx n) d

@[simp] theorem frontAt_modJoin (f : JoinCh → JoinCh) : frontAt (s.modJoin c f) d = frontAt s d := by simp [State.modJoin]
@[simp] theorem frontAt_modRain (f : Rain → Rain) : frontAt (s.modRain c f) d = frontAt s d := by simp [State.modRain]

@[simp] theorem frontAt_reducerOffer (typ : Nat) (l : List Word) : frontAt (s.reducerOffer c typ l) d = frontAt s d := by
  unfold State.reducerOffer
  split
  · exact frontAt_congr (offer_chan s _ typ l) d
  · rfl

/-! ### STREAM and STATS (R239 to R245) -/

@[simp] theorem frontAt_streamClose : frontAt (s.streamClose c) d = frontAt s d := by
  unfold State.streamClose
  split <;> simp

@[simp] theorem frontAt_streamAge : frontAt (s.streamAge c) d = frontAt s d := by
  unfold State.streamAge
  split <;> simp

@[simp] theorem frontAt_streamWord (w : Sample) (idx n : Nat) : frontAt (s.streamWord c w idx n) d = frontAt s d := by
  have hpkt (t : State) (p : Option OpenPkt) (h : frontAt t d = frontAt s d) :
      frontAt (t.modChan c fun x => { x with pkt := p }) d = frontAt s d :=
    (frontAt_modChan t c d (fun x => { x with pkt := p }) fun _ => ⟨rfl, rfl, rfl, rfl⟩).trans h
  have hopen : frontAt (match ((s.streamAge c).getChan c).pkt with
      | some p =>
        let d := n - p.lastN
        if n ≤ p.lastN ∨ (p.stride ≠ 0 ∧ d ≠ p.stride) ∨ 4194303 < d then (s.streamAge c).streamClose c else s.streamAge c
      | none => s.streamAge c) d = frontAt s d := by
    split <;> simp
  unfold State.streamWord
  exact QueueKept.ite (P := fun t => frontAt t d = frontAt s d) ((frontAt_streamClose _ c d).trans (hpkt _ _ hopen)) (hpkt _ _ hopen)

@[simp] theorem frontAt_streamMark (m : ChMarker) : frontAt (s.streamMark c m) d = frontAt s d := by simp [State.streamMark]

@[simp] theorem frontAt_statsClose (short : Bool) : frontAt (s.statsClose c short) d = frontAt s d := by simp [State.statsClose]
@[simp] theorem frontAt_statsWord (w : Sample) (idx i : Nat) : frontAt (s.statsWord c w idx i) d = frontAt s d := by
  simp [State.statsWord]
@[simp] theorem frontAt_statsMark (m : ChMarker) : frontAt (s.statsMark c m) d = frontAt s d := by simp [State.statsMark]

/-! ### RAIN (R246 to R252) -/

@[simp] theorem frontAt_rainCount (r k : Nat) : frontAt (s.rainCount c r k) d = frontAt s d := frontAt_congr rfl d

@[simp] theorem frontAt_rainPush (v : Int) : frontAt (s.rainPush c v) d = frontAt s d := by
  unfold State.rainPush
  dsimp only
  generalize (s.getChan c).rain.stack.reverse = l
  rcases l with _ | ⟨a, _ | ⟨b, l⟩⟩ <;> simp

@[simp] theorem frontAt_rainCycles (n : Nat) : frontAt (s.rainCycles c n) d = frontAt s d := by
  induction n generalizing s with
  | zero => rfl
  | succ n ih =>
    unfold State.rainCycles
    split <;> simp [ih]

@[simp] theorem frontAt_rainTurn (v : Int) (dir : Nat) : frontAt (s.rainTurn c v dir) d = frontAt s d := by simp [State.rainTurn]
@[simp] theorem frontAt_rainWord (w : Sample) (idx : Nat) : frontAt (s.rainWord c w idx) d = frontAt s d := by simp [State.rainWord]

@[simp] theorem frontAt_rainResidue (l : List Int) : frontAt (s.rainResidue c l) d = frontAt s d := by
  induction l generalizing s with
  | nil => rfl
  | cons a l ih =>
    cases l with
    | nil => rfl
    | cons b l => exact ih (s.rainCount c (rangeOf a b) 1)

@[simp] theorem frontAt_rainJoin (units counted clear : Bool) : frontAt (s.rainJoin c units counted clear) d = frontAt s d := by
  simp [State.rainJoin]

@[simp] theorem frontAt_commitEnd (p : Nat) : frontAt (s.commitEnd p) d = frontAt s d := by
  unfold State.commitEnd
  exact frontAt_when _ d _ _ fun t => frontAt_raiseInt t d _

@[simp] theorem frontAt_rainTake : frontAt (s.rainTake c) d = frontAt s d := by
  unfold State.rainTake
  dsimp only
  cases s.commitOf (pgRAIN (c / 16)) with
  | none => rfl
  | some q =>
    have hend {p : Prop} [Decidable p] (t : State) (l : List Commit) :
        frontAt (if p then t.commitEnd (pgRAIN (c / 16)) else { t with commits := l }) d = frontAt t d := by
      split
      · exact frontAt_commitEnd t d _
      · rfl
    refine QueueKept.ite (P := fun t => frontAt t d = frontAt s d) rfl ((hend _ _).trans ?_)
    simp [State.takeStaged]

@[simp] theorem frontAt_rainDump (cause idx : Nat) : frontAt (s.rainDump c cause idx) d = frontAt s d := by
  simp [State.rainDump]

@[simp] theorem frontAt_rainMark (m : ChMarker) : frontAt (s.rainMark c m) d = frontAt s d := by
  unfold State.rainMark
  split <;> simp

/-! ### The taps, the FIR and the averager output (R226 to R236) -/

@[simp] theorem frontAt_tapWord (fir : Bool) (w : Sample) (idx n i : Nat) : frontAt (s.tapWord c fir w idx n i) d = frontAt s d := by
  cases fir <;> simp [State.tapWord]

@[simp] theorem frontAt_tapMark (fir : Bool) (m : ChMarker) : frontAt (s.tapMark c fir m) d = frontAt s d := by simp [State.tapMark]

@[simp] theorem frontAt_firOut : frontAt (s.firOut c) d = frontAt s d := by simp [State.firOut]

@[simp] theorem frontAt_firJoin : frontAt (s.firJoin c) d = frontAt s d := by simp [State.firJoin]

@[simp] theorem frontAt_firWord (w : Sample) (idx n m : Nat) : frontAt (s.firWord c w idx n m) d = frontAt s d := by simp [State.firWord]
@[simp] theorem frontAt_firRestart (m : ChMarker) : frontAt (s.firRestart c m) d = frontAt s d := by simp [State.firRestart]
@[simp] theorem frontAt_firMark (m : ChMarker) : frontAt (s.firMark c m) d = frontAt s d := by simp [State.firMark]
@[simp] theorem frontAt_chainWord (w : Sample) (idx n m : Nat) : frontAt (s.chainWord c w idx n m) d = frontAt s d := by
  simp [State.chainWord]
@[simp] theorem frontAt_chainMark (m : ChMarker) : frontAt (s.chainMark c m) d = frontAt s d := by simp [State.chainMark]

end

end Sys2Proof.InputProofs

namespace Sys2Proof.InputProofs

open Sys2Proof Sys2Proof.Machine Sys2Proof.Laws Sys2Proof.ScopeProofs Sys2Proof.TimeProofs Sys2Proof.TickProofs

/-! ## What the turns at a boundary leave (R125 to R128, R165) -/

/-- The registers that turns can touch: those of the chain, of the chip page, of the pages of groups, and of the channel tables but for
FE_CFG to RANGE_SW_CNT of channel `c`. -/
abbrev turnAddr (c a : Nat) : Prop :=
  chainAddr a ∨ a / 0x1000 = pgCHIP ∨ (0x020000 ≤ a ∧ a < 0x040000)
    ∨ (0x080000 ≤ a ∧ a < 0x0A0000 ∧ ¬ ((F.CH.FE_CFG.MODE c).addr ≤ a ∧ a ≤ (F.CH.RANGE_SW_CNT.CNT c).addr))

theorem turnAddr_rain {a c d : Nat} (hd : d < 512) (h : a / 0x1000 = pgRAIN (d / 16)) : turnAddr c a := .inl (chainAddr_rain hd h)

theorem not_turnAddr_own {o c : Nat} (hc : c < 512) (ho : 0x080040 ≤ o ∧ o ≤ 0x08005C) :
    ¬ turnAddr c (o + 0x1000 * (c / 16) + 0x80 * (c % 16)) := by
  simp only [turnAddr, chainAddr, pgRIM, pgRED, pgTRIG, pgCHIP]
  omega

/-- From `w` to `t` windows have closed and channels have turned, but for the front end of channel `c`; at most in-band interrupts wait. -/
structure Turned (c : Nat) (w t : State) : Prop where
  due : OnlyDue t
  time : t.time = w.time
  reg : ∀ a, ¬ turnAddr c a → t.reg a = w.reg a

namespace Turned

variable {c d : Nat} {w t : State}

theorem refl (h : OnlyDue w) : Turned c w w := ⟨h, rfl, fun _ _ => rfl⟩

theorem fld (h : Turned c w t) (f : Fld) (hf : ¬ turnAddr c f.addr) : t.fld f = w.fld f := congrArg (fun r => getBits r _ _) (h.reg _ hf)

theorem setReg (h : Turned c w t) (a : Nat) (v : Reg) (ha : turnAddr c a) : Turned c w (t.setReg a v) where
  due := h.due.setReg fun e => absurd (e ▸ ha) (by simp only [turnAddr, chainAddr, pgRIM, pgRED, pgTRIG, pgCHIP]; omega)
  time := h.time
  reg b hb := (reg_setReg_ne _ a b v fun e => hb (e ▸ ha)).trans (h.reg b hb)

theorem setFld (h : Turned c w t) (f : Fld) (x : Nat) (hf : turnAddr c f.addr) : Turned c w (t.setFld f x) := h.setReg _ _ hf

theorem modChan (h : Turned c w t) (n : Nat) (f : Chan → Chan) : Turned c w (t.modChan n f) := ⟨h.due, h.time, h.reg⟩

theorem kept : ChainKept (Turned c w) where
  reg a v ha h := h.setReg a v (.inl ha)
  store _ _ _ _ _ h := ⟨h.due, h.time, h.reg⟩
  rim r hr h := ⟨OnlyDue.kept.rim r hr h.due, h.time, h.reg⟩
  waiting _ h := ⟨h.due, h.time, h.reg⟩
  capture _ _ _ h := ⟨h.due, h.time, h.reg⟩
  chan n f _ h := h.modChan n f

variable (h : Turned c w t)
include h

theorem raiseInt (i : IntBit) (hi : ∀ o, o < 0x1000 → turnAddr c (0x1000 * i.page + o)) : Turned c w (t.raiseInt i) :=
  kept.queue.raiseIntAt h fun o v ho h => h.setReg _ v (hi o ho)

/-! ### Markers (R229, R235, R241, R244) -/

theorem captureMark (fir : Bool) (m : ChMarker) (idx : Nat) : Turned c w (t.captureMark d fir m idx) := by
  unfold State.captureMark
  refine QueueKept.each h fun t x _ h => QueueKept.ite (QueueKept.each h fun t k _ h => QueueKept.ite ?_ h) h
  refine QueueKept.when (QueueKept.when (kept.modMember (kept.storeSlot h)) fun h => ?_) fun h => ?_
  · exact kept.modMember h
  · exact kept.memberDone h

section
variable (hd : d < 512)
include hd

theorem streamMark (m : ChMarker) : Turned c w (t.streamMark d m) := kept.streamClose ((kept.streamAge h hd).modChan d _) hd

theorem statsMark (m : ChMarker) : Turned c w (t.statsMark d m) := by
  unfold State.statsMark
  exact QueueKept.ite (QueueKept.when (kept.statsClose h hd) fun h => h.modChan d _) h

/-! ### RAIN at a marker (R250, R252) -/

theorem rainResidue (l : List Int) : Turned c w (t.rainResidue d l) := by
  induction l generalizing t with
  | nil => exact h
  | cons a l ih =>
    cases l with
    | nil => exact h
    | cons b l => exact ih (kept.rainCount h hd)

omit hd in
theorem rainJoin (units counted clear : Bool) : Turned c w (t.rainJoin d units counted clear) := by
  unfold State.rainJoin
  exact QueueKept.ite h (QueueKept.ite (kept.modJoin h) (QueueKept.ite (kept.modJoin (kept.drawTruth h)) h))

omit hd in
theorem commitEnd (p : Nat) : Turned c w (t.commitEnd p) := by
  unfold State.commitEnd
  have hleft (l : List Commit) : Turned c w { t with commits := l } := ⟨h.due, h.time, h.reg⟩
  refine QueueKept.when (f := fun s => s.raiseInt Irq.commitApplied) (hleft _) fun h => h.raiseInt _ fun o ho => .inr (.inl ?_)
  simp only [pgCHIP]
  omega

theorem rainTake : Turned c w (t.rainTake d) := by
  unfold State.rainTake
  dsimp only
  split
  · exact h
  refine QueueKept.ite h ?_
  have hstaged : Turned c w (t.each ((rwsRegs (pgRAIN (d / 16))).filter fun e => decide ((F.RAIN.RAIN_CFG.BIN_SHIFT d).addr ≤ e.1)
      && decide (e.1 < (F.RAIN.RAIN_CFG.BIN_SHIFT d).addr + 0x20)) State.takeStaged) := by
    refine QueueKept.each h fun t e he h => h.setReg _ _ (turnAddr_rain hd ?_)
    simp only [List.mem_filter, Bool.and_eq_true, decide_eq_true_eq] at he
    simp only [pgRAIN]
    omega
  have hended {u : State} {p : Prop} [Decidable p] (l : List Commit) (h : Turned c w u) :
      Turned c w (if p then u.commitEnd (pgRAIN (d / 16)) else { u with commits := l }) :=
    QueueKept.ite (h.commitEnd _) ⟨h.due, h.time, h.reg⟩
  exact hended _ (QueueKept.when hstaged fun h => h.modChan d _)

theorem rainDump (cause idx : Nat) : Turned c w (t.rainDump d cause idx) := by
  have hpage {u : State} (o : Nat) (v : Reg) (ho : o < 0x1000) (h : Turned c w u) : Turned c w (u.setReg (0x1000 * pgRAIN (d / 16) + o) v) :=
    h.setReg _ v (turnAddr_rain hd (by simp only [pgRAIN]; omega))
  unfold State.rainDump
  refine (kept.queue.raiseIntAt (kept.setFld (kept.modRain (QueueKept.ite (QueueKept.each ?_ fun u b hb h => ?_) ?_)) ?_) hpage).rainTake hd
  · exact kept.reducerOffer (kept.count ((QueueKept.ite (h.rainResidue hd _) h).rainJoin _ _ _) (.inr (.inl rfl)))
  · refine kept.setFld h (chainAddr_rain hd ?_)
    have := List.mem_range.1 hb
    simp only [pgRAIN]
    omega
  · exact kept.reducerOffer (kept.count ((QueueKept.ite (h.rainResidue hd _) h).rainJoin _ _ _) (.inr (.inl rfl)))
  · exact chainAddr_rain hd (by simp only [pgRAIN]; omega)

theorem rainMark (m : ChMarker) : Turned c w (t.rainMark d m) := by
  unfold State.rainMark
  split
  · exact QueueKept.ite h (h.rainDump hd _ _)
  · exact h

/-! ### A marker at the averager output (R228) -/

theorem tapMark (fir : Bool) (m : ChMarker) : Turned c w (t.tapMark d fir m) := by
  unfold State.tapMark
  refine captureMark (QueueKept.ite (QueueKept.when (QueueKept.when (QueueKept.when h fun h => ?_) fun h => ?_) fun h => ?_) h) _ _ _
  · exact h.streamMark hd m
  · exact h.statsMark hd m
  · exact h.rainMark hd m

theorem firRestart (m : ChMarker) : Turned c w (t.firRestart d m) := by
  unfold State.firRestart
  have hout : Turned c w (if 0 < (t.getChan d).fir.phase then t.firOut d else t) := QueueKept.ite (kept.firOut h hd) h
  exact kept.count (kept.modJoin ((hout.tapMark hd true m).modChan d _)) (chainAddr_counter hd (by decide))

theorem chainMark (m : ChMarker) : Turned c w (t.chainMark d m) := by
  have htap := h.tapMark hd false m
  unfold State.chainMark State.firMark
  exact QueueKept.ite h (QueueKept.ite (QueueKept.ite (htap.firRestart hd m) (htap.tapMark hd true m)) htap)

/-! ### A window that closes early (R126, R165) -/

omit h hd in
theorem turnAddr_counter {o : Nat} (hd : d < 512) (ho : 0x080060 ≤ o ∧ o < 0x0800C0) :
    turnAddr c (o + 0x1000 * (d / 16) + 0x80 * (d % 16)) := by
  simp only [turnAddr]
  omega

theorem avgEmit (rtr : Bool) : Turned c w (t.avgEmit d rtr) := by
  unfold State.avgEmit
  refine QueueKept.ite h (kept.chainWord (modChan (kept.modJoin ((QueueKept.when h fun h => ?_).setFld _ _ ?_)) d _) hd)
  · exact h.setFld _ _ (turnAddr_counter hd (by decide))
  · exact turnAddr_counter hd (by decide)

theorem avgEarly (range : Bool) (marks : List ChMarker) : Turned c w (t.avgEarly d range marks) := by
  have hemit : Turned c w ((t.when (decide (0 < (t.getChan d).win.cnt) || t.chEnabled d) fun s => s.count (F.CH.SHORT_CNT.CNT d)).avgEmit d
      range) := avgEmit (QueueKept.when h fun h => h.setFld _ _ (turnAddr_counter hd (by decide))) hd range
  unfold State.avgEarly
  split
  · exact hemit
  · exact QueueKept.each (hemit.chainMark hd _) fun t m _ h => h.chainMark hd m

/-! ### The turn of a channel -/

theorem turnClose (x : Turn) : Turned c w (t.turnClose d x) := QueueKept.ite h (h.avgEarly hd _ _)

theorem turnAfter (wasOn hadRain : Bool) : Turned c w (t.turnAfter d wasOn hadRain) := by
  unfold State.turnAfter
  have hrain : Turned c w (t.when (t.bit (F.CH.RED_CFG.RAIN_EN d) && !hadRain) fun s => s.modRain d fun r => { r with lastS := none }) :=
    QueueKept.when h fun h => h.modChan d _
  exact QueueKept.when (QueueKept.ite hrain (hrain.rainTake hd)) fun h => h.modChan d _

omit h hd in
theorem turnAddr_other (hd : d < 512) (hne : d ≠ c) {o : Nat} (ho : 0x080000 ≤ o ∧ o < 0x0800C0) :
    turnAddr c (o + 0x1000 * (d / 16) + 0x80 * (d % 16)) := by
  simp only [turnAddr]
  omega

theorem turnFront (hne : d ≠ c) (old : FeSet) (x : Turn) : Turned c w (t.turnFront d old x) := by
  unfold State.turnFront
  refine modChan (QueueKept.when (QueueKept.when (QueueKept.when (h.setFld _ _ ?_) fun h => ?_) fun h => ?_) fun h => ?_) d _
  · exact turnAddr_other hd hne (by decide)
  · exact (h.setFld _ _ (turnAddr_other hd hne (by decide))).modChan d _
  · exact h.raiseInt _ fun o ho => .inr (.inr (.inl (by simp only [pgFE]; omega)))
  · exact QueueKept.each h fun t n _ h => QueueKept.ite ⟨h.due, h.time, h.reg⟩ h

/-- The turn of another channel, without a commit. -/
theorem turnChan (hne : d ≠ c) (c0 : Bool) (c1 : Nat → Bool) (stream low : Bool) (swap : Option Bool) :
    Turned c w (t.turnChan false c0 c1 stream low swap d) := by
  unfold State.turnChan
  have hclose (x : Turn) : Turned c w (t.when stream fun s => (s.turnClose d x).when false fun s => s.chainCommit d x) :=
    QueueKept.when h fun h => h.turnClose hd x
  exact turnAfter (turnFront (hclose _) hd hne _ _) hd _ _

end

end Turned

end Sys2Proof.InputProofs

namespace Sys2Proof.InputProofs

open Sys2Proof Sys2Proof.Machine Sys2Proof.Laws Sys2Proof.ScopeProofs Sys2Proof.TimeProofs Sys2Proof.TickProofs

/-! ## The front ends and the windows at a turn (R125 to R128) -/

section
variable (s : State) (c d : Nat)

@[simp] theorem frontAt_modSent (n : Nat) (f : Sent → Sent) : frontAt (s.modSent n f) d = frontAt s d := frontAt_congr rfl d

theorem frontAt_modChan_ne (f : Chan → Chan) (hd : c ≠ d) : frontAt (s.modChan d f) c = frontAt s c := by
  rw [frontAt, getChan_modChan_ne _ _ _ _ hd, frontAt]

/-! ### A window that closes early (R126, R163) -/

theorem frontAt_avgEmit_ne (rtr : Bool) (hd : c ≠ d) : frontAt (s.avgEmit d rtr) c = frontAt s c := by
  simp [State.avgEmit, frontAt_modChan_ne _ c d _ hd]

/-- The window is empty then; what the front end waits for is left. -/
theorem frontAt_avgEmit_own (rtr : Bool) : ∃ w : Window, w.cnt = 0
    ∧ frontAt (s.avgEmit c rtr) c = ((s.getChan c).rngAt, (s.getChan c).dis, (s.getChan c).swap, w) := by
  have hclosed (t : State) (o : Option (Sample × Nat)) (h : frontAt t c = frontAt s c) :
      frontAt (t.modChan c fun x => { x with win := {}, res := o, freshQ := true, freshM := true }) c
        = ((s.getChan c).rngAt, (s.getChan c).dis, (s.getChan c).swap, {}) := by
    simp only [frontAt, Prod.mk.injEq] at h
    obtain ⟨hrng, hdis, hswap, -⟩ := h
    rw [frontAt, getChan_modChan_same, hrng, hdis, hswap]
  by_cases h : (s.getChan c).win.cnt = 0
  · have hsame : s.avgEmit c rtr = s := if_pos h
    exact ⟨_, h, by rw [hsame, frontAt]⟩
  · refine ⟨{}, rfl, ?_⟩
    unfold State.avgEmit
    dsimp only
    rw [if_neg h, frontAt_chainWord]
    exact hclosed _ _ (by simp)

theorem frontAt_avgEarly (range : Bool) (marks : List ChMarker) : frontAt (s.avgEarly c range marks) d
    = frontAt ((s.when (decide (0 < (s.getChan c).win.cnt) || s.chEnabled c) fun s => s.count (F.CH.SHORT_CNT.CNT c)).avgEmit c range) d := by
  cases marks <;> simp [State.avgEarly]

theorem frontAt_avgEarly_ne (range : Bool) (marks : List ChMarker) (hd : c ≠ d) : frontAt (s.avgEarly d range marks) c = frontAt s c := by
  rw [frontAt_avgEarly, frontAt_avgEmit_ne _ _ _ _ hd]
  simp

theorem frontAt_avgEarly_own (range : Bool) (marks : List ChMarker) : ∃ w : Window, w.cnt = 0
    ∧ frontAt (s.avgEarly c range marks) c = ((s.getChan c).rngAt, (s.getChan c).dis, (s.getChan c).swap, w) := by
  rw [frontAt_avgEarly]
  generalize hb : (decide (0 < (s.getChan c).win.cnt) || s.chEnabled c) = b
  have hget : (s.when b fun s => s.count (F.CH.SHORT_CNT.CNT c)).getChan c = s.getChan c := by cases b <;> rfl
  rw [← hget]
  exact frontAt_avgEmit_own _ c range

/-! ### The turn of a channel -/

@[simp] theorem frontAt_turnAfter (wasOn hadRain : Bool) : frontAt (s.turnAfter c wasOn hadRain) d = frontAt s d := by
  simp [State.turnAfter]

theorem frontAt_turnFront_ne (old : FeSet) (x : Turn) (hd : c ≠ d) : frontAt (s.turnFront d old x) c = frontAt s c := by
  simp [State.turnFront, State.sentOff, frontAt_modChan_ne _ c d _ hd]

theorem frontAt_turnChan_ne (c0 : Bool) (c1 : Nat → Bool) (stream low : Bool) (swap : Option Bool) (hd : c ≠ d) :
    frontAt (s.turnChan false c0 c1 stream low swap d) c = frontAt s c := by
  have hclose (t : State) (x : Turn) : frontAt (t.turnClose d x) c = frontAt t c := by
    rw [State.turnClose, frontAt_ite, frontAt_avgEarly_ne t c d _ _ hd, ite_self]
  simp [State.turnChan, frontAt_turnFront_ne _ c d _ _ hd, hclose, when_of_false]

end

/-! ### The turn of a channel that discharges (R116, R118, R125) -/

/-- The setting that a channel in QCHG on its more sensitive range has and keeps. -/
def qchgSet (s : State) (c : Nat) : FeSet := feSet (s.reg (F.CH.FE_CFG.MODE c).addr) false

theorem settleNs_qchg {x : FeSet} (h : x.mode = modeQchg) : settleNs x x = 5000 := by simp [settleNs, h]

/-- The markers that follow the window then: its own, and those of other causes. -/
def dischargeMarks (s : State) (c : Nat) (c0 c1 : Bool) : List ChMarker :=
  rangeMark c (qchgSet s c) false true :: ((if c0 then [.rateChange c 0 0] else []) ++ (if c1 then [.rateChange c 1 0] else []))

/-- The turn of a channel that discharges, and no more. -/
def dischargeTurn (s : State) (c : Nat) (c0 c1 : Bool) : Turn :=
  { qrst := true, set := qchgSet s c, marks := dischargeMarks s c c0 c1 }

theorem turnOf_discharge {s : State} {c : Nat} (hmode : s.fld (F.CH.FE_CFG.MODE c) = modeQchg) (hdis : (s.getChan c).dis = true)
    (c0 c1 : Bool) : s.turnOf c false c0 c1 false none = dischargeTurn s c c0 c1 := by
  have hnow : getBits (s.reg (F.CH.FE_CFG.MODE c).addr) 0 3 = modeQchg := hmode
  unfold State.turnOf
  simp [dischargeTurn, dischargeMarks, qchgSet, feSet, hdis, hnow]

/-- The front end of a channel counts a discharge. -/
def rangeCounted (s : State) (c : Nat) (x : FeSet) : State :=
  (s.setBit (F.CH.FE_STS.AR_LOW c) x.low).count (F.CH.RANGE_SW_CNT.CNT c)

theorem rangeCounted_cnt (s : State) (c : Nat) (x : FeSet) : (rangeCounted s c x).fld (F.CH.RANGE_SW_CNT.CNT c)
    = min (2 ^ (F.CH.RANGE_SW_CNT.CNT c).width - 1) (s.fld (F.CH.RANGE_SW_CNT.CNT c) + 1) := by
  rw [rangeCounted, fld_count_same _ (F.CH.RANGE_SW_CNT.CNT c) 1 (Nat.le_refl 32), State.setBit,
    fld_setFld_addr _ _ _ _ (by simp only []; omega)]

theorem rangeCounted_due {s : State} (h : OnlyDue s) (c : Nat) (x : FeSet) : OnlyDue (rangeCounted s c x) :=
  OnlyDue.setReg (h.setReg (by simp only []; omega)) (by simp only []; omega)

theorem rangeCounted_role (s : State) (c : Nat) (x : FeSet) : (rangeCounted s c x).fld F.PAIR.PAIR_STS.ROLE = s.fld F.PAIR.PAIR_STS.ROLE := by
  rw [rangeCounted, State.count, fld_setFld_addr _ _ _ _ (by simp only []; omega), State.setBit,
    fld_setFld_addr _ _ _ _ (by simp only []; omega)]

theorem rangeCounted_chan (s : State) (c : Nat) (x : FeSet) : (rangeCounted s c x).chan = s.chan := rfl

/-- The front end of a channel counts a discharge and begins to settle. -/
def discharging (s : State) (c : Nat) (old x : FeSet) : State :=
  (rangeCounted s c x).modChan c fun y => { y with rngAt := some (laterSettle s.elapsedNs (settleNs old x) y.rngAt) }

theorem discharging_fld (s : State) (c : Nat) (old x : FeSet) (f : Fld) : (discharging s c old x).fld f = (rangeCounted s c x).fld f := by
  rw [discharging, modChan_fld]

theorem discharging_chan (s : State) (c : Nat) (old x : FeSet) : (discharging s c old x).getChan c
    = { s.getChan c with rngAt := some (laterSettle s.elapsedNs (settleNs old x) (s.getChan c).rngAt) } := by
  rw [discharging, getChan_modChan_same, State.getChan, rangeCounted_chan, State.getChan]

theorem turnFront_discharge (s : State) (c : Nat) (old : FeSet) {x : FeSet} (marks : List ChMarker) (hmode : x.mode = modeQchg) :
    s.turnFront c old { qrst := true, set := x, marks := marks } = (discharging s c old x).modChan c fun y =>
      { y with swap := none, dis := y.dis && (discharging s c old x).follows, dn := 0 } := by
  unfold State.turnFront discharging rangeCounted
  simp only [hmode, Bool.or_true, Bool.or_self, when_of_true, when_of_false]
  rfl

/-- From `s` to `t` channel `c` has discharged. -/
structure Discharged (c : Nat) (s t : State) : Prop where
  due : OnlyDue t
  time : t.time = s.time
  cnt : t.fld (F.CH.RANGE_SW_CNT.CNT c) = min (2 ^ (F.CH.RANGE_SW_CNT.CNT c).width - 1) (s.fld (F.CH.RANGE_SW_CNT.CNT c) + 1)
  front : ∃ w : Window, w.cnt = 0 ∧ frontAt t c = (some (laterSettle s.elapsedNs 5000 (s.getChan c).rngAt), false, none, w)

theorem Discharged.turned {c : Nat} {s t u : State} (hc : c < 512) (h : Discharged c s t) (ht : Turned c t u)
    (hf : frontAt u c = frontAt t c) : Discharged c s u where
  due := ht.due
  time := ht.time.trans h.time
  cnt := (ht.fld _ (not_turnAddr_own hc (by decide))).trans h.cnt
  front := hf ▸ h.front

end Sys2Proof.InputProofs

namespace Sys2Proof.InputProofs

open Sys2Proof Sys2Proof.Machine Sys2Proof.Laws Sys2Proof.ScopeProofs Sys2Proof.TimeProofs Sys2Proof.TickProofs

theorem not_turnAddr_role (c : Nat) : ¬ turnAddr c F.PAIR.PAIR_STS.ROLE.addr := by
  simp only [turnAddr, chainAddr, pgRIM, pgRED, pgTRIG, pgCHIP]
  omega

theorem follows_congr {s t : State} (h : t.fld F.PAIR.PAIR_STS.ROLE = s.fld F.PAIR.PAIR_STS.ROLE) : t.follows = s.follows := by
  rw [State.follows, State.role, h, State.follows, State.role]

/-- The window has closed; then the front end discharges. -/
theorem turnFront_discharged {s v : State} {c : Nat} (hc : c < 512) {x : FeSet} (hmode : x.mode = modeQchg) (hfol : s.follows = false)
    (hv : Turned c s v) {w : Window} (hw : w.cnt = 0) {o : Option Bool}
    (hfront : frontAt v c = ((s.getChan c).rngAt, true, o, w)) (marks : List ChMarker) :
    Discharged c s (v.turnFront c x { qrst := true, set := x, marks := marks }) := by
  rw [turnFront_discharge v c x marks hmode]
  simp only [frontAt, Prod.mk.injEq] at hfront
  obtain ⟨hrng, hdis, -, hwin⟩ := hfront
  have hleads : (discharging v c x x).follows = false := by
    rw [follows_congr (s := s), hfol]
    rw [discharging_fld, rangeCounted_role, hv.fld _ (not_turnAddr_role c)]
  refine ⟨rangeCounted_due hv.due c x, hv.time, ?_, w, hw, ?_⟩
  · rw [modChan_fld, discharging_fld, rangeCounted_cnt, hv.fld _ (not_turnAddr_own hc (by decide))]
  · rw [frontAt, getChan_modChan_same, hleads, discharging_chan, settleNs_qchg hmode, State.elapsedNs, hv.time, State.elapsedNs]
    simp only [hrng, hwin, Bool.and_false]

theorem turnClose_discharge (s : State) (c : Nat) (c0 c1 : Bool) :
    s.turnClose c (dischargeTurn s c c0 c1) = s.avgEarly c true (dischargeMarks s c c0 c1) := rfl

theorem turnChan_discharged {s : State} {c : Nat} (hc : c < 512) (hdue : OnlyDue s) (hmode : s.fld (F.CH.FE_CFG.MODE c) = modeQchg)
    (hlow : s.bit (F.CH.FE_STS.AR_LOW c) = false) (hdis : (s.getChan c).dis = true) (hswap : (s.getChan c).swap = none)
    (hfol : s.follows = false) (c0 : Bool) (c1 : Nat → Bool) :
    Discharged c s (s.turnChan false c0 c1 true (s.bit (F.CH.FE_STS.AR_LOW c)) (s.getChan c).swap c) := by
  have hnow : s.feNow c = qchgSet s c := by rw [State.feNow, hlow, qchgSet]
  rw [hlow, hswap, State.turnChan, turnOf_discharge hmode hdis, hnow]
  obtain ⟨w, hw, hfront⟩ := frontAt_avgEarly_own s c true (dischargeMarks s c c0 (c1 c))
  rw [hdis, hswap] at hfront
  have hearly := (Turned.refl (c := c) hdue).avgEarly hc true (dischargeMarks s c c0 (c1 c))
  have hdone := turnFront_discharged hc (x := qchgSet s c) hmode hfol hearly hw hfront (dischargeMarks s c c0 (c1 c))
  simp only [when_of_true, when_of_false, turnClose_discharge]
  exact hdone.turned hc ((Turned.refl hdone.due).turnAfter hc _ _) (frontAt_turnAfter _ c c _ _)

end Sys2Proof.InputProofs

namespace Sys2Proof.InputProofs

open Sys2Proof Sys2Proof.Machine Sys2Proof.Laws Sys2Proof.ScopeProofs Sys2Proof.TimeProofs Sys2Proof.TickProofs

/-! ### The boundary of the group (R125, R126) -/

/-- The turn of a channel at a boundary without a commit. -/
def turnStep (c0 : Bool) (s : State) (c : Nat) : State :=
  s.turnChan false c0 (fun _ => false) true (s.bit (F.CH.FE_STS.AR_LOW c)) (s.getChan c).swap c

theorem groupBoundary_eq {s : State} {g : Nat} (hcommit : s.commitDue (pgCHTAB g) = false) : s.groupBoundary g true false
    = (s.each ((List.range 16).map (16 * g + ·)) (turnStep (s.getGroup g).closeDue)).modGroup g fun x => { x with closeDue := false } := by
  unfold State.groupBoundary
  simp only [hcommit, when_of_false, Bool.false_and, Bool.false_eq_true, if_false]
  rfl

theorem Turned.each_turnStep {c : Nat} {w t : State} (h : Turned c w t) (c0 : Bool) (l : List Nat) (hl : ∀ d ∈ l, d < 512 ∧ c ≠ d) :
    Turned c w (t.each l (turnStep c0)) :=
  QueueKept.each h fun _ d hd h => h.turnChan (hl d hd).1 (hl d hd).2.symm c0 _ _ _ _

theorem frontAt_each_turnStep (s : State) (c : Nat) (c0 : Bool) (l : List Nat) (hl : ∀ d ∈ l, c ≠ d) :
    frontAt (s.each l (turnStep c0)) c = frontAt s c :=
  QueueKept.each (P := fun t => frontAt t c = frontAt s c) rfl fun t d hd h => (frontAt_turnChan_ne t c d c0 _ _ _ _ (hl d hd)).trans h

/-- The channels of a group: those before `c`, `c`, and those after it. -/
theorem group_split {c g : Nat} (hg : c / 16 = g) : ∃ l l', (List.range 16).map (16 * g + ·) = l ++ c :: l' ∧ (∀ d ∈ l, c ≠ d) ∧ (∀ d ∈ l', c ≠ d) := by
  have hmem : c ∈ (List.range 16).map (16 * g + ·) := List.mem_map.2 ⟨c % 16, List.mem_range.2 (by omega), by omega⟩
  obtain ⟨l, l', hl⟩ := List.append_of_mem hmem
  have hnd : (l ++ c :: l').Nodup := hl ▸ List.nodup_range.map fun a b h => by simpa using h
  refine ⟨l, l', hl, fun d hd e => ?_, fun d hd e => ?_⟩
  · exact (List.nodup_append.1 hnd).2.2 d hd c List.mem_cons_self e.symm
  · exact (List.nodup_cons.1 (List.nodup_append.1 hnd).2.1).1 (e ▸ hd)

theorem groupBoundary_discharged {s : State} {c g : Nat} (hc : c < 512) (hg : c / 16 = g) (hdue : OnlyDue s)
    (hmode : s.fld (F.CH.FE_CFG.MODE c) = modeQchg) (hlow : s.bit (F.CH.FE_STS.AR_LOW c) = false) (hdis : (s.getChan c).dis = true)
    (hswap : (s.getChan c).swap = none) (hfol : s.follows = false) (hcommit : s.commitDue (pgCHTAB g) = false) :
    Discharged c s (s.groupBoundary g true false) := by
  obtain ⟨l, l', hl, hbefore, hafter⟩ := group_split hg
  have hlt : ∀ d ∈ l ++ c :: l', d < 512 := by
    rw [← hl]
    intro d hd
    obtain ⟨k, hk, rfl⟩ := List.mem_map.1 hd
    have := List.mem_range.1 hk
    omega
  rw [groupBoundary_eq hcommit, hl]
  generalize (s.getGroup g).closeDue = c0
  have heach : s.each (l ++ c :: l') (turnStep c0) = (turnStep c0 (s.each l (turnStep c0)) c).each l' (turnStep c0) := by
    simp only [State.each, List.foldl_append, List.foldl_cons]
  have hu := (Turned.refl (c := c) hdue).each_turnStep c0 l fun d hd => ⟨hlt d (by simp [hd]), hbefore d hd⟩
  have hfront := frontAt_each_turnStep s c c0 l hbefore
  rw [heach]
  generalize s.each l (turnStep c0) = u at hu hfront
  simp only [frontAt, Prod.mk.injEq] at hfront
  obtain ⟨hurng, hudis, huswap, -⟩ := hfront
  have hown : Discharged c u (turnStep c0 u c) := by
    refine turnChan_discharged hc hu.due ?_ ?_ (hudis.trans hdis) (huswap.trans hswap) ?_ c0 _
    · rw [hu.fld _ (not_turnAddr_own hc (by decide)), hmode]
    · rw [State.bit, hu.fld _ (not_turnAddr_own hc (by decide)), ← State.bit, hlow]
    · rw [follows_congr (hu.fld _ (not_turnAddr_role c)), hfol]
  have hlast := hown.turned hc ((Turned.refl hown.due).each_turnStep c0 l' fun d hd => ⟨hlt d (by simp [hd]), hafter d hd⟩)
    (frontAt_each_turnStep _ c c0 l' hafter)
  obtain ⟨hdue', htime, hcnt, w, hw, hfront⟩ := hlast
  rw [hurng, State.elapsedNs, hu.time] at hfront
  exact ⟨hdue', htime.trans hu.time, by rw [modGroup_fld, hcnt, hu.fld _ (not_turnAddr_own hc (by decide))], w, hw, hfront⟩

end Sys2Proof.InputProofs

namespace Sys2Proof.InputProofs

open Sys2Proof Sys2Proof.Machine Sys2Proof.Laws Sys2Proof.ScopeProofs Sys2Proof.TimeProofs Sys2Proof.TickProofs

/-! ### A discharge is asked for (R116, R387) -/

/-- The discharge of a local channel is asked for where the mask names it and it is in QCHG. -/
def dischargeAsk (g : Nat) (mask : BitVec 16) (s : State) (l : Nat) : State :=
  if mask.getLsbD l ∧ s.fld (F.CH.FE_CFG.MODE (16 * g + l)) = modeQchg then s.modChan (16 * g + l) fun x => { x with dis := true } else s

def dischargeAsked (s : State) (g : Nat) (mask : BitVec 16) : State := s.each (List.range 16) (dischargeAsk g mask)

/-- From `s` to `t` only the channels have changed. -/
def ChanOnly (s t : State) : Prop := t = { s with chan := t.chan }

theorem ChanOnly.trans {s t u : State} (h : ChanOnly s t) (h' : ChanOnly t u) : ChanOnly s u := by
  unfold ChanOnly at *
  rw [h', h]

theorem each_dischargeAsk_only (s : State) (g : Nat) (mask : BitVec 16) (l : List Nat) : ChanOnly s (s.each l (dischargeAsk g mask)) :=
  each_rel ChanOnly (fun _ => rfl) ChanOnly.trans l _ (fun t a _ => by
    unfold dischargeAsk
    split
    · rfl
    · rfl) s

theorem dischargeAsk_chan (s : State) (g : Nat) (mask : BitVec 16) (l k : Nat) : (dischargeAsk g mask s l).getChan (16 * g + k)
    = { s.getChan (16 * g + k) with dis := (decide (k = l) && (mask.getLsbD k && decide (s.fld (F.CH.FE_CFG.MODE (16 * g + k)) = modeQchg)))
          || (s.getChan (16 * g + k)).dis } := by
  unfold dischargeAsk
  by_cases hk : k = l
  · subst hk
    split
    next h =>
      rw [getChan_modChan_same]
      simp [h]
    next h =>
      have hnone : (mask.getLsbD k && decide (s.fld (F.CH.FE_CFG.MODE (16 * g + k)) = modeQchg)) = false := by simpa using h
      simp [hnone]
  · have hne : 16 * g + k ≠ 16 * g + l := by omega
    split
    · rw [getChan_modChan_ne _ _ _ _ hne]
      simp [hk]
    · simp [hk]

theorem each_dischargeAsk_chan (s : State) (g : Nat) (mask : BitVec 16) (k : Nat) (l : List Nat) :
    (s.each l (dischargeAsk g mask)).getChan (16 * g + k)
      = { s.getChan (16 * g + k) with dis := (decide (k ∈ l) && (mask.getLsbD k && decide (s.fld (F.CH.FE_CFG.MODE (16 * g + k)) = modeQchg)))
            || (s.getChan (16 * g + k)).dis } := by
  induction l generalizing s with
  | nil => simp [State.each]
  | cons a l ih =>
    have hfld : (dischargeAsk g mask s a).fld (F.CH.FE_CFG.MODE (16 * g + k)) = s.fld (F.CH.FE_CFG.MODE (16 * g + k)) := by
      unfold dischargeAsk
      split <;> rfl
    refine (ih (dischargeAsk g mask s a)).trans ?_
    rw [hfld, dischargeAsk_chan]
    generalize (mask.getLsbD k && _) = b
    cases b
    · simp
    · by_cases hk : k = a <;> simp [hk]

theorem dischargeAsked_only (s : State) (g : Nat) (mask : BitVec 16) : ChanOnly s (dischargeAsked s g mask) :=
  each_dischargeAsk_only s g mask (List.range 16)

theorem dischargeAsked_chan (s : State) (g : Nat) (mask : BitVec 16) (k : Nat) (hk : k < 16) :
    (dischargeAsked s g mask).getChan (16 * g + k) = { s.getChan (16 * g + k) with
      dis := (mask.getLsbD k && decide (s.fld (F.CH.FE_CFG.MODE (16 * g + k)) = modeQchg)) || (s.getChan (16 * g + k)).dis } := by
  rw [dischargeAsked, each_dischargeAsk_chan, decide_eq_true (List.mem_range.2 hk), Bool.true_and]

namespace ChanOnly

variable {s t : State} (h : ChanOnly s t)
include h

theorem regs : t.regs = s.regs := by rw [ChanOnly] at h; rw [h]
theorem slice : t.slice = s.slice := by rw [ChanOnly] at h; rw [h]
theorem time : t.time = s.time := by rw [ChanOnly] at h; rw [h]
theorem commits : t.commits = s.commits := by rw [ChanOnly] at h; rw [h]
theorem pending : t.pending = s.pending := by rw [ChanOnly] at h; rw [h]
theorem fld (f : Fld) : t.fld f = s.fld f := by rw [State.fld, State.reg, h.regs, State.fld, State.reg]
theorem quiet : t.quiet = s.quiet := by
  rw [ChanOnly] at h
  rw [h]
  rfl

theorem follows : t.follows = s.follows := follows_congr (h.fld _)

theorem leads : t.leads = s.leads := by rw [State.leads, State.role, h.fld, State.leads, State.role]

theorem commitDue (p : Nat) : t.commitDue p = s.commitDue p := by rw [State.commitDue, State.commitOf, h.commits, State.commitDue, State.commitOf]

theorem passRuns (g : Nat) : t.passRuns g = s.passRuns g := by
  have hrole (n : Nat) : t.slRole n = s.slRole n := h.fld _
  have hgroup (n : Nat) : t.slGroup n = s.slGroup n := h.fld _
  have hserves : (fun n => decide (t.slRole n = roleWorking) && decide (t.slGroup n = g))
      = fun n => decide (s.slRole n = roleWorking) && decide (s.slGroup n = g) := funext fun n => by rw [hrole, hgroup]
  have hserving : t.serving g = s.serving g := by rw [State.serving, hserves, State.serving]
  rw [State.passRuns, hserving, State.getSlice, h.slice, State.passRuns, State.getSlice]

end ChanOnly

/-! ### A write of QRESET (R116) -/

theorem exec_qreset (g : Fin 32) (mask : BitVec 16) (s : State) :
    exec (.qreset g mask) s = act (fun s => s.otherWrite.writeQreset g mask) s := rfl

theorem writeQreset_leads {s : State} (hfol : s.follows = false) (hmir : s.mirrored = false) (g : Fin 32) (mask : BitVec 16) :
    s.writeQreset g mask = (dischargeAsked s g.val mask).boundaryNow g.val false := by
  have hstill : (dischargeAsked s g.val mask).follows = false := (dischargeAsked_only s g.val mask).follows.trans hfol
  have hsend : s.sendDecision (.qreset g mask) = s := if_neg (by simp [hmir])
  have hleft : ((dischargeAsked s g.val mask).when (dischargeAsked s g.val mask).follows fun t => t.modGroup g.val fun x =>
      { x with turnIdx := t.lastIdx }) = dischargeAsked s g.val mask := when_of_false _ _ hstill
  rw [State.writeQreset, State.ifNotFollowing, if_neg (by simp [hfol]), hsend]
  exact congrArg (fun t => t.boundaryNow g.val false) hleft

end Sys2Proof.InputProofs

namespace Sys2Proof.InputProofs

open Sys2Proof Sys2Proof.Machine Sys2Proof.Laws Sys2Proof.ScopeProofs Sys2Proof.TimeProofs Sys2Proof.TickProofs

/-! ### Overload detectors (R117) -/

theorem exec_overloadChange (c : Fin 512) (firing : Bool) (s : State) :
    exec (.overloadChange c firing) s = act (fun s => s.overloadChange c.val firing) s := rfl

theorem overloadChange_calm (s : State) (c : Nat) (firing : Bool) : Calm [(F.CH.FE_STS.OVL c).addr] s (s.overloadChange c firing) := by
  have hset : Calm [(F.CH.FE_STS.OVL c).addr] s (s.setBit (F.CH.FE_STS.OVL c) firing) := Calm.setFld s _ _ (by simp)
  unfold State.overloadChange
  exact QueueKept.when hset fun h => h.trans (Calm.modChan _ c _)

theorem overloadChange_ovl (s : State) (c : Nat) (firing : Bool) : (s.overloadChange c firing).bit (F.CH.FE_STS.OVL c) = firing := by
  have hset : (s.setBit (F.CH.FE_STS.OVL c) firing).bit (F.CH.FE_STS.OVL c) = firing :=
    bit_setBit_same s (F.CH.FE_STS.OVL c) firing (by simp only []; omega) rfl
  unfold State.overloadChange
  exact QueueKept.when (P := fun t => t.bit (F.CH.FE_STS.OVL c) = firing) hset fun h => h

/-- A detector that releases notes its time. -/
theorem overloadChange_chan (s : State) (c : Nat) (firing : Bool) : (s.overloadChange c firing).chan
    = if s.bit (F.CH.FE_STS.OVL c) && !firing then (s.modChan c fun x => { x with ovlRel := some s.elapsedNs }).chan else s.chan :=
  apply_ite State.chan _ _ _

theorem overloadChange_next {s : State} (hs : s.quiet = true) (c : Fin 512) (firing : Bool) :
    exec (.overloadChange c firing) s = .next (s.overloadChange c.val firing) :=
  (exec_overloadChange c firing s).trans (act_eq hs rfl
    ((overloadChange_calm s c.val firing).quiet (by simp; omega)) (overloadChange_calm s c.val firing).pending)

/-! ### A discharge (R116, R125, R387) -/

section
variable {s : State} (hs : s.quiet = true) (g : Fin 32) (mask : BitVec 16)
include hs

/-- While a pass of the group runs the discharge waits. -/
theorem qreset_waits (hfol : s.follows = false) (hmir : s.mirrored = false) (hpass : s.passRuns g.val = true) :
    exec (.qreset g mask) s = .next (dischargeAsked s.otherWrite g.val mask) := by
  have honly := dischargeAsked_only s.otherWrite g.val mask
  have hwrite : s.otherWrite.writeQreset g mask = dischargeAsked s.otherWrite g.val mask := by
    rw [writeQreset_leads (s := s.otherWrite) hfol hmir, State.boundaryNow, if_pos ((honly.passRuns g.val).trans hpass)]
  exact (exec_qreset g mask s).trans (act_eq hs hwrite (honly.quiet.trans (quiet_otherWrite s)) honly.pending)

/-- On a hub that follows it is ignored and counted. -/
theorem qreset_ignored (hfol : s.follows = true) :
    exec (.qreset g mask) s = .next (s.otherWrite.count F.PAIR.CMD_IGNORED.CNT) := by
  have hcount : Mild [F.PAIR.CMD_IGNORED.CNT.addr] s.otherWrite (s.otherWrite.count F.PAIR.CMD_IGNORED.CNT) := Mild.count _ _ _ (by simp)
  have hwrite : s.otherWrite.writeQreset g mask = s.otherWrite.count F.PAIR.CMD_IGNORED.CNT := if_pos hfol
  exact (exec_qreset g mask s).trans (act_eq hs hwrite ((hcount.quiet (by decide)).trans (quiet_otherWrite s)) hcount.pending)

/-- Without a pass it takes place at once. -/
theorem qreset_discharges (hlead : s.leads = true) (hmir : s.mirrored = false) (hpass : s.passRuns g.val = false)
    (hcommit : s.commitDue (pgCHTAB g.val) = false) {c : Nat} (hc : c < 512) (hg : c / 16 = g.val) (hmask : mask.getLsbD (c % 16) = true)
    (hmode : s.fld (F.CH.FE_CFG.MODE c) = modeQchg) (hswap : (s.getChan c).swap = none) (hlow : s.bit (F.CH.FE_STS.AR_LOW c) = false) :
    ∃ t, exec (.qreset g mask) s = .next t ∧ Discharged c s t := by
  have hfol : s.follows = false := by
    cases hf : s.follows with
    | false => rfl
    | true => exact absurd (leads_of_follows hf) (by simp [hlead])
  have honly := dischargeAsked_only s.otherWrite g.val mask
  have hget := dischargeAsked_chan s.otherWrite g.val mask (c % 16) (by omega)
  have hown : 16 * g.val + c % 16 = c := by omega
  have hfree : s.otherWrite.fld (F.CH.FE_CFG.MODE c) = modeQchg := hmode
  rw [hown, hmask, hfree] at hget
  have hwrite : s.otherWrite.writeQreset g mask = (dischargeAsked s.otherWrite g.val mask).groupBoundary g.val true false := by
    rw [writeQreset_leads (s := s.otherWrite) hfol hmir, State.boundaryNow, if_neg (by rw [honly.passRuns]; exact hpass ▸ Bool.false_ne_true),
      if_neg (by rw [honly.follows]; exact hfol ▸ Bool.false_ne_true), honly.leads]
    exact congrArg (fun b => State.groupBoundary _ g.val b false) hlead
  generalize dischargeAsked s.otherWrite g.val mask = u at honly hget hwrite
  have hdue : OnlyDue u := OnlyDue.of_quiet (honly.quiet.trans hs)
  have hdone := groupBoundary_discharged hc hg hdue ((honly.fld _).trans hmode)
    (by rw [State.bit, honly.fld]; exact hlow) (by rw [hget]; rfl) (by rw [hget]; exact hswap) (honly.follows.trans hfol)
    ((honly.commitDue _).trans hcommit)
  have hnext := act_onlyDue (f := fun s => s.otherWrite.writeQreset g mask) hs hwrite hdone.due
  generalize u.groupBoundary g.val true false = v at hdone hnext
  have hserved := Turned.kept.queue.serveDue (n := 1024) (Turned.refl (c := c) hdone.due)
  have hchan := frontAt_congr ((chan_queueKept v).serveDue (n := 1024) rfl) c
  obtain ⟨hdue', htime, hcnt, w, hw, hfront⟩ := hdone.turned hc hserved hchan
  refine ⟨_, (exec_qreset g mask s).trans hnext, hdue', htime.trans honly.time, hcnt.trans ?_, w, hw, hfront.trans ?_⟩
  · rw [honly.fld]
    rfl
  · rw [State.elapsedNs, honly.time, hget]
    rfl

end

/-- A range change that begins now, or one that ends later, has not settled. -/
theorem laterSettle_after (now ts : Nat) (o : Option (Nat × Nat)) (h : 0 < ts) : now < (laterSettle now ts o).1 + (laterSettle now ts o).2 := by
  unfold laterSettle
  split
  · split <;> simp only [] <;> omega
  · simp only []
    omega

theorem Discharged.settling {s t : State} {c : Nat} (h : Discharged c s t) : t.settling c = true := by
  obtain ⟨w, -, hfront⟩ := h.front
  simp only [frontAt, Prod.mk.injEq] at hfront
  obtain ⟨hrng, -⟩ := hfront
  rw [State.settling, hrng, decide_eq_true_eq, State.elapsedNs, h.time]
  exact laterSettle_after _ 5000 _ (by decide)

/-- Settles O18: a write of QRESET marks the channels, and at the boundary of the group a marked channel has a turn of its own. -/
theorem overloadAndDischarge : Obligations.OverloadAndDischarge := by
  unfold Obligations.OverloadAndDischarge
  intro s hs
  refine ⟨fun c firing => ?_, fun g mask hfol hmir hpass => ?_, fun g mask c hlead hmir hpass hcommit hg hmask hmode hswap hlow => ?_,
    fun g mask hfol _ => ?_⟩
  · exact ⟨_, overloadChange_next hs c firing, overloadChange_ovl s c.val firing, (overloadChange_calm s c.val firing).regs,
      overloadChange_chan s c.val firing⟩
  · have honly := dischargeAsked_only s.otherWrite g.val mask
    exact ⟨_, qreset_waits hs g mask hfol hmir hpass, fun l => congrArg Chan.dis (dischargeAsked_chan s.otherWrite g.val mask l.val l.isLt),
      honly.regs, honly.slice⟩
  · obtain ⟨t, hnext, hdone⟩ := qreset_discharges hs g mask hlead hmir hpass hcommit c.isLt hg hmask hmode hswap hlow
    obtain ⟨w, hw, hfront⟩ := hdone.front
    simp only [frontAt, Prod.mk.injEq] at hfront
    obtain ⟨hrng, hdis, -, hwin⟩ := hfront
    exact ⟨t, hnext, hdis, hdone.cnt, hrng, hdone.settling, hwin ▸ hw, hdone.time⟩
  · have hcount : Mild [F.PAIR.CMD_IGNORED.CNT.addr] s (s.otherWrite.count F.PAIR.CMD_IGNORED.CNT) :=
      (Mild.modRim s _ rfl rfl rfl rfl).trans (Mild.count _ _ _ (by simp))
    exact ⟨_, qreset_ignored hs g mask hfol, fld_count_same s.otherWrite F.PAIR.CMD_IGNORED.CNT 1 (Nat.le_refl 32), rfl, rfl, rfl, hcount.only⟩

end Sys2Proof.InputProofs

/-!
The family of slices and the weave table: latest results (R172, R173), sentinels (R174 to R180), weave banks (R158), and the commits of
SLICE pages and of the channel table (R159, R254).
-/

namespace Sys2Proof.SliceProofs

open Sys2Proof Sys2Proof.Machine Sys2Proof.Laws Sys2Proof.ScopeProofs Sys2Proof.TimeProofs Sys2Proof.TickProofs Sys2Proof.InputProofs

/-! ## Latest results (R172, R173, R513) -/

theorem exec_resLoRead (s : State) (p : Path) (c : Fin 512) :
    exec (.resLoRead p c) s = act (fun s => State.answer (s.readResLo p c)) s := rfl
theorem exec_resHiRead (s : State) (p : Path) (c : Fin 512) :
    exec (.resHiRead p c) s = act (fun s => State.answer (s.readResHi p c)) s := rfl

/-- The word of a channel has been latched on a path: it is fresh there no more. -/
def latchedOn (p : Path) (x : Chan) : Chan :=
  match p with
  | .qspi => { x with freshQ := false }
  | .inband => { x with freshM := false }

@[simp] theorem latchedOn_res (p : Path) (x : Chan) : (latchedOn p x).res = x.res := by cases p <;> rfl
@[simp] theorem freshOn_latchedOn (p : Path) (x : Chan) : freshOn (latchedOn p x) p = false := by cases p <;> rfl

@[simp] theorem getChan_modLatches (s : State) (p : Path) (f : Latches → Latches) (c : Nat) :
    (s.modLatches p f).getChan c = s.getChan c := by cases p <;> rfl
@[simp] theorem modLatches_regs (s : State) (p : Path) (f : Latches → Latches) : (s.modLatches p f).regs = s.regs := by cases p <;> rfl
@[simp] theorem latches_modChan (s : State) (p : Path) (c : Nat) (f : Chan → Chan) : (s.modChan c f).latches p = s.latches p := by
  cases p <;> rfl

/-- RES_LO answers the low bits of the latest word, or 0 before the first. -/
def resLoOf (x : Chan) : Reg :=
  match x.res with
  | none => 0
  | some (w, _) => wordLo (packWord w)

/-- What a read of RES_LO leaves: the rest of the word latched for its path. -/
def resLatched (s : State) (p : Path) (c : Nat) : State :=
  (s.modLatches p fun l => { l with res := sset none l.res c (some (BitVec.ofNat 32 (resHiOf (s.getChan c) p))) }).modChan c (latchedOn p)

theorem readResLo_eq (s : State) (p : Path) (c : Nat) : s.readResLo p c = (resLoOf (s.getChan c), resLatched s p c) := by
  cases p <;> rfl

theorem resLatched_chan (s : State) (p : Path) (c : Nat) : (resLatched s p c).getChan c = latchedOn p (s.getChan c) := by
  rw [resLatched, getChan_modChan_same, getChan_modLatches]

theorem resLatched_latch (s : State) (p : Path) (c : Nat) :
    sget none ((resLatched s p c).latches p).res c = some (BitVec.ofNat 32 (resHiOf (s.getChan c) p)) := by
  rw [resLatched, latches_modChan, latches_modLatches, sget_sset_same]

theorem resLatched_regs (s : State) (p : Path) (c : Nat) : (resLatched s p c).regs = s.regs := by
  rw [resLatched, modChan_regs, modLatches_regs]

theorem resLoRead_next {s : State} (hs : s.quiet = true) (p : Path) (c : Fin 512) :
    exec (.resLoRead p c) s = .next { resLatched s p c with rdata := [resLoOf (s.getChan c)] } :=
  (exec_resLoRead s p c).trans (act_answer _ _ _ _ (readResLo_eq s p c) hs (by simp [resLatched]) (by simp [resLatched]))

/-- Settles O23: RES_LO latches (`resLatched`), and RES_HI answers the latch where there is one. -/
theorem resultsAreReadInPairs : Obligations.ResultsAreReadInPairs := by
  unfold Obligations.ResultsAreReadInPairs
  intro p c s hs
  refine ⟨?_, ?_, ?_, ?_⟩
  · intro w i hres
    refine ⟨_, resLoRead_next hs p c, ?_, resLatched_latch s p c, ?_, ?_, resLatched_regs s p c⟩
    · simp only [resLoOf, hres]
    · exact (congrArg (freshOn · p) (resLatched_chan s p c)).trans (freshOn_latchedOn p _)
    · exact (congrArg Chan.res (resLatched_chan s p c)).trans ((latchedOn_res p _).trans hres)
  · intro v hv
    have hread : s.readResHi p c = (v, s.modLatches p fun l => { l with res := sset none l.res c none }) := by simp only [State.readResHi, hv]
    exact (exec_resHiRead s p c).trans (act_answer _ _ _ _ hread hs (quiet_modLatches s p _) (modLatches_pending s p _))
  · intro hres
    refine ⟨_, resLoRead_next hs p c, ?_, ?_, resLatched_regs s p c⟩
    · simp only [resLoOf, hres]; rfl
    · exact (congrArg Chan.res (resLatched_chan s p c)).trans ((latchedOn_res p _).trans hres)
  · intro hv
    have hread : s.readResHi p c = (BitVec.ofNat 32 (if (s.getChan c).res.isNone then 0 else 2 ^ 31 + resHiOf (s.getChan c) p), s) := by
      simp only [State.readResHi, hv]
    exact (exec_resHiRead s p c).trans (act_answer _ _ _ _ hread hs rfl rfl)

end Sys2Proof.SliceProofs

namespace Sys2Proof.SliceProofs

open Sys2Proof Sys2Proof.Machine Sys2Proof.Laws Sys2Proof.ScopeProofs Sys2Proof.TimeProofs Sys2Proof.TickProofs Sys2Proof.InputProofs

/-! ## What keeps a state calm, further (R174 to R179, R428) -/

theorem calm_otherWrite (l : List Nat) (s : State) : Calm l s s.otherWrite := Calm.of_mild (Mild.modRim s _ rfl rfl rfl rfl)
theorem calm_sent (l : List Nat) (s : State) (m : List (Nat × Sent)) : Calm l s { s with sent := m } :=
  ⟨fun _ _ => rfl, rfl, rfl, rfl, rfl, rfl, rfl⟩
theorem calm_modSent (l : List Nat) (s : State) (n : Nat) (f : Sent → Sent) : Calm l s (s.modSent n f) := calm_sent l s _

/-! ## Writes of CFG (R179) -/

theorem exec_sentCfgWrite (s : State) (n : Fin 16) (v : Reg) : exec (.sentCfgWrite n v) s = act (fun s => s.otherWrite.writeSentCfg n.val v) s := rfl

/-- A write of CFG that leaves a state calm but for registers that start-up does not read has its own effect and nothing else. -/
theorem sentCfgWrite_next {s t : State} (hs : s.quiet = true) {n : Fin 16} {v : Reg} {l : List Nat} (hf : s.otherWrite.writeSentCfg n.val v = t)
    (h : Calm l s.otherWrite t) (hl : 0x005040 ∉ l) : exec (.sentCfgWrite n v) s = .next t ∧ s.regsBut t l :=
  ⟨(exec_sentCfgWrite s n v).trans (((calm_otherWrite l s).trans h).act hs hf hl), h.regs⟩

/-- A write of CFG whose channel is watched already: EN reads 0 and CONFLICT is raised. -/
def cfgRefused (u : State) (n : Nat) : State :=
  ((u.setBit (F.SENT.CFG.EN n) false).modSent n fun x => { x with armed := false }).raiseInt Irq.conflict

theorem cfgRefused_calm {u : State} {n : Nat} (hb : u.bit (F.HDR.INT_ROUTE.INBAND pgSENT) = false) :
    Calm [(F.SENT.CFG.EN n).addr, 0x1000 * pgSENT + 0x010] u (cfgRefused u n) := by
  refine ((Calm.setBit u _ _ (by simp)).trans (calm_modSent _ _ _ _)).trans (Calm.raiseInt _ _ ?_ (by simp))
  refine (bit_setBit_other u _ _ _ (.inl ?_)).trans hb
  show 0x1000 * pgSENT + 0x018 ≠ 0x008100 + 0x20 * n
  omega

theorem cfgRefused_en (u : State) {n : Nat} : (cfgRefused u n).bit (F.SENT.CFG.EN n) = false := by
  rw [cfgRefused, raiseInt_bit _ _ _ (by simp only []; omega), modSent_bit, bit_setBit_same _ _ _ (show 0 + 1 ≤ 32 by decide) rfl]

theorem cfgRefused_armed (u : State) (n : Nat) : ((cfgRefused u n).getSent n).armed = false := by
  rw [cfgRefused, raiseInt_getSent, getSent_modSent_same]

/-- CFG takes a value; on a busy sentinel CH, THRESH and HYST in force stay. -/
def cfgTaken (u : State) (n : Nat) (v : Reg) : State := u.sentChange n fun s => s.setReg (F.SENT.CFG.EN n).addr (v &&& 0x01FF0F39#32)

theorem writeSentCfg_refused {u : State} {n : Nat} {v : Reg} (hv : v.getLsbD 0 = true) (ht : u.sentTaken n (getBits v 16 9) = true) :
    u.writeSentCfg n v = cfgRefused u n := if_pos ⟨hv, ht⟩

theorem writeSentCfg_enabling {u : State} {n : Nat} {v : Reg} (hv : v.getLsbD 0 = true) (ht : u.sentTaken n (getBits v 16 9) = false) :
    u.writeSentCfg n v = cfgTaken u n v := by
  rw [State.writeSentCfg, if_neg (by simp [ht]), cfgTaken]
  exact when_of_false _ _ (decide_eq_false fun h => Bool.false_ne_true (h.symm.trans hv))

theorem writeSentCfg_disabling {u : State} {n : Nat} {v : Reg} (hv : v.getLsbD 0 = false) :
    u.writeSentCfg n v = (cfgTaken u n v).modSent n fun x => { x with armed := false } := by
  rw [State.writeSentCfg, if_neg fun h => Bool.false_ne_true (hv.symm.trans h.1), cfgTaken]
  exact when_of_true _ _ (decide_eq_true hv)

/-- Beside the register only what the sentinel keeps of itself changes. -/
theorem cfgTaken_only (u : State) (n : Nat) (v : Reg) :
    ∃ m, cfgTaken u n v = { u.setReg (F.SENT.CFG.EN n).addr (v &&& 0x01FF0F39#32) with sent := m } := by
  rw [cfgTaken, State.sentChange]
  dsimp only
  split
  · exact ⟨_, rfl⟩
  · split
    · exact ⟨_, rfl⟩
    · exact ⟨_, rfl⟩

theorem cfgTaken_calm (u : State) (n : Nat) (v : Reg) : Calm [(F.SENT.CFG.EN n).addr] u (cfgTaken u n v) := by
  obtain ⟨m, hm⟩ := cfgTaken_only u n v
  rw [hm]
  exact (Calm.setReg u _ _ (by simp)).trans (calm_sent _ _ m)

theorem cfgTaken_reg (u : State) (n : Nat) (v : Reg) : (cfgTaken u n v).reg (F.SENT.CFG.EN n).addr = v &&& 0x01FF0F39#32 := by
  obtain ⟨m, hm⟩ := cfgTaken_only u n v
  rw [hm]
  exact reg_setReg_same u _ _

theorem cfgTaken_busy {u : State} {n : Nat} (v : Reg) (h : sentBusy (u.getSent n) = true) :
    (cfgTaken u n v).getSent n = { u.getSent n with old := some (u.sentInForce n) } := by
  rw [cfgTaken, State.sentChange]
  dsimp only
  rw [setReg_getSent, if_pos h, getSent_setSent_same]

/-- A write arms no sentinel. -/
theorem cfgTaken_armed {u : State} {n : Nat} (v : Reg) (h : ((cfgTaken u n v).getSent n).armed = true) : (u.getSent n).armed = true := by
  rw [cfgTaken, State.sentChange] at h
  dsimp only at h
  split at h
  · simpa using h
  · split at h
    · exact h
    · simp at h

/-! ## Reads of an event (R178, R513) -/

theorem exec_evtNs32Read (s : State) (p : Path) (n : Fin 16) :
    exec (.evtNs32Read p n) s = act (fun s => State.answer (s.readEvtNs p n)) s := rfl
theorem exec_evtValueRead (s : State) (p : Path) (n : Fin 16) :
    exec (.evtValueRead p n) s = act (fun s => State.answer (s.readEvtValue p n)) s := rfl

/-- What a read of EVT_NS32 leaves: EVT_INFO and EVT_VALUE latched for its path, and NEW clear. -/
def evtLatched (s : State) (p : Path) (n : Nat) : State :=
  (s.modLatches p fun l => { l with
    evt := sset none l.evt n (some (s.reg (F.SENT.EVT_INFO.BAD n).addr, s.reg (F.SENT.EVT_VALUE.VALUE n).addr)) }).setBit
    (F.SENT.EVT_INFO.NEW n) false

theorem readEvtNs_eq (s : State) (p : Path) (n : Nat) : s.readEvtNs p n = (s.reg (F.SENT.EVT_NS32.NS32 n).addr, evtLatched s p n) := by
  cases p <;> rfl

theorem evtNs32Read_next {s : State} (hs : s.quiet = true) (p : Path) (n : Fin 16) :
    exec (.evtNs32Read p n) s = .next { evtLatched s p n with rdata := [s.reg (F.SENT.EVT_NS32.NS32 n).addr] } := by
  refine (exec_evtNs32Read s p n).trans (act_answer _ _ _ _ (readEvtNs_eq s p n) hs ?_ ?_)
  · rw [evtLatched, quiet_setBit _ _ _ (by simp only []; omega), quiet_modLatches]
  · rw [evtLatched, setBit_pending, modLatches_pending]

theorem evtLatched_latch (s : State) (p : Path) (n : Nat) : sget none ((evtLatched s p n).latches p).evt n
    = some (s.reg (F.SENT.EVT_INFO.BAD n).addr, s.reg (F.SENT.EVT_VALUE.VALUE n).addr) := by
  have hl : (evtLatched s p n).latches p = (s.modLatches p fun l => { l with
    evt := sset none l.evt n (some (s.reg (F.SENT.EVT_INFO.BAD n).addr, s.reg (F.SENT.EVT_VALUE.VALUE n).addr)) }).latches p := by
    cases p <;> rfl
  rw [hl, latches_modLatches, sget_sset_same]

theorem evtLatched_new (s : State) (p : Path) (n : Nat) : (evtLatched s p n).bit (F.SENT.EVT_INFO.NEW n) = false := by
  rw [evtLatched, bit_setBit_same _ _ _ (show 10 + 1 ≤ 32 by decide) rfl]

theorem evtLatched_regs (s : State) (p : Path) (n : Nat) : s.regsBut (evtLatched s p n) [(F.SENT.EVT_INFO.NEW n).addr] := by
  intro a ha
  rw [evtLatched, reg_setBit_ne _ _ _ _ (by simpa using ha), modLatches_reg]

/-- Settles O25: a write of CFG is refused (`cfgRefused`) or taken (`cfgTaken`), and EVT_NS32 latches the event (`evtLatched`). -/
theorem sentinelRegisters : Obligations.SentinelRegisters := by
  unfold Obligations.SentinelRegisters
  intro n p s hs hb
  have hn : 0x005040 ∉ [(F.SENT.CFG.EN n.val).addr] := by simp; omega
  refine ⟨?_, ?_, ?_, ?_, ?_, ?_, ?_⟩
  · intro v hv
    have hcalm := (cfgTaken_calm s.otherWrite n v).trans (calm_modSent _ _ n fun x => { x with armed := false })
    obtain ⟨hnext, hregs⟩ := sentCfgWrite_next hs (writeSentCfg_disabling hv) hcalm hn
    exact ⟨_, hnext, cfgTaken_reg s.otherWrite n v, congrArg Sent.armed (getSent_modSent_same _ _ _), hregs⟩
  · intro v hv ht
    obtain ⟨hnext, hregs⟩ := sentCfgWrite_next hs (writeSentCfg_refused hv ht) (cfgRefused_calm hb) (by simp; omega)
    exact ⟨_, hnext, cfgRefused_en _, cfgRefused_armed _ _, raiseInt_irq _ Irq.conflict (by decide), hregs⟩
  · intro v hv ht _
    obtain ⟨hnext, hregs⟩ := sentCfgWrite_next hs (writeSentCfg_enabling hv ht) (cfgTaken_calm s.otherWrite n v) hn
    exact ⟨_, hnext, cfgTaken_reg _ n v, cfgTaken_armed v, hregs⟩
  · intro v hv ht hbusy
    obtain ⟨hnext, hregs⟩ := sentCfgWrite_next hs (writeSentCfg_enabling hv ht) (cfgTaken_calm s.otherWrite n v) hn
    have hold := congrArg Sent.old (cfgTaken_busy (u := s.otherWrite) v hbusy)
    refine ⟨_, hnext, cfgTaken_reg _ n v, hold, ?_, hregs⟩
    rw [State.sentInForce, hold]
    rfl
  · exact ⟨_, evtNs32Read_next hs p n, rfl, evtLatched_latch s p n, evtLatched_new s p n, evtLatched_regs s p n⟩
  · intro i v h
    have hread : s.readEvtValue p n = (v, s.modLatches p fun l => { l with evt := sset none l.evt n none }) := by
      simp only [State.readEvtValue, h]
    exact (exec_evtValueRead s p n).trans (act_answer _ _ _ _ hread hs (quiet_modLatches s p _) (modLatches_pending s p _))
  · intro h
    have hread : s.readEvtValue p n = (s.reg (F.SENT.EVT_VALUE.VALUE n).addr ||| 0x80000000#32, s) := by simp only [State.readEvtValue, h]
    exact (exec_evtValueRead s p n).trans (act_answer _ _ _ _ hread hs rfl rfl)

end Sys2Proof.SliceProofs

namespace Sys2Proof.SliceProofs

open Sys2Proof Sys2Proof.Machine Sys2Proof.Laws Sys2Proof.ScopeProofs Sys2Proof.TimeProofs Sys2Proof.TickProofs Sys2Proof.InputProofs

/-! ## What a sentinel keeps of itself -/

/-- Of two writes of a key the later one stands. -/
theorem sset_sset {α : Type} [DecidableEq α] (d : α) (m : List (Nat × α)) (a : Nat) (v w : α) : sset d (sset d m a v) a w = sset d m a w := by
  have hdrop (l : List (Nat × α)) : (l.dropWhile fun e => decide (e.1 ≤ a)).dropWhile (fun e => decide (e.1 ≤ a))
      = l.dropWhile fun e => decide (e.1 ≤ a) := List.dropWhile_idempotent _ l
  have hpast (l : List (Nat × α)) (hl : l.dropWhile (fun e => decide (e.1 ≤ a)) = l) :
      sset d l a w = if w = d then l else (a, w) :: l := by
    cases l with
    | nil => rfl
    | cons e l =>
      have hlt : a < e.1 := by
        by_contra h
        have hlen := congrArg List.length hl
        rw [List.dropWhile_cons_of_pos (by simpa using h)] at hlen
        exact absurd (hlen ▸ (List.dropWhile_sublist _).length_le) (by simp)
      rw [sset, if_pos hlt]
  induction m with
  | nil => by_cases hv : v = d <;> simp [sset, hv]
  | cons e m ih =>
    obtain ⟨k, x⟩ := e
    by_cases hlt : a < k
    · by_cases hv : v = d
      · simp [sset, hlt, hv]
      · simp [sset, hlt, hv]
    · by_cases hk : a = k
      · subst hk
        by_cases hv : v = d
        · simp only [sset, hlt, if_false, if_true, hv]
          exact hpast _ (hdrop m)
        · simp only [sset, hlt, if_false, if_true, hv, hdrop]
      · simp only [sset, hlt, hk, if_false, ih]

theorem modSent_modSent (s : State) (n : Nat) (f g : Sent → Sent) : (s.modSent n f).modSent n g = s.modSent n fun x => g (f x) := by
  have hsent : ((s.modSent n f).modSent n g).sent = (s.modSent n fun x => g (f x)).sent := by
    show sset _ (sset _ s.sent n _) n (g ((s.modSent n f).getSent n)) = _
    rw [getSent_modSent_same, sset_sset]
    rfl
  show { s with sent := ((s.modSent n f).modSent n g).sent } = _
  rw [hsent]
  rfl

/-! ## The hold of a sentinel latches (R175, R176) -/

/-- A crossing disarms the sentinel. -/
def disarmed (s : State) (n : Nat) : State := s.modSent n fun x => { x with armed := false }

theorem disarmed_sent (s : State) (n : Nat) : (disarmed s n).getSent n = { s.getSent n with armed := false } := getSent_modSent_same _ _ _

/-- Whether a hold latched at an instant does not depend on arming. -/
theorem disarmed_sentWith (s : State) (n : Nat) (st : Stamp) (m : Nat) : (disarmed s n).sentWith st m = s.sentWith st m := by
  have hlatched : ((disarmed s n).getSent m).latched = (s.getSent m).latched := by
    by_cases h : m = n
    · rw [h, disarmed_sent]
    · rw [disarmed, getSent_modSent_ne _ _ _ _ h]
  rw [State.sentWith, hlatched, State.sentWith]

/-- The holds latched at the same instant that the hold of sentinel `n` goes ahead of. -/
def behind (s : State) (n : Nat) (st : Stamp) : List Nat := s.sentQ.reverse.takeWhile fun m => s.sentWith st m && decide (n < m)

theorem sentLatch_queue (s : State) (n : Nat) (st : Stamp) (below : Bool) : (s.sentLatch n st below).sentQ
    = s.sentQ.take (s.sentQ.length - (behind s n st).length) ++ n :: (behind s n st).reverse := rfl

theorem sentLatch_sent (s : State) (n : Nat) (st : Stamp) (below : Bool) : ∃ d, (s.sentLatch n st below).getSent n
    = { s.getSent n with latched := some (st, below, false, d) } := 
  ⟨s.drawFree.1.natAbs % 3, getSent_modSent_same s.drawFree.2 n fun x => { x with latched := some (st, below, false, s.drawFree.1.natAbs % 3) }⟩

/-- With no other hold of that instant it joins the end of the queue. -/
theorem sentLatch_queue_last {s : State} {n : Nat} {st : Stamp} (below : Bool) (h : s.sentQ.all (fun m => !s.sentWith st m) = true) :
    (s.sentLatch n st below).sentQ = s.sentQ ++ [n] := by
  have hnone : behind s n st = [] := by
    refine List.takeWhile_eq_nil_iff.2 fun hlen => ?_
    have hmem : s.sentQ.reverse[0] ∈ s.sentQ := List.mem_reverse.1 (List.getElem_mem hlen)
    simpa using fun hw => absurd (List.all_eq_true.1 h _ hmem) (by simp [hw])
  rw [sentLatch_queue, hnone]
  simp

/-- It goes ahead of a hold of that instant with a higher number. -/
theorem sentLatch_queue_ahead {s : State} {n m : Nat} {st : Stamp} {l : List Nat} (below : Bool) (hq : s.sentQ = l ++ [m]) (hm : n < m)
    (hw : s.sentWith st m = true) (hl : l.all (fun j => !s.sentWith st j) = true) : (s.sentLatch n st below).sentQ = l ++ [n, m] := by
  have hstop : l.reverse.takeWhile (fun j => s.sentWith st j && decide (n < j)) = [] := by
    refine List.takeWhile_eq_nil_iff.2 fun hlen => ?_
    have hmem : l.reverse[0] ∈ l := List.mem_reverse.1 (List.getElem_mem hlen)
    simpa using fun hw => absurd (List.all_eq_true.1 hl _ hmem) (by simp [hw])
  have hone : behind s n st = [m] := by
    rw [behind, hq, List.reverse_append, List.reverse_singleton, List.singleton_append,
      List.takeWhile_cons_of_pos (by simp [hw, hm]), hstop]
  rw [sentLatch_queue, hone, hq]
  simp

theorem sentLatch_calm (s : State) (n : Nat) (st : Stamp) (below : Bool) : Calm [] s (s.sentLatch n st below) :=
  ⟨fun _ _ => rfl, rfl, rfl, rfl, rfl, rfl, rfl⟩

/-! ## A crossing (R174 to R177) -/

theorem exec_sentinelArm (s : State) (n : Fin 16) : exec (.sentinelArm n) s = act (·.sentArm n) s := rfl
theorem exec_sentinelCrossing (s : State) (n : Fin 16) (below : Bool) (st : Stamp) :
    exec (.sentinelCrossing n below st) s = act (·.sentCross n below st) s := rfl

/-- The sentinel is armed, watches a signal, and the edge of that side is enabled. -/
structure Crosses (s : State) (n : Nat) (below : Bool) : Prop where
  armed : (s.getSent n).armed = true
  watches : s.sentWatches n = true
  edge : s.bit (if below then F.SENT.CFG.EDGE_LO n else F.SENT.CFG.EDGE_HI n) = true

theorem bit_edge (s : State) (n : Nat) (below : Bool) : s.bit (if below then F.SENT.CFG.EDGE_LO n else F.SENT.CFG.EDGE_HI n)
    = if below then s.bit (F.SENT.CFG.EDGE_LO n) else s.bit (F.SENT.CFG.EDGE_HI n) := by cases below <;> rfl

theorem sentCross_idle {s : State} {n : Nat} {below : Bool} (st : Stamp) (h : (s.getSent n).armed = false ∨ s.sentWatches n = false
    ∨ s.bit (if below then F.SENT.CFG.EDGE_LO n else F.SENT.CFG.EDGE_HI n) = false) : s.sentCross n below st = s := by
  rw [bit_edge] at h
  refine if_neg ?_
  rcases h with h | h | h <;> simp [h]

/-- The trigger engine is told of the crossing, where it listens. -/
def crossTriggered (s : State) (n : Nat) (st : Stamp) : State :=
  (disarmed s n).when ((disarmed s n).bit (F.SENT.CFG.TRIG_EN n)) fun s => s.crossTriggers n (stampUnits st)

/-- So is the wale bus. -/
def crossTold (s : State) (n : Nat) (st : Stamp) : State :=
  (crossTriggered s n st).when ((crossTriggered s n st).bit (F.SENT.CFG.WALE_EN n)) fun s => s.waleTrigger (s.fld (F.SENT.CFG.WALE_LINE n))

theorem crossTold_silent {s : State} {n : Nat} (st : Stamp) (ht : s.bit (F.SENT.CFG.TRIG_EN n) = false)
    (hw : s.bit (F.SENT.CFG.WALE_EN n) = false) : crossTold s n st = disarmed s n := by
  have htrig : crossTriggered s n st = disarmed s n := when_of_false _ _ ht
  rw [crossTold, htrig]
  exact when_of_false _ _ hw

/-- What the crossing leads to: a hold, a pending crossing or an overrun. -/
def crossHeld (u : State) (x : Sent) (n : Nat) (below : Bool) (st : Stamp) : State :=
  if x.latched.isNone then u.sentLatch n st below
  else if x.pend.isNone then u.modSent n fun x => { x with pend := some (st, below) }
  else (u.count (F.SENT.OVERRUN.SENT_OVERRUN n)).raiseInt Irq.overrun

theorem sentCross_eq {s : State} {n : Nat} {below : Bool} (h : Crosses s n below) (st : Stamp) :
    s.sentCross n below st = crossHeld (crossTold s n st) (s.getSent n) n below st := by
  have hedge := (bit_edge s n below).symm.trans h.edge
  refine if_pos ?_
  rw [h.armed, h.watches]
  simpa using hedge

theorem crossHeld_latch (u : State) {x : Sent} (n : Nat) (below : Bool) (st : Stamp) (h : x.latched = none) :
    crossHeld u x n below st = u.sentLatch n st below := if_pos (by simp [h])

theorem crossHeld_pend (u : State) {x : Sent} (n : Nat) (below : Bool) (st : Stamp) (h : x.latched.isSome = true) (hp : x.pend = none) :
    crossHeld u x n below st = u.modSent n fun x => { x with pend := some (st, below) } := by
  rw [crossHeld, if_neg (by simpa using Option.ne_none_iff_isSome.2 h), if_pos (by simp [hp])]

theorem crossHeld_over (u : State) {x : Sent} (n : Nat) (below : Bool) (st : Stamp) (h : x.latched.isSome = true) (hp : x.pend.isSome = true) :
    crossHeld u x n below st = (u.count (F.SENT.OVERRUN.SENT_OVERRUN n)).raiseInt Irq.overrun := by
  rw [crossHeld, if_neg (by simpa using Option.ne_none_iff_isSome.2 h), if_neg (by simpa using Option.ne_none_iff_isSome.2 hp)]

/-! ### A crossing that the trigger engine and the wale bus hear of (R175) -/

/-- What the sentinels keep and their queue are those of `w`, and at most in-band interrupts wait. -/
structure SentKept (w t : State) : Prop where
  due : OnlyDue t
  sent : t.sent = w.sent
  queue : t.sentQ = w.sentQ

namespace SentKept

variable {w t : State}

theorem setReg (h : SentKept w t) (a : Nat) (v : Reg) (ha : a ≠ 0x005040) : SentKept w (t.setReg a v) := ⟨h.due.setReg ha, h.sent, h.queue⟩

theorem kept : ChainKept (SentKept w) where
  reg a v ha h := h.setReg a v fun e => absurd (e ▸ ha) (by decide)
  store _ _ _ _ _ h := ⟨h.due, h.sent, h.queue⟩
  rim r hr h := ⟨OnlyDue.kept.rim r hr h.due, h.sent, h.queue⟩
  waiting _ h := ⟨h.due, h.sent, h.queue⟩
  capture _ _ _ h := ⟨h.due, h.sent, h.queue⟩
  chan _ _ _ h := ⟨h.due, h.sent, h.queue⟩

variable (h : SentKept w t)
include h

theorem crossTriggers (n i : Nat) : SentKept w (t.crossTriggers n i) := by
  unfold State.crossTriggers
  exact QueueKept.each h fun t x _ h => QueueKept.ite (kept.deliver h) h

theorem waleTriggers (n i : Nat) : SentKept w (t.waleTriggers n i) := by
  unfold State.waleTriggers
  exact QueueKept.ite h (QueueKept.each h fun t x _ h => QueueKept.ite (kept.deliver h) h)

theorem walePulse (line width : Nat) : SentKept w (t.walePulse line width) := by
  unfold State.walePulse
  have hdriven (f : Wale → Wale) : SentKept w (t.modWale f) := ⟨h.due, h.sent, h.queue⟩
  exact QueueKept.ite (h.setReg _ _ (by decide)) ((hdriven _).setReg _ _ (by decide))

theorem waleTrigger (line : Nat) : SentKept w (t.waleTrigger line) := by
  unfold State.waleTrigger
  exact QueueKept.ite (QueueKept.when (h.walePulse line 80) fun h => h.waleTriggers _ _) h

end SentKept

theorem crossTold_kept {s : State} (hs : s.quiet = true) (n : Nat) (st : Stamp) : SentKept (disarmed s n) (crossTold s n st) := by
  have hbegun : SentKept (disarmed s n) (disarmed s n) := ⟨OnlyDue.of_quiet ((quiet_modSent s n _).trans hs), rfl, rfl⟩
  have htrig : SentKept (disarmed s n) (crossTriggered s n st) := QueueKept.when hbegun fun h => h.crossTriggers _ _
  exact QueueKept.when htrig fun h => h.waleTrigger _

end Sys2Proof.SliceProofs

namespace Sys2Proof.SliceProofs

open Sys2Proof Sys2Proof.Machine Sys2Proof.Laws Sys2Proof.ScopeProofs Sys2Proof.TimeProofs Sys2Proof.TickProofs Sys2Proof.InputProofs

/-! ## Conversions of SENT_ADC (R176, R177, R180) -/

theorem exec_sentAdcComplete (s : State) (code : BitVec 24) : exec (.sentAdcComplete code) s = act (·.sentEvent code false) s := rfl
theorem exec_sentAdcTimeout (s : State) : exec .sentAdcTimeout s = act State.sentTimeout s := rfl

theorem sentEvent_none {s : State} (code : BitVec 24) (bad : Bool) (h : s.sentQ = []) : s.sentEvent code bad = s := by
  simp only [State.sentEvent, h]

theorem sentTimeout_none {s : State} (h : s.sentQ = []) : s.sentTimeout = s := if_pos (by simp [h])

/-- A hold that is latched: the stamp of its crossing, its side, LATE_HOLD and HOLD_DLY. -/
abbrev Hold := Stamp × Bool × Bool × Nat

/-- The fields of EVT_INFO of an event. -/
def infoShown (u : State) (n : Nat) (e : Hold) (bad : Bool) : State :=
  ((((((u.setFld (F.SENT.EVT_INFO.HOLD_DLY n) e.2.2.2).setFld (F.SENT.EVT_INFO.FRAC n) e.1.frac).setBit (F.SENT.EVT_INFO.BAD n) bad).setBit
    (F.SENT.EVT_INFO.NEW n) true).setBit (F.SENT.EVT_INFO.LATE_HOLD n) e.2.2.1).setBit (F.SENT.EVT_INFO.DIR n) e.2.1)

/-- The event registers of a conversion, its count and its interrupt. -/
def eventShown (u : State) (n : Nat) (e : Hold) (code : BitVec 24) (bad : Bool) : State :=
  (((infoShown (u.setFld (F.SENT.EVT_NS32.NS32 n) (ns32Of (stampNs e.1))) n e bad).setFld (F.SENT.EVT_VALUE.VALUE n) code.toNat).count
    (F.SENT.CROSS_CNT.CNT n)).raiseInt (Irq.cross n)

/-- The hold of the first sentinel in the queue is taken for its conversion. -/
def holdTaken (s : State) (n : Nat) (rest : List Nat) : State := { s with sentQ := rest }.modSent n fun x => { x with latched := none }

theorem sentEvent_eq {s : State} {n : Nat} {rest : List Nat} {e : Hold} (code : BitVec 24) (bad : Bool) (hq : s.sentQ = n :: rest)
    (he : (s.getSent n).latched = some e) :
    s.sentEvent code bad = ((eventShown (holdTaken s n rest) n e code bad).sentRelatch n).sentFree n := by
  have he' : (({ s with sentQ := rest } : State).getSent n).latched = some e := he
  obtain ⟨st, below, late, dly⟩ := e
  simp only [State.sentEvent, hq, he']
  rfl

/-- The registers that an event touches. -/
abbrev eventRegs (n : Nat) : List Nat :=
  [(F.SENT.EVT_NS32.NS32 n).addr, (F.SENT.EVT_INFO.NEW n).addr, (F.SENT.EVT_VALUE.VALUE n).addr, (F.SENT.CROSS_CNT.CNT n).addr, 0x1000 * pgSENT + 0x010]

/-- What the event registers tell of a conversion. -/
structure EventTold (s : State) (n : Nat) (e : Hold) (code : BitVec 24) (bad : Bool) (t : State) : Prop where
  ns32 : t.fld (F.SENT.EVT_NS32.NS32 n) = ns32Of (stampNs e.1)
  value : t.fld (F.SENT.EVT_VALUE.VALUE n) = code.toNat
  dly : t.fld (F.SENT.EVT_INFO.HOLD_DLY n) = e.2.2.2 % 2 ^ 16
  frac : t.fld (F.SENT.EVT_INFO.FRAC n) = e.1.frac % 2 ^ 4
  new : t.bit (F.SENT.EVT_INFO.NEW n) = true
  bad : t.bit (F.SENT.EVT_INFO.BAD n) = bad
  dir : t.bit (F.SENT.EVT_INFO.DIR n) = e.2.1
  late : t.bit (F.SENT.EVT_INFO.LATE_HOLD n) = e.2.2.1
  cnt : t.fld (F.SENT.CROSS_CNT.CNT n) = min (2 ^ (F.SENT.CROSS_CNT.CNT n).width - 1) (s.fld (F.SENT.CROSS_CNT.CNT n) + 1)
  irq : (t.reg (0x1000 * pgSENT + 0x010)).getLsbD (Irq.cross n).bit = true

theorem infoShown_calm (u : State) (n : Nat) (e : Hold) (bad : Bool) : Calm [(F.SENT.EVT_INFO.NEW n).addr] u (infoShown u n e bad) := by
  unfold infoShown
  exact (((((Calm.setFld u _ _ (by simp)).trans (Calm.setFld _ _ _ (by simp))).trans (Calm.setBit _ _ _ (by simp))).trans
    (Calm.setBit _ _ _ (by simp))).trans (Calm.setBit _ _ _ (by simp))).trans (Calm.setBit _ _ _ (by simp))

theorem infoShown_dly (u : State) (n : Nat) (e : Hold) (bad : Bool) : (infoShown u n e bad).fld (F.SENT.EVT_INFO.HOLD_DLY n) = e.2.2.2 % 2 ^ 16 := by
  simp (disch := simp) only [infoShown, fld_setBit_other, fld_setFld_other, fld_setFld_same]

theorem infoShown_frac (u : State) (n : Nat) (e : Hold) (bad : Bool) : (infoShown u n e bad).fld (F.SENT.EVT_INFO.FRAC n) = e.1.frac % 2 ^ 4 := by
  simp (disch := simp) only [infoShown, fld_setBit_other, fld_setFld_same]

theorem infoShown_bad (u : State) (n : Nat) (e : Hold) (bad : Bool) : (infoShown u n e bad).bit (F.SENT.EVT_INFO.BAD n) = bad := by
  simp (disch := simp) only [infoShown, bit_setBit_other, bit_setBit_same]

theorem infoShown_new (u : State) (n : Nat) (e : Hold) (bad : Bool) : (infoShown u n e bad).bit (F.SENT.EVT_INFO.NEW n) = true := by
  simp (disch := simp) only [infoShown, bit_setBit_other, bit_setBit_same]

theorem infoShown_late (u : State) (n : Nat) (e : Hold) (bad : Bool) : (infoShown u n e bad).bit (F.SENT.EVT_INFO.LATE_HOLD n) = e.2.2.1 := by
  simp (disch := simp) only [infoShown, bit_setBit_other, bit_setBit_same]

theorem infoShown_dir (u : State) (n : Nat) (e : Hold) (bad : Bool) : (infoShown u n e bad).bit (F.SENT.EVT_INFO.DIR n) = e.2.1 :=
  bit_setBit_same _ _ _ (show 8 + 1 ≤ 32 by decide) rfl

/-- An event leaves EVT_INFO as its fields were shown. -/
theorem eventShown_info (u : State) (n : Nat) (e : Hold) (code : BitVec 24) (bad : Bool) (f : Fld) (hf : f.addr = 0x008110 + 0x20 * n) :
    (eventShown u n e code bad).fld f = (infoShown (u.setFld (F.SENT.EVT_NS32.NS32 n) (ns32Of (stampNs e.1))) n e bad).fld f := by
  rw [eventShown, raiseInt_fld _ _ _ (by rw [hf]; simp only [pgSENT]; omega), fld_count_other _ _ _ _ (.inl (by rw [hf]; simp only []; omega)),
    fld_setFld_other _ _ _ _ (.inl (by rw [hf]; simp only []; omega))]

theorem eventShown_told (u : State) {n : Nat} (hn : n < 16) (e : Hold) (code : BitVec 24) (bad : Bool) :
    EventTold u n e code bad (eventShown u n e code bad) := by
  have hirq (f : Fld) (hf : 0x008100 ≤ f.addr) : f.addr ≠ 0x1000 * (Irq.cross n).page + 0x010 := by simp only [pgSENT]; omega
  have hinfo (w : State) (f : Fld) (hf : f.addr ≠ 0x008110 + 0x20 * n) : (infoShown w n e bad).fld f = w.fld f :=
    (infoShown_calm w n e bad).fld f (by simpa using hf)
  have hbit (f : Fld) (hf : f.addr = 0x008110 + 0x20 * n) :
      (eventShown u n e code bad).bit f = (infoShown (u.setFld (F.SENT.EVT_NS32.NS32 n) (ns32Of (stampNs e.1))) n e bad).bit f := by
    rw [State.bit, eventShown_info u n e code bad f hf, State.bit]
  refine ⟨?_, ?_, ?_, ?_, ?_, ?_, ?_, ?_, ?_, ?_⟩
  · rw [eventShown, raiseInt_fld _ _ _ (hirq _ (Nat.le_add_right_of_le (by decide))), fld_count_other _ _ _ _ (.inl (by simp)),
      fld_setFld_other _ _ _ _ (.inl (by simp)), hinfo _ _ (by simp), fld_setFld_same _ _ _ (by simp)]
    exact Nat.mod_eq_of_lt (Nat.mod_lt _ (by decide))
  · rw [eventShown, raiseInt_fld _ _ _ (hirq _ (Nat.le_add_right_of_le (by decide))), fld_count_other _ _ _ _ (.inl (by simp)),
      fld_setFld_same _ _ _ (by simp)]
    exact Nat.mod_eq_of_lt code.isLt
  · rw [eventShown_info u n e code bad _ rfl, infoShown_dly]
  · rw [eventShown_info u n e code bad _ rfl, infoShown_frac]
  · rw [hbit _ rfl, infoShown_new]
  · rw [hbit _ rfl, infoShown_bad]
  · rw [hbit _ rfl, infoShown_dir]
  · rw [hbit _ rfl, infoShown_late]
  · rw [eventShown, raiseInt_fld _ _ _ (hirq _ (Nat.le_add_right_of_le (by decide))), fld_count_same _ (F.SENT.CROSS_CNT.CNT n) 1 (Nat.le_refl 32),
      fld_setFld_other _ _ _ _ (.inl (by simp)), hinfo _ _ (by simp), fld_setFld_other _ _ _ _ (.inl (by simp))]
  · exact raiseInt_irq _ (Irq.cross n) (by simp only []; omega)

theorem eventShown_calm {u : State} (n : Nat) (e : Hold) (code : BitVec 24) (bad : Bool)
    (hb : u.bit (F.HDR.INT_ROUTE.INBAND pgSENT) = false) : Calm (eventRegs n) u (eventShown u n e code bad) := by
  have hshown : Calm (eventRegs n) u (((infoShown (u.setFld (F.SENT.EVT_NS32.NS32 n) (ns32Of (stampNs e.1))) n e bad).setFld
      (F.SENT.EVT_VALUE.VALUE n) code.toNat).count (F.SENT.CROSS_CNT.CNT n)) :=
    (((Calm.setFld u _ _ (by simp)).trans ((infoShown_calm _ n e bad).mono (by simp))).trans (Calm.setFld _ _ _ (by simp))).trans
      (Calm.count _ _ _ (by simp))
  refine hshown.trans (Calm.raiseInt _ _ ?_ (by simp))
  refine (hshown.bit _ ?_).trans hb
  simp only [pgSENT, List.mem_cons, List.not_mem_nil, or_false]
  omega

theorem eventShown_sent (u : State) (n : Nat) (e : Hold) (code : BitVec 24) (bad : Bool) : (eventShown u n e code bad).sent = u.sent := by
  simp only [eventShown, infoShown, raiseInt_sent, count_sent, setFld_sent, setBit_sent]
theorem eventShown_sentQ (u : State) (n : Nat) (e : Hold) (code : BitVec 24) (bad : Bool) : (eventShown u n e code bad).sentQ = u.sentQ := by
  simp only [eventShown, infoShown, raiseInt_sentQ, count_sentQ, setFld_sentQ, setBit_sentQ]

/-! ### The sentinel after its conversion (R177, R179) -/

/-- Without a pending crossing no hold latches. -/
theorem sentRelatch_none {u : State} {n : Nat} (h : (u.getSent n).pend = none) : u.sentRelatch n = u := by simp only [State.sentRelatch, h]

/-- The hold latches late, for a crossing on a side, and its conversion joins the end of the queue. -/
def latchedAgain (u : State) (n : Nat) (e : Hold) : State :=
  { u.modSent n (fun x => { x with latched := some e, pend := none }) with sentQ := u.sentQ ++ [n] }

/-- `State.sentRelatch` over the rounding of HOLD_DLY and the instant, so that nothing has to evaluate them. -/
def relatchBy (round : Int → Nat → Int × State) (now : Nat) (u : State) (n : Nat) (pend : Option (Stamp × Bool)) : State :=
  match pend with
  | none => u
  | some (t, below) =>
    let (d, s) := round ((8 * now : Nat) - (stampUnits t : Int)) 8
    let s := s.modSent n fun x => { x with latched := some (t, below, true, satNat 0xFFFF d.toNat), pend := none }
    { s with sentQ := s.sentQ ++ [n] }

theorem sentRelatch_eq (u : State) (n : Nat) : u.sentRelatch n = relatchBy u.roundFree u.nowNs u n (u.getSent n).pend := by
  unfold State.sentRelatch relatchBy
  generalize State.roundFree u = round
  generalize State.nowNs u = now
  rfl

theorem relatchBy_some (round : Int → Nat → Int × State) (now : Nat) (u : State) (n : Nat) (st : Stamp) (side : Bool) :
    relatchBy round now u n (some (st, side)) = latchedAgain (round ((8 * now : Nat) - (stampUnits st : Int)) 8).2 n
      (st, side, true, satNat 0xFFFF (round ((8 * now : Nat) - (stampUnits st : Int)) 8).1.toNat) := rfl

theorem sentRelatch_some {u : State} {n : Nat} {st : Stamp} {side : Bool} (h : (u.getSent n).pend = some (st, side)) :
    ∃ k d, u.sentRelatch n = latchedAgain { u with free := k } n (st, side, true, d) := by
  have hfree := roundFree_only u ((8 * u.nowNs : Nat) - (stampUnits st : Int)) 8
  have hlatch := relatchBy_some u.roundFree u.nowNs u n st side
  rw [hfree] at hlatch
  exact ⟨_, _, (sentRelatch_eq u n).trans ((congrArg _ h).trans hlatch)⟩

theorem latchedAgain_sent (u : State) (n : Nat) (e : Hold) :
    (latchedAgain u n e).getSent n = { u.getSent n with latched := some e, pend := none } :=
  getSent_modSent_same u n fun x => { x with latched := some e, pend := none }

theorem latchedAgain_calm (u : State) (n : Nat) (e : Hold) : Calm [] u (latchedAgain u n e) := ⟨fun _ _ => rfl, rfl, rfl, rfl, rfl, rfl, rfl⟩

/-- No change of CH, THRESH or HYST waits. -/
theorem sentFree_none {u : State} {n : Nat} (h : (u.getSent n).old = none) : u.sentFree n = u := if_pos (by simp [h])

theorem eventShown_taken (s : State) (n : Nat) (rest : List Nat) (e : Hold) (code : BitVec 24) (bad : Bool) :
    (eventShown (holdTaken s n rest) n e code bad).getSent n = { s.getSent n with latched := none } := by
  rw [State.getSent, eventShown_sent]
  exact getSent_modSent_same _ _ _

/-- A conversion without a pending crossing leaves the sentinel free. -/
theorem sentEvent_last {s : State} {n : Nat} {rest : List Nat} {e : Hold} (code : BitVec 24) (bad : Bool) (hq : s.sentQ = n :: rest)
    (he : (s.getSent n).latched = some e) (hp : (s.getSent n).pend = none) (ho : (s.getSent n).old = none) :
    s.sentEvent code bad = eventShown (holdTaken s n rest) n e code bad := by
  have hsent := eventShown_taken s n rest e code bad
  rw [sentEvent_eq code bad hq he, sentRelatch_none (by rw [hsent, hp]), sentFree_none (by rw [hsent, ho])]

/-- One with a pending crossing latches the hold again. -/
theorem sentEvent_again {s : State} {n : Nat} {rest : List Nat} {e : Hold} (code : BitVec 24) (bad : Bool) (hq : s.sentQ = n :: rest)
    (he : (s.getSent n).latched = some e) {st : Stamp} {side : Bool} (hp : (s.getSent n).pend = some (st, side))
    (ho : (s.getSent n).old = none) : ∃ k d, s.sentEvent code bad
      = latchedAgain { eventShown (holdTaken s n rest) n e code bad with free := k } n (st, side, true, d) := by
  have hsent := eventShown_taken s n rest e code bad
  obtain ⟨k, d, hrelatch⟩ := sentRelatch_some (u := eventShown (holdTaken s n rest) n e code bad) (by rw [hsent]; exact hp)
  refine ⟨k, d, ?_⟩
  rw [sentEvent_eq code bad hq he, hrelatch]
  refine sentFree_none ?_
  rw [latchedAgain_sent]
  exact (congrArg Sent.old hsent).trans ho

theorem EventTold.of_reg {s w t : State} {n : Nat} {e : Hold} {code : BitVec 24} {bad : Bool} (h : EventTold s n e code bad w)
    (hr : ∀ a, t.reg a = w.reg a) : EventTold s n e code bad t := by
  have hfld (f : Fld) : t.fld f = w.fld f := congrArg (fun r => getBits r _ _) (hr _)
  have hbit (f : Fld) : t.bit f = w.bit f := by rw [State.bit, hfld, State.bit]
  exact ⟨(hfld _).trans h.ns32, (hfld _).trans h.value, (hfld _).trans h.dly, (hfld _).trans h.frac, (hbit _).trans h.new,
    (hbit _).trans h.bad, (hbit _).trans h.dir, (hbit _).trans h.late, (hfld _).trans h.cnt, (hr _).symm ▸ h.irq⟩

end Sys2Proof.SliceProofs

namespace Sys2Proof.SliceProofs

open Sys2Proof Sys2Proof.Machine Sys2Proof.Laws Sys2Proof.ScopeProofs Sys2Proof.TimeProofs Sys2Proof.TickProofs Sys2Proof.InputProofs

/-! ## Crossings and conversions on a quiet state (R174 to R177, R180, R185) -/

/-- A hold latches with its stamp and side, and not late. -/
theorem sentLatch_hold (u : State) (n : Nat) (st : Stamp) (below : Bool) :
    (((u.sentLatch n st below).getSent n).latched.map fun e => (e.1, e.2.1, e.2.2.1)) = some (st, below, false) := by
  obtain ⟨d, hd⟩ := sentLatch_sent u n st below
  rw [hd]
  rfl

theorem sentLatch_armed (u : State) (n : Nat) (st : Stamp) (below : Bool) :
    ((u.sentLatch n st below).getSent n).armed = (u.getSent n).armed := by
  obtain ⟨d, hd⟩ := sentLatch_sent u n st below
  rw [hd]

theorem all_not_sentWith_congr {s u : State} (hs : ∀ st m, u.sentWith st m = s.sentWith st m) {st : Stamp} {l : List Nat}
    (h : l.all (fun m => !s.sentWith st m) = true) : l.all (fun m => !u.sentWith st m) = true := by
  simp only [hs]
  exact h

theorem sentWith_congr {s u : State} (h : u.sent = s.sent) (st : Stamp) (m : Nat) : u.sentWith st m = s.sentWith st m := by
  rw [State.sentWith, State.getSent, h, State.sentWith, State.getSent]

section
variable {s : State} (hs : s.quiet = true) {n : Fin 16} {below : Bool} (st : Stamp) (hcross : Crosses s n below)
include hs hcross

/-- A crossing that goes to no trigger and latches an idle hold. -/
theorem crossing_latch (ht : s.bit (F.SENT.CFG.TRIG_EN n) = false) (hw : s.bit (F.SENT.CFG.WALE_EN n) = false)
    (hidle : (s.getSent n).latched = none) :
    exec (.sentinelCrossing n below st) s = .next ((disarmed s n).sentLatch n st below) := by
  refine (exec_sentinelCrossing s n below st).trans (Calm.act (l := []) hs ?_
    ((calm_modSent _ s n _).trans (sentLatch_calm (disarmed s n) n st below)) List.not_mem_nil)
  rw [sentCross_eq hcross, crossHeld_latch _ _ _ _ hidle, crossTold_silent st ht hw]

/-- A second crossing pends. -/
theorem crossing_pend (ht : s.bit (F.SENT.CFG.TRIG_EN n) = false) (hw : s.bit (F.SENT.CFG.WALE_EN n) = false)
    (hbusy : (s.getSent n).latched.isSome = true) (hp : (s.getSent n).pend = none) : exec (.sentinelCrossing n below st) s
      = .next (s.modSent n fun x => { x with armed := false, pend := some (st, below) }) := by
  refine (exec_sentinelCrossing s n below st).trans (Calm.act (l := []) hs ?_ (calm_modSent _ s n _) List.not_mem_nil)
  rw [sentCross_eq hcross, crossHeld_pend _ _ _ _ hbusy hp, crossTold_silent st ht hw, disarmed, modSent_modSent]

/-- A third is lost. -/
theorem crossing_over (hb : s.bit (F.HDR.INT_ROUTE.INBAND pgSENT) = false) (ht : s.bit (F.SENT.CFG.TRIG_EN n) = false)
    (hw : s.bit (F.SENT.CFG.WALE_EN n) = false) (hbusy : (s.getSent n).latched.isSome = true) (hp : (s.getSent n).pend.isSome = true) :
    exec (.sentinelCrossing n below st) s
      = .next (((disarmed s n).count (F.SENT.OVERRUN.SENT_OVERRUN n)).raiseInt Irq.overrun) := by
  have hne : (F.HDR.INT_ROUTE.INBAND pgSENT).addr ≠ (F.SENT.OVERRUN.SENT_OVERRUN n.val).addr := by simp only [pgSENT]; omega
  have hin : ((disarmed s n).count (F.SENT.OVERRUN.SENT_OVERRUN n)).bit (F.HDR.INT_ROUTE.INBAND pgSENT) = false :=
    (bit_count_other _ _ _ _ (.inl hne)).trans hb
  refine (exec_sentinelCrossing s n below st).trans (Calm.act (l := [(F.SENT.OVERRUN.SENT_OVERRUN n.val).addr, 0x1000 * pgSENT + 0x010]) hs ?_
    (((calm_modSent _ s n _).trans (Calm.count _ _ 1 (by simp))).trans (Calm.raiseInt _ Irq.overrun hin (by simp))) ?_)
  · rw [sentCross_eq hcross, crossHeld_over _ _ _ _ hbusy hp, crossTold_silent st ht hw]
  · simp only [pgSENT, List.mem_cons, List.not_mem_nil, or_false]
    omega

/-- Whatever the trigger engine and the wale bus make of a crossing, the hold latches. -/
theorem crossing_told (hidle : (s.getSent n).latched = none) (hq : s.sentQ.all (fun m => !s.sentWith st m) = true) :
    ∃ t, exec (.sentinelCrossing n below st) s = .next t
      ∧ ((t.getSent n).latched.map fun e => (e.1, e.2.1, e.2.2.1)) = some (st, below, false) ∧ (t.getSent n).armed = false
      ∧ t.sentQ = s.sentQ ++ [n.val] := by
  have htold := crossTold_kept hs n st
  have hsent : (crossTold s n st).getSent n = (disarmed s n).getSent n := by rw [State.getSent, htold.sent, State.getSent]
  have hdue : OnlyDue ((crossTold s n st).sentLatch n st below) := htold.due
  have hserved := SentKept.kept.queue.serveDue (n := 1024) (t := (crossTold s n st).sentLatch n st below) ⟨hdue, rfl, rfl⟩
  have hget : ((State.serveDue 1024 ((crossTold s n st).sentLatch n st below)).sealed s).getSent n
      = ((crossTold s n st).sentLatch n st below).getSent n :=
    congrArg (fun m => sget ({} : Sent) m n.val) hserved.sent
  refine ⟨_, (exec_sentinelCrossing s n below st).trans (act_onlyDue hs ?_ hdue), ?_, ?_, ?_⟩
  · rw [sentCross_eq hcross, crossHeld_latch _ _ _ _ hidle]
  · rw [hget, sentLatch_hold]
  · rw [hget, sentLatch_armed, hsent, disarmed_sent]
  · have hwith (i m) : (crossTold s n st).sentWith i m = s.sentWith i m :=
      (sentWith_congr htold.sent i m).trans (disarmed_sentWith s n i m)
    have hqueue : (crossTold s n st).sentQ = s.sentQ := htold.queue
    refine hserved.queue.trans ((sentLatch_queue_last below (all_not_sentWith_congr hwith ?_)).trans (by rw [hqueue]))
    rw [hqueue]
    exact hq

end

section
variable {s : State} (hs : s.quiet = true) (hb : s.bit (F.HDR.INT_ROUTE.INBAND pgSENT) = false) {n : Fin 16} {rest : List Nat} {e : Hold}
  (hq : s.sentQ = n.val :: rest) (he : (s.getSent n).latched = some e) (ho : (s.getSent n).old = none)

theorem eventRegs_boot (n : Nat) : 0x005040 ∉ eventRegs n := by
  simp only [pgSENT, List.mem_cons, List.not_mem_nil, or_false]
  omega

theorem holdTaken_calm (l : List Nat) (s : State) (n : Nat) (rest : List Nat) : Calm l s (holdTaken s n rest) :=
  ⟨fun _ _ => rfl, rfl, rfl, rfl, rfl, rfl, rfl⟩

theorem holdTaken_told (s : State) (rest : List Nat) (n : Fin 16) (e : Hold) (code : BitVec 24) (bad : Bool) :
    EventTold s n e code bad (eventShown (holdTaken s n rest) n e code bad) :=
  { eventShown_told (holdTaken s n rest) n.isLt e code bad with cnt := (eventShown_told (holdTaken s n rest) n.isLt e code bad).cnt }

include hb in
theorem eventShown_taken_calm (code : BitVec 24) (bad : Bool) : Calm (eventRegs n) s (eventShown (holdTaken s n rest) n e code bad) :=
  (holdTaken_calm _ s n rest).trans (eventShown_calm n.val e code bad hb)

omit hs hq he ho in
theorem adcTimeout_inband (s : State) (hb : s.bit (F.HDR.INT_ROUTE.INBAND pgSENT) = false) :
    (s.raiseFault Flt.sentAdcTimeout).bit (F.HDR.INT_ROUTE.INBAND pgSENT) = s.bit (F.HDR.INT_ROUTE.INBAND pgSENT) :=
  (raiseFault_mild s Flt.sentAdcTimeout (by decide : clsCont ≠ clsFatal) hb).bit _ (by decide)

include hs hb hq he ho

/-- The conversion of a hold with no crossing behind it. -/
theorem adcComplete_last (code : BitVec 24) (hp : (s.getSent n).pend = none) :
    exec (.sentAdcComplete code) s = .next (eventShown (holdTaken s n rest) n e code false) :=
  (exec_sentAdcComplete s code).trans
    ((eventShown_taken_calm hb code false).act hs (sentEvent_last code false hq he hp ho) (eventRegs_boot n))

/-- The conversion of a hold with a crossing pending. -/
theorem adcComplete_again (code : BitVec 24) {u : Stamp} {side : Bool} (hp : (s.getSent n).pend = some (u, side)) :
    ∃ k d, exec (.sentAdcComplete code) s
      = .next (latchedAgain { eventShown (holdTaken s n rest) n e code false with free := k } n (u, side, true, d)) := by
  obtain ⟨k, d, h⟩ := sentEvent_again code false hq he hp ho
  have hcalm := ((eventShown_taken_calm (n := n) (rest := rest) (e := e) hb code false).trans (Calm.withFree _ k)).trans
    ((latchedAgain_calm _ n.val (u, side, true, d)).mono nofun)
  exact ⟨k, d, (exec_sentAdcComplete s code).trans (hcalm.act hs h (eventRegs_boot n))⟩

omit ho in
/-- A conversion that has not completed raises its fault, and ends with an event like any other. -/
theorem adcTimeout_last (hp : (s.getSent n).pend = none) (ho : (s.getSent n).old = none) :
    exec .sentAdcTimeout s = .next (eventShown (holdTaken (s.raiseFault Flt.sentAdcTimeout) n rest) n e 0 true) := by
  have hmild := raiseFault_mild s Flt.sentAdcTimeout (by decide : clsCont ≠ clsFatal) hb
  have honly : s.raiseFault Flt.sentAdcTimeout = _ := hmild.only
  have hsent : (s.raiseFault Flt.sentAdcTimeout).getSent n = s.getSent n := by rw [honly]; rfl
  have hqueue : (s.raiseFault Flt.sentAdcTimeout).sentQ = n.val :: rest := by rw [honly]; exact hq
  have hb' := (adcTimeout_inband s hb).trans hb
  have hcalm := ((Calm.of_mild hmild).mono (l' := faultRegs pgSENT ++ eventRegs n) fun a ha => List.mem_append_left _ ha).trans
    ((eventShown_taken_calm (n := n) (rest := rest) (e := e) hb' 0 true).mono fun a ha => List.mem_append_right _ ha)
  refine (exec_sentAdcTimeout s).trans (hcalm.act hs ?_ ?_)
  · rw [State.sentTimeout, if_neg (by simp [hq])]
    exact sentEvent_last 0 true hqueue (by rw [hsent, he]) (by rw [hsent, hp]) (by rw [hsent, ho])
  · rw [List.mem_append, not_or]
    exact ⟨by decide, eventRegs_boot n⟩

end

theorem adcTimeout_fault {s : State} (hb : (s.raiseFault Flt.sentAdcTimeout).bit (F.HDR.INT_ROUTE.INBAND pgSENT) = false) (rest : List Nat)
    (n : Fin 16) (e : Hold) :
    (eventShown (holdTaken (s.raiseFault Flt.sentAdcTimeout) n rest) n e 0 true).faultSet Flt.sentAdcTimeout = true := by
  have hkeep := (eventShown_taken_calm (n := n) (rest := rest) (e := e) hb 0 true).fld (F.HDR.FLT_STS.FAULTS pgSENT) (by
    simp only [pgSENT, List.mem_cons, List.not_mem_nil, or_false]
    omega)
  rw [State.faultSet, hkeep]
  exact faultSet_raiseFault s Flt.sentAdcTimeout (by decide)

/-- Settles O24: a crossing latches, pends or is lost (`crossHeld`), and a conversion shows its event (`EventTold`). -/
theorem sentinelsCrossAndConvert : Obligations.SentinelsCrossAndConvert := by
  unfold Obligations.SentinelsCrossAndConvert
  intro n s hs hb
  refine ⟨?_, ?_, ?_, ?_, ?_, ?_, ?_, ?_, ?_, ?_, ?_, ?_, ?_⟩
  · exact fun hw => (exec_sentinelArm s n).trans (act_eq hs (if_pos hw) rfl rfl)
  · exact fun hw => (exec_sentinelArm s n).trans (act_idle hs (if_neg (by simp [hw])))
  · exact fun below st h => (exec_sentinelCrossing s n below st).trans (act_idle hs (sentCross_idle st h))
  · exact fun below st ha hw he ht hwale hl hp => crossing_pend hs st ⟨ha, hw, he⟩ ht hwale hl hp
  · intro below st ha hw he ht hwale hl hp
    have hsent : ((((disarmed s n).count (F.SENT.OVERRUN.SENT_OVERRUN n)).raiseInt Irq.overrun).getSent n) = { s.getSent n with armed := false } :=
      (raiseInt_getSent _ _ _).trans (disarmed_sent s n)
    refine ⟨_, crossing_over hs st ⟨ha, hw, he⟩ hb ht hwale hl hp, ?_, raiseInt_irq _ Irq.overrun (by decide), by rw [hsent], by rw [hsent],
      by rw [hsent], raiseInt_sentQ _ _⟩
    rw [raiseInt_fld _ _ _ (by simp only [pgSENT]; omega)]
    exact fld_count_same (disarmed s n) (F.SENT.OVERRUN.SENT_OVERRUN n.val) 1 (Nat.le_refl 32)
  · intro below st l m ha hw he ht hwale hl hq hm hwith hnot
    refine ⟨_, crossing_latch hs st ⟨ha, hw, he⟩ ht hwale hl, sentLatch_hold _ _ _ _, ?_, rfl⟩
    exact sentLatch_queue_ahead below hq hm ((disarmed_sentWith s n st m).trans hwith) (all_not_sentWith_congr (disarmed_sentWith s n) hnot)
  · intro below st ha hw he ht hwale hl hq
    refine ⟨_, crossing_latch hs st ⟨ha, hw, he⟩ ht hwale hl, sentLatch_hold _ _ _ _, ?_, ?_, rfl⟩
    · rw [sentLatch_armed, disarmed_sent]
    · exact sentLatch_queue_last below (all_not_sentWith_congr (disarmed_sentWith s n) hq)
  · intro code rest st below late dly hq he hp ho hdly hfrac
    have htold := holdTaken_told s rest n (st, below, late, dly) code false
    refine ⟨_, adcComplete_last hs hb hq he ho code hp, eventShown_sentQ _ _ _ _ _, ?_, htold.ns32, htold.value, ?_, ?_, htold.new, htold.bad,
      htold.dir, htold.late, htold.cnt, htold.irq⟩
    · rw [eventShown_taken]
    · exact htold.dly.trans (Nat.mod_eq_of_lt hdly)
    · exact htold.frac.trans (Nat.mod_eq_of_lt hfrac)
  · intro code rest u side hq hl hp ho
    obtain ⟨e, he⟩ := Option.isSome_iff_exists.1 hl
    obtain ⟨k, d, hnext⟩ := adcComplete_again hs hb hq he ho code hp
    have htold := (holdTaken_told s rest n e code false).of_reg (t := latchedAgain
      { eventShown (holdTaken s n rest) n e code false with free := k } n (u, side, true, d)) fun _ => rfl
    refine ⟨_, hnext, ?_, ?_, ?_, htold.value, htold.new, htold.irq⟩
    · exact congrArg (· ++ [n.val]) (eventShown_sentQ (holdTaken s n rest) n e code false)
    · rw [latchedAgain_sent]
      rfl
    · rw [latchedAgain_sent]
  · exact fun below st ha hw he hl hq => crossing_told hs st ⟨ha, hw, he⟩ hl hq
  · exact fun code hq => (exec_sentAdcComplete s code).trans (act_idle hs (sentEvent_none code false hq))
  · exact fun hq => (exec_sentAdcTimeout s).trans (act_idle hs (sentTimeout_none hq))
  · intro rest st below late dly hq he hp ho
    have htold := holdTaken_told (s.raiseFault Flt.sentAdcTimeout) rest n (st, below, late, dly) 0 true
    exact ⟨_, adcTimeout_last hs hb hq he hp ho, adcTimeout_fault ((adcTimeout_inband s hb).trans hb) rest n _,
      eventShown_sentQ _ _ _ _ _, htold.value, htold.bad, htold.new,
      htold.irq⟩

end Sys2Proof.SliceProofs

namespace Sys2Proof.SliceProofs

open Sys2Proof Sys2Proof.Machine Sys2Proof.Laws Sys2Proof.ScopeProofs Sys2Proof.TimeProofs Sys2Proof.TickProofs Sys2Proof.InputProofs

/-! ## What a boundary leaves (R125 to R128, R159, R165, R254)

The same way as for the chain: what a fact must survive to survive the turn of a channel but for the values that its commit takes
(`TurnKept`). -/

/-- The registers that a turn writes beside those of its commit: those of the chain, of the chip page and of the pages of groups, and of the
channel tables FE_STS, RANGE_SW_CNT, SAT_CNT, SHORT_CNT and WIN_CNT. -/
abbrev turnReg (a : Nat) : Prop :=
  chainAddr a ∨ a / 0x1000 = pgCHIP ∨ (0x020000 ≤ a ∧ a < 0x040000)
    ∨ (0x080000 ≤ a ∧ a < 0x0A0000 ∧ (a % 0x80 = 0x58 ∨ a % 0x80 = 0x5C ∨ a % 0x80 = 0x00 ∨ a % 0x80 = 0x04 ∨ a % 0x80 = 0x08))

/-- A RAIN page, whose commits channels take one by one (R252). -/
abbrev rainPage (p : Nat) : Prop := 0x0B0 ≤ p ∧ p < 0x0D0

theorem turnReg_rain {a d : Nat} (hd : d < 512) (h : a / 0x1000 = pgRAIN (d / 16)) : turnReg a := .inl (chainAddr_rain hd h)

theorem turnReg_chan {o d : Nat} (hd : d < 512)
    (ho : o = 0x080058 ∨ o = 0x08005C ∨ o = 0x080080 ∨ o = 0x080084 ∨ o = 0x080088) : turnReg (o + 0x1000 * (d / 16) + 0x80 * (d % 16)) := by
  refine .inr (.inr (.inr ?_))
  omega

theorem turnReg_boot : ¬ turnReg 0x005040 := by decide

/-! ### Requests of commits -/

theorem find_filter_ne {l : List Commit} {p q : Nat} (h : p ≠ q) :
    (l.filter fun c => decide (c.page ≠ q)).find? (fun c => decide (c.page = p)) = l.find? fun c => decide (c.page = p) := by
  rw [List.find?_filter]
  congr 1
  funext c
  by_cases hc : c.page = p
  · simp [hc, h]
  · simp [hc]

theorem find_filter_self (l : List Commit) (p : Nat) :
    (l.filter fun c => decide (c.page ≠ p)).find? (fun c => decide (c.page = p)) = none := by
  simp [List.find?_eq_none]

/-- What is noted of the requests of one page leaves those of the others. -/
theorem find_map_ne (l : List Commit) {p q : Nat} (h : p ≠ q) (f : Commit → Commit) (hf : ∀ c, (f c).page = c.page) :
    (l.map fun c => if c.page = q then f c else c).find? (fun c => decide (c.page = p)) = l.find? fun c => decide (c.page = p) := by
  induction l with
  | nil => rfl
  | cons c l ih =>
    by_cases hq : c.page = q
    · have hp : ¬ c.page = p := fun e => h (e.symm.trans hq)
      simp [hq, hf, Ne.symm h, ih]
    · by_cases hp : c.page = p <;> simp [hq, hp, ih, h]

/-- A fact about the state that survives what a turn writes: what the chain writes, those registers, channels, groups, sentinels, and
requests of commits of RAIN pages. -/
structure TurnKept (P : State → Prop) : Prop where
  chain : ChainKept P
  reg : ∀ {t} (a v), turnReg a → P t → P (t.setReg a v)
  chan : ∀ {t} (c) (f : Chan → Chan), P t → P (t.modChan c f)
  group : ∀ {t} (g) (f : Group → Group), P t → P (t.modGroup g f)
  sent : ∀ {t} (n) (f : Sent → Sent), P t → P (t.modSent n f)
  commits : ∀ {t} (l : List Commit), (∀ p, ¬ rainPage p → l.find? (fun c => decide (c.page = p)) = t.commitOf p) → P t →
    P { t with commits := l }

namespace TurnKept

open QueueKept (when each)

variable {P : State → Prop} (k : TurnKept P) {t : State} (h : P t) {d : Nat}
include k h

theorem setFld {f : Fld} {x : Nat} (ha : turnReg f.addr) : P (t.setFld f x) := k.reg _ _ ha h

theorem raiseInt {i : IntBit} (hi : ∀ o, o < 0x1000 → turnReg (0x1000 * i.page + o)) : P (t.raiseInt i) :=
  k.chain.queue.raiseIntAt h fun o v ho h => k.reg _ v (hi o ho) h

/-- A request of a RAIN page ends. -/
theorem commitEnd {p : Nat} (hp : rainPage p) : P (t.commitEnd p) := by
  unfold State.commitEnd
  refine when (f := fun s => s.raiseInt Irq.commitApplied) (k.commits _ (fun q hq => find_filter_ne fun e => hq (e ▸ hp)) h) fun h =>
    k.raiseInt h fun o ho => .inr (.inl ?_)
  simp only [pgCHIP]
  omega

/-! ### Markers (R229, R235, R241, R244) -/

theorem captureMark (fir : Bool) (m : ChMarker) (idx : Nat) : P (t.captureMark d fir m idx) := by
  unfold State.captureMark
  refine each h fun t x _ h => QueueKept.ite (each h fun t n _ h => QueueKept.ite ?_ h) h
  refine when (when (k.chain.modMember (k.chain.storeSlot h)) fun h => ?_) fun h => ?_
  · exact k.chain.modMember h
  · exact k.chain.memberDone h

theorem rainJoin (units counted clear : Bool) : P (t.rainJoin d units counted clear) := by
  unfold State.rainJoin
  exact QueueKept.ite h (QueueKept.ite (k.chain.modJoin h) (QueueKept.ite (k.chain.modJoin (k.chain.drawTruth h)) h))

section
variable (hd : d < 512)
include hd

theorem streamMark {m : ChMarker} : P (t.streamMark d m) := k.chain.streamClose (k.chan d _ (k.chain.streamAge h hd)) hd

theorem statsMark {m : ChMarker} : P (t.statsMark d m) := by
  unfold State.statsMark
  exact QueueKept.ite (when (k.chain.statsClose h hd) fun h => k.chan d _ h) h

/-! ### RAIN (R250, R252) -/

theorem rainResidue (l : List Int) : P (t.rainResidue d l) := by
  induction l generalizing t with
  | nil => exact h
  | cons a l ih =>
    cases l with
    | nil => exact h
    | cons b l => exact ih (k.chain.rainCount h hd)

theorem rainTake : P (t.rainTake d) := by
  have hp : rainPage (pgRAIN (d / 16)) := by simp only [pgRAIN]; omega
  unfold State.rainTake
  dsimp only
  split
  · exact h
  refine QueueKept.ite h ?_
  have hstaged : P (t.each ((rwsRegs (pgRAIN (d / 16))).filter fun e => decide ((F.RAIN.RAIN_CFG.BIN_SHIFT d).addr ≤ e.1)
      && decide (e.1 < (F.RAIN.RAIN_CFG.BIN_SHIFT d).addr + 0x20)) State.takeStaged) := by
    refine each h fun t e he h => k.reg _ _ (turnReg_rain hd ?_) h
    simp only [List.mem_filter, Bool.and_eq_true, decide_eq_true_eq] at he
    simp only [pgRAIN]
    omega
  have hended {u : State} {c : Prop} [Decidable c] (f : Commit → Commit) (hf : ∀ c, (f c).page = c.page) (h : P u) :
      P (if c then u.commitEnd (pgRAIN (d / 16))
        else { u with commits := u.commits.map fun e => if e.page = pgRAIN (d / 16) then f e else e }) :=
    QueueKept.ite (k.commitEnd h hp) (k.commits _ (fun q hq => find_map_ne _ (fun e => hq (by rw [e]; exact hp)) f hf) h)
  exact hended (fun e => { e with chans := _ }) (fun _ => rfl) (when hstaged fun h => k.chain.modRain h)

theorem rainDump {cause idx : Nat} : P (t.rainDump d cause idx) := by
  have hpage {u : State} (o : Nat) (v : Reg) (ho : o < 0x1000) (h : P u) : P (u.setReg (0x1000 * pgRAIN (d / 16) + o) v) :=
    k.reg _ v (turnReg_rain hd (by simp only [pgRAIN]; omega)) h
  unfold State.rainDump
  refine k.rainTake (k.chain.queue.raiseIntAt (k.chain.setFld (k.chain.modRain (QueueKept.ite (each ?_ fun u b hb h => ?_) ?_)) ?_) hpage) hd
  · exact k.chain.reducerOffer (k.chain.count (k.rainJoin (QueueKept.ite (k.rainResidue h hd _) h) _ _ _) (.inr (.inl rfl)))
  · refine k.chain.setFld h (chainAddr_rain hd ?_)
    have := List.mem_range.1 hb
    simp only [pgRAIN]
    omega
  · exact k.chain.reducerOffer (k.chain.count (k.rainJoin (QueueKept.ite (k.rainResidue h hd _) h) _ _ _) (.inr (.inl rfl)))
  · exact chainAddr_rain hd (by simp only [pgRAIN]; omega)

theorem rainMark {m : ChMarker} : P (t.rainMark d m) := by
  unfold State.rainMark
  split
  · exact QueueKept.ite h (k.rainDump h hd)
  · exact h

/-! ### A marker at the averager output (R228) -/

theorem tapMark {fir : Bool} {m : ChMarker} : P (t.tapMark d fir m) := by
  unfold State.tapMark
  refine k.captureMark (QueueKept.ite (when (when (when h fun h => ?_) fun h => ?_) fun h => ?_) h) _ _ _
  · exact k.streamMark h hd
  · exact k.statsMark h hd
  · exact k.rainMark h hd

theorem firRestart {m : ChMarker} : P (t.firRestart d m) := by
  unfold State.firRestart
  have hout : P (if 0 < (t.getChan d).fir.phase then t.firOut d else t) := QueueKept.ite (k.chain.firOut h hd) h
  exact k.chain.count (k.chain.modJoin (k.chan d _ (k.tapMark hout hd))) (chainAddr_counter hd (by decide))

theorem chainMark {m : ChMarker} : P (t.chainMark d m) := by
  have htap : P (t.tapMark d false m) := k.tapMark h hd
  unfold State.chainMark State.firMark
  exact QueueKept.ite h (QueueKept.ite (QueueKept.ite (k.firRestart htap hd) (k.tapMark htap hd)) htap)

/-! ### A window that closes early (R126, R165) -/

theorem avgEmit {rtr : Bool} : P (t.avgEmit d rtr) := by
  unfold State.avgEmit
  refine QueueKept.ite h (k.chain.chainWord (k.chan d _ (k.chain.modJoin (k.setFld (when h fun h => ?_) ?_))) hd)
  · exact k.setFld h (turnReg_chan hd (by decide))
  · exact turnReg_chan hd (by decide)

theorem avgEarly {range : Bool} {marks : List ChMarker} : P (t.avgEarly d range marks) := by
  have hemit : P ((t.when (decide (0 < (t.getChan d).win.cnt) || t.chEnabled d) fun s => s.count (F.CH.SHORT_CNT.CNT d)).avgEmit d range) :=
    k.avgEmit (when h fun h => k.setFld h (turnReg_chan hd (by decide))) hd
  unfold State.avgEarly
  split
  · exact hemit
  · exact each (k.chainMark hemit hd) fun t m _ h => k.chainMark h hd

/-! ### The turn of a channel (R118, R125, R128, R165, R235, R241, R244) -/

theorem chainCommit {x : Turn} : P (t.chainCommit d x) := by
  unfold State.chainCommit
  refine when (when (when h fun h => k.firRestart h hd) fun h => k.chain.streamClose h hd) fun h => ?_
  exact k.chan d _ (k.chain.statsClose h hd)

/-- Before the values of a commit are in force. -/
theorem turnBefore {x : Turn} {stream commit : Bool} :
    P (t.when stream fun s => (s.turnClose d x).when commit fun s => s.chainCommit d x) := by
  unfold State.turnClose
  exact when h fun h => when (QueueKept.ite h (k.avgEarly h hd)) fun h => k.chainCommit h hd

theorem turnFront {old : FeSet} {x : Turn} : P (t.turnFront d old x) := by
  unfold State.turnFront State.sentOff
  refine k.chan d _ (when (when (when (k.setFld h ?_) fun h => ?_) fun h => ?_) fun h => ?_)
  · exact turnReg_chan hd (by decide)
  · exact k.chan d _ (k.setFld h (turnReg_chan hd (by decide)))
  · exact k.raiseInt h fun o ho => .inr (.inr (.inl (by simp only [pgFE]; omega)))
  · exact each h fun t n _ h => QueueKept.ite (k.sent n _ h) h

theorem turnAfter {wasOn hadRain : Bool} : P (t.turnAfter d wasOn hadRain) := by
  unfold State.turnAfter
  have hrain : P (t.when (t.bit (F.CH.RED_CFG.RAIN_EN d) && !hadRain) fun s => s.modRain d fun r => { r with lastS := none }) :=
    when h fun h => k.chain.modRain h
  exact when (QueueKept.ite hrain (k.rainTake hrain hd)) fun h => k.chan d _ h

end

omit h in
/-- The turn of a channel leads from one such fact to another where taking the values of its commit does. -/
theorem turnChan {Q : State → Prop} (kQ : TurnKept Q) (hd : d < 512) {commit : Bool}
    (htake : ∀ {t : State}, P t → Q (t.when commit fun s => s.entryTake d)) (h : P t) (c0 : Bool) (c1 : Nat → Bool)
    (stream low : Bool) (swap : Option Bool) : Q (t.turnChan commit c0 c1 stream low swap d) := by
  unfold State.turnChan
  exact kQ.turnAfter (kQ.turnFront (htake (k.turnBefore h hd)) hd) hd

/-- FACTORS records go to the partner (R383). -/
theorem sendFactors {g : Nat} {before : State} : P (t.sendFactors g before) := by
  unfold State.sendFactors
  refine when h fun h => each h fun t c _ h => QueueKept.ite h ?_
  rw [linkSend_only]
  exact k.chain.store t.queue t.qmem _ t.ctx t.free h

end TurnKept
end Sys2Proof.SliceProofs

namespace Sys2Proof.SliceProofs

open Sys2Proof Sys2Proof.Machine Sys2Proof.Laws Sys2Proof.ScopeProofs Sys2Proof.TimeProofs Sys2Proof.TickProofs Sys2Proof.InputProofs

/-! ## From the first turn of a boundary to its end -/

/-- From `w` to `t` a boundary has been at work: time, the staged values and the request of page `p` are left, and at most in-band
interrupts wait. -/
structure Bound (p : Nat) (w t : State) : Prop where
  due : OnlyDue t
  time : t.time = w.time
  staged : t.staged = w.staged
  commit : t.commitOf p = w.commitOf p

namespace Bound

variable {p : Nat} {w t : State}

theorem refl (p : Nat) (h : OnlyDue w) : Bound p w w := ⟨h, rfl, rfl, rfl⟩

theorem setReg (h : Bound p w t) {a : Nat} (v : Reg) (ha : a ≠ 0x005040) : Bound p w (t.setReg a v) :=
  ⟨h.due.setReg ha, h.time, h.staged, h.commit⟩

theorem kept (hp : ¬ rainPage p) : TurnKept (Bound p w) where
  chain := {
    reg := fun _ v ha h => h.setReg v fun e => turnReg_boot (e ▸ .inl ha)
    store := fun _ _ _ _ _ h => ⟨h.due, h.time, h.staged, h.commit⟩
    rim := fun r hr h => ⟨OnlyDue.kept.rim r hr h.due, h.time, h.staged, h.commit⟩
    waiting := fun _ h => ⟨h.due, h.time, h.staged, h.commit⟩
    capture := fun _ _ _ h => ⟨h.due, h.time, h.staged, h.commit⟩
    chan := fun _ _ _ h => ⟨h.due, h.time, h.staged, h.commit⟩ }
  reg _ v ha h := h.setReg v fun e => turnReg_boot (e ▸ ha)
  chan _ _ h := ⟨h.due, h.time, h.staged, h.commit⟩
  group _ _ h := ⟨h.due, h.time, h.staged, h.commit⟩
  sent _ _ h := ⟨h.due, h.time, h.staged, h.commit⟩
  commits _ hl h := ⟨h.due, h.time, h.staged, (hl p hp).trans h.commit⟩

theorem stg (h : Bound p w t) (a : Nat) : t.stg a = w.stg a := by rw [State.stg, h.staged, State.stg]

/-- Staged values become running. -/
theorem takeStaged (h : Bound p w t) {l : List (Nat × Nat)} (hl : ∀ e ∈ l, e.1 ≠ 0x005040) : Bound p w (t.each l State.takeStaged) :=
  QueueKept.each h fun _ e he h => h.setReg _ (hl e he)

/-- An interrupt of any page but that of start-up. -/
theorem raiseInt (h : Bound p w t) (hp : ¬ rainPage p) {i : IntBit} (hi : 0x1000 * i.page + 0x010 ≠ 0x005040) : Bound p w (t.raiseInt i) :=
  (kept hp).chain.queue.dueBits (h.setReg _ hi)

/-- The request of another page ends. -/
theorem commitEnd (h : Bound p w t) (hp : ¬ rainPage p) {q : Nat} (hq : p ≠ q) : Bound p w (t.commitEnd q) := by
  unfold State.commitEnd
  have hleft : Bound p w { t with commits := t.commits.filter fun c => decide (c.page ≠ q) } :=
    ⟨h.due, h.time, h.staged, (find_filter_ne hq).trans h.commit⟩
  exact QueueKept.when (f := fun s => s.raiseInt Irq.commitApplied) hleft fun h => h.raiseInt hp (by decide)

end Bound

/-- One register holds a value. -/
def Holds (a : Nat) (v : Reg) (t : State) : Prop := t.reg a = v

theorem Holds.setReg_ne {a b : Nat} {v x : Reg} {t : State} (h : Holds a v t) (hb : b ≠ a) : Holds a v (t.setReg b x) :=
  (reg_setReg_ne t b a x hb.symm).trans h

theorem Holds.kept {a : Nat} {v : Reg} (ha : ¬ turnReg a) : TurnKept (Holds a v) where
  chain := {
    reg := fun _ _ hb h => h.setReg_ne fun e => ha (e ▸ .inl hb)
    store := fun _ _ _ _ _ h => h
    rim := fun _ _ h => h
    waiting := fun _ h => h
    capture := fun _ _ _ h => h
    chan := fun _ _ _ h => h }
  reg _ _ hb h := h.setReg_ne fun e => ha (e ▸ hb)
  chan _ _ h := h
  group _ _ h := h
  sent _ _ h := h
  commits _ _ h := h

theorem TurnKept.and {P Q : State → Prop} (hP : TurnKept P) (hQ : TurnKept Q) : TurnKept fun t => P t ∧ Q t where
  chain := {
    reg := fun a v ha h => ⟨hP.chain.reg a v ha h.1, hQ.chain.reg a v ha h.2⟩
    store := fun _ _ _ _ _ h => ⟨hP.chain.store _ _ _ _ _ h.1, hQ.chain.store _ _ _ _ _ h.2⟩
    rim := fun r hr h => ⟨hP.chain.rim r hr h.1, hQ.chain.rim r hr h.2⟩
    waiting := fun l h => ⟨hP.chain.waiting l h.1, hQ.chain.waiting l h.2⟩
    capture := fun _ _ _ h => ⟨hP.chain.capture _ _ _ h.1, hQ.chain.capture _ _ _ h.2⟩
    chan := fun c f hf h => ⟨hP.chain.chan c f hf h.1, hQ.chain.chan c f hf h.2⟩ }
  reg a v ha h := ⟨hP.reg a v ha h.1, hQ.reg a v ha h.2⟩
  chan c f h := ⟨hP.chan c f h.1, hQ.chan c f h.2⟩
  group g f h := ⟨hP.group g f h.1, hQ.group g f h.2⟩
  sent n f h := ⟨hP.sent n f h.1, hQ.sent n f h.2⟩
  commits l hl h := ⟨hP.commits l hl h.1, hQ.commits l hl h.2⟩

/-! ### The turns of the channels of a group (R254, R514) -/

/-- Where the turn of one entry of a list leads from `P` to `Q` and the others keep both, the whole list does. -/
theorem each_reaches {α : Type} {P Q : State → Prop} {f : State → α → State} {c : α} {l : List α} (hl : c ∈ l)
    (hP : ∀ t, ∀ d ∈ l, d ≠ c → P t → P (f t d)) (hc : ∀ t, P t → Q (f t c)) (hQ : ∀ t, ∀ d ∈ l, Q t → Q (f t d)) {s : State} (h : P s) :
    Q (s.each l f) := by
  induction l generalizing s with
  | nil => exact absurd hl List.not_mem_nil
  | cons d l ih =>
    by_cases hd : d = c
    · subst hd
      show Q ((f s d).each l f)
      exact QueueKept.each (hc s h) fun t b hb h => hQ t b (List.mem_cons_of_mem d hb) h
    · exact ih (List.mem_of_ne_of_mem (Ne.symm hd) hl) (fun t b hb => hP t b (List.mem_cons_of_mem d hb))
        (fun t b hb => hQ t b (List.mem_cons_of_mem d hb)) (hP s d List.mem_cons_self hd h)

/-- The registers of the entry of channel `c` that a commit writes. -/
abbrev entryRegs (c : Nat) : List (Nat × Nat) := (rwsRegs (pgCHTAB (c / 16))).filter fun e =>
  decide ((F.CH.FE_CFG.MODE c).addr ≤ e.1) && decide (e.1 < (F.CH.FE_CFG.MODE c).addr + 0x80)

theorem entryTake_eq (t : State) (c : Nat) : t.entryTake c = t.each (entryRegs c) State.takeStaged := rfl

theorem mem_entryRegs {c : Nat} {e : Nat × Nat} : e ∈ entryRegs c ↔ e ∈ rwsRegs (pgCHTAB (c / 16))
    ∧ (F.CH.FE_CFG.MODE c).addr ≤ e.1 ∧ e.1 < (F.CH.FE_CFG.MODE c).addr + 0x80 := by
  simp only [List.mem_filter, Bool.and_eq_true, decide_eq_true_eq]

theorem entryRegs_boot (c : Nat) : ∀ e ∈ entryRegs c, e.1 ≠ 0x005040 := by
  intro e he
  obtain ⟨-, hlo, -⟩ := mem_entryRegs.1 he
  simp only at hlo
  omega

/-- The turns of the channels of a group, commit or not. -/
abbrev groupTurns (s : State) (g : Nat) (commit c0 : Bool) (c1 : Nat → Bool) (stream : Bool) : State :=
  s.each ((List.range 16).map (16 * g + ·)) fun s c =>
    s.turnChan commit c0 c1 stream (s.bit (F.CH.FE_STS.AR_LOW c)) (s.getChan c).swap c

theorem mem_groupChans {g c : Nat} (hg : g < 32) (h : c ∈ (List.range 16).map (16 * g + ·)) : c < 512 ∧ c / 16 = g := by
  obtain ⟨l, hl, rfl⟩ := List.mem_map.1 h
  have := List.mem_range.1 hl
  omega

theorem groupTurns_bound {s : State} {p g : Nat} (hp : ¬ rainPage p) (hg : g < 32) (hs : OnlyDue s) (commit c0 : Bool) (c1 : Nat → Bool)
    (stream : Bool) : Bound p s (groupTurns s g commit c0 c1 stream) := by
  refine QueueKept.each (Bound.refl p hs) fun t c hc h => ?_
  refine (Bound.kept hp).turnChan (Bound.kept hp) (mem_groupChans hg hc).1 (fun h => QueueKept.when h fun h => ?_) h _ _ _ _ _
  exact h.takeStaged (entryRegs_boot c)

end Sys2Proof.SliceProofs

namespace Sys2Proof.SliceProofs

open Sys2Proof Sys2Proof.Machine Sys2Proof.Laws Sys2Proof.ScopeProofs Sys2Proof.TimeProofs Sys2Proof.TickProofs Sys2Proof.InputProofs

/-! ## The registers of a commit (R144, R183, R254) -/

theorem pageRows_chtab {g : Nat} (hg : g < 32) : pageRows (pgCHTAB g) = some rowsCH := by
  simp only [pageRows, pgCHTAB, pgCHIP, pgTIME, pgPTP, pgTICK, pgHOST, pgNVM, pgRIM, pgCAL, pgSENT, pgRED, pgTRIG, pgARBMEM, pgARBTX, pgPAIR,
    pgHSR, pgWALE]
  repeat rw [if_neg (by omega)]
  exact if_pos (by omega)

theorem pageRows_spare {n : Nat} (h : 32 ≤ n) (hn : n < 34) : pageRows (pgSLICE n) = some rowsSPARE := by
  simp only [pageRows, pgSLICE, pgCHIP, pgTIME, pgPTP, pgTICK, pgHOST, pgNVM, pgRIM, pgCAL, pgSENT, pgRED, pgTRIG, pgARBMEM, pgARBTX, pgPAIR,
    pgHSR, pgWALE]
  repeat rw [if_neg (by omega)]
  exact if_pos (by omega)

theorem pageRows_slice {n : Nat} (h : n < 32) : pageRows (pgSLICE n) = some rowsSLICE := by
  simp only [pageRows, pgSLICE, pgCHIP, pgTIME, pgPTP, pgTICK, pgHOST, pgNVM, pgRIM, pgCAL, pgSENT, pgRED, pgTRIG, pgARBMEM, pgARBTX, pgPAIR,
    pgHSR, pgWALE]
  repeat rw [if_neg (by omega)]
  exact if_pos (by omega)

/-- A commit of a SLICE page writes SLICE_CTL alone, of which ACT_BANK is staged. -/
theorem rwsRegs_slice {n : Nat} (hn : n < 34) : rwsRegs (pgSLICE n) = [((F.SLICE.SLICE_CTL.ACT_BANK n).addr, 1)] := by
  have haddr : pgSLICE n * 0x1000 + 0x040 = (F.SLICE.SLICE_CTL.ACT_BANK n).addr := by simp only [pgSLICE]; omega
  have hrows : rwsRegs (pgSLICE n) = [(pgSLICE n * 0x1000 + 0x040, 1)] := by
    rw [rwsRegs]
    by_cases h : n < 32
    · rw [pageRows_slice h]; rfl
    · rw [pageRows_spare (Nat.le_of_not_lt h) hn]; rfl
  rw [hrows, haddr]

/-- The registers of the channel tables that a commit writes, by their places in an entry. -/
theorem rowsCH_layout : ∀ r ∈ rowsCH, r.stride = 0x80 ∧ r.count = 16 ∧ 0x40 ≤ r.off ∧ r.off < 0xC0
    ∧ (r.rws ≠ 0 → r.off ∈ [0x40, 0x44, 0x48, 0x4C, 0x50, 0x54, 0x70, 0x90, 0x94, 0x98]) := by decide

theorem rowsCH_mask : ∀ r ∈ rowsCH, ∀ q ∈ rowsCH, r.off = q.off → r.rws = q.rws := by decide

theorem mem_rwsRegs_chtab {g : Nat} (hg : g < 32) {e : Nat × Nat} (h : e ∈ rwsRegs (pgCHTAB g)) :
    ∃ r ∈ rowsCH, ∃ l < 16, r.rws ≠ 0 ∧ e = (0x080000 + 0x1000 * g + 0x80 * l + r.off, r.rws) := by
  rw [rwsRegs, pageRows_chtab hg] at h
  obtain ⟨r, hr, he⟩ := List.mem_flatMap.1 h
  obtain ⟨hstride, hcount, -⟩ := rowsCH_layout r hr
  by_cases hrws : r.rws = 0
  · simp [hrws] at he
  · rw [if_neg hrws] at he
    obtain ⟨o, ho, rfl⟩ := List.mem_map.1 he
    rw [rowOffsets, hstride, hcount, if_neg (by decide)] at ho
    obtain ⟨l, hl, rfl⟩ := List.mem_map.1 ho
    refine ⟨r, hr, l, List.mem_range.1 hl, hrws, Prod.ext ?_ rfl⟩
    simp only [pgCHTAB]
    omega

/-- A register of a channel table belongs to the entry of one channel, has one mask, and is none that a turn writes beside. -/
theorem rwsRegs_chtab {g : Nat} (hg : g < 32) {e : Nat × Nat} (h : e ∈ rwsRegs (pgCHTAB g)) :
    (∃ c ∈ (List.range 16).map (16 * g + ·), e ∈ entryRegs c) ∧ (∀ e' ∈ rwsRegs (pgCHTAB g), e'.1 = e.1 → e'.2 = e.2)
      ∧ ¬ turnReg e.1 ∧ e.1 / 0x1000 = pgCHTAB g := by
  obtain ⟨r, hr, l, hl, hrws, he⟩ := mem_rwsRegs_chtab hg h
  obtain ⟨-, -, hlo, hhi, hoff⟩ := rowsCH_layout r hr
  refine ⟨⟨16 * g + l, List.mem_map.2 ⟨l, List.mem_range.2 hl, rfl⟩, mem_entryRegs.2 ⟨?_, ?_⟩⟩, ?_, ?_, ?_⟩
  · rw [show (16 * g + l) / 16 = g by omega]
    exact h
  · rw [he]
    simp only
    omega
  · intro e' h' haddr
    obtain ⟨q, hq, l', hl', -, he'⟩ := mem_rwsRegs_chtab hg h'
    obtain ⟨-, -, hlo', hhi', -⟩ := rowsCH_layout q hq
    rw [he, he'] at haddr
    rw [he, he']
    simp only at haddr ⊢
    exact rowsCH_mask q hq r hr (by omega)
  · have hplace := hoff hrws
    rw [he]
    simp only [List.mem_cons, List.not_mem_nil, or_false] at hplace
    simp only [turnReg, chainAddr, pgRIM, pgRED, pgTRIG, pgCHIP]
    omega
  · rw [he]
    simp only [pgCHTAB]
    omega

/-! ## The channel tables of a group after their commit (R254) -/

/-- Taking a list of staged registers makes a register of it running, and leaves it so. -/
theorem takeStaged_holds {s t : State} {a m : Nat} {l : List (Nat × Nat)} (hstg : t.stg a = s.stg a) (hmask : ∀ e ∈ l, e.1 = a → e.2 = m)
    (hl : (a, m) ∈ l) (h : Holds a (s.reg a) t ∨ Holds a (s.merged a m) t) : Holds a (s.merged a m) (t.each l State.takeStaged) := by
  have htaken : (t.each l State.takeStaged).reg a = t.merged a m := each_takeStaged_reg t l a m hmask hl
  rcases h with h | h
  · exact htaken.trans (merged_congr m h hstg)
  · have hagain := takeStaged_merged s a m
    have hreg : (s.takeStaged (a, m)).reg a = s.merged a m := reg_setReg_same s a _
    exact htaken.trans ((merged_congr m (h.trans hreg.symm) hstg).trans hagain)

theorem takeStaged_keeps {t : State} {a : Nat} {v : Reg} {l : List (Nat × Nat)} (hl : ∀ e ∈ l, e.1 ≠ a) (h : Holds a v t) :
    Holds a v (t.each l State.takeStaged) := (each_takeStaged_reg_other t l a hl).trans h

/-- The turns of a commit make the staged values of the group's channel table running. -/
theorem groupTurns_merged {s : State} {g : Nat} (hg : g < 32) (hs : OnlyDue s) (c0 : Bool) (c1 : Nat → Bool) (stream : Bool) {e : Nat × Nat}
    (he : e ∈ rwsRegs (pgCHTAB g)) : Holds e.1 (s.merged e.1 e.2) (groupTurns s g true c0 c1 stream) := by
  obtain ⟨⟨c, hc, hce⟩, hmask, hturn, -⟩ := rwsRegs_chtab hg he
  have hp : ¬ rainPage 0 := by decide
  have hkept (v : Reg) : TurnKept fun t => Bound 0 s t ∧ Holds e.1 v t := (Bound.kept hp).and (Holds.kept hturn)
  have hbound {t : State} (d : Nat) (h : Bound 0 s t) : Bound 0 s (t.entryTake d) := by
    rw [entryTake_eq]
    exact h.takeStaged (entryRegs_boot d)
  have hother {d : Nat} (hd : d ≠ c) (hd' : d ∈ (List.range 16).map (16 * g + ·)) : ∀ e' ∈ entryRegs d, e'.1 ≠ e.1 := by
    intro e' he' haddr
    obtain ⟨-, hlo, hhi⟩ := mem_entryRegs.1 hce
    obtain ⟨-, hlo', hhi'⟩ := mem_entryRegs.1 he'
    have := mem_groupChans hg hc
    have := mem_groupChans hg hd'
    simp only at hlo hhi hlo' hhi'
    omega
  have hown {t : State} (h : Bound 0 s t) (hv : Holds e.1 (s.reg e.1) t ∨ Holds e.1 (s.merged e.1 e.2) t) :
      Bound 0 s (t.entryTake c) ∧ Holds e.1 (s.merged e.1 e.2) (t.entryTake c) := by
    refine ⟨hbound c h, takeStaged_holds (h.stg _) (fun e' he' => hmask e' ?_) hce hv⟩
    exact (mem_groupChans hg hc).2 ▸ (mem_entryRegs.1 he').1
  suffices h : Bound 0 s (groupTurns s g true c0 c1 stream) ∧ Holds e.1 (s.merged e.1 e.2) (groupTurns s g true c0 c1 stream) from h.2
  refine each_reaches (P := fun t => Bound 0 s t ∧ Holds e.1 (s.reg e.1) t) (Q := fun t => Bound 0 s t ∧ Holds e.1 (s.merged e.1 e.2) t)
    hc ?_ ?_ ?_ ⟨Bound.refl 0 hs, rfl⟩
  · intro t d hd hne h
    refine (hkept _).turnChan (hkept _) (mem_groupChans hg hd).1 (fun h => ?_) h _ _ _ _ _
    exact ⟨hbound d h.1, takeStaged_keeps (hother hne hd) h.2⟩
  · intro t h
    exact (hkept _).turnChan (commit := true) (hkept _) (mem_groupChans hg hc).1 (fun h => hown h.1 (.inl h.2)) h _ _ _ _ _
  · intro t d hd h
    refine (hkept _).turnChan (hkept _) (mem_groupChans hg hd).1 (fun h => ?_) h _ _ _ _ _
    by_cases hne : d = c
    · exact hne ▸ hown h.1 (.inr h.2)
    · exact ⟨hbound d h.1, takeStaged_keeps (hother hne hd) h.2⟩

end Sys2Proof.SliceProofs

namespace Sys2Proof.SliceProofs

open Sys2Proof Sys2Proof.Machine Sys2Proof.Laws Sys2Proof.ScopeProofs Sys2Proof.TimeProofs Sys2Proof.TickProofs Sys2Proof.InputProofs

/-! ## The weave banks (R158) -/

theorem exec_weaveWrite (s : State) (sl : Fin 34) (bank : Bool) (e : Fin 256) (v : Reg) :
    exec (.weaveWrite sl bank e v) s = act (fun s => s.otherWrite.weaveWrite sl bank e v) s := rfl

/-- The state that a write of a weave entry meets is that of the hub but for the count of test-mode keys. -/
theorem weaveWrite_next {s t : State} (hs : s.quiet = true) {sl : Fin 34} {bank : Bool} {e : Fin 256} {v : Reg} {l : List Nat}
    (hf : s.otherWrite.weaveWrite sl bank e v = t) (h : Mild l s.otherWrite t) (hl : 0x005040 ∉ l) :
    exec (.weaveWrite sl bank e v) s = .next t ∧ Mild l s t := by
  have hmild : Mild l s t := (Mild.modRim s _ rfl rfl rfl rfl).trans h
  exact ⟨(exec_weaveWrite s sl bank e v).trans (act_eq hs hf (hmild.quiet hl) hmild.pending), hmild⟩

theorem weaveWrite_active {u : State} {n : Nat} {bank : Bool} (e : Nat) (v : Reg) (hn : n < 32) (h : u.actBank n = bank) :
    u.weaveWrite n bank e v = u.raiseInt (Irq.wrActive n) := by
  rw [State.weaveWrite, if_neg (Nat.not_le_of_lt hn), if_pos h]

theorem weaveWrite_inactive {u : State} {n : Nat} {bank : Bool} (e : Nat) (v : Reg) (hn : n < 32) (h : u.actBank n = !bank) :
    u.weaveWrite n bank e v = u.setReg (weaveAddr n bank e) (v &&& 0xFFFFFF80#32) := by
  rw [State.weaveWrite, if_neg (Nat.not_le_of_lt hn), if_neg (by rw [h]; cases bank <;> decide)]

theorem weaveAddr_ne_boot (n : Nat) (bank : Bool) (e : Nat) : weaveAddr n bank e ≠ 0x005040 := by
  simp only [weaveAddr, pgSLICE]
  omega

/-! ## The boundary of a group (R159, R254) -/

theorem exec_sliceCommitApply (s : State) (sl : Fin 34) : exec (.sliceCommitApply sl) s = act (·.sliceApply sl) s := rfl
theorem exec_chtabCommitApply (s : State) (g : Fin 32) : exec (.chtabCommitApply g) s = act (·.chtabApply g) s := rfl

theorem follows_of_leads {s : State} (h : s.leads = true) : s.follows = false := by
  simp only [State.leads, State.follows, roleSolo, roleActive, roleStandby, roleJoining, Bool.or_eq_true, decide_eq_true_eq,
    Bool.or_eq_false_iff, decide_eq_false_iff_not] at h ⊢
  omega

theorem commitOf_commitEnd (s : State) (p : Nat) : (s.commitEnd p).commitOf p = none := by
  have hleft : ({ s with commits := s.commits.filter fun c => decide (c.page ≠ p) } : State).commitOf p = none := find_filter_self s.commits p
  unfold State.commitEnd
  dsimp only
  generalize ({ s with commits := s.commits.filter fun c => decide (c.page ≠ p) } : State) = u at hleft ⊢
  refine QueueKept.when (P := fun t => t.commitOf p = none) (f := fun s => s.raiseInt Irq.commitApplied) hleft fun h => ?_
  rw [State.commitOf, raiseInt_commits]
  exact h

theorem commitEnd_reg_ne (s : State) (p : Nat) {a : Nat} (ha : a ≠ 0x000010) : (s.commitEnd p).reg a = s.reg a := by
  unfold State.commitEnd
  dsimp only
  refine QueueKept.when (P := fun t => t.reg a = s.reg a) (f := fun s => s.raiseInt Irq.commitApplied) ?_ fun h => ?_
  · rfl
  · exact (raiseInt_reg_ne _ _ _ ha).trans h

theorem commitDue_congr {s t : State} {p : Nat} (h : t.commitOf p = s.commitOf p) : t.commitDue p = s.commitDue p := by
  rw [State.commitDue, h, State.commitDue]

/-- The channels of group `g` have turned; a request to close their windows early is met. -/
def turned (s : State) (g : Nat) (c1 : Nat → Bool) (stream : Bool) : State :=
  (groupTurns s g (s.commitDue (pgCHTAB g)) (s.getGroup g).closeDue c1 stream).modGroup g fun x => { x with closeDue := false }

/-- A channel-table commit that has taken effect ends. -/
def tableEnded (s : State) (g : Nat) (u : State) : State :=
  u.when (s.commitDue (pgCHTAB g)) fun u => (u.sendFactors g s).commitEnd (pgCHTAB g)

theorem groupBoundary_noEdge (s : State) (g : Nat) (stream : Bool) :
    s.groupBoundary g stream false = tableEnded s g (turned s g (fun _ => false) stream) := by
  unfold State.groupBoundary
  simp only [when_of_false, Bool.false_and, Bool.false_eq_true, if_false]
  rfl

theorem groupBoundary_edge (s : State) (g : Nat) (stream : Bool) : s.groupBoundary g stream true
    = ((tableEnded s g (turned s g (s.bankTurn g).2 stream)).when ((tableEnded s g (turned s g (s.bankTurn g).2 stream)).commitDue (pgSLICE g))
        fun s => s.commitApply (pgSLICE g)).when (s.bankTurn g).1 fun s => s.raiseInt (Irq.bankSwitched g) := by
  unfold State.groupBoundary
  simp only [Bool.true_and, if_true]
  rfl

theorem turned_bound {s : State} {p g : Nat} (hp : ¬ rainPage p) (hg : g < 32) (hs : OnlyDue s) (c1 : Nat → Bool) (stream : Bool) :
    Bound p s (turned s g c1 stream) := (Bound.kept hp).group g _ (groupTurns_bound hp hg hs _ _ c1 stream)

theorem pgCHTAB_not_rain {g : Nat} (hg : g < 32) : ¬ rainPage (pgCHTAB g) := by simp only [rainPage, pgCHTAB]; omega
theorem pgSLICE_not_rain {n : Nat} (hn : n < 34) : ¬ rainPage (pgSLICE n) := by simp only [rainPage, pgSLICE]; omega

theorem tableEnded_bound {s w u : State} {p g : Nat} (hp : ¬ rainPage p) (hpg : p ≠ pgCHTAB g) (h : Bound p w u) :
    Bound p w (tableEnded s g u) := QueueKept.when h fun h => ((Bound.kept hp).sendFactors h).commitEnd hp hpg

/-! ### A channel-table commit (R254) -/

theorem chtabApply_due {s : State} {g : Nat} (hdue : s.commitDue (pgCHTAB g) = true) (hf : s.follows = false) (hp : s.passRuns g = false) :
    s.chtabApply g = s.groupBoundary g s.leads false := by
  rw [State.chtabApply, if_pos ⟨hdue, hf⟩, State.boundaryNow, if_neg (by simp [hp]), if_neg (by simp [hf])]

theorem chtabApply_idle {s : State} {g : Nat} (h : s.commitDue (pgCHTAB g) = false ∨ s.follows = true ∨ s.passRuns g = true) :
    s.chtabApply g = s := by
  unfold State.chtabApply State.boundaryNow
  rcases h with h | h | h <;> simp [h]

/-- The state that a channel-table commit leaves, apart from the interrupts that fall due: its registers, and what it leaves alone. -/
structure TableTaken (s : State) (g : Nat) (t : State) : Prop where
  due : OnlyDue t
  time : t.time = s.time
  staged : t.staged = s.staged
  commit : t.commitOf (pgCHTAB g) = none
  regs : ∀ e ∈ rwsRegs (pgCHTAB g), t.reg e.1 = s.merged e.1 e.2

theorem groupBoundary_table {s : State} {g : Nat} (hg : g < 32) (hs : OnlyDue s) (hdue : s.commitDue (pgCHTAB g) = true) (stream : Bool) :
    TableTaken s g (s.groupBoundary g stream false) := by
  have hp : ¬ rainPage 0 := by decide
  have hbound : Bound 0 s (s.groupBoundary g stream false) := by
    rw [groupBoundary_noEdge]
    exact tableEnded_bound hp (by simp only [pgCHTAB]; omega) (turned_bound hp hg hs _ stream)
  have hended : s.groupBoundary g stream false = ((turned s g (fun _ => false) stream).sendFactors g s).commitEnd (pgCHTAB g) := by
    rw [groupBoundary_noEdge, tableEnded, hdue, when_of_true _ _ rfl]
  refine ⟨hbound.due, hbound.time, hbound.staged, ?_, fun e he => ?_⟩
  · rw [hended]
    exact commitOf_commitEnd _ _
  · obtain ⟨-, -, hturn, hpage⟩ := rwsRegs_chtab hg he
    have hk : TurnKept (Holds e.1 (s.merged e.1 e.2)) := Holds.kept hturn
    have hmerged : Holds e.1 (s.merged e.1 e.2) (turned s g (fun _ => false) stream) := by
      rw [turned, hdue]
      exact hk.group g _ (groupTurns_merged hg hs _ _ stream he)
    have hsent := hk.sendFactors (g := g) (before := s) hmerged
    have hchip : e.1 ≠ 0x000010 := by
      intro h
      simp only [pgCHTAB] at hpage
      omega
    rw [hended]
    exact (commitEnd_reg_ne _ _ hchip).trans hsent

theorem TableTaken.served {s t : State} {g : Nat} (hg : g < 32) (h : TableTaken s g t) (n : Nat) : TableTaken s g (State.serveDue n t) := by
  have hbound := (Bound.kept (w := t) (pgCHTAB_not_rain hg)).chain.queue.serveDue (n := n) (Bound.refl _ h.due)
  refine ⟨hbound.due, hbound.time.trans h.time, hbound.staged.trans h.staged, hbound.commit.trans h.commit, fun e he => ?_⟩
  obtain ⟨-, -, hturn, -⟩ := rwsRegs_chtab hg he
  exact (Holds.kept hturn).chain.queue.serveDue (n := n) (h.regs e he)

/-! ### A commit of a SLICE page (R159) -/

theorem sliceApply_spare {s : State} {n : Nat} (hn : 32 ≤ n) (hdue : s.commitDue (pgSLICE n) = true) :
    s.sliceApply n = s.commitApply (pgSLICE n) := by
  rw [State.sliceApply, if_neg (by simp [hdue]), if_pos hn]

theorem sliceApply_due {s : State} {n : Nat} (hn : n < 32) (hdue : s.commitDue (pgSLICE n) = true) (hl : s.leads = true)
    (hp : s.passRuns n = false) : s.sliceApply n = s.groupBoundary n true true := by
  have hf := follows_of_leads hl
  rw [State.sliceApply, if_neg (by simp [hdue]), if_neg (Nat.not_le_of_lt hn), if_neg (by simp [hf]), State.boundaryNow,
    if_neg (by simp [hp]), if_neg (by simp [hf]), hl]

theorem sliceApply_idle {s : State} {n : Nat} (h : s.commitDue (pgSLICE n) = false ∨ (n < 32 ∧ s.leads = true ∧ s.passRuns n = true)) :
    s.sliceApply n = s := by
  rcases h with h | ⟨hn, hl, hp⟩
  · exact if_pos h
  · unfold State.sliceApply State.boundaryNow
    simp [Nat.not_le_of_lt hn, follows_of_leads hl, hp]

end Sys2Proof.SliceProofs

namespace Sys2Proof.SliceProofs

open Sys2Proof Sys2Proof.Machine Sys2Proof.Laws Sys2Proof.ScopeProofs Sys2Proof.TimeProofs Sys2Proof.TickProofs Sys2Proof.InputProofs

/-! ### The switch of a bank (R159) -/

theorem getBits_bit (v : Reg) (lo : Nat) : decide (getBits v lo 1 ≠ 0) = v.getLsbD lo := by
  rw [getBits, Nat.pow_one, Nat.shiftRight_eq_div_pow, BitVec.getLsbD, Nat.testBit_eq_decide_div_mod_eq]
  congr 1
  exact propext Nat.mod_two_ne_zero

/-- The bank that a commit of the page makes active. -/
abbrev newBank (s : State) (n : Nat) : Bool := (s.stg (F.SLICE.SLICE_CTL.ACT_BANK n).addr).getLsbD 0

/-- Once ACT_BANK is taken, the staged bank is active. -/
theorem actBank_merged {s t : State} {n : Nat}
    (h : t.reg (F.SLICE.SLICE_CTL.ACT_BANK n).addr = s.merged (F.SLICE.SLICE_CTL.ACT_BANK n).addr 1) : t.actBank n = newBank s n := by
  rw [State.actBank, State.bit, State.fld, h, getBits_merged s (F.SLICE.SLICE_CTL.ACT_BANK n) 1 fun i hi => ?_, State.stgFld, getBits_bit]
  obtain rfl : i = 0 := by simp only at hi; omega
  exact (show (0 : Nat) + 0 < 32 ∧ Nat.testBit 1 (0 + 0) = true by decide)

/-- A switch is due where the staged bank is not the active one. -/
theorem bankTurn_fst {s : State} {n : Nat} (hdue : s.commitDue (pgSLICE n) = true) :
    (s.bankTurn n).1 = decide (newBank s n ≠ s.actBank n) := by
  unfold State.bankTurn
  dsimp only
  rw [apply_ite Prod.fst, hdue, newBank, ← getBits_bit]
  dsimp only
  generalize getBits (s.stg (0x040040 + 0x1000 * n)) 0 1 = new
  generalize s.actBank n = old
  by_cases h : new = 0 <;> cases old <;> simp [h]

theorem commitApply_slice (s : State) {n : Nat} (hn : n < 34) :
    s.commitApply (pgSLICE n) = (s.takeStaged ((F.SLICE.SLICE_CTL.ACT_BANK n).addr, 1)).commitEnd (pgSLICE n) := by
  rw [State.commitApply, rwsRegs_slice hn]
  rfl

theorem commitApply_slice_reg (s : State) {n : Nat} (hn : n < 34) :
    (s.commitApply (pgSLICE n)).reg (F.SLICE.SLICE_CTL.ACT_BANK n).addr = s.merged (F.SLICE.SLICE_CTL.ACT_BANK n).addr 1 := by
  rw [commitApply_slice s hn]
  exact (commitEnd_reg_ne _ _ (by simp only; omega)).trans (reg_setReg_same s _ _)

/-- Of its own page no turn of a group writes a register. -/
theorem not_turnReg_slice {n o : Nat} (hn : n < 32) (ho : o < 0x1000) : ¬ turnReg (0x1000 * pgSLICE n + o) := by
  simp only [turnReg, chainAddr, pgRIM, pgRED, pgTRIG, pgCHIP, pgSLICE]
  omega

/-- The state that a commit of a group's page leaves, apart from the interrupts that fall due. -/
structure BankTaken (s : State) (n : Nat) (t : State) : Prop where
  due : OnlyDue t
  time : t.time = s.time
  commit : t.commitOf (pgSLICE n) = none
  bank : t.actBank n = newBank s n
  irq : newBank s n ≠ s.actBank n → (t.reg (0x1000 * pgSLICE n + 0x010)).getLsbD (Irq.bankSwitched n).bit = true

theorem commitApply_slice_onlyDue {s u : State} {n : Nat} (hn : n < 32) (h : Bound (pgSLICE n) s u) :
    OnlyDue (u.commitApply (pgSLICE n)) ∧ (u.commitApply (pgSLICE n)).time = s.time := by
  have hp : ¬ rainPage 0 := by decide
  rw [commitApply_slice u (by omega)]
  have htaken : Bound 0 u (u.takeStaged ((F.SLICE.SLICE_CTL.ACT_BANK n).addr, 1)) :=
    (Bound.refl 0 h.due).setReg _ (by simp only; omega)
  have hended := htaken.commitEnd hp (q := pgSLICE n) (by simp only [pgSLICE]; omega)
  exact ⟨hended.due, hended.time.trans h.time⟩

theorem groupBoundary_bank {s : State} {n : Nat} (hn : n < 32) (hs : OnlyDue s) (hdue : s.commitDue (pgSLICE n) = true) (stream : Bool) :
    BankTaken s n (s.groupBoundary n stream true) := by
  have hp : ¬ rainPage (pgSLICE n) := pgSLICE_not_rain (by omega)
  have hbound : Bound (pgSLICE n) s (tableEnded s n (turned s n (s.bankTurn n).2 stream)) :=
    tableEnded_bound hp (by simp only [pgSLICE, pgCHTAB]; omega) (turned_bound hp hn hs _ stream)
  rw [groupBoundary_edge]
  generalize tableEnded s n (turned s n (s.bankTurn n).2 stream) = u at hbound ⊢
  obtain ⟨hdone, htime⟩ := commitApply_slice_onlyDue hn hbound
  have hbank : (u.commitApply (pgSLICE n)).actBank n = newBank s n :=
    (actBank_merged (commitApply_slice_reg u (by omega))).trans (congrArg (·.getLsbD 0) (hbound.stg _))
  have hnone : (u.commitApply (pgSLICE n)).commitOf (pgSLICE n) = none := commitOf_commitEnd _ _
  rw [when_of_true _ _ ((commitDue_congr hbound.commit).trans hdue), bankTurn_fst hdue]
  generalize u.commitApply (pgSLICE n) = t at hdone htime hbank hnone
  by_cases hsw : newBank s n ≠ s.actBank n
  · rw [when_of_true _ _ (decide_eq_true hsw)]
    have hraised := (Bound.refl (pgSLICE n) hdone).raiseInt hp (i := Irq.bankSwitched n) (by simp only [pgSLICE]; omega)
    refine ⟨hraised.due, hraised.time.trans htime, hraised.commit.trans hnone, Eq.trans ?_ hbank, fun _ => ?_⟩
    · refine congrArg (fun r => decide (getBits r 0 1 ≠ 0)) (raiseInt_reg_ne _ _ _ ?_)
      simp only [pgSLICE]
      omega
    · exact raiseInt_irq t (Irq.bankSwitched n) (show (0 : Nat) < 32 by decide)
  · rw [when_of_false _ _ (decide_eq_false hsw)]
    exact ⟨hdone, htime, hnone, hbank, fun h => absurd h hsw⟩

/-- What the interrupts in band write is not of the page. -/
theorem BankTaken.served {s t : State} {n : Nat} (hn : n < 32) (h : BankTaken s n t) (k : Nat) : BankTaken s n (State.serveDue k t) := by
  have hbound := (Bound.kept (w := t) (pgSLICE_not_rain (n := n) (by omega))).chain.queue.serveDue (n := k) (Bound.refl _ h.due)
  have hreg {o : Nat} (ho : o < 0x1000) : (State.serveDue k t).reg (0x1000 * pgSLICE n + o) = t.reg (0x1000 * pgSLICE n + o) :=
    (Holds.kept (not_turnReg_slice hn ho)).chain.queue.serveDue (n := k) rfl
  have hctl : (F.SLICE.SLICE_CTL.ACT_BANK n).addr = 0x1000 * pgSLICE n + 0x040 := by simp only [pgSLICE]; omega
  refine ⟨hbound.due, hbound.time.trans h.time, hbound.commit.trans h.commit, Eq.trans ?_ h.bank, fun hsw => ?_⟩
  · refine congrArg (fun r => decide (getBits r 0 1 ≠ 0)) ?_
    rw [hctl]
    exact hreg (by decide)
  · rw [hreg (by decide)]
    exact h.irq hsw

/-- The staged values of a spare's page become running, and its request ends. -/
theorem commitApply_alone {s : State} {n : Nat} (hn : n < 34) (hc : s.commits = [{ page := pgSLICE n }]) :
    s.commitApply (pgSLICE n) = { s.takeStaged ((F.SLICE.SLICE_CTL.ACT_BANK n).addr, 1) with commits := [] } := by
  have hc' : (s.takeStaged ((F.SLICE.SLICE_CTL.ACT_BANK n).addr, 1)).commits = [{ page := pgSLICE n }] := hc
  rw [commitApply_slice s hn]
  generalize s.takeStaged ((F.SLICE.SLICE_CTL.ACT_BANK n).addr, 1) = u at hc' ⊢
  have hof : u.commitOf (pgSLICE n) = some { page := pgSLICE n } := by simp [State.commitOf, hc']
  unfold State.commitEnd
  rw [hof, hc']
  refine (when_of_false _ _ rfl).trans ?_
  simp

theorem exec_spareCommit {s : State} (hs : s.quiet = true) {sl : Fin 34} (hsl : 32 ≤ sl.val)
    (hc : s.commits = [{ page := pgSLICE sl.val }]) :
    exec (.sliceCommitApply sl) s = .next { s.takeStaged ((F.SLICE.SLICE_CTL.ACT_BANK sl.val).addr, 1) with commits := [] } := by
  have hdue : s.commitDue (pgSLICE sl.val) = true := by simp [State.commitDue, State.commitOf, hc]
  refine (exec_sliceCommitApply s sl).trans (act_eq hs ((sliceApply_spare hsl hdue).trans (commitApply_alone sl.isLt hc)) ?_ rfl)
  exact quiet_setReg s _ _ (by simp only; omega)

/-- Settles O22: a weave entry is written by one register rule a case, and a commit is followed through the turns of its channels, which
leave the registers of a SLICE page and write those of a channel table by its staged values alone. -/
theorem weaveAndTableCommits : Obligations.WeaveAndTableCommits := by
  unfold Obligations.WeaveAndTableCommits
  intro s hs
  refine ⟨?_, ?_, ?_, ?_, ?_, ?_, ?_, ?_, ?_⟩
  case refine_1 =>
    intro sl bank e v hsl hbank
    refine (weaveWrite_next hs (weaveWrite_inactive e.val v hsl hbank)
      (Mild.setReg (l := [weaveAddr sl.val bank e.val]) _ _ _ List.mem_cons_self) ?_).1
    exact fun h => weaveAddr_ne_boot sl.val bank e.val (List.mem_singleton.1 h).symm
  case refine_2 =>
    intro sl bank e v hsl hbank hroute
    obtain ⟨hnext, hmild⟩ := weaveWrite_next hs (weaveWrite_active e.val v hsl hbank)
      (Mild.raiseInt (l := [0x1000 * pgSLICE sl.val + 0x010]) _ (Irq.wrActive sl.val) hroute List.mem_cons_self)
      (by simp only [List.mem_singleton, pgSLICE]; omega)
    exact ⟨_, hnext, raiseInt_irq _ (Irq.wrActive sl.val) (show (1 : Nat) < 32 by decide), hmild.regs, hmild.only⟩
  case refine_3 =>
    intro sl bank e v hsl
    exact (weaveWrite_next hs (if_pos hsl) (Mild.refl [] _) List.not_mem_nil).1
  case refine_4 =>
    intro sl hsl hc
    refine ⟨_, exec_spareCommit hs hsl hc, rfl, fun e he => ?_, rfl, rfl⟩
    rw [rwsRegs_slice sl.isLt] at he
    obtain rfl := List.mem_singleton.1 he
    exact reg_setReg_same s _ _
  case refine_5 =>
    intro sl hsl hdue hlead hpass _
    have htaken := groupBoundary_bank hsl (OnlyDue.of_quiet hs) hdue true
    have hserved := htaken.served hsl 1024
    refine ⟨_, (exec_sliceCommitApply s sl).trans (act_onlyDue hs (sliceApply_due hsl hdue hlead hpass) htaken.due), hserved.commit,
      hserved.bank, ?_, hserved.time⟩
    by_cases hsw : newBank s sl.val = s.actBank sl.val
    · exact .inl (hserved.bank.trans hsw)
    · exact .inr (hserved.irq hsw)
  case refine_6 =>
    intro sl h
    exact (exec_sliceCommitApply s sl).trans (act_idle hs (sliceApply_idle h))
  case refine_7 =>
    intro g hdue hfollow hpass
    rw [exec_chtabCommitApply, act, inReset_of_quiet s hs, if_neg Bool.false_ne_true, chtabApply_due hdue hfollow hpass]
  case refine_8 =>
    intro g hdue hlead _ hpass
    have htaken := groupBoundary_table g.isLt (OnlyDue.of_quiet hs) hdue s.leads
    have hserved := htaken.served g.isLt 1024
    exact ⟨_, (exec_chtabCommitApply s g).trans (act_onlyDue hs (chtabApply_due hdue (follows_of_leads hlead) hpass) htaken.due),
      hserved.commit, hserved.regs, hserved.time, hserved.staged⟩
  case refine_9 =>
    intro g h
    exact (exec_chtabCommitApply s g).trans (act_idle hs (chtabApply_idle h))

end Sys2Proof.SliceProofs
